-- ==== Sys2Proof/Word.lean ====
section
/-! DEFINITION. The word types of the block (R3): 8-bit bytes and 32-bit registers. -/

namespace Sys2Proof

/-- One byte of a memory, record or entry. -/
abbrev Byte := BitVec 8

/-- One 32-bit register (R3). -/
abbrev Word := BitVec 32

end Sys2Proof
end

