-- ==== Sys2Proof/Syntax.lean ====
section
/-! DEFINITION. The commands of the block: one constructor of `Instr` per row of the table of operations and events
(spec/opcode_table.json), with the operands that reach the module from outside (a register value, a DMA completion, a flit,
a converter reading). A host command carries the acceptance number `k` of the entry it executes (R249). -/

namespace Sys2Proof

/-- The access path of a register access (R22, R230): the host through BAR0 or BAR2, or the board controller through the
management port. -/
inductive Path where
  | bar0
  | bar2
  | mgmt
  deriving DecidableEq, Repr

/-- A Jartan port: index 0 is E, 1 is W, 2 is U (LINK registers). -/
inductive Port where
  | east
  | west
  | up
  deriving DecidableEq, Repr

/-- The port's index p in the LINK registers. -/
def Port.idx : Port → Nat
  | .east => 0
  | .west => 1
  | .up => 2

/-- A flit after the Hatch decoder: header fields (R178) and the 28 payload bytes. -/
structure Flit where
  type : Nat
  src : Nat
  epoch : Nat
  seq : Nat
  flags : Nat
  payload : List Byte
  deriving DecidableEq, Repr

/-- One pixel of a strip segment (R221): value, saturated bit, smallest and largest valid depth. -/
structure SegPx where
  v : Nat
  sat : Bool
  dmin : Nat
  dmax : Nat
  deriving DecidableEq, Repr

/-- A strip segment of one slot (R221); `whole` is false when flits are missing or FIRST came before LAST. -/
structure Segment where
  slot : Nat
  channel : Nat
  profile : Nat
  flags : Nat
  web : BitVec 64
  pitch : Nat
  genLo : Word
  genHi : Word
  cls : Nat
  depth : Nat
  px : List SegPx
  whole : Bool
  deriving DecidableEq, Repr

/-- What a port sees during training (R185). -/
inductive TrainEv where
  /-- Signal on a number of lanes. -/
  | signal (lanes : Nat)
  /-- Block lock on a number of lanes. -/
  | blockLock (lanes : Nat)
  /-- The peer's HI_LO and HI_HI: its unique ID, slot, port code and epoch low bits; lanes in use. -/
  | peer (id : BitVec 64) (slot : BitVec 6) (port : BitVec 2) (epoch : BitVec 8) (rx tx : BitVec 4)
  deriving DecidableEq, Repr

/-- How a completion of a non-posted request ended (R242): successful, or the HALT cause. -/
inductive CplCause where
  | ok
  | unsupported
  | completerAbort
  | poisoned
  | ecrc
  | malformed
  deriving DecidableEq, Repr

/-- Where a management-port transaction ends (R348). -/
inductive SpiEnd where
  | complete
  | inHeader
  | inTurnaround
  | inWord
  deriving DecidableEq, Repr

/-- The instruction classes of the test access port (R355). -/
inductive JtagCode where
  | bypass
  | idcode
  | samplePreload
  | extest
  /-- A Knabuis factory instruction: the spec does not say what it does. -/
  | factory (code : Nat)
  /-- Any other code. -/
  | other (code : Nat)
  deriving DecidableEq, Repr

/-- What a completed start-up step found outside the module's own state (R322): trained channels and wires that failed training. -/
structure StartIn where
  trained : BitVec 4
  failedWires : List (Nat × Nat)
  deriving DecidableEq, Repr

/-- A bit error that a read of the Keep meets: the byte address of the 8-byte group, and whether two of its bits are wrong
(R280). -/
structure KeepErr where
  addr : Nat
  double : Bool
  deriving DecidableEq, Repr

/-- The analogue findings of one run of the Margin Plan (R301): new bias trims per group, new skimming trim entries
of the range in force, the T_int headroom, and what it reads of the monitors: ΔF of the 24 pairs, and the readings of monitors
2 to 11 with their factory readings (R300). -/
structure PlanIn where
  cgTrim : List Int
  skimTrim : List (Nat × Int)
  tint : Nat
  dfs : List Int
  mons : List (Int × Int × Int)
  deriving DecidableEq, Repr


/-- The control fields of configuration space that the spec refers to and a configuration write may change (R229, R234,
R241, R244, R245): payload sizes, Relaxed Ordering, ECRC, PTM, MSI-X enable and function mask, completion timeout in ticks
(none when disabled). -/
structure CfgCtl where
  mps : Nat
  mrrs : Nat
  ro : Bool
  ecrcGen : Bool
  ecrcChk : Bool
  ptm : Bool
  msixEn : Bool
  fnMask : Bool
  cplTimeout : Option Nat
  deriving DecidableEq, Repr

/-- A QDR word that a read found with errors (R270 to R272): its number, the burst as it came back, and whether a newer functional
write to its address was accepted behind the read. -/
structure BurstIn where
  word : Nat
  code : List Byte
  newer : Bool
  deriving DecidableEq, Repr

/-- Where a received flit stood (R176, R194): the number of its pair's first block after the last control group, whether it is the pair's
second flit, its ingress stamp in 1/65,536 tick, and the lanes on which its blocks bore an invalid sync header. -/
structure FlitIn where
  blk : Nat
  second : Bool
  stamp : Nat
  badSync : List Nat
  deriving DecidableEq, Repr

/-- A word of the internal path that came with errors (R269, R271): its pipeline lane, row position in the slot, number within the
row (pixels 16 n to 16 n + 15 of the window), and the 36 bytes as they came. -/
structure PathIn where
  lane : Nat
  row : Nat
  num : Nat
  code : List Byte
  deriving DecidableEq, Repr


/-- One constructor per row of the table; the docstring of each gives the row's rule. -/
inductive Instr where
  /-- NOP (R252). -/
  | nop (k : Nat)
  /-- START_IMAGING (R373). -/
  | startImaging (k : Nat)
  /-- STOP_IMAGING (R252). -/
  | stopImaging (k : Nat)
  /-- ACQ_STAGE (R252). -/
  | acqStage (k : Nat)
  /-- ACQ_COMMIT (R44). -/
  | acqCommit (k : Nat)
  /-- PROFILE_SELECT_AT (R162). -/
  | profileSelectAt (k : Nat)
  /-- GLADE_DECLARE (R131). -/
  | gladeDeclare (k : Nat)
  /-- PROOF_REQUEST (R121). -/
  | proofRequest (k : Nat)
  /-- STAT_SNAPSHOT (R167). -/
  | statSnapshot (k : Nat)
  /-- FRAME_CAPTURE (R83). -/
  | frameCapture (k : Nat)
  /-- RING_RESET (R234). -/
  | ringReset (k : Nat)
  /-- AUX_SEQ_LOAD (R333). -/
  | auxSeqLoad (k : Nat)
  /-- AUX_CAL_ZERO (R338). -/
  | auxCalZero (k : Nat)
  /-- AUX_CAL_FULL (R338). -/
  | auxCalFull (k : Nat)
  /-- DOMAIN_SET (R310). -/
  | domainSet (k : Nat)
  /-- HEALTH_SELFTEST (R297). -/
  | healthSelftest (k : Nat)
  /-- MARGIN_PLAN_RUN (R301). -/
  | marginPlanRun (k : Nat)
  /-- LOG_READ (R291). -/
  | logRead (k : Nat)
  /-- KEEP_READ (R281). -/
  | keepRead (k : Nat) (errs : List KeepErr)
  /-- FLASH_READ (R252). -/
  | flashRead (k : Nat)
  /-- STAND_QUERY (R201). -/
  | standQuery (k : Nat)
  /-- PLATE_WRITE (R76). -/
  | plateWrite (k : Nat)
  /-- PLATE_COMMIT (R76). -/
  | plateCommit (k : Nat)
  /-- CURVE_WRITE (R103). -/
  | curveWrite (k : Nat)
  /-- PROFILE_DEFINE (R161). -/
  | profileDefine (k : Nat)
  /-- STIPPLE_EDIT (R82). -/
  | stippleEdit (k : Nat)
  /-- FACTORY_PLATE_RESTORE (R76). -/
  | factoryPlateRestore (k : Nat)
  /-- STAND_MAP_SET (R202). -/
  | standMapSet (k : Nat)
  /-- ROLE_SET (R209). -/
  | roleSet (k : Nat)
  /-- KEY_IMPORT (R256). -/
  | keyImport (k : Nat)
  /-- KEY_RETIRE (R258). -/
  | keyRetire (k : Nat)
  /-- FW_STAGE (R263). -/
  | fwStage (k : Nat)
  /-- FW_SWITCH (R264). -/
  | fwSwitch (k : Nat)
  /-- KEEP_WRITE (R282). -/
  | keepWrite (k : Nat)
  /-- FLASH_ERASE (R279). -/
  | flashErase (k : Nat)
  /-- REPAIR_POLICY_SET (R296). -/
  | repairPolicySet (k : Nat)
  /-- DOORBELL_WRITE (R233). -/
  | doorbellWrite (n : Fin 16) (v : Word) (wide : Bool)
  /-- COMMAND_FETCH (R249). -/
  | commandFetch (entry : List Byte)
  /-- INDIRECT_DATA_FETCH (R248). -/
  | indirectDataFetch (k : Nat) (data : List Byte)
  /-- COMPLETION_WRITE (R235). -/
  | completionWrite
  /-- MBX_GO (R261). -/
  | mbxGo (p : Path)
  /-- MBX_ACK (R261). -/
  | mbxAck (p : Path)
  /-- RUN_SET (R373). -/
  | runSet
  /-- RUN_CLEAR (R252). -/
  | runClear
  /-- FPA_CNT_CLR (R26). -/
  | fpaCntClr
  /-- ACQ_CTL_COMMIT (R44). -/
  | acqCtlCommit
  /-- ACQ_CTL_CANCEL (R47). -/
  | acqCtlCancel
  /-- STAGE_CTL_WRITE (R53). -/
  | stageCtlWrite (v : Word)
  /-- SHADOW_RELEASE (R75). -/
  | shadowRelease
  /-- PIPE_CNT_CLR (R26). -/
  | pipeCntClr (loaderr : Bool) (cap : Bool)
  /-- AC_CTL_WRITE (R113). -/
  | acCtlWrite (v : Word)
  /-- DM_COEFF_WRITE (R100). -/
  | dmCoeffWrite (n : Fin 8) (v : Word)
  /-- PROOF_SCHED_WRITE (R135). -/
  | proofSchedWrite (v : Word)
  /-- SHUT_CLEAR (R118). -/
  | shutClear
  /-- TEST_CLOSE (R115). -/
  | testClose
  /-- TEST_OPEN (R115). -/
  | testOpen
  /-- PROOF_CNT_CLR (R26). -/
  | proofCntClr
  /-- PRESET (R143). -/
  | preset
  /-- FLUSH (R155). -/
  | flush
  /-- WEB_CNT_CLR (R26). -/
  | webCntClr
  /-- WEB_CTL_WRITE (R143). -/
  | webCtlWrite (v : Word)
  /-- HOST_SPEED_WRITE (R143). -/
  | hostSpeedWrite (v : Word)
  /-- GEO_COMMIT (R146). -/
  | geoCommit
  /-- SNAP (R167). -/
  | snap
  /-- ALARM_CNT_CLR (R26). -/
  | alarmCntClr
  /-- ALARM_QUEUE_CLR (R170). -/
  | alarmQueueClr
  /-- AL_OUT_WRITE (R354). -/
  | alOutWrite (n : Fin 4) (v : Word)
  /-- APPLY (R173). -/
  | apply
  /-- LINK_CNT_CLR (R26). -/
  | linkCntClr
  /-- SCAN (R181). -/
  | scan (q : Port)
  /-- TS_SRC_WRITE (R246). -/
  | tsSrcWrite (src : Fin 4)
  /-- STAND_CNT_CLR (R26). -/
  | standCntClr
  /-- TRIM_RESET (R226). -/
  | trimReset
  /-- HOST_CNT_CLR (R26). -/
  | hostCntClr
  /-- WIDTH_MAX_WRITE (R231). -/
  | widthMaxWrite (wm : Fin 4)
  /-- RESUME (R243). -/
  | resume (c : Fin 8)
  /-- RING_ENABLE (R234). -/
  | ringEnable (n : Fin 16)
  /-- RING_DISABLE (R234). -/
  | ringDisable (n : Fin 16)
  /-- RING_CTL_RESET (R234). -/
  | ringCtlReset (n : Fin 16)
  /-- SEC_CNT_CLR (R26). -/
  | secCntClr
  /-- MEM_CNT_CLR (R26). -/
  | memCntClr
  /-- TW_SEL_WRITE (R276). -/
  | twSelWrite (p : Path) (v : Word)
  /-- TABLE_WINDOW_READ (R275). -/
  | tableWindowRead (p : Path) (off : Nat) (code : Option (List Byte))
  /-- TABLE_WINDOW_WRITE (R275). -/
  | tableWindowWrite (p : Path) (off : Nat) (v : Word)
  /-- STORE_CNT_CLR (R26). -/
  | storeCntClr
  /-- HEALTH_CNT_CLR (R26). -/
  | healthCntClr
  /-- MP_RUN (R301). -/
  | mpRun
  /-- SYS_RST_HOST (R320). -/
  | sysRstHost
  /-- SYS_RST_WARM (R320). -/
  | sysRstWarm
  /-- SAVE (R325). -/
  | save
  /-- BOOT_CLEAR (R325). -/
  | bootClear
  /-- CLK_CNT_CLR (R26). -/
  | clkCntClr
  /-- PWR_CNT_CLR (R26). -/
  | pwrCntClr
  /-- BAL_SETPOINT_WRITE (R315). -/
  | balSetpointWrite (v : Word)
  /-- AUX_SEQ_COMMIT (R333). -/
  | auxSeqCommit
  /-- AUX_REF_WRITE (R330). -/
  | auxRefWrite (sel : Fin 4)
  /-- AUX_CNT_CLR (R26). -/
  | auxCntClr
  /-- GLADE_IN_POL_WRITE (R131). -/
  | gladeInPolWrite (pol : Bool)
  /-- GP_CFG_WRITE (R351). -/
  | gpCfgWrite (n : Fin 8) (v : Word)
  /-- IO_CNT_CLR (R26). -/
  | ioCntClr
  /-- TMR_CTL_WRITE (R352). -/
  | tmrCtlWrite (n : Fin 8) (v : Word)
  /-- REGISTER_WRITE (R5). -/
  | registerWrite (p : Path) (off : Nat) (v : Word) (wide : Option Word)
  /-- LOW_WORD_READ (R23). -/
  | lowWordRead (p : Path) (off : Nat) (wide : Bool)
  /-- HIGH_WORD_WRITE (R24). -/
  | highWordWrite (p : Path) (off : Nat) (v : Word)
  /-- PARTIAL_WRITE (R22). -/
  | partialWrite (off : Nat)
  /-- BAD_ACCESS (R230). -/
  | badAccess (write : Bool) (off : Nat)
  /-- SPI_HEADER (R343). -/
  | spiHeader (hdr : Word) (mode3 : Bool)
  /-- SPI_WRITE_WORD (R344). -/
  | spiWriteWord (v : Word)
  /-- SPI_READ_FETCH (R345). -/
  | spiReadFetch (late : Bool)
  /-- SPI_TRANSACTION_END (R348). -/
  | spiTransactionEnd (e : SpiEnd) (lowUnsent : Bool)
  /-- JTAG_INSTRUCTION (R355). -/
  | jtagInstruction (code : JtagCode)
  /-- FRAME_BOUNDARY (R17). -/
  | frameBoundary
  /-- TRIG_IN_EDGE (R43). -/
  | trigInEdge (encZ : Bool)
  /-- VERTICAL_BLANKING (R34). -/
  | verticalBlanking
  /-- SLOT_PACKET_ARRIVAL (R8). -/
  | slotPacketArrival (f : Nat) (slot : Nat) (ok : Bool) (rows : List (List Nat)) (reads : List BurstIn)
  /-- SLOT_AT_TAP4 (R10). -/
  | slotAtTap4 (f : Nat) (slot : Nat) (reads : List BurstIn) (path : List PathIn)
  /-- SAMPLES_ACCUMULATED (R151). -/
  | samplesAccumulated (f : Nat) (slot : Nat) (reads : List BurstIn)
  /-- IDLE_EXIT_EVALUATION (R151). -/
  | idleExitEvaluation
  /-- RECORD_TIMEOUT (R158). -/
  | recordTimeout
  /-- CAPTURE_FRAME_DONE (R85). -/
  | captureFrameDone (b : Fin 2) (reads : List BurstIn)
  /-- CAPTURE_ABANDONED (R85). -/
  | captureAbandoned (b : Fin 2)
  /-- STAGE_SAMPLE (R54). -/
  | stageSample
  /-- STAGE_SETTLED (R54). -/
  | stageSettled
  /-- MARGIN_LOW (R54). -/
  | marginLow
  /-- STAGE_UNREG (R54). -/
  | stageUnreg
  /-- DIODE_EXCL (R50). -/
  | diodeExcl (n : Fin 4)
  /-- PLATE_SWAP_FALLBACK (R73). -/
  | plateSwapFallback
  /-- SHADOW_HOLD_EXPIRY (R75). -/
  | shadowHoldExpiry
  /-- PLATE_PERSIST_DONE (R77). -/
  | platePersistDone (ok : Bool)
  /-- CLUSTER_EVALUATION (R81). -/
  | clusterEvaluation
  /-- PROOF_BEGIN (R122). -/
  | proofBegin
  /-- DRIVE_PULSE_END (R115). -/
  | drivePulseEnd
  /-- CLOSED_SENSED (R117). -/
  | closedSensed
  /-- OPEN_SENSED (R117). -/
  | openSensed
  /-- SHUT_FAULT (R118). -/
  | shutFault
  /-- SETTLING_END (R123). -/
  | settlingEnd
  /-- OFFSETS_COMPUTED (R124). -/
  | offsetsComputed
  /-- TAU_FIT (R129). -/
  | tauFit
  /-- PLATE_ACCEPTED (R126). -/
  | plateAccepted
  /-- NO_FRAMES (R123). -/
  | noFrames
  /-- PROOF_AGE_DUE (R121). -/
  | proofAgeDue
  /-- PROOF_FORCE_DUE (R121). -/
  | proofForceDue
  /-- OVERDUE (R134). -/
  | overdue
  /-- CHANNEL_CAL_PASS (R138). -/
  | channelCalPass (group : Fin 81) (gains : List (Nat × Nat))
  /-- GLADE_IN_WINDOW (R131). -/
  | gladeInWindow (level : Bool)
  /-- SPEED_WINDOW (R131). -/
  | speedWindow
  /-- DECLARED_WINDOW_END (R131). -/
  | declaredWindowEnd
  /-- SCHEDULE_WINDOW (R131). -/
  | scheduleWindow
  /-- PROFILE_GLADE_END (R131). -/
  | profileGladeEnd
  /-- ENCODER_EDGE (R140). -/
  | encoderEdge (a : Bool) (b : Bool)
  /-- INDEX_EDGE (R141). -/
  | indexEdge
  /-- ENC_LOSS (R141). -/
  | encLoss
  /-- SPEED_EVALUATION (R144). -/
  | speedEvaluation
  /-- WEB_STOPPED (R155). -/
  | webStopped
  /-- ALARM_INTERVAL_ENTER (R170). -/
  | alarmIntervalEnter
  /-- ALARM_INTERVAL_RETIRE (R170). -/
  | alarmIntervalRetire
  /-- ALARM_PULSE_END (R170). -/
  | alarmPulseEnd (n : Fin 4)
  /-- FLIT_RECEIVE (R181). -/
  | flitReceive (q : Port) (x : FlitIn) (bytes : List Byte)
  /-- PORT_TRAINING (R185). -/
  | portTraining (q : Port) (ev : TrainEv)
  /-- TRAIN_TIMEOUT (R185). -/
  | trainTimeout (q : Port)
  /-- PORT_DOWN (R190). -/
  | portDown (q : Port)
  /-- LANE_FAILED (R186). -/
  | laneFailed (q : Port) (lane : Fin 4)
  /-- LANE_RETURN (R186). -/
  | laneReturn (q : Port) (lane : Fin 4)
  /-- LM_GROUP (R186). -/
  | lmGroup (q : Port) (use_ : BitVec 4) (req : BitVec 4) (ack : Bool) (cnt : BitVec 16)
  /-- ROUTE_RING (R188). -/
  | routeRing (fl : Flit)
  /-- ROUTE_CUT (R190). -/
  | routeCut (fl : Flit)
  /-- DREQ (R194). -/
  | dreq (q : Port)
  /-- DRESP (R194). -/
  | dresp (q : Port) (t4 : Nat) (fl : Flit)
  /-- TIME_SEND (R195). -/
  | timeSend
  /-- TIME_RECEIVE (R196). -/
  | timeReceive (q : Port) (tIn : Nat) (fl : Flit)
  /-- TIME_HOLDOVER (R196). -/
  | timeHoldover
  /-- ENC_SEND (R198). -/
  | encSend
  /-- ENC_RECEIVE (R199). -/
  | encReceive (q : Port) (fl : Flit)
  /-- ENC_EXTRAPOLATE (R199). -/
  | encExtrapolate (t : Nat)
  /-- ENC_SAMPLE_LOSS (R199). -/
  | encSampleLoss
  /-- HEART_SEND (R207). -/
  | heartSend
  /-- HEART_RECEIVE (R207). -/
  | heartReceive (q : Port) (fl : Flit)
  /-- MEMBERSHIP_EVALUATION (R208). -/
  | membershipEvaluation
  /-- MAP_RECEIVE (R209). -/
  | mapReceive (fl : Flit)
  /-- MAP_REPEAT (R209). -/
  | mapRepeat
  /-- TAKEOVER (R214). -/
  | takeover
  /-- CHANNEL_STATE (R215). -/
  | channelState (rx : Option Flit)
  /-- PREPARE (R218). -/
  | prepare (fl : Flit) (data : List Byte)
  /-- VOTE (R218). -/
  | vote (fl : Flit)
  /-- PREP_TIMEOUT (R218). -/
  | prepTimeout
  /-- COMMIT (R219). -/
  | commit (fl : Flit)
  /-- ABORT (R218). -/
  | abort (fl : Flit)
  /-- DONE (R218). -/
  | done (fl : Flit)
  /-- COMMIT_TIMEOUT (R217). -/
  | commitTimeout
  /-- GLADE_RELAY (R133). -/
  | gladeRelay (rx : Option Flit)
  /-- TOKEN (R136). -/
  | token (fl : Flit)
  /-- TOKEN_WITHDRAW (R217). -/
  | tokenWithdraw
  /-- SEGMENT_RECEIVE (R222). -/
  | segmentReceive (sg : Segment) (reads : List BurstIn)
  /-- MERGE_WAIT_EXPIRY (R222). -/
  | mergeWaitExpiry (reads : List BurstIn)
  /-- AUTH_RECEIVE (R259). -/
  | authReceive (fl : Flit) (data : List Byte)
  /-- ROOT_RESUME (R327). -/
  | rootResume
  /-- DESCRIPTOR_FETCH (R237). -/
  | descriptorFetch (n : Fin 16) (bytes : List Byte)
  /-- DMA_COMPLETION (R242). -/
  | dmaCompletion (r : Nat) (cause : CplCause) (bytes : List Byte)
  /-- COMPLETION_TIMEOUT (R242). -/
  | completionTimeout (r : Nat)
  /-- DMA_REISSUE (R242). -/
  | dmaReissue (r : Nat)
  /-- RECORD_STAGED (R238). -/
  | recordStaged (reads : List BurstIn)
  /-- BUFFER_HOLD_EXPIRY (R238). -/
  | bufferHoldExpiry (n : Fin 16)
  /-- BUFFER_COMPLETE (R241). -/
  | bufferComplete (n : Fin 16)
  /-- MSI_X_MESSAGE (R244). -/
  | msiXMessage (v : Fin 32)
  /-- BUS_MASTER_CHANGE (R234). -/
  | busMasterChange (bme : Bool) (d3hot : Bool)
  /-- LINK_DOWN (R234). -/
  | linkDown (flr : Bool)
  /-- PERST_N (R320). -/
  | perstN (low : Bool)
  /-- PTM_DIALOG (R245). -/
  | ptmDialog (valid : Bool) (tn : Nat) (mn : Nat)
  /-- FIRMWARE_SOUND (R264). -/
  | firmwareSound
  /-- FW_TRIAL_EXPIRY (R264). -/
  | fwTrialExpiry
  /-- KEEP_PAGE_WRITE_DONE (R280). -/
  | keepPageWriteDone (ok : Bool)
  /-- FLASH_WRITE_DONE (R278). -/
  | flashWriteDone (ok : Bool)
  /-- SCRUB_SWEEP (R274). -/
  | scrubSweep (found : List BurstIn)
  /-- SCRUB_FORCED_CYCLE (R274). -/
  | scrubForcedCycle (found : BurstIn)
  /-- TABLE_WORD_RELOAD (R273). -/
  | tableWordReload (w : Nat)
  /-- HEALTH_TEST_COMPLETE (R295). -/
  | healthTestComplete (ss : Fin 16) (elem : Nat) (pass : Bool)
  /-- TEST_NOT_POSSIBLE (R295). -/
  | testNotPossible (ss : Fin 16) (elem : Nat)
  /-- RESTORE_RETEST (R296). -/
  | restoreRetest (ss : Fin 16) (elem : Nat) (pass : Bool)
  /-- RING_COUNT_READ (R300). -/
  | ringCountRead (dfs : List Int) (mons : List (Int × Int × Int))
  /-- MARGIN_PLAN_DUE (R301). -/
  | marginPlanDue
  /-- MARGIN_PLAN (R301). -/
  | marginPlan (mp : PlanIn)
  /-- MARGIN_PLAN_GLADE_TIMEOUT (R301). -/
  | marginPlanGladeTimeout
  /-- DRAIN_END (R310). -/
  | drainEnd (d : Fin 112)
  /-- DRAIN_LIMIT_EXPIRY (R310). -/
  | drainLimitExpiry (d : Fin 112) (left : Nat)
  /-- DOMAIN_OFF (R310). -/
  | domainOff (d : Fin 112)
  /-- DOMAIN_USABLE (R311). -/
  | domainUsable (d : Fin 112)
  /-- ON_DEMAND_IDLE (R311). -/
  | onDemandIdle (d : Fin 112)
  /-- BALLAST_SAMPLE (R313). -/
  | ballastSample (pIn : Nat) (pFpa : Nat) (pHeater : Nat) (pBal : Nat)
  /-- BALLAST_SAT (R314). -/
  | ballastSat
  /-- SAT_WINDOW_EXPIRY (R314). -/
  | satWindowExpiry
  /-- REFCLK_LOST (R318). -/
  | refclkLost
  /-- HOLDOVER_EXPIRY (R318). -/
  | holdoverExpiry
  /-- REFCLK_RETURN (R318). -/
  | refclkReturn
  /-- POWER_ON_RESET_RELEASE (R319). -/
  | powerOnResetRelease (role1 : Bool) (role0 : Bool)
  /-- BROWNOUT (R319). -/
  | brownout
  /-- VIO_LOW (R319). -/
  | vioLow (bank : Bool)
  /-- RESET_N (R320). -/
  | resetN (low : Bool) (role1 : Bool) (role0 : Bool)
  /-- PLL_LOCK (R317). -/
  | pllLock
  /-- START_UP_STEP (R322). -/
  | startUpStep (si : StartIn)
  /-- AUX_ROUND (R332). -/
  | auxRound
  /-- AUX_ENTRY_RESULT (R331). -/
  | auxEntryResult (n : Fin 16) (sum : Nat)
  /-- AUX_CAL_MEASUREMENT_DONE (R338). -/
  | auxCalMeasurementDone (sum : Nat)
  /-- REF_SETTLED (R330). -/
  | refSettled (valid : Bool)
  /-- AUX_RECORD_CLOSE (R340). -/
  | auxRecordClose
  /-- TIME_IN_EDGE (R350). -/
  | timeInEdge
  /-- TIME_IN_HOLDOVER (R350). -/
  | timeInHoldover
  /-- TIMER_COMPARE (R352). -/
  | timerCompare (n : Fin 8)
  /-- TIMER_CAPTURE (R352). -/
  | timerCapture (n : Fin 8)
  /-- SHUT_POS_CHANGE (R117). -/
  | shutPosChange (which : Bool) (level : Bool)
  /-- DECLARED_WINDOW_BEGIN (R131). -/
  | declaredWindowBegin
  /-- ENC_FAILSAFE_END (R141). -/
  | encFailsafeEnd
  /-- PTM_HOLDOVER (R246). -/
  | ptmHoldover
  /-- SEGMENT_HOLD_LIMIT (R205). -/
  | segmentHoldLimit
  /-- PCIE_LINK_UP (R234). -/
  | pcieLinkUp (speed : Fin 6) (width : Fin 5)
  /-- PCIE_RETRAIN (R234). -/
  | pcieRetrain (enter : Bool) (speed : Fin 6) (width : Fin 5)
  /-- CONFIGURATION_REQUEST (R323). -/
  | configurationRequest (wr : Option CfgCtl) (rd : Option Nat) (clr : Option (Word × Word))
  /-- SWEEP_COMPLETE (R274). -/
  | sweepComplete
  /-- OPERATING_TIME_INCREMENT (R288). -/
  | operatingTimeIncrement
  /-- VIO_RESTORED (R319). -/
  | vioRestored (bank : Bool)
  /-- FRAME_STROBE_END (R351). -/
  | frameStrobeEnd
  /-- NEW_FIRMWARE_RUNS (R264). -/
  | newFirmwareRuns
  /-- FW_SWITCH_TICK (R264). -/
  | fwSwitchTick
  /-- LANE_MASK_SWITCH (R186). -/
  | laneMaskSwitch (q : Port) (tx : Bool)
  deriving DecidableEq, Repr

end Sys2Proof
end

