-- ==== Sys2Proof/Decode.lean ====
section
/-! DEFINITION. Words of the opcode table. No row of the table gives its command any bits: a host command is an entry of
ring 0 that the module takes apart in `Machine/Cmd.lean`, and the other rows are events with no encoding at all. -/

namespace Sys2Proof

/-- The command a word spells by the table's bits: none, since the table gives no row bits (log 2). -/
def decodeTableWord (_nbits _w : Nat) : Option Instr := none

end Sys2Proof
end

