-- ==== Sys2Proof/Config.lean ====
section
/-! DEFINITION. The free values: constants with no body, applied to the state's counter `freeIdx` and to what they may
depend on. Nothing is known of them (log 5). -/

namespace Sys2Proof.Config

/-- Frame temperature estimate in mK from the sensors TS0 and TS1 and the held power (R54, R96): the correction is not
stated. -/
opaque frameTemp : Nat → Int → Int → Int → Int

/-- Heater duty of the PI loop, in 1/65,536, from the error in mK (R51): the loop's gains are not stated. -/
opaque heaterDuty : Nat → Int → Nat

/-- Outcome of each changed group of a direct Keep write cut by a power loss: 0 old, 1 new, otherwise torn (R284). -/
opaque tornGroup : Nat → Nat → Nat

/-- A byte of a Keep area whose layout the spec does not give (R281). -/
opaque keepByte : Nat → Nat → BitVec 8

/-- The verification key in the boot ROM, a point of P-256 (R262): not given. -/
opaque fwKey : Nat × Nat

/-- Drift references T, F and Q recorded at the factory for the plate of a SEQ (R98): the spec gives no place for them. -/
opaque factoryRef : Nat → Nat → Int

/-- The weight k of the Burin stage for an interval, a TAU code and a strength (R88): free between the values that the
allowed error of the exponential gives. -/
opaque burinK : Nat → Nat → Nat → Nat

/-- MIN, MAX and MEAN of a lane block without a pixel that has a value, lowest and highest generation and class of a strip
record or block without a sample (R157, R163): no value is stated. -/
opaque noStat : Nat → Nat → Nat → Nat

/-- Across-web position X of a pixel of another slot of the stand, in 1/256 µm, as the root places it in lanes (R163, R169):
the spec does not say how the root learns it. -/
opaque standX : Nat → Nat → Int

/-- Capacity of the merge buffers in stand lines of the widest channel, by its width (R223, `STAND_MERGE_STAT.CAP`): the
spec gives the buffers' size and not what a line takes. -/
opaque mergeCap : Nat → Nat

/-- Temperature in mK of a result of a diode or sensor channel (R329): the factory coefficients are not given. -/
opaque sensorTemp : Nat → Int → Int

/-- Power in mW of a result of a current-sense channel (R329): the conversion is not stated. -/
opaque sensePower : Nat → Int → Nat

/-- Zero Z and gain K of the factory calibration of a channel AC16 to AC31 at a gain code (R337): not given. -/
opaque auxFactory : Nat → Nat → Int × Int

/-- What a field of a plate or a register holds when the value the spec computes for it does not fit (R97, R124, R126): no
result is stated. -/
opaque noFit : Nat → Nat → Int → Nat

/-- Reference injection gain g_ref of a channel, recorded at the factory (R138): not given. -/
opaque gRef : Nat → Nat

/-- Vendor ID that the PCI-SIG assigned to Knabuis (R229): not given. -/
opaque vendorId : Nat

/-- A double word of configuration space whose place and content the spec leaves to the PCIe Base Specification, by offset. -/
opaque cfgWord : Nat → Nat → Nat

/-- Rate term in 2⁻³² of nominal after an offset in 1/65,536 tick (R196): the loop's gains are not stated. -/
opaque rateTerm : Nat → Int → Int → Int

/-- Version and SVN word of the firmware image a bank was shipped with, by bank and image offset (R262): not given. -/
opaque shipFw : Nat → Nat → Nat

/-- Sense of a repair's trim step for a subsystem and element (R296): the measurement behind it is not given. -/
opaque trimDown : Nat → Nat → Nat → Bool

end Sys2Proof.Config
end

