-- ==== Sys2Proof/Machine/Num.lean ====
section
/-! DEFINITION. Exact arithmetic, rounding, signed fields and little-endian bytes, used by every family. -/

namespace Sys2Proof.Machine

/-- round(a / b) = floor(a / b + 1/2), exact (R56); `b` is positive. -/
def rdiv (a b : Int) : Int := (2 * a + b) / (2 * b)

/-- round of a rational number (R56). -/
def rround (q : Rat) : Int := (q + 1 / 2).floor

/-- ceil(a / b) on natural numbers. -/
def cdiv (a b : Nat) : Nat := (a + b - 1) / b

/-- Clamp to an interval. -/
def clampI (lo hi v : Int) : Int := if v < lo then lo else if hi < v then hi else v

/-- Clamp a rational to an interval. -/
def clampQ (lo hi v : Rat) : Rat := if v < lo then lo else if hi < v then hi else v

/-- The unsigned field of width `w` read as two's complement. -/
def sext (w : Nat) (v : Nat) : Int :=
  if 2 ^ (w - 1) ≤ v % 2 ^ w then (v % 2 ^ w : Nat) - (2 ^ w : Nat) else (v % 2 ^ w : Nat)

/-- An integer stored in `w` bits, modulo 2^w. -/
def uns (w : Nat) (v : Int) : Nat := (v % (2 ^ w : Nat)).toNat

/-- Saturate a natural number to `w` bits (R26). -/
def satN (w : Nat) (v : Nat) : Nat := if 2 ^ w ≤ v then 2 ^ w - 1 else v

/-- Bit `i` of a number. -/
def tbit (v i : Nat) : Bool := v.testBit i

/-- A number with bit `i` made `b`. -/
def setB (v i : Nat) (b : Bool) : Nat :=
  if b then v ||| 2 ^ i else if v.testBit i then v - 2 ^ i else v

/-- 1 for true, 0 for false. -/
def b2n (b : Bool) : Nat := if b then 1 else 0

/-- Number of set bits among the low `n`. -/
def popcount (n v : Nat) : Nat := (List.range n).countP (fun i => v.testBit i)

/-- Indices of the set bits among the low `n`, rising. -/
def bitsOf (n v : Nat) : List Nat := (List.range n).filter (fun i => v.testBit i)

/-- The map with the bits of a list set. -/
def ofBits (l : List Nat) : Nat := l.foldl (fun a i => a ||| 2 ^ i) 0

/-- The little-endian bytes of a number (R3). -/
def leBytes : Nat → Nat → List Byte
  | 0, _ => []
  | n + 1, v => BitVec.ofNat 8 (v % 256) :: leBytes n (v / 256)

/-- The number that little-endian bytes spell (R3). -/
def leNat : List Byte → Nat
  | [] => 0
  | b :: bs => b.toNat + 256 * leNat bs

/-- The big-endian bytes of a number. -/
def beBytes (n v : Nat) : List Byte := (leBytes n v).reverse

/-- The number that big-endian bytes spell. -/
def beNat (bs : List Byte) : Nat := leNat bs.reverse

/-- `n` bytes of a list from offset `o`; bytes past the end read 0. -/
def slice (bs : List Byte) (o n : Nat) : List Byte :=
  (List.range n).map (fun i => bs.getD (o + i) 0)

/-- The little-endian number of `n` bytes at offset `o`. -/
def leAt (bs : List Byte) (o n : Nat) : Nat := leNat (slice bs o n)

/-- Pads with zero bytes to a multiple of `m`. -/
def padTo (m : Nat) (bs : List Byte) : List Byte :=
  bs ++ List.replicate ((m - bs.length % m) % m) 0

/-- Insertion sort of rational numbers, for medians. -/
def sortQ : List Rat → List Rat
  | [] => []
  | x :: xs => ins x (sortQ xs)
where
  /-- Insert into a sorted list. -/
  ins (x : Rat) : List Rat → List Rat
    | [] => [x]
    | y :: ys => if x ≤ y then x :: y :: ys else y :: ins x ys

/-- Median: the middle value, or the mean of the two middle values (R50). -/
def median (l : List Rat) : Option Rat :=
  match (sortQ l)[l.length / 2]?, (sortQ l)[(l.length - 1) / 2]? with
  | some a, some b => some ((a + b) / 2)
  | _, _ => none

/-- Mean of a list of rational numbers. -/
def meanQ (l : List Rat) : Option Rat :=
  if l.isEmpty then none else some (l.foldl (· + ·) 0 / (l.length : Nat))

/-- Largest natural number of a list, 0 if empty. -/
def maxN (l : List Nat) : Nat := l.foldl Nat.max 0

/-- The integer square root. -/
def isqrt (n : Nat) : Nat := go n (n.log2 + 1) 0
where
  /-- Binary digits of the root, from the top. -/
  go (n : Nat) : Nat → Nat → Nat
    | 0, r => r
    | k + 1, r => if (r + 2 ^ k) * (r + 2 ^ k) ≤ n then go n k (r + 2 ^ k) else go n k r

/-- The square root of a rational number, in units of 1 / 2^20, rounded down. -/
def sqrtQ (q : Rat) : Rat :=
  if q ≤ 0 then 0 else (isqrt ((q * (2 ^ 40 : Nat)).floor.toNat) : Rat) / (2 ^ 20 : Nat)

/-- The later of two optional ticks. -/
def maxOpt (a : Option Nat) (b : Nat) : Nat := match a with | some x => Nat.max x b | none => b

/-- An event whose due tick has come. -/
def dueBy (t : Option Nat) (now : Nat) : Bool := match t with | some x => decide (x ≤ now) | none => false

/-- The first value of an association list. -/
def assoc {α : Type} (l : List (Nat × α)) (k : Nat) : Option α := (l.find? (fun p => p.1 == k)).map (·.2)

/-- Update the elements of a list that satisfy a test. -/
def updIf {α : Type} (l : List α) (p : α → Bool) (f : α → α) : List α := l.map (fun x => if p x then f x else x)

/-- Update the first element that satisfies a test. -/
def updFirst {α : Type} (p : α → Bool) (f : α → α) : List α → List α
  | [] => []
  | x :: xs => if p x then f x :: xs else x :: updFirst p f xs

/-- Apply a change under a condition. -/
def onlyIf {α : Type} (c : Bool) (f : α → α) (x : α) : α := if c then f x else x

end Sys2Proof.Machine
end

