-- ==== Sys2Proof/Machine/Crypto.lean ====
section
/-! DEFINITION. Check words and ciphers: CRC-32C, the Hatch code (R268 to R270), AES-256 with CMAC (R254), the key
unwrap of RFC 3394 (R256), SHA-256 and ECDSA P-256 (R262). The published standards the spec names fix AES, CMAC, the key wrap,
CRC-32C, SHA-256 and ECDSA (PRESUMED, log 6). -/

namespace Sys2Proof.Machine

/-! ### CRC-32C -/

/-- One bit of the reflected CRC-32C register. -/
def crcBit (c : Nat) : Nat := if c % 2 = 1 then (c / 2) ^^^ 0x82F63B78 else c / 2

/-- One byte of the CRC-32C register. -/
def crcByte (c : Nat) (b : Byte) : Nat := (List.range 8).foldl (fun a _ => crcBit a) (c ^^^ b.toNat)

/-- CRC-32C of a byte string. -/
def crc32c (bs : List Byte) : Nat := (bs.foldl crcByte 0xFFFFFFFF) ^^^ 0xFFFFFFFF

/-! ### GF(2^8) -/

/-- Doubling in GF(2^8) under the polynomial `p`. -/
def gfDbl (p a : Nat) : Nat := if a < 128 then 2 * a else (2 * a) ^^^ p

/-- Product in GF(2^8) under the polynomial `p`. -/
def gfMul (p a b : Nat) : Nat :=
  ((List.range 8).foldl (fun (s : Nat × Nat) i => (if b.testBit i then s.1 ^^^ s.2 else s.1, gfDbl p s.2)) (0, a)).1

/-- Power in GF(2^8). -/
def gfPow (p a : Nat) : Nat → Nat
  | 0 => 1
  | n + 1 => gfMul p a (gfPow p a n)

/-- Inverse in GF(2^8): a^254. -/
def gfInv (p a : Nat) : Nat :=
  let a2 := gfMul p a a
  let a4 := gfMul p a2 a2
  let a8 := gfMul p a4 a4
  let a16 := gfMul p a8 a8
  let a32 := gfMul p a16 a16
  let a64 := gfMul p a32 a32
  let a128 := gfMul p a64 a64
  gfMul p a128 (gfMul p a64 (gfMul p a32 (gfMul p a16 (gfMul p a8 (gfMul p a4 a2)))))

/-! ### Hatch code -/

/-- The primitive polynomial of the Hatch code (R268). -/
def hatchPoly : Nat := 0x11D

/-- Product in the field of the Hatch code. -/
def hMul (a b : Nat) : Nat := gfMul hatchPoly a b

/-- One step of the division by g(x) = x^4 + 0x0F x^3 + 0x36 x^2 + 0x78 x + 0x40 (R268). -/
def hatchStep (r : Nat × Nat × Nat × Nat) (s : Nat) : Nat × Nat × Nat × Nat :=
  let f := s ^^^ r.1
  (r.2.1 ^^^ hMul f 0x0F, r.2.2.1 ^^^ hMul f 0x36, r.2.2.2 ^^^ hMul f 0x78, hMul f 0x40)

/-- The four check symbols of 32 data symbols (R268). -/
def hatchCheck (d : List Byte) : List Byte :=
  let r := (slice d 0 32).foldl (fun r b => hatchStep r b.toNat) (0, 0, 0, 0)
  [BitVec.ofNat 8 r.1, BitVec.ofNat 8 r.2.1, BitVec.ofNat 8 r.2.2.1, BitVec.ofNat 8 r.2.2.2]

/-- The codeword of 32 data symbols. -/
def hatchEncode (d : List Byte) : List Byte := slice d 0 32 ++ hatchCheck d

/-- Syndrome S_j = r(α^j) (R268). -/
def hatchSyn (c : List Byte) (j : Nat) : Nat :=
  (slice c 0 36).foldl (fun a b => hMul a (gfPow hatchPoly 2 j) ^^^ b.toNat) 0

/-- The column of an error in symbol `i`: α^(j(35 - i)) for j = 0 to 3. -/
def hatchCol (i : Nat) : List Nat := (List.range 4).map (fun j => gfPow hatchPoly 2 (j * (35 - i)))

/-- Row operation: row `r` minus `f` times row `p`. -/
def gfRowSub (f : Nat) (p r : List Nat) : List Nat := List.zipWith (fun x y => y ^^^ hMul f x) p r

/-- Gauss elimination of a system over GF(2^8), rows of coefficients then constant, `m` unknowns: the solution, if the
columns are independent and the system is consistent. -/
def gfSolve : Nat → List (List Nat) → Option (List Nat)
  | 0, rows => if rows.all (fun r => r.getLastD 0 == 0) then some [] else none
  | m + 1, rows =>
    match rows.findIdx? (fun r => r.headD 0 != 0) with
    | none => none
    | some i =>
      let p := (rows.getD i []).map (hMul (gfInv hatchPoly ((rows.getD i []).headD 0)))
      let rest := (rows.eraseIdx i).map (fun r => (gfRowSub (r.headD 0) p r).drop 1)
      match gfSolve m rest with
      | none => none
      | some xs =>
        let v := (List.zipWith hMul (p.drop 1) xs).foldl (· ^^^ ·) (p.getLastD 0)
        some (v :: xs)

/-- Error values at a set of positions that explain the syndromes of `c`. -/
def hatchTry (c : List Byte) (pos : List Nat) : Option (List (Nat × Nat)) :=
  let rows := (List.range 4).map (fun j => pos.map (fun i => (hatchCol i).getD j 0) ++ [hatchSyn c j])
  (gfSolve pos.length rows).map (fun v => pos.zip v)

/-- The result of a decoder: corrected codeword and the symbols it corrected, or uncorrectable. -/
inductive Hatched where
  | ok (word : List Byte) (fixed : List Nat)
  | bad
  deriving DecidableEq, Repr

/-- The codeword with error values removed. -/
def hatchFix (c : List Byte) (es : List (Nat × Nat)) : List Byte :=
  (List.range 36).map (fun i => (c.getD i 0) ^^^ BitVec.ofNat 8 ((assoc es i).getD 0))

/-- Bounded-distance decoding (R270): erasures `er` known, `e` further symbol errors with 2e + s ≤ 4, fewest errors first. -/
def hatchDecode (er : List Nat) (c : List Byte) : Hatched :=
  let free := (List.range 36).filter (fun i => !er.contains i)
  let s := er.length
  let cand : List (List Nat) :=
    (if s ≤ 4 then [er] else []) ++
    (if s ≤ 2 then free.map (fun i => er ++ [i]) else []) ++
    (if s = 0 then free.flatMap (fun i => (free.filter (fun j => decide (i < j))).map (fun j => [i, j])) else [])
  match cand.findSome? (hatchTry c) with
  | none => .bad
  | some es => .ok (hatchFix c es) ((es.filter (fun e => e.2 != 0)).map (·.1))

/-! ### AES-256 -/

/-- The S-box of AES. -/
def aesSbox : List Nat :=
    [0x63, 0x7C, 0x77, 0x7B, 0xF2, 0x6B, 0x6F, 0xC5, 0x30, 0x01, 0x67, 0x2B, 0xFE, 0xD7, 0xAB, 0x76] ++
    [0xCA, 0x82, 0xC9, 0x7D, 0xFA, 0x59, 0x47, 0xF0, 0xAD, 0xD4, 0xA2, 0xAF, 0x9C, 0xA4, 0x72, 0xC0] ++
    [0xB7, 0xFD, 0x93, 0x26, 0x36, 0x3F, 0xF7, 0xCC, 0x34, 0xA5, 0xE5, 0xF1, 0x71, 0xD8, 0x31, 0x15] ++
    [0x04, 0xC7, 0x23, 0xC3, 0x18, 0x96, 0x05, 0x9A, 0x07, 0x12, 0x80, 0xE2, 0xEB, 0x27, 0xB2, 0x75] ++
    [0x09, 0x83, 0x2C, 0x1A, 0x1B, 0x6E, 0x5A, 0xA0, 0x52, 0x3B, 0xD6, 0xB3, 0x29, 0xE3, 0x2F, 0x84] ++
    [0x53, 0xD1, 0x00, 0xED, 0x20, 0xFC, 0xB1, 0x5B, 0x6A, 0xCB, 0xBE, 0x39, 0x4A, 0x4C, 0x58, 0xCF] ++
    [0xD0, 0xEF, 0xAA, 0xFB, 0x43, 0x4D, 0x33, 0x85, 0x45, 0xF9, 0x02, 0x7F, 0x50, 0x3C, 0x9F, 0xA8] ++
    [0x51, 0xA3, 0x40, 0x8F, 0x92, 0x9D, 0x38, 0xF5, 0xBC, 0xB6, 0xDA, 0x21, 0x10, 0xFF, 0xF3, 0xD2] ++
    [0xCD, 0x0C, 0x13, 0xEC, 0x5F, 0x97, 0x44, 0x17, 0xC4, 0xA7, 0x7E, 0x3D, 0x64, 0x5D, 0x19, 0x73] ++
    [0x60, 0x81, 0x4F, 0xDC, 0x22, 0x2A, 0x90, 0x88, 0x46, 0xEE, 0xB8, 0x14, 0xDE, 0x5E, 0x0B, 0xDB] ++
    [0xE0, 0x32, 0x3A, 0x0A, 0x49, 0x06, 0x24, 0x5C, 0xC2, 0xD3, 0xAC, 0x62, 0x91, 0x95, 0xE4, 0x79] ++
    [0xE7, 0xC8, 0x37, 0x6D, 0x8D, 0xD5, 0x4E, 0xA9, 0x6C, 0x56, 0xF4, 0xEA, 0x65, 0x7A, 0xAE, 0x08] ++
    [0xBA, 0x78, 0x25, 0x2E, 0x1C, 0xA6, 0xB4, 0xC6, 0xE8, 0xDD, 0x74, 0x1F, 0x4B, 0xBD, 0x8B, 0x8A] ++
    [0x70, 0x3E, 0xB5, 0x66, 0x48, 0x03, 0xF6, 0x0E, 0x61, 0x35, 0x57, 0xB9, 0x86, 0xC1, 0x1D, 0x9E] ++
    [0xE1, 0xF8, 0x98, 0x11, 0x69, 0xD9, 0x8E, 0x94, 0x9B, 0x1E, 0x87, 0xE9, 0xCE, 0x55, 0x28, 0xDF] ++
    [0x8C, 0xA1, 0x89, 0x0D, 0xBF, 0xE6, 0x42, 0x68, 0x41, 0x99, 0x2D, 0x0F, 0xB0, 0x54, 0xBB, 0x16]

/-- Byte substitution. -/
def subByte (b : Byte) : Byte := BitVec.ofNat 8 (aesSbox.getD b.toNat 0)

/-- Inverse byte substitution. -/
def invSubByte (b : Byte) : Byte := BitVec.ofNat 8 ((aesSbox.findIdx? (· == b.toNat)).getD 0)

/-- Bytewise exclusive or. -/
def xorBytes (a b : List Byte) : List Byte := List.zipWith (· ^^^ ·) a b

/-- Round constants of the key expansion. -/
def aesRcon (i : Nat) : Byte := BitVec.ofNat 8 (gfPow 0x11B 2 (i - 1))

/-- The next word of the AES-256 key schedule, from the words so far in reverse order. -/
def aesNextWord (i : Nat) (ws : List (List Byte)) : List Byte :=
  let t := ws.getD 0 []
  let t' :=
    if i % 8 = 0 then xorBytes ((t.drop 1 ++ t.take 1).map subByte) [aesRcon (i / 8), 0, 0, 0]
    else if i % 8 = 4 then t.map subByte else t
  xorBytes (ws.getD 7 []) t'

/-- The 15 round keys of a 32-byte key. -/
def aesKeys (key : List Byte) : List (List Byte) :=
  let w0 := ((List.range 8).map (fun i => slice key (4 * i) 4)).reverse
  let ws := (List.range 52).foldl (fun ws j => aesNextWord (j + 8) ws :: ws) w0
  let w := ws.reverse
  (List.range 15).map (fun r => ((List.range 4).map (fun i => w.getD (4 * r + i) [])).flatten)

/-- Row shift of the state (column-major bytes). -/
def shiftRows (s : List Byte) : List Byte :=
  (List.range 16).map (fun i => s.getD ((i % 4) + 4 * ((i / 4 + i % 4) % 4)) 0)

/-- Inverse row shift. -/
def invShiftRows (s : List Byte) : List Byte :=
  (List.range 16).map (fun i => s.getD ((i % 4) + 4 * ((i / 4 + 4 - i % 4) % 4)) 0)

/-- Column mix by a circulant row of coefficients. -/
def mixWith (co : List Nat) (s : List Byte) : List Byte :=
  (List.range 16).map (fun i =>
    BitVec.ofNat 8 ((List.range 4).foldl
      (fun a j => a ^^^ gfMul 0x11B (co.getD ((j + 4 - i % 4) % 4) 0) (s.getD (4 * (i / 4) + j) 0).toNat) 0))

/-- AES-256 encryption of one block. -/
def aesEnc (key blk : List Byte) : List Byte :=
  let ks := aesKeys key
  let s0 := xorBytes (slice blk 0 16) (ks.getD 0 [])
  let s13 := (List.range 13).foldl
    (fun s r => xorBytes (mixWith [2, 3, 1, 1] (shiftRows (s.map subByte))) (ks.getD (r + 1) [])) s0
  xorBytes (shiftRows (s13.map subByte)) (ks.getD 14 [])

/-- AES-256 decryption of one block. -/
def aesDec (key blk : List Byte) : List Byte :=
  let ks := aesKeys key
  let s0 := (invShiftRows (xorBytes (slice blk 0 16) (ks.getD 14 []))).map invSubByte
  let s13 := (List.range 13).foldl
    (fun s r => (invShiftRows (mixWith [14, 11, 13, 9] (xorBytes s (ks.getD (13 - r) [])))).map invSubByte) s0
  xorBytes s13 (ks.getD 0 [])

/-- Doubling of a 128-bit block for the CMAC subkeys. -/
def cmacDbl (b : List Byte) : List Byte :=
  let n := beNat b
  beBytes 16 ((2 * n) % 2 ^ 128 ^^^ (if 2 ^ 127 ≤ n then 0x87 else 0))

/-- CMAC chaining over the message after the running block. -/
def cmacGo (key k1 k2 : List Byte) : Nat → List Byte → List Byte → List Byte
  | 0, x, _ => x
  | f + 1, x, m =>
    if m.length < 16 then aesEnc key (xorBytes x (xorBytes (slice (m ++ [0x80]) 0 16) k2))
    else if m.length = 16 then aesEnc key (xorBytes x (xorBytes m k1))
    else cmacGo key k1 k2 f (aesEnc key (xorBytes x (m.take 16))) (m.drop 16)

/-- AES-256-CMAC of a message. -/
def cmac (key m : List Byte) : List Byte :=
  let k1 := cmacDbl (aesEnc key (List.replicate 16 0))
  cmacGo key k1 (cmacDbl k1) (m.length + 1) (List.replicate 16 0) m

/-- RFC 3394 key unwrap of a 256-bit key (40 bytes) under a 256-bit key; none if the integrity check fails. -/
def keyUnwrap (kek wrapped : List Byte) : Option (List Byte) :=
  let r0 := (List.range 4).map (fun i => slice wrapped (8 + 8 * i) 8)
  let st := (List.range 24).foldl (fun (s : List Byte × List (List Byte)) n =>
      let t := 24 - n
      let i := (t - 1) % 4
      let a := beBytes 8 (beNat s.1 ^^^ t)
      let b := aesDec kek (a ++ s.2.getD i [])
      (b.take 8, s.2.set i (b.drop 8))) (slice wrapped 0 8, r0)
  if st.1 = List.replicate 8 (0xA6 : Byte) then some st.2.flatten else none

/-! ### SHA-256 and ECDSA P-256 (R262; PRESUMED from FIPS 180-4 and FIPS 186-4, log 6) -/

/-- The round constants of SHA-256. -/
def shaK : List Nat :=
    [0x428A2F98, 0x71374491, 0xB5C0FBCF, 0xE9B5DBA5, 0x3956C25B, 0x59F111F1, 0x923F82A4, 0xAB1C5ED5] ++
    [0xD807AA98, 0x12835B01, 0x243185BE, 0x550C7DC3, 0x72BE5D74, 0x80DEB1FE, 0x9BDC06A7, 0xC19BF174] ++
    [0xE49B69C1, 0xEFBE4786, 0x0FC19DC6, 0x240CA1CC, 0x2DE92C6F, 0x4A7484AA, 0x5CB0A9DC, 0x76F988DA] ++
    [0x983E5152, 0xA831C66D, 0xB00327C8, 0xBF597FC7, 0xC6E00BF3, 0xD5A79147, 0x06CA6351, 0x14292967] ++
    [0x27B70A85, 0x2E1B2138, 0x4D2C6DFC, 0x53380D13, 0x650A7354, 0x766A0ABB, 0x81C2C92E, 0x92722C85] ++
    [0xA2BFE8A1, 0xA81A664B, 0xC24B8B70, 0xC76C51A3, 0xD192E819, 0xD6990624, 0xF40E3585, 0x106AA070] ++
    [0x19A4C116, 0x1E376C08, 0x2748774C, 0x34B0BCB5, 0x391C0CB3, 0x4ED8AA4A, 0x5B9CCA4F, 0x682E6FF3] ++
    [0x748F82EE, 0x78A5636F, 0x84C87814, 0x8CC70208, 0x90BEFFFA, 0xA4506CEB, 0xBEF9A3F7, 0xC67178F2]

/-- The initial hash value of SHA-256. -/
def shaH : List Nat := [0x6A09E667, 0xBB67AE85, 0x3C6EF372, 0xA54FF53A, 0x510E527F, 0x9B05688C, 0x1F83D9AB, 0x5BE0CD19]

/-- Rotate a 32-bit word right. -/
def rotr (n x : Nat) : Nat := (x / 2 ^ n) ||| (x % 2 ^ n * 2 ^ (32 - n))

/-- The three-way exclusive or of two rotations and a third word. -/
def shaMix (a b c x : Nat) : Nat := rotr a x ^^^ rotr b x ^^^ c

/-- The next word of the message schedule, from the words so far in reverse order. -/
def shaNextWord (ws : List Nat) : Nat :=
  let x := ws.getD 1 0
  let y := ws.getD 14 0
  (shaMix 17 19 (x / 2 ^ 10) x + ws.getD 6 0 + shaMix 7 18 (y / 2 ^ 3) y + ws.getD 15 0) % 2 ^ 32

/-- One round of the compression. -/
def shaRound (s : List Nat) (kw : Nat) : List Nat :=
  match s with
  | [a, b, c, d, e, f, g, h] =>
    let t1 := h + shaMix 6 11 (rotr 25 e) e + ((e &&& f) ^^^ ((0xFFFFFFFF - e) &&& g)) + kw
    let t2 := shaMix 2 13 (rotr 22 a) a + ((a &&& b) ^^^ (a &&& c) ^^^ (b &&& c))
    [(t1 + t2) % 2 ^ 32, a, b, c, (d + t1) % 2 ^ 32, e, f, g]
  | s => s

/-- The compression of one 64-byte block. -/
def shaBlock (h : List Nat) (blk : List Byte) : List Nat :=
  let w0 := ((List.range 16).map (fun i => beNat (slice blk (4 * i) 4))).reverse
  let ws := ((List.range 48).foldl (fun ws _ => shaNextWord ws :: ws) w0).reverse
  List.zipWith (fun x y => (x + y) % 2 ^ 32) h ((List.zipWith (· + ·) shaK ws).foldl shaRound h)

/-- The blocks of a padded message, one after the other. -/
def shaGo : Nat → List Nat → List Byte → List Nat
  | 0, h, _ => h
  | f + 1, h, m => if m.isEmpty then h else shaGo f (shaBlock h (m.take 64)) (m.drop 64)

/-- SHA-256 of a byte string, as a number. -/
def sha256 (m : List Byte) : Nat :=
  let p := m ++ [0x80] ++ List.replicate ((119 - m.length % 64) % 64) 0 ++ beBytes 8 (8 * m.length)
  (shaGo (p.length / 64) shaH p).foldl (fun a w => a * 2 ^ 32 + w) 0

/-- The prime of P-256. -/
def p256P : Nat := 0xFFFFFFFF00000001000000000000000000000000FFFFFFFFFFFFFFFFFFFFFFFF

/-- The order of P-256. -/
def p256N : Nat := 0xFFFFFFFF00000000FFFFFFFFFFFFFFFFBCE6FAADA7179E84F3B9CAC2FC632551

/-- The base point of P-256. -/
def p256G : Nat × Nat :=
  (0x6B17D1F2E12C4247F8BCE6E563A440F277037D812DEB33A0F4A13945D898C296,
   0x4FE342E2FE1A7F9B8EE7EB4A7C0F9E162BCE33576B315ECECBB6406837BF51F5)

/-- Power modulo `m` with an exponent of at most 256 bits. -/
def powMod (m b e : Nat) : Nat :=
  ((List.range 256).foldl (fun (s : Nat × Nat) i => (if e.testBit i then s.1 * s.2 % m else s.1, s.2 * s.2 % m)) (1, b % m)).1

/-- Inverse modulo a prime. -/
def invMod (m b : Nat) : Nat := powMod m b (m - 2)

/-- Difference modulo the prime of P-256. -/
def subP (a b : Nat) : Nat := (a + p256P - b % p256P) % p256P

/-- Sum of two points of P-256; none is the point at infinity. -/
def ecAdd (p q : Option (Nat × Nat)) : Option (Nat × Nat) :=
  match p, q with
  | none, q => q
  | p, none => p
  | some a, some b =>
    if a.1 = b.1 ∧ (a.2 + b.2) % p256P = 0 then none
    else
      let l := if a.1 = b.1 then subP (3 * a.1 * a.1) 3 * invMod p256P (2 * a.2) % p256P
        else subP b.2 a.2 * invMod p256P (subP b.1 a.1) % p256P
      let x := subP (subP (l * l) a.1) b.1
      some (x, subP (l * subP a.1 x) a.2)

/-- Multiple of a point of P-256. -/
def ecMul (n : Nat) (q : Nat × Nat) : Option (Nat × Nat) :=
  ((List.range 256).foldl (fun (s : Option (Nat × Nat) × Option (Nat × Nat)) i =>
    (if n.testBit i then ecAdd s.1 s.2 else s.1, ecAdd s.2 s.2)) (none, some q)).1

/-- The signature (r, s) verifies for the hash `e` under the key `q`. -/
def ecdsaOk (q : Nat × Nat) (e r s : Nat) : Bool :=
  if r = 0 ∨ s = 0 ∨ p256N ≤ r ∨ p256N ≤ s then false
  else
    let w := invMod p256N s
    match ecAdd (ecMul (e * w % p256N) p256G) (ecMul (r * w % p256N) q) with
    | some p => p.1 % p256N == r
    | none => false

end Sys2Proof.Machine
end

