-- ==== Sys2Proof/Machine/Tab.lean ====
section
/-! DEFINITION. Sparse tables in one canonical form: keys strictly rising and no entry equal to what an unlisted key
reads as. Byte memories are tables of bytes. -/

namespace Sys2Proof.Machine

/-- A sparse table: key and value pairs, keys strictly rising. -/
abbrev Tab (α : Type) := List (Nat × α)

/-- The value at a key; an unlisted key reads `dflt`. -/
def Tab.get {α : Type} (dflt : α) : Tab α → Nat → α
  | [], _ => dflt
  | (a, v) :: t, k => if a = k then v else Tab.get dflt t k

/-- The table without a key. -/
def Tab.del {α : Type} : Tab α → Nat → Tab α
  | [], _ => []
  | (a, v) :: t, k => if a = k then Tab.del t k else (a, v) :: Tab.del t k

/-- The table with a key listed at a value. -/
def Tab.ins {α : Type} : Tab α → Nat → α → Tab α
  | [], k, x => [(k, x)]
  | (a, v) :: t, k, x =>
    if k < a then (k, x) :: (a, v) :: t else if a = k then (k, x) :: t else (a, v) :: Tab.ins t k x

/-- Write a value: an unlisted key reads `dflt`, so writing `dflt` removes the entry. -/
def Tab.set {α : Type} [DecidableEq α] (dflt : α) (t : Tab α) (k : Nat) (x : α) : Tab α :=
  if x = dflt then Tab.del t k else Tab.ins t k x

/-- Every key of the table is at least `lo`, keys rise strictly and no value is the default. -/
def Tab.wfFrom {α : Type} [DecidableEq α] (dflt : α) : Nat → Tab α → Bool
  | _, [] => true
  | lo, (a, v) :: t => decide (lo ≤ a) && decide (v ≠ dflt) && Tab.wfFrom dflt (a + 1) t

/-- The canonical form. -/
def Tab.wf {α : Type} [DecidableEq α] (dflt : α) (t : Tab α) : Bool := Tab.wfFrom dflt 0 t

/-- A byte memory. -/
abbrev Mem := List Host.Cell

/-- One byte of a memory whose unlisted addresses read `dflt`. -/
def Mem.rd (dflt : Byte) (m : Mem) (a : Nat) : Byte := Tab.get dflt m a

/-- A run of bytes. -/
def Mem.rdN (dflt : Byte) (m : Mem) (a n : Nat) : List Byte := (List.range n).map (fun i => m.rd dflt (a + i))

/-- Write one byte. -/
def Mem.wr (dflt : Byte) (m : Mem) (a : Nat) (b : Byte) : Mem := Tab.set dflt m a b

/-- Write a run of bytes. -/
def Mem.wrN (dflt : Byte) : Mem → Nat → List Byte → Mem
  | m, _, [] => m
  | m, a, b :: bs => Mem.wrN dflt (m.wr dflt a b) (a + 1) bs

/-- Make a range read as unlisted. -/
def Mem.clear (m : Mem) (a n : Nat) : Mem := m.filter (fun c => decide (c.1 < a) || decide (a + n ≤ c.1))

/-- Copy a range of one memory into another. Only listed bytes are visited. -/
def Mem.copy (dsrc ddst : Byte) (src : Mem) (a n : Nat) (dst : Mem) (b : Nat) : Mem :=
  if dsrc = ddst then
    (src.filter (fun c => decide (a ≤ c.1) && decide (c.1 < a + n))).foldl
      (fun m c => m.wr ddst (b + (c.1 - a)) c.2) (dst.clear b n)
  else dst.wrN ddst b (src.rdN dsrc a n)

/-- The canonical form of a memory. -/
def Mem.wf (dflt : Byte) (m : Mem) : Bool := Tab.wf dflt m

end Sys2Proof.Machine
end

