-- ==== Sys2Proof/Machine/RegMap.lean ====
section
/-! DEFINITION. The register map of the spec's register tables: offset, fields, access codes, reset values and legal
ranges (R4, R5), and names for the registers (`R.`) and fields (`F.`) the meanings use. -/

namespace Sys2Proof.Machine

/-- The access codes of R4; RSV bits belong to no field. -/
inductive Acc where
  | rw
  | ro
  | wo
  | w1c
  | w1s
  | rwl
  deriving DecidableEq, Repr

/-- One field of a register: place, access, reset value and, where the spec lists the encodings, the listed range (R5). -/
structure FieldRow where
  lo : Nat
  w : Nat
  acc : Acc
  rst : Nat
  lmin : Nat
  lmax : Nat
  deriving DecidableEq, Repr

/-- One register, array of registers or 64-bit pair: offset of the first, stride, count, whether it is a pair, fields. -/
structure RegRow where
  name : String
  base : Nat
  stride : Nat
  count : Nat
  pair : Bool
  flds : List FieldRow
  deriving DecidableEq, Repr

/-- A field by its register offset (of element 0), array stride, number of elements, low bit, width, and whether its register
is a 64-bit pair. -/
structure Fld where
  reg : Nat
  stride : Nat
  count : Nat
  lo : Nat
  w : Nat
  pair : Bool
  deriving DecidableEq, Repr

/-- The field of an element that does not exist: it has no bits, so it reads 0 and a write to it changes nothing. -/
def Fld.absent : Fld := ⟨0x100000, 0, 0, 0, 0, false⟩

/-- The field of element `i` of an array. -/
def Fld.at (f : Fld) (i : Nat) : Fld := if i < f.count then ⟨f.reg + f.stride * i, f.stride, 1, f.lo, f.w, f.pair⟩ else .absent

/-- Registers of block 0x00000, part 0. -/
def regsSys0 : List RegRow := [
  ⟨"SYS_ID", 0x00000, 0x0, 1, false, [⟨0, 8, .ro, 0x10, 0, 255⟩, ⟨8, 16, .ro, 0x2520, 0, 65535⟩]⟩,
  ⟨"SYS_TIME", 0x00010, 0x0, 1, true, [⟨0, 64, .ro, 0x0, 0, 18446744073709551615⟩]⟩,
  ⟨"SYS_START", 0x00020, 0x0, 1, false, [⟨0, 4, .ro, 0x1, 0, 15⟩, ⟨4, 1, .ro, 0x0, 0, 1⟩, ⟨16, 16, .ro, 0x0, 0, 65535⟩]⟩,
  ⟨"SYS_RST_CAUSE", 0x00024, 0x0, 1, false, [⟨0, 1, .w1c, 0x1, 0, 1⟩, ⟨1, 1, .w1c, 0x0, 0, 1⟩, ⟨2, 1, .w1c, 0x0, 0, 1⟩, ⟨3, 1, .w1c, 0x0, 0, 1⟩, ⟨4, 1, .w1c, 0x0, 0, 1⟩]⟩,
  ⟨"SYS_RST", 0x00028, 0x0, 1, false, [⟨0, 8, .wo, 0x0, 0, 255⟩, ⟨8, 2, .wo, 0x0, 0, 3⟩]⟩,
  ⟨"SYS_BOOT_CTL", 0x00030, 0x0, 1, false, [⟨0, 1, .wo, 0x0, 0, 1⟩, ⟨1, 1, .wo, 0x0, 0, 1⟩, ⟨2, 1, .rw, 0x0, 0, 1⟩, ⟨8, 6, .rw, 0x0, 0, 63⟩, ⟨14, 1, .rw, 0x0, 0, 1⟩]⟩,
  ⟨"SYS_BOOT_STAT", 0x00034, 0x0, 1, false, [⟨0, 1, .ro, 0x0, 0, 1⟩, ⟨1, 1, .ro, 0x0, 0, 1⟩, ⟨2, 1, .ro, 0x0, 0, 1⟩, ⟨3, 1, .ro, 0x0, 0, 1⟩, ⟨4, 1, .w1c, 0x0, 0, 1⟩, ⟨5, 1, .ro, 0x0, 0, 1⟩]⟩,
  ⟨"CLK_STAT", 0x01000, 0x0, 1, false, [⟨0, 1, .ro, 0x0, 0, 1⟩, ⟨1, 1, .ro, 0x0, 0, 1⟩, ⟨2, 1, .ro, 0x0, 0, 1⟩, ⟨3, 1, .ro, 0x0, 0, 1⟩, ⟨4, 1, .w1c, 0x0, 0, 1⟩]⟩,
  ⟨"CLK_REF_LOSS", 0x01004, 0x0, 1, false, [⟨0, 32, .ro, 0x0, 0, 4294967295⟩]⟩,
  ⟨"CLK_UNLOCK", 0x01008, 0x0, 1, false, [⟨0, 32, .ro, 0x0, 0, 4294967295⟩]⟩,
  ⟨"CLK_CNT_CLR", 0x010F0, 0x0, 1, false, [⟨0, 1, .wo, 0x0, 0, 1⟩]⟩,
  ⟨"PWR_DOM_ON", 0x02000, 0x4, 4, false, [⟨0, 32, .ro, 0xFFFFFFFF, 0, 4294967295⟩]⟩]

/-- Registers of block 0x00000, part 1. -/
def regsSys1 : List RegRow := [
  ⟨"PWR_DOM_DRAIN", 0x02010, 0x4, 4, false, [⟨0, 32, .ro, 0x0, 0, 4294967295⟩]⟩,
  ⟨"PWR_DRAIN", 0x02020, 0x0, 1, false, [⟨0, 16, .rw, 0x64, 1, 65535⟩]⟩,
  ⟨"PWR_LAST", 0x02024, 0x0, 1, false, [⟨0, 7, .ro, 0x0, 0, 127⟩, ⟨7, 1, .ro, 0x0, 0, 1⟩, ⟨8, 2, .ro, 0x0, 0, 3⟩, ⟨16, 16, .ro, 0x0, 0, 65535⟩]⟩,
  ⟨"PWR_ABORTED", 0x02028, 0x0, 1, false, [⟨0, 32, .ro, 0x0, 0, 4294967295⟩]⟩,
  ⟨"PWR_BAL_SAT_CNT", 0x0202C, 0x0, 1, false, [⟨0, 32, .ro, 0x0, 0, 4294967295⟩]⟩,
  ⟨"PWR_BAL_CTL", 0x02040, 0x0, 1, false, [⟨0, 1, .rw, 0x0, 0, 1⟩, ⟨16, 13, .rw, 0x1B58, 2000, 7300⟩]⟩,
  ⟨"PWR_BAL_STAT", 0x02044, 0x0, 1, false, [⟨0, 1, .ro, 0x0, 0, 1⟩, ⟨1, 1, .ro, 0x0, 0, 1⟩, ⟨2, 1, .ro, 0x0, 0, 1⟩, ⟨3, 1, .ro, 0x0, 0, 1⟩, ⟨4, 1, .ro, 0x0, 0, 1⟩]⟩,
  ⟨"PWR_P_IN", 0x02048, 0x0, 1, false, [⟨0, 16, .ro, 0x0, 0, 65535⟩]⟩,
  ⟨"PWR_P_HELD", 0x0204C, 0x0, 1, false, [⟨0, 16, .ro, 0x0, 0, 65535⟩]⟩,
  ⟨"PWR_P_BAL", 0x02050, 0x0, 1, false, [⟨0, 16, .ro, 0x0, 0, 65535⟩]⟩,
  ⟨"PWR_SP_ACT", 0x02054, 0x0, 1, false, [⟨0, 16, .ro, 0x0, 0, 65535⟩]⟩,
  ⟨"PWR_CNT_CLR", 0x020F0, 0x0, 1, false, [⟨0, 1, .wo, 0x0, 0, 1⟩]⟩]

/-- Registers of block 0x00000. -/
def regsSys : List RegRow := regsSys0 ++ regsSys1

/-- Registers of block 0x04000, part 0. -/
def regsFpa0 : List RegRow := [
  ⟨"FPA_CTL", 0x04000, 0x0, 1, false, [⟨0, 1, .rw, 0x0, 0, 1⟩, ⟨1, 1, .wo, 0x0, 0, 1⟩]⟩,
  ⟨"FPA_STAT", 0x04004, 0x0, 1, false, [⟨0, 1, .ro, 0x0, 0, 1⟩, ⟨1, 1, .ro, 0x0, 0, 1⟩, ⟨2, 1, .ro, 0x0, 0, 1⟩, ⟨3, 2, .ro, 0x0, 0, 3⟩, ⟨5, 2, .ro, 0x0, 0, 3⟩, ⟨7, 1, .ro, 0x0, 0, 1⟩]⟩,
  ⟨"FPA_GEN_CUR", 0x04008, 0x0, 1, false, [⟨0, 32, .ro, 0x0, 0, 4294967295⟩]⟩,
  ⟨"FPA_GEN_PEND", 0x0400C, 0x0, 1, false, [⟨0, 32, .ro, 0x0, 0, 4294967295⟩]⟩,
  ⟨"FPA_ACQ_SEL", 0x04010, 0x0, 1, false, [⟨0, 2, .rw, 0x0, 0, 3⟩]⟩,
  ⟨"FPA_ACQ_CTL", 0x04014, 0x0, 1, false, [⟨0, 1, .wo, 0x0, 0, 1⟩, ⟨1, 1, .wo, 0x0, 0, 1⟩]⟩,
  ⟨"FPA_ACQ_TIME", 0x04018, 0x0, 1, true, [⟨0, 64, .rw, 0x0, 0, 18446744073709551615⟩]⟩,
  ⟨"FPA_ACQ_STAT", 0x04020, 0x0, 1, false, [⟨0, 4, .ro, 0x0, 0, 15⟩, ⟨4, 1, .w1c, 0x0, 0, 1⟩, ⟨5, 1, .w1c, 0x0, 0, 1⟩, ⟨6, 1, .w1c, 0x0, 0, 1⟩]⟩,
  ⟨"FPA_ACQ_BND", 0x04028, 0x0, 1, true, [⟨0, 64, .ro, 0x0, 0, 18446744073709551615⟩]⟩,
  ⟨"FPA_FRAME_T", 0x04030, 0x0, 1, true, [⟨0, 64, .ro, 0x0, 0, 18446744073709551615⟩]⟩,
  ⟨"FPA_FRAME_CNT", 0x04038, 0x0, 1, false, [⟨0, 32, .ro, 0x0, 0, 4294967295⟩]⟩,
  ⟨"FPA_TRIG_MISS", 0x0403C, 0x0, 1, false, [⟨0, 32, .ro, 0x0, 0, 4294967295⟩]⟩]

/-- Registers of block 0x04000, part 1. -/
def regsFpa1 : List RegRow := [
  ⟨"FPA_LINK_LOST", 0x04040, 0x0, 1, false, [⟨0, 32, .ro, 0x0, 0, 4294967295⟩]⟩,
  ⟨"FPA_STAGE_CTL", 0x04080, 0x0, 1, false, [⟨0, 1, .rw, 0x1, 0, 1⟩, ⟨1, 3, .rw, 0x1, 0, 6⟩, ⟨4, 1, .rw, 0x0, 0, 1⟩]⟩,
  ⟨"FPA_STAGE_STAT", 0x04084, 0x0, 1, false, [⟨0, 3, .ro, 0x0, 0, 7⟩, ⟨3, 1, .ro, 0x0, 0, 1⟩, ⟨4, 3, .ro, 0x1, 0, 7⟩, ⟨7, 1, .ro, 0x1, 0, 1⟩, ⟨8, 1, .ro, 0x0, 0, 1⟩, ⟨9, 1, .ro, 0x0, 0, 1⟩, ⟨10, 4, .ro, 0x0, 0, 15⟩, ⟨14, 1, .ro, 0x0, 0, 1⟩, ⟨15, 1, .w1c, 0x0, 0, 1⟩]⟩,
  ⟨"FPA_STAGE_TEMP", 0x04088, 0x0, 1, false, [⟨0, 32, .ro, 0x0, 0, 4294967295⟩]⟩,
  ⟨"FPA_STAGE_RATE", 0x0408C, 0x0, 1, false, [⟨0, 32, .ro, 0x0, 0, 4294967295⟩]⟩,
  ⟨"FPA_FRAME_TEMP", 0x04090, 0x0, 1, false, [⟨0, 32, .ro, 0x0, 0, 4294967295⟩]⟩,
  ⟨"FPA_HEATER", 0x04094, 0x0, 1, false, [⟨0, 16, .ro, 0x0, 0, 65535⟩, ⟨16, 10, .ro, 0x0, 0, 1023⟩]⟩,
  ⟨"FPA_TD", 0x040A0, 0x4, 4, false, [⟨0, 32, .ro, 0x0, 0, 4294967295⟩]⟩,
  ⟨"FPA_COPPICE_STAT", 0x040C0, 0x0, 1, false, [⟨0, 8, .ro, 0x0, 0, 255⟩, ⟨8, 7, .ro, 0x0, 0, 127⟩]⟩,
  ⟨"ACQ_TINT", 0x04100, 0x20, 4, false, [⟨0, 13, .rw, 0xAF0, 0, 8191⟩]⟩,
  ⟨"ACQ_TSLOT", 0x04104, 0x20, 4, false, [⟨0, 16, .rw, 0xC94, 0, 65535⟩]⟩,
  ⟨"ACQ_PERIOD", 0x04108, 0x20, 4, false, [⟨0, 32, .rw, 0xCB735, 0, 4294967295⟩]⟩]

/-- Registers of block 0x04000, part 2. -/
def regsFpa2 : List RegRow := [
  ⟨"ACQ_BIAS", 0x0410C, 0x20, 4, false, [⟨0, 12, .rw, 0x960, 0, 4095⟩]⟩,
  ⟨"ACQ_SKIM", 0x04110, 0x20, 4, false, [⟨0, 10, .rw, 0x200, 0, 1023⟩]⟩,
  ⟨"ACQ_MODE", 0x04114, 0x20, 4, false, [⟨0, 1, .rw, 0x0, 0, 1⟩, ⟨1, 2, .rw, 0x0, 0, 2⟩]⟩,
  ⟨"ACQ_WIN_ROW", 0x04118, 0x20, 4, false, [⟨0, 8, .rw, 0x0, 0, 255⟩, ⟨16, 9, .rw, 0x100, 0, 511⟩]⟩,
  ⟨"ACQ_WIN_COL", 0x0411C, 0x20, 4, false, [⟨0, 7, .rw, 0x0, 0, 127⟩, ⟨16, 7, .rw, 0x50, 0, 127⟩]⟩,
  ⟨"FPA_CGTRIM", 0x04200, 0x4, 80, false, [⟨0, 6, .rw, 0x0, 0, 63⟩]⟩,
  ⟨"FPA_CGMAP", 0x04400, 0x4, 80, false, [⟨0, 5, .ro, 0x0, 0, 31⟩, ⟨5, 1, .ro, 0x0, 0, 1⟩, ⟨6, 1, .ro, 0x0, 0, 1⟩, ⟨8, 5, .ro, 0x0, 0, 31⟩, ⟨13, 1, .ro, 0x0, 0, 1⟩, ⟨14, 1, .ro, 0x0, 0, 1⟩, ⟨15, 1, .ro, 0x0, 0, 1⟩]⟩]

/-- Registers of block 0x04000. -/
def regsFpa : List RegRow := regsFpa0 ++ regsFpa1 ++ regsFpa2

/-- Registers of block 0x08000, part 0. -/
def regsPipe0 : List RegRow := [
  ⟨"PIPE_NS_CTL", 0x08000, 0x0, 1, false, [⟨0, 1, .rw, 0x1, 0, 1⟩, ⟨1, 1, .rw, 0x1, 0, 1⟩, ⟨4, 8, .rw, 0xF, 0, 255⟩]⟩,
  ⟨"PIPE_NS_STAT", 0x08004, 0x0, 1, false, [⟨0, 8, .ro, 0x0, 0, 255⟩, ⟨8, 1, .ro, 0x0, 0, 1⟩, ⟨9, 1, .ro, 0x0, 0, 1⟩]⟩,
  ⟨"PIPE_NS_ROWSPAN", 0x08008, 0x0, 1, false, [⟨0, 16, .ro, 0x0, 0, 65535⟩]⟩,
  ⟨"PIPE_NS_CHDRIFT", 0x0800C, 0x0, 1, false, [⟨0, 16, .ro, 0x0, 0, 65535⟩]⟩,
  ⟨"PIPE_PL_CTL", 0x08040, 0x0, 1, false, [⟨0, 1, .rw, 0x1, 0, 1⟩, ⟨1, 1, .rw, 0x1, 0, 1⟩, ⟨8, 8, .rw, 0x64, 1, 255⟩, ⟨16, 1, .wo, 0x0, 0, 1⟩]⟩,
  ⟨"PIPE_PL_STAT", 0x08044, 0x0, 1, false, [⟨0, 2, .ro, 0x0, 0, 3⟩, ⟨2, 2, .ro, 0x1, 0, 3⟩, ⟨4, 2, .ro, 0x2, 0, 3⟩, ⟨6, 2, .ro, 0x0, 0, 3⟩, ⟨8, 2, .ro, 0x0, 0, 3⟩, ⟨10, 2, .ro, 0x0, 0, 3⟩, ⟨12, 1, .ro, 0x0, 0, 1⟩, ⟨13, 1, .ro, 0x0, 0, 1⟩, ⟨14, 1, .w1c, 0x0, 0, 1⟩, ⟨15, 1, .ro, 0x0, 0, 1⟩, ⟨16, 1, .ro, 0x0, 0, 1⟩, ⟨17, 1, .w1c, 0x0, 0, 1⟩]⟩,
  ⟨"PIPE_PL_SEQ_ACT", 0x08048, 0x0, 1, false, [⟨0, 32, .ro, 0x0, 0, 4294967295⟩]⟩,
  ⟨"PIPE_PL_SEQ_STBY", 0x0804C, 0x0, 1, false, [⟨0, 32, .ro, 0x0, 0, 4294967295⟩]⟩,
  ⟨"PIPE_PL_TREF", 0x08050, 0x0, 1, false, [⟨0, 32, .ro, 0x0, 0, 4294967295⟩]⟩,
  ⟨"PIPE_PL_SWAP_T", 0x08058, 0x0, 1, true, [⟨0, 64, .ro, 0x0, 0, 18446744073709551615⟩]⟩,
  ⟨"PIPE_PL_LOADERR", 0x08060, 0x0, 1, false, [⟨0, 32, .ro, 0x0, 0, 4294967295⟩]⟩,
  ⟨"PIPE_ST_CTL", 0x08080, 0x0, 1, false, [⟨0, 1, .rw, 0x1, 0, 1⟩, ⟨1, 1, .rw, 0x1, 0, 1⟩]⟩]

/-- Registers of block 0x08000, part 1. -/
def regsPipe1 : List RegRow := [
  ⟨"PIPE_ST_STAT", 0x08084, 0x0, 1, false, [⟨0, 16, .ro, 0x0, 0, 65535⟩, ⟨16, 8, .ro, 0x0, 0, 255⟩, ⟨24, 1, .ro, 0x0, 0, 1⟩]⟩,
  ⟨"PIPE_ST_DEFECTS", 0x08088, 0x0, 1, false, [⟨0, 23, .ro, 0x0, 0, 8388607⟩]⟩,
  ⟨"PIPE_ST_INVALID", 0x0808C, 0x0, 1, false, [⟨0, 23, .ro, 0x0, 0, 8388607⟩]⟩,
  ⟨"PIPE_ST_CLUMAX", 0x08090, 0x0, 1, false, [⟨0, 12, .ro, 0x0, 0, 4095⟩, ⟨12, 12, .ro, 0x0, 0, 4095⟩]⟩,
  ⟨"PIPE_ST_SEQ", 0x08094, 0x0, 1, false, [⟨0, 32, .ro, 0x0, 0, 4294967295⟩]⟩,
  ⟨"PIPE_CAP_STAT", 0x080C0, 0x0, 1, false, [⟨0, 1, .ro, 0x0, 0, 1⟩, ⟨1, 3, .ro, 0x0, 0, 7⟩, ⟨4, 2, .ro, 0x0, 0, 3⟩, ⟨6, 1, .ro, 0x0, 0, 1⟩]⟩,
  ⟨"PIPE_CAP_DONE", 0x080C4, 0x0, 1, false, [⟨0, 32, .ro, 0x0, 0, 4294967295⟩]⟩,
  ⟨"PIPE_CAP_DROP", 0x080C8, 0x0, 1, false, [⟨0, 32, .ro, 0x0, 0, 4294967295⟩]⟩,
  ⟨"PIPE_CAP_DROP_QDR", 0x080CC, 0x0, 1, false, [⟨0, 32, .ro, 0x0, 0, 4294967295⟩]⟩,
  ⟨"PIPE_CNT_CLR", 0x080F0, 0x0, 1, false, [⟨0, 1, .wo, 0x0, 0, 1⟩, ⟨1, 1, .wo, 0x0, 0, 1⟩]⟩,
  ⟨"PIPE_BU_CTL", 0x0A000, 0x0, 1, false, [⟨0, 1, .rw, 0x1, 0, 1⟩, ⟨1, 1, .rw, 0x1, 0, 1⟩, ⟨8, 9, .rw, 0x100, 0, 256⟩]⟩,
  ⟨"PIPE_BU_GATE", 0x0A004, 0x0, 1, false, [⟨0, 12, .rw, 0x8, 0, 4095⟩]⟩]

/-- Registers of block 0x08000, part 2. -/
def regsPipe2 : List RegRow := [
  ⟨"PIPE_BU_TAUDEF", 0x0A008, 0x0, 1, false, [⟨0, 10, .rw, 0x208, 100, 1023⟩]⟩,
  ⟨"PIPE_BU_STAT", 0x0A00C, 0x0, 1, false, [⟨0, 23, .ro, 0x0, 0, 8388607⟩, ⟨23, 1, .ro, 0x0, 0, 1⟩]⟩,
  ⟨"PIPE_BU_RESTART", 0x0A010, 0x0, 1, false, [⟨0, 23, .ro, 0x0, 0, 8388607⟩]⟩,
  ⟨"PIPE_BU_GATED", 0x0A014, 0x0, 1, false, [⟨0, 23, .ro, 0x0, 0, 8388607⟩]⟩,
  ⟨"PIPE_BU_TAUMED", 0x0A018, 0x0, 1, false, [⟨0, 10, .ro, 0x0, 0, 1023⟩]⟩,
  ⟨"PIPE_DM_CTL", 0x0A040, 0x0, 1, false, [⟨0, 1, .rw, 0x1, 0, 1⟩, ⟨1, 1, .rw, 0x1, 0, 1⟩, ⟨8, 8, .rw, 0x20, 0, 255⟩]⟩,
  ⟨"PIPE_DM_STAT", 0x0A044, 0x0, 1, false, [⟨0, 1, .ro, 0x0, 0, 1⟩, ⟨1, 4, .ro, 0x0, 0, 15⟩, ⟨5, 1, .ro, 0x0, 0, 1⟩]⟩,
  ⟨"PIPE_DM_TRUST", 0x0A048, 0x0, 1, false, [⟨0, 16, .rw, 0x68, 0, 65535⟩, ⟨16, 4, .rw, 0x3, 1, 15⟩]⟩,
  ⟨"PIPE_DM_OFS", 0x0A04C, 0x0, 1, false, [⟨0, 16, .ro, 0x0, 0, 65535⟩]⟩,
  ⟨"PIPE_DM_K", 0x0A050, 0x4, 8, false, [⟨0, 32, .rw, 0x0, 0, 4294967295⟩]⟩,
  ⟨"PIPE_DM_REF_T", 0x0A070, 0x0, 1, false, [⟨0, 32, .ro, 0x0, 0, 4294967295⟩]⟩,
  ⟨"PIPE_DM_REF_F", 0x0A074, 0x0, 1, false, [⟨0, 32, .ro, 0x0, 0, 4294967295⟩]⟩]

/-- Registers of block 0x08000, part 3. -/
def regsPipe3 : List RegRow := [
  ⟨"PIPE_DM_REF_Q", 0x0A078, 0x0, 1, false, [⟨0, 32, .ro, 0x0, 0, 4294967295⟩]⟩,
  ⟨"PIPE_DM_REF_OP", 0x0A07C, 0x0, 1, false, [⟨0, 32, .ro, 0x0, 0, 4294967295⟩]⟩,
  ⟨"PIPE_DM_RESID", 0x0A080, 0x0, 1, false, [⟨0, 32, .ro, 0x0, 0, 4294967295⟩]⟩,
  ⟨"PIPE_DF_CTL", 0x0A090, 0x0, 1, false, [⟨0, 1, .rw, 0x1, 0, 1⟩, ⟨1, 1, .rw, 0x1, 0, 1⟩, ⟨8, 8, .rw, 0x40, 0, 255⟩]⟩,
  ⟨"PIPE_DF_MINDT", 0x0A094, 0x0, 1, false, [⟨0, 16, .rw, 0x7D0, 0, 65535⟩]⟩,
  ⟨"PIPE_DF_MINQ", 0x0A098, 0x0, 1, false, [⟨0, 16, .rw, 0x7D0, 0, 65535⟩]⟩,
  ⟨"PIPE_RAD_CTL", 0x0A0A0, 0x0, 1, false, [⟨0, 1, .rw, 0x1, 0, 1⟩, ⟨1, 1, .rw, 0x1, 0, 1⟩]⟩,
  ⟨"PIPE_RAD_EPS_DEF", 0x0A0A4, 0x0, 1, false, [⟨0, 11, .rw, 0x400, 103, 1024⟩]⟩,
  ⟨"PIPE_RAD_TREFL_DEF", 0x0A0A8, 0x0, 1, false, [⟨0, 16, .rw, 0x3A3C, 0, 65535⟩]⟩,
  ⟨"PIPE_RAD_CV_STAT", 0x0A0AC, 0x0, 1, false, [⟨0, 2, .ro, 0x0, 0, 3⟩, ⟨2, 2, .ro, 0x0, 0, 3⟩, ⟨4, 1, .ro, 0x0, 0, 1⟩]⟩,
  ⟨"PIPE_RAD_CV_SEQ", 0x0A0B0, 0x4, 2, false, [⟨0, 32, .ro, 0x0, 0, 4294967295⟩]⟩,
  ⟨"PIPE_RAD_SAT", 0x0A0B8, 0x0, 1, false, [⟨0, 16, .ro, 0x0, 0, 65535⟩, ⟨16, 16, .ro, 0x0, 0, 65535⟩]⟩]

/-- Registers of block 0x08000, part 4. -/
def regsPipe4 : List RegRow := [
  ⟨"PIPE_RAD_NOVAL", 0x0A0BC, 0x0, 1, false, [⟨0, 23, .ro, 0x0, 0, 8388607⟩]⟩,
  ⟨"PIPE_AC_CTL", 0x0A0E0, 0x0, 1, false, [⟨0, 2, .rw, 0x1, 0, 2⟩, ⟨8, 8, .rw, 0xF, 0, 255⟩, ⟨16, 8, .rw, 0x3C, 0, 255⟩]⟩,
  ⟨"PIPE_AC_STAT", 0x0A0E4, 0x0, 1, false, [⟨0, 2, .ro, 0x2, 0, 3⟩, ⟨2, 1, .ro, 0x0, 0, 1⟩, ⟨8, 12, .ro, 0x0, 0, 4095⟩]⟩,
  ⟨"PIPE_AC_AGE", 0x0A0E8, 0x0, 1, false, [⟨0, 32, .ro, 0x0, 0, 4294967295⟩]⟩,
  ⟨"PIPE_AC_CHANGES", 0x0A0EC, 0x0, 1, false, [⟨0, 32, .ro, 0x0, 0, 4294967295⟩]⟩,
  ⟨"PIPE_TRK_DT", 0x0A0F0, 0x0, 1, false, [⟨0, 16, .rw, 0x1388, 0, 65535⟩]⟩,
  ⟨"PIPE_TRK_DF", 0x0A0F4, 0x0, 1, false, [⟨0, 16, .rw, 0x2710, 0, 65535⟩]⟩,
  ⟨"PIPE_TRK_MAX", 0x0A0F8, 0x0, 1, false, [⟨0, 16, .rw, 0x0, 0, 65535⟩]⟩,
  ⟨"PIPE_AC_PROOF_T", 0x0A100, 0x0, 1, true, [⟨0, 64, .ro, 0x0, 0, 18446744073709551615⟩]⟩,
  ⟨"PIPE_AC_REF_TINT", 0x0A108, 0x0, 1, false, [⟨0, 13, .ro, 0x0, 0, 8191⟩]⟩]

/-- Registers of block 0x08000. -/
def regsPipe : List RegRow := regsPipe0 ++ regsPipe1 ++ regsPipe2 ++ regsPipe3 ++ regsPipe4

/-- Registers of block 0x0C000, part 0. -/
def regsProof0 : List RegRow := [
  ⟨"PROOF_CTL", 0x0C000, 0x0, 1, false, [⟨0, 1, .rw, 0x1, 0, 1⟩, ⟨1, 1, .rw, 0x1, 0, 1⟩, ⟨8, 7, .rw, 0x10, 8, 64⟩]⟩,
  ⟨"PROOF_STAT", 0x0C004, 0x0, 1, false, [⟨0, 3, .ro, 0x0, 0, 7⟩, ⟨3, 2, .ro, 0x0, 0, 3⟩, ⟨5, 1, .ro, 0x0, 0, 1⟩, ⟨6, 1, .ro, 0x0, 0, 1⟩, ⟨7, 1, .ro, 0x0, 0, 1⟩, ⟨8, 4, .ro, 0x0, 0, 15⟩]⟩,
  ⟨"PROOF_REQ", 0x0C008, 0x0, 1, false, [⟨0, 7, .ro, 0x0, 0, 127⟩]⟩,
  ⟨"PROOF_SCHED", 0x0C00C, 0x0, 1, false, [⟨0, 8, .rw, 0xA, 0, 255⟩, ⟨8, 8, .rw, 0xE, 0, 255⟩, ⟨16, 16, .rw, 0x3C, 0, 65535⟩]⟩,
  ⟨"PROOF_SHUT_CTL", 0x0C020, 0x0, 1, false, [⟨0, 1, .rw, 0x0, 0, 1⟩, ⟨1, 1, .rw, 0x0, 0, 1⟩, ⟨2, 1, .rw, 0x0, 0, 1⟩, ⟨4, 2, .rw, 0x2, 0, 2⟩, ⟨6, 1, .rw, 0x0, 0, 1⟩, ⟨7, 1, .rw, 0x0, 0, 1⟩]⟩,
  ⟨"PROOF_SHUT_TIME", 0x0C024, 0x0, 1, false, [⟨0, 8, .rw, 0xF, 1, 255⟩, ⟨8, 8, .rw, 0x32, 1, 255⟩, ⟨16, 8, .rw, 0x14, 0, 255⟩, ⟨24, 8, .rw, 0x80, 0, 255⟩]⟩,
  ⟨"PROOF_SHUT_STAT", 0x0C028, 0x0, 1, false, [⟨0, 3, .ro, 0x0, 0, 7⟩, ⟨3, 1, .ro, 0x0, 0, 1⟩, ⟨4, 1, .ro, 0x0, 0, 1⟩, ⟨5, 2, .ro, 0x0, 0, 3⟩]⟩,
  ⟨"PROOF_SHUT_MOVE", 0x0C02C, 0x0, 1, false, [⟨0, 16, .ro, 0x0, 0, 65535⟩, ⟨16, 16, .ro, 0x0, 0, 65535⟩]⟩,
  ⟨"PROOF_SHUT_CMD", 0x0C030, 0x0, 1, false, [⟨0, 1, .wo, 0x0, 0, 1⟩, ⟨1, 1, .wo, 0x0, 0, 1⟩, ⟨2, 1, .wo, 0x0, 0, 1⟩]⟩,
  ⟨"PROOF_BLADE_CFG", 0x0C040, 0x0, 1, false, [⟨0, 3, .rw, 0x0, 0, 7⟩, ⟨4, 11, .rw, 0x3F0, 103, 1024⟩, ⟨16, 16, .rw, 0x32, 0, 65535⟩]⟩,
  ⟨"PROOF_THERM_RNOM", 0x0C044, 0x0, 1, false, [⟨0, 32, .rw, 0x2710, 0, 4294967295⟩]⟩,
  ⟨"PROOF_THERM_BETA", 0x0C048, 0x0, 1, false, [⟨0, 32, .rw, 0xD6B, 0, 4294967295⟩]⟩]

/-- Registers of block 0x0C000, part 1. -/
def regsProof1 : List RegRow := [
  ⟨"PROOF_THERM_RDIV", 0x0C04C, 0x0, 1, false, [⟨0, 32, .rw, 0x2710, 0, 4294967295⟩]⟩,
  ⟨"PROOF_BLADE_T", 0x0C050, 0x0, 1, false, [⟨0, 32, .ro, 0x0, 0, 4294967295⟩]⟩,
  ⟨"PROOF_BLADE_SPREAD", 0x0C054, 0x0, 1, false, [⟨0, 16, .rw, 0x800, 0, 65535⟩]⟩,
  ⟨"PROOF_OFS_KEPT", 0x0C058, 0x0, 1, false, [⟨0, 23, .ro, 0x0, 0, 8388607⟩]⟩,
  ⟨"PROOF_TAU_CTL", 0x0C060, 0x0, 1, false, [⟨0, 1, .rw, 0x1, 0, 1⟩, ⟨8, 8, .rw, 0x40, 0, 255⟩, ⟨16, 16, .rw, 0x100, 0, 65535⟩]⟩,
  ⟨"PROOF_TAU_VMAX", 0x0C064, 0x0, 1, false, [⟨0, 16, .rw, 0x32, 0, 65535⟩]⟩,
  ⟨"PROOF_TAU_STAT", 0x0C068, 0x0, 1, false, [⟨0, 23, .ro, 0x0, 0, 8388607⟩, ⟨23, 1, .ro, 0x0, 0, 1⟩, ⟨24, 1, .ro, 0x0, 0, 1⟩]⟩,
  ⟨"PROOF_GLADE_CTL", 0x0C080, 0x0, 1, false, [⟨0, 5, .rw, 0xF, 0, 31⟩, ⟨5, 1, .rw, 0x1, 0, 1⟩, ⟨8, 8, .rw, 0xA, 0, 255⟩]⟩,
  ⟨"PROOF_GLADE_SPD", 0x0C084, 0x0, 1, false, [⟨0, 16, .rw, 0x64, 0, 65535⟩, ⟨16, 16, .rw, 0x3E8, 0, 65535⟩]⟩,
  ⟨"PROOF_GLADE_STAT", 0x0C088, 0x0, 1, false, [⟨0, 1, .ro, 0x0, 0, 1⟩, ⟨1, 5, .ro, 0x0, 0, 31⟩, ⟨6, 1, .ro, 0x0, 0, 1⟩]⟩,
  ⟨"PROOF_GLADE_BEGIN", 0x0C090, 0x0, 1, true, [⟨0, 64, .ro, 0x0, 0, 18446744073709551615⟩]⟩,
  ⟨"PROOF_GLADE_END", 0x0C098, 0x0, 1, true, [⟨0, 64, .ro, 0x0, 0, 18446744073709551615⟩]⟩]

/-- Registers of block 0x0C000, part 2. -/
def regsProof2 : List RegRow := [
  ⟨"PROOF_SCHED_START", 0x0C0B0, 0x0, 1, true, [⟨0, 64, .rw, 0x0, 0, 18446744073709551615⟩]⟩,
  ⟨"PROOF_SCHED_PERIOD", 0x0C0B8, 0x0, 1, false, [⟨0, 32, .rw, 0x0, 0, 4294967295⟩]⟩,
  ⟨"PROOF_SCHED_DUR", 0x0C0BC, 0x0, 1, false, [⟨0, 32, .rw, 0x0, 0, 4294967295⟩]⟩,
  ⟨"PROOF_CNT_DONE", 0x0C0C0, 0x0, 1, false, [⟨0, 32, .ro, 0x0, 0, 4294967295⟩]⟩,
  ⟨"PROOF_CNT_ABORT", 0x0C0C4, 0x0, 1, false, [⟨0, 32, .ro, 0x0, 0, 4294967295⟩]⟩,
  ⟨"PROOF_CNT_FORCED", 0x0C0C8, 0x0, 1, false, [⟨0, 32, .ro, 0x0, 0, 4294967295⟩]⟩,
  ⟨"PROOF_SHUT_FAILS", 0x0C0CC, 0x0, 1, false, [⟨0, 32, .ro, 0x0, 0, 4294967295⟩]⟩,
  ⟨"PROOF_LAST_T", 0x0C0D0, 0x0, 1, true, [⟨0, 64, .ro, 0x0, 0, 18446744073709551615⟩]⟩,
  ⟨"PROOF_CNT_CLR", 0x0C0F0, 0x0, 1, false, [⟨0, 1, .wo, 0x0, 0, 1⟩]⟩,
  ⟨"PROOF_CC_CTL", 0x0C100, 0x0, 1, false, [⟨0, 1, .rw, 0x1, 0, 1⟩]⟩,
  ⟨"PROOF_CC_TOL", 0x0C104, 0x0, 1, false, [⟨0, 8, .rw, 0x14, 0, 255⟩]⟩,
  ⟨"PROOF_CC_LAST", 0x0C108, 0x0, 1, false, [⟨0, 7, .ro, 0x0, 0, 127⟩, ⟨16, 16, .ro, 0x0, 0, 65535⟩]⟩]

/-- Registers of block 0x0C000, part 3. -/
def regsProof3 : List RegRow := [
  ⟨"PROOF_CC_OUTLIER", 0x0C10C, 0x0, 1, false, [⟨0, 32, .ro, 0x0, 0, 4294967295⟩]⟩]

/-- Registers of block 0x0C000. -/
def regsProof : List RegRow := regsProof0 ++ regsProof1 ++ regsProof2 ++ regsProof3

/-- Registers of block 0x10000, part 0. -/
def regsWeb0 : List RegRow := [
  ⟨"WEB_CTL", 0x10000, 0x0, 1, false, [⟨0, 1, .rw, 0x0, 0, 1⟩, ⟨1, 2, .rw, 0x0, 0, 2⟩, ⟨3, 1, .rw, 0x0, 0, 1⟩, ⟨4, 1, .rw, 0x0, 0, 1⟩]⟩,
  ⟨"WEB_ENC_CFG", 0x10004, 0x0, 1, false, [⟨0, 2, .rw, 0x0, 0, 2⟩, ⟨2, 2, .rw, 0x2, 0, 3⟩, ⟨4, 1, .rw, 0x0, 0, 1⟩, ⟨5, 1, .rw, 0x0, 0, 1⟩]⟩,
  ⟨"WEB_SCALE", 0x10008, 0x0, 1, false, [⟨0, 32, .rw, 0x10000, 0, 4294967295⟩]⟩,
  ⟨"WEB_ZCHK", 0x1000C, 0x0, 1, false, [⟨0, 32, .rw, 0x0, 0, 4294967295⟩]⟩,
  ⟨"WEB_HOST_SPEED", 0x10010, 0x0, 1, false, [⟨0, 32, .rw, 0x0, 0, 4294967295⟩]⟩,
  ⟨"WEB_STAT", 0x10014, 0x0, 1, false, [⟨0, 1, .ro, 0x0, 0, 1⟩, ⟨1, 1, .ro, 0x0, 0, 1⟩, ⟨2, 1, .ro, 0x0, 0, 1⟩, ⟨3, 1, .ro, 0x0, 0, 1⟩, ⟨4, 1, .ro, 0x0, 0, 1⟩, ⟨5, 2, .ro, 0x0, 0, 3⟩, ⟨7, 1, .ro, 0x0, 0, 1⟩, ⟨8, 1, .ro, 0x1, 0, 1⟩]⟩,
  ⟨"WEB_POS", 0x10018, 0x0, 1, true, [⟨0, 64, .ro, 0x0, 0, 18446744073709551615⟩]⟩,
  ⟨"WEB_HW", 0x10020, 0x0, 1, true, [⟨0, 64, .ro, 0x0, 0, 18446744073709551615⟩]⟩,
  ⟨"WEB_SPEED", 0x10028, 0x0, 1, false, [⟨0, 32, .ro, 0x0, 0, 4294967295⟩]⟩,
  ⟨"WEB_SPD_WIN", 0x1002C, 0x0, 1, false, [⟨0, 8, .rw, 0xA, 1, 255⟩]⟩,
  ⟨"WEB_STOP", 0x10030, 0x0, 1, false, [⟨0, 16, .rw, 0x5, 0, 65535⟩, ⟨16, 16, .rw, 0x1F4, 0, 65535⟩]⟩,
  ⟨"WEB_CMD", 0x10034, 0x0, 1, false, [⟨0, 1, .wo, 0x0, 0, 1⟩, ⟨1, 1, .wo, 0x0, 0, 1⟩, ⟨2, 1, .wo, 0x0, 0, 1⟩]⟩]

/-- Registers of block 0x10000, part 1. -/
def regsWeb1 : List RegRow := [
  ⟨"WEB_PRESET", 0x10038, 0x0, 1, true, [⟨0, 64, .rw, 0x0, 0, 18446744073709551615⟩]⟩,
  ⟨"WEB_ENC_CNT", 0x10040, 0x0, 1, false, [⟨0, 32, .ro, 0x0, 0, 4294967295⟩]⟩,
  ⟨"WEB_ENC_ERR", 0x10044, 0x0, 1, false, [⟨0, 32, .ro, 0x0, 0, 4294967295⟩]⟩,
  ⟨"WEB_Z_CNT", 0x10048, 0x0, 1, false, [⟨0, 32, .ro, 0x0, 0, 4294967295⟩]⟩,
  ⟨"WEB_Z_ERR", 0x1004C, 0x0, 1, false, [⟨0, 32, .ro, 0x0, 0, 4294967295⟩]⟩,
  ⟨"WEB_Z_POS", 0x10050, 0x0, 1, true, [⟨0, 64, .ro, 0x0, 0, 18446744073709551615⟩]⟩,
  ⟨"WEB_GEO_CTL", 0x10060, 0x0, 1, false, [⟨0, 1, .wo, 0x0, 0, 1⟩]⟩,
  ⟨"WEB_GEO_CRC", 0x10064, 0x0, 1, false, [⟨0, 32, .rw, 0x0, 0, 4294967295⟩]⟩,
  ⟨"WEB_GEO_STAT", 0x10068, 0x0, 1, false, [⟨0, 1, .ro, 0x0, 0, 1⟩, ⟨1, 1, .ro, 0x0, 0, 1⟩, ⟨2, 1, .w1c, 0x0, 0, 1⟩, ⟨3, 11, .ro, 0x0, 0, 2047⟩, ⟨14, 11, .ro, 0x0, 0, 2047⟩]⟩,
  ⟨"WEB_GEO_OMIN", 0x1006C, 0x0, 1, false, [⟨0, 32, .ro, 0x0, 0, 4294967295⟩]⟩,
  ⟨"WEB_GEO_OMAX", 0x10070, 0x0, 1, false, [⟨0, 32, .ro, 0x0, 0, 4294967295⟩]⟩,
  ⟨"WEB_PROF_CUR", 0x10080, 0x0, 1, false, [⟨0, 6, .ro, 0x0, 0, 63⟩, ⟨6, 1, .ro, 0x0, 0, 1⟩]⟩]

/-- Registers of block 0x10000, part 2. -/
def regsWeb2 : List RegRow := [
  ⟨"WEB_PROF_PEND", 0x10084, 0x0, 1, false, [⟨0, 3, .ro, 0x0, 0, 7⟩, ⟨4, 6, .ro, 0x0, 0, 63⟩]⟩,
  ⟨"WEB_PROF_NEXT", 0x10088, 0x0, 1, true, [⟨0, 64, .ro, 0x0, 0, 18446744073709551615⟩]⟩,
  ⟨"WEB_PROF_MAP", 0x10090, 0x0, 1, true, [⟨0, 64, .ro, 0x0, 0, 18446744073709551615⟩]⟩,
  ⟨"WEB_REC_CTL", 0x100A0, 0x0, 1, false, [⟨0, 2, .rw, 0x0, 0, 3⟩, ⟨8, 8, .rw, 0xA, 1, 255⟩, ⟨16, 4, .rw, 0x0, 0, 15⟩]⟩,
  ⟨"WEB_OPEN", 0x100A4, 0x0, 1, false, [⟨0, 15, .ro, 0x0, 0, 32767⟩, ⟨16, 15, .ro, 0x0, 0, 32767⟩]⟩,
  ⟨"WEB_LINES", 0x100A8, 0x0, 1, true, [⟨0, 64, .ro, 0x0, 0, 18446744073709551615⟩]⟩,
  ⟨"WEB_DISC_REV", 0x100B0, 0x0, 1, false, [⟨0, 32, .ro, 0x0, 0, 4294967295⟩]⟩,
  ⟨"WEB_DISC_EMIT", 0x100B4, 0x0, 1, false, [⟨0, 32, .ro, 0x0, 0, 4294967295⟩]⟩,
  ⟨"WEB_TRUNC", 0x100B8, 0x0, 1, false, [⟨0, 32, .ro, 0x0, 0, 4294967295⟩]⟩,
  ⟨"WEB_GAP", 0x100BC, 0x0, 1, false, [⟨0, 32, .ro, 0x0, 0, 4294967295⟩]⟩,
  ⟨"WEB_REC_DROP", 0x100C0, 0x0, 1, false, [⟨0, 32, .ro, 0x0, 0, 4294967295⟩]⟩]

/-- Registers of block 0x10000. -/
def regsWeb : List RegRow := regsWeb0 ++ regsWeb1 ++ regsWeb2

/-- Registers of block 0x14000, part 0. -/
def regsStat0 : List RegRow := [
  ⟨"STAT_CTL", 0x14000, 0x0, 1, false, [⟨0, 1, .rw, 0x1, 0, 1⟩, ⟨1, 1, .rw, 0x1, 0, 1⟩, ⟨2, 1, .rw, 0x0, 0, 1⟩, ⟨3, 1, .rw, 0x0, 0, 1⟩, ⟨4, 1, .rw, 0x1, 0, 1⟩, ⟨5, 1, .rw, 0x0, 0, 1⟩, ⟨8, 8, .rw, 0x0, 0, 255⟩]⟩,
  ⟨"STAT_SNAP_CTL", 0x14004, 0x0, 1, false, [⟨0, 1, .wo, 0x0, 0, 1⟩, ⟨1, 1, .rw, 0x0, 0, 1⟩, ⟨2, 1, .rw, 0x0, 0, 1⟩]⟩,
  ⟨"STAT_SNAP_STAT", 0x14008, 0x0, 1, false, [⟨0, 16, .ro, 0x0, 0, 65535⟩, ⟨16, 1, .ro, 0x0, 0, 1⟩, ⟨17, 1, .ro, 0x0, 0, 1⟩, ⟨18, 1, .ro, 0x0, 0, 1⟩]⟩,
  ⟨"STAT_SNAP_GENLO", 0x1400C, 0x0, 1, false, [⟨0, 32, .ro, 0x0, 0, 4294967295⟩]⟩,
  ⟨"STAT_SNAP_GENHI", 0x14010, 0x0, 1, false, [⟨0, 32, .ro, 0x0, 0, 4294967295⟩]⟩,
  ⟨"STAT_SNAP_LINES", 0x14014, 0x0, 1, false, [⟨0, 32, .ro, 0x0, 0, 4294967295⟩]⟩,
  ⟨"STAT_SNAP_WEB", 0x14018, 0x0, 1, true, [⟨0, 64, .ro, 0x0, 0, 18446744073709551615⟩]⟩,
  ⟨"STAT_SNAP_HUNDER", 0x14020, 0x0, 1, false, [⟨0, 32, .ro, 0x0, 0, 4294967295⟩]⟩,
  ⟨"STAT_SNAP_HOVER", 0x14024, 0x0, 1, false, [⟨0, 32, .ro, 0x0, 0, 4294967295⟩]⟩,
  ⟨"STAT_SNAP_HNOVAL", 0x14028, 0x0, 1, false, [⟨0, 32, .ro, 0x0, 0, 4294967295⟩]⟩,
  ⟨"STAT_SNAP_HGEN", 0x1402C, 0x0, 1, false, [⟨0, 32, .ro, 0x0, 0, 4294967295⟩]⟩,
  ⟨"STAT_HIST_CFG", 0x14040, 0x0, 1, false, [⟨0, 16, .rw, 0x3390, 0, 65535⟩, ⟨16, 8, .rw, 0x19, 1, 255⟩]⟩]

/-- Registers of block 0x14000, part 1. -/
def regsStat1 : List RegRow := [
  ⟨"STAT_FLK_CTL", 0x14060, 0x0, 1, false, [⟨0, 16, .rw, 0x0, 0, 65535⟩]⟩,
  ⟨"STAT_FLK_RGN_COL", 0x14080, 0x8, 16, false, [⟨0, 12, .rw, 0x0, 0, 4095⟩, ⟨16, 12, .rw, 0x0, 0, 4095⟩]⟩,
  ⟨"STAT_FLK_RGN_ROW", 0x14084, 0x8, 16, false, [⟨0, 12, .rw, 0x0, 0, 4095⟩, ⟨16, 12, .rw, 0x0, 0, 4095⟩]⟩,
  ⟨"STAT_FLK_RES_A", 0x14100, 0x8, 16, false, [⟨0, 7, .ro, 0x0, 0, 127⟩, ⟨8, 4, .ro, 0x0, 0, 15⟩, ⟨12, 1, .ro, 0x0, 0, 1⟩, ⟨16, 16, .ro, 0x0, 0, 65535⟩]⟩,
  ⟨"STAT_FLK_RES_B", 0x14104, 0x8, 16, false, [⟨0, 32, .ro, 0x0, 0, 4294967295⟩]⟩,
  ⟨"STAT_AL_OUT", 0x14200, 0x4, 4, false, [⟨0, 1, .rw, 0x0, 0, 1⟩, ⟨1, 1, .rw, 0x0, 0, 1⟩, ⟨2, 1, .rw, 0x0, 0, 1⟩, ⟨16, 16, .rw, 0x3E8, 1, 65535⟩]⟩,
  ⟨"STAT_AL_DELAY", 0x14240, 0x4, 16, false, [⟨0, 32, .rw, 0x0, 0, 4294967295⟩]⟩,
  ⟨"STAT_AL_STAT", 0x14280, 0x0, 1, false, [⟨0, 4, .ro, 0x0, 0, 15⟩, ⟨16, 9, .ro, 0x0, 0, 511⟩]⟩,
  ⟨"STAT_AL_FIRE", 0x14290, 0x4, 4, false, [⟨0, 32, .ro, 0x0, 0, 4294967295⟩]⟩,
  ⟨"STAT_AL_TARDY", 0x142A0, 0x0, 1, false, [⟨0, 32, .ro, 0x0, 0, 4294967295⟩]⟩,
  ⟨"STAT_AL_MERGED", 0x142A4, 0x0, 1, false, [⟨0, 32, .ro, 0x0, 0, 4294967295⟩]⟩,
  ⟨"STAT_AL_CLR", 0x142B0, 0x0, 1, false, [⟨0, 1, .wo, 0x0, 0, 1⟩, ⟨1, 1, .wo, 0x0, 0, 1⟩]⟩]

/-- Registers of block 0x14000, part 2. -/
def regsStat2 : List RegRow := [
  ⟨"STAT_SNAP_LANE", 0x14400, 0x4, 256, false, [⟨0, 32, .ro, 0x0, 0, 4294967295⟩]⟩,
  ⟨"STAT_SNAP_HIST", 0x14800, 0x4, 256, false, [⟨0, 32, .ro, 0x0, 0, 4294967295⟩]⟩]

/-- Registers of block 0x14000. -/
def regsStat : List RegRow := regsStat0 ++ regsStat1 ++ regsStat2

/-- Registers of block 0x18000, part 0. -/
def regsLink0 : List RegRow := [
  ⟨"LINK_HP_CTL", 0x18000, 0x0, 1, false, [⟨0, 2, .rw, 0x0, 0, 2⟩, ⟨2, 1, .rw, 0x0, 0, 1⟩, ⟨3, 1, .wo, 0x0, 0, 1⟩]⟩,
  ⟨"LINK_HP_STAT", 0x18004, 0x0, 1, false, [⟨0, 2, .ro, 0x0, 0, 3⟩, ⟨2, 1, .ro, 0x0, 0, 1⟩, ⟨3, 1, .ro, 0x0, 0, 1⟩, ⟨4, 1, .ro, 0x0, 0, 1⟩]⟩,
  ⟨"LINK_ROUTE", 0x18008, 0x0, 1, true, [⟨0, 64, .ro, 0x0, 0, 18446744073709551615⟩]⟩,
  ⟨"LINK_REACH", 0x18010, 0x0, 1, false, [⟨0, 32, .ro, 0x0, 0, 4294967295⟩]⟩,
  ⟨"LINK_ROUTE_VER", 0x18014, 0x0, 1, false, [⟨0, 16, .ro, 0x0, 0, 65535⟩, ⟨16, 6, .ro, 0x0, 0, 63⟩]⟩,
  ⟨"LINK_REROUTES", 0x18018, 0x0, 1, false, [⟨0, 32, .ro, 0x0, 0, 4294967295⟩]⟩,
  ⟨"LINK_CNT_CLR", 0x1801C, 0x0, 1, false, [⟨0, 1, .wo, 0x0, 0, 1⟩]⟩,
  ⟨"LINK_P_CTL", 0x18100, 0x40, 3, false, [⟨0, 1, .rw, 0x1, 0, 1⟩, ⟨1, 3, .rw, 0x1, 1, 4⟩, ⟨4, 4, .rw, 0xF, 0, 15⟩, ⟨8, 1, .wo, 0x0, 0, 1⟩]⟩,
  ⟨"LINK_P_STAT", 0x18104, 0x40, 3, false, [⟨0, 3, .ro, 0x0, 0, 7⟩, ⟨3, 1, .ro, 0x0, 0, 1⟩, ⟨4, 4, .ro, 0x0, 0, 15⟩, ⟨8, 4, .ro, 0x0, 0, 15⟩, ⟨12, 1, .ro, 0x0, 0, 1⟩, ⟨13, 1, .ro, 0x0, 0, 1⟩]⟩,
  ⟨"LINK_P_NBR", 0x18108, 0x40, 3, true, [⟨0, 64, .ro, 0x0, 0, 18446744073709551615⟩]⟩,
  ⟨"LINK_P_NBR_INFO", 0x18110, 0x40, 3, false, [⟨0, 6, .ro, 0x3F, 0, 63⟩, ⟨6, 2, .ro, 0x0, 0, 3⟩, ⟨8, 8, .ro, 0x0, 0, 255⟩]⟩,
  ⟨"LINK_P_CORR", 0x18114, 0x40, 3, false, [⟨0, 32, .ro, 0x0, 0, 4294967295⟩]⟩]

/-- Registers of block 0x18000, part 1. -/
def regsLink1 : List RegRow := [
  ⟨"LINK_P_UNCORR", 0x18118, 0x40, 3, false, [⟨0, 32, .ro, 0x0, 0, 4294967295⟩]⟩,
  ⟨"LINK_P_STALE", 0x1811C, 0x40, 3, false, [⟨0, 32, .ro, 0x0, 0, 4294967295⟩]⟩,
  ⟨"LINK_P_SEQGAP", 0x18120, 0x40, 3, false, [⟨0, 32, .ro, 0x0, 0, 4294967295⟩]⟩,
  ⟨"LINK_P_DROP", 0x18124, 0x40, 3, false, [⟨0, 32, .ro, 0x0, 0, 4294967295⟩]⟩,
  ⟨"LINK_P_DELAY", 0x18128, 0x40, 3, false, [⟨0, 32, .ro, 0x0, 0, 4294967295⟩]⟩,
  ⟨"LINK_P_ASYM", 0x1812C, 0x40, 3, false, [⟨0, 32, .rw, 0x0, 0, 4294967295⟩]⟩,
  ⟨"LINK_P_LANE0", 0x18130, 0x40, 3, false, [⟨0, 16, .ro, 0x0, 0, 65535⟩, ⟨16, 16, .ro, 0x0, 0, 65535⟩]⟩,
  ⟨"LINK_P_LANE1", 0x18134, 0x40, 3, false, [⟨0, 16, .ro, 0x0, 0, 65535⟩, ⟨16, 16, .ro, 0x0, 0, 65535⟩]⟩,
  ⟨"LINK_P_LANE2", 0x18138, 0x40, 3, false, [⟨0, 16, .ro, 0x0, 0, 65535⟩, ⟨16, 16, .ro, 0x0, 0, 65535⟩]⟩,
  ⟨"LINK_P_LANE3", 0x1813C, 0x40, 3, false, [⟨0, 16, .ro, 0x0, 0, 65535⟩, ⟨16, 16, .ro, 0x0, 0, 65535⟩]⟩,
  ⟨"LINK_TS_CTL", 0x18200, 0x0, 1, false, [⟨0, 2, .rw, 0x0, 0, 3⟩, ⟨8, 8, .rw, 0xA, 1, 255⟩]⟩,
  ⟨"LINK_TS_STAT", 0x18204, 0x0, 1, false, [⟨0, 1, .ro, 0x0, 0, 1⟩, ⟨1, 1, .ro, 0x0, 0, 1⟩, ⟨2, 1, .w1c, 0x0, 0, 1⟩, ⟨3, 1, .ro, 0x0, 0, 1⟩, ⟨4, 2, .ro, 0x0, 0, 3⟩, ⟨6, 6, .ro, 0x0, 0, 63⟩]⟩]

/-- Registers of block 0x18000, part 2. -/
def regsLink2 : List RegRow := [
  ⟨"LINK_TS_OFFSET", 0x18208, 0x0, 1, false, [⟨0, 32, .ro, 0x0, 0, 4294967295⟩]⟩,
  ⟨"LINK_TS_RATE", 0x1820C, 0x0, 1, false, [⟨0, 32, .ro, 0x0, 0, 4294967295⟩]⟩,
  ⟨"LINK_TS_STEPS", 0x18210, 0x0, 1, false, [⟨0, 32, .ro, 0x0, 0, 4294967295⟩]⟩,
  ⟨"LINK_ENC_CTL", 0x18240, 0x0, 1, false, [⟨0, 1, .rw, 0x0, 0, 1⟩, ⟨8, 8, .rw, 0x14, 1, 255⟩]⟩,
  ⟨"LINK_ENC_STAT", 0x18244, 0x0, 1, false, [⟨0, 6, .ro, 0x3F, 0, 63⟩, ⟨6, 1, .ro, 0x0, 0, 1⟩, ⟨7, 1, .ro, 0x0, 0, 1⟩, ⟨8, 1, .ro, 0x0, 0, 1⟩]⟩,
  ⟨"LINK_ENC_AGE", 0x18248, 0x0, 1, false, [⟨0, 32, .ro, 0x0, 0, 4294967295⟩]⟩,
  ⟨"LINK_ENC_EXTRAP", 0x1824C, 0x0, 1, false, [⟨0, 32, .ro, 0x0, 0, 4294967295⟩]⟩,
  ⟨"LINK_ENC_GAP", 0x18250, 0x0, 1, false, [⟨0, 32, .ro, 0x0, 0, 4294967295⟩]⟩]

/-- Registers of block 0x18000. -/
def regsLink : List RegRow := regsLink0 ++ regsLink1 ++ regsLink2

/-- Registers of block 0x1C000, part 0. -/
def regsStand0 : List RegRow := [
  ⟨"STAND_CTL", 0x1C000, 0x0, 1, false, [⟨0, 1, .rw, 0x1, 0, 1⟩, ⟨1, 1, .rw, 0x0, 0, 1⟩, ⟨2, 1, .rw, 0x1, 0, 1⟩, ⟨3, 1, .rw, 0x1, 0, 1⟩]⟩,
  ⟨"STAND_STAT", 0x1C004, 0x0, 1, false, [⟨0, 3, .ro, 0x0, 0, 7⟩, ⟨3, 6, .ro, 0x3F, 0, 63⟩, ⟨9, 2, .ro, 0x0, 0, 3⟩, ⟨11, 1, .ro, 0x0, 0, 1⟩, ⟨12, 1, .ro, 0x0, 0, 1⟩, ⟨13, 1, .ro, 0x0, 0, 1⟩, ⟨14, 2, .ro, 0x0, 0, 3⟩, ⟨16, 1, .ro, 0x0, 0, 1⟩]⟩,
  ⟨"STAND_EPOCH", 0x1C008, 0x0, 1, false, [⟨0, 32, .ro, 0x0, 0, 4294967295⟩]⟩,
  ⟨"STAND_MAP_VER", 0x1C00C, 0x0, 1, false, [⟨0, 16, .ro, 0x0, 0, 65535⟩]⟩,
  ⟨"STAND_SELF_ID", 0x1C010, 0x0, 1, true, [⟨0, 64, .ro, 0x0, 0, 18446744073709551615⟩]⟩,
  ⟨"STAND_SID", 0x1C018, 0x0, 1, true, [⟨0, 64, .ro, 0x0, 0, 18446744073709551615⟩]⟩,
  ⟨"STAND_TIMING", 0x1C020, 0x0, 1, false, [⟨0, 8, .rw, 0x5, 2, 15⟩, ⟨8, 8, .rw, 0x19, 20, 60⟩, ⟨16, 8, .rw, 0xA, 1, 100⟩, ⟨24, 8, .rw, 0x32, 1, 255⟩]⟩,
  ⟨"STAND_HOLD", 0x1C024, 0x0, 1, false, [⟨0, 16, .rw, 0x3E8, 0, 65535⟩]⟩,
  ⟨"STAND_ROLES", 0x1C028, 0x0, 1, false, [⟨0, 6, .ro, 0x3F, 0, 63⟩, ⟨8, 6, .ro, 0x3F, 0, 63⟩, ⟨16, 6, .ro, 0x3F, 0, 63⟩]⟩,
  ⟨"STAND_ASSIGNED", 0x1C02C, 0x0, 1, false, [⟨0, 32, .ro, 0x0, 0, 4294967295⟩]⟩,
  ⟨"STAND_ALIVE", 0x1C030, 0x0, 1, false, [⟨0, 32, .ro, 0x0, 0, 4294967295⟩]⟩,
  ⟨"STAND_VACATED", 0x1C034, 0x0, 1, false, [⟨0, 32, .ro, 0x0, 0, 4294967295⟩]⟩]

/-- Registers of block 0x1C000, part 1. -/
def regsStand1 : List RegRow := [
  ⟨"STAND_DEGRADED", 0x1C038, 0x0, 1, false, [⟨0, 32, .ro, 0x0, 0, 4294967295⟩]⟩,
  ⟨"STAND_DEATHS", 0x1C040, 0x0, 1, false, [⟨0, 32, .ro, 0x0, 0, 4294967295⟩]⟩,
  ⟨"STAND_REVENANT", 0x1C044, 0x0, 1, false, [⟨0, 32, .ro, 0x0, 0, 4294967295⟩]⟩,
  ⟨"STAND_TAKEOVERS", 0x1C048, 0x0, 1, false, [⟨0, 32, .ro, 0x0, 0, 4294967295⟩]⟩,
  ⟨"STAND_EPOCH_CHG", 0x1C04C, 0x0, 1, false, [⟨0, 32, .ro, 0x0, 0, 4294967295⟩]⟩,
  ⟨"STAND_GRP_STAT", 0x1C050, 0x0, 1, false, [⟨0, 16, .ro, 0x0, 0, 65535⟩, ⟨16, 3, .ro, 0x0, 0, 7⟩, ⟨20, 2, .ro, 0x0, 0, 3⟩]⟩,
  ⟨"STAND_GRP_OK", 0x1C054, 0x0, 1, false, [⟨0, 32, .ro, 0x0, 0, 4294967295⟩]⟩,
  ⟨"STAND_GRP_FAIL", 0x1C058, 0x0, 1, false, [⟨0, 32, .ro, 0x0, 0, 4294967295⟩]⟩,
  ⟨"STAND_MERGE_CTL", 0x1C060, 0x0, 1, false, [⟨0, 8, .rw, 0x14, 1, 255⟩]⟩,
  ⟨"STAND_MERGE_STAT", 0x1C064, 0x0, 1, false, [⟨0, 16, .ro, 0x0, 0, 65535⟩, ⟨16, 16, .ro, 0x0, 0, 65535⟩]⟩,
  ⟨"STAND_MERGE_LATE", 0x1C068, 0x0, 1, false, [⟨0, 32, .ro, 0x0, 0, 4294967295⟩]⟩,
  ⟨"STAND_MERGE_OVF", 0x1C06C, 0x0, 1, false, [⟨0, 32, .ro, 0x0, 0, 4294967295⟩]⟩]

/-- Registers of block 0x1C000, part 2. -/
def regsStand2 : List RegRow := [
  ⟨"STAND_MERGE_DUP", 0x1C070, 0x0, 1, false, [⟨0, 32, .ro, 0x0, 0, 4294967295⟩]⟩,
  ⟨"STAND_MERGE_INCOMP", 0x1C074, 0x0, 1, false, [⟨0, 32, .ro, 0x0, 0, 4294967295⟩]⟩,
  ⟨"STAND_SEAM_CTL", 0x1C080, 0x0, 1, false, [⟨0, 1, .rw, 0x1, 0, 1⟩, ⟨8, 8, .rw, 0x10, 0, 255⟩, ⟨16, 16, .rw, 0x400, 1, 65535⟩]⟩,
  ⟨"STAND_SEAM_TREF", 0x1C084, 0x0, 1, false, [⟨0, 16, .rw, 0x3A3C, 0, 65535⟩]⟩,
  ⟨"STAND_SEAM_MINSPAN", 0x1C088, 0x0, 1, false, [⟨0, 16, .rw, 0x32, 0, 65535⟩]⟩,
  ⟨"STAND_SEAM_AT_LIMIT", 0x1C08C, 0x0, 1, false, [⟨0, 32, .ro, 0x0, 0, 4294967295⟩]⟩,
  ⟨"STAND_CNT_CLR", 0x1C0F0, 0x0, 1, false, [⟨0, 1, .wo, 0x0, 0, 1⟩, ⟨1, 1, .wo, 0x0, 0, 1⟩]⟩,
  ⟨"STAND_TRIM", 0x1C100, 0x4, 32, false, [⟨0, 16, .ro, 0x0, 0, 65535⟩, ⟨16, 16, .ro, 0x0, 0, 65535⟩]⟩,
  ⟨"STAND_SEAM", 0x1C180, 0x4, 32, false, [⟨0, 16, .ro, 0x0, 0, 65535⟩, ⟨16, 16, .ro, 0x0, 0, 65535⟩]⟩]

/-- Registers of block 0x1C000. -/
def regsStand : List RegRow := regsStand0 ++ regsStand1 ++ regsStand2

/-- Registers of block 0x20000, part 0. -/
def regsHost0 : List RegRow := [
  ⟨"HOST_CTL", 0x20000, 0x0, 1, false, [⟨0, 1, .rw, 0x0, 0, 1⟩, ⟨1, 3, .rw, 0x3, 0, 7⟩, ⟨8, 8, .rw, 0x2, 0, 255⟩, ⟨16, 5, .rw, 0x1F, 0, 31⟩, ⟨24, 2, .rw, 0x0, 0, 2⟩]⟩,
  ⟨"HOST_STAT", 0x20004, 0x0, 1, false, [⟨0, 1, .ro, 0x0, 0, 1⟩, ⟨1, 3, .ro, 0x0, 0, 7⟩, ⟨4, 3, .ro, 0x0, 0, 7⟩, ⟨7, 1, .ro, 0x0, 0, 1⟩, ⟨8, 1, .ro, 0x0, 0, 1⟩, ⟨9, 1, .ro, 0x0, 0, 1⟩, ⟨10, 1, .ro, 0x0, 0, 1⟩, ⟨11, 1, .ro, 0x0, 0, 1⟩, ⟨12, 1, .ro, 0x0, 0, 1⟩]⟩,
  ⟨"HOST_IDX_BASE", 0x20008, 0x0, 1, true, [⟨8, 56, .rw, 0x0, 0, 72057594037927935⟩]⟩,
  ⟨"HOST_STRIP_MAP", 0x20010, 0x0, 1, true, [⟨0, 64, .rw, 0x2222222222222222, 0, 18446744073709551615⟩]⟩,
  ⟨"HOST_ERR_STAT", 0x20018, 0x0, 1, false, [⟨0, 1, .w1c, 0x0, 0, 1⟩, ⟨1, 1, .w1c, 0x0, 0, 1⟩, ⟨2, 1, .w1c, 0x0, 0, 1⟩, ⟨3, 1, .w1c, 0x0, 0, 1⟩, ⟨4, 1, .w1c, 0x0, 0, 1⟩, ⟨5, 1, .w1c, 0x0, 0, 1⟩, ⟨6, 1, .w1c, 0x0, 0, 1⟩, ⟨7, 1, .w1c, 0x0, 0, 1⟩, ⟨8, 1, .w1c, 0x0, 0, 1⟩]⟩,
  ⟨"HOST_LINK_DOWNS", 0x20020, 0x0, 1, false, [⟨0, 32, .ro, 0x0, 0, 4294967295⟩]⟩,
  ⟨"HOST_RETRAINS", 0x20024, 0x0, 1, false, [⟨0, 32, .ro, 0x0, 0, 4294967295⟩]⟩,
  ⟨"HOST_UNEXP_CPL", 0x20028, 0x0, 1, false, [⟨0, 32, .ro, 0x0, 0, 4294967295⟩]⟩,
  ⟨"HOST_DB_IGNORED", 0x2002C, 0x0, 1, false, [⟨0, 32, .ro, 0x0, 0, 4294967295⟩]⟩,
  ⟨"HOST_CNT_CLR", 0x2003C, 0x0, 1, false, [⟨0, 1, .wo, 0x0, 0, 1⟩]⟩,
  ⟨"HOST_PTM_CTL", 0x20040, 0x0, 1, false, [⟨0, 1, .rw, 0x0, 0, 1⟩, ⟨8, 8, .rw, 0xA, 1, 255⟩]⟩,
  ⟨"HOST_PTM_STAT", 0x20044, 0x0, 1, false, [⟨0, 1, .ro, 0x0, 0, 1⟩, ⟨1, 1, .ro, 0x0, 0, 1⟩, ⟨2, 1, .ro, 0x0, 0, 1⟩, ⟨16, 16, .ro, 0x0, 0, 65535⟩]⟩]

/-- Registers of block 0x20000, part 1. -/
def regsHost1 : List RegRow := [
  ⟨"HOST_PTM_OFS", 0x20048, 0x0, 1, false, [⟨0, 32, .ro, 0x0, 0, 4294967295⟩]⟩,
  ⟨"HOST_PTM_T", 0x20050, 0x0, 1, true, [⟨0, 64, .ro, 0x0, 0, 18446744073709551615⟩]⟩,
  ⟨"HOST_PTM_M", 0x20058, 0x0, 1, true, [⟨0, 64, .ro, 0x0, 0, 18446744073709551615⟩]⟩,
  ⟨"HOST_PTM_K", 0x20060, 0x0, 1, true, [⟨0, 64, .ro, 0x0, 0, 18446744073709551615⟩]⟩,
  ⟨"HOST_VEC_MOD", 0x20100, 0x4, 32, false, [⟨0, 10, .rw, 0x0, 0, 1023⟩]⟩,
  ⟨"HOST_DMA_CTL", 0x20200, 0x20, 8, false, [⟨0, 1, .wo, 0x0, 0, 1⟩]⟩,
  ⟨"HOST_DMA_STAT", 0x20204, 0x20, 8, false, [⟨0, 2, .ro, 0x0, 0, 3⟩, ⟨4, 4, .ro, 0x0, 0, 15⟩, ⟨8, 4, .ro, 0x0, 0, 15⟩]⟩,
  ⟨"HOST_DMA_RETRIES", 0x20208, 0x20, 8, false, [⟨0, 32, .ro, 0x0, 0, 4294967295⟩]⟩,
  ⟨"HOST_DMA_FAIL_ADDR", 0x2020C, 0x20, 8, true, [⟨0, 64, .ro, 0x0, 0, 18446744073709551615⟩]⟩,
  ⟨"HOST_RING_BASE", 0x20400, 0x40, 16, true, [⟨12, 52, .rw, 0x0, 0, 4503599627370495⟩]⟩,
  ⟨"HOST_RING_SIZE", 0x20408, 0x40, 16, false, [⟨0, 5, .rw, 0x8, 4, 16⟩]⟩,
  ⟨"HOST_RING_CTL", 0x2040C, 0x40, 16, false, [⟨0, 1, .rw, 0x0, 0, 1⟩, ⟨1, 1, .wo, 0x0, 0, 1⟩, ⟨2, 1, .rw, 0x0, 0, 1⟩, ⟨3, 5, .rw, 0x0, 0, 31⟩, ⟨8, 3, .rw, 0x0, 1, 7⟩, ⟨11, 4, .rw, 0x0, 0, 15⟩, ⟨16, 8, .rw, 0x0, 0, 255⟩]⟩]

/-- Registers of block 0x20000, part 2. -/
def regsHost2 : List RegRow := [
  ⟨"HOST_RING_STAT", 0x20410, 0x40, 16, false, [⟨0, 2, .ro, 0x0, 0, 3⟩, ⟨2, 4, .ro, 0x0, 0, 15⟩, ⟨8, 8, .ro, 0x0, 0, 255⟩]⟩,
  ⟨"HOST_RING_HIDX", 0x20414, 0x40, 16, false, [⟨0, 32, .ro, 0x0, 0, 4294967295⟩]⟩,
  ⟨"HOST_RING_MIDX", 0x20418, 0x40, 16, false, [⟨0, 32, .ro, 0x0, 0, 4294967295⟩]⟩,
  ⟨"HOST_RING_DROP", 0x2041C, 0x40, 16, false, [⟨0, 32, .ro, 0x0, 0, 4294967295⟩]⟩]

/-- Registers of block 0x20000. -/
def regsHost : List RegRow := regsHost0 ++ regsHost1 ++ regsHost2

/-- Registers of block 0x24000, part 0. -/
def regsSec0 : List RegRow := [
  ⟨"SEC_STAT", 0x24000, 0x0, 1, false, [⟨0, 1, .ro, 0x0, 0, 1⟩, ⟨1, 1, .ro, 0x0, 0, 1⟩, ⟨2, 6, .ro, 0x0, 0, 63⟩]⟩,
  ⟨"SEC_POLICY", 0x24004, 0x0, 1, false, [⟨0, 1, .rwl, 0x1, 0, 1⟩]⟩,
  ⟨"SEC_KEY", 0x24010, 0x4, 8, false, [⟨0, 1, .ro, 0x0, 0, 1⟩, ⟨1, 3, .ro, 0x0, 0, 7⟩]⟩,
  ⟨"SEC_CTR", 0x24040, 0x8, 8, true, [⟨0, 64, .ro, 0x0, 0, 18446744073709551615⟩]⟩,
  ⟨"SEC_AUTH_FAIL", 0x24080, 0x0, 1, false, [⟨0, 32, .ro, 0x0, 0, 4294967295⟩]⟩,
  ⟨"SEC_REPLAY", 0x24084, 0x0, 1, false, [⟨0, 32, .ro, 0x0, 0, 4294967295⟩]⟩,
  ⟨"SEC_ROLE_FAIL", 0x24088, 0x0, 1, false, [⟨0, 32, .ro, 0x0, 0, 4294967295⟩]⟩,
  ⟨"SEC_RELAYED", 0x2408C, 0x0, 1, false, [⟨0, 32, .ro, 0x0, 0, 4294967295⟩]⟩,
  ⟨"SEC_CNT_CLR", 0x24090, 0x0, 1, false, [⟨0, 1, .wo, 0x0, 0, 1⟩]⟩,
  ⟨"SEC_FW_STAT", 0x240A0, 0x0, 1, false, [⟨0, 1, .ro, 0x0, 0, 1⟩, ⟨1, 1, .ro, 0x0, 0, 1⟩, ⟨2, 1, .ro, 0x0, 0, 1⟩, ⟨3, 2, .ro, 0x0, 0, 3⟩, ⟨5, 2, .ro, 0x0, 0, 3⟩, ⟨7, 1, .ro, 0x0, 0, 1⟩, ⟨8, 1, .w1c, 0x0, 0, 1⟩]⟩,
  ⟨"SEC_FW_VER", 0x240A4, 0x4, 2, false, [⟨0, 32, .ro, 0x0, 0, 4294967295⟩]⟩,
  ⟨"SEC_FW_SVN_MIN", 0x240AC, 0x0, 1, false, [⟨0, 32, .ro, 0x0, 0, 4294967295⟩]⟩]

/-- Registers of block 0x24000, part 1. -/
def regsSec1 : List RegRow := [
  ⟨"SEC_FW_SWITCH_T", 0x240B0, 0x0, 1, true, [⟨0, 64, .ro, 0x0, 0, 18446744073709551615⟩]⟩,
  ⟨"SEC_MBX_CTL", 0x240C0, 0x0, 1, false, [⟨0, 1, .wo, 0x0, 0, 1⟩, ⟨1, 1, .wo, 0x0, 0, 1⟩]⟩,
  ⟨"SEC_MBX_STAT", 0x240C4, 0x0, 1, false, [⟨0, 1, .ro, 0x0, 0, 1⟩, ⟨1, 1, .ro, 0x0, 0, 1⟩, ⟨2, 1, .w1c, 0x0, 0, 1⟩, ⟨3, 1, .ro, 0x0, 0, 1⟩]⟩,
  ⟨"SEC_MBX_ENTRY", 0x24100, 0x4, 16, false, [⟨0, 32, .rw, 0x0, 0, 4294967295⟩]⟩,
  ⟨"SEC_MBX_CPL", 0x24140, 0x4, 4, false, [⟨0, 32, .ro, 0x0, 0, 4294967295⟩]⟩,
  ⟨"SEC_MBX_DATA", 0x25000, 0x4, 1024, false, [⟨0, 32, .rw, 0x0, 0, 4294967295⟩]⟩]

/-- Registers of block 0x24000. -/
def regsSec : List RegRow := regsSec0 ++ regsSec1

/-- Registers of block 0x28000, part 0. -/
def regsMem0 : List RegRow := [
  ⟨"MEM_CTL", 0x28000, 0x0, 1, false, [⟨0, 1, .rw, 0x1, 0, 1⟩, ⟨1, 3, .rw, 0x2, 0, 4⟩]⟩,
  ⟨"MEM_STAT", 0x28004, 0x0, 1, false, [⟨0, 4, .ro, 0x0, 0, 15⟩, ⟨4, 4, .ro, 0x0, 0, 15⟩, ⟨8, 1, .ro, 0x0, 0, 1⟩]⟩,
  ⟨"MEM_SCRUB_STAT", 0x28008, 0x0, 1, false, [⟨0, 16, .ro, 0x0, 0, 65535⟩, ⟨16, 16, .ro, 0x0, 0, 65535⟩]⟩,
  ⟨"MEM_UNC_ADDR", 0x2800C, 0x0, 1, false, [⟨0, 32, .ro, 0x0, 0, 4294967295⟩]⟩,
  ⟨"MEM_TW_SEL", 0x28010, 0x0, 1, false, [⟨0, 8, .rw, 0x0, 0, 255⟩, ⟨8, 6, .rw, 0x0, 0, 63⟩]⟩,
  ⟨"MEM_TW_BASE", 0x28014, 0x0, 1, false, [⟨0, 16, .rw, 0x0, 0, 65535⟩]⟩,
  ⟨"MEM_TW_STAT", 0x28018, 0x0, 1, false, [⟨0, 1, .w1c, 0x0, 0, 1⟩, ⟨1, 1, .w1c, 0x0, 0, 1⟩, ⟨2, 1, .ro, 0x0, 0, 1⟩]⟩,
  ⟨"MEM_TW_SIZE", 0x2801C, 0x0, 1, false, [⟨0, 32, .ro, 0x0, 0, 4294967295⟩]⟩,
  ⟨"MEM_CNT_CLR", 0x28020, 0x0, 1, false, [⟨0, 1, .wo, 0x0, 0, 1⟩]⟩,
  ⟨"MEM_PATH_CORR", 0x28024, 0x0, 1, false, [⟨0, 32, .ro, 0x0, 0, 4294967295⟩]⟩,
  ⟨"MEM_PATH_UNCORR", 0x28028, 0x0, 1, false, [⟨0, 32, .ro, 0x0, 0, 4294967295⟩]⟩,
  ⟨"MEM_QDR_ERASE", 0x28100, 0x80, 4, true, [⟨0, 36, .ro, 0x0, 0, 68719476735⟩]⟩]

/-- Registers of block 0x28000, part 1. -/
def regsMem1 : List RegRow := [
  ⟨"MEM_QDR_CORR", 0x28108, 0x80, 4, false, [⟨0, 32, .ro, 0x0, 0, 4294967295⟩]⟩,
  ⟨"MEM_QDR_UNCORR", 0x2810C, 0x80, 4, false, [⟨0, 32, .ro, 0x0, 0, 4294967295⟩]⟩,
  ⟨"MEM_QDR_WBSKIP", 0x28110, 0x80, 4, false, [⟨0, 32, .ro, 0x0, 0, 4294967295⟩]⟩,
  ⟨"MEM_QDR0_WIRE", 0x28120, 0x4, 18, false, [⟨0, 16, .ro, 0x0, 0, 65535⟩, ⟨16, 16, .ro, 0x0, 0, 65535⟩]⟩,
  ⟨"MEM_QDR1_WIRE", 0x281A0, 0x4, 18, false, [⟨0, 16, .ro, 0x0, 0, 65535⟩, ⟨16, 16, .ro, 0x0, 0, 65535⟩]⟩,
  ⟨"MEM_QDR2_WIRE", 0x28220, 0x4, 18, false, [⟨0, 16, .ro, 0x0, 0, 65535⟩, ⟨16, 16, .ro, 0x0, 0, 65535⟩]⟩,
  ⟨"MEM_QDR3_WIRE", 0x282A0, 0x4, 18, false, [⟨0, 16, .ro, 0x0, 0, 65535⟩, ⟨16, 16, .ro, 0x0, 0, 65535⟩]⟩]

/-- Registers of block 0x28000. -/
def regsMem : List RegRow := regsMem0 ++ regsMem1

/-- Registers of block 0x2C000, part 0. -/
def regsStore0 : List RegRow := [
  ⟨"STORE_FLASH_STAT", 0x2C000, 0x0, 1, false, [⟨0, 1, .ro, 0x0, 0, 1⟩, ⟨1, 1, .ro, 0x0, 0, 1⟩, ⟨2, 1, .w1c, 0x0, 0, 1⟩]⟩,
  ⟨"STORE_FLASH_CRCERR", 0x2C004, 0x0, 1, false, [⟨0, 32, .ro, 0x0, 0, 4294967295⟩]⟩,
  ⟨"STORE_FLASH_BADBLK", 0x2C008, 0x0, 1, false, [⟨0, 32, .ro, 0x0, 0, 4294967295⟩]⟩,
  ⟨"STORE_KEEP_STAT", 0x2C020, 0x0, 1, false, [⟨0, 1, .ro, 0x0, 0, 1⟩, ⟨1, 1, .ro, 0x0, 0, 1⟩, ⟨2, 1, .ro, 0x0, 0, 1⟩]⟩,
  ⟨"STORE_KEEP_CORR", 0x2C024, 0x0, 1, false, [⟨0, 32, .ro, 0x0, 0, 4294967295⟩]⟩,
  ⟨"STORE_KEEP_UNCORR", 0x2C028, 0x0, 1, false, [⟨0, 32, .ro, 0x0, 0, 4294967295⟩]⟩,
  ⟨"STORE_KEEP_TORN", 0x2C02C, 0x0, 1, false, [⟨0, 32, .ro, 0x0, 0, 4294967295⟩]⟩,
  ⟨"STORE_KEEP_TORN_ADDR", 0x2C030, 0x0, 1, false, [⟨0, 32, .ro, 0x0, 0, 4294967295⟩]⟩,
  ⟨"STORE_KEEP_SPARES", 0x2C034, 0x0, 1, false, [⟨0, 32, .ro, 0x0, 0, 4294967295⟩]⟩,
  ⟨"STORE_CTR_FAIL", 0x2C038, 0x0, 1, false, [⟨0, 32, .ro, 0x0, 0, 4294967295⟩]⟩,
  ⟨"STORE_PWR_CYCLES", 0x2C03C, 0x0, 1, false, [⟨0, 32, .ro, 0x0, 0, 4294967295⟩]⟩,
  ⟨"STORE_OPTIME", 0x2C040, 0x0, 1, true, [⟨0, 64, .ro, 0x0, 0, 18446744073709551615⟩]⟩]

/-- Registers of block 0x2C000, part 1. -/
def regsStore1 : List RegRow := [
  ⟨"STORE_CNT_CLR", 0x2C0F0, 0x0, 1, false, [⟨0, 1, .wo, 0x0, 0, 1⟩]⟩]

/-- Registers of block 0x2C000. -/
def regsStore : List RegRow := regsStore0 ++ regsStore1

/-- Registers of block 0x30000, part 0. -/
def regsHealth0 : List RegRow := [
  ⟨"HEALTH_CTL", 0x30000, 0x0, 1, false, [⟨0, 1, .rw, 0x1, 0, 1⟩, ⟨1, 1, .rw, 0x1, 0, 1⟩, ⟨8, 8, .rw, 0xA, 1, 255⟩]⟩,
  ⟨"HEALTH_STAT", 0x30004, 0x0, 1, false, [⟨0, 16, .ro, 0x0, 0, 65535⟩, ⟨16, 1, .ro, 0x0, 0, 1⟩, ⟨17, 1, .ro, 0x0, 0, 1⟩, ⟨18, 2, .ro, 0x0, 0, 3⟩]⟩,
  ⟨"HEALTH_EVT_SEQ", 0x30008, 0x0, 1, false, [⟨0, 32, .ro, 0x0, 0, 4294967295⟩]⟩,
  ⟨"HEALTH_EVT_LOST", 0x3000C, 0x0, 1, false, [⟨0, 32, .ro, 0x0, 0, 4294967295⟩]⟩,
  ⟨"HEALTH_FAULT_MASK", 0x30010, 0x0, 1, false, [⟨0, 16, .rw, 0xFFFF, 0, 65535⟩]⟩,
  ⟨"HEALTH_FAULT_SRC", 0x30014, 0x0, 1, false, [⟨0, 16, .w1c, 0x0, 0, 65535⟩]⟩,
  ⟨"HEALTH_VERDICT", 0x30018, 0x0, 1, false, [⟨0, 8, .rw, 0x8, 1, 255⟩, ⟨8, 16, .rw, 0x18, 1, 65535⟩]⟩,
  ⟨"HEALTH_TRIM_MAX", 0x3001C, 0x0, 1, false, [⟨0, 4, .rw, 0x4, 1, 15⟩]⟩,
  ⟨"HEALTH_POLICY", 0x30020, 0x0, 1, false, [⟨0, 3, .ro, 0x7, 0, 7⟩, ⟨4, 3, .ro, 0x7, 0, 7⟩, ⟨8, 3, .ro, 0x7, 0, 7⟩, ⟨12, 3, .ro, 0x6, 0, 7⟩, ⟨16, 3, .ro, 0x5, 0, 7⟩, ⟨20, 3, .ro, 0x7, 0, 7⟩, ⟨24, 3, .ro, 0x7, 0, 7⟩, ⟨28, 3, .ro, 0x7, 0, 7⟩]⟩,
  ⟨"HEALTH_TESTS", 0x30024, 0x0, 1, false, [⟨0, 32, .ro, 0x0, 0, 4294967295⟩]⟩,
  ⟨"HEALTH_TRANSIENT", 0x30028, 0x0, 1, false, [⟨0, 32, .ro, 0x0, 0, 4294967295⟩]⟩,
  ⟨"HEALTH_LASTING", 0x3002C, 0x0, 1, false, [⟨0, 32, .ro, 0x0, 0, 4294967295⟩]⟩]

/-- Registers of block 0x30000, part 1. -/
def regsHealth1 : List RegRow := [
  ⟨"HEALTH_REPAIRS", 0x30030, 0x0, 1, false, [⟨0, 32, .ro, 0x0, 0, 4294967295⟩]⟩,
  ⟨"HEALTH_TEST_DROP", 0x30034, 0x0, 1, false, [⟨0, 32, .ro, 0x0, 0, 4294967295⟩]⟩,
  ⟨"HEALTH_ST_RESULT", 0x30040, 0x0, 1, false, [⟨0, 16, .ro, 0x0, 0, 65535⟩, ⟨16, 16, .ro, 0x0, 0, 65535⟩]⟩,
  ⟨"HEALTH_ST_T", 0x30048, 0x0, 1, true, [⟨0, 64, .ro, 0x0, 0, 18446744073709551615⟩]⟩,
  ⟨"HEALTH_RC_CTL", 0x30080, 0x0, 1, false, [⟨0, 8, .rw, 0xA, 1, 255⟩]⟩,
  ⟨"HEALTH_RC", 0x30100, 0x4, 24, false, [⟨0, 32, .ro, 0x0, 0, 4294967295⟩]⟩,
  ⟨"HEALTH_MON_VAL", 0x30200, 0x8, 12, false, [⟨0, 32, .ro, 0x0, 0, 4294967295⟩]⟩,
  ⟨"HEALTH_MON_MGN", 0x30204, 0x8, 12, false, [⟨0, 14, .ro, 0x0, 0, 16383⟩]⟩,
  ⟨"HEALTH_MP_CTL", 0x30300, 0x0, 1, false, [⟨0, 5, .rw, 0x1F, 0, 31⟩, ⟨8, 1, .wo, 0x0, 0, 1⟩, ⟨16, 16, .rw, 0x1F4, 1, 65535⟩]⟩,
  ⟨"HEALTH_MP_STAT", 0x30304, 0x0, 1, false, [⟨0, 3, .ro, 0x0, 0, 7⟩, ⟨3, 5, .ro, 0x0, 0, 31⟩, ⟨8, 1, .ro, 0x0, 0, 1⟩, ⟨16, 16, .ro, 0x0, 0, 65535⟩]⟩,
  ⟨"HEALTH_MP_LAST", 0x30308, 0x0, 1, false, [⟨0, 32, .ro, 0x0, 0, 4294967295⟩]⟩,
  ⟨"HEALTH_MP_LIFE", 0x3030C, 0x0, 1, false, [⟨0, 32, .ro, 0xFFFFFFFF, 0, 4294967295⟩]⟩]

/-- Registers of block 0x30000, part 2. -/
def regsHealth2 : List RegRow := [
  ⟨"HEALTH_MP_LIMIT", 0x30310, 0x0, 1, false, [⟨0, 4, .ro, 0x0, 0, 15⟩]⟩,
  ⟨"HEALTH_MP_WARN", 0x30314, 0x0, 1, false, [⟨0, 32, .rw, 0x2238, 0, 4294967295⟩]⟩,
  ⟨"HEALTH_MP_VCORE", 0x30318, 0x0, 1, false, [⟨0, 4, .ro, 0x0, 0, 15⟩]⟩,
  ⟨"HEALTH_MP_TINT", 0x3031C, 0x0, 1, false, [⟨0, 13, .ro, 0x0, 0, 8191⟩]⟩,
  ⟨"HEALTH_MP_MARGIN", 0x30320, 0x4, 16, false, [⟨0, 14, .ro, 0x0, 0, 16383⟩]⟩,
  ⟨"HEALTH_STOP_MAX", 0x30380, 0x0, 1, false, [⟨0, 32, .ro, 0x0, 0, 4294967295⟩]⟩,
  ⟨"HEALTH_STOPS", 0x30384, 0x0, 1, false, [⟨0, 32, .ro, 0x0, 0, 4294967295⟩]⟩,
  ⟨"HEALTH_CNT_CLR", 0x303F0, 0x0, 1, false, [⟨0, 1, .wo, 0x0, 0, 1⟩]⟩]

/-- Registers of block 0x30000. -/
def regsHealth : List RegRow := regsHealth0 ++ regsHealth1 ++ regsHealth2

/-- Registers of block 0x34000, part 0. -/
def regsAux0 : List RegRow := [
  ⟨"AUX_CTL", 0x34000, 0x0, 1, false, [⟨0, 1, .rw, 0x1, 0, 1⟩]⟩,
  ⟨"AUX_STAT", 0x34004, 0x0, 1, false, [⟨0, 1, .ro, 0x0, 0, 1⟩, ⟨1, 1, .ro, 0x0, 0, 1⟩, ⟨2, 1, .ro, 0x0, 0, 1⟩, ⟨3, 1, .ro, 0x0, 0, 1⟩, ⟨4, 4, .ro, 0x0, 0, 15⟩, ⟨8, 3, .ro, 0x0, 0, 7⟩]⟩,
  ⟨"AUX_REF", 0x34008, 0x0, 1, false, [⟨0, 2, .rw, 0x2, 0, 2⟩]⟩,
  ⟨"AUX_SEQ_CTL", 0x3400C, 0x0, 1, false, [⟨0, 16, .rw, 0x3E8, 0, 65535⟩, ⟨16, 1, .wo, 0x0, 0, 1⟩]⟩,
  ⟨"AUX_SEQ_STAT", 0x34010, 0x0, 1, false, [⟨0, 4, .ro, 0x0, 0, 15⟩, ⟨4, 1, .w1c, 0x0, 0, 1⟩, ⟨16, 16, .ro, 0x3E8, 0, 65535⟩]⟩,
  ⟨"AUX_WIN_EN", 0x34014, 0x0, 1, false, [⟨0, 16, .rw, 0x50F, 0, 65535⟩]⟩,
  ⟨"AUX_WIN_STAT", 0x34018, 0x0, 1, false, [⟨0, 16, .w1c, 0x0, 0, 65535⟩]⟩,
  ⟨"AUX_OVERRUN", 0x3401C, 0x0, 1, false, [⟨0, 32, .ro, 0x0, 0, 4294967295⟩]⟩,
  ⟨"AUX_BLANK_MISS", 0x34020, 0x0, 1, false, [⟨0, 32, .ro, 0x0, 0, 4294967295⟩]⟩,
  ⟨"AUX_RING_CTL", 0x34024, 0x0, 1, false, [⟨0, 8, .rw, 0xA, 1, 255⟩]⟩,
  ⟨"AUX_CAL_VALID", 0x34028, 0x0, 1, true, [⟨0, 60, .ro, 0x0, 0, 1152921504606846975⟩]⟩,
  ⟨"AUX_CNT_CLR", 0x340F0, 0x0, 1, false, [⟨0, 1, .wo, 0x0, 0, 1⟩]⟩]

/-- Registers of block 0x34000, part 1. -/
def regsAux1 : List RegRow := [
  ⟨"AUX_ENT_CFG", 0x34100, 0x10, 16, false, [⟨0, 5, .rw, 0x0, 0, 31⟩, ⟨5, 3, .rw, 0x0, 0, 7⟩, ⟨8, 10, .rw, 0x0, 0, 1023⟩, ⟨18, 8, .rw, 0x0, 0, 255⟩, ⟨26, 2, .rw, 0x0, 0, 3⟩, ⟨28, 1, .rw, 0x0, 0, 1⟩, ⟨29, 1, .rw, 0x0, 0, 1⟩, ⟨30, 1, .rw, 0x0, 0, 1⟩, ⟨31, 1, .rw, 0x0, 0, 1⟩]⟩,
  ⟨"AUX_ENT_WIN", 0x34104, 0x10, 16, false, [⟨0, 16, .rw, 0x0, 0, 65535⟩, ⟨16, 16, .rw, 0x0, 0, 65535⟩]⟩,
  ⟨"AUX_ENT_RES", 0x34108, 0x10, 16, false, [⟨0, 16, .ro, 0x0, 0, 65535⟩, ⟨16, 1, .ro, 0x0, 0, 1⟩, ⟨17, 1, .ro, 0x0, 0, 1⟩, ⟨24, 8, .ro, 0x0, 0, 255⟩]⟩,
  ⟨"AUX_ENT_RES_T", 0x3410C, 0x10, 16, false, [⟨0, 32, .ro, 0x0, 0, 4294967295⟩]⟩]

/-- Registers of block 0x34000. -/
def regsAux : List RegRow := regsAux0 ++ regsAux1

/-- Registers of block 0x38000, part 0. -/
def regsIo0 : List RegRow := [
  ⟨"SPI_STAT", 0x38000, 0x0, 1, false, [⟨0, 1, .w1c, 0x0, 0, 1⟩, ⟨1, 1, .w1c, 0x0, 0, 1⟩, ⟨2, 1, .w1c, 0x0, 0, 1⟩, ⟨3, 1, .ro, 0x0, 0, 1⟩]⟩,
  ⟨"SPI_TXN", 0x38004, 0x0, 1, false, [⟨0, 32, .ro, 0x0, 0, 4294967295⟩]⟩,
  ⟨"SPI_FRAG", 0x38008, 0x0, 1, false, [⟨0, 32, .ro, 0x0, 0, 4294967295⟩]⟩,
  ⟨"SPI_BADHDR", 0x3800C, 0x0, 1, false, [⟨0, 32, .ro, 0x0, 0, 4294967295⟩]⟩,
  ⟨"IO_PIN_CFG", 0x38040, 0x0, 1, false, [⟨0, 1, .rw, 0x1, 0, 1⟩, ⟨1, 1, .rw, 0x1, 0, 1⟩, ⟨2, 4, .rw, 0xF, 0, 15⟩, ⟨6, 2, .rw, 0x2, 0, 3⟩]⟩,
  ⟨"IO_PIN_IN", 0x38044, 0x0, 1, false, [⟨0, 1, .ro, 0x0, 0, 1⟩, ⟨1, 1, .ro, 0x0, 0, 1⟩, ⟨2, 1, .ro, 0x0, 0, 1⟩, ⟨3, 1, .ro, 0x0, 0, 1⟩, ⟨4, 1, .ro, 0x0, 0, 1⟩]⟩,
  ⟨"IO_GP_OUT", 0x38048, 0x0, 1, false, [⟨0, 8, .rw, 0x0, 0, 255⟩]⟩,
  ⟨"IO_GP_IN", 0x3804C, 0x0, 1, false, [⟨0, 8, .ro, 0x0, 0, 255⟩]⟩,
  ⟨"IO_GP_CFG", 0x38060, 0x4, 8, false, [⟨0, 4, .rw, 0x0, 0, 9⟩, ⟨4, 1, .rw, 0x0, 0, 1⟩, ⟨5, 3, .rw, 0x5, 0, 7⟩]⟩,
  ⟨"IO_CONFLICT", 0x38080, 0x0, 1, false, [⟨0, 8, .ro, 0x0, 0, 255⟩, ⟨8, 8, .ro, 0x0, 0, 255⟩, ⟨16, 1, .w1c, 0x0, 0, 1⟩]⟩,
  ⟨"IO_CONFLICT_CNT", 0x38084, 0x0, 1, false, [⟨0, 32, .ro, 0x0, 0, 4294967295⟩]⟩,
  ⟨"IO_TIME_CTL", 0x380A0, 0x0, 1, false, [⟨0, 1, .rw, 0x0, 0, 1⟩]⟩]

/-- Registers of block 0x38000, part 1. -/
def regsIo1 : List RegRow := [
  ⟨"IO_TIME_STAT", 0x380A4, 0x0, 1, false, [⟨0, 1, .ro, 0x0, 0, 1⟩, ⟨1, 1, .ro, 0x0, 0, 1⟩]⟩,
  ⟨"IO_TIME_EDGE", 0x380A8, 0x0, 1, true, [⟨0, 64, .ro, 0x0, 0, 18446744073709551615⟩]⟩,
  ⟨"IO_TIME_K", 0x380B0, 0x0, 1, true, [⟨0, 64, .ro, 0x0, 0, 18446744073709551615⟩]⟩,
  ⟨"IO_TIME_CNT", 0x380B8, 0x0, 1, false, [⟨0, 32, .ro, 0x0, 0, 4294967295⟩]⟩,
  ⟨"IO_TIME_REJ", 0x380BC, 0x0, 1, false, [⟨0, 32, .ro, 0x0, 0, 4294967295⟩]⟩,
  ⟨"IO_CNT_CLR", 0x380F0, 0x0, 1, false, [⟨0, 1, .wo, 0x0, 0, 1⟩]⟩,
  ⟨"TMR_CTL", 0x38100, 0x10, 8, false, [⟨0, 1, .rw, 0x0, 0, 1⟩, ⟨1, 2, .rw, 0x0, 0, 2⟩, ⟨3, 2, .rw, 0x0, 0, 3⟩, ⟨5, 2, .ro, 0x0, 0, 3⟩]⟩,
  ⟨"TMR_CMP", 0x38104, 0x10, 8, false, [⟨0, 32, .rw, 0x0, 0, 4294967295⟩]⟩,
  ⟨"TMR_CNT", 0x38108, 0x10, 8, false, [⟨0, 32, .ro, 0x0, 0, 4294967295⟩]⟩,
  ⟨"TMR_CAP", 0x3810C, 0x10, 8, false, [⟨0, 32, .ro, 0x0, 0, 4294967295⟩]⟩]

/-- Registers of block 0x38000. -/
def regsIo : List RegRow := regsIo0 ++ regsIo1

/-- The registers whose offsets lie in a 16 KiB block. -/
def blockRegs : Nat → List RegRow
  | 0 => regsSys
  | 1 => regsFpa
  | 2 => regsPipe
  | 3 => regsProof
  | 4 => regsWeb
  | 5 => regsStat
  | 6 => regsLink
  | 7 => regsStand
  | 8 => regsHost
  | 9 => regsSec
  | 10 => regsMem
  | 11 => regsStore
  | 12 => regsHealth
  | 13 => regsAux
  | 14 => regsIo
  | _ => []

/-- Offset of `ACQ_BIAS`. -/
def R.ACQ_BIAS : Nat := 0x0410C
/-- Offset of `ACQ_MODE`. -/
def R.ACQ_MODE : Nat := 0x04114
/-- Offset of `ACQ_PERIOD`. -/
def R.ACQ_PERIOD : Nat := 0x04108
/-- Offset of `ACQ_SKIM`. -/
def R.ACQ_SKIM : Nat := 0x04110
/-- Offset of `ACQ_TINT`. -/
def R.ACQ_TINT : Nat := 0x04100
/-- Offset of `ACQ_TSLOT`. -/
def R.ACQ_TSLOT : Nat := 0x04104
/-- Offset of `ACQ_WIN_COL`. -/
def R.ACQ_WIN_COL : Nat := 0x0411C
/-- Offset of `ACQ_WIN_ROW`. -/
def R.ACQ_WIN_ROW : Nat := 0x04118
/-- Offset of `AUX_BLANK_MISS`. -/
def R.AUX_BLANK_MISS : Nat := 0x34020
/-- Offset of `AUX_CAL_VALID`. -/
def R.AUX_CAL_VALID : Nat := 0x34028
/-- Offset of `AUX_CNT_CLR`. -/
def R.AUX_CNT_CLR : Nat := 0x340F0
/-- Offset of `AUX_ENT_CFG`. -/
def R.AUX_ENT_CFG : Nat := 0x34100
/-- Offset of `AUX_ENT_RES`. -/
def R.AUX_ENT_RES : Nat := 0x34108
/-- Offset of `AUX_ENT_RES_T`. -/
def R.AUX_ENT_RES_T : Nat := 0x3410C
/-- Offset of `AUX_ENT_WIN`. -/
def R.AUX_ENT_WIN : Nat := 0x34104
/-- Offset of `AUX_OVERRUN`. -/
def R.AUX_OVERRUN : Nat := 0x3401C
/-- Offset of `AUX_REF`. -/
def R.AUX_REF : Nat := 0x34008
/-- Offset of `AUX_SEQ_CTL`. -/
def R.AUX_SEQ_CTL : Nat := 0x3400C
/-- Offset of `AUX_SEQ_STAT`. -/
def R.AUX_SEQ_STAT : Nat := 0x34010
/-- Offset of `AUX_STAT`. -/
def R.AUX_STAT : Nat := 0x34004
/-- Offset of `AUX_WIN_EN`. -/
def R.AUX_WIN_EN : Nat := 0x34014
/-- Offset of `AUX_WIN_STAT`. -/
def R.AUX_WIN_STAT : Nat := 0x34018
/-- Offset of `CLK_CNT_CLR`. -/
def R.CLK_CNT_CLR : Nat := 0x010F0
/-- Offset of `CLK_REF_LOSS`. -/
def R.CLK_REF_LOSS : Nat := 0x01004
/-- Offset of `CLK_STAT`. -/
def R.CLK_STAT : Nat := 0x01000
/-- Offset of `CLK_UNLOCK`. -/
def R.CLK_UNLOCK : Nat := 0x01008
/-- Offset of `FPA_ACQ_BND`. -/
def R.FPA_ACQ_BND : Nat := 0x04028
/-- Offset of `FPA_ACQ_CTL`. -/
def R.FPA_ACQ_CTL : Nat := 0x04014
/-- Offset of `FPA_ACQ_SEL`. -/
def R.FPA_ACQ_SEL : Nat := 0x04010
/-- Offset of `FPA_ACQ_STAT`. -/
def R.FPA_ACQ_STAT : Nat := 0x04020
/-- Offset of `FPA_ACQ_TIME`. -/
def R.FPA_ACQ_TIME : Nat := 0x04018
/-- Offset of `FPA_CGMAP`. -/
def R.FPA_CGMAP : Nat := 0x04400
/-- Offset of `FPA_CGTRIM`. -/
def R.FPA_CGTRIM : Nat := 0x04200
/-- Offset of `FPA_COPPICE_STAT`. -/
def R.FPA_COPPICE_STAT : Nat := 0x040C0
/-- Offset of `FPA_CTL`. -/
def R.FPA_CTL : Nat := 0x04000
/-- Offset of `FPA_FRAME_CNT`. -/
def R.FPA_FRAME_CNT : Nat := 0x04038
/-- Offset of `FPA_FRAME_T`. -/
def R.FPA_FRAME_T : Nat := 0x04030
/-- Offset of `FPA_FRAME_TEMP`. -/
def R.FPA_FRAME_TEMP : Nat := 0x04090
/-- Offset of `FPA_GEN_CUR`. -/
def R.FPA_GEN_CUR : Nat := 0x04008
/-- Offset of `FPA_GEN_PEND`. -/
def R.FPA_GEN_PEND : Nat := 0x0400C
/-- Offset of `FPA_HEATER`. -/
def R.FPA_HEATER : Nat := 0x04094
/-- Offset of `FPA_LINK_LOST`. -/
def R.FPA_LINK_LOST : Nat := 0x04040
/-- Offset of `FPA_STAGE_CTL`. -/
def R.FPA_STAGE_CTL : Nat := 0x04080
/-- Offset of `FPA_STAGE_RATE`. -/
def R.FPA_STAGE_RATE : Nat := 0x0408C
/-- Offset of `FPA_STAGE_STAT`. -/
def R.FPA_STAGE_STAT : Nat := 0x04084
/-- Offset of `FPA_STAGE_TEMP`. -/
def R.FPA_STAGE_TEMP : Nat := 0x04088
/-- Offset of `FPA_STAT`. -/
def R.FPA_STAT : Nat := 0x04004
/-- Offset of `FPA_TD`. -/
def R.FPA_TD : Nat := 0x040A0
/-- Offset of `FPA_TRIG_MISS`. -/
def R.FPA_TRIG_MISS : Nat := 0x0403C
/-- Offset of `HEALTH_CNT_CLR`. -/
def R.HEALTH_CNT_CLR : Nat := 0x303F0
/-- Offset of `HEALTH_EVT_LOST`. -/
def R.HEALTH_EVT_LOST : Nat := 0x3000C
/-- Offset of `HEALTH_EVT_SEQ`. -/
def R.HEALTH_EVT_SEQ : Nat := 0x30008
/-- Offset of `HEALTH_FAULT_MASK`. -/
def R.HEALTH_FAULT_MASK : Nat := 0x30010
/-- Offset of `HEALTH_FAULT_SRC`. -/
def R.HEALTH_FAULT_SRC : Nat := 0x30014
/-- Offset of `HEALTH_LASTING`. -/
def R.HEALTH_LASTING : Nat := 0x3002C
/-- Offset of `HEALTH_MON_MGN`. -/
def R.HEALTH_MON_MGN : Nat := 0x30204
/-- Offset of `HEALTH_MON_VAL`. -/
def R.HEALTH_MON_VAL : Nat := 0x30200
/-- Offset of `HEALTH_MP_CTL`. -/
def R.HEALTH_MP_CTL : Nat := 0x30300
/-- Offset of `HEALTH_MP_LAST`. -/
def R.HEALTH_MP_LAST : Nat := 0x30308
/-- Offset of `HEALTH_MP_LIFE`. -/
def R.HEALTH_MP_LIFE : Nat := 0x3030C
/-- Offset of `HEALTH_MP_LIMIT`. -/
def R.HEALTH_MP_LIMIT : Nat := 0x30310
/-- Offset of `HEALTH_MP_MARGIN`. -/
def R.HEALTH_MP_MARGIN : Nat := 0x30320
/-- Offset of `HEALTH_MP_STAT`. -/
def R.HEALTH_MP_STAT : Nat := 0x30304
/-- Offset of `HEALTH_MP_TINT`. -/
def R.HEALTH_MP_TINT : Nat := 0x3031C
/-- Offset of `HEALTH_MP_VCORE`. -/
def R.HEALTH_MP_VCORE : Nat := 0x30318
/-- Offset of `HEALTH_POLICY`. -/
def R.HEALTH_POLICY : Nat := 0x30020
/-- Offset of `HEALTH_RC`. -/
def R.HEALTH_RC : Nat := 0x30100
/-- Offset of `HEALTH_REPAIRS`. -/
def R.HEALTH_REPAIRS : Nat := 0x30030
/-- Offset of `HEALTH_STAT`. -/
def R.HEALTH_STAT : Nat := 0x30004
/-- Offset of `HEALTH_STOPS`. -/
def R.HEALTH_STOPS : Nat := 0x30384
/-- Offset of `HEALTH_STOP_MAX`. -/
def R.HEALTH_STOP_MAX : Nat := 0x30380
/-- Offset of `HEALTH_ST_RESULT`. -/
def R.HEALTH_ST_RESULT : Nat := 0x30040
/-- Offset of `HEALTH_ST_T`. -/
def R.HEALTH_ST_T : Nat := 0x30048
/-- Offset of `HEALTH_TESTS`. -/
def R.HEALTH_TESTS : Nat := 0x30024
/-- Offset of `HEALTH_TEST_DROP`. -/
def R.HEALTH_TEST_DROP : Nat := 0x30034
/-- Offset of `HEALTH_TRANSIENT`. -/
def R.HEALTH_TRANSIENT : Nat := 0x30028
/-- Offset of `HOST_CNT_CLR`. -/
def R.HOST_CNT_CLR : Nat := 0x2003C
/-- Offset of `HOST_CTL`. -/
def R.HOST_CTL : Nat := 0x20000
/-- Offset of `HOST_DB_IGNORED`. -/
def R.HOST_DB_IGNORED : Nat := 0x2002C
/-- Offset of `HOST_DMA_CTL`. -/
def R.HOST_DMA_CTL : Nat := 0x20200
/-- Offset of `HOST_DMA_FAIL_ADDR`. -/
def R.HOST_DMA_FAIL_ADDR : Nat := 0x2020C
/-- Offset of `HOST_DMA_RETRIES`. -/
def R.HOST_DMA_RETRIES : Nat := 0x20208
/-- Offset of `HOST_DMA_STAT`. -/
def R.HOST_DMA_STAT : Nat := 0x20204
/-- Offset of `HOST_ERR_STAT`. -/
def R.HOST_ERR_STAT : Nat := 0x20018
/-- Offset of `HOST_IDX_BASE`. -/
def R.HOST_IDX_BASE : Nat := 0x20008
/-- Offset of `HOST_LINK_DOWNS`. -/
def R.HOST_LINK_DOWNS : Nat := 0x20020
/-- Offset of `HOST_PTM_K`. -/
def R.HOST_PTM_K : Nat := 0x20060
/-- Offset of `HOST_PTM_M`. -/
def R.HOST_PTM_M : Nat := 0x20058
/-- Offset of `HOST_PTM_OFS`. -/
def R.HOST_PTM_OFS : Nat := 0x20048
/-- Offset of `HOST_PTM_STAT`. -/
def R.HOST_PTM_STAT : Nat := 0x20044
/-- Offset of `HOST_PTM_T`. -/
def R.HOST_PTM_T : Nat := 0x20050
/-- Offset of `HOST_RETRAINS`. -/
def R.HOST_RETRAINS : Nat := 0x20024
/-- Offset of `HOST_RING_BASE`. -/
def R.HOST_RING_BASE : Nat := 0x20400
/-- Offset of `HOST_RING_CTL`. -/
def R.HOST_RING_CTL : Nat := 0x2040C
/-- Offset of `HOST_RING_DROP`. -/
def R.HOST_RING_DROP : Nat := 0x2041C
/-- Offset of `HOST_RING_HIDX`. -/
def R.HOST_RING_HIDX : Nat := 0x20414
/-- Offset of `HOST_RING_MIDX`. -/
def R.HOST_RING_MIDX : Nat := 0x20418
/-- Offset of `HOST_RING_STAT`. -/
def R.HOST_RING_STAT : Nat := 0x20410
/-- Offset of `HOST_STAT`. -/
def R.HOST_STAT : Nat := 0x20004
/-- Offset of `HOST_UNEXP_CPL`. -/
def R.HOST_UNEXP_CPL : Nat := 0x20028
/-- Offset of `IO_CNT_CLR`. -/
def R.IO_CNT_CLR : Nat := 0x380F0
/-- Offset of `IO_CONFLICT`. -/
def R.IO_CONFLICT : Nat := 0x38080
/-- Offset of `IO_CONFLICT_CNT`. -/
def R.IO_CONFLICT_CNT : Nat := 0x38084
/-- Offset of `IO_GP_CFG`. -/
def R.IO_GP_CFG : Nat := 0x38060
/-- Offset of `IO_GP_IN`. -/
def R.IO_GP_IN : Nat := 0x3804C
/-- Offset of `IO_PIN_CFG`. -/
def R.IO_PIN_CFG : Nat := 0x38040
/-- Offset of `IO_PIN_IN`. -/
def R.IO_PIN_IN : Nat := 0x38044
/-- Offset of `IO_TIME_CNT`. -/
def R.IO_TIME_CNT : Nat := 0x380B8
/-- Offset of `IO_TIME_EDGE`. -/
def R.IO_TIME_EDGE : Nat := 0x380A8
/-- Offset of `IO_TIME_K`. -/
def R.IO_TIME_K : Nat := 0x380B0
/-- Offset of `IO_TIME_REJ`. -/
def R.IO_TIME_REJ : Nat := 0x380BC
/-- Offset of `IO_TIME_STAT`. -/
def R.IO_TIME_STAT : Nat := 0x380A4
/-- Offset of `LINK_CNT_CLR`. -/
def R.LINK_CNT_CLR : Nat := 0x1801C
/-- Offset of `LINK_ENC_AGE`. -/
def R.LINK_ENC_AGE : Nat := 0x18248
/-- Offset of `LINK_ENC_CTL`. -/
def R.LINK_ENC_CTL : Nat := 0x18240
/-- Offset of `LINK_ENC_EXTRAP`. -/
def R.LINK_ENC_EXTRAP : Nat := 0x1824C
/-- Offset of `LINK_ENC_GAP`. -/
def R.LINK_ENC_GAP : Nat := 0x18250
/-- Offset of `LINK_ENC_STAT`. -/
def R.LINK_ENC_STAT : Nat := 0x18244
/-- Offset of `LINK_HP_CTL`. -/
def R.LINK_HP_CTL : Nat := 0x18000
/-- Offset of `LINK_HP_STAT`. -/
def R.LINK_HP_STAT : Nat := 0x18004
/-- Offset of `LINK_P_CORR`. -/
def R.LINK_P_CORR : Nat := 0x18114
/-- Offset of `LINK_P_CTL`. -/
def R.LINK_P_CTL : Nat := 0x18100
/-- Offset of `LINK_P_DELAY`. -/
def R.LINK_P_DELAY : Nat := 0x18128
/-- Offset of `LINK_P_DROP`. -/
def R.LINK_P_DROP : Nat := 0x18124
/-- Offset of `LINK_P_LANE0`. -/
def R.LINK_P_LANE0 : Nat := 0x18130
/-- Offset of `LINK_P_LANE1`. -/
def R.LINK_P_LANE1 : Nat := 0x18134
/-- Offset of `LINK_P_LANE2`. -/
def R.LINK_P_LANE2 : Nat := 0x18138
/-- Offset of `LINK_P_LANE3`. -/
def R.LINK_P_LANE3 : Nat := 0x1813C
/-- Offset of `LINK_P_NBR`. -/
def R.LINK_P_NBR : Nat := 0x18108
/-- Offset of `LINK_P_NBR_INFO`. -/
def R.LINK_P_NBR_INFO : Nat := 0x18110
/-- Offset of `LINK_P_SEQGAP`. -/
def R.LINK_P_SEQGAP : Nat := 0x18120
/-- Offset of `LINK_P_STALE`. -/
def R.LINK_P_STALE : Nat := 0x1811C
/-- Offset of `LINK_P_STAT`. -/
def R.LINK_P_STAT : Nat := 0x18104
/-- Offset of `LINK_P_UNCORR`. -/
def R.LINK_P_UNCORR : Nat := 0x18118
/-- Offset of `LINK_REACH`. -/
def R.LINK_REACH : Nat := 0x18010
/-- Offset of `LINK_REROUTES`. -/
def R.LINK_REROUTES : Nat := 0x18018
/-- Offset of `LINK_ROUTE`. -/
def R.LINK_ROUTE : Nat := 0x18008
/-- Offset of `LINK_ROUTE_VER`. -/
def R.LINK_ROUTE_VER : Nat := 0x18014
/-- Offset of `LINK_TS_CTL`. -/
def R.LINK_TS_CTL : Nat := 0x18200
/-- Offset of `LINK_TS_OFFSET`. -/
def R.LINK_TS_OFFSET : Nat := 0x18208
/-- Offset of `LINK_TS_RATE`. -/
def R.LINK_TS_RATE : Nat := 0x1820C
/-- Offset of `LINK_TS_STAT`. -/
def R.LINK_TS_STAT : Nat := 0x18204
/-- Offset of `LINK_TS_STEPS`. -/
def R.LINK_TS_STEPS : Nat := 0x18210
/-- Offset of `MEM_CNT_CLR`. -/
def R.MEM_CNT_CLR : Nat := 0x28020
/-- Offset of `MEM_PATH_CORR`. -/
def R.MEM_PATH_CORR : Nat := 0x28024
/-- Offset of `MEM_PATH_UNCORR`. -/
def R.MEM_PATH_UNCORR : Nat := 0x28028
/-- Offset of `MEM_QDR0_WIRE`. -/
def R.MEM_QDR0_WIRE : Nat := 0x28120
/-- Offset of `MEM_QDR1_WIRE`. -/
def R.MEM_QDR1_WIRE : Nat := 0x281A0
/-- Offset of `MEM_QDR2_WIRE`. -/
def R.MEM_QDR2_WIRE : Nat := 0x28220
/-- Offset of `MEM_QDR3_WIRE`. -/
def R.MEM_QDR3_WIRE : Nat := 0x282A0
/-- Offset of `MEM_QDR_CORR`. -/
def R.MEM_QDR_CORR : Nat := 0x28108
/-- Offset of `MEM_QDR_ERASE`. -/
def R.MEM_QDR_ERASE : Nat := 0x28100
/-- Offset of `MEM_QDR_UNCORR`. -/
def R.MEM_QDR_UNCORR : Nat := 0x2810C
/-- Offset of `MEM_QDR_WBSKIP`. -/
def R.MEM_QDR_WBSKIP : Nat := 0x28110
/-- Offset of `MEM_SCRUB_STAT`. -/
def R.MEM_SCRUB_STAT : Nat := 0x28008
/-- Offset of `MEM_STAT`. -/
def R.MEM_STAT : Nat := 0x28004
/-- Offset of `MEM_TW_BASE`. -/
def R.MEM_TW_BASE : Nat := 0x28014
/-- Offset of `MEM_TW_SEL`. -/
def R.MEM_TW_SEL : Nat := 0x28010
/-- Offset of `MEM_TW_SIZE`. -/
def R.MEM_TW_SIZE : Nat := 0x2801C
/-- Offset of `MEM_TW_STAT`. -/
def R.MEM_TW_STAT : Nat := 0x28018
/-- Offset of `MEM_UNC_ADDR`. -/
def R.MEM_UNC_ADDR : Nat := 0x2800C
/-- Offset of `PIPE_AC_AGE`. -/
def R.PIPE_AC_AGE : Nat := 0x0A0E8
/-- Offset of `PIPE_AC_CHANGES`. -/
def R.PIPE_AC_CHANGES : Nat := 0x0A0EC
/-- Offset of `PIPE_AC_CTL`. -/
def R.PIPE_AC_CTL : Nat := 0x0A0E0
/-- Offset of `PIPE_AC_PROOF_T`. -/
def R.PIPE_AC_PROOF_T : Nat := 0x0A100
/-- Offset of `PIPE_AC_REF_TINT`. -/
def R.PIPE_AC_REF_TINT : Nat := 0x0A108
/-- Offset of `PIPE_AC_STAT`. -/
def R.PIPE_AC_STAT : Nat := 0x0A0E4
/-- Offset of `PIPE_BU_GATED`. -/
def R.PIPE_BU_GATED : Nat := 0x0A014
/-- Offset of `PIPE_BU_RESTART`. -/
def R.PIPE_BU_RESTART : Nat := 0x0A010
/-- Offset of `PIPE_BU_STAT`. -/
def R.PIPE_BU_STAT : Nat := 0x0A00C
/-- Offset of `PIPE_BU_TAUMED`. -/
def R.PIPE_BU_TAUMED : Nat := 0x0A018
/-- Offset of `PIPE_CAP_DONE`. -/
def R.PIPE_CAP_DONE : Nat := 0x080C4
/-- Offset of `PIPE_CAP_DROP`. -/
def R.PIPE_CAP_DROP : Nat := 0x080C8
/-- Offset of `PIPE_CAP_DROP_QDR`. -/
def R.PIPE_CAP_DROP_QDR : Nat := 0x080CC
/-- Offset of `PIPE_CAP_STAT`. -/
def R.PIPE_CAP_STAT : Nat := 0x080C0
/-- Offset of `PIPE_CNT_CLR`. -/
def R.PIPE_CNT_CLR : Nat := 0x080F0
/-- Offset of `PIPE_DM_K`. -/
def R.PIPE_DM_K : Nat := 0x0A050
/-- Offset of `PIPE_DM_OFS`. -/
def R.PIPE_DM_OFS : Nat := 0x0A04C
/-- Offset of `PIPE_DM_REF_F`. -/
def R.PIPE_DM_REF_F : Nat := 0x0A074
/-- Offset of `PIPE_DM_REF_OP`. -/
def R.PIPE_DM_REF_OP : Nat := 0x0A07C
/-- Offset of `PIPE_DM_REF_Q`. -/
def R.PIPE_DM_REF_Q : Nat := 0x0A078
/-- Offset of `PIPE_DM_REF_T`. -/
def R.PIPE_DM_REF_T : Nat := 0x0A070
/-- Offset of `PIPE_DM_RESID`. -/
def R.PIPE_DM_RESID : Nat := 0x0A080
/-- Offset of `PIPE_DM_STAT`. -/
def R.PIPE_DM_STAT : Nat := 0x0A044
/-- Offset of `PIPE_NS_CHDRIFT`. -/
def R.PIPE_NS_CHDRIFT : Nat := 0x0800C
/-- Offset of `PIPE_NS_ROWSPAN`. -/
def R.PIPE_NS_ROWSPAN : Nat := 0x08008
/-- Offset of `PIPE_NS_STAT`. -/
def R.PIPE_NS_STAT : Nat := 0x08004
/-- Offset of `PIPE_PL_CTL`. -/
def R.PIPE_PL_CTL : Nat := 0x08040
/-- Offset of `PIPE_PL_LOADERR`. -/
def R.PIPE_PL_LOADERR : Nat := 0x08060
/-- Offset of `PIPE_PL_SEQ_ACT`. -/
def R.PIPE_PL_SEQ_ACT : Nat := 0x08048
/-- Offset of `PIPE_PL_SEQ_STBY`. -/
def R.PIPE_PL_SEQ_STBY : Nat := 0x0804C
/-- Offset of `PIPE_PL_STAT`. -/
def R.PIPE_PL_STAT : Nat := 0x08044
/-- Offset of `PIPE_PL_SWAP_T`. -/
def R.PIPE_PL_SWAP_T : Nat := 0x08058
/-- Offset of `PIPE_PL_TREF`. -/
def R.PIPE_PL_TREF : Nat := 0x08050
/-- Offset of `PIPE_RAD_CV_SEQ`. -/
def R.PIPE_RAD_CV_SEQ : Nat := 0x0A0B0
/-- Offset of `PIPE_RAD_CV_STAT`. -/
def R.PIPE_RAD_CV_STAT : Nat := 0x0A0AC
/-- Offset of `PIPE_RAD_NOVAL`. -/
def R.PIPE_RAD_NOVAL : Nat := 0x0A0BC
/-- Offset of `PIPE_RAD_SAT`. -/
def R.PIPE_RAD_SAT : Nat := 0x0A0B8
/-- Offset of `PIPE_ST_CLUMAX`. -/
def R.PIPE_ST_CLUMAX : Nat := 0x08090
/-- Offset of `PIPE_ST_DEFECTS`. -/
def R.PIPE_ST_DEFECTS : Nat := 0x08088
/-- Offset of `PIPE_ST_INVALID`. -/
def R.PIPE_ST_INVALID : Nat := 0x0808C
/-- Offset of `PIPE_ST_SEQ`. -/
def R.PIPE_ST_SEQ : Nat := 0x08094
/-- Offset of `PIPE_ST_STAT`. -/
def R.PIPE_ST_STAT : Nat := 0x08084
/-- Offset of `PROOF_BLADE_T`. -/
def R.PROOF_BLADE_T : Nat := 0x0C050
/-- Offset of `PROOF_CC_LAST`. -/
def R.PROOF_CC_LAST : Nat := 0x0C108
/-- Offset of `PROOF_CC_OUTLIER`. -/
def R.PROOF_CC_OUTLIER : Nat := 0x0C10C
/-- Offset of `PROOF_CNT_ABORT`. -/
def R.PROOF_CNT_ABORT : Nat := 0x0C0C4
/-- Offset of `PROOF_CNT_CLR`. -/
def R.PROOF_CNT_CLR : Nat := 0x0C0F0
/-- Offset of `PROOF_CNT_DONE`. -/
def R.PROOF_CNT_DONE : Nat := 0x0C0C0
/-- Offset of `PROOF_CNT_FORCED`. -/
def R.PROOF_CNT_FORCED : Nat := 0x0C0C8
/-- Offset of `PROOF_GLADE_BEGIN`. -/
def R.PROOF_GLADE_BEGIN : Nat := 0x0C090
/-- Offset of `PROOF_GLADE_END`. -/
def R.PROOF_GLADE_END : Nat := 0x0C098
/-- Offset of `PROOF_GLADE_STAT`. -/
def R.PROOF_GLADE_STAT : Nat := 0x0C088
/-- Offset of `PROOF_LAST_T`. -/
def R.PROOF_LAST_T : Nat := 0x0C0D0
/-- Offset of `PROOF_OFS_KEPT`. -/
def R.PROOF_OFS_KEPT : Nat := 0x0C058
/-- Offset of `PROOF_REQ`. -/
def R.PROOF_REQ : Nat := 0x0C008
/-- Offset of `PROOF_SCHED`. -/
def R.PROOF_SCHED : Nat := 0x0C00C
/-- Offset of `PROOF_SCHED_START`. -/
def R.PROOF_SCHED_START : Nat := 0x0C0B0
/-- Offset of `PROOF_SHUT_CMD`. -/
def R.PROOF_SHUT_CMD : Nat := 0x0C030
/-- Offset of `PROOF_SHUT_CTL`. -/
def R.PROOF_SHUT_CTL : Nat := 0x0C020
/-- Offset of `PROOF_SHUT_FAILS`. -/
def R.PROOF_SHUT_FAILS : Nat := 0x0C0CC
/-- Offset of `PROOF_SHUT_MOVE`. -/
def R.PROOF_SHUT_MOVE : Nat := 0x0C02C
/-- Offset of `PROOF_SHUT_STAT`. -/
def R.PROOF_SHUT_STAT : Nat := 0x0C028
/-- Offset of `PROOF_STAT`. -/
def R.PROOF_STAT : Nat := 0x0C004
/-- Offset of `PROOF_TAU_STAT`. -/
def R.PROOF_TAU_STAT : Nat := 0x0C068
/-- Offset of `PWR_ABORTED`. -/
def R.PWR_ABORTED : Nat := 0x02028
/-- Offset of `PWR_BAL_CTL`. -/
def R.PWR_BAL_CTL : Nat := 0x02040
/-- Offset of `PWR_BAL_SAT_CNT`. -/
def R.PWR_BAL_SAT_CNT : Nat := 0x0202C
/-- Offset of `PWR_BAL_STAT`. -/
def R.PWR_BAL_STAT : Nat := 0x02044
/-- Offset of `PWR_CNT_CLR`. -/
def R.PWR_CNT_CLR : Nat := 0x020F0
/-- Offset of `PWR_DOM_DRAIN`. -/
def R.PWR_DOM_DRAIN : Nat := 0x02010
/-- Offset of `PWR_DOM_ON`. -/
def R.PWR_DOM_ON : Nat := 0x02000
/-- Offset of `PWR_LAST`. -/
def R.PWR_LAST : Nat := 0x02024
/-- Offset of `PWR_P_BAL`. -/
def R.PWR_P_BAL : Nat := 0x02050
/-- Offset of `PWR_P_HELD`. -/
def R.PWR_P_HELD : Nat := 0x0204C
/-- Offset of `PWR_P_IN`. -/
def R.PWR_P_IN : Nat := 0x02048
/-- Offset of `PWR_SP_ACT`. -/
def R.PWR_SP_ACT : Nat := 0x02054
/-- Offset of `SEC_AUTH_FAIL`. -/
def R.SEC_AUTH_FAIL : Nat := 0x24080
/-- Offset of `SEC_CNT_CLR`. -/
def R.SEC_CNT_CLR : Nat := 0x24090
/-- Offset of `SEC_CTR`. -/
def R.SEC_CTR : Nat := 0x24040
/-- Offset of `SEC_FW_STAT`. -/
def R.SEC_FW_STAT : Nat := 0x240A0
/-- Offset of `SEC_FW_SVN_MIN`. -/
def R.SEC_FW_SVN_MIN : Nat := 0x240AC
/-- Offset of `SEC_FW_SWITCH_T`. -/
def R.SEC_FW_SWITCH_T : Nat := 0x240B0
/-- Offset of `SEC_FW_VER`. -/
def R.SEC_FW_VER : Nat := 0x240A4
/-- Offset of `SEC_KEY`. -/
def R.SEC_KEY : Nat := 0x24010
/-- Offset of `SEC_MBX_CPL`. -/
def R.SEC_MBX_CPL : Nat := 0x24140
/-- Offset of `SEC_MBX_CTL`. -/
def R.SEC_MBX_CTL : Nat := 0x240C0
/-- Offset of `SEC_MBX_DATA`. -/
def R.SEC_MBX_DATA : Nat := 0x25000
/-- Offset of `SEC_MBX_STAT`. -/
def R.SEC_MBX_STAT : Nat := 0x240C4
/-- Offset of `SEC_RELAYED`. -/
def R.SEC_RELAYED : Nat := 0x2408C
/-- Offset of `SEC_REPLAY`. -/
def R.SEC_REPLAY : Nat := 0x24084
/-- Offset of `SEC_ROLE_FAIL`. -/
def R.SEC_ROLE_FAIL : Nat := 0x24088
/-- Offset of `SEC_STAT`. -/
def R.SEC_STAT : Nat := 0x24000
/-- Offset of `SPI_BADHDR`. -/
def R.SPI_BADHDR : Nat := 0x3800C
/-- Offset of `SPI_FRAG`. -/
def R.SPI_FRAG : Nat := 0x38008
/-- Offset of `SPI_STAT`. -/
def R.SPI_STAT : Nat := 0x38000
/-- Offset of `SPI_TXN`. -/
def R.SPI_TXN : Nat := 0x38004
/-- Offset of `STAND_ALIVE`. -/
def R.STAND_ALIVE : Nat := 0x1C030
/-- Offset of `STAND_ASSIGNED`. -/
def R.STAND_ASSIGNED : Nat := 0x1C02C
/-- Offset of `STAND_CNT_CLR`. -/
def R.STAND_CNT_CLR : Nat := 0x1C0F0
/-- Offset of `STAND_CTL`. -/
def R.STAND_CTL : Nat := 0x1C000
/-- Offset of `STAND_DEATHS`. -/
def R.STAND_DEATHS : Nat := 0x1C040
/-- Offset of `STAND_DEGRADED`. -/
def R.STAND_DEGRADED : Nat := 0x1C038
/-- Offset of `STAND_EPOCH`. -/
def R.STAND_EPOCH : Nat := 0x1C008
/-- Offset of `STAND_EPOCH_CHG`. -/
def R.STAND_EPOCH_CHG : Nat := 0x1C04C
/-- Offset of `STAND_GRP_FAIL`. -/
def R.STAND_GRP_FAIL : Nat := 0x1C058
/-- Offset of `STAND_GRP_OK`. -/
def R.STAND_GRP_OK : Nat := 0x1C054
/-- Offset of `STAND_GRP_STAT`. -/
def R.STAND_GRP_STAT : Nat := 0x1C050
/-- Offset of `STAND_MAP_VER`. -/
def R.STAND_MAP_VER : Nat := 0x1C00C
/-- Offset of `STAND_MERGE_DUP`. -/
def R.STAND_MERGE_DUP : Nat := 0x1C070
/-- Offset of `STAND_MERGE_INCOMP`. -/
def R.STAND_MERGE_INCOMP : Nat := 0x1C074
/-- Offset of `STAND_MERGE_LATE`. -/
def R.STAND_MERGE_LATE : Nat := 0x1C068
/-- Offset of `STAND_MERGE_OVF`. -/
def R.STAND_MERGE_OVF : Nat := 0x1C06C
/-- Offset of `STAND_MERGE_STAT`. -/
def R.STAND_MERGE_STAT : Nat := 0x1C064
/-- Offset of `STAND_REVENANT`. -/
def R.STAND_REVENANT : Nat := 0x1C044
/-- Offset of `STAND_ROLES`. -/
def R.STAND_ROLES : Nat := 0x1C028
/-- Offset of `STAND_SEAM`. -/
def R.STAND_SEAM : Nat := 0x1C180
/-- Offset of `STAND_SEAM_AT_LIMIT`. -/
def R.STAND_SEAM_AT_LIMIT : Nat := 0x1C08C
/-- Offset of `STAND_SID`. -/
def R.STAND_SID : Nat := 0x1C018
/-- Offset of `STAND_STAT`. -/
def R.STAND_STAT : Nat := 0x1C004
/-- Offset of `STAND_TAKEOVERS`. -/
def R.STAND_TAKEOVERS : Nat := 0x1C048
/-- Offset of `STAND_TRIM`. -/
def R.STAND_TRIM : Nat := 0x1C100
/-- Offset of `STAND_VACATED`. -/
def R.STAND_VACATED : Nat := 0x1C034
/-- Offset of `STAT_AL_CLR`. -/
def R.STAT_AL_CLR : Nat := 0x142B0
/-- Offset of `STAT_AL_FIRE`. -/
def R.STAT_AL_FIRE : Nat := 0x14290
/-- Offset of `STAT_AL_MERGED`. -/
def R.STAT_AL_MERGED : Nat := 0x142A4
/-- Offset of `STAT_AL_OUT`. -/
def R.STAT_AL_OUT : Nat := 0x14200
/-- Offset of `STAT_AL_STAT`. -/
def R.STAT_AL_STAT : Nat := 0x14280
/-- Offset of `STAT_AL_TARDY`. -/
def R.STAT_AL_TARDY : Nat := 0x142A0
/-- Offset of `STAT_FLK_RES_A`. -/
def R.STAT_FLK_RES_A : Nat := 0x14100
/-- Offset of `STAT_FLK_RES_B`. -/
def R.STAT_FLK_RES_B : Nat := 0x14104
/-- Offset of `STAT_SNAP_CTL`. -/
def R.STAT_SNAP_CTL : Nat := 0x14004
/-- Offset of `STAT_SNAP_GENHI`. -/
def R.STAT_SNAP_GENHI : Nat := 0x14010
/-- Offset of `STAT_SNAP_GENLO`. -/
def R.STAT_SNAP_GENLO : Nat := 0x1400C
/-- Offset of `STAT_SNAP_HGEN`. -/
def R.STAT_SNAP_HGEN : Nat := 0x1402C
/-- Offset of `STAT_SNAP_HIST`. -/
def R.STAT_SNAP_HIST : Nat := 0x14800
/-- Offset of `STAT_SNAP_HNOVAL`. -/
def R.STAT_SNAP_HNOVAL : Nat := 0x14028
/-- Offset of `STAT_SNAP_HOVER`. -/
def R.STAT_SNAP_HOVER : Nat := 0x14024
/-- Offset of `STAT_SNAP_HUNDER`. -/
def R.STAT_SNAP_HUNDER : Nat := 0x14020
/-- Offset of `STAT_SNAP_LANE`. -/
def R.STAT_SNAP_LANE : Nat := 0x14400
/-- Offset of `STAT_SNAP_LINES`. -/
def R.STAT_SNAP_LINES : Nat := 0x14014
/-- Offset of `STAT_SNAP_STAT`. -/
def R.STAT_SNAP_STAT : Nat := 0x14008
/-- Offset of `STAT_SNAP_WEB`. -/
def R.STAT_SNAP_WEB : Nat := 0x14018
/-- Offset of `STORE_CNT_CLR`. -/
def R.STORE_CNT_CLR : Nat := 0x2C0F0
/-- Offset of `STORE_CTR_FAIL`. -/
def R.STORE_CTR_FAIL : Nat := 0x2C038
/-- Offset of `STORE_FLASH_BADBLK`. -/
def R.STORE_FLASH_BADBLK : Nat := 0x2C008
/-- Offset of `STORE_FLASH_CRCERR`. -/
def R.STORE_FLASH_CRCERR : Nat := 0x2C004
/-- Offset of `STORE_FLASH_STAT`. -/
def R.STORE_FLASH_STAT : Nat := 0x2C000
/-- Offset of `STORE_KEEP_CORR`. -/
def R.STORE_KEEP_CORR : Nat := 0x2C024
/-- Offset of `STORE_KEEP_SPARES`. -/
def R.STORE_KEEP_SPARES : Nat := 0x2C034
/-- Offset of `STORE_KEEP_STAT`. -/
def R.STORE_KEEP_STAT : Nat := 0x2C020
/-- Offset of `STORE_KEEP_TORN`. -/
def R.STORE_KEEP_TORN : Nat := 0x2C02C
/-- Offset of `STORE_KEEP_TORN_ADDR`. -/
def R.STORE_KEEP_TORN_ADDR : Nat := 0x2C030
/-- Offset of `STORE_KEEP_UNCORR`. -/
def R.STORE_KEEP_UNCORR : Nat := 0x2C028
/-- Offset of `STORE_OPTIME`. -/
def R.STORE_OPTIME : Nat := 0x2C040
/-- Offset of `SYS_BOOT_CTL`. -/
def R.SYS_BOOT_CTL : Nat := 0x00030
/-- Offset of `SYS_BOOT_STAT`. -/
def R.SYS_BOOT_STAT : Nat := 0x00034
/-- Offset of `SYS_RST`. -/
def R.SYS_RST : Nat := 0x00028
/-- Offset of `SYS_RST_CAUSE`. -/
def R.SYS_RST_CAUSE : Nat := 0x00024
/-- Offset of `SYS_TIME`. -/
def R.SYS_TIME : Nat := 0x00010
/-- Offset of `TMR_CAP`. -/
def R.TMR_CAP : Nat := 0x3810C
/-- Offset of `TMR_CMP`. -/
def R.TMR_CMP : Nat := 0x38104
/-- Offset of `TMR_CNT`. -/
def R.TMR_CNT : Nat := 0x38108
/-- Offset of `TMR_CTL`. -/
def R.TMR_CTL : Nat := 0x38100
/-- Offset of `WEB_CMD`. -/
def R.WEB_CMD : Nat := 0x10034
/-- Offset of `WEB_CTL`. -/
def R.WEB_CTL : Nat := 0x10000
/-- Offset of `WEB_DISC_EMIT`. -/
def R.WEB_DISC_EMIT : Nat := 0x100B4
/-- Offset of `WEB_DISC_REV`. -/
def R.WEB_DISC_REV : Nat := 0x100B0
/-- Offset of `WEB_ENC_CNT`. -/
def R.WEB_ENC_CNT : Nat := 0x10040
/-- Offset of `WEB_ENC_ERR`. -/
def R.WEB_ENC_ERR : Nat := 0x10044
/-- Offset of `WEB_GAP`. -/
def R.WEB_GAP : Nat := 0x100BC
/-- Offset of `WEB_GEO_CTL`. -/
def R.WEB_GEO_CTL : Nat := 0x10060
/-- Offset of `WEB_GEO_OMAX`. -/
def R.WEB_GEO_OMAX : Nat := 0x10070
/-- Offset of `WEB_GEO_OMIN`. -/
def R.WEB_GEO_OMIN : Nat := 0x1006C
/-- Offset of `WEB_GEO_STAT`. -/
def R.WEB_GEO_STAT : Nat := 0x10068
/-- Offset of `WEB_HOST_SPEED`. -/
def R.WEB_HOST_SPEED : Nat := 0x10010
/-- Offset of `WEB_HW`. -/
def R.WEB_HW : Nat := 0x10020
/-- Offset of `WEB_LINES`. -/
def R.WEB_LINES : Nat := 0x100A8
/-- Offset of `WEB_OPEN`. -/
def R.WEB_OPEN : Nat := 0x100A4
/-- Offset of `WEB_POS`. -/
def R.WEB_POS : Nat := 0x10018
/-- Offset of `WEB_PRESET`. -/
def R.WEB_PRESET : Nat := 0x10038
/-- Offset of `WEB_PROF_CUR`. -/
def R.WEB_PROF_CUR : Nat := 0x10080
/-- Offset of `WEB_PROF_MAP`. -/
def R.WEB_PROF_MAP : Nat := 0x10090
/-- Offset of `WEB_PROF_NEXT`. -/
def R.WEB_PROF_NEXT : Nat := 0x10088
/-- Offset of `WEB_PROF_PEND`. -/
def R.WEB_PROF_PEND : Nat := 0x10084
/-- Offset of `WEB_REC_DROP`. -/
def R.WEB_REC_DROP : Nat := 0x100C0
/-- Offset of `WEB_SPEED`. -/
def R.WEB_SPEED : Nat := 0x10028
/-- Offset of `WEB_STAT`. -/
def R.WEB_STAT : Nat := 0x10014
/-- Offset of `WEB_TRUNC`. -/
def R.WEB_TRUNC : Nat := 0x100B8
/-- Offset of `WEB_Z_CNT`. -/
def R.WEB_Z_CNT : Nat := 0x10048
/-- Offset of `WEB_Z_ERR`. -/
def R.WEB_Z_ERR : Nat := 0x1004C
/-- Offset of `WEB_Z_POS`. -/
def R.WEB_Z_POS : Nat := 0x10050

/-- Field `ACQ_BIAS_BIAS`. -/
def F.ACQ_BIAS_BIAS : Fld := ⟨0x0410C, 0x20, 4, 0, 12, false⟩
/-- Field `ACQ_MODE_FRAME_SRC`. -/
def F.ACQ_MODE_FRAME_SRC : Fld := ⟨0x04114, 0x20, 4, 1, 2, false⟩
/-- Field `ACQ_MODE_GAIN`. -/
def F.ACQ_MODE_GAIN : Fld := ⟨0x04114, 0x20, 4, 0, 1, false⟩
/-- Field `ACQ_PERIOD_P`. -/
def F.ACQ_PERIOD_P : Fld := ⟨0x04108, 0x20, 4, 0, 32, false⟩
/-- Field `ACQ_SKIM_SKIM`. -/
def F.ACQ_SKIM_SKIM : Fld := ⟨0x04110, 0x20, 4, 0, 10, false⟩
/-- Field `ACQ_TINT_T_INT`. -/
def F.ACQ_TINT_T_INT : Fld := ⟨0x04100, 0x20, 4, 0, 13, false⟩
/-- Field `ACQ_TSLOT_T_SLOT`. -/
def F.ACQ_TSLOT_T_SLOT : Fld := ⟨0x04104, 0x20, 4, 0, 16, false⟩
/-- Field `ACQ_WIN_COL_CG_COUNT`. -/
def F.ACQ_WIN_COL_CG_COUNT : Fld := ⟨0x0411C, 0x20, 4, 16, 7, false⟩
/-- Field `ACQ_WIN_COL_CG_FIRST`. -/
def F.ACQ_WIN_COL_CG_FIRST : Fld := ⟨0x0411C, 0x20, 4, 0, 7, false⟩
/-- Field `ACQ_WIN_ROW_ROW_FIRST`. -/
def F.ACQ_WIN_ROW_ROW_FIRST : Fld := ⟨0x04118, 0x20, 4, 0, 8, false⟩
/-- Field `ACQ_WIN_ROW_ROW_SLOTS`. -/
def F.ACQ_WIN_ROW_ROW_SLOTS : Fld := ⟨0x04118, 0x20, 4, 16, 9, false⟩
/-- Field `AUX_BLANK_MISS_CNT`. -/
def F.AUX_BLANK_MISS_CNT : Fld := ⟨0x34020, 0x0, 1, 0, 32, false⟩
/-- Field `AUX_CAL_VALID_MAP`. -/
def F.AUX_CAL_VALID_MAP : Fld := ⟨0x34028, 0x0, 1, 0, 60, true⟩
/-- Field `AUX_CTL_EN`. -/
def F.AUX_CTL_EN : Fld := ⟨0x34000, 0x0, 1, 0, 1, false⟩
/-- Field `AUX_ENT_RES_CAL`. -/
def F.AUX_ENT_RES_CAL : Fld := ⟨0x34108, 0x10, 16, 16, 1, false⟩
/-- Field `AUX_ENT_RES_COUNT`. -/
def F.AUX_ENT_RES_COUNT : Fld := ⟨0x34108, 0x10, 16, 24, 8, false⟩
/-- Field `AUX_ENT_RES_T_T`. -/
def F.AUX_ENT_RES_T_T : Fld := ⟨0x3410C, 0x10, 16, 0, 32, false⟩
/-- Field `AUX_ENT_RES_VALUE`. -/
def F.AUX_ENT_RES_VALUE : Fld := ⟨0x34108, 0x10, 16, 0, 16, false⟩
/-- Field `AUX_ENT_RES_WIN`. -/
def F.AUX_ENT_RES_WIN : Fld := ⟨0x34108, 0x10, 16, 17, 1, false⟩
/-- Field `AUX_OVERRUN_CNT`. -/
def F.AUX_OVERRUN_CNT : Fld := ⟨0x3401C, 0x0, 1, 0, 32, false⟩
/-- Field `AUX_REF_SEL`. -/
def F.AUX_REF_SEL : Fld := ⟨0x34008, 0x0, 1, 0, 2, false⟩
/-- Field `AUX_RING_CTL_HOLD`. -/
def F.AUX_RING_CTL_HOLD : Fld := ⟨0x34024, 0x0, 1, 0, 8, false⟩
/-- Field `AUX_SEQ_CTL_PERIOD`. -/
def F.AUX_SEQ_CTL_PERIOD : Fld := ⟨0x3400C, 0x0, 1, 0, 16, false⟩
/-- Field `AUX_SEQ_STAT_ERR`. -/
def F.AUX_SEQ_STAT_ERR : Fld := ⟨0x34010, 0x0, 1, 0, 4, false⟩
/-- Field `AUX_SEQ_STAT_PERIOD_ACT`. -/
def F.AUX_SEQ_STAT_PERIOD_ACT : Fld := ⟨0x34010, 0x0, 1, 16, 16, false⟩
/-- Field `AUX_SEQ_STAT_REFUSED`. -/
def F.AUX_SEQ_STAT_REFUSED : Fld := ⟨0x34010, 0x0, 1, 4, 1, false⟩
/-- Field `AUX_STAT_CAL_BUSY`. -/
def F.AUX_STAT_CAL_BUSY : Fld := ⟨0x34004, 0x0, 1, 2, 1, false⟩
/-- Field `AUX_STAT_REF_FAULT`. -/
def F.AUX_STAT_REF_FAULT : Fld := ⟨0x34004, 0x0, 1, 1, 1, false⟩
/-- Field `AUX_STAT_REF_READY`. -/
def F.AUX_STAT_REF_READY : Fld := ⟨0x34004, 0x0, 1, 0, 1, false⟩
/-- Field `AUX_STAT_ZERO_CH`. -/
def F.AUX_STAT_ZERO_CH : Fld := ⟨0x34004, 0x0, 1, 4, 4, false⟩
/-- Field `AUX_STAT_ZERO_GAIN`. -/
def F.AUX_STAT_ZERO_GAIN : Fld := ⟨0x34004, 0x0, 1, 8, 3, false⟩
/-- Field `AUX_STAT_ZERO_HELD`. -/
def F.AUX_STAT_ZERO_HELD : Fld := ⟨0x34004, 0x0, 1, 3, 1, false⟩
/-- Field `AUX_WIN_EN_MAP`. -/
def F.AUX_WIN_EN_MAP : Fld := ⟨0x34014, 0x0, 1, 0, 16, false⟩
/-- Field `AUX_WIN_STAT_MAP`. -/
def F.AUX_WIN_STAT_MAP : Fld := ⟨0x34018, 0x0, 1, 0, 16, false⟩
/-- Field `CLK_REF_LOSS_CNT`. -/
def F.CLK_REF_LOSS_CNT : Fld := ⟨0x01004, 0x0, 1, 0, 32, false⟩
/-- Field `CLK_STAT_HOLDOVER`. -/
def F.CLK_STAT_HOLDOVER : Fld := ⟨0x01000, 0x0, 1, 2, 1, false⟩
/-- Field `CLK_STAT_INT_OSC`. -/
def F.CLK_STAT_INT_OSC : Fld := ⟨0x01000, 0x0, 1, 3, 1, false⟩
/-- Field `CLK_STAT_PLL_LOCK`. -/
def F.CLK_STAT_PLL_LOCK : Fld := ⟨0x01000, 0x0, 1, 0, 1, false⟩
/-- Field `CLK_STAT_REF_LOST`. -/
def F.CLK_STAT_REF_LOST : Fld := ⟨0x01000, 0x0, 1, 4, 1, false⟩
/-- Field `CLK_STAT_REF_OK`. -/
def F.CLK_STAT_REF_OK : Fld := ⟨0x01000, 0x0, 1, 1, 1, false⟩
/-- Field `CLK_UNLOCK_CNT`. -/
def F.CLK_UNLOCK_CNT : Fld := ⟨0x01008, 0x0, 1, 0, 32, false⟩
/-- Field `FPA_ACQ_BND_BND`. -/
def F.FPA_ACQ_BND_BND : Fld := ⟨0x04028, 0x0, 1, 0, 64, true⟩
/-- Field `FPA_ACQ_SEL_SET`. -/
def F.FPA_ACQ_SEL_SET : Fld := ⟨0x04010, 0x0, 1, 0, 2, false⟩
/-- Field `FPA_ACQ_STAT_CANCELLED`. -/
def F.FPA_ACQ_STAT_CANCELLED : Fld := ⟨0x04020, 0x0, 1, 5, 1, false⟩
/-- Field `FPA_ACQ_STAT_ERR`. -/
def F.FPA_ACQ_STAT_ERR : Fld := ⟨0x04020, 0x0, 1, 0, 4, false⟩
/-- Field `FPA_ACQ_STAT_REFUSED`. -/
def F.FPA_ACQ_STAT_REFUSED : Fld := ⟨0x04020, 0x0, 1, 6, 1, false⟩
/-- Field `FPA_ACQ_STAT_SUPERSEDED`. -/
def F.FPA_ACQ_STAT_SUPERSEDED : Fld := ⟨0x04020, 0x0, 1, 4, 1, false⟩
/-- Field `FPA_ACQ_TIME_T_C`. -/
def F.FPA_ACQ_TIME_T_C : Fld := ⟨0x04018, 0x0, 1, 0, 64, true⟩
/-- Field `FPA_CGMAP_EXHAUSTED`. -/
def F.FPA_CGMAP_EXHAUSTED : Fld := ⟨0x04400, 0x4, 80, 15, 1, false⟩
/-- Field `FPA_CGMAP_SP0_COL`. -/
def F.FPA_CGMAP_SP0_COL : Fld := ⟨0x04400, 0x4, 80, 0, 5, false⟩
/-- Field `FPA_CGMAP_SP0_FAIL`. -/
def F.FPA_CGMAP_SP0_FAIL : Fld := ⟨0x04400, 0x4, 80, 6, 1, false⟩
/-- Field `FPA_CGMAP_SP0_USED`. -/
def F.FPA_CGMAP_SP0_USED : Fld := ⟨0x04400, 0x4, 80, 5, 1, false⟩
/-- Field `FPA_CGMAP_SP1_COL`. -/
def F.FPA_CGMAP_SP1_COL : Fld := ⟨0x04400, 0x4, 80, 8, 5, false⟩
/-- Field `FPA_CGMAP_SP1_FAIL`. -/
def F.FPA_CGMAP_SP1_FAIL : Fld := ⟨0x04400, 0x4, 80, 14, 1, false⟩
/-- Field `FPA_CGMAP_SP1_USED`. -/
def F.FPA_CGMAP_SP1_USED : Fld := ⟨0x04400, 0x4, 80, 13, 1, false⟩
/-- Field `FPA_CGTRIM_TRIM`. -/
def F.FPA_CGTRIM_TRIM : Fld := ⟨0x04200, 0x4, 80, 0, 6, false⟩
/-- Field `FPA_CTL_RUN`. -/
def F.FPA_CTL_RUN : Fld := ⟨0x04000, 0x0, 1, 0, 1, false⟩
/-- Field `FPA_FRAME_CNT_CNT`. -/
def F.FPA_FRAME_CNT_CNT : Fld := ⟨0x04038, 0x0, 1, 0, 32, false⟩
/-- Field `FPA_FRAME_TEMP_T`. -/
def F.FPA_FRAME_TEMP_T : Fld := ⟨0x04090, 0x0, 1, 0, 32, false⟩
/-- Field `FPA_FRAME_T_T`. -/
def F.FPA_FRAME_T_T : Fld := ⟨0x04030, 0x0, 1, 0, 64, true⟩
/-- Field `FPA_GEN_CUR_GEN`. -/
def F.FPA_GEN_CUR_GEN : Fld := ⟨0x04008, 0x0, 1, 0, 32, false⟩
/-- Field `FPA_GEN_PEND_GEN`. -/
def F.FPA_GEN_PEND_GEN : Fld := ⟨0x0400C, 0x0, 1, 0, 32, false⟩
/-- Field `FPA_HEATER_DUTY`. -/
def F.FPA_HEATER_DUTY : Fld := ⟨0x04094, 0x0, 1, 0, 16, false⟩
/-- Field `FPA_HEATER_POWER`. -/
def F.FPA_HEATER_POWER : Fld := ⟨0x04094, 0x0, 1, 16, 10, false⟩
/-- Field `FPA_LINK_LOST_CNT`. -/
def F.FPA_LINK_LOST_CNT : Fld := ⟨0x04040, 0x0, 1, 0, 32, false⟩
/-- Field `FPA_STAGE_CTL_AUTO_STEP`. -/
def F.FPA_STAGE_CTL_AUTO_STEP : Fld := ⟨0x04080, 0x0, 1, 4, 1, false⟩
/-- Field `FPA_STAGE_CTL_MODE`. -/
def F.FPA_STAGE_CTL_MODE : Fld := ⟨0x04080, 0x0, 1, 0, 1, false⟩
/-- Field `FPA_STAGE_CTL_SETPOINT`. -/
def F.FPA_STAGE_CTL_SETPOINT : Fld := ⟨0x04080, 0x0, 1, 1, 3, false⟩
/-- Field `FPA_STAGE_RATE_RATE`. -/
def F.FPA_STAGE_RATE_RATE : Fld := ⟨0x0408C, 0x0, 1, 0, 32, false⟩
/-- Field `FPA_STAGE_STAT_DIODE_EXCL`. -/
def F.FPA_STAGE_STAT_DIODE_EXCL : Fld := ⟨0x04084, 0x0, 1, 10, 4, false⟩
/-- Field `FPA_STAGE_STAT_MARGIN_LOW`. -/
def F.FPA_STAGE_STAT_MARGIN_LOW : Fld := ⟨0x04084, 0x0, 1, 9, 1, false⟩
/-- Field `FPA_STAGE_STAT_MODE_ACTIVE`. -/
def F.FPA_STAGE_STAT_MODE_ACTIVE : Fld := ⟨0x04084, 0x0, 1, 7, 1, false⟩
/-- Field `FPA_STAGE_STAT_OVER_TEMP`. -/
def F.FPA_STAGE_STAT_OVER_TEMP : Fld := ⟨0x04084, 0x0, 1, 14, 1, false⟩
/-- Field `FPA_STAGE_STAT_SP_ACTIVE`. -/
def F.FPA_STAGE_STAT_SP_ACTIVE : Fld := ⟨0x04084, 0x0, 1, 4, 3, false⟩
/-- Field `FPA_STAGE_STAT_STAGE_REG`. -/
def F.FPA_STAGE_STAT_STAGE_REG : Fld := ⟨0x04084, 0x0, 1, 3, 1, false⟩
/-- Field `FPA_STAGE_STAT_STATE`. -/
def F.FPA_STAGE_STAT_STATE : Fld := ⟨0x04084, 0x0, 1, 0, 3, false⟩
/-- Field `FPA_STAGE_STAT_STEP_PENDING`. -/
def F.FPA_STAGE_STAT_STEP_PENDING : Fld := ⟨0x04084, 0x0, 1, 8, 1, false⟩
/-- Field `FPA_STAGE_STAT_STEP_REFUSED`. -/
def F.FPA_STAGE_STAT_STEP_REFUSED : Fld := ⟨0x04084, 0x0, 1, 15, 1, false⟩
/-- Field `FPA_STAGE_TEMP_T`. -/
def F.FPA_STAGE_TEMP_T : Fld := ⟨0x04088, 0x0, 1, 0, 32, false⟩
/-- Field `FPA_STAT_ACTIVE_SET`. -/
def F.FPA_STAT_ACTIVE_SET : Fld := ⟨0x04004, 0x0, 1, 3, 2, false⟩
/-- Field `FPA_STAT_BIAS_READY`. -/
def F.FPA_STAT_BIAS_READY : Fld := ⟨0x04004, 0x0, 1, 1, 1, false⟩
/-- Field `FPA_STAT_PENDING`. -/
def F.FPA_STAT_PENDING : Fld := ⟨0x04004, 0x0, 1, 2, 1, false⟩
/-- Field `FPA_STAT_PENDING_SET`. -/
def F.FPA_STAT_PENDING_SET : Fld := ⟨0x04004, 0x0, 1, 5, 2, false⟩
/-- Field `FPA_STAT_RUNNING`. -/
def F.FPA_STAT_RUNNING : Fld := ⟨0x04004, 0x0, 1, 0, 1, false⟩
/-- Field `FPA_STAT_SUBST_OPEN`. -/
def F.FPA_STAT_SUBST_OPEN : Fld := ⟨0x04004, 0x0, 1, 7, 1, false⟩
/-- Field `FPA_TD_T`. -/
def F.FPA_TD_T : Fld := ⟨0x040A0, 0x4, 4, 0, 32, false⟩
/-- Field `FPA_TRIG_MISS_CNT`. -/
def F.FPA_TRIG_MISS_CNT : Fld := ⟨0x0403C, 0x0, 1, 0, 32, false⟩
/-- Field `HEALTH_CTL_EVT_RING`. -/
def F.HEALTH_CTL_EVT_RING : Fld := ⟨0x30000, 0x0, 1, 1, 1, false⟩
/-- Field `HEALTH_CTL_RATE`. -/
def F.HEALTH_CTL_RATE : Fld := ⟨0x30000, 0x0, 1, 8, 8, false⟩
/-- Field `HEALTH_CTL_TEST_EN`. -/
def F.HEALTH_CTL_TEST_EN : Fld := ⟨0x30000, 0x0, 1, 0, 1, false⟩
/-- Field `HEALTH_EVT_LOST_VAL`. -/
def F.HEALTH_EVT_LOST_VAL : Fld := ⟨0x3000C, 0x0, 1, 0, 32, false⟩
/-- Field `HEALTH_EVT_SEQ_VAL`. -/
def F.HEALTH_EVT_SEQ_VAL : Fld := ⟨0x30008, 0x0, 1, 0, 32, false⟩
/-- Field `HEALTH_FAULT_MASK_MAP`. -/
def F.HEALTH_FAULT_MASK_MAP : Fld := ⟨0x30010, 0x0, 1, 0, 16, false⟩
/-- Field `HEALTH_FAULT_SRC_MAP`. -/
def F.HEALTH_FAULT_SRC_MAP : Fld := ⟨0x30014, 0x0, 1, 0, 16, false⟩
/-- Field `HEALTH_LASTING_CNT`. -/
def F.HEALTH_LASTING_CNT : Fld := ⟨0x3002C, 0x0, 1, 0, 32, false⟩
/-- Field `HEALTH_MON_MGN_MGN`. -/
def F.HEALTH_MON_MGN_MGN : Fld := ⟨0x30204, 0x8, 12, 0, 14, false⟩
/-- Field `HEALTH_MON_VAL_VAL`. -/
def F.HEALTH_MON_VAL_VAL : Fld := ⟨0x30200, 0x8, 12, 0, 32, false⟩
/-- Field `HEALTH_MP_CTL_APPLY`. -/
def F.HEALTH_MP_CTL_APPLY : Fld := ⟨0x30300, 0x0, 1, 0, 5, false⟩
/-- Field `HEALTH_MP_CTL_PERIOD_H`. -/
def F.HEALTH_MP_CTL_PERIOD_H : Fld := ⟨0x30300, 0x0, 1, 16, 16, false⟩
/-- Field `HEALTH_MP_LAST_H`. -/
def F.HEALTH_MP_LAST_H : Fld := ⟨0x30308, 0x0, 1, 0, 32, false⟩
/-- Field `HEALTH_MP_LIFE_H`. -/
def F.HEALTH_MP_LIFE_H : Fld := ⟨0x3030C, 0x0, 1, 0, 32, false⟩
/-- Field `HEALTH_MP_LIMIT_SUBSYS`. -/
def F.HEALTH_MP_LIMIT_SUBSYS : Fld := ⟨0x30310, 0x0, 1, 0, 4, false⟩
/-- Field `HEALTH_MP_MARGIN_MGN`. -/
def F.HEALTH_MP_MARGIN_MGN : Fld := ⟨0x30320, 0x4, 16, 0, 14, false⟩
/-- Field `HEALTH_MP_STAT_APPLIED`. -/
def F.HEALTH_MP_STAT_APPLIED : Fld := ⟨0x30304, 0x0, 1, 3, 5, false⟩
/-- Field `HEALTH_MP_STAT_RADIO_PEND`. -/
def F.HEALTH_MP_STAT_RADIO_PEND : Fld := ⟨0x30304, 0x0, 1, 8, 1, false⟩
/-- Field `HEALTH_MP_STAT_RUNS`. -/
def F.HEALTH_MP_STAT_RUNS : Fld := ⟨0x30304, 0x0, 1, 16, 16, false⟩
/-- Field `HEALTH_MP_STAT_STATE`. -/
def F.HEALTH_MP_STAT_STATE : Fld := ⟨0x30304, 0x0, 1, 0, 3, false⟩
/-- Field `HEALTH_MP_TINT_T_INT`. -/
def F.HEALTH_MP_TINT_T_INT : Fld := ⟨0x3031C, 0x0, 1, 0, 13, false⟩
/-- Field `HEALTH_MP_VCORE_STEPS`. -/
def F.HEALTH_MP_VCORE_STEPS : Fld := ⟨0x30318, 0x0, 1, 0, 4, false⟩
/-- Field `HEALTH_MP_WARN_H`. -/
def F.HEALTH_MP_WARN_H : Fld := ⟨0x30314, 0x0, 1, 0, 32, false⟩
/-- Field `HEALTH_POLICY_POLICY0`. -/
def F.HEALTH_POLICY_POLICY0 : Fld := ⟨0x30020, 0x0, 1, 0, 3, false⟩
/-- Field `HEALTH_POLICY_POLICY1`. -/
def F.HEALTH_POLICY_POLICY1 : Fld := ⟨0x30020, 0x0, 1, 4, 3, false⟩
/-- Field `HEALTH_RC_CTL_PERIOD`. -/
def F.HEALTH_RC_CTL_PERIOD : Fld := ⟨0x30080, 0x0, 1, 0, 8, false⟩
/-- Field `HEALTH_RC_DF`. -/
def F.HEALTH_RC_DF : Fld := ⟨0x30100, 0x4, 24, 0, 32, false⟩
/-- Field `HEALTH_REPAIRS_CNT`. -/
def F.HEALTH_REPAIRS_CNT : Fld := ⟨0x30030, 0x0, 1, 0, 32, false⟩
/-- Field `HEALTH_STAT_FAULT`. -/
def F.HEALTH_STAT_FAULT : Fld := ⟨0x30004, 0x0, 1, 17, 1, false⟩
/-- Field `HEALTH_STAT_FULL`. -/
def F.HEALTH_STAT_FULL : Fld := ⟨0x30004, 0x0, 1, 16, 1, false⟩
/-- Field `HEALTH_STAT_RUNNING`. -/
def F.HEALTH_STAT_RUNNING : Fld := ⟨0x30004, 0x0, 1, 0, 16, false⟩
/-- Field `HEALTH_STAT_WORST`. -/
def F.HEALTH_STAT_WORST : Fld := ⟨0x30004, 0x0, 1, 18, 2, false⟩
/-- Field `HEALTH_STOPS_VAL`. -/
def F.HEALTH_STOPS_VAL : Fld := ⟨0x30384, 0x0, 1, 0, 32, false⟩
/-- Field `HEALTH_STOP_MAX_VAL`. -/
def F.HEALTH_STOP_MAX_VAL : Fld := ⟨0x30380, 0x0, 1, 0, 32, false⟩
/-- Field `HEALTH_ST_RESULT_COUNT`. -/
def F.HEALTH_ST_RESULT_COUNT : Fld := ⟨0x30040, 0x0, 1, 16, 16, false⟩
/-- Field `HEALTH_ST_RESULT_FAIL`. -/
def F.HEALTH_ST_RESULT_FAIL : Fld := ⟨0x30040, 0x0, 1, 0, 16, false⟩
/-- Field `HEALTH_ST_T_T`. -/
def F.HEALTH_ST_T_T : Fld := ⟨0x30048, 0x0, 1, 0, 64, true⟩
/-- Field `HEALTH_TESTS_CNT`. -/
def F.HEALTH_TESTS_CNT : Fld := ⟨0x30024, 0x0, 1, 0, 32, false⟩
/-- Field `HEALTH_TEST_DROP_CNT`. -/
def F.HEALTH_TEST_DROP_CNT : Fld := ⟨0x30034, 0x0, 1, 0, 32, false⟩
/-- Field `HEALTH_TRANSIENT_CNT`. -/
def F.HEALTH_TRANSIENT_CNT : Fld := ⟨0x30028, 0x0, 1, 0, 32, false⟩
/-- Field `HEALTH_TRIM_MAX_STEPS`. -/
def F.HEALTH_TRIM_MAX_STEPS : Fld := ⟨0x3001C, 0x0, 1, 0, 4, false⟩
/-- Field `HEALTH_VERDICT_N`. -/
def F.HEALTH_VERDICT_N : Fld := ⟨0x30018, 0x0, 1, 0, 8, false⟩
/-- Field `HEALTH_VERDICT_W_H`. -/
def F.HEALTH_VERDICT_W_H : Fld := ⟨0x30018, 0x0, 1, 8, 16, false⟩
/-- Field `HOST_CTL_BACKOFF`. -/
def F.HOST_CTL_BACKOFF : Fld := ⟨0x20000, 0x0, 1, 8, 8, false⟩
/-- Field `HOST_CTL_ERR_VEC`. -/
def F.HOST_CTL_ERR_VEC : Fld := ⟨0x20000, 0x0, 1, 16, 5, false⟩
/-- Field `HOST_CTL_RETRY`. -/
def F.HOST_CTL_RETRY : Fld := ⟨0x20000, 0x0, 1, 1, 3, false⟩
/-- Field `HOST_CTL_RO`. -/
def F.HOST_CTL_RO : Fld := ⟨0x20000, 0x0, 1, 0, 1, false⟩
/-- Field `HOST_CTL_WIDTH_MAX`. -/
def F.HOST_CTL_WIDTH_MAX : Fld := ⟨0x20000, 0x0, 1, 24, 2, false⟩
/-- Field `HOST_DB_IGNORED_CNT`. -/
def F.HOST_DB_IGNORED_CNT : Fld := ⟨0x2002C, 0x0, 1, 0, 32, false⟩
/-- Field `HOST_DMA_FAIL_ADDR_ADDR`. -/
def F.HOST_DMA_FAIL_ADDR_ADDR : Fld := ⟨0x2020C, 0x20, 8, 0, 64, true⟩
/-- Field `HOST_DMA_RETRIES_CNT`. -/
def F.HOST_DMA_RETRIES_CNT : Fld := ⟨0x20208, 0x20, 8, 0, 32, false⟩
/-- Field `HOST_DMA_STAT_HALT`. -/
def F.HOST_DMA_STAT_HALT : Fld := ⟨0x20204, 0x20, 8, 4, 4, false⟩
/-- Field `HOST_DMA_STAT_RING`. -/
def F.HOST_DMA_STAT_RING : Fld := ⟨0x20204, 0x20, 8, 8, 4, false⟩
/-- Field `HOST_DMA_STAT_STATE`. -/
def F.HOST_DMA_STAT_STATE : Fld := ⟨0x20204, 0x20, 8, 0, 2, false⟩
/-- Field `HOST_ERR_STAT_BAD_ACCESS`. -/
def F.HOST_ERR_STAT_BAD_ACCESS : Fld := ⟨0x20018, 0x0, 1, 8, 1, false⟩
/-- Field `HOST_ERR_STAT_DB_BACK`. -/
def F.HOST_ERR_STAT_DB_BACK : Fld := ⟨0x20018, 0x0, 1, 0, 1, false⟩
/-- Field `HOST_ERR_STAT_DB_DISABLED`. -/
def F.HOST_ERR_STAT_DB_DISABLED : Fld := ⟨0x20018, 0x0, 1, 2, 1, false⟩
/-- Field `HOST_ERR_STAT_DB_OVERRUN`. -/
def F.HOST_ERR_STAT_DB_OVERRUN : Fld := ⟨0x20018, 0x0, 1, 1, 1, false⟩
/-- Field `HOST_ERR_STAT_DESC_BAD`. -/
def F.HOST_ERR_STAT_DESC_BAD : Fld := ⟨0x20018, 0x0, 1, 6, 1, false⟩
/-- Field `HOST_ERR_STAT_FLR`. -/
def F.HOST_ERR_STAT_FLR : Fld := ⟨0x20018, 0x0, 1, 5, 1, false⟩
/-- Field `HOST_ERR_STAT_LINK_DOWN`. -/
def F.HOST_ERR_STAT_LINK_DOWN : Fld := ⟨0x20018, 0x0, 1, 4, 1, false⟩
/-- Field `HOST_ERR_STAT_REC_TOO_BIG`. -/
def F.HOST_ERR_STAT_REC_TOO_BIG : Fld := ⟨0x20018, 0x0, 1, 7, 1, false⟩
/-- Field `HOST_ERR_STAT_UNEXP_CPL`. -/
def F.HOST_ERR_STAT_UNEXP_CPL : Fld := ⟨0x20018, 0x0, 1, 3, 1, false⟩
/-- Field `HOST_IDX_BASE_ADDR`. -/
def F.HOST_IDX_BASE_ADDR : Fld := ⟨0x20008, 0x0, 1, 8, 56, true⟩
/-- Field `HOST_LINK_DOWNS_CNT`. -/
def F.HOST_LINK_DOWNS_CNT : Fld := ⟨0x20020, 0x0, 1, 0, 32, false⟩
/-- Field `HOST_PTM_CTL_EN`. -/
def F.HOST_PTM_CTL_EN : Fld := ⟨0x20040, 0x0, 1, 0, 1, false⟩
/-- Field `HOST_PTM_CTL_PERIOD`. -/
def F.HOST_PTM_CTL_PERIOD : Fld := ⟨0x20040, 0x0, 1, 8, 8, false⟩
/-- Field `HOST_PTM_K_VAL`. -/
def F.HOST_PTM_K_VAL : Fld := ⟨0x20060, 0x0, 1, 0, 64, true⟩
/-- Field `HOST_PTM_M_VAL`. -/
def F.HOST_PTM_M_VAL : Fld := ⟨0x20058, 0x0, 1, 0, 64, true⟩
/-- Field `HOST_PTM_OFS_OFS`. -/
def F.HOST_PTM_OFS_OFS : Fld := ⟨0x20048, 0x0, 1, 0, 32, false⟩
/-- Field `HOST_PTM_STAT_FAILS`. -/
def F.HOST_PTM_STAT_FAILS : Fld := ⟨0x20044, 0x0, 1, 16, 16, false⟩
/-- Field `HOST_PTM_STAT_HOLDOVER`. -/
def F.HOST_PTM_STAT_HOLDOVER : Fld := ⟨0x20044, 0x0, 1, 2, 1, false⟩
/-- Field `HOST_PTM_STAT_LOCKED`. -/
def F.HOST_PTM_STAT_LOCKED : Fld := ⟨0x20044, 0x0, 1, 1, 1, false⟩
/-- Field `HOST_PTM_STAT_VALID`. -/
def F.HOST_PTM_STAT_VALID : Fld := ⟨0x20044, 0x0, 1, 0, 1, false⟩
/-- Field `HOST_PTM_T_VAL`. -/
def F.HOST_PTM_T_VAL : Fld := ⟨0x20050, 0x0, 1, 0, 64, true⟩
/-- Field `HOST_RETRAINS_CNT`. -/
def F.HOST_RETRAINS_CNT : Fld := ⟨0x20024, 0x0, 1, 0, 32, false⟩
/-- Field `HOST_RING_BASE_ADDR`. -/
def F.HOST_RING_BASE_ADDR : Fld := ⟨0x20400, 0x40, 16, 12, 52, true⟩
/-- Field `HOST_RING_CTL_DMA`. -/
def F.HOST_RING_CTL_DMA : Fld := ⟨0x2040C, 0x40, 16, 8, 3, false⟩
/-- Field `HOST_RING_CTL_EN`. -/
def F.HOST_RING_CTL_EN : Fld := ⟨0x2040C, 0x40, 16, 0, 1, false⟩
/-- Field `HOST_RING_CTL_FUNC`. -/
def F.HOST_RING_CTL_FUNC : Fld := ⟨0x2040C, 0x40, 16, 11, 4, false⟩
/-- Field `HOST_RING_CTL_HOLD`. -/
def F.HOST_RING_CTL_HOLD : Fld := ⟨0x2040C, 0x40, 16, 16, 8, false⟩
/-- Field `HOST_RING_CTL_IRQ_ALL`. -/
def F.HOST_RING_CTL_IRQ_ALL : Fld := ⟨0x2040C, 0x40, 16, 2, 1, false⟩
/-- Field `HOST_RING_CTL_VECTOR`. -/
def F.HOST_RING_CTL_VECTOR : Fld := ⟨0x2040C, 0x40, 16, 3, 5, false⟩
/-- Field `HOST_RING_DROP_VAL`. -/
def F.HOST_RING_DROP_VAL : Fld := ⟨0x2041C, 0x40, 16, 0, 32, false⟩
/-- Field `HOST_RING_HIDX_VAL`. -/
def F.HOST_RING_HIDX_VAL : Fld := ⟨0x20414, 0x40, 16, 0, 32, false⟩
/-- Field `HOST_RING_MIDX_VAL`. -/
def F.HOST_RING_MIDX_VAL : Fld := ⟨0x20418, 0x40, 16, 0, 32, false⟩
/-- Field `HOST_RING_SIZE_LOG2`. -/
def F.HOST_RING_SIZE_LOG2 : Fld := ⟨0x20408, 0x40, 16, 0, 5, false⟩
/-- Field `HOST_RING_STAT_ERR`. -/
def F.HOST_RING_STAT_ERR : Fld := ⟨0x20410, 0x40, 16, 2, 4, false⟩
/-- Field `HOST_RING_STAT_PREFETCH`. -/
def F.HOST_RING_STAT_PREFETCH : Fld := ⟨0x20410, 0x40, 16, 8, 8, false⟩
/-- Field `HOST_RING_STAT_STATE`. -/
def F.HOST_RING_STAT_STATE : Fld := ⟨0x20410, 0x40, 16, 0, 2, false⟩
/-- Field `HOST_STAT_BME`. -/
def F.HOST_STAT_BME : Fld := ⟨0x20004, 0x0, 1, 7, 1, false⟩
/-- Field `HOST_STAT_D3HOT`. -/
def F.HOST_STAT_D3HOT : Fld := ⟨0x20004, 0x0, 1, 8, 1, false⟩
/-- Field `HOST_STAT_ECRC_CHK`. -/
def F.HOST_STAT_ECRC_CHK : Fld := ⟨0x20004, 0x0, 1, 11, 1, false⟩
/-- Field `HOST_STAT_ECRC_GEN`. -/
def F.HOST_STAT_ECRC_GEN : Fld := ⟨0x20004, 0x0, 1, 10, 1, false⟩
/-- Field `HOST_STAT_LINK_UP`. -/
def F.HOST_STAT_LINK_UP : Fld := ⟨0x20004, 0x0, 1, 0, 1, false⟩
/-- Field `HOST_STAT_PTM_EN`. -/
def F.HOST_STAT_PTM_EN : Fld := ⟨0x20004, 0x0, 1, 9, 1, false⟩
/-- Field `HOST_STAT_RETRAINING`. -/
def F.HOST_STAT_RETRAINING : Fld := ⟨0x20004, 0x0, 1, 12, 1, false⟩
/-- Field `HOST_STAT_SPEED`. -/
def F.HOST_STAT_SPEED : Fld := ⟨0x20004, 0x0, 1, 1, 3, false⟩
/-- Field `HOST_STAT_WIDTH`. -/
def F.HOST_STAT_WIDTH : Fld := ⟨0x20004, 0x0, 1, 4, 3, false⟩
/-- Field `HOST_STRIP_MAP_MAP`. -/
def F.HOST_STRIP_MAP_MAP : Fld := ⟨0x20010, 0x0, 1, 0, 64, true⟩
/-- Field `HOST_UNEXP_CPL_CNT`. -/
def F.HOST_UNEXP_CPL_CNT : Fld := ⟨0x20028, 0x0, 1, 0, 32, false⟩
/-- Field `HOST_VEC_MOD_MIN_GAP`. -/
def F.HOST_VEC_MOD_MIN_GAP : Fld := ⟨0x20100, 0x4, 32, 0, 10, false⟩
/-- Field `IO_CONFLICT_CNT_CNT`. -/
def F.IO_CONFLICT_CNT_CNT : Fld := ⟨0x38084, 0x0, 1, 0, 32, false⟩
/-- Field `IO_CONFLICT_LOSER`. -/
def F.IO_CONFLICT_LOSER : Fld := ⟨0x38080, 0x0, 1, 8, 8, false⟩
/-- Field `IO_CONFLICT_RESOURCE`. -/
def F.IO_CONFLICT_RESOURCE : Fld := ⟨0x38080, 0x0, 1, 0, 8, false⟩
/-- Field `IO_CONFLICT_VALID`. -/
def F.IO_CONFLICT_VALID : Fld := ⟨0x38080, 0x0, 1, 16, 1, false⟩
/-- Field `IO_GP_CFG_FUNC`. -/
def F.IO_GP_CFG_FUNC : Fld := ⟨0x38060, 0x4, 8, 0, 4, false⟩
/-- Field `IO_GP_CFG_INV`. -/
def F.IO_GP_CFG_INV : Fld := ⟨0x38060, 0x4, 8, 4, 1, false⟩
/-- Field `IO_GP_CFG_TSEL`. -/
def F.IO_GP_CFG_TSEL : Fld := ⟨0x38060, 0x4, 8, 5, 3, false⟩
/-- Field `IO_GP_OUT_LEVEL`. -/
def F.IO_GP_OUT_LEVEL : Fld := ⟨0x38048, 0x0, 1, 0, 8, false⟩
/-- Field `IO_PIN_CFG_ALARM_POL`. -/
def F.IO_PIN_CFG_ALARM_POL : Fld := ⟨0x38040, 0x0, 1, 2, 4, false⟩
/-- Field `IO_PIN_CFG_FILT`. -/
def F.IO_PIN_CFG_FILT : Fld := ⟨0x38040, 0x0, 1, 6, 2, false⟩
/-- Field `IO_PIN_CFG_GLADE_IN_POL`. -/
def F.IO_PIN_CFG_GLADE_IN_POL : Fld := ⟨0x38040, 0x0, 1, 0, 1, false⟩
/-- Field `IO_PIN_CFG_GLADE_OUT_POL`. -/
def F.IO_PIN_CFG_GLADE_OUT_POL : Fld := ⟨0x38040, 0x0, 1, 1, 1, false⟩
/-- Field `IO_PIN_IN_GLADE_IN`. -/
def F.IO_PIN_IN_GLADE_IN : Fld := ⟨0x38044, 0x0, 1, 0, 1, false⟩
/-- Field `IO_PIN_IN_SHUT_POS0`. -/
def F.IO_PIN_IN_SHUT_POS0 : Fld := ⟨0x38044, 0x0, 1, 3, 1, false⟩
/-- Field `IO_PIN_IN_SHUT_POS1`. -/
def F.IO_PIN_IN_SHUT_POS1 : Fld := ⟨0x38044, 0x0, 1, 4, 1, false⟩
/-- Field `IO_PIN_IN_TIME_IN`. -/
def F.IO_PIN_IN_TIME_IN : Fld := ⟨0x38044, 0x0, 1, 2, 1, false⟩
/-- Field `IO_PIN_IN_TRIG_IN`. -/
def F.IO_PIN_IN_TRIG_IN : Fld := ⟨0x38044, 0x0, 1, 1, 1, false⟩
/-- Field `IO_TIME_CNT_CNT`. -/
def F.IO_TIME_CNT_CNT : Fld := ⟨0x380B8, 0x0, 1, 0, 32, false⟩
/-- Field `IO_TIME_CTL_EN`. -/
def F.IO_TIME_CTL_EN : Fld := ⟨0x380A0, 0x0, 1, 0, 1, false⟩
/-- Field `IO_TIME_EDGE_T`. -/
def F.IO_TIME_EDGE_T : Fld := ⟨0x380A8, 0x0, 1, 0, 64, true⟩
/-- Field `IO_TIME_K_T`. -/
def F.IO_TIME_K_T : Fld := ⟨0x380B0, 0x0, 1, 0, 64, true⟩
/-- Field `IO_TIME_REJ_CNT`. -/
def F.IO_TIME_REJ_CNT : Fld := ⟨0x380BC, 0x0, 1, 0, 32, false⟩
/-- Field `IO_TIME_STAT_HOLDOVER`. -/
def F.IO_TIME_STAT_HOLDOVER : Fld := ⟨0x380A4, 0x0, 1, 1, 1, false⟩
/-- Field `IO_TIME_STAT_LOCKED`. -/
def F.IO_TIME_STAT_LOCKED : Fld := ⟨0x380A4, 0x0, 1, 0, 1, false⟩
/-- Field `LINK_ENC_AGE_VAL`. -/
def F.LINK_ENC_AGE_VAL : Fld := ⟨0x18248, 0x0, 1, 0, 32, false⟩
/-- Field `LINK_ENC_CTL_TX_EN`. -/
def F.LINK_ENC_CTL_TX_EN : Fld := ⟨0x18240, 0x0, 1, 0, 1, false⟩
/-- Field `LINK_ENC_CTL_WAIT`. -/
def F.LINK_ENC_CTL_WAIT : Fld := ⟨0x18240, 0x0, 1, 8, 8, false⟩
/-- Field `LINK_ENC_EXTRAP_VAL`. -/
def F.LINK_ENC_EXTRAP_VAL : Fld := ⟨0x1824C, 0x0, 1, 0, 32, false⟩
/-- Field `LINK_ENC_GAP_VAL`. -/
def F.LINK_ENC_GAP_VAL : Fld := ⟨0x18250, 0x0, 1, 0, 32, false⟩
/-- Field `LINK_ENC_STAT_EXTRAP`. -/
def F.LINK_ENC_STAT_EXTRAP : Fld := ⟨0x18244, 0x0, 1, 7, 1, false⟩
/-- Field `LINK_ENC_STAT_LOSS`. -/
def F.LINK_ENC_STAT_LOSS : Fld := ⟨0x18244, 0x0, 1, 8, 1, false⟩
/-- Field `LINK_ENC_STAT_SRC_SLOT`. -/
def F.LINK_ENC_STAT_SRC_SLOT : Fld := ⟨0x18244, 0x0, 1, 0, 6, false⟩
/-- Field `LINK_ENC_STAT_VALID`. -/
def F.LINK_ENC_STAT_VALID : Fld := ⟨0x18244, 0x0, 1, 6, 1, false⟩
/-- Field `LINK_HP_CTL_MODE`. -/
def F.LINK_HP_CTL_MODE : Fld := ⟨0x18000, 0x0, 1, 0, 2, false⟩
/-- Field `LINK_HP_CTL_RING_EN`. -/
def F.LINK_HP_CTL_RING_EN : Fld := ⟨0x18000, 0x0, 1, 2, 1, false⟩
/-- Field `LINK_HP_STAT_MODE_ACT`. -/
def F.LINK_HP_STAT_MODE_ACT : Fld := ⟨0x18004, 0x0, 1, 0, 2, false⟩
/-- Field `LINK_HP_STAT_ROLE0`. -/
def F.LINK_HP_STAT_ROLE0 : Fld := ⟨0x18004, 0x0, 1, 2, 1, false⟩
/-- Field `LINK_HP_STAT_ROLE1`. -/
def F.LINK_HP_STAT_ROLE1 : Fld := ⟨0x18004, 0x0, 1, 3, 1, false⟩
/-- Field `LINK_HP_STAT_SWITCHING`. -/
def F.LINK_HP_STAT_SWITCHING : Fld := ⟨0x18004, 0x0, 1, 4, 1, false⟩
/-- Field `LINK_P_ASYM_ASYM`. -/
def F.LINK_P_ASYM_ASYM : Fld := ⟨0x1812C, 0x40, 3, 0, 32, false⟩
/-- Field `LINK_P_CORR_CNT`. -/
def F.LINK_P_CORR_CNT : Fld := ⟨0x18114, 0x40, 3, 0, 32, false⟩
/-- Field `LINK_P_CTL_EN`. -/
def F.LINK_P_CTL_EN : Fld := ⟨0x18100, 0x40, 3, 0, 1, false⟩
/-- Field `LINK_P_CTL_LANE_EN`. -/
def F.LINK_P_CTL_LANE_EN : Fld := ⟨0x18100, 0x40, 3, 4, 4, false⟩
/-- Field `LINK_P_CTL_MIN_LANES`. -/
def F.LINK_P_CTL_MIN_LANES : Fld := ⟨0x18100, 0x40, 3, 1, 3, false⟩
/-- Field `LINK_P_DELAY_D`. -/
def F.LINK_P_DELAY_D : Fld := ⟨0x18128, 0x40, 3, 0, 32, false⟩
/-- Field `LINK_P_DROP_CNT`. -/
def F.LINK_P_DROP_CNT : Fld := ⟨0x18124, 0x40, 3, 0, 32, false⟩
/-- Field `LINK_P_LANE0_BLOCK_ERR`. -/
def F.LINK_P_LANE0_BLOCK_ERR : Fld := ⟨0x18130, 0x40, 3, 16, 16, false⟩
/-- Field `LINK_P_LANE0_CORR_SYM`. -/
def F.LINK_P_LANE0_CORR_SYM : Fld := ⟨0x18130, 0x40, 3, 0, 16, false⟩
/-- Field `LINK_P_LANE1_BLOCK_ERR`. -/
def F.LINK_P_LANE1_BLOCK_ERR : Fld := ⟨0x18134, 0x40, 3, 16, 16, false⟩
/-- Field `LINK_P_LANE1_CORR_SYM`. -/
def F.LINK_P_LANE1_CORR_SYM : Fld := ⟨0x18134, 0x40, 3, 0, 16, false⟩
/-- Field `LINK_P_LANE2_BLOCK_ERR`. -/
def F.LINK_P_LANE2_BLOCK_ERR : Fld := ⟨0x18138, 0x40, 3, 16, 16, false⟩
/-- Field `LINK_P_LANE2_CORR_SYM`. -/
def F.LINK_P_LANE2_CORR_SYM : Fld := ⟨0x18138, 0x40, 3, 0, 16, false⟩
/-- Field `LINK_P_LANE3_BLOCK_ERR`. -/
def F.LINK_P_LANE3_BLOCK_ERR : Fld := ⟨0x1813C, 0x40, 3, 16, 16, false⟩
/-- Field `LINK_P_LANE3_CORR_SYM`. -/
def F.LINK_P_LANE3_CORR_SYM : Fld := ⟨0x1813C, 0x40, 3, 0, 16, false⟩
/-- Field `LINK_P_NBR_ID`. -/
def F.LINK_P_NBR_ID : Fld := ⟨0x18108, 0x40, 3, 0, 64, true⟩
/-- Field `LINK_P_NBR_INFO_EPOCH`. -/
def F.LINK_P_NBR_INFO_EPOCH : Fld := ⟨0x18110, 0x40, 3, 8, 8, false⟩
/-- Field `LINK_P_NBR_INFO_PORT`. -/
def F.LINK_P_NBR_INFO_PORT : Fld := ⟨0x18110, 0x40, 3, 6, 2, false⟩
/-- Field `LINK_P_NBR_INFO_SLOT`. -/
def F.LINK_P_NBR_INFO_SLOT : Fld := ⟨0x18110, 0x40, 3, 0, 6, false⟩
/-- Field `LINK_P_SEQGAP_CNT`. -/
def F.LINK_P_SEQGAP_CNT : Fld := ⟨0x18120, 0x40, 3, 0, 32, false⟩
/-- Field `LINK_P_STALE_CNT`. -/
def F.LINK_P_STALE_CNT : Fld := ⟨0x1811C, 0x40, 3, 0, 32, false⟩
/-- Field `LINK_P_STAT_DEGRADED`. -/
def F.LINK_P_STAT_DEGRADED : Fld := ⟨0x18104, 0x40, 3, 12, 1, false⟩
/-- Field `LINK_P_STAT_LISTED`. -/
def F.LINK_P_STAT_LISTED : Fld := ⟨0x18104, 0x40, 3, 13, 1, false⟩
/-- Field `LINK_P_STAT_MISWIRED`. -/
def F.LINK_P_STAT_MISWIRED : Fld := ⟨0x18104, 0x40, 3, 3, 1, false⟩
/-- Field `LINK_P_STAT_RX_LANES`. -/
def F.LINK_P_STAT_RX_LANES : Fld := ⟨0x18104, 0x40, 3, 4, 4, false⟩
/-- Field `LINK_P_STAT_STATE`. -/
def F.LINK_P_STAT_STATE : Fld := ⟨0x18104, 0x40, 3, 0, 3, false⟩
/-- Field `LINK_P_STAT_TX_LANES`. -/
def F.LINK_P_STAT_TX_LANES : Fld := ⟨0x18104, 0x40, 3, 8, 4, false⟩
/-- Field `LINK_P_UNCORR_CNT`. -/
def F.LINK_P_UNCORR_CNT : Fld := ⟨0x18118, 0x40, 3, 0, 32, false⟩
/-- Field `LINK_REACH_REACH`. -/
def F.LINK_REACH_REACH : Fld := ⟨0x18010, 0x0, 1, 0, 32, false⟩
/-- Field `LINK_REROUTES_CNT`. -/
def F.LINK_REROUTES_CNT : Fld := ⟨0x18018, 0x0, 1, 0, 32, false⟩
/-- Field `LINK_ROUTE_ROUTE`. -/
def F.LINK_ROUTE_ROUTE : Fld := ⟨0x18008, 0x0, 1, 0, 64, true⟩
/-- Field `LINK_ROUTE_VER_CUTS`. -/
def F.LINK_ROUTE_VER_CUTS : Fld := ⟨0x18014, 0x0, 1, 16, 6, false⟩
/-- Field `LINK_ROUTE_VER_VER`. -/
def F.LINK_ROUTE_VER_VER : Fld := ⟨0x18014, 0x0, 1, 0, 16, false⟩
/-- Field `LINK_TS_CTL_INTERVAL`. -/
def F.LINK_TS_CTL_INTERVAL : Fld := ⟨0x18200, 0x0, 1, 8, 8, false⟩
/-- Field `LINK_TS_CTL_SRC`. -/
def F.LINK_TS_CTL_SRC : Fld := ⟨0x18200, 0x0, 1, 0, 2, false⟩
/-- Field `LINK_TS_OFFSET_VAL`. -/
def F.LINK_TS_OFFSET_VAL : Fld := ⟨0x18208, 0x0, 1, 0, 32, false⟩
/-- Field `LINK_TS_RATE_VAL`. -/
def F.LINK_TS_RATE_VAL : Fld := ⟨0x1820C, 0x0, 1, 0, 32, false⟩
/-- Field `LINK_TS_STAT_FOLLOWING`. -/
def F.LINK_TS_STAT_FOLLOWING : Fld := ⟨0x18204, 0x0, 1, 3, 1, false⟩
/-- Field `LINK_TS_STAT_HOLDOVER`. -/
def F.LINK_TS_STAT_HOLDOVER : Fld := ⟨0x18204, 0x0, 1, 1, 1, false⟩
/-- Field `LINK_TS_STAT_HOPS`. -/
def F.LINK_TS_STAT_HOPS : Fld := ⟨0x18204, 0x0, 1, 6, 6, false⟩
/-- Field `LINK_TS_STAT_LOCKED`. -/
def F.LINK_TS_STAT_LOCKED : Fld := ⟨0x18204, 0x0, 1, 0, 1, false⟩
/-- Field `LINK_TS_STAT_PORT`. -/
def F.LINK_TS_STAT_PORT : Fld := ⟨0x18204, 0x0, 1, 4, 2, false⟩
/-- Field `LINK_TS_STAT_STEPPED`. -/
def F.LINK_TS_STAT_STEPPED : Fld := ⟨0x18204, 0x0, 1, 2, 1, false⟩
/-- Field `LINK_TS_STEPS_VAL`. -/
def F.LINK_TS_STEPS_VAL : Fld := ⟨0x18210, 0x0, 1, 0, 32, false⟩
/-- Field `MEM_CTL_ERASE_MAX`. -/
def F.MEM_CTL_ERASE_MAX : Fld := ⟨0x28000, 0x0, 1, 1, 3, false⟩
/-- Field `MEM_CTL_SCRUB_EN`. -/
def F.MEM_CTL_SCRUB_EN : Fld := ⟨0x28000, 0x0, 1, 0, 1, false⟩
/-- Field `MEM_PATH_CORR_VAL`. -/
def F.MEM_PATH_CORR_VAL : Fld := ⟨0x28024, 0x0, 1, 0, 32, false⟩
/-- Field `MEM_PATH_UNCORR_VAL`. -/
def F.MEM_PATH_UNCORR_VAL : Fld := ⟨0x28028, 0x0, 1, 0, 32, false⟩
/-- Field `MEM_QDR0_WIRE_HIGH`. -/
def F.MEM_QDR0_WIRE_HIGH : Fld := ⟨0x28120, 0x4, 18, 16, 16, false⟩
/-- Field `MEM_QDR0_WIRE_LOW`. -/
def F.MEM_QDR0_WIRE_LOW : Fld := ⟨0x28120, 0x4, 18, 0, 16, false⟩
/-- Field `MEM_QDR1_WIRE_HIGH`. -/
def F.MEM_QDR1_WIRE_HIGH : Fld := ⟨0x281A0, 0x4, 18, 16, 16, false⟩
/-- Field `MEM_QDR1_WIRE_LOW`. -/
def F.MEM_QDR1_WIRE_LOW : Fld := ⟨0x281A0, 0x4, 18, 0, 16, false⟩
/-- Field `MEM_QDR2_WIRE_HIGH`. -/
def F.MEM_QDR2_WIRE_HIGH : Fld := ⟨0x28220, 0x4, 18, 16, 16, false⟩
/-- Field `MEM_QDR2_WIRE_LOW`. -/
def F.MEM_QDR2_WIRE_LOW : Fld := ⟨0x28220, 0x4, 18, 0, 16, false⟩
/-- Field `MEM_QDR3_WIRE_HIGH`. -/
def F.MEM_QDR3_WIRE_HIGH : Fld := ⟨0x282A0, 0x4, 18, 16, 16, false⟩
/-- Field `MEM_QDR3_WIRE_LOW`. -/
def F.MEM_QDR3_WIRE_LOW : Fld := ⟨0x282A0, 0x4, 18, 0, 16, false⟩
/-- Field `MEM_QDR_CORR_CNT`. -/
def F.MEM_QDR_CORR_CNT : Fld := ⟨0x28108, 0x80, 4, 0, 32, false⟩
/-- Field `MEM_QDR_ERASE_MASK`. -/
def F.MEM_QDR_ERASE_MASK : Fld := ⟨0x28100, 0x80, 4, 0, 36, true⟩
/-- Field `MEM_QDR_UNCORR_CNT`. -/
def F.MEM_QDR_UNCORR_CNT : Fld := ⟨0x2810C, 0x80, 4, 0, 32, false⟩
/-- Field `MEM_QDR_WBSKIP_CNT`. -/
def F.MEM_QDR_WBSKIP_CNT : Fld := ⟨0x28110, 0x80, 4, 0, 32, false⟩
/-- Field `MEM_SCRUB_STAT_LAST_MS`. -/
def F.MEM_SCRUB_STAT_LAST_MS : Fld := ⟨0x28008, 0x0, 1, 0, 16, false⟩
/-- Field `MEM_SCRUB_STAT_SWEEPS`. -/
def F.MEM_SCRUB_STAT_SWEEPS : Fld := ⟨0x28008, 0x0, 1, 16, 16, false⟩
/-- Field `MEM_STAT_FAILED`. -/
def F.MEM_STAT_FAILED : Fld := ⟨0x28004, 0x0, 1, 4, 4, false⟩
/-- Field `MEM_STAT_SCRUBBING`. -/
def F.MEM_STAT_SCRUBBING : Fld := ⟨0x28004, 0x0, 1, 8, 1, false⟩
/-- Field `MEM_STAT_TRAINED`. -/
def F.MEM_STAT_TRAINED : Fld := ⟨0x28004, 0x0, 1, 0, 4, false⟩
/-- Field `MEM_UNC_ADDR_VAL`. -/
def F.MEM_UNC_ADDR_VAL : Fld := ⟨0x2800C, 0x0, 1, 0, 32, false⟩
/-- Field `PIPE_AC_AGE_AGE`. -/
def F.PIPE_AC_AGE_AGE : Fld := ⟨0x0A0E8, 0x0, 1, 0, 32, false⟩
/-- Field `PIPE_AC_CHANGES_CNT`. -/
def F.PIPE_AC_CHANGES_CNT : Fld := ⟨0x0A0EC, 0x0, 1, 0, 32, false⟩
/-- Field `PIPE_AC_CTL_A_MIN`. -/
def F.PIPE_AC_CTL_A_MIN : Fld := ⟨0x0A0E0, 0x0, 1, 8, 8, false⟩
/-- Field `PIPE_AC_CTL_B_MIN`. -/
def F.PIPE_AC_CTL_B_MIN : Fld := ⟨0x0A0E0, 0x0, 1, 16, 8, false⟩
/-- Field `PIPE_AC_CTL_REQ_CLASS`. -/
def F.PIPE_AC_CTL_REQ_CLASS : Fld := ⟨0x0A0E0, 0x0, 1, 0, 2, false⟩
/-- Field `PIPE_AC_PROOF_T_T`. -/
def F.PIPE_AC_PROOF_T_T : Fld := ⟨0x0A100, 0x0, 1, 0, 64, true⟩
/-- Field `PIPE_AC_REF_TINT_T_INT`. -/
def F.PIPE_AC_REF_TINT_T_INT : Fld := ⟨0x0A108, 0x0, 1, 0, 13, false⟩
/-- Field `PIPE_AC_STAT_CLASS`. -/
def F.PIPE_AC_STAT_CLASS : Fld := ⟨0x0A0E4, 0x0, 1, 0, 2, false⟩
/-- Field `PIPE_AC_STAT_REASON`. -/
def F.PIPE_AC_STAT_REASON : Fld := ⟨0x0A0E4, 0x0, 1, 8, 12, false⟩
/-- Field `PIPE_AC_STAT_TRACKING`. -/
def F.PIPE_AC_STAT_TRACKING : Fld := ⟨0x0A0E4, 0x0, 1, 2, 1, false⟩
/-- Field `PIPE_BU_CTL_BETA`. -/
def F.PIPE_BU_CTL_BETA : Fld := ⟨0x0A000, 0x0, 1, 8, 9, false⟩
/-- Field `PIPE_BU_CTL_EN`. -/
def F.PIPE_BU_CTL_EN : Fld := ⟨0x0A000, 0x0, 1, 0, 1, false⟩
/-- Field `PIPE_BU_CTL_GATE_EN`. -/
def F.PIPE_BU_CTL_GATE_EN : Fld := ⟨0x0A000, 0x0, 1, 1, 1, false⟩
/-- Field `PIPE_BU_GATED_CNT`. -/
def F.PIPE_BU_GATED_CNT : Fld := ⟨0x0A014, 0x0, 1, 0, 23, false⟩
/-- Field `PIPE_BU_GATE_G`. -/
def F.PIPE_BU_GATE_G : Fld := ⟨0x0A004, 0x0, 1, 0, 12, false⟩
/-- Field `PIPE_BU_RESTART_CNT`. -/
def F.PIPE_BU_RESTART_CNT : Fld := ⟨0x0A010, 0x0, 1, 0, 23, false⟩
/-- Field `PIPE_BU_STAT_ALL_RESTART`. -/
def F.PIPE_BU_STAT_ALL_RESTART : Fld := ⟨0x0A00C, 0x0, 1, 23, 1, false⟩
/-- Field `PIPE_BU_STAT_TAU_LOW`. -/
def F.PIPE_BU_STAT_TAU_LOW : Fld := ⟨0x0A00C, 0x0, 1, 0, 23, false⟩
/-- Field `PIPE_BU_TAUDEF_TAU`. -/
def F.PIPE_BU_TAUDEF_TAU : Fld := ⟨0x0A008, 0x0, 1, 0, 10, false⟩
/-- Field `PIPE_BU_TAUMED_TAU`. -/
def F.PIPE_BU_TAUMED_TAU : Fld := ⟨0x0A018, 0x0, 1, 0, 10, false⟩
/-- Field `PIPE_CAP_DONE_CNT`. -/
def F.PIPE_CAP_DONE_CNT : Fld := ⟨0x080C4, 0x0, 1, 0, 32, false⟩
/-- Field `PIPE_CAP_DROP_CNT`. -/
def F.PIPE_CAP_DROP_CNT : Fld := ⟨0x080C8, 0x0, 1, 0, 32, false⟩
/-- Field `PIPE_CAP_DROP_QDR_CNT`. -/
def F.PIPE_CAP_DROP_QDR_CNT : Fld := ⟨0x080CC, 0x0, 1, 0, 32, false⟩
/-- Field `PIPE_CAP_STAT_ACTIVE`. -/
def F.PIPE_CAP_STAT_ACTIVE : Fld := ⟨0x080C0, 0x0, 1, 0, 1, false⟩
/-- Field `PIPE_CAP_STAT_BUF_BUSY`. -/
def F.PIPE_CAP_STAT_BUF_BUSY : Fld := ⟨0x080C0, 0x0, 1, 4, 2, false⟩
/-- Field `PIPE_CAP_STAT_RING`. -/
def F.PIPE_CAP_STAT_RING : Fld := ⟨0x080C0, 0x0, 1, 6, 1, false⟩
/-- Field `PIPE_CAP_STAT_TAP`. -/
def F.PIPE_CAP_STAT_TAP : Fld := ⟨0x080C0, 0x0, 1, 1, 3, false⟩
/-- Field `PIPE_DF_CTL_DRA_EN`. -/
def F.PIPE_DF_CTL_DRA_EN : Fld := ⟨0x0A090, 0x0, 1, 0, 1, false⟩
/-- Field `PIPE_DF_CTL_DRB_EN`. -/
def F.PIPE_DF_CTL_DRB_EN : Fld := ⟨0x0A090, 0x0, 1, 1, 1, false⟩
/-- Field `PIPE_DF_CTL_W`. -/
def F.PIPE_DF_CTL_W : Fld := ⟨0x0A090, 0x0, 1, 8, 8, false⟩
/-- Field `PIPE_DF_MINDT_DT`. -/
def F.PIPE_DF_MINDT_DT : Fld := ⟨0x0A094, 0x0, 1, 0, 16, false⟩
/-- Field `PIPE_DF_MINQ_Q`. -/
def F.PIPE_DF_MINQ_Q : Fld := ⟨0x0A098, 0x0, 1, 0, 16, false⟩
/-- Field `PIPE_DM_CTL_EN`. -/
def F.PIPE_DM_CTL_EN : Fld := ⟨0x0A040, 0x0, 1, 0, 1, false⟩
/-- Field `PIPE_DM_CTL_LEARN`. -/
def F.PIPE_DM_CTL_LEARN : Fld := ⟨0x0A040, 0x0, 1, 1, 1, false⟩
/-- Field `PIPE_DM_CTL_MU`. -/
def F.PIPE_DM_CTL_MU : Fld := ⟨0x0A040, 0x0, 1, 8, 8, false⟩
/-- Field `PIPE_DM_K_K`. -/
def F.PIPE_DM_K_K : Fld := ⟨0x0A050, 0x4, 8, 0, 32, false⟩
/-- Field `PIPE_DM_OFS_DM`. -/
def F.PIPE_DM_OFS_DM : Fld := ⟨0x0A04C, 0x0, 1, 0, 16, false⟩
/-- Field `PIPE_DM_REF_F_REF`. -/
def F.PIPE_DM_REF_F_REF : Fld := ⟨0x0A074, 0x0, 1, 0, 32, false⟩
/-- Field `PIPE_DM_REF_OP_REF`. -/
def F.PIPE_DM_REF_OP_REF : Fld := ⟨0x0A07C, 0x0, 1, 0, 32, false⟩
/-- Field `PIPE_DM_REF_Q_REF`. -/
def F.PIPE_DM_REF_Q_REF : Fld := ⟨0x0A078, 0x0, 1, 0, 32, false⟩
/-- Field `PIPE_DM_REF_T_REF`. -/
def F.PIPE_DM_REF_T_REF : Fld := ⟨0x0A070, 0x0, 1, 0, 32, false⟩
/-- Field `PIPE_DM_RESID_ERR`. -/
def F.PIPE_DM_RESID_ERR : Fld := ⟨0x0A080, 0x0, 1, 0, 32, false⟩
/-- Field `PIPE_DM_STAT_SKIPPED`. -/
def F.PIPE_DM_STAT_SKIPPED : Fld := ⟨0x0A044, 0x0, 1, 5, 1, false⟩
/-- Field `PIPE_DM_STAT_TRUSTED`. -/
def F.PIPE_DM_STAT_TRUSTED : Fld := ⟨0x0A044, 0x0, 1, 0, 1, false⟩
/-- Field `PIPE_DM_STAT_TRUST_CNT`. -/
def F.PIPE_DM_STAT_TRUST_CNT : Fld := ⟨0x0A044, 0x0, 1, 1, 4, false⟩
/-- Field `PIPE_DM_TRUST_LIM`. -/
def F.PIPE_DM_TRUST_LIM : Fld := ⟨0x0A048, 0x0, 1, 0, 16, false⟩
/-- Field `PIPE_DM_TRUST_N`. -/
def F.PIPE_DM_TRUST_N : Fld := ⟨0x0A048, 0x0, 1, 16, 4, false⟩
/-- Field `PIPE_NS_CHDRIFT_MAX`. -/
def F.PIPE_NS_CHDRIFT_MAX : Fld := ⟨0x0800C, 0x0, 1, 0, 16, false⟩
/-- Field `PIPE_NS_CTL_CH_EN`. -/
def F.PIPE_NS_CTL_CH_EN : Fld := ⟨0x08000, 0x0, 1, 1, 1, false⟩
/-- Field `PIPE_NS_CTL_CH_TC`. -/
def F.PIPE_NS_CTL_CH_TC : Fld := ⟨0x08000, 0x0, 1, 4, 8, false⟩
/-- Field `PIPE_NS_CTL_ROW_EN`. -/
def F.PIPE_NS_CTL_ROW_EN : Fld := ⟨0x08000, 0x0, 1, 0, 1, false⟩
/-- Field `PIPE_NS_ROWSPAN_SPAN`. -/
def F.PIPE_NS_ROWSPAN_SPAN : Fld := ⟨0x08008, 0x0, 1, 0, 16, false⟩
/-- Field `PIPE_NS_STAT_BLIND_EXCL`. -/
def F.PIPE_NS_STAT_BLIND_EXCL : Fld := ⟨0x08004, 0x0, 1, 0, 8, false⟩
/-- Field `PIPE_NS_STAT_CH_INIT`. -/
def F.PIPE_NS_STAT_CH_INIT : Fld := ⟨0x08004, 0x0, 1, 9, 1, false⟩
/-- Field `PIPE_NS_STAT_ROW_FALLBACK`. -/
def F.PIPE_NS_STAT_ROW_FALLBACK : Fld := ⟨0x08004, 0x0, 1, 8, 1, false⟩
/-- Field `PIPE_PL_CTL_DRIFT_EN`. -/
def F.PIPE_PL_CTL_DRIFT_EN : Fld := ⟨0x08040, 0x0, 1, 1, 1, false⟩
/-- Field `PIPE_PL_CTL_FALLBACK`. -/
def F.PIPE_PL_CTL_FALLBACK : Fld := ⟨0x08040, 0x0, 1, 8, 8, false⟩
/-- Field `PIPE_PL_CTL_PLATE_EN`. -/
def F.PIPE_PL_CTL_PLATE_EN : Fld := ⟨0x08040, 0x0, 1, 0, 1, false⟩
/-- Field `PIPE_PL_LOADERR_CNT`. -/
def F.PIPE_PL_LOADERR_CNT : Fld := ⟨0x08060, 0x0, 1, 0, 32, false⟩
/-- Field `PIPE_PL_SEQ_ACT_SEQ`. -/
def F.PIPE_PL_SEQ_ACT_SEQ : Fld := ⟨0x08048, 0x0, 1, 0, 32, false⟩
/-- Field `PIPE_PL_SEQ_STBY_SEQ`. -/
def F.PIPE_PL_SEQ_STBY_SEQ : Fld := ⟨0x0804C, 0x0, 1, 0, 32, false⟩
/-- Field `PIPE_PL_STAT_ACTIVE_REG`. -/
def F.PIPE_PL_STAT_ACTIVE_REG : Fld := ⟨0x08044, 0x0, 1, 0, 2, false⟩
/-- Field `PIPE_PL_STAT_ACTIVE_SRC`. -/
def F.PIPE_PL_STAT_ACTIVE_SRC : Fld := ⟨0x08044, 0x0, 1, 6, 2, false⟩
/-- Field `PIPE_PL_STAT_FALLBACK`. -/
def F.PIPE_PL_STAT_FALLBACK : Fld := ⟨0x08044, 0x0, 1, 14, 1, false⟩
/-- Field `PIPE_PL_STAT_HOLD_EXPIRED`. -/
def F.PIPE_PL_STAT_HOLD_EXPIRED : Fld := ⟨0x08044, 0x0, 1, 17, 1, false⟩
/-- Field `PIPE_PL_STAT_NO_PLATE_EXT`. -/
def F.PIPE_PL_STAT_NO_PLATE_EXT : Fld := ⟨0x08044, 0x0, 1, 16, 1, false⟩
/-- Field `PIPE_PL_STAT_NO_PLATE_HIGH`. -/
def F.PIPE_PL_STAT_NO_PLATE_HIGH : Fld := ⟨0x08044, 0x0, 1, 15, 1, false⟩
/-- Field `PIPE_PL_STAT_PERSIST_BUSY`. -/
def F.PIPE_PL_STAT_PERSIST_BUSY : Fld := ⟨0x08044, 0x0, 1, 13, 1, false⟩
/-- Field `PIPE_PL_STAT_SHADOW_OWNER`. -/
def F.PIPE_PL_STAT_SHADOW_OWNER : Fld := ⟨0x08044, 0x0, 1, 10, 2, false⟩
/-- Field `PIPE_PL_STAT_SHADOW_REG`. -/
def F.PIPE_PL_STAT_SHADOW_REG : Fld := ⟨0x08044, 0x0, 1, 2, 2, false⟩
/-- Field `PIPE_PL_STAT_STANDBY_REG`. -/
def F.PIPE_PL_STAT_STANDBY_REG : Fld := ⟨0x08044, 0x0, 1, 4, 2, false⟩
/-- Field `PIPE_PL_STAT_STANDBY_SRC`. -/
def F.PIPE_PL_STAT_STANDBY_SRC : Fld := ⟨0x08044, 0x0, 1, 8, 2, false⟩
/-- Field `PIPE_PL_STAT_SWAP_PEND`. -/
def F.PIPE_PL_STAT_SWAP_PEND : Fld := ⟨0x08044, 0x0, 1, 12, 1, false⟩
/-- Field `PIPE_PL_SWAP_T_T`. -/
def F.PIPE_PL_SWAP_T_T : Fld := ⟨0x08058, 0x0, 1, 0, 64, true⟩
/-- Field `PIPE_PL_TREF_TREF`. -/
def F.PIPE_PL_TREF_TREF : Fld := ⟨0x08050, 0x0, 1, 0, 32, false⟩
/-- Field `PIPE_RAD_CTL_EPS_EN`. -/
def F.PIPE_RAD_CTL_EPS_EN : Fld := ⟨0x0A0A0, 0x0, 1, 0, 1, false⟩
/-- Field `PIPE_RAD_CTL_STAGE_EN`. -/
def F.PIPE_RAD_CTL_STAGE_EN : Fld := ⟨0x0A0A0, 0x0, 1, 1, 1, false⟩
/-- Field `PIPE_RAD_CV_SEQ_SEQ`. -/
def F.PIPE_RAD_CV_SEQ_SEQ : Fld := ⟨0x0A0B0, 0x4, 2, 0, 32, false⟩
/-- Field `PIPE_RAD_CV_STAT_PEND`. -/
def F.PIPE_RAD_CV_STAT_PEND : Fld := ⟨0x0A0AC, 0x0, 1, 4, 1, false⟩
/-- Field `PIPE_RAD_CV_STAT_SRC_E`. -/
def F.PIPE_RAD_CV_STAT_SRC_E : Fld := ⟨0x0A0AC, 0x0, 1, 2, 2, false⟩
/-- Field `PIPE_RAD_CV_STAT_SRC_H`. -/
def F.PIPE_RAD_CV_STAT_SRC_H : Fld := ⟨0x0A0AC, 0x0, 1, 0, 2, false⟩
/-- Field `PIPE_RAD_EPS_DEF_EPS`. -/
def F.PIPE_RAD_EPS_DEF_EPS : Fld := ⟨0x0A0A4, 0x0, 1, 0, 11, false⟩
/-- Field `PIPE_RAD_NOVAL_CNT`. -/
def F.PIPE_RAD_NOVAL_CNT : Fld := ⟨0x0A0BC, 0x0, 1, 0, 23, false⟩
/-- Field `PIPE_RAD_SAT_HIGH`. -/
def F.PIPE_RAD_SAT_HIGH : Fld := ⟨0x0A0B8, 0x0, 1, 16, 16, false⟩
/-- Field `PIPE_RAD_SAT_LOW`. -/
def F.PIPE_RAD_SAT_LOW : Fld := ⟨0x0A0B8, 0x0, 1, 0, 16, false⟩
/-- Field `PIPE_RAD_TREFL_DEF_T`. -/
def F.PIPE_RAD_TREFL_DEF_T : Fld := ⟨0x0A0A8, 0x0, 1, 0, 16, false⟩
/-- Field `PIPE_ST_CLUMAX_HEIGHT`. -/
def F.PIPE_ST_CLUMAX_HEIGHT : Fld := ⟨0x08090, 0x0, 1, 12, 12, false⟩
/-- Field `PIPE_ST_CLUMAX_WIDTH`. -/
def F.PIPE_ST_CLUMAX_WIDTH : Fld := ⟨0x08090, 0x0, 1, 0, 12, false⟩
/-- Field `PIPE_ST_CTL_DIAG_EN`. -/
def F.PIPE_ST_CTL_DIAG_EN : Fld := ⟨0x08080, 0x0, 1, 1, 1, false⟩
/-- Field `PIPE_ST_CTL_REPL_EN`. -/
def F.PIPE_ST_CTL_REPL_EN : Fld := ⟨0x08080, 0x0, 1, 0, 1, false⟩
/-- Field `PIPE_ST_DEFECTS_CNT`. -/
def F.PIPE_ST_DEFECTS_CNT : Fld := ⟨0x08088, 0x0, 1, 0, 23, false⟩
/-- Field `PIPE_ST_INVALID_CNT`. -/
def F.PIPE_ST_INVALID_CNT : Fld := ⟨0x0808C, 0x0, 1, 0, 23, false⟩
/-- Field `PIPE_ST_SEQ_SEQ`. -/
def F.PIPE_ST_SEQ_SEQ : Fld := ⟨0x08094, 0x0, 1, 0, 32, false⟩
/-- Field `PIPE_ST_STAT_BIGCLUST`. -/
def F.PIPE_ST_STAT_BIGCLUST : Fld := ⟨0x08084, 0x0, 1, 0, 16, false⟩
/-- Field `PIPE_ST_STAT_EVAL_BUSY`. -/
def F.PIPE_ST_STAT_EVAL_BUSY : Fld := ⟨0x08084, 0x0, 1, 24, 1, false⟩
/-- Field `PIPE_ST_STAT_SUBST_COLS`. -/
def F.PIPE_ST_STAT_SUBST_COLS : Fld := ⟨0x08084, 0x0, 1, 16, 8, false⟩
/-- Field `PIPE_TRK_DF_LIM`. -/
def F.PIPE_TRK_DF_LIM : Fld := ⟨0x0A0F4, 0x0, 1, 0, 16, false⟩
/-- Field `PIPE_TRK_DT_LIM`. -/
def F.PIPE_TRK_DT_LIM : Fld := ⟨0x0A0F0, 0x0, 1, 0, 16, false⟩
/-- Field `PIPE_TRK_MAX_MIN`. -/
def F.PIPE_TRK_MAX_MIN : Fld := ⟨0x0A0F8, 0x0, 1, 0, 16, false⟩
/-- Field `PROOF_BLADE_CFG_AIN`. -/
def F.PROOF_BLADE_CFG_AIN : Fld := ⟨0x0C040, 0x0, 1, 0, 3, false⟩
/-- Field `PROOF_BLADE_CFG_EPS`. -/
def F.PROOF_BLADE_CFG_EPS : Fld := ⟨0x0C040, 0x0, 1, 4, 11, false⟩
/-- Field `PROOF_BLADE_CFG_TOL`. -/
def F.PROOF_BLADE_CFG_TOL : Fld := ⟨0x0C040, 0x0, 1, 16, 16, false⟩
/-- Field `PROOF_BLADE_SPREAD_LIM`. -/
def F.PROOF_BLADE_SPREAD_LIM : Fld := ⟨0x0C054, 0x0, 1, 0, 16, false⟩
/-- Field `PROOF_BLADE_T_T`. -/
def F.PROOF_BLADE_T_T : Fld := ⟨0x0C050, 0x0, 1, 0, 32, false⟩
/-- Field `PROOF_CC_CTL_EN`. -/
def F.PROOF_CC_CTL_EN : Fld := ⟨0x0C100, 0x0, 1, 0, 1, false⟩
/-- Field `PROOF_CC_LAST_GROUP`. -/
def F.PROOF_CC_LAST_GROUP : Fld := ⟨0x0C108, 0x0, 1, 0, 7, false⟩
/-- Field `PROOF_CC_LAST_SWEEPS`. -/
def F.PROOF_CC_LAST_SWEEPS : Fld := ⟨0x0C108, 0x0, 1, 16, 16, false⟩
/-- Field `PROOF_CC_OUTLIER_CNT`. -/
def F.PROOF_CC_OUTLIER_CNT : Fld := ⟨0x0C10C, 0x0, 1, 0, 32, false⟩
/-- Field `PROOF_CC_TOL_TOL`. -/
def F.PROOF_CC_TOL_TOL : Fld := ⟨0x0C104, 0x0, 1, 0, 8, false⟩
/-- Field `PROOF_CNT_ABORT_CNT`. -/
def F.PROOF_CNT_ABORT_CNT : Fld := ⟨0x0C0C4, 0x0, 1, 0, 32, false⟩
/-- Field `PROOF_CNT_DONE_CNT`. -/
def F.PROOF_CNT_DONE_CNT : Fld := ⟨0x0C0C0, 0x0, 1, 0, 32, false⟩
/-- Field `PROOF_CNT_FORCED_CNT`. -/
def F.PROOF_CNT_FORCED_CNT : Fld := ⟨0x0C0C8, 0x0, 1, 0, 32, false⟩
/-- Field `PROOF_CTL_EN`. -/
def F.PROOF_CTL_EN : Fld := ⟨0x0C000, 0x0, 1, 0, 1, false⟩
/-- Field `PROOF_CTL_NAVG`. -/
def F.PROOF_CTL_NAVG : Fld := ⟨0x0C000, 0x0, 1, 8, 7, false⟩
/-- Field `PROOF_CTL_START_NOW`. -/
def F.PROOF_CTL_START_NOW : Fld := ⟨0x0C000, 0x0, 1, 1, 1, false⟩
/-- Field `PROOF_GLADE_BEGIN_T`. -/
def F.PROOF_GLADE_BEGIN_T : Fld := ⟨0x0C090, 0x0, 1, 0, 64, true⟩
/-- Field `PROOF_GLADE_CTL_DEB`. -/
def F.PROOF_GLADE_CTL_DEB : Fld := ⟨0x0C080, 0x0, 1, 8, 8, false⟩
/-- Field `PROOF_GLADE_CTL_RELAY`. -/
def F.PROOF_GLADE_CTL_RELAY : Fld := ⟨0x0C080, 0x0, 1, 5, 1, false⟩
/-- Field `PROOF_GLADE_CTL_SRC_EN`. -/
def F.PROOF_GLADE_CTL_SRC_EN : Fld := ⟨0x0C080, 0x0, 1, 0, 5, false⟩
/-- Field `PROOF_GLADE_END_T`. -/
def F.PROOF_GLADE_END_T : Fld := ⟨0x0C098, 0x0, 1, 0, 64, true⟩
/-- Field `PROOF_GLADE_SPD_HOLD`. -/
def F.PROOF_GLADE_SPD_HOLD : Fld := ⟨0x0C084, 0x0, 1, 16, 16, false⟩
/-- Field `PROOF_GLADE_SPD_TH`. -/
def F.PROOF_GLADE_SPD_TH : Fld := ⟨0x0C084, 0x0, 1, 0, 16, false⟩
/-- Field `PROOF_GLADE_STAT_OPEN`. -/
def F.PROOF_GLADE_STAT_OPEN : Fld := ⟨0x0C088, 0x0, 1, 0, 1, false⟩
/-- Field `PROOF_GLADE_STAT_RELAYED`. -/
def F.PROOF_GLADE_STAT_RELAYED : Fld := ⟨0x0C088, 0x0, 1, 6, 1, false⟩
/-- Field `PROOF_GLADE_STAT_SRC`. -/
def F.PROOF_GLADE_STAT_SRC : Fld := ⟨0x0C088, 0x0, 1, 1, 5, false⟩
/-- Field `PROOF_LAST_T_T`. -/
def F.PROOF_LAST_T_T : Fld := ⟨0x0C0D0, 0x0, 1, 0, 64, true⟩
/-- Field `PROOF_OFS_KEPT_CNT`. -/
def F.PROOF_OFS_KEPT_CNT : Fld := ⟨0x0C058, 0x0, 1, 0, 23, false⟩
/-- Field `PROOF_REQ_REQ`. -/
def F.PROOF_REQ_REQ : Fld := ⟨0x0C008, 0x0, 1, 0, 7, false⟩
/-- Field `PROOF_SCHED_DUE_MIN`. -/
def F.PROOF_SCHED_DUE_MIN : Fld := ⟨0x0C00C, 0x0, 1, 0, 8, false⟩
/-- Field `PROOF_SCHED_DUR_MS`. -/
def F.PROOF_SCHED_DUR_MS : Fld := ⟨0x0C0BC, 0x0, 1, 0, 32, false⟩
/-- Field `PROOF_SCHED_FORCE_MIN`. -/
def F.PROOF_SCHED_FORCE_MIN : Fld := ⟨0x0C00C, 0x0, 1, 16, 16, false⟩
/-- Field `PROOF_SCHED_OVERDUE_MIN`. -/
def F.PROOF_SCHED_OVERDUE_MIN : Fld := ⟨0x0C00C, 0x0, 1, 8, 8, false⟩
/-- Field `PROOF_SCHED_PERIOD_MS`. -/
def F.PROOF_SCHED_PERIOD_MS : Fld := ⟨0x0C0B8, 0x0, 1, 0, 32, false⟩
/-- Field `PROOF_SCHED_START_T`. -/
def F.PROOF_SCHED_START_T : Fld := ⟨0x0C0B0, 0x0, 1, 0, 64, true⟩
/-- Field `PROOF_SHUT_CTL_EN`. -/
def F.PROOF_SHUT_CTL_EN : Fld := ⟨0x0C020, 0x0, 1, 0, 1, false⟩
/-- Field `PROOF_SHUT_CTL_HOLD`. -/
def F.PROOF_SHUT_CTL_HOLD : Fld := ⟨0x0C020, 0x0, 1, 1, 1, false⟩
/-- Field `PROOF_SHUT_CTL_POS0_POL`. -/
def F.PROOF_SHUT_CTL_POS0_POL : Fld := ⟨0x0C020, 0x0, 1, 6, 1, false⟩
/-- Field `PROOF_SHUT_CTL_POS1_POL`. -/
def F.PROOF_SHUT_CTL_POS1_POL : Fld := ⟨0x0C020, 0x0, 1, 7, 1, false⟩
/-- Field `PROOF_SHUT_CTL_SENSE`. -/
def F.PROOF_SHUT_CTL_SENSE : Fld := ⟨0x0C020, 0x0, 1, 4, 2, false⟩
/-- Field `PROOF_SHUT_CTL_SWAP`. -/
def F.PROOF_SHUT_CTL_SWAP : Fld := ⟨0x0C020, 0x0, 1, 2, 1, false⟩
/-- Field `PROOF_SHUT_FAILS_CNT`. -/
def F.PROOF_SHUT_FAILS_CNT : Fld := ⟨0x0C0CC, 0x0, 1, 0, 32, false⟩
/-- Field `PROOF_SHUT_MOVE_CLOSE`. -/
def F.PROOF_SHUT_MOVE_CLOSE : Fld := ⟨0x0C02C, 0x0, 1, 0, 16, false⟩
/-- Field `PROOF_SHUT_MOVE_OPEN`. -/
def F.PROOF_SHUT_MOVE_OPEN : Fld := ⟨0x0C02C, 0x0, 1, 16, 16, false⟩
/-- Field `PROOF_SHUT_STAT_CONSEC`. -/
def F.PROOF_SHUT_STAT_CONSEC : Fld := ⟨0x0C028, 0x0, 1, 5, 2, false⟩
/-- Field `PROOF_SHUT_STAT_POS0`. -/
def F.PROOF_SHUT_STAT_POS0 : Fld := ⟨0x0C028, 0x0, 1, 3, 1, false⟩
/-- Field `PROOF_SHUT_STAT_POS1`. -/
def F.PROOF_SHUT_STAT_POS1 : Fld := ⟨0x0C028, 0x0, 1, 4, 1, false⟩
/-- Field `PROOF_SHUT_STAT_STATE`. -/
def F.PROOF_SHUT_STAT_STATE : Fld := ⟨0x0C028, 0x0, 1, 0, 3, false⟩
/-- Field `PROOF_SHUT_TIME_HOLD_DUTY`. -/
def F.PROOF_SHUT_TIME_HOLD_DUTY : Fld := ⟨0x0C024, 0x0, 1, 24, 8, false⟩
/-- Field `PROOF_SHUT_TIME_MOVE_MAX`. -/
def F.PROOF_SHUT_TIME_MOVE_MAX : Fld := ⟨0x0C024, 0x0, 1, 8, 8, false⟩
/-- Field `PROOF_SHUT_TIME_PULSE`. -/
def F.PROOF_SHUT_TIME_PULSE : Fld := ⟨0x0C024, 0x0, 1, 0, 8, false⟩
/-- Field `PROOF_SHUT_TIME_SETTLE`. -/
def F.PROOF_SHUT_TIME_SETTLE : Fld := ⟨0x0C024, 0x0, 1, 16, 8, false⟩
/-- Field `PROOF_STAT_ABORT`. -/
def F.PROOF_STAT_ABORT : Fld := ⟨0x0C004, 0x0, 1, 8, 4, false⟩
/-- Field `PROOF_STAT_KIND`. -/
def F.PROOF_STAT_KIND : Fld := ⟨0x0C004, 0x0, 1, 3, 2, false⟩
/-- Field `PROOF_STAT_OVERDUE`. -/
def F.PROOF_STAT_OVERDUE : Fld := ⟨0x0C004, 0x0, 1, 7, 1, false⟩
/-- Field `PROOF_STAT_PHASE`. -/
def F.PROOF_STAT_PHASE : Fld := ⟨0x0C004, 0x0, 1, 0, 3, false⟩
/-- Field `PROOF_STAT_SHADOW_WAIT`. -/
def F.PROOF_STAT_SHADOW_WAIT : Fld := ⟨0x0C004, 0x0, 1, 5, 1, false⟩
/-- Field `PROOF_STAT_TOKEN_WAIT`. -/
def F.PROOF_STAT_TOKEN_WAIT : Fld := ⟨0x0C004, 0x0, 1, 6, 1, false⟩
/-- Field `PROOF_TAU_CTL_EN`. -/
def F.PROOF_TAU_CTL_EN : Fld := ⟨0x0C060, 0x0, 1, 0, 1, false⟩
/-- Field `PROOF_TAU_CTL_MINSTEP`. -/
def F.PROOF_TAU_CTL_MINSTEP : Fld := ⟨0x0C060, 0x0, 1, 16, 16, false⟩
/-- Field `PROOF_TAU_CTL_W`. -/
def F.PROOF_TAU_CTL_W : Fld := ⟨0x0C060, 0x0, 1, 8, 8, false⟩
/-- Field `PROOF_TAU_STAT_FITTED`. -/
def F.PROOF_TAU_STAT_FITTED : Fld := ⟨0x0C068, 0x0, 1, 0, 23, false⟩
/-- Field `PROOF_TAU_STAT_SKIP_FRAMES`. -/
def F.PROOF_TAU_STAT_SKIP_FRAMES : Fld := ⟨0x0C068, 0x0, 1, 24, 1, false⟩
/-- Field `PROOF_TAU_STAT_SKIP_SPEED`. -/
def F.PROOF_TAU_STAT_SKIP_SPEED : Fld := ⟨0x0C068, 0x0, 1, 23, 1, false⟩
/-- Field `PROOF_TAU_VMAX_V`. -/
def F.PROOF_TAU_VMAX_V : Fld := ⟨0x0C064, 0x0, 1, 0, 16, false⟩
/-- Field `PROOF_THERM_BETA_VAL`. -/
def F.PROOF_THERM_BETA_VAL : Fld := ⟨0x0C048, 0x0, 1, 0, 32, false⟩
/-- Field `PROOF_THERM_RDIV_VAL`. -/
def F.PROOF_THERM_RDIV_VAL : Fld := ⟨0x0C04C, 0x0, 1, 0, 32, false⟩
/-- Field `PROOF_THERM_RNOM_VAL`. -/
def F.PROOF_THERM_RNOM_VAL : Fld := ⟨0x0C044, 0x0, 1, 0, 32, false⟩
/-- Field `PWR_ABORTED_CNT`. -/
def F.PWR_ABORTED_CNT : Fld := ⟨0x02028, 0x0, 1, 0, 32, false⟩
/-- Field `PWR_BAL_CTL_EN`. -/
def F.PWR_BAL_CTL_EN : Fld := ⟨0x02040, 0x0, 1, 0, 1, false⟩
/-- Field `PWR_BAL_CTL_SETPOINT`. -/
def F.PWR_BAL_CTL_SETPOINT : Fld := ⟨0x02040, 0x0, 1, 16, 13, false⟩
/-- Field `PWR_BAL_SAT_CNT_CNT`. -/
def F.PWR_BAL_SAT_CNT_CNT : Fld := ⟨0x0202C, 0x0, 1, 0, 32, false⟩
/-- Field `PWR_BAL_STAT_RAMPING`. -/
def F.PWR_BAL_STAT_RAMPING : Fld := ⟨0x02044, 0x0, 1, 3, 1, false⟩
/-- Field `PWR_BAL_STAT_SAT`. -/
def F.PWR_BAL_STAT_SAT : Fld := ⟨0x02044, 0x0, 1, 0, 1, false⟩
/-- Field `PWR_BAL_STAT_SAT_10S`. -/
def F.PWR_BAL_STAT_SAT_10S : Fld := ⟨0x02044, 0x0, 1, 1, 1, false⟩
/-- Field `PWR_BAL_STAT_SAT_60S`. -/
def F.PWR_BAL_STAT_SAT_60S : Fld := ⟨0x02044, 0x0, 1, 4, 1, false⟩
/-- Field `PWR_BAL_STAT_SP_PEND`. -/
def F.PWR_BAL_STAT_SP_PEND : Fld := ⟨0x02044, 0x0, 1, 2, 1, false⟩
/-- Field `PWR_DOM_DRAIN_MAP`. -/
def F.PWR_DOM_DRAIN_MAP : Fld := ⟨0x02010, 0x4, 4, 0, 32, false⟩
/-- Field `PWR_DOM_ON_MAP`. -/
def F.PWR_DOM_ON_MAP : Fld := ⟨0x02000, 0x4, 4, 0, 32, false⟩
/-- Field `PWR_DRAIN_US`. -/
def F.PWR_DRAIN_US : Fld := ⟨0x02020, 0x0, 1, 0, 16, false⟩
/-- Field `PWR_LAST_ABORTED`. -/
def F.PWR_LAST_ABORTED : Fld := ⟨0x02024, 0x0, 1, 16, 16, false⟩
/-- Field `PWR_LAST_DOMAIN`. -/
def F.PWR_LAST_DOMAIN : Fld := ⟨0x02024, 0x0, 1, 0, 7, false⟩
/-- Field `PWR_LAST_ON`. -/
def F.PWR_LAST_ON : Fld := ⟨0x02024, 0x0, 1, 7, 1, false⟩
/-- Field `PWR_LAST_RESULT`. -/
def F.PWR_LAST_RESULT : Fld := ⟨0x02024, 0x0, 1, 8, 2, false⟩
/-- Field `PWR_P_BAL_MW`. -/
def F.PWR_P_BAL_MW : Fld := ⟨0x02050, 0x0, 1, 0, 16, false⟩
/-- Field `PWR_P_HELD_MW`. -/
def F.PWR_P_HELD_MW : Fld := ⟨0x0204C, 0x0, 1, 0, 16, false⟩
/-- Field `PWR_P_IN_MW`. -/
def F.PWR_P_IN_MW : Fld := ⟨0x02048, 0x0, 1, 0, 16, false⟩
/-- Field `PWR_SP_ACT_MW`. -/
def F.PWR_SP_ACT_MW : Fld := ⟨0x02054, 0x0, 1, 0, 16, false⟩
/-- Field `SEC_AUTH_FAIL_CNT`. -/
def F.SEC_AUTH_FAIL_CNT : Fld := ⟨0x24080, 0x0, 1, 0, 32, false⟩
/-- Field `SEC_CTR_CTR`. -/
def F.SEC_CTR_CTR : Fld := ⟨0x24040, 0x8, 8, 0, 64, true⟩
/-- Field `SEC_FW_STAT_ACTIVE`. -/
def F.SEC_FW_STAT_ACTIVE : Fld := ⟨0x240A0, 0x0, 1, 0, 1, false⟩
/-- Field `SEC_FW_STAT_BOOT`. -/
def F.SEC_FW_STAT_BOOT : Fld := ⟨0x240A0, 0x0, 1, 1, 1, false⟩
/-- Field `SEC_FW_STAT_FALLBACK`. -/
def F.SEC_FW_STAT_FALLBACK : Fld := ⟨0x240A0, 0x0, 1, 8, 1, false⟩
/-- Field `SEC_FW_STAT_STATE_A`. -/
def F.SEC_FW_STAT_STATE_A : Fld := ⟨0x240A0, 0x0, 1, 3, 2, false⟩
/-- Field `SEC_FW_STAT_STATE_B`. -/
def F.SEC_FW_STAT_STATE_B : Fld := ⟨0x240A0, 0x0, 1, 5, 2, false⟩
/-- Field `SEC_FW_STAT_SWITCH_PEND`. -/
def F.SEC_FW_STAT_SWITCH_PEND : Fld := ⟨0x240A0, 0x0, 1, 7, 1, false⟩
/-- Field `SEC_FW_STAT_TRIAL`. -/
def F.SEC_FW_STAT_TRIAL : Fld := ⟨0x240A0, 0x0, 1, 2, 1, false⟩
/-- Field `SEC_FW_SVN_MIN_VAL`. -/
def F.SEC_FW_SVN_MIN_VAL : Fld := ⟨0x240AC, 0x0, 1, 0, 32, false⟩
/-- Field `SEC_FW_SWITCH_T_T`. -/
def F.SEC_FW_SWITCH_T_T : Fld := ⟨0x240B0, 0x0, 1, 0, 64, true⟩
/-- Field `SEC_FW_VER_VAL`. -/
def F.SEC_FW_VER_VAL : Fld := ⟨0x240A4, 0x4, 2, 0, 32, false⟩
/-- Field `SEC_KEY_PRESENT`. -/
def F.SEC_KEY_PRESENT : Fld := ⟨0x24010, 0x4, 8, 0, 1, false⟩
/-- Field `SEC_KEY_ROLE`. -/
def F.SEC_KEY_ROLE : Fld := ⟨0x24010, 0x4, 8, 1, 3, false⟩
/-- Field `SEC_MBX_CPL_DATA`. -/
def F.SEC_MBX_CPL_DATA : Fld := ⟨0x24140, 0x4, 4, 0, 32, false⟩
/-- Field `SEC_MBX_DATA_DATA`. -/
def F.SEC_MBX_DATA_DATA : Fld := ⟨0x25000, 0x4, 1024, 0, 32, false⟩
/-- Field `SEC_MBX_ENTRY_DATA`. -/
def F.SEC_MBX_ENTRY_DATA : Fld := ⟨0x24100, 0x4, 16, 0, 32, false⟩
/-- Field `SEC_MBX_STAT_BUSY`. -/
def F.SEC_MBX_STAT_BUSY : Fld := ⟨0x240C4, 0x0, 1, 0, 1, false⟩
/-- Field `SEC_MBX_STAT_COLLIDE`. -/
def F.SEC_MBX_STAT_COLLIDE : Fld := ⟨0x240C4, 0x0, 1, 2, 1, false⟩
/-- Field `SEC_MBX_STAT_DONE`. -/
def F.SEC_MBX_STAT_DONE : Fld := ⟨0x240C4, 0x0, 1, 1, 1, false⟩
/-- Field `SEC_MBX_STAT_PATH`. -/
def F.SEC_MBX_STAT_PATH : Fld := ⟨0x240C4, 0x0, 1, 3, 1, false⟩
/-- Field `SEC_POLICY_MBX_CRIT`. -/
def F.SEC_POLICY_MBX_CRIT : Fld := ⟨0x24004, 0x0, 1, 0, 1, false⟩
/-- Field `SEC_RELAYED_CNT`. -/
def F.SEC_RELAYED_CNT : Fld := ⟨0x2408C, 0x0, 1, 0, 32, false⟩
/-- Field `SEC_REPLAY_CNT`. -/
def F.SEC_REPLAY_CNT : Fld := ⟨0x24084, 0x0, 1, 0, 32, false⟩
/-- Field `SEC_ROLE_FAIL_CNT`. -/
def F.SEC_ROLE_FAIL_CNT : Fld := ⟨0x24088, 0x0, 1, 0, 32, false⟩
/-- Field `SEC_STAT_EXEC`. -/
def F.SEC_STAT_EXEC : Fld := ⟨0x24000, 0x0, 1, 2, 6, false⟩
/-- Field `SEC_STAT_KEEP_OK`. -/
def F.SEC_STAT_KEEP_OK : Fld := ⟨0x24000, 0x0, 1, 1, 1, false⟩
/-- Field `SEC_STAT_PROVISIONED`. -/
def F.SEC_STAT_PROVISIONED : Fld := ⟨0x24000, 0x0, 1, 0, 1, false⟩
/-- Field `SPI_BADHDR_CNT`. -/
def F.SPI_BADHDR_CNT : Fld := ⟨0x3800C, 0x0, 1, 0, 32, false⟩
/-- Field `SPI_FRAG_CNT`. -/
def F.SPI_FRAG_CNT : Fld := ⟨0x38008, 0x0, 1, 0, 32, false⟩
/-- Field `SPI_STAT_BAD_HDR`. -/
def F.SPI_STAT_BAD_HDR : Fld := ⟨0x38000, 0x0, 1, 2, 1, false⟩
/-- Field `SPI_STAT_FRAG`. -/
def F.SPI_STAT_FRAG : Fld := ⟨0x38000, 0x0, 1, 1, 1, false⟩
/-- Field `SPI_STAT_MODE3`. -/
def F.SPI_STAT_MODE3 : Fld := ⟨0x38000, 0x0, 1, 3, 1, false⟩
/-- Field `SPI_STAT_NOT_READY`. -/
def F.SPI_STAT_NOT_READY : Fld := ⟨0x38000, 0x0, 1, 0, 1, false⟩
/-- Field `SPI_TXN_CNT`. -/
def F.SPI_TXN_CNT : Fld := ⟨0x38004, 0x0, 1, 0, 32, false⟩
/-- Field `STAND_ALIVE_MAP`. -/
def F.STAND_ALIVE_MAP : Fld := ⟨0x1C030, 0x0, 1, 0, 32, false⟩
/-- Field `STAND_ASSIGNED_MAP`. -/
def F.STAND_ASSIGNED_MAP : Fld := ⟨0x1C02C, 0x0, 1, 0, 32, false⟩
/-- Field `STAND_CTL_DEPUTY_EN`. -/
def F.STAND_CTL_DEPUTY_EN : Fld := ⟨0x1C000, 0x0, 1, 3, 1, false⟩
/-- Field `STAND_CTL_EN`. -/
def F.STAND_CTL_EN : Fld := ⟨0x1C000, 0x0, 1, 0, 1, false⟩
/-- Field `STAND_CTL_READMIT`. -/
def F.STAND_CTL_READMIT : Fld := ⟨0x1C000, 0x0, 1, 1, 1, false⟩
/-- Field `STAND_CTL_STBY_TX`. -/
def F.STAND_CTL_STBY_TX : Fld := ⟨0x1C000, 0x0, 1, 2, 1, false⟩
/-- Field `STAND_DEATHS_CNT`. -/
def F.STAND_DEATHS_CNT : Fld := ⟨0x1C040, 0x0, 1, 0, 32, false⟩
/-- Field `STAND_DEGRADED_MAP`. -/
def F.STAND_DEGRADED_MAP : Fld := ⟨0x1C038, 0x0, 1, 0, 32, false⟩
/-- Field `STAND_EPOCH_CHG_CNT`. -/
def F.STAND_EPOCH_CHG_CNT : Fld := ⟨0x1C04C, 0x0, 1, 0, 32, false⟩
/-- Field `STAND_EPOCH_EPOCH`. -/
def F.STAND_EPOCH_EPOCH : Fld := ⟨0x1C008, 0x0, 1, 0, 32, false⟩
/-- Field `STAND_GRP_FAIL_MAP`. -/
def F.STAND_GRP_FAIL_MAP : Fld := ⟨0x1C058, 0x0, 1, 0, 32, false⟩
/-- Field `STAND_GRP_OK_MAP`. -/
def F.STAND_GRP_OK_MAP : Fld := ⟨0x1C054, 0x0, 1, 0, 32, false⟩
/-- Field `STAND_GRP_STAT_PHASE`. -/
def F.STAND_GRP_STAT_PHASE : Fld := ⟨0x1C050, 0x0, 1, 16, 3, false⟩
/-- Field `STAND_GRP_STAT_RESULT`. -/
def F.STAND_GRP_STAT_RESULT : Fld := ⟨0x1C050, 0x0, 1, 20, 2, false⟩
/-- Field `STAND_GRP_STAT_TXN`. -/
def F.STAND_GRP_STAT_TXN : Fld := ⟨0x1C050, 0x0, 1, 0, 16, false⟩
/-- Field `STAND_HOLD_HOLD_MS`. -/
def F.STAND_HOLD_HOLD_MS : Fld := ⟨0x1C024, 0x0, 1, 0, 16, false⟩
/-- Field `STAND_MAP_VER_VER`. -/
def F.STAND_MAP_VER_VER : Fld := ⟨0x1C00C, 0x0, 1, 0, 16, false⟩
/-- Field `STAND_MERGE_CTL_WAIT`. -/
def F.STAND_MERGE_CTL_WAIT : Fld := ⟨0x1C060, 0x0, 1, 0, 8, false⟩
/-- Field `STAND_MERGE_DUP_CNT`. -/
def F.STAND_MERGE_DUP_CNT : Fld := ⟨0x1C070, 0x0, 1, 0, 32, false⟩
/-- Field `STAND_MERGE_INCOMP_CNT`. -/
def F.STAND_MERGE_INCOMP_CNT : Fld := ⟨0x1C074, 0x0, 1, 0, 32, false⟩
/-- Field `STAND_MERGE_LATE_CNT`. -/
def F.STAND_MERGE_LATE_CNT : Fld := ⟨0x1C068, 0x0, 1, 0, 32, false⟩
/-- Field `STAND_MERGE_OVF_CNT`. -/
def F.STAND_MERGE_OVF_CNT : Fld := ⟨0x1C06C, 0x0, 1, 0, 32, false⟩
/-- Field `STAND_MERGE_STAT_CAP`. -/
def F.STAND_MERGE_STAT_CAP : Fld := ⟨0x1C064, 0x0, 1, 0, 16, false⟩
/-- Field `STAND_MERGE_STAT_USED`. -/
def F.STAND_MERGE_STAT_USED : Fld := ⟨0x1C064, 0x0, 1, 16, 16, false⟩
/-- Field `STAND_REVENANT_CNT`. -/
def F.STAND_REVENANT_CNT : Fld := ⟨0x1C044, 0x0, 1, 0, 32, false⟩
/-- Field `STAND_ROLES_DEPUTY`. -/
def F.STAND_ROLES_DEPUTY : Fld := ⟨0x1C028, 0x0, 1, 8, 6, false⟩
/-- Field `STAND_ROLES_ENC`. -/
def F.STAND_ROLES_ENC : Fld := ⟨0x1C028, 0x0, 1, 16, 6, false⟩
/-- Field `STAND_ROLES_ROOT`. -/
def F.STAND_ROLES_ROOT : Fld := ⟨0x1C028, 0x0, 1, 0, 6, false⟩
/-- Field `STAND_SEAM_AT_LIMIT_MAP`. -/
def F.STAND_SEAM_AT_LIMIT_MAP : Fld := ⟨0x1C08C, 0x0, 1, 0, 32, false⟩
/-- Field `STAND_SEAM_CTL_BLOCK`. -/
def F.STAND_SEAM_CTL_BLOCK : Fld := ⟨0x1C080, 0x0, 1, 16, 16, false⟩
/-- Field `STAND_SEAM_CTL_EN`. -/
def F.STAND_SEAM_CTL_EN : Fld := ⟨0x1C080, 0x0, 1, 0, 1, false⟩
/-- Field `STAND_SEAM_CTL_MU`. -/
def F.STAND_SEAM_CTL_MU : Fld := ⟨0x1C080, 0x0, 1, 8, 8, false⟩
/-- Field `STAND_SEAM_MEAN`. -/
def F.STAND_SEAM_MEAN : Fld := ⟨0x1C180, 0x4, 32, 0, 16, false⟩
/-- Field `STAND_SEAM_MINSPAN_VAL`. -/
def F.STAND_SEAM_MINSPAN_VAL : Fld := ⟨0x1C088, 0x0, 1, 0, 16, false⟩
/-- Field `STAND_SEAM_SLOPE`. -/
def F.STAND_SEAM_SLOPE : Fld := ⟨0x1C180, 0x4, 32, 16, 16, false⟩
/-- Field `STAND_SEAM_TREF_VAL`. -/
def F.STAND_SEAM_TREF_VAL : Fld := ⟨0x1C084, 0x0, 1, 0, 16, false⟩
/-- Field `STAND_SELF_ID_ID`. -/
def F.STAND_SELF_ID_ID : Fld := ⟨0x1C010, 0x0, 1, 0, 64, true⟩
/-- Field `STAND_SID_ID`. -/
def F.STAND_SID_ID : Fld := ⟨0x1C018, 0x0, 1, 0, 64, true⟩
/-- Field `STAND_STAT_CLR_TEST`. -/
def F.STAND_STAT_CLR_TEST : Fld := ⟨0x1C004, 0x0, 1, 14, 2, false⟩
/-- Field `STAND_STAT_LEVEL`. -/
def F.STAND_STAT_LEVEL : Fld := ⟨0x1C004, 0x0, 1, 9, 2, false⟩
/-- Field `STAND_STAT_MAP_VALID`. -/
def F.STAND_STAT_MAP_VALID : Fld := ⟨0x1C004, 0x0, 1, 11, 1, false⟩
/-- Field `STAND_STAT_QUORUM`. -/
def F.STAND_STAT_QUORUM : Fld := ⟨0x1C004, 0x0, 1, 12, 1, false⟩
/-- Field `STAND_STAT_ROLE`. -/
def F.STAND_STAT_ROLE : Fld := ⟨0x1C004, 0x0, 1, 0, 3, false⟩
/-- Field `STAND_STAT_ROOT_SILENT`. -/
def F.STAND_STAT_ROOT_SILENT : Fld := ⟨0x1C004, 0x0, 1, 13, 1, false⟩
/-- Field `STAND_STAT_SLOT`. -/
def F.STAND_STAT_SLOT : Fld := ⟨0x1C004, 0x0, 1, 3, 6, false⟩
/-- Field `STAND_STAT_TIME_OK`. -/
def F.STAND_STAT_TIME_OK : Fld := ⟨0x1C004, 0x0, 1, 16, 1, false⟩
/-- Field `STAND_TAKEOVERS_CNT`. -/
def F.STAND_TAKEOVERS_CNT : Fld := ⟨0x1C048, 0x0, 1, 0, 32, false⟩
/-- Field `STAND_TIMING_COMMIT_MS`. -/
def F.STAND_TIMING_COMMIT_MS : Fld := ⟨0x1C020, 0x0, 1, 24, 8, false⟩
/-- Field `STAND_TIMING_DEAD_MS`. -/
def F.STAND_TIMING_DEAD_MS : Fld := ⟨0x1C020, 0x0, 1, 0, 8, false⟩
/-- Field `STAND_TIMING_PREP_MS`. -/
def F.STAND_TIMING_PREP_MS : Fld := ⟨0x1C020, 0x0, 1, 16, 8, false⟩
/-- Field `STAND_TIMING_SUB_DEAD_MS`. -/
def F.STAND_TIMING_SUB_DEAD_MS : Fld := ⟨0x1C020, 0x0, 1, 8, 8, false⟩
/-- Field `STAND_TRIM_GAIN`. -/
def F.STAND_TRIM_GAIN : Fld := ⟨0x1C100, 0x4, 32, 16, 16, false⟩
/-- Field `STAND_TRIM_OFS`. -/
def F.STAND_TRIM_OFS : Fld := ⟨0x1C100, 0x4, 32, 0, 16, false⟩
/-- Field `STAND_VACATED_MAP`. -/
def F.STAND_VACATED_MAP : Fld := ⟨0x1C034, 0x0, 1, 0, 32, false⟩
/-- Field `STAT_AL_DELAY_D`. -/
def F.STAT_AL_DELAY_D : Fld := ⟨0x14240, 0x4, 16, 0, 32, false⟩
/-- Field `STAT_AL_FIRE_CNT`. -/
def F.STAT_AL_FIRE_CNT : Fld := ⟨0x14290, 0x4, 4, 0, 32, false⟩
/-- Field `STAT_AL_MERGED_CNT`. -/
def F.STAT_AL_MERGED_CNT : Fld := ⟨0x142A4, 0x0, 1, 0, 32, false⟩
/-- Field `STAT_AL_OUT_EN`. -/
def F.STAT_AL_OUT_EN : Fld := ⟨0x14200, 0x4, 4, 0, 1, false⟩
/-- Field `STAT_AL_OUT_GP_MIRROR`. -/
def F.STAT_AL_OUT_GP_MIRROR : Fld := ⟨0x14200, 0x4, 4, 2, 1, false⟩
/-- Field `STAT_AL_OUT_PULSE`. -/
def F.STAT_AL_OUT_PULSE : Fld := ⟨0x14200, 0x4, 4, 1, 1, false⟩
/-- Field `STAT_AL_OUT_PULSE_US`. -/
def F.STAT_AL_OUT_PULSE_US : Fld := ⟨0x14200, 0x4, 4, 16, 16, false⟩
/-- Field `STAT_AL_STAT_LEVEL`. -/
def F.STAT_AL_STAT_LEVEL : Fld := ⟨0x14280, 0x0, 1, 0, 4, false⟩
/-- Field `STAT_AL_STAT_QMAX`. -/
def F.STAT_AL_STAT_QMAX : Fld := ⟨0x14280, 0x0, 1, 16, 9, false⟩
/-- Field `STAT_AL_TARDY_CNT`. -/
def F.STAT_AL_TARDY_CNT : Fld := ⟨0x142A0, 0x0, 1, 0, 32, false⟩
/-- Field `STAT_CTL_FLK_EN`. -/
def F.STAT_CTL_FLK_EN : Fld := ⟨0x14000, 0x0, 1, 2, 1, false⟩
/-- Field `STAT_CTL_FLK_REC`. -/
def F.STAT_CTL_FLK_REC : Fld := ⟨0x14000, 0x0, 1, 5, 1, false⟩
/-- Field `STAT_CTL_HIST_DEC`. -/
def F.STAT_CTL_HIST_DEC : Fld := ⟨0x14000, 0x0, 1, 8, 8, false⟩
/-- Field `STAT_CTL_HIST_EN`. -/
def F.STAT_CTL_HIST_EN : Fld := ⟨0x14000, 0x0, 1, 1, 1, false⟩
/-- Field `STAT_CTL_LANE_EN`. -/
def F.STAT_CTL_LANE_EN : Fld := ⟨0x14000, 0x0, 1, 0, 1, false⟩
/-- Field `STAT_CTL_LANE_REC`. -/
def F.STAT_CTL_LANE_REC : Fld := ⟨0x14000, 0x0, 1, 4, 1, false⟩
/-- Field `STAT_CTL_MAINS`. -/
def F.STAT_CTL_MAINS : Fld := ⟨0x14000, 0x0, 1, 3, 1, false⟩
/-- Field `STAT_FLK_CTL_RGN_EN`. -/
def F.STAT_FLK_CTL_RGN_EN : Fld := ⟨0x14060, 0x0, 1, 0, 16, false⟩
/-- Field `STAT_FLK_RES_A_AMP`. -/
def F.STAT_FLK_RES_A_AMP : Fld := ⟨0x14100, 0x8, 16, 16, 16, false⟩
/-- Field `STAT_FLK_RES_A_BIN`. -/
def F.STAT_FLK_RES_A_BIN : Fld := ⟨0x14100, 0x8, 16, 0, 7, false⟩
/-- Field `STAT_FLK_RES_A_K`. -/
def F.STAT_FLK_RES_A_K : Fld := ⟨0x14100, 0x8, 16, 8, 4, false⟩
/-- Field `STAT_FLK_RES_A_MATCH`. -/
def F.STAT_FLK_RES_A_MATCH : Fld := ⟨0x14100, 0x8, 16, 12, 1, false⟩
/-- Field `STAT_FLK_RES_B_P_DC`. -/
def F.STAT_FLK_RES_B_P_DC : Fld := ⟨0x14104, 0x8, 16, 0, 32, false⟩
/-- Field `STAT_FLK_RGN_COL_FIRST`. -/
def F.STAT_FLK_RGN_COL_FIRST : Fld := ⟨0x14080, 0x8, 16, 0, 12, false⟩
/-- Field `STAT_FLK_RGN_COL_LAST`. -/
def F.STAT_FLK_RGN_COL_LAST : Fld := ⟨0x14080, 0x8, 16, 16, 12, false⟩
/-- Field `STAT_FLK_RGN_ROW_FIRST`. -/
def F.STAT_FLK_RGN_ROW_FIRST : Fld := ⟨0x14084, 0x8, 16, 0, 12, false⟩
/-- Field `STAT_FLK_RGN_ROW_LAST`. -/
def F.STAT_FLK_RGN_ROW_LAST : Fld := ⟨0x14084, 0x8, 16, 16, 12, false⟩
/-- Field `STAT_HIST_CFG_LOW`. -/
def F.STAT_HIST_CFG_LOW : Fld := ⟨0x14040, 0x0, 1, 0, 16, false⟩
/-- Field `STAT_HIST_CFG_WIDTH`. -/
def F.STAT_HIST_CFG_WIDTH : Fld := ⟨0x14040, 0x0, 1, 16, 8, false⟩
/-- Field `STAT_SNAP_CTL_CLOSE`. -/
def F.STAT_SNAP_CTL_CLOSE : Fld := ⟨0x14004, 0x0, 1, 1, 1, false⟩
/-- Field `STAT_SNAP_CTL_POST`. -/
def F.STAT_SNAP_CTL_POST : Fld := ⟨0x14004, 0x0, 1, 2, 1, false⟩
/-- Field `STAT_SNAP_GENHI_VAL`. -/
def F.STAT_SNAP_GENHI_VAL : Fld := ⟨0x14010, 0x0, 1, 0, 32, false⟩
/-- Field `STAT_SNAP_GENLO_VAL`. -/
def F.STAT_SNAP_GENLO_VAL : Fld := ⟨0x1400C, 0x0, 1, 0, 32, false⟩
/-- Field `STAT_SNAP_HGEN_VAL`. -/
def F.STAT_SNAP_HGEN_VAL : Fld := ⟨0x1402C, 0x0, 1, 0, 32, false⟩
/-- Field `STAT_SNAP_HIST_CNT`. -/
def F.STAT_SNAP_HIST_CNT : Fld := ⟨0x14800, 0x4, 256, 0, 32, false⟩
/-- Field `STAT_SNAP_HNOVAL_VAL`. -/
def F.STAT_SNAP_HNOVAL_VAL : Fld := ⟨0x14028, 0x0, 1, 0, 32, false⟩
/-- Field `STAT_SNAP_HOVER_VAL`. -/
def F.STAT_SNAP_HOVER_VAL : Fld := ⟨0x14024, 0x0, 1, 0, 32, false⟩
/-- Field `STAT_SNAP_HUNDER_VAL`. -/
def F.STAT_SNAP_HUNDER_VAL : Fld := ⟨0x14020, 0x0, 1, 0, 32, false⟩
/-- Field `STAT_SNAP_LANE_WORD`. -/
def F.STAT_SNAP_LANE_WORD : Fld := ⟨0x14400, 0x4, 256, 0, 32, false⟩
/-- Field `STAT_SNAP_LINES_VAL`. -/
def F.STAT_SNAP_LINES_VAL : Fld := ⟨0x14014, 0x0, 1, 0, 32, false⟩
/-- Field `STAT_SNAP_STAT_EARLY`. -/
def F.STAT_SNAP_STAT_EARLY : Fld := ⟨0x14008, 0x0, 1, 17, 1, false⟩
/-- Field `STAT_SNAP_STAT_MIXED`. -/
def F.STAT_SNAP_STAT_MIXED : Fld := ⟨0x14008, 0x0, 1, 18, 1, false⟩
/-- Field `STAT_SNAP_STAT_SEQ`. -/
def F.STAT_SNAP_STAT_SEQ : Fld := ⟨0x14008, 0x0, 1, 0, 16, false⟩
/-- Field `STAT_SNAP_STAT_VALID`. -/
def F.STAT_SNAP_STAT_VALID : Fld := ⟨0x14008, 0x0, 1, 16, 1, false⟩
/-- Field `STAT_SNAP_WEB_W`. -/
def F.STAT_SNAP_WEB_W : Fld := ⟨0x14018, 0x0, 1, 0, 64, true⟩
/-- Field `STORE_FLASH_BADBLK_CNT`. -/
def F.STORE_FLASH_BADBLK_CNT : Fld := ⟨0x2C008, 0x0, 1, 0, 32, false⟩
/-- Field `STORE_FLASH_CRCERR_CNT`. -/
def F.STORE_FLASH_CRCERR_CNT : Fld := ⟨0x2C004, 0x0, 1, 0, 32, false⟩
/-- Field `STORE_FLASH_STAT_BUSY`. -/
def F.STORE_FLASH_STAT_BUSY : Fld := ⟨0x2C000, 0x0, 1, 0, 1, false⟩
/-- Field `STORE_FLASH_STAT_NO_SPARE`. -/
def F.STORE_FLASH_STAT_NO_SPARE : Fld := ⟨0x2C000, 0x0, 1, 1, 1, false⟩
/-- Field `STORE_FLASH_STAT_WR_ERR`. -/
def F.STORE_FLASH_STAT_WR_ERR : Fld := ⟨0x2C000, 0x0, 1, 2, 1, false⟩
/-- Field `STORE_KEEP_CORR_VAL`. -/
def F.STORE_KEEP_CORR_VAL : Fld := ⟨0x2C024, 0x0, 1, 0, 32, false⟩
/-- Field `STORE_KEEP_SPARES_VAL`. -/
def F.STORE_KEEP_SPARES_VAL : Fld := ⟨0x2C034, 0x0, 1, 0, 32, false⟩
/-- Field `STORE_KEEP_STAT_QUEUED`. -/
def F.STORE_KEEP_STAT_QUEUED : Fld := ⟨0x2C020, 0x0, 1, 2, 1, false⟩
/-- Field `STORE_KEEP_STAT_REPLAYED`. -/
def F.STORE_KEEP_STAT_REPLAYED : Fld := ⟨0x2C020, 0x0, 1, 0, 1, false⟩
/-- Field `STORE_KEEP_TORN_ADDR_VAL`. -/
def F.STORE_KEEP_TORN_ADDR_VAL : Fld := ⟨0x2C030, 0x0, 1, 0, 32, false⟩
/-- Field `STORE_KEEP_TORN_VAL`. -/
def F.STORE_KEEP_TORN_VAL : Fld := ⟨0x2C02C, 0x0, 1, 0, 32, false⟩
/-- Field `STORE_KEEP_UNCORR_VAL`. -/
def F.STORE_KEEP_UNCORR_VAL : Fld := ⟨0x2C028, 0x0, 1, 0, 32, false⟩
/-- Field `STORE_PWR_CYCLES_VAL`. -/
def F.STORE_PWR_CYCLES_VAL : Fld := ⟨0x2C03C, 0x0, 1, 0, 32, false⟩
/-- Field `SYS_BOOT_STAT_BUSY`. -/
def F.SYS_BOOT_STAT_BUSY : Fld := ⟨0x00034, 0x0, 1, 0, 1, false⟩
/-- Field `SYS_BOOT_STAT_DOM_KEPT`. -/
def F.SYS_BOOT_STAT_DOM_KEPT : Fld := ⟨0x00034, 0x0, 1, 5, 1, false⟩
/-- Field `SYS_BOOT_STAT_SAVE_ERR`. -/
def F.SYS_BOOT_STAT_SAVE_ERR : Fld := ⟨0x00034, 0x0, 1, 4, 1, false⟩
/-- Field `SYS_BOOT_STAT_SLOT`. -/
def F.SYS_BOOT_STAT_SLOT : Fld := ⟨0x00034, 0x0, 1, 2, 1, false⟩
/-- Field `SYS_BOOT_STAT_USED`. -/
def F.SYS_BOOT_STAT_USED : Fld := ⟨0x00034, 0x0, 1, 3, 1, false⟩
/-- Field `SYS_BOOT_STAT_VALID`. -/
def F.SYS_BOOT_STAT_VALID : Fld := ⟨0x00034, 0x0, 1, 1, 1, false⟩
/-- Field `SYS_ID_PART`. -/
def F.SYS_ID_PART : Fld := ⟨0x00000, 0x0, 1, 8, 16, false⟩
/-- Field `SYS_ID_STEP`. -/
def F.SYS_ID_STEP : Fld := ⟨0x00000, 0x0, 1, 0, 8, false⟩
/-- Field `SYS_RST_CAUSE_CMD_HOST`. -/
def F.SYS_RST_CAUSE_CMD_HOST : Fld := ⟨0x00024, 0x0, 1, 3, 1, false⟩
/-- Field `SYS_RST_CAUSE_CMD_WARM`. -/
def F.SYS_RST_CAUSE_CMD_WARM : Fld := ⟨0x00024, 0x0, 1, 4, 1, false⟩
/-- Field `SYS_RST_CAUSE_PERST_N`. -/
def F.SYS_RST_CAUSE_PERST_N : Fld := ⟨0x00024, 0x0, 1, 2, 1, false⟩
/-- Field `SYS_RST_CAUSE_RESET_N`. -/
def F.SYS_RST_CAUSE_RESET_N : Fld := ⟨0x00024, 0x0, 1, 1, 1, false⟩
/-- Field `SYS_START_HALTED`. -/
def F.SYS_START_HALTED : Fld := ⟨0x00020, 0x0, 1, 4, 1, false⟩
/-- Field `SYS_START_MS`. -/
def F.SYS_START_MS : Fld := ⟨0x00020, 0x0, 1, 16, 16, false⟩
/-- Field `SYS_START_STEP`. -/
def F.SYS_START_STEP : Fld := ⟨0x00020, 0x0, 1, 0, 4, false⟩
/-- Field `TMR_CAP_VAL`. -/
def F.TMR_CAP_VAL : Fld := ⟨0x3810C, 0x10, 8, 0, 32, false⟩
/-- Field `TMR_CMP_VAL`. -/
def F.TMR_CMP_VAL : Fld := ⟨0x38104, 0x10, 8, 0, 32, false⟩
/-- Field `TMR_CNT_VAL`. -/
def F.TMR_CNT_VAL : Fld := ⟨0x38108, 0x10, 8, 0, 32, false⟩
/-- Field `TMR_CTL_CSEL`. -/
def F.TMR_CTL_CSEL : Fld := ⟨0x38100, 0x10, 8, 3, 2, false⟩
/-- Field `TMR_CTL_EN`. -/
def F.TMR_CTL_EN : Fld := ⟨0x38100, 0x10, 8, 0, 1, false⟩
/-- Field `TMR_CTL_MODE`. -/
def F.TMR_CTL_MODE : Fld := ⟨0x38100, 0x10, 8, 1, 2, false⟩
/-- Field `TMR_CTL_OWNER`. -/
def F.TMR_CTL_OWNER : Fld := ⟨0x38100, 0x10, 8, 5, 2, false⟩
/-- Field `WEB_CTL_ACC_EN`. -/
def F.WEB_CTL_ACC_EN : Fld := ⟨0x10000, 0x0, 1, 0, 1, false⟩
/-- Field `WEB_CTL_DIR_INV`. -/
def F.WEB_CTL_DIR_INV : Fld := ⟨0x10000, 0x0, 1, 4, 1, false⟩
/-- Field `WEB_CTL_LOSS_HOST`. -/
def F.WEB_CTL_LOSS_HOST : Fld := ⟨0x10000, 0x0, 1, 3, 1, false⟩
/-- Field `WEB_CTL_SRC`. -/
def F.WEB_CTL_SRC : Fld := ⟨0x10000, 0x0, 1, 1, 2, false⟩
/-- Field `WEB_DISC_EMIT_CNT`. -/
def F.WEB_DISC_EMIT_CNT : Fld := ⟨0x100B4, 0x0, 1, 0, 32, false⟩
/-- Field `WEB_DISC_REV_CNT`. -/
def F.WEB_DISC_REV_CNT : Fld := ⟨0x100B0, 0x0, 1, 0, 32, false⟩
/-- Field `WEB_ENC_CFG_FILT`. -/
def F.WEB_ENC_CFG_FILT : Fld := ⟨0x10004, 0x0, 1, 2, 2, false⟩
/-- Field `WEB_ENC_CFG_MODE`. -/
def F.WEB_ENC_CFG_MODE : Fld := ⟨0x10004, 0x0, 1, 0, 2, false⟩
/-- Field `WEB_ENC_CFG_Z_EN`. -/
def F.WEB_ENC_CFG_Z_EN : Fld := ⟨0x10004, 0x0, 1, 5, 1, false⟩
/-- Field `WEB_ENC_CNT_CNT`. -/
def F.WEB_ENC_CNT_CNT : Fld := ⟨0x10040, 0x0, 1, 0, 32, false⟩
/-- Field `WEB_ENC_ERR_CNT`. -/
def F.WEB_ENC_ERR_CNT : Fld := ⟨0x10044, 0x0, 1, 0, 32, false⟩
/-- Field `WEB_GAP_CNT`. -/
def F.WEB_GAP_CNT : Fld := ⟨0x100BC, 0x0, 1, 0, 32, false⟩
/-- Field `WEB_GEO_CRC_CRC`. -/
def F.WEB_GEO_CRC_CRC : Fld := ⟨0x10064, 0x0, 1, 0, 32, false⟩
/-- Field `WEB_GEO_OMAX_O`. -/
def F.WEB_GEO_OMAX_O : Fld := ⟨0x10070, 0x0, 1, 0, 32, false⟩
/-- Field `WEB_GEO_OMIN_O`. -/
def F.WEB_GEO_OMIN_O : Fld := ⟨0x1006C, 0x0, 1, 0, 32, false⟩
/-- Field `WEB_GEO_STAT_ENTRY_ROW`. -/
def F.WEB_GEO_STAT_ENTRY_ROW : Fld := ⟨0x10068, 0x0, 1, 14, 11, false⟩
/-- Field `WEB_GEO_STAT_EXIT_ROW`. -/
def F.WEB_GEO_STAT_EXIT_ROW : Fld := ⟨0x10068, 0x0, 1, 3, 11, false⟩
/-- Field `WEB_GEO_STAT_PEND`. -/
def F.WEB_GEO_STAT_PEND : Fld := ⟨0x10068, 0x0, 1, 1, 1, false⟩
/-- Field `WEB_GEO_STAT_REFUSED`. -/
def F.WEB_GEO_STAT_REFUSED : Fld := ⟨0x10068, 0x0, 1, 2, 1, false⟩
/-- Field `WEB_GEO_STAT_VALID`. -/
def F.WEB_GEO_STAT_VALID : Fld := ⟨0x10068, 0x0, 1, 0, 1, false⟩
/-- Field `WEB_HOST_SPEED_VAL`. -/
def F.WEB_HOST_SPEED_VAL : Fld := ⟨0x10010, 0x0, 1, 0, 32, false⟩
/-- Field `WEB_HW_W`. -/
def F.WEB_HW_W : Fld := ⟨0x10020, 0x0, 1, 0, 64, true⟩
/-- Field `WEB_LINES_VAL`. -/
def F.WEB_LINES_VAL : Fld := ⟨0x100A8, 0x0, 1, 0, 64, true⟩
/-- Field `WEB_OPEN_CAP`. -/
def F.WEB_OPEN_CAP : Fld := ⟨0x100A4, 0x0, 1, 16, 15, false⟩
/-- Field `WEB_OPEN_OPEN`. -/
def F.WEB_OPEN_OPEN : Fld := ⟨0x100A4, 0x0, 1, 0, 15, false⟩
/-- Field `WEB_POS_W`. -/
def F.WEB_POS_W : Fld := ⟨0x10018, 0x0, 1, 0, 64, true⟩
/-- Field `WEB_PRESET_W`. -/
def F.WEB_PRESET_W : Fld := ⟨0x10038, 0x0, 1, 0, 64, true⟩
/-- Field `WEB_PROF_CUR_ID`. -/
def F.WEB_PROF_CUR_ID : Fld := ⟨0x10080, 0x0, 1, 0, 6, false⟩
/-- Field `WEB_PROF_CUR_VALID`. -/
def F.WEB_PROF_CUR_VALID : Fld := ⟨0x10080, 0x0, 1, 6, 1, false⟩
/-- Field `WEB_PROF_MAP_VAL`. -/
def F.WEB_PROF_MAP_VAL : Fld := ⟨0x10090, 0x0, 1, 0, 64, true⟩
/-- Field `WEB_PROF_NEXT_VAL`. -/
def F.WEB_PROF_NEXT_VAL : Fld := ⟨0x10088, 0x0, 1, 0, 64, true⟩
/-- Field `WEB_PROF_PEND_COUNT`. -/
def F.WEB_PROF_PEND_COUNT : Fld := ⟨0x10084, 0x0, 1, 0, 3, false⟩
/-- Field `WEB_PROF_PEND_NEXT_ID`. -/
def F.WEB_PROF_PEND_NEXT_ID : Fld := ⟨0x10084, 0x0, 1, 4, 6, false⟩
/-- Field `WEB_REC_CTL_CHANNEL`. -/
def F.WEB_REC_CTL_CHANNEL : Fld := ⟨0x100A0, 0x0, 1, 16, 4, false⟩
/-- Field `WEB_REC_CTL_RING`. -/
def F.WEB_REC_CTL_RING : Fld := ⟨0x100A0, 0x0, 1, 0, 2, false⟩
/-- Field `WEB_REC_CTL_TMO`. -/
def F.WEB_REC_CTL_TMO : Fld := ⟨0x100A0, 0x0, 1, 8, 8, false⟩
/-- Field `WEB_REC_DROP_CNT`. -/
def F.WEB_REC_DROP_CNT : Fld := ⟨0x100C0, 0x0, 1, 0, 32, false⟩
/-- Field `WEB_SCALE_VAL`. -/
def F.WEB_SCALE_VAL : Fld := ⟨0x10008, 0x0, 1, 0, 32, false⟩
/-- Field `WEB_SPD_WIN_WIN`. -/
def F.WEB_SPD_WIN_WIN : Fld := ⟨0x1002C, 0x0, 1, 0, 8, false⟩
/-- Field `WEB_SPEED_V`. -/
def F.WEB_SPEED_V : Fld := ⟨0x10028, 0x0, 1, 0, 32, false⟩
/-- Field `WEB_STAT_ACC_RUN`. -/
def F.WEB_STAT_ACC_RUN : Fld := ⟨0x10014, 0x0, 1, 7, 1, false⟩
/-- Field `WEB_STAT_BACK`. -/
def F.WEB_STAT_BACK : Fld := ⟨0x10014, 0x0, 1, 2, 1, false⟩
/-- Field `WEB_STAT_DIR`. -/
def F.WEB_STAT_DIR : Fld := ⟨0x10014, 0x0, 1, 0, 1, false⟩
/-- Field `WEB_STAT_ENC_LOSS`. -/
def F.WEB_STAT_ENC_LOSS : Fld := ⟨0x10014, 0x0, 1, 3, 1, false⟩
/-- Field `WEB_STAT_NO_PROFILE`. -/
def F.WEB_STAT_NO_PROFILE : Fld := ⟨0x10014, 0x0, 1, 8, 1, false⟩
/-- Field `WEB_STAT_OVERSPEED`. -/
def F.WEB_STAT_OVERSPEED : Fld := ⟨0x10014, 0x0, 1, 4, 1, false⟩
/-- Field `WEB_STAT_SRC_ACT`. -/
def F.WEB_STAT_SRC_ACT : Fld := ⟨0x10014, 0x0, 1, 5, 2, false⟩
/-- Field `WEB_STAT_STOPPED`. -/
def F.WEB_STAT_STOPPED : Fld := ⟨0x10014, 0x0, 1, 1, 1, false⟩
/-- Field `WEB_STOP_MS`. -/
def F.WEB_STOP_MS : Fld := ⟨0x10030, 0x0, 1, 16, 16, false⟩
/-- Field `WEB_STOP_TH`. -/
def F.WEB_STOP_TH : Fld := ⟨0x10030, 0x0, 1, 0, 16, false⟩
/-- Field `WEB_TRUNC_CNT`. -/
def F.WEB_TRUNC_CNT : Fld := ⟨0x100B8, 0x0, 1, 0, 32, false⟩
/-- Field `WEB_ZCHK_VAL`. -/
def F.WEB_ZCHK_VAL : Fld := ⟨0x1000C, 0x0, 1, 0, 32, false⟩
/-- Field `WEB_Z_CNT_CNT`. -/
def F.WEB_Z_CNT_CNT : Fld := ⟨0x10048, 0x0, 1, 0, 32, false⟩
/-- Field `WEB_Z_ERR_CNT`. -/
def F.WEB_Z_ERR_CNT : Fld := ⟨0x1004C, 0x0, 1, 0, 32, false⟩
/-- Field `WEB_Z_POS_W`. -/
def F.WEB_Z_POS_W : Fld := ⟨0x10050, 0x0, 1, 0, 64, true⟩

end Sys2Proof.Machine
end

