-- ==== Sys2Proof/Machine/State.lean ====
section
/-! DEFINITION. The state of the block: every register, memory, queue, counter and pin the spec gives it, as plain data,
the queue of waiting commands, and the state right after power-on reset is released. -/

namespace Sys2Proof.Machine

/-- Why the machine stops with a fault. -/
inductive Fault where
  /-- Raised by a register or window access whose offset lies outside the path's address space (R3, R230: BAR0 and the
  management port end at 0xF_FFFF, BAR2 at 0xFFFF). Safe: the hardware has nothing there. -/
  | noAddress (offset : Nat)
  deriving DecidableEq, Repr

/-- Why a command has no meaning here. -/
inductive Refusal where
  /-- A command not yet given its meaning. Safe. -/
  | notModelled (mnemonic : String)
  /-- A factory instruction of the test access port before provisioning: the spec gives it no effect (R355). Safe. -/
  | factoryInstruction (code : Nat)
  deriving DecidableEq, Repr

/-- What the module does towards the outside, oldest first (the model's own record of it). -/
inductive Out where
  /-- A posted write into host memory; `ro` says it carries Relaxed Ordering (R241). -/
  | dmaWrite (addr : Nat) (bytes : List Byte) (ro : Bool)
  /-- A non-posted read of host memory issued (R242). -/
  | dmaRead (id addr len : Nat)
  /-- An MSI-X message of a vector (R244). -/
  | msix (v : Nat) (addr : Nat) (data : Nat)
  /-- The answer of a register or table window read. -/
  | readData (p : Path) (v : Nat)
  /-- A Completer Abort (R230). -/
  | completerAbort
  /-- The answer to a configuration request: retry status or normal, with the double word read (R229, R323). -/
  | cfgReply (retry : Bool) (data : Option Nat)
  /-- The 66-bit blocks of a pair, or of a control group, leave a port: physical lane and block (R176, R177). -/
  | blocks (q : Port) (bs : List (Nat × BitVec 66))
  /-- A management-port data word and its status byte go out on MGT_MISO (R346). -/
  | spi (word : Nat) (status : Nat)
  /-- The data register the test access port connects (R355). -/
  | tap (name : String)
  deriving DecidableEq, Repr

/-! ### Register access paths -/

/-- What the module keeps per access path: latched high words by pair offset (R23), staged low words by pair offset (R24),
and the table window's selection, base, status and latched plate region (R275, R276). -/
structure PathSt where
  shadow : List (Nat × Word)
  staged : List (Nat × Word)
  twSel : Word
  twBase : Word
  wrDenied : Bool
  uncorr : Bool
  region : Option Nat
  deriving DecidableEq, Repr

/-! ### Host interface -/

/-- A buffer descriptor fetched from the host (R237). -/
structure Desc where
  addr : Nat
  len : Nat
  flags : Nat
  cookie : List Byte
  deriving DecidableEq, Repr

/-- A buffer being filled or waiting for its write-back (R237, R238, R241). -/
structure Buf where
  d : Desc
  data : List Byte
  /-- Bytes already written to the host. -/
  sent : Nat
  recs : Nat
  firstT : Option Nat
  contIn : Bool
  contOut : Bool
  dropBefore : Bool
  flushed : Bool
  closed : Bool
  /-- Data written and the barrier read issued (R241). -/
  barrier : Bool
  deriving DecidableEq, Repr

/-- What a ring holds beside its registers: fetched descriptors, buffers in order (the first has index M), whether
records were dropped since the last buffer, and whether the descriptor that follows the fetched ones is invalid. -/
structure RingX where
  descs : List Desc
  bufs : List Buf
  dropped : Bool
  bad : Bool
  /-- EN has been written 0 and the operation in flight has not ended (R234). -/
  closing : Bool
  deriving DecidableEq, Repr

/-- A record formed for a ring: bytes, the strip lines it carries, and the frame buffer it lies in. -/
structure RecX where
  ring : Nat
  data : List Byte
  lines : Nat
  buf : Option Nat
  /-- Where a staged STRIP record begins in its staging area (R239). -/
  ofs : Option Nat
  deriving DecidableEq, Repr

/-- What a non-posted request is for (R242). -/
inductive ReqKind where
  | cmd
  | desc
  | indirect (k : Nat)
  | barrier
  deriving DecidableEq, Repr

/-- Where a non-posted request stands: waiting for its turn, outstanding with its timeout tick, all its bytes held, waiting to be
reissued, discarded while bus mastering is off, or failed for good. -/
inductive ReqSt where
  | wait
  | done
  | out (due : Option Nat)
  | backoff (due : Nat)
  | suspended
  | failed
  deriving DecidableEq, Repr

/-- A non-posted request. -/
structure Req where
  id : Nat
  chan : Nat
  ring : Nat
  addr : Nat
  len : Nat
  tries : Nat
  kind : ReqKind
  st : ReqSt
  /-- Bytes of completions received so far (R242: no byte is used until the count is complete). -/
  got : Nat
  deriving DecidableEq, Repr

/-- The host interface beside its registers. -/
structure HostSt where
  rings : List RingX
  /-- Records formed and not yet staged (RECORD_STAGED). -/
  formed : List RecX
  /-- Records staged for lack of descriptors (R239). -/
  staged : List RecX
  reqs : List Req
  nextReq : Nat
  /-- Completions held for ring 1 (R235). -/
  cpls : List (List Byte)
  /-- Pending MSI-X vectors. -/
  pend : BitVec 32
  /-- The MSI-X table, four words per vector (BAR2 0x8000). -/
  msixTab : Tab Word
  /-- Tick of each vector's previous message. -/
  lastMsg : List (Nat × Nat)
  cfg : CfgCtl
  /-- PTM: captured K armed (R246), last valid dialog tick, lock bookkeeping. -/
  ptmArmed : Bool
  ptmLast : Option Nat
  ptmGood : Nat
  ptmBad : Nat
  /-- The ring each strip channel is delivered to (R240). -/
  chanRing : List Nat
  /-- The channel of priority 3 that issued a request last (R241). -/
  turn : Nat
  /-- Uncorrectable and correctable error status of AER (R229, R242). -/
  aerU : Word
  aerC : Word
  /-- Doorbells accepted in the present clock, newest first, with the host index before each; rings reset in it (R233). -/
  dbNow : List (Nat × Nat)
  rstNow : List Nat
  /-- Where the next STRIP record is staged (R239). -/
  stageOfs : Nat
  /-- Earliest tick of the next PTM dialog (R245). -/
  ptmNext : Nat
  deriving DecidableEq, Repr

/-! ### Commands and security -/

/-- Where a command came from: ring 0, the mailbox by a path, or the group procedure of the stand (R218), whose
transaction collects its status instead of a completion entry. -/
inductive Origin where
  | ring
  | mbx (p : Path)
  | group (txn : Nat)
  deriving DecidableEq, Repr

/-- An accepted command that has not completed (R249). -/
structure Cmd where
  k : Nat
  entry : List Byte
  index : Nat
  origin : Origin
  data : List Byte
  hasData : Bool
  verified : Bool
  started : Bool
  /-- Tick of acceptance (R264). -/
  accT : Nat
  deriving DecidableEq, Repr

/-- A key slot's content (R255, R256). -/
structure Key where
  slot : Nat
  role : Nat
  bytes : List Byte
  deriving DecidableEq, Repr

/-- A scheduled firmware switch (R264): command, bank, earliest tick, T_c. -/
structure FwSwitch where
  k : Nat
  bank : Nat
  teff : Nat
  tc : Nat
  deriving DecidableEq, Repr

/-- A firmware trial or the gap before it: command, new bank, previous bank, tick of the switch, whether the new firmware
runs, and whether the trial failed and the return waits for a boundary. -/
structure FwTrial where
  k : Nat
  bank : Nat
  prev : Nat
  t0 : Nat
  runs : Bool
  failed : Bool
  deriving DecidableEq, Repr

/-- Commands, keys and firmware beside the SEC registers. -/
structure SecSt where
  cmds : List Cmd
  nextK : Nat
  keys : List Key
  /-- Last tick at which a rejection of each status was logged (R253). -/
  rejT : List (Nat × Nat)
  /-- Status, DETAIL and RESULT of this module's part in a group command, by transaction (R218). -/
  parts : List (Nat × Nat × Nat × Nat)
  /-- Bytes staged so far into each firmware bank (R263). -/
  fwOfs : List Nat
  /-- The bank still holds the image it was shipped with, which flash bytes do not show (log 4). -/
  fwShip : List Bool
  fwSwitch : Option FwSwitch
  fwTrial : Option FwTrial
  /-- A mailbox entry submitted and not yet accepted: path, entry, indirect data (none if a word of it was uncorrectable)
  (R249, R261). -/
  mbxWait : Option (Path × List Byte × Option (List Byte))
  /-- A ring entry whose fetch came in while no commands were taken (R264): ring index and bytes. -/
  early : Option (Nat × List Byte)
  deriving DecidableEq, Repr

/-! ### Stores -/

/-- A base cell of a tally counter (R285). -/
structure Cell where
  seq : Nat
  value : Nat
  valid : Bool
  writes : Nat
  deriving DecidableEq, Repr

/-- A tally counter: two base cells and the SEQ held by each entry group (0 in a group never written or torn). -/
structure Tally where
  a : Cell
  b : Cell
  entries : List Nat
  deriving DecidableEq, Repr

/-- What a Keep page write stores when it takes effect. -/
inductive KeepWhat where
  /-- User-area bytes of KEEP_WRITE for command `k`. -/
  | user (k : Nat) (addr : Nat) (bytes : List Byte)
  | key (k : Nat) (x : Key)
  | keyErase (k : Nat) (slot : Nat)
  /-- A converter calibration of AUX_CAL_FULL: map index and gain K (R338). -/
  | auxCal (k : Nat) (idx : Nat) (zero gain : Int)
  /-- Register words that the Keep restores at start-up, by offset (R281). -/
  | regs (l : List (Nat × Word))
  /-- The module state of R281, as it stands at the commit point. -/
  | modState
  /-- An event record, direct mode: its page and the page's bytes before (R291). -/
  | event (page : Nat) (old : List Byte)
  deriving DecidableEq, Repr

/-- A Keep write in the order of request (R280): pages still to write before the commit point and after it. -/
structure KeepJob where
  what : KeepWhat
  pre : Nat
  post : Nat
  /-- Times the page now written has failed (R251). -/
  fails : Nat
  deriving DecidableEq, Repr

/-- What a background flash write stores. -/
inductive FlashWhat where
  /-- The plate in QDR region `r` as field slot instance `inst` (R77). -/
  | plate (range : Nat) (region : Nat) (inst : Nat)
  /-- Stipple map into field slot instance, completing command `k` if any (R82). -/
  | stipple (k : Option Nat) (inst : Nat) (seq : Nat)
  | curve (range : Nat) (inst : Nat) (bytes : List Byte)
  | geometry (bytes : List Byte)
  | profile (k : Nat) (id : Nat) (bytes : List Byte)
  | boot (bytes : List Byte)
  | bootClear
  | fwChunk (k : Nat) (bank : Nat) (ofs : Nat) (bytes : List Byte) (last : Bool)
  | erase (k : Nat) (addr len : Nat)
  | archive
  deriving DecidableEq, Repr

/-- A background flash write and the failures of its block so far (R278). -/
structure FlashJob where
  what : FlashWhat
  fails : Nat
  deriving DecidableEq, Repr

/-- QDR, flash and Keep bookkeeping beside the memories. -/
structure StoreSt where
  tallies : List Tally
  keepQ : List KeepJob
  /-- Keep groups that read back torn, by byte address (R280). -/
  keepTorn : List Nat
  flashQ : List FlashJob
  /-- Spare flash blocks left. -/
  flashSpares : Nat
  /-- QDR words that are uncorrectable until overwritten, by word index (R272). -/
  qdrBad : List Nat
  /-- Field slots invalidated for a write or by a failed check: flash slot kind and instance. -/
  badSlots : List (Nat × Nat)
  /-- Sequence of each geometry, profile and boot slot written last: kind, id, slot. -/
  lastSlot : List (Nat × Nat × Nat)
  /-- Start of the running sweep, tick of the next 60 s mark, whether a sweep is deferred. -/
  sweepT0 : Nat
  nextSweep : Nat
  sweepDue : Bool
  /-- Seconds of operation since the last increment of counter 13, as the tick of that increment (R288). -/
  opT0 : Nat
  /-- Operating seconds in hand when counter 13 has failed. -/
  opBase : Nat
  /-- Register words kept in the module state area of the Keep, by offset (R281). -/
  kept : List (Nat × Word)
  deriving DecidableEq, Repr

/-! ### Health -/

/-- Rate limiting of one event code: start of its second, records logged in it, suppressed since its last record (R292). -/
structure EvRate where
  code : Nat
  t0 : Nat
  n : Nat
  suppressed : Nat
  deriving DecidableEq, Repr

/-- An element queued for its targeted self-test (R295). -/
structure TestQ where
  ss : Nat
  elem : Nat
  code : Nat
  since : Nat
  /-- Counts of further events naming the element while it waits. -/
  more : Nat
  /-- The self-test command run this test belongs to, if any. -/
  full : Bool
  deriving DecidableEq, Repr

/-- A repair under way (R296): trim steps done, policy it began with. -/
structure RepairX where
  ss : Nat
  elem : Nat
  code : Nat
  steps : Nat
  policy : Nat
  full : Bool
  deriving DecidableEq, Repr

/-- An element set aside by substitution, its consecutive passes and the operating second of its last retest (R296). -/
structure Aside where
  ss : Nat
  elem : Nat
  /-- Code of the event that queued its test. -/
  code : Nat
  passes : Nat
  lastOp : Nat
  deriving DecidableEq, Repr

/-- A HEALTH_SELFTEST in progress (R297). -/
structure SelfTest where
  ks : List Nat
  scope : Nat
  left : List (Nat × Nat)
  fails : Nat
  /-- Requested by the module itself (revenant, R210). -/
  own : Bool
  deriving DecidableEq, Repr

/-- One stored Margin Plan result (R303): operating hour and subsystem margins in 1/10,000. -/
structure PlanRes where
  hour : Nat
  margins : List Nat
  deriving DecidableEq, Repr

/-- The Margin Plan's output 3 waiting for its proof (R302): new trims, the trims in force before, whether applied. -/
structure RadioPend where
  cgNew : List Int
  cgOld : List Int
  skimNew : List (Nat × Int)
  skimOld : List (Nat × Int)
  range : Nat
  inForce : Bool
  deriving DecidableEq, Repr

/-- Health beside its registers. -/
structure HealthSt where
  rates : List EvRate
  /-- Event log pages of the Keep, by page number (R291). -/
  evPages : Tab (List Byte)
  /-- Event records copied into the flash log archive, oldest first. -/
  archive : List (List Byte)
  queue : List TestQ
  transients : List (Nat × Nat × Nat)
  repairs : List RepairX
  aside : List Aside
  trims : List (Nat × Nat × Int)
  selfTests : List SelfTest
  /-- Largest element fault counts toward a failed QDR channel. -/
  failedElems : List (Nat × Nat)
  plans : List PlanRes
  planDue : Option Nat
  planLastOp : Nat
  planKs : List Nat
  planBusy : Nat
  planStart : Option Nat
  radio : Option RadioPend
  vcoreTarget : Nat
  vcoreT : Nat
  outliers : List (Nat × Nat)
  rcT : Nat
  blindR : List Int
  /-- Skimming trim entries the Margin Plan has put in force for good: range, channel, value (R301). -/
  skim : List (Nat × Nat × Int)
  /-- Pipeline lanes that leave service (true) or return at the next frame boundary (R296). -/
  laneNext : List (Nat × Bool)
  deriving DecidableEq, Repr

/-! ### Focal plane -/

/-- The fields of an acquisition set (R37). -/
structure AcqSet where
  idx : Nat
  tint : Nat
  tslot : Nat
  period : Nat
  bias : Nat
  skim : Nat
  gain : Nat
  src : Nat
  rowFirst : Nat
  rowSlots : Nat
  cgFirst : Nat
  cgCount : Nat
  deriving DecidableEq, Repr

/-- A pending commit (R44, R45): command waiting for it, set, generation, effective commit time. -/
structure Commit where
  k : Option Nat
  set : AcqSet
  gen : Nat
  teff : Nat
  deriving DecidableEq, Repr

/-- A pixel value with its marks (R57). -/
structure Px where
  v : Int
  sat : Bool
  inv : Bool
  repl : Bool
  clu : Bool
  deriving DecidableEq, Repr

/-- The data of one row slot on its way through the pipeline: rows of the taps it has reached. -/
structure SlotX where
  slot : Nat
  lost : Bool
  tap0 : List (List Nat)
  /-- 16 u - D by pixel, in 1/16 of a 1/4 count (R124). -/
  w : List (List Int)
  tap1 : List (List Px)
  tap2 : List (List Px)
  tap3 : List (List Px)
  tap4 : List (List Px)
  /-- Temperature before the 20 mK rounding is not kept; the slot has left the pipeline. -/
  done : Bool
  accumulated : Bool
  /-- A word of the slot's data or state could not be corrected (R273). -/
  uncorr : Bool
  /-- Pixels at TAP4 lost to an uncorrectable word: row of the slot and column of the window (R156). -/
  uncPix : List (Nat × Nat)
  deriving DecidableEq, Repr

/-- Pixel counts of a frame: restarted, gated, sampled by the Burin stage, saturated low and high, without value, INV at
replacement (R80, R92, R108). -/
structure FrameCnt where
  restart : Nat
  gated : Nat
  total : Nat
  satLow : Nat
  satHigh : Nat
  noval : Nat
  invalid : Nat
  deriving DecidableEq, Repr

/-- A frame from its boundary until its slots have been accumulated: what the boundary bound to it (R20, R29, R65, R72). -/
structure Frame where
  cnt : Nat
  b : Nat
  gen : Nat
  set : AcqSet
  /-- The registers as they stood at the boundary (R29). -/
  cfg : List (Nat × Word)
  stageT : Nat
  stageQ : Int
  frameT : Int
  region : Nat
  plateSeq : Nat
  plateNow : Bool
  triggered : Bool
  shutter : Bool
  /-- Frame not read out: every second frame of R298, or none. -/
  dark : Bool
  /-- Slots from this one on are not read (R54). -/
  cut : Option Nat
  slots : List SlotX
  /-- L and R of the row read last; none before the first row, an inner none after a row that took INV (R59). -/
  lastLR : Option (Option (Rat × Rat))
  rowFallback : Bool
  chInit : Bool
  /-- Slices whose channels are initialised in this frame (R63). -/
  initSlices : List Nat
  /-- Columns under R32 and the blind channels excluded in this frame. -/
  substCols : List Nat
  blindExcl : List Nat
  cluPix : List Nat
  /-- Largest and smallest round(cm(1288)) over the active rows so far. -/
  cmSpan : Option (Int × Int)
  cls : Nat
  reasons : Nat
  /-- Web coordinate and high-water mark at the midpoint of each slot, and the coordinate at the boundary. -/
  webB : Nat
  webE : Option Nat
  /-- The stage was not in REGULATED or FREE in the frame (R156). -/
  stageOff : Bool
  wMarks : List (Nat × Nat × Nat)
  /-- The drift offset D_m of the frame (R97). -/
  dm : Int
  fc : FrameCnt
  /-- Its statistics have been taken (R164, R165). -/
  closed : Bool
  deriving DecidableEq, Repr

/-- A Coppice substitution of a readout slice (R31, R32): group, column, spare slice index 0 or 1, whether a proof and the
channel calibration have been done since, passes of the calibration, and whether it is in force yet. -/
structure Subst where
  group : Nat
  col : Nat
  spare : Nat
  inForce : Bool
  proof : Bool
  cal : Bool
  passes : Nat
  /-- A proof and the channel calibration have both been done, and the column counts as sound again (R32, R139). -/
  closed : Bool
  deriving DecidableEq, Repr

/-- The readout beside its registers. -/
structure FpaSt where
  set : AcqSet
  pend : Option Commit
  /-- A commit accepted at or after the boundary at which the pending one takes effect, but before that boundary's row (R47). -/
  pendNext : Option Commit
  frames : List Frame
  lastB : Option Nat
  /-- The next boundary, once known. -/
  nextB : Option Nat
  nextTrig : Bool
  /-- Earliest first boundary after a start of imaging (R49). -/
  startAt : Option Nat
  /-- Tick at which RUN was set, and whether the commit then pending governs the first frame (R49). -/
  startT : Nat
  startNew : Bool
  /-- Commands of STOP_IMAGING waiting for the frame in progress to end. -/
  stopKs : List Nat
  readoutStop : Bool
  /-- Readout held by loss of the clock (R318). -/
  clockStop : Bool
  substs : List Subst
  blindExcl : List Nat
  blindNext : List Nat
  prevGroups : List Nat
  everFrame : Bool
  /-- Channel filters D in 1/16 of a 1/4 count, by channel index; a channel not listed has no filtered value (R61, R63). -/
  chD : List (Nat × Int)
  /-- Channels whose initialisation waits for a usable sample. -/
  chWait : List Nat
  /-- Even frames are dropped under R298. -/
  halfRate : Bool
  /-- Converter gain trims per slice, 1/1024 steps (R296). -/
  sliceTrim : List (Nat × Int)
  /-- Skimming trim entries in force are in QDR; CG trims in force are registers. -/
  biasOn : Bool
  deriving DecidableEq, Repr

/-- A diode reading of the running 1 ms period. -/
structure DiodeRd where
  diode : Nat
  mK : Int
  tripped : Bool
  deriving DecidableEq, Repr

/-- The stage controller beside its registers (R50 to R54). -/
structure StageSt where
  feeds : List DiodeRd
  hist : List (Nat × Int)
  invalidSince : List (Option Nat)
  excluded : List Nat
  trims : List (Nat × Int)
  validNow : Nat
  settleT : Option Nat
  regT : Option Nat
  lowT : Option Nat
  okT : Option Nat
  limitT : Option Nat
  dutyHist : List (Nat × Nat)
  held : Option Nat
  /-- The pending step: mode and setpoint (R53). -/
  pend : Option (Nat × Nat)
  /-- A step was started and has not settled. -/
  stepping : Bool
  /-- The stage has settled since start-up (R121 START). -/
  settledOnce : Bool
  hot : Bool
  ts : List Int
  /-- Diodes excluded for good (R296). -/
  perm : List Nat
  deriving DecidableEq, Repr

/-! ### Plates, stipple map, capture -/

/-- What a plate region holds (R69): validity, range, source code, SEQ, and whether it stands in flash. -/
structure RegionX where
  valid : Bool
  range : Nat
  src : Nat
  seq : Nat
  deriving DecidableEq, Repr

/-- A swap that awaits its boundary (R72): tick T_ready, whether a proof made the plate. -/
structure SwapX where
  ready : Nat
  proof : Bool
  /-- RUN at the tick T_ready + 2000, once that tick has passed (R73). -/
  ranAt : Option Bool
  deriving DecidableEq, Repr

/-- An accepted stipple edit (R82): command, tick of acceptance, entries column, row, set mask, clear mask. -/
structure StEdit where
  k : Option Nat
  t : Nat
  seq : Nat
  entries : List (Nat × Nat × Nat × Nat)
  deriving DecidableEq, Repr

/-- A FRAME_CAPTURE (R83): command, tap, ring, decimation, frames left (none when continuous), earliest boundary, frames
seen, frames dropped since the last record, cookie. -/
structure Capture where
  k : Nat
  tap : Nat
  ring : Nat
  dec : Nat
  left : Option Nat
  fromT : Nat
  seen : Nat
  dropped : Nat
  cookie : Nat
  deriving DecidableEq, Repr

/-- A frame buffer holding a frame being captured or awaiting DMA (R85). -/
structure CapBuf where
  frame : Nat
  b : Nat
  period : Nat
  cap : Capture
  dropped : Nat
  ready : Bool
  deriving DecidableEq, Repr

/-- Plates, stipple map and capture beside their registers. -/
structure PipeSt where
  regions : List RegionX
  swap : Option SwapX
  hostHold : Option Nat
  plateNow : Bool
  /-- Plate in flight to flash and the newest one waiting: range and region (R77). -/
  persist : Option (Nat × Nat)
  persistWait : List (Nat × Nat)
  /-- The plate in flight has been read out of its region: whether it was free of uncorrectable words (R77, R273). -/
  persistRead : Option Bool
  edits : List StEdit
  stSeq : Nat
  stInst : Nat
  cluPix : List Nat
  /-- An evaluation of clusters that waits for its change: flagged clusters and defective pixels (R81). -/
  cluNext : Option (List (List Nat) × List Nat)
  cluFlagged : List (List Nat)
  cap : Option Capture
  capNext : Option Capture
  capBufs : List (Option CapBuf)
  /-- Captures that have ended, with their status, while frames of them are in a buffer. -/
  capEnds : List (Nat × Nat)
  deriving DecidableEq, Repr

/-! ### Burin stage, drift model, curves -/

/-- The tag kept with a stamp (R92). -/
structure BuTag where
  seq : Nat
  tint : Nat
  bias : Nat
  skim : Nat
  gain : Nat
  deriving DecidableEq, Repr

/-- The Burin state of a pixel (R91): the input y, and whether it carried REPL, INV or SAT. -/
structure BuPx where
  y : Int
  repl : Bool
  bad : Bool
  deriving DecidableEq, Repr

/-- The drift references of a plate, by its SEQ (R98). -/
structure DriftRef where
  seq : Nat
  t : Int
  f : Int
  q : Int
  op : Nat
  tint : Nat
  deriving DecidableEq, Repr

/-- The result of a learning step waiting for its plate (R99, R100). -/
structure Learn where
  range : Nat
  ks : List Int
  err : Int
  learned : Bool
  deriving DecidableEq, Repr

/-- An accepted curve waiting for its boundary (R103). -/
structure CurveP where
  range : Nat
  t : Nat
  seq : Nat
  bytes : List Byte
  deriving DecidableEq, Repr

/-- Burin state, drift references and curves. -/
structure BurinSt where
  /-- |err| of the last four learning steps, newest first (R301 output 4). -/
  errs : List Nat
  /-- Burin state by pixel index r × 2560 + c. -/
  px : List (Nat × BuPx)
  /-- Stamp and tag by row slot × 80 + column group (R87). -/
  stamps : List (Nat × Nat × BuTag)
  refs : List DriftRef
  learn : Option Learn
  curves : List CurveP
  /-- A curve of the range took effect after its plate's proof (R111 bit 10). -/
  curveAfter : List Bool
  /-- A curve that waits for the write in progress to end: range and image (R77, R103). -/
  curveWait : Option (Nat × List Byte)
  /-- A proof has been completed since start-up (R111 bit 7). -/
  proofDone : Bool
  /-- Class of the last frame evaluated, for CLASS_CHANGE (R114). -/
  lastCls : Nat
  deriving DecidableEq, Repr

/-! ### Power, clocks, resets, start-up -/

/-- A domain that is draining: domain, tick of its drain limit, command, whether it is already being switched off. -/
structure Drain where
  dom : Nat
  t0 : Nat
  due : Nat
  k : Option Nat
  ending : Option Nat
  aborted : Nat
  deriving DecidableEq, Repr

/-- A domain on its way up: domain, tick of acceptance, command. -/
structure PUp where
  dom : Nat
  t : Nat
  k : Option Nat
  deriving DecidableEq, Repr

/-- Power, clocks, resets and start-up beside their registers. -/
structure PwrSt where
  drains : List Drain
  ups : List PUp
  /-- PD105 and PD106 switched to on demand, and the tick of their last access while awake. -/
  demand : List (Nat × Option Nat)
  satIn : Nat
  satOut : Nat
  satEnd : Option Nat
  /-- Saturated within the look-back of learning (R99): last tick of saturation. -/
  lastSat : Option Nat
  spPend : Option Nat
  /-- The setpoint a ramp goes to, and samples since its last step of 1 mW (R315). -/
  rampTo : Option Nat
  rampN : Nat
  /-- Ballast power driven, in 1/2 mW, and the setpoint in force in mW (R313, R315). -/
  bal2 : Nat
  sp : Nat
  /-- Power-on reset is held (R319). -/
  por : Bool
  /-- `RESET_N` is held low. -/
  rstLow : Bool
  startT0 : Nat
  /-- A start-up that is not a power-on (R305). -/
  warm : Bool
  perstT : Option Nat
  vioLow : List Bool
  straps : Nat
  refLostT : Option Nat
  /-- PLL still to relock after `REFCLK` returned. -/
  relock : Bool
  deriving DecidableEq, Repr

/-! ### Shutter, proofs, glades, channel calibration -/

/-- A drive of the shutter (R115): direction, start, attempts before it (3 once an open is given up), whether the pulse is still
driven, sensed, an open that has failed and waits for its retry (R118). -/
structure Drive where
  close : Bool
  t0 : Nat
  tries : Nat
  driving : Bool
  sensed : Bool
  failed : Bool
  deriving DecidableEq, Repr

/-- A frame of the τ fit (R129): count, boundary, generation, whether triggered, TAP2 values by pixel. -/
structure FitFrame where
  cnt : Nat
  b : Nat
  gen : Nat
  trig : Bool
  y : List (Nat × Int)
  deriving DecidableEq, Repr

/-- Sum and sum of squares of w in 1/16 of a 1/4 count, and number of counted samples of a pixel (R124, R299). -/
structure PixSum where
  sum : Int
  sq : Int
  n : Nat
  deriving DecidableEq, Repr

/-- Sum and number of TAP2 values of a band in a frame (R128). -/
structure BandSum where
  frame : Nat
  band : Nat
  sum : Int
  n : Nat
  deriving DecidableEq, Repr

/-- What a proof gathers and computes (R121 to R129). -/
structure ProofRun where
  t0 : Nat
  /-- Request bits set when the close drive began. -/
  req : Nat
  gen : Nat
  range : Nat
  settleEnd : Nat
  /-- Averaged frames: count and boundary, oldest first; the end B + P of the last. -/
  frames : List (Nat × Nat)
  lastEnd : Nat
  tcp : Option Nat
  /-- Sums of w in 1/16 of a 1/4 count and counted samples, by pixel (R124). -/
  sums : Tab PixSum
  /-- Sum and number of TAP2 values by frame and band (R128). -/
  bands : List BandSum
  /-- Largest and smallest usable result and their sum and number over the averaging interval (R119, R120). -/
  blade : List Int
  bladeBad : Bool
  /-- T, F, Q, operating seconds and the channel filters at the last averaged frame. -/
  atT : Int
  atF : Int
  atQ : Int
  atOp : Nat
  atDm : Int
  atTint : Nat
  /-- BIAS and SKIM in force in the averaged frames (R42, R67). -/
  bias : Nat
  skim : Nat
  chD : List (Nat × Int)
  st : Int
  tBlade : Int
  /-- Measured offsets by pixel; a pixel not listed keeps its OFS (R124). -/
  meas : List (Nat × Rat)
  computed : Bool
  openT : Option Nat
  /-- TAP2 values of the fitting frames: frame, boundary, generation, free-running, pixel values (R129). -/
  fit : List FitFrame
  fitEnd : Nat
  fitSpeedBad : Bool
  fitted : Bool
  /-- The ballast reported saturation in the 60 s before the close drive (R99). -/
  satBefore : Bool
  /-- New TAU values by pixel. -/
  taus : List (Nat × Nat)
  deriving DecidableEq, Repr

/-- Shutter and proofs beside their registers. -/
structure ProofSt where
  drive : Option Drive
  /-- Start of the closure interval while it runs, and the last one (start, end). -/
  closure : Option Nat
  lastClosure : Option (Nat × Nat)
  /-- Level of each sense input and the tick at which it took it (R117). -/
  pos : List (Bool × Nat)
  bothT : Option Nat
  bothFault : Bool
  /-- Tick at which the last condition of R122 became true. -/
  condT : Option Nat
  /-- Ticks at which the request bits were set. -/
  reqT : List (Nat × Nat)
  run : Option ProofRun
  /-- A proof whose plate is accepted and waits for its swap: request bits, plate SEQ and range. -/
  accepted : Option (Nat × Nat × Nat)
  /-- The proof token is held (R136). -/
  token : Bool
  deriving DecidableEq, Repr

/-- Glades beside their registers (R131 to R133). -/
structure GladeSt where
  /-- Level of GLADE_IN (asserted), the tick it was taken, and the GLADE_IN window. -/
  inAss : Bool
  inT : Nat
  inOpen : Bool
  level : Bool
  slowT : Option Nat
  spdOpen : Bool
  decl : Option (Nat × Nat)
  prof : Option (Nat × Nat)
  relay : Bool
  /-- Ticks at which the module's own windows opened (true) and closed, newest first, against which a relayed change is laid at
  its own tick (R133). -/
  ownLog : List (Nat × Bool)
  /-- The end before the one shown, should a relayed window show that the glade went on (R133). -/
  prevEnd : Nat
  deriving DecidableEq, Repr

/-- Channel calibration (R138, R139): g of the last pass by channel index, the next group in turn, end of the running pass. -/
structure CcSt where
  g : List (Nat × Nat)
  next : Nat
  lastEnd : Nat
  vbStart : Option Nat
  sumSpare : List (Nat × Nat × Nat)
  done : Nat
  deriving DecidableEq, Repr

/-- Proofs at reset: the blade open. -/
def ProofSt.reset : ProofSt := ⟨none, none, none, [(false, 0), (false, 0)], none, false, none, [], none, none, false⟩

/-- Glades at reset: none open. -/
def GladeSt.reset : GladeSt := ⟨false, 0, false, false, some 0, false, none, none, false, [], 0⟩

/-- Channel calibration at reset. -/
def CcSt.reset : CcSt := ⟨[], 0, 0, none, [], 0⟩


/-! ### Auxiliary converter -/

/-- Entries, round period in µs and comparator enables of a sequence (R331, R333): CFG and WIN words by entry. -/
structure AuxSeq where
  ents : List (Nat × Nat)
  period : Nat
  win : Nat
  deriving DecidableEq, Repr

/-- A run of an entry that the converter has begun (R331, R332): entry, its CFG and WIN words, whether its comparator is
enabled, and the tick of its last hold. -/
structure AuxRun where
  n : Nat
  cfg : Nat
  win : Nat
  cmp : Bool
  hold : Nat
  deriving DecidableEq, Repr

/-- A calibration of AC0 to AC11 (R337): index (5 × channel + gain code) × 3 + reference, Z, K, tick of its commit. -/
structure AuxCal where
  idx : Nat
  z : Int
  k : Int
  t : Nat
  deriving DecidableEq, Repr

/-- A calibration measurement (R338): command, the applied value of AUX_CAL_FULL, channel, gain code, reference, rounds seen
since it began. -/
structure AuxMeas where
  k : Nat
  v : Option Int
  ch : Nat
  g : Nat
  ref : Nat
  /-- Calibration slots used so far, 64 samples each, and the last hold of the newest. -/
  rounds : Nat
  slotEnd : Nat
  deriving DecidableEq, Repr

/-- A result gathered for a ring record (R340): entry, flags, value, timestamp. -/
structure AuxRec where
  n : Nat
  fl : Nat
  v : Int
  t : Nat
  deriving DecidableEq, Repr

/-- The auxiliary converter beside its registers. -/
structure AuxSt where
  act : AuxSeq
  pend : Option AuxSeq
  /-- AUX_SEQ_LOAD commands that complete when the pending sequence is in force. -/
  pendKs : List Nat
  /-- Entries due and not started. -/
  due : List Nat
  /-- Runs begun whose result has not come. -/
  runs : List AuxRun
  /-- The converter is free from this tick on. -/
  free : Nat
  /-- Start of the next round. -/
  next : Nat
  /-- The calibration slot of this round is still to come. -/
  slot : Bool
  /-- Tick at which the selected reference began to settle; none once settled. -/
  refT : Option Nat
  /-- Tick at which PD104 came up; none while it is off. -/
  intT : Option Nat
  cals : List AuxCal
  zero : Option AuxCal
  meas : Option AuxMeas
  recs : List AuxRec
  deriving DecidableEq, Repr

/-- CFG and WIN words of entry `n` at reset (R335). -/
def auxEntry (n : Nat) : Nat × Nat :=
  let cfg (ch s a trig dest : Nat) : Nat := ch + s * 2 ^ 8 + (a - 1) * 2 ^ 18 + trig * 2 ^ 26 + dest * 2 ^ 28 + 2 ^ 31
  let win (lo hi : Nat) : Nat := lo + hi * 2 ^ 16
  let all := win 0x8000 0x7FFF
  if n < 4 then (cfg (22 + n) 16 64 0 2, win 4096 28672)
  else if n < 6 then (cfg (22 + n) 16 16 0 2, all)
  else if n < 8 then (cfg (22 + n) 8 32 0 2, all)
  else if n = 8 then (cfg 18 8 16 0 2, win 18800 21300)
  else if n = 9 then (cfg 20 8 16 0 2, all)
  else if n = 10 then (cfg 30 4 4 0 2, win 0x8000 24576)
  else if n = 11 then (cfg 0 64 16 2 4, all)
  else (0, 0)

/-- Converter at reset (R335): the reset sequence in force, no reference settled. -/
def AuxSt.reset : AuxSt :=
  ⟨⟨(List.range 16).map auxEntry, 1000, 0x050F⟩, none, [], [], [], 0, 0, false, none, none, [], none, none, []⟩
/-! ### Web, strip, statistics, alarms -/

/-- A line grid laid by a profile from coordinate `x0` (R147). -/
structure Grid where
  x0 : Nat
  prof : Nat
  /-- The coordinate source has reached it, so its glade attribute has been taken (R131). -/
  taken : Bool
  deriving DecidableEq, Repr

/-- A strip pixel being accumulated (R149, R150): Σ w, Σ w T, valid depth, a SAT sample came. -/
structure StripPx where
  sw : Nat
  swt : Nat
  vd : Nat
  sat : Bool
  deriving DecidableEq, Repr

/-- What an open line held before a frame's first sample (R130). -/
structure LineWas where
  cnt : Nat
  depth : Nat
  flags : Nat
  genLo : Nat
  genHi : Nat
  cls : Nat
  px : List StripPx
  deriving DecidableEq, Repr

/-- An open line that samples have reached. -/
structure Line where
  start : Nat
  /-- Count of the frame that opened it (R152). -/
  born : Nat
  depth : Nat
  flags : Nat
  genLo : Nat
  genHi : Nat
  cls : Nat
  px : List StripPx
  /-- Its place in the strip accumulator (R152, R266). -/
  cell : Nat
  /-- What it held before the first sample of the frame that fed it last (R130). -/
  was : Option LineWas
  deriving DecidableEq, Repr

/-- An emitted line; `edge` says it is the first of its grid. -/
structure EmLine where
  start : Nat
  len : Nat
  prof : Nat
  chan : Nat
  flags : Nat
  trunc : Bool
  edge : Bool
  vals : List Nat
  sat : List Bool
  /-- Valid depth of each pixel; of a merged line, the smallest that its segments give. -/
  vd : List Nat
  /-- Largest valid depth of each pixel where it differs from the smallest (R221). -/
  vmax : List Nat
  dmin : Nat
  dmax : Nat
  depth : Nat
  genLo : Nat
  genHi : Nat
  cls : Nat
  index : Nat
  tEmit : Nat
  deriving DecidableEq, Repr

/-- A strip record being filled (R157, R158). -/
structure RecOpen where
  t0 : Nat
  lines : List EmLine
  deriving DecidableEq, Repr

/-- A SHUTTER frame's span for line flags (R156): boundary, end, W at both, O_min and O_max. -/
structure ShutSpan where
  b : Nat
  e : Nat
  wB : Nat
  wE : Option Nat
  omin : Int
  omax : Int
  deriving DecidableEq, Repr

/-- A geometry map (R145). -/
structure Geo where
  hdr : List Byte
  o : List Int
  x : List Int
  deriving DecidableEq, Repr

/-- The web and the strip beside their registers. -/
structure WebSt where
  /-- Remainder of the host-speed motion in 1/65,536 µm per 10⁸. -/
  hostRem : Int
  /-- Coordinate after the last counted edge and the edge's tick (R143). -/
  we : Nat
  te : Nat
  /-- Motion without presets, and its values at the 100 µs marks (R144). -/
  motion : Int
  marks : List (Nat × Int)
  /-- The speed of R144, exactly: motion in 1/65,536 µm over a number of ticks. -/
  vNum : Int
  vDen : Nat
  encA : Bool
  encB : Bool
  /-- Tick after the last accepted change of `ENC_A`, of `ENC_B` and rising edge of `ENC_Z` (R140). -/
  encTa : Nat
  encTb : Nat
  encTz : Nat
  /-- Counts since power-on, which no clear touches (R141). -/
  encSum : Int
  /-- The fail-safe output of the encoder has been active for more than 10 µs (R141). -/
  failSafe : Bool
  /-- Tick of the last logged illegal transition. -/
  errT : Option Nat
  /-- Fail-safe since; returned to the encoder only at an edge. -/
  lossT : Option Nat
  onHost : Bool
  zCount : Int
  zSeen : Bool
  /-- Tick since which |v| has been below the stop threshold. -/
  slowT : Option Nat
  geo : Option Geo
  geoPend : Option Geo
  /-- Job profile images by ID (R160). -/
  profs : List (Nat × List Byte)
  cur : Option Grid
  /-- Accepted switches: grid and whether its effect has been taken by the coordinate source (R131, R162). -/
  switches : List Grid
  /-- Start of the next line to emit, where the first grid began, and the lines emitted ahead of the next one (R155). -/
  cursor : Option Nat
  origin : Option Nat
  ahead : List Nat
  lines : List Line
  /-- Lines not opened for lack of room (R152). -/
  trunc : List Nat
  /-- Tick at which each line left the field, by start coordinate (R171, R305). -/
  leftT : List (Nat × Nat)
  shut : List ShutSpan
  /-- The boot profile waits for the first start of imaging (R162). -/
  bootProf : Option Nat
  wasBack : Bool
  deriving DecidableEq, Repr

/-- Statistics of a lane in a block (R163). -/
structure LaneAcc where
  mn : Nat
  mx : Nat
  sum : Nat
  n : Nat
  above : Nat
  below : Nat
  inval : Nat
  sat : Nat
  deriving DecidableEq, Repr

/-- A lane statistics block (R163). -/
structure Block where
  prof : Nat
  first : Nat
  lines : Nat
  /-- Lowest and highest generation of the samples so far. -/
  gens : Option (Nat × Nat)
  mixed : Bool
  early : Bool
  lanes : List LaneAcc
  deriving DecidableEq, Repr

/-- A histogram (R164). -/
structure Hist where
  gen : Nat
  b : Nat
  low : Nat
  width : Nat
  bins : List Nat
  under : Nat
  beyond : Nat
  noval : Nat
  deriving DecidableEq, Repr

/-- The flicker buffer of a region: generation, frame means, their boundaries, frames since the last spectrum (R165). -/
structure FlkBuf where
  gen : Nat
  means : List Rat
  bs : List Nat
  since : Nat
  deriving DecidableEq, Repr

/-- A flicker result (R165, R166). -/
structure FlkRes where
  valid : Bool
  bin : Nat
  k : Nat
  amp : Nat
  dc : Nat
  ny : Nat
  frames : Nat
  first : Nat
  gen : Nat
  period : Nat
  deriving DecidableEq, Repr

/-- Statistics beside their registers. -/
structure StatSt where
  block : Option Block
  last : Option Block
  hist : Option Hist
  histN : Nat
  flk : List FlkBuf
  res : List FlkRes
  deriving DecidableEq, Repr

/-- A queued alarm interval (R170): delay line, output, start, end, and the tick of a tardy decision. -/
structure AlInt where
  line : Nat
  out : Nat
  a : Nat
  e : Nat
  late : Option Nat
  deriving DecidableEq, Repr

/-- A run of violating lines of a rule (R169). -/
structure RuleRun where
  prof : Nat
  rule : Nat
  run : Nat
  start : Nat
  deriving DecidableEq, Repr

/-- Alarms beside their registers. -/
structure AlarmSt where
  ints : List AlInt
  runs : List RuleRun
  /-- Interval level and end of the running pulse of each output. -/
  inside : List Bool
  pulse : List (Option Nat)
  deriving DecidableEq, Repr

/-- Web at reset. -/
def WebSt.reset : WebSt :=
  ⟨0, 0, 0, 0, [], 0, 1, false, false, 0, 0, 0, 0, false, none, none, false, 0, false, some 0, none, none, [], none, [], none, none, [],
   [], [], [], [], none, false⟩

/-- Statistics at reset. -/
def StatSt.reset : StatSt :=
  ⟨none, none, none, 0, List.replicate 16 ⟨0, [], [], 0⟩, List.replicate 16 ⟨false, 0, 0, 0, 0, 0, 0, 0, 0, 0⟩⟩

/-- Alarms at reset. -/
def AlarmSt.reset : AlarmSt := ⟨[], [], [false, false, false, false], [none, none, none, none]⟩

/-! ### Jartan link -/

/-- One egress queue class of a port (R192): flits of the module's own origin (those beyond the depth wait at their
source) and forwarded flits, and which kind went last. -/
structure EgQ where
  own : List Flit
  fwd : List Flit
  ownLast : Bool
  deriving DecidableEq, Repr

/-- A lane mask change under way (R186): new mask, pair counter of the switch, acknowledged. -/
structure MaskChg where
  mask : Nat
  cnt : Nat
  ack : Bool
  deriving DecidableEq, Repr

/-- A port beside its registers. -/
structure PortX where
  qs : List EgQ
  /-- Time left, in elevenths of a block over all lanes, of the pair or control group being sent. -/
  busy : Nat
  /-- Last progress in training. -/
  progT : Nat
  rxMask : Nat
  txMask : Nat
  chgRx : Option MaskChg
  chgTx : Option MaskChg
  /-- Mask and counter of an acknowledging LM group still to be sent. -/
  ackTx : Option (Nat × Nat)
  /-- Pairs received and sent, modulo 65,536, and the fraction of the pair being received. -/
  pairRx : Nat
  pairTx : Nat
  rxAcc : Nat
  /-- Data blocks sent since the last control group, blocks since the last AM period began, AM periods begun, and each lane's
  scrambler (R176, R177). -/
  txN : Nat
  txTot : Nat
  amN : Nat
  scr : List Nat
  /-- Lanes set aside, and the tick of the lock each has held since. -/
  failed : List (Nat × Nat)
  /-- Measured delays in ps, newest first (R194). -/
  delays : List Int
  /-- Egress stamp and SEQ of the DREQ outstanding. -/
  dreq : Option (Nat × Nat × Nat)
  dreqSeq : Nat
  dreqT : Option Nat
  scanning : Bool
  /-- Start of the running second of each lane's corrected symbols, and their count at it (R295). -/
  symWin : List (Nat × Nat)
  deriving DecidableEq, Repr

/-- An encoder sample received (R199): T, W, V, PRESET. -/
structure EncS where
  t : Nat
  w : Nat
  v : Int
  preset : Bool
  deriving DecidableEq, Repr

/-- The link beside its registers. -/
structure LinkSt where
  ports : List PortX
  /-- Next SEQ of each type sent; last SEQ accepted by source and type. -/
  seqTx : List (Nat × Nat)
  seqRx : List (Nat × Nat × Nat)
  /-- Ring order, whether closed, branches (host slot, branch slot), hops marked cut (slot, port). -/
  order : List Nat
  closed : Bool
  branches : List (Nat × Nat)
  cuts : List (Nat × Nat)
  /-- Host port function change: tick at which it began. -/
  switchT : Option Nat
  lastTime : Option Nat
  good : Nat
  bad : Nat
  /-- Slew still to apply in 1/65,536 tick, and its remainder (R15). -/
  slew : Int
  slewAcc : Int
  rateAcc : Int
  holdT : Option Nat
  everLocked : Bool
  enc : List EncS
  encAge : Nat
  lastEnc : Option Nat
  encSeq : Option Nat
  presetSent : Bool
  /-- `RING_EN` in force (R173). -/
  ringEn : Bool
  /-- Records of other slots being received: source, type, bytes so far (R184). -/
  asm : List (Nat × Nat × List Byte)
  /-- Tick of the last TIME flit this time master sent (R195). -/
  timeSentT : Option Nat
  /-- Frame buffers whose records wait for a port, in order: port and buffer (R192). -/
  frameOut : List (Nat × Nat)
  deriving DecidableEq, Repr

/-- A port at reset. -/
def PortX.reset : PortX :=
  ⟨List.replicate 5 ⟨[], [], false⟩, 0, 0, 0, 0, none, none, none, 0, 0, 0, 0, 0, 0, [0, 0, 0, 0], [], [], none, 0, none, false, []⟩

/-- Link at reset. -/
def LinkSt.reset : LinkSt :=
  ⟨[PortX.reset, PortX.reset, PortX.reset], [], [], [], false, [], [], none, none, 0, 0, 0, 0, 0, none, false, [], 0, none, none, false, true, [], none, []⟩

/-! ### Stand -/

/-- A slot entry of the stand map (R201). -/
structure MapEnt where
  id : Nat
  kind : Nat
  cover : Nat
  chan : Nat
  flags : Nat
  col0 : Nat
  wofs : Int
  deriving DecidableEq, Repr

/-- The stand map in force beside its EPOCH and VERSION (R201). -/
structure StandMap where
  root : Nat
  level : Nat
  sid : Nat
  ents : List MapEnt
  deriving DecidableEq, Repr

/-- A map being received: VERSION, header (root, level, epoch, STAND_ID) and entries so far (R209). -/
structure MapRx where
  ver : Nat
  hdr : Option (Nat × Nat × Nat × Nat)
  ents : List (Nat × MapEnt)
  deriving DecidableEq, Repr

/-- The newest HEART of a module (R207): its ID, slot and port of arrival, tick, and payload fields. -/
structure Heard where
  id : Nat
  slot : Nat
  port : Nat
  t : Nat
  role : Nat
  subroot : Bool
  clr : Nat
  level : Nat
  ports : Nat
  flags : Nat
  epoch : Nat
  ver : Nat
  genCur : Nat
  genPend : Nat
  deriving DecidableEq, Repr

/-- A VOTE (R216): slot, accepted, status, GEN_CUR, GEN_PEND, reach, window columns. -/
structure Vote where
  slot : Nat
  ok : Bool
  status : Nat
  genCur : Nat
  genPend : Nat
  reach : Nat
  cols : Nat
  deriving DecidableEq, Repr

/-- A group command at the root (R218): the command held here or the parent's transaction it answers, its entry and data,
transaction, targets, phase (1 prepare, 2 commit, 4 voted to the parent and waiting for it), start of the phase, votes, slots
done and failed, statuses by slot, and what COMMIT carried. -/
structure Group where
  k : Option Nat
  up : Option Nat
  entry : List Byte
  data : List Byte
  txn : Nat
  mask : Nat
  phase : Nat
  t0 : Nat
  votes : List Vote
  okMap : Nat
  failMap : Nat
  stat : List (Nat × Nat)
  tc : Nat
  x : Nat
  gen : Nat
  deriving DecidableEq, Repr

/-- A reservation of a target that has voted to accept (R217, R218). -/
structure Resv where
  txn : Nat
  entry : List Byte
  data : List Byte
  t0 : Nat
  deriving DecidableEq, Repr

/-- A COMMIT carried out whose DONE waits for its effect: transaction, opcode, effect missed its promise, tick of the effect. -/
structure DoneDue where
  txn : Nat
  op : Nat
  tc : Nat
  bnd : Nat
  bad : Bool
  deriving DecidableEq, Repr

/-- A stand line being merged (R222). -/
structure MLine where
  chan : Nat
  web : Nat
  t0 : Nat
  profile : Nat
  pitch : Nat
  segs : List Segment
  cut : Bool
  /-- The cell of the merge buffers that holds each slot's segment (R266). -/
  cells : List (Nat × Nat)
  deriving DecidableEq, Repr

/-- A seam's measurement block (R226): slot of the lower COL0, lines so far, Σ over used pixels of a', b', a'a', a'b', their
number, and the smallest and largest a'. -/
structure SeamAcc where
  slot : Nat
  lines : Nat
  n : Nat
  sa : Int
  sb : Int
  saa : Int
  sab : Int
  mn : Nat
  mx : Nat
  deriving DecidableEq, Repr

/-- Where a channel stands (R215): next LINE_INDEX, end of the last line, next record SEQ. -/
structure ChanSt where
  chan : Nat
  index : Nat
  fin : Nat
  seq : Nat
  deriving DecidableEq, Repr

/-- What a sub-stand root knows of its parent (R227): epoch, slot, W_OFS, first channel, level. -/
structure ParentSt where
  epoch : Nat
  slot : Nat
  wofs : Int
  chan : Nat
  level : Nat
  deriving DecidableEq, Repr

/-- A record of the root's merge engine being filled, by channel. -/
structure MRec where
  chan : Nat
  rec_ : RecOpen
  deriving DecidableEq, Repr

/-- The stand beside its registers. -/
structure StandSt where
  map : Option StandMap
  mapRx : Option MapRx
  heard : List Heard
  lastRoot : Option Nat
  group : Option Group
  resv : Option Resv
  dones : List DoneDue
  /-- Token: holder and tick of the grant at the root; requests waiting. -/
  tokHolder : Option (Nat × Nat)
  tokQueue : List (Nat × Nat)
  /-- Tick of this module's last TOKEN request. -/
  tokReqT : Option Nat
  chans : List ChanSt
  merge : List MLine
  mrecs : List MRec
  /-- Window columns of each slot as last heard in a segment or vote. -/
  cols : List (Nat × Nat)
  seams : List SeamAcc
  parent : Option ParentSt
  lastMapT : Nat
  gladeSentT : Nat
  gladeSent : Bool
  routeVer : Nat
  /-- Generations committed by group commands that failed, by slot (R220). -/
  degGen : List (Nat × Nat)
  /-- A map waiting to be applied after deaths (R208). -/
  mapWait : Option (Nat × StandMap)
  /-- After a resumption only HEART and LOCAL flits are sent (R327). -/
  quiet : Bool
  /-- Tick at which the first port came UP (R327). -/
  upT : Option Nat
  /-- Tick since which this map has been in force, for slots never heard (R208). -/
  since : Nat
  /-- The module is in CLEARING until a map admits or names it (R210, R211). -/
  clearing : Bool
  /-- Channels to continue from the CHANNEL_STATE held at a takeover (R215). -/
  contChans : List Nat
  /-- Encoder owner, own slot and own ENC flag when the owner was last settled (R206). -/
  encSeen : Nat × Nat × Bool
  /-- The next counted edge makes the encoder the source (R206). -/
  encTake : Bool
  /-- A new epoch's Keep write is not finished: flits of the module's own origin wait here, by port (R204, R209). -/
  hold : Bool
  held : List (Nat × Flit)
  deriving DecidableEq, Repr

/-- Stand at reset: a stand of one with no map. -/
def StandSt.reset : StandSt :=
  ⟨none, none, [], none, none, none, [], none, [], none, [], [], [], [], [], none, 0, 0, false, 0, [], none, false, none, 0, false, [],
   (0x3F, 0x3F, false), false, false, []⟩

/-! ### Management port and I/O -/

/-- A management-port transaction (R342 to R348): direction, bits of a word, STAT, address of the first register, refused
header, words so far, and the offset of a pair whose shadow a fetch made that has not been sent in full. -/
structure SpiTx where
  write : Bool
  bits : Nat
  stat : Bool
  addr : Nat
  bad : Bool
  k : Nat
  unsent : Option Nat
  deriving DecidableEq, Repr

/-- Management port, `TIME_IN`, timers and pins beside their registers. -/
structure IoSt where
  spi : Option SpiTx
  /-- K is captured at the next edge of `TIME_IN` (R350). -/
  timeArmed : Bool
  timeGood : Nat
  timeBad : Nat
  timeLast : Option Nat
  /-- End of the frame strobe (R351). -/
  strobe : Option Nat
  /-- Level of each timer's output (R352). -/
  tmrOut : List Bool
  /-- Captures counted by each timer, `CAPS` of R352. -/
  caps : List Nat
  deriving DecidableEq, Repr

/-- I/O at reset. -/
def IoSt.reset : IoSt := ⟨none, true, 0, 0, none, none, List.replicate 8 false, List.replicate 8 0⟩

/-! ### The whole -/

/-- The module state that the Keep holds and start-up restores (R281), beside register words: drift references, the
substitutions and trims, the stand map, elements set aside or failed, Margin Plan results, converter calibrations. -/
structure SavedSt where
  refs : List DriftRef
  substs : List Subst
  sliceTrim : List (Nat × Int)
  blindExcl : List Nat
  diodes : List Nat
  stageTrims : List (Nat × Int)
  map : Option StandMap
  aside : List Aside
  trims : List (Nat × Nat × Int)
  failed : List (Nat × Nat)
  plans : List PlanRes
  cals : List AuxCal
  skim : List (Nat × Nat × Int)
  /-- A curve has taken effect in each range since its last proof (R111). -/
  curveAfter : List Bool
  /-- PROVISIONED has been set, which nothing clears (R257). -/
  prov : Bool
  deriving DecidableEq, Repr

/-- Everything the block holds but its byte memories and the queue of commands. -/
structure Dev where
  /-- The timebase (R14). -/
  now : BitVec 64
  /-- Register words by offset; an offset not listed reads its reset value. -/
  regs : List (Nat × Word)
  /-- What the module has done towards the outside (the model's own). -/
  out : List Out
  /-- Free values used so far (the model's own, log 5). -/
  freeIdx : Nat
  /-- Bits of registers that the module has set or counted in the present clock, by register (R26). -/
  ties : List (Nat × Nat)
  paths : List PathSt
  host : HostSt
  sec : SecSt
  store : StoreSt
  health : HealthSt
  fpa : FpaSt
  stage : StageSt
  aux : AuxSt
  pipe : PipeSt
  pwr : PwrSt
  burin : BurinSt
  web : WebSt
  stat : StatSt
  alarm : AlarmSt
  proof : ProofSt
  glade : GladeSt
  cc : CcSt
  link : LinkSt
  stand : StandSt
  saved : SavedSt
  io : IoSt
  deriving DecidableEq, Repr

/-- The byte memories: QDR user data (R265), flash (R277), and the Keep's user area (R281). -/
structure Mems where
  qdr : Mem
  flash : Mem
  keep : Mem
  deriving DecidableEq, Repr

/-- The state of the block. -/
structure State where
  dev : Dev
  mem : Mems
  /-- Commands that wait, first in, first out. -/
  pending : List Instr
  deriving DecidableEq, Repr

/-- A path with nothing latched or staged and window registers at reset. -/
def PathSt.reset : PathSt := ⟨[], [], 0, 0, false, false, none⟩

/-- A tally counter as shipped: base A valid with SEQ 1 and VALUE 0, every entry group empty (log 8). -/
def Tally.fresh (t : Nat) : Tally := ⟨⟨1, 0, true, 1⟩, ⟨0, 0, false, 0⟩, List.replicate (8 * t) 0⟩

/-- Entry pages T of each tally counter (R287). -/
def tallyPages : List Nat := [1, 1, 1, 1, 1, 1, 1, 1, 8, 4, 1, 1, 1, 16, 2, 1, 1]

/-- Host interface at reset; configuration space at the PCIe defaults (log 7). -/
def HostSt.reset : HostSt :=
  ⟨List.replicate 16 ⟨[], [], false, false, false⟩, [], [], [], 0, [], 0, [], [], ⟨128, 512, true, false, false, false, false, false, some 2000000⟩,
    true, none, 0, 0, List.replicate 16 2, 2, 0, 0, [], [], 0, 0⟩

/-- Commands and keys at reset. -/
def SecSt.reset : SecSt := ⟨[], 0, [], [], [], [0, 0], [true, false], none, none, none, none⟩

/-- Stores at reset. -/
def StoreSt.reset : StoreSt := ⟨tallyPages.map Tally.fresh, [], [], [], 64, [], [], [], 0, 6000000000, false, 0, 0, []⟩

/-- Health at reset. -/
def HealthSt.reset : HealthSt := ⟨[], [], [], [], [], [], [], [], [], [], [], none, 0, [], 0, none, none, 0, 0, [], 0, [], [], []⟩

/-- The acquisition set of the register reset values. -/
def AcqSet.reset : AcqSet := ⟨0, 2800, 3220, 833333, 2400, 512, 0, 0, 0, 256, 0, 80⟩

/-- Readout at reset. -/
def FpaSt.reset : FpaSt :=
  ⟨AcqSet.reset, none, none, [], none, none, false, none, 0, false, [], false, false, [], [], [], [], false, [], [], false, [], false⟩

/-- Stage controller at reset. -/
def StageSt.reset : StageSt :=
  ⟨[], [], [none, none, none, none], [], [], 0, none, none, none, none, none, [], none, none, false, false, false, [0, 0], []⟩

/-- Plates at reset: no region holds a plate. -/
def PipeSt.reset : PipeSt :=
  ⟨List.replicate 3 ⟨false, 0, 0, 0⟩, none, none, false, none, [], none, [], 0, 0, [], none, [], none, none, [none, none], []⟩

/-- Burin stage, drift model and curves at reset. -/
def BurinSt.reset : BurinSt := ⟨[], [], [], [], none, [], [false, false], none, false, 2⟩

/-- Power at the release of power-on reset (R319). -/
def PwrSt.reset : PwrSt := ⟨[], [], [(105, none), (106, none)], 0, 0, none, none, none, none, 0, 0, 0x1B58, false, false, 0, false, some 0, [false, false], 0, none, false⟩

/-- Everything but memories and queue right after power-on reset is released. -/
def Dev.reset : Dev :=
  { now := 0, regs := [], out := [], freeIdx := 0, ties := [], paths := [PathSt.reset, PathSt.reset]
    host := HostSt.reset, sec := SecSt.reset, store := StoreSt.reset, health := HealthSt.reset
    fpa := FpaSt.reset, stage := StageSt.reset, aux := AuxSt.reset, pipe := PipeSt.reset, pwr := PwrSt.reset
    burin := BurinSt.reset
    web := WebSt.reset, stat := StatSt.reset, alarm := AlarmSt.reset
    proof := ProofSt.reset, glade := GladeSt.reset, cc := CcSt.reset, link := LinkSt.reset, stand := StandSt.reset
    saved := ⟨[], [], [], [], [], [], none, [], [], [], [], [], [], [false, false], false⟩
    io := IoSt.reset }

/-- The machine right after power-on reset is released: timebase 0, start-up step 1 (R14, R322). -/
def State.reset : State := ⟨Dev.reset, ⟨[], [], []⟩, []⟩

end Sys2Proof.Machine
end

