-- ==== Sys2Proof/Machine/Parts.lean ====
section
/-! DEFINITION. Changing one part of the block. -/

namespace Sys2Proof.Machine

/-- Change the `host` part. -/
def Dev.onHost (d : Dev) (f : HostSt → HostSt) : Dev := { d with host := f d.host }

/-- Change the `sec` part. -/
def Dev.onSec (d : Dev) (f : SecSt → SecSt) : Dev := { d with sec := f d.sec }

/-- Change the `store` part. -/
def Dev.onStore (d : Dev) (f : StoreSt → StoreSt) : Dev := { d with store := f d.store }

/-- Change the `health` part. -/
def Dev.onHealth (d : Dev) (f : HealthSt → HealthSt) : Dev := { d with health := f d.health }

/-- Change the `fpa` part. -/
def Dev.onFpa (d : Dev) (f : FpaSt → FpaSt) : Dev := { d with fpa := f d.fpa }

/-- Change the `stage` part. -/
def Dev.onStage (d : Dev) (f : StageSt → StageSt) : Dev := { d with stage := f d.stage }

/-- Change the `aux` part. -/
def Dev.onAux (d : Dev) (f : AuxSt → AuxSt) : Dev := { d with aux := f d.aux }

/-- Change the `pipe` part. -/
def Dev.onPipe (d : Dev) (f : PipeSt → PipeSt) : Dev := { d with pipe := f d.pipe }

/-- Change the `pwr` part. -/
def Dev.onPwr (d : Dev) (f : PwrSt → PwrSt) : Dev := { d with pwr := f d.pwr }

/-- Change the `burin` part. -/
def Dev.onBurin (d : Dev) (f : BurinSt → BurinSt) : Dev := { d with burin := f d.burin }

/-- Change the `web` part. -/
def Dev.onWeb (d : Dev) (f : WebSt → WebSt) : Dev := { d with web := f d.web }

/-- Change the `stat` part. -/
def Dev.onStat (d : Dev) (f : StatSt → StatSt) : Dev := { d with stat := f d.stat }

/-- Change the `alarm` part. -/
def Dev.onAlarm (d : Dev) (f : AlarmSt → AlarmSt) : Dev := { d with alarm := f d.alarm }

/-- Change the `proof` part. -/
def Dev.onProof (d : Dev) (f : ProofSt → ProofSt) : Dev := { d with proof := f d.proof }

/-- Change the `glade` part. -/
def Dev.onGlade (d : Dev) (f : GladeSt → GladeSt) : Dev := { d with glade := f d.glade }

/-- Change the `cc` part. -/
def Dev.onCc (d : Dev) (f : CcSt → CcSt) : Dev := { d with cc := f d.cc }

/-- Change the `link` part. -/
def Dev.onLink (d : Dev) (f : LinkSt → LinkSt) : Dev := { d with link := f d.link }

/-- Change the `stand` part. -/
def Dev.onStand (d : Dev) (f : StandSt → StandSt) : Dev := { d with stand := f d.stand }

/-- Change the `saved` part. -/
def Dev.onSaved (d : Dev) (f : SavedSt → SavedSt) : Dev := { d with saved := f d.saved }

/-- Change the `io` part. -/
def Dev.onIo (d : Dev) (f : IoSt → IoSt) : Dev := { d with io := f d.io }

end Sys2Proof.Machine
end

