-- ==== Sys2Proof/Machine/Ops.lean ====
section
/-! DEFINITION. The named operations every family uses: register fields, counters, memories, events, records, interrupts. -/

namespace Sys2Proof.Machine

/-! ### Registers -/

/-- The row of a register table that owns an offset. -/
def RegRow.owns (r : RegRow) (off : Nat) : Bool :=
  decide (r.base ≤ off) &&
  (let d := off - r.base
   let st := if r.stride = 0 then 0x1000000 else r.stride
   decide (d / st < r.count) && (d % st == 0 || (r.pair && d % st == 4)))

/-- The row that owns an offset, and whether the offset is the high word of a pair. -/
def findReg (off : Nat) : Option (RegRow × Bool) :=
  match (blockRegs (off / 0x4000)).find? (fun r => r.owns off) with
  | none => none
  | some r =>
    let st := if r.stride = 0 then 0x1000000 else r.stride
    some (r, r.pair && (off - r.base) % st == 4)

/-- The index of an offset in its array. -/
def RegRow.idx (r : RegRow) (off : Nat) : Nat := if r.stride = 0 then 0 else (off - r.base) / r.stride

/-- The 64-bit reset value the fields of a row spell. -/
def RegRow.rst (r : RegRow) : Nat := r.flds.foldl (fun a f => a + (f.rst % 2 ^ f.w) * 2 ^ f.lo) 0

/-- The bits of a ring's control register at reset (R234, R241, R244): vector n, its channel and its function code. -/
def ringCtlReset (n : Nat) : Nat :=
  (if n = 9 then 4 else 0) + n * 8 +
  ([0, 0, 2, 3, 4, 5, 6, 6, 7, 1, 1, 2, 3, 4, 5, 7].getD n 0) * 2 ^ 8 +
  ([2, 3, 1, 1, 1, 1, 4, 4, 5, 6, 7].getD n 0) * 2 ^ 11

/-- Entry configuration of the converter sequence at reset (R335). -/
def auxEntReset (n : Nat) : Nat := (auxEntry n).1

/-- Entry windows of the converter sequence at reset (R335). -/
def auxWinReset (n : Nat) : Nat := (auxEntry n).2

/-- What a register offset reads at reset: the table's value, or the value of its place in an array. -/
def regReset (off : Nat) : Word :=
  match findReg off with
  | none => 0
  | some (r, hi) =>
    let i := r.idx off
    let v :=
      if r.name = "HOST_RING_CTL" then ringCtlReset i
      else if r.name = "AUX_ENT_CFG" then auxEntReset i
      else if r.name = "AUX_ENT_WIN" then auxWinReset i
      else if r.name = "PWR_DOM_ON" ∧ i = 3 then 0xFFFF
      else if r.name = "STAND_SELF_ID" then 1
      else if r.name = "LINK_HP_CTL" then 4
      else r.rst
    BitVec.ofNat 32 (if hi then v / 2 ^ 32 else v)

/-- The register word at an offset, as held. -/
def Dev.reg (d : Dev) (off : Nat) : Word :=
  match d.regs.find? (fun p => p.1 == off) with
  | some p => p.2
  | none => regReset off

/-- Write the register word at an offset; a word equal to its reset value is not listed. -/
def Dev.setReg (d : Dev) (off : Nat) (w : Word) : Dev := { d with regs := Tab.set (regReset off) d.regs off w }

/-- The word or pair a field lies in. -/
def Dev.fieldWord (d : Dev) (f : Fld) : Nat :=
  if f.pair then (d.reg f.reg).toNat + 2 ^ 32 * (d.reg (f.reg + 4)).toNat else (d.reg f.reg).toNat

/-- The value of a field. -/
def Dev.get (d : Dev) (f : Fld) : Nat := d.fieldWord f / 2 ^ f.lo % 2 ^ f.w

/-- A word with a field replaced. -/
def insField (w lo wd v : Nat) : Nat := w - (w / 2 ^ lo % 2 ^ wd) * 2 ^ lo + (v % 2 ^ wd) * 2 ^ lo

/-- The state with a field replaced. -/
def Dev.put (d : Dev) (f : Fld) (v : Nat) : Dev :=
  let w := insField (d.fieldWord f) f.lo f.w v
  if f.pair then (d.setReg f.reg (BitVec.ofNat 32 w)).setReg (f.reg + 4) (BitVec.ofNat 32 (w / 2 ^ 32))
  else d.setReg f.reg (BitVec.ofNat 32 w)

/-- A one-bit field. -/
def Dev.bit (d : Dev) (f : Fld) : Bool := d.get f == 1

/-- Set or clear a one-bit field. -/
def Dev.putBit (d : Dev) (f : Fld) (b : Bool) : Dev := d.put f (b2n b)

/-- A field read as two's complement. -/
def Dev.getI (d : Dev) (f : Fld) : Int := sext f.w (d.get f)

/-- A signed value stored in a field. -/
def Dev.putI (d : Dev) (f : Fld) (v : Int) : Dev := d.put f (uns f.w v)

/-! #### What the module set or counted in this clock (R26, log 13) -/

/-- Note bits of a register that the module sets in this clock. -/
def Dev.tieBits (d : Dev) (off mask : Nat) : Dev := { d with ties := Tab.ins d.ties off (Tab.get 0 d.ties off ||| mask) }

/-- Note a field that the module sets or counts in this clock. -/
def Dev.tie (d : Dev) (f : Fld) : Dev := d.tieBits f.reg ((2 ^ f.w - 1) * 2 ^ f.lo)

/-- Bits of a register that the module has set in this clock. -/
def Dev.tied (d : Dev) (off : Nat) : Nat := Tab.get 0 d.ties off

/-- The module has set or counted the field in this clock. -/
def Dev.tiedFld (d : Dev) (f : Fld) : Bool := d.tied f.reg / 2 ^ f.lo % 2 ^ f.w != 0

/-- Set a W1C bit: a write of this clock does not clear it (R26). -/
def Dev.flag (d : Dev) (f : Fld) : Dev := (d.putBit f true).tie f

/-- Count `n` more in a saturating counter (R26). -/
def Dev.addSat (d : Dev) (f : Fld) (n : Nat) : Dev := if n = 0 then d else (d.put f (satN f.w (d.get f + n))).tie f

/-- Count one in a saturating counter (R26). -/
def Dev.inc (d : Dev) (f : Fld) : Dev := d.addSat f 1

/-- Count one in a counter that wraps. -/
def Dev.incWrap (d : Dev) (f : Fld) : Dev := (d.put f (d.get f + 1)).tie f

/-- Clear a list of counters; one that counted in this clock reads 1 (R26). -/
def Dev.clearAll (d : Dev) (fs : List Fld) : Dev := fs.foldl (fun d f => d.put f (b2n (d.tiedFld f))) d

/-- A field's value after a write by the access codes of R4: `v` is what the write carries, `cur` what the field holds.
An encoding the field does not list is ignored (R5). -/
def writeField (prov : Bool) (f : FieldRow) (cur v : Nat) : Nat :=
  let c := cur / 2 ^ f.lo % 2 ^ f.w
  let n := v / 2 ^ f.lo % 2 ^ f.w
  let r :=
    match f.acc with
    | .rw => if f.lmin ≤ n ∧ n ≤ f.lmax then n else c
    | .rwl => if prov then c else if f.lmin ≤ n ∧ n ≤ f.lmax then n else c
    | .w1c => c - (c &&& n)
    | .w1s => c ||| n
    | .ro => c
    | .wo => c
  insField cur f.lo f.w r

/-- The 32-bit or 64-bit value of a row's element after a write; `mask` holds the bits the write carries, `tied` those that
the module sets in the same clock, which a W1C field keeps (R26). -/
def writeRow (prov : Bool) (fs : List FieldRow) (cur v mask tied : Nat) : Nat :=
  fs.foldl (fun a f =>
    if mask / 2 ^ f.lo % 2 ^ f.w = 0 then a
    else writeField prov f a (match f.acc with
      | .w1c => (v &&& mask) - (v &&& mask &&& tied)
      | .w1s => v &&& mask
      | _ => cur - (cur &&& mask) + (v &&& mask))) cur

/-- The value of a row's element that contains an offset, as held: 64 bits for a pair. -/
def Dev.rowVal (d : Dev) (r : RegRow) (off : Nat) : Nat :=
  let base := r.base + r.stride * r.idx off
  if r.pair then (d.reg base).toNat + 2 ^ 32 * (d.reg (base + 4)).toNat else (d.reg base).toNat

/-- Store a row's element. -/
def Dev.putRow (d : Dev) (r : RegRow) (off v : Nat) : Dev :=
  let base := r.base + r.stride * r.idx off
  if r.pair then (d.setReg base (BitVec.ofNat 32 v)).setReg (base + 4) (BitVec.ofNat 32 (v / 2 ^ 32))
  else d.setReg base (BitVec.ofNat 32 v)

/-- A plain write of a 32-bit register by its access codes (R4, R5). -/
def Dev.writeWord (d : Dev) (off : Nat) (w : Nat) : Dev :=
  match findReg off with
  | none => d
  | some (r, hi) =>
    let prov := d.bit F.SEC_STAT_PROVISIONED
    let tied := d.tied (r.base + r.stride * r.idx off)
    if hi then d.putRow r off (writeRow prov r.flds (d.rowVal r off) (w * 2 ^ 32) (0xFFFFFFFF * 2 ^ 32) tied)
    else d.putRow r off (writeRow prov r.flds (d.rowVal r off) w 0xFFFFFFFF tied)

/-! ### Time -/

/-- The timebase as a number of ticks. -/
def Dev.t (d : Dev) : Nat := d.now.toNat

/-- Ticks of one microsecond, millisecond and second (10 ns ticks). -/
def usT : Nat := 100
/-- Ticks of one millisecond. -/
def msT : Nat := 100000
/-- Ticks of one second. -/
def secT : Nat := 100000000

/-- The signed difference b - a of two 64-bit coordinates (R142). -/
def sdiff (a b : Nat) : Int := sext 64 (b + (2 ^ 64 - a % 2 ^ 64))

/-- A coordinate moved by a signed amount, modulo 2^64 (R142). -/
def wadd (a : Nat) (k : Int) : Nat := uns 64 ((a : Int) + k)

/-- Record something the module does towards the outside. -/
def Dev.emit (d : Dev) (o : Out) : Dev := { d with out := d.out ++ [o] }

/-- Use up one free value: the index the opaque constants of Config are applied to. -/
def Dev.fresh (d : Dev) : Dev := { d with freeIdx := d.freeIdx + 1 }

/-! ### Tally counters (R285, R286) -/

/-- The newest valid base cell (signed 32-bit comparison of SEQ). -/
def Tally.base (t : Tally) : Option Cell :=
  match t.a.valid, t.b.valid with
  | true, true => if (t.b.seq + 2 ^ 32 - t.a.seq) % 2 ^ 32 < 2 ^ 31 ∧ t.b.seq ≠ t.a.seq then some t.b else some t.a
  | true, false => some t.a
  | false, true => some t.b
  | false, false => none

/-- Entry groups valid for the newest base. -/
def Tally.count (t : Tally) : Nat :=
  match t.base with
  | some c => t.entries.countP (· == c.seq)
  | none => 0

/-- The counter's value. -/
def Tally.value (t : Tally) : Nat := match t.base with | some c => c.value + t.count | none => 0

/-- Write the cell that is not the newest base. -/
def Tally.writeOther (t : Tally) (seq v : Nat) : Tally :=
  let useB := match t.base with | some c => c == t.a | none => false
  if useB then { t with b := ⟨seq, v, true, t.b.writes + 1⟩ } else { t with a := ⟨seq, v, true, t.a.writes + 1⟩ }

/-- Increment, with a fold when every entry group is used (R286). -/
def Tally.increment (t : Tally) : Option Tally :=
  match t.base with
  | none => none
  | some c =>
    let t1 := if t.count = t.entries.length then t.writeOther ((c.seq + 1) % 2 ^ 32) (c.value + t.count) else t
    match t1.base with
    | none => none
    | some c1 => some { t1 with entries := t1.entries.set t1.count c1.seq }

/-- Set to a value at least the present one (R286). -/
def Tally.setTo (t : Tally) (v : Nat) : Option Tally :=
  match t.base with
  | none => none
  | some c => some (t.writeOther ((c.seq + 1) % 2 ^ 32) v)

/-- The value of tally counter `i`. -/
def Dev.tally (d : Dev) (i : Nat) : Nat := match d.store.tallies[i]? with | some t => t.value | none => 0

/-- Tally counter `i` has failed: neither base cell is valid (R286). -/
def Dev.tallyFailed (d : Dev) (i : Nat) : Bool :=
  match d.store.tallies[i]? with | some t => t.base.isNone | none => true

/-- Move a cell that has reached 900,000 writes to a spare page (R286). -/
def wearMove (d : Dev) (t : Tally) : Dev × Tally :=
  let w (c : Cell) : Bool := decide (900000 ≤ c.writes)
  let n := b2n (w t.a) + b2n (w t.b)
  (d.put F.STORE_KEEP_SPARES_VAL (d.get F.STORE_KEEP_SPARES_VAL - n),
   { t with a := if w t.a then { t.a with writes := 0 } else t.a, b := if w t.b then { t.b with writes := 0 } else t.b })

/-- Replace tally counter `i`. -/
def Dev.putTally (d : Dev) (i : Nat) (t : Tally) : Dev :=
  let (d, t) := wearMove d t
  (d.onStore fun z => { z with tallies := d.store.tallies.set i t })

/-- Increment tally counter `i`; a failed counter changes nothing (R286). -/
def Dev.tallyInc (d : Dev) (i : Nat) : Dev :=
  match d.store.tallies[i]? with
  | some t => match t.increment with | some t' => d.putTally i t' | none => d
  | none => d

/-- Set tally counter `i`. -/
def Dev.tallySet (d : Dev) (i v : Nat) : Dev :=
  match d.store.tallies[i]? with
  | some t => match t.setTo v with | some t' => d.putTally i t' | none => d
  | none => d

/-- Whole seconds of operation (R288). -/
def Dev.optime (d : Dev) : Nat :=
  (if d.tallyFailed 13 then d.store.opBase else 60 * d.tally 13) + (d.t - d.store.opT0) / secT

/-- The generation a counter value stands for (R289). -/
def genOf (v : Nat) : Nat := if v = 0 then 0 else (v - 1) % 0xFFFFFFFF + 1

/-- `a` is later than `b` as generations or SEQ numbers: positive signed 32-bit difference (R18). -/
def later32 (a b : Nat) : Bool :=
  let x := (a + 2 ^ 32 - b % 2 ^ 32) % 2 ^ 32
  decide (0 < x ∧ x < 2 ^ 31)

/-! ### Interrupts (R244) -/

/-- Make an MSI-X vector pending. -/
def Dev.pendVec (d : Dev) (v : Nat) : Dev :=
  (d.onHost fun z => { z with pend := d.host.pend ||| BitVec.ofNat 32 (2 ^ v) })

/-- Make the error vector pending. -/
def Dev.pendErr (d : Dev) : Dev := d.pendVec (d.get F.HOST_CTL_ERR_VEC)

/-- Set a bit of `HOST_ERR_STAT`, which makes the error vector pending. -/
def Dev.hostErr (d : Dev) (f : Fld) : Dev := (d.flag f).pendErr

/-! ### Records for rings (R239) -/

/-- A record formed for a ring; it is placed or staged by RECORD_STAGED. -/
def Dev.formRec (d : Dev) (ring : Nat) (bs : List Byte) (lines : Nat) : Dev :=
  (d.onHost fun z => { z with formed := d.host.formed ++ [⟨ring, padTo 64 bs, lines, none, none⟩] })

/-! ### Events (R291 to R295) -/

/-- Severity of an event code (R293): 0 INFO, 1 WARN, 2 FAULT, 3 CRIT. -/
def evSev (code : Nat) : Nat :=
  if code ∈ [0x0003, 0x0302, 0x0504, 0x0704] then 3
  else if code ∈ [0x0002, 0x0104, 0x0203, 0x0301, 0x0603, 0x0604, 0x0703, 0x0801, 0x0A01, 0x0B03, 0x0B04, 0x0C02,
    0x0D03, 0x0E03, 0x0F05] then 2
  else if code ∈ [0x0001, 0x0105, 0x0106, 0x0202, 0x0501, 0x0503, 0x0602, 0x0802, 0x0803, 0x0A03, 0x0E02, 0x0F01,
    0x0F02, 0x0F03] then 0
  else 1

/-- The subsystem whose element an event names for a targeted self-test, if any (R295). -/
def evTest (code : Nat) : Option Nat :=
  if code = 0x0001 ∨ code = 0x0002 then some 0
  else if code = 0x0101 then some 1
  else if code = 0x0201 ∨ code = 0x0204 then some 2
  else if code = 0x0301 then some 3
  else if code = 0x0401 then some 4
  else if code = 0x0501 ∨ code = 0x0502 then some 5
  else if code = 0x0601 then some 6
  else if code = 0x0701 then some 7
  else if code = 0x0801 then some 8
  else if code = 0x0901 then some 9
  else none

/-- What an event carries beside its code (R291). -/
structure EvArgs where
  verdict : Nat := 0
  action : Nat := 0
  elem : Nat := 0
  arg0 : Nat := 0
  arg1 : Nat := 0
  arg2 : Nat := 0

/-- The 64 bytes of an event record (R291). -/
def evRecord (d : Dev) (code : Nat) (a : EvArgs) (seq suppressed : Nat) : List Byte :=
  let b := leBytes 2 6 ++ leBytes 2 code ++ leBytes 1 (evSev code) ++ leBytes 1 a.verdict ++ leBytes 1 a.action ++
    leBytes 1 (code / 256) ++ leBytes 4 seq ++ leBytes 4 a.elem ++ leBytes 8 d.t ++ leBytes 8 d.optime ++
    leBytes 4 a.arg0 ++ leBytes 4 a.arg1 ++ leBytes 8 a.arg2 ++ leBytes 4 suppressed ++
    leBytes 4 (d.get F.STAND_EPOCH_EPOCH) ++ leBytes 4 (d.get F.FPA_GEN_CUR_GEN)
  b ++ leBytes 4 (crc32c b)

/-- FAULT_N follows the masked fault sources (R294). -/
def Dev.faultPin (d : Dev) : Dev :=
  d.putBit F.HEALTH_STAT_FAULT (d.get F.HEALTH_FAULT_SRC_MAP &&& d.get F.HEALTH_FAULT_MASK_MAP != 0)

/-- Queue the targeted self-test of an element (R295): at most 16 per subsystem, one entry per element. -/
def Dev.queueTest (d : Dev) (ss elem code : Nat) (full : Bool) : Dev :=
  let q := d.health.queue
  if q.any (fun x => x.ss == ss && x.elem == elem) then
    let q2 := updIf q (fun x => x.ss == ss && x.elem == elem) (fun x => { x with more := x.more + 1, full := x.full || full })
    d.onHealth fun z => { z with queue := q2 }
  else if !full && decide (16 ≤ q.countP (fun x => x.ss == ss && !x.full)) then d.inc F.HEALTH_TEST_DROP_CNT
  else
    let d := (d.onHealth fun z => { z with queue := q ++ [⟨ss, elem, code, d.t, 0, full⟩] })
    d.put F.HEALTH_STAT_RUNNING (setB (d.get F.HEALTH_STAT_RUNNING) ss true)

/-- Log an event (R291 to R294), without queuing a test. A code is logged at most `RATE` times per second. -/
def Dev.logEvent (d : Dev) (code : Nat) (a : EvArgs) : Dev :=
  let d := onlyIf (decide (2 ≤ evSev code))
    (fun d => ((d.put F.HEALTH_FAULT_SRC_MAP (setB (d.get F.HEALTH_FAULT_SRC_MAP) (code / 256) true)).tieBits
      F.HEALTH_FAULT_SRC_MAP.reg (2 ^ (code / 256))).faultPin) d
  let r0 := (d.health.rates.find? (fun r => r.code == code)).getD ⟨code, d.t, 0, 0⟩
  let r := if d.t < r0.t0 + secT then r0 else { r0 with t0 := d.t, n := 0 }
  let keep (d : Dev) (r : EvRate) : Dev :=
    (d.onHealth fun z => { z with rates := d.health.rates.filter (fun x => x.code != code) ++ [r] })
  if d.get F.HEALTH_CTL_RATE ≤ r.n then
    keep (d.inc F.HEALTH_EVT_LOST_VAL) { r with suppressed := r.suppressed + 1 }
  else
    let d := d.incWrap F.HEALTH_EVT_SEQ_VAL
    let seq := d.get F.HEALTH_EVT_SEQ_VAL
    let rec_ := evRecord d code a seq r.suppressed
    let page := seq % 2560
    let old := Tab.get [] d.health.evPages page
    let d := d.onHealth fun h =>
      let pages := Tab.ins h.evPages page rec_
      { h with
        evPages := pages
        archive := if seq % 64 = 63 then
            h.archive ++ (List.range 64).map (fun i => Tab.get [] pages ((seq - 63 + i) % 2560))
          else h.archive }
    let d := d.onStore fun z => { z with keepQ := z.keepQ ++ [⟨.event page old, 0, 1, 0⟩] }
    let d := d.putBit F.STORE_KEEP_STAT_QUEUED true
    let d := d.put F.HEALTH_STAT_WORST (Nat.max (d.get F.HEALTH_STAT_WORST) (evSev code))
    let d := onlyIf (d.bit F.HEALTH_CTL_EVT_RING) (fun d => d.formRec 9 rec_ 0) d
    keep d { r with n := r.n + 1, suppressed := 0 }

/-- Raise an event: log it and queue the self-test of the element it names (R295). -/
def Dev.event (d : Dev) (code : Nat) (a : EvArgs) : Dev :=
  let d := d.logEvent code { a with verdict := if (evTest code).isSome && d.bit F.HEALTH_CTL_TEST_EN then 1 else a.verdict }
  match evTest code with
  | some ss => if d.bit F.HEALTH_CTL_TEST_EN then d.queueTest ss a.elem code false else d
  | none => d

/-- An uncorrectable QDR word `w` is read: counted, latched, logged, and the channel's self-test queued, as many of its wires as
the subsystem's queue has room for (R271, R295, log 34). -/
def Dev.qdrUncorr (d : Dev) (w : Nat) : Dev :=
  let c := w % 4
  let d := (d.inc (F.MEM_QDR_UNCORR_CNT.at c)).put F.MEM_UNC_ADDR_VAL (32 * w)
  let d := d.event 0x0002 { elem := 36 * c, arg0 := d.get (F.MEM_QDR_UNCORR_CNT.at c), arg2 := 32 * w }
  if d.bit F.HEALTH_CTL_TEST_EN then
    (List.range 35).foldl (fun d i =>
      if d.health.queue.countP (fun x => x.ss == 0 && !x.full) < 16 then d.queueTest 0 (36 * c + i + 1) 0x0002 false else d) d
  else d

/-! ### Power domains and contention -/

/-- Rated power of a domain that the ballast takes up, in 1/2 mW (R309, R313): the focal-plane die and the heater heat the
stage and are left out (R316), and the ballast itself. -/
def ballastRated (i : Nat) : Nat :=
  if i = 0 then 640
  else if 82 ≤ i ∧ i ≤ 86 then 600
  else if 87 ≤ i ∧ i ≤ 90 then 1050
  else if 91 ≤ i ∧ i ≤ 98 then 225
  else if 99 ≤ i ∧ i ≤ 102 then 300
  else if i = 103 then 500
  else if i = 104 then 160
  else if i = 105 then 120
  else if i = 106 then 300
  else if i = 109 ∨ i = 110 then 40
  else if i = 111 then 700
  else 0

/-- A domain is switched on in the map of domains. -/
def Dev.domBit (d : Dev) (i : Nat) : Bool := (d.get (F.PWR_DOM_ON_MAP.at (i / 32))).testBit (i % 32)

/-- Switch a domain in the map of domains that are on; the ballast moves by its rated power in the same clock (R313). -/
def Dev.setDom (d : Dev) (i : Nat) (b : Bool) : Dev :=
  if d.domBit i = b then d
  else
    let d := d.put (F.PWR_DOM_ON_MAP.at (i / 32)) (setB (d.get (F.PWR_DOM_ON_MAP.at (i / 32))) (i % 32) b)
    if d.bit F.PWR_BAL_CTL_EN && d.domBit 108 && !d.bit F.PWR_BAL_STAT_SAT then
      d.onPwr fun z => { z with bal2 := Nat.min 3000 (if b then z.bal2 - ballastRated i else z.bal2 + ballastRated i) }
    else d

/-- An access that needs flash (PD105) or the crypto engine (PD106): an on-demand domain that is off wakes (R311). -/
def Dev.wake (d : Dev) (i : Nat) : Dev :=
  if (d.pwr.demand.find? (fun q => q.1 == i && (q.2.isSome || !d.domBit i))).isSome then
    (d.setDom i true).onPwr fun z => { z with demand := (i, some d.t) :: z.demand.filter (fun q => q.1 != i) }
  else d

/-- Record the loser of a contention (R354): the first one is kept until it is cleared. -/
def Dev.conflict (d : Dev) (res loser : Nat) : Dev :=
  let d := d.inc F.IO_CONFLICT_CNT_CNT
  if d.bit F.IO_CONFLICT_VALID then d
  else ((d.put F.IO_CONFLICT_RESOURCE res).put F.IO_CONFLICT_LOSER loser).flag F.IO_CONFLICT_VALID

/-- The inputs of I/O bank A count (R319): `VIO_A` is not low. -/
def Dev.bankIn (d : Dev) : Bool := !d.pwr.vioLow.getD 0 false

/-- The tick that an input of bank A accepted now bears: that of the first of the `FILT` + 1 samples in which its level was seen
(R140, R349). -/
def Dev.pinT (d : Dev) : Nat := d.t - d.get F.IO_PIN_CFG_FILT

/-! ### Background flash and Keep writes -/

/-- Queue a background flash write (R278). -/
def Dev.flashPush (d : Dev) (w : FlashWhat) : Dev :=
  ((d.wake 105).onStore fun z => { z with flashQ := z.flashQ ++ [⟨w, 0⟩] }).putBit F.STORE_FLASH_STAT_BUSY true

/-- Queue a journalled Keep write of `n` pages (R282): `n` journal pages and the header before the commit point, `n`
target pages and the DONE group after it. -/
def Dev.keepPush (d : Dev) (w : KeepWhat) (n : Nat) : Dev :=
  (d.onStore fun z => { z with keepQ := d.store.keepQ ++ [⟨w, n + 1, n + 1, 0⟩] }).putBit F.STORE_KEEP_STAT_QUEUED true

/-! ### The two halves of the state -/

/-- Change everything but the byte memories and the queue. -/
def State.onDev (s : State) (f : Dev → Dev) : State := { s with dev := f s.dev }

/-- What an unlisted QDR address reads as: QDR is volatile and the spec gives no contents (log 3). -/
def qdrDef : Byte := 0

/-- What an unlisted flash address reads as: the erased state (log 4). -/
def flashDef : Byte := 0xFF

/-- What an unlisted Keep user-area address reads as (log 4). -/
def keepDef : Byte := 0xFF

/-- Write bytes into QDR; a word wholly or partly overwritten is no longer uncorrectable (R272). -/
def State.wrQdr (s : State) (a : Nat) (bs : List Byte) : State :=
  { s with
    mem := { s.mem with qdr := s.mem.qdr.wrN qdrDef a bs }
    dev := { s.dev with store := { s.dev.store with
      qdrBad := s.dev.store.qdrBad.filter (fun w => decide (w < a / 32) || decide ((a + bs.length + 31) / 32 ≤ w)) } } }

/-- Write bytes into flash. -/
def State.wrFlash (s : State) (a : Nat) (bs : List Byte) : State :=
  { s with mem := { s.mem with flash := s.mem.flash.wrN flashDef a bs } }

/-- Erase a flash range. -/
def State.eraseFlash (s : State) (a n : Nat) : State :=
  { s with mem := { s.mem with flash := s.mem.flash.clear a n } }

/-- Write bytes into the Keep's user area. -/
def State.wrKeep (s : State) (a : Nat) (bs : List Byte) : State :=
  { s with mem := { s.mem with keep := s.mem.keep.wrN keepDef a bs } }

/-- Copy flash bytes into QDR. -/
def State.flashToQdr (s : State) (src n dst : Nat) : State :=
  { s with
    mem := { s.mem with qdr := Mem.copy flashDef qdrDef s.mem.flash src n s.mem.qdr dst }
    dev := { s.dev with store := { s.dev.store with
      qdrBad := s.dev.store.qdrBad.filter (fun w => decide (w < dst / 32) || decide ((dst + n + 31) / 32 ≤ w)) } } }

/-- Copy QDR bytes into flash. -/
def State.qdrToFlash (s : State) (src n dst : Nat) : State :=
  { s with mem := { s.mem with flash := Mem.copy qdrDef flashDef s.mem.qdr src n s.mem.flash dst } }

/-- Copy QDR bytes within QDR. -/
def State.qdrCopy (s : State) (src n dst : Nat) : State :=
  { s with
    mem := { s.mem with qdr := Mem.copy qdrDef qdrDef s.mem.qdr src n s.mem.qdr dst }
    dev := { s.dev with store := { s.dev.store with
      qdrBad := s.dev.store.qdrBad.filter (fun w => decide (w < dst / 32) || decide ((dst + n + 31) / 32 ≤ w)) } } }

/-- QDR bytes as held. -/
def Mems.q (m : Mems) (a n : Nat) : List Byte := m.qdr.rdN qdrDef a n

/-- A little-endian number in QDR. -/
def Mems.qN (m : Mems) (a n : Nat) : Nat := leNat (m.q a n)

/-- Flash bytes as held. -/
def Mems.f (m : Mems) (a n : Nat) : List Byte := m.flash.rdN flashDef a n

/-- A little-endian number in flash. -/
def Mems.fN (m : Mems) (a n : Nat) : Nat := leNat (m.f a n)

/-- Keep user-area bytes as held. -/
def Mems.k (m : Mems) (a n : Nat) : List Byte := m.keep.rdN keepDef a n

end Sys2Proof.Machine
end

