-- ==== Sys2Proof/Machine/Operands.lean ====
section
/-! DEFINITION. The operand forms of host commands: the fields of a command entry (R247), the table of opcodes (R252), and
the checks made on them before a command runs (R248, R252 to R258). -/

namespace Sys2Proof.Machine

/-- A little-endian field of a command entry. -/
def Cmd.f (c : Cmd) (o n : Nat) : Nat := leAt c.entry o n

/-- OPCODE (R247). -/
def Cmd.op (c : Cmd) : Nat := c.f 0 2
/-- FLAGS. -/
def Cmd.flags (c : Cmd) : Nat := c.f 2 2
/-- FENCE. -/
def Cmd.fence (c : Cmd) : Bool := c.flags % 2 == 1 || c.op == 0x800C
/-- COOKIE. -/
def Cmd.cookie (c : Cmd) : Nat := c.f 4 4
/-- SLOTS. -/
def Cmd.slots (c : Cmd) : Nat := c.f 8 4
/-- ILEN. -/
def Cmd.ilen (c : Cmd) : Nat := c.f 12 4
/-- IPTR. -/
def Cmd.iptr (c : Cmd) : Nat := c.f 16 8
/-- One parameter byte. -/
def Cmd.p8 (c : Cmd) (o : Nat) : Nat := c.f o 1
/-- KEY. -/
def Cmd.key (c : Cmd) : Nat := c.f 40 1
/-- CTR. -/
def Cmd.ctr (c : Cmd) : Nat := c.f 48 8
/-- TAG bytes. -/
def Cmd.tag (c : Cmd) : List Byte := slice c.entry 56 8
/-- A critical opcode has bit 15 set (R247). -/
def Cmd.crit (c : Cmd) : Bool := decide (0x8000 ≤ c.op)

/-- Which targets an opcode takes (R252). -/
inductive Targets where
  | group
  | one
  | self
  deriving DecidableEq, Repr

/-- One row of the table of opcodes: targets, parameter bytes used, the least and greatest ILEN, the unit ILEN must be a
multiple of, and whether the data comes in (fetched before execution) or goes out. -/
structure OpRow where
  code : Nat
  targets : Targets
  params : List Nat
  imin : Nat
  imax : Nat
  iunit : Nat
  dataIn : Bool
  deriving DecidableEq, Repr

/-- The offsets of an 8-byte parameter at 32. -/
def p32 : List Nat := [32, 33, 34, 35, 36, 37, 38, 39]

/-- Ordinary commands (R252). -/
def opsOrdinary : List OpRow := [
  ⟨0x0000, .group, [], 0, 0, 1, false⟩,
  ⟨0x0001, .group, [], 0, 0, 1, false⟩,
  ⟨0x0002, .group, [], 0, 0, 1, false⟩,
  ⟨0x0003, .group, [24], 32, 32, 1, true⟩,
  ⟨0x0004, .group, [24, 25] ++ p32, 0, 0, 1, false⟩,
  ⟨0x0005, .group, [24] ++ p32, 0, 0, 1, false⟩,
  ⟨0x0006, .group, [24, 25] ++ p32, 0, 0, 1, false⟩,
  ⟨0x0007, .group, [24], 0, 0, 1, false⟩,
  ⟨0x0008, .group, [24], 0, 0, 1, false⟩,
  ⟨0x0009, .one, [24, 25, 26, 27, 28, 29], 0, 0, 1, false⟩,
  ⟨0x000A, .self, [24], 0, 0, 1, false⟩,
  ⟨0x000B, .group, [], 144, 144, 1, true⟩,
  ⟨0x000C, .group, [24, 25], 0, 0, 1, false⟩,
  ⟨0x000D, .group, [24, 25, 28, 29, 30, 31], 0, 0, 1, false⟩,
  ⟨0x000E, .group, [24, 25, 26, 27], 0, 0, 1, false⟩,
  ⟨0x000F, .group, [24], 0, 0, 1, false⟩,
  ⟨0x0010, .group, [], 0, 0, 1, false⟩,
  ⟨0x0011, .self, [24, 25, 26, 27], 0, 1048576, 1, false⟩,
  ⟨0x0012, .self, [24, 25, 26, 27], 0, 65536, 1, false⟩,
  ⟨0x0013, .self, p32, 0, 1048576, 1, false⟩,
  ⟨0x0014, .self, [], 1344, 1344, 1, false⟩]

/-- Critical commands (R252). -/
def opsCritical : List OpRow := [
  ⟨0x8001, .group, [24, 28, 29, 30, 31], 1, 1048576, 1, true⟩,
  ⟨0x8002, .group, [24, 28, 29, 30, 31], 0, 0, 1, false⟩,
  ⟨0x8003, .group, [24], 24644, 24644, 1, true⟩,
  ⟨0x8004, .group, [], 1600, 1600, 1, true⟩,
  ⟨0x8005, .group, [], 8, 1048576, 8, true⟩,
  ⟨0x8006, .group, [24], 0, 0, 1, false⟩,
  ⟨0x8007, .self, [], 832, 832, 1, true⟩,
  ⟨0x8008, .self, [24, 25, 26, 27], 0, 0, 1, false⟩,
  ⟨0x8009, .one, [24, 25], 40, 40, 1, true⟩,
  ⟨0x800A, .one, [24], 0, 0, 1, false⟩,
  ⟨0x800B, .group, [24, 25, 28, 29, 30, 31], 1, 1048576, 1, true⟩,
  ⟨0x800C, .group, [24] ++ p32, 0, 0, 1, false⟩,
  ⟨0x800D, .self, [24, 25, 26, 27], 64, 4096, 64, true⟩,
  ⟨0x800E, .self, [24, 25, 26, 27] ++ p32, 0, 0, 1, false⟩,
  ⟨0x800F, .group, [24, 25], 0, 0, 1, false⟩]

/-- The row of an opcode. -/
def opRow (op : Nat) : Option OpRow := (opsOrdinary ++ opsCritical).find? (fun r => r.code == op)

/-! Status codes (R251). -/

namespace St
/-- OK. -/
def ok : Nat := 0x00
/-- PARTIAL. -/
def partial_ : Nat := 0x01
/-- REFUSED. -/
def refused : Nat := 0x02
/-- BAD_OPCODE. -/
def badOpcode : Nat := 0x03
/-- BAD_PARAM. -/
def badParam : Nat := 0x04
/-- AUTH_FAIL. -/
def authFail : Nat := 0x05
/-- REPLAY. -/
def replay : Nat := 0x06
/-- KEY_EMPTY. -/
def keyEmpty : Nat := 0x07
/-- KEY_ROLE. -/
def keyRole : Nat := 0x08
/-- BUSY. -/
def busy : Nat := 0x09
/-- SUPERSEDED. -/
def superseded : Nat := 0x0A
/-- CANCELLED. -/
def cancelled : Nat := 0x0B
/-- CRC_MISMATCH. -/
def crcMismatch : Nat := 0x0C
/-- SIG_FAIL. -/
def sigFail : Nat := 0x0D
/-- STORE_ERR. -/
def storeErr : Nat := 0x0E
/-- NOT_PROVISIONED. -/
def notProvisioned : Nat := 0x0F
/-- TOO_LONG. -/
def tooLong : Nat := 0x10
/-- NO_QUORUM. -/
def noQuorum : Nat := 0x11
/-- ABANDONED. -/
def abandoned : Nat := 0x12
/-- FW_FALLBACK. -/
def fwFallback : Nat := 0x13
end St

/-- The module's own slot number in the stand, if it has one; a stand of one is slot 0 (R203). -/
def Dev.selfSlot (d : Dev) : Option Nat :=
  let s := d.get F.STAND_STAT_SLOT
  if !(d.bit F.STAND_CTL_EN && d.stand.map.isSome) then some 0 else if s < 32 then some s else none

/-- The slots other than this module that a command targets. -/
def Cmd.others (d : Dev) (c : Cmd) : List Nat :=
  match d.selfSlot with
  | some i => (bitsOf 32 c.slots).filter (fun j => j != i)
  | none => bitsOf 32 c.slots

/-- The command acts on this module (SLOTS 0 or naming its own slot). -/
def Cmd.onSelf (d : Dev) (c : Cmd) : Bool :=
  c.slots == 0 || (match d.selfSlot with | some i => c.slots.testBit i | none => false)

/-- The targets are permitted for the opcode (R252). -/
def targetsOk (d : Dev) (c : Cmd) (r : OpRow) : Bool :=
  match r.targets with
  | .group => true
  | .one => (c.others d).isEmpty || ((c.others d).length == 1 && !c.onSelf d)
  | .self => (c.others d).isEmpty

/-- The malformed forms of R248. -/
def malformed (c : Cmd) (r : OpRow) : Bool :=
  decide (2 ≤ c.flags) ||
  ((List.range 16).any (fun i => !r.params.contains (24 + i) && c.p8 (24 + i) != 0)) ||
  (c.crit && (List.range 7).any (fun i => c.p8 (41 + i) != 0)) ||
  (c.origin == .ring && c.iptr % 4 != 0) ||
  decide (c.ilen < r.imin) || c.ilen % r.iunit != 0 || (decide (r.imax < c.ilen) && (r.imin == r.imax))

/-- ILEN is beyond any entry's (R247): no data is fetched. -/
def entryTooLong (c : Cmd) : Bool := decide (1048576 < c.ilen)

/-- ILEN is over the opcode's limit (R248); an opcode of one exact length gives BAD_PARAM instead. -/
def tooLong (c : Cmd) (r : OpRow) : Bool :=
  decide (1048576 < c.ilen) || (decide (r.imax < c.ilen) && r.imin != r.imax)

/-- A key slot's content. -/
def Dev.keyOf (d : Dev) (slot : Nat) : Option Key := d.sec.keys.find? (fun x => x.slot == slot)

/-- The import that provisions the module (R257). -/
def firstImport (d : Dev) (c : Cmd) : Bool :=
  !d.bit F.SEC_STAT_PROVISIONED && (match c.origin with | .mbx _ => true | _ => false) && c.op == 0x8009 &&
  c.p8 24 == 0 && c.p8 25 == 0 && c.key == 0 && c.ctr == 0 && c.tag.all (· == 0) && c.ilen == 32

/-- The row that governs a command: the import that provisions the module carries 32 bytes (R257). -/
def rowFor (d : Dev) (c : Cmd) (r : OpRow) : OpRow := if firstImport d c then { r with imin := 32, imax := 32 } else r

/-- The parameter checks of R248, step 7 of R253 for a critical command: TOO_LONG, BAD_PARAM, or none. -/
def paramFail (d : Dev) (c : Cmd) : Option Nat :=
  match opRow c.op with
  | none => some St.badOpcode
  | some r0 =>
    let r := rowFor d c r0
    if tooLong c r then some St.tooLong else if malformed c r then some St.badParam else none

/-- The critical opcodes a role permits (R255): 0 OWNER, 1 CAL, 2 MAP, 3 FW, 4 STAND. -/
def rolePermits (role op : Nat) : Bool :=
  match role with
  | 0 => true
  | 1 => [0x8001, 0x8002, 0x8003, 0x8005, 0x8006].contains op
  | 2 => [0x8007, 0x8008, 0x8004, 0x800F].contains op
  | 3 => [0x800B, 0x800C].contains op
  | 4 => !([0x8009, 0x800A, 0x800D, 0x800E].contains op)
  | _ => false

/-- The tag an entry with its data must carry under a key (R254). -/
def cmdTag (key : List Byte) (entry data : List Byte) : List Byte := (cmac key (slice entry 0 56 ++ data)).take 8

/-- The key slot an entry is checked against: the one it names, or slot 7 for a relayed entry whatever it names (R259). -/
def authSlot (c : Cmd) (relayed : Bool) : Nat := if relayed then 7 else c.key

/-- Steps 1 to 5 of R253: the first failing check's status, or none. -/
def critFail (d : Dev) (c : Cmd) (relayed : Bool) : Option Nat :=
  if !d.bit F.SEC_STAT_PROVISIONED then some St.notProvisioned
  else if c.key = 7 ∧ !relayed then some St.keyRole
  else
    match d.keyOf (authSlot c relayed) with
    | none => some St.keyEmpty
    | some x =>
      if !rolePermits x.role c.op then some St.keyRole
      else if c.ctr ≤ d.get (F.SEC_CTR_CTR.at (authSlot c relayed)) then some St.replay
      else if cmdTag x.bytes c.entry c.data ≠ c.tag then some St.authFail
      else none

/-- Count and log a failed check of R253: the matching counter, and an event at most once per second per status. -/
def Dev.authReject (d : Dev) (status : Nat) (slot : Nat) : Dev :=
  let d :=
    if status = St.authFail then d.inc F.SEC_AUTH_FAIL_CNT
    else if status = St.replay then d.inc F.SEC_REPLAY_CNT
    else if status = St.keyEmpty ∨ status = St.keyRole then d.inc F.SEC_ROLE_FAIL_CNT
    else d
  let cnt :=
    if status = St.authFail then d.get F.SEC_AUTH_FAIL_CNT
    else if status = St.replay then d.get F.SEC_REPLAY_CNT
    else if status = St.keyEmpty ∨ status = St.keyRole then d.get F.SEC_ROLE_FAIL_CNT else 0
  let recent := match assoc d.sec.rejT status with | some t => decide (d.t < t + secT) | none => false
  if recent then d
  else
    let d := (d.onSec fun z => { z with rejT := (status, d.t) :: d.sec.rejT.filter (fun p => p.1 != status) })
    d.event 0x0E01 { elem := slot, arg0 := cnt, arg1 := status }

/-- Step 6 of R253: record the counter in its Keep tally counter; a failed counter refuses with STORE_ERR (R286). -/
def Dev.recordCtr (d : Dev) (slot ctr : Nat) : Option Dev :=
  if d.tallyFailed slot then none else some ((d.tallySet slot ctr).put (F.SEC_CTR_CTR.at slot) ctr)

/-- The critical command check of R253 and R257: the state after it and the failing status, if any. -/
def critCheck (d : Dev) (c : Cmd) (relayed : Bool) : Dev × Option Nat :=
  if !d.bit F.SEC_STAT_KEEP_OK then (d, some St.refused)
  else if firstImport d c then (d, none)
  else
    let d := d.wake 106
    match critFail d c relayed with
    | some st => (d.authReject st (authSlot c relayed), some st)
    | none =>
      match d.recordCtr (authSlot c relayed) c.ctr with
      | some d' => (d', none)
      | none => (d, some St.storeErr)

end Sys2Proof.Machine
end

