-- ==== Sys2Proof/Machine/Cmd.lean ====
section
/-! DEFINITION. How commands are accepted, checked, started and completed (R247 to R253, R261). -/

namespace Sys2Proof.Machine

/-- Commands accepted and not completed, shown in `SEC_STAT.EXEC` (R249). -/
def Dev.execCount (d : Dev) : Nat :=
  d.sec.cmds.countP (fun c => match c.origin with | .group _ => false | _ => true)

/-- Keep `SEC_STAT.EXEC` in step with the list. -/
def Dev.showExec (d : Dev) : Dev := d.put F.SEC_STAT_EXEC d.execCount

/-- The 16 bytes of a completion entry; PHASE is set when it is written (R250). -/
def cplBytes (c : Cmd) (status detail result slot : Nat) : List Byte :=
  leBytes 4 c.cookie ++ leBytes 1 status ++ leBytes 1 detail ++ leBytes 2 c.op ++ leBytes 4 result ++
  leBytes 2 c.index ++ leBytes 1 slot ++ [0]

/-- End a command with its completion: held for ring 1 (R235), shown in the mailbox (R261), or kept as this module's part
of a group command (R218). -/
def Dev.completeAs (d : Dev) (c : Cmd) (status detail result slot : Nat) : Dev :=
  if d.sec.cmds.any (fun x => x.k == c.k) then
    let d := (d.onSec fun z => { z with cmds := d.sec.cmds.filter (fun x => x.k != c.k) })
    match c.origin with
    | .ring => ((d.onHost fun z => { z with cpls := d.host.cpls ++ [cplBytes c status detail result slot] })).showExec
    | .mbx _ =>
      let b := cplBytes c status detail result slot
      let d := (List.range 4).foldl (fun d i => d.put (F.SEC_MBX_CPL_DATA.at i) (leAt b (4 * i) 4)) d
      ((d.putBit F.SEC_MBX_STAT_BUSY false).putBit F.SEC_MBX_STAT_DONE true).showExec
    | .group txn => (d.onSec fun z => { z with parts := d.sec.parts ++ [(txn, status, detail, result)] })
  else d

/-- End a command of this module. -/
def Dev.complete (d : Dev) (c : Cmd) (status detail result : Nat) : Dev := d.completeAs c status detail result 0xFF

/-- End a command with status OK. -/
def Dev.ok (d : Dev) (c : Cmd) (result : Nat) : Dev := d.complete c St.ok 0 result

/-- End the waiting command with acceptance number `k`, if it is still held. -/
def Dev.completeK (d : Dev) (k status detail result : Nat) : Dev :=
  match d.sec.cmds.find? (fun c => c.k == k) with
  | some c => d.complete c status detail result
  | none => d

/-- End every command of a list of acceptance numbers. -/
def Dev.completeAll (d : Dev) (ks : List Nat) (status detail result : Nat) : Dev :=
  ks.foldl (fun d k => d.completeK k status detail result) d

/-- The waits that do not hold back later commands (R249). -/
def waitsForLater (d : Dev) (c : Cmd) : Bool :=
  [0x0004, 0x0009, 0x8005, 0x0010, 0x800C].contains c.op || !(c.others d).isEmpty

/-- The firmware is changing: no command is fetched or executed (R264). -/
def Dev.fwGap (d : Dev) : Bool := d.sec.fwTrial.any (fun t => !t.runs)

/-- What a command needs that a reservation keeps from others (R218; DESIGN CHOICE, log 87): commands of one number share
it, 0 needs nothing that is kept. -/
def resClass (op : Nat) : Nat :=
  if op = 0x0001 ∨ op = 0x0002 then 10
  else if op = 0x0003 ∨ op = 0x0004 then 1
  else if op = 0x0005 then 11
  else if op = 0x0009 then 2
  else if op = 0x000B ∨ op = 0x000C ∨ op = 0x000D then 3
  else if op = 0x000E then 4
  else if op = 0x8001 ∨ op = 0x8002 ∨ op = 0x8006 then 12
  else if op = 0x8003 then 6
  else if op = 0x8004 then 7
  else if op = 0x8005 then 5
  else if op = 0x8009 ∨ op = 0x800A then 8
  else if op = 0x800B ∨ op = 0x800C then 9
  else 0

/-- The command's resource is reserved for a group command this module has voted for (R218). -/
def Dev.reserved (d : Dev) (op : Nat) : Bool :=
  d.stand.resv.any (fun r => resClass op != 0 && resClass (leAt r.entry 0 2) == resClass op)

/-- A command may start (R249): data in hand, verified, every earlier command started and not holding it back, or all
earlier ones completed if it carries FENCE; and what it needs not reserved (R218). -/
def canStart (d : Dev) (c : Cmd) : Bool :=
  let earlier := d.sec.cmds.filter (fun x => decide (x.k < c.k) && (match x.origin with | .group _ => false | _ => true))
  c.hasData && c.verified && !c.started &&
  (if c.fence then earlier.isEmpty else earlier.all (fun x => x.started && waitsForLater d x)) &&
  !d.fwGap && !d.reserved c.op

/-- Mark a command as started. -/
def Dev.markStarted (d : Dev) (k : Nat) : Dev :=
  (d.onSec fun z => { z with cmds := updIf d.sec.cmds (fun c => c.k == k) (fun c => { c with started := true }) })

/-- The checks at acceptance: opcode, targets, and for an ordinary command length and malformed forms (R248, R252); a
critical command's parameters are checked after R253 has passed it.
A start-up halted at step 3 runs three commands only (R324). -/
def preCheck (d : Dev) (c : Cmd) : Option Nat :=
  match opRow c.op with
  | none => some St.badOpcode
  | some r =>
    if d.bit F.SYS_START_HALTED && !bootMinimal c then some St.badOpcode
    else if !targetsOk d c r then some St.badOpcode
    else if c.crit && (match c.origin with | .mbx _ => true | _ => false) && !d.bit F.SEC_POLICY_MBX_CRIT && !firstImport d c then
      some St.badOpcode
    else if entryTooLong c then some St.tooLong
    else if c.crit then none
    else paramFail d c
where
  /-- NOP, FW_STAGE and FW_SWITCH through the mailbox, with data that fits `SEC_MBX_DATA` (R324). -/
  bootMinimal (c : Cmd) : Bool :=
    [0x0000, 0x800B, 0x800C].contains c.op && (match c.origin with | .mbx _ => true | _ => false) && decide (c.ilen ≤ 4096)

/-- An opcode's data is fetched before it executes. -/
def needsData (c : Cmd) : Bool :=
  match opRow c.op with | some r => r.dataIn && decide (0 < c.ilen) | none => false

/-- Verify the critical commands whose turn has come, one at a time in order of acceptance (R249, R253); a command that
fails, or whose parameters fail after it passed, completes at once. -/
def Dev.verifyGo : Nat → Dev → Dev
  | 0, d => d
  | n + 1, d =>
    match d.sec.cmds.find? (fun c => !c.verified && (match c.origin with | .group _ => false | _ => true)) with
    | none => d
    | some c =>
      if !c.hasData then d
      else
        let setV (d : Dev) : Dev :=
          (d.onSec fun z => { z with cmds := updIf d.sec.cmds (fun x => x.k == c.k) (fun x => { x with verified := true }) })
        if !c.crit then Dev.verifyGo n (setV d)
        else
          match critCheck d c false with
          | (d, some st) => Dev.verifyGo n (d.complete c st 0 0)
          | (d, none) =>
            Dev.verifyGo n (match paramFail d c with | some st => d.complete c st 0 0 | none => setV d)

/-- Verify as far as possible; not while the firmware changes (R264). -/
def Dev.verifyAll (d : Dev) : Dev := if d.fwGap then d else Dev.verifyGo (d.sec.cmds.length + 1) d

/-- Accept a command entry (R249). -/
def Dev.accept (d : Dev) (entry : List Byte) (index : Nat) (o : Origin) (data : Option (List Byte)) : Dev :=
  let c0 : Cmd := ⟨d.sec.nextK, slice entry 0 64, index, o, data.getD [], false, false, false, d.t⟩
  let c := { c0 with hasData := !needsData c0 || data.isSome }
  let d := ((d.onSec fun z => { z with cmds := d.sec.cmds ++ [c], nextK := d.sec.nextK + 1 })).showExec
  match preCheck d c with
  | some st => d.complete c st 0 0
  | none => d.verifyAll

/-- Fetches of command entries that are on their way. -/
def Dev.cmdFetches (d : Dev) : Nat := d.host.reqs.countP (fun r => r.kind == .cmd)

/-- The module takes the mailbox's entry when it holds fewer than 32 commands, after the ring entries of the same clock
(R249, R261); a command whose staged data had an uncorrectable word ends with STORE_ERR (R273). -/
def Dev.mbxAdmit (d : Dev) : Dev :=
  match d.sec.mbxWait with
  | some (p, e, data) =>
    if d.execCount + d.cmdFetches < 32 ∧ ¬ d.fwGap then
      let d := d.onSec fun z => { z with mbxWait := none }
      let k := d.sec.nextK
      let d := d.accept e 0xFFFF (.mbx p) data
      if data.isNone then d.completeK k St.storeErr 0 0 else d
    else d
  | none => d

/-- Write returned data where the command asked for it (R248, R261): host memory, mailbox data registers, or the mailbox
staging table when longer than 4096 bytes. -/
def State.returnData (s : State) (c : Cmd) (bs : List Byte) : State :=
  match c.origin with
  | .ring => s.onDev (fun d => d.emit (.dmaWrite c.iptr bs false))
  | .mbx _ =>
    if bs.length ≤ 4096 then
      s.onDev (fun d => (List.range (cdiv bs.length 4)).foldl
        (fun d i => d.put (F.SEC_MBX_DATA_DATA.at i) (leAt bs (4 * i) 4)) d)
    else s.wrQdr 0x0E700000 bs
  | .group _ => s

/-- Run a command row: nothing happens unless command `k` is held, carries the row's opcode and may start. A command
that targets other slots starts the group procedure instead, once no other group command runs (R218). -/
def runCmd (op k : Nat) (group : Cmd → State → State) (f : Cmd → State → State) (s : State) : State :=
  match s.dev.sec.cmds.find? (fun c => c.k == k && c.op == op) with
  | none => s
  | some c =>
    if canStart s.dev c && ((c.others s.dev).isEmpty || s.dev.stand.group.isNone) then
      let s := s.onDev (fun d => d.markStarted k)
      if (c.others s.dev).isEmpty then f c s else group c s
    else s

end Sys2Proof.Machine
end

