-- ==== Sys2Proof/Machine/Capture.lean ====
section
/-! DEFINITION. Frame capture as the host interface sees it: the capture registers, when a capture command completes, and a
frame buffer that becomes free (R83, R85, R239, R251). -/

namespace Sys2Proof.Machine

/-- The capture registers. -/
def showCap (d : Dev) : Dev :=
  let d := d.putBit F.PIPE_CAP_STAT_ACTIVE d.pipe.cap.isSome
  let d := match d.pipe.cap with
    | some c => (d.put F.PIPE_CAP_STAT_TAP c.tap).put F.PIPE_CAP_STAT_RING (c.ring - 6)
    | none => d
  d.put F.PIPE_CAP_STAT_BUF_BUSY ((List.range 2).foldl (fun a i =>
    a + (match d.pipe.capBufs.getD i none with | some b => if b.ready then 2 ^ i else 0 | none => 0)) 0)

/-- Some frame buffer holds a frame of the capture of command `k`. -/
def PipeSt.capBusy (z : PipeSt) (k : Nat) : Bool :=
  z.capBufs.any (fun b => match b with | some x => x.cap.k == k | none => false)

/-- The command held under a number is a FRAME_CAPTURE. -/
def Dev.isCapture (d : Dev) (k : Nat) : Bool :=
  match d.sec.cmds.find? (fun c => c.k == k) with | some c => c.op == 0x0009 | none => false

/-- A capture that has ended completes its FRAME_CAPTURE after its last record (R252). -/
def settleCaps (d : Dev) : Dev :=
  let done := d.pipe.capEnds.filter (fun e => !d.pipe.capBusy e.1)
  let d := d.onPipe fun z => { z with capEnds := z.capEnds.filter (fun e => z.capBusy e.1) }
  showCap (done.foldl (fun d e => if d.isCapture e.1 then d.completeK e.1 e.2 0 0 else d) d)

/-- End a capture with a status. -/
def endCap (k st : Nat) (d : Dev) : Dev := settleCaps (d.onPipe fun z => { z with capEnds := z.capEnds ++ [(k, st)] })

/-- Frames of the capture of command `k` that are dropped count in the next record delivered: one that is being assembled in the
other buffer, or else the next one to begin (R85). -/
def countDropped (k n : Nat) (d : Dev) : Dev :=
  let mine (b : Option CapBuf) : Bool := match b with | some x => x.cap.k == k && !x.ready | none => false
  if d.pipe.capBufs.any mine then
    d.onPipe fun z => { z with capBufs := z.capBufs.map (fun b => if mine b then b.map (fun x => { x with dropped := x.dropped + n }) else b) }
  else
    d.onPipe fun z => { z with cap := z.cap.map (fun c => if c.k = k then { c with dropped := c.dropped + n } else c) }

/-- The record of a frame buffer has left the module, or has been dropped: the buffer is free (R85, R239). -/
def capLeft (buf : Option Nat) (delivered : Bool) (d : Dev) : Dev :=
  match buf with
  | none => d
  | some i =>
    let d := if delivered then d.incWrap F.PIPE_CAP_DONE_CNT else d
    settleCaps (d.onPipe fun z => { z with capBufs := z.capBufs.set i none })

/-- Captures whose ring satisfies a condition end ABANDONED; frames that are in a buffer stay (R251). -/
def abandonWhere (p : Nat → Bool) (d : Dev) : Dev :=
  let ks := ([d.pipe.cap, d.pipe.capNext].filterMap id).filter (fun c => p c.ring && c.dec != 0)
  let d := d.onPipe fun z => { z with
    cap := if (match z.cap with | some c => p c.ring | none => false) then none else z.cap
    capNext := if (match z.capNext with | some c => p c.ring | none => false) then none else z.capNext }
  showCap (ks.foldl (fun d c => endCap c.k St.abandoned d) d)

/-- A reset of ring `n` ends the captures on it ABANDONED, those included whose last records wait, and discards their frames
(R234, R251). -/
def abandonCaptures (n : Nat) (d : Dev) : Dev :=
  let hit (b : Option CapBuf) : Bool := match b with | some x => x.cap.ring == n | none => false
  let ks := d.pipe.capBufs.filterMap (fun b => match b with | some x => if x.cap.ring = n then some x.cap.k else none | none => none)
  let d := d.onPipe fun z => { z with
    capEnds := z.capEnds.map (fun e => if ks.contains e.1 && e.2 == St.ok then (e.1, St.abandoned) else e)
    capBufs := z.capBufs.map (fun b => if hit b then none else b) }
  settleCaps (abandonWhere (· == n) d)

end Sys2Proof.Machine
end

