-- ==== Sys2Proof/Machine/Qdr.lean ====
section
/-! DEFINITION. QDR words as they are read: the areas of R266, correction, write-back, and what an uncorrectable word marks
(R266, R269 to R273); and the words of the internal path (R269, R271). -/

namespace Sys2Proof.Machine

/-! ### Areas (R266)

Bytes of the plate regions, of the tables held as images and of the mailbox staging are QDR bytes. The other areas hold state that
the model keeps as typed fields; each item of it has an address here, whose place within its area is the model's choice (log 9). -/

/-- The filter of a channel in the noise-stage state (R61). -/
def chAddr (ch : Nat) : Nat := 0x08D00000 + 4 * ch

/-- The Burin state of pixel `i` (R91). -/
def burinAddr (i : Nat) : Nat := 0x07800000 + 4 * i

/-- Pixel `j` of the open line in cell `k` of the strip accumulator, for lines of `c` pixels (R152). -/
def accAddr (c k j : Nat) : Nat := 0x09700000 + 4 * (c * k + j)

/-- Frame buffer `b` (R85, R266). -/
def capAddr (b : Nat) : Nat := 0x0AC00000 + 0xA80000 * b

/-- Pixel `j` of the segment in cell `k` of the merge buffers, cells of 2560 pixels (R222). -/
def mergeAddr (k j : Nat) : Nat := 0x0C100000 + 4 * (2560 * k + j)

/-- Byte `o` of the STRIP record staging, which is filled round (R239). -/
def stagingAddr (o : Nat) : Nat := 0x0D100000 + o % 0x1000000

/-- The geometry map in force (table 0x09). -/
def geoForceAddr : Nat := 0x0E3D8000

/-- The stand map (table 0x0B). -/
def standMapAddr : Nat := 0x0E3DF000

/-- Job profile `i` (table 0x0A). -/
def profAddr (i : Nat) : Nat := 0x0E400000 + 1600 * i

/-- The accumulators of lane `l` in the open statistics block (R163). -/
def statAddr (l : Nat) : Nat := 0x0E420000 + 32 * l

/-- A QDR word of an area that the model holds as typed fields and not as bytes. -/
def typedWord (w : Nat) : Bool :=
  let a := 32 * w
  decide (0x07800000 ≤ a ∧ a < 0x0E100000) || decide (geoForceAddr ≤ a ∧ a < geoForceAddr + 18528) ||
  decide (standMapAddr ≤ a ∧ a < standMapAddr + 832) || decide (0x0E400000 ≤ a ∧ a < 0x0E700000)

/-- Some word of the `n` bytes at `a` is uncorrectable. -/
def badIn (bad : List Nat) (a n : Nat) : Bool := bad.any (fun w => decide (a < 32 * w + 32 ∧ 32 * w < a + n))

/-- The words of the `n` bytes at `a` are written anew: none is uncorrectable any more (R272). -/
def Dev.freshQdr (d : Dev) (a n : Nat) : Dev :=
  if badIn d.store.qdrBad a n then
    d.onStore fun z => { z with qdrBad := z.qdrBad.filter (fun w => !decide (a < 32 * w + 32 ∧ 32 * w < a + n)) }
  else d

/-! ### Reads (R270 to R272) -/

/-- The correction counter of wire `i` of channel `c`. -/
def wireFld (c i : Nat) : Fld :=
  let f :=
    if c = 0 then (if i % 2 = 0 then F.MEM_QDR0_WIRE_LOW else F.MEM_QDR0_WIRE_HIGH)
    else if c = 1 then (if i % 2 = 0 then F.MEM_QDR1_WIRE_LOW else F.MEM_QDR1_WIRE_HIGH)
    else if c = 2 then (if i % 2 = 0 then F.MEM_QDR2_WIRE_LOW else F.MEM_QDR2_WIRE_HIGH)
    else if i % 2 = 0 then F.MEM_QDR3_WIRE_LOW else F.MEM_QDR3_WIRE_HIGH
  f.at (i / 2)

/-- The erased wires of channel `c` (R270). -/
def Dev.erased (d : Dev) (c : Nat) : List Nat := bitsOf 36 (d.get (F.MEM_QDR_ERASE_MASK.at c))

/-- Count a corrected word and the wires corrected in it; a corrected wire that is not erased is an event (R271). -/
def Dev.qdrCorr (d : Dev) (w : Nat) (fixed : List Nat) : Dev :=
  let c := w % 4
  let d := d.inc (F.MEM_QDR_CORR_CNT.at c)
  (fixed.filter (fun i => !(d.erased c).contains i)).foldl (fun d i =>
    (d.inc (wireFld c i)).event 0x0001 { elem := 36 * c + i, arg0 := d.get (F.MEM_QDR_CORR_CNT.at c), arg2 := 32 * w }) d

/-- A burst that came back as the codeword `code`: decoded with the channel's erasures and counted. A corrected word is written
back, unless a newer functional write to its address was accepted behind the read, which is counted instead; an uncorrectable one
is left as it is (R270 to R272). A corrected word of a typed area is the one that was written there. -/
def readBurst (w : Nat) (code : List Byte) (newer : Bool) (s : State) : State :=
  match hatchDecode (s.dev.erased (w % 4)) (slice code 0 36) with
  | .ok word fixed =>
    if fixed.isEmpty then s
    else
      let s := if newer || typedWord w then s else s.wrQdr (32 * w) (word.take 32)
      s.onDev (fun d =>
        let d := d.qdrCorr w fixed
        if newer then d.inc (F.MEM_QDR_WBSKIP_CNT.at (w % 4)) else d)
  | .bad => s.onDev (fun d => (d.onStore fun z => { z with qdrBad := w :: z.qdrBad.filter (· != w) }).qdrUncorr w)

/-- The functional reads of a command that came back with errors (R271, R272): a word that is uncorrectable already stays so. -/
def funcReads (reads : List BurstIn) (s : State) : State :=
  reads.foldl (fun s r => if s.dev.store.qdrBad.contains r.word then s else readBurst r.word r.code r.newer s) s

/-- Functional reads of words that were uncorrectable before (R271). -/
def Dev.badSeen (d : Dev) (ws : List Nat) : Dev := ws.eraseDups.foldl (fun d w => if d.store.qdrBad.contains w then d.qdrUncorr w else d) d

/-! ### The internal path (R269, R271) -/

/-- The codeword of a 256-bit word of sixteen pixels: value j in bytes 2j and 2j + 1, then the four check bytes (R268, R269). -/
def pathEncode (px : List Nat) : List Byte := hatchEncode ((List.range 16).flatMap (fun j => leBytes 2 (px.getD j 0)))

/-- The sixteen pixels of a word that came over the path, and whether a symbol was corrected; none if it is uncorrectable. -/
def pathDecode (code : List Byte) : Option (List Nat × Bool) :=
  match hatchDecode [] (slice code 0 36) with
  | .ok word fixed => some ((List.range 16).map (fun j => leAt word (2 * j) 2), !fixed.isEmpty)
  | .bad => none

/-- A word of pixels that came over the path with errors: corrected and counted, or counted with its event (R271). -/
def Dev.pathRead (d : Dev) (lane : Nat) (code : List Byte) : Dev :=
  match pathDecode code with
  | some (_, fixed) => if fixed then d.inc F.MEM_PATH_CORR_VAL else d
  | none =>
    let d := d.inc F.MEM_PATH_UNCORR_VAL
    d.event 0x0301 { elem := lane, arg0 := d.get F.MEM_PATH_UNCORR_VAL }

end Sys2Proof.Machine
end

