-- ==== Sys2Proof/Machine/HostIf.lean ====
section
/-! DEFINITION. The host interface: rings, doorbells, buffers, non-posted requests and their failures, MSI-X (R229 to
R244), and the rows that carry them out. -/

namespace Sys2Proof.Machine

/-! ### Rings -/

/-- Host index H of ring `n`. -/
def Dev.ringH (d : Dev) (n : Nat) : Nat := d.get (F.HOST_RING_HIDX_VAL.at n)
/-- Module index M of ring `n`. -/
def Dev.ringM (d : Dev) (n : Nat) : Nat := d.get (F.HOST_RING_MIDX_VAL.at n)
/-- Ring size S (R232). -/
def Dev.ringS (d : Dev) (n : Nat) : Nat := 2 ^ d.get (F.HOST_RING_SIZE_LOG2.at n)
/-- Ring state: 0 DISABLED, 1 ACTIVE, 2 HALTED, 3 SUSPENDED. -/
def Dev.ringState (d : Dev) (n : Nat) : Nat := d.get (F.HOST_RING_STAT_STATE.at n)
/-- Host address of the ring. -/
def Dev.ringBase (d : Dev) (n : Nat) : Nat := d.get (F.HOST_RING_BASE_ADDR.at n) * 4096
/-- The DMA channel that serves ring `n` (R241). -/
def Dev.ringChan (d : Dev) (n : Nat) : Nat := if n < 2 then 0 else d.get (F.HOST_RING_CTL_DMA.at n)
/-- Difference of two 32-bit free-running indices as an unsigned number. -/
def idxDiff (a b : Nat) : Nat := (a + 2 ^ 32 - b % 2 ^ 32) % 2 ^ 32

/-- What a ring holds beside its registers. -/
def Dev.ringX (d : Dev) (n : Nat) : RingX := d.host.rings.getD n ⟨[], [], false, false, false⟩

/-- Replace what a ring holds, with `PREFETCH` following it. -/
def Dev.putRingX (d : Dev) (n : Nat) (r : RingX) : Dev :=
  (d.onHost fun z => { z with rings := d.host.rings.set n r }).put (F.HOST_RING_STAT_PREFETCH.at n)
    (satN 8 (r.descs.length + r.bufs.length))

/-- Write the index block entry of a ring: M, STATE, ERR and the tick (R236). -/
def Dev.idxEntry (d : Dev) (n : Nat) : Dev :=
  d.emit (.dmaWrite (d.get F.HOST_IDX_BASE_ADDR * 256 + 16 * n)
    (leBytes 4 (d.ringM n) ++ leBytes 1 (d.ringState n) ++ leBytes 1 (d.get (F.HOST_RING_STAT_ERR.at n)) ++ [0, 0] ++ leBytes 8 d.t)
    false)

/-- Move a ring to a state with an error code and publish it; a ring that halts makes the error vector pending (R244). -/
def Dev.ringTo (d : Dev) (n st err : Nat) : Dev :=
  let d := ((d.put (F.HOST_RING_STAT_STATE.at n) st).put (F.HOST_RING_STAT_ERR.at n) err).idxEntry n
  if st = 2 then d.pendErr else d

/-- Advance M of a ring and publish it. -/
def Dev.advanceM (d : Dev) (n k : Nat) : Dev := (d.put (F.HOST_RING_MIDX_VAL.at n) (d.ringM n + k)).idxEntry n

/-- Count a dropped record of a ring; the next buffer carries DROP_BEFORE (R239). Lines of a strip record count too. -/
def Dev.dropRec (d : Dev) (r : RecX) : Dev :=
  let d := (d.inc (F.HOST_RING_DROP_VAL.at r.ring)).addSat F.WEB_REC_DROP_CNT r.lines
  let x := d.ringX r.ring
  let fresh (b : Buf) : Bool := !b.closed && b.data.isEmpty
  let d := d.putRingX r.ring (if x.bufs.any fresh then { x with bufs := updIf x.bufs fresh (fun b => { b with dropBefore := true }) }
    else { x with dropped := true })
  capLeft r.buf false d

/-! ### Requests (R241, R242) -/

/-- Split a transfer at multiples of the payload limit and at 4 KiB boundaries. -/
def splitSpan (lim : Nat) : Nat → Nat → Nat → List (Nat × Nat)
  | 0, _, _ => []
  | f + 1, a, n =>
    if n = 0 then []
    else
      let c := Nat.max 1 (Nat.min n (Nat.min lim (4096 - a % 4096)))
      (a, c) :: splitSpan lim f (a + c) (n - c)

/-- Write bytes to host memory, split at MPS and 4 KiB (R241). -/
def Dev.dmaWrite (d : Dev) (addr : Nat) (bs : List Byte) (ro : Bool) : Dev :=
  (splitSpan (Nat.max 1 d.host.cfg.mps) bs.length addr bs.length).foldl
    (fun d p => d.emit (.dmaWrite p.1 (slice bs (p.1 - addr) p.2) ro)) d

/-- A non-posted request, to be issued in its turn. -/
def Dev.issue (d : Dev) (chan ring addr len : Nat) (k : ReqKind) : Dev :=
  d.onHost fun z => { z with
    nextReq := z.nextReq + 1
    reqs := z.reqs ++ [⟨z.nextReq, chan, ring, addr, len, 0, k, .wait, 0⟩] }

/-- A channel accepts new requests: bus mastering on in D0, the link up and not in recovery, and the channel not halted (R234). -/
def Dev.chanRuns (d : Dev) (c : Nat) : Bool :=
  d.bit F.HOST_STAT_BME && !d.bit F.HOST_STAT_D3HOT && d.bit F.HOST_STAT_LINK_UP && !d.bit F.HOST_STAT_RETRAINING &&
  d.get (F.HOST_DMA_STAT_STATE.at c) != 3

/-- A request that is outstanding. -/
def Req.isOut (r : Req) : Bool := match r.st with | .out _ => true | _ => false

/-- A request that is outstanding, or whose bytes are all held. -/
def Req.live (r : Req) : Bool := match r.st with | .out _ => true | .done => true | _ => false

/-- Where a channel stands in the order of R241, the lowest first: channels 2 to 5 and 7 go round after `turn`. -/
def chanRank (turn c : Nat) : Nat := if c = 0 then 0 else if c = 1 then 1 else if c = 6 then 10 else 2 + (c + 7 - turn) % 8

/-- The request whose turn it is. -/
def Dev.nextDue (d : Dev) : Option Req :=
  (d.host.reqs.filter (fun r => r.st == .wait && d.chanRuns r.chan)).foldl (fun o r => match o with
    | none => some r
    | some q => if chanRank d.host.turn r.chan < chanRank d.host.turn q.chan then some r else some q) none

/-- Issue a request under a new identifier, with a new timeout (R242). -/
def Dev.issueOne (d : Dev) (r : Req) : Dev :=
  let id := d.host.nextReq
  (d.onHost fun z => { z with
    nextReq := id + 1
    turn := if 2 ≤ r.chan ∧ r.chan ≠ 6 then r.chan else z.turn
    reqs := updIf z.reqs (fun x => x == r) (fun x => { x with id := id, st := .out (z.cfg.cplTimeout.map (d.t + ·)), got := 0 }) }).emit
    (.dmaRead id r.addr r.len)

/-- Issue what waits, in the order of R241, while fewer than 256 requests are outstanding (R229). -/
def issueGo : Nat → Dev → Dev
  | 0, d => d
  | n + 1, d =>
    if 256 ≤ d.host.reqs.countP Req.isOut then d
    else match d.nextDue with | some r => issueGo n (d.issueOne r) | none => d

/-- Show which channels have a request under way. -/
def Dev.showBusy (d : Dev) : Dev :=
  (List.range 8).foldl (fun d c =>
    if 2 ≤ d.get (F.HOST_DMA_STAT_STATE.at c) then d
    else d.put (F.HOST_DMA_STAT_STATE.at c) (b2n (d.host.reqs.any (fun r => r.chan == c && r.st != .done)))) d

/-- Issue every request whose turn has come. -/
def Dev.issueAll (d : Dev) : Dev := (issueGo (d.host.reqs.length + 1) d).showBusy

/-- The module fetches command entries: room for another command and another completion, and no firmware gap (R249, R235,
R264). -/
def Dev.mayFetchCmd (d : Dev) : Bool :=
  decide (d.execCount + b2n d.sec.mbxWait.isSome < 32) && decide (d.host.cpls.length < 64) && !d.fwGap &&
  d.sec.early.isNone && !d.bit F.SYS_START_HALTED

/-- The descriptors of the chain after one that carries CHAIN; none while the chain is not all posted. -/
def chainRest : Bool → List Desc → Option (List Desc)
  | false, _ => some []
  | true, [] => none
  | true, x :: xs => (chainRest (x.flags.testBit 2) xs).map (x :: ·)

/-- The last buffer is open: it is not closed. -/
def openBuf (x : RingX) : Option Buf := match x.bufs.getLast? with | some b => if b.closed then none else some b | none => none

/-- The descriptors held do not end the chain that a record would begin in (R238). -/
def RingX.chainShort (x : RingX) : Bool :=
  match openBuf x with
  | some b => (chainRest (b.d.flags.testBit 2) x.descs).isNone
  | none => (chainRest true x.descs).isNone

/-- Ask for what a ring is due: one command entry, or the posted descriptors up to the wrap, a 4 KiB boundary and MRRS; 64
descriptors are held ahead, or what a chain takes (R232, R238). -/
def Dev.pumpRing (d : Dev) (n : Nat) : Dev :=
  if d.ringState n = 1 ∧ ¬ (d.ringX n).closing ∧ d.chanRuns (d.ringChan n) ∧
      !d.host.reqs.any (fun r => r.ring == n && (r.kind == .cmd || r.kind == .desc)) then
    if n = 0 then
      if d.ringM 0 ≠ d.ringH 0 ∧ d.mayFetchCmd then
        d.issue 0 0 (d.ringBase 0 + 64 * (d.ringM 0 % d.ringS 0)) 64 .cmd
      else d
    else if n = 1 then d
    else
      let x := d.ringX n
      let i := d.ringM n + x.bufs.length + x.descs.length
      let avail := idxDiff (d.ringH n) i
      let slot := i % d.ringS n
      let a := d.ringBase n + 32 * slot
      let cnt := Nat.min (Nat.min avail (d.ringS n - slot))
        (Nat.min ((4096 - a % 4096) / 32) (Nat.max 1 (d.host.cfg.mrrs / 32)))
      if cnt = 0 ∨ (64 ≤ x.descs.length && !x.chainShort) ∨ x.bad then d else d.issue (d.ringChan n) n a (32 * cnt) .desc
  else d

/-- Ask for a command's indirect data (R248). -/
def Dev.pumpData (d : Dev) : Dev :=
  d.sec.cmds.foldl (fun d c =>
    if !c.hasData && c.origin == .ring && d.chanRuns 0 &&
        !d.host.reqs.any (fun r => r.kind == .indirect c.k) then
      (splitSpan (Nat.max 64 d.host.cfg.mrrs) c.ilen c.iptr c.ilen).foldl (fun d p => d.issue 0 0 p.1 p.2 (.indirect c.k)) d
    else d) d

/-- Issue everything that is due. -/
def Dev.pump (d : Dev) : Dev := (((List.range 16).foldl Dev.pumpRing d).pumpData).issueAll

/-- Report an error to AER: its bit of the uncorrectable status, and as advisory non-fatal where the module recovers from it and
the PCIe Base Specification allows that (R242; PRESUMED, log 7). -/
def Dev.aer (d : Dev) (bit : Nat) (advisory : Bool) : Dev :=
  d.onHost fun z => { z with
    aerU := z.aerU ||| BitVec.ofNat 32 (2 ^ bit)
    aerC := if advisory then z.aerC ||| 0x2000 else z.aerC }

/-- What AER calls a failure of R242: a timeout, a poisoned completion, an ECRC error, a malformed completion; a completion's own
status is no error of the requester's. -/
def Dev.aerFail (d : Dev) (cause : Nat) (again : Bool) : Dev :=
  if cause = 1 then d.aer 14 again
  else if cause = 4 then d.aer 12 again
  else if cause = 5 then d.aer 19 false
  else if cause = 6 then d.aer 18 false
  else d

/-- A request fails once more than its budget: the channel halts (R242). -/
def Dev.chanHalt (d : Dev) (r : Req) (cause : Nat) : Dev :=
  let d := (d.onHost fun z => { z with reqs := updIf d.host.reqs (fun x => x.id == r.id) (fun x => { x with st := .failed }) })
  let d := (((d.put (F.HOST_DMA_STAT_STATE.at r.chan) 3).put (F.HOST_DMA_STAT_HALT.at r.chan) cause).put
    (F.HOST_DMA_STAT_RING.at r.chan) r.ring).put (F.HOST_DMA_FAIL_ADDR_ADDR.at r.chan) r.addr
  let d := (d.event 0x0A01 { elem := r.chan, arg1 := cause, arg2 := r.addr }).pendErr
  (List.range 16).foldl (fun d n =>
    if d.ringChan n = r.chan ∧ d.ringState n = 1 then d.ringTo n 2 1 else d) d

/-- A request fails with a cause: it waits BACKOFF µs for its reissue, or halts its channel when the budget is spent. -/
def Dev.reqFail (d : Dev) (r : Req) (cause : Nat) : Dev :=
  let d := (d.put (F.HOST_DMA_STAT_HALT.at r.chan) cause).aerFail cause (decide (r.tries < d.get F.HOST_CTL_RETRY))
  if r.tries < d.get F.HOST_CTL_RETRY then
    (d.onHost fun z => { z with reqs := updIf d.host.reqs (fun x => x.id == r.id) (fun x => { x with st := .backoff (d.t + d.get F.HOST_CTL_BACKOFF * usT), got := 0 }) })
  else d.chanHalt r cause

/-- The HALT code of a failed completion (R242). -/
def cplCode : CplCause → Nat
  | .ok => 0
  | .unsupported => 2
  | .completerAbort => 3
  | .poisoned => 4
  | .ecrc => 5
  | .malformed => 6

/-- Remove a request that has succeeded. -/
def Dev.reqDone (d : Dev) (p : Req → Bool) : Dev :=
  (d.onHost fun z => { z with reqs := d.host.reqs.filter (fun r => !p r) })

/-! ### Buffers (R237, R238, R241) -/

/-- A descriptor from its 32 bytes; none if it breaks a rule of the Written by Host rows. -/
def parseDesc (b : List Byte) : Option Desc :=
  let addr := leAt b 0 8
  let len := leAt b 8 4
  let fl := leAt b 12 2
  if addr % 64 = 0 ∧ len % 64 = 0 ∧ 64 ≤ len ∧ len ≤ 16777216 ∧ fl < 8 ∧ leAt b 14 2 = 0 then
    some ⟨addr, len, fl, slice b 24 8⟩
  else none

/-- Space left in a buffer. -/
def Buf.room (b : Buf) : Nat := b.d.len - b.data.length

/-- A buffer opened on a descriptor. -/
def freshBuf (d : Desc) (drop : Bool) : Buf := ⟨d, [], 0, 0, none, false, false, drop, false, false, false⟩

/-- Replace the last buffer. -/
def setLast (bs : List Buf) (b : Buf) : List Buf := bs.dropLast ++ [b]

/-- Put the bytes of a record into the open buffer and on through its chain. -/
def fillChain (t : Nat) : Nat → Bool → List Byte → RingX → RingX
  | 0, _, _, x => x
  | f + 1, first, bs, x =>
    match openBuf x with
    | none =>
      match x.descs with
      | [] => x
      | q :: qs => fillChain t f first bs { x with descs := qs, bufs := x.bufs ++ [freshBuf q x.dropped], dropped := false }
    | some b =>
      let n := Nat.min b.room bs.length
      let b := { b with
        data := b.data ++ bs.take n
        recs := if first then Nat.min 255 (b.recs + 1) else b.recs
        firstT := if b.firstT.isSome then b.firstT else some t
        contIn := b.contIn || !first
        contOut := decide (n < bs.length)
        closed := decide (b.room = n) }
      let x := { x with bufs := setLast x.bufs b }
      if n < bs.length then fillChain t f false (bs.drop n) x else x

/-- What becomes of the oldest staged record of a ring: placed, dropped as too big, or left waiting for descriptors. -/
inductive Placed where
  | done (x : RingX)
  | tooBig (x : RingX)
  | wait (x : RingX)

/-- Place one record by the rules of R238. -/
def placeRec (t : Nat) (bs : List Byte) : Nat → RingX → Placed
  | 0, x => .wait x
  | f + 1, x =>
    match openBuf x with
    | none =>
      match x.descs with
      | [] => .wait x
      | q :: qs => placeRec t bs f { x with descs := qs, bufs := x.bufs ++ [freshBuf q x.dropped], dropped := false }
    | some b =>
      if bs.length ≤ b.room then .done (fillChain t (x.descs.length + 2) true bs x)
      else
        match chainRest (b.d.flags.testBit 2) x.descs with
        | none => .wait x
        | some rest =>
          if bs.length ≤ b.room + (rest.map (·.len)).foldl (· + ·) 0 then
            .done (fillChain t (x.descs.length + 2) true bs x)
          else if b.data.isEmpty then .tooBig x
          else placeRec t bs f { x with bufs := setLast x.bufs { b with closed := true } }

/-- The ring halts with DESC_BAD at an invalid descriptor (R237). -/
def Dev.haltDesc (d : Dev) (n : Nat) : Dev := (d.ringTo n 2 3).hostErr F.HOST_ERR_STAT_DESC_BAD

/-- Stop at the offending slot (R234): every descriptor before the invalid one has been used and written back. DEDUCED (log 20). -/
def Dev.stopBad (d : Dev) (n : Nat) : Dev :=
  let x := d.ringX n
  if d.ringState n = 1 && x.bad && x.descs.isEmpty && x.bufs.isEmpty then d.haltDesc n else d

/-- Write what the buffers of a ring hold and the host has not yet been sent. -/
def Dev.sendBufs (d : Dev) (n : Nat) : Dev :=
  let x := d.ringX n
  let ro := d.bit F.HOST_CTL_RO && d.host.cfg.ro
  let d := x.bufs.foldl (fun (d : Dev) b =>
    if b.sent < b.data.length then d.dmaWrite (b.d.addr + b.sent) (b.data.drop b.sent) ro else d) d
  d.putRingX n { x with bufs := x.bufs.map (fun b => { b with sent := b.data.length }) }

/-- Where a staged STRIP record lies: spans of QDR addresses and bytes, the staging being filled round (R239). -/
def RecX.spans (r : RecX) : List (Nat × Nat) :=
  match r.ofs with
  | none => []
  | some o =>
    let n := Nat.min r.data.length (0x1000000 - o)
    (stagingAddr o, n) :: (if n < r.data.length then [(stagingAddr 0, r.data.length - n)] else [])

/-- The uncorrectable words of a staged record (R273). -/
def RecX.badWords (bad : List Nat) (r : RecX) : List Nat :=
  bad.filter (fun w => r.spans.any (fun p => decide (p.1 < 32 * w + 32 ∧ 32 * w < p.1 + p.2)))

/-- A record that cannot be placed for want of descriptors stays staged; one that met an uncorrectable word in its staging is
dropped (R238, R273). -/
def placeGo (n : Nat) : Nat → Dev → Dev
  | 0, d => d
  | f + 1, d =>
    match d.host.staged.find? (fun r => r.ring == n) with
    | none => d
    | some r =>
      let bad := r.badWords d.store.qdrBad
      let unstage (d : Dev) : Dev :=
        (d.onHost fun z => { z with staged := d.host.staged.eraseIdx ((d.host.staged.findIdx? (fun q => q.ring == n)).getD 0) })
      if d.ringState n ≠ 1 ∨ (d.ringX n).closing then d
      else if !bad.isEmpty then placeGo n f (((unstage d).badSeen bad).dropRec r)
      else
        match placeRec d.t r.data (2 * (d.ringX n).descs.length + 3) (d.ringX n) with
        | .wait x =>
          let d := d.putRingX n x
          if x.bad && (openBuf x).isSome then d.haltDesc n else d.stopBad n
        | .tooBig x => placeGo n f (((unstage (d.putRingX n x)).dropRec r).hostErr F.HOST_ERR_STAT_REC_TOO_BIG)
        | .done x =>
          let x := if d.get (F.HOST_RING_CTL_HOLD.at n) = 0 then
              { x with bufs := updIf x.bufs (fun b => !b.closed && !b.data.isEmpty) (fun b => { b with closed := true }) } else x
          placeGo n f (capLeft r.buf true (unstage ((d.putRingX n x).sendBufs n)))

/-- Place the staged records of a ring as far as its descriptors go. -/
def Dev.place (d : Dev) (n : Nat) : Dev := (placeGo n (d.host.staged.length + 1) d).pump

/-- Bytes staged for a group of rings. -/
def stagedBytes (d : Dev) (p : Nat → Bool) : Nat :=
  (d.host.staged.filter (fun r => p r.ring)).foldl (fun a r => a + r.data.length) 0

/-- A ring carries STRIP records (R240). -/
def Dev.isStripRing (d : Dev) (n : Nat) : Bool := d.get (F.HOST_RING_CTL_FUNC.at n) == 1

/-- A record finds room in its staging area; FRAME records stage in the two frame buffers (R85, R239). -/
def Dev.stageRoom (d : Dev) (r : RecX) : Bool :=
  let len := r.data.length
  if d.isStripRing r.ring then decide (stagedBytes d d.isStripRing + len ≤ 16777216)
  else if r.ring = 8 then decide (stagedBytes d (· == 8) + len ≤ 262144)
  else if r.ring = 9 ∨ r.ring = 10 then decide (stagedBytes d (· == r.ring) + len ≤ 65536)
  else decide (d.host.staged.countP (fun q => q.ring == 6 || q.ring == 7) < 2)

/-- A record is staged; a STRIP record takes the next bytes of its area, which are written anew (R239, R272). -/
def Dev.stageRec (d : Dev) (r : RecX) : Dev :=
  if d.isStripRing r.ring then
    let r := { r with ofs := some d.host.stageOfs }
    let d := r.spans.foldl (fun d p => d.freshQdr p.1 p.2) d
    d.onHost fun z => { z with staged := z.staged ++ [r], stageOfs := (z.stageOfs + r.data.length) % 0x1000000 }
  else d.onHost fun z => { z with staged := z.staged ++ [r] }

/-- Steps 3 to 5 of R241 for the oldest buffer of a ring: descriptor write-back, index entry, message. -/
def Dev.writeBack (d : Dev) (n : Nat) : Dev :=
  let x := d.ringX n
  match x.bufs with
  | [] => d
  | b :: bs =>
    let slot := d.ringM n % d.ringS n
    let wb := leBytes 4 b.data.length ++ leBytes 2 (b2n b.dropBefore + 2 * b2n b.flushed) ++ leBytes 1 b.recs ++
      leBytes 1 (b2n b.contIn + 2 * b2n b.contOut + 0x80)
    let d := d.putRingX n { x with bufs := bs }
    let d := d.dmaWrite (d.ringBase n + 32 * slot + 16) wb false
    let d := (d.advanceM n 1).stopBad n
    if b.d.flags.testBit 1 || d.bit (F.HOST_RING_CTL_IRQ_ALL.at n) then d.pendVec (d.get (F.HOST_RING_CTL_VECTOR.at n)) else d

/-- Complete the oldest buffer of a ring if it is closed: its data is written, the barrier read or the write-back follows
(R241). -/
def Dev.bufComplete (d : Dev) (n : Nat) : Dev :=
  let x := d.ringX n
  match x.bufs with
  | [] => d
  | b :: bs =>
    if !b.closed || b.barrier then d
    else
      if b.d.flags.testBit 0 && !b.data.isEmpty then
        (d.putRingX n { x with bufs := { b with barrier := true } :: bs }).issue (d.ringChan n) n
          (b.d.addr + b.data.length - 4) 4 .barrier
      else d.writeBack n

/-- Close the open buffer of a ring that holds data. -/
def Dev.closeBuf (d : Dev) (n : Nat) (flushed : Bool) : Dev :=
  let x := d.ringX n
  let bs := updIf x.bufs (fun b => !b.closed && !b.data.isEmpty)
    (fun b => { b with closed := true, flushed := b.flushed || flushed })
  d.putRingX n { x with bufs := bs }

/-- Complete every closed buffer of a ring, without the barrier reads that bus errors would hold up. -/
def Dev.flushBufs (d : Dev) (n : Nat) : Nat → Dev
  | 0 => d
  | f + 1 =>
    let d := d.bufComplete n
    if (d.ringX n).bufs.isEmpty then d else d.flushBufs n f

/-- A ring that is being disabled writes its buffers back, and is DISABLED when nothing of it is under way (R234). -/
def Dev.closeGo (d : Dev) (n : Nat) : Dev :=
  if d.ringState n = 1 && (d.ringX n).closing then
    let d := d.flushBufs n ((d.ringX n).bufs.length + 1)
    if (d.ringX n).bufs.isEmpty && !d.host.reqs.any (fun r => r.ring == n && (r.kind == .cmd || r.kind == .desc || r.kind == .barrier)) then
      (d.putRingX n ⟨[], [], (d.ringX n).dropped, false, false⟩).ringTo n 0 0
    else d
  else d

/-- Doorbells of a ring accepted in the clock of its reset are discarded and counted (R233). -/
def Dev.discardDb (d : Dev) (n : Nat) : Dev :=
  let l := d.host.dbNow.filter (fun p => p.1 == n)
  let d := match l.getLast? with | some p => d.put (F.HOST_RING_HIDX_VAL.at n) p.2 | none => d
  let d := l.foldl (fun d _ => d.inc F.HOST_DB_IGNORED_CNT) d
  d.onHost fun z => { z with dbNow := z.dbNow.filter (fun p => p.1 != n), rstNow := n :: z.rstNow }

/-- Reset a ring to DISABLED: operation in flight abandoned, staged records dropped and counted; a channel all of whose
rings are reset leaves HALTED, and captures on the ring end ABANDONED (R233, R234, R243, R251). -/
def Dev.ringReset (d : Dev) (n : Nat) : Dev :=
  let d := abandonCaptures n (d.discardDb n)
  let lost := (d.host.staged ++ d.host.formed).filter (fun r => r.ring == n)
  let d := lost.foldl (fun d r => d.dropRec r) d
  let d := (d.onHost fun z => { z with
    staged := d.host.staged.filter (fun r => r.ring != n)
    formed := d.host.formed.filter (fun r => r.ring != n)
    reqs := d.host.reqs.filter (fun r => r.ring != n) })
  let d := if n = 0 then d.onSec fun z => { z with early := none } else d
  let d := d.putRingX n ⟨[], [], (d.ringX n).dropped, false, false⟩
  let d := (d.putBit (F.HOST_RING_CTL_EN.at n) false).ringTo n 0 0
  let c := d.ringChan n
  if d.get (F.HOST_DMA_STAT_STATE.at c) = 3 ∧
      (List.range 16).all (fun m => d.ringChan m != c || d.ringState m == 0) then
    (d.put (F.HOST_DMA_STAT_STATE.at c) 0).put (F.HOST_DMA_STAT_HALT.at c) 0
  else d

/-- The host interface goes down: every ring resets, outstanding requests are dropped, MSI-X returns to its defaults
(R234). -/
def Dev.hostDown (d : Dev) : Dev :=
  let d := (List.range 16).foldl Dev.ringReset d
  let d := (d.onHost fun z => { z with
    reqs := [], pend := 0, msixTab := [], cfg := { d.host.cfg with msixEn := false, fnMask := false } })
  (((d.putBit F.HOST_STAT_LINK_UP false).putBit F.HOST_STAT_RETRAINING false).put F.HOST_STAT_SPEED 0).put F.HOST_STAT_WIDTH 0

/-! ### Messages (R244) -/

/-- Vector control word: bit 0 masks the vector; the table resets masked (PRESUMED from the PCIe Base Specification, log 7). -/
def Dev.vecMasked (d : Dev) (v : Nat) : Bool := (Tab.get 1 d.host.msixTab (4 * v + 3)).toNat % 2 == 1

/-- Send the message of a vector if every condition of R244 holds. -/
def Dev.sendMsg (d : Dev) (v : Nat) : Dev :=
  let gapOk := match assoc d.host.lastMsg v with
    | some t => decide (t + d.get (F.HOST_VEC_MOD_MIN_GAP.at v) * usT ≤ d.t)
    | none => true
  if d.host.pend.getLsbD v && d.host.cfg.msixEn && !d.host.cfg.fnMask && !d.vecMasked v && gapOk &&
      d.bit F.HOST_STAT_BME && d.bit F.HOST_STAT_LINK_UP && !d.bit F.HOST_STAT_RETRAINING then
    let w (i : Nat) : Nat := (Tab.get 0 d.host.msixTab (4 * v + i)).toNat
    ((d.onHost fun z => { z with
        pend := d.host.pend &&& ~~~ BitVec.ofNat 32 (2 ^ v)
        lastMsg := (v, d.t) :: d.host.lastMsg.filter (fun p => p.1 != v) })).emit (.msix v (w 0 + 2 ^ 32 * w 1) (w 2))
  else d

/-! ### Rows -/

/-- DOORBELL_WRITE (R230, R232, R233). -/
def doorbell (n : Nat) (v : Word) (wide : Bool) (d : Dev) : Dev :=
  if wide then d.event 0x0A02 { elem := n, arg2 := 0x40 * n }
  else
    let V := v.toNat
    let H := d.ringH n
    let back := decide (2 ^ 31 ≤ idxDiff V H)
    if d.host.rstNow.contains n then d.inc F.HOST_DB_IGNORED_CNT
    else if d.ringState n = 0 then (d.inc F.HOST_DB_IGNORED_CNT).hostErr F.HOST_ERR_STAT_DB_DISABLED
    else if back then (d.inc F.HOST_DB_IGNORED_CNT).hostErr F.HOST_ERR_STAT_DB_BACK
    else
      let overrun := if n = 1 then decide (0 < idxDiff V (d.ringM 1) ∧ idxDiff V (d.ringM 1) < 2 ^ 31)
        else decide (d.ringS n < idxDiff V (d.ringM n))
      let d := d.onHost fun z => { z with dbNow := (n, H) :: z.dbNow }
      if overrun then (d.ringTo n 2 2).hostErr F.HOST_ERR_STAT_DB_OVERRUN
      else (d.put (F.HOST_RING_HIDX_VAL.at n) V).pump

/-- DOORBELL_WRITE. -/
def execDoorbellWrite (n : Fin 16) (v : Word) (wide : Bool) (s : State) : Host.Outcome State Fault Refusal :=
  .next (s.onDev (doorbell n v wide))

/-- A fetched command entry is accepted (R249): the entry's request must be outstanding. One whose fetch was under way when
the firmware began to change waits until it runs (R264). -/
def commandFetch (entry : List Byte) (d : Dev) : Dev :=
  let d := d.pump
  if d.host.reqs.any (fun r => r.kind == .cmd && r.live) then
    let d := d.reqDone (fun r => r.kind == .cmd)
    let i := d.ringM 0
    let d := d.advanceM 0 1
    let d := if d.fwGap then d.onSec fun z => { z with early := some (i % 65536, entry) }
      else d.accept entry (i % 65536) .ring none
    (d.closeGo 0).pump
  else d

/-- COMMAND_FETCH. -/
def execCommandFetch (entry : List Byte) (s : State) : Host.Outcome State Fault Refusal :=
  .next (s.onDev (commandFetch entry))

/-- The indirect data of command `k` has come whole: the requests of it that still waited for room have been issued as those before
them came back (R229, R248). -/
def indirectFetch (k : Nat) (data : List Byte) (d : Dev) : Dev :=
  let d := d.pump
  let mine (r : Req) : Bool := r.kind == .indirect k
  if d.host.reqs.any mine && d.host.reqs.all (fun r => !mine r || r.live || (r.st == .wait && d.chanRuns 0)) then
    let d := (d.host.reqs.filter (fun r => mine r && r.st == .wait)).foldl Dev.issueOne d
    let d := d.reqDone mine
    let d := (d.onSec fun z => { z with cmds := updIf d.sec.cmds (fun c => c.k == k && !c.hasData) (fun c => { c with data := slice data 0 c.ilen, hasData := true }) })
    d.verifyAll.pump
  else d

/-- INDIRECT_DATA_FETCH. -/
def execIndirectDataFetch (k : Nat) (data : List Byte) (s : State) : Host.Outcome State Fault Refusal :=
  .next (s.onDev (indirectFetch k data))

/-- Write the oldest held completion to ring 1 when it has room (R235). -/
def completionWrite (d : Dev) : Dev :=
  match d.host.cpls with
  | [] => d
  | b :: bs =>
    let i := d.ringM 1
    if d.ringState 1 = 1 ∧ idxDiff i (d.ringH 1) < d.ringS 1 ∧ d.chanRuns 0 then
      let phase := 1 - (i / d.ringS 1) % 2
      let d := (d.onHost fun z => { z with cpls := bs })
      let d := d.dmaWrite (d.ringBase 1 + 16 * (i % d.ringS 1)) (b.take 15 ++ [BitVec.ofNat 8 phase]) false
      ((d.advanceM 1 1).pendVec (d.get (F.HOST_RING_CTL_VECTOR.at 1))).pump
    else d

/-- COMPLETION_WRITE. -/
def execCompletionWrite (s : State) : Host.Outcome State Fault Refusal := .next (s.onDev completionWrite)

/-- A fetched run of descriptors: those before the first invalid one are held, and the ring halts when it comes to that one
(R234, R237). -/
def descFetch (n : Nat) (bytes : List Byte) (d : Dev) : Dev :=
  let d := d.pump
  match d.host.reqs.find? (fun r => r.ring == n && r.kind == .desc && r.live) with
  | none => d
  | some r =>
    let d := d.reqDone (fun q => q.id == r.id)
    let rx := (List.range (r.len / 32)).foldl (fun (rx : RingX) i =>
      if rx.bad then rx
      else
        match parseDesc (slice bytes (32 * i) 32) with
        | some x => { rx with descs := rx.descs ++ [x] }
        | none => { rx with bad := true }) (d.ringX n)
    if (d.ringX n).closing then d.closeGo n else (d.putRingX n rx).stopBad n

/-- DESCRIPTOR_FETCH. -/
def execDescriptorFetch (n : Fin 16) (bytes : List Byte) (s : State) : Host.Outcome State Fault Refusal :=
  .next (s.onDev (fun d => (descFetch n bytes d).place n))

/-- A completion of a request (R242): dropped as unexpected, a failure, or bytes held until the count is complete; a
barrier read that is complete lets the buffer be written back. -/
def dmaCompletion (id : Nat) (cause : CplCause) (bytes : List Byte) (d : Dev) : Dev :=
  match d.host.reqs.find? (fun r => r.id == id && r.isOut) with
  | none => ((d.inc F.HOST_UNEXP_CPL_CNT).hostErr F.HOST_ERR_STAT_UNEXP_CPL).aer 16 true
  | some r =>
    match cause with
    | .ok =>
      let got := r.got + bytes.length
      if r.len < got then d.reqFail r 6
      else
        let d := (d.onHost fun z => { z with reqs := updIf d.host.reqs (fun x => x.id == id) (fun x => { x with got := got, st := if got = r.len then .done else x.st }) })
        (if got = r.len ∧ r.kind = .barrier then ((d.reqDone (fun x => x.id == id)).writeBack r.ring).closeGo r.ring else d).pump
    | c => d.reqFail r (cplCode c)

/-- DMA_COMPLETION. -/
def execDmaCompletion (r : Nat) (cause : CplCause) (bytes : List Byte) (s : State) : Host.Outcome State Fault Refusal :=
  .next (s.onDev (dmaCompletion r cause bytes))

/-- The completion timeout of a request (R242). -/
def completionTimeout (id : Nat) (d : Dev) : Dev :=
  match d.host.reqs.find? (fun r => r.id == id) with
  | some r => (match r.st with | .out due => if dueBy due d.t then d.reqFail r 1 else d | _ => d)
  | none => d

/-- COMPLETION_TIMEOUT. -/
def execCompletionTimeout (r : Nat) (s : State) : Host.Outcome State Fault Refusal := .next (s.onDev (completionTimeout r))

/-- A request is to be reissued, in its turn. -/
def Dev.reissue (d : Dev) (id : Nat) (tries : Nat → Nat) : Dev :=
  d.onHost fun z => { z with reqs := updIf z.reqs (fun x => x.id == id) (fun x => { x with st := .wait, tries := tries x.tries, got := 0 }) }

/-- A failed request is reissued BACKOFF µs after its failure, and counted (R242). -/
def dmaReissue (id : Nat) (d : Dev) : Dev :=
  match d.host.reqs.find? (fun r => r.id == id) with
  | some r =>
    match r.st with
    | .backoff due =>
      if due ≤ d.t ∧ d.chanRuns r.chan then ((d.inc (F.HOST_DMA_RETRIES_CNT.at r.chan)).reissue id (· + 1)).pump else d
    | _ => d
  | none => d

/-- DMA_REISSUE. -/
def execDmaReissue (r : Nat) (s : State) : Host.Outcome State Fault Refusal := .next (s.onDev (dmaReissue r))

/-- Every ring goes on: what is staged is placed, and a ring being disabled ends (R234, R238). -/
def Dev.placeAll (d : Dev) : Dev := ((List.range 16).foldl (fun d n => (d.place n).closeGo n) d).pump

/-- Resume a halted channel (R243): the failed operation is reissued with a fresh budget, the rings with error CHANNEL
return to ACTIVE, the halt code clears. -/
def resumeChan (c : Nat) (d : Dev) : Dev :=
  if d.get (F.HOST_DMA_STAT_STATE.at c) = 3 then
    let d := ((d.put (F.HOST_DMA_STAT_STATE.at c) 0).put (F.HOST_DMA_STAT_HALT.at c) 0)
    let d := (List.range 16).foldl (fun d n =>
      if d.ringChan n = c ∧ d.ringState n = 2 ∧ d.get (F.HOST_RING_STAT_ERR.at n) ≤ 1 then d.ringTo n 1 0 else d) d
    let failed := d.host.reqs.filter (fun r => r.chan == c && r.st == .failed)
    (failed.foldl (fun d r => d.reissue r.id (fun _ => 0)) d).placeAll
  else d

/-- RESUME. -/
def execResume (c : Fin 8) (s : State) : Host.Outcome State Fault Refusal := .next (s.onDev (resumeChan c))

/-- EN written 1 (R234): indices zero, index entry written, ACTIVE. -/
def ringEnable (n : Nat) (d : Dev) : Dev :=
  if d.ringState n = 0 then
    let d := (d.put (F.HOST_RING_HIDX_VAL.at n) 0).put (F.HOST_RING_MIDX_VAL.at n) 0
    let d := (d.putRingX n ⟨[], [], (d.ringX n).dropped, false, false⟩).putBit (F.HOST_RING_CTL_EN.at n) true
    (d.ringTo n 1 0).place n
  else d

/-- RING_ENABLE. -/
def execRingEnable (n : Fin 16) (s : State) : Host.Outcome State Fault Refusal := .next (s.onDev (ringEnable n))

/-- EN written 0 (R234): the operation in flight ends, a partly filled buffer is written back FLUSHED, then DISABLED. A ring that is
HALTED or SUSPENDED ends so when it is ACTIVE again (DESIGN CHOICE, log 20). -/
def ringDisable (n : Nat) (d : Dev) : Dev :=
  let d := d.putBit (F.HOST_RING_CTL_EN.at n) false
  if d.ringState n = 0 then d
  else
    let d := d.closeBuf n true
    let x := d.ringX n
    let idle (b : Buf) : Bool := !b.closed && b.data.isEmpty
    let d := d.putRingX n { x with
      bufs := x.bufs.filter (fun b => !idle b)
      dropped := x.dropped || x.bufs.any (fun b => idle b && b.dropBefore)
      closing := true }
    (d.closeGo n).pump

/-- RING_DISABLE. -/
def execRingDisable (n : Fin 16) (s : State) : Host.Outcome State Fault Refusal := .next (s.onDev (ringDisable n))

/-- A record formed earlier is staged, or dropped when its staging is full, and placed as descriptors allow (R238, R239). -/
def recordStaged (d : Dev) : Dev :=
  match d.host.formed with
  | [] => d
  | r :: rs =>
    let d := (d.onHost fun z => { z with formed := rs })
    if d.stageRoom r then (d.stageRec r).place r.ring else d.dropRec r

/-- A buffer is completed HOLD × 10 µs after its first record was written (R238). -/
def bufferHold (n : Nat) (d : Dev) : Dev :=
  match openBuf (d.ringX n) with
  | some b =>
    if dueBy (b.firstT.map (· + d.get (F.HOST_RING_CTL_HOLD.at n) * 10 * usT)) d.t && !b.data.isEmpty then d.closeBuf n false else d
  | none => d

/-- BUFFER_HOLD_EXPIRY. -/
def execBufferHoldExpiry (n : Fin 16) (s : State) : Host.Outcome State Fault Refusal := .next (s.onDev (bufferHold n))

/-- BUFFER_COMPLETE (R241). -/
def execBufferComplete (n : Fin 16) (s : State) : Host.Outcome State Fault Refusal :=
  .next (s.onDev (fun d => if d.ringState n = 1 ∧ d.chanRuns (d.ringChan n) then (d.bufComplete n).pump else d))

/-- MSI_X_MESSAGE (R244). -/
def execMsiXMessage (v : Fin 32) (s : State) : Host.Outcome State Fault Refusal := .next (s.onDev (fun d => d.sendMsg v))

/-- Bus Master Enable or the power state changes (R234): active rings suspend with their outstanding reads discarded, and
resume with the reads reissued. -/
def busMaster (bme d3 : Bool) (d : Dev) : Dev :=
  let was := d.bit F.HOST_STAT_BME && !d.bit F.HOST_STAT_D3HOT
  let now := bme && !d3
  let d := (d.putBit F.HOST_STAT_BME bme).putBit F.HOST_STAT_D3HOT d3
  if was && !now then
    let d := (List.range 16).foldl (fun d n => if d.ringState n = 1 then d.ringTo n 3 0 else d) d
    let lost (r : Req) : Bool := match r.st with | .out _ => true | .backoff _ => true | _ => false
    let d := (d.onHost fun z => { z with reqs := updIf d.host.reqs lost (fun r => { r with st := .suspended }) })
    (List.range 8).foldl (fun d c => if d.get (F.HOST_DMA_STAT_STATE.at c) = 3 then d else d.put (F.HOST_DMA_STAT_STATE.at c) 2) d
  else if !was && now then
    let d := (List.range 8).foldl (fun d c => if d.get (F.HOST_DMA_STAT_STATE.at c) = 2 then d.put (F.HOST_DMA_STAT_STATE.at c) 0 else d) d
    let d := (List.range 16).foldl (fun d n => if d.ringState n = 3 then d.ringTo n 1 0 else d) d
    let sus := d.host.reqs.filter (fun r => r.st == .suspended)
    (sus.foldl (fun d r => d.reissue r.id id) d).placeAll
  else d

/-- BUS_MASTER_CHANGE. -/
def execBusMasterChange (bme d3hot : Bool) (s : State) : Host.Outcome State Fault Refusal :=
  .next (s.onDev (busMaster bme d3hot))

/-- Link down, hot reset or Function Level Reset (R234). -/
def linkDown (flr : Bool) (d : Dev) : Dev :=
  let d := if flr then d.hostErr F.HOST_ERR_STAT_FLR else
    ((d.inc F.HOST_LINK_DOWNS_CNT).hostErr F.HOST_ERR_STAT_LINK_DOWN).event 0x0A03 { arg0 := satN 32 (d.get F.HOST_LINK_DOWNS_CNT + 1) }
  let up := flr && d.bit F.HOST_STAT_LINK_UP
  let sp := d.get F.HOST_STAT_SPEED
  let wd := d.get F.HOST_STAT_WIDTH
  let d := d.hostDown
  let d := (d.putBit F.HOST_STAT_BME false).putBit F.HOST_STAT_D3HOT false
  if up then ((d.putBit F.HOST_STAT_LINK_UP true).put F.HOST_STAT_SPEED sp).put F.HOST_STAT_WIDTH wd else d

/-- LINK_DOWN. -/
def execLinkDown (flr : Bool) (s : State) : Host.Outcome State Fault Refusal := .next (s.onDev (linkDown flr))

/-- The width the link comes up with: x4, x2 or x1, at most `HOST_CTL.WIDTH_MAX` (R229, R231). -/
def Dev.linkWidth (d : Dev) (w : Nat) : Nat :=
  let m := Nat.min w (if d.get F.HOST_CTL_WIDTH_MAX = 0 then 4 else if d.get F.HOST_CTL_WIDTH_MAX = 1 then 2 else 1)
  if m = 3 then 2 else m

/-- PCIE_LINK_UP: the data link is up with a speed and a width (R231, R234). -/
def execPcieLinkUp (speed : Fin 6) (width : Fin 5) (s : State) : Host.Outcome State Fault Refusal :=
  .next (s.onDev (fun d =>
    let d := (d.putBit F.LINK_HP_STAT_SWITCHING false).onLink fun z => { z with switchT := none }
    ((d.putBit F.HOST_STAT_LINK_UP true).put F.HOST_STAT_SPEED speed).put F.HOST_STAT_WIDTH (d.linkWidth width)))

/-- PCIE_RETRAIN: recovery is entered (counted) or left with a speed and a width; rings stay as they are, and the requests that
waited are issued (R231, R234). -/
def execPcieRetrain (enter : Bool) (speed : Fin 6) (width : Fin 5) (s : State) : Host.Outcome State Fault Refusal :=
  .next (s.onDev (fun d =>
    if enter then (d.inc F.HOST_RETRAINS_CNT).putBit F.HOST_STAT_RETRAINING true
    else (((d.putBit F.HOST_STAT_RETRAINING false).put F.HOST_STAT_SPEED speed).put F.HOST_STAT_WIDTH (d.linkWidth width)).pump))

/-- WIDTH_MAX_WRITE: a change of the link width limit retrains the link; 3 is not listed (R231, R5). -/
def execWidthMaxWrite (wm : Fin 4) (s : State) : Host.Outcome State Fault Refusal :=
  .next (s.onDev (fun d =>
    if wm.val = 3 ∨ d.get F.HOST_CTL_WIDTH_MAX = wm.val then d
    else
      let d := d.put F.HOST_CTL_WIDTH_MAX wm
      if d.bit F.HOST_STAT_LINK_UP then (d.inc F.HOST_RETRAINS_CNT).putBit F.HOST_STAT_RETRAINING true else d))

/-- BAD_ACCESS: a BAR access longer than 8 bytes (R230). -/
def execBadAccess (write : Bool) (off : Nat) (s : State) : Host.Outcome State Fault Refusal :=
  .next (s.onDev (fun d =>
    let d := (d.hostErr F.HOST_ERR_STAT_BAD_ACCESS).event 0x0A02 { arg2 := off }
    if write then d else d.emit .completerAbort))

/-- PARTIAL_WRITE: a write with partial byte enables is discarded and logged (R22). -/
def execPartialWrite (off : Nat) (s : State) : Host.Outcome State Fault Refusal :=
  .next (s.onDev (fun d => d.event 0x0A02 { arg2 := off }))

/-- The control fields a configuration write changes; a Max Payload Size beyond 512 bytes is not supported (R229). -/
def setCfg (w : CfgCtl) (d : Dev) : Dev :=
  let d := (d.onHost fun z => { z with cfg := if 512 < w.mps then { w with mps := z.cfg.mps } else w })
  ((d.putBit F.HOST_STAT_PTM_EN w.ptm).putBit F.HOST_STAT_ECRC_GEN w.ecrcGen).putBit F.HOST_STAT_ECRC_CHK w.ecrcChk

/-- The double word at an offset of configuration space: identity (R229), the error status of AER, which is taken as the first
extended capability (PRESUMED, log 7), and elsewhere a free value. -/
def Dev.cfgRead (d : Dev) (o : Nat) : Nat :=
  if o = 0 then 0x2520 * 65536 + Config.vendorId % 65536
  else if o = 8 then 0x118000 * 256 + d.get F.SYS_ID_STEP % 256
  else if o = 0x104 then d.host.aerU.toNat
  else if o = 0x110 then d.host.aerC.toNat
  else Config.cfgWord d.freeIdx o % 2 ^ 32

/-- CONFIGURATION_REQUEST: retry status until step 8 of start-up has ended, then normal (R323): a read of double word `rd`, a write
of the control fields, or of ones to the error status of AER. -/
def execConfigurationRequest (wr : Option CfgCtl) (rd : Option Nat) (clr : Option (Word × Word)) (s : State) : Host.Outcome State Fault Refusal :=
  .next (s.onDev (fun d =>
    if d.get F.SYS_START_STEP ≤ 8 ∧ ¬ d.bit F.SYS_START_HALTED then d.emit (.cfgReply true none)
    else
      let d := (d.emit (.cfgReply false (rd.map d.cfgRead))).fresh
      let d := match clr with
        | some (u, c) => d.onHost fun z => { z with aerU := z.aerU &&& ~~~u, aerC := z.aerC &&& ~~~c }
        | none => d
      match wr with
      | some w => setCfg w d
      | none => d))

/-- HOST_CNT_CLR clears every HOST counter (R26). -/
def hostCounters : List Fld :=
  [F.HOST_LINK_DOWNS_CNT, F.HOST_RETRAINS_CNT, F.HOST_UNEXP_CPL_CNT, F.HOST_DB_IGNORED_CNT, F.HOST_PTM_STAT_FAILS] ++
  (List.range 8).map F.HOST_DMA_RETRIES_CNT.at ++ (List.range 16).map F.HOST_RING_DROP_VAL.at

/-- HOST_CNT_CLR. -/
def execHostCntClr (s : State) : Host.Outcome State Fault Refusal := .next (s.onDev (fun d => d.clearAll hostCounters))

end Sys2Proof.Machine
end

