-- ==== Sys2Proof/Machine/Fpa.lean ====
section
/-! DEFINITION. Acquisition sets, commits and frame timing of the focal plane (R30 to R49, R373). -/

namespace Sys2Proof.Machine

/-- The fields of set `n` as its registers hold them. -/
def Dev.setOf (d : Dev) (n : Nat) : AcqSet :=
  ⟨n, d.get (F.ACQ_TINT_T_INT.at n), d.get (F.ACQ_TSLOT_T_SLOT.at n), d.get (F.ACQ_PERIOD_P.at n),
   d.get (F.ACQ_BIAS_BIAS.at n), d.get (F.ACQ_SKIM_SKIM.at n), d.get (F.ACQ_MODE_GAIN.at n), d.get (F.ACQ_MODE_FRAME_SRC.at n),
   d.get (F.ACQ_WIN_ROW_ROW_FIRST.at n), d.get (F.ACQ_WIN_ROW_ROW_SLOTS.at n), d.get (F.ACQ_WIN_COL_CG_FIRST.at n),
   d.get (F.ACQ_WIN_COL_CG_COUNT.at n)⟩

/-- Active columns C of a set. -/
def AcqSet.cols (a : AcqSet) : Nat := 32 * a.cgCount

/-- Transfer time of one row slot, T_xfer (R8). -/
def AcqSet.txfer (a : AcqSet) : Nat := cdiv (112 * (a.cols + 16) + 512) 128

/-- Power domain `i` is on and not draining (R310); a drain accepted at this very tick comes after a commit (R312). -/
def Dev.domOn (d : Dev) (i : Nat) : Bool :=
  (d.get (F.PWR_DOM_ON_MAP.at (i / 32))).testBit (i % 32) &&
  (!(d.get (F.PWR_DOM_DRAIN_MAP.at (i / 32))).testBit (i % 32) || d.pwr.drains.any (fun x => x.dom == i && x.t0 == d.t)) &&
  !d.pwr.ups.any (fun u => u.dom == i)

/-- What the last domain request came to (`PWR_LAST`): 0 done, 1 refused, 2 superseded. -/
def Dev.domLast (d : Dev) (i : Nat) (on : Bool) (res aborted : Nat) : Dev :=
  (((d.put F.PWR_LAST_DOMAIN i).putBit F.PWR_LAST_ON on).put F.PWR_LAST_RESULT res).put F.PWR_LAST_ABORTED (satN 16 aborted)

/-- End the command of a domain request, if it has one. -/
def Dev.domEnd (d : Dev) (k : Option Nat) (st det res : Nat) : Dev := match k with | some k => d.completeK k st det res | none => d

/-- A power-down accepted at this very tick of a group that the commit uses is checked against the commit, and refused as in use
(R309, R312). -/
def Dev.undrain (d : Dev) (a : AcqSet) : Dev :=
  let hit (x : Drain) : Bool := x.t0 == d.t && decide (2 + a.cgFirst ≤ x.dom) && decide (x.dom < 2 + a.cgFirst + a.cgCount)
  (d.pwr.drains.filter hit).foldl (fun d x =>
    let d := d.onPwr fun z => { z with drains := z.drains.filter (fun y => y.dom != x.dom) }
    let d := d.put (F.PWR_DOM_DRAIN_MAP.at (x.dom / 32)) (setB (d.get (F.PWR_DOM_DRAIN_MAP.at (x.dom / 32))) (x.dom % 32) false)
    (d.domLast x.dom false 1 0).domEnd x.k St.refused 1 0) d

/-- Pipeline lanes that work: the spare stands in for the first that fails (R298). -/
def Dev.lanes (d : Dev) : Nat := 4 - (d.health.failedElems.countP (fun p => p.1 == 3) - 1)

/-- The least frame period of the pixel-rate limit, check 0x5 (R37, R298). -/
def Dev.ratePeriod (d : Dev) (a : AcqSet) : Nat :=
  if 3 ≤ d.lanes then cdiv (2560 * a.cgCount * a.rowSlots) 63
  else if d.lanes = 0 then 2 ^ 32
  else cdiv (256 * a.cgCount * a.rowSlots) (3 * d.lanes)

/-- The plate pair of a gain range is resident (R71): ACTIVE for the range in force, STANDBY for the other. -/
def Dev.plateResident (d : Dev) (gain : Nat) : Bool :=
  let r := if gain = d.fpa.set.gain then d.get F.PIPE_PL_STAT_ACTIVE_REG else d.get F.PIPE_PL_STAT_STANDBY_REG
  match d.pipe.regions[r]? with
  | some x => x.valid && x.range == gain
  | none => false

/-- The checks of R37 in order: the code of the first that fails, 0 if all hold. -/
def checkSet (d : Dev) (a : AcqSet) : Nat :=
  let n := a.rowSlots
  if ¬ (400 ≤ a.tint ∧ a.tint ≤ 6000) then 1
  else if ¬ (a.tint + 250 ≤ a.tslot) then 2
  else if ¬ (a.txfer ≤ a.tslot) then 3
  else if ¬ ((n + 1) * a.tslot + 5000 ≤ a.period) then 4
  else if ¬ (d.ratePeriod a ≤ a.period) then 5
  else if ¬ (104167 ≤ a.period ∧ a.period ≤ 100000000) then 6
  else if ¬ (1 ≤ n ∧ a.rowFirst + n ≤ 256 ∧ 1 ≤ a.cgCount ∧ a.cgFirst + a.cgCount ≤ 80) then 7
  else if ¬ (d.domOn 1 ∧ (List.range a.cgCount).all (fun g => d.domOn (2 + a.cgFirst + g))) then 8
  else if ¬ d.plateResident a.gain then 9
  else 0

/-- The predicted boundary of the pending set (R48): 0 while imaging is stopped, in triggered operation, or with no commit
pending. -/
def Dev.predicted (d : Dev) : Nat :=
  match d.fpa.pend, d.fpa.nextB with
  | some c, some b =>
    if ¬ d.bit F.FPA_CTL_RUN ∨ d.fpa.nextTrig then 0
    else if c.teff ≤ b then b else b + cdiv (c.teff - b) d.fpa.set.period * d.fpa.set.period
  | _, _ => 0

/-- The boundary at which the pending commit takes effect has come, though its row has not run yet: nothing withdraws the commit
any more (R47). -/
def Dev.commitDue (d : Dev) : Bool :=
  match d.fpa.pend, d.fpa.nextB with
  | some c, some b => d.bit F.FPA_CTL_RUN && !d.fpa.readoutStop && !d.fpa.clockStop && decide (b ≤ d.t) && decide (c.teff ≤ b)
  | _, _ => false

/-- The status registers of the pending commit (R48). -/
def Dev.showPend (d : Dev) : Dev :=
  let d := match d.fpa.pend with
    | some c => ((d.putBit F.FPA_STAT_PENDING true).put F.FPA_STAT_PENDING_SET c.set.idx).put F.FPA_GEN_PEND_GEN c.gen
    | none => ((d.putBit F.FPA_STAT_PENDING false).put F.FPA_STAT_PENDING_SET 0).put F.FPA_GEN_PEND_GEN 0
  d.put F.FPA_ACQ_BND_BND d.predicted

/-- The commit that may still be withdrawn: the pending one, or the one behind it once its boundary has come (R47). -/
def Dev.openCommit (d : Dev) : Option Commit := if d.commitDue then d.fpa.pendNext else d.fpa.pend

/-- Replace the commit that may still be withdrawn. -/
def Dev.putCommit (d : Dev) (c : Option Commit) : Dev :=
  if d.commitDue then d.onFpa fun z => { z with pendNext := c } else d.onFpa fun z => { z with pend := c }

/-- The pending commit is replaced (R47): its generation is never used, SUPERSEDED is set, its command completes so. -/
def Dev.supersede (d : Dev) : Dev :=
  match d.openCommit with
  | none => d
  | some c =>
    let d := (d.putCommit none).flag F.FPA_ACQ_STAT_SUPERSEDED
    match c.k with | some k => d.completeK k St.superseded 0 0 | none => d

/-- Before the first frame after a start, the boundary is that of the commit, or else of the set in force (R49): it falls at or
after T_start + 2000 and T_eff, and never before now (log 77). -/
def Dev.placeFirst (d : Dev) : Dev :=
  if d.fpa.startAt.isNone then d
  else
    let teff := match d.fpa.pend with | some c => if d.fpa.startNew then c.teff else 0 | none => 0
    let src := match d.fpa.pend with | some c => if d.fpa.startNew then c.set.src else d.fpa.set.src | none => d.fpa.set.src
    let b := Nat.max d.t (Nat.max teff (d.fpa.startT + 2000))
    d.onFpa fun z => { z with startAt := some b, nextB := if src = 0 then some b else none, nextTrig := false }

/-- The counter value of generation `g`, reached from the present one (R289). -/
def advanceTo (v g : Nat) : Nat :=
  let cur := genOf v
  let k := (g + 2 ^ 32 - cur) % 2 ^ 32
  v + (if cur ≠ 0 ∧ g < cur then k - 1 else k)

/-- A commit (R44, R45): checks, generation, T_eff; `g` is the generation a group commit gives (R21). Answers the state and
the error code, 0 when accepted; 0xA comes after the codes of R37 (DESIGN CHOICE, log 85). -/
def commitSet (a : AcqSet) (tc : Nat) (k : Option Nat) (g : Option Nat) (d : Dev) : Dev × Nat :=
  let e := checkSet d a
  let e := if e = 0 ∧ d.tallyFailed 9 then 0xA else e
  if e ≠ 0 then ((d.put F.FPA_ACQ_STAT_ERR e).flag F.FPA_ACQ_STAT_REFUSED, e)
  else
    let d := d.supersede
    let d := match g with
      | some g => d.tallySet 9 (advanceTo (d.tally 9) g)
      | none => d.tallyInc 9
    let gen := genOf (d.tally 9)
    let due := d.commitDue
    let d := (d.undrain a).putCommit (some ⟨k, a, gen, Nat.max tc (d.t + 2000)⟩)
    let d := if d.fpa.startNew && !due then d.placeFirst else d
    ((d.put F.FPA_ACQ_STAT_ERR 0).showPend, 0)

/-- FPA_ACQ_CTL.CANCEL withdraws the pending commit (R47); before the first frame, the set in force governs it then (R49). -/
def cancelCommit (d : Dev) : Dev :=
  match d.openCommit with
  | none => d
  | some c =>
    let due := d.commitDue
    let d := d.putCommit none
    let d := if d.fpa.startNew && !due then (d.onFpa fun z => { z with startNew := false }).placeFirst else d
    let d := (d.flag F.FPA_ACQ_STAT_CANCELLED).showPend
    match c.k with | some k => d.completeK k St.cancelled 0 0 | none => d

/-- FPA_ACQ_CTL.COMMIT commits the selected set at the commit time (R44). -/
def regCommit (d : Dev) : Dev := (commitSet (d.setOf (d.get F.FPA_ACQ_SEL_SET)) (d.get F.FPA_ACQ_TIME_T_C) none none d).1

/-- A write of FPA_ACQ_CTL: cancel first, then commit (R47). -/
def acqCtlWrite (commit cancel : Bool) (d : Dev) : Dev :=
  let d := if cancel then cancelCommit d else d
  if commit then regCommit d else d

/-- ACQ_CTL_COMMIT. -/
def execAcqCtlCommit (s : State) : Host.Outcome State Fault Refusal := .next (s.onDev (acqCtlWrite true false))

/-- ACQ_CTL_CANCEL. -/
def execAcqCtlCancel (s : State) : Host.Outcome State Fault Refusal := .next (s.onDev (acqCtlWrite false true))

/-- FPA_CNT_CLR (R26). -/
def execFpaCntClr (s : State) : Host.Outcome State Fault Refusal :=
  .next (s.onDev (fun d => d.clearAll [F.FPA_TRIG_MISS_CNT, F.FPA_LINK_LOST_CNT]))

/-- The register words of set `n` from 32 bytes in offset order (R252). -/
def stageSet (n : Nat) (bs : List Byte) (d : Dev) : Dev :=
  (List.range 8).foldl (fun d i => d.writeWord (R.ACQ_TINT + 0x20 * n + 4 * i) (leAt bs (4 * i) 4)) d

/-- The local effect of ACQ_STAGE. -/
def doAcqStage (c : Cmd) (d : Dev) : Dev :=
  if 3 < c.p8 24 then d.complete c St.badParam 0 0 else (stageSet (c.p8 24) c.data d).ok c 0

/-- The local effect of ACQ_COMMIT at a commit time in ticks (R44 to R46); it completes at the boundary. -/
def doAcqCommit (tc : Nat) (g : Option Nat) (c : Cmd) (d : Dev) : Dev :=
  if 3 < c.p8 24 ∨ 1 < c.p8 25 then d.complete c St.badParam 0 0
  else
    match commitSet (d.setOf (c.p8 24)) tc (some c.k) g d with
    | (d, 0) => d
    | (d, e) => d.complete c (if e = 0xA then St.storeErr else St.refused) (if e = 0xA then 0 else e) 0

/-- A frame is in progress (R34): the tick lies between its boundary and B + P. -/
def Dev.inFrame (d : Dev) : Bool := d.fpa.frames.any (fun f => decide (f.b ≤ d.t) && decide (d.t < f.b + f.set.period) && f.cut.isNone)

/-- The set that will govern the first frame (R373). -/
def Dev.firstSet (d : Dev) : AcqSet := match d.fpa.pend with | some c => c.set | none => d.fpa.set

/-- Place the first boundary of a readout that begins now (R49): at the later of T_eff and 2000 ticks from now for a free-running
set. -/
def Dev.placeStart (d : Dev) : Dev :=
  let teff := match d.fpa.pend with | some c => c.teff | none => 0
  let b := Nat.max teff (d.t + 2000)
  let a := d.firstSet
  d.onFpa fun z => { z with
    startAt := some b, startT := d.t, startNew := z.pend.isSome, nextB := if a.src = 0 then some b else none, nextTrig := false }

/-- Start of imaging (R49, R373): 0 and the state with RUN set and the first boundary placed, or the failing code. A start
while RUN is 1 makes no check. -/
def startReadout (d : Dev) : Dev × Nat :=
  if d.bit F.FPA_CTL_RUN then (d, 0)
  else
    let a := d.firstSet
    let e := checkSet d a
    if e ≠ 0 then ((d.put F.FPA_ACQ_STAT_ERR e).flag F.FPA_ACQ_STAT_REFUSED, e)
    else
      let d := (d.putBit F.FPA_CTL_RUN true).put F.FPA_ACQ_STAT_ERR 0
      let d := d.placeStart.onFpa fun z => { z with stopKs := [] }
      ((d.putBit F.FPA_STAT_RUNNING true).showPend, 0)

/-- Stop of imaging: no further boundary; the frame in progress goes on to its end. -/
def stopReadout (d : Dev) : Dev :=
  let d := d.putBit F.FPA_CTL_RUN false
  let d := d.onFpa fun z => { z with nextB := none, startAt := none, startNew := false, nextTrig := false }
  (d.putBit F.FPA_STAT_RUNNING d.inFrame).showPend

/-- The set whose source makes the boundaries: the set in force, or before the first frame the set that will govern it, which is
that of a commit accepted before the start (R43, R49). -/
def Dev.govSet (d : Dev) : AcqSet := if d.fpa.startAt.isSome && d.fpa.startNew then d.firstSet else d.fpa.set

/-- The source of boundaries (R43). -/
def Dev.frameSrc (d : Dev) : Nat := d.govSet.src

/-- A trigger edge, accepted now and stamped with its first sample (R140, R349): a boundary 100 ticks after the stamp, or ignored and
counted (R43, R49). -/
def trigEdge (encZ : Bool) (d : Dev) : Dev :=
  let d := if encZ then d else d.putBit F.IO_PIN_IN_TRIG_IN true
  let b := (if encZ then d.t - d.get F.WEB_ENC_CFG_FILT else d.pinT) + 100
  if ¬ d.bit F.FPA_CTL_RUN ∨ d.frameSrc ≠ (if encZ then 2 else 1) then d
  else
    let early := match d.fpa.startAt with
      | some s => decide (b < s)
      | none =>
        (match d.fpa.nextB with | some n => decide (b < n + d.fpa.set.period) | none => false) ||
        (match d.fpa.lastB with | some l => decide (b < l + d.fpa.set.period) | none => false)
    let dup := d.fpa.startAt.isSome && (match d.fpa.nextB with | some n => decide (b < n + d.govSet.period) | none => false)
    if early || dup then d.inc F.FPA_TRIG_MISS_CNT
    else (d.onFpa fun z => { z with nextB := some b, nextTrig := true })

/-- TRIG_IN_EDGE. -/
def execTrigInEdge (encZ : Bool) (s : State) : Host.Outcome State Fault Refusal := .next (s.onDev (onlyIf (encZ || s.dev.bankIn) (trigEdge encZ)))

end Sys2Proof.Machine
end

