-- ==== Sys2Proof/Machine/Noise.lean ====
section
/-! DEFINITION. Arrival of a row slot and the noise stage (R8, R9, R41, R57 to R63). -/

namespace Sys2Proof.Machine

/-- The value of a field as the frame's boundary found it (R29). -/
def Frame.get (f : Frame) (x : Fld) : Nat :=
  let w (o : Nat) : Nat := ((assoc f.cfg o).getD (regReset o)).toNat
  (if x.pair then w x.reg + 2 ^ 32 * w (x.reg + 4) else w x.reg) / 2 ^ x.lo % 2 ^ x.w

/-- A one-bit field as the frame's boundary found it. -/
def Frame.bit (f : Frame) (x : Fld) : Bool := f.get x == 1

/-- A frame by its count. -/
def Dev.frame (d : Dev) (cnt : Nat) : Option Frame := d.fpa.frames.find? (fun f => f.cnt == cnt)

/-- Replace a frame. -/
def Dev.putFrame (d : Dev) (f : Frame) : Dev := d.onFpa fun z => { z with frames := updIf z.frames (fun x => x.cnt == f.cnt) (fun _ => f) }

/-- A pixel with no value (R58). -/
def Px.none_ : Px := ⟨-32768, false, true, false, false⟩

/-- A pixel of a lost slot: 0x0000 and INV (R58). -/
def Px.lost : Px := ⟨0, false, true, false, false⟩

/-- Clamp a result to the signed range and mark it SAT (R58). -/
def Px.clamp (p : Px) (v : Int) : Px := if v < -32767 ∨ 32767 < v then { p with v := clampI (-32767) 32767 v, sat := true } else { p with v := v }

/-- Physical column of position `j` in a row packet (R8): left blind, window, right blind. -/
def physCol (a : AcqSet) (j : Nat) : Nat :=
  if j < 8 then j else if j < 8 + a.cols then 32 * a.cgFirst + j else 2568 + (j - 8 - a.cols)

/-- The slice that serves a physical column (R31, R61): blind slices 2720 to 2735, else 34 n + k with the substitutions in
force. -/
def sliceOf (substs : List Subst) (x : Nat) : Nat :=
  if x < 8 then 2720 + x
  else if 2568 ≤ x then 2728 + (x - 2568)
  else
    let g := (x - 8) / 32
    let k := (x - 8) % 32
    match substs.find? (fun s => s.group == g && s.col == k && s.inForce) with
    | some s => 34 * g + 32 + s.spare
    | none => 34 * g + k

/-- The QDR address of the header of plate region `r` (R266). -/
def hdrAddr (r : Nat) : Nat := 0x0E100000 + 0x10000 * r

/-- The QDR address of the entries of plate region `r` (R266). -/
def entAddr (r : Nat) : Nat := 0x02800000 * r

/-- Channel baseline S0 of a plate region (R62, R67). -/
def baseline (m : Mems) (r ch : Nat) : Int := sext 16 (m.qN (hdrAddr r + 0x100 + 2 * ch) 2)

/-- A raw count at either end of the converter range (R41). -/
def saturated (n : Nat) : Bool := n == 0 || n == 16383

/-- The blind mean of one side of a row in 1/4 count, over its usable pixels (R59): `o` is the first position, `b` the first
blind slice number (0 left, 8 right), `p` the row position. -/
def blindMean (excl : List Nat) (row : List Nat) (o b p : Nat) : Option Rat :=
  meanQ (((List.range 8).filter (fun j => !saturated (row.getD (o + j) 0) && !excl.contains (8 * (b + j) + p))).map
    (fun j => ((4 * row.getD (o + j) 0 : Nat) : Rat)))

/-- L and R of a row (R59): one side stands in for the other; a row with neither takes those of the row before, or INV. The
last component says that the fallback was used. -/
def rowLR (f : Frame) (row : List Nat) (p : Nat) : Option (Rat × Rat) × Bool :=
  match blindMean f.blindExcl row 0 0 p, blindMean f.blindExcl row (8 + f.set.cols) 8 p with
  | some l, some r => (some (l, r), false)
  | some l, none => (some (l, l), false)
  | none, some r => (some (r, r), false)
  | none, none => (f.lastLR.getD none, true)

/-- Row common-mode at a physical column, rounded (R60). -/
def cmAt (l r : Rat) (x : Nat) : Int := rround (l + (r - l) * ((2 * x : Nat) - 7) / 5136)

/-- The row-corrected values u of a row; none for a row that takes INV, whatever ROW_EN is (R59, R60). -/
def rowU (f : Frame) (row : List Nat) (lr : Option (Rat × Rat)) (j : Nat) : Option Int :=
  let n : Int := (4 * row.getD j 0 : Nat)
  lr.map (fun q => n - (if f.bit F.PIPE_NS_CTL_ROW_EN then cmAt q.1 q.2 (physCol f.set j) else 32768))

/-- Update the filter of a channel from its shaded value (R61, R63): set without filtering where an initialisation is due. -/
def updD (n : Nat) (chD : List (Nat × Int)) (wait : List Nat) (ch : Nat) (s : Int) : List (Nat × Int) × List Nat × Bool :=
  match assoc chD ch, wait.contains ch with
  | some old, false => (Tab.ins chD ch (rdiv (old * n + (16 * s - old)) n), wait, false)
  | _, _ => (Tab.ins chD ch (16 * s), wait.filter (· != ch), true)

/-- The channel-corrected value (R62): u where the channel has no filtered value. -/
def chanCorr (en : Bool) (chD : List (Nat × Int)) (s0 : Int) (ch : Nat) (u : Int) : Int :=
  match assoc chD ch with
  | some q => if en then u - rdiv (q - 16 * s0) 16 else u
  | none => u

/-- The channels of the slices that are initialised in a frame. -/
def initChans (sl : List Nat) : List Nat := sl.flatMap (fun s => (List.range 8).map (fun p => 8 * s + p))

/-- What the noise stage carries from row to row. -/
structure NoiseAcc where
  f : Frame
  chD : List (Nat × Int)
  wait : List Nat
  rows : List (List Px)
  /-- 16 u - D by pixel. -/
  ws : List (List Int)
  drift : Nat

/-- The noise stage on one row (row position `p` of slot `slot`). -/
def noiseRow (m : Mems) (substs : List Subst) (slot p : Nat) (row : List Nat) (a : NoiseAcc) : NoiseAcc :=
  let f := a.f
  let lr := rowLR f row p
  let w := f.set.cols + 16
  let ch (j : Nat) : Nat := 8 * sliceOf substs (physCol f.set j) + p
  let n := f.get F.PIPE_NS_CTL_CH_TC + 1
  let upd := if slot = 0 then
      (List.range w).foldl (fun (q : List (Nat × Int) × List Nat × Bool) j =>
        match rowU f row lr.1 j, saturated (row.getD j 0) with
        | some u, false => let r := updD n q.1 q.2.1 (ch j) u; (r.1, r.2.1, q.2.2 || r.2.2)
        | _, _ => q) (a.chD, a.wait, false)
    else (a.chD, a.wait, false)
  let px := (List.range w).map (fun j =>
    match rowU f row lr.1 j with
    | none => { Px.none_ with sat := saturated (row.getD j 0) }
    | some u =>
      ({ v := 0, sat := saturated (row.getD j 0), inv := false, repl := false, clu := false } : Px).clamp
        (chanCorr (f.bit F.PIPE_NS_CTL_CH_EN) upd.1 (baseline m f.region (ch j)) (ch j) u))
  let ws := (List.range w).map (fun j => 16 * (rowU f row lr.1 j).getD 0 - (assoc upd.1 (ch j)).getD (16 * baseline m f.region (ch j)))
  let span := match lr.1 with
    | some q =>
      if slot = 0 then f.cmSpan
      else
        let c := cmAt q.1 q.2 1288
        some (match f.cmSpan with | some s => (max s.1 c, min s.2 c) | none => (c, c))
    | none => f.cmSpan
  let dr := if slot = 0 then
      maxN ((List.range w).map (fun j => match assoc upd.1 (ch j) with
        | some q => (rdiv (q - 16 * baseline m f.region (ch j)) 16).natAbs | none => 0))
    else 0
  { f := { f with lastLR := some lr.1, rowFallback := f.rowFallback || lr.2, chInit := f.chInit || upd.2.2, cmSpan := span }
    chD := upd.1, wait := upd.2.1, rows := a.rows ++ [px], ws := a.ws ++ [ws], drift := Nat.max a.drift dr }


/-- A QDR word of the noise-stage state, which is held by channel and not by byte. -/
def noiseWord (w : Nat) : Bool := decide (0x08D00000 / 32 ≤ w ∧ w < (0x08D00000 + 4 * 21888) / 32)

/-- The channels whose filters lie in uncorrectable words (R273). -/
def Dev.badChans (d : Dev) : List Nat :=
  (d.store.qdrBad.filter noiseWord).flatMap (fun w => (List.range 8).map (fun i => 8 * (w - 0x08D00000 / 32) + i))

/-- The channels that the shaded slot of a frame initialises, and those whose filters were lost, have no filtered value until it
is set (R63, R273); their words are written anew. -/
def dropFilters (f : Frame) (d : Dev) : Dev :=
  let l := initChans f.initSlices ++ d.badChans
  if l.isEmpty then d
  else
    (d.onFpa fun z => { z with
      chD := z.chD.filter (fun q => !l.contains q.1), chWait := z.chWait.filter (fun c => !l.contains c) ++ l }).onStore fun z =>
        { z with qdrBad := z.qdrBad.filter (fun w => !noiseWord w) }

/-- A packet that fails its check field (R9): the slot is lost and counted, an eye scan starts. Its rows have no usable blind
pixel, so each takes the fallback (R59); its active pixels have no value at TAP4 (R58, R108); a lost shaded slot leaves the
channels it should have initialised without a filtered value (R63). -/
def slotLost (f : Frame) (slot : Nat) (d : Dev) : Dev :=
  let d := d.inc F.FPA_LINK_LOST_CNT
  let d := d.event 0x0401 { arg0 := d.get F.FPA_LINK_LOST_CNT }
  let d := if slot = 0 then dropFilters f d else d
  d.putFrame { f with
    slots := f.slots ++ [⟨slot, true, [], [], [], [], [], [], true, false, false, []⟩]
    lastLR := some (f.lastLR.getD none), rowFallback := true
    fc := { f.fc with noval := f.fc.noval + (if slot = 0 then 0 else 8 * f.set.cols) } }

/-- A whole packet through the noise stage. -/
def slotNoise (m : Mems) (f : Frame) (slot : Nat) (rows : List (List Nat)) (d : Dev) : Dev :=
  let raw := (List.range 8).map (fun p => (List.range (f.set.cols + 16)).map (fun j => ((rows.getD p []).getD j 0) % 16384))
  let gone := d.badChans
  let d := if slot = 0 then dropFilters f d else d
  let chD := if gone.isEmpty then d.fpa.chD else d.fpa.chD.filter (fun q => !gone.contains q.1)
  let a := (List.range 8).foldl (fun a p => noiseRow m d.fpa.substs slot p (raw.getD p []) a) ⟨f, chD, d.fpa.chWait, [], [], 0⟩
  let d := d.onFpa fun z => { z with chD := a.chD, chWait := a.wait }
  let d := d.putFrame { a.f with slots := a.f.slots ++ [⟨slot, false, raw, a.ws, a.rows, [], [], [], false, false, false, []⟩] }
  if slot = 0 then d.put F.PIPE_NS_CHDRIFT_MAX (satN 16 a.drift) else d

/-- The status registers of the noise stage after the last slot of a frame. -/
def noiseShow (f : Frame) (d : Dev) : Dev :=
  let d := (d.putBit F.PIPE_NS_STAT_ROW_FALLBACK f.rowFallback).putBit F.PIPE_NS_STAT_CH_INIT f.chInit
  match f.cmSpan with
  | some s => d.put F.PIPE_NS_ROWSPAN_SPAN (satN 16 (s.1 - s.2).toNat)
  | none => d

/-- SLOT_PACKET_ARRIVAL: slots arrive in order, once, and only those the frame reads. -/
def slotArrival (m : Mems) (cnt slot : Nat) (ok : Bool) (rows : List (List Nat)) (d : Dev) : Dev :=
  match d.frame cnt with
  | none => d
  | some f =>
    let cut := match f.cut with | some c => decide (c ≤ slot) | none => false
    if f.dark || cut || decide (f.set.rowSlots < slot) || slot != f.slots.length ||
        decide (d.t < f.b + slot * f.set.tslot + f.set.tint) then d
    else
      let d := if ok then slotNoise m f slot rows d else slotLost f slot d
      if slot = f.set.rowSlots then (match d.frame cnt with | some f => noiseShow f d | none => d) else d

/-- SLOT_PACKET_ARRIVAL: `reads` are the words of the noise-stage state that came back with errors (R271). -/
def execSlotPacketArrival (f : Nat) (slot : Nat) (ok : Bool) (rows : List (List Nat)) (reads : List BurstIn) (s : State) :
    Host.Outcome State Fault Refusal :=
  let s := s.onDev (fun d => d.badSeen (d.store.qdrBad.filter noiseWord))
  let s := funcReads reads s
  .next (s.onDev (slotArrival s.mem f slot ok rows))

end Sys2Proof.Machine
end

