-- ==== Sys2Proof/Machine/Plates.lean ====
section
/-! DEFINITION. Plates and the stipple map in flash and QDR, their entry into force, the plate and stipple commands, and
frame capture (R64 to R85, R98). -/

namespace Sys2Proof.Machine

/-! ### Addresses (R64, R266, R277) -/

/-- Bytes of a plate's header and entries. -/
def plateBytes : Nat := 0x02810000

/-- The QDR address of byte `o` of the plate image in region `r`: the header lies apart from the entries (R266). -/
def plateAddr (r o : Nat) : Nat := if o < 0x10000 then hdrAddr r + o else entAddr r + (o - 0x10000)

/-- Plate image bytes of a region. -/
def plateRead (m : Mems) (r o n : Nat) : List Byte := (List.range n).map (fun i => m.qdr.rd qdrDef (plateAddr r (o + i)))

/-- The flash address of plate slot instance `i` (R276, R277): factory HIGH, factory EXTENDED, field A HIGH, field B HIGH,
field A EXTENDED, field B EXTENDED. -/
def plateFlash (i : Nat) : Nat := 0x02100000 + 0x02900000 * i

/-- The field instance A of a range. -/
def fieldA (range : Nat) : Nat := 2 + 2 * range

/-- The QDR address of the stipple map in force (R266; its place in the table area is the model's choice, log 9). -/
def stAddr : Nat := 0x0E130000

/-- The flash address of stipple map instance `i`: factory, field A, field B (R277). -/
def stFlash (i : Nat) : Nat := 0x11700000 + 0x00300000 * i

/-- The QDR address of the curve in use for a range (log 9). -/
def curveAddr (range : Nat) : Nat := 0x0E3B0000 + 0x10000 * range

/-- The flash address of curve instance `i` (R277). -/
def curveFlash (i : Nat) : Nat := 0x12000000 + 0x20000 * i

/-- The 64-bit entry of pixel `i` of region `r` (R64). -/
def plateEntry (m : Mems) (r i : Nat) : Nat := m.qN (entAddr r + 8 * i) 8

/-- OFS of an entry. -/
def entOfs (e : Nat) : Int := sext 16 (e % 2 ^ 16)
/-- GAIN of an entry. -/
def entGain (e : Nat) : Nat := e / 2 ^ 16 % 2 ^ 14
/-- TAU of an entry. -/
def entTau (e : Nat) : Nat := e / 2 ^ 30 % 2 ^ 10
/-- DRA of an entry. -/
def entDra (e : Nat) : Int := sext 10 (e / 2 ^ 40 % 2 ^ 10)
/-- DRB of an entry. -/
def entDrb (e : Nat) : Int := sext 10 (e / 2 ^ 50 % 2 ^ 10)
/-- FLAGS of an entry. -/
def entFlags (e : Nat) : Nat := e / 2 ^ 60 % 16

/-- Number of pixels. -/
def nPix : Nat := 5242880

/-- SEQ of the plate header in a region. -/
def hdrSeq (m : Mems) (r : Nat) : Nat := m.qN (hdrAddr r + 4) 4
/-- T_ref of the plate header in a region. -/
def hdrTref (m : Mems) (r : Nat) : Int := (m.qN (hdrAddr r + 0x0C) 4 : Nat)

/-! ### Check words (R68) -/

/-- The check words of an image of `n` bytes in flash match: one per 4 KiB block, and the whole image's at the end. -/
def checkOk (m : Mems) (a n chk : Nat) : Bool :=
  (List.range (n / 4096)).all (fun b => m.fN (chk + 4 * b) 4 == crc32c (m.f (a + 4096 * b) 4096)) &&
  m.fN (chk + 0xFFFC) 4 == crc32c (m.f a n)

/-- A plate slot is neither empty, which is erased, nor invalidated for a write (R70, R77). -/
def platePresent (m : Mems) (d : Dev) (i : Nat) : Bool := m.fN (plateFlash i) 8 != 0xFFFFFFFFFFFFFFFF && !d.store.badSlots.contains (0, i)

/-- A plate slot holds a valid plate (R68). -/
def plateValid (m : Mems) (d : Dev) (i : Nat) : Bool :=
  platePresent m d i && checkOk m (plateFlash i) plateBytes (plateFlash i + plateBytes)

/-- A stipple slot is not empty; the factory map always exists. -/
def stPresent (m : Mems) (d : Dev) (i : Nat) : Bool := m.fN (stFlash i + 0x280000 + 0xFFFC) 4 != 0xFFFFFFFF && !d.store.badSlots.contains (1, i)

/-- A stipple slot holds a valid map (R68). -/
def stValid (m : Mems) (d : Dev) (i : Nat) : Bool := stPresent m d i && checkOk m (stFlash i) 0x280000 (stFlash i + 0x280000)

/-- Write the check area of an image in flash. -/
def State.writeCheck (s : State) (a n chk : Nat) : State :=
  let s := (List.range (n / 4096)).foldl (fun s b => s.wrFlash (chk + 4 * b) (leBytes 4 (crc32c (s.mem.f (a + 4096 * b) 4096)))) s
  s.wrFlash (chk + 0xFFFC) (leBytes 4 (crc32c (s.mem.f a n)))

/-! ### Plate load (R70) -/

/-- Field slot B of a range carries the larger SEQ (R69). -/
def fieldBNewer (m : Mems) (range : Nat) : Bool :=
  decide (m.fN (plateFlash (fieldA range) + 4) 4 < m.fN (plateFlash (fieldA range + 1) + 4) 4)

/-- The slots of a range in the order of R70: newest field plate, other field plate, factory plate. -/
def plateOrder (m : Mems) (range : Nat) : List Nat :=
  let a := fieldA range
  if fieldBNewer m range then [a + 1, a, range] else [a, a + 1, range]

/-- An image read at plate load that fails its check words is counted and logged (R70, R278). -/
def Dev.loadErr (d : Dev) (a : Nat) : Dev :=
  let d := (d.inc F.PIPE_PL_LOADERR_CNT).inc F.STORE_FLASH_CRCERR_CNT
  (d.event 0x0601 { elem := a / 0x20000, arg0 := d.get F.STORE_FLASH_CRCERR_CNT, arg2 := a }).event
    0x0604 { arg0 := d.get F.PIPE_PL_LOADERR_CNT }

/-- The source code of a slot: 1 factory, 2 field A, 3 field B. -/
def srcOfInst (i : Nat) : Nat := if i < 2 then 1 else 2 + i % 2

/-- Load the first valid plate of a range into a region; each plate read that fails its check words is counted and logged. -/
def loadPlateGo (range r : Nat) : List Nat → State → State
  | [], s => s
  | i :: is, s =>
    if ¬ platePresent s.mem s.dev i then loadPlateGo range r is s
    else if plateValid s.mem s.dev i then
      let s := s.flashToQdr (plateFlash i) 0x10000 (hdrAddr r)
      let s := s.flashToQdr (plateFlash i + 0x10000) 0x02800000 (entAddr r)
      s.onDev (fun d => d.onPipe fun z => { z with regions := z.regions.set r ⟨true, range, srcOfInst i, hdrSeq s.mem r⟩ })
    else loadPlateGo range r is (s.onDev (fun d => d.loadErr (plateFlash i)))

/-- The registers that show the plates by role (R69). -/
def showPlates (m : Mems) (d : Dev) : Dev :=
  let a := d.get F.PIPE_PL_STAT_ACTIVE_REG
  let b := d.get F.PIPE_PL_STAT_STANDBY_REG
  let x (r : Nat) : RegionX := d.pipe.regions.getD r ⟨false, 0, 0, 0⟩
  let d := (d.put F.PIPE_PL_STAT_ACTIVE_SRC (x a).src).put F.PIPE_PL_STAT_STANDBY_SRC (x b).src
  let d := (d.put F.PIPE_PL_SEQ_ACT_SEQ (x a).seq).put F.PIPE_PL_SEQ_STBY_SEQ (x b).seq
  let d := d.put F.PIPE_PL_TREF_TREF (hdrTref m a).toNat
  match d.burin.refs.find? (fun q => q.seq == (x a).seq) with
  | some q =>
    ((((d.putI F.PIPE_DM_REF_T_REF q.t).putI F.PIPE_DM_REF_F_REF q.f).putI F.PIPE_DM_REF_Q_REF q.q).put F.PIPE_DM_REF_OP_REF q.op).put
      F.PIPE_AC_REF_TINT_T_INT q.tint
  | none => d

/-- TAU statistics of the plate in force (R92, `PIPE_BU_TAUMED`). -/
def showTau (m : Mems) (d : Dev) : Dev :=
  let r := d.get F.PIPE_PL_STAT_ACTIVE_REG
  let es := (List.range nPix).map (fun i => plateEntry m r i)
  let taus := (es.filter (fun e => entFlags e % 4 == 0)).map entTau
  let cnt (t : Nat) : Nat := taus.countP (fun x => decide (x ≤ t))
  let med := ((List.range 1024).find? (fun t => decide (taus.length ≤ 2 * cnt t))).getD 0
  (d.put F.PIPE_BU_STAT_TAU_LOW (es.countP (fun e => decide (entTau e < 100)))).put F.PIPE_BU_TAUMED_TAU med

/-- Plate load at start-up (R70): ACTIVE for `range`, STANDBY for the other. -/
def plateLoad (range : Nat) (s : State) : State :=
  let a := s.dev.get F.PIPE_PL_STAT_ACTIVE_REG
  let b := s.dev.get F.PIPE_PL_STAT_STANDBY_REG
  let s := loadPlateGo range a (plateOrder s.mem range) s
  let s := loadPlateGo (1 - range) b (plateOrder s.mem (1 - range)) s
  s.onDev (fun d =>
    let ok (r g : Nat) : Bool := match d.pipe.regions[r]? with | some x => x.valid && x.range == g | none => false
    let d := d.putBit F.PIPE_PL_STAT_NO_PLATE_HIGH (!(ok a 0 || ok b 0))
    let d := d.putBit F.PIPE_PL_STAT_NO_PLATE_EXT (!(ok a 1 || ok b 1))
    showTau s.mem (showPlates s.mem d))

/-! ### Entry into force (R72 to R77) -/

/-- The plate in a region is to be written to flash as the newest field plate of its range; a plate that waits already is
replaced (R77). The slot that does not hold the newest valid plate is invalidated. -/
def startPersist (m : Mems) (range region : Nat) (d : Dev) : Dev :=
  if d.pipe.persist.isSome then d.onPipe fun z => { z with persistWait := [(range, region)] }
  else
    let a := fieldA range
    let newest := if fieldBNewer m range then a + 1 else a
    let inst := if plateValid m d newest then (if newest = a then a + 1 else a) else newest
    let d := d.onStore fun z => { z with badSlots := (0, inst) :: z.badSlots.filter (· != (0, inst)) }
    let d := d.onPipe fun z => { z with persist := some (range, region), persistRead := none }
    (d.flashPush (.plate range region inst)).putBit F.PIPE_PL_STAT_PERSIST_BUSY true

/-- The owner of SHADOW: 0 none, 1 host, 2 proof, 3 factory restore. -/
def Dev.owner (d : Dev) : Nat := d.get F.PIPE_PL_STAT_SHADOW_OWNER

/-- SHADOW is free: no owner and no swap pending (R75), and not reserved for a group command (R218). -/
def Dev.shadowFree (d : Dev) : Bool := d.owner == 0 && !d.bit F.PIPE_PL_STAT_SWAP_PEND && !d.reserved 0x8001

/-- Release SHADOW: its content is discarded. -/
def Dev.releaseShadow (d : Dev) : Dev :=
  let r := d.get F.PIPE_PL_STAT_SHADOW_REG
  let d := d.put F.PIPE_PL_STAT_SHADOW_OWNER 0
  d.onPipe fun z => { z with hostHold := none, regions := z.regions.set r ⟨false, 0, 0, 0⟩ }

/-- Record the drift references of a plate in the Keep (R98). -/
def Dev.putRef (d : Dev) (q : DriftRef) : Dev :=
  (d.onBurin fun z => { z with refs := q :: z.refs.filter (fun x => x.seq != q.seq) }).keepPush .modState 1

/-- A plate complete and accepted in SHADOW: it waits for its swap (R72). -/
def acceptShadow (range seq : Nat) (proof : Bool) (d : Dev) : Dev :=
  let r := d.get F.PIPE_PL_STAT_SHADOW_REG
  let d := d.onPipe fun z => { z with
    regions := z.regions.set r ⟨true, range, 0, seq⟩, swap := some ⟨d.t, proof, none⟩, hostHold := none }
  let d := if proof then d else d.putBit F.PIPE_ST_STAT_EVAL_BUSY true
  (d.put F.PIPE_PL_STAT_SHADOW_OWNER 0).putBit F.PIPE_PL_STAT_SWAP_PEND true

/-- The slot that the plate in flight to flash goes to. -/
def Dev.persistSlot (d : Dev) : Option Nat :=
  d.store.flashQ.findSome? (fun j => match j.what with | .plate _ _ i => some i | _ => none)

/-- The plate in flight to flash is read out of its region, at the latest before that region takes other bytes: what goes to
flash is the plate that entered into force (R77). A word that cannot be corrected abandons the write (R273). -/
def readPersist (s : State) : State :=
  match s.dev.pipe.persist, s.dev.persistSlot, s.dev.pipe.persistRead with
  | some (_, r), some i, none =>
    let bad := s.dev.store.qdrBad.any (fun w =>
      decide (entAddr r / 32 ≤ w ∧ w < entAddr r / 32 + 0x140000) || decide (hdrAddr r / 32 ≤ w ∧ w < hdrAddr r / 32 + 0x800))
    let s := if bad then s else
      (s.qdrToFlash (hdrAddr r) 0x10000 (plateFlash i)).qdrToFlash (entAddr r) 0x02800000 (plateFlash i + 0x10000)
    s.onDev (fun d => d.onPipe fun z => { z with persistRead := some (!bad) })
  | _, _, _ => s

/-- Region `r` is about to take other bytes. -/
def readPersistOf (r : Nat) (s : State) : State :=
  match s.dev.pipe.persist with
  | some (_, q) => if q = r then readPersist s else s
  | none => s

/-- Give the plate in a region a new SEQ and mark it as a field plate (R69, R76). -/
def stampSeq (r seq : Nat) (s : State) : State := (s.wrQdr (hdrAddr r + 4) (leBytes 4 seq)).wrQdr (hdrAddr r + 3) [1]

/-- Exchange SHADOW and ACTIVE (R72): the new plate governs from here on. -/
def swapRoles (m : Mems) (d : Dev) : Dev :=
  let a := d.get F.PIPE_PL_STAT_ACTIVE_REG
  let b := d.get F.PIPE_PL_STAT_SHADOW_REG
  let d := (d.put F.PIPE_PL_STAT_ACTIVE_REG b).put F.PIPE_PL_STAT_SHADOW_REG a
  let d := (d.putBit F.PIPE_PL_STAT_SWAP_PEND false).put F.PIPE_PL_SWAP_T_T d.t
  let d := d.onPipe fun z => { z with swap := none }
  let d := showTau m (showPlates m d)
  let x := d.pipe.regions.getD b ⟨false, 0, 0, 0⟩
  startPersist m x.range b d

/-- A change of gain range at a boundary (R74): STANDBY and ACTIVE exchange; a pending swap of the old range makes its
plate STANDBY; SHADOW is discarded unless a proof of the old range past its T_cp keeps it. -/
def rangeChange (m : Mems) (proofKeeps : Bool) (d : Dev) : Dev :=
  let a := d.get F.PIPE_PL_STAT_ACTIVE_REG
  let b := d.get F.PIPE_PL_STAT_STANDBY_REG
  let sh := d.get F.PIPE_PL_STAT_SHADOW_REG
  let d :=
    if d.bit F.PIPE_PL_STAT_SWAP_PEND then
      let d := ((d.put F.PIPE_PL_STAT_ACTIVE_REG b).put F.PIPE_PL_STAT_STANDBY_REG sh).put F.PIPE_PL_STAT_SHADOW_REG a
      let x := d.pipe.regions.getD sh ⟨false, 0, 0, 0⟩
      let d := startPersist m x.range sh d
      (d.putBit F.PIPE_PL_STAT_SWAP_PEND false).onPipe fun z => { z with swap := none, cluNext := none }
    else
      let d := (d.put F.PIPE_PL_STAT_ACTIVE_REG b).put F.PIPE_PL_STAT_STANDBY_REG a
      if proofKeeps then d else d.releaseShadow
  showTau m (showPlates m d)

/-! ### Commands (R75, R76) -/

/-- PLATE_WRITE (R75, R76). -/
def doPlateWrite (c : Cmd) (s : State) : State :=
  let d := s.dev
  let o := c.f 28 4
  if 1 < c.p8 24 ∨ plateBytes < o + c.data.length then s.onDev (fun d => d.complete c St.badParam 0 0)
  else if c.p8 24 ≠ d.fpa.set.gain then s.onDev (fun d => d.complete c St.refused 0 0)
  else if d.bit F.PIPE_PL_STAT_SWAP_PEND ∨ 2 ≤ d.owner then s.onDev (fun d => d.complete c St.busy 0 0)
  else
    let r := d.get F.PIPE_PL_STAT_SHADOW_REG
    let n := 0x10000 - o
    let s := readPersistOf r s
    let s := if o < 0x10000 then s.wrQdr (hdrAddr r + o) (c.data.take n) else s.wrQdr (entAddr r + (o - 0x10000)) c.data
    let s := if o < 0x10000 then s.wrQdr (entAddr r) (c.data.drop n) else s
    s.onDev (fun d =>
      let d := d.put F.PIPE_PL_STAT_SHADOW_OWNER 1
      (d.onPipe fun z => { z with hostHold := some (d.t + 10 * secT) }).ok c 0)

/-- The present drift references: T, F, Q and operating seconds (R98). -/
def presentRef (seq : Nat) (d : Dev) : DriftRef :=
  ⟨seq, (d.get F.FPA_STAGE_TEMP_T : Nat), (d.get F.FPA_FRAME_TEMP_T : Nat), d.getI F.FPA_STAGE_RATE_RATE, d.optime, d.fpa.set.tint⟩

/-- PLATE_COMMIT (R76, R98). -/
def doPlateCommit (c : Cmd) (s : State) : State :=
  let d := s.dev
  let r := d.get F.PIPE_PL_STAT_SHADOW_REG
  if 1 < c.p8 24 then s.onDev (fun d => d.complete c St.badParam 0 0)
  else if d.owner ≠ 1 ∨ c.p8 24 ≠ d.fpa.set.gain then s.onDev (fun d => d.complete c St.refused 0 0)
  else if crc32c (plateRead s.mem r 0 plateBytes) ≠ c.f 28 4 then s.onDev (fun d => d.complete c St.crcMismatch 0 0)
  else if d.tallyFailed 10 then s.onDev (fun d => d.complete c St.storeErr 0 0)
  else
    let s := s.onDev (fun d => d.tallyInc 10)
    let seq := s.dev.tally 10
    let s := stampSeq r seq s
    s.onDev (fun d => ((acceptShadow (c.p8 24) seq false d).putRef (presentRef seq d)).ok c seq)

/-- The drift references of the factory plate: kept by SEQ, else values the spec does not give, with t_p 0 and T_INT 2800
(R98). -/
def factoryRef (d : Dev) (seq newSeq : Nat) : DriftRef :=
  match d.burin.refs.find? (fun q => q.seq == seq) with
  | some q => { q with seq := newSeq }
  | none => ⟨newSeq, Config.factoryRef seq 0, Config.factoryRef seq 1, Config.factoryRef seq 2, 0, 2800⟩

/-- FACTORY_PLATE_RESTORE (R75, R76). -/
def doFactoryRestore (c : Cmd) (s : State) : State :=
  let d := s.dev
  let g := c.p8 24
  let inForce := decide (g = d.fpa.set.gain)
  if 1 < g then s.onDev (fun d => d.complete c St.badParam 0 0)
  else if inForce && !d.shadowFree then s.onDev (fun d => d.complete c St.busy 0 0)
  else if d.owner = 2 then s.onDev (fun d => d.complete c St.busy 0 0)
  else if d.tallyFailed 10 then s.onDev (fun d => d.complete c St.storeErr 0 0)
  else
    let r := if inForce then d.get F.PIPE_PL_STAT_SHADOW_REG else d.get F.PIPE_PL_STAT_STANDBY_REG
    let s := s.onDev (fun d => d.tallyInc 10)
    let seq := s.dev.tally 10
    let old := s.mem.fN (plateFlash g + 4) 4
    let s := readPersistOf r s
    let s := s.flashToQdr (plateFlash g) 0x10000 (hdrAddr r)
    let s := s.flashToQdr (plateFlash g + 0x10000) 0x02800000 (entAddr r)
    let s := stampSeq r seq s
    s.onDev (fun d =>
      let d := d.putRef (factoryRef d old seq)
      let d := if inForce then acceptShadow g seq false d
        else
          let d := d.onPipe fun z => { z with regions := z.regions.set r ⟨true, g, 0, seq⟩ }
          startPersist s.mem g r (showPlates s.mem d)
      d.ok c seq)

/-- SHADOW_RELEASE: the host's ownership ends and its content is discarded (R75). -/
def execShadowRelease (s : State) : Host.Outcome State Fault Refusal :=
  .next (s.onDev (fun d => if d.owner = 1 then d.releaseShadow else d))

/-- SHADOW_HOLD_EXPIRY: 10 s after the last PLATE_WRITE (R75). -/
def execShadowHoldExpiry (s : State) : Host.Outcome State Fault Refusal :=
  .next (s.onDev (fun d =>
    if d.owner = 1 ∧ dueBy d.pipe.hostHold d.t then d.releaseShadow.flag F.PIPE_PL_STAT_HOLD_EXPIRED else d))

/-- A plate write in the background ends (R77, R278): the field slot becomes valid, or stays invalid after an error; the
newest waiting plate follows. -/
def persistDone (ok : Bool) (s : State) : State :=
  match s.dev.store.flashQ.find? (fun j => match j.what with | .plate _ _ _ => true | _ => false) with
  | some ⟨.plate range region inst, _⟩ =>
    let drop (d : Dev) : Dev :=
      let q := d.store.flashQ.filter (fun j => match j.what with | .plate _ _ _ => false | _ => true)
      let d := (d.onStore fun z => { z with flashQ := q }).putBit F.STORE_FLASH_STAT_BUSY (!q.isEmpty)
      (d.onPipe fun z => { z with persist := none, persistRead := none }).putBit F.PIPE_PL_STAT_PERSIST_BUSY false
    let s := readPersistOf region s
    let s :=
      if ok && s.dev.pipe.persistRead == some true then
        let s := s.writeCheck (plateFlash inst) plateBytes (plateFlash inst + plateBytes)
        s.onDev (fun d =>
          let d := d.onStore fun z => { z with badSlots := z.badSlots.filter (· != (0, inst)) }
          let seq := s.mem.fN (plateFlash inst + 4) 4
          let d := d.onPipe fun z => { z with regions := z.regions.map (fun x => if x.valid && x.seq == seq && x.range == range then { x with src := srcOfInst inst } else x) }
          showPlates s.mem d)
      else s.onDev (fun d => if ok then d else d.flag F.STORE_FLASH_STAT_WR_ERR)
    s.onDev (fun d =>
      let d := drop d
      match d.pipe.persistWait with
      | (g, r) :: _ => startPersist s.mem g r (d.onPipe fun z => { z with persistWait := [] })
      | [] => d)
  | _ => s

/-- PLATE_PERSIST_DONE. -/
def execPlatePersistDone (ok : Bool) (s : State) : Host.Outcome State Fault Refusal := .next (persistDone ok s)

/-! ### Stipple map (R78 to R82) -/

/-- The stipple entry of pixel `i`: nibble k of word floor(i / 64), k = i mod 64. -/
def stNibble (m : Mems) (i : Nat) : Nat :=
  let b := (m.qdr.rd qdrDef (stAddr + i / 64 * 32 + i % 64 / 2)).toNat
  if i % 2 = 0 then b % 16 else b / 16

/-- Write the stipple entry of pixel `i`. -/
def setNibble (i v : Nat) (s : State) : State :=
  let a := stAddr + i / 64 * 32 + i % 64 / 2
  let b := (s.mem.qdr.rd qdrDef a).toNat
  s.wrQdr a [BitVec.ofNat 8 (if i % 2 = 0 then b / 16 * 16 + v % 16 else b % 16 + v % 16 * 16)]

/-- The entries of a STIPPLE_EDIT: column, row, set mask, clear mask (R252). -/
def editEntries (bs : List Byte) : List (Nat × Nat × Nat × Nat) :=
  (List.range (bs.length / 8)).map (fun i => (leAt bs (8 * i) 2, leAt bs (8 * i + 2) 2, leAt bs (8 * i + 4) 1, leAt bs (8 * i + 5) 1))

/-- STIPPLE_EDIT (R82, R286): accepted whole or refused whole. It completes when the map is in flash. -/
def doStippleEdit (c : Cmd) (d : Dev) : Dev :=
  let es := editEntries c.data
  let zero := (List.range (c.data.length / 8)).all (fun i => leAt c.data (8 * i + 6) 2 == 0)
  if !zero || es.any (fun e => decide (16 ≤ e.2.2.1) || decide (16 ≤ e.2.2.2)) then d.complete c St.badParam 0 0
  else if es.any (fun e => decide (2560 ≤ e.1) || decide (2048 ≤ e.2.1) || (e.2.2.1 &&& e.2.2.2) != 0) then d.complete c St.refused 0 0
  else if d.tallyFailed 12 then d.complete c St.storeErr 0 0
  else
    let d := d.tallyInc 12
    let d := d.putBit F.PIPE_ST_STAT_EVAL_BUSY true
    d.onPipe fun z => { z with edits := z.edits ++ [⟨some c.k, d.t, d.tally 12, es⟩] }

/-- Apply an edit to the map in force and queue its background write (R77, R82). -/
def applyEdit (e : StEdit) (s : State) : State :=
  let s := e.entries.foldl (fun s q =>
    let i := q.2.1 * 2560 + q.1
    setNibble i ((stNibble s.mem i ||| q.2.2.1) &&& (15 - q.2.2.2 % 16)) s) s
  s.onDev (fun d =>
    let inst := if d.pipe.stInst = 1 then 2 else 1
    let d := d.onStore fun z => { z with badSlots := (1, inst) :: z.badSlots.filter (· != (1, inst)) }
    let d := (d.onPipe fun z => { z with stSeq := e.seq, stInst := inst }).put F.PIPE_ST_SEQ_SEQ e.seq
    d.flashPush (.stipple e.k inst e.seq))

/-- Plate and stipple flags of a pixel (R78), without R32; an uncorrectable stipple word counts as DEAD (R273). -/
def pixFlags (m : Mems) (bad : List Nat) (region i : Nat) : Nat :=
  entFlags (plateEntry m region i) ||| stNibble m i ||| (if bad.contains ((stAddr + i / 64 * 32) / 32) then 1 else 0)

/-- A pixel is defective by its flags (R79). -/
def isDefect (fl : Nat) : Bool := fl % 4 != 0

/-- Connected component of a set of pixels under 8-connection, grown for at most `fuel` rounds. -/
def growCluster (pix : List Nat) : Nat → List Nat → List Nat
  | 0, c => c
  | f + 1, c =>
    let near (a b : Nat) : Bool :=
      decide ((a / 2560 : Int) - (b / 2560 : Int) ≤ 1 ∧ (b / 2560 : Int) - (a / 2560 : Int) ≤ 1 ∧
        (a % 2560 : Int) - (b % 2560 : Int) ≤ 1 ∧ (b % 2560 : Int) - (a % 2560 : Int) ≤ 1)
    let add := pix.filter (fun p => !c.contains p && c.any (fun q => near p q))
    if add.isEmpty then c else growCluster pix f (c ++ add)

/-- The clusters of a set of pixels (R81). -/
def clusters : Nat → List Nat → List (List Nat)
  | 0, _ => []
  | _ + 1, [] => []
  | f + 1, p :: ps =>
    let c := growCluster ps (ps.length + 1) [p]
    c :: clusters f (ps.filter (fun x => !c.contains x))

/-- Width and height of a cluster's bounding box. -/
def bbox (c : List Nat) : Nat × Nat :=
  let cs := c.map (· % 2560)
  let rs := c.map (· / 2560)
  let mn (l : List Nat) : Nat := l.foldl Nat.min (l.headD 0)
  (maxN cs - mn cs + 1, maxN rs - mn rs + 1)

/-- The maps an evaluation of clusters looks at: the stipple map with the accepted edits applied. -/
def editedNibble (m : Mems) (edits : List StEdit) (i : Nat) : Nat :=
  edits.foldl (fun v e => e.entries.foldl (fun v q =>
    if q.2.1 * 2560 + q.1 = i then (v ||| q.2.2.1) &&& (15 - q.2.2.2 % 16) else v) v) (stNibble m i)

/-- The plate region whose flags count after the next boundary: the pending swap's, else ACTIVE's. -/
def Dev.nextRegion (d : Dev) : Nat :=
  if d.bit F.PIPE_PL_STAT_SWAP_PEND then d.get F.PIPE_PL_STAT_SHADOW_REG else d.get F.PIPE_PL_STAT_ACTIVE_REG

/-- The pixels that are defective under the flags of a plate region and the stipple map with some edits, R32 left out. -/
def defectPix (m : Mems) (bad : List Nat) (region : Nat) (edits : List StEdit) : List Nat :=
  (List.range nPix).filter (fun i =>
    isDefect (entFlags (plateEntry m region i) ||| editedNibble m edits i ||| (if bad.contains ((stAddr + i / 64 * 32) / 32) then 1 else 0)))

/-- The flagged clusters of a set of defective pixels (R81). -/
def flaggedOf (pix : List Nat) : List (List Nat) :=
  (clusters pix.length pix).filter (fun c => decide (3 < (bbox c).1) || decide (3 < (bbox c).2))

/-- The flagged cluster with the largest bounding box, by area and then in order (R81, log 81). -/
def largestBox (fl : List (List Nat)) : Nat × Nat :=
  fl.foldl (fun (b : Nat × Nat) c => let x := bbox c; if b.1 * b.2 < x.1 * x.2 then x else b) (0, 0)

/-- A new set of flagged clusters: each new one logs an event (R81). One is new that is not the same set of pixels as a flagged
one before it (log 80). -/
def logClusters (fl : List (List Nat)) (d : Dev) : Dev :=
  let d := (fl.filter (fun c => !d.pipe.cluFlagged.contains c)).foldl (fun d c => d.event 0x0205 { elem := c.headD 0 }) d
  d.onPipe fun z => { z with cluFlagged := fl }

/-- CLUSTER_EVALUATION: the flags about to take effect are evaluated before they do (R81). -/
def clusterEval (m : Mems) (d : Dev) : Dev :=
  let pix := defectPix m d.store.qdrBad d.nextRegion d.pipe.edits
  let fl := flaggedOf pix
  ((logClusters fl d).onPipe fun z => { z with cluNext := some (fl, pix) }).putBit F.PIPE_ST_STAT_EVAL_BUSY false

/-- CLUSTER_EVALUATION. -/
def execClusterEvaluation (s : State) : Host.Outcome State Fault Refusal := .next (s.onDev (clusterEval s.mem))

/-- Columns treated as defective under R32. -/
def Dev.substCols (d : Dev) : List Nat := (d.fpa.substs.filter (fun s => s.inForce && !s.closed)).map (fun s => 32 * s.group + s.col)

/-- Cluster marks and their registers take effect (R79, R81): defective pixels include the columns of R32. -/
def useClusters (fl : List (List Nat)) (pix : List Nat) (d : Dev) : Dev :=
  let cols := d.substCols
  let n := (pix.filter (fun i => !cols.contains (i % 2560))).length + 2048 * cols.length
  let d := d.onPipe fun z => { z with cluPix := fl.flatten }
  let x := largestBox fl
  (((d.put F.PIPE_ST_DEFECTS_CNT n).put F.PIPE_ST_STAT_BIGCLUST (satN 16 fl.length)).put F.PIPE_ST_CLUMAX_WIDTH x.1).put
    F.PIPE_ST_CLUMAX_HEIGHT x.2

/-- Effective flags have changed: the evaluation made for the change, or one made now where other changes still wait or none
was made (R81). -/
def clusterStep (m : Mems) (d : Dev) : Dev :=
  let waits := !d.pipe.edits.isEmpty || d.pipe.swap.isSome
  match d.pipe.cluNext with
  | some (fl, pix) => if waits then now d else useClusters fl pix (d.onPipe fun z => { z with cluNext := none })
  | none => now d
where
  now (d : Dev) : Dev :=
    let pix := defectPix m d.store.qdrBad (d.get F.PIPE_PL_STAT_ACTIVE_REG) []
    let fl := flaggedOf pix
    useClusters fl pix (logClusters fl d)

/-! ### Frame capture (R83 to R85) -/

/-- FRAME_CAPTURE (R83): another replaces a running capture from the next boundary, and a count of 0 stops it there. One
that has not begun is replaced at once. -/
def doFrameCapture (c : Cmd) (d : Dev) : Dev :=
  let tap := c.p8 24
  let ring := c.p8 25
  let dec := c.f 26 2
  let n := c.f 28 2
  if n ≠ 0 ∧ (4 < tap ∨ ¬ (ring = 6 ∨ ring = 7) ∨ dec = 0 ∨ 256 < dec) then d.complete c St.badParam 0 0
  else
    let d := match d.pipe.capNext with
      | some y => let d := d.onPipe fun z => { z with capNext := none }; if y.dec = 0 then d else endCap y.k St.superseded d
      | none => d
    if n = 0 then
      (d.onPipe fun z => { z with capNext := z.cap.map (fun x => { x with dec := 0 }) }).ok c 0
    else
      d.onPipe fun z => { z with capNext := some ⟨c.k, tap, ring, dec, if n = 0xFFFF then none else some n, d.t + 1000, 0, 0, c.cookie⟩ }

/-- RING_CTL_RESET (R234). -/
def execRingCtlReset (n : Fin 16) (s : State) : Host.Outcome State Fault Refusal :=
  .next (s.onDev (fun d => d.ringReset n.val))

/-- RING_RESET: rings 0 and 1 are refused (R234, R252). -/
def doRingReset (c : Cmd) (d : Dev) : Dev :=
  let n := c.p8 24
  if 16 ≤ n then d.complete c St.badParam 0 0
  else if n < 2 then d.complete c St.refused 0 0
  else (d.ringReset n).ok c 0

/-- A replacement or a stop takes over at a frame boundary (R83). -/
def captureReplace (f : Frame) (d : Dev) : Dev :=
  match d.pipe.capNext with
  | none => d
  | some x =>
    let d1 := match d.pipe.cap with
      | some y => endCap y.k St.superseded (d.onPipe fun z => { z with cap := none })
      | none => d
    if x.dec = 0 then d1.onPipe fun z => { z with capNext := none }
    else if x.fromT ≤ f.b ∨ d.pipe.cap.isSome then d1.onPipe fun z => { z with cap := some x, capNext := none }
    else d

/-- The capture's part in a frame boundary (R83, R85): every D-th frame from its first takes a buffer or is dropped; the last
of its count ends it. A capture that took over before its acceptance + 1000 waits for that (DESIGN CHOICE, log 90). -/
def captureBoundary (f : Frame) (d : Dev) : Dev :=
  let d := captureReplace f d
  match d.pipe.cap with
  | none => showCap d
  | some x =>
    if f.b < x.fromT then showCap d
    else if x.seen % x.dec ≠ 0 then showCap (d.onPipe fun z => { z with cap := some { x with seen := x.seen + 1 } })
    else
      let y := { x with seen := x.seen + 1, left := x.left.map (· - 1) }
      let d := match (List.range 2).find? (fun i => (d.pipe.capBufs.getD i none).isNone) with
        | none => (d.inc F.PIPE_CAP_DROP_CNT).onPipe fun z => { z with cap := some { y with dropped := y.dropped + 1 } }
        | some i =>
          let b : CapBuf := ⟨f.cnt, f.b, f.set.period, { y with dropped := 0 }, x.dropped, false⟩
          (d.freshQdr (capAddr i) 0xA80000).onPipe fun z => { z with cap := some { y with dropped := 0 }, capBufs := z.capBufs.set i (some b) }
      if y.left = some 0 then endCap x.k St.ok (d.onPipe fun z => { z with cap := none }) else showCap d

/-- The rows of a slot at a tap as 16-bit pixels (R12, R58, R84); a lost slot gives 0x0000. -/
def tapRows (f : Frame) (tap : Nat) (x : SlotX) : List Nat :=
  let w := if tap ≤ 1 then f.set.cols + 16 else f.set.cols
  if x.lost then List.replicate (8 * w) 0
  else
    let rows (r : List (List Px)) : List Nat := r.flatten.map (fun p => uns 16 p.v)
    match tap with
    | 0 => x.tap0.flatten
    | 1 => rows x.tap1
    | 2 => rows x.tap2
    | 3 => rows x.tap3
    | _ => rows x.tap4

/-- The frame record of R84; `unc` says that a word of its frame buffer is uncorrectable (R273). -/
def frameRecord (f : Frame) (b : CapBuf) (unc : Bool) : List Byte :=
  let tap := b.cap.tap
  let sl := if tap ≤ 1 then f.slots else f.slots.drop 1
  let w := if tap ≤ 1 then f.set.cols + 16 else f.set.cols
  let h := if tap ≤ 1 then 8 * (f.set.rowSlots + 1) else 8 * f.set.rowSlots
  let lost := (f.slots.filter (·.lost)).map (·.slot)
  let flags := b2n f.plateNow + 2 * b2n (!lost.isEmpty) + 4 * b2n (unc || (decide (2 ≤ tap) && f.slots.any (·.uncorr))) + 8 * b2n f.triggered + 16 * b2n f.shutter
  let hd := leBytes 2 2 ++ leBytes 1 tap ++ leBytes 1 flags ++ leBytes 4 f.gen ++ leBytes 8 f.b ++ leBytes 4 f.cnt ++
    leBytes 4 f.plateSeq ++ leBytes 2 w ++ leBytes 2 h ++ leBytes 2 f.set.rowFirst ++ leBytes 2 f.set.rowSlots ++
    leBytes 1 f.set.cgFirst ++ leBytes 1 f.set.cgCount ++ leBytes 2 lost.length ++ leBytes 4 f.stageT ++
    leBytes 4 (uns 32 f.stageQ) ++ leBytes 4 b.dropped ++ leBytes 8 f.webB ++ leBytes 4 b.cap.cookie
  let body := leBytes 64 (ofBits lost) ++ (sl.flatMap (fun x => (tapRows f tap x).flatMap (leBytes 2)))
  hd ++ leBytes 4 (crc32c (hd ++ [0, 0, 0, 0] ++ body)) ++ body

/-- Every slot of a frame that the tap needs has passed it. -/
def tapReady (f : Frame) (tap : Nat) : Bool :=
  f.slots.length == f.set.rowSlots + 1 && (decide (tap ≤ 1) || (f.slots.drop 1).all (fun x => x.lost || x.done))

/-- CAPTURE_FRAME_DONE: the frame in a buffer is complete and waits as a record for its transfer (R84, R85). -/
def captureDone (b : Nat) (d : Dev) : Dev :=
  match d.pipe.capBufs.getD b none with
  | none => d
  | some x =>
    match d.frame x.frame with
    | none => d
    | some f =>
      if x.ready || !tapReady f x.cap.tap || f.cut.isSome then d
      else
        let n := 128 + 2 * 8 * (f.set.rowSlots + 1) * (f.set.cols + 16)
        let unc := badIn d.store.qdrBad (capAddr b) n
        let d := d.badSeen (d.store.qdrBad.filter (fun w => decide (capAddr b / 32 ≤ w ∧ w < (capAddr b + n) / 32)))
        let d := d.onHost fun z => { z with formed := z.formed ++ [⟨x.cap.ring, padTo 64 (frameRecord f x unc), 0, some b, none⟩] }
        showCap (d.onPipe fun z => { z with capBufs := z.capBufs.set b (some { x with ready := true }) })

/-- CAPTURE_FRAME_DONE: `reads` are the words of the frame buffer that came back with errors. -/
def execCaptureFrameDone (b : Fin 2) (reads : List BurstIn) (s : State) : Host.Outcome State Fault Refusal :=
  .next ((funcReads reads s).onDev (captureDone b.val))

/-- CAPTURE_ABANDONED: a capture more than one frame period behind is abandoned and counted (R85), which it is two periods after its
boundary (DESIGN CHOICE, log 90); so is a frame cut short (R54). -/
def captureAbandoned (b : Nat) (d : Dev) : Dev :=
  match d.pipe.capBufs.getD b none with
  | none => d
  | some x =>
    let cut := match d.frame x.frame with | some f => f.cut.isSome | none => true
    if x.ready || !(cut || decide (x.b + 2 * x.period < d.t)) then d
    else
      let d := if cut then d else d.inc F.PIPE_CAP_DROP_QDR_CNT
      settleCaps (countDropped x.cap.k (x.dropped + 1) (d.onPipe fun z => { z with capBufs := z.capBufs.set b none }))

/-- CAPTURE_ABANDONED. -/
def execCaptureAbandoned (b : Fin 2) (s : State) : Host.Outcome State Fault Refusal := .next (s.onDev (captureAbandoned b.val))

/-- PIPE_CNT_CLR (R26). -/
def execPipeCntClr (loaderr cap : Bool) (s : State) : Host.Outcome State Fault Refusal :=
  .next (s.onDev (fun d =>
    let d := if loaderr then d.clearAll [F.PIPE_PL_LOADERR_CNT] else d
    if cap then d.clearAll [F.PIPE_CAP_DONE_CNT, F.PIPE_CAP_DROP_CNT, F.PIPE_CAP_DROP_QDR_CNT] else d))

end Sys2Proof.Machine
end

