-- ==== Sys2Proof/Machine/Radio.lean ====
section
/-! DEFINITION. Geometry, profiles and curves as the other families read them (R102 to R107, R145 to R148, R160). -/

namespace Sys2Proof.Machine

/-! ### Geometry and profiles -/

/-- O of row `r` in 1/256 µm; 0 while no map is in force. -/
def Dev.geoO (d : Dev) (r : Nat) : Int := match d.web.geo with | some g => g.o.getD r 0 | none => 0

/-- X of column `c` in 1/256 µm; 0 without a geometry map (DESIGN CHOICE, log 86). -/
def Dev.geoX (d : Dev) (c : Nat) : Int := match d.web.geo with | some g => g.x.getD c 0 | none => 0

/-- The rows of a set's window. -/
def AcqSet.rows (a : AcqSet) : List Nat := (List.range (8 * a.rowSlots)).map (fun i => 8 * a.rowFirst + i)

/-- Smallest and largest O over rows, with the exit row (higher index on a tie) and the entry row (lower index) (R146). -/
def Dev.oSpan (d : Dev) (rows : List Nat) : Int × Int × Nat × Nat :=
  match rows with
  | [] => (0, 0, 0, 0)
  | r0 :: rs =>
    rs.foldl (fun (q : Int × Int × Nat × Nat) r =>
      let o := d.geoO r
      let q := if o ≤ q.1 then (o, q.2.1, r, q.2.2.2) else q
      if q.2.1 < o then (q.1, o, q.2.2.1, r) else q) (d.geoO r0, d.geoO r0, r0, r0)

/-- O_min of a set's window. -/
def Dev.oMin (d : Dev) (a : AcqSet) : Int := (d.oSpan a.rows).1
/-- O_max of a set's window. -/
def Dev.oMax (d : Dev) (a : AcqSet) : Int := (d.oSpan a.rows).2.1
/-- The exit row of a set's window. -/
def Dev.exitRow (d : Dev) (a : AcqSet) : Nat := (d.oSpan a.rows).2.2.1

/-- The image of profile `id`. -/
def Dev.prof (d : Dev) (id : Nat) : Option (List Byte) := assoc d.web.profs id

/-- A field of a defined profile's header; 0 if undefined. -/
def Dev.profF (d : Dev) (id o n : Nat) : Nat := match d.prof id with | some b => leAt b o n | none => 0

/-- Pitch of a profile in 1/65,536 µm. -/
def Dev.pitch (d : Dev) (id : Nat) : Nat := d.profF id 8 2 * 65536

/-- A lane of a profile (R160). -/
structure Lane where
  x0 : Int
  x1 : Int
  eps : Nat
  trefl : Nat
  upper : Nat
  lower : Nat
  deriving DecidableEq, Repr

/-- The lanes in use of a profile image. -/
def lanesOf (b : List Byte) : List Lane :=
  (List.range (leAt b 3 1)).map (fun l =>
    let o := 64 + 16 * l
    ⟨sext 32 (leAt b o 4), sext 32 (leAt b (o + 4) 4), leAt b (o + 8) 2, leAt b (o + 10) 2, leAt b (o + 12) 2, leAt b (o + 14) 2⟩)

/-- The lane that holds an across-web position: the lowest index wins (R160). -/
def laneAt (ls : List Lane) (x : Int) : Option Nat :=
  (List.range ls.length).find? (fun l => match ls[l]? with | some a => decide (256 * a.x0 ≤ x ∧ x < 256 * a.x1) | none => false)

/-- Every grid in use: the profile in force and the pending switches, in order. -/
def Dev.grids (d : Dev) : List Grid := d.web.cur.toList ++ d.web.switches

/-- The grid at a coordinate: the last one that begins at or before it (R147, R162). -/
def Dev.gridAt (d : Dev) (x : Nat) : Option Grid := (d.grids.filter (fun g => decide (0 ≤ sdiff g.x0 x))).getLast?

/-- W and H at the midpoint of a slot; the present values if the stamp was not latched. -/
def Dev.wMark (d : Dev) (f : Frame) (slot : Nat) : Nat × Nat :=
  match f.wMarks.find? (fun q => q.1 == slot) with
  | some q => q.2
  | none => (d.get F.WEB_POS_W, d.get F.WEB_HW_W)

/-- The coordinate of a row sample (R148). -/
def Dev.rowCoord (d : Dev) (f : Frame) (slot r : Nat) : Nat := wadd (d.wMark f slot).1 (256 * d.geoO r)

/-! ### Curves (R102 to R106) -/

/-- The source of the curve of a range: 0 when none is valid (R103). -/
def Dev.curveSrc (d : Dev) (range : Nat) : Nat := if range = 0 then d.get F.PIPE_RAD_CV_STAT_SRC_H else d.get F.PIPE_RAD_CV_STAT_SRC_E

/-- A word of the curve in use is uncorrectable. -/
def curveBad (bad : List Nat) (range o n : Nat) : Bool :=
  bad.contains ((curveAddr range + o) / 32) || bad.contains ((curveAddr range + o + n - 1) / 32)

/-- E[j] of the curve of a range. -/
def tempE (m : Mems) (range j : Nat) : Nat := m.qN (curveAddr range + 0x40 + 2 * j) 2

/-- The word of E[j] is uncorrectable (R273). -/
def tempBad (bad : List Nat) (range j : Nat) : Bool := curveBad bad range (0x40 + 2 * j) 2

/-- The word of RAD[m] is uncorrectable (R273). -/
def radBad (bad : List Nat) (range j : Nat) : Bool := curveBad bad range (0x2040 + 4 * j) 4

/-- The word of TCAL and KAPPA is uncorrectable (R273). -/
def refBad (bad : List Nat) (range : Nat) : Bool := curveBad bad range 8 8

/-- RAD[m] of the curve of a range. -/
def radE (m : Mems) (range j : Nat) : Int := (m.qN (curveAddr range + 0x2040 + 4 * j) 4 : Nat)

/-- TCAL of the curve of a range. -/
def tcal (m : Mems) (range : Nat) : Int := (m.qN (curveAddr range + 8) 4 : Nat)

/-- KAPPA of the curve of a range. -/
def kappa (m : Mems) (range : Nat) : Int := sext 32 (m.qN (curveAddr range + 0xC) 4)

/-- L(T) at a temperature in 20 mK units (R106); none where an entry it takes lies in an uncorrectable word (R273). -/
def radAt (m : Mems) (bad : List Nat) (range : Nat) (t : Rat) : Option Rat :=
  let j := Nat.min ((t / 16).floor.toNat) 4095
  let i := if j = 4095 then 4094 else j
  if radBad bad range i || radBad bad range (i + 1) then none
  else
    some ((radE m range j : Rat) + ((radE m range (i + 1) - radE m range i : Int) : Rat) * (t - 16 * (j : Rat)) / 16)

/-- A temperature found on the segments of a curve, the side on which it lies outside (R105, R106), or no value because an entry
lies in an uncorrectable word (R273). -/
inductive Found where
  | t (v : Rat)
  | low
  | high
  | lost
  deriving DecidableEq, Repr

/-- The temperature at which L(T) is a given radiance (R106). -/
def radInv (m : Mems) (bad : List Nat) (range : Nat) (l : Rat) : Found :=
  if l ≤ (radE m range 0 : Rat) then (if radBad bad range 0 then .lost else .low)
  else if (radE m range 4095 : Rat) ≤ l then (if radBad bad range 4095 then .lost else .high)
  else
    match (List.range 4095).find? (fun j => decide (l < (radE m range (j + 1) : Rat))) with
    | some j =>
      let a := radE m range j
      let b := radE m range (j + 1)
      if radBad bad range j || radBad bad range (j + 1) then .lost
      else .t (16 * (j : Rat) + 16 * (l - (a : Rat)) / ((b - a : Int) : Rat))
    | none => .high

/-- s referred to the calibration stage temperature, clamped (R104). -/
def stageRef (m : Mems) (range : Nat) (en : Bool) (t s : Int) : Int :=
  if en then clampI (-32767) 32767 (s + rdiv (s * kappa m range * (t - tcal m range)) (2 ^ 30)) else s

/-- The clamp of R104 was met. -/
def stageClamped (m : Mems) (range : Nat) (en : Bool) (t s : Int) : Bool :=
  en && (let v := s + rdiv (s * kappa m range * (t - tcal m range)) (2 ^ 30)
         decide (v < -32767 ∨ 32767 < v))

/-- The run of non-zero entries of TEMP: first index, if any. -/
def tempFirst (m : Mems) (range : Nat) : Option Nat := (List.range 4096).find? (fun j => tempE m range j != 0)

/-- Black-body temperature of a signal (R105): a value, or the side on which it has none. The last index of the run with f > 0,
which lies neither below nor above the run, counts as high, and a table with no run as low (log 82). -/
def bbTemp (m : Mems) (bad : List Nat) (range : Nat) (s : Int) : Found :=
  let u := (s + 32768).toNat
  let j := u / 16
  let f := u % 16
  let e (k : Nat) : Int := (tempE m range k : Nat)
  let side : Found := match tempFirst m range with | some a => if j < a then .low else .high | none => .low
  if tempBad bad range j || (0 < f && tempBad bad range (if j = 4095 then 4094 else j + 1)) then .lost
  else if j = 4095 then
    if e 4095 = 0 ∨ (0 < f ∧ e 4094 = 0) then side
    else
      let t := rdiv (16 * e 4095 + (e 4095 - e 4094) * (f : Int)) 16
      if 65535 < t then .high else .t (t : Rat)
  else if e j = 0 ∨ (0 < f ∧ e (j + 1) = 0) then side
  else
    let t := rdiv (16 * e j + (if f = 0 then 0 else (e (j + 1) - e j) * (f : Int))) 16
    if 65535 < t then .high else .t (t : Rat)

/-- Object temperature from a black-body temperature (R106). -/
def objTemp (m : Mems) (bad : List Nat) (range : Nat) (epsEn : Bool) (e trefl : Nat) (tbb : Rat) : Found :=
  if !epsEn || e == 1024 then .t tbb
  else
    match radAt m bad range tbb, radAt m bad range (trefl : Rat) with
    | some a, some b =>
      match radInv m bad range ((1024 * a - (1024 - (e : Rat)) * b) / (e : Rat)) with
      | .t v => let r := rround v; if r = 0 then .low else .t (r : Rat)
      | x => x
    | _, _ => .lost

/-- The Written by Host checks of a curve image: CRC, one contiguous rising run, RAD strictly rising (R103). -/
def curveOk (b : List Byte) : Bool :=
  let ts := (List.range 4096).map (fun j => leAt b (0x40 + 2 * j) 2)
  let run := ((ts.dropWhile (· == 0)).reverse.dropWhile (· == 0)).reverse
  let rs := (List.range 4096).map (fun j => leAt b (0x2040 + 4 * j) 4)
  b.length == 0x6044 && leAt b 0x6040 4 == crc32c (b.take 0x6040) &&
  run.all (· != 0) && (run.zip (run.drop 1)).all (fun p => decide (p.1 ≤ p.2)) &&
  (rs.zip (rs.drop 1)).all (fun p => decide (p.1 < p.2))

end Sys2Proof.Machine
end

