-- ==== Sys2Proof/Machine/Burin.lean ====
section
/-! DEFINITION. From TAP1 to TAP4: plate correction, stipple replacement, Burin stage, drift offset and radiometry of a row
slot (R65, R79, R80, R86 to R92, R97, R104 to R108), and what a proof takes from it (R124, R128, R129). -/

namespace Sys2Proof.Machine

/-- Pixel index of window column `j`, row position `p` of a slot. -/
def pixIndex (a : AcqSet) (slot p j : Nat) : Nat := (8 * (a.rowFirst + slot - 1) + p) * 2560 + 32 * a.cgFirst + j

/-- TAP2 of a pixel (R65); a pixel of an uncorrectable plate word takes INV (R273). -/
def plateCorr (m : Mems) (bad : List Nat) (f : Frame) (i : Nat) (x : Px) : Px :=
  if x.inv then x
  else if bad.contains (entAddr f.region / 32 + i / 4) then { Px.none_ with sat := x.sat }
  else if !f.bit F.PIPE_PL_CTL_PLATE_EN then x
  else
    let e := plateEntry m f.region i
    let dr : Int :=
      if f.bit F.PIPE_PL_CTL_DRIFT_EN then
        rdiv (entDra e * ((f.stageT : Int) - hdrTref m f.region)) 4000 + rdiv (entDrb e * f.stageQ) 16000
      else 0
    x.clamp (rdiv ((x.v - entOfs e - dr) * (entGain e : Int)) 8192)

/-- TAP2 rows of a slot; none for a lost slot or one that has not arrived. -/
def tap2Of (m : Mems) (bad : List Nat) (f : Frame) (slot : Nat) : Option (List (List Px)) :=
  match f.slots.find? (fun x => x.slot == slot) with
  | some x =>
    if x.lost || slot == 0 then none
    else some ((List.range 8).map (fun p => (List.range f.set.cols).map (fun j =>
      plateCorr m bad f (pixIndex f.set slot p j) ((x.tap1.getD p []).getD (8 + j) Px.none_))))
  | none => none

/-- Effective flags of a pixel in a frame (R78). -/
def effFlags (m : Mems) (bad : List Nat) (f : Frame) (i : Nat) : Nat :=
  pixFlags m bad f.region i ||| (if f.substCols.contains (i % 2560) then 1 else 0)

/-- A valid source for replacement at window row `y`, column `j`, as its TAP2 value (R79); rows count from the window's first. -/
def srcVal (m : Mems) (bad : List Nat) (f : Frame) (t2 : Nat → Option (List (List Px))) (y j : Int) : Option Int :=
  if y < 0 ∨ j < 0 ∨ (f.set.cols : Int) ≤ j ∨ (8 * f.set.rowSlots : Nat) ≤ y then none
  else
    let yn := y.toNat
    let jn := j.toNat
    match t2 (yn / 8 + 1) with
    | none => none
    | some rows =>
      let x := (rows.getD (yn % 8) []).getD jn Px.none_
      if effFlags m bad f (pixIndex f.set (yn / 8 + 1) (yn % 8) jn) % 16 = 0 ∧ x.inv = false ∧ x.sat = false then some x.v else none

/-- The rounded mean of the valid sources among neighbours. -/
def srcMean (vs : List (Option Int)) : Option Int :=
  let l := vs.filterMap id
  if l.isEmpty then none else some (rdiv (l.foldl (· + ·) 0) l.length)

/-- Stipple replacement of a pixel (R80), with its CLU mark (R81). -/
def replacePx (m : Mems) (bad : List Nat) (f : Frame) (t2 : Nat → Option (List (List Px))) (slot p j : Nat) (x : Px) : Px :=
  let i := pixIndex f.set slot p j
  let fl := effFlags m bad f i
  let x := { x with clu := f.cluPix.contains i }
  let inv : Px := { x with v := -32768, inv := true }
  if fl.testBit 3 then inv
  else if !isDefect fl || !f.bit F.PIPE_ST_CTL_REPL_EN then x
  else
    let y : Int := (8 * (slot - 1) + p : Nat)
    let c : Int := j
    let s := srcVal m bad f t2
    let rep (v : Int) : Px := { x with v := v, sat := false, inv := false, repl := true }
    match srcMean [s (y - 1) c, s (y + 1) c, s y (c - 1), s y (c + 1)] with
    | some v => rep v
    | none =>
      match (if f.bit F.PIPE_ST_CTL_DIAG_EN then
          srcMean [s (y - 1) (c - 1), s (y - 1) (c + 1), s (y + 1) (c - 1), s (y + 1) (c + 1)] else none) with
      | some v => rep v
      | none => inv

/-- The noise gate (R89). -/
def gate (en : Bool) (g : Nat) (d : Int) : Int :=
  if !en then d
  else if d.natAbs ≤ g then 0
  else if d.natAbs < 2 * g then (if d < 0 then -1 else 1) * 2 * ((d.natAbs : Int) - g)
  else d

/-- Partial sum of the exponential of `r` in units of 2^-64, each term rounded down. -/
def expSum : Nat → Nat → Nat → Nat → Nat → Nat
  | 0, _, _, _, acc => acc
  | k + 1, n, r, term, acc => let t := term * r / 2 ^ 64 / (n + 1); expSum k (n + 1) r t (acc + t)

/-- The values that `k` may take for an interval and a time constant code: those that an error of the exponential below
2^-20 gives (R88). -/
def burinRange (delta tau b : Nat) : Nat × Nat :=
  if 12000 * tau ≤ delta then (0, 0)
  else
    let e := expSum 80 0 (delta * 2 ^ 64 / (1000 * tau)) (2 ^ 64) (2 ^ 64)
    let lo : Rat := (e : Rat) * (1 - 1 / 2 ^ 20) / 2 ^ 64 - 1
    let hi : Rat := ((e + 2 ^ 24 : Nat) : Rat) * (1 + 1 / 2 ^ 20) / 2 ^ 64 - 1
    let k (q : Rat) : Nat := if q ≤ 0 then 65535 else Nat.min 65535 (rround (16 * (b : Rat) / q)).toNat
    (k hi, k lo)

/-- The weight k of R88: where the allowed error leaves more than one value it is free (log 5). -/
def burinWeight (delta tau b : Nat) : Nat :=
  let q := burinRange delta tau b
  Nat.min q.2 (Nat.max q.1 (Config.burinK delta tau b))

/-- The tag of a frame (R92). -/
def Frame.tag (f : Frame) : BuTag := ⟨f.plateSeq, f.set.tint, f.set.bias, f.set.skim, f.set.gain⟩

/-- The midpoint stamp of a slot (R34). -/
def Frame.mid (f : Frame) (slot : Nat) : Nat := f.b + slot * f.set.tslot + f.set.tint / 2

/-- The QDR word that holds the Burin state of pixel `i`. -/
def burinWord (i : Nat) : Nat := burinAddr i / 32

/-- The Burin stage on one pixel: output, and counts of restarts and gated pixels (R86 to R92). -/
def burinPx (m : Mems) (d : Dev) (f : Frame) (slot i : Nat) (x : Px) : Px × Nat × Nat :=
  let prev := (d.burin.px.find? (fun q => q.1 == i)).map (·.2)
  let key := (i / 2560 / 8) * 80 + i % 2560 / 32
  let stamp := d.burin.stamps.find? (fun q => q.1 == key)
  match prev, stamp with
  | some q, some (_, t, tag) =>
    if tag != f.tag || q.bad || x.inv || x.sat || (q.repl != x.repl) || !f.bit F.PIPE_BU_CTL_EN ||
        d.store.qdrBad.contains (burinWord i) then (x, 1, 0)
    else
      let tau0 := entTau (plateEntry m f.region i)
      let tau := if x.repl ∨ tau0 < 100 then f.get F.PIPE_BU_TAUDEF_TAU else tau0
      let g := f.get F.PIPE_BU_GATE_G
      let df := x.v - q.y
      let k := burinWeight (f.mid slot - t) tau (f.get F.PIPE_BU_CTL_BETA)
      (x.clamp (x.v + rdiv ((k : Int) * gate (f.bit F.PIPE_BU_CTL_GATE_EN) g df) 4096), 0, b2n (decide (df.natAbs ≤ g)))
  | _, _ => (x, 1, 0)

/-- What radiometry answers for a pixel: its TAP4 value with marks, and whether it counts as saturated low or high. A curve
entry in an uncorrectable word gives no value (R273). -/
def radioPx (m : Mems) (bad : List Nat) (d : Dev) (f : Frame) (e trefl raw : Nat) (x : Px) : Px × Nat × Nat :=
  let range := f.set.gain
  let low := b2n (x.sat && raw == 0)
  let high := b2n (x.sat && raw == 16383)
  if d.curveSrc range = 0 then ({ x with v := 0, inv := true }, 0, 0)
  else if x.inv || x.sat then ({ x with v := 0 }, low, high)
  else
    let s0 := x.v - f.dm
    let s := clampI (-32767) 32767 s0
    let sen := f.bit F.PIPE_RAD_CTL_STAGE_EN
    let s' := stageRef m range sen f.stageT s
    if s ≠ s0 then ({ x with v := 0, sat := true }, 0, 0)
    else if sen && refBad bad range then ({ x with v := 0 }, 0, 0)
    else if stageClamped m range sen f.stageT s then ({ x with v := 0, sat := true }, 0, 0)
    else
      let out (q : Found) : Px × Nat × Nat :=
        match q with
        | .t v => ({ x with v := v.floor }, 0, 0)
        | .low => ({ x with v := 0, sat := true }, 1, 0)
        | .high => ({ x with v := 0, sat := true }, 0, 1)
        | .lost => ({ x with v := 0 }, 0, 0)
      match bbTemp m bad range s' with
      | .t v => out (objTemp m bad range (f.bit F.PIPE_RAD_CTL_EPS_EN) e trefl v)
      | q => out q

/-- Emissivity code and reflected temperature of a column at a sample's coordinate (R107). -/
def emisAt (d : Dev) (f : Frame) (x : Nat) (c : Nat) : Nat × Nat :=
  let dflt := (f.get F.PIPE_RAD_EPS_DEF_EPS, f.get F.PIPE_RAD_TREFL_DEF_T)
  match d.gridAt x with
  | none => dflt
  | some g =>
    match d.prof g.prof with
    | none => dflt
    | some b =>
      match laneAt (lanesOf b) (d.geoX c) with
      | some l => match (lanesOf b)[l]? with | some a => (a.eps, a.trefl) | none => dflt
      | none => dflt

/-- The band of a window column group (R128). -/
def bandOf (n g : Nat) : Nat :=
  let b := Nat.min 16 n
  ((List.range b).find? (fun k => decide (g < (k + 1) * n / b))).getD 0

/-- What the proof in progress takes from a slot of one of its averaged or fitted frames. -/
def proofTakes (m : Mems) (f : Frame) (slot : Nat) (t2 : List (List Px)) (ws : List (List Int)) (d : Dev) : Dev :=
  match d.proof.run with
  | none => d
  | some r =>
    let idx : List (Nat × Nat) := (List.range 8).flatMap (fun p => (List.range f.set.cols).map (fun j => (p, j)))
    let px (p j : Nat) : Px := (t2.getD p []).getD j Px.none_
    let good (p j : Nat) : Bool := !(px p j).inv && !(px p j).sat
    let oper (p j : Nat) : Bool := !isDefect (effFlags m d.store.qdrBad f (pixIndex f.set slot p j))
    if r.frames.any (fun q => q.1 == f.cnt) then
      let sums := idx.foldl (fun t q =>
        if good q.1 q.2 then
          let i := pixIndex f.set slot q.1 q.2
          let w := (ws.getD q.1 []).getD (8 + q.2) 0
          let o := Tab.get (⟨0, 0, 0⟩ : PixSum) t i
          Tab.ins t i ⟨o.sum + w, o.sq + w * w, o.n + 1⟩
        else t) r.sums
      let add (bs : List BandSum) (b : Nat) (v : Int) : List BandSum :=
        if bs.any (fun x => x.frame == f.cnt && x.band == b) then
          updIf bs (fun x => x.frame == f.cnt && x.band == b) (fun x => { x with sum := x.sum + v, n := x.n + 1 })
        else bs ++ [⟨f.cnt, b, v, 1⟩]
      let bands := idx.foldl (fun bs q =>
        if good q.1 q.2 && oper q.1 q.2 then add bs (bandOf f.set.cgCount (q.2 / 32)) (px q.1 q.2).v else bs) r.bands
      d.onProof fun z => { z with run := some { r with sums := sums, bands := bands } }
    else if r.fit.any (fun q => q.cnt == f.cnt) then
      let ys := (idx.filter (fun q => good q.1 q.2 && oper q.1 q.2)).map (fun q => (pixIndex f.set slot q.1 q.2, (px q.1 q.2).v))
      d.onProof fun z => { z with run := some { r with fit := updIf r.fit (fun q => q.cnt == f.cnt) (fun q => { q with y := q.y ++ ys }) } }
    else d

/-- Results of one pixel through steps 3 to 6, with its counts. -/
structure PxOut where
  t3 : Px
  t4 : Px
  bu : BuPx
  restart : Nat
  gated : Nat
  low : Nat
  high : Nat
  /-- Lost to an uncorrectable word of the plate or the curve (R156, R273). -/
  gone : Bool

/-- One pixel of a slot from its TAP2 value to TAP4. A pixel that stipple replacement renewed counts as saturated neither low nor
high whatever its raw count was (log 83). -/
def pixelOut (m : Mems) (d : Dev) (f : Frame) (t2 : Nat → Option (List (List Px))) (slot p j raw coord : Nat) (x : Px) : PxOut :=
  let i := pixIndex f.set slot p j
  let y := replacePx m d.store.qdrBad f t2 slot p j x
  let b := burinPx m d f slot i y
  let em := emisAt d f coord (i % 2560)
  let bad := d.store.qdrBad
  let r := radioPx m bad d f em.1 em.2 (if y.repl then 1 else raw) b.1
  let gone := !bad.isEmpty && (bad.contains (entAddr f.region / 32 + i / 4) ||
    (r.1.v == 0 && (radioPx m [] d f em.1 em.2 (if y.repl then 1 else raw) b.1).1.v != 0))
  ⟨b.1, r.1, ⟨y.v, y.repl, y.inv || y.sat⟩, b.2.1, b.2.2, r.2.1, r.2.2, gone⟩

/-- Every window pixel of a slot. -/
def slotOut (m : Mems) (d : Dev) (f : Frame) (slot : Nat) (x : SlotX) (rows : List (List Px)) : List (List PxOut) :=
  let t2 (s : Nat) : Option (List (List Px)) := if s = slot then some rows else tap2Of m d.store.qdrBad f s
  (List.range 8).map (fun p =>
    let coord := d.rowCoord f slot (8 * (f.set.rowFirst + slot - 1) + p)
    (List.range f.set.cols).map (fun j =>
      pixelOut m d f t2 slot p j ((x.tap0.getD p []).getD (8 + j) 0) coord ((rows.getD p []).getD j Px.none_)))

/-- The sixteen pixels of a word of the internal path that could not be corrected have no value (R9, R271). -/
def pathLost (path : List PathIn) (rows : List (List Px)) : List (List Px) :=
  rows.zipIdx.map (fun q => q.1.zipIdx.map (fun x =>
    if path.any (fun w => w.row == q.2 && w.num == x.2 / 16 && (pathDecode w.code).isNone) then { x.1 with v := 0, inv := true } else x.1))

/-- SLOT_AT_TAP4: an active slot has all of its pixels at TAP4. It needs the next slot's TAP2 values where there is one
(R10, R80). `path` are the words of the internal path that came with errors. -/
def slotAtTap4 (m : Mems) (cnt slot : Nat) (path : List PathIn) (d : Dev) : Dev :=
  match d.frame cnt with
  | none => d
  | some f =>
    match f.slots.find? (fun x => x.slot == slot) with
    | none => d
    | some x =>
      if slot = 0 ∨ x.lost ∨ x.done ∨ (slot < f.set.rowSlots ∧ f.cut ≠ some (slot + 1) ∧ ¬ f.slots.any (fun y => y.slot == slot + 1)) then d
      else
        match tap2Of m d.store.qdrBad f slot with
        | none => d
        | some rows =>
          let out := slotOut m d f slot x rows
          let all := out.flatten
          let sum (g : PxOut → Nat) : Nat := (all.map g).foldl (· + ·) 0
          let tap4 := pathLost path (out.map (fun r => r.map (·.t4)))
          let gone := (out.zipIdx.flatMap (fun r => (r.1.zipIdx.filter (fun q => q.1.gone)).map (fun q => (r.2, q.2)))) ++
            ((path.filter (fun w => (pathDecode w.code).isNone)).flatMap (fun w => (List.range 16).map (fun i => (w.row, 16 * w.num + i))))
          let fc : FrameCnt := ⟨f.fc.restart + sum (·.restart), f.fc.gated + sum (·.gated), f.fc.total + all.length,
            f.fc.satLow + sum (·.low), f.fc.satHigh + sum (·.high), f.fc.noval + tap4.flatten.countP (fun q => q.v == 0),
            f.fc.invalid + all.countP (fun q => q.bu.bad && q.t3.inv)⟩
          let x' := { x with tap2 := rows, tap3 := out.map (fun r => r.map (·.t3)), tap4 := tap4, done := true
                             uncorr := x.uncorr || !gone.isEmpty, uncPix := gone }
          let f' := { f with slots := updIf f.slots (fun y => y.slot == slot) (fun _ => x'), fc := fc }
          let idx := all.zipIdx.map (fun q => (pixIndex f.set slot (q.2 / f.set.cols) (q.2 % f.set.cols), q.1.bu))
          let keys := (List.range f.set.cgCount).map (fun g => (f.set.rowFirst + slot - 1) * 80 + f.set.cgFirst + g)
          let d := d.onBurin fun z => { z with
            px := idx.foldl (fun t q => Tab.ins t q.1 q.2) z.px
            stamps := z.stamps.filter (fun q => !keys.contains q.1) ++ keys.map (fun k => (k, f.mid slot, f.tag)) }
          let d := d.onStore fun z => { z with qdrBad := z.qdrBad.filter (fun w => !idx.any (fun q => burinWord q.1 == w)) }
          let d := path.foldl (fun d w => d.pathRead w.lane w.code) d
          proofTakes m f slot rows x.w (d.putFrame f')

/-- The QDR words that a slot reads of the plate and of the Burin state. -/
def slotWords (f : Frame) (slot : Nat) : List Nat :=
  ((List.range 8).flatMap (fun p => (List.range (f.set.cols / 4)).map (fun j => entAddr f.region / 32 + pixIndex f.set slot p (4 * j) / 4))) ++
  ((List.range 8).flatMap (fun p => (List.range (f.set.cols / 8)).map (fun j => burinWord (pixIndex f.set slot p (8 * j)))))

/-- The functional reads of a slot: words that were uncorrectable before, and the bursts that came back with errors. -/
def slotReads (f slot : Nat) (reads : List BurstIn) (s : State) : State :=
  funcReads reads (s.onDev (fun d => if d.store.qdrBad.isEmpty then d else match d.frame f with
    | some x => d.badSeen (slotWords x slot) | none => d))

end Sys2Proof.Machine
end

