-- ==== Sys2Proof/Machine/Wire.lean ====
section
/-! DEFINITION. Egress queues of the Jartan ports, the sending of flits, and the blocks that carry them (R176 to R178, R180, R183,
R189, R192). -/

namespace Sys2Proof.Machine

/-- A port beside its registers. -/
def Dev.port (d : Dev) (p : Nat) : PortX := d.link.ports.getD p PortX.reset

/-- Replace a port's part. -/
def Dev.putPort (d : Dev) (p : Nat) (x : PortX) : Dev := d.onLink fun z => { z with ports := z.ports.set p x }

/-- State of a port: 0 OFF, 1 DETECT, 2 TRAIN, 3 ALIGN, 4 UP. -/
def Dev.portState (d : Dev) (p : Nat) : Nat := d.get (F.LINK_P_STAT_STATE.at p)

/-- A port is UP and its hop is listed (R185, R188). -/
def Dev.portListed (d : Dev) (p : Nat) : Bool := d.portState p == 4 && d.bit (F.LINK_P_STAT_LISTED.at p)

/-- The module belongs to a stand with a map; otherwise it is a stand of one (R203). -/
def Dev.inStand (d : Dev) : Bool := d.bit F.STAND_CTL_EN && d.stand.map.isSome

/-- The module is the root of its stand, or a stand of one. -/
def Dev.isRoot (d : Dev) : Bool := !d.inStand || d.get F.STAND_STAT_ROLE == 1

/-- The map entry of a slot. -/
def Dev.ent (d : Dev) (s : Nat) : Option MapEnt := d.stand.map.bind (fun m => m.ents[s]?)

/-- The map entry of this module's slot. -/
def Dev.selfEnt (d : Dev) : Option MapEnt := if d.inStand then d.ent (d.get F.STAND_STAT_SLOT) else none

/-- The offset of this module's coordinates below the stand's (R221). -/
def Dev.wOfs (d : Dev) : Int := match d.selfEnt with | some e => e.wofs | none => 0

/-- Slot `s` is alive: this module's own, or heard within `DEAD_MS`. -/
def Dev.alive (d : Dev) (s : Nat) : Bool := s == d.get F.STAND_STAT_SLOT || (d.get F.STAND_ALIVE_MAP).testBit s

/-- The port of an index. -/
def portOf (p : Nat) : Port := if p = 0 then .east else if p = 1 then .west else .up

/-- route[s] as a port index, if slot `s` is reached through a port (R188). -/
def Dev.routeTo (d : Dev) (s : Nat) : Option Nat :=
  let r := d.get F.LINK_ROUTE_ROUTE / 4 ^ s % 4
  if r = 0 then none else some (r - 1)

/-- The queue class of a flit type (R192). -/
def qClass (type : Nat) : Nat :=
  if type = 5 ∨ type = 6 then 0 else if type = 1 then 2 else if type = 3 then 3 else if type = 2 then 4 else 1

/-- Depth of a queue class (R192). -/
def qDepth (c : Nat) : Nat := [16, 64, 2048, 256, 4096].getD c 0

/-- Put a flit of the module's own origin into a port's queue. -/
def Dev.enqOwn (d : Dev) (p : Nat) (f : Flit) : Dev :=
  let x := d.port p
  let c := qClass f.type
  let q := x.qs.getD c ⟨[], [], false⟩
  d.putPort p { x with qs := x.qs.set c { q with own := q.own ++ [f] } }

/-- A flit is LOCAL. -/
def flitLocal (f : Flit) : Bool := f.flags / 8 % 2 == 1

/-- A resuming module sends HEART and LOCAL flits only (R327). -/
def Dev.silenced (d : Dev) (f : Flit) : Bool := d.stand.quiet && f.type != 7 && !flitLocal f

/-- The slot behind a port in role U DOWN is assigned in the stand map (R185). -/
def Dev.subHasSlot (d : Dev) : Bool :=
  d.link.branches.any (fun b => b.1 == d.get F.STAND_STAT_SLOT &&
    (match d.ent b.2 with | some e => e.kind != 0 && e.kind != 4 && e.id != 0 | none => false))

/-- A port carries only LOCAL flits: a miswired link, and a U port in role DOWN until the sub-stand behind it has a slot (R174,
R185). -/
def Dev.localOnly (d : Dev) (p : Nat) : Bool :=
  d.bit (F.LINK_P_STAT_MISWIRED.at p) || (p == 2 && d.get F.LINK_HP_STAT_MODE_ACT == 2 && !d.subHasSlot)

/-- Send a flit of the module's own origin on a port. Under a new epoch it waits until the Keep is written (R204, R209). -/
def Dev.pushOwn (d : Dev) (p : Nat) (f : Flit) : Dev :=
  if d.silenced f || (d.localOnly p && !flitLocal f) then d
  else if d.stand.hold && !flitLocal f then d.onStand fun z => { z with held := z.held ++ [(p, f)] }
  else d.enqOwn p f

/-- The Keep holds the new epoch: what waited for it is sent (R204, R209). -/
def Dev.releaseHeld (d : Dev) : Dev :=
  let l := d.stand.held
  l.foldl (fun d q => d.enqOwn q.1 q.2) (d.onStand fun z => { z with hold := false, held := [] })

/-- Put a forwarded flit into a port's queue; a full queue drops and counts it (R192). -/
def Dev.pushFwd (d : Dev) (p : Nat) (f : Flit) : Dev :=
  let x := d.port p
  let c := qClass f.type
  let q := x.qs.getD c ⟨[], [], false⟩
  if d.silenced f || (d.localOnly p && !flitLocal f) then d
  else if qDepth c ≤ q.fwd.length + q.own.length then d.inc (F.LINK_P_DROP_CNT.at p)
  else d.putPort p { x with qs := x.qs.set c { q with fwd := q.fwd ++ [f] } }

/-- The next SEQ of a type and the state after it (R183). -/
def Dev.nextSeq (d : Dev) (type : Nat) : Nat × Dev :=
  let s := (assoc d.link.seqTx type).getD 0
  (s, d.onLink fun z => { z with seqTx := (type, (s + 1) % 1024) :: z.seqTx.filter (fun p => p.1 != type) })

/-- A flit's header fields for this module. -/
def Dev.mkFlit (d : Dev) (type seq flags : Nat) (payload : List Byte) : Flit :=
  ⟨type, d.get F.STAND_STAT_SLOT, d.get F.STAND_EPOCH_EPOCH % 256, seq, flags, slice payload 0 28⟩

/-- Send a LOCAL flit on a port: FIRST and LAST set, no SEQ of the numbering (R180, R183). -/
def Dev.sendLocal (d : Dev) (p type seq : Nat) (payload : List Byte) : Dev := d.pushOwn p (d.mkFlit type seq 0xB payload)

/-- Send a BCAST flit on every UP port with a listed hop (R189). -/
def Dev.bcast (d : Dev) (type : Nat) (fl : Nat) (payload : List Byte) : Dev :=
  let q := d.nextSeq type
  let f := q.2.mkFlit type q.1 (4 + fl) payload
  (List.range 3).foldl (fun d p => if d.portListed p then d.pushOwn p f else d) q.2

/-- Send a flit to the root (R189); an unreachable root takes none. -/
def Dev.toRoot (d : Dev) (type : Nat) (fl : Nat) (payload : List Byte) : Dev :=
  match d.routeTo (d.get F.STAND_ROLES_ROOT) with
  | none => d
  | some p =>
    let q := d.nextSeq type
    q.2.pushOwn p (q.2.mkFlit type q.1 fl payload)

/-- Cut a message into payloads of 28 bytes. -/
def chunks28 : Nat → List Byte → List (List Byte)
  | 0, _ => []
  | n + 1, bs => if bs.length ≤ 28 then [bs] else bs.take 28 :: chunks28 n (bs.drop 28)

/-- FIRST and LAST of flit `i` of `n`. -/
def flFlags (i n : Nat) : Nat := (if i = 0 then 1 else 0) + (if i + 1 = n then 2 else 0)

/-- Broadcast a message of several flits. -/
def Dev.bcastMsg (d : Dev) (type : Nat) (ps : List (List Byte)) : Dev :=
  ps.zipIdx.foldl (fun d q => d.bcast type (flFlags q.2 ps.length) q.1) d

/-- Send a message of several flits to the root. -/
def Dev.toRootMsg (d : Dev) (type : Nat) (ps : List (List Byte)) : Dev :=
  ps.zipIdx.foldl (fun d q => d.toRoot type (flFlags q.2 ps.length) q.1) d

/-- A CTRL payload (R216): subtype, target slot, transaction number, content. -/
def ctrl (sub slot txn : Nat) (content : List Byte) : List Byte :=
  leBytes 1 sub ++ leBytes 1 slot ++ leBytes 2 txn ++ slice content 0 24

/-- CTRL payloads of a message whose content is longer than one flit: the header is repeated in every flit. -/
def ctrlMsg (sub slot txn : Nat) (content : List Byte) : List (List Byte) :=
  (List.range (Nat.max 1 (cdiv content.length 24))).map (fun i => ctrl sub slot txn (slice content (24 * i) 24))

/-- The next flit a queue sends: own and forwarded flits alternate (R192). -/
def EgQ.pop (q : EgQ) : Option (Flit × EgQ) :=
  match q.own, q.fwd, q.ownLast with
  | [], [], _ => none
  | o :: os, [], _ => some (o, { q with own := os, ownLast := true })
  | [], f :: fs, _ => some (f, { q with fwd := fs, ownLast := false })
  | o :: os, _ :: _, false => some (o, { q with own := os, ownLast := true })
  | _ :: _, f :: fs, true => some (f, { q with fwd := fs, ownLast := false })

/-- A SYNC flit at its egress stamp `st`, in 1/65,536 tick: the time master's TIME flit takes it as ORIGIN, a forwarded one adds it to
CORR, a DREQ takes it as t1, a DRESP adds it to t3 − t2 (R194, R195). -/
def stampOut (st : Nat) (fwd : Bool) (f : Flit) : Flit :=
  let stamp := leBytes 8 (st / 65536) ++ leBytes 2 (st % 65536)
  let sub := leAt f.payload 0 1
  if f.type ≠ 5 then f
  else if (sub = 1 ∧ fwd = false) ∨ sub = 2 then { f with payload := slice f.payload 0 4 ++ stamp ++ slice f.payload 14 14 }
  else if sub = 1 ∨ sub = 3 then { f with payload := slice f.payload 0 16 ++ leBytes 8 (leAt f.payload 16 8 + st) ++ slice f.payload 24 4 }
  else f

/-! ### Flits as bytes, pairs as blocks (R176 to R178) -/

/-- The header of a flit. -/
def flitHeader (f : Flit) : Nat := f.type % 16 + 16 * (f.src % 64) + 1024 * (f.epoch % 256) + 2 ^ 18 * (f.seq % 1024) + 2 ^ 28 * (f.flags % 16)

/-- The 36 bytes of a flit: header, payload, check symbols. -/
def flitBytes (f : Flit) : List Byte := hatchEncode (leBytes 4 (flitHeader f) ++ slice f.payload 0 28)

/-- The flit of an empty position: payload 0, LOCAL. -/
def Dev.idleFlit (d : Dev) : Flit := d.mkFlit 0 0 8 []

/-- A bit through the scrambler x⁵⁸ + x³⁹ + 1: the state holds the last 58 bits sent, the newest in bit 0. -/
def scrambleBit (s : Nat) (b : Bool) : Nat × Bool :=
  let o := b != (s.testBit 38 != s.testBit 57)
  ((2 * s + b2n o) % 2 ^ 58, o)

/-- 64 payload bits through the scrambler, bit 0 first. -/
def scramble (s v : Nat) : Nat × Nat :=
  (List.range 64).foldl (fun q i => let r := scrambleBit q.1 (v.testBit i); (r.1, q.2 + b2n r.2 * 2 ^ i)) (s, 0)

/-- A block on a lane, its sync header in bits 0 and 1: 0b01 for data, 0b10 for control. -/
def PortX.block (x : PortX) (lane sync v : Nat) : PortX × (Nat × BitVec 66) :=
  let q := scramble (x.scr.getD lane 0) v
  ({ x with scr := x.scr.set lane q.1 }, (lane, BitVec.ofNat 66 (sync + 4 * q.2)))

/-- Blocks sent one after another: lane, sync header, payload. -/
def PortX.sendBlocks (x : PortX) (bs : List (Nat × Nat × Nat)) : PortX × List (Nat × BitVec 66) :=
  bs.foldl (fun q b => let r := q.1.block b.1 b.2.1 b.2.2; (r.1, q.2 ++ [r.2])) (x, [])

/-- The physical lane of the n-th data block after a control group: round robin over the lanes in use, ascending. -/
def laneOf (mask n : Nat) : Nat := let ls := bitsOf 4 mask; ls.getD (n % ls.length) 0

/-- The lane that carried byte `i` of a received flit: the pair's first block was number `n` after a control group. -/
def byteLane (mask n : Nat) (second : Bool) (i : Nat) : Nat := laneOf mask (n + ((if second then 36 else 0) + i) / 8)

/-- The nine data blocks of a pair. -/
def PortX.pairBlocks (x : PortX) (b : List Byte) : List (Nat × Nat × Nat) :=
  (List.range 9).map (fun k => (laneOf x.txMask (x.txN + k), 1, leAt b (8 * k) 8))

/-- A control group: one block on every lane in use, its content given by the logical lane. -/
def PortX.groupBlocks (x : PortX) (kind : Nat) (content : Nat → List Byte) : List (Nat × Nat × Nat) :=
  (bitsOf 4 x.txMask).zipIdx.map (fun q => (q.1, 2, leAt (leBytes 1 0x4B ++ leBytes 1 kind ++ slice (content q.2) 0 6) 0 8))

/-- A port's own code, as the far end is told it: 0 E, 1 W, 2 U UP, 3 U DOWN. -/
def Dev.portCode (d : Dev) (p : Nat) : Nat := if p = 2 ∧ d.get F.LINK_HP_STAT_MODE_ACT = 2 then 3 else p

/-- The groups that name this module: the low and the high half of its unique ID, the port's code, the slot and the epoch. -/
def Dev.hiGroups (d : Dev) (p : Nat) (x : PortX) : List (Nat × Nat × Nat) :=
  let id := d.get F.STAND_SELF_ID_ID
  x.groupBlocks 3 (fun _ => leBytes 4 (id % 2 ^ 32) ++ leBytes 1 (d.portCode p) ++ leBytes 1 (d.get F.STAND_EPOCH_EPOCH % 256)) ++
    x.groupBlocks 4 (fun _ => leBytes 4 (id / 2 ^ 32) ++ leBytes 1 (d.get F.STAND_STAT_SLOT))

/-- An LM group's content: mask in use, mask requested, acknowledge bit, pair counter of the switch. -/
def lmContent (use_ req : Nat) (ack : Bool) (cnt : Nat) : List Byte :=
  leBytes 1 use_ ++ leBytes 1 req ++ leBytes 1 (b2n ack) ++ leBytes 2 cnt

/-- The control groups at an AM period's begin (R177, R186): an LM group in place of the AM group while a lane change goes on, a request
naming a pair at least 64 ahead; HI_LO and HI_HI in ALIGN and with every tenth AM group. -/
def Dev.sendGroups (d : Dev) (p : Nat) : Dev :=
  let x := d.port p
  let hi := if d.portState p = 3 ∨ x.amN % 10 = 9 then d.hiGroups p x else []
  let am := x.groupBlocks 1 (fun i => leBytes 1 i ++ leBytes 2 x.pairTx)
  let q : PortX × List (Nat × Nat × Nat) :=
    match x.ackTx, x.chgRx with
    | some a, _ => ({ x with ackTx := none }, x.groupBlocks 2 (fun _ => lmContent x.txMask a.1 true a.2))
    | none, some c =>
      if c.ack then ({ x with amN := x.amN + 1 }, am ++ hi)
      else
        let cnt := if (c.cnt + 65536 - x.pairRx) % 65536 < 64 ∨ 32768 ≤ (c.cnt + 65536 - x.pairRx) % 65536 then (x.pairRx + 4096) % 65536 else c.cnt
        ({ x with chgRx := some { c with cnt := cnt } }, x.groupBlocks 2 (fun _ => lmContent x.rxMask c.mask false cnt))
    | none, none => ({ x with amN := x.amN + 1 }, am ++ hi)
  let r := q.1.sendBlocks q.2
  (d.putPort p { r.1 with txN := 0, txTot := q.2.length, busy := x.busy + 11 * q.2.length, amN := r.1.amN % 10 }).emit
    (.blocks (portOf p) r.2)

/-- The next flit of an UP port and whether it is forwarded: the head of the highest non-empty queue, else IDLE (R176, R192). -/
def Dev.nextFlit (d : Dev) (p : Nat) : (Flit × Bool) × Dev :=
  let x := d.port p
  match if d.portState p = 4 then (List.range 5).find? (fun c => ((x.qs.getD c ⟨[], [], false⟩).pop).isSome) else none with
  | none => ((d.idleFlit, false), d)
  | some c =>
    match (x.qs.getD c ⟨[], [], false⟩).pop with
    | none => ((d.idleFlit, false), d)
    | some (f, q) => ((f, !q.ownLast), d.putPort p { x with qs := x.qs.set c q })

/-- A flit leaves with the stamp `st` of its first block; a DREQ's stamp is kept (R194). -/
def Dev.flitOut (d : Dev) (p st : Nat) (q : Flit × Bool) : List Byte × Dev :=
  let f := stampOut st q.2 q.1
  (flitBytes f, if f.type = 5 ∧ leAt f.payload 0 1 = 2 then d.putPort p { d.port p with dreq := some (st / 65536, st % 65536, f.seq) } else d)

/-- Send a pair: two flits in nine data blocks; `st` gives the stamp of a block (R176). -/
def Dev.sendPair (d : Dev) (p : Nat) (st : Nat → Nat) : Dev :=
  let a := d.nextFlit p
  let b := a.2.nextFlit p
  let u := b.2.flitOut p (st 0) a.1
  let v := u.2.flitOut p (st 4) b.1
  let x := v.2.port p
  let r := x.sendBlocks (x.pairBlocks (u.1 ++ v.1))
  (v.2.putPort p { r.1 with txN := x.txN + 9, txTot := x.txTot + 9, busy := x.busy + 99, pairTx := (x.pairTx + 1) % 65536 }).emit (.blocks (portOf p) r.2)

/-- What a port begins to send within one tick, in which each lane carries 32/11 blocks. -/
def Dev.sendStream (p : Nat) : Nat → Dev → Dev
  | 0, d => d
  | n + 1, d =>
    let x := d.port p
    let l := popcount 4 x.txMask
    if 32 * l ≤ x.busy then d
    else
      let st (k : Nat) : Nat := 65536 * d.t + 1024 * (64 * (x.busy + 11 * k) / (32 * l))
      Dev.sendStream p n (if 4096 * l ≤ x.txTot then d.sendGroups p else d.sendPair p st)

/-- One tick of a port's streams: 19.2 Gb/s a lane, 66 bits a block (R176, R177). The pairs received are counted at the same rate. -/
def Dev.sendTick (d : Dev) (p : Nat) : Dev :=
  let st := d.portState p
  if st ≠ 4 ∧ st ≠ 3 then d
  else
    let d := Dev.sendStream p 4 d
    let x := d.port p
    let a := x.rxAcc + 32 * 4095 * popcount 4 x.rxMask
    d.putPort p { x with busy := x.busy - 32 * popcount 4 x.txMask, rxAcc := a % 405504, pairRx := (x.pairRx + a / 405504) % 65536 }

end Sys2Proof.Machine
end

