-- ==== Sys2Proof/Machine/Blade.lean ====
section
/-! DEFINITION. The shutter drive and its sensing, proof requests, the start and the abort of a proof (R115 to R118, R121,
R122, R127, R134 to R136). -/

namespace Sys2Proof.Machine

/-- Ticks of a field given in milliseconds. -/
def Dev.msOf (d : Dev) (f : Fld) : Nat := d.get f * msT

/-! ### Shutter (R115 to R118) -/

/-- An open line without the samples of the frame that fed it last. -/
def Line.undo (l : Line) (w : LineWas) : Line :=
  { l with depth := w.depth, flags := w.flags, genLo := w.genLo, genHi := w.genHi, cls := w.cls, px := w.px, was := none }

/-- A frame in progress carries SHUTTER from the start of a closure on, and feeds no accumulation: the open lines lose its
samples (R130). -/
def Dev.markShutter (d : Dev) : Dev :=
  let now (f : Frame) : Bool := decide (f.b ≤ d.t ∧ d.t < f.b + f.set.period)
  let cnts := (d.fpa.frames.filter now).map (·.cnt)
  let d := d.onFpa fun z => { z with frames := updIf z.frames now (fun f => { f with shutter := true }) }
  d.onWeb fun z => { z with lines := z.lines.map (fun l => match l.was with
    | some w => if cnts.contains w.cnt then l.undo w else l
    | none => l) }

/-- Start a drive, replacing any drive in progress (R115). -/
def Dev.startDrive (d : Dev) (close : Bool) (tries : Nat) : Dev :=
  let d := d.onProof fun z => { z with
    drive := some ⟨close, d.t, tries, true, false, false⟩
    closure := if close && z.closure.isNone then some d.t else z.closure }
  let d := if d.get F.PROOF_SHUT_STAT_STATE = 4 then d else d.put F.PROOF_SHUT_STAT_STATE (if close then 1 else 3)
  if close then d.markShutter else d

/-- The hold modulation of a close drive begun at `t0`: 20 kHz, high for `HOLD_DUTY` / 256 of each 5000 ticks, counted from the end
of the pulse (R116; the phase is a DESIGN CHOICE, log 43). -/
def Dev.holdLevel (d : Dev) (t0 : Nat) : Bool :=
  decide (256 * ((d.t - (t0 + d.msOf F.PROOF_SHUT_TIME_PULSE)) % 5000) < 5000 * d.get F.PROOF_SHUT_TIME_HOLD_DUTY)

/-- The levels of SHUT_A and SHUT_B: idle unless a drive or the hold of a closed blade drives them (R115, R116). -/
def Dev.shutPins (d : Dev) : Bool × Bool :=
  let ab : Bool × Bool :=
    match d.proof.drive with
    | some v =>
      if !d.bit F.PROOF_SHUT_CTL_EN then (false, false)
      else if v.driving then (v.close, !v.close)
      else if v.close && d.bit F.PROOF_SHUT_CTL_HOLD then (d.holdLevel v.t0, false)
      else (false, false)
    | none => (false, false)
  if d.bit F.PROOF_SHUT_CTL_SWAP then (ab.2, ab.1) else ab

/-- Asserted level of sense input `i` and the tick at which it took it. -/
def Dev.posAss (d : Dev) (i : Nat) : Bool × Nat :=
  let q := d.proof.pos.getD i (false, 0)
  (q.1 == (if i = 0 then d.bit F.PROOF_SHUT_CTL_POS0_POL else d.bit F.PROOF_SHUT_CTL_POS1_POL), q.2)

/-- The tick at which the drive in progress is sensed at its target, if the present levels give one (R117). -/
def Dev.senseTick (d : Dev) (v : Drive) : Option Nat :=
  let a0 := d.posAss 0
  let a1 := d.posAss 1
  let cnt (t : Nat) : Nat := Nat.max t v.t0 + msT
  match d.get F.PROOF_SHUT_CTL_SENSE with
  | 0 => some (v.t0 + d.msOf F.PROOF_SHUT_TIME_MOVE_MAX)
  | 1 =>
    if v.close then (if a0.1 then some (cnt a0.2) else none)
    else if !a0.1 then some (cnt a0.2 + d.msOf F.PROOF_SHUT_TIME_PULSE) else none
  | _ =>
    if v.close then (if a0.1 && !a1.1 then some (Nat.max (cnt a0.2) (cnt a1.2)) else none)
    else if a1.1 && !a0.1 then some (Nat.max (cnt a0.2) (cnt a1.2)) else none

/-- The drive in progress is sensed by now, within the travel limit. -/
def Dev.sensedNow (d : Dev) (v : Drive) : Bool :=
  match d.senseTick v with
  | some t => decide (t ≤ d.t ∧ t ≤ v.t0 + d.msOf F.PROOF_SHUT_TIME_MOVE_MAX)
  | none => false

/-- End the closure interval at this tick (R130). -/
def Dev.endClosure (d : Dev) : Dev :=
  d.onProof fun z => { z with closure := none, lastClosure := match z.closure with | some c => some (c, d.t) | none => z.lastClosure }

/-- Drop a drive that has been sensed and is no longer driven; a held close stays. -/
def Dev.dropDrive (d : Dev) : Dev :=
  d.onProof fun z => { z with drive := match z.drive with
    | some v => if v.sensed && !v.driving && !(v.close && d.bit F.PROOF_SHUT_CTL_HOLD) then none else some v
    | none => none }

/-- A drive is in progress: driven, or not yet sensed. -/
def Dev.driveBusy (d : Dev) : Bool := match d.proof.drive with | some v => v.driving || !v.sensed | none => false

/-- A drive is in progress, or a closed blade is held, which is part of its close drive (R116). -/
def Dev.driveOn (d : Dev) : Bool :=
  match d.proof.drive with | some v => v.driving || !v.sensed || (v.close && d.bit F.PROOF_SHUT_CTL_HOLD) | none => false

/-- Show the sense inputs, and follow how long both have been asserted (R117, R118). -/
def Dev.showPos (d : Dev) : Dev :=
  let a0 := (d.posAss 0).1
  let a1 := (d.posAss 1).1
  let d := (d.putBit F.PROOF_SHUT_STAT_POS0 a0).putBit F.PROOF_SHUT_STAT_POS1 a1
  d.onProof fun z => { z with
    bothT := if a0 && a1 then some (z.bothT.getD d.t) else none
    bothFault := z.bothFault && a0 && a1 }

/-! ### Requests and conditions (R121, R122, R134) -/

/-- The schedule has a window open at a tick (R131); a period of 0 gives a single window. -/
def schedOpenAt (start period dur t : Nat) : Bool :=
  if t < start then false
  else if period = 0 then decide (t - start < dur)
  else decide (period ≤ dur ∨ (t - start) % period < dur)

/-- A scheduled window is open at this tick. -/
def Dev.schedOpen (d : Dev) : Bool :=
  schedOpenAt (d.get F.PROOF_SCHED_START_T) (d.msOf F.PROOF_SCHED_PERIOD_MS) (d.msOf F.PROOF_SCHED_DUR_MS) d.t &&
    d.get F.PROOF_SCHED_DUR_MS != 0

/-- A window given by its begin and end is open at this tick: half open (R6). -/
def spanOpen (t : Nat) (o : Option (Nat × Nat)) : Bool := match o with | some (b, e) => decide (b ≤ t ∧ t < e) | none => false

/-- The windows open by source, as the bits of `SRC_EN` (R131): a source takes part while its bit is 1. -/
def Dev.gladeSrc (d : Dev) : Nat :=
  let g := d.glade
  let w := b2n g.inOpen + 2 * b2n g.spdOpen + 4 * b2n (spanOpen d.t g.decl) + 8 * b2n (spanOpen d.t g.prof) + 16 * b2n d.schedOpen
  w &&& d.get F.PROOF_GLADE_CTL_SRC_EN

/-- A relayed window is open and taken (R133). -/
def Dev.gladeRel (d : Dev) : Bool := d.glade.relay && d.bit F.PROOF_GLADE_CTL_RELAY

/-- Some window is open at this tick (R132). -/
def Dev.gladeIsOpen (d : Dev) : Bool := d.gladeSrc != 0 || d.gladeRel

/-- Proof age in operating seconds (R110). -/
def Dev.proofAge (d : Dev) : Nat := d.optime - d.get F.PIPE_DM_REF_OP_REF

/-- Raise request bit `b` (R121). -/
def Dev.request (d : Dev) (b : Nat) : Dev :=
  if (d.get F.PROOF_REQ_REQ).testBit b then d
  else (d.put F.PROOF_REQ_REQ (setB (d.get F.PROOF_REQ_REQ) b true)).onProof fun z => { z with reqT := z.reqT.filter (·.1 != b) ++ [(b, d.t)] }

/-- Clear a set of request bits. -/
def Dev.unrequest (d : Dev) (m : Nat) : Dev :=
  (d.put F.PROOF_REQ_REQ (d.get F.PROOF_REQ_REQ - (d.get F.PROOF_REQ_REQ &&& m))).onProof fun z => { z with reqT := z.reqT.filter (fun q => !m.testBit q.1) }

/-- The condition of R134. -/
def Dev.isOverdue (d : Dev) : Bool :=
  let lim := d.get F.PROOF_SCHED_OVERDUE_MIN
  decide (60 * lim ≤ d.proofAge) || d.proof.reqT.any (fun q => q.1 != 0 && decide (q.2 + lim * 60 * secT ≤ d.t))

/-- Show the condition of R134. -/
def Dev.showOverdue (d : Dev) : Dev := d.putBit F.PROOF_STAT_OVERDUE d.isOverdue

/-- The level of GLADE_OUT (R134): deasserted from the close drive of a proof on. -/
def Dev.gladeOut (d : Dev) : Bool := d.bit F.PROOF_STAT_OVERDUE && d.proof.run.isNone && d.proof.accepted.isNone

/-- A proof is running: from its close drive until it is accepted or aborted. -/
def Dev.proofRunning (d : Dev) : Bool := d.proof.run.isSome

/-- A request that needs no glade is set (R121). -/
def Dev.noGladeReq (d : Dev) : Bool :=
  let r := d.get F.PROOF_REQ_REQ
  r.testBit 2 || r.testBit 6 || (r.testBit 5 && d.bit F.PROOF_CTL_START_NOW)

/-- The kind a proof beginning now has: 0 GLADE, 1 FORCED, 2 IMMEDIATE (R122). -/
def Dev.proofKind (d : Dev) : Nat :=
  if (d.get F.PROOF_REQ_REQ).testBit 6 then 1 else if d.gladeIsOpen then 0 else 2

/-- This module's strip region is in use (R136): an imaging slot, or a standby that stands in for a vacated slot, or for no other
after a readmission (R209, R211). -/
def Dev.regionInUse (d : Dev) : Bool :=
  match d.stand.map with
  | none => false
  | some m =>
    match m.ents[d.get F.STAND_STAT_SLOT]? with
    | some e => e.kind == 1 || (e.kind == 2 && (e.cover == d.get F.STAND_STAT_SLOT ||
        (match m.ents[e.cover]? with | some c => c.kind == 4 | none => false)))
    | none => false

/-- The proof token is needed (R136). -/
def Dev.needToken (d : Dev) : Bool := d.regionInUse && d.proofKind != 0

/-- The stage is in REGULATED or FREE. -/
def Dev.stageGood (d : Dev) : Bool := [3, 6].contains (d.get F.FPA_STAGE_STAT_STATE)

/-- Every condition of R122 but those on SHADOW and the token. -/
def Dev.proofReady (d : Dev) : Bool :=
  let r := d.get F.PROOF_REQ_REQ
  r != 0 && (d.gladeIsOpen || d.noGladeReq) && d.bit F.PROOF_CTL_EN &&
  d.get F.PROOF_SHUT_STAT_STATE == 0 && d.bit F.FPA_CTL_RUN && d.fpa.pend.isNone && d.stageGood &&
  d.curveSrc d.fpa.set.gain != 0 && d.plateResident d.fpa.set.gain && !d.driveBusy && d.proof.closure.isNone &&
  d.proof.run.isNone

/-- Every condition of R122. -/
def Dev.proofConds (d : Dev) : Bool := d.proofReady && d.shadowFree && (!d.needToken || d.proof.token)

/-- Follow the conditions of R122: the tick at which the last became true, and the waits shown. -/
def Dev.trackProof (d : Dev) : Dev :=
  let ok := d.proofConds
  let d := d.onProof fun z => { z with condT := if ok then some (z.condT.getD d.t) else none }
  let d := d.putBit F.PROOF_STAT_SHADOW_WAIT (d.proofReady && !d.shadowFree && (!d.needToken || d.proof.token))
  d.putBit F.PROOF_STAT_TOKEN_WAIT (d.proofReady && d.needToken && !d.proof.token)

/-- Abort the proof in progress with a code (R127). -/
def Dev.proofAbort (d : Dev) (code : Nat) : Dev :=
  match d.proof.run with
  | none => d
  | some _ =>
    let d := (d.onProof fun z => { z with run := none }).put F.PROOF_STAT_PHASE 0
    let opening := match d.proof.drive with | some v => !v.close | none => false
    let d := if opening || d.proof.closure.isNone then d else d.startDrive false 0
    let d := if d.owner = 2 then d.releaseShadow else d
    let d := (d.put F.PROOF_STAT_ABORT code).inc F.PROOF_CNT_ABORT_CNT
    (d.event 0x0802 { arg0 := d.get F.PROOF_CNT_ABORT_CNT, arg1 := code }).showOverdue

/-- Abort before T_cp only (R127). -/
def Dev.abortEarly (d : Dev) (code : Nat) : Dev :=
  match d.proof.run with | some r => if r.tcp.isNone then d.proofAbort code else d | none => d

/-- Return the proof token to the root (R136): op 2 in the TOKEN flit. -/
def Dev.returnToken (d : Dev) : Dev :=
  if d.proof.token then
    let d := d.onProof fun z => { z with token := false }
    if d.get F.STAND_STAT_ROLE = 1 then d.onStand fun z => { z with tokHolder := none }
    else d.toRoot 4 3 (ctrl 0x09 (d.get F.STAND_ROLES_ROOT) 0 (leBytes 1 2 ++ leBytes 1 (d.get F.STAND_STAT_SLOT)))
  else d

/-- The last open drive has ended and the blade was never sensed open: the closure interval ends there and the token returns (R130,
R136). -/
def Dev.openEnd (d : Dev) : Dev := ((d.onProof fun z => { z with drive := none }).endClosure).returnToken

/-- A failed open is retried `MOVE_MAX` ms after its attempt began, twice; then it is given up, which ends a proof that is opening,
and the drive in progress lasts out its pulse (R115, R118, R127; the end of the last open drive is the later of the two, DESIGN
CHOICE, log 43). -/
def Dev.openRetry (d : Dev) : Dev :=
  match d.proof.drive with
  | some v =>
    if v.close || !v.failed || decide (3 ≤ v.tries) || decide (d.t < v.t0 + d.msOf F.PROOF_SHUT_TIME_MOVE_MAX) then d
    else if v.tries < 2 then d.startDrive false (v.tries + 1)
    else
      let d := if v.driving then d.onProof fun z => { z with drive := some { v with tries := 3 } } else d.openEnd
      if d.get F.PROOF_STAT_PHASE = 4 then d.proofAbort 5 else d
  | none => d

/-- A faulty drive, or a fault of the sensors with no drive in progress (R118). A fault while a closed blade is held ends the close
drive, and a proof that rests on it (DESIGN CHOICE, log 43). -/
def Dev.shutterFault (d : Dev) : Dev :=
  let d := d.inc F.PROOF_SHUT_FAILS_CNT
  let d := d.event 0x0801 { arg0 := d.get F.PROOF_SHUT_FAILS_CNT }
  match d.proof.drive with
  | none => d
  | some v =>
    if v.failed || !d.driveOn then d
    else
      let n := Nat.min 3 (d.get F.PROOF_SHUT_STAT_CONSEC + 1)
      let d := d.put F.PROOF_SHUT_STAT_CONSEC n
      let d := if n = 3 then d.put F.PROOF_SHUT_STAT_STATE 4 else d
      if v.close then
        let d := d.abortEarly 4
        match d.proof.drive with
        | some w => if w.close then d.startDrive false 0 else d
        | none => d
      else (d.onProof fun z => { z with drive := some { v with failed := true } }).openRetry

/-- CLOSED_SENSED: the blade is sensed closed (R117); a proof goes on to settling (R123). -/
def closedSensed (d : Dev) : Dev :=
  match d.proof.drive with
  | none => d
  | some v =>
    if !v.close || v.sensed || v.failed || !d.sensedNow v then d
    else
      let d := d.onProof fun z => { z with drive := some { v with sensed := true } }
      let d := (d.put F.PROOF_SHUT_MOVE_CLOSE ((d.t - v.t0) / 1000)).put F.PROOF_SHUT_STAT_CONSEC 0
      let d := if d.get F.PROOF_SHUT_STAT_STATE = 4 then d else d.put F.PROOF_SHUT_STAT_STATE 2
      let d := d.dropDrive
      match d.proof.run with
      | some r =>
        if d.get F.PROOF_STAT_PHASE = 1 then
          (d.onProof fun z => { z with run := some { r with settleEnd := d.t + d.msOf F.PROOF_SHUT_TIME_SETTLE } }).put F.PROOF_STAT_PHASE 2
        else d
      | none => d

/-- CLOSED_SENSED. -/
def execClosedSensed (s : State) : Host.Outcome State Fault Refusal := .next (s.onDev closedSensed)

/-- OPEN_SENSED: the blade is sensed open; the closure interval ends, the token returns, fitting begins (R117, R123, R130,
R136). -/
def openSensed (d : Dev) : Dev :=
  match d.proof.drive with
  | none => d
  | some v =>
    if v.close || v.sensed || v.failed || !d.sensedNow v then d
    else
      let d := d.onProof fun z => { z with drive := some { v with sensed := true } }
      let d := (d.put F.PROOF_SHUT_MOVE_OPEN ((d.t - v.t0) / 1000)).put F.PROOF_SHUT_STAT_CONSEC 0
      let d := if d.get F.PROOF_SHUT_STAT_STATE = 4 then d else d.put F.PROOF_SHUT_STAT_STATE 0
      let d := (d.dropDrive.endClosure).returnToken
      match d.proof.run with
      | some r =>
        if d.get F.PROOF_STAT_PHASE = 4 then
          let fast := decide (d.get F.PROOF_TAU_VMAX_V * 1000 < (d.getI F.WEB_SPEED_V).natAbs)
          (d.onProof fun z => { z with run := some { r with openT := some d.t, fitSpeedBad := fast } }).put F.PROOF_STAT_PHASE 5
        else d
      | none => d

/-- OPEN_SENSED. -/
def execOpenSensed (s : State) : Host.Outcome State Fault Refusal := .next (s.onDev openSensed)

/-- SHUT_FAULT: a drive not sensed within MOVE_MAX, or both inputs asserted for more than 1 ms (R118). -/
def shutFault (d : Dev) : Dev :=
  let both := d.get F.PROOF_SHUT_CTL_SENSE == 2 && !d.proof.bothFault &&
    (match d.proof.bothT with | some t => decide (t + msT < d.t) | none => false)
  let late := match d.proof.drive with
    | some v => !v.sensed && !v.failed && decide (v.t0 + d.msOf F.PROOF_SHUT_TIME_MOVE_MAX ≤ d.t) && !d.sensedNow v
    | none => false
  let d := if both then d.onProof fun z => { z with bothFault := true } else d
  if both || late then d.shutterFault else d.openRetry

/-- SHUT_FAULT. -/
def execShutFault (s : State) : Host.Outcome State Fault Refusal := .next (s.onDev shutFault)

/-- DRIVE_PULSE_END: `PULSE` ms after its start a drive goes idle, or into the hold (R115, R116). -/
def pulseEnd (d : Dev) : Dev :=
  match d.proof.drive with
  | none => d
  | some v =>
    if v.driving && decide (v.t0 + d.msOf F.PROOF_SHUT_TIME_PULSE ≤ d.t) then
      if 3 ≤ v.tries then d.openEnd
      else (d.onProof fun z => { z with drive := some { v with driving := false } }).dropDrive
    else d

/-- DRIVE_PULSE_END. -/
def execDrivePulseEnd (s : State) : Host.Outcome State Fault Refusal := .next (s.onDev pulseEnd)

/-- SHUT_POS_CHANGE: a sense input takes a level (R117); `which` is SHUT_POS1. -/
def posChange (which level : Bool) (d : Dev) : Dev :=
  let i := b2n which
  let d := d.putBit (if which then F.IO_PIN_IN_SHUT_POS1 else F.IO_PIN_IN_SHUT_POS0) level
  (d.onProof fun z => { z with pos := z.pos.set i (level, d.pinT) }).showPos

/-- SHUT_POS_CHANGE. -/
def execShutPosChange (which level : Bool) (s : State) : Host.Outcome State Fault Refusal := .next (s.onDev (onlyIf s.dev.bankIn (posChange which level)))

/-- SHUT_CLEAR leaves FAULT (R118): the state shows the drive in progress, or where the blade was driven last. -/
def shutClear (d : Dev) : Dev :=
  if d.get F.PROOF_SHUT_STAT_STATE ≠ 4 then d
  else
    let st := match d.proof.drive with
      | some v => if v.close then (if v.sensed then 2 else 1) else 3
      | none => 0
    (d.put F.PROOF_SHUT_STAT_STATE st).put F.PROOF_SHUT_STAT_CONSEC 0

/-- SHUT_CLEAR. -/
def execShutClear (s : State) : Host.Outcome State Fault Refusal := .next (s.onDev shutClear)

/-- A test drive is accepted only with proofs disabled and none running. -/
def testDrive (close : Bool) (d : Dev) : Dev := if d.bit F.PROOF_CTL_EN || d.proofRunning then d else d.startDrive close 0

/-- TEST_CLOSE. -/
def execTestClose (s : State) : Host.Outcome State Fault Refusal := .next (s.onDev (testDrive true))

/-- TEST_OPEN. -/
def execTestOpen (s : State) : Host.Outcome State Fault Refusal := .next (s.onDev (testDrive false))

/-- PROOF_CNT_CLR (R26). -/
def execProofCntClr (s : State) : Host.Outcome State Fault Refusal :=
  .next (s.onDev (fun d => d.clearAll [F.PROOF_CNT_ABORT_CNT, F.PROOF_CNT_FORCED_CNT, F.PROOF_SHUT_FAILS_CNT, F.PROOF_CC_OUTLIER_CNT]))

/-- PROOF_SCHED_WRITE: a write that breaks the order of the three times is ignored (R135). -/
def schedWrite (v : Word) (d : Dev) : Dev :=
  let due := v.toNat % 256
  let ov := v.toNat / 256 % 256
  let fo := v.toNat / 65536
  if due ≤ ov ∧ (fo = 0 ∨ ov ≤ fo) then (d.writeWord R.PROOF_SCHED v.toNat).showOverdue else d

/-- PROOF_SCHED_WRITE. -/
def execProofSchedWrite (v : Word) (s : State) : Host.Outcome State Fault Refusal := .next (s.onDev (schedWrite v))

/-- PROOF_AGE_DUE (R121). -/
def execProofAgeDue (s : State) : Host.Outcome State Fault Refusal :=
  .next (s.onDev (fun d => if 60 * d.get F.PROOF_SCHED_DUE_MIN ≤ d.proofAge then d.request 0 else d))

/-- PROOF_FORCE_DUE (R121). -/
def execProofForceDue (s : State) : Host.Outcome State Fault Refusal :=
  .next (s.onDev (fun d =>
    let f := d.get F.PROOF_SCHED_FORCE_MIN
    if f ≠ 0 ∧ 60 * f ≤ d.proofAge then d.request 6 else d))

/-- OVERDUE (R134). -/
def execOverdue (s : State) : Host.Outcome State Fault Refusal := .next (s.onDev Dev.showOverdue)

/-- Bits the host clears are no longer ones that were set when the close drive began: raised again, they stay set (R121). -/
def Dev.forgetReq (m : Nat) (d : Dev) : Dev :=
  d.onProof fun z => { z with run := z.run.map (fun r => { r with req := r.req - (r.req &&& m) })
                              accepted := z.accepted.map (fun q => (q.1 - (q.1 &&& m), q.2)) }

/-- PROOF_REQUEST (R121, R252): mode 0 next glade, 1 immediate, 2 cancel. -/
def doProofRequest (c : Cmd) (d : Dev) : Dev :=
  match c.p8 24 with
  | 0 => let d := d.request 1; d.ok c (d.get F.PROOF_REQ_REQ)
  | 1 => let d := d.request 2; d.ok c (d.get F.PROOF_REQ_REQ)
  | 2 =>
    let only := d.get F.PROOF_REQ_REQ &&& 0x79 == 0
    let d := (((if only then d.abortEarly 10 else d).unrequest 6).forgetReq 6).showOverdue
    d.ok c (d.get F.PROOF_REQ_REQ)
  | _ => d.complete c St.badParam 0 0

end Sys2Proof.Machine
end

