-- ==== Sys2Proof/Machine/Stage.lean ====
section
/-! DEFINITION. The stage controller (R50 to R54). -/

namespace Sys2Proof.Machine

/-- Stage states: 0 OFF, 1 HEATING, 2 SETTLING, 3 REGULATED, 4 STEPPING, 5 UNREG, 6 FREE. -/
def Dev.stageState (d : Dev) : Nat := d.get F.FPA_STAGE_STAT_STATE

/-- Temperature of a setpoint code in mK (R51). -/
def setpointMK (c : Nat) : Int := 303150 + 10000 * (c : Int)

/-- Stage temperature in mK. -/
def Dev.stageT (d : Dev) : Int := (d.get F.FPA_STAGE_TEMP_T : Nat)

/-- Error of the stage: temperature minus setpoint (R54). -/
def Dev.stageErr (d : Dev) : Int := d.stageT - setpointMK (d.get F.FPA_STAGE_STAT_SP_ACTIVE)

/-- Margin: setpoint minus frame temperature (R54). -/
def Dev.stageMargin (d : Dev) : Int := setpointMK (d.get F.FPA_STAGE_STAT_SP_ACTIVE) - (d.get F.FPA_FRAME_TEMP_T : Nat)

/-- A step, or the stage of start-up, has settled (R53, R121 STEP and START). -/
def Dev.stageSettled (d : Dev) : Dev :=
  let d := if d.stage.stepping then (d.onStage fun z => { z with stepping := false }).request 3 else d
  if d.stage.settledOnce then d else (d.onStage fun z => { z with settledOnce := true }).request 5

/-- Enter a stage state: timers restart, a proof aborts when REGULATED and FREE are left (R127). -/
def Dev.toStage (d : Dev) (st : Nat) : Dev :=
  let d := (d.put F.FPA_STAGE_STAT_STATE st).putBit F.FPA_STAGE_STAT_STAGE_REG (st == 3)
  let d := d.onStage fun z => { z with settleT := if st = 2 then some d.t else none, regT := none, limitT := none }
  let d := if st = 3 ∨ st = 6 then d.stageSettled else d.abortEarly 3
  d

/-- Two or more diodes are valid. -/
def Dev.twoDiodes (d : Dev) : Bool := decide (2 ≤ d.stage.validNow)

/-- STAGE_STEP: the check of a pending step in a glade, and its start (R53). -/
def Dev.tryStep (d : Dev) : Dev :=
  match d.stage.pend with
  | none => d
  | some (mode, sp) =>
    let st := d.stageState
    if !d.bit F.PROOF_GLADE_STAT_OPEN || !(st == 3 || st == 6 || (st == 5 && d.twoDiodes)) then d
    else
      let d := (d.onStage fun z => { z with pend := none }).putBit F.FPA_STAGE_STAT_STEP_PENDING false
      if mode = 1 ∧ setpointMK sp - (d.get F.FPA_FRAME_TEMP_T : Nat) < 2000 then
        (d.flag F.FPA_STAGE_STAT_STEP_REFUSED).event 0x0702 { arg1 := sp }
      else
        let d := (d.put F.FPA_STAGE_STAT_MODE_ACTIVE mode).put F.FPA_STAGE_STAT_SP_ACTIVE sp
        let d := d.onStage fun z => { z with stepping := true }
        d.toStage (if mode = 1 then 4 else 6)

/-- STAGE_CTL_WRITE: in OFF the write takes effect at once, else a changed setpoint or mode is held pending (R53). -/
def stageCtlWrite (v : Word) (d : Dev) : Dev :=
  let old := (d.get F.FPA_STAGE_CTL_MODE, d.get F.FPA_STAGE_CTL_SETPOINT)
  let d := d.writeWord R.FPA_STAGE_CTL v.toNat
  let new := (d.get F.FPA_STAGE_CTL_MODE, d.get F.FPA_STAGE_CTL_SETPOINT)
  if new = old then d
  else if d.stageState = 0 then (d.put F.FPA_STAGE_STAT_MODE_ACTIVE new.1).put F.FPA_STAGE_STAT_SP_ACTIVE new.2
  else
    let same := decide (new = (d.get F.FPA_STAGE_STAT_MODE_ACTIVE, d.get F.FPA_STAGE_STAT_SP_ACTIVE))
    let d := (d.onStage fun z => { z with pend := if same then none else some new }).putBit F.FPA_STAGE_STAT_STEP_PENDING (!same)
    d.tryStep

/-- STAGE_CTL_WRITE. -/
def execStageCtlWrite (v : Word) (s : State) : Host.Outcome State Fault Refusal := .next (s.onDev (stageCtlWrite v))

/-- The first slot of a frame that a stop at tick `t` leaves unread: the one that integrates then, or the one after it (R54). -/
def cutSlot (f : Frame) (t : Nat) : Nat :=
  let s := (t - f.b) / Nat.max 1 f.set.tslot
  if t < f.b + s * f.set.tslot + f.set.tint then s else s + 1

/-- READOUT_STOP: above 100 °C bias is removed and the frame in progress is cut short at this tick (R54). -/
def Dev.readoutStop (d : Dev) : Dev :=
  let inProg (f : Frame) : Bool := decide (f.b ≤ d.t ∧ d.t < f.b + f.set.period) && f.cut.isNone
  let cnts := (d.fpa.frames.filter inProg).map (·.cnt)
  let d := d.onFpa fun z => { z with
    readoutStop := true, biasOn := false
    frames := updIf z.frames inProg (fun f => { f with cut := some (cutSlot f d.t) }) }
  let hit (b : Option CapBuf) : Bool := match b with | some x => cnts.contains x.frame && !x.ready | none => false
  let n := (d.pipe.capBufs.map (fun b => if hit b then (match b with | some x => x.dropped + 1 | none => 0) else 0)).foldl (· + ·) 0
  let d := d.onPipe fun z => { z with
    capBufs := z.capBufs.map (fun b => if hit b then none else b)
    cap := z.cap.map (fun c => { c with dropped := c.dropped + n }) }
  settleCaps (d.event 0x0704 { arg1 := d.get F.FPA_STAGE_TEMP_T })

/-- Stage temperature of a sample period from its readings: the mean of the valid ones, and which diodes are valid (R50). -/
def stageMean (rs : List DiodeRd) : Option Int × List Nat :=
  let seen := rs.filter (fun r => !r.tripped)
  match median (seen.map (fun r => (r.mK : Rat))) with
  | none => (none, [])
  | some m =>
    let ok := seen.filter (fun r => decide ((r.mK : Rat) - m ≤ 250 ∧ m - (r.mK : Rat) ≤ 250))
    match meanQ (ok.map (fun r => (r.mK : Rat))) with
    | some q => (some (rround q), ok.map (·.diode))
    | none => (none, [])

/-- The mean heater duty of the last 10 s. -/
def Dev.meanDuty (d : Dev) : Nat :=
  let l := d.stage.dutyHist.filter (fun q => decide (d.t < q.1 + 10 * secT))
  if l.isEmpty then 0 else (l.map (·.2)).foldl (· + ·) 0 / l.length

/-- Heater duty: from the PI loop in controlled mode, held in UNREG for want of diodes, else 0 (R51, R54). -/
def Dev.newDuty (d : Dev) : Nat :=
  let st := d.stageState
  if st = 0 ∨ st = 6 then 0
  else match (if d.twoDiodes then none else d.stage.held) with | some h => h | none => Config.heaterDuty d.freeIdx d.stageErr % 65536

/-- Temperature and rate of a sample period (R50). -/
def Dev.sampleTemp (d : Dev) : Dev :=
  let q := stageMean (d.stage.feeds.filter (fun r => !d.stage.perm.contains r.diode))
  let d := match q.1 with | some t => d.put F.FPA_STAGE_TEMP_T (uns 32 t) | none => d
  let t := d.stageT
  let h := (d.stage.hist.filter (fun x => decide (d.t ≤ x.1 + secT))) ++ [(d.t, t)]
  let d := d.onStage fun z => { z with
    feeds := [], validNow := q.2.length, hist := h
    invalidSince := (List.range 4).map (fun i => if q.2.contains i then none else some ((z.invalidSince.getD i none).getD d.t))
    excluded := z.excluded.filter (fun i => !q.2.contains i) }
  let d := d.put F.FPA_STAGE_STAT_DIODE_EXCL (ofBits (d.stage.excluded ++ d.stage.perm))
  d.putI F.FPA_STAGE_RATE_RATE (match h.head? with
    | some o => if o.1 < d.t then rdiv ((t - o.2) * 1000 * (secT : Int)) ((d.t - o.1 : Nat) : Int) else 0
    | none => 0)

/-- Frame temperature estimate and heater duty of a sample period (R51, R96); both are free values (log 5). -/
def Dev.sampleHeat (d : Dev) : Dev :=
  let d := (d.put F.FPA_FRAME_TEMP_T (uns 32 (Config.frameTemp d.freeIdx (d.stage.ts.getD 0 0) (d.stage.ts.getD 1 0) (d.getI F.PWR_P_HELD_MW)))).fresh
  let duty := d.newDuty
  ((d.put F.FPA_HEATER_DUTY duty).fresh).onStage fun z => { z with
    dutyHist := (z.dutyHist.filter (fun x => decide (d.t ≤ x.1 + 10 * secT))) ++ [(d.t, duty)] }

/-- A timer that runs while a condition holds. -/
def holdT (c : Bool) (t : Option Nat) (now : Nat) : Option Nat := if c then some (t.getD now) else none

/-- The timers of R54 after a sample. -/
def Dev.sampleTimers (d : Dev) : Dev :=
  let e := d.stageErr.natAbs
  let st := d.stageState
  let duty := d.get F.FPA_HEATER_DUTY
  let low := decide (d.stageMargin < 2000)
  d.onStage fun z => { z with
    settleT := if st = 2 then (if e ≤ 20 then z.settleT else some d.t) else z.settleT
    regT := holdT (st == 5 && decide (e ≤ 20) && d.twoDiodes) z.regT d.t
    limitT := holdT (st == 3 && decide (50 < e) && (duty == 0 || duty == 0xFFFF)) z.limitT d.t
    lowT := holdT low z.lowT d.t
    okT := holdT (!low) z.okT d.t }

/-- The temperature limits of R54: OVER_TEMP outside 0 to 95 °C, readout stop above 100 °C until below 95 °C; tested on the register
also before a diode was ever valid (DESIGN CHOICE, log 78). -/
def Dev.sampleLimits (d : Dev) : Dev :=
  let t := d.stageT
  let hot := decide (t < 273150) || decide (368150 < t)
  let d := onlyIf (hot && !d.bit F.FPA_STAGE_STAT_OVER_TEMP) (fun d => d.event 0x0703 { arg1 := d.get F.FPA_STAGE_TEMP_T }) d
  let d := d.putBit F.FPA_STAGE_STAT_OVER_TEMP hot
  if d.stage.hot then
    onlyIf (decide (t < 368150)) (fun d =>
      (d.onStage fun z => { z with hot := false }).onFpa fun z => { z with readoutStop := false, biasOn := d.bit F.FPA_STAT_BIAS_READY }) d
  else onlyIf (decide (373150 < t)) (fun d => (d.onStage fun z => { z with hot := true }).readoutStop) d

/-- STAGE_SAMPLE: temperature, rate, frame temperature and heater of a 1 ms period, and the transitions decided at once. -/
def stageSample (d : Dev) : Dev :=
  let d := d.sampleTemp.sampleHeat.sampleTimers
  let st := d.stageState
  let d := onlyIf ((st == 1 || st == 4) && decide (d.stageErr.natAbs < 50)) (fun d => d.toStage 2) d
  let d := onlyIf (match d.stage.okT with | some x => decide (x + 10 * secT ≤ d.t) | none => false)
    (fun d => d.putBit F.FPA_STAGE_STAT_MARGIN_LOW false) d
  d.sampleLimits.tryStep

/-- STAGE_SAMPLE. -/
def execStageSample (s : State) : Host.Outcome State Fault Refusal := .next (s.onDev stageSample)

/-- A timer has run for `n` ticks. -/
def ranFor (t : Option Nat) (n now : Nat) : Bool := match t with | some x => decide (x + n ≤ now) | none => false

/-- STAGE_SETTLED: |error| ≤ 20 mK held for 5 s (R54). -/
def stageSettledRow (d : Dev) : Dev :=
  let st := d.stageState
  if (st == 2 && ranFor d.stage.settleT (5 * secT) d.t && decide (d.stageErr.natAbs ≤ 20)) ||
     (st == 5 && ranFor d.stage.regT (5 * secT) d.t && d.twoDiodes) then
    ((d.onStage fun z => { z with held := none }).toStage 3).tryStep
  else d

/-- STAGE_SETTLED. -/
def execStageSettled (s : State) : Host.Outcome State Fault Refusal := .next (s.onDev stageSettledRow)

/-- MARGIN_LOW: margin below 2 K held for 10 s in REGULATED (R54). The automatic step counts from SP_ACTIVE and changes the SETPOINT
register (DESIGN CHOICE, log 78). -/
def marginLow (d : Dev) : Dev :=
  if d.stageState = 3 ∧ ranFor d.stage.lowT (10 * secT) d.t ∧ ¬ d.bit F.FPA_STAGE_STAT_MARGIN_LOW then
    let d := d.putBit F.FPA_STAGE_STAT_MARGIN_LOW true
    let sp := d.get F.FPA_STAGE_STAT_SP_ACTIVE
    if d.bit F.FPA_STAGE_CTL_AUTO_STEP ∧ sp < 6 then
      let d := (d.put F.FPA_STAGE_CTL_SETPOINT (sp + 1)).putBit F.FPA_STAGE_STAT_STEP_PENDING true
      (d.onStage fun z => { z with pend := some (d.get F.FPA_STAGE_STAT_MODE_ACTIVE, sp + 1) }).tryStep
    else d
  else d

/-- MARGIN_LOW. -/
def execMarginLow (s : State) : Host.Outcome State Fault Refusal := .next (s.onDev marginLow)

/-- STAGE_UNREG: duty at a limit with |error| > 50 mK for 1 s, or fewer than 2 valid diodes (R54). -/
def stageUnreg (d : Dev) : Dev :=
  if d.stageState ≠ 3 then d
  else if !d.twoDiodes then (d.onStage fun z => { z with held := some d.meanDuty }).toStage 5
  else if ranFor d.stage.limitT secT d.t then d.toStage 5
  else d

/-- STAGE_UNREG. -/
def execStageUnreg (s : State) : Host.Outcome State Fault Refusal := .next (s.onDev stageUnreg)

/-- DIODE_EXCL: a diode invalid for more than 10 s is reported and logged (R50). -/
def diodeExcl (i : Nat) (d : Dev) : Dev :=
  match d.stage.invalidSince.getD i none with
  | some x =>
    if x + 10 * secT < d.t ∧ ¬ d.stage.excluded.contains i then
      let d := d.onStage fun z => { z with excluded := z.excluded ++ [i] }
      (d.put F.FPA_STAGE_STAT_DIODE_EXCL (ofBits (d.stage.excluded ++ d.stage.perm))).event 0x0701 { elem := i }
    else d
  | none => d

/-- DIODE_EXCL. -/
def execDiodeExcl (i : Fin 4) (s : State) : Host.Outcome State Fault Refusal := .next (s.onDev (diodeExcl i.val))

/-- Start-up reaches stage heating (R54, R322). -/
def Dev.startHeating (d : Dev) : Dev :=
  if d.stageState ≠ 0 then d
  else
    let mode := d.get F.FPA_STAGE_CTL_MODE
    let d := (d.put F.FPA_STAGE_STAT_MODE_ACTIVE mode).put F.FPA_STAGE_STAT_SP_ACTIVE (d.get F.FPA_STAGE_CTL_SETPOINT)
    d.toStage (if mode = 1 then 1 else 6)

end Sys2Proof.Machine
end

