-- ==== Sys2Proof/Machine/Glade.lean ====
section
/-! DEFINITION. Glades: the windows of each source, their begin and end (R131 to R133). -/

namespace Sys2Proof.Machine

/-- A setpoint that awaits a glade starts its ramp (R315). -/
def Dev.rampStart (d : Dev) : Dev :=
  match d.pwr.spPend with
  | none => d
  | some sp =>
    let d := d.onPwr fun z => { z with spPend := none, rampTo := some sp, rampN := 0 }
    (d.putBit F.PWR_BAL_STAT_SP_PEND false).putBit F.PWR_BAL_STAT_RAMPING true

/-- The glade begins at tick `t`: a pending stage step is made first, and a pending ballast setpoint starts (R53, R132, R315). -/
def Dev.gladeBegin (d : Dev) (t : Nat) : Dev :=
  (((d.putBit F.PROOF_GLADE_STAT_OPEN true).put F.PROOF_GLADE_BEGIN_T t).tryStep).rampStart

/-- A glade proof aborts when its glade ends at a tick e ≤ T_cp, in the course of T_cp at the latest (R127; a relayed end that
arrives later aborts nothing, DEDUCED, log 44). -/
def Dev.gladeAbort (d : Dev) (t : Nat) : Dev :=
  match d.proof.run with
  | none => d
  | some r =>
    if d.get F.PROOF_STAT_KIND == 0 && (match r.tcp with | none => true | some c => decide (t ≤ c ∧ d.t = c)) then d.proofAbort 1 else d

/-- The end of a glade at tick `t` is shown. -/
def Dev.putGladeEnd (d : Dev) (t : Nat) : Dev :=
  (d.onGlade fun z => { z with prevEnd := d.get F.PROOF_GLADE_END_T }).put F.PROOF_GLADE_END_T t

/-- The glade ends at tick `t` (R132). -/
def Dev.gladeEndAt (d : Dev) (t : Nat) : Dev := ((d.putBit F.PROOF_GLADE_STAT_OPEN false).putGladeEnd t).gladeAbort t

/-- Note a change of the module's own windows. -/
def Dev.ownNote (d : Dev) (o : Bool) : Dev :=
  if (match d.glade.ownLog.head? with | some q => q.2 | none => false) == o then d
  else d.onGlade fun z => { z with ownLog := ((d.t, o) :: z.ownLog).take 64 }

/-- Show the open windows, and take the begin of a glade at this tick. Its end waits for the end of the tick, in which another
window may still begin (R132). -/
def Dev.gladeEval (d : Dev) : Dev :=
  let src := d.gladeSrc
  let d := (d.put F.PROOF_GLADE_STAT_SRC src).putBit F.PROOF_GLADE_STAT_RELAYED d.gladeRel
  let d := if src != 0 then d.ownNote true else d
  if d.gladeIsOpen && !d.bit F.PROOF_GLADE_STAT_OPEN then d.gladeBegin d.t else d

/-- The end of a tick: a glade of which no window is open any more ends at it (R132). -/
def Dev.gladeClose (d : Dev) : Dev :=
  let d := if d.gladeSrc == 0 then d.ownNote false else d
  if !d.gladeIsOpen && d.bit F.PROOF_GLADE_STAT_OPEN then d.gladeEndAt d.t else d

/-! ### Relayed windows (R133) -/

/-- The module's own windows at an earlier tick. -/
def GladeSt.ownAt (g : GladeSt) (t : Nat) : Bool := match g.ownLog.find? (fun q => decide (q.1 ≤ t)) with | some q => q.2 | none => false

/-- A relayed begin, laid at the root's tick: it lengthens a glade that began later or ended meanwhile. -/
def Dev.relayBegin (d : Dev) (t : Nat) : Dev :=
  let d := d.onGlade fun z => { z with relay := true }
  let d := d.putBit F.PROOF_GLADE_STAT_RELAYED d.gladeRel
  if !d.gladeRel then d
  else
    let own := d.glade.ownAt t
    if d.bit F.PROOF_GLADE_STAT_OPEN then
      if own || decide (d.get F.PROOF_GLADE_BEGIN_T ≤ t) then d else d.put F.PROOF_GLADE_BEGIN_T t
    else if own then (d.putBit F.PROOF_GLADE_STAT_OPEN true).put F.PROOF_GLADE_END_T d.glade.prevEnd
    else d.gladeBegin t

/-- A relayed end, laid at the root's tick: the glade ends there, or where the own window that was open then ended, and a window
that began since begins another. -/
def Dev.relayEnd (d : Dev) (t : Nat) : Dev :=
  if !d.glade.relay then d
  else
    let was := d.gladeRel
    let d := (d.onGlade fun z => { z with relay := false }).putBit F.PROOF_GLADE_STAT_RELAYED false
    let ends := (d.glade.ownLog.filter (fun q => decide (t < q.1) && !q.2)).map (·.1)
    match if d.glade.ownAt t then ends.getLast? else some t with
    | none => d
    | some e =>
      if !was then d
      else
        let d := (d.putGladeEnd (Nat.max e (ends.headD e))).gladeAbort e
        match d.glade.ownLog with
        | (b, true) :: _ => if d.gladeSrc != 0 then d.gladeBegin b else d.putBit F.PROOF_GLADE_STAT_OPEN false
        | _ => d.putBit F.PROOF_GLADE_STAT_OPEN false

/-- GLADE_IN_WINDOW: the filtered level of `GLADE_IN` at this tick; the window follows a level that has lasted `DEB` ms
(R131). -/
def gladeIn (level : Bool) (d : Dev) : Dev :=
  let d := d.putBit F.IO_PIN_IN_GLADE_IN level
  let ass := level == d.bit F.IO_PIN_CFG_GLADE_IN_POL
  let d := d.onGlade fun z => { z with
    level := level
    inT := if z.inAss == ass then z.inT else d.pinT
    inAss := ass }
  let d := if d.glade.inT + d.msOf F.PROOF_GLADE_CTL_DEB ≤ d.t then d.onGlade fun z => { z with inOpen := z.inAss } else d
  d.gladeEval

/-- GLADE_IN_WINDOW. -/
def execGladeInWindow (level : Bool) (s : State) : Host.Outcome State Fault Refusal := .next (s.onDev (onlyIf s.dev.bankIn (gladeIn level)))

/-- GLADE_IN_POL_WRITE: the present level is read under the new polarity, its duration counted from the write (R131). -/
def gladePol (pol : Bool) (d : Dev) : Dev :=
  let d := d.putBit F.IO_PIN_CFG_GLADE_IN_POL pol
  let d := d.onGlade fun z => { z with inAss := z.level == pol, inT := d.t }
  gladeIn d.glade.level d

/-- GLADE_IN_POL_WRITE. -/
def execGladeInPolWrite (pol : Bool) (s : State) : Host.Outcome State Fault Refusal := .next (s.onDev (gladePol pol))

/-- |v| is at or above the speed threshold (R131); `WEB_SPEED` is in µm/s and `TH` in mm/s. -/
def Dev.gladeFast (d : Dev) : Bool := decide (1000 * d.get F.PROOF_GLADE_SPD_TH ≤ (d.getI F.WEB_SPEED_V).natAbs)

/-- Follow the web speed: the tick since which it has stayed below the threshold. -/
def Dev.gladeSpeed (d : Dev) : Dev :=
  let fast := d.gladeFast
  d.onGlade fun z => { z with
    slowT := if fast then none else some (z.slowT.getD d.t)
    spdOpen := z.spdOpen && !fast }

/-- SPEED_WINDOW: the window opens once the speed has stayed below `TH` for `HOLD` ms and ends when it is `TH` or more (R131). -/
def speedWindow (d : Dev) : Dev :=
  let d := d.gladeSpeed
  let d := d.onGlade fun z => { z with
    spdOpen := match z.slowT with | some t => decide (t + d.msOf F.PROOF_GLADE_SPD_HOLD ≤ d.t) | none => false }
  d.gladeEval

/-- SPEED_WINDOW. -/
def execSpeedWindow (s : State) : Host.Outcome State Fault Refusal := .next (s.onDev speedWindow)

/-- Drop a window that has ended. -/
def spanLeft (t : Nat) (o : Option (Nat × Nat)) : Option (Nat × Nat) := match o with | some (b, e) => if e ≤ t then none else some (b, e) | none => none

/-- Follow the declared window: open from its begin to its end (R131). -/
def declaredEval (d : Dev) : Dev := (d.onGlade fun z => { z with decl := spanLeft d.t z.decl }).gladeEval

/-- DECLARED_WINDOW_BEGIN. -/
def execDeclaredWindowBegin (s : State) : Host.Outcome State Fault Refusal := .next (s.onDev declaredEval)

/-- DECLARED_WINDOW_END. -/
def execDeclaredWindowEnd (s : State) : Host.Outcome State Fault Refusal := .next (s.onDev declaredEval)

/-- GLADE_DECLARE: a declared window of `dur` ms from `start`, or from acceptance if 0; a duration of 0 ends the declared
window (R131). A later declaration replaces an earlier one. -/
def doGladeDeclare (c : Cmd) (d : Dev) : Dev :=
  let dur := c.f 24 2
  let b := if c.f 32 8 = 0 then d.t else c.f 32 8
  let d := d.onGlade fun z => { z with decl := if dur = 0 then none else some (b, b + dur * msT) }
  (declaredEval d).ok c 0

/-- SCHEDULE_WINDOW (R131). -/
def scheduleWindow (d : Dev) : Dev := d.gladeEval

/-- SCHEDULE_WINDOW. -/
def execScheduleWindow (s : State) : Host.Outcome State Fault Refusal := .next (s.onDev scheduleWindow)

/-- PROFILE_GLADE_END: a profile's window that has lasted its duration is dropped (R131). -/
def profileGladeEnd (d : Dev) : Dev := (d.onGlade fun z => { z with prof := spanLeft d.t z.prof }).gladeEval

/-- PROFILE_GLADE_END. -/
def execProfileGladeEnd (s : State) : Host.Outcome State Fault Refusal := .next (s.onDev profileGladeEnd)

/-- The span of two windows, the first of which may be open at tick `t`: they overlap, so the glade lasts to the later end
(R132). -/
def spanJoin (t e : Nat) (o : Option (Nat × Nat)) : Nat × Nat :=
  match o with
  | some (b, e0) => if t < e0 then (b, Nat.max e0 e) else (t, e)
  | none => (t, e)

/-- A profile whose glade attribute gives `ms` takes effect at this tick (R131). -/
def Dev.gladeProfile (d : Dev) (ms : Nat) : Dev :=
  if ms = 0 then d else (d.onGlade fun z => { z with prof := some (spanJoin d.t (d.t + ms * msT) z.prof) }).gladeEval

end Sys2Proof.Machine
end

