-- ==== Sys2Proof/Machine/Stat.lean ====
section
/-! DEFINITION. Statistics: lane blocks, histogram, flicker, snapshots and their records (R163 to R168). -/

namespace Sys2Proof.Machine

/-! ### Records (R168) -/

/-- A record whose last header field is the CRC-32C of the whole record with the four CRC bytes taken as 0 (R157, R168). -/
def withCrc (head body : List Byte) : List Byte := head ++ leBytes 4 (crc32c (head ++ leBytes 4 0 ++ body)) ++ body

/-- The first 60 bytes of a statistics record's header (R168). -/
def statHead (type prof flags glo ghi count first t entries : Nat) (spec : List Byte) : List Byte :=
  leBytes 2 type ++ leBytes 1 prof ++ leBytes 1 flags ++ leBytes 4 glo ++ leBytes 4 ghi ++ leBytes 4 count ++
  leBytes 8 first ++ leBytes 8 t ++ leBytes 4 entries ++ slice spec 0 24

/-! ### Lane blocks (R163) -/

/-- A lane without a pixel yet. -/
def LaneAcc.zero : LaneAcc := ⟨0, 0, 0, 0, 0, 0, 0, 0⟩

/-- MEAN in 1/256 of 20 mK. -/
def LaneAcc.mean (a : LaneAcc) : Nat := if a.n = 0 then a.sum % 2 ^ 24 else (rdiv (256 * (a.sum : Int)) (a.n : Nat)).toNat

/-- One pixel into a lane. -/
def LaneAcc.add (a : LaneAcc) (upper lower v : Nat) (sat : Bool) : LaneAcc :=
  if v = 0 then { a with inval := a.inval + 1, sat := a.sat + b2n sat }
  else { a with
    mn := if a.n = 0 then v else Nat.min a.mn v
    mx := Nat.max a.mx v
    sum := a.sum + v
    n := a.n + 1
    above := a.above + b2n (decide (upper < v))
    below := a.below + b2n (decide (v < lower)) }

/-- The record of a block. -/
def laneRecord (t snap : Nat) (b : Block) : List Byte :=
  let g := b.gens.getD (0, 0)
  let ent (a : LaneAcc) : List Byte :=
    leBytes 2 a.mn ++ leBytes 2 a.mx ++ leBytes 4 a.mean ++ leBytes 4 a.above ++ leBytes 4 a.below ++ leBytes 4 a.inval ++ leBytes 4 a.sat
  withCrc (statHead 3 b.prof (b2n b.early + 2 * b2n b.mixed + 4 * snap) g.1 g.2 b.lines b.first t b.lanes.length []) (b.lanes.flatMap ent)

/-- A lane whose accumulators lie in an uncorrectable word: its values count as INVALID (R273). -/
def LaneAcc.lose (a : LaneAcc) : LaneAcc := { LaneAcc.zero with inval := a.inval + a.n, sat := a.sat }

/-- Close the open block (R163). Quantities without a sample take free values. -/
def Dev.closeBlock (d : Dev) (early : Bool) : Dev :=
  match d.stat.block with
  | none => d
  | some b =>
    let i := d.freeIdx
    let bad := d.store.qdrBad
    let sound (q : LaneAcc × Nat) : LaneAcc := if bad.contains (statAddr q.2 / 32) then q.1.lose else q.1
    let b := { b with lanes := b.lanes.zipIdx.map sound }
    let d := (d.badSeen ((List.range b.lanes.length).map (fun l => statAddr l / 32))).freshQdr (statAddr 0) (32 * b.lanes.length)
    let fill (q : LaneAcc × Nat) : LaneAcc :=
      if q.1.n = 0 then { q.1 with
        mn := Config.noStat i q.2 0 % 2 ^ 16
        mx := Config.noStat i q.2 1 % 2 ^ 16
        sum := Config.noStat i q.2 2 } else q.1
    let b := { b with
      early := early
      gens := some (b.gens.getD (Config.noStat i 64 0 % 2 ^ 32, Config.noStat i 64 1 % 2 ^ 32))
      lanes := b.lanes.zipIdx.map fill }
    let d := (d.onStat fun z => { z with block := none, last := some b }).fresh
    if d.bit F.STAT_CTL_LANE_REC then d.formRec 8 (laneRecord d.t 0 b) 0 else d

/-- The open block must close before this line (R163): a later generation, or the first line of a new profile. -/
def closesBefore (b : Block) (l : EmLine) : Bool :=
  b.prof != l.prof || l.edge ||
  (match b.gens with | some g => decide (l.depth ≠ 0) && g.2 != l.genHi | none => false)

/-- Widen a generation range by a line's (R18). -/
def widen (g : Option (Nat × Nat)) (l : EmLine) : Option (Nat × Nat) :=
  if l.depth = 0 then g
  else match g with
    | none => some (l.genLo, l.genHi)
    | some (a, b) => some (if later32 a l.genLo then l.genLo else a, if later32 l.genHi b then l.genHi else b)

/-- An emitted line into the lane statistics; `xs` gives each pixel's across-web position. -/
def Dev.statLine (d : Dev) (l : EmLine) (xs : Nat → Int) : Dev :=
  if !d.bit F.STAT_CTL_LANE_EN then d
  else
    let d := match d.stat.block with | some b => if closesBefore b l then d.closeBlock true else d | none => d
    let ls := match d.prof l.prof with | some p => lanesOf p | none => []
    let b : Block := d.stat.block.getD ⟨l.prof, l.start, 0, none, false, false, List.replicate ls.length LaneAcc.zero⟩
    let at_ := (List.range l.vals.length).map (fun j => (laneAt ls (xs j), l.vals.getD j 0, l.sat.getD j false))
    let one (q : LaneAcc × Nat) : LaneAcc :=
      let a := ls.getD q.2 ⟨0, 0, 0, 0, 0, 0⟩
      at_.foldl (fun acc p => if p.1 = some q.2 then acc.add a.upper a.lower p.2.1 p.2.2 else acc) q.1
    let b : Block := { b with
      lines := b.lines + 1
      gens := widen b.gens l
      mixed := b.mixed || l.flags.testBit 2
      lanes := b.lanes.zipIdx.map one }
    let d := d.onStat fun z => { z with block := some b }
    let n := d.profF l.prof 10 2
    if n ≤ b.lines then d.closeBlock false else d

/-! ### Histogram (R164) -/

/-- The TAP4 values of a frame's window pixels, with their active row and column. -/
def frameVals (f : Frame) : List (Nat × Nat × Nat) :=
  f.slots.flatMap (fun x => x.tap4.zipIdx.flatMap (fun r => r.1.zipIdx.map (fun q =>
    (8 * (f.set.rowFirst + x.slot - 1) + r.2, 32 * f.set.cgFirst + q.2, q.1.v.toNat))))

/-- The histogram of a frame. -/
def histOf (f : Frame) (low : Nat) : Hist :=
  let w := f.get F.STAT_HIST_CFG_WIDTH
  let vs := (frameVals f).map (fun q => q.2.2)
  let ok := vs.filter (· != 0)
  ⟨f.gen, f.b, low, w, (List.range 256).map (fun i => ok.countP (fun v => decide (low + i * w ≤ v ∧ v < low + (i + 1) * w))),
   ok.countP (fun v => decide (v < low)), ok.countP (fun v => decide (low + 256 * w ≤ v)), vs.countP (· == 0)⟩

/-- The record of a histogram. -/
def histRecord (prof t snap : Nat) (h : Hist) : List Byte :=
  withCrc (statHead 4 prof (4 * snap) h.gen h.gen 1 h.b t 256
    (leBytes 2 h.low ++ leBytes 1 h.width ++ [0] ++ leBytes 4 h.under ++ leBytes 4 h.beyond ++ leBytes 4 h.noval))
    (h.bins.flatMap (fun n => leBytes 4 n))

/-- The profile a frame record names: the one in force, 0xFF if none. -/
def Dev.curProf (d : Dev) : Nat := if d.bit F.WEB_PROF_CUR_VALID then d.get F.WEB_PROF_CUR_ID else 0xFF

/-- Take the histogram of a frame and deliver every `HIST_DEC`-th. -/
def Dev.takeHist (d : Dev) (f : Frame) : Dev :=
  if !d.bit F.STAT_CTL_HIST_EN then d
  else
    let h := histOf f (d.get F.STAT_HIST_CFG_LOW)
    let n := d.get F.STAT_CTL_HIST_DEC
    let k := d.stat.histN + 1
    let send := decide (0 < n ∧ n ≤ k)
    let d := d.onStat fun z => { z with hist := some h, histN := if send then 0 else k }
    if send then d.formRec 8 (histRecord d.curProf d.t 0 h) 0 else d

/-! ### Flicker (R165, R166) -/

/-- cos(2πk/128) in 2⁻⁴⁰ for the first quarter. -/
def cosQ : List Int := [1099511627776, 1098187217867, 1094217178761, 1087611074629, 1078384820155, 1066560642194,
  1052167026225, 1035238647732, 1015816288660, 993946739174, 969682684934, 943082580171, 914210506869, 883136020380,
  849933981865, 814684377941, 777472127994, 738386879591, 697522792521, 654978311948, 610855931251, 565261945112,
  518306193436, 470101796741, 420764883643, 370414311084, 319171378006, 267159533123, 214504077523, 161331862813,
  107770985514, 53950478471, 0]

/-- cos(2πk/128) in 2⁻⁴⁰. -/
def cosK (k : Nat) : Int :=
  let k := k % 128
  let k := if 64 < k then 128 - k else k
  if k ≤ 32 then cosQ.getD k 0 else -(cosQ.getD (64 - k) 0)

/-- The power of bin `b` of the Hann-windowed deviations of 128 means from their own mean, up to a constant factor. -/
def binPower (ms : List Rat) (b : Nat) : Rat :=
  let m := (meanQ ms).getD 0
  let xs := ms.zipIdx.map (fun q => (q.1 - m) * ((2 ^ 40 - cosK q.2 : Int) : Rat) / (2 ^ 41 : Nat))
  let re := (xs.zipIdx.map (fun q => q.1 * ((cosK (b * q.2) : Int) : Rat))).foldl (· + ·) 0
  let im := (xs.zipIdx.map (fun q => q.1 * ((cosK (b * q.2 + 96) : Int) : Rat))).foldl (· + ·) 0
  (re * re + im * im) / ((2 ^ 80 : Nat) : Rat)

/-- Peak bin and its power: the lowest bin of the largest power; bin 0 when all are 0. -/
def peakBin (ms : List Rat) : Nat × Rat :=
  ((List.range 64).map (· + 1)).foldl (fun q b => let p := binPower ms b; if q.2 < p then (b, p) else q) (0, 0)

/-- The frequency of candidate source k (R166), in Hz. -/
def srcHz (mains60 : Bool) (k : Nat) : Nat := k * 2 * (if mains60 then 60 else 50)

/-- The least frame period R37 permits for a set's window and timing. -/
def Dev.minPeriod (d : Dev) (a : AcqSet) : Nat :=
  Nat.max 104167 (Nat.max (d.ratePeriod a) ((a.rowSlots + 1) * a.tslot + 5000))

/-- The permitted period nearest the present one; 0 if none is permitted. -/
def nearestP (cur lo : Nat) (ps : List Nat) : Nat :=
  let dist (p : Nat) : Nat := ((p : Int) - cur).natAbs
  (ps.filter (fun p => decide (lo ≤ p ∧ p ≤ 100000000))).foldl (fun b p => if b = 0 ∨ dist p < dist b then p else b) 0

/-- The source and the suggestions for a peak at bin `b` at frame period `p` (R166): K, DC and Nyquist periods. -/
def Dev.flkSource (d : Dev) (a : AcqSet) (b : Nat) : Nat × Nat × Nat :=
  let p := a.period
  let f : Rat := (100000000 : Rat) / (p : Rat)
  let m60 := d.bit F.STAT_CTL_MAINS
  let abs (q : Rat) : Rat := if q < 0 then -q else q
  let al (k : Nat) : Rat := let x : Rat := srcHz m60 k; abs (x - f * ((rround (x / f) : Int) : Rat))
  match ((List.range 8).map (· + 1)).find? (fun k => decide (b ≠ 0) && decide (abs (al k - (b : Rat) * (f / 128)) ≤ f / 128)) with
  | none => (0, 0, 0)
  | some k =>
    let fk := srcHz m60 k
    let lo := d.minPeriod a
    let dc := (List.range fk).map (fun m => (rdiv ((m + 1) * 100000000 : Nat) fk).toNat)
    let ny := (List.range (2 * fk)).map (fun m => (rdiv ((2 * m + 1) * 100000000 : Nat) (2 * fk)).toNat)
    (k, nearestP p lo dc, nearestP p lo ny)

/-- The mean TAP4 value of region `n` in a frame, if a pixel of it is valid (R165). -/
def regionMean (d : Dev) (f : Frame) (n : Nat) : Option Rat :=
  let c0 := d.get (F.STAT_FLK_RGN_COL_FIRST.at n)
  let c1 := d.get (F.STAT_FLK_RGN_COL_LAST.at n)
  let r0 := d.get (F.STAT_FLK_RGN_ROW_FIRST.at n)
  let r1 := d.get (F.STAT_FLK_RGN_ROW_LAST.at n)
  meanQ ((((frameVals f).filter (fun q =>
    decide (r0 ≤ q.1 ∧ q.1 ≤ r1 ∧ c0 ≤ q.2.1 ∧ q.2.1 ≤ c1) && q.2.2 != 0))).map (fun q => (q.2.2 : Rat)))

/-- An empty flicker buffer. -/
def FlkBuf.empty : FlkBuf := ⟨0, [], [], 0⟩

/-- A frame into the buffer of a region: the buffer, and whether a spectrum is due. -/
def FlkBuf.add (q : FlkBuf) (f : Frame) (m : Option Rat) : FlkBuf × Bool :=
  if f.shutter then (FlkBuf.empty, false)
  else match m with
    | none => (FlkBuf.empty, false)
    | some v =>
      let q := if q.means.isEmpty ∨ q.gen ≠ f.gen then ⟨f.gen, [], [], 0⟩ else q
      let full := decide (128 ≤ q.means.length)
      let ms := (if full then q.means.drop 1 else q.means) ++ [v]
      let q := { q with means := ms, bs := (if full then q.bs.drop 1 else q.bs) ++ [f.b], since := q.since + 1 }
      if ms.length = 128 ∧ (¬ full ∨ 64 ≤ q.since) then ({ q with since := 0 }, true) else (q, false)

/-- The spectrum of a full buffer (R165). -/
def Dev.spectrum (d : Dev) (a : AcqSet) (q : FlkBuf) : FlkRes :=
  let p := peakBin q.means
  let s := d.flkSource a p.1
  ⟨true, p.1, s.1, satN 16 (rround (16 * sqrtQ (p.2) / 32)).toNat, s.2.1, s.2.2, 128, q.bs.headD 0, q.gen, a.period⟩

/-- The record of the flicker results (R168). -/
def flkRecord (prof t snap mains : Nat) (rs : List FlkRes) : List Byte :=
  let r0 := (rs.find? (·.valid)).getD ⟨false, 0, 0, 0, 0, 0, 0, 0, 0, 0⟩
  let ent (r : FlkRes) : List Byte :=
    leBytes 1 r.bin ++ leBytes 1 r.k ++ leBytes 1 (b2n r.valid + 2 * b2n (r.k != 0)) ++ [0] ++ leBytes 2 r.amp ++ [0, 0] ++
    leBytes 4 r.dc ++ leBytes 4 r.ny
  withCrc (statHead 5 prof (4 * snap) r0.gen r0.gen r0.frames r0.first t rs.length (leBytes 4 mains ++ leBytes 4 r0.period))
    (rs.flatMap ent)

/-- f_mains in Hz. -/
def Dev.mainsHz (d : Dev) : Nat := if d.bit F.STAT_CTL_MAINS then 60 else 50

/-- A frame into the flicker statistics. -/
def Dev.takeFlicker (d : Dev) (f : Frame) : Dev :=
  let on (n : Nat) : Bool := d.bit F.STAT_CTL_FLK_EN && (d.get F.STAT_FLK_CTL_RGN_EN).testBit n
  let rs := (List.range 16).map (fun n => if on n then (d.stat.flk.getD n FlkBuf.empty).add f (regionMean d f n) else (FlkBuf.empty, false))
  let res := (List.range 16).map (fun n =>
    let q := rs.getD n (FlkBuf.empty, false)
    if q.2 then d.spectrum f.set q.1 else d.stat.res.getD n ⟨false, 0, 0, 0, 0, 0, 0, 0, 0, 0⟩)
  let new := rs.zip res |>.map (fun q => if q.1.2 then q.2 else { q.2 with valid := false })
  let d := d.onStat fun z => { z with flk := rs.map (·.1), res := res }
  if rs.any (·.2) && d.bit F.STAT_CTL_FLK_REC then d.formRec 8 (flkRecord d.curProf d.t 0 d.mainsHz new) 0 else d

/-- The statistics of a frame whose slots have all left the pipeline, taken once; a SHUTTER frame feeds none (R130). -/
def Dev.frameStats (d : Dev) (cnt : Nat) : Dev :=
  match d.frame cnt with
  | none => d
  | some f =>
    if f.closed then d
    else
      let d := d.putFrame { f with closed := true }
      if f.dark then d else (if f.shutter then d else d.takeHist f).takeFlicker f

/-- Every slot a frame reads has left the pipeline. -/
def Frame.whole (f : Frame) : Bool :=
  let n := match f.cut with | some c => Nat.min c (f.set.rowSlots + 1) | none => f.set.rowSlots + 1
  decide (n ≤ f.slots.length) && f.slots.all (fun x => x.slot == 0 || x.done)

/-- Take the statistics of a frame once it is whole. -/
def Dev.frameStatsIfWhole (d : Dev) (cnt : Nat) : Dev :=
  match d.frame cnt with | some f => if f.whole then d.frameStats cnt else d | none => d

/-- SLOT_AT_TAP4; the last slot of a frame gives its histogram and flicker means (R164, R165). -/
def execSlotAtTap4 (f : Nat) (slot : Nat) (reads : List BurstIn) (path : List PathIn) (s : State) : Host.Outcome State Fault Refusal :=
  let s := slotReads f slot reads s
  .next (s.onDev (fun d => (slotAtTap4 s.mem f slot path d).frameStatsIfWhole f))

/-! ### Snapshot (R167) -/

/-- The snapshot registers of a lane block. -/
def Dev.snapBlock (d : Dev) (b : Block) : Dev :=
  let g := b.gens.getD (0, 0)
  let d := ((d.putBit F.STAT_SNAP_STAT_VALID true).putBit F.STAT_SNAP_STAT_EARLY b.early).putBit F.STAT_SNAP_STAT_MIXED b.mixed
  let d := ((d.put F.STAT_SNAP_GENLO_VAL g.1).put F.STAT_SNAP_GENHI_VAL g.2).put F.STAT_SNAP_LINES_VAL b.lines
  let d := d.put F.STAT_SNAP_WEB_W b.first
  (List.range 64).foldl (fun d l =>
    let a := b.lanes.getD l LaneAcc.zero
    let d := d.put (F.STAT_SNAP_LANE_WORD.at (4 * l)) (a.mn + 2 ^ 16 * a.mx)
    let d := d.put (F.STAT_SNAP_LANE_WORD.at (4 * l + 1)) a.mean
    (d.put (F.STAT_SNAP_LANE_WORD.at (4 * l + 2)) a.above).put (F.STAT_SNAP_LANE_WORD.at (4 * l + 3)) a.below) d

/-- The snapshot registers of a histogram. -/
def Dev.snapHist (d : Dev) (h : Hist) : Dev :=
  let d := ((d.put F.STAT_SNAP_HUNDER_VAL h.under).put F.STAT_SNAP_HOVER_VAL h.beyond).put F.STAT_SNAP_HNOVAL_VAL h.noval
  (List.range 256).foldl (fun d i => d.put (F.STAT_SNAP_HIST_CNT.at i) (h.bins.getD i 0)) (d.put F.STAT_SNAP_HGEN_VAL h.gen)

/-- The snapshot registers of the flicker results. -/
def Dev.snapFlk (d : Dev) : Dev :=
  (List.range 16).foldl (fun d n =>
    let r := d.stat.res.getD n ⟨false, 0, 0, 0, 0, 0, 0, 0, 0, 0⟩
    let d := ((d.put (F.STAT_FLK_RES_A_BIN.at n) r.bin).put (F.STAT_FLK_RES_A_K.at n) r.k).putBit (F.STAT_FLK_RES_A_MATCH.at n) (r.k != 0)
    (d.put (F.STAT_FLK_RES_A_AMP.at n) r.amp).put (F.STAT_FLK_RES_B_P_DC.at n) r.dc) d

/-- Take a snapshot (R167). -/
def Dev.snapshot (d : Dev) (close post : Bool) : Dev :=
  let d := if close then d.closeBlock true else d
  let d := match d.stat.last with | some b => d.snapBlock b | none => d
  let d := match d.stat.hist with | some h => d.snapHist h | none => d
  let d := (d.snapFlk).incWrap F.STAT_SNAP_STAT_SEQ
  if !post then d
  else
    let d := match d.stat.last with | some b => d.formRec 8 (laneRecord d.t 1 b) 0 | none => d
    let d := match d.stat.hist with | some h => d.formRec 8 (histRecord d.curProf d.t 1 h) 0 | none => d
    if d.stat.res.any (·.valid) then d.formRec 8 (flkRecord d.curProf d.t 1 d.mainsHz d.stat.res) 0 else d

/-- SNAP: a write of 1 to `STAT_SNAP_CTL.SNAP` takes a snapshot under the fields CLOSE and POST. -/
def execSnap (s : State) : Host.Outcome State Fault Refusal :=
  .next (s.onDev (fun d => d.snapshot (d.bit F.STAT_SNAP_CTL_CLOSE) (d.bit F.STAT_SNAP_CTL_POST)))

/-- STAT_SNAPSHOT (R167, R252). -/
def doSnapshot (c : Cmd) (d : Dev) : Dev :=
  let d := d.snapshot ((c.p8 24).testBit 0) ((c.p8 24).testBit 1)
  d.ok c (d.get F.STAT_SNAP_STAT_SEQ)

end Sys2Proof.Machine
end

