-- ==== Sys2Proof/Machine/Conv.lean ====
section
/-! DEFINITION. The auxiliary converter (R328 to R340). -/

namespace Sys2Proof.Machine

/-! ### Fields of an entry's words (R331) -/

/-- CHANNEL of a CFG word. -/
def cfgCh (w : Nat) : Nat := w % 32
/-- GAIN code of a CFG word. -/
def cfgGain (w : Nat) : Nat := w / 2 ^ 5 % 8
/-- S of a CFG word. -/
def cfgS (w : Nat) : Nat := w / 2 ^ 8 % 1024
/-- A of a CFG word. -/
def cfgA (w : Nat) : Nat := w / 2 ^ 18 % 256 + 1
/-- TRIG of a CFG word. -/
def cfgTrig (w : Nat) : Nat := w / 2 ^ 26 % 4
/-- Destination ring 10. -/
def cfgRing (w : Nat) : Bool := w.testBit 28
/-- Destination FEED. -/
def cfgFeed (w : Nat) : Bool := w.testBit 29
/-- Destination PROOF. -/
def cfgProof (w : Nat) : Bool := w.testBit 30
/-- The entry is enabled. -/
def cfgEn (w : Nat) : Bool := w.testBit 31
/-- Clocks an entry occupies: A × S + 1 (R331). -/
def cfgClocks (w : Nat) : Nat := cfgA w * cfgS w + 1

/-- Mean of `a` samples of a channel as a nominal value (R328, R331), from the sum of their raw 14-bit codes: 2n of a single-ended
code n, 4 × (n − 8192) of a differential one (AC8 to AC11). -/
def nominalMean (ch sum a : Nat) : Int :=
  let s := Nat.min sum (16383 * a)
  if 8 ≤ ch ∧ ch ≤ 11 then rdiv (4 * ((s : Int) - 8192 * a)) a else rdiv (2 * s) a

/-- Sum of the clocks of entries. -/
def sumClocks (l : List Nat) : Nat := (l.map cfgClocks).foldl (· + ·) 0

/-- The checks of R333 in order: the code of the first that fails, 0 if all hold. -/
def checkSeq (d : Dev) (q : AuxSeq) : Nat :=
  let en := (q.ents.map (·.1)).filter cfgEn
  let feed := en.filter cfgFeed
  let cont := en.filter (fun w => cfgTrig w == 0)
  let blank := en.filter (fun w => cfgTrig w == 2)
  let other := en.filter (fun w => cfgTrig w != 0)
  if !(en.all (fun w => decide (2 ≤ cfgS w) && decide (cfgGain w ≤ 4) && decide (cfgTrig w ≤ 2) && !(decide (12 ≤ cfgCh w) && decide (cfgCh w ≤ 15)))
      && decide (100 ≤ q.period)) then 1
  else if !(feed.all (fun w => decide (16 ≤ cfgCh w ∧ cfgCh w ≤ 30)) && (en.filter cfgProof).all (fun w => decide (cfgCh w ≤ 7))) then 2
  else if !((feed.map cfgCh).eraseDups.length == feed.length && decide (en.countP cfgProof ≤ 1)) then 3
  else if feed.any (fun w => decide (22 ≤ cfgCh w ∧ cfgCh w ≤ 25)) && decide (1000 < q.period) then 4
  else if 50 * q.period < sumClocks cont + cdiv q.period 1041 * sumClocks other + 4096 then 5
  else if 2400 < sumClocks blank then 6
  else if !d.domOn 104 then 7
  else 0

/-- The sequence staged in the registers (R333). -/
def Dev.stagedSeq (d : Dev) : AuxSeq :=
  ⟨(List.range 16).map (fun n => ((d.reg (R.AUX_ENT_CFG + 0x10 * n)).toNat, (d.reg (R.AUX_ENT_WIN + 0x10 * n)).toNat)),
   d.get F.AUX_SEQ_CTL_PERIOD, d.get F.AUX_WIN_EN_MAP⟩

/-- Commit a sequence (R333): accepted for the next round, or refused with the code of its first failed check. -/
def commitSeq (ks : List Nat) (bad : Bool) (d : Dev) : Dev × Nat :=
  let q := d.stagedSeq
  let e := if bad then 1 else checkSeq d q
  let d := d.put F.AUX_SEQ_STAT_ERR e
  if e = 0 then (d.onAux fun z => { z with pend := some q, pendKs := z.pendKs ++ ks }, 0)
  else (d.flag F.AUX_SEQ_STAT_REFUSED, e)

/-- AUX_SEQ_COMMIT. -/
def execAuxSeqCommit (s : State) : Host.Outcome State Fault Refusal := .next (s.onDev (fun d => (commitSeq [] false d).1))

/-- The local effect of AUX_SEQ_LOAD: the image is written to the staging registers and committed; it completes when the
sequence is in force (R333). A FORMAT or a zero byte that is wrong fails check 1. -/
def doAuxSeqLoad (c : Cmd) (d : Dev) : Dev :=
  let b := c.data
  let d := d.writeWord R.AUX_SEQ_CTL (leAt b 2 2)
  let d := d.writeWord R.AUX_WIN_EN (leAt b 4 2)
  let d := (List.range 16).foldl (fun d n =>
    (d.writeWord (R.AUX_ENT_CFG + 0x10 * n) (leAt b (16 + 8 * n) 4)).writeWord (R.AUX_ENT_WIN + 0x10 * n) (leAt b (20 + 8 * n) 4)) d
  let bad := leAt b 0 2 != 1 || leAt b 6 10 != 0
  match commitSeq [c.k] bad d with
  | (d, 0) => d
  | (d, e) => d.complete c St.refused e 0

/-! ### References and calibrations (R330, R337 to R339) -/

/-- Settling time of a reference in ticks (R330). -/
def refSettle (sel : Nat) : Nat := if sel = 0 then 200 * usT else if sel = 1 then 500 * usT else 50 * usT

/-- The internal reference has settled since PD104 came up (R330). -/
def Dev.intRefReady (d : Dev) : Bool := d.domOn 104 && (match d.aux.intT with | some t => decide (t + refSettle 0 ≤ d.t) | none => false)

/-- Index of a calibration. -/
def calIdx (ch g ref : Nat) : Nat := (5 * ch + g) * 3 + ref

/-- The valid calibration of a channel of AC0 to AC11 for a result whose last hold is at a tick (R337, R339). -/
def Dev.calOf (d : Dev) (ch g ref hold : Nat) : Option AuxCal :=
  (d.aux.cals.filter (fun c => c.idx == calIdx ch g ref && decide (c.t < hold))).getLast?

/-- Show the valid calibrations under the reference in force. -/
def Dev.showCal (d : Dev) : Dev :=
  let ref := d.get F.AUX_REF_SEL
  d.put F.AUX_CAL_VALID_MAP (ofBits ((List.range 60).filter (fun b => d.aux.cals.any (fun c => c.idx == 3 * b + ref))))

/-- Show the held zero. -/
def Dev.showZero (d : Dev) : Dev :=
  match d.aux.zero with
  | some z => ((d.putBit F.AUX_STAT_ZERO_HELD true).put F.AUX_STAT_ZERO_CH (z.idx / 15)).put F.AUX_STAT_ZERO_GAIN (z.idx / 3 % 5)
  | none => ((d.putBit F.AUX_STAT_ZERO_HELD false).put F.AUX_STAT_ZERO_CH 0).put F.AUX_STAT_ZERO_GAIN 0

/-- AUX_REF_WRITE: the selection takes effect at once, REF_READY falls and settling begins; a change discards the held zero
(R330, R338). SEL 3 is not listed. -/
def refWrite (sel : Nat) (d : Dev) : Dev :=
  if sel = 3 then d
  else
    let chg := d.get F.AUX_REF_SEL != sel
    let d := ((d.put F.AUX_REF_SEL sel).putBit F.AUX_STAT_REF_READY false).putBit F.AUX_STAT_REF_FAULT false
    let d := d.onAux fun z => { z with refT := if d.domOn 104 then some d.t else none, zero := if chg then none else z.zero }
    d.showZero.showCal

/-- AUX_REF_WRITE. -/
def execAuxRefWrite (sel : Fin 4) (s : State) : Host.Outcome State Fault Refusal := .next (s.onDev (refWrite sel))

/-- REF_SETTLED: the settling time has passed; REF_READY rises if the reference is valid (R330). The internal reference
always is. -/
def refSettled (valid : Bool) (d : Dev) : Dev :=
  let sel := d.get F.AUX_REF_SEL
  if dueBy (d.aux.refT.map (· + refSettle sel)) d.t then
    let ok := valid || sel == 0
    ((d.onAux fun z => { z with refT := none }).putBit F.AUX_STAT_REF_READY ok).putBit F.AUX_STAT_REF_FAULT (!ok)
  else d

/-- REF_SETTLED. -/
def execRefSettled (valid : Bool) (s : State) : Host.Outcome State Fault Refusal := .next (s.onDev (refSettled valid))

/-- PD104 goes off or comes up: both references settle again, and the converter drops its work (R330). -/
def Dev.auxPower (d : Dev) (on : Bool) : Dev :=
  let d := d.onAux fun z => { z with
    intT := if on then some d.t else none, refT := if on then some d.t else none
    due := if on then z.due else [], runs := if on then z.runs else [] }
  (d.putBit F.AUX_STAT_REF_READY false).putBit F.AUX_STAT_REF_FAULT false

/-- AUX_CAL_ZERO and AUX_CAL_FULL (R338): the measurement begins, or the command is refused. -/
def startMeas (c : Cmd) (v : Option Int) (d : Dev) : Dev :=
  let ch := c.p8 24
  let g := c.p8 25
  let ref := d.get F.AUX_REF_SEL
  let zeroOk := match d.aux.zero with | some z => z.idx == calIdx ch g ref | none => false
  let refuse (n : Nat) : Dev := d.complete c St.refused n 0
  if 11 < ch ∨ 4 < g then refuse 1
  else if d.aux.meas.isSome then refuse 2
  else if v.isSome && !zeroOk then refuse 3
  else if !d.bit F.AUX_STAT_REF_READY then refuse 5
  else
    let d := d.onAux fun z => { z with meas := some ⟨c.k, v, ch, g, ref, 0, 0⟩, zero := if v.isNone then none else z.zero }
    (d.putBit F.AUX_STAT_CAL_BUSY true).showZero

/-- The local effect of AUX_CAL_ZERO. -/
def doAuxCalZero (c : Cmd) (d : Dev) : Dev := startMeas c none d

/-- The local effect of AUX_CAL_FULL. -/
def doAuxCalFull (c : Cmd) (d : Dev) : Dev := startMeas c (some (sext 32 (c.f 28 4))) d

/-- AUX_CAL_MEASUREMENT_DONE: after the calibration slots of 16 rounds the mean of the 1024 samples, whose raw codes add up to
`sum`, is Z or M; a full calibration goes to the Keep (R338, R339). -/
def measDone (sum : Nat) (d : Dev) : Dev :=
  match d.aux.meas with
  | none => d
  | some x =>
    if x.rounds < 16 ∨ d.t < x.slotEnd + 20 then d
    else
      let m := nominalMean x.ch sum 1024
      let d := (d.onAux fun z => { z with meas := none }).putBit F.AUX_STAT_CAL_BUSY false
      let idx := calIdx x.ch x.g x.ref
      match x.v with
      | none => ((d.onAux fun z => { z with zero := some ⟨idx, m, 0, d.t⟩ }).showZero).completeK x.k St.ok 0 0
      | some v =>
        match d.aux.zero with
        | none => d.completeK x.k St.refused 3 0
        | some z =>
          let df := m - z.z
          let k := if df = 0 then 0 else (if df < 0 then rdiv (-(v * 2 ^ 24)) (-df) else rdiv (v * 2 ^ 24) df)
          if v * df ≤ 0 ∨ df.natAbs < 4096 ∨ ¬ (8192 ≤ v.natAbs ∧ v.natAbs ≤ 32767) ∨ ¬ (2 ^ 23 ≤ k ∧ k ≤ 2 ^ 25) then
            d.completeK x.k St.refused 4 0
          else d.keepPush (.auxCal x.k idx z.z k) 1

/-- AUX_CAL_MEASUREMENT_DONE. -/
def execAuxCalMeasurementDone (sum : Nat) (s : State) : Host.Outcome State Fault Refusal := .next (s.onDev (measDone sum))

/-! ### Rounds and runs (R331, R332) -/

/-- The word of entry `n` in force. -/
def Dev.auxCfg (d : Dev) (n : Nat) : Nat := (d.aux.act.ents.getD n (0, 0)).1

/-- Make entries due; one that is due already runs once only and is counted. -/
def Dev.auxDue (d : Dev) (p : Nat → Bool) : Dev :=
  let ns := (List.range 16).filter (fun n => cfgEn (d.auxCfg n) && p (cfgTrig (d.auxCfg n)))
  let again := ns.countP (fun n => d.aux.due.contains n)
  (d.addSat F.AUX_OVERRUN_CNT again).onAux fun z => { z with due := z.due ++ ns.filter (fun n => !z.due.contains n) }

/-- The frame in progress has no slots left to integrate: its vertical blanking has begun (R34). -/
def Dev.inBlanking (d : Dev) : Bool :=
  d.fpa.frames.all (fun f => !(decide (f.b ≤ d.t) && decide (d.t < f.b + f.set.period) && f.cut.isNone) ||
    decide (f.b + (f.set.rowSlots + 1) * f.set.tslot ≤ d.t))

/-- A run of an entry may start now: its reference is ready, and a blanking entry's samples end in the blanking (R332). -/
def Dev.auxMay (d : Dev) (n : Nat) : Bool :=
  let w := d.auxCfg n
  let refOk := if cfgCh w < 16 then d.bit F.AUX_STAT_REF_READY else d.intRefReady
  let blankOk := cfgTrig w != 2 || (d.inBlanking && (match d.fpa.nextB with
    | some b => decide (d.t + 2 * cfgClocks w + 200 < b) | none => true))
  refOk && blankOk

/-- The due entry that is next: blanking, then frame, then continuous, lowest index first (R332). -/
def Dev.auxPick (d : Dev) : Option Nat :=
  let of (tr : Nat) : Option Nat := (List.range 16).find? (fun n => d.aux.due.contains n && cfgTrig (d.auxCfg n) == tr && d.auxMay n)
  (of 2).orElse (fun _ => (of 1).orElse (fun _ => of 0))

/-- Blanking entries that cannot finish before the boundary wait for the next blanking and are counted (R332). -/
def Dev.auxMiss (d : Dev) : Dev :=
  let late := d.aux.due.filter (fun n => cfgTrig (d.auxCfg n) == 2 && !(match d.fpa.nextB with
    | some b => decide (d.t + 2 * cfgClocks (d.auxCfg n) + 200 < b) | none => true))
  (d.addSat F.AUX_BLANK_MISS_CNT late.length).onAux fun z => { z with due := z.due.filter (fun n => !late.contains n) }

/-- Start what the converter is free for (R332): a due entry, or the calibration slot of the round. A clock is two ticks. -/
def Dev.auxStart (d : Dev) : Dev :=
  if !d.bit F.AUX_CTL_EN || !d.domOn 104 || decide (d.t < d.aux.free) then d
  else
    let d := d.auxMiss
    match d.auxPick with
    | some n =>
      let e := d.aux.act.ents.getD n (0, 0)
      let hold := d.t + 2 * cfgClocks e.1
      d.onAux fun z => { z with
        due := z.due.filter (· != n), free := hold, runs := z.runs ++ [⟨n, e.1, e.2, z.act.win.testBit n, hold⟩] }
    | none =>
      if d.aux.slot then d.onAux fun z => { z with
        slot := false, free := d.t + 8192, meas := z.meas.map (fun m => { m with rounds := m.rounds + 1, slotEnd := d.t + 8192 }) }
      else d

/-- AUX_ROUND: an accepted sequence comes into force, continuous entries become due, and the others while no frame is in
progress (R332, R333). -/
def auxRound (d : Dev) : Dev :=
  if !d.bit F.AUX_CTL_EN || decide (d.t < d.aux.next) then d
  else
    let d := match d.aux.pend with
      | some q =>
        let ks := d.aux.pendKs
        let d := d.onAux fun z => { z with
          act := q, pend := none, pendKs := []
          due := z.due.filter (fun n => cfgEn (q.ents.getD n (0, 0)).1) }
        (d.put F.AUX_SEQ_STAT_PERIOD_ACT q.period).completeAll ks St.ok 0 0
      | none => d
    let d := d.onAux fun z => { z with
      next := d.t + z.act.period * usT, slot := (z.meas.any (fun m => decide (m.rounds < 16))) }
    let idle := !d.inFrame
    (d.auxDue (fun tr => tr == 0 || idle)).auxStart

/-- AUX_ROUND. -/
def execAuxRound (s : State) : Host.Outcome State Fault Refusal := .next (s.onDev auxRound)

/-! ### Results (R334, R336, R337) -/

/-- Calibrated value of an averaged nominal value, and whether a calibration applied (R337). -/
def Dev.auxValue (d : Dev) (x : AuxRun) (r : Int) : Int × Bool :=
  let ch := cfgCh x.cfg
  let ap (z k : Int) : Int := clampI (-32768) 32767 (rdiv ((r - z) * k) (2 ^ 24))
  if 16 ≤ ch then
    let q := Config.auxFactory ch (cfgGain x.cfg)
    (ap q.1 q.2, true)
  else
    match d.calOf ch (cfgGain x.cfg) (d.get F.AUX_REF_SEL) x.hold with
    | some c => (ap c.z c.k, true)
    | none => (ap 0 (2 ^ 24), false)

/-- Close the ring record being gathered (R340). -/
def Dev.closeAuxRec (d : Dev) : Dev :=
  match d.aux.recs with
  | [] => d
  | r0 :: _ =>
    let rs := d.aux.recs
    let ent (r : AuxRec) : List Byte := leBytes 1 r.n ++ leBytes 1 r.fl ++ leBytes 2 (uns 16 r.v) ++ leBytes 4 (r.t - r0.t)
    let hd := leBytes 2 7 ++ leBytes 1 rs.length ++ [0] ++ leBytes 8 r0.t
    let d := d.formRec 10 (withCrc (slice (hd ++ rs.flatMap ent) 0 60) []) 0
    d.onAux fun z => { z with recs := [] }

/-- A result joins the ring record (R340). -/
def Dev.auxToRing (d : Dev) (r : AuxRec) : Dev :=
  let d := d.onAux fun z => { z with recs := z.recs ++ [r] }
  if 5 ≤ d.aux.recs.length then d.closeAuxRec else d

/-- Validity of an external reference from a reading of AC17 or AC21 in units of 2.048 V / (G × 32,768) (R330). -/
def refValid (sel ch g : Nat) (v : Int) : Option Bool :=
  let mul : Int := if ch = 17 then 4 else 2
  let uv := v * mul * 2048000
  let den : Int := 32768 * 2 ^ g
  if sel = 1 ∧ ch = 17 then some (decide (1000000 * den ≤ uv ∧ uv ≤ 2500000 * den))
  else if sel = 2 ∧ ch = 21 then some (decide (2375000 * den ≤ uv ∧ uv ≤ 2625000 * den))
  else none

/-- What a FEED result does at its consumer (R329, R336). -/
def Dev.auxFeed (d : Dev) (ch g : Nat) (v : Int) (trip : Bool) : Dev :=
  if 22 ≤ ch ∧ ch ≤ 25 then
    let t := Config.sensorTemp ch v + (assoc d.stage.trims (ch - 22)).getD 0
    (d.put (F.FPA_TD_T.at (ch - 22)) (uns 32 t)).onStage fun z => { z with feeds := z.feeds ++ [⟨ch - 22, t, trip⟩] }
  else if ch = 26 ∨ ch = 27 then d.onStage fun z => { z with ts := z.ts.set (ch - 26) (Config.sensorTemp ch v) }
  else if ch = 28 then d.put F.FPA_HEATER_POWER (Config.sensePower ch v)
  else if ch = 29 then (if d.bit F.PWR_BAL_CTL_EN then d.put F.PWR_P_BAL_MW (satN 16 (Config.sensePower ch v)) else d)
  else if ch = 30 then (if trip && d.driveOn then d.shutterFault else d)
  else
    match refValid (d.get F.AUX_REF_SEL) ch g v with
    | some ok => if d.aux.refT.isNone && d.domOn 104 then (d.putBit F.AUX_STAT_REF_READY ok).putBit F.AUX_STAT_REF_FAULT (!ok) else d
    | none => d

/-- A reading of the blade goes to the proof that is averaging (R119, R120, R334). -/
def Dev.bladeReading (d : Dev) (ch : Nat) (v : Int) (cal : Bool) (hold : Nat) : Dev :=
  match d.proof.run with
  | some r =>
    let from_ := match r.frames with | q :: _ => some q.2 | [] => none
    if d.get F.PROOF_STAT_PHASE == 3 && ch == d.get F.PROOF_BLADE_CFG_AIN && (match from_ with | some b => decide (b ≤ hold) | none => false) then
      let ok := cal && decide (0 < v ∧ v < 32768)
      d.onProof fun z => { z with run := some { r with blade := r.blade ++ [v], bladeBad := r.bladeBad || !ok } }
    else d
  | none => d

/-- A tripped comparator (R336). -/
def Dev.auxTrip (d : Dev) (n ch : Nat) (v : Int) : Dev :=
  let d := (d.put F.AUX_WIN_STAT_MAP (setB (d.get F.AUX_WIN_STAT_MAP) n true)).tieBits F.AUX_WIN_STAT_MAP.reg (2 ^ n)
  if 18 ≤ ch ∧ ch ≤ 21 then d.event 0x0B03 { elem := ch, arg1 := uns 16 v } else d.event 0x0901 { elem := ch, arg1 := uns 16 v }

/-- AUX_ENTRY_RESULT: 10 clocks after the last hold of a run its result is delivered; `sum` is the sum of its A raw codes. -/
def auxResult (n sum : Nat) (d : Dev) : Dev :=
  match d.aux.runs.find? (fun x => x.n == n && decide (x.hold + 20 ≤ d.t)) with
  | none => d
  | some x =>
    let ch := cfgCh x.cfg
    let q := d.auxValue x (nominalMean ch sum (cfgA x.cfg))
    let v := q.1
    let trip := x.cmp && (decide (v < sext 16 (x.win % 65536)) || decide (sext 16 (x.win / 65536) < v))
    let d := d.onAux fun z => { z with runs := z.runs.filter (fun y => y != x) }
    let d := (((d.putI (F.AUX_ENT_RES_VALUE.at n) v).putBit (F.AUX_ENT_RES_CAL.at n) q.2).putBit (F.AUX_ENT_RES_WIN.at n) trip).incWrap
      (F.AUX_ENT_RES_COUNT.at n)
    let d := d.put (F.AUX_ENT_RES_T_T.at n) x.hold
    let d := if trip then d.auxTrip n ch v else d
    let d := if cfgFeed x.cfg then d.auxFeed ch (cfgGain x.cfg) v trip else d
    let d := if cfgProof x.cfg then d.bladeReading ch v q.2 x.hold else d
    let d := if cfgRing x.cfg then
        d.auxToRing ⟨n, b2n q.2 + 2 * b2n trip + 4 * b2n (cfgTrig x.cfg == 2), v, x.hold⟩ else d
    d.auxStart

/-- AUX_ENTRY_RESULT. -/
def execAuxEntryResult (n : Fin 16) (sum : Nat) (s : State) : Host.Outcome State Fault Refusal := .next (s.onDev (auxResult n.val sum))

/-- AUX_RECORD_CLOSE: `HOLD` × 10 µs after its first result a record closes (R340). -/
def auxRecordClose (d : Dev) : Dev :=
  match d.aux.recs with
  | r :: _ => if r.t + d.get F.AUX_RING_CTL_HOLD * 10 * usT ≤ d.t then d.closeAuxRec else d
  | [] => d

/-- AUX_RECORD_CLOSE. -/
def execAuxRecordClose (s : State) : Host.Outcome State Fault Refusal := .next (s.onDev auxRecordClose)

/-- AUX_CNT_CLR (R26). -/
def execAuxCntClr (s : State) : Host.Outcome State Fault Refusal :=
  .next (s.onDev (fun d => d.clearAll [F.AUX_OVERRUN_CNT, F.AUX_BLANK_MISS_CNT]))

/-- Condition 11 of R111: the diode channels have no reading, or an enabled PROOF entry has no ready reference or no valid
calibration. -/
def Dev.auxBlind (d : Dev) : Bool :=
  !d.intRefReady || (d.aux.act.ents.map (·.1)).any (fun w => cfgEn w && cfgProof w &&
    (!d.bit F.AUX_STAT_REF_READY ||
      (d.calOf (d.get F.PROOF_BLADE_CFG_AIN) (cfgGain w) (d.get F.AUX_REF_SEL) (d.t + 1)).isNone))

end Sys2Proof.Machine
end

