-- ==== Sys2Proof/Machine/Proof.lean ====
section
/-! DEFINITION. The course of a proof, what it writes into the next plate, drift learning, channel calibration, curves, and
the swap without a boundary (R73, R99 to R103, R119 to R129, R138, R139). -/

namespace Sys2Proof.Machine

/-! ### Logarithm -/

/-- Sum of z^(2i+1) / (2i+1) in units of 2^-100, for 0 ≤ z < 1 held in those units. -/
def atanhSum : Nat → Nat → Nat → Nat → Nat → Nat
  | 0, _, _, _, acc => acc
  | k + 1, i, z2, term, acc => atanhSum k (i + 1) z2 (term * z2 / 2 ^ 100) (acc + term / (2 * i + 1))

/-- 2 atanh(a / b) in units of 2^-100. -/
def atanh2 (a b : Nat) : Nat :=
  let z := a * 2 ^ 100 / b
  2 * atanhSum 64 0 (z * z / 2 ^ 100) z 0

/-- ln(a / b) for positive a and b, to about 2^-90. -/
def lnQ (a b : Nat) : Rat :=
  let k : Int := (a.log2 : Int) - (b.log2 : Int)
  let a' := if k < 0 then a * 2 ^ k.natAbs else a
  let b' := if k < 0 then b else b * 2 ^ k.natAbs
  let m : Int := if b' ≤ a' then (atanh2 (a' - b') (a' + b') : Nat) else -((atanh2 (b' - a') (a' + b') : Nat) : Int)
  ((k * (atanh2 1 3 : Nat) + m : Int) : Rat) / (2 ^ 100 : Nat)

/-- ln of a positive rational. -/
def lnRat (q : Rat) : Rat := lnQ q.num.natAbs q.den

/-! ### Blade temperature and target signal (R119, R120, R125) -/

/-- Blade temperature in mK, exact, of a mean result; none where the formula of R119 gives no positive temperature. -/
def Dev.bladeTemp (d : Dev) (v : Rat) : Option Rat :=
  let rn := d.get F.PROOF_THERM_RNOM_VAL
  let be := d.get F.PROOF_THERM_BETA_VAL
  let rd := d.get F.PROOF_THERM_RDIV_VAL
  let rho := v / 32768
  if rn = 0 ∨ be = 0 ∨ rd = 0 ∨ rho ≤ 0 ∨ 1 ≤ rho then none
  else
    let den := (100 : Rat) / 29815 + lnRat ((rd : Rat) * rho / (1 - rho) / (rn : Rat)) / (be : Rat)
    if den ≤ 0 then none else some (1000 / den)

/-- T_blade in mK, exact, of the mean of the readings of an averaging interval (R119). -/
def Dev.bladeMean (d : Dev) (r : ProofRun) : Option Rat := (meanQ (r.blade.map (fun (v : Int) => (v : Rat)))).bind d.bladeTemp

/-- T_blade in mK, exact, of the readings of an averaging interval, if usable (R119, R120). -/
def Dev.bladeResult (d : Dev) (r : ProofRun) : Option Rat :=
  if r.bladeBad then none
  else
    let vs : List Rat := r.blade.map (fun (v : Int) => (v : Rat))
    let sorted := sortQ vs
    match meanQ vs, sorted.head?, sorted.getLast? with
    | some m, some lo, some hi =>
      match d.bladeTemp m, d.bladeTemp lo, d.bladeTemp hi with
      | some t, some a, some b => if (if a ≤ b then b - a else a - b) ≤ (d.get F.PROOF_BLADE_CFG_TOL : Rat) then some t else none
      | _, _, _ => none
    | _, _, _ => none

/-- The target signal s_t in 1/4 count for a blade at a temperature, seen from the frame of the last average (R125); none when
T_bb lies outside the calibration. -/
def targetSignal (m : Mems) (bad : List Nat) (range eb : Nat) (stageEn : Bool) (tb : Rat) (f t : Int) : Option Int :=
  match radAt m bad range (tb / 20), radAt m bad range ((f : Rat) / 20) with
  | some lt, some lf =>
    match radInv m bad range (((eb : Rat) * lt + ((1024 : Rat) - eb) * lf) / 1024) with
    | .t tbb =>
      let e (j : Nat) : Rat := ((tempE m range j : Nat) : Rat)
      match (List.range 4095).find? (fun j => decide (e j ≠ 0 ∧ e j ≤ tbb ∧ tbb < e (j + 1))) with
      | some j =>
        let s' := 16 * (j : Rat) + 16 * (tbb - e j) / (e (j + 1) - e j) - 32768
        if tempBad bad range j || tempBad bad range (j + 1) || (stageEn && refBad bad range) then none
        else some (rround (if stageEn then s' / (1 + ((kappa m range * (t - tcal m range) : Int) : Rat) / (2 ^ 30 : Nat)) else s'))
      | none => none
    | _ => none
  | _, _ => none

/-! ### Course of a proof (R121 to R123) -/

/-- The drift references of the plate with a SEQ; those of the plate in force where it is that one. -/
def Dev.refOf (d : Dev) (seq : Nat) : DriftRef :=
  (d.burin.refs.find? (fun q => q.seq == seq)).getD
    ⟨seq, d.getI F.PIPE_DM_REF_T_REF, d.getI F.PIPE_DM_REF_F_REF, d.getI F.PIPE_DM_REF_Q_REF, d.get F.PIPE_DM_REF_OP_REF, d.get F.PIPE_AC_REF_TINT_T_INT⟩

/-- PROOF_BEGIN: the close drive, 1000 ticks after the last condition of R122 became true. -/
def proofBegin (d : Dev) : Dev :=
  if d.proofConds && (match d.proof.condT with | some t => decide (t + 1000 ≤ d.t) | none => false) then
    let kind := d.proofKind
    let r : ProofRun := { t0 := d.t, req := d.get F.PROOF_REQ_REQ, gen := d.get F.FPA_GEN_CUR_GEN, range := d.fpa.set.gain
                          settleEnd := 0, frames := [], lastEnd := 0, tcp := none, sums := [], bands := [], blade := [], bladeBad := false
                          atT := 0, atF := 0, atQ := 0, atOp := 0, atDm := 0, atTint := 0, bias := 0, skim := 0, chD := [], st := 0
                          tBlade := 0, meas := []
                          computed := false, openT := none, fit := [], fitEnd := 0, fitSpeedBad := false, fitted := false
                          satBefore := (match d.pwr.lastSat with | some t => decide (d.t < t + 60 * secT) | none => false)
                          taus := [] }
    let d := if kind = 1 then d.inc F.PROOF_CNT_FORCED_CNT else d
    let d := (((d.put F.PROOF_STAT_KIND kind).put F.PROOF_STAT_PHASE 1).put F.PROOF_LAST_T_T d.t).put F.PIPE_PL_STAT_SHADOW_OWNER 2
    let d := d.onProof fun z => { z with run := some r, condT := none }
    ((d.startDrive true 0).put F.PROOF_STAT_SHADOW_WAIT 0).putBit F.PROOF_STAT_TOKEN_WAIT false
  else d

/-- PROOF_BEGIN. -/
def execProofBegin (s : State) : Host.Outcome State Fault Refusal := .next (s.onDev proofBegin)

/-- SETTLING_END: from here on a frame boundary begins averaging, and 1 s without one aborts (R123). -/
def settlingEnd (d : Dev) : Dev :=
  match d.proof.run with
  | some r =>
    if d.get F.PROOF_STAT_PHASE = 2 ∧ r.settleEnd ≤ d.t ∧ r.lastEnd = 0 then
      d.onProof fun z => { z with run := some { r with lastEnd := r.settleEnd } }
    else d
  | none => d

/-- SETTLING_END. -/
def execSettlingEnd (s : State) : Host.Outcome State Fault Refusal := .next (s.onDev settlingEnd)

/-- NO_FRAMES: 1 s without a boundary in Settling or Averaging aborts; in Fitting the fit is skipped (R123). -/
def noFrames (d : Dev) : Dev :=
  match d.proof.run with
  | some r =>
    let ph := d.get F.PROOF_STAT_PHASE
    if (ph = 2 ∨ ph = 3) ∧ r.lastEnd ≠ 0 ∧ r.lastEnd + secT ≤ d.t then d.proofAbort 8
    else if ph = 5 ∧ r.fitEnd = 0 ∧ Nat.max (r.openT.getD 0) r.lastEnd + secT ≤ d.t then
      let d := d.onProof fun z => { z with run := some { r with fitted := true, taus := [] } }
      (((d.putBit F.PROOF_TAU_STAT_SKIP_FRAMES true).putBit F.PROOF_TAU_STAT_SKIP_SPEED r.fitSpeedBad).put F.PROOF_TAU_STAT_FITTED 0).put
        F.PROOF_STAT_PHASE 6
    else d
  | none => d

/-- NO_FRAMES. -/
def execNoFrames (s : State) : Host.Outcome State Fault Refusal := .next (s.onDev noFrames)

/-- The spread of the band means over the averaged frames (R128). -/
def bandSpread (bs : List BandSum) : Rat :=
  let avgs := (List.range 16).filterMap (fun b =>
    meanQ ((bs.filter (fun x => x.band == b)).map (fun x => (x.sum : Rat) / ((x.n : Nat) : Rat))))
  match (sortQ avgs).head?, (sortQ avgs).getLast? with
  | some lo, some hi => hi - lo
  | _, _ => 0

/-- COMMIT_POINT: the boundary after the last averaged frame (R120, R123, R125, R127, R128). -/
def commitPoint (m : Mems) (r : ProofRun) (d : Dev) : Dev :=
  let d := match d.bladeMean r with | some t => d.put F.PROOF_BLADE_T_T (satN 32 (rround t).toNat) | none => d
  match d.bladeResult r with
  | none => d.proofAbort 6
  | some tb =>
    let sen := match (r.frames.getLast?).bind (fun q => d.frame q.1) with
      | some f => f.bit F.PIPE_RAD_CTL_STAGE_EN | none => d.bit F.PIPE_RAD_CTL_STAGE_EN
    match targetSignal m d.store.qdrBad r.range (d.get F.PROOF_BLADE_CFG_EPS) sen tb r.atF r.atT with
    | none => d.proofAbort 6
    | some st =>
      if (d.get F.PROOF_BLADE_SPREAD_LIM : Rat) < bandSpread r.bands then d.proofAbort 7
      else
        let d := d.onProof fun z => { z with run := some { r with tcp := some d.t, st := st, tBlade := rround tb, chD := d.fpa.chD } }
        (d.put F.PROOF_STAT_PHASE 4).startDrive false 0

/-- Add a frame to the average (R123): the latches of the last one count. A frame that is not read out is none of them (R298). -/
def addAverage (f : Frame) (r : ProofRun) (d : Dev) : Dev :=
  if f.dark then (d.onProof fun z => { z with run := some { r with lastEnd := f.b + f.set.period } }).put F.PROOF_STAT_PHASE 3
  else
  (d.onProof fun z => { z with run := some { r with
    frames := r.frames ++ [(f.cnt, f.b)], lastEnd := f.b + f.set.period, atT := f.stageT, atF := f.frameT, atQ := f.stageQ
    atOp := d.optime, atDm := f.dm, atTint := f.set.tint, bias := f.set.bias, skim := f.set.skim } }).put F.PROOF_STAT_PHASE 3

/-- What a frame boundary does to the proof in progress, after the frame `f` has been formed (R123, R127, R129). -/
def proofBoundary (m : Mems) (f : Frame) (d : Dev) : Dev :=
  match d.proof.run with
  | none => d
  | some r =>
    let ph := d.get F.PROOF_STAT_PHASE
    if r.tcp.isNone && f.gen != r.gen then d.proofAbort 2
    else if ph = 2 ∧ r.settleEnd ≤ f.b then addAverage f r d
    else if ph = 3 then
      if r.frames.length < d.get F.PROOF_CTL_NAVG then addAverage f r d else commitPoint m r d
    else if ph = 5 then
      match r.openT with
      | some t =>
        if f.b < t ∨ r.fitEnd ≠ 0 then d
        else if r.fit.length < 3 ∧ f.dark then d.onProof fun z => { z with run := some { r with lastEnd := f.b + f.set.period } }
        else if r.fit.length < 3 then
          d.onProof fun z => { z with run := some { r with fit := r.fit ++ [⟨f.cnt, f.b, f.gen, f.triggered, []⟩], lastEnd := f.b + f.set.period } }
        else d.onProof fun z => { z with run := some { r with fitEnd := f.b } }
      | none => d
    else d

/-- The active pixels of a proof's window are listed in its sums. The channel of a pixel (R61). -/
def pixChan (substs : List Subst) (i : Nat) : Nat := 8 * sliceOf substs (i % 2560 + 8) + i / 2560 % 8

/-- S0′ of a channel: round(D) at the last averaged frame (R124). -/
def s0New (r : ProofRun) (ch : Nat) : Option Int := (assoc r.chD ch).map (fun q => rdiv q 16)

/-- The region of the plate a proof builds on: the plate of its range (R74, R126). -/
def Dev.proofBase (d : Dev) (range : Nat) : Nat :=
  if d.fpa.set.gain = range then d.get F.PIPE_PL_STAT_ACTIVE_REG else d.get F.PIPE_PL_STAT_STANDBY_REG

/-- The measured offset of a pixel (R124); none for a pixel that keeps its OFS. -/
def measOf (m : Mems) (d : Dev) (r : ProofRun) (i : Nat) (q : PixSum) : Option Rat :=
  let e := plateEntry m (d.proofBase r.range) i
  let fl := pixFlags m d.store.qdrBad (d.proofBase r.range) i ||| b2n (d.substCols.contains (i % 2560))
  if 2 * q.n < r.frames.length ∨ q.n = 0 ∨ fl.testBit 0 ∨ entGain e = 0 then none
  else
    let ch := pixChan d.fpa.substs i
    some ((q.sum : Rat) / ((16 * q.n : Nat) : Rat) + (((s0New r ch).getD (baseline m (d.proofBase r.range) ch) : Int) : Rat) -
      ((r.st * 8192 : Int) : Rat) / ((entGain e : Nat) : Rat))

/-- OFFSETS_COMPUTED: once every slot of the averaged frames has passed the pipeline (R124). -/
def offsetsComputed (m : Mems) (d : Dev) : Dev :=
  match d.proof.run with
  | some r =>
    let whole := r.frames.all (fun q => match d.frame q.1 with
      | some f => f.slots.length == f.set.rowSlots + 1 && f.slots.all (fun x => x.lost || x.done || x.slot == 0) | none => true)
    if r.tcp.isNone || r.computed || !whole then d
    else
      let meas := r.sums.filterMap (fun q => (measOf m d r q.1 q.2).map (fun o => (q.1, o)))
      let d := d.onProof fun z => { z with run := some { r with meas := meas, computed := true } }
      d.put F.PROOF_OFS_KEPT_CNT (nPix - meas.length)
  | none => d

/-- OFFSETS_COMPUTED. -/
def execOffsetsComputed (s : State) : Host.Outcome State Fault Refusal := .next (s.onDev (offsetsComputed s.mem))

/-- The new TAU of a pixel from its three values (R129); none where it stays. -/
def fitTau (w minstep delta tau : Nat) (y1 y2 y3 : Int) : Option Nat :=
  let d1 := y1 - y2
  let d2 := y2 - y3
  if d1 = 0 ∨ d1.natAbs < minstep then none
  else
    let q : Rat := (d2 : Rat) / (d1 : Rat)
    if q ≤ 0 ∨ 19 / 20 ≤ q then none
    else
      let tm := (delta : Rat) / (1000 * lnRat (1 / q))
      some (clampI 100 1023 ((tau : Int) + rround ((w : Rat) / 256 * (tm - (tau : Rat))))).toNat

/-- TAU_FIT: after the boundary that follows the third fitted frame (R129). -/
def tauFit (m : Mems) (d : Dev) : Dev :=
  match d.proof.run with
  | some r =>
    if d.get F.PROOF_STAT_PHASE ≠ 5 ∨ r.fitEnd = 0 ∨ r.fitted then d
    else
      let taus := match r.fit with
        | [f1, f2, f3] =>
          if !d.bit F.PROOF_TAU_CTL_EN || r.fitSpeedBad || f1.gen != f2.gen || f2.gen != f3.gen || f1.trig || f2.trig || f3.trig then []
          else f1.y.filterMap (fun p =>
            match assoc f2.y p.1, assoc f3.y p.1 with
            | some y2, some y3 =>
              (fitTau (d.get F.PROOF_TAU_CTL_W) (d.get F.PROOF_TAU_CTL_MINSTEP) (f3.b - f2.b)
                (entTau (plateEntry m (d.proofBase r.range) p.1)) p.2 y2 y3).map (fun t => (p.1, t))
            | _, _ => none)
        | _ => []
      let d := d.onProof fun z => { z with run := some { r with taus := taus, fitted := true } }
      (((d.put F.PROOF_TAU_STAT_FITTED taus.length).putBit F.PROOF_TAU_STAT_SKIP_SPEED r.fitSpeedBad).putBit F.PROOF_TAU_STAT_SKIP_FRAMES false).put
        F.PROOF_STAT_PHASE 6
  | none => d

/-- TAU_FIT. -/
def execTauFit (s : State) : Host.Outcome State Fault Refusal := .next (s.onDev (tauFit s.mem))

/-! ### Learning (R99 to R101) -/

/-- Clamp to 32 signed bits. -/
def clamp32 (v : Int) : Int := clampI (-2 ^ 31) (2 ^ 31 - 1) v

/-- Residuals e_i of the operable measured pixels (R99, R126). -/
def residuals (m : Mems) (d : Dev) (r : ProofRun) : List (Nat × Rat) :=
  let a := d.proofBase r.range
  let dT := r.atT - hdrTref m a
  r.meas.filterMap (fun q =>
    let e := plateEntry m a q.1
    if isDefect (pixFlags m d.store.qdrBad a q.1) || d.substCols.contains (q.1 % 2560) then none
    else
      let ch := pixChan d.fpa.substs q.1
      let s0 := baseline m a ch
      let rel := q.2 - (((s0New r ch).getD s0 : Int) : Rat) + (s0 : Rat)
      let pred := entOfs e + rdiv (entDra e * dT) 4000 + rdiv (entDrb e * r.atQ) 16000
      some (q.1, (rel - (pred : Rat)) * ((entGain e : Nat) : Rat) / 8192))

/-- The refit of the per-pixel drift terms (R101): none, DRB or DRA; W, the deviation's scale and divisor. -/
def driftFit (m : Mems) (d : Dev) (r : ProofRun) : Option (Bool × Int × Int) :=
  let dT := r.atT - hdrTref m (d.proofBase r.range)
  if d.bit F.PIPE_DF_CTL_DRB_EN ∧ r.atQ ≠ 0 ∧ d.get F.PIPE_DF_MINQ_Q ≤ r.atQ.natAbs then some (true, 16000, r.atQ)
  else if d.bit F.PIPE_DF_CTL_DRA_EN ∧ dT ≠ 0 ∧ d.get F.PIPE_DF_MINDT_DT ≤ dT.natAbs then some (false, 4000, dT)
  else none

/-- Show the trust state and keep it (R100). -/
def Dev.putTrust (d : Dev) (ok : Bool) : Dev :=
  let n := if ok then Nat.min 15 (d.get F.PIPE_DM_STAT_TRUST_CNT + 1) else 0
  let d := d.put F.PIPE_DM_STAT_TRUST_CNT n
  d.putBit F.PIPE_DM_STAT_TRUSTED (ok && (d.bit F.PIPE_DM_STAT_TRUSTED || decide (d.get F.PIPE_DM_TRUST_N ≤ n)))

/-- Learning at a proof's acceptance (R99, R100): the coefficients wait for the plate to enter into force. -/
def learnStep (m : Mems) (r : ProofRun) (es : List (Nat × Rat)) (d : Dev) : Dev :=
  let skip := !d.bit F.PIPE_DM_CTL_LEARN || r.satBefore
  let d := d.putBit F.PIPE_DM_STAT_SKIPPED skip
  match meanQ (es.map (·.2)) with
  | some e =>
    if skip then d.onBurin fun z => { z with learn := none }
    else
      let err := e - (r.atDm : Rat)
      let ref := d.refOf (hdrSeq m (d.proofBase r.range))
      let phi : List Int := [r.atT - ref.t, r.atF - ref.f, r.atQ - ref.q, (r.atOp : Int) - (ref.op : Int)]
      let norm := (phi.map (fun x => x * x)).foldl (· + ·) 0
      let mu := d.get F.PIPE_DM_CTL_MU
      let ks := (List.range 4).map (fun i =>
        let k := d.getI (F.PIPE_DM_K_K.at (4 * r.range + i))
        if norm = 0 then k
        else clamp32 (k + rround ((mu : Rat) / 256 * err * (((phi.getD i 0) * 65536 : Int) : Rat) / ((norm : Int) : Rat))))
      let d := d.onBurin fun z => { z with learn := some ⟨r.range, ks, rround err, true⟩, errs := ((rround err).natAbs :: z.errs).take 4 }
      let d := d.putI F.PIPE_DM_RESID_ERR (rround err)
      d.putTrust (decide ((if err < 0 then -err else err) ≤ (d.get F.PIPE_DM_TRUST_LIM : Rat)))
  | none => d.onBurin fun z => { z with learn := none }

/-- Temporal standard deviation of the counted samples of a pixel, in 1/16 of a 1/4 count (R299). -/
def pixSd (q : PixSum) : Rat :=
  if q.n = 0 then 0 else sqrtQ ((q.sq : Rat) / ((q.n : Nat) : Rat) - (q.sum : Rat) * (q.sum : Rat) / ((q.n * q.n : Nat) : Rat))

/-- Outlier pixels of a proof (R299): each raises an event that queues the test of its channel; how many proofs in a row a
pixel has been one is kept. -/
def outlierStep (r : ProofRun) (es : List (Nat × Rat)) (d : Dev) : Dev :=
  match meanQ (es.map (·.2)) with
  | none => d
  | some e =>
    let sd (i : Nat) : Rat := pixSd (Tab.get (⟨0, 0, 0⟩ : PixSum) r.sums i)
    let med := (median (es.map (fun q => sd q.1))).getD 0
    let lim : Rat := ((16 * d.get F.PIPE_DM_TRUST_LIM : Nat) : Rat)
    let out := (es.filter (fun q => decide (lim < (if q.2 < e then e - q.2 else q.2 - e)) || decide (4 * med < sd q.1))).map (·.1)
    let d := d.onHealth fun z => { z with outliers := out.map (fun i => (i, (assoc z.outliers i).getD 0 + 1)) }
    out.foldl (fun d i => d.event 0x0204 { elem := pixChan d.fpa.substs i, arg1 := i }) d

/-- `HEALTH_MP_STAT.STATE` (R301, R302). -/
def Dev.planShow (d : Dev) : Dev :=
  d.put F.HEALTH_MP_STAT_STATE (if d.health.planDue.isSome then (if d.health.planStart.isSome then 2 else 1)
    else if d.get F.HEALTH_MP_VCORE_STEPS ≠ d.health.vcoreTarget then 3 else if d.bit F.HEALTH_MP_STAT_RADIO_PEND then 4 else 0)

/-- MARGIN_PLAN_RUN completes once every applied output is in force; RESULT is their bitmap (R302). -/
def Dev.planCheck (d : Dev) : Dev :=
  let d := d.planShow
  if d.health.planKs.isEmpty || d.health.planStart.isSome || d.health.planDue.isSome || d.bit F.HEALTH_MP_STAT_RADIO_PEND ||
      d.get F.HEALTH_MP_VCORE_STEPS != d.health.vcoreTarget then d
  else (d.completeAll d.health.planKs St.ok 0 (d.get F.HEALTH_MP_STAT_APPLIED)).onHealth fun z => { z with planKs := [] }

/-- A completed proof leaves the Margin Plan's trims in force for good (R302). -/
def Dev.radioKeep (d : Dev) : Dev :=
  match d.health.radio with
  | some x =>
    if x.inForce then
      let new := x.skimNew.map (fun q => (x.range, q.1, q.2))
      let d := d.onHealth fun z => { z with
        radio := none, skim := new ++ z.skim.filter (fun q => !new.any (fun n => n.1 == q.1 && n.2.1 == q.2.1)) }
      (d.keepPush .modState 1).keepPush (.regs ((List.range 80).map (fun g =>
        (R.FPA_CGTRIM + 4 * g, d.reg (R.FPA_CGTRIM + 4 * g))))) 1
    else d
  | none => d

/-- A value as the bits of a `w`-bit signed field; a value that does not fit has no stated result (log 10). -/
def fitS (w : Nat) (i : Nat) (v : Int) : Nat :=
  if -(2 ^ (w - 1) : Int) ≤ v ∧ v < 2 ^ (w - 1) then uns w v else Config.noFit i w v % 2 ^ w

/-- A value as the bits of a `w`-bit unsigned field, likewise. -/
def fitU (w : Nat) (i : Nat) (v : Int) : Nat :=
  if 0 ≤ v ∧ v < 2 ^ w then v.toNat else Config.noFit i w v % 2 ^ w

/-- GAIN of a pixel in a column that awaits its proof (R126): scaled by g_ref of its own channel over g of the spare. -/
def newGain (d : Dev) (i g : Nat) : Nat :=
  match d.fpa.substs.find? (fun s => 32 * s.group + s.col == i % 2560 && s.inForce && s.cal) with
  | some s =>
    if s.proof then g
    else
      let p := i / 2560 % 8
      let gs := match d.cc.sumSpare.find? (fun q => q.1 == 8 * (34 * s.group + 32 + s.spare) + p) with
        | some q => (q.2.1 : Rat) / ((Nat.max 1 q.2.2 : Nat) : Rat) | none => 1
      let ref := Config.gRef (8 * (34 * s.group + s.col) + p)
      if gs = 0 then Config.noFit i 14 g % 2 ^ 14 else fitU 14 i (rround ((g : Rat) * (ref : Rat) / gs))
  | none => g

/-- The entry of a pixel in the proof's plate (R126). -/
def newEntry (d : Dev) (r : ProofRun) (fit : Option (Bool × Int × Int)) (mean : Rat) (es : List (Nat × Rat)) (i e : Nat) : Nat :=
  let w := d.get F.PIPE_DF_CTL_W
  let step (old : Int) (sc dv : Int) : Int :=
    match assoc es i with
    | some ei => clampI (-512) 511 (old + rround ((w : Rat) / 256 * (ei - mean) * (sc : Rat) / (dv : Rat)))
    | none => old
  let dra := match fit with | some (false, sc, dv) => step (entDra e) sc dv | _ => entDra e
  let drb := match fit with | some (true, sc, dv) => step (entDrb e) sc dv | _ => entDrb e
  let ofs := match assoc r.meas i with
    | some o => fitS 16 i (rround (o - ((drb * r.atQ : Int) : Rat) / 16000))
    | none => uns 16 (entOfs e)
  let tau := (assoc r.taus i).getD (entTau e)
  ofs + newGain d i (entGain e) * 2 ^ 16 + tau * 2 ^ 30 + uns 10 dra * 2 ^ 40 + uns 10 drb * 2 ^ 50 + entFlags e * 2 ^ 60

/-- The header of the proof's plate (R67, R126): the bytes from OPTIME to GEN. -/
def newHeader (r : ProofRun) : List Byte :=
  leBytes 4 r.atOp ++ leBytes 4 (uns 32 r.atT) ++ leBytes 2 r.bias ++ leBytes 2 r.skim ++ leBytes 1 r.range ++
    [0, 0, 0] ++ leBytes 4 (uns 32 r.tBlade) ++ leBytes 4 r.gen

/-- The columns whose GAIN the plate renews. -/
def renewCols (d : Dev) : List Nat := (d.fpa.substs.filter (fun s => s.inForce && s.cal && !s.proof)).map (fun s => 32 * s.group + s.col)

/-- Build the plate of a proof in SHADOW from the plate it started from (R126). -/
def buildPlate (r : ProofRun) (seq : Nat) (es : List (Nat × Rat)) (s : State) : State :=
  let d := s.dev
  let src := d.proofBase r.range
  let dst := d.get F.PIPE_PL_STAT_SHADOW_REG
  let fit := driftFit s.mem d r
  let mean := (meanQ (es.map (·.2))).getD 0
  let cols := renewCols d
  let pixels := ((r.meas.map (fun (q : Nat × Rat) => q.1)) ++ (r.taus.map (fun (q : Nat × Nat) => q.1)) ++ cols.flatMap (fun c => (List.range 2048).map (fun row => row * 2560 + c))).eraseDups
  let s := readPersistOf dst s
  let m0 := s.mem
  let s := s.qdrCopy (hdrAddr src) 0x10000 (hdrAddr dst)
  let s := s.qdrCopy (entAddr src) 0x02800000 (entAddr dst)
  let s := s.wrQdr (hdrAddr dst + 8) (newHeader r)
  let s := r.chD.foldl (fun (s : State) (q : Nat × Int) => s.wrQdr (hdrAddr dst + 0x100 + 2 * q.1) (leBytes 2 (fitS 16 q.1 (rdiv q.2 16)))) s
  let s := pixels.foldl (fun s i => s.wrQdr (entAddr dst + 8 * i) (leBytes 8 (newEntry d r fit mean es i (plateEntry m0 src i)))) s
  stampSeq dst seq s

/-- The proof's plate enters into force: the proof completes (R121, R139). -/
def proofComplete (d : Dev) : Dev :=
  match d.proof.accepted with
  | none => d
  | some (req, _, range) =>
    let d := (d.unrequest req).tallyInc 14
    let d := ((d.put F.PROOF_CNT_DONE_CNT (d.tally 14)).put F.PIPE_AC_PROOF_T_T d.t).put F.PROOF_STAT_PHASE 0
    let d := d.onProof fun z => { z with accepted := none }
    let d := match d.burin.learn with
      | some l =>
        let d := (List.range 4).foldl (fun (d : Dev) i => d.putI (F.PIPE_DM_K_K.at (4 * l.range + i)) (l.ks.getD i 0)) d
        let offs := (List.range 4).map (fun i => R.PIPE_DM_K + 4 * (4 * l.range + i)) ++ [R.PIPE_DM_STAT]
        d.keepPush (.regs (offs.map (fun o => (o, d.reg o)))) 1
      | none => d
    let d : Dev := d.onBurin fun z => { z with learn := none, proofDone := true, curveAfter := z.curveAfter.set range false }
    let d := d.keepPush .modState 1
    let d := d.onFpa fun z => { z with substs := z.substs.map (fun s => { s with closed := s.closed || (s.inForce && s.proof) }) }
    let open_ := d.fpa.substs.any (fun s => s.inForce && !s.closed)
    (d.putBit F.FPA_STAT_SUBST_OPEN open_).showOverdue.radioKeep

/-- PLATE_ACCEPTED: offsets computed and fit complete, the plate is accepted with a new SEQ, learning and fitting take place
(R126, R127 STORE). A plate of a range no longer in force becomes STANDBY at once (R74). -/
def plateAccepted (s : State) : State :=
  match s.dev.proof.run with
  | none => s
  | some r =>
    if s.dev.get F.PROOF_STAT_PHASE ≠ 6 ∨ ¬ r.computed ∨ ¬ r.fitted then s
    else if s.dev.tallyFailed 10 then s.onDev (fun d => d.proofAbort 11)
    else
      let es := residuals s.mem s.dev r
      let s := s.onDev (fun d => outlierStep r es (learnStep s.mem r es (d.tallyInc 10)))
      let seq := s.dev.tally 10
      let s := buildPlate r seq es s
      s.onDev (fun d =>
        let d := d.putRef ⟨seq, r.atT, r.atF, r.atQ, r.atOp, r.atTint⟩
        let d := d.onFpa fun z => { z with substs := z.substs.map (fun x => if x.inForce && x.cal then { x with proof := true } else x) }
        let d := d.onProof fun z => { z with run := none, accepted := some (r.req, seq, r.range) }
        if d.fpa.set.gain = r.range then acceptShadow r.range seq true d
        else
          let sh := d.get F.PIPE_PL_STAT_SHADOW_REG
          let sb := d.get F.PIPE_PL_STAT_STANDBY_REG
          let d := ((d.put F.PIPE_PL_STAT_STANDBY_REG sh).put F.PIPE_PL_STAT_SHADOW_REG sb).put F.PIPE_PL_STAT_SHADOW_OWNER 0
          let d := d.onPipe fun z => { z with regions := (z.regions.set sh ⟨true, r.range, 0, seq⟩).set sb ⟨false, 0, 0, 0⟩ }
          proofComplete (startPersist s.mem r.range sh (showPlates s.mem d)))

/-- PLATE_ACCEPTED. -/
def execPlateAccepted (s : State) : Host.Outcome State Fault Refusal := .next (plateAccepted s)

/-- A pending swap takes place (R72, R73); a proof's plate completes its proof. -/
def takeSwap (m : Mems) (d : Dev) : Dev :=
  match d.pipe.swap with
  | none => d
  | some x =>
    let d := swapRoles m d
    if x.proof then proofComplete d else d

/-- RUN at the tick T_ready + 2000 of a pending swap is noted as that tick ends (R73). -/
def Dev.swapWatch (d : Dev) : Dev :=
  match d.pipe.swap with
  | some x =>
    if x.ranAt.isNone && decide (x.ready + 2000 ≤ d.t) then
      d.onPipe fun z => { z with swap := some { x with ranAt := some (d.bit F.FPA_CTL_RUN) } }
    else d
  | none => d

/-- PLATE_SWAP_FALLBACK: the swap without a boundary (R73): RUN was 0 at T_ready + 2000, or a trigger made no boundary. A frame
in progress is waited for in both cases (log 79). -/
def swapFallback (m : Mems) (d : Dev) : Dev :=
  match d.pipe.swap with
  | none => d
  | some x =>
    let ran := x.ranAt.getD (d.bit F.FPA_CTL_RUN)
    let stopped := !ran && decide (x.ready + 2000 ≤ d.t) && !d.inFrame
    let trig := ran && d.frameSrc != 0 && decide (x.ready + 2000 + d.get F.PIPE_PL_CTL_FALLBACK * msT ≤ d.t) && !d.inFrame
    if stopped || trig then
      let d := takeSwap m ((d.flag F.PIPE_PL_STAT_FALLBACK).onPipe fun z => { z with plateNow := true })
      if x.proof then d else clusterStep m d
    else d

/-- PLATE_SWAP_FALLBACK. -/
def execPlateSwapFallback (s : State) : Host.Outcome State Fault Refusal := .next (s.onDev (swapFallback s.mem))

/-! ### Channel calibration (R138, R139) -/

/-- The groups of the window and the blind slices (80), in rising order. -/
def ccWindow (a : AcqSet) : List Nat := (List.range a.cgCount).map (fun g => a.cgFirst + g) ++ [80]

/-- Groups of the window whose spare slice is not yet calibrated. -/
def Dev.ccOpen (d : Dev) : List Nat :=
  (((d.fpa.substs.filter (fun s => s.inForce && !s.cal)).map (·.group)).filter (ccWindow d.fpa.set).contains).eraseDups

/-- The blanking begun at `v` is that of the frame in progress. -/
def Dev.blankNow (d : Dev) (v : Nat) : Bool :=
  d.fpa.frames.any (fun f => decide (f.b ≤ d.t ∧ d.t < f.b + f.set.period) && f.cut.isNone && v == f.b + (f.set.rowSlots + 1) * f.set.tslot)

/-- A pass ends now: its interval lies in the vertical blanking with its margin, or in an idle readout (R138). -/
def Dev.ccSlot (d : Dev) : Bool :=
  let lim (e : Nat) : Bool := match d.fpa.nextB with | some b => decide (e + 200 ≤ b) | none => true
  d.bit F.PROOF_CC_CTL_EN && !d.fpa.clockStop &&
  (match d.cc.vbStart with
   | some v => d.inFrame && d.blankNow v && (let e := v + 1000 * (d.cc.done + 1); decide (e ≤ d.t) && lim e)
   | none => false) ||
  (d.bit F.PROOF_CC_CTL_EN && d.fpa.frames.all (fun f => decide (f.b + f.set.period + 1000 ≤ d.t) || f.cut.isSome) &&
   decide (d.cc.lastEnd + 1000 ≤ d.t) && lim d.t)

/-- CHANNEL_CAL_PASS: the pass of the group whose turn it is; `gains` lists g by channel index. -/
def calPass (group : Nat) (gains : List (Nat × Nat)) (d : Dev) : Dev :=
  let win := ccWindow d.fpa.set
  let turn := (win.find? (fun g => decide (d.cc.next ≤ g))).getD (win.headD 80)
  let ok := if d.ccOpen.isEmpty then group == turn else d.ccOpen.contains group
  if !ok || !d.ccSlot then d
  else
    let lo := if group = 80 then 8 * 2720 else 8 * 34 * group
    let hi := if group = 80 then 8 * 2736 else 8 * 34 * (group + 1)
    let gs := gains.filter (fun q => decide (lo ≤ q.1 ∧ q.1 < hi))
    let wrap := d.ccOpen.isEmpty && group == 80
    let d := d.onCc fun z => { z with
      g := gs.foldl (fun t q => Tab.ins t q.1 q.2) z.g, lastEnd := d.t, done := z.done + 1
      next := if d.ccOpen.isEmpty then (if group = 80 then 0 else group + 1) else z.next }
    let d := d.put F.PROOF_CC_LAST_GROUP group
    let d := if wrap then d.incWrap F.PROOF_CC_LAST_SWEEPS else d
    let tol := d.get F.PROOF_CC_TOL_TOL
    let bad := gs.filter (fun q => decide (tol * Config.gRef q.1 < 1024 * ((q.2 : Int) - (Config.gRef q.1 : Int)).natAbs))
    let d := bad.foldl (fun d q => (d.inc F.PROOF_CC_OUTLIER_CNT).event 0x0201 { elem := q.1, arg0 := q.2 }) d
    let mine (s : Subst) : Bool := s.group == group && s.inForce && !s.cal
    let spare (s : Subst) (q : Nat × Nat) : Bool := decide (q.1 / 8 = 34 * s.group + 32 + s.spare)
    let d := (d.fpa.substs.filter mine).foldl (fun d s => (gs.filter (spare s)).foldl (fun d q =>
      let o := (d.cc.sumSpare.find? (fun x => x.1 == q.1)).getD (q.1, 0, 0)
      d.onCc fun z => { z with sumSpare := z.sumSpare.filter (fun x => x.1 != q.1) ++ [(q.1, o.2.1 + q.2, o.2.2 + 1)] }) d) d
    let fin := (d.fpa.substs.filter mine).any (fun s => decide (3 ≤ s.passes))
    let d := d.onFpa fun z => { z with substs := updIf z.substs mine (fun s => { s with passes := s.passes + 1, cal := decide (3 ≤ s.passes) }) }
    if fin then d.request 4 else d

/-- CHANNEL_CAL_PASS. -/
def execChannelCalPass (group : Fin 81) (gains : List (Nat × Nat)) (s : State) : Host.Outcome State Fault Refusal :=
  .next (s.onDev (calPass group.val gains))

/-- VERTICAL_BLANKING: the last slot of the frame in progress has integrated (R34); blanking entries of the converter
become due (R332). -/
def verticalBlanking (d : Dev) : Dev :=
  match d.fpa.frames.find? (fun f => decide (f.b ≤ d.t) && decide (d.t < f.b + f.set.period) && f.cut.isNone) with
  | some f =>
    let v := f.b + (f.set.rowSlots + 1) * f.set.tslot
    if v ≤ d.t ∧ d.cc.vbStart ≠ some v then
      ((d.onCc fun z => { z with vbStart := some v, done := 0 }).auxDue (fun tr => tr == 2)).auxStart
    else d
  | none => d

/-- VERTICAL_BLANKING. -/
def execVerticalBlanking (s : State) : Host.Outcome State Fault Refusal := .next (s.onDev verticalBlanking)

/-! ### Curves, coefficients and the class register (R100, R103, R113) -/

/-- CURVE_WRITE (R103): a checked image waits for its boundary under a new SEQ; its RANGE and FORMAT are not compared (DESIGN
CHOICE, log 86). -/
def doCurveWrite (c : Cmd) (d : Dev) : Dev :=
  let g := c.p8 24
  if 1 < g then d.complete c St.badParam 0 0
  else if !curveOk c.data then d.complete c St.refused 0 0
  else if d.tallyFailed 11 then d.complete c St.storeErr 0 0
  else
    let d := d.tallyInc 11
    let seq := d.tally 11
    let b := slice c.data 0 3 ++ [1] ++ leBytes 4 seq ++ slice c.data 8 0x6038
    let d := d.onBurin fun z => { z with curves := z.curves ++ [⟨g, d.t, seq, b ++ leBytes 4 (crc32c b)⟩] }
    (d.putBit F.PIPE_RAD_CV_STAT_PEND true).ok c seq

/-- The field slot of a range that does not hold its newest valid curve. -/
def curveSlot (m : Mems) (d : Dev) (range : Nat) : Nat :=
  let a := fieldA range
  let ok (i : Nat) : Bool := curveOk (m.f (curveFlash i) 0x6044) && !d.store.badSlots.contains (2, i)
  let sq (i : Nat) : Nat := m.fN (curveFlash i + 4) 4
  if ok a && (!ok (a + 1) || decide (sq (a + 1) ≤ sq a)) then a + 1 else a

/-- The field slot a curve write in progress fills. -/
def Dev.curveWriting (d : Dev) : Option (Nat × Nat) :=
  d.store.flashQ.findSome? (fun j => match j.what with | .curve g i _ => some (g, i) | _ => none)

/-- A curve that has taken effect goes to flash as the newest field curve of its range, into the slot that does not hold the newest
valid one, which is invalidated; while a write is in progress it waits, and only the newest waiting one is written (R77, R103). -/
def Dev.curvePersist (d : Dev) (m : Mems) (g : Nat) (bytes : List Byte) : Dev :=
  match d.curveWriting with
  | some _ => d.onBurin fun z => { z with curveWait := some (g, bytes) }
  | none =>
    let i := curveSlot m d g
    (d.onStore fun z => { z with badSlots := (2, i) :: z.badSlots.filter (· != (2, i)) }).flashPush (.curve g i bytes)

/-- Show a curve as the one in use. -/
def Dev.showCurve (d : Dev) (range src seq : Nat) : Dev :=
  if range = 0 then (d.put F.PIPE_RAD_CV_STAT_SRC_H src).put (F.PIPE_RAD_CV_SEQ_SEQ.at 0) seq
  else (d.put F.PIPE_RAD_CV_STAT_SRC_E src).put (F.PIPE_RAD_CV_SEQ_SEQ.at 1) seq

/-- Accepted curves of the range in force take effect at a boundary and go to flash (R103). -/
def takeCurves (b : Nat) (s : State) : State :=
  let g := s.dev.fpa.set.gain
  let due := s.dev.burin.curves.filter (fun c => c.range == g && decide (c.t + 2000 ≤ b))
  let s := due.foldl (fun s c =>
    let inst := match s.dev.curveWriting with
      | some (g', i) => if g' = g then 2 * fieldA g + 1 - i else curveSlot s.mem s.dev g
      | none => curveSlot s.mem s.dev g
    let s := s.wrQdr (curveAddr g) c.bytes
    s.onDev (fun d =>
      let d := (d.showCurve g (srcOfInst inst) c.seq).curvePersist s.mem g c.bytes
      (d.onBurin fun z => { z with curveAfter := z.curveAfter.set g true }).keepPush .modState 1)) s
  s.onDev (fun d =>
    let d := d.onBurin fun z => { z with curves := z.curves.filter (fun c => !(due.any (fun x => x.seq == c.seq))) }
    d.putBit F.PIPE_RAD_CV_STAT_PEND (!d.burin.curves.isEmpty))

/-- AC_CTL_WRITE: ignored whole where A_MIN or B_MIN would leave its range (R113). -/
def acCtlWrite (v : Word) (d : Dev) : Dev :=
  let a := v.toNat / 2 ^ 8 % 256
  let b := v.toNat / 2 ^ 16 % 256
  if 1 ≤ a ∧ a ≤ 15 ∧ a ≤ b ∧ b ≤ 60 then d.writeWord R.PIPE_AC_CTL v.toNat else d

/-- AC_CTL_WRITE. -/
def execAcCtlWrite (v : Word) (s : State) : Host.Outcome State Fault Refusal := .next (s.onDev (acCtlWrite v))

/-- DM_COEFF_WRITE: the value is stored in the Keep at once; the drift model is no longer trusted (R100). -/
def dmCoeffWrite (i : Nat) (v : Word) (d : Dev) : Dev :=
  let d := (d.put (F.PIPE_DM_K_K.at i) v.toNat).putTrust false
  d.keepPush (.regs [(R.PIPE_DM_K + 4 * i, v), (R.PIPE_DM_STAT, d.reg R.PIPE_DM_STAT)]) 1

/-- DM_COEFF_WRITE. -/
def execDmCoeffWrite (i : Fin 8) (v : Word) (s : State) : Host.Outcome State Fault Refusal := .next (s.onDev (dmCoeffWrite i.val v))

end Sys2Proof.Machine
end

