-- ==== Sys2Proof/Machine/Alarm.lean ====
section
/-! DEFINITION. Alarm rules, delay lines and alarm outputs (R169 to R171). -/

namespace Sys2Proof.Machine

/-- A rule entry of a profile (R169). -/
structure Rule where
  type : Nat
  out : Nat
  delay : Nat
  act : Nat
  limit : Nat
  minPix : Nat
  mask : Nat
  minLines : Nat
  deriving DecidableEq, Repr

/-- The rules in use of a profile image. -/
def rulesOf (b : List Byte) : List Rule :=
  (List.range (leAt b 4 1)).map (fun r =>
    let o := 1088 + 32 * r
    ⟨leAt b o 1, leAt b (o + 1) 1 % 4, leAt b (o + 2) 1, leAt b (o + 3) 1, leAt b (o + 4) 2, leAt b (o + 6) 2, leAt b (o + 8) 8,
     leAt b (o + 16) 1⟩)

/-- A line violates a rule (R169). -/
def violates (ls : List Lane) (l : EmLine) (xs : Nat → Int) (r : Rule) : Bool :=
  let idx := (List.range l.vals.length).filter (fun j => match laneAt ls (xs j) with | some a => r.mask.testBit a | none => false)
  let vs := (idx.map (fun j => l.vals.getD j 0)).filter (· != 0)
  let nsat := if r.act.testBit 0 then idx.countP (fun j => l.vals.getD j 0 == 0 && l.sat.getD j false) else 0
  let sum := vs.foldl (· + ·) 0
  let hit : Bool :=
    match r.type with
    | 1 => decide (r.minPix ≤ vs.countP (fun v => decide (r.limit < v)) + nsat)
    | 2 => decide (r.minPix ≤ vs.countP (fun v => decide (v < r.limit)) + nsat)
    | 3 => !vs.isEmpty && decide (r.limit * vs.length < sum)
    | 4 => !vs.isEmpty && decide (sum < r.limit * vs.length)
    | _ => !vs.isEmpty && decide (r.limit + vs.foldl Nat.min 65535 < maxN vs)
  hit || (r.act.testBit 1 && (l.flags.testBit 1 || l.flags.testBit 4 || l.flags.testBit 6)) || (r.act.testBit 2 && l.flags.testBit 7)

/-- W lies inside an interval, or its decision came late in this tick (R170). -/
def AlInt.inside (x : AlInt) (w now : Nat) : Bool := (decide (0 ≤ sdiff x.a w) && decide (sdiff x.e w < 0)) || x.late == some now

/-- Level of alarm output `n`: the pulse in pulse mode, else inside an interval; driven only with `EN` at 1. -/
def Dev.alarmLevel (d : Dev) (n : Nat) : Bool :=
  d.bit (F.STAT_AL_OUT_EN.at n) &&
  (if d.bit (F.STAT_AL_OUT_PULSE.at n) then (d.alarm.pulse.getD n none).isSome else d.alarm.inside.getD n false)

/-- Show the levels and the fullest delay line. -/
def Dev.showAlarm (d : Dev) : Dev :=
  (d.put F.STAT_AL_STAT_LEVEL (ofBits ((List.range 4).filter d.alarmLevel))).put F.STAT_AL_STAT_QMAX
    (maxN ((List.range 16).map (fun j => d.alarm.ints.countP (fun x => x.line == j))))

/-- Follow W: which outputs lie inside an interval; a change to asserted starts a pulse in pulse mode (R170). -/
def Dev.alarmEval (d : Dev) : Dev :=
  let w := d.get F.WEB_POS_W
  let ins := (List.range 4).map (fun n => d.alarm.ints.any (fun x => x.out == n && x.inside w d.t))
  let pulse := (List.range 4).map (fun n =>
    if ins.getD n false && !d.alarm.inside.getD n false && d.bit (F.STAT_AL_OUT_PULSE.at n) then
      some (d.t + d.get (F.STAT_AL_OUT_PULSE_US.at n) * usT)
    else d.alarm.pulse.getD n none)
  (d.onAlarm fun z => { z with inside := ins, pulse := pulse }).showAlarm

/-- Retire the intervals that W has reached the end of (R170). -/
def Dev.alarmRetire (d : Dev) : Dev :=
  let w := d.get F.WEB_POS_W
  (d.onAlarm fun z => { z with ints := z.ints.filter (fun x => decide (sdiff x.e w < 0) || x.late == some d.t) }).alarmEval

/-- The delay line that takes an interval of line `j` (R170: each holds 256): `j` itself while it has room; when it is full and its
output has no interval to be merged into, the first line that has room (DESIGN CHOICE, log 50: no rejection is lost and no line holds
more than 256). -/
def lineWithRoom (q : List AlInt) (j : Nat) : Option Nat :=
  (j :: List.range 16).find? (fun i => decide (q.countP (fun x => x.line == i) < 256))

/-- Queue an event of a rule (R170): with its delay line full it is merged into the newest interval of its output, one of that line
if there is one, else the newest of any line. -/
def Dev.alarmQueue (d : Dev) (r : Rule) (a e : Nat) : Dev :=
  let dl := d.get (F.STAT_AL_DELAY_D.at (r.delay % 16)) * 65536
  let a := wadd a (dl : Int)
  let e := wadd e (dl : Int)
  let d := d.inc (F.STAT_AL_FIRE_CNT.at r.out)
  let late := decide (0 ≤ sdiff a (d.get F.WEB_POS_W))
  let d := if late then d.inc F.STAT_AL_TARDY_CNT else d
  let lt := if late then some d.t else none
  let q := d.alarm.ints
  let full := decide (256 ≤ q.countP (fun x => x.line == r.delay))
  let own := q.any (fun x => x.line == r.delay && x.out == r.out)
  if full && q.any (fun x => x.out == r.out) then
    let q' := (updFirst (fun x => x.out == r.out && (!own || x.line == r.delay))
      (fun x => { x with
        a := if sdiff x.a a < 0 then a else x.a
        e := if 0 < sdiff x.e e then e else x.e
        late := if late then lt else x.late }) q.reverse).reverse
    (d.onAlarm fun z => { z with ints := q' }).inc F.STAT_AL_MERGED_CNT
  else match lineWithRoom q r.delay with
    | some j => d.onAlarm fun z => { z with ints := q ++ [⟨j, r.out, a, e, lt⟩] }
    | none => d

/-- One rule on one line: its run of violating lines and its event (R169). -/
def Dev.ruleLine (d : Dev) (l : EmLine) (hit : Bool) (k : Nat) (r : Rule) : Dev :=
  let rest := d.alarm.runs.filter (fun x => x.rule != k)
  if !hit then d.onAlarm fun z => { z with runs := rest }
  else
    let old := (d.alarm.runs.find? (fun x => x.rule == k)).getD ⟨l.prof, k, 0, l.start⟩
    let run : RuleRun := { old with run := old.run + 1 }
    let d := d.onAlarm fun z => { z with runs := rest ++ [run] }
    let e := wadd l.start (l.len : Int)
    if run.run = r.minLines then d.alarmQueue r run.start e
    else if r.minLines < run.run then d.alarmQueue r l.start e
    else d

/-- Every rule of an emitted line's profile (R169). A change of profile ends the runs. -/
def Dev.alarmLine (d : Dev) (l : EmLine) (xs : Nat → Int) : Dev :=
  match d.prof l.prof with
  | none => d
  | some b =>
    let ls := lanesOf b
    let d := d.onAlarm fun z => { z with runs := z.runs.filter (fun x => x.prof == l.prof) }
    ((rulesOf b).zipIdx.foldl (fun d q =>
      if q.1.type = 0 then d else d.ruleLine l (violates ls l xs q.1) q.2 q.1) d).alarmEval

/-- ALARM_INTERVAL_ENTER: W lies inside an interval, or has left one backward. -/
def execAlarmIntervalEnter (s : State) : Host.Outcome State Fault Refusal := .next (s.onDev Dev.alarmEval)

/-- ALARM_INTERVAL_RETIRE. -/
def execAlarmIntervalRetire (s : State) : Host.Outcome State Fault Refusal := .next (s.onDev Dev.alarmRetire)

/-- ALARM_PULSE_END: a pulse that has lasted `PULSE_US` ends (R170). -/
def alarmPulseEnd (n : Nat) (d : Dev) : Dev :=
  if dueBy (d.alarm.pulse.getD n none) d.t then (d.onAlarm fun z => { z with pulse := z.pulse.set n none }).showAlarm else d

/-- ALARM_PULSE_END. -/
def execAlarmPulseEnd (n : Fin 4) (s : State) : Host.Outcome State Fault Refusal := .next (s.onDev (alarmPulseEnd n.val))

/-- ALARM_QUEUE_CLR: every interval is retired and every output deasserted. -/
def execAlarmQueueClr (s : State) : Host.Outcome State Fault Refusal :=
  .next (s.onDev (fun d =>
    (d.onAlarm fun z => { z with ints := [], inside := List.replicate 4 false, pulse := List.replicate 4 none }).showAlarm))

/-- ALARM_CNT_CLR (R26). -/
def execAlarmCntClr (s : State) : Host.Outcome State Fault Refusal :=
  .next (s.onDev (fun d => d.clearAll ((List.range 4).map (fun n => F.STAT_AL_FIRE_CNT.at n) ++ [F.STAT_AL_TARDY_CNT, F.STAT_AL_MERGED_CNT])))

end Sys2Proof.Machine
end

