-- ==== Sys2Proof/Machine/Lines.lean ====
section
/-! DEFINITION. What becomes of an emitted line: strip records (R157, R158, R240), statistics, alarms, emission delay
(R305, R306), and the segments of a member (R205, R221, R227). -/

namespace Sys2Proof.Machine

/-! ### Grid (R147) -/

/-- A line of the grid: start, length, profile, first of its grid, cut short by the next. -/
structure LineId where
  start : Nat
  len : Nat
  prof : Nat
  edge : Bool
  trunc : Bool
  deriving DecidableEq, Repr

/-- The end of a line. -/
def LineId.fin (i : LineId) : Nat := wadd i.start (i.len : Int)

/-- The line that holds a coordinate, if a profile's grid covers it. -/
def Dev.lineAt (d : Dev) (x : Nat) : Option LineId :=
  match d.gridAt x with
  | none => none
  | some g =>
    let p := d.pitch g.prof
    if p = 0 then none
    else
      let start := wadd g.x0 (sdiff g.x0 x / (p : Int) * (p : Int))
      let nxt := d.grids.find? (fun h => decide (0 < sdiff start h.x0) && decide (sdiff start h.x0 < (p : Int)))
      match nxt with
      | some h => some ⟨start, (sdiff start h.x0).toNat, g.prof, start == g.x0, true⟩
      | none => some ⟨start, p, g.prof, start == g.x0, false⟩

/-! ### Channels -/

/-- Where a channel stands. -/
def Dev.chan (d : Dev) (c : Nat) : ChanSt := (d.stand.chans.find? (fun x => x.chan == c)).getD ⟨c, 0, 0, 0⟩

/-- The channel has emitted a line, or its state was heard. -/
def Dev.chanUsed (d : Dev) (c : Nat) : Bool := d.stand.chans.any (fun x => x.chan == c)

/-- Replace a channel's state. -/
def Dev.putChan (d : Dev) (x : ChanSt) : Dev := d.onStand fun z => { z with chans := z.chans.filter (fun y => y.chan != x.chan) ++ [x] }

/-- The STRIP ring of a channel (R240): 2 + `RING` in a stand of one, else the map's entry if it names a STRIP ring. -/
def Dev.stripRing (d : Dev) (c : Nat) : Nat × Dev :=
  if !d.inStand then (2 + d.get F.WEB_REC_CTL_RING, d)
  else
    let n := d.get F.HOST_STRIP_MAP_MAP / 16 ^ c % 16
    if (2 ≤ n ∧ n ≤ 5) ∨ (11 ≤ n ∧ d.isStripRing n) then (n, d.onHost fun z => { z with chanRing := z.chanRing.set c n })
    else (d.host.chanRing.getD c 2, d)

/-! ### Records (R157, R158) -/

/-- Mean of the pixels of a group that have a value, 0 if none has. -/
def binMean (vs : List Nat) : Nat :=
  let q := vs.filter (· != 0)
  if q.isEmpty then 0 else (rdiv (q.foldl (· + ·) 0 : Nat) (q.length : Nat)).toNat

/-- Pixels per output pixel of a profile's OUT_FMT. -/
def fmtBin (fmt : Nat) : Nat := if fmt = 1 then 2 else if fmt = 2 then 4 else 1

/-- The pixels a record carries of a line. -/
def outPixels (fmt : Nat) (vs : List Nat) : List Nat :=
  let g := fmtBin fmt
  if g = 1 then vs else (List.range (vs.length / g)).map (fun i => binMean ((vs.drop (g * i)).take g))

/-- The lowest and highest generation of lines, if any has a sample. -/
def genSpan (ls : List EmLine) : Option (Nat × Nat) := ls.foldl widen none

/-- The bytes of a strip record (R157). GEN and CLASS of a record without a sample are free values. -/
def stripRecord (fmt idx seq : Nat) (ls : List EmLine) (l0 lz : EmLine) : List Byte :=
  let px := ls.map (fun l => outPixels fmt l.vals)
  let g := (genSpan ls).getD (Config.noStat idx 65 0 % 2 ^ 32, Config.noStat idx 65 1 % 2 ^ 32)
  let cls := if (genSpan ls).isSome then maxN ((ls.filter (fun l => l.depth != 0)).map (·.cls)) else Config.noStat idx 65 2 % 2 ^ 8
  let head := leBytes 2 1 ++ leBytes 1 l0.chan ++ leBytes 1 l0.prof ++ leBytes 2 l0.flags ++ leBytes 2 ls.length ++ leBytes 8 l0.start ++
    leBytes 4 l0.len ++ leBytes 2 (outPixels fmt l0.vals).length ++ leBytes 1 ((ls.map (·.dmin)).foldl Nat.min 255) ++
    leBytes 1 (maxN (ls.map (·.dmax))) ++ leBytes 4 g.1 ++ leBytes 4 g.2 ++ leBytes 8 l0.index ++ leBytes 8 lz.tEmit ++
    leBytes 4 seq ++ leBytes 1 cls ++ List.replicate 7 0
  withCrc head (px.flatMap (fun vs => vs.flatMap (fun v => leBytes 2 v)))

/-- Close the record of a channel and deliver it (R158, R240). -/
def Dev.closeRec (d : Dev) (c : Nat) : Dev :=
  match d.stand.mrecs.find? (fun r => r.chan == c) with
  | none => d
  | some r =>
    let d := d.onStand fun z => { z with mrecs := z.mrecs.filter (fun x => x.chan != c) }
    match r.rec_.lines.head?, r.rec_.lines.getLast? with
    | some l0, some lz =>
      let ch := d.chan c
      let bs := stripRecord (d.profF l0.prof 5 1) d.freeIdx ch.seq r.rec_.lines l0 lz
      let d := (d.putChan { ch with seq := (ch.seq + 1) % 2 ^ 32 }).fresh
      let q := d.stripRing c
      q.2.formRec q.1 bs r.rec_.lines.length
    | _, _ => d

/-- Two lines may share a record (R157): the second follows the first on the web. -/
def shareRec (a b : EmLine) : Bool :=
  wadd a.start (a.len : Int) == b.start && a.prof == b.prof && a.len == b.len && a.vals.length == b.vals.length && a.flags == b.flags && !a.trunc && !b.trunc

/-- A line into the open record of its channel. -/
def Dev.recLine (d : Dev) (l : EmLine) : Dev :=
  if d.profF l.prof 5 1 = 3 then d
  else
    let old (d : Dev) : Option MRec := d.stand.mrecs.find? (fun r => r.chan == l.chan)
    let d := match old d with
      | some r => if (match r.rec_.lines.getLast? with | some a => shareRec a l | none => true) then d else d.closeRec l.chan
      | none => d
    let r : MRec := match old d with
      | some r => ⟨l.chan, { r.rec_ with lines := r.rec_.lines ++ [l] }⟩
      | none => ⟨l.chan, ⟨d.t, [l]⟩⟩
    let d := d.onStand fun z => { z with mrecs := z.mrecs.filter (fun x => x.chan != l.chan) ++ [r] }
    if l.trunc ∨ 256 ≤ r.rec_.lines.length then d.closeRec l.chan else d

/-- RECORD_TIMEOUT: records whose first line has waited `TMO` × 100 µs close (R158). -/
def recordTimeout (d : Dev) : Dev :=
  ((d.stand.mrecs.filter (fun r => decide (r.rec_.t0 + d.get F.WEB_REC_CTL_TMO * 100 * usT ≤ d.t))).map (·.chan)).foldl Dev.closeRec d

/-- RECORD_TIMEOUT. -/
def execRecordTimeout (s : State) : Host.Outcome State Fault Refusal := .next (s.onDev recordTimeout)

/-! ### Emission delay (R305, R306) -/

/-- Nothing of R305 excuses a late line. -/
def Dev.stopCounts (d : Dev) (c : Nat) : Bool :=
  !d.bit F.WEB_STAT_STOPPED && !d.bit F.WEB_STAT_BACK && !d.bit F.WEB_STAT_NO_PROFILE && d.bit F.FPA_CTL_RUN &&
  d.bit F.HOST_STAT_LINK_UP && d.ringState (d.stripRing c).1 == 1

/-- Measure the emission delay of a line that was due at tick `due`. -/
def Dev.emitDelay (d : Dev) (c due : Nat) : Dev :=
  let us := (d.t - due) / usT
  let d := d.put F.HEALTH_STOP_MAX_VAL (Nat.max (d.get F.HEALTH_STOP_MAX_VAL) (satN 32 us))
  if 100 * msT < d.t - due ∧ d.stopCounts c then
    let d := d.inc F.HEALTH_STOPS_VAL
    d.event 0x0F05 { arg0 := d.get F.HEALTH_STOPS_VAL, arg1 := us }
  else d

/-! ### A line delivered as root or as a stand of one -/

/-- Number a line of a channel and hand it to records, statistics and alarms (R157, R163, R169). -/
def Dev.deliverLine (d : Dev) (l : EmLine) (xs : Nat → Int) (due : Nat) : Dev :=
  let ch := d.chan l.chan
  let l := { l with index := ch.index, tEmit := d.t }
  let d := d.putChan { ch with index := (ch.index + 1) % 2 ^ 64, fin := wadd l.start (l.len : Int) }
  let d := d.recLine l
  let d := if l.chan = d.get F.WEB_REC_CTL_CHANNEL then (d.statLine l xs).alarmLine l xs else d
  d.emitDelay l.chan due

/-! ### Segments (R221) -/

/-- The payloads of a segment message. -/
def segPayloads (sg : Segment) : List (List Byte) :=
  let head := leBytes 1 sg.channel ++ leBytes 1 sg.profile ++ leBytes 2 sg.flags ++ leBytes 8 sg.web.toNat ++ leBytes 4 sg.pitch ++
    leBytes 4 sg.genLo.toNat ++ leBytes 4 sg.genHi.toNat ++ leBytes 2 sg.px.length ++ leBytes 1 sg.cls ++ leBytes 1 sg.depth
  let data (i : Nat) : List Byte :=
    let q := (sg.px.drop (12 * i)).take 12
    slice (q.flatMap (fun p => leBytes 2 p.v)) 0 24 ++
      leBytes 2 (ofBits ((List.range q.length).filter (fun k => (q.getD k ⟨0, false, 0, 0⟩).sat))) ++
      leBytes 1 ((q.map (·.dmin)).foldl Nat.min 255) ++ leBytes 1 (maxN (q.map (·.dmax)))
  head :: (List.range (cdiv sg.px.length 12)).map data

/-- A line of this module as a segment of its slot: W_OFS is added to its coordinate (R221). -/
def segOf (slot chan : Nat) (wofs : Int) (l : EmLine) : Segment :=
  ⟨slot, chan, l.prof, l.flags, BitVec.ofNat 64 (wadd l.start wofs), l.len, BitVec.ofNat 32 l.genLo, BitVec.ofNat 32 l.genHi, l.cls,
   l.depth, (List.range l.vals.length).map (fun j => ⟨l.vals.getD j 0, l.sat.getD j false, l.vd.getD j l.dmin, l.vmax.getD j l.dmax⟩), true⟩

/-- A member may send segments: an imaging or standby slot, in time (R205). -/
def Dev.maySegment (d : Dev) : Bool :=
  let r := d.get F.STAND_STAT_ROLE
  (r == 2 || r == 3 || (r == 4 && d.bit F.STAND_CTL_STBY_TX)) && d.bit F.STAND_STAT_TIME_OK

/-- A sub-stand root sends a line of its channel as a segment of the parent, on its U port (R227). -/
def Dev.toParent (d : Dev) (q : ParentSt) (sg : Segment) : Dev :=
  let ps := segPayloads { sg with slot := q.slot, channel := (q.chan + sg.channel) % 16, web := BitVec.ofNat 64 (wadd sg.web.toNat q.wofs) }
  ps.zipIdx.foldl (fun d p =>
    let n := d.nextSeq 0x41
    n.2.pushOwn 2 ⟨1, q.slot, q.epoch % 256, n.1, flFlags p.2 ps.length, slice p.1 0 28⟩) d

end Sys2Proof.Machine
end

