-- ==== Sys2Proof/Machine/Merge.lean ====
section
/-! DEFINITION. The merge engine of the root: segments into stand lines, blending and seam matching (R220, R222 to R226). -/

namespace Sys2Proof.Machine

/-- Slot `s` has failed in a group command (R218, R220). -/
def Dev.failed (d : Dev) (s : Nat) : Bool := (d.get F.STAND_DEGRADED_MAP).testBit s

/-- Slots of a kind in a channel, in COL0 order. -/
def Dev.slotsOf (d : Dev) (kind chan : Nat) : List Nat :=
  let ss := (List.range 32).filter (fun s => match d.ent s with | some e => e.kind == kind && e.chan == chan | none => false)
  let col (s : Nat) : Nat := match d.ent s with | some e => e.col0 | none => 0
  ss.foldl (fun acc s => (acc.filter (fun x => decide (col x ≤ col s))) ++ [s] ++ acc.filter (fun x => decide (col s < col x))) []

/-- The sub-stand slot whose channels hold `chan`: the one of the largest first channel at or below it. -/
def Dev.subSlot (d : Dev) (chan : Nat) : Option Nat :=
  ((List.range 32).filter (fun s => match d.ent s with | some e => e.kind == 3 && decide (e.chan ≤ chan) | none => false)).foldl
    (fun b s => match b with
      | none => some s
      | some x => if (match d.ent x, d.ent s with | some a, some c => decide (a.chan < c.chan) | _, _ => false) then some s else some x) none

/-- The channel belongs to a sub-stand. -/
def Dev.subChan (d : Dev) (chan : Nat) : Bool := (d.subSlot chan).isSome && (d.slotsOf 1 chan).isEmpty

/-- Window columns of a slot: this module's own, or as last heard. -/
def Dev.colsOf (d : Dev) (s : Nat) : Nat :=
  if s = d.get F.STAND_STAT_SLOT then d.fpa.set.cols else (assoc d.stand.cols s).getD 2560

/-- First stand pixel of a slot. -/
def Dev.col0 (d : Dev) (s : Nat) : Nat := match d.ent s with | some e => e.col0 | none => 0

/-- Width of a channel: the largest COL0 + window columns of its imaging slots (R202). -/
def Dev.chanWidth (d : Dev) (chan : Nat) : Nat := maxN ((d.slotsOf 1 chan).map (fun s => d.col0 s + d.colsOf s))

/-- Slot `s` is allowed to send under R205, as its HEART shows. -/
def Dev.sending (d : Dev) (s : Nat) : Bool :=
  s == d.get F.STAND_STAT_SLOT || (match d.stand.heard.find? (fun h => h.slot == s) with | some h => h.flags.testBit 0 | none => false)

/-- A region of a channel: an imaging slot, or one without an imaging slot that a standby covers in its own right, which may be
the standby's own (R211). -/
def Dev.regions (d : Dev) (chan : Nat) : List Nat :=
  let covered (s : Nat) : Bool := (List.range 32).any (fun t => match d.ent t with | some e => e.kind == 2 && e.cover == s && e.chan == chan | none => false)
  let own (s : Nat) : Bool := match d.ent s with | some e => e.cover == s | none => false
  d.slotsOf 1 chan ++ (d.slotsOf 4 chan).filter covered ++ (d.slotsOf 2 chan).filter own

/-- The segment of a line held from a slot that has not failed. -/
def segFrom (d : Dev) (l : MLine) (s : Nat) : Option Segment := if d.failed s then none else l.segs.find? (fun g => g.slot == s)

/-- How a region of a line is filled (R222): the segment, and whether a standby stands in. -/
def fillRegion (d : Dev) (l : MLine) (s : Nat) : Option (Segment × Bool) :=
  let own := segFrom d l s
  let clear (g : Segment) : Bool := !g.flags.testBit 3
  let kind := match d.ent s with | some e => e.kind | none => 0
  match (if kind = 1 then own.filter clear else none) with
  | some g => some (g, false)
  | none =>
    let cov := (List.range 32).filter (fun t => match d.ent t with | some e => e.kind == 2 && e.cover == s && d.alive t | none => false)
    match cov.findSome? (fun t => segFrom d l t) with
    | some g => some (g, true)
    | none => if kind = 1 then own.map (fun g => (g, false)) else none

/-- A trimmed pixel value (R225). -/
def trimPx (d : Dev) (s v : Nat) : Nat :=
  if v = 0 then 0
  else
    let o := d.getI (F.STAND_TRIM_OFS.at s)
    let g := d.getI (F.STAND_TRIM_GAIN.at s)
    (clampI 1 65535 (rdiv (65536 * (v : Int) + 4096 * o + g * ((v : Int) - (d.get F.STAND_SEAM_TREF_VAL : Nat))) 65536)).toNat

/-- A filled region in place: its slot, its first stand pixel and its trimmed pixels. -/
structure Placed_ where
  region : Nat
  slot : Nat
  col0 : Nat
  px : List SegPx

/-- The pixel of a placed region at stand pixel `x`. -/
def Placed_.at (p : Placed_) (x : Nat) : Option SegPx := if x < p.col0 then none else p.px[x - p.col0]?

/-- Blend of two trimmed values over an overlap of `n` pixels at `i` from the left (R225). -/
def blend (n i a b : Nat) : Nat :=
  if a = 0 then b else if b = 0 then a
  else (rdiv (((2 * n : Int) - 2 * i - 1) * a + (2 * i + 1 : Nat) * (b : Int)) (2 * n : Nat)).toNat

/-- A stand pixel: value, saturated, depths, the slot and column it shows most of, and whether any segment covers it. -/
structure StPx where
  px : SegPx
  slot : Nat
  col : Nat
  used : Bool

/-- The stand pixel at `x` of placed regions in COL0 order. -/
def stPixel (ps : List Placed_) (x : Nat) : StPx :=
  match ps.filter (fun p => (p.at x).isSome) with
  | [] => ⟨⟨0, false, 0, 0⟩, 0, x, false⟩
  | [a] => ⟨(a.at x).getD ⟨0, false, 0, 0⟩, a.slot, x - a.col0, true⟩
  | a :: b :: _ =>
    let n := Nat.min (a.col0 + a.px.length) (b.col0 + b.px.length) - b.col0
    let i := x - b.col0
    let pa := (a.at x).getD ⟨0, false, 0, 0⟩
    let pb := (b.at x).getD ⟨0, false, 0, 0⟩
    let v := blend n i pa.v pb.v
    if 2 * i + 1 ≤ 2 * n - 2 * i - 1 then ⟨{ pa with v := v }, a.slot, x - a.col0, true⟩ else ⟨{ pb with v := v }, b.slot, x - b.col0, true⟩

/-- X of a pixel of a slot: from the geometry map in force for this module's own slot. -/
def Dev.pxX (d : Dev) (slot col : Nat) : Int :=
  if slot = d.get F.STAND_STAT_SLOT then d.geoX (32 * d.fpa.set.cgFirst + col) else Config.standX slot col

/-! ### Seam matching (R226) -/

/-- A block of a seam ends: MEAN and SLOPE are shown and the trims of the far side move. `far` is that side's slot, `sg` is
its sign. -/
def Dev.seamUpdate (d : Dev) (a : SeamAcc) (far : Nat) (sg : Int) : Dev :=
  if a.n = 0 then d
  else
    let m : Rat := 16 * ((a.sb - a.sa : Int) : Rat) / (a.n : Rat)
    let den : Int := (a.n : Int) * a.saa - a.sa * a.sa
    let s1 : Rat :=
      if d.get F.STAND_SEAM_MINSPAN_VAL ≤ a.mx - a.mn ∧ den ≠ 0 then (((a.n : Int) * a.sab - a.sa * a.sb : Int) : Rat) / (den : Rat) - 1 else 0
    let mu : Rat := (d.get F.STAND_SEAM_CTL_MU : Rat) / 256
    let d := (d.putI (F.STAND_SEAM_MEAN.at a.slot) (clampI (-32768) 32767 (rround m))).putI (F.STAND_SEAM_SLOPE.at a.slot)
      (clampI (-32768) 32767 (rround (65536 * s1)))
    let o := clampI (-400) 400 (d.getI (F.STAND_TRIM_OFS.at far) - sg * rround (mu * m))
    let g := clampI (-655) 655 (d.getI (F.STAND_TRIM_GAIN.at far) - sg * rround (mu * s1 * 65536))
    let d := (d.putI (F.STAND_TRIM_OFS.at far) o).putI (F.STAND_TRIM_GAIN.at far) g
    d.put F.STAND_SEAM_AT_LIMIT_MAP (setB (d.get F.STAND_SEAM_AT_LIMIT_MAP) a.slot (o.natAbs == 400 || g.natAbs == 655))

/-- One used line into the block of the seam between placed regions `a` and `b`. -/
def seamAdd (q : SeamAcc) (a b : Placed_) : SeamAcc :=
  let n := Nat.min (a.col0 + a.px.length) (b.col0 + b.px.length) - b.col0
  (List.range n).foldl (fun q i =>
    let va := ((a.at (b.col0 + i)).getD ⟨0, false, 0, 0⟩).v
    let vb := ((b.at (b.col0 + i)).getD ⟨0, false, 0, 0⟩).v
    if va = 0 ∨ vb = 0 then q
    else { q with
      n := q.n + 1
      sa := q.sa + va
      sb := q.sb + vb
      saa := q.saa + va * va
      sab := q.sab + va * vb
      mn := if q.n = 0 then va else Nat.min q.mn va
      mx := Nat.max q.mx va }) { q with lines := q.lines + 1 }

/-- One seam of an emitted line: its block, and at the block's end its trims. The far side in COL0 order from the reference
slot is trimmed. -/
def Dev.seamLine (d : Dev) (chan : Nat) (a b : Placed_) : Dev :=
  if b.col0 ≥ a.col0 + a.px.length then d
  else
    let q := seamAdd ((d.stand.seams.find? (fun x => x.slot == a.region)).getD ⟨a.region, 0, 0, 0, 0, 0, 0, 0, 0⟩) a b
    let rest := d.stand.seams.filter (fun x => x.slot != a.region)
    if q.lines < d.get F.STAND_SEAM_CTL_BLOCK then d.onStand fun z => { z with seams := rest ++ [q] }
    else
      let order := d.slotsOf 1 chan
      let ref := (order.find? (fun s => match d.ent s with | some e => e.flags.testBit 2 | none => false)).getD (order.headD 0)
      let right := decide (order.idxOf ref ≤ order.idxOf a.region)
      (d.onStand fun z => { z with seams := rest }).seamUpdate q (if right then b.region else a.region) (if right then 1 else -1)

/-- Neighbouring pairs of a list. -/
def pairs {α : Type} (l : List α) : List (α × α) := l.zip (l.drop 1)

/-! ### Building and emitting a stand line -/

/-- The length a line has: the pitch its segments give. -/
def MLine.fin (l : MLine) : Nat := wadd l.web (l.pitch : Int)

/-- Every live imaging slot of the channel that has not failed has sent its segment (R222). -/
def Dev.lineComplete (d : Dev) (l : MLine) : Bool :=
  if d.subChan l.chan then !l.segs.isEmpty
  else (d.slotsOf 1 l.chan).all (fun s => !d.alive s || d.failed s || (l.segs.any (fun g => g.slot == s)))

/-- Filled regions put in order of their COL0. -/
def byCol0 (ps : List (Placed_ × Segment × Bool)) : List (Placed_ × Segment × Bool) :=
  ps.foldl (fun acc p => acc.filter (fun q => decide (q.1.col0 ≤ p.1.col0)) ++ [p] ++ acc.filter (fun q => decide (p.1.col0 < q.1.col0))) []

/-- The filled regions of a line in order of the COL0 of the slots that fill them (R225). -/
def Dev.placedOf (d : Dev) (l : MLine) : List (Placed_ × Segment × Bool) :=
  byCol0 ((d.regions l.chan).filterMap (fun s => (fillRegion d l s).map (fun q =>
    (⟨s, q.1.slot, d.col0 q.1.slot, q.1.px.map (fun p => { p with v := trimPx d q.1.slot p.v })⟩, q.1, q.2))))

/-- The flags the root sets itself on a line (R222, R223, R225, R226). -/
def Dev.rootFlags (d : Dev) (l : MLine) (ps : List (Placed_ × Segment × Bool)) : Nat :=
  let missing := (d.slotsOf 1 l.chan).filter (fun s => !ps.any (fun q => q.1.region == s))
  let late := missing.any (fun s => d.alive s && !d.failed s && d.sending s) || l.cut
  let lim := (pairs (ps.map (·.1))).any (fun q =>
    decide (q.2.col0 < q.1.col0 + q.1.px.length) && (d.get F.STAND_SEAM_AT_LIMIT_MAP).testBit q.1.region)
  (if missing.isEmpty && !l.cut then 0 else 2 ^ 4) + (if lim then 2 ^ 5 else 0) + (if ps.any (·.2.2) then 2 ^ 9 else 0) +
    (if late then 2 ^ 11 else 0)

/-- A merged line from its stand pixels, its used segments and the root's flags (R224). Without a pixel that a segment covers,
DEPTH_MIN and DEPTH_MAX are free values. -/
def mergedLine (idx : Nat) (prof : Option (List Byte)) (l : MLine) (sgs : List Segment) (fl : Nat) (sp : List StPx) : EmLine :=
  let px := sp.map (·.px)
  let dep := (sp.filter (·.used)).map (·.px)
  let used := sgs.filter (fun g => g.depth != 0)
  let lo := (used.map (fun g => g.genLo.toNat)).foldl (fun (a : Option Nat) g => match a with | none => some g | some x => some (if later32 x g then g else x)) none
  let hi := (used.map (fun g => g.genHi.toNat)).foldl (fun (a : Option Nat) g => match a with | none => some g | some x => some (if later32 g x then g else x)) none
  let fl := sgs.foldl (fun a g => a ||| (g.flags % 2 ^ 13 / 2 * 2)) fl
  let fl := if lo = hi then fl else fl ||| 4
  let fl := if px.all (fun p => p.v != 0) then fl ||| 1 else fl
  let short := match prof with | some b => l.pitch != leAt b 8 2 * 65536 | none => false
  { start := l.web, len := l.pitch, prof := l.profile, chan := l.chan, flags := fl, trunc := short, edge := fl.testBit 10 && !short,
    vals := px.map (·.v), sat := px.map (·.sat), vd := px.map (·.dmin), vmax := px.map (·.dmax),
    dmin := if dep.isEmpty then Config.noStat idx 66 0 % 2 ^ 8 else (dep.map (·.dmin)).foldl Nat.min 255,
    dmax := if dep.isEmpty then Config.noStat idx 66 1 % 2 ^ 8 else maxN (dep.map (·.dmax)),
    depth := maxN (sgs.map (·.depth)), genLo := lo.getD 0, genHi := hi.getD 0, cls := maxN (used.map (·.cls)), index := 0, tEmit := 0 }

/-- The line as the strip channel carries it: delivered to the host, or sent on to the parent by a sub-stand root (R227). -/
def Dev.sendLine (d : Dev) (l : EmLine) (xs : Nat → Int) (due : Nat) : Dev :=
  match d.stand.parent with
  | some q =>
    let ch := d.chan l.chan
    let d := d.putChan { ch with index := (ch.index + 1) % 2 ^ 64, fin := wadd l.start (l.len : Int) }
    (d.toParent q (segOf q.slot l.chan 0 l)).emitDelay l.chan due
  | none => d.deliverLine l xs due

/-- The tick by which a line of the merge engine is due. -/
def Dev.mergeDue (d : Dev) (l : MLine) : Nat := l.t0 + d.get F.STAND_MERGE_CTL_WAIT * 100 * usT

/-- Emit the line of a sub-stand channel: its segment alone, neither trimmed nor blended (R227). A line without its segment is
missing, and late where overflow cut it (R222, R223). -/
def Dev.emitSub (d : Dev) (l : MLine) : Dev :=
  let slot := (d.subSlot l.chan).getD 0
  let px := match l.segs.head? with
    | some g => g.px.zipIdx.map (fun q => (⟨q.1, g.slot, q.2, true⟩ : StPx))
    | none => (List.range (d.colsOf slot)).map (fun j => (⟨⟨0, false, 0, 0⟩, slot, j, false⟩ : StPx))
  let late := l.cut || (l.segs.isEmpty && d.alive slot && !d.failed slot && d.sending slot)
  let fl := (if l.cut || l.segs.isEmpty then 2 ^ 4 else 0) + (if late then 2 ^ 11 else 0)
  (d.sendLine (mergedLine d.freeIdx (d.prof l.profile) l (l.segs.take 1) fl px) (fun j => Config.standX slot j) (d.mergeDue l)).fresh

/-- The words of the merge buffers that hold a segment's pixels and are uncorrectable. -/
def Dev.segBad (d : Dev) (l : MLine) (g : Segment) : List Nat :=
  match assoc l.cells g.slot with
  | some k => d.store.qdrBad.filter (fun w => decide (mergeAddr k 0 < 32 * w + 32 ∧ 32 * w < mergeAddr k 0 + 4 * g.px.length))
  | none => []

/-- A line as the merge buffers give it: pixels in an uncorrectable word are 0x0000 and the segment carries UNCORR (R273). -/
def Dev.soundLine (d : Dev) (l : MLine) : MLine :=
  if d.store.qdrBad.isEmpty then l
  else { l with segs := l.segs.map (fun g =>
    let bad := d.segBad l g
    if bad.isEmpty then g
    else
      let k := (assoc l.cells g.slot).getD 0
      { g with
        flags := g.flags ||| 2 ^ 6
        px := g.px.zipIdx.map (fun q => if bad.contains (mergeAddr k q.2 / 32) then { q.1 with v := 0 } else q.1) }) }

/-- Emit a stand line (R222 to R226). -/
def Dev.emitMerged (d : Dev) (l : MLine) : Dev :=
  let d := d.onStand fun z => { z with merge := z.merge.filter (fun x => !(x.chan == l.chan && x.web == l.web)) }
  let d := d.badSeen (l.segs.flatMap (d.segBad l))
  let l := d.soundLine l
  if d.subChan l.chan then d.emitSub l
  else
    let ps := d.placedOf l
    let fl := d.rootFlags l ps
    let place := ps.map (·.1)
    let w := d.chanWidth l.chan
    let px := (List.range w).map (stPixel place)
    let em := mergedLine d.freeIdx (d.prof l.profile) l (ps.map (·.2.1)) fl px
    let xt := px.map (fun p => d.pxX p.slot p.col)
    let d := (d.sendLine em (fun j => xt.getD j 0) (d.mergeDue l)).fresh
    let usable := !em.flags.testBit 3 && !em.flags.testBit 4 && !em.flags.testBit 9 && !em.flags.testBit 11
    if usable && d.bit F.STAND_SEAM_CTL_EN then (pairs place).foldl (fun d q => d.seamLine l.chan q.1 q.2) d else d

/-- The held line of a channel with the smallest coordinate. -/
def Dev.firstLine (d : Dev) (chan : Nat) : Option MLine :=
  (d.stand.merge.filter (fun l => l.chan == chan)).foldl (fun b l => match b with
    | none => some l
    | some x => if sdiff x.web l.web < 0 then some l else some x) none

/-- The next line between the end of the last line heard of and the first line `l` that can be merged: a line of the grid in force
there, or of `l`'s pitch where that grid has no line beginning there (R215). -/
def Dev.gapLine (d : Dev) (l : MLine) : Option MLine :=
  let x := (d.chan l.chan).fin
  let gap := sdiff x l.web
  if gap ≤ 0 then none
  else
    match (d.lineAt (wadd x (-d.wOfs))).filter (fun i => wadd i.start d.wOfs == x) with
    | some i => some ⟨l.chan, x, d.t, i.prof, i.len, [], false, []⟩
    | none => some ⟨l.chan, x, d.t, l.profile, Nat.min l.pitch gap.toNat, [], false, []⟩

/-- A new root emits the lines of a channel up to the first one it can merge (R215). -/
def Dev.gapGo (l : MLine) : Nat → Dev → Dev
  | 0, d => d
  | n + 1, d => match d.gapLine l with | some g => Dev.gapGo l n (d.emitMerged g) | none => d

/-- A channel taken over is continued up to line `l` (R215). -/
def Dev.continueTo (d : Dev) (l : MLine) : Dev :=
  if d.stand.contChans.contains l.chan then
    (Dev.gapGo l ((sdiff (d.chan l.chan).fin l.web).toNat / Nat.min 3276800 (Nat.max 1 l.pitch) + 1) d).onStand fun z => { z with
      contChans := z.contChans.filter (· != l.chan) }
  else d

/-- Emit the lines of a channel whose turn has come, in order of coordinate (R222). -/
def Dev.mergeGo (chan : Nat) : Nat → Dev → Dev
  | 0, d => d
  | n + 1, d =>
    match d.firstLine chan with
    | none => d
    | some l =>
      if d.lineComplete l || decide (d.mergeDue l ≤ d.t) then Dev.mergeGo chan n ((d.continueTo l).emitMerged l) else d

/-- Lines that hold a segment. -/
def Dev.heldLines (d : Dev) : Nat := d.stand.merge.countP (fun l => !l.segs.isEmpty)

/-- Show how many lines are held, and the capacity for the widest channel. -/
def Dev.showMerge (d : Dev) : Dev :=
  (d.put F.STAND_MERGE_STAT_USED (satN 16 d.heldLines)).put F.STAND_MERGE_STAT_CAP
    (satN 16 (Config.mergeCap (maxN ((List.range 16).map d.chanWidth))))

/-- Emit what is due in every channel. -/
def Dev.mergeAll (d : Dev) : Dev :=
  ((List.range 16).foldl (fun d c => Dev.mergeGo c (d.stand.merge.length + 1) d) d).showMerge

/-- A full buffer gives up the line with the largest coordinate in any channel (R223). -/
def Dev.mergeRoom (d : Dev) : Dev :=
  let d := d.showMerge
  if d.heldLines ≤ d.get F.STAND_MERGE_STAT_CAP then d
  else
    let big := (d.stand.merge.filter (fun l => !l.segs.isEmpty)).foldl (fun (b : Option MLine) l => match b with
      | none => some l
      | some x => if 0 < sdiff x.web l.web then some l else some x) none
    match big with
    | none => d
    | some x =>
      ((d.onStand fun z => { z with merge := updIf z.merge (fun l => l.chan == x.chan && l.web == x.web) (fun l => { l with segs := [], cut := true, cells := [] }) }).inc
        F.STAND_MERGE_OVF_CNT).showMerge

/-- The first cell of the merge buffers that no held segment uses. -/
def Dev.mergeCell (d : Dev) : Nat :=
  let used := d.stand.merge.flatMap (fun l => l.cells.map (·.2))
  ((List.range (used.length + 1)).find? (fun k => !used.contains k)).getD 0 % 1638

/-- A whole segment at the root (R220, R222, R223). -/
def Dev.segIn (d : Dev) (g : Segment) : Dev :=
  let web := g.web.toNat
  let okSlot := match d.ent g.slot with | some e => e.kind == 1 || e.kind == 2 || e.kind == 3 | none => false
  if !g.whole then d.inc F.STAND_MERGE_INCOMP_CNT
  else if !okSlot || d.failed g.slot then d
  else if d.chanUsed g.channel && decide (sdiff (d.chan g.channel).fin web < 0) then d.inc F.STAND_MERGE_LATE_CNT
  else
    let d := d.onStand fun z => { z with cols := (g.slot, g.px.length) :: z.cols.filter (fun q => q.1 != g.slot) }
    let k := d.mergeCell
    match d.stand.merge.find? (fun l => l.chan == g.channel && l.web == web) with
    | some l =>
      if l.segs.any (fun x => x.slot == g.slot) then d.inc F.STAND_MERGE_DUP_CNT
      else if l.profile ≠ g.profile ∨ l.pitch ≠ g.pitch then d.inc F.STAND_MERGE_INCOMP_CNT
      else
        let d := d.onStand fun z => { z with merge := updIf z.merge (fun x => x.chan == l.chan && x.web == l.web) (fun x => { x with
          segs := x.segs ++ [g], cells := x.cells ++ [(g.slot, k)] }) }
        (d.freshQdr (mergeAddr k 0) (4 * g.px.length)).mergeRoom.mergeAll
    | none =>
      let d := d.onStand fun z => { z with merge := z.merge ++ [⟨g.channel, web, d.t, g.profile, g.pitch, [g], false, [(g.slot, k)]⟩] }
      (d.freshQdr (mergeAddr k 0) (4 * g.px.length)).mergeRoom.mergeAll

/-- SEGMENT_RECEIVE: a strip segment reaches the root; any other module has no merge engine. `reads` are the words of the merge
buffers that came back with errors (R271). -/
def execSegmentReceive (sg : Segment) (reads : List BurstIn) (s : State) : Host.Outcome State Fault Refusal :=
  .next ((funcReads reads s).onDev (fun d => if d.inStand && d.isRoot then d.segIn sg else d))

/-- MERGE_WAIT_EXPIRY: lines whose wait has ended are emitted (R222). -/
def execMergeWaitExpiry (reads : List BurstIn) (s : State) : Host.Outcome State Fault Refusal :=
  .next ((funcReads reads s).onDev (fun d => if d.inStand && d.isRoot then d.mergeAll else d))

/-- TRIM_RESET: every trim and open seam block returns to 0 (R226). -/
def Dev.trimReset (d : Dev) : Dev :=
  let d := (List.range 32).foldl (fun d s => (d.put (F.STAND_TRIM_OFS.at s) 0).put (F.STAND_TRIM_GAIN.at s) 0) d
  (d.onStand fun z => { z with seams := [] }).put F.STAND_SEAM_AT_LIMIT_MAP 0

/-- TRIM_RESET. -/
def execTrimReset (s : State) : Host.Outcome State Fault Refusal := .next (s.onDev Dev.trimReset)

end Sys2Proof.Machine
end

