-- ==== Sys2Proof/Machine/Strip.lean ====
section
/-! DEFINITION. Web-synchronous accumulation: the line grid, samples, emission, flags and profile switches (R147 to R156,
R162). -/

namespace Sys2Proof.Machine

/-! ### Accumulation (R146, R151, R152) -/

/-- Start of the next line to emit; with nothing emitted yet, the first grid's first line. -/
def Dev.nextLine (d : Dev) : Option Nat := match d.web.cursor with | some c => some c | none => d.grids.head?.map (·.x0)

/-- Accumulation runs: enabled, with a valid geometry map (R146). -/
def Dev.accOn (d : Dev) : Bool := d.bit F.WEB_CTL_ACC_EN && d.web.geo.isSome

/-- Open-line capacity for a window of `c` columns (R152). -/
def openCap (c : Nat) : Nat := Nat.min 16384 (5242880 / c)

/-- Show the open lines, the profile state and the pending switches (R162). -/
def Dev.showWeb (d : Dev) : Dev :=
  let d := ((d.put F.WEB_OPEN_OPEN d.web.lines.length).put F.WEB_OPEN_CAP (openCap d.fpa.set.cols)).putBit F.WEB_STAT_ACC_RUN
    (d.accOn && d.web.cur.isSome)
  let d := (d.putBit F.WEB_STAT_NO_PROFILE d.web.cur.isNone).putBit F.WEB_PROF_CUR_VALID d.web.cur.isSome
  let d := match d.web.cur with | some g => d.put F.WEB_PROF_CUR_ID g.prof | none => d
  let d := d.put F.WEB_PROF_PEND_COUNT d.web.switches.length
  match d.web.switches.head? with
  | some g => (d.put F.WEB_PROF_PEND_NEXT_ID g.prof).put F.WEB_PROF_NEXT_VAL g.x0
  | none => (d.put F.WEB_PROF_PEND_NEXT_ID 0).put F.WEB_PROF_NEXT_VAL 0

/-! ### Samples (R148 to R150, R152) -/

/-- The weight of a sample (R149). -/
def sampleW (repl : Nat) (x : Px) : Nat := if x.inv || x.sat || x.clu then 0 else if x.repl then repl else 4

/-- A fresh strip pixel. -/
def StripPx.zero : StripPx := ⟨0, 0, 0, false⟩

/-- One sample into a strip pixel. -/
def StripPx.add (p : StripPx) (w : Nat) (x : Px) : StripPx :=
  ⟨p.sw + w, p.swt + w * x.v.toNat, p.vd + b2n (w != 0), p.sat || x.sat⟩

/-- Replace an open line. -/
def Dev.putLine (d : Dev) (l : Line) : Dev := d.onWeb fun z => { z with lines := updIf z.lines (fun x => x.start == l.start) (fun _ => l) }

/-- A line not opened for lack of room counts once (R152). -/
def Dev.truncLine (d : Dev) (start : Nat) : Dev :=
  if d.web.trunc.contains start then d
  else (d.onWeb fun z => { z with trunc := start :: z.trunc }).inc F.WEB_TRUNC_CNT

/-- The first cell of the strip accumulator that no open line holds. -/
def Dev.freeCell (d : Dev) : Nat :=
  ((List.range (d.web.lines.length + 1)).find? (fun k => d.web.lines.all (fun l => l.cell != k))).getD 0

/-- The uncorrectable words that hold pixels of an open line (R273). -/
def Dev.lineBad (d : Dev) (l : Line) : List Nat :=
  let a := accAddr l.px.length l.cell 0
  d.store.qdrBad.filter (fun w => decide (a < 32 * w + 32 ∧ 32 * w < a + 4 * l.px.length))

/-- Open a line for a frame of `c` columns (R152): with no room, a line of this frame with a larger start gives way. -/
def Dev.openLine (d : Dev) (f : Frame) (c start : Nat) : Dev :=
  let add (d : Dev) : Dev :=
    let k := d.freeCell
    let new : Line := ⟨start, f.cnt, 0, 0, f.gen, f.gen, 0, List.replicate c StripPx.zero, k, none⟩
    (d.freshQdr (accAddr c k 0) (4 * c)).onWeb fun z => { z with lines := z.lines ++ [new], trunc := z.trunc.filter (· != start) }
  if d.web.lines.length < openCap c then add d
  else
    let big := (d.web.lines.filter (fun l => l.born == f.cnt && decide (0 < sdiff start l.start))).foldl (fun (b : Option Line) l => match b with
      | none => some l
      | some x => if 0 < sdiff x.start l.start then some l else some x) none
    match big with
    | some x => add ((d.onWeb fun z => { z with lines := z.lines.filter (fun l => l.start != x.start) }).truncLine x.start)
    | none => d.truncLine start

/-- The coordinate lies below the next line to emit and at or beyond the first grid: in a line already emitted, whether or not
its grid is still in use (R151, R162). -/
def Dev.passed (d : Dev) (x : Nat) : Bool :=
  match d.web.cursor, d.web.origin with
  | some c, some o => decide (sdiff c x < 0) && decide (0 ≤ sdiff o x)
  | _, _ => false

/-- The open line a row's coordinate belongs to, opened if need be; none where it was emitted, has no room or no grid. -/
def Dev.lineFor (d : Dev) (f : Frame) (x : Nat) (count : Bool) : Dev × Option (LineId × Line) :=
  let c := f.set.cols
  if d.passed x then (if count then d.addSat F.WEB_DISC_EMIT_CNT c else d, none)
  else
  match d.lineAt x, d.nextLine with
  | some i, some cur =>
    if sdiff cur i.start < 0 ∨ d.web.ahead.contains i.start then (if count then d.addSat F.WEB_DISC_EMIT_CNT c else d, none)
    else
      let d := if d.web.lines.any (fun l => l.start == i.start) then d else d.openLine f c i.start
      (d, (d.web.lines.find? (fun l => l.start == i.start)).map (fun l => (i, l)))
  | _, _ => (d, none)

/-- A word of the geometry map in force, of a profile or of the stand map is uncorrectable (R273). -/
def Dev.placeBad (d : Dev) (prof : Nat) : Bool :=
  !d.store.qdrBad.isEmpty && (badIn d.store.qdrBad geoForceAddr 18500 || badIn d.store.qdrBad (profAddr prof) 1600 ||
    (d.inStand && badIn d.store.qdrBad standMapAddr 832))

/-- Flags that row `p` of a slot gives its line (R156): UNCORR, CLASS_DOWN, STAGE_OFF. -/
def sampleFlags (f : Frame) (x : SlotX) (p : Nat) (placeBad : Bool) : Nat :=
  (if placeBad || x.uncPix.any (fun q => q.1 == p && decide (q.2 < f.set.cols)) then 2 ^ 6 else 0) +
    (if f.get F.PIPE_AC_CTL_REQ_CLASS < f.cls then 2 ^ 7 else 0) + (if f.stageOff then 2 ^ 12 else 0)

/-- One row of a slot into its line (R148 to R150, R153). -/
def Dev.addRow (d : Dev) (f : Frame) (x : SlotX) (p : Nat) : Dev :=
  let q := d.lineFor f (d.rowCoord f x.slot (8 * (f.set.rowFirst + x.slot - 1) + p)) true
  match q.2 with
  | none => q.1
  | some (i, l) =>
    if q.1.profF i.prof 6 1 ≤ l.depth then q.1
    else
      let rw := q.1.profF i.prof 12 1
      let row := x.tap4.getD p []
      q.1.putLine { l with
        was := if l.was.any (fun w => w.cnt == f.cnt) then l.was else some ⟨f.cnt, l.depth, l.flags, l.genLo, l.genHi, l.cls, l.px⟩
        depth := l.depth + 1
        flags := l.flags ||| sampleFlags f x p (q.1.placeBad i.prof)
        genLo := if l.depth = 0 ∨ later32 l.genLo f.gen then f.gen else l.genLo
        genHi := if l.depth = 0 ∨ later32 f.gen l.genHi then f.gen else l.genHi
        cls := Nat.max l.cls f.cls
        px := l.px.zipIdx.map (fun z => match row[z.2]? with | some s => z.1.add (sampleW rw s) s | none => z.1) }

/-- A lost slot marks the lines it would have fed (R156). -/
def Dev.markLost (d : Dev) (f : Frame) (slot p : Nat) : Dev :=
  let q := d.lineFor f (d.rowCoord f slot (8 * (f.set.rowFirst + slot - 1) + p)) false
  match q.2 with
  | none => q.1
  | some (i, l) => if q.1.profF i.prof 6 1 ≤ l.depth then q.1 else q.1.putLine { l with flags := l.flags ||| 2 ^ 4 }

/-- The samples of a slot (R149, R154): taken only where W was at the high-water mark; a SHUTTER frame feeds none (R130). -/
def Dev.addSlot (d : Dev) (f : Frame) (x : SlotX) : Dev :=
  if f.shutter then d
  else
    let w := d.wMark f x.slot
    if sdiff w.2 w.1 < 0 then (if x.lost then d else d.addSat F.WEB_DISC_REV_CNT (8 * f.set.cols))
    else (List.range 8).foldl (fun d p => if x.lost then d.markLost f x.slot p else d.addRow f x p) d

/-! ### Emission (R151, R152, R156) -/

/-- A SHUTTER frame's span overlaps an interval (R156). -/
def Dev.shutterHits (d : Dev) (a e : Nat) : Bool :=
  let w := d.get F.WEB_POS_W
  let hit (wB : Nat) (wE : Option Nat) (omin omax : Int) : Bool :=
    decide (0 < sdiff (wadd wB (256 * omin)) e) && decide (0 < sdiff a (wadd (wE.getD w) (256 * omax)))
  d.web.shut.any (fun q => hit q.wB q.wE q.omin q.omax) ||
  d.fpa.frames.any (fun f => f.shutter && hit f.webB f.webE (d.oMin f.set) (d.oMax f.set))

/-- A line of the grid as it is emitted: `l` holds its samples, if any reached it. Pixels in an uncorrectable word of the
accumulator take 0x0000 and the line carries UNCORR (R273). -/
def Dev.finishLine (d : Dev) (i : LineId) (l : Option Line) (chan : Nat) : EmLine :=
  let bad := match l with | some x => d.lineBad x | none => []
  let px : List StripPx := match l with
    | some x => if bad.isEmpty then x.px
      else x.px.zipIdx.map (fun q => if bad.contains (accAddr x.px.length x.cell q.2 / 32) then StripPx.zero else q.1)
    | none => List.replicate d.fpa.set.cols StripPx.zero
  let vals := px.map (fun p => if p.sw = 0 then 0 else (rdiv (p.swt : Int) (p.sw : Int)).toNat)
  let vd := px.map (·.vd)
  let depth := match l with | some x => x.depth | none => 0
  let genLo := match l with | some x => x.genLo | none => 0
  let genHi := match l with | some x => x.genHi | none => 0
  let fl0 := match l with | some x => x.flags | none => 0
  let fl := fl0 ||| (b2n (vals.all (· != 0))) ||| (if depth = 0 ∨ depth < d.profF i.prof 7 1 then 2 else 0) |||
    (if genLo ≠ genHi then 4 else 0) ||| (if bad.isEmpty then 0 else 2 ^ 6) ||| (if d.shutterHits i.start i.fin then 8 else 0) ||| (if i.edge || i.trunc then 2 ^ 10 else 0)
  { start := i.start, len := i.len, prof := i.prof, chan := chan, flags := fl, trunc := i.trunc, edge := i.edge, vals := vals,
    sat := px.map (fun p => p.sat && p.sw == 0), vd := vd, vmax := vd, dmin := vd.foldl Nat.min 255, dmax := maxN vd, depth := depth,
    genLo := genLo, genHi := genHi, cls := (match l with | some x => x.cls | none => 0), index := 0, tEmit := 0 }

/-- Where this module's finished line goes: delivered, into its own merge engine, or as a segment to the root. -/
def Dev.lineOut (d : Dev) (l : EmLine) (due : Nat) : Dev :=
  match d.selfEnt with
  | none =>
    if d.inStand then d
    else d.sendLine l (fun j => d.geoX (32 * d.fpa.set.cgFirst + j)) due
  | some e =>
    let sg := segOf (d.get F.STAND_STAT_SLOT) e.chan e.wofs l
    if d.isRoot then d.segIn sg
    else if d.maySegment then d.toRootMsg 1 (segPayloads sg)
    else d

/-- The channel of this module's lines. -/
def Dev.ownChan (d : Dev) : Nat := match d.selfEnt with | some e => e.chan | none => d.get F.WEB_REC_CTL_CHANNEL

/-- Emit a line of the grid (R151): the one at the cursor, which moves on, or one ahead of it (R155). -/
def Dev.emitStrip (d : Dev) (i : LineId) (l : Option Line) : Dev :=
  let em := d.finishLine i l d.ownChan
  let due := (assoc d.web.leftT i.start).getD d.t
  let next := d.nextLine == some i.start
  let d := match l with | some x => d.badSeen (d.lineBad x) | none => d
  let d := d.onWeb fun z => { z with
    lines := z.lines.filter (fun x => x.start != i.start)
    trunc := z.trunc.filter (· != i.start)
    leftT := if next then z.leftT.filter (fun q => q.1 != i.start) else z.leftT
    cursor := if next then some i.fin else z.cursor
    ahead := if next then z.ahead else z.ahead ++ [i.start] }
  let d := (if em.depth = 0 then d.inc F.WEB_GAP_CNT else d).incWrap F.WEB_LINES_VAL
  d.lineOut em due

/-- Pass a line at the cursor that was emitted ahead. -/
def Dev.passAhead (d : Dev) (i : LineId) : Dev := d.onWeb fun z => { z with
  leftT := z.leftT.filter (fun q => q.1 != i.start), cursor := some i.fin, ahead := z.ahead.filter (· != i.start) }

/-- Emit from the cursor on while `due` says so. -/
def Dev.drainBy (due : Dev → LineId → Option Line → Bool) : Nat → Dev → Dev
  | 0, d => d
  | n + 1, d =>
    match d.nextLine.bind d.lineAt with
    | none => d
    | some i =>
      let l := d.web.lines.find? (fun x => x.start == i.start)
      if d.web.ahead.contains i.start then Dev.drainBy due n (d.passAhead i)
      else if due d i l then Dev.drainBy due n (d.emitStrip i l) else d

/-- A line at its depth cap is emitted in its turn (R150, R151). -/
def capped (d : Dev) (i : LineId) (l : Option Line) : Bool := match l with | some x => decide (d.profF i.prof 6 1 ≤ x.depth) | none => false

/-- Lines that an exit coordinate may pass, as fuel. -/
def Dev.drainFuel (d : Dev) (e : Nat) : Nat :=
  match d.nextLine with
  | some c => (sdiff c e).toNat / 3276800 + d.web.lines.length + d.web.ahead.length + d.web.switches.length + 2
  | none => 0

/-- Emit the lines at the cap and, with an exit coordinate, those whose end lies at or below it. Nothing is emitted while
W < H (R154). -/
def Dev.drain (d : Dev) (e : Option Nat) : Dev :=
  if d.bit F.WEB_STAT_BACK then d
  else
    match e with
    | some x => Dev.drainBy (fun d i l => capped d i l || decide (0 ≤ sdiff i.fin x)) (d.drainFuel x) d
    | none => Dev.drainBy capped (d.web.lines.length + 1) d

/-- Pending switches whose coordinate the exit coordinate has reached take force (R162). -/
def Dev.switchGo (e : Nat) : Nat → Dev → Dev
  | 0, d => d
  | n + 1, d =>
    match d.web.switches with
    | [] => d
    | g :: gs =>
      if sdiff g.x0 e < 0 then d
      else
        let cur := match d.web.cursor with | some c => if 0 < sdiff c g.x0 then g.x0 else c | none => g.x0
        Dev.switchGo e n (d.onWeb fun z => { z with cur := some g, switches := gs, cursor := some cur })

/-- An exit evaluation: lines, then switches, which wait for the lines below them while W < H (R151, R154, R162). -/
def Dev.exitEval (d : Dev) (e : Nat) : Dev :=
  let d := if d.accOn then d.drain (some e) else d
  (if d.accOn && d.bit F.WEB_STAT_BACK then d else Dev.switchGo e 5 d).showWeb

/-- The exit coordinate while no frame is in progress. -/
def Dev.exitNow (d : Dev) : Nat := wadd (d.get F.WEB_POS_W) (256 * d.oMin d.fpa.set)

/-- The slot of a frame that holds its exit row. -/
def Dev.exitSlot (d : Dev) (f : Frame) : Nat := d.exitRow f.set / 8 + 1 - f.set.rowFirst

/-- SAMPLES_ACCUMULATED: samples, lines at the cap, then the exit rule, slot after slot (R151). A slot that was never read
(a cut or dark frame) has no samples. -/
def samplesAccumulated (cnt slot : Nat) (d : Dev) : Dev :=
  match d.frame cnt with
  | none => d
  | some f =>
    let unread := slot != 0 && decide (slot ≤ f.set.rowSlots) &&
      (f.dark || (match f.cut with | some c => decide (c ≤ slot) | none => false))
    let x? : Option SlotX := match f.slots.find? (fun y => y.slot == slot) with
      | some y => if y.done && !y.accumulated && slot != 0 then some y else none
      | none => if unread then some ⟨slot, true, [], [], [], [], [], [], true, false, false, []⟩ else none
    let before := f.slots.all (fun y => decide (slot ≤ y.slot) || y.slot == 0 || y.accumulated)
    let stamped := d.get F.WEB_CTL_SRC != 2 || f.wMarks.any (fun q => q.1 == slot)
    match x? with
    | none => d
    | some x =>
      if !before || !stamped || decide (d.t < f.mid slot) then d
      else
        let d := if unread then d else
          d.putFrame { f with slots := updIf f.slots (fun y => y.slot == slot) (fun y => { y with accumulated := true }) }
        let d := if d.accOn then (if unread then d else d.addSlot f x).drain none else d
        if slot = d.exitSlot f then d.exitEval (wadd (d.wMark f slot).1 (256 * d.oMin f.set)) else d.showWeb

/-- SAMPLES_ACCUMULATED: `reads` are the words of the strip accumulator that came back with errors (R271). -/
def execSamplesAccumulated (f : Nat) (slot : Nat) (reads : List BurstIn) (s : State) : Host.Outcome State Fault Refusal :=
  .next ((funcReads reads s).onDev (samplesAccumulated f slot))

/-- IDLE_EXIT_EVALUATION: only while no frame is in progress (R151). -/
def execIdleExitEvaluation (s : State) : Host.Outcome State Fault Refusal :=
  .next (s.onDev (fun d => if d.inFrame then d else d.exitEval d.exitNow))

/-- The open line of depth 1 or more with the smallest coordinate. -/
def Dev.firstDeep (d : Dev) : Option Line :=
  (d.web.lines.filter (fun l => l.depth != 0)).foldl (fun (o : Option Line) l => match o with
    | some b => if sdiff b.start l.start < 0 then some l else o
    | none => some l) none

/-- Emit every open line of depth 1 or more in order of coordinate, also past a line that stays open (R155). -/
def Dev.flushGo : Nat → Dev → Dev
  | 0, d => d
  | n + 1, d =>
    match d.firstDeep with
    | none => d
    | some l => match d.lineAt l.start with
      | some i => Dev.flushGo n (d.emitStrip i (some l))
      | none => d

/-- Emit every open line of depth 1 or more; lines of depth 0 stay open, and so do lines while W < H (R154, R155, log 84). -/
def Dev.flushLines (d : Dev) : Dev :=
  if d.bit F.WEB_STAT_BACK || !d.accOn then d else (Dev.flushGo d.web.lines.length d).showWeb

/-- FLUSH (R155). -/
def execFlush (s : State) : Host.Outcome State Fault Refusal := .next (s.onDev Dev.flushLines)

/-- WEB_STOPPED: |v| has stayed below `TH` for `MS` ms (R155). -/
def webStopped (d : Dev) : Dev :=
  match d.web.slowT with
  | some t =>
    if t + d.msOf F.WEB_STOP_MS ≤ d.t ∧ (d.getI F.WEB_SPEED_V).natAbs < 1000 * d.get F.WEB_STOP_TH ∧ ¬ d.bit F.WEB_STAT_STOPPED then
      (d.putBit F.WEB_STAT_STOPPED true).flushLines
    else d
  | none => d

/-- WEB_STOPPED. -/
def execWebStopped (s : State) : Host.Outcome State Fault Refusal := .next (s.onDev webStopped)

end Sys2Proof.Machine
end

