-- ==== Sys2Proof/Machine/Web.lean ====
section
/-! DEFINITION. The web coordinate and its sources, speed, geometry map and job profiles (R140 to R146, R154, R160 to R162). -/

namespace Sys2Proof.Machine

/-! ### The coordinate (R142, R154) -/

/-- A pending or present grid whose coordinate W has reached opens its profile's glade (R131). -/
def Dev.takeGlades (d : Dev) (w : Nat) : Dev :=
  let hit (g : Grid) : Bool := !g.taken && decide (0 ≤ sdiff g.x0 w)
  let new := d.grids.filter hit
  let f (g : Grid) : Grid := if hit g then { g with taken := true } else g
  let d := if new.isEmpty then d else d.onWeb fun z => { z with cur := z.cur.map f, switches := z.switches.map f }
  new.foldl (fun d g => d.gladeProfile (d.profF g.prof 14 2)) d

/-- Lines that the exit coordinate has just passed take the tick (R171). -/
def Dev.markLeft (e : Nat) : Nat → Dev → Dev
  | 0, d => d
  | n + 1, d =>
    let nxt := match d.web.leftT.getLast? with
      | some q => (d.lineAt q.1).map LineId.fin
      | none => d.nextLine
    match nxt.bind d.lineAt with
    | none => d
    | some i => if 0 ≤ sdiff i.fin e then Dev.markLeft e n (d.onWeb fun z => { z with leftT := z.leftT ++ [(i.start, d.t)] }) else d

/-- Keep the grid in force within reach of signed comparison: its origin moves on by whole lines (R142). -/
def Dev.rebase (d : Dev) (w : Nat) : Dev :=
  match d.web.cur with
  | none => d
  | some g =>
    let p := d.pitch g.prof
    let d := match d.web.origin with
      | some o => if sdiff o w < 2 ^ 62 then d else d.onWeb fun z => { z with origin := some (wadd o (2 ^ 61)) }
      | none => d
    if p = 0 ∨ sdiff g.x0 w < 2 ^ 62 then d
    else d.onWeb fun z => { z with cur := some { g with x0 := wadd g.x0 (((2 ^ 61 / p * p : Nat)) : Int) } }

/-- W takes a value; `moved` of it was motion (R142, R144, R154). -/
def Dev.setW (d : Dev) (w : Nat) (moved : Int) : Dev :=
  let d := d.put F.WEB_POS_W w
  let d := d.onWeb fun z => { z with motion := z.motion + moved }
  let h := d.get F.WEB_HW_W
  let d := if 0 < sdiff h w then d.put F.WEB_HW_W w else d
  let back := decide (sdiff h w < 0)
  let d := if back && !d.bit F.WEB_STAT_BACK then
      d.onWeb fun z => { z with lines := z.lines.map (fun l => { l with flags := l.flags ||| 2 ^ 8 }) }
    else d
  let d := (d.putBit F.WEB_STAT_BACK back).takeGlades w
  let d := if d.accOn then
      let e := wadd w (256 * d.oMin d.fpa.set)
      Dev.markLeft e (d.drainFuel e) d
    else d
  d.rebase w

/-- Move W by a signed amount. -/
def Dev.moveW (d : Dev) (k : Int) : Dev := if k = 0 then d else d.setW (wadd (d.get F.WEB_POS_W) k) k

/-- Load W and H, which is no motion (R143, R144, R154, R199). -/
def Dev.presetW (d : Dev) (w : Nat) : Dev :=
  let d := (d.put F.WEB_POS_W w).put F.WEB_HW_W w
  let d := (d.putBit F.WEB_STAT_BACK false).onWeb fun z => { z with
    we := w
    te := d.t
    hostRem := 0
    cursor := if z.lines.isEmpty then none else z.cursor
    origin := if z.lines.isEmpty then none else z.origin
    ahead := if z.lines.isEmpty then [] else z.ahead
    leftT := [] }
  (d.onLink fun z => { z with presetSent := true }).takeGlades w

/-- PRESET: only while `ACC_EN` is 0 (R143). -/
def execPreset (s : State) : Host.Outcome State Fault Refusal :=
  .next (s.onDev (fun d => if d.bit F.WEB_CTL_ACC_EN then d else d.presetW (d.get F.WEB_PRESET_W)))

/-- W runs from the host speed: chosen, or in place of a lost source (R141, R143). -/
def Dev.hostDriven (d : Dev) : Bool := d.get F.WEB_CTL_SRC == 1 || d.web.onHost

/-- W from the encoder at a tick at or after the last counted edge: v × (t − t_e) beyond it, held within one count in the
direction of v (R143). -/
def Dev.encAt (d : Dev) (t : Nat) : Nat :=
  let sc : Int := (d.get F.WEB_SCALE_VAL : Nat)
  let k := rdiv (d.web.vNum * ((t - d.web.te : Nat) : Int)) (d.web.vDen : Nat)
  wadd d.web.we (if d.web.vNum < 0 then clampI (-sc) 0 k else clampI 0 sc k)

/-- W follows the encoder. -/
def Dev.byEncoder (d : Dev) : Bool := d.get F.WEB_CTL_SRC == 0 && !d.web.onHost && !d.web.failSafe

/-- One tick of host speed, exactly (R143). -/
def Dev.hostTick (d : Dev) : Dev :=
  let n := d.web.hostRem + 65536 * d.getI F.WEB_HOST_SPEED_VAL
  (d.onWeb fun z => { z with hostRem := n % 100000000 }).moveW (n / 100000000)

/-- W between two counts (R143). -/
def Dev.encTick (d : Dev) : Dev := d.moveW (sdiff (d.get F.WEB_POS_W) (d.encAt d.t))

/-- W of the running source at this tick. -/
def Dev.webTick (d : Dev) : Dev :=
  if d.hostDriven then d.hostTick else if d.byEncoder then d.encTick else d

/-! ### Encoder (R140, R141) -/

/-- The count a change of accepted levels gives: 0 where the mode does not count it. Forward is `ENC_A` leading `ENC_B`. -/
def quadCount (mode : Nat) (inv a0 _b0 a b : Bool) : Int :=
  let fwd : Bool := if a != a0 then a != b else a == b
  let counts : Bool := match mode with
    | 0 => true
    | 1 => a != a0
    | _ => a && !a0
  if !counts then 0 else if fwd != inv then 1 else -1

/-- W of the stand at this tick from the newest sample and its speed (R199). -/
def Dev.encNow (d : Dev) : Nat :=
  let a := d.link.enc.foldl (fun (o : Option EncS) x => match o with | some y => if y.t < x.t then some x else o | none => some x) none
  match a with
  | some a => wadd a.w (rdiv (a.v * ((d.t : Int) - (a.t : Nat)) * 65536) 100000000)
  | none => d.get F.WEB_POS_W

/-- Slot midpoints from tick `t0` on that have passed take the coordinate that a count stamped `t0` gives them (R140, R143). -/
def Dev.reMark (d : Dev) (t0 : Nat) : Dev := d.onFpa fun z => { z with frames := z.frames.map (fun f => { f with
  wMarks := f.wMarks.map (fun q =>
    if t0 ≤ f.mid q.1 ∧ f.mid q.1 ≤ d.t then (q.1, d.encAt (f.mid q.1), if 0 < sdiff q.2.2 (d.encAt (f.mid q.1)) then d.encAt (f.mid q.1) else q.2.2)
    else q) }) }

/-- A new encoder owner goes over to its encoder at a counted edge, with no step of W (R206). -/
def Dev.encOver (d : Dev) : Dev :=
  let w := d.encNow
  let d := ((d.put F.WEB_CTL_SRC 0).put F.WEB_STAT_SRC_ACT 0).putBit F.LINK_ENC_CTL_TX_EN true
  let d := d.onStand fun z => { z with encTake := false }
  let d := d.onWeb fun z => { z with we := w, te := d.t, onHost := false }
  d.setW w (sdiff (d.get F.WEB_POS_W) w)

/-- An edge counts (R140, R142): W takes the count at the tick `t0` of the edge's first sample. `back` says that this edge has
just brought W back to the encoder, with no step (R141). -/
def Dev.encCount (d : Dev) (c : Int) (t0 : Nat) (back : Bool) : Dev :=
  let d := (d.putI F.WEB_ENC_CNT_CNT (d.getI F.WEB_ENC_CNT_CNT + c)).tie F.WEB_ENC_CNT_CNT
  let d := d.onWeb fun z => { z with encSum := z.encSum + c }
  if d.get F.WEB_CTL_SRC ≠ 0 then onlyIf d.stand.encTake Dev.encOver d
  else if back then d
  else
    let we := wadd d.web.we (c * (d.get F.WEB_SCALE_VAL : Nat))
    ((d.onWeb fun z => { z with we := we, te := t0 }).reMark t0).encTick

/-- A level differs from the one accepted and has been seen in `FILT` + 1 consecutive samples since that one was (R140). -/
def Dev.accepts (d : Dev) (new old : Bool) (since : Nat) : Bool := new != old && decide (since + d.get F.WEB_ENC_CFG_FILT ≤ d.t)

/-- At the first accepted edge after a loss W goes on from where it is, by the encoder (R141). -/
def Dev.encBack (d : Dev) (t0 : Nat) : Dev := d.onWeb fun z => { z with onHost := false, we := d.get F.WEB_POS_W, te := t0 }

/-- ENCODER_EDGE: levels of `ENC_A` and `ENC_B` that have now been seen in `FILT` + 1 consecutive samples; the edge bears the tick
of the first of them (R140). During the encoder's fail-safe the count holds (R141). -/
def encoderEdge (a b : Bool) (d : Dev) : Dev :=
  let a0 := d.web.encA
  let b0 := d.web.encB
  let ca := d.accepts a a0 d.web.encTa
  let cb := d.accepts b b0 d.web.encTb
  let t0 := d.t - d.get F.WEB_ENC_CFG_FILT
  let d := d.onWeb fun z => { z with
    encA := if ca then a else a0, encB := if cb then b else b0
    encTa := if ca then d.t + 1 else z.encTa, encTb := if cb then d.t + 1 else z.encTb }
  if !ca && !cb then d
  else
    let back := d.web.onHost && !d.web.failSafe && d.get F.WEB_CTL_SRC == 0
    let d := if back then d.encBack t0 else d
    if ca && cb then
      let d := d.inc F.WEB_ENC_ERR_CNT
      if (match d.web.errT with | some t => decide (d.t < t + secT) | none => false) then d
      else (d.onWeb fun z => { z with errT := some d.t }).event 0x0C01 { arg0 := d.get F.WEB_ENC_ERR_CNT }
    else if d.web.failSafe then d
    else
      let c := quadCount (d.get F.WEB_ENC_CFG_MODE) (d.bit F.WEB_CTL_DIR_INV) a0 b0 (if ca then a else a0) (if cb then b else b0)
      if c = 0 then d else d.encCount c t0 back

/-- ENCODER_EDGE. -/
def execEncoderEdge (a b : Bool) (s : State) : Host.Outcome State Fault Refusal := .next (s.onDev (encoderEdge a b))

/-- A source is lost: reported, logged, and with LOSS_HOST the position continues from the host speed (R141, R199). -/
def Dev.sourceLost (d : Dev) : Dev :=
  if d.bit F.WEB_STAT_ENC_LOSS then d
  else
    let d := (d.putBit F.WEB_STAT_ENC_LOSS true).event 0x0C02 {}
    d.onWeb fun z => { z with lossT := some d.t, onHost := d.bit F.WEB_CTL_LOSS_HOST && d.get F.WEB_CTL_SRC != 1, hostRem := 0 }

/-- ENC_LOSS: the fail-safe output has been active for more than 10 µs (R141). -/
def execEncLoss (s : State) : Host.Outcome State Fault Refusal :=
  .next (s.onDev (fun d => (d.onWeb fun z => { z with failSafe := true }).sourceLost))

/-- ENC_FAILSAFE_END: the loss ends; a source replaced by the host speed returns at its first accepted edge (R141). -/
def execEncFailsafeEnd (s : State) : Host.Outcome State Fault Refusal :=
  .next (s.onDev (fun d => (onlyIf (!d.bit F.LINK_ENC_STAT_LOSS) (fun d => d.putBit F.WEB_STAT_ENC_LOSS false) d).onWeb
    fun z => { z with lossT := none, failSafe := false }))

/-- INDEX_EDGE: a rising edge of `ENC_Z` with `Z_EN`, unless a trigger holds the input (R141, R354). It has been seen in `FILT` + 1
samples, and so has the low level before it (R140). -/
def indexEdge (d : Dev) : Dev :=
  let filt := d.get F.WEB_ENC_CFG_FILT
  if !d.bit F.WEB_ENC_CFG_Z_EN || d.fpa.set.src == 2 || (d.web.zSeen && decide (d.t < d.web.encTz + 2 * filt + 1)) then d
  else
    let t0 := d.t - filt
    let n := d.web.encSum - d.web.zCount
    let first := !d.web.zSeen
    let d := (d.inc F.WEB_Z_CNT_CNT).put F.WEB_Z_POS_W (if d.byEncoder && decide (d.web.te ≤ t0) then d.encAt t0 else d.get F.WEB_POS_W)
    let d := d.onWeb fun z => { z with zCount := z.encSum, zSeen := true, encTz := d.t + 1 }
    let chk := d.get F.WEB_ZCHK_VAL
    if first || chk == 0 || n.natAbs == chk then d
    else
      let d := d.inc F.WEB_Z_ERR_CNT
      d.event 0x0C03 { arg0 := d.get F.WEB_Z_ERR_CNT }

/-- INDEX_EDGE. -/
def execIndexEdge (s : State) : Host.Outcome State Fault Refusal := .next (s.onDev indexEdge)

/-! ### Speed (R144, R152, R155) -/

/-- |v| exceeds a bound of R152: the field length per frame, or 100,000 lines/s. -/
def Dev.overspeed (d : Dev) : Bool :=
  let v := (d.getI F.WEB_SPEED_V).natAbs
  let a := d.fpa.set
  decide (((d.oMax a - d.oMin a) * 100000000 : Int) < (v * 256 * a.period : Nat)) ||
  (match d.web.cur with | some g => decide (d.profF g.prof 8 2 * 100000 < v) | none => false)

/-- SPEED_EVALUATION: v over the window T_w from motion alone (R144). -/
def speedEvaluation (d : Dev) : Dev :=
  let tw := d.get F.WEB_SPD_WIN_WIN * 10000
  let old := match d.web.marks.find? (fun q => decide (q.1 + tw ≤ d.t)) with | some q => q.2 | none => 0
  let dm := d.web.motion - old
  let v := clampI (-(2 ^ 31)) (2 ^ 31 - 1) (rdiv (dm * 100000000) ((65536 * tw : Nat) : Int))
  let d := d.onWeb fun z => { z with
    marks := (d.t, z.motion) :: z.marks.take 256
    vNum := dm
    vDen := Nat.max 1 tw }
  let d := (d.putI F.WEB_SPEED_V v).putBit F.WEB_STAT_DIR (decide (v < 0))
  let slow := decide (v.natAbs < 1000 * d.get F.WEB_STOP_TH)
  let d := d.onWeb fun z => { z with slowT := if slow then some (z.slowT.getD d.t) else none }
  let d := if slow then d else d.putBit F.WEB_STAT_STOPPED false
  let d := d.gladeSpeed.gladeEval
  d.putBit F.WEB_STAT_OVERSPEED d.overspeed

/-- SPEED_EVALUATION. -/
def execSpeedEvaluation (s : State) : Host.Outcome State Fault Refusal := .next (s.onDev speedEvaluation)

/-! ### Registers (R143) -/

/-- On enabling with no open line, the next line is the one that holds the exit coordinate: lines that passed while
accumulation was off are not made. -/
def Dev.accResume (d : Dev) : Dev :=
  if !d.web.lines.isEmpty then d
  else
    match d.lineAt d.exitNow, d.nextLine with
    | some i, some c => if 0 < sdiff c i.start then d.onWeb fun z => { z with cursor := some i.start, leftT := [] } else d
    | _, _ => d

/-- WEB_CTL_WRITE: `SRC` and `DIR_INV` stay while `ACC_EN` is 1; `ACC_EN` needs a valid map (R143, R146). -/
def webCtlWrite (v : Word) (d : Dev) : Dev :=
  let on := d.bit F.WEB_CTL_ACC_EN
  let src := d.get F.WEB_CTL_SRC
  let inv := d.get F.WEB_CTL_DIR_INV
  let d := d.writeWord R.WEB_CTL v.toNat
  let d := if on then (d.put F.WEB_CTL_SRC src).put F.WEB_CTL_DIR_INV inv else d
  let d := if d.web.geo.isNone then d.putBit F.WEB_CTL_ACC_EN false else d
  let d := if d.get F.WEB_CTL_SRC = src then d
    else d.onWeb fun z => { z with we := d.get F.WEB_POS_W, te := d.t, hostRem := 0, onHost := false }
  let d := if d.bit F.WEB_STAT_ENC_LOSS then d.onWeb fun z => { z with onHost := d.bit F.WEB_CTL_LOSS_HOST && d.get F.WEB_CTL_SRC != 1 }
    else d
  let d := d.put F.WEB_STAT_SRC_ACT (d.get F.WEB_CTL_SRC)
  (if !on && d.bit F.WEB_CTL_ACC_EN then d.accResume else d).showWeb

/-- WEB_CTL_WRITE. -/
def execWebCtlWrite (v : Word) (s : State) : Host.Outcome State Fault Refusal := .next (s.onDev (webCtlWrite v))

/-- HOST_SPEED_WRITE: effective at the tick of its acceptance (R143). -/
def execHostSpeedWrite (v : Word) (s : State) : Host.Outcome State Fault Refusal :=
  .next (s.onDev (fun d => d.writeWord R.WEB_HOST_SPEED v.toNat))

/-- WEB_CNT_CLR (R26). -/
def execWebCntClr (s : State) : Host.Outcome State Fault Refusal :=
  .next (s.onDev (fun d => d.clearAll [F.WEB_ENC_CNT_CNT, F.WEB_ENC_ERR_CNT, F.WEB_Z_CNT_CNT, F.WEB_Z_ERR_CNT, F.WEB_DISC_REV_CNT,
    F.WEB_DISC_EMIT_CNT, F.WEB_TRUNC_CNT, F.WEB_GAP_CNT, F.WEB_REC_DROP_CNT]))

/-! ### Geometry (R145, R146) -/

/-- Bytes of the map without its CRC. -/
def geoBytes : Nat := 18496

/-- Place of the staged map in QDR (log 9). -/
def geoAddr : Nat := 0x0E3D0000

/-- A map image's O and X. -/
def geoOf (b : List Byte) : Geo :=
  ⟨slice b 0 64, (List.range 2048).map (fun i => sext 32 (leAt b (64 + 4 * i) 4)), (List.range 2560).map (fun i => sext 32 (leAt b (8256 + 4 * i) 4))⟩

/-- A list is strictly monotonic. -/
def strictMono (l : List Int) : Bool :=
  let ps := l.zip (l.drop 1)
  ps.all (fun p => decide (p.1 < p.2)) || ps.all (fun p => decide (p.2 < p.1))

/-- Show the map in force and the field of the window (R146). -/
def Dev.showGeo (d : Dev) : Dev :=
  let d := (d.putBit F.WEB_GEO_STAT_VALID d.web.geo.isSome).putBit F.WEB_GEO_STAT_PEND d.web.geoPend.isSome
  if d.web.geo.isNone then d
  else
    let q := d.oSpan d.fpa.set.rows
    let d := (d.putI F.WEB_GEO_OMIN_O q.1).putI F.WEB_GEO_OMAX_O q.2.1
    (d.put F.WEB_GEO_STAT_EXIT_ROW q.2.2.1).put F.WEB_GEO_STAT_ENTRY_ROW q.2.2.2

/-- A committed map takes effect (R146). -/
def Dev.applyGeo (d : Dev) : Dev :=
  match d.web.geoPend with
  | none => d
  | some g => ((d.freshQdr geoForceAddr 18528).onWeb fun z => { z with geo := some g, geoPend := none }).showGeo

/-- With no frame in progress a committed map takes effect at once (R146). -/
def Dev.geoIdle (d : Dev) : Dev := if d.inFrame then d else d.applyGeo

/-- GEO_COMMIT: CRC and monotonic X, then pending; the module keeps the map in flash (R146). -/
def geoCommit (m : Mems) (d : Dev) : Dev :=
  let b := m.q geoAddr geoBytes
  let g := geoOf b
  if crc32c b ≠ d.get F.WEB_GEO_CRC_CRC ∨ ¬ strictMono g.x then d.flag F.WEB_GEO_STAT_REFUSED
  else
    let d := (d.onWeb fun z => { z with geoPend := some g }).flashPush (.geometry (b ++ leBytes 4 (crc32c b)))
    let d := d.putBit F.WEB_GEO_STAT_PEND true
    d.geoIdle

/-- GEO_COMMIT. -/
def execGeoCommit (s : State) : Host.Outcome State Fault Refusal := .next (s.onDev (geoCommit s.mem))

/-! ### Profiles (R160 to R162) -/

/-- Every field of a profile image lies in its range (R160, R161, R169). -/
def profOk (b : List Byte) : Bool :=
  let f (o n lo hi : Nat) : Bool := decide (lo ≤ leAt b o n ∧ leAt b o n ≤ hi)
  let lanes := leAt b 3 1
  f 0 2 1 1 && f 2 1 0 63 && f 3 1 0 64 && f 4 1 0 16 && f 5 1 0 3 && f 6 1 1 64 && f 7 1 0 64 && f 8 2 50 2000 && f 10 2 1 4096 && f 12 1 0 4 &&
  (List.range lanes).all (fun l =>
    f (64 + 16 * l + 8) 2 103 1024 && decide (sext 32 (leAt b (64 + 16 * l) 4) < sext 32 (leAt b (64 + 16 * l + 4) 4))) &&
  (List.range (leAt b 4 1)).all (fun r =>
    let o := 1088 + 32 * r
    f o 1 0 5 && f (o + 1) 1 0 3 && f (o + 2) 1 0 15 && f (o + 3) 1 0 7 && f (o + 16) 1 1 255 &&
    (leAt b o 1 == 0 || decide (2 < leAt b o 1) || decide (1 ≤ leAt b (o + 6) 2)) && leAt b (o + 8) 8 / 2 ^ lanes == 0)

/-- A profile is in force or pending. -/
def Dev.profUsed (d : Dev) (id : Nat) : Bool := d.grids.any (fun g => g.prof == id)

/-- Keep a profile image and show it as defined. -/
def Dev.putProf (d : Dev) (id : Nat) (b : List Byte) : Dev :=
  ((d.freshQdr (profAddr id) 1600).onWeb fun z => { z with profs := (id, b) :: z.profs.filter (fun p => p.1 != id) }).put F.WEB_PROF_MAP_VAL
    (setB (d.get F.WEB_PROF_MAP_VAL) id true)

/-- PROFILE_DEFINE: refused with nothing stored, or kept in QDR at once and completed when it stands in flash (R161). -/
def doProfileDefine (c : Cmd) (d : Dev) : Dev :=
  let id := leAt c.data 2 1
  if !profOk c.data || d.profUsed id then d.complete c St.refused 0 0
  else (d.putProf id c.data).flashPush (.profile c.k id c.data)

/-- The reach (R162): no sample has been taken at or beyond it. -/
def Dev.reach (d : Dev) : Nat :=
  let omax := if d.fpa.everFrame then d.oMax d.fpa.set else (d.oSpan (List.range 2048)).2.1
  let v := (d.getI F.WEB_SPEED_V).toNat
  wadd (wadd (d.get F.WEB_HW_W) (256 * omax)) ((cdiv (v * 40 * 65536) 1000000 : Nat) : Int)

/-- The coordinate that an X of 0 stands for above a reach: the next boundary of the grid in force, or the reach itself. -/
def Dev.selectX (d : Dev) (reach : Nat) : Nat :=
  match d.web.cur with
  | none => reach
  | some g =>
    let p := d.pitch g.prof
    if p = 0 then reach else wadd g.x0 ((sdiff g.x0 reach / (p : Int) + 1) * (p : Int))

/-- Why a switch is refused (R162): 0 if it is not. -/
def Dev.selectErr (d : Dev) (id x : Nat) : Nat :=
  if (d.prof id).isNone then 1
  else if sdiff d.reach x < 0 then 2
  else if d.web.switches.any (fun g => decide (sdiff g.x0 x ≤ 0)) then 3
  else if 4 ≤ d.web.switches.length then 4
  else 0

/-- A switch becomes pending, in order of coordinate; the first one begins the strip. -/
def Dev.addSwitch (d : Dev) (id x : Nat) : Dev :=
  (d.onWeb fun z => { z with
    switches := z.switches.filter (fun g => decide (0 ≤ sdiff g.x0 x)) ++ [⟨x, id, false⟩] ++
      z.switches.filter (fun g => decide (sdiff g.x0 x < 0))
    origin := some (z.origin.getD x) }).showWeb

/-- PROFILE_SELECT_AT for coordinate `x` (R162). -/
def doProfileSelect (x : Nat) (c : Cmd) (d : Dev) : Dev :=
  let id := c.p8 24
  let x := if x = 0 then d.selectX d.reach else x
  let e := d.selectErr id x
  if e ≠ 0 then d.complete c St.refused e 0 else (d.addSwitch id x).ok c 0

/-- The boot profile takes effect at the reach when imaging first starts, on a grid aligned to its pitch (R162). -/
def Dev.bootProfile (d : Dev) : Dev :=
  match d.web.bootProf with
  | none => d
  | some id =>
    let d := d.onWeb fun z => { z with bootProf := none }
    let p := d.pitch id
    if (d.prof id).isNone ∨ p = 0 then d
    else
      let r := d.reach
      d.addSwitch id (r - r % p)

end Sys2Proof.Machine
end

