-- ==== Sys2Proof/Machine/Frame.lean ====
section
/-! DEFINITION. What a frame boundary does to the readout, the pipeline, the plates and the class of the frame (R17, R20, R29,
R31 to R34, R46, R49, R63, R72, R74, R82, R96, R97, R110 to R114, R130, R298, R302). -/

namespace Sys2Proof.Machine

/-! ### Drift offset and class (R97, R110 to R114) -/

/-- D_m of a frame at a range, from its latches (R97). -/
def driftOffset (d : Dev) (range : Nat) (t f q : Int) (op : Nat) : Int :=
  if !d.bit F.PIPE_DM_CTL_EN then 0
  else
    let k (i : Nat) : Int := d.getI (F.PIPE_DM_K_K.at (4 * range + i))
    rdiv (k 0 * (t - d.getI F.PIPE_DM_REF_T_REF) + k 1 * (f - d.getI F.PIPE_DM_REF_F_REF) +
      k 2 * (q - d.getI F.PIPE_DM_REF_Q_REF) + k 3 * ((op : Int) - (d.get F.PIPE_DM_REF_OP_REF : Nat))) 65536

/-- The conditions of R111 but bit 1, as a bitmap. -/
def classConds (m : Mems) (d : Dev) : Nat :=
  let a := d.fpa.set
  let h := hdrAddr (d.get F.PIPE_PL_STAT_ACTIVE_REG)
  let age := d.proofAge
  let c (i : Nat) (b : Bool) : Nat := if b then 2 ^ i else 0
  c 0 (decide (60 * d.get F.PIPE_AC_CTL_A_MIN ≤ age)) +
  c 2 ([5, 6].contains d.stageState) +
  c 3 ([0, 1, 2, 4].contains d.stageState || d.bit F.FPA_STAGE_STAT_OVER_TEMP) +
  c 4 (!d.twoDiodes) +
  c 5 (a.bias != m.qN (h + 0x10) 2 || a.skim != m.qN (h + 0x12) 2 || a.tint != d.get F.PIPE_AC_REF_TINT_T_INT) +
  c 6 (!(d.bit F.PIPE_NS_CTL_ROW_EN && d.bit F.PIPE_NS_CTL_CH_EN && d.bit F.PIPE_PL_CTL_PLATE_EN && d.bit F.PIPE_PL_CTL_DRIFT_EN &&
    d.bit F.PIPE_ST_CTL_REPL_EN)) +
  c 7 (!d.burin.proofDone) +
  c 8 (match d.pwr.lastSat with | some t => decide (d.t < t + 10 * secT) | none => false) +
  c 9 (m.qN (h + 0x18) 4 == 0) +
  c 10 (d.burin.curveAfter.getD a.gain false) +
  c 11 d.auxBlind

/-- Shutterless tracking holds (R112), from the other conditions. -/
def trackingHolds (d : Dev) (conds : Nat) (t f : Int) : Bool :=
  d.bit F.PIPE_DM_STAT_TRUSTED && decide ((t - d.getI F.PIPE_DM_REF_T_REF).natAbs ≤ d.get F.PIPE_TRK_DT_LIM) &&
  decide ((f - d.getI F.PIPE_DM_REF_F_REF).natAbs ≤ d.get F.PIPE_TRK_DF_LIM) &&
  (d.get F.PIPE_TRK_MAX_MIN == 0 || decide (d.proofAge < 60 * d.get F.PIPE_TRK_MAX_MIN)) &&
  (conds &&& 0x878) == 0

/-- Class of a frame from its reason bits: 0 A, 1 B, 2 C (R111). -/
def classOf (reasons : Nat) : Nat := if reasons &&& 0x87A ≠ 0 then 2 else if reasons ≠ 0 then 1 else 0

/-- Evaluate and show the class at a boundary (R110 to R114). -/
def classStep (m : Mems) (t f : Int) (d : Dev) : Dev :=
  let c := classConds m d
  let tr := trackingHolds d c t f
  let r := c + (if decide (60 * d.get F.PIPE_AC_CTL_B_MIN ≤ d.proofAge) && !tr then 2 else 0)
  let k := classOf r
  let d := (((d.put F.PIPE_AC_STAT_CLASS k).putBit F.PIPE_AC_STAT_TRACKING tr).put F.PIPE_AC_STAT_REASON r).put F.PIPE_AC_AGE_AGE d.proofAge
  if d.burin.lastCls = k then d
  else ((d.onBurin fun z => { z with lastCls := k }).incWrap F.PIPE_AC_CHANGES_CNT).event 0x0803 { arg0 := k, arg1 := r }

/-! ### What takes effect at a boundary -/

/-- COMMIT_TAKES_EFFECT: the pending set becomes the set in force (R46, R48). -/
def takeCommit (b : Nat) (d : Dev) : Dev :=
  match d.fpa.pend with
  | none => d
  | some c =>
    if b < c.teff then d
    else
      let d := d.onFpa fun z => { z with set := c.set, pend := z.pendNext, pendNext := none }
      let d := ((d.put F.FPA_GEN_CUR_GEN c.gen).put F.FPA_STAT_ACTIVE_SET c.set.idx).showPend
      match c.k with | some k => d.completeK k St.ok 0 c.gen | none => d

/-- Plate roles at a boundary: a change of gain range (R74), or else a swap that is due (R72). -/
def takePlates (m : Mems) (b oldGain : Nat) (d : Dev) : Dev :=
  if d.fpa.set.gain ≠ oldGain then
    let d := match d.proof.run with
      | some r => if r.tcp.isNone then d.proofAbort 2 else d
      | none => d
    let keeps := match d.proof.run with | some r => r.tcp.isSome && d.owner == 2 | none => false
    let pr := match d.pipe.swap with | some x => x.proof | none => false
    let d := rangeChange m keeps d
    if pr then proofComplete d else d
  else
    match d.pipe.swap with
    | some x => if x.ready + 2000 ≤ b then takeSwap m d else d
    | none => d

/-- Stipple edits that are due take effect (R82). -/
def takeEdits (b : Nat) (s : State) : State :=
  let due := s.dev.pipe.edits.filter (fun e => decide (e.t + 2000 ≤ b))
  let s := due.foldl (fun s e => applyEdit e s) s
  s.onDev (fun d => d.onPipe fun z => { z with edits := z.edits.filter (fun e => decide (b < e.t + 2000)) })

/-- Slices that a frame initialises (R63): every one in the first frame, groups that enter the window, new spares. -/
def newSlices (d : Dev) : List Nat :=
  let gs := (List.range d.fpa.set.cgCount).map (fun g => d.fpa.set.cgFirst + g)
  let enter := gs.filter (fun g => !d.fpa.everFrame || !d.fpa.prevGroups.contains g)
  enter.flatMap (fun g => (List.range 34).map (fun k => 34 * g + k)) ++
  (if d.fpa.everFrame then [] else (List.range 16).map (fun k => 2720 + k)) ++
  (d.fpa.substs.filter (fun s => !s.inForce)).map (fun s => 34 * s.group + 32 + s.spare)

/-- Coppice substitutions and blind exclusions take effect (R31 to R33). -/
def takeSubsts (d : Dev) : Dev :=
  let new := d.fpa.substs.filter (fun s => !s.inForce)
  let gs := (List.range d.fpa.set.cgCount).map (fun g => d.fpa.set.cgFirst + g)
  let d := d.onFpa fun z => { z with
    substs := (z.substs.filter (fun s => !(s.inForce && new.any (fun n => n.group == s.group && n.col == s.col)))).map
      (fun s => { s with inForce := true })
    blindExcl := z.blindNext
    prevGroups := gs, everFrame := true }
  let d := new.foldl (fun d s =>
    if s.spare = 0 then (d.put (F.FPA_CGMAP_SP0_COL.at s.group) s.col).putBit (F.FPA_CGMAP_SP0_USED.at s.group) true
    else (d.put (F.FPA_CGMAP_SP1_COL.at s.group) s.col).putBit (F.FPA_CGMAP_SP1_USED.at s.group) true) d
  let n := d.fpa.substs.countP (fun s => !s.closed)
  ((d.put F.PIPE_ST_STAT_SUBST_COLS (satN 8 n)).putBit F.FPA_STAT_SUBST_OPEN (n != 0)).put F.PIPE_NS_STAT_BLIND_EXCL
    (satN 8 d.fpa.blindExcl.length)

/-- The QDR address of the skimming trim table of a range (R39; its place is the model's choice, log 9). -/
def skimAddr (range : Nat) : Nat := 0x0E3F0000 + 0x8000 * range

/-! ### Pulsed bias and skimming (R34, R35, R38, R39) -/

/-- The slot of a frame that integrates in tick `t`: [B + s·T_slot, B + s·T_slot + T_int) (R34). -/
def Frame.integrating (f : Frame) (t : Nat) : Option Nat :=
  let s := (t - f.b) / f.set.tslot
  if f.b ≤ t && decide (s ≤ f.set.rowSlots) && decide ((t - f.b) % f.set.tslot < f.set.tint) && !f.dark &&
    (match f.cut with | some c => decide (s < c) | none => true) then some s else none

/-- A tick of vertical blanking of a frame: [B + (N + 1)·T_slot, B + P) (R34). -/
def Frame.blanking (f : Frame) (t : Nat) : Bool :=
  decide (f.b + (f.set.rowSlots + 1) * f.set.tslot ≤ t) && decide (t < f.b + f.set.period)

/-- V_BIAS of column group `g` in a frame, in 1/2 mV: 1.000 V + BIAS × 0.5 mV + TRIM × 1 mV (R38). -/
def Frame.vBias (f : Frame) (g : Nat) : Int :=
  2000 + (f.set.bias : Int) + 2 * sext 6 (f.get (F.FPA_CGTRIM_TRIM.at g))

/-- The bias at tick `t` of the pixels of column group `g` in slot `s` of a frame, in 1/2 mV, and so of the skimming
bolometers of their channels: V_BIAS while that slot integrates, else none (R35). -/
def Dev.biasAt (d : Dev) (f : Frame) (g s t : Nat) : Int :=
  if d.fpa.biasOn && f.integrating t == some s && decide (f.set.cgFirst ≤ g) && decide (g < f.set.cgFirst + f.set.cgCount) then
    f.vBias g
  else 0

/-- The signed entry of a channel in the skimming trim table of the frame's range (R39). -/
def skimTrim (m : Mems) (range chan : Nat) : Int := sext 8 (m.qN (skimAddr range + chan) 1)

/-- The factor K of R39: 0.875 + SKIM / 4096 + t / 16384. -/
def skimK (skim : Nat) (t : Int) : Rat := 7 / 8 + (skim : Rat) / 4096 + (t : Rat) / 16384

/-- The current that a channel's skimming bolometer draws, from that of its blind reference bolometer at V_BIAS (R39). -/
def skimCurrent (m : Mems) (f : Frame) (chan : Nat) (blind : Rat) : Rat :=
  skimK f.set.skim (skimTrim m f.set.gain chan) * blind

/-- What the integrator of a channel integrates: the pixel current less the skimming current (R39). -/
def integrated (m : Mems) (f : Frame) (chan : Nat) (pixel blind : Rat) : Rat := pixel - skimCurrent m f chan blind

/-- Put the Margin Plan's bias and skimming trims in place (R38, R39). -/
def putTrims (cg : List Int) (skim : List (Nat × Int)) (range : Nat) (s : State) : State :=
  let s := s.onDev (fun d => cg.zipIdx.foldl (fun d q => d.putI (F.FPA_CGTRIM_TRIM.at q.2) q.1) d)
  skim.foldl (fun s q => s.wrQdr (skimAddr range + q.1) (leBytes 1 (uns 8 q.2))) s

/-- Output 3 of the Margin Plan at a boundary (R302): into force once the next proof has sensed its blade closed, back after
an abort. -/
def radioBoundary (s : State) : State :=
  match s.dev.health.radio with
  | none => s
  | some x =>
    let d := s.dev
    if !x.inForce then
      if d.proof.run.isSome && decide (2 ≤ d.get F.PROOF_STAT_PHASE) && decide (d.get F.PROOF_STAT_PHASE ≤ 3) then
        (putTrims x.cgNew x.skimNew x.range s).onDev (fun d =>
          let d := d.onHealth fun z => { z with radio := some { x with inForce := true } }
          ((d.putBit F.HEALTH_MP_STAT_RADIO_PEND false).put F.HEALTH_MP_STAT_APPLIED (setB (d.get F.HEALTH_MP_STAT_APPLIED) 3 true)).planCheck)
      else s
    else if d.proof.run.isNone && d.proof.accepted.isNone then
      (putTrims x.cgOld x.skimOld x.range s).onDev (fun d =>
        let d := d.onHealth fun z => { z with radio := some { x with inForce := false } }
        let d := d.put F.HEALTH_MP_STAT_APPLIED (setB (d.get F.HEALTH_MP_STAT_APPLIED) 3 false)
        let d := if d.get F.PROOF_STAT_ABORT = 1 then d.planCheck else d
        (d.putBit F.HEALTH_MP_STAT_RADIO_PEND true).planShow)
    else s

/-- The counts of the last frame, shown at the next boundary (R80, R92, R108). -/
def showLastFrame (d : Dev) : Dev :=
  match d.fpa.frames.getLast? with
  | none => d
  | some f =>
    let c := f.fc
    let d := ((d.put F.PIPE_BU_RESTART_CNT c.restart).put F.PIPE_BU_GATED_CNT c.gated).putBit F.PIPE_BU_STAT_ALL_RESTART
      (c.total != 0 && c.restart == c.total)
    let d := ((d.put F.PIPE_RAD_SAT_LOW (satN 16 c.satLow)).put F.PIPE_RAD_SAT_HIGH (satN 16 c.satHigh)).put F.PIPE_RAD_NOVAL_CNT c.noval
    d.put F.PIPE_ST_INVALID_CNT c.invalid

/-- Every slot of a frame has been accumulated or lost. -/
def Frame.spent (f : Frame) : Bool :=
  f.dark || f.cut.isSome || (f.slots.length == f.set.rowSlots + 1 && f.slots.all (fun x => x.slot == 0 || x.lost || x.accumulated))

/-- Old frames leave the readout: a SHUTTER frame leaves its span for the flags of later lines (R156). -/
def retireFrames (d : Dev) : Dev :=
  let n := d.fpa.frames.length
  let inCap (f : Frame) : Bool := d.pipe.capBufs.any (fun b => match b with | some x => x.frame == f.cnt | none => false)
  let go (q : Frame × Nat) : Bool := decide (q.2 + 3 ≤ n) && ((q.1.spent && !inCap q.1) || decide (q.2 + 8 ≤ n))
  let old := (d.fpa.frames.zipIdx.filter go).map (·.1)
  let d := old.foldl (fun d f => d.frameStats f.cnt) d
  let spans := (old.filter (·.shutter)).map (fun f => (⟨f.b, f.b + f.set.period, f.webB, f.webE, d.oMin f.set, d.oMax f.set⟩ : ShutSpan))
  let live (q : ShutSpan) : Bool := match d.web.cursor, q.wE with
    | some c, some e => decide (0 < sdiff c (wadd e (256 * q.omax))) | _, _ => true
  let d := d.onWeb fun z => { z with shut := (z.shut ++ spans).filter live }
  d.onFpa fun z => { z with frames := z.frames.filter (fun f => !old.any (fun o => o.cnt == f.cnt)) }

/-- The frame that begins at a boundary, with all that is bound to it (R20, R29, R65, R96, R130). -/
def newFrame (m : Mems) (d : Dev) (b : Nat) (inits : List Nat) (trig dark : Bool) : Frame :=
  let t := d.get F.FPA_STAGE_TEMP_T
  let ft : Int := (d.get F.FPA_FRAME_TEMP_T : Nat)
  let q := d.getI F.FPA_STAGE_RATE_RATE
  let r := d.get F.PIPE_PL_STAT_ACTIVE_REG
  { cnt := d.get F.FPA_FRAME_CNT_CNT, b := b, gen := d.get F.FPA_GEN_CUR_GEN, set := d.fpa.set, cfg := d.regs
    stageT := t, stageQ := q, frameT := ft, region := r, plateSeq := hdrSeq m r, plateNow := d.pipe.plateNow
    triggered := trig, shutter := d.proof.closure.isSome || (match d.proof.lastClosure with | some c => decide (b < c.2) | none => false)
    dark := dark, cut := none, slots := [], lastLR := none, rowFallback := false, chInit := false, initSlices := inits
    substCols := d.substCols, blindExcl := d.fpa.blindExcl, cluPix := d.pipe.cluPix, cmSpan := none
    cls := d.get F.PIPE_AC_STAT_CLASS, reasons := d.get F.PIPE_AC_STAT_REASON
    webB := d.get F.WEB_POS_W, webE := none, stageOff := !d.stageGood, wMarks := []
    dm := driftOffset d d.fpa.set.gain (t : Nat) ft q d.optime, fc := ⟨0, 0, 0, 0, 0, 0, 0⟩, closed := false }

/-- The set in force fails the pixel-rate check with the lanes left, so every second frame is not read out (R298). -/
def Dev.dropsFrame (d : Dev) : Bool := decide (d.fpa.set.period < d.ratePeriod d.fpa.set) && d.fpa.halfRate

/-- Place the next boundary after one at `b` (R34, R43). -/
def nextBoundary (b : Nat) (d : Dev) : Dev :=
  let free := d.fpa.set.src == 0
  (d.onFpa fun z => { z with
    lastB := some b, startAt := none, startNew := false, nextTrig := false, nextB := if free then some (b + z.set.period) else none }).showPend

/-- The first half of a boundary at `b`: everything that takes effect before the frame is formed. -/
def boundaryEffects (b : Nat) (s : State) : State :=
  let g := s.dev.fpa.set.gain
  let s := s.onDev (fun d => takePlates s.mem b g (takeCommit b (showLastFrame d)))
  let s := takeEdits b (takeCurves b s)
  radioBoundary (s.onDev (fun d => d.applyGeo))

/-- The effective flags differ from those before the boundary (R78): another plate, other than a proof's, whose flags are those
it was built from (R126), an edit, or a column of R32. -/
def flagsChanged (d0 d : Dev) : Bool :=
  (d0.get F.PIPE_PL_STAT_ACTIVE_REG != d.get F.PIPE_PL_STAT_ACTIVE_REG &&
    !(d0.fpa.set.gain == d.fpa.set.gain && (match d0.pipe.swap with | some x => x.proof | none => false))) ||
  d0.pipe.edits.length != d.pipe.edits.length || d0.substCols != d.substCols

/-- The second half: the frame is formed and the consumers of boundaries follow; `d0` is the state before the boundary. -/
def boundaryFrame (m : Mems) (b : Nat) (d0 d : Dev) : Dev :=
  let trig := d.fpa.nextTrig
  let inits := newSlices d
  let d := takeSubsts d
  let d := if flagsChanged d0 d then clusterStep m d else d
  let d := classStep m (d.get F.FPA_STAGE_TEMP_T : Nat) (d.get F.FPA_FRAME_TEMP_T : Nat) d
  let d := (d.incWrap F.FPA_FRAME_CNT_CNT).put F.FPA_FRAME_T_T b
  let f := newFrame m d b inits trig d.dropsFrame
  let d := d.put F.PIPE_DM_OFS_DM (fitS 16 d.freeIdx f.dm)
  let d := d.onFpa fun z => { z with frames := z.frames ++ [f], halfRate := decide (z.set.period < d.ratePeriod z.set) && !z.halfRate }
  let d := d.onPipe fun z => { z with plateNow := false }
  let d := proofBoundary m f (captureBoundary f (retireFrames d))
  ((nextBoundary b d).showGeo).auxDue (fun tr => tr == 1)

/-- A boundary that passes without a frame while the readout is held (R54, R318): free-running boundaries go on. -/
def skipBoundary (b : Nat) (d : Dev) : Dev :=
  if d.fpa.set.src = 0 then (d.onFpa fun z => { z with nextB := some (b + z.set.period), startAt := none, startNew := false }).showPend
  else (d.onFpa fun z => { z with nextB := none, nextTrig := false }).showPend

/-- A boundary is due and imaging runs. -/
def Dev.boundaryDue (d : Dev) : Option Nat :=
  match d.fpa.nextB with
  | some b => if b ≤ d.t ∧ d.bit F.FPA_CTL_RUN then some b else none
  | none => none

/-- The readout's part of FRAME_BOUNDARY (R17). -/
def readoutBoundary (s : State) : State :=
  match s.dev.boundaryDue with
  | none => s
  | some b =>
    if s.dev.fpa.readoutStop || s.dev.fpa.clockStop then s.onDev (skipBoundary b)
    else
      let t := boundaryEffects b s
      t.onDev (boundaryFrame t.mem b s.dev)

/-! ### Start and stop of imaging (R49, R252, R373) -/

/-- START_IMAGING. -/
def doStartImaging (c : Cmd) (d : Dev) : Dev :=
  match startReadout d with
  | (d, 0) => d.bootProfile.ok c 0
  | (d, e) => d.complete c St.refused e 0

/-- Commands that waited for the frame in progress to end complete, and RUNNING falls (R252). -/
def Dev.stopDone (d : Dev) : Dev :=
  if d.bit F.FPA_CTL_RUN || d.inFrame then d
  else
    let d := d.putBit F.FPA_STAT_RUNNING false
    (d.completeAll d.fpa.stopKs St.ok 0 0).onFpa fun z => { z with stopKs := [] }

/-- Imaging stops: a proof before its commit point aborts (R127 STOP). -/
def stopAll (d : Dev) : Dev := (stopReadout d).abortEarly 9

/-- STOP_IMAGING: captures end ABANDONED (R251), and it completes when the frame in progress ends. -/
def doStopImaging (c : Cmd) (d : Dev) : Dev :=
  let d := (abandonWhere (fun _ => true) (stopAll d)).onFpa fun z => { z with stopKs := z.stopKs ++ [c.k] }
  d.stopDone

/-- RUN_SET: a write of 1 to `FPA_CTL.RUN` (R373). -/
def execRunSet (s : State) : Host.Outcome State Fault Refusal :=
  .next (s.onDev (fun d => match startReadout d with | (d, 0) => d.bootProfile | (d, _) => d))

/-- RUN_CLEAR: a write of 0 to `FPA_CTL.RUN`. -/
def execRunClear (s : State) : Host.Outcome State Fault Refusal := .next (s.onDev (fun d => (stopAll d).stopDone))

end Sys2Proof.Machine
end

