-- ==== Sys2Proof/Machine/Store.lean ====
section
/-! DEFINITION. QDR correction and scrubbing, the table window, reads of the Keep, the flash and the log, and the commands
on them (R265 to R284, R291). -/

namespace Sys2Proof.Machine

/-! ### QDR words (R265 to R274) -/

/-- The word lies outside the test rows, which are not swept (R267, R274). -/
def swept (w : Nat) : Bool := decide (w / 4 < 0x1FE000)

/-- The next 60 s mark has come with scrubbing on, or a sweep waits for the one before it to end. -/
def Dev.sweepStarts (d : Dev) : Bool :=
  !d.bit F.MEM_STAT_SCRUBBING && d.bit F.MEM_CTL_SCRUB_EN && (d.store.sweepDue || decide (d.store.nextSweep ≤ d.t))

/-- A sweep begins. -/
def Dev.beginSweep (d : Dev) : Dev :=
  (d.onStore fun z => { z with sweepT0 := d.t, sweepDue := false, nextSweep := (d.t / (60 * secT) + 1) * (60 * secT) }).putBit
    F.MEM_STAT_SCRUBBING true

/-- SCRUB_SWEEP: a sweep begins at its mark, and finds `found` words whose codewords carry errors (R274). -/
def scrubSweep (found : List BurstIn) (s : State) : State :=
  let s := s.onDev (fun d => if d.sweepStarts then d.beginSweep else d)
  if s.dev.bit F.MEM_STAT_SCRUBBING then
    (found.filter (fun p => swept p.word)).foldl (fun s p => readBurst p.word p.code p.newer s) s
  else s

/-- SCRUB_SWEEP. -/
def execScrubSweep (found : List BurstIn) (s : State) : Host.Outcome State Fault Refusal := .next (scrubSweep found s)

/-- SCRUB_FORCED_CYCLE: the scrubber takes one cycle of a channel ahead of functional traffic (R274). -/
def execScrubForcedCycle (found : BurstIn) (s : State) : Host.Outcome State Fault Refusal :=
  .next (if s.dev.bit F.MEM_STAT_SCRUBBING && swept found.word then readBurst found.word found.code found.newer s else s)

/-- A sweep ends: its duration is shown and it is counted; one whose mark has passed follows (R274). -/
def Dev.sweepComplete (d : Dev) : Dev :=
  if d.bit F.MEM_STAT_SCRUBBING then
    let d := ((d.put F.MEM_SCRUB_STAT_LAST_MS (satN 16 ((d.t - d.store.sweepT0) / msT))).incWrap F.MEM_SCRUB_STAT_SWEEPS).putBit
      F.MEM_STAT_SCRUBBING false
    if d.store.nextSweep ≤ d.t && d.bit F.MEM_CTL_SCRUB_EN then d.beginSweep else d
  else d

/-- SWEEP_COMPLETE. -/
def execSweepComplete (s : State) : Host.Outcome State Fault Refusal := .next (s.onDev Dev.sweepComplete)

/-- The slot written last of a kind and ID (3 geometry, 4 profile, 5 boot configuration). -/
def Dev.lastSlot (d : Dev) (kind id : Nat) : Option Nat :=
  (d.store.lastSlot.find? (fun x => x.1 == kind && x.2.1 == id)).map (·.2.2)

/-- The flash copy of a table or plate word: its flash address, if the copy is valid (R273). -/
def flashCopy (m : Mems) (d : Dev) (a : Nat) : Option Nat :=
  let reg (r : Nat) : RegionX := d.pipe.regions.getD r ⟨false, 0, 0, 0⟩
  let inst (g src : Nat) : Option Nat := if src = 1 then some g else if src = 2 ∨ src = 3 then some (fieldA g + src - 2) else none
  let plate (r ofs : Nat) : Option Nat :=
    match inst (reg r).range (reg r).src with
    | some i => if (reg r).valid && plateValid m d i then some (plateFlash i + ofs) else none
    | none => none
  let curve (g src ofs : Nat) : Option Nat :=
    match inst g src with
    | some i => if curveOk (m.f (curveFlash i) 0x6044) && !d.store.badSlots.contains (2, i) then some (curveFlash i + ofs) else none
    | none => none
  let act := d.get F.PIPE_PL_STAT_ACTIVE_REG
  if entAddr act ≤ a ∧ a < entAddr act + 0x02800000 then plate act (0x10000 + (a - entAddr act))
  else if hdrAddr 0 ≤ a ∧ a < hdrAddr 0 + 0x30000 then plate ((a - hdrAddr 0) / 0x10000) (a % 0x10000)
  else if stAddr ≤ a ∧ a < stAddr + 0x280000 then
    if stValid m d d.pipe.stInst then some (stFlash d.pipe.stInst + (a - stAddr)) else none
  else if curveAddr 0 ≤ a ∧ a < curveAddr 0 + 0x6044 then curve 0 (d.get F.PIPE_RAD_CV_STAT_SRC_H) (a - curveAddr 0)
  else if curveAddr 1 ≤ a ∧ a < curveAddr 1 + 0x6044 then curve 1 (d.get F.PIPE_RAD_CV_STAT_SRC_E) (a - curveAddr 1)
  else none

/-- The word lies in a table that the model holds as fields, the geometry map in force, the stand map or a job profile, and flash
or the Keep holds a copy of that table (R145, R161, R204). -/
def Dev.typedCopy (d : Dev) (w : Nat) : Bool :=
  let a := 32 * w
  if geoForceAddr ≤ a ∧ a < geoForceAddr + 18528 then (d.lastSlot 3 0).isSome
  else if standMapAddr ≤ a ∧ a < standMapAddr + 832 then d.saved.map.isSome
  else if profAddr 0 ≤ a ∧ a < statAddr 0 then (d.lastSlot 4 ((a - profAddr 0) / 1600)).isSome
  else false

/-- TABLE_WORD_RELOAD: an uncorrectable word of the plate in force or of a table is reloaded from its flash copy (R273). -/
def tableWordReload (w : Nat) (s : State) : State :=
  if s.dev.store.qdrBad.contains w then
    match flashCopy s.mem s.dev (32 * w) with
    | some a => s.flashToQdr a 32 (32 * w)
    | none => if s.dev.typedCopy w then s.onDev (fun d => d.freshQdr (32 * w) 32) else s
  else s

/-- TABLE_WORD_RELOAD. -/
def execTableWordReload (w : Nat) (s : State) : Host.Outcome State Fault Refusal := .next (tableWordReload w s)

/-! ### Table window (R275, R276) -/

/-- The copy of the window registers of a path: 0 BAR0, 1 the management port. -/
def pathCopy : Path → Option Nat
  | .bar0 => some 0
  | .mgmt => some 1
  | .bar2 => none

/-- A path's window registers and latches. -/
def Dev.path (d : Dev) (i : Nat) : PathSt := d.paths.getD i PathSt.reset

/-- Replace a path's window registers and latches. -/
def Dev.putPath (d : Dev) (i : Nat) (p : PathSt) : Dev := { d with paths := d.paths.set i p }

/-- The table a path selects. -/
def PathSt.table (p : PathSt) : Nat := p.twSel.toNat % 256
/-- The instance a path selects. -/
def PathSt.inst (p : PathSt) : Nat := p.twSel.toNat / 256 % 64

/-- The region that holds the role of tables 0x00 to 0x02. -/
def Dev.roleRegion (d : Dev) (t : Nat) : Nat :=
  if t = 0 then d.get F.PIPE_PL_STAT_ACTIVE_REG else if t = 1 then d.get F.PIPE_PL_STAT_SHADOW_REG else d.get F.PIPE_PL_STAT_STANDBY_REG

/-- TW_SEL written: the region of a plate table is latched (R276). -/
def twSelWrite (i : Nat) (v : Word) (d : Dev) : Dev :=
  let p := { d.path i with twSel := v &&& 0x3FFF }
  d.putPath i { p with region := if p.table < 3 then some (d.roleRegion p.table) else none }

/-- TW_SEL_WRITE; the selection exists for BAR0 and the management port (R275). -/
def execTwSelWrite (p : Path) (v : Word) (s : State) : Host.Outcome State Fault Refusal :=
  match pathCopy p with
  | some i => .next (s.onDev (twSelWrite i v))
  | none => .fault (.noAddress 0x28010)

/-- `STALE`: the latched region no longer holds the selected role (R276). -/
def Dev.twStale (d : Dev) (p : PathSt) : Bool := match p.region with | some r => r != d.roleRegion p.table | none => false

/-- Size in bytes of a table; 0 for an unlisted table or instance and for a flash slot without a valid image (R276). -/
def tableSize (m : Mems) (d : Dev) (t i : Nat) : Nat :=
  if t < 3 then plateBytes
  else if t = 3 then 2621440
  else if t = 4 ∨ t = 5 then 21888
  else if t = 6 ∨ t = 7 then 24644
  else if t = 8 then 18496
  else if t = 9 then 18500
  else if t = 0x0A then 1600
  else if t = 0x0B then 832
  else if t = 0x0C ∨ t = 0x0D then 43776
  else if t = 0x0E then 87552
  else if t = 0x0F then (if i < 6 && plateValid m d i then 0x02820000 else 0)
  else if t = 0x10 then (if i < 3 && stValid m d i then 0x00290000 else 0)
  else if t = 0x11 then (if i < 6 && curveOk (m.f (curveFlash i) 0x6044) && !d.store.badSlots.contains (2, i) then 24644 else 0)
  else if t = 0x12 then 1048576
  else 0

/-- QDR address of byte `o` of a table that lies in QDR. -/
def tableQdr (p : PathSt) (o : Nat) : Option Nat :=
  let t := p.table
  if t < 3 then p.region.map (fun r => plateAddr r o)
  else if t = 3 then some (stAddr + o)
  else if t = 4 ∨ t = 5 then some (skimAddr (t - 4) + o)
  else if t = 6 ∨ t = 7 then some (curveAddr (t - 6) + o)
  else if t = 8 then some (geoAddr + o)
  else if t = 9 then some (geoForceAddr + o)
  else if t = 0x0A then some (profAddr p.inst + o)
  else if t = 0x0B then some (standMapAddr + o)
  else if t = 0x0E then some (chAddr 0 + o)
  else if t = 0x12 then some (0x0E700000 + o)
  else none

/-- The 24 bytes of a slot entry (R201). -/
def MapEnt.bytes (e : MapEnt) : List Byte :=
  leBytes 8 e.id ++ leBytes 1 e.kind ++ leBytes 1 e.cover ++ leBytes 1 e.chan ++ leBytes 1 e.flags ++ leBytes 4 e.col0 ++
  leBytes 8 (uns 64 e.wofs)

/-- The stand map in the layout of STAND_QUERY, EPOCH and VERSION filled in (R201); zeros while there is none. -/
def Dev.mapImage (d : Dev) : List Byte :=
  match d.stand.map with
  | none => List.replicate 832 0
  | some m =>
    [0, 0] ++ leBytes 1 m.root ++ leBytes 1 m.level ++ leBytes 4 (d.get F.STAND_EPOCH_EPOCH) ++
    leBytes 2 (d.get F.STAND_MAP_VER_VER) ++ [0, 0] ++ leBytes 8 m.sid ++ List.replicate 44 0 ++
    (List.range 32).flatMap (fun s => match m.ents[s]? with | some e => e.bytes | none => List.replicate 24 0)

/-- A geometry map with its CRC (R145). -/
def Geo.bytes (g : Geo) : List Byte :=
  let b := g.hdr ++ g.o.flatMap (fun v => leBytes 4 (uns 32 v)) ++ g.x.flatMap (fun v => leBytes 4 (uns 32 v))
  b ++ leBytes 4 (crc32c b)

/-- Byte `o` of a table that the model does not hold as QDR bytes. A channel without a filtered value shows a free one (R61, R63). -/
def tableByte (m : Mems) (d : Dev) (t i o : Nat) : Byte :=
  let at_ (n v : Nat) : Byte := (leBytes n v).getD (o % n) 0
  if t = 9 then (match d.web.geo with | some g => g.bytes.getD o 0 | none => 0)
  else if t = 0x0A then (match assoc d.web.profs i with | some b => b.getD o 0 | none => 0)
  else if t = 0x0B then d.mapImage.getD o 0
  else if t = 0x0C then at_ 2 ((assoc d.cc.g (o / 2)).getD 0)
  else if t = 0x0D then at_ 2 (Config.gRef (o / 2))
  else if t = 0x0E then
    at_ 4 (match assoc d.fpa.chD (o / 4) with | some v => uns 32 v | none => Config.noStat d.freeIdx (o / 4) 0)
  else if t = 0x0F then m.flash.rd flashDef (plateFlash i + o)
  else if t = 0x10 then m.flash.rd flashDef (stFlash i + o)
  else if t = 0x11 then m.flash.rd flashDef (curveFlash i + o)
  else 0

/-- A table takes writes (R276). -/
def Dev.tableWritable (d : Dev) (t : Nat) : Bool :=
  ((t == 4 || t == 5) && !d.bit F.SEC_STAT_PROVISIONED) || (t == 8 && !d.bit F.WEB_CTL_ACC_EN) ||
  (t == 0x12 && !d.bit F.SEC_MBX_STAT_BUSY && !d.bit F.SEC_MBX_STAT_DONE)

/-- A window read of the word at offset `o`: the state after, the word, and whether it was uncorrectable. Bytes beyond the
table read 0, an uncorrectable QDR word reads 0 and sets UNCORR (R273, R275). `code` is the burst as it came back, if it
carried errors; a corrected word is written back (R272). -/
def windowWord (i o : Nat) (code : Option (List Byte)) (s : State) : State × Nat × Bool :=
  let q := s.dev.path i
  let b := q.twBase.toNat % 65536 * 65536 + o / 4 * 4
  let size := tableSize s.mem s.dev q.table q.inst
  let word (bs : List Byte) : Nat := leNat (bs.zipIdx.map (fun x => if b + x.2 < size then x.1 else 0))
  if size ≤ b then (s, 0, false)
  else
    match tableQdr q b with
    | none => (s.onDev Dev.fresh, word ((List.range 4).map (fun j => tableByte s.mem s.dev q.table q.inst (b + j))), false)
    | some a =>
      let bad0 := s.dev.store.qdrBad.contains (a / 32)
      let s1 := match code with | some c => if bad0 then s else readBurst (a / 32) c false s | none => s
      if s1.dev.store.qdrBad.contains (a / 32) then
        (s1.onDev (fun d =>
          let d := if bad0 then d.qdrUncorr (a / 32) else d
          (d.putPath i { d.path i with uncorr := true }).tieBits (R.MEM_TW_STAT + i) 2), 0, true)
      else if typedWord (a / 32) then
        (s1.onDev Dev.fresh, word ((List.range 4).map (fun j => tableByte s.mem s.dev q.table q.inst (b + j))), false)
      else (s1, word (s1.mem.q a 4), false)

/-- A window read with its answer. -/
def windowRead (p : Path) (i o : Nat) (code : Option (List Byte)) (s : State) : State :=
  let r := windowWord i o code s
  r.1.onDev (fun d => d.emit (.readData p r.2.1))

/-- TABLE_WINDOW_READ. -/
def execTableWindowRead (p : Path) (off : Nat) (code : Option (List Byte)) (s : State) : Host.Outcome State Fault Refusal :=
  match pathCopy p with
  | some i => if off < 0x80000 then .next (windowRead p i off code s) else .fault (.noAddress off)
  | none => .fault (.noAddress off)

/-- A window write: ignored with WR_DENIED where the table takes none; bytes beyond the table are ignored (R275). -/
def windowWrite (i o : Nat) (v : Word) (s : State) : State :=
  let q := s.dev.path i
  let b := q.twBase.toNat % 65536 * 65536 + o / 4 * 4
  if !s.dev.tableWritable q.table then
    s.onDev (fun d => (d.putPath i { d.path i with wrDenied := true }).tieBits (R.MEM_TW_STAT + i) 1)
  else
    match tableQdr q b with
    | some a => s.wrQdr a ((leBytes 4 v.toNat).take (tableSize s.mem s.dev q.table q.inst - b))
    | none => s

/-- TABLE_WINDOW_WRITE. -/
def execTableWindowWrite (p : Path) (off : Nat) (v : Word) (s : State) : Host.Outcome State Fault Refusal :=
  match pathCopy p with
  | some i => if off < 0x80000 then .next (windowWrite i off v s) else .fault (.noAddress off)
  | none => .fault (.noAddress off)

/-! ### The Keep, flash and log as read -/

/-- The bytes of an event log page: a record whose page write waits is not there yet (R283, R291). -/
def Dev.evPage (d : Dev) (p : Nat) : List Byte :=
  let held := d.store.keepQ.findSome? (fun j => match j.what with | .event q old => if q = p then some old else none | _ => none)
  let b := held.getD (Tab.get [] d.health.evPages p)
  if b.isEmpty then List.replicate 64 keepDef else b

/-- The byte of the Keep at `a` as it reads: groups that are torn read 0xFF; areas whose layout the spec does not give are
free (R281, R284). -/
def keepByteAt (m : Mems) (d : Dev) (a : Nat) : Byte :=
  if d.store.keepTorn.contains (a / 8 * 8) then 0xFF
  else if 0x18000 ≤ a ∧ a < 0x40000 then (d.evPage ((a - 0x18000) / 64)).getD (a % 64) keepDef
  else if 0x40000 ≤ a then m.keep.rd keepDef a
  else Config.keepByte d.freeIdx a

/-- The groups of a range of the Keep that a read finds wrong: the torn ones, and those with a double-bit error (R280). -/
def Dev.keepBad (d : Dev) (errs : List KeepErr) (a n : Nat) : List Nat × List Nat :=
  let inside (g : Nat) : Bool := decide (a < g + 8 ∧ g < a + n)
  let torn := d.store.keepTorn.filter inside
  (torn, ((errs.filter (fun e => e.double)).map (fun e => e.addr / 8 * 8)).eraseDups.filter (fun g => inside g && !torn.contains g))

/-- Log an event for each page that holds one of the groups; `n` is the counter after them (R280, R293). -/
def Dev.keepLog (d : Dev) (code n : Nat) (gs : List Nat) : Dev :=
  ((gs.map (· / 64)).eraseDups).foldl (fun d p => d.event code { elem := p, arg0 := n, arg2 := 64 * p }) d

/-- Reading a range of the Keep: corrected, uncorrectable and torn groups in it are counted and logged by page, and the address
of the first uncorrectable or torn one is latched (R280, R284). -/
def Dev.keepSeen (d : Dev) (errs : List KeepErr) (a n : Nat) : Dev :=
  let bad := d.keepBad errs a n
  let one := ((errs.filter (fun e => !e.double)).map (fun e => e.addr / 8 * 8)).eraseDups.filter
    (fun g => decide (a < g + 8 ∧ g < a + n) && !bad.1.contains g && !bad.2.contains g)
  let d := ((d.addSat F.STORE_KEEP_CORR_VAL one.length).addSat F.STORE_KEEP_UNCORR_VAL bad.2.length).addSat F.STORE_KEEP_TORN_VAL bad.1.length
  let d := d.keepLog 0x0501 (d.get F.STORE_KEEP_CORR_VAL) one
  let d := d.keepLog 0x0502 (d.get F.STORE_KEEP_UNCORR_VAL) bad.2
  let d := d.keepLog 0x0502 (d.get F.STORE_KEEP_TORN_VAL) bad.1
  match (bad.1 ++ bad.2).foldl (fun o g => some (match o with | some x => Nat.min x g | none => g)) (none : Option Nat) with
  | none => d
  | some f => d.put F.STORE_KEEP_TORN_ADDR_VAL f

/-- KEEP_READ (R281): refused where the range touches the key area. `errs` are the bit errors that the read meets (R280). -/
def doKeepRead (errs : List KeepErr) (c : Cmd) (s : State) : State :=
  let a := c.f 24 4
  if 0x80000 < a + c.ilen then s.onDev (fun d => d.complete c St.badParam 0 0)
  else if a < 0x2400 ∧ 0 < c.ilen then s.onDev (fun d => d.complete c St.refused 0 0)
  else
    let bad := (s.dev.keepBad errs a c.ilen).2
    let bs := (List.range c.ilen).map (fun i =>
      if bad.contains ((a + i) / 8 * 8) then 0xFF else keepByteAt s.mem s.dev (a + i))
    (s.returnData c bs).onDev (fun d => ((d.keepSeen errs a c.ilen).ok c c.ilen).fresh)

/-- A flash byte as read: the partition table, the factory identity and the log archive have no stated layout. -/
def flashByteAt (m : Mems) (d : Dev) (a : Nat) : Byte :=
  if a < 0x100000 ∨ (0x12500000 ≤ a ∧ a < 0x1F800000) then Config.keepByte d.freeIdx (2 ^ 20 + a) else m.flash.rd flashDef a

/-- FLASH_READ (R252). -/
def doFlashRead (c : Cmd) (s : State) : State :=
  let a := c.f 32 8
  if 0x20000000 < a + c.ilen then s.onDev (fun d => d.complete c St.badParam 0 0)
  else
    let bs := (List.range c.ilen).map (fun i => flashByteAt s.mem s.dev (a + i))
    (s.returnData c bs).onDev (fun d => ((d.wake 105).ok c c.ilen).fresh)

/-- The event records held, oldest first, each with its SEQ: those of the archive that have left the Keep, then the Keep's
pages in the order in which they were written (R291). -/
def heldRecords (d : Dev) : List (Nat × List Byte) :=
  let newest := d.get F.HEALTH_EVT_SEQ_VAL
  let n := Nat.min 2560 newest
  let first := newest + 1 - n
  let torn (p : Nat) (b : List Byte) : List Byte :=
    b.zipIdx.map (fun x => if d.store.keepTorn.contains (0x18000 + 64 * p + x.2 / 8 * 8) then 0xFF else x.1)
  (d.health.archive.map (fun b => (leAt b 8 4, b))).filter (fun r => decide (r.1 < first)) ++
  (List.range n).map (fun i => (first + i, torn ((first + i) % 2560) (d.evPage ((first + i) % 2560))))

/-- LOG_READ (R291): whole records from the first at or after the requested one, as many as the buffer holds. -/
def doLogRead (c : Cmd) (s : State) : State :=
  let from_ := c.f 24 4
  let bs := (((heldRecords s.dev).filter (fun r => decide (from_ ≤ r.1))).take (c.ilen / 64)).flatMap (·.2)
  (s.returnData c bs).onDev (fun d => d.ok c bs.length)

/-! ### Writing commands -/

/-- KEEP_WRITE (R282): journalled, completed after the commit; only the user area takes it. -/
def doKeepWrite (c : Cmd) (d : Dev) : Dev :=
  let a := c.f 24 4
  if a % 64 ≠ 0 ∨ 0x80000 < a + c.ilen then d.complete c St.badParam 0 0
  else if a < 0x40000 then d.complete c St.refused 0 0
  else d.keepPush (.user c.k a (slice c.data 0 c.ilen)) (c.ilen / 64)

/-- Flash places of the slots written last by the module's own sequence: geometry, profiles and boot configuration (log 9). -/
def geoFlash (slot : Nat) : Nat := 0x12100000 + 0x80000 * slot
/-- A job profile's slot in flash. -/
def profFlash (id slot : Nat) : Nat := 0x12200000 + 0x8000 * id + 0x4000 * slot
/-- A boot configuration's slot in flash. -/
def bootFlash (slot : Nat) : Nat := 0x12400000 + 0x80000 * slot
/-- A firmware bank in flash. -/
def fwFlash (bank : Nat) : Nat := 0x00100000 + 0x01000000 * bank


/-- The slot the next image of a kind and ID goes to: A and B alternate (R278). -/
def Dev.nextSlot (d : Dev) (kind id : Nat) : Nat := match d.lastSlot kind id with | some 0 => 1 | _ => 0

/-- The slot has been written. -/
def Dev.putSlot (d : Dev) (kind id slot : Nat) : Dev :=
  d.onStore fun z => { z with lastSlot := (kind, id, slot) :: z.lastSlot.filter (fun x => !(x.1 == kind && x.2.1 == id)) }

/-- The flash range a background write uses (R279). -/
def FlashWhat.range (d : Dev) : FlashWhat → Nat × Nat
  | .plate _ _ i => (plateFlash i, 0x02900000)
  | .stipple _ i _ => (stFlash i, 0x00300000)
  | .curve _ i _ => (curveFlash i, 0x20000)
  | .geometry _ => (geoFlash (d.nextSlot 3 0), 0x80000)
  | .profile _ id _ => (profFlash id (d.nextSlot 4 id), 0x4000)
  | .boot _ => (bootFlash (d.nextSlot 5 0), 0x80000)
  | .bootClear => (bootFlash 0, 0x100000)
  | .fwChunk _ b o bs _ => (fwFlash b + o, bs.length)
  | .erase _ a n => (a, n)
  | .archive => (0x12500000, 0x0D300000)

/-- Two ranges meet. -/
def meets (a n b m : Nat) : Bool := decide (a < b + m ∧ b < a + n)

/-- FLASH_ERASE (R279). -/
def doFlashErase (c : Cmd) (d : Dev) : Dev :=
  let n := c.f 24 4
  let a := c.f 32 8
  if a % 0x20000 ≠ 0 ∨ n % 0x20000 ≠ 0 ∨ 0x20000000 < a + n then d.complete c St.badParam 0 0
  else
    let hit (b m : Nat) : Bool := meets a n b m
    let factory := hit 0 0x100000 || hit (plateFlash 0) (2 * 0x02900000) || hit (stFlash 0) 0x300000 || hit (curveFlash 0) 0x40000
    let fw := hit (fwFlash (d.get F.SEC_FW_STAT_ACTIVE)) 0x1000000 ||
      (d.bit F.SEC_FW_STAT_TRIAL && hit (fwFlash (d.get F.SEC_FW_STAT_BOOT)) 0x1000000)
    let used := d.store.flashQ.any (fun j => let r := j.what.range d; hit r.1 r.2)
    if factory || fw || used then d.complete c St.refused 0 0 else d.flashPush (.erase c.k a n)

/-! ### Counters -/

/-- OPERATING_TIME_INCREMENT: counter 13 advances every 60 s of powered operation (R288). -/
def Dev.opIncrement (d : Dev) : Dev :=
  if d.store.opT0 + 60 * secT ≤ d.t then
    let d := if d.tallyFailed 13 then d.onStore fun z => { z with opBase := z.opBase + 60 } else d.tallyInc 13
    d.onStore fun z => { z with opT0 := z.opT0 + 60 * secT }
  else d

/-- OPERATING_TIME_INCREMENT. -/
def execOperatingTimeIncrement (s : State) : Host.Outcome State Fault Refusal := .next (s.onDev Dev.opIncrement)

/-- The MEM counters (R26). -/
def memCounters : List Fld :=
  [F.MEM_PATH_CORR_VAL, F.MEM_PATH_UNCORR_VAL] ++
  (List.range 4).flatMap (fun c => [F.MEM_QDR_CORR_CNT.at c, F.MEM_QDR_UNCORR_CNT.at c, F.MEM_QDR_WBSKIP_CNT.at c] ++
    (List.range 36).map (wireFld c))

/-- MEM_CNT_CLR. -/
def execMemCntClr (s : State) : Host.Outcome State Fault Refusal := .next (s.onDev (fun d => d.clearAll memCounters))

/-- STORE_CNT_CLR: the counters not from the Keep or the partition table. -/
def execStoreCntClr (s : State) : Host.Outcome State Fault Refusal :=
  .next (s.onDev (fun d => d.clearAll [F.STORE_FLASH_CRCERR_CNT, F.STORE_KEEP_CORR_VAL, F.STORE_KEEP_UNCORR_VAL, F.STORE_KEEP_TORN_VAL]))

end Sys2Proof.Machine
end

