-- ==== Sys2Proof/Machine/Link.lean ====
section
/-! DEFINITION. The Jartan ports: flit reception, training, lanes, routes, and the distribution of time and of the encoder
(R172 to R200). -/

namespace Sys2Proof.Machine

/-! ### Routes (R188 to R191) -/

/-- The module's own slot on its ring. -/
def Dev.ownSlot (d : Dev) : Nat := d.get F.STAND_STAT_SLOT

/-- Position of a slot on the ring or chain. -/
def Dev.ringPos (d : Dev) (s : Nat) : Option Nat := d.link.order.findIdx? (· == s)

/-- The hop from ring position `i` in the E direction exists and is not marked cut. -/
def Dev.hopOk (d : Dev) (i : Nat) : Bool :=
  let n := d.link.order.length
  let a := d.link.order.getD (i % n) 0
  decide (1 < n) && (d.link.closed || decide (i % n + 1 < n)) && !d.link.cuts.contains (a, 0)

/-- The branch of a slot is not marked cut. -/
def Dev.branchOk (d : Dev) (b : Nat × Nat) : Bool := !d.link.cuts.contains (b.1, 2)

/-- The hop at a port of a slot, named by the slot at its W end and port E, or by a branch's host slot and port U, so that both ends
name one hop (R188). -/
def Dev.hopKey (d : Dev) (slot p : Nat) : Nat × Nat :=
  let n := d.link.order.length
  match p, d.ringPos slot, d.link.branches.find? (fun b => b.1 == slot || b.2 == slot) with
  | 1, some i, _ => (d.link.order.getD ((i + n - 1) % n) 0, 0)
  | 2, _, some b => (b.1, 2)
  | _, _, _ => (slot, p)

/-- Hops from ring position `a` to `b` going E (`east`) or W, if none is cut. -/
def Dev.ringDist (d : Dev) (east : Bool) (a b : Nat) : Option Nat :=
  let n := d.link.order.length
  if n = 0 then none
  else
    let k := if east then (b + n - a) % n else (a + n - b) % n
    let ok := (List.range k).all (fun i => if east then d.hopOk (a + i) else d.hopOk (a + n - 1 - i))
    if ok then some k else none

/-- The port from ring position `a` toward `b`: the shorter way, E between equal ones. -/
def Dev.ringPort (d : Dev) (a b : Nat) : Option Nat :=
  match d.ringDist true a b, d.ringDist false a b with
  | some e, some w => if e ≤ w then some 0 else some 1
  | some _, none => some 0
  | none, some _ => some 1
  | none, none => none

/-- The ring slot that carries a slot, and its branch if it is one. -/
def Dev.carrier (d : Dev) (s : Nat) : Option (Nat × Option (Nat × Nat)) :=
  match d.ringPos s with
  | some i => some (i, none)
  | none =>
    match d.link.branches.find? (fun b => b.2 == s) with
    | some b => (d.ringPos b.1).map (fun i => (i, some b))
    | none => none

/-- route[s] (R188): the port of the shortest path, none for the module itself and for an unreachable slot. -/
def Dev.routeCalc (d : Dev) (s : Nat) : Option Nat :=
  let me := d.ownSlot
  if s = me then none
  else
    let ok (b : Option (Nat × Nat)) : Bool := match b with | some x => d.branchOk x | none => true
    match d.carrier me, d.carrier s with
    | some (i, bi), some (j, bj) =>
      if !ok bi || !ok bj then none
      else
        match bi with
        | some _ => if i = j ∨ (d.ringPort i j).isSome then some 2 else none
        | none => if i = j then some 2 else d.ringPort i j
    | _, _ => none

/-- The hop of port `p` of this module is listed by the ring order or a branch and not marked cut. -/
def Dev.hopListed (d : Dev) (p : Nat) : Bool :=
  let me := d.ownSlot
  match p, d.ringPos me with
  | 0, some i => d.hopOk i
  | 1, some i => d.hopOk (i + d.link.order.length - 1)
  | 2, _ => d.link.branches.any (fun b => (b.1 == me || b.2 == me) && d.branchOk b)
  | _, none => false
  | _, _ => false

/-- Recompute the routes and show them. -/
def Dev.reroute (d : Dev) : Dev :=
  let rs := (List.range 32).map (fun s => (s, d.routeCalc s))
  let v := rs.foldl (fun a q => match q.2 with | some p => a + (p + 1) * 4 ^ q.1 | none => a) 0
  let reach := rs.foldl (fun a q => if q.2.isSome || (q.1 == d.ownSlot && (d.ringPos q.1).isSome) then a + 2 ^ q.1 else a) 0
  let d := ((d.put F.LINK_ROUTE_ROUTE v).put F.LINK_REACH_REACH reach).put F.LINK_ROUTE_VER_CUTS d.link.cuts.length
  (List.range 3).foldl (fun d p => d.putBit (F.LINK_P_STAT_LISTED.at p) (d.portState p == 4 && d.hopListed p)) d

/-- A flit no longer needed on a failed port: LOCAL flits and broadcasts (R190). -/
def flitStays (f : Flit) : Bool := f.flags / 4 % 2 == 1 || f.flags / 8 % 2 == 1

/-- The module reports a hop of its own that is down (R188, R190). -/
def Dev.sendCut (d : Dev) (p : Nat) : Dev :=
  d.bcast 8 3 ([0x12] ++ leBytes 1 d.ownSlot ++ leBytes 1 p ++ [0] ++ leBytes 2 (d.get F.LINK_ROUTE_VER_VER))

/-- Mark a hop cut and recompute the routes (R190). -/
def Dev.markCut (d : Dev) (slot p : Nat) : Dev :=
  let h := d.hopKey slot p
  if d.link.cuts.contains h then d
  else ((d.onLink fun z => { z with cuts := z.cuts ++ [h] }).inc F.LINK_REROUTES_CNT).reroute

/-- Listed hops of this module that are down are marked and reported at once (R188). -/
def Dev.cutDown (d : Dev) : Dev :=
  (List.range 3).foldl (fun d p => if d.hopListed p && d.portState p != 4 then (d.markCut d.ownSlot p).sendCut p else d) d

/-- Frame records that waited for a port go to port `r`, or are dropped with it. -/
def Dev.framesMove (d : Dev) (p : Nat) (r : Option Nat) : Dev :=
  match r with
  | some r => d.onLink fun z => { z with frameOut := z.frameOut.map (fun q => if q.1 = p then (r, q.2) else q) }
  | none =>
    let gone := d.link.frameOut.filter (fun q => q.1 == p)
    gone.foldl (fun d q => capLeft (some q.2) false d) (d.onLink fun z => { z with frameOut := z.frameOut.filter (fun q => q.1 != p) })

/-- Frame records that are sent on port `p`, but for what its queue has room for, have left their buffers (R192). -/
def Dev.framesGone (d : Dev) (p : Nat) : Dev :=
  let bufs := d.link.frameOut.filter (fun q => q.1 == p)
  if bufs.isEmpty then d
  else
    let q := (d.port p).qs.getD 4 ⟨[], [], false⟩
    let own := q.own ++ (d.stand.held.filter (fun h => h.1 == p && h.2.type == 2)).map (·.2)
    let ends := (own.zipIdx.filter (fun f => f.1.flags / 2 % 2 == 1)).map (·.2)
    let stay := ends.countP (fun i => decide (qDepth 4 ≤ i + q.fwd.length))
    let gone := bufs.take (bufs.length - stay)
    gone.foldl (fun d q => capLeft (some q.2) true d) (d.onLink fun z => { z with
      frameOut := z.frameOut.filter (fun q => q.1 != p) ++ bufs.drop (bufs.length - stay) })

/-- A port leaves UP (R185, R190): it goes back to DETECT, its hop is cut, and what waited for it takes the new way. -/
def Dev.portLost (d : Dev) (p : Nat) : Dev :=
  if d.portState p ≠ 4 then d
  else
    let listed := d.hopListed p
    let x := d.port p
    let waiting := (x.qs.flatMap (fun q => q.own ++ q.fwd)).filter (fun f => !flitStays f)
    let d := d.putPort p { PortX.reset with dreqSeq := x.dreqSeq, progT := d.t }
    let d := ((((d.put (F.LINK_P_STAT_STATE.at p) 1).put (F.LINK_P_STAT_RX_LANES.at p) 0).put (F.LINK_P_STAT_TX_LANES.at p) 0).putBit
      (F.LINK_P_STAT_DEGRADED.at p) false).putBit (F.LINK_P_STAT_LISTED.at p) false
    let d := d.event 0x0103 { elem := p }
    if listed then
      let d := (d.markCut d.ownSlot p).sendCut p
      let d := d.framesMove p (d.routeTo (d.get F.STAND_ROLES_ROOT))
      match d.routeTo (d.get F.STAND_ROLES_ROOT) with
      | some r => waiting.foldl (fun d f => if f.src = d.ownSlot then d.pushOwn r f else d.pushFwd r f) d
      | none => d
    else d

/-- PORT_DOWN: no lane in use keeps lock for t_DOWN (R185, R190). -/
def execPortDown (q : Port) (s : State) : Host.Outcome State Fault Refusal := .next (s.onDev (fun d => d.portLost q.idx))

/-- A ROUTE_RING or ROUTE_BRANCH flit (R188): the ring order replaces the whole route state. -/
def routeRing (fl : Flit) (d : Dev) : Dev :=
  let b := fl.payload
  let v := leAt b 8 24
  if leAt b 0 1 = 0x10 then
    let n := Nat.min 32 (leAt b 1 1)
    let d := d.onLink fun z => { z with
      order := (List.range n).map (fun i => v / 64 ^ i % 64), closed := leAt b 2 1 % 2 == 1, branches := [], cuts := [] }
    ((d.put F.LINK_ROUTE_VER_VER (leAt b 4 2)).reroute).cutDown
  else if leAt b 0 1 = 0x11 then
    let n := Nat.min 16 (leAt b 1 1)
    ((d.onLink fun z => { z with
      branches := (List.range n).map (fun i => (v / 4096 ^ i % 64, v / 4096 ^ i / 64 % 64)) }).reroute).cutDown
  else d

/-- ROUTE_RING: the flit's route state is taken, and the flit also goes out on the hops it has just listed. An order that the
root itself settles on arrives as a flit from its own slot, and is broadcast. -/
def execRouteRing (fl : Flit) (s : State) : Host.Outcome State Fault Refusal :=
  .next (s.onDev (fun d =>
    let before := (List.range 3).filter d.portListed
    let d' := routeRing fl d
    if d.inStand && d.isRoot && fl.src == d.ownSlot then d'.bcast 8 3 fl.payload
    else
      (List.range 3).foldl (fun x q => if !before.contains q && x.portListed q && x.routeTo fl.src != some q then x.pushFwd q fl else x) d'))

/-- ROUTE_CUT (R190). -/
def execRouteCut (fl : Flit) (s : State) : Host.Outcome State Fault Refusal :=
  .next (s.onDev (fun d => if leAt fl.payload 0 1 = 0x12 then d.markCut (leAt fl.payload 1 1) (leAt fl.payload 2 1) else d))

/-! ### Lanes (R186) -/

/-- Lowest lane in use in the receive direction of a port. -/
def Dev.firstLane (d : Dev) (p : Nat) : Nat := ((bitsOf 4 (d.port p).rxMask).headD 0)

/-- Show a port's lanes; a direction with fewer than `MIN_LANES` takes the port down (R185). -/
def Dev.showLanes (d : Dev) (p : Nat) : Dev :=
  let x := d.port p
  let d := ((d.put (F.LINK_P_STAT_RX_LANES.at p) x.rxMask).put (F.LINK_P_STAT_TX_LANES.at p) x.txMask).putBit
    (F.LINK_P_STAT_DEGRADED.at p) (x.rxMask != 15 || x.txMask != 15)
  let m := d.get (F.LINK_P_CTL_MIN_LANES.at p)
  if popcount 4 x.rxMask < m ∨ popcount 4 x.txMask < m then d.portLost p else d

/-- The receiver asks for a new lane mask from a pair on that the request still reaches in time: 4096 ahead, where R186 asks for 64 or
more (log 88). -/
def Dev.askMask (d : Dev) (p mask : Nat) : Dev :=
  let x := d.port p
  d.putPort p { x with chgRx := some ⟨mask, (x.pairRx + 4096) % 65536, false⟩ }

/-- The transmitter announces that it leaves a lane, in the form of an acknowledging LM group (R187, log 88). -/
def Dev.laneQuit (d : Dev) (p i : Nat) : Dev :=
  let x := d.port p
  if d.portState p ≠ 4 ∨ ¬ x.txMask.testBit i then d
  else
    let mask := setB (match x.chgTx with | some c => c.mask | none => x.txMask) i false
    let cnt := (x.pairTx + 4096) % 65536
    d.putPort p { x with chgTx := some ⟨mask, cnt, true⟩, ackTx := some (mask, cnt) }

/-- A lane is in use in some direction of an UP port. -/
def Dev.laneBusy (d : Dev) (p i : Nat) : Bool := d.portState p == 4 && ((d.port p).rxMask.testBit i || (d.port p).txMask.testBit i)

/-- A lane in use fails: it is removed by the LM handshake (R186). -/
def Dev.laneOut (d : Dev) (p i : Nat) : Dev :=
  let x := d.port p
  if d.portState p ≠ 4 ∨ ¬ x.rxMask.testBit i then d
  else
    let now := match x.chgRx with | some c => c.mask | none => x.rxMask
    let d := d.putPort p { x with failed := (i, d.t) :: x.failed.filter (fun q => q.1 != i) }
    (d.askMask p (setB now i false)).event 0x0102 { elem := 4 * p + i }

/-- A lane returns by the same handshake. -/
def Dev.laneBack (d : Dev) (p i : Nat) : Dev :=
  let x := d.port p
  if d.portState p ≠ 4 ∨ x.rxMask.testBit i then d
  else
    let now := match x.chgRx with | some c => c.mask | none => x.rxMask
    (d.putPort p { x with failed := x.failed.filter (fun q => q.1 != i) }).askMask p (setB now i true)

/-- LANE_FAILED: a lane in use loses block lock for 1 µs (R186). -/
def execLaneFailed (q : Port) (lane : Fin 4) (s : State) : Host.Outcome State Fault Refusal :=
  .next (s.onDev (fun d => d.laneOut q.idx lane.val))

/-- LANE_RETURN: lock held for 1 s and the eye scan passed; the policy must carry RESTORE and the lane be enabled (R186). -/
def laneReturn (p i : Nat) (d : Dev) : Dev :=
  match assoc (d.port p).failed i with
  | some t =>
    let away := d.health.aside.any (fun a => a.ss == 1 && a.elem == 4 * p + i)
    if t + secT ≤ d.t ∧ (d.get (F.LINK_P_CTL_LANE_EN.at p)).testBit i ∧ 4 ≤ d.get F.HEALTH_POLICY_POLICY1 ∧ ¬ away then
      d.laneBack p i else d
  | none => d

/-- LANE_RETURN. -/
def execLaneReturn (q : Port) (lane : Fin 4) (s : State) : Host.Outcome State Fault Refusal :=
  .next (s.onDev (laneReturn q.idx lane.val))

/-- An LM group: a request sets the transmitter's change and is acknowledged; an acknowledgement confirms the receiver's own
(R186). -/
def lmGroup (p req : Nat) (ack : Bool) (cnt : Nat) (d : Dev) : Dev :=
  let x := d.port p
  if d.portState p ≠ 4 then d
  else if ack then d.putPort p { x with chgRx := x.chgRx.map (fun c => if c.mask = req then { c with ack := true } else c) }
  else d.putPort p { x with chgTx := some ⟨req, cnt, true⟩, ackTx := some (req, cnt) }

/-- LM_GROUP. -/
def execLmGroup (q : Port) (_use req : BitVec 4) (ack : Bool) (cnt : BitVec 16) (s : State) : Host.Outcome State Fault Refusal :=
  .next (s.onDev (lmGroup q.idx req.toNat ack cnt.toNat))

/-- LANE_MASK_SWITCH: the pair named in the handshake has come (R186). The transmitter counts its own pairs; for the receiver the switch
says where the count stands. -/
def laneMaskSwitch (p : Nat) (tx : Bool) (d : Dev) : Dev :=
  let x := d.port p
  if d.portState p ≠ 4 then d
  else
    match tx, x.chgTx, x.chgRx with
    | true, some c, _ =>
      if (x.pairTx + 65536 - c.cnt) % 65536 < 32768 then (d.putPort p { x with txMask := c.mask, chgTx := none }).showLanes p else d
    | false, _, some c => if c.ack then (d.putPort p { x with rxMask := c.mask, chgRx := none, pairRx := c.cnt }).showLanes p else d
    | _, _, _ => d

/-- LANE_MASK_SWITCH. -/
def execLaneMaskSwitch (q : Port) (tx : Bool) (s : State) : Host.Outcome State Fault Refusal :=
  .next (s.onDev (laneMaskSwitch q.idx tx))

/-- SCAN: an eye scan of the lanes in use (R181). -/
def scanPort (p : Nat) (d : Dev) : Dev :=
  if d.portState p = 4 then
    let x := d.port p
    (bitsOf 4 x.rxMask).foldl (fun d i => d.queueTest 1 (4 * p + i) 0x0101 false) (d.putPort p { x with scanning := true })
  else d

/-- SCAN. -/
def execScan (q : Port) (s : State) : Host.Outcome State Fault Refusal := .next (s.onDev (scanPort q.idx))

/-! ### Port states (R173, R174, R185) -/

/-- A port may leave OFF: enabled, and in its function (R172, R173, R185). -/
def Dev.portAllowed (d : Dev) (p : Nat) : Bool :=
  d.bit (F.LINK_P_CTL_EN.at p) && (if p = 2 then d.get F.LINK_HP_STAT_MODE_ACT != 0 else d.link.ringEn)

/-- A port follows its enables: OFF when not allowed, DETECT when newly allowed from step 7 of start-up on. -/
def Dev.portFollow (d : Dev) (p : Nat) : Dev :=
  if !d.portAllowed p then
    let d := d.portLost p
    ((d.putPort p PortX.reset).put (F.LINK_P_STAT_STATE.at p) 0).putBit (F.LINK_P_STAT_MISWIRED.at p) false
  else if d.portState p = 0 ∧ 7 ≤ d.get F.SYS_START_STEP then
    (d.putPort p { d.port p with progT := d.t }).put (F.LINK_P_STAT_STATE.at p) 1
  else d

/-- Every port follows its enables. -/
def Dev.portsFollow (d : Dev) : Dev := (List.range 3).foldl Dev.portFollow d

/-- The peer's port code that the table of R174 asks for. -/
def Dev.peerCode (d : Dev) (p : Nat) : Nat :=
  if p = 0 then 1 else if p = 1 then 0 else if d.get F.LINK_HP_STAT_MODE_ACT = 1 then 3 else 2

/-- What a port sees in training moves it on (R185). -/
def portTraining (p : Nat) (ev : TrainEv) (d : Dev) : Dev :=
  let st := d.portState p
  let m := Nat.max 1 (d.get (F.LINK_P_CTL_MIN_LANES.at p))
  let go (d : Dev) (n : Nat) : Dev := (d.putPort p { d.port p with progT := d.t }).put (F.LINK_P_STAT_STATE.at p) n
  match ev with
  | .signal n => if st = 1 ∧ m ≤ n then go d 2 else d
  | .blockLock n =>
    if st = 2 ∧ m ≤ n then
      let d := go d 3
      d.putPort p { d.port p with txMask := d.get (F.LINK_P_CTL_LANE_EN.at p), txTot := 4 * 4096 }
    else d
  | .peer id slot port epoch rx tx =>
    if st ≠ 3 then d
    else
      let en := d.get (F.LINK_P_CTL_LANE_EN.at p)
      let d := go d 4
      let off := (List.range 4).filter (fun i => !(rx.toNat &&& en).testBit i)
      let d := d.putPort p { d.port p with rxMask := rx.toNat &&& en, txMask := tx.toNat, failed := off.map (fun i => (i, d.t)) }
      let d := d.onStand fun z => { z with upT := some (z.upT.getD d.t) }
      let d := ((d.put (F.LINK_P_NBR_ID.at p) id.toNat).put (F.LINK_P_NBR_INFO_SLOT.at p) slot.toNat).put (F.LINK_P_NBR_INFO_PORT.at p)
        port.toNat
      let d := d.put (F.LINK_P_NBR_INFO_EPOCH.at p) epoch.toNat
      let d := if p = 2 then (d.putBit F.LINK_HP_STAT_SWITCHING false).onLink fun z => { z with switchT := none } else d
      let bad := port.toNat != d.peerCode p
      let d := d.putBit (F.LINK_P_STAT_MISWIRED.at p) bad
      let d := if bad then d.event 0x0104 { elem := p } else d
      let d := d.showLanes p
      if d.portState p = 4 then d.putBit (F.LINK_P_STAT_LISTED.at p) false else d

/-- PORT_TRAINING. -/
def execPortTraining (q : Port) (ev : TrainEv) (s : State) : Host.Outcome State Fault Refusal :=
  .next (s.onDev (portTraining q.idx ev))

/-- TRAIN_TIMEOUT: 20 ms without progress (R185). -/
def trainTimeout (p : Nat) (d : Dev) : Dev :=
  let st := d.portState p
  if (st = 2 ∨ st = 3) ∧ (d.port p).progT + 20 * msT ≤ d.t then
    ((d.putPort p { d.port p with progT := d.t }).put (F.LINK_P_STAT_STATE.at p) 1).event 0x0105 { elem := p }
  else d

/-- TRAIN_TIMEOUT. -/
def execTrainTimeout (q : Port) (s : State) : Host.Outcome State Fault Refusal := .next (s.onDev (trainTimeout q.idx))

/-- APPLY: `MODE` and `RING_EN` come into force; a change of function drops the present one at once (R173). -/
def applyHp (d : Dev) : Dev :=
  let mode := d.get F.LINK_HP_CTL_MODE
  let old := d.get F.LINK_HP_STAT_MODE_ACT
  let d := d.onLink fun z => { z with ringEn := d.bit F.LINK_HP_CTL_RING_EN }
  if mode = old then d.portsFollow
  else
    let d := if old = 0 then (if d.bit F.HOST_STAT_LINK_UP then linkDown false d else d.hostDown) else d.portLost 2
    let d := if old = 0 then d else (d.putPort 2 PortX.reset).put (F.LINK_P_STAT_STATE.at 2) 0
    let d := (d.put F.LINK_HP_STAT_MODE_ACT mode).putBit F.LINK_HP_STAT_SWITCHING true
    (d.onLink fun z => { z with switchT := some d.t }).portsFollow

/-- APPLY. -/
def execApply (s : State) : Host.Outcome State Fault Refusal := .next (s.onDev applyHp)

/-- 20 ms after a change of function SWITCHING ends (R173). -/
def Dev.switchTick (d : Dev) : Dev :=
  if dueBy (d.link.switchT.map (· + 20 * msT)) d.t then
    (d.putBit F.LINK_HP_STAT_SWITCHING false).onLink fun z => { z with switchT := none }
  else d

/-! ### Flit reception (R178 to R183, R189) -/

/-- The flit a corrected 36-byte block carries (R178). -/
def parseFlit (b : List Byte) : Flit :=
  let h := leAt b 0 4
  ⟨h % 16, h / 16 % 64, h / 1024 % 256, h / 2 ^ 18 % 1024, h / 2 ^ 28 % 16, slice b 4 28⟩

/-- The lane counter of corrected symbols. -/
def laneFld (p i : Nat) : Fld :=
  let f := if i = 0 then F.LINK_P_LANE0_CORR_SYM else if i = 1 then F.LINK_P_LANE1_CORR_SYM
    else if i = 2 then F.LINK_P_LANE2_CORR_SYM else F.LINK_P_LANE3_CORR_SYM
  f.at p

/-- A corrected symbol on a lane; 1000 within a second queue the lane's eye scan (R181, R295). -/
def Dev.laneSym (d : Dev) (p i : Nat) : Dev :=
  let d := d.inc (laneFld p i)
  let x := d.port p
  let w := if x.symWin.isEmpty then List.replicate 4 (d.t, 0) else x.symWin
  let q := w.getD i (d.t, 0)
  let q := if q.1 + secT ≤ d.t then (d.t, 1) else (q.1, q.2 + 1)
  let d := d.putPort p { x with symWin := w.set i (if q.2 = 1000 then (d.t, 0) else q) }
  if q.2 = 1000 ∧ d.bit F.HEALTH_CTL_TEST_EN then d.queueTest 1 (4 * p + i) 0x0101 false else d

/-- The stand epoch that flits of a port carry: the parent's on the U port of a sub-stand root (R182, R227). -/
def Dev.portEpoch (d : Dev) (p : Nat) : Nat :=
  match p, d.stand.parent with
  | 2, some q => q.epoch
  | _, _ => d.get F.STAND_EPOCH_EPOCH

/-- Count the sequence of an accepted flit (R183). -/
def Dev.seqCheck (d : Dev) (p : Nat) (f : Flit) : Dev :=
  let src := f.src + (if p = 2 ∧ d.stand.parent.isSome then 64 else 0)
  let last := (d.link.seqRx.find? (fun x => x.1 == src && x.2.1 == f.type)).map (·.2.2)
  let d := d.onLink fun z => { z with seqRx := (src, f.type, f.seq) :: z.seqRx.filter (fun x => !(x.1 == src && x.2.1 == f.type)) }
  match last with
  | none => d
  | some l =>
    let q := (f.seq + 1024 - l) % 1024
    if q = 1 then d else if 2 ≤ q ∧ q ≤ 511 then d.addSat (F.LINK_P_SEQGAP_CNT.at p) (q - 1) else d.inc (F.LINK_P_SEQGAP_CNT.at p)

/-- Answer a DREQ: `t2` is its ingress stamp in 1/65,536 tick, and t3 − t2 is inserted at egress (R194). -/
def Dev.answerDreq (d : Dev) (p t2 : Nat) (f : Flit) : Dev :=
  d.sendLocal p 5 0 ([0x03, 0, 0, 0] ++ leBytes 8 (t2 / 65536) ++ leBytes 2 (t2 % 65536) ++ [0, 0] ++ leBytes 8 (2 ^ 64 - t2 % 2 ^ 64) ++
    leBytes 2 f.seq)

/-- A FRAME or STAT message at the root carries one record, 28 bytes a flit; it goes to ring 6 or ring 8 (R184, log 11). -/
def Dev.recordIn (d : Dev) (f : Flit) : Dev :=
  if f.type ≠ 2 ∧ f.type ≠ 3 then d
  else
    let k (x : Nat × Nat × List Byte) : Bool := x.1 == f.src && x.2.1 == f.type
    let old := if f.flags % 2 = 1 then [] else ((d.link.asm.find? k).map (·.2.2)).getD []
    let bs := old ++ slice f.payload 0 28
    let rest := d.link.asm.filter (fun x => !k x)
    if f.flags / 2 % 2 = 1 then
      (d.onLink fun z => { z with asm := rest }).formRec (if f.type = 2 then 6 else 8) (bs.take (bs.length / 64 * 64)) 0
    else d.onLink fun z => { z with asm := (f.src, f.type, bs) :: rest }

/-- An accepted flit on the stand's own ring (R189): broadcasts are taken on the route to their source and passed on, others
travel to the root. TIME flits are passed on by TIME_RECEIVE. A module with no route to a source takes its maps and hearts. -/
def Dev.routeFlit (d : Dev) (p : Nat) (f : Flit) : Dev :=
  if f.flags / 4 % 2 = 1 then
    let r := d.routeTo f.src
    if r = some p then
      let d := d.seqCheck p f
      if f.type = 5 then d
      else (List.range 3).foldl (fun d q => if q ≠ p ∧ d.portListed q then d.pushFwd q f else d) d
    else if r = none ∧ (f.type = 7 ∨ f.type = 8) then d.seqCheck p f
    else d
  else if d.isRoot then (d.seqCheck p f).recordIn f
  else
    match d.routeTo (d.get F.STAND_ROLES_ROOT), d.routeTo f.src with
    | some r, some _ => d.pushFwd r f
    | _, _ => d

/-- The lane counter of invalid sync headers. -/
def laneErrFld (p i : Nat) : Fld :=
  let f := if i = 0 then F.LINK_P_LANE0_BLOCK_ERR else if i = 1 then F.LINK_P_LANE1_BLOCK_ERR
    else if i = 2 then F.LINK_P_LANE2_BLOCK_ERR else F.LINK_P_LANE3_BLOCK_ERR
  f.at p

/-- An invalid sync header on a lane is counted. -/
def Dev.laneErr (d : Dev) (p i : Nat) : Dev := d.inc (laneErrFld p i)

/-- FLIT_RECEIVE (R181 to R183, R189): decode, discard, count and forward. What an accepted flit says is the command of its
own row. `x` says where in the stream of blocks it came. -/
def flitReceive (p : Nat) (x : FlitIn) (bytes : List Byte) (d : Dev) : Dev :=
  if d.portState p ≠ 4 then d
  else
    let d := x.badSync.foldl (fun d i => d.laneErr p (i % 4)) d
    let lane (i : Nat) : Nat := byteLane (d.port p).rxMask x.blk x.second i
    match hatchDecode [] (slice bytes 0 36) with
    | .bad =>
      let d := d.inc (F.LINK_P_UNCORR_CNT.at p)
      let d := d.event 0x0101 { elem := 4 * p + d.firstLane p, arg0 := d.get (F.LINK_P_UNCORR_CNT.at p) }
      if d.bit F.HEALTH_CTL_TEST_EN then
        (bitsOf 4 (d.port p).rxMask).foldl (fun d i => d.queueTest 1 (4 * p + i) 0x0101 false) d
      else d
    | .ok w fixed =>
      let d := if fixed.isEmpty then d else fixed.foldl (fun d i => d.laneSym p (lane i)) (d.inc (F.LINK_P_CORR_CNT.at p))
      let f := parseFlit w
      if 9 < f.type then d.inc (F.LINK_P_UNCORR_CNT.at p)
      else if f.type = 0 then d
      else if f.flags / 8 % 2 = 1 then (if f.type = 5 ∧ leAt f.payload 0 1 = 2 then d.answerDreq p x.stamp f else d)
      else if d.localOnly p then d
      else if f.type ≠ 7 ∧ f.epoch ≠ d.portEpoch p % 256 then d.inc (F.LINK_P_STALE_CNT.at p)
      else if p = 2 ∧ d.stand.parent.isSome then d.seqCheck p f
      else d.routeFlit p f

/-- FLIT_RECEIVE. -/
def execFlitReceive (q : Port) (x : FlitIn) (bytes : List Byte) (s : State) : Host.Outcome State Fault Refusal :=
  .next (s.onDev (flitReceive q.idx x bytes))

/-- The type of the message a member of a stand sends a record in: FRAME rings 2, STAT rings 3, the others none (R184). -/
def recordType (ring : Nat) : Option Nat := if ring = 6 ∨ ring = 7 then some 2 else if ring = 8 then some 3 else none

/-- A record formed earlier is staged on its ring; a member of a stand sends its FRAME and STAT records to the root instead, a frame's
buffer staying taken until the port has room for it (R184, R192, R238). A module in NONE or CLEARING sends none (R203, R210). -/
def recordOut (d : Dev) : Dev :=
  match d.host.formed with
  | [] => d
  | r :: rs =>
    match if d.isRoot then none else recordType r.ring with
    | none => recordStaged d
    | some ty =>
      let d := d.onHost fun z => { z with formed := rs }
      let role := d.get F.STAND_STAT_ROLE
      match if role = 0 ∨ role = 5 then none else d.routeTo (d.get F.STAND_ROLES_ROOT) with
      | none => capLeft r.buf false d
      | some p =>
        let d := d.toRootMsg ty (chunks28 (r.data.length + 1) r.data)
        match r.buf with
        | some b => (d.onLink fun z => { z with frameOut := z.frameOut ++ [(p, b)] }).framesGone p
        | none => d

/-- RECORD_STAGED: `reads` are the words of the STRIP staging that came back with errors (R271). -/
def execRecordStaged (reads : List BurstIn) (s : State) : Host.Outcome State Fault Refusal := .next ((funcReads reads s).onDev recordOut)

/-! ### Delay of a link (R194) -/

/-- DREQ: a port asks once per millisecond; t1 is inserted at egress. -/
def sendDreq (p : Nat) (d : Dev) : Dev :=
  let x := d.port p
  let early := match x.dreqT with | some t => decide (d.t < t + msT) | none => false
  if d.portState p != 4 || early then d
  else
    let s := (x.dreqSeq + 1) % 1024
    (d.putPort p { x with dreq := none, dreqSeq := s, dreqT := some d.t }).sendLocal p 5 s [0x02]

/-- DREQ. -/
def execDreq (q : Port) (s : State) : Host.Outcome State Fault Refusal := .next (s.onDev (sendDreq q.idx))

/-- Picoseconds of a time in 1/65,536 tick. -/
def psOf (v : Int) : Int := rdiv (v * 10000) 65536

/-- DRESP: d = ((t4 − t1) − (t3 − t2)) / 2 with `t4` in 1/65,536 tick; `DELAY` is the mean of the last 16 values within 5 ns
of their median (R194). -/
def takeDresp (p t4 : Nat) (fl : Flit) (d : Dev) : Dev :=
  let x := d.port p
  match x.dreq with
  | none => d
  | some (t1, frac, sq) =>
    if leAt fl.payload 0 1 ≠ 3 ∨ leAt fl.payload 24 2 ≠ sq then d
    else
      let turn := sext 64 (leAt fl.payload 16 8)
      let v := rdiv ((((t4 : Int) - ((65536 * t1 + frac : Nat) : Int)) - turn) * 10000) 131072
      let l : List Int := (v :: x.delays).take 16
      let lq : List Rat := l.map (fun (i : Int) => (i : Rat))
      let m := (median lq).getD 0
      let near := lq.filter (fun i => decide (i - m ≤ 5000 ∧ m - i ≤ 5000))
      let d := d.putPort p { x with delays := l, dreq := none }
      match meanQ near with
      | some q => d.put (F.LINK_P_DELAY_D.at p) (uns 32 (rround q))
      | none => d

/-- DRESP. -/
def execDresp (q : Port) (t4 : Nat) (fl : Flit) (s : State) : Host.Outcome State Fault Refusal := .next (s.onDev (takeDresp q.idx t4 fl))

/-- Ingress delay of a port in 1/65,536 tick: d + ASYM / 2 (R194). -/
def Dev.dIn (d : Dev) (p : Nat) : Int :=
  rdiv ((2 * d.getI (F.LINK_P_DELAY_D.at p) + d.getI (F.LINK_P_ASYM_ASYM.at p)) * 65536) 20000

/-! ### Time (R15, R195 to R197) -/

/-- The module is the time master of its own ring: the root, or a sub-stand root (R197). -/
def Dev.timeMaster (d : Dev) : Bool := d.inStand && d.get F.STAND_STAT_ROLE == 1

/-- The module follows TIME flits: it belongs to a stand whose root is another module, or is a sub-stand root. -/
def Dev.follows (d : Dev) : Bool := (d.inStand && d.get F.STAND_STAT_ROLE != 1) || d.stand.parent.isSome

/-- A phase correction `off` in 1/65,536 tick (R15): stepped forward in one tick beyond 10 µs, else slewed. -/
def Dev.correct (d : Dev) (off : Int) : Dev :=
  if 65536 * 1000 < off then
    let d := { d with now := d.now + BitVec.ofNat 64 (off / 65536).toNat }
    let d := d.onLink fun z => { z with slew := 0 }
    let d := (d.addSat F.LINK_TS_STEPS_VAL 1).flag F.LINK_TS_STAT_STEPPED
    d.event 0x0106 { arg0 := d.get F.LINK_TS_STEPS_VAL }
  else d.onLink fun z => { z with slew := off }

/-- Offsets in a row within ±50 ns and beyond ±100 ns, and the lock they give (R196). -/
def lockStep (off : Int) (good bad : Nat) (locked : Bool) : Nat × Nat × Bool :=
  let a := off.natAbs
  let g := if a ≤ 5 * 65536 then good + 1 else 0
  let b := if 10 * 65536 < a then bad + 1 else 0
  (Nat.min 16 g, Nat.min 4 b, if 16 ≤ g then true else if 4 ≤ b then false else locked)

/-- Steer the timebase by an offset: phase and rate (R15, R196). -/
def Dev.steer (d : Dev) (off : Int) : Dev :=
  let d := d.correct off
  (d.put F.LINK_TS_RATE_VAL (uns 32 (Config.rateTerm d.freeIdx (d.getI F.LINK_TS_RATE_VAL) off))).fresh

/-- The offset shown in ps, saturating. -/
def psShown (off : Int) : Int := clampI (-2 ^ 31) (2 ^ 31 - 1) (psOf off)

/-- TIME_SEND: the time master's TIME flit, every `INTERVAL` × 10 µs; ORIGIN is inserted at egress (R195). -/
def timeSend (d : Dev) : Dev :=
  let due := match d.link.timeSentT with | some t => decide (t + d.get F.LINK_TS_CTL_INTERVAL * 10 * usT ≤ d.t) | none => true
  if d.timeMaster && due then (d.onLink fun z => { z with timeSentT := some d.t }).bcast 5 3 [0x01] else d

/-- TIME_SEND. -/
def execTimeSend (s : State) : Host.Outcome State Fault Refusal := .next (s.onDev timeSend)

/-- A member may send segments (R205): once it has been locked, while it is locked or its holdover is younger than `HOLD_MS`. -/
def Dev.showTimeOk (d : Dev) : Dev :=
  let held := d.bit F.LINK_TS_STAT_HOLDOVER && (match d.link.holdT with | some t => decide (d.t < t + d.get F.STAND_HOLD_HOLD_MS * msT) | none => false)
  d.putBit F.STAND_STAT_TIME_OK (d.link.everLocked && (d.bit F.LINK_TS_STAT_LOCKED || held))

/-- TIME_RECEIVE: a TIME flit that came in on `p` at stamp `tIn` in 1/65,536 tick is passed on with the delay so far, and
steers a module that follows (R195 to R197). -/
def timeReceive (p tIn : Nat) (fl : Flit) (d : Dev) : Dev :=
  let b := fl.payload
  let up := decide (p = 2) && d.stand.parent.isSome
  if leAt b 0 1 ≠ 1 ∨ d.localOnly p ∨ ¬ (up ∨ d.routeTo fl.src = some p) then d
  else
    let corr := sext 64 (leAt b 16 8)
    let din := d.dIn p
    let origin : Int := ((65536 * leAt b 4 8 + leAt b 12 2 : Nat) : Int)
    let out := [1] ++ leBytes 1 (leAt b 1 1 + 1) ++ slice b 2 14 ++ leBytes 8 (uns 64 (corr + din - (tIn : Int))) ++ slice b 24 4
    let d := if up then d
      else (List.range 3).foldl (fun d q => if q ≠ p ∧ d.portListed q then d.pushFwd q { fl with payload := out } else d) d
    if !d.follows || (d.stand.parent.isSome && !up) then d
    else
      let off := origin + corr + din - (tIn : Int)
      let d := (d.steer off).putI F.LINK_TS_OFFSET_VAL (psShown off)
      let l := lockStep off d.link.good d.link.bad (d.bit F.LINK_TS_STAT_LOCKED)
      let d := d.onLink fun z => { z with good := l.1, bad := l.2.1, lastTime := some d.t, holdT := none, everLocked := z.everLocked || l.2.2 }
      let d := (d.putBit F.LINK_TS_STAT_LOCKED l.2.2).putBit F.LINK_TS_STAT_HOLDOVER false
      let d := d.showTimeOk
      ((d.putBit F.LINK_TS_STAT_FOLLOWING true).put F.LINK_TS_STAT_PORT p).put F.LINK_TS_STAT_HOPS (Nat.min 63 (leAt b 1 1))

/-- TIME_RECEIVE. -/
def execTimeReceive (q : Port) (tIn : Nat) (fl : Flit) (s : State) : Host.Outcome State Fault Refusal :=
  .next (s.onDev (timeReceive q.idx tIn fl))

/-- TIME_HOLDOVER: 10 ms without a TIME flit (R196), also at a module that has left its stand. -/
def timeHoldover (d : Dev) : Dev :=
  if (d.follows ∨ d.bit F.LINK_TS_STAT_FOLLOWING) ∧ dueBy (d.link.lastTime.map (· + 10 * msT)) d.t ∧ ¬ d.bit F.LINK_TS_STAT_HOLDOVER then
    let d := (d.putBit F.LINK_TS_STAT_LOCKED false).putBit F.LINK_TS_STAT_HOLDOVER true
    let d := d.putBit F.LINK_TS_STAT_FOLLOWING d.follows
    (d.onLink fun z => { z with good := 0, bad := 0, holdT := some d.t }).showTimeOk
  else d

/-- TIME_HOLDOVER. -/
def execTimeHoldover (s : State) : Host.Outcome State Fault Refusal := .next (s.onDev timeHoldover)

/-- SEGMENT_HOLD_LIMIT: holdover has lasted `HOLD_MS`, so the module may send no segments (R205). -/
def segmentHoldLimit (d : Dev) : Dev :=
  if d.bit F.LINK_TS_STAT_HOLDOVER ∧ dueBy (d.link.holdT.map (· + d.get F.STAND_HOLD_HOLD_MS * msT)) d.t then d.showTimeOk else d

/-- SEGMENT_HOLD_LIMIT. -/
def execSegmentHoldLimit (s : State) : Host.Outcome State Fault Refusal := .next (s.onDev segmentHoldLimit)

/-- The advance of the timebase in one clock: one tick, with the slew of at most 1000 ppm and the rate term (R15, R196). -/
def Dev.clockTick (d : Dev) : Dev :=
  let z := d.link
  let sl := clampI (-65) 65 z.slew
  let sa := z.slewAcc + sl
  let ra := z.rateAcc + d.getI F.LINK_TS_RATE_VAL
  let e1 : Int := if 65536 ≤ sa then 1 else if sa ≤ -65536 then -1 else 0
  let e2 : Int := if 2 ^ 32 ≤ ra then 1 else if ra ≤ -2 ^ 32 then -1 else 0
  let step := (1 + e1 + e2).toNat
  let d := d.onLink fun z => { z with slew := z.slew - sl, slewAcc := sa - 65536 * e1, rateAcc := ra - 2 ^ 32 * e2 }
  let d := d.onHost fun z => { z with dbNow := [], rstNow := [] }
  { d with now := d.now + BitVec.ofNat 64 step, ties := [] }

/-! ### Encoder samples (R198, R199, R206) -/


/-- The offset of a sub-stand's coordinates below its parent's (R227). -/
def Dev.parentOfs (d : Dev) : Int := match d.stand.parent with | some q => q.wofs | none => 0

/-- ENC_SEND: at every tick that is a multiple of 1000, W of the owner's source as a stand coordinate (R198). -/
def encSend (d : Dev) : Dev :=
  if d.bit F.LINK_ENC_CTL_TX_EN ∧ d.t % 1000 = 0 then
    let fl := b2n (d.bit F.WEB_STAT_ENC_LOSS) + 2 * b2n d.link.presetSent
    let d' := d.bcast 6 3 ([0x01] ++ leBytes 1 fl ++ [0, 0] ++ leBytes 8 d.t ++ leBytes 8 (wadd (d.get F.WEB_POS_W) d.wOfs) ++
      leBytes 4 (d.get F.WEB_SPEED_V))
    d'.onLink fun z => { z with presetSent := false }
  else d

/-- ENC_SEND. -/
def execEncSend (s : State) : Host.Outcome State Fault Refusal := .next (s.onDev encSend)

/-- W(t) of R199 from the samples held, while it can be interpolated. -/
def encInterp (es : List EncS) (t : Nat) : Option Nat :=
  let newest (l : List EncS) : Option EncS := l.foldl (fun o x => match o with | some y => if y.t < x.t then some x else o | none => some x) none
  let oldest (l : List EncS) : Option EncS := l.foldl (fun o x => match o with | some y => if x.t < y.t then some x else o | none => some x) none
  match newest (es.filter (fun x => decide (x.t ≤ t))), oldest (es.filter (fun x => decide (t < x.t))) with
  | some a, some b =>
    if b.t - a.t ≤ 10000 ∧ b.preset = false then
      some (wadd a.w (rdiv (sdiff a.w b.w * ((t - a.t : Nat) : Int)) ((b.t - a.t : Nat) : Int)))
    else none
  | _, _ => none

/-- The stamp of a slot becomes known. -/
def Frame.putMark (f : Frame) (slot w hw : Nat) : Frame :=
  { f with wMarks := f.wMarks ++ [(slot, w, if 0 < sdiff hw w then w else hw)] }

/-- Every slot stamp that the samples enclose takes its coordinate. -/
def Dev.fillMarks (d : Dev) (w : Nat → Option Nat) : Dev :=
  let hw := d.get F.WEB_HW_W
  d.onFpa fun z => { z with frames := z.frames.map (fun f =>
    (List.range (f.set.rowSlots + 1)).foldl (fun f s =>
      if f.wMarks.any (fun q => q.1 == s) then f
      else match w (f.mid s) with | some v => f.putMark s v hw | none => f) f) }

/-- The begin and the end of each frame and of each SHUTTER span take the coordinate of their ticks, once (R156, R199). -/
def Dev.fillEnds (d : Dev) (w : Nat → Option Nat) : Dev :=
  let d := d.onFpa fun z => { z with frames := z.frames.map (fun (f : Frame) => { f with
    webB := (w f.b).getD f.webB, webE := f.webE.map (fun x => (w (f.b + f.set.period)).getD x) }) }
  d.onWeb fun z => { z with shut := z.shut.map (fun q => { q with wB := (w q.b).getD q.wB, wE := q.wE.map (fun x => (w q.e).getD x) }) }

/-- ENC_RECEIVE: a sample arrives (R199). -/
def encReceive (p : Nat) (fl : Flit) (d : Dev) : Dev :=
  let b := fl.payload
  if leAt b 0 1 ≠ 1 ∨ d.localOnly p ∨ ¬ ((p = 2 ∧ d.stand.parent.isSome) ∨ d.routeTo fl.src = some p) then d
  else
    let ws := if p = 2 ∧ d.stand.parent.isSome then wadd (leAt b 12 8) (-d.parentOfs) else leAt b 12 8
    let x : EncS := ⟨leAt b 4 8, wadd ws (-d.wOfs), sext 32 (leAt b 20 4), leAt b 1 1 / 2 % 2 == 1⟩
    let d := match d.link.encSeq with
      | some l => (let q := (fl.seq + 1024 - l) % 1024; if 2 ≤ q ∧ q ≤ 511 then d.addSat F.LINK_ENC_GAP_VAL (q - 1) else d)
      | none => d
    let newest := d.link.enc.all (fun y => decide (y.t < x.t))
    let d := d.onLink fun z => { z with enc := (x :: z.enc).take 512, lastEnc := some d.t, encSeq := some fl.seq }
    let d := (((d.put F.LINK_ENC_STAT_SRC_SLOT fl.src).putBit F.LINK_ENC_STAT_VALID true).putBit F.LINK_ENC_STAT_LOSS false).put
      F.LINK_ENC_AGE_VAL (satN 32 (d.t - x.t))
    let d := if p = 2 ∧ d.stand.parent.isSome then
        d.bcast 6 3 (slice b 0 12 ++ leBytes 8 ws ++ slice b 20 8)
      else d
    if d.get F.WEB_CTL_SRC ≠ 2 then d
    else
      let lossAtOwner := leAt b 1 1 % 2 == 1
      let d := if lossAtOwner then d.sourceLost
        else if d.bit F.WEB_STAT_ENC_LOSS then
          (d.putBit F.WEB_STAT_ENC_LOSS false).onWeb fun z => { z with lossT := none, onHost := false }
        else d
      let within (t : Nat) : Option Nat := if d.t ≤ t + d.get F.LINK_ENC_CTL_WAIT * 1000 then encInterp d.link.enc t else none
      let d := ((d.fillMarks (encInterp d.link.enc)).fillEnds within).putBit F.LINK_ENC_STAT_EXTRAP false
      if d.web.onHost then d
      else if x.preset then d.presetW x.w
      else if newest then d.setW x.w (sdiff (d.get F.WEB_POS_W) x.w)
      else d

/-- ENC_RECEIVE. -/
def execEncReceive (q : Port) (fl : Flit) (s : State) : Host.Outcome State Fault Refusal := .next (s.onDev (encReceive q.idx fl))

/-- ENC_EXTRAPOLATE: `WAIT` has passed after stamp `t` and no sample encloses it (R199). -/
def encExtrapolate (t : Nat) (d : Dev) : Dev :=
  let a := (d.link.enc.filter (fun x => decide (x.t ≤ t))).foldl
    (fun o x => match o with | some (y : EncS) => if y.t < x.t then some x else o | none => some x) (none : Option EncS)
  let waiting := d.fpa.frames.any (fun f => f.b == t || f.b + f.set.period == t ||
      (List.range (f.set.rowSlots + 1)).any (fun s => f.mid s == t && !f.wMarks.any (fun q => q.1 == s))) ||
    d.web.shut.any (fun q => q.b == t || q.e == t)
  match a with
  | some a =>
    if d.get F.WEB_CTL_SRC = 2 ∧ t + d.get F.LINK_ENC_CTL_WAIT * 1000 ≤ d.t ∧ waiting then
      let w := wadd a.w (rdiv (a.v * ((t - a.t : Nat) : Int) * 65536) 100000000)
      let at_ (u : Nat) : Option Nat := if u = t then some w else none
      ((((d.fillMarks at_).fillEnds at_).inc F.LINK_ENC_EXTRAP_VAL).putBit F.LINK_ENC_STAT_EXTRAP true)
    else d
  | none => d

/-- ENC_EXTRAPOLATE. -/
def execEncExtrapolate (t : Nat) (s : State) : Host.Outcome State Fault Refusal := .next (s.onDev (encExtrapolate t))

/-- ENC_SAMPLE_LOSS: no sample for 10 ms; VALID says so under every source (R199). -/
def encSampleLoss (d : Dev) : Dev :=
  if (d.link.lastEnc.getD 0) + 10 * msT ≤ d.t then
    let d := d.putBit F.LINK_ENC_STAT_VALID false
    if d.get F.WEB_CTL_SRC = 2 then (d.putBit F.LINK_ENC_STAT_LOSS true).sourceLost else d
  else d

/-- ENC_SAMPLE_LOSS. -/
def execEncSampleLoss (s : State) : Host.Outcome State Fault Refusal := .next (s.onDev encSampleLoss)

/-! ### Registers -/

/-- TS_SRC_WRITE: the source changes, and PTM and `TIME_IN` capture their K again (R246, R350). -/
def tsSrcWrite (src : Nat) (d : Dev) : Dev :=
  let d := d.put F.LINK_TS_CTL_SRC src
  (d.onHost fun z => { z with ptmArmed := true, ptmGood := 0, ptmBad := 0 }).onIo fun z => { z with timeArmed := true, timeGood := 0, timeBad := 0 }

/-- TS_SRC_WRITE. -/
def execTsSrcWrite (src : Fin 4) (s : State) : Host.Outcome State Fault Refusal := .next (s.onDev (tsSrcWrite src.val))

/-- Every LINK counter but `LINK_TS_STEPS` (R26). -/
def linkCounters : List Fld :=
  [F.LINK_REROUTES_CNT, F.LINK_ENC_EXTRAP_VAL, F.LINK_ENC_GAP_VAL] ++
  (List.range 3).flatMap (fun p => [F.LINK_P_CORR_CNT.at p, F.LINK_P_UNCORR_CNT.at p, F.LINK_P_STALE_CNT.at p, F.LINK_P_SEQGAP_CNT.at p,
    F.LINK_P_DROP_CNT.at p, F.LINK_P_LANE0_BLOCK_ERR.at p, F.LINK_P_LANE1_BLOCK_ERR.at p, F.LINK_P_LANE2_BLOCK_ERR.at p,
    F.LINK_P_LANE3_BLOCK_ERR.at p] ++ (List.range 4).map (laneFld p))

/-- LINK_CNT_CLR. -/
def execLinkCntClr (s : State) : Host.Outcome State Fault Refusal := .next (s.onDev (fun d => d.clearAll linkCounters))

end Sys2Proof.Machine
end

