-- ==== Sys2Proof/Machine/Health.lean ====
section
/-! DEFINITION. Targeted self-tests, repair, the Ring Count monitors and the Margin Plan (R290 to R306). -/

namespace Sys2Proof.Machine

/-! ### Policies and verdicts (R290, R295, R296) -/

/-- The policy field of a subsystem 0 to 7. -/
def policyFld (ss : Nat) : Fld := { F.HEALTH_POLICY_POLICY0 with lo := 4 * ss }

/-- Repair policy of a subsystem: bits [1:0] 0 OFF, 1 TRIM, 2 COPPICE, 3 BOTH; subsystems 8 and above have none. -/
def Dev.policy (d : Dev) (ss : Nat) : Nat := if ss < 8 then d.get (policyFld ss) else 0

/-- The policies of [1:0] that a subsystem allows (R290). -/
def policiesOf (ss : Nat) : List Nat :=
  if ss = 3 then [0, 2] else if ss = 4 then [0, 1] else if ss < 8 then [0, 1, 2, 3] else []

/-- The event code whose verdicts a self-test without an event of its own logs (R297): the first that names the subsystem's
element. -/
def firstCode (ss : Nat) : Nat := 256 * ss + 1

/-- `RUNNING` and `FULL` (R295, R297). -/
def Dev.showTests (d : Dev) : Dev :=
  let on (ss : Nat) : Bool := d.health.queue.any (fun q => q.ss == ss) || d.health.selfTests.any (fun x => x.left.any (fun q => q.1 == ss))
  (d.put F.HEALTH_STAT_RUNNING (ofBits ((List.range 16).filter on))).putBit F.HEALTH_STAT_FULL
    (d.health.selfTests.any (fun x => x.scope == 0xFF))

/-- A HEALTH_SELFTEST whose elements all have a verdict ends (R297). -/
def Dev.endSelfTest (d : Dev) (x : SelfTest) : Dev :=
  let d := (d.completeAll x.ks St.ok 0 x.fails).put F.HEALTH_ST_RESULT_FAIL x.fails
  let d := (d.incWrap F.HEALTH_ST_RESULT_COUNT).put F.HEALTH_ST_T_T d.t
  let d := d.logEvent 0x0F02 { arg1 := x.fails }
  if x.own then d.put F.STAND_STAT_CLR_TEST (if x.fails = 0 then 2 else 3) else d

/-- Self-tests with nothing left end. -/
def Dev.endSelfTests (d : Dev) : Dev :=
  let fin := d.health.selfTests.filter (fun x => x.left.isEmpty)
  let d := d.onHealth fun z => { z with selfTests := z.selfTests.filter (fun x => !x.left.isEmpty) }
  (fin.foldl Dev.endSelfTest d).showTests

/-- An element's test and repair have ended; `lasting` says that a lasting fault stands that no repair cleared. -/
def Dev.endTest (d : Dev) (ss elem : Nat) (lasting : Bool) : Dev :=
  (d.onHealth fun z => { z with
    queue := z.queue.filter (fun q => !(q.ss == ss && q.elem == elem))
    repairs := z.repairs.filter (fun q => !(q.ss == ss && q.elem == elem))
    selfTests := z.selfTests.map (fun x =>
      if x.left.contains (ss, elem) then
        { x with left := x.left.filter (· != (ss, elem)), fails := if lasting then setB x.fails ss true else x.fails }
      else x) }).endSelfTests

/-! ### Repairs (R296) -/

/-- One trim step; its sense comes from a measurement the spec does not give. -/
def Dev.trimStep (d : Dev) (ss elem : Nat) : Dev :=
  let s : Int := if Config.trimDown d.freeIdx ss elem then -1 else 1
  let bump (l : List (Nat × Int)) (k : Int) : List (Nat × Int) := (elem, (assoc l elem).getD 0 + k * s) :: l.filter (fun q => q.1 != elem)
  let d := d.inc F.HEALTH_REPAIRS_CNT
  let d :=
    if ss = 2 then d.onFpa fun z => { z with sliceTrim := bump z.sliceTrim 1 }
    else if ss = 7 then d.onStage fun z => { z with trims := bump z.trims 10 }
    else d.onHealth fun z => { z with
      trims := (ss, elem, ((z.trims.find? (fun q => q.1 == ss && q.2.1 == elem)).map (·.2.2)).getD 0 + s) ::
        z.trims.filter (fun q => !(q.1 == ss && q.2.1 == elem)) }
  d.fresh.keepPush .modState 1

/-- The element goes on the list of those set aside. -/
def Dev.setAside (d : Dev) (ss elem code : Nat) : Dev :=
  d.onHealth fun z => { z with aside := z.aside.filter (fun a => !(a.ss == ss && a.elem == elem)) ++ [⟨ss, elem, code, 0, d.optime⟩] }

/-- A spare slice of group `g` that neither failed nor serves (R31). -/
def Dev.spareSlice (d : Dev) (g : Nat) : Option Nat :=
  let bad (j : Nat) : Bool := if j = 0 then d.bit (F.FPA_CGMAP_SP0_FAIL.at g) else d.bit (F.FPA_CGMAP_SP1_FAIL.at g)
  (List.range 2).find? (fun j => !bad j && !d.fpa.substs.any (fun s => s.group == g && s.spare == j))

/-- Substitution of a readout slice (R31 to R33): `k` is the column, or 32 and 33 for a spare slice that failed itself. A
spare that served a column leaves that column to the next; until the boundary at which the next takes over, the column stays on
it. The own slice of a column that a spare serves already needs nothing. -/
def Dev.substSlice (d : Dev) (g k : Nat) : Dev × Bool :=
  let served := (d.fpa.substs.find? (fun s => s.group == g && s.spare + 32 == k)).map (·.col)
  let d := if k = 32 then d.putBit (F.FPA_CGMAP_SP0_FAIL.at g) true else if k = 33 then d.putBit (F.FPA_CGMAP_SP1_FAIL.at g) true else d
  match (if k < 32 then (if d.fpa.substs.any (fun s => s.group == g && s.col == k) then none else some k) else served) with
  | none => (d, decide (k < 32))
  | some col =>
    match d.spareSlice g with
    | some j =>
      let d := d.onFpa fun z => { z with
        substs := z.substs.filter (fun s => !(s.group == g && s.col == col && !s.inForce)) ++ [⟨g, col, j, false, false, false, 0, false⟩] }
      (d.event 0x0202 { elem := 34 * g + col }, true)
    | none =>
      let d := d.putBit (F.FPA_CGMAP_EXHAUSTED.at g) true
      let d := if d.tallyFailed 12 then d
        else
          let d := (d.tallyInc 12).putBit F.PIPE_ST_STAT_EVAL_BUSY true
          d.onPipe fun z => { z with edits := z.edits ++
            [⟨none, d.t, d.tally 12, (List.range 2048).map (fun r => (32 * g + col, r, 1, 0))⟩] }
      (d.event 0x0203 { elem := 34 * g + col }, false)

/-- Coppice substitution (R296): the state after it, and whether a spare was found. -/
def Dev.coppice (d : Dev) (ss elem code : Nat) : Dev × Bool :=
  match ss with
  | 0 =>
    let c := elem / 36
    if (d.erased c).length < d.get F.MEM_CTL_ERASE_MAX then
      ((d.put (F.MEM_QDR_ERASE_MASK.at c) (setB (d.get (F.MEM_QDR_ERASE_MASK.at c)) (elem % 36) true)).setAside 0 elem code, true)
    else
      let d := d.put F.MEM_STAT_FAILED (setB (d.get F.MEM_STAT_FAILED) c true)
      ((d.onHealth fun z => { z with failedElems := z.failedElems ++ [(0, elem)] }).event 0x0003 { elem := elem }, false)
  | 1 => ((d.laneOut (elem / 4) (elem % 4)).setAside 1 elem code, true)
  | 2 =>
    let sl := elem / 8
    if 2720 ≤ sl then (d.onFpa fun z => { z with blindNext := z.blindNext ++ [elem - 8 * 2720] }, false)
    else d.substSlice (sl / 34) (sl % 34)
  | 3 =>
    let first := !d.health.failedElems.any (fun q => q.1 == 3) && !d.health.laneNext.any (fun q => q.2)
    ((d.onHealth fun z => { z with laneNext := z.laneNext ++ [(elem, true)] }).setAside 3 elem code, first)
  | 5 =>
    let n := d.get F.STORE_KEEP_SPARES_VAL
    if n = 0 then (d, false) else (d.put F.STORE_KEEP_SPARES_VAL (n - 1), true)
  | 6 =>
    if d.store.flashSpares = 0 then ((d.putBit F.STORE_FLASH_STAT_NO_SPARE true).event 0x0603 { elem := elem }, false)
    else
      let d := (d.onStore fun z => { z with flashSpares := z.flashSpares - 1 }).inc F.STORE_FLASH_BADBLK_CNT
      (d.event 0x0602 { elem := elem, arg0 := d.get F.STORE_FLASH_BADBLK_CNT }, true)
  | 7 =>
    let d := d.onStage fun z => { z with perm := if z.perm.contains elem then z.perm else z.perm ++ [elem] }
    (d.put F.FPA_STAGE_STAT_DIODE_EXCL (ofBits (d.stage.excluded ++ d.stage.perm)), true)
  | _ => (d, false)

/-- A pipeline lane leaves service or returns (R296, R298): the first that fails brings in the spare, PD86, and two working lanes or
fewer are reported. -/
def Dev.laneStep (d : Dev) (q : Nat × Bool) : Dev :=
  if q.2 then
    let d := if d.health.failedElems.any (fun x => x.1 == 3) then d else d.setDom 86 true
    let d := d.onHealth fun z => { z with failedElems := z.failedElems ++ [(3, q.1)] }
    if d.lanes ≤ 2 then d.event 0x0302 { elem := q.1 } else d
  else d.onHealth fun z => { z with failedElems := z.failedElems.filter (fun x => x != (3, q.1)) }

/-- Substitutions and returns of pipeline lanes take effect at a frame boundary (R296). -/
def Dev.takeLanes (d : Dev) : Dev :=
  if d.health.laneNext.isEmpty then d
  else (d.health.laneNext.foldl Dev.laneStep (d.onHealth fun z => { z with laneNext := [] })).keepPush .modState 1

/-- Substitution at once or after the last trim, and the end of the test. -/
def Dev.substitute (d : Dev) (ss elem code : Nat) : Dev :=
  match d.coppice ss elem code with
  | (d, ok) =>
    let d := (if ok then d.inc F.HEALTH_REPAIRS_CNT else d).keepPush .modState 1
    (d.logEvent code { verdict := 3, action := if ok then 2 else 3, elem := elem }).endTest ss elem (!ok)

/-- A lasting fault that no repair follows: a blind channel is then failed, and its event carries ACTION 3 (R33, R296). -/
def Dev.unrepaired (d : Dev) (ss elem code : Nat) : Dev :=
  if ss = 2 ∧ 2720 ≤ elem / 8 then d.substitute ss elem code else d.endTest ss elem true

/-- A lasting verdict and what the policy makes of it (R296). -/
def Dev.lasting (d : Dev) (ss elem code : Nat) : Dev :=
  let d := (d.inc F.HEALTH_LASTING_CNT).onHealth fun z => { z with transients := z.transients.filter (fun q => !(q.1 == ss && q.2.1 == elem)) }
  let d := d.logEvent code { verdict := 3, elem := elem }
  match d.policy ss % 4 with
  | 0 => d.unrepaired ss elem code
  | 2 => d.substitute ss elem code
  | _ => (d.onHealth fun z => { z with repairs := z.repairs ++ [⟨ss, elem, code, 1, d.policy ss, false⟩] }).trimStep ss elem

/-- The retest of a trimmed element. -/
def Dev.retest (d : Dev) (r : RepairX) (pass : Bool) : Dev :=
  if pass then (d.logEvent r.code { verdict := 3, action := 1, elem := r.elem }).endTest r.ss r.elem false
  else if r.steps < d.get F.HEALTH_TRIM_MAX_STEPS then
    (d.onHealth fun z => { z with
      repairs := updIf z.repairs (fun x => x.ss == r.ss && x.elem == r.elem) (fun x => { x with steps := x.steps + 1 }) }).trimStep r.ss r.elem
  else if r.policy % 4 = 3 then d.substitute r.ss r.elem r.code
  else d.unrepaired r.ss r.elem r.code

/-- A pixel that was an outlier at three proofs in a row while its channel passes is marked NOISY (R299). -/
def Dev.noisyPixels (d : Dev) (ch : Nat) : Dev :=
  let ps := (d.health.outliers.filter (fun q => decide (3 ≤ q.2) && pixChan d.fpa.substs q.1 == ch)).map (·.1)
  if ps.isEmpty || d.tallyFailed 12 then d
  else
    let d := (d.tallyInc 12).putBit F.PIPE_ST_STAT_EVAL_BUSY true
    let d := d.onPipe fun z => { z with edits := z.edits ++ [⟨none, d.t, d.tally 12, ps.map (fun i => (i % 2560, i / 2560, 2, 0))⟩] }
    (d.addSat F.HEALTH_LASTING_CNT ps.length).onHealth fun z => { z with outliers := z.outliers.filter (fun q => !ps.contains q.1) }

/-- A transient verdict; the last of `N` within `W_H` operating hours is also a lasting one (R295). -/
def Dev.transient (d : Dev) (ss elem code : Nat) : Dev :=
  let d := d.inc F.HEALTH_TRANSIENT_CNT
  let d := d.logEvent code { verdict := 2, elem := elem }
  let win := 3600 * d.get F.HEALTH_VERDICT_W_H
  let d := d.onHealth fun z => { z with transients := z.transients.filter (fun q => decide (d.optime < q.2.2 + win)) ++ [(ss, elem, d.optime)] }
  let n := d.health.transients.countP (fun q => q.1 == ss && q.2.1 == elem)
  if d.get F.HEALTH_VERDICT_N ≤ n then d.lasting ss elem code else d.endTest ss elem false

/-- The head of a subsystem's queue. -/
def Dev.testHead (d : Dev) (ss : Nat) : Option TestQ := d.health.queue.find? (fun q => q.ss == ss)

/-- HEALTH_TEST_COMPLETE: the result of the test under way of an element at the head of its subsystem's queue, or of an
element of a running self-test (R295, R297). -/
def testComplete (ss elem : Nat) (pass : Bool) (d : Dev) : Dev :=
  let queued := match d.testHead ss with | some q => q.elem == elem | none => false
  let inScope := d.health.selfTests.any (fun x => x.left.contains (ss, elem))
  if !queued && !inScope then d
  else
    let code := match d.testHead ss with | some q => (if q.elem = elem then q.code else firstCode ss) | none => firstCode ss
    let d := d.inc F.HEALTH_TESTS_CNT
    let d := if ss = 2 ∧ pass then d.noisyPixels elem else d
    match d.health.repairs.find? (fun r => r.ss == ss && r.elem == elem) with
    | some r => d.retest r pass
    | none =>
      if !pass then d.lasting ss elem code
      else if queued then d.transient ss elem code
      else d.endTest ss elem false

/-- HEALTH_TEST_COMPLETE. -/
def execHealthTestComplete (ss : Fin 16) (elem : Nat) (pass : Bool) (s : State) : Host.Outcome State Fault Refusal :=
  .next (s.onDev (testComplete ss.val elem pass))

/-- TEST_NOT_POSSIBLE: a test that could not run within 10 s (R295). -/
def testNotPossible (ss elem : Nat) (d : Dev) : Dev :=
  let inScope := d.health.selfTests.any (fun x => x.left.contains (ss, elem))
  match d.testHead ss with
  | some q =>
    if q.elem = elem ∧ q.since + 10 * secT ≤ d.t then
      (d.logEvent q.code { verdict := 4, elem := elem }).endTest ss elem (d.health.repairs.any (fun r => r.ss == ss && r.elem == elem))
    else if inScope ∧ q.elem ≠ elem then (d.logEvent (firstCode ss) { verdict := 4, elem := elem }).endTest ss elem false
    else d
  | none =>
    if inScope then
      (d.logEvent (firstCode ss) { verdict := 4, elem := elem }).endTest ss elem (d.health.repairs.any (fun r => r.ss == ss && r.elem == elem))
    else d

/-- TEST_NOT_POSSIBLE. -/
def execTestNotPossible (ss : Fin 16) (elem : Nat) (s : State) : Host.Outcome State Fault Refusal :=
  .next (s.onDev (testNotPossible ss.val elem))

/-- An element set aside returns to service by the path that removed it (R296). -/
def Dev.giveBack (d : Dev) (a : Aside) : Dev :=
  let d := d.onHealth fun z => { z with aside := z.aside.filter (fun x => !(x.ss == a.ss && x.elem == a.elem)) }
  let d := match a.ss with
    | 0 => d.put (F.MEM_QDR_ERASE_MASK.at (a.elem / 36)) (setB (d.get (F.MEM_QDR_ERASE_MASK.at (a.elem / 36))) (a.elem % 36) false)
    | 1 => d.laneBack (a.elem / 4) (a.elem % 4)
    | _ => d.onHealth fun z => { z with laneNext := z.laneNext ++ [(a.elem, false)] }
  (d.keepPush .modState 1).logEvent a.code { verdict := 2, action := 4, elem := a.elem }

/-- RESTORE_RETEST: the retest every 24 operating hours of an element set aside, under RESTORE (R296). -/
def restoreRetest (ss elem : Nat) (pass : Bool) (d : Dev) : Dev :=
  match d.health.aside.find? (fun a => a.ss == ss && a.elem == elem) with
  | none => d
  | some a =>
    if ¬ (ss = 0 ∨ ss = 1 ∨ ss = 3) ∨ d.policy ss < 4 ∨ d.optime < a.lastOp + 24 * 3600 then d
    else
      let d := d.inc F.HEALTH_TESTS_CNT
      let b := { a with passes := if pass then a.passes + 1 else 0, lastOp := d.optime }
      if 3 ≤ b.passes then d.giveBack b
      else d.onHealth fun z => { z with aside := updIf z.aside (fun x => x.ss == ss && x.elem == elem) (fun _ => b) }

/-- RESTORE_RETEST. -/
def execRestoreRetest (ss : Fin 16) (elem : Nat) (pass : Bool) (s : State) : Host.Outcome State Fault Refusal :=
  .next (s.onDev (restoreRetest ss.val elem pass))

/-! ### HEALTH_SELFTEST (R297) -/

/-- The elements of a subsystem that a self-test covers: QDR wires, lanes of UP ports, channels of the window's groups and of
the blind slices, pipeline lanes, internal link lanes, Keep pages, flash blocks, diodes, the shutter, converter channels. -/
def Dev.elements (d : Dev) (ss : Nat) (full : Bool) : List Nat :=
  match ss with
  | 0 => List.range 144
  | 1 => (List.range 3).flatMap (fun p => if d.portState p = 4 then (bitsOf 4 (d.port p).rxMask).map (fun i => 4 * p + i) else [])
  | 2 => ((List.range (34 * d.fpa.set.cgCount)).map (fun k => 34 * d.fpa.set.cgFirst + k) ++ (List.range 16).map (fun k => 2720 + k)).flatMap
      (fun sl => (List.range 8).map (fun p => 8 * sl + p))
  | 3 => (List.range 5).filter (fun i => (decide (i < 4) || d.health.failedElems.any (fun q => q.1 == 3)) &&
      !d.health.failedElems.contains (3, i) && !d.health.laneNext.contains (i, true))
  | 4 => List.range 16
  | 5 => List.range 8192
  | 6 => if full then (List.range 6).map (fun i => (0x02100000 + 41 * 0x100000 * i) / 4096) ++ (List.range 3).map (fun i => (0x11700000 + 3 * 0x100000 * i) / 4096)
      else List.range 131072
  | 7 => List.range 4
  | 8 => [0]
  | 9 => if full then [31] else List.range 32
  | _ => []

/-- Start a self-test of a scope; a full one joins a full one that runs. -/
def Dev.startSelfTest (d : Dev) (ks : List Nat) (scope : Nat) (own : Bool) : Dev :=
  if scope = 0xFF ∧ d.health.selfTests.any (fun x => x.scope == 0xFF) then
    d.onHealth fun z => { z with
      selfTests := updIf z.selfTests (fun x => x.scope == 0xFF) (fun x => { x with ks := x.ks ++ ks, own := x.own || own }) }
  else
    let ss := if scope = 0xFF then List.range 10 else [scope]
    let l := ss.flatMap (fun i => (d.elements i (scope == 0xFF)).map (fun e => (i, e)))
    (d.onHealth fun z => { z with selfTests := z.selfTests ++ [⟨ks, scope, l, 0, own⟩] }).endSelfTests

/-- HEALTH_SELFTEST. -/
def doSelftest (c : Cmd) (d : Dev) : Dev :=
  if c.p8 24 < 10 ∨ c.p8 24 = 0xFF then d.startSelfTest [c.k] (c.p8 24) false else d.complete c St.badParam 0 0

/-- REPAIR_POLICY_SET (R290, R296). -/
def doRepairPolicy (c : Cmd) (d : Dev) : Dev :=
  let ss := c.p8 24
  let p := c.p8 25
  if p ≤ 7 ∧ (policiesOf ss).contains (p % 4) then
    let d := d.put (policyFld ss) p
    (d.keepPush (.regs [(R.HEALTH_POLICY, d.reg R.HEALTH_POLICY)]) 1).ok c 0
  else d.complete c St.badParam 0 0

/-! ### Ring Count monitors (R300) -/

/-- Limit of a monitor, with the sign of the reading for monitor 2. -/
def monLimit (i : Nat) (r : Int) : Int :=
  if i = 2 ∧ r < 0 then -30000 else ([40000, 40000, 30000, -100000, 300, 6, 30, 350, 900000, 30000, 24, 0] : List Int).getD i 0

/-- Baseline of a monitor: fixed, or its factory reading. -/
def monBase (i : Nat) (fac : Int) : Int := if 4 ≤ i ∧ i ≤ 7 then fac else if i = 11 then 100 else 0

/-- Subsystem whose margin a monitor gives. -/
def monSub (i : Nat) : Nat := [11, 2, 2, 2, 7, 0, 1, 4, 5, 6, 11, 15].getD i 15

/-- Show a monitor's reading and its margin in 1/10,000, clamped to 0 to 1; with baseline and limit equal it is free. -/
def Dev.putMon (d : Dev) (i : Nat) (r fac : Int) : Dev :=
  let l := monLimit i r
  let b := monBase i fac
  let m : Int := if l = b then (Config.noFit d.freeIdx 14 r : Nat) else rround (((l - r : Int) : Rat) * 10000 / ((l - b : Int) : Rat))
  ((d.putI (F.HEALTH_MON_VAL_VAL.at i) r).put (F.HEALTH_MON_MGN_MGN.at i) (clampI 0 10000 m).toNat).fresh

/-- Every monitor is read (R300): `dfs` are ΔF of the 24 pairs, `mons` the readings of monitors 2 to 11 with their factory
readings. -/
def Dev.readMons (d : Dev) (dfs : List Int) (mons : List (Int × Int × Int)) : Dev :=
  let d := (List.range 24).foldl (fun d i => d.putI (F.HEALTH_RC_DF.at i) (dfs.getD i 0)) d
  let mx (l : List Int) : Int := l.foldl (fun a b => if a < b then b else a) (l.headD 0)
  let d := (d.putMon 0 (mx (dfs.take 16)) 0).putMon 1 (mx ((dfs.drop 16).take 8)) 0
  mons.foldl (fun d q => if 2 ≤ q.1 ∧ q.1 ≤ 11 then d.putMon q.1.toNat q.2.1 q.2.2 else d) d

/-- RING_COUNT_READ: every `PERIOD` minutes. -/
def ringCountRead (dfs : List Int) (mons : List (Int × Int × Int)) (d : Dev) : Dev :=
  if d.t < d.health.rcT + d.get F.HEALTH_RC_CTL_PERIOD * 60 * secT then d
  else (d.onHealth fun z => { z with rcT := d.t }).readMons dfs mons

/-- RING_COUNT_READ. -/
def execRingCountRead (dfs : List Int) (mons : List (Int × Int × Int)) (s : State) : Host.Outcome State Fault Refusal :=
  .next (s.onDev (ringCountRead dfs mons))

/-! ### The Margin Plan (R301 to R304) -/

/-- The plan becomes due (R301), if it is not due already. -/
def Dev.planDueNow (d : Dev) : Dev :=
  (d.onHealth fun z => { z with planDue := some (z.planDue.getD d.optime) }).planShow

/-- MARGIN_PLAN_DUE: `PERIOD_H` operating hours after the last run. -/
def marginPlanDue (d : Dev) : Dev :=
  if d.health.planDue.isNone ∧ d.health.planLastOp + 3600 * d.get F.HEALTH_MP_CTL_PERIOD_H ≤ d.optime then d.planDueNow else d

/-- MARGIN_PLAN_DUE. -/
def execMarginPlanDue (s : State) : Host.Outcome State Fault Refusal := .next (s.onDev marginPlanDue)

/-- MARGIN_PLAN_RUN: completes when the plan is applied. -/
def doMarginPlanRun (c : Cmd) (d : Dev) : Dev :=
  (d.onHealth fun z => { z with planKs := z.planKs ++ [c.k] }).planDueNow

/-- MP_RUN. -/
def execMpRun (s : State) : Host.Outcome State Fault Refusal := .next (s.onDev Dev.planDueNow)

/-- MARGIN_PLAN_GLADE_TIMEOUT: no glade has begun within 48 operating hours of the due time, and the plan starts without one. -/
def planGladeTimeout (d : Dev) : Dev :=
  match d.health.planDue with
  | some o => if o + 48 * 3600 ≤ d.optime then (d.onHealth fun z => { z with planStart := some d.t }).planShow else d
  | none => d

/-- MARGIN_PLAN_GLADE_TIMEOUT. -/
def execMarginPlanGladeTimeout (s : State) : Host.Outcome State Fault Refusal := .next (s.onDev planGladeTimeout)

/-- Margin of a subsystem: the smallest of its monitors, 1 if it has none (R300). -/
def Dev.subMargin (d : Dev) (ss : Nat) : Nat :=
  ((List.range 12).filter (fun i => monSub i == ss)).foldl (fun a i => Nat.min a (d.get (F.HEALTH_MON_MGN_MGN.at i))) 10000

/-- Forecast of a subsystem in operating hours from the last result (R303): none without three results. -/
def forecast (plans : List PlanRes) (ss : Nat) : Option Nat :=
  if plans.length < 3 then none
  else
    let n : Rat := plans.length
    let ts : List Rat := plans.map (fun p => (p.hour : Rat))
    let ms : List Rat := plans.map (fun p => ((p.margins.getD ss 10000 : Nat) : Rat) / 10000)
    let tm := ts.sum / n
    let mm := ms.sum / n
    let sxx := (ts.map (fun t => (t - tm) * (t - tm))).sum
    let sxy := ((ts.zip ms).map (fun q => (q.1 - tm) * (q.2 - mm))).sum
    if sxx = 0 then some 0xFFFFFFFF
    else
      let b := sxy / sxx
      if 0 ≤ b then some 0xFFFFFFFF
      else
        let last := mm + b * (ts.getLastD 0 - tm)
        some (Nat.min 0xFFFFFFFF ((-last / b).floor.toNat))

/-- `HEALTH_MP_LIFE` and `HEALTH_MP_LIMIT`, and LIFE_WARN below the threshold (R303, R304). -/
def Dev.planForecast (d : Dev) : Dev :=
  let fs := (List.range 16).filterMap (fun i => (forecast d.health.plans i).map (fun f => (f, i)))
  match fs with
  | [] => d
  | q :: qs =>
    let m := qs.foldl (fun (a : Nat × Nat) b => if b.1 < a.1 then b else a) q
    let d := (d.put F.HEALTH_MP_LIFE_H m.1).put F.HEALTH_MP_LIMIT_SUBSYS m.2
    if m.1 < d.get F.HEALTH_MP_WARN_H then d.logEvent 0x0F04 { arg0 := m.1, arg1 := m.2 } else d

/-- The plan may run: due, a glade open or waived, and no test of subsystems 0, 1 and 4 running (R301). -/
def Dev.planReady (d : Dev) : Bool :=
  d.health.planDue.isSome && (d.bit F.PROOF_GLADE_STAT_OPEN || d.health.planStart.isSome) &&
  !((d.get F.HEALTH_STAT_RUNNING).testBit 0 || (d.get F.HEALTH_STAT_RUNNING).testBit 1 || (d.get F.HEALTH_STAT_RUNNING).testBit 4)

/-- Output 3 of the plan waits for a proof (R302). -/
def Dev.planRadio (m : Mems) (mp : PlanIn) (d : Dev) : Dev :=
  let g := d.fpa.set.gain
  let x : RadioPend := ⟨mp.cgTrim, (List.range 80).map (fun i => d.getI (F.FPA_CGTRIM_TRIM.at i)), mp.skimTrim,
    mp.skimTrim.map (fun q => (q.1, sext 8 (m.qN (skimAddr g + q.1) 1))), g, false⟩
  ((d.onHealth fun z => { z with radio := some x }).putBit F.HEALTH_MP_STAT_RADIO_PEND true).request 1

/-- MARGIN_PLAN: the plan reads every monitor, computes its outputs and applies those that `APPLY` names (R301 to R304). -/
def marginPlan (m : Mems) (mp : PlanIn) (d : Dev) : Dev :=
  if !d.planReady then d
  else
    let d := d.readMons mp.dfs mp.mons
    let ap := d.get F.HEALTH_MP_CTL_APPLY
    let df := d.getI (F.HEALTH_MON_VAL_VAL.at 0)
    let target := if ap.testBit 0 then Nat.min 10 (df / 2000).toNat else d.get F.HEALTH_MP_VCORE_STEPS
    let learned := ap.testBit 4 && decide (4 ≤ d.burin.errs.length) &&
      (d.burin.errs.take 4).all (fun e => decide (d.get F.PIPE_DM_TRUST_LIM < 2 * e))
    let now : Nat := (if ap.testBit 0 ∧ target = d.get F.HEALTH_MP_VCORE_STEPS then 1 else 0) + (if ap.testBit 1 then 2 else 0) +
      (if ap.testBit 2 then 4 else 0) + (if ap.testBit 4 then 16 else 0)
    let d := d.onHealth fun z => { z with vcoreTarget := target, planDue := none, planStart := none, planLastOp := d.optime }
    let d := d.put F.HEALTH_MP_STAT_APPLIED now
    let d := if learned && decide (1 < d.get F.PROOF_SCHED_DUE_MIN) then d.put F.PROOF_SCHED_DUE_MIN (d.get F.PROOF_SCHED_DUE_MIN - 1) else d
    let d := if ap.testBit 3 then d.planRadio m mp else d
    let d := d.put F.HEALTH_MP_TINT_T_INT (Nat.min 8191 mp.tint)
    let ms := (List.range 16).map d.subMargin
    let hour := d.optime / 3600
    let d := (List.range 16).foldl (fun d i => d.put (F.HEALTH_MP_MARGIN_MGN.at i) (ms.getD i 0)) d
    let res : PlanRes := ⟨hour, ms⟩
    let d := d.onHealth fun z => { z with plans := (z.plans ++ [res]).drop (z.plans.length + 1 - 8) }
    let d := ((d.put F.HEALTH_MP_LAST_H hour).incWrap F.HEALTH_MP_STAT_RUNS).logEvent 0x0F03 { arg1 := now }
    ((d.planForecast).keepPush .modState 1).planCheck

/-- MARGIN_PLAN. -/
def execMarginPlan (mp : PlanIn) (s : State) : Host.Outcome State Fault Refusal := .next (s.onDev (marginPlan s.mem mp))

/-- VCORE moves by one step of 5 mV at a frame boundary, at most once in 10 ms (R301). -/
def Dev.vcoreStep (d : Dev) : Dev :=
  let v := d.get F.HEALTH_MP_VCORE_STEPS
  if v = d.health.vcoreTarget ∨ d.t < d.health.vcoreT + 10 * msT then d
  else
    let w := if v < d.health.vcoreTarget then v + 1 else v - 1
    let d := (d.put F.HEALTH_MP_VCORE_STEPS w).onHealth fun z => { z with vcoreT := d.t }
    if w = d.health.vcoreTarget then
      let d := d.put F.HEALTH_MP_STAT_APPLIED (setB (d.get F.HEALTH_MP_STAT_APPLIED) 0 true)
      (d.keepPush (.regs [(R.HEALTH_MP_VCORE, d.reg R.HEALTH_MP_VCORE)]) 1).planCheck
    else d

/-- HEALTH_CNT_CLR (R26). -/
def execHealthCntClr (s : State) : Host.Outcome State Fault Refusal :=
  .next (s.onDev (fun d => d.clearAll [F.HEALTH_EVT_LOST_VAL, F.HEALTH_TESTS_CNT, F.HEALTH_TRANSIENT_CNT, F.HEALTH_LASTING_CNT,
    F.HEALTH_REPAIRS_CNT, F.HEALTH_TEST_DROP_CNT, F.HEALTH_STOPS_VAL, F.HEALTH_STOP_MAX_VAL]))

end Sys2Proof.Machine
end

