-- ==== Sys2Proof/Machine/Io.lean ====
section
/-! DEFINITION. Pins, general-purpose pins, timers, `TIME_IN`, PTM, and the test access port (R245, R246, R349 to R355). -/

namespace Sys2Proof.Machine

/-! ### Timers (R352, R353) -/

/-- Who a timer is reserved for: 0 nobody, 1 the shutter, 2 an alarm pulse (R353). -/
def Dev.tmrOwner (d : Dev) (n : Nat) : Nat :=
  if n = 0 then b2n (d.bit F.PROOF_SHUT_CTL_EN)
  else if n ≤ 4 then (if d.bit (F.STAT_AL_OUT_EN.at (n - 1)) && d.bit (F.STAT_AL_OUT_PULSE.at (n - 1)) then 2 else 0)
  else 0

/-- Reservations follow their conditions: a timer taken over loses the host's configuration, and its owner drives its
registers, whose values are then free (log 5). -/
def Dev.tmrReserve (d : Dev) : Dev :=
  (List.range 5).foldl (fun d n =>
    let o := d.tmrOwner n
    if o = d.get (F.TMR_CTL_OWNER.at n) then d
    else
      let d := ((d.putBit (F.TMR_CTL_EN.at n) false).put (F.TMR_CTL_MODE.at n) 0).put (F.TMR_CTL_CSEL.at n) 0
      let d := (d.put (F.TMR_CTL_OWNER.at n) o).onIo fun z => { z with tmrOut := z.tmrOut.set n false }
      if o = 0 then ((d.put (F.TMR_CMP_VAL.at n) 0).put (F.TMR_CNT_VAL.at n) 0).put (F.TMR_CAP_VAL.at n) 0
      else (((d.put (F.TMR_CMP_VAL.at n) (Config.noFit d.freeIdx n 0)).put (F.TMR_CNT_VAL.at n) (Config.noFit d.freeIdx n 1)).put
        (F.TMR_CAP_VAL.at n) (Config.noFit d.freeIdx n 2)).fresh) d

/-- TMR_CTL_WRITE: setting `EN` starts the counter from 0; a reserved timer ignores the host (R352 to R354). -/
def tmrCtlWrite (n : Nat) (v : Word) (d : Dev) : Dev :=
  if d.get (F.TMR_CTL_OWNER.at n) ≠ 0 then d.conflict (0x10 + n) 2
  else
    let was := d.bit (F.TMR_CTL_EN.at n)
    let d := d.writeWord (R.TMR_CTL + 0x10 * n) v.toNat
    if !was && d.bit (F.TMR_CTL_EN.at n) then
      let d := d.put (F.TMR_CNT_VAL.at n) 0
      d.onIo fun z => { z with tmrOut := if d.get (F.TMR_CTL_MODE.at n) = 0 then z.tmrOut.set n true else z.tmrOut }
    else d

/-- TMR_CTL_WRITE. -/
def execTmrCtlWrite (n : Fin 8) (v : Word) (s : State) : Host.Outcome State Fault Refusal := .next (s.onDev (tmrCtlWrite n.val v))

/-- TIMER_COMPARE: the counter has reached `CMP` (R352). -/
def tmrCompare (n : Nat) (d : Dev) : Dev :=
  let mode := d.get (F.TMR_CTL_MODE.at n)
  if !d.bit (F.TMR_CTL_EN.at n) || decide (2 ≤ mode) || decide (d.get (F.TMR_CNT_VAL.at n) < d.get (F.TMR_CMP_VAL.at n)) then d
  else if mode = 0 then (d.putBit (F.TMR_CTL_EN.at n) false).onIo fun z => { z with tmrOut := z.tmrOut.set n false }
  else (d.put (F.TMR_CNT_VAL.at n) 0).onIo fun z => { z with tmrOut := z.tmrOut.set n (!z.tmrOut.getD n false) }

/-- TIMER_COMPARE. -/
def execTimerCompare (n : Fin 8) (s : State) : Host.Outcome State Fault Refusal := .next (s.onDev (tmrCompare n.val))

/-- A running timer advances by the ticks of one clock; a compare that is due is taken first (R352). -/
def tmrTick (step n : Nat) (d : Dev) : Dev :=
  let d := tmrCompare n d
  if d.bit (F.TMR_CTL_EN.at n) then d.put (F.TMR_CNT_VAL.at n) (d.get (F.TMR_CNT_VAL.at n) + step) else d

/-- TIMER_CAPTURE: an accepted edge of the source of `CSEL`; a GP pin counts only as an input (R352). -/
def tmrCapture (n : Nat) (d : Dev) : Dev :=
  if d.bit (F.TMR_CTL_EN.at n) && d.get (F.TMR_CTL_MODE.at n) == 2 && (d.get (F.TMR_CTL_CSEL.at n) != 2 || d.get (F.IO_GP_CFG_FUNC.at n) == 1) then
    (d.put (F.TMR_CAP_VAL.at n) (d.get (F.TMR_CNT_VAL.at n))).onIo fun z => { z with caps := z.caps.set n (z.caps.getD n 0 + 1) }
  else d

/-- TIMER_CAPTURE. -/
def execTimerCapture (n : Fin 8) (s : State) : Host.Outcome State Fault Refusal := .next (s.onDev (tmrCapture n.val))

/-! ### General-purpose pins and alarm outputs (R351, R354) -/

/-- GP_CFG_WRITE: 5 is never written directly, the mirror's pin keeps its function, and `TSEL` cannot name a reserved timer;
the rest of the write stands. -/
def gpCfgWrite (n : Nat) (v : Word) (d : Dev) : Dev :=
  let func := d.get (F.IO_GP_CFG_FUNC.at n)
  let tsel := d.get (F.IO_GP_CFG_TSEL.at n)
  let nf := v.toNat % 16
  let nt := v.toNat / 32 % 8
  let badF := nf == 5 || (func == 5 && nf != 5)
  let badT := nt != tsel && d.get (F.TMR_CTL_OWNER.at nt) != 0
  let d := d.writeWord (R.IO_GP_CFG + 4 * n) v.toNat
  let d := if badF then (d.put (F.IO_GP_CFG_FUNC.at n) func).conflict (0x20 + n) 3 else d
  if badT then (d.put (F.IO_GP_CFG_TSEL.at n) tsel).conflict (0x10 + nt) 3 else d

/-- GP_CFG_WRITE. -/
def execGpCfgWrite (n : Fin 8) (v : Word) (s : State) : Host.Outcome State Fault Refusal := .next (s.onDev (gpCfgWrite n.val v))

/-- AL_OUT_WRITE: a pin that holds another function refuses the mirror (R170, R354). -/
def alOutWrite (n : Nat) (v : Word) (d : Dev) : Dev :=
  let was := d.bit (F.STAT_AL_OUT_GP_MIRROR.at n)
  let d := d.writeWord (R.STAT_AL_OUT + 4 * n) v.toNat
  let now := d.bit (F.STAT_AL_OUT_GP_MIRROR.at n)
  let func := d.get (F.IO_GP_CFG_FUNC.at (4 + n))
  let d :=
    if now && !was then
      if func = 0 then d.put (F.IO_GP_CFG_FUNC.at (4 + n)) 5
      else (d.putBit (F.STAT_AL_OUT_GP_MIRROR.at n) false).conflict (0x24 + n) 4
    else if was && !now then d.put (F.IO_GP_CFG_FUNC.at (4 + n)) 0
    else d
  d.tmrReserve.showAlarm

/-- AL_OUT_WRITE. -/
def execAlOutWrite (n : Fin 4) (v : Word) (s : State) : Host.Outcome State Fault Refusal := .next (s.onDev (alOutWrite n.val v))

/-- FRAME_STROBE_END: 1 µs after the boundary (R351). -/
def execFrameStrobeEnd (s : State) : Host.Outcome State Fault Refusal :=
  .next (s.onDev (fun d => if dueBy d.io.strobe d.t then d.onIo fun z => { z with strobe := none } else d))

/-! ### Output pins (R321, R349, R351): none while the pin is high-impedance -/

/-- The outputs of an I/O bank are powered. -/
def Dev.bankOut (d : Dev) (b : Nat) : Bool := !d.pwr.vioLow.getD b false && d.domBit (109 + b) && !d.pwr.rstLow && !d.pwr.por

/-- Step 9 of start-up has ended. -/
def Dev.started (d : Dev) : Bool := d.get F.SYS_START_STEP == 15

/-- `SHUT_A` (n = 0) and `SHUT_B`, driven while `PROOF_SHUT_CTL.EN` is 1. -/
def Dev.shutPin (d : Dev) (n : Nat) : Option Bool :=
  if d.bankOut 0 && d.bit F.PROOF_SHUT_CTL_EN then some (if n = 0 then d.shutPins.1 else d.shutPins.2) else none

/-- `ALARMn`. -/
def Dev.alarmPin (d : Dev) (n : Nat) : Option Bool :=
  if d.bankOut 0 && d.bit (F.STAT_AL_OUT_EN.at n) then some (d.alarmLevel n == (d.get F.IO_PIN_CFG_ALARM_POL).testBit n) else none

/-- `FAULT_N`. -/
def Dev.faultNPin (d : Dev) : Option Bool := if d.bankOut 0 && d.started then some (!d.bit F.HEALTH_STAT_FAULT) else none

/-- `GLADE_OUT`. -/
def Dev.gladeOutPin (d : Dev) : Option Bool :=
  if d.bankOut 0 && d.started then some (d.gladeOut == d.bit F.IO_PIN_CFG_GLADE_OUT_POL) else none

/-- What the function of a GP pin drives, before `INV`. -/
def Dev.gpDrive (d : Dev) (n : Nat) : Option Bool :=
  match d.get (F.IO_GP_CFG_FUNC.at n) with
  | 2 => some ((d.get F.IO_GP_OUT_LEVEL).testBit n)
  | 3 => some ((d.get F.IO_GP_OUT_LEVEL).testBit n)
  | 4 => some (d.io.tmrOut.getD (d.get (F.IO_GP_CFG_TSEL.at n)) false)
  | 5 => some (d.alarmLevel (n - 4))
  | 6 => some d.proof.closure.isSome
  | 7 => some (d.inFrame && decide (d.get F.PIPE_AC_CTL_REQ_CLASS < d.get F.PIPE_AC_STAT_CLASS))
  | 8 => some d.io.strobe.isSome
  | 9 => some (d.bit F.PROOF_GLADE_STAT_OPEN)
  | _ => none

/-- `GPn`: an open-drain output at 1 is high-impedance. -/
def Dev.gpPin (d : Dev) (n : Nat) : Option Bool :=
  match d.gpDrive n with
  | none => none
  | some l =>
    let l := l != d.bit (F.IO_GP_CFG_INV.at n)
    if !d.bankOut 0 then none else if d.get (F.IO_GP_CFG_FUNC.at n) = 3 ∧ l then none else some l

/-- `IO_PIN_IN`: the levels that commands have reported. No command reports that `TRIG_IN` or `TIME_IN` has fallen, so their level
after an edge is free. -/
def Dev.pinIn (d : Dev) : Nat :=
  ofBits ((List.range 5).filter (fun i => (d.reg R.IO_PIN_IN).toNat.testBit i &&
    (decide (i ≠ 1 ∧ i ≠ 2) || Config.noFit d.freeIdx 0x349 i % 2 == 1)))

/-- `IO_GP_IN` after `INV`: the level a driven pin has; the level of a pin that the module does not drive comes from outside and is
free; none is read while the bank's inputs are ignored (R319, R351). -/
def Dev.gpIn (d : Dev) : Nat :=
  ofBits ((List.range 8).filter (fun n => match d.gpPin n with
    | some l => l != d.bit (F.IO_GP_CFG_INV.at n)
    | none => d.bankIn && Config.noFit d.freeIdx 0x351 n % 2 == 1))

/-! ### External time (R197, R245, R246, R350) -/

/-- TIME_IN_EDGE: the edge is stamped, or rejected within 0.9 s of the last; with `SRC` at 3 it disciplines the timebase. -/
def timeInEdge (d : Dev) : Dev :=
  let d := d.putBit F.IO_PIN_IN_TIME_IN true
  if !d.bit F.IO_TIME_CTL_EN then d
  else if (match d.io.timeLast with | some t => decide (d.pinT < t + 90000000) | none => false) then d.inc F.IO_TIME_REJ_CNT
  else
    let e := d.pinT
    let d := (d.put F.IO_TIME_EDGE_T e).inc F.IO_TIME_CNT_CNT
    let d := d.onIo fun z => { z with timeLast := some e }
    if d.get F.LINK_TS_CTL_SRC ≠ 3 ∨ d.follows then d
    else if d.io.timeArmed then (d.put F.IO_TIME_K_T (e % 100000000)).onIo fun z => { z with timeArmed := false }
    else
      let r : Int := ((d.get F.IO_TIME_K_T : Int) - (e : Int)) % 100000000
      let off := 65536 * (if 50000000 < r then r - 100000000 else r)
      let d := d.steer off
      let l := lockStep off d.io.timeGood d.io.timeBad (d.bit F.IO_TIME_STAT_LOCKED)
      let d := d.onIo fun z => { z with timeGood := l.1, timeBad := l.2.1 }
      (d.putBit F.IO_TIME_STAT_LOCKED l.2.2).putBit F.IO_TIME_STAT_HOLDOVER false

/-- TIME_IN_EDGE. -/
def execTimeInEdge (s : State) : Host.Outcome State Fault Refusal := .next (s.onDev (onlyIf s.dev.bankIn timeInEdge))

/-- TIME_IN_HOLDOVER: 2 s without an edge while `SRC` is 3. -/
def timeInHoldover (d : Dev) : Dev :=
  if d.get F.LINK_TS_CTL_SRC = 3 ∧ ¬ d.follows ∧ dueBy (d.io.timeLast.map (· + 2 * secT)) d.t then
    ((d.putBit F.IO_TIME_STAT_HOLDOVER true).putBit F.IO_TIME_STAT_LOCKED false).onIo fun z => { z with timeGood := 0, timeBad := 0 }
  else d

/-- TIME_IN_HOLDOVER. -/
def execTimeInHoldover (s : State) : Host.Outcome State Fault Refusal := .next (s.onDev timeInHoldover)

/-- PTM lock is shown; a change makes the error vector pending (R244). -/
def Dev.ptmLock (d : Dev) (on : Bool) : Dev :=
  let was := d.bit F.HOST_PTM_STAT_LOCKED
  let d := d.putBit F.HOST_PTM_STAT_LOCKED on
  if was == on then d else d.pendErr

/-- PTM_DIALOG, one every `PERIOD` ms: request egress tick `tn` and master time `mn` in ns; one that fails, or that falls during a
retrain, only counts (R245, R246). -/
def ptmDialog (valid : Bool) (tn mn : Nat) (d : Dev) : Dev :=
  if !(d.bit F.HOST_PTM_CTL_EN && d.host.cfg.ptm && decide (d.host.ptmNext ≤ d.t)) then d
  else
  let d := d.onHost fun z => { z with ptmNext := d.t + d.get F.HOST_PTM_CTL_PERIOD * msT }
  if !valid || d.bit F.HOST_STAT_RETRAINING then (d.inc F.HOST_PTM_STAT_FAILS).putBit F.HOST_PTM_STAT_VALID false
  else
    let d := ((d.put F.HOST_PTM_T_VAL tn).put F.HOST_PTM_M_VAL mn).putBit F.HOST_PTM_STAT_VALID true
    let d := d.onHost fun z => { z with ptmLast := some d.t }
    if d.get F.LINK_TS_CTL_SRC ≠ 2 ∨ d.follows then d
    else if d.host.ptmArmed then
      ((d.put F.HOST_PTM_K_VAL (uns 64 (65536 * (tn : Int) - rdiv (65536 * (mn : Int)) 10))).putBit F.HOST_PTM_STAT_HOLDOVER false).onHost
        fun z => { z with ptmArmed := false }
    else
      let off := rdiv (65536 * (mn : Int)) 10 + sext 64 (d.get F.HOST_PTM_K_VAL) - 65536 * (tn : Int)
      let d := (d.steer off).putI F.HOST_PTM_OFS_OFS (psShown off)
      let l := lockStep off d.host.ptmGood d.host.ptmBad (d.bit F.HOST_PTM_STAT_LOCKED)
      let d := d.onHost fun z => { z with ptmGood := l.1, ptmBad := l.2.1 }
      (d.ptmLock l.2.2).putBit F.HOST_PTM_STAT_HOLDOVER false

/-- PTM_DIALOG. -/
def execPtmDialog (valid : Bool) (tn mn : Nat) (s : State) : Host.Outcome State Fault Refusal := .next (s.onDev (ptmDialog valid tn mn))

/-- PTM_HOLDOVER: 10 ms without a valid dialog while `SRC` is 2 (R246). -/
def ptmHoldover (d : Dev) : Dev :=
  if d.get F.LINK_TS_CTL_SRC = 2 ∧ ¬ d.follows ∧ dueBy (d.host.ptmLast.map (· + 10 * msT)) d.t then
    ((d.putBit F.HOST_PTM_STAT_HOLDOVER true).ptmLock false).onHost fun z => { z with ptmGood := 0, ptmBad := 0 }
  else d

/-- PTM_HOLDOVER. -/
def execPtmHoldover (s : State) : Host.Outcome State Fault Refusal := .next (s.onDev ptmHoldover)

/-! ### Test access port (R355) -/

/-- The data register an instruction code connects. -/
def tapReg (prov : Bool) : JtagCode → Option String
  | .bypass => some "BYPASS"
  | .idcode => some "IDCODE"
  | .samplePreload => some "SAMPLE/PRELOAD"
  | .extest => some "EXTEST"
  | .factory _ => if prov then some "BYPASS" else none
  | .other _ => some "BYPASS"

/-- JTAG_INSTRUCTION: before provisioning the factory instructions are not described. -/
def execJtagInstruction (code : JtagCode) (s : State) : Host.Outcome State Fault Refusal :=
  match tapReg (s.dev.bit F.SEC_STAT_PROVISIONED) code with
  | some n => .next (s.onDev (fun d => d.emit (.tap n)))
  | none => .refused (.factoryInstruction (match code with | .factory c => c | _ => 0))

/-- IO_CNT_CLR (R26). -/
def execIoCntClr (s : State) : Host.Outcome State Fault Refusal :=
  .next (s.onDev (fun d => d.clearAll [F.SPI_TXN_CNT, F.SPI_FRAG_CNT, F.SPI_BADHDR_CNT, F.IO_CONFLICT_CNT_CNT, F.IO_TIME_CNT_CNT, F.IO_TIME_REJ_CNT]))

end Sys2Proof.Machine
end

