-- ==== Sys2Proof/Machine/Power.lean ====
section
/-! DEFINITION. Power domains, the ballast, and the clock monitor (R309 to R319). -/

namespace Sys2Proof.Machine

/-! ### Power domains (R309 to R312) -/

/-- Removing lane `i` of port `p` would leave an UP port with fewer than `MIN_LANES` lanes in use (R187). -/
def Dev.laneNeeded (d : Dev) (p i : Nat) : Bool :=
  let x := d.port p
  let m := d.get (F.LINK_P_CTL_MIN_LANES.at p)
  d.portState p == 4 && (decide (popcount 4 (setB x.rxMask i false) < m) || decide (popcount 4 (setB x.txMask i false) < m))

/-- Lanes that the negotiated PCIe width uses. -/
def Dev.pcieWidth (d : Dev) : Nat := if d.bit F.HOST_STAT_LINK_UP then d.get F.HOST_STAT_WIDTH else 0

/-- An output of I/O bank A is enabled for a function: shutter, alarm or general-purpose pin. -/
def Dev.bankAUsed (d : Dev) : Bool :=
  d.bit F.PROOF_SHUT_CTL_EN || (List.range 4).any (fun n => d.bit (F.STAT_AL_OUT_EN.at n)) ||
  (List.range 8).any (fun n => decide (2 ≤ d.get (F.IO_GP_CFG_FUNC.at n)))

/-- A pipeline lane carries pixels: frames are read out and the lane has not been set aside. -/
def Dev.laneCarries (d : Dev) (i : Nat) : Bool := d.bit F.FPA_STAT_RUNNING && !d.health.failedElems.contains (3, i)

/-- The condition of R309 that refuses a power-down; `mgmt` says that the request came through the management port. -/
def Dev.domInUse (d : Dev) (i : Nat) (mgmt : Bool) : Bool :=
  let inSet (a : AcqSet) : Bool := decide (2 + a.cgFirst ≤ i ∧ i < 2 + a.cgFirst + a.cgCount)
  if i = 1 then d.bit F.FPA_CTL_RUN
  else if i ≤ 81 then inSet d.fpa.set || (match d.fpa.pend with | some c => inSet c.set | none => false)
  else if i ≤ 85 then d.laneCarries (i - 82)
  else if i = 86 then d.health.failedElems.any (fun q => q.1 == 3)
  else if i ≤ 90 then d.pipe.regions.any (·.valid)
  else if i ≤ 98 then d.laneNeeded ((i - 91) / 4) ((i - 91) % 4)
  else if i ≤ 102 then
    if d.get F.LINK_HP_STAT_MODE_ACT = 0 then decide (i - 99 < d.pcieWidth) else d.laneNeeded 2 (i - 99)
  else if i = 103 then d.get F.LINK_HP_STAT_MODE_ACT == 0
  else if i = 104 then d.get F.FPA_STAGE_STAT_STATE != 0 || d.aux.act.ents.any (fun e => cfgEn e.1)
  else if i = 107 then d.bit F.FPA_STAGE_STAT_MODE_ACTIVE
  else if i = 109 then d.bankAUsed
  else if i = 110 then mgmt || ((d.bit F.SEC_MBX_STAT_BUSY || d.bit F.SEC_MBX_STAT_DONE) && d.bit F.SEC_MBX_STAT_PATH)
  else if i = 111 then d.inStand && d.isRoot
  else false


/-- A request for a domain replaces one that has not finished (R312). -/
def Dev.domReplace (d : Dev) (i : Nat) : Dev :=
  let ks := (d.pwr.drains.filter (fun x => x.dom == i)).map (·.k) ++ (d.pwr.ups.filter (fun x => x.dom == i)).map (·.k)
  let d := d.onPwr fun z => { z with drains := z.drains.filter (fun x => x.dom != i), ups := z.ups.filter (fun x => x.dom != i) }
  let d := d.put (F.PWR_DOM_DRAIN_MAP.at (i / 32)) (setB (d.get (F.PWR_DOM_DRAIN_MAP.at (i / 32))) (i % 32) false)
  ks.foldl (fun d k => d.domEnd k St.superseded 0 0) d

/-- The port and lane that a domain feeds, if it is a Jartan lane's (R187). -/
def Dev.domLane (d : Dev) (i : Nat) : Option (Nat × Nat) :=
  if 91 ≤ i ∧ i ≤ 98 then some ((i - 91) / 4, (i - 91) % 4)
  else if 99 ≤ i ∧ i ≤ 102 ∧ d.get F.LINK_HP_STAT_MODE_ACT ≠ 0 then some (2, i - 99)
  else none

/-- A domain begins to drain (R310); a lane leaves both directions of its port by the handshake first (R187). -/
def Dev.domDrain (d : Dev) (i us : Nat) (k : Option Nat) : Dev :=
  let lim := if us = 0 then d.get F.PWR_DRAIN_US else us
  let d := d.put (F.PWR_DOM_DRAIN_MAP.at (i / 32)) (setB (d.get (F.PWR_DOM_DRAIN_MAP.at (i / 32))) (i % 32) true)
  let d := d.onPwr fun z => { z with drains := z.drains ++ [⟨i, d.t, d.t + lim * usT, k, none, 0⟩] }
  match d.domLane i with
  | some (p, l) => (d.laneOut p l).laneQuit p l
  | none => d

/-- Request a domain to be switched (R309 to R312): the state, and the DETAIL of a refusal. -/
def Dev.domRequest (d : Dev) (i : Nat) (on : Bool) (us : Nat) (k : Option Nat) (mgmt : Bool) : Dev × Nat :=
  let draining := d.pwr.drains.any (fun x => x.dom == i)
  let rising := d.pwr.ups.any (fun x => x.dom == i)
  if on then
    if draining then ((((d.domReplace i).setDom i true).domLast i true 0 0).domEnd k St.ok 0 0, 0)
    else if d.domBit i && !rising then ((d.domLast i true 0 0).domEnd k St.ok 0 0, 0)
    else
      let d := (d.domReplace i).setDom i true
      let d := d.onPwr fun z => { z with ups := z.ups ++ [⟨i, d.t, k⟩], demand := z.demand.filter (fun q => q.1 != i) }
      (d.domLast i true 0 0, 0)
  else if i = 0 then ((d.domLast i false 1 0).domEnd k St.refused 2 0, 2)
  else if !d.domBit i then ((d.domLast i false 0 0).domEnd k St.ok 0 0, 0)
  else if d.domInUse i mgmt then
    let d := if i = 109 then d.conflict 0x30 5 else d
    ((d.domLast i false 1 0).domEnd k St.refused 1 0, 1)
  else (((d.domReplace i).domLast i false 0 0).domDrain i us k, 0)

/-- DOMAIN_SET. -/
def doDomainSet (c : Cmd) (d : Dev) : Dev :=
  if 111 < c.p8 24 ∨ 1 < c.p8 25 then d.complete c St.badParam 0 0
  else (d.domRequest (c.p8 24) (c.p8 25 == 1) (c.f 26 2) (some c.k) (match c.origin with | .mbx .mgmt => true | _ => false)).1

/-- Change the drain of a domain. -/
def Dev.putDrain (d : Dev) (i : Nat) (f : Drain → Drain) : Dev :=
  d.onPwr fun z => { z with drains := updIf z.drains (fun x => x.dom == i) f }

/-- DRAIN_END: no transfer through the domain remains. -/
def execDrainEnd (i : Fin 112) (s : State) : Host.Outcome State Fault Refusal :=
  .next (s.onDev (fun d => d.putDrain i.val (fun x => { x with ending := some (x.ending.getD d.t) })))

/-- DRAIN_LIMIT_EXPIRY: `left` transfers remain at the drain limit and are aborted (R310). -/
def drainLimit (i left : Nat) (d : Dev) : Dev :=
  match d.pwr.drains.find? (fun x => x.dom == i) with
  | some x =>
    if x.due ≤ d.t ∧ x.ending = none then
      let d := d.putDrain i (fun x => { x with ending := some d.t, aborted := left })
      if left = 0 then d else (d.addSat F.PWR_ABORTED_CNT left).event 0x0B02 { arg0 := left, arg1 := i }
    else d
  | none => d

/-- DRAIN_LIMIT_EXPIRY. -/
def execDrainLimitExpiry (i : Fin 112) (left : Nat) (s : State) : Host.Outcome State Fault Refusal :=
  .next (s.onDev (drainLimit i.val left))

/-- What a domain that goes off or comes on takes with it: the bias, the converter, the ballast. -/
def Dev.domEffect (d : Dev) (i : Nat) (on : Bool) : Dev :=
  if i = 1 then (d.putBit F.FPA_STAT_BIAS_READY on).onFpa fun z => { z with biasOn := on }
  else if i = 104 then d.auxPower on
  else if i = 108 ∧ ¬ on then d.onPwr fun z => { z with bal2 := 0 }
  else d

/-- A lane whose domain goes off is in use no longer. -/
def Dev.laneDark (d : Dev) (q : Option (Nat × Nat)) : Dev :=
  match q with
  | some (p, l) =>
    if d.laneBusy p l then
      let x := d.port p
      (d.putPort p { x with rxMask := setB x.rxMask l false, txMask := setB x.txMask l false }).showLanes p
    else d
  | none => d

/-- DOMAIN_OFF: the domain has drained and goes off (R310); a lane's goes off only when both directions have left the lane, or when the
drain limit has passed (R187). -/
def domainOff (i : Nat) (d : Dev) : Dev :=
  match d.pwr.drains.find? (fun x => x.dom == i && x.ending.isSome &&
      (decide (x.due ≤ d.t) || (match d.domLane i with | some q => !d.laneBusy q.1 q.2 | none => true))) with
  | none => d
  | some x =>
    let d := d.laneDark (d.domLane i)
    let d := d.onPwr fun z => { z with drains := z.drains.filter (fun y => y.dom != i) }
    let d := d.put (F.PWR_DOM_DRAIN_MAP.at (i / 32)) (setB (d.get (F.PWR_DOM_DRAIN_MAP.at (i / 32))) (i % 32) false)
    let d := (d.setDom i false).domEffect i false
    let d := if i = 105 ∨ i = 106 then d.onPwr fun z => { z with demand := (i, none) :: z.demand.filter (fun q => q.1 != i) } else d
    (d.domLast i false 0 x.aborted).domEnd x.k St.ok 0 x.aborted

/-- DOMAIN_OFF. -/
def execDomainOff (i : Fin 112) (s : State) : Host.Outcome State Fault Refusal := .next (s.onDev (domainOff i.val))

/-- DOMAIN_USABLE: t_PUP after the request (R311). -/
def domainUsable (i : Nat) (d : Dev) : Dev :=
  match d.pwr.ups.find? (fun x => x.dom == i) with
  | none => d
  | some x => ((d.onPwr fun z => { z with ups := z.ups.filter (fun y => y.dom != i) }).domEffect i true).domEnd x.k St.ok 0 0

/-- DOMAIN_USABLE. -/
def execDomainUsable (i : Fin 112) (s : State) : Host.Outcome State Fault Refusal := .next (s.onDev (domainUsable i.val))

/-- ON_DEMAND_IDLE: t_IDLE after the last access an on-demand domain goes off again (R311). -/
def onDemandIdle (i : Nat) (d : Dev) : Dev :=
  let busy := i == 105 && !d.store.flashQ.isEmpty
  match d.pwr.demand.find? (fun q => q.1 == i) with
  | some (_, some t) =>
    if t + msT ≤ d.t ∧ ¬ busy then
      (d.setDom i false).onPwr fun z => { z with demand := (i, none) :: z.demand.filter (fun q => q.1 != i) }
    else d
  | _ => d

/-- ON_DEMAND_IDLE. -/
def execOnDemandIdle (i : Fin 112) (s : State) : Host.Outcome State Fault Refusal := .next (s.onDev (onDemandIdle i.val))

/-! ### Ballast (R313 to R315) -/

/-- Largest ballast power in mW: none with PD108 down (R314). -/
def Dev.balMax (d : Dev) : Nat := if d.domBit 108 then 1500 else 0

/-- One sample of the setpoint ramp: 50 mW/s is 1 mW in 20 samples (R315). -/
def Dev.rampSample (d : Dev) : Dev :=
  match d.pwr.rampTo with
  | none => d
  | some g =>
    let n := d.pwr.rampN + 1
    if d.pwr.sp = g then (d.onPwr fun z => { z with rampTo := none, rampN := 0 }).putBit F.PWR_BAL_STAT_RAMPING false
    else if n < 20 then d.onPwr fun z => { z with rampN := n }
    else
      let sp := if d.pwr.sp < g then d.pwr.sp + 1 else d.pwr.sp - 1
      let d := d.onPwr fun z => { z with sp := sp, rampN := 0, rampTo := if sp = g then none else z.rampTo }
      if sp = g then d.putBit F.PWR_BAL_STAT_RAMPING false else d

/-- Saturation ends after 10 samples within the range, and its windows begin (R314). -/
def Dev.satLeave (d : Dev) : Dev :=
  if d.bit F.PWR_BAL_STAT_SAT && decide (10 ≤ d.pwr.satIn) then
    (d.putBit F.PWR_BAL_STAT_SAT false).onPwr fun z => { z with satEnd := some d.t, lastSat := some d.t }
  else d

/-- BALLAST_SAMPLE: the powers measured at a 1 ms sample, in mW (R313 to R315). -/
def ballastSample (pIn pFpa pHeater pBal : Nat) (d : Dev) : Dev :=
  let d := d.rampSample
  let d := (d.put F.PWR_P_IN_MW (satN 16 pIn)).put F.PWR_SP_ACT_MW d.pwr.sp
  if !d.bit F.PWR_BAL_CTL_EN then
    (((d.put F.PWR_P_HELD_MW 0).put F.PWR_P_BAL_MW 0).onPwr fun z => { z with bal2 := 0, satIn := 0, satOut := 0 })
  else
    let held : Int := (pIn : Int) - pFpa - pHeater
    let req : Int := (d.pwr.sp : Int) - (held - pBal)
    let out := decide (req < 0) || decide ((d.balMax : Int) < req)
    let d := (d.put F.PWR_P_HELD_MW (satN 16 held.toNat)).put F.PWR_P_BAL_MW (satN 16 pBal)
    let d := d.onPwr fun z => { z with
      satOut := if out then z.satOut + 1 else 0
      satIn := if out then 0 else z.satIn + 1
      bal2 := 2 * (clampI 0 d.balMax req).toNat
      lastSat := if d.bit F.PWR_BAL_STAT_SAT then some d.t else z.lastSat }
    d.satLeave

/-- BALLAST_SAMPLE. -/
def execBallastSample (pIn pFpa pHeater pBal : Nat) (s : State) : Host.Outcome State Fault Refusal :=
  .next (s.onDev (ballastSample pIn pFpa pHeater pBal))

/-- BALLAST_SAT: 10 samples outside the range (R314). -/
def ballastSat (d : Dev) : Dev :=
  if d.bit F.PWR_BAL_CTL_EN && !d.bit F.PWR_BAL_STAT_SAT && decide (10 ≤ d.pwr.satOut) then
    let d := ((d.putBit F.PWR_BAL_STAT_SAT true).putBit F.PWR_BAL_STAT_SAT_10S true).putBit F.PWR_BAL_STAT_SAT_60S true
    let d := (d.inc F.PWR_BAL_SAT_CNT_CNT).onPwr fun z => { z with lastSat := some d.t, satEnd := none }
    d.event 0x0B01 { arg0 := d.get F.PWR_BAL_SAT_CNT_CNT }
  else d

/-- BALLAST_SAT. -/
def execBallastSat (s : State) : Host.Outcome State Fault Refusal := .next (s.onDev ballastSat)

/-- SAT_WINDOW_EXPIRY: 10 s and 60 s after saturation (R314). -/
def satWindow (d : Dev) : Dev :=
  match d.pwr.satEnd with
  | some t =>
    let d := if t + 10 * secT ≤ d.t then d.putBit F.PWR_BAL_STAT_SAT_10S false else d
    if t + 60 * secT ≤ d.t then (d.putBit F.PWR_BAL_STAT_SAT_60S false).onPwr fun z => { z with satEnd := none } else d
  | none => d

/-- SAT_WINDOW_EXPIRY. -/
def execSatWindowExpiry (s : State) : Host.Outcome State Fault Refusal := .next (s.onDev satWindow)

/-- BAL_SETPOINT_WRITE: SP is held pending until a glade begins, EN takes effect at once (R314, R315). A setpoint outside
2000 to 7300 mW is not listed and ignored (R5). -/
def balWrite (v : Word) (d : Dev) : Dev :=
  let sp := v.toNat / 65536 % 8192
  let old := d.get F.PWR_BAL_CTL_SETPOINT
  let d := d.writeWord R.PWR_BAL_CTL v.toNat
  let d :=
    if 2000 ≤ sp ∧ sp ≤ 7300 then (d.putBit F.PWR_BAL_STAT_SP_PEND true).onPwr fun z => { z with spPend := some sp }
    else d.put F.PWR_BAL_CTL_SETPOINT old
  if d.bit F.PWR_BAL_CTL_EN then d
  else
    (((d.putBit F.PWR_BAL_STAT_SAT false).putBit F.PWR_BAL_STAT_SAT_10S false).putBit F.PWR_BAL_STAT_SAT_60S false).onPwr fun z =>
      { z with bal2 := 0, satIn := 0, satOut := 0, satEnd := none, lastSat := none }

/-- BAL_SETPOINT_WRITE. -/
def execBalSetpointWrite (v : Word) (s : State) : Host.Outcome State Fault Refusal := .next (s.onDev (balWrite v))

/-- PWR_CNT_CLR (R26). -/
def execPwrCntClr (s : State) : Host.Outcome State Fault Refusal :=
  .next (s.onDev (fun d => d.clearAll [F.PWR_ABORTED_CNT, F.PWR_BAL_SAT_CNT_CNT]))

/-! ### Clocks (R317, R318) -/

/-- REFCLK_LOST: no edge for 2 µs, and the PLL holds (R318). -/
def refclkLost (d : Dev) : Dev :=
  if !d.bit F.CLK_STAT_REF_OK then d
  else
    let d := ((d.putBit F.CLK_STAT_REF_OK false).putBit F.CLK_STAT_HOLDOVER true).flag F.CLK_STAT_REF_LOST
    let d := (d.inc F.CLK_REF_LOSS_CNT).onPwr fun z => { z with refLostT := some d.t }
    d.event 0x0B04 { arg0 := d.get F.CLK_REF_LOSS_CNT }

/-- REFCLK_LOST. -/
def execRefclkLost (s : State) : Host.Outcome State Fault Refusal := .next (s.onDev refclkLost)

/-- HOLDOVER_EXPIRY: 10 ms without `REFCLK`; readout stops at the end of the frame in progress and the ports go down. -/
def holdoverExpiry (d : Dev) : Dev :=
  if d.bit F.CLK_STAT_HOLDOVER && dueBy (d.pwr.refLostT.map (· + 10 * msT)) d.t then
    let d := (d.putBit F.CLK_STAT_HOLDOVER false).putBit F.CLK_STAT_INT_OSC true
    let d := d.onFpa fun z => { z with clockStop := true }
    (List.range 3).foldl Dev.portLost d
  else d

/-- HOLDOVER_EXPIRY. -/
def execHoldoverExpiry (s : State) : Host.Outcome State Fault Refusal := .next (s.onDev holdoverExpiry)

/-- REFCLK_RETURN: within holdover the PLL follows again; from the internal oscillator it must relock (R318). -/
def refclkReturn (d : Dev) : Dev :=
  if d.bit F.CLK_STAT_REF_OK || !(d.bit F.CLK_STAT_HOLDOVER || d.bit F.CLK_STAT_INT_OSC) then d
  else
    let d := (d.putBit F.CLK_STAT_REF_OK true).onPwr fun z => { z with refLostT := none }
    if d.bit F.CLK_STAT_HOLDOVER then d.putBit F.CLK_STAT_HOLDOVER false
    else ((d.putBit F.CLK_STAT_PLL_LOCK false).inc F.CLK_UNLOCK_CNT).onPwr fun z => { z with relock := true }

/-- REFCLK_RETURN. -/
def execRefclkReturn (s : State) : Host.Outcome State Fault Refusal := .next (s.onDev refclkReturn)

/-- PLL_LOCK: at start-up, and after `REFCLK` returned, when readout resumes at the next boundary (R317, R318). -/
def pllLock (d : Dev) : Dev :=
  let d := ((d.putBit F.CLK_STAT_PLL_LOCK true).putBit F.CLK_STAT_REF_OK true).putBit F.CLK_STAT_INT_OSC false
  let d := d.onPwr fun z => { z with relock := false }
  if d.fpa.clockStop then
    let d := d.onFpa fun z => { z with clockStop := false }
    if d.bit F.FPA_CTL_RUN then d.placeStart.showPend else d
  else d

/-- PLL_LOCK. -/
def execPllLock (s : State) : Host.Outcome State Fault Refusal :=
  .next (s.onDev (fun d => if d.bit F.CLK_STAT_PLL_LOCK then d else pllLock d))

/-- CLK_CNT_CLR (R26). -/
def execClkCntClr (s : State) : Host.Outcome State Fault Refusal :=
  .next (s.onDev (fun d => d.clearAll [F.CLK_REF_LOSS_CNT, F.CLK_UNLOCK_CNT]))

/-- VIO_LOW: a bank's outputs are high-impedance and its inputs ignored, with an event once the module runs (R319). -/
def execVioLow (bank : Bool) (s : State) : Host.Outcome State Fault Refusal :=
  .next (s.onDev (fun d =>
    let i := b2n bank
    if d.pwr.vioLow.getD i false then d
    else
      let d := d.onPwr fun z => { z with vioLow := z.vioLow.set i true }
      if d.started then d.event 0x0B03 { elem := i } else d))

/-- VIO_RESTORED. -/
def execVioRestored (bank : Bool) (s : State) : Host.Outcome State Fault Refusal :=
  .next (s.onDev (fun d => d.onPwr fun z => { z with vioLow := z.vioLow.set (b2n bank) false }))

end Sys2Proof.Machine
end

