-- ==== Sys2Proof/Machine/Sec.lean ====
section
/-! DEFINITION. Keys, the mailbox and firmware (R256 to R264). -/

namespace Sys2Proof.Machine

/-! ### Keys (R255 to R258) -/

/-- The role a slot may carry (R256). -/
def roleFits (slot role : Nat) : Bool :=
  if slot = 0 then role == 0 else if slot = 7 then role == 4 else decide (1 ≤ role ∧ role ≤ 3)

/-- Accepting the import that provisions the module: PROVISIONED is set and every RWL field is locked (R257). -/
def Dev.provision (d : Dev) : Dev := (d.onSaved fun z => { z with prov := true }).putBit F.SEC_STAT_PROVISIONED true

/-- KEY_IMPORT: the key comes wrapped under the OWNER key, or unwrapped in the import that provisions the module; it
completes when stored. -/
def doKeyImport (c : Cmd) (d : Dev) : Dev :=
  let slot := c.p8 24
  let role := c.p8 25
  if firstImport d c then
    (d.provision).keepPush (.key c.k ⟨0, 0, slice c.data 0 32⟩) 2
  else if 7 < slot ∨ !roleFits slot role then d.complete c St.refused 0 0
  else
    match (d.keyOf 0).bind (fun x => keyUnwrap x.bytes (slice c.data 0 40)) with
    | none => d.complete c St.authFail 0 0
    | some b => (d.wake 106).keepPush (.key c.k ⟨slot, role, b⟩) 2

/-- KEY_RETIRE: slot 0 cannot be retired (R258). -/
def doKeyRetire (c : Cmd) (d : Dev) : Dev :=
  if 7 < c.p8 24 then d.complete c St.badParam 0 0
  else if c.p8 24 = 0 then d.complete c St.refused 0 0
  else d.keepPush (.keyErase c.k (c.p8 24)) 2

/-! ### Firmware (R262 to R264) -/

/-- The state field of a bank. -/
def bankFld (b : Nat) : Fld := if b = 0 then F.SEC_FW_STAT_STATE_A else F.SEC_FW_STAT_STATE_B

/-- FW_STAGE: a chunk into the bank that is not running (R263). -/
def doFwStage (c : Cmd) (d : Dev) : Dev :=
  let b := c.p8 24
  let ofs := c.f 28 4
  let n := c.data.length
  if 1 < b ∨ 1 < c.p8 25 then d.complete c St.badParam 0 0
  else if b = d.get F.SEC_FW_STAT_ACTIVE ∧ ¬ d.bit F.SYS_START_HALTED then d.complete c St.refused 0 0
  else if (ofs ≠ 0 ∧ ofs ≠ d.sec.fwOfs.getD b 0) ∨ 0x01000000 < ofs + n then d.complete c St.badParam 0 0
  else
    let d := d.onSec fun z => { z with fwOfs := z.fwOfs.set b (ofs + n) }
    (d.put (bankFld b) 1).flashPush (.fwChunk c.k b ofs c.data (c.p8 25 == 1))

/-- A 32-bit word of the image header of a bank: the shipped image's is not given (R262, log 4). -/
def fwWord (m : Mems) (d : Dev) (b o : Nat) : Nat :=
  if d.sec.fwShip.getD b false then Config.shipFw b o % 2 ^ 32 else m.fN (fwFlash b + o) 4

/-- The signature of an image verifies: r and s of ECDSA P-256 over the SHA-256 of header and body (R262). -/
def fwSigOk (img : List Byte) : Bool :=
  let n := img.length - 64
  ecdsaOk Config.fwKey (sha256 (img.take n)) (beNat (slice img n 32)) (beNat (slice img (n + 32) 32))

/-- A firmware image verifies (R262, R263): format, step code, length, SVN, signature. -/
def fwValid (m : Mems) (d : Dev) (b n : Nat) : Bool :=
  let a := fwFlash b
  m.fN a 2 == 1 && m.fN (a + 2) 2 == d.get F.SYS_ID_STEP && decide (m.fN (a + 12) 4 + 128 = n) && (m.f (a + 16) 48).all (· == 0) &&
  decide (d.get F.SEC_FW_SVN_MIN_VAL ≤ m.fN (a + 8) 4) && fwSigOk (m.f a n)

/-- FW_SWITCH: scheduled for the first boundary at or after max(T_c, acceptance + 2000 ticks) (R264, R286). -/
def doFwSwitch (tc : Nat) (c : Cmd) (d : Dev) : Dev :=
  let b := c.p8 24
  if 1 < b then d.complete c St.badParam 0 0
  else if d.tallyFailed 16 then d.complete c St.storeErr 0 0
  else if d.get (bankFld b) ≠ 2 then d.complete c St.refused 0 0
  else (d.onSec fun z => { z with fwSwitch := some ⟨c.k, b, Nat.max tc (c.accT + 2000), tc⟩ }).putBit F.SEC_FW_STAT_SWITCH_PEND true

/-- A part of a group command answers DONE when the switch takes place, a command of this module after the trial (R218,
R252, R264; DESIGN CHOICE, log 87). -/
def Dev.partSwitched (d : Dev) (k : Nat) : Dev :=
  match d.sec.cmds.find? (fun c => c.k == k) with
  | some c => (match c.origin with | .group _ => d.ok c 0 | _ => d)
  | none => d

/-- The running firmware changes (R264). -/
def Dev.fwSwap (d : Dev) (x : FwSwitch) : Dev :=
  let d := d.partSwitched x.k
  let prev := d.get F.SEC_FW_STAT_ACTIVE
  let d := d.onSec fun z => { z with fwSwitch := none, fwTrial := some ⟨x.k, x.bank, prev, d.t, false, false⟩ }
  ((d.put F.SEC_FW_STAT_ACTIVE x.bank).putBit F.SEC_FW_STAT_SWITCH_PEND false).put F.SEC_FW_SWITCH_T_T d.t

/-- Commands are taken and executed again (R264): an entry that came in meanwhile is accepted, and what waited is verified. -/
def Dev.commandsResume (d : Dev) : Dev :=
  let d := d.verifyAll
  match d.sec.early with
  | some (i, e) => ((d.onSec fun z => { z with early := none }).accept e i .ring none)
  | none => d

/-- A failed trial returns to the previous bank (R264). -/
def Dev.fwReturn (d : Dev) (x : FwTrial) : Dev :=
  let d := (d.onSec fun z => { z with fwTrial := none }).commandsResume
  let d := ((d.put F.SEC_FW_STAT_ACTIVE x.prev).putBit F.SEC_FW_STAT_TRIAL false).flag F.SEC_FW_STAT_FALLBACK
  let d := (d.put F.SEC_FW_SWITCH_T_T d.t).event 0x0E03 { arg1 := x.bank }
  d.completeK x.k St.fwFallback 0 0

/-- A frame boundary's part in a firmware switch (R264). -/
def Dev.fwBoundary (d : Dev) (b : Nat) : Dev :=
  match d.sec.fwSwitch, d.sec.fwTrial with
  | some x, _ => if x.teff ≤ b then d.fwSwap x else d
  | none, some x => if x.failed then d.fwReturn x else d
  | none, none => d

/-- FW_SWITCH_TICK: with imaging stopped the switch takes place at T_c + 2000. -/
def fwSwitchTick (d : Dev) : Dev :=
  match d.sec.fwSwitch with
  | some x => if !d.bit F.FPA_CTL_RUN ∧ x.tc + 2000 ≤ d.t then d.fwSwap x else d
  | none => d

/-- FW_SWITCH_TICK. -/
def execFwSwitchTick (s : State) : Host.Outcome State Fault Refusal := .next (s.onDev fwSwitchTick)

/-- NEW_FIRMWARE_RUNS: the trial begins. -/
def newFirmware (d : Dev) : Dev :=
  match d.sec.fwTrial with
  | some x => if x.runs then d
    else ((d.onSec fun z => { z with fwTrial := some { x with runs := true, t0 := d.t } }).putBit F.SEC_FW_STAT_TRIAL true).commandsResume
  | none => d

/-- NEW_FIRMWARE_RUNS. -/
def execNewFirmwareRuns (s : State) : Host.Outcome State Fault Refusal := .next (s.onDev newFirmware)

/-- FIRMWARE_SOUND: the trial ends well within 2 s; the bank boots from now on, and the least SVN rises to its SVN. -/
def firmwareSound (m : Mems) (d : Dev) : Dev :=
  match d.sec.fwTrial with
  | some x =>
    if x.runs ∧ ¬ x.failed ∧ d.t < x.t0 + 2 * secT then
      let svn := fwWord m d x.bank 8
      let d := d.onSec fun z => { z with fwTrial := none }
      let d := (d.putBit F.SEC_FW_STAT_TRIAL false).put F.SEC_FW_STAT_BOOT x.bank
      let d := if d.get F.SEC_FW_SVN_MIN_VAL < svn then (d.tallySet 16 svn).put F.SEC_FW_SVN_MIN_VAL svn else d
      let d := d.keepPush (.regs [(R.SEC_FW_STAT, d.reg R.SEC_FW_STAT)]) 1
      (d.event 0x0E02 { arg1 := x.bank }).completeK x.k St.ok 0 0
    else d
  | none => d

/-- FIRMWARE_SOUND. -/
def execFirmwareSound (s : State) : Host.Outcome State Fault Refusal := .next (s.onDev (firmwareSound s.mem))

/-- FW_TRIAL_EXPIRY: 2 s without a report; the module returns at the next frame boundary, or at once while none can come. -/
def fwExpiry (d : Dev) : Dev :=
  match d.sec.fwTrial with
  | some x =>
    if x.runs ∧ x.t0 + 2 * secT ≤ d.t then
      let y : FwTrial := { x with failed := true }
      if d.bit F.FPA_CTL_RUN then d.onSec fun z => { z with fwTrial := some y } else d.fwReturn y
    else d
  | none => d

/-- FW_TRIAL_EXPIRY. -/
def execFwTrialExpiry (s : State) : Host.Outcome State Fault Refusal := .next (s.onDev fwExpiry)

/-! ### Mailbox (R261) -/

/-- The data of a mailbox command: from `SEC_MBX_DATA`, or from the staging table when longer than 4096 bytes; none when a
word there is uncorrectable (R273). -/
def mbxData (s : State) (n : Nat) : Option (List Byte) :=
  if n ≤ 4096 then
    some (slice ((List.range (cdiv n 4)).flatMap (fun i => leBytes 4 (s.dev.get (F.SEC_MBX_DATA_DATA.at i)))) 0 n)
  else if s.dev.store.qdrBad.any (fun w => decide (0x0E700000 ≤ 32 * w + 31 ∧ 32 * w < 0x0E700000 + n)) then none
  else some (s.mem.q 0x0E700000 n)

/-- MBX_GO: the entry in the mailbox and its data are taken, to be accepted in its turn (R249); ignored while the mailbox is
busy or its completion stands (R261). -/
def mbxGo (p : Path) (s : State) : State :=
  let d := s.dev
  if p = .bar2 then s
  else if d.bit F.SEC_MBX_STAT_BUSY || d.bit F.SEC_MBX_STAT_DONE then s.onDev (fun d => d.flag F.SEC_MBX_STAT_COLLIDE)
  else
    let e := (List.range 16).flatMap (fun i => leBytes 4 (d.get (F.SEC_MBX_ENTRY_DATA.at i)))
    let n := leAt e 12 4
    let takes := match opRow (leAt e 0 2) with | some r => r.dataIn | none => false
    let data := if takes then mbxData s (Nat.min n 1048576) else some []
    s.onDev (fun d =>
      ((d.onSec fun z => { z with mbxWait := some (p, e, data) }).putBit F.SEC_MBX_STAT_BUSY true).putBit F.SEC_MBX_STAT_PATH (p == .mgmt))

/-- MBX_GO. -/
def execMbxGo (p : Path) (s : State) : Host.Outcome State Fault Refusal := .next (mbxGo p s)

/-- MBX_ACK: the owner releases the mailbox. -/
def mbxAck (p : Path) (d : Dev) : Dev :=
  if d.bit F.SEC_MBX_STAT_DONE && d.bit F.SEC_MBX_STAT_PATH == (p == .mgmt) && p != .bar2 then d.putBit F.SEC_MBX_STAT_DONE false else d

/-- MBX_ACK. -/
def execMbxAck (p : Path) (s : State) : Host.Outcome State Fault Refusal := .next (s.onDev (mbxAck p))

/-- SEC_CNT_CLR (R26). -/
def execSecCntClr (s : State) : Host.Outcome State Fault Refusal :=
  .next (s.onDev (fun d => d.clearAll [F.SEC_AUTH_FAIL_CNT, F.SEC_REPLAY_CNT, F.SEC_ROLE_FAIL_CNT, F.SEC_RELAYED_CNT]))

end Sys2Proof.Machine
end

