-- ==== Sys2Proof/Machine/Stand.lean ====
section
/-! DEFINITION. Stands: the map, roles, heartbeats, membership, epochs, revenants and failover (R201 to R215, R227, R327). -/

namespace Sys2Proof.Machine

/-! ### The map (R201, R202) -/

/-- An unused slot. -/
def MapEnt.empty : MapEnt := ⟨0, 0, 0xFF, 0, 0, 0, 0⟩

/-- A slot entry from its 24 bytes. -/
def entOf (b : List Byte) : MapEnt :=
  ⟨leAt b 0 8, leAt b 8 1, leAt b 9 1, leAt b 10 1, leAt b 11 1, leAt b 12 4, sext 64 (leAt b 16 8)⟩

/-- The map that the 832 bytes of STAND_MAP_SET spell. -/
def mapOf (b : List Byte) : StandMap :=
  ⟨leAt b 2 1, leAt b 3 1, leAt b 12 8, (List.range 32).map (fun s => entOf (slice b (64 + 24 * s) 24))⟩

/-- The fields of the 832 bytes lie in their ranges; EPOCH, VERSION and reserved bytes are 0. -/
def mapFields (b : List Byte) : Bool :=
  leAt b 0 2 == 0 && decide (leAt b 2 1 < 32) && decide (leAt b 3 1 ≤ 2) && leAt b 4 8 == 0 && (slice b 20 44).all (· == 0) &&
  (List.range 32).all (fun s =>
    let e := entOf (slice b (64 + 24 * s) 24)
    decide (e.kind ≤ 4) && decide (e.chan ≤ 15) && decide (e.flags < 8) && (e.kind != 3 || e.col0 == 0))

/-- The entry of a slot. -/
def mapEnt (m : StandMap) (s : Nat) : MapEnt := m.ents.getD s MapEnt.empty

/-- Slots of a map that satisfy a test. -/
def mapSlots (m : StandMap) (f : MapEnt → Bool) : List Nat := (List.range 32).filter (fun s => f (mapEnt m s))

/-- A map with the entry of a slot replaced. -/
def mapPut (m : StandMap) (s : Nat) (e : MapEnt) : StandMap := { m with ents := m.ents.set s e }

/-- Imaging slots of a channel in COL0 order. -/
def mapOrder (m : StandMap) (ch : Nat) : List Nat :=
  (mapSlots m (fun e => e.kind == 1 && e.chan == ch)).foldl (fun acc s =>
    acc.filter (fun x => decide ((mapEnt m x).col0 ≤ (mapEnt m s).col0)) ++ [s] ++
      acc.filter (fun x => decide ((mapEnt m s).col0 < (mapEnt m x).col0))) []

/-- The checks of R202 on a channel's imaging slots, with the window columns of each slot. -/
def chanOk (m : StandMap) (cols : Nat → Nat) (ch : Nat) : Bool :=
  let l := mapOrder m ch
  let beg (s : Nat) : Nat := (mapEnt m s).col0
  let fin (s : Nat) : Nat := beg s + cols s
  l.all (fun s => decide (fin s ≤ 65535)) &&
  (pairs l).all (fun q => decide (beg q.2 + 32 ≤ Nat.min (fin q.1) (fin q.2))) &&
  l.all (fun s => decide (l.countP (fun x => decide (beg x ≤ beg s ∧ beg s < fin x)) ≤ 2))

/-- The checks of R202. -/
def mapOk (m : StandMap) (cols : Nat → Nat) : Bool :=
  let root := mapEnt m m.root
  root.kind == 1 && !root.flags.testBit 0 &&
  m.ents.all (fun e => if e.kind = 2 then decide (e.cover < 32) && (mapEnt m e.cover).kind == 1 else e.cover == 0xFF) &&
  (List.range 16).all (chanOk m cols) &&
  (List.range 32).all (fun s =>
    let e := mapEnt m s
    e.kind != 3 || (decide (m.level < 2) && (List.range 32).all (fun t => t == s || (mapEnt m t).kind == 0 || (mapEnt m t).chan != e.chan)))

/-- This module's unique ID. -/
def Dev.selfId (d : Dev) : Nat := d.get F.STAND_SELF_ID_ID

/-- The slot of a module's ID in a map (R203). -/
def slotOfId (m : StandMap) (id : Nat) : Option Nat :=
  if id = 0 then none else (mapSlots m (fun e => e.id == id && e.kind != 0 && e.kind != 3)).head?

/-- The slot that a HEART speaks for: a sub-stand's by its STAND_ID and a level one greater (R207, R227). -/
def slotOfHeart (m : StandMap) (id level : Nat) (sub : Bool) : Option Nat :=
  if sub then
    if level = m.level + 1 ∧ id ≠ 0 then (mapSlots m (fun e => e.id == id && (e.kind == 3 || e.kind == 4))).head? else none
  else slotOfId m id

/-! ### What follows from the map (R203, R206, R213, Roles) -/

/-- Ticks of a limit of `STAND_TIMING`. -/
def Dev.standMs (d : Dev) (f : Fld) : Nat := d.get f * msT

/-- The newest HEART of a slot. -/
def Dev.heardOf (d : Dev) (s : Nat) : Option Heard := d.stand.heard.find? (fun h => h.slot == s)

/-- A slot was heard within `DEAD_MS`. -/
def Dev.heardNow (d : Dev) (s : Nat) : Bool :=
  match d.heardOf s with | some h => decide (d.t < h.t + d.standMs F.STAND_TIMING_DEAD_MS) | none => false

/-- Assigned slots of a map (R213). -/
def assignedOf (m : StandMap) : List Nat := mapSlots m (fun e => e.kind == 1 || e.kind == 2 || e.kind == 3)

/-- A quorum is reachable (R213). -/
def Dev.quorumNow (d : Dev) : Bool :=
  match d.stand.map with
  | none => false
  | some m =>
    let a := assignedOf m
    decide (a.length < 2 * a.countP (fun s => d.heardNow s || s == d.ownSlot))

/-- The lowest-numbered live slot that satisfies a test, or 0x3F. -/
def Dev.firstLive (d : Dev) (m : StandMap) (f : MapEnt → Bool) : Nat :=
  ((mapSlots m f).find? (fun s => s == d.ownSlot || d.heardNow s)).getD 0x3F

/-- The role a map gives this module; a CLEARING module with no slot, or a vacated one, stays so (R203, R210, R211). -/
def Dev.roleIn (d : Dev) (m : StandMap) (deputy : Nat) : Nat :=
  match slotOfId m d.selfId with
  | none => if d.stand.clearing then 5 else 0
  | some s =>
    let e := mapEnt m s
    if e.kind = 4 ∨ d.stand.clearing then 5
    else if s = m.root then 1
    else if e.kind = 2 then 4
    else if s = deputy ∧ d.bit F.STAND_CTL_DEPUTY_EN then 2
    else 3

/-- A change of web source made by the module itself (R206). -/
def Dev.setSrc (d : Dev) (src : Nat) : Dev :=
  if d.get F.WEB_CTL_SRC = src then d
  else
    let d := d.onWeb fun z => { z with we := d.get F.WEB_POS_W, te := d.t, hostRem := 0, onHost := false }
    (d.put F.WEB_CTL_SRC src).put F.WEB_STAT_SRC_ACT src

/-- The encoder owner changes, or this module's slot does (R206). -/
def Dev.encOwner (d : Dev) (owner : Nat) : Dev :=
  let mine := owner == d.ownSlot && d.ownSlot != 0x3F
  let was := d.bit F.LINK_ENC_CTL_TX_EN || d.stand.encTake
  let d := d.put F.STAND_ROLES_ENC owner
  if mine then
    if was then d
    else if d.get F.WEB_CTL_SRC = 2 then d.onStand fun z => { z with encTake := true }
    else d.putBit F.LINK_ENC_CTL_TX_EN true
  else
    let can := match d.selfEnt with | some e => e.flags.testBit 1 | none => false
    let d := (d.putBit F.LINK_ENC_CTL_TX_EN false).onStand fun z => { z with encTake := false }
    if was || can then d.setSrc 2 else d

/-- Show who is alive, and what follows from it: the quorum, the deputy, the encoder owner, ROOT_SILENT. -/
def Dev.standLive (d : Dev) : Dev :=
  match (if d.bit F.STAND_CTL_EN then d.stand.map else none) with
  | none => d
  | some m =>
    let live := (List.range 32).filter (fun s => d.heardNow s || (s == d.ownSlot && (assignedOf m).contains s))
    let d := d.put F.STAND_ALIVE_MAP (ofBits live)
    let d := d.putBit F.STAND_STAT_QUORUM d.quorumNow
    let dep := d.firstLive m (fun e => e.kind == 1 && e.flags.testBit 0)
    let d := d.put F.STAND_ROLES_DEPUTY dep
    let role := d.get F.STAND_STAT_ROLE
    let d := if role = 2 ∨ role = 3 then d.put F.STAND_STAT_ROLE (if dep = d.ownSlot ∧ d.bit F.STAND_CTL_DEPUTY_EN then 2 else 3) else d
    let own := d.firstLive m (fun e => (e.kind == 1 || e.kind == 2) && e.flags.testBit 1)
    let seen := (own, d.ownSlot, match d.selfEnt with | some e => e.flags.testBit 1 | none => false)
    let d := if seen = d.stand.encSeen then d else (d.encOwner own).onStand fun z => { z with encSeen := seen }
    d.putBit F.STAND_STAT_ROOT_SILENT (role != 1 &&
      decide ((d.stand.lastRoot.getD 0) + d.standMs F.STAND_TIMING_DEAD_MS ≤ d.t))

/-- Show the registers of the map in force; without one, or with `EN` at 0, the module is a stand of one: root, slot 0. -/
def Dev.standShow (d : Dev) : Dev :=
  match (if d.bit F.STAND_CTL_EN then d.stand.map else none) with
  | none =>
    let d := (((d.put F.STAND_STAT_ROLE 1).put F.STAND_STAT_SLOT 0).put F.STAND_STAT_LEVEL 0).putBit F.STAND_STAT_MAP_VALID false
    let d := (d.putBit F.STAND_STAT_QUORUM false).putBit F.STAND_STAT_ROOT_SILENT false
    let d := ((d.put F.STAND_ROLES_ROOT 0).put F.STAND_ROLES_DEPUTY 0x3F).put F.STAND_ROLES_ENC 0x3F
    let d := ((d.put F.STAND_ASSIGNED_MAP 0).put F.STAND_ALIVE_MAP 0).put F.STAND_VACATED_MAP 0
    d.put F.STAND_SID_ID 0
  | some m =>
    let slot := (slotOfId m d.selfId).getD 0x3F
    let d := (d.put F.STAND_STAT_SLOT slot).put F.STAND_STAT_LEVEL m.level
    let d := d.onStand fun z => { z with heard := z.heard.map (fun h => { h with slot := (slotOfHeart m h.id h.level h.subroot).getD 0x3F }) }
    let d := (d.putBit F.STAND_STAT_MAP_VALID true).put F.STAND_SID_ID m.sid
    let d := (d.put F.STAND_ROLES_ROOT m.root).put F.STAND_ASSIGNED_MAP (ofBits (assignedOf m))
    let d := d.put F.STAND_VACATED_MAP (ofBits (mapSlots m (fun e => e.kind == 4)))
    let dep := d.firstLive m (fun e => e.kind == 1 && e.flags.testBit 0)
    (d.put F.STAND_STAT_ROLE (d.roleIn m dep)).standLive

/-! ### Group commands that an epoch change ends (R218) -/

/-- Show where the group command stands. -/
def Dev.showGroup (d : Dev) (txn phase result okMap failMap : Nat) : Dev :=
  ((((d.put F.STAND_GRP_STAT_TXN txn).put F.STAND_GRP_STAT_PHASE phase).put F.STAND_GRP_STAT_RESULT result).put F.STAND_GRP_OK_MAP okMap).put
    F.STAND_GRP_FAIL_MAP failMap

/-- A CTRL flit on the U port of a sub-stand root, toward its parent (R228). -/
def Dev.ctrlUp (d : Dev) (sub txn : Nat) (content : List Byte) : Dev :=
  match d.stand.parent with
  | none => d
  | some q =>
    let n := d.nextSeq 0x44
    n.2.pushOwn 2 ⟨4, q.slot, q.epoch % 256, n.1, 3, slice (ctrl sub 0x3F txn content) 0 28⟩

/-- The content of a VOTE (R216): accept, status, GEN_CUR, GEN_PEND, reach, window columns. -/
def voteBytes (ok : Bool) (status gc gp reach cols : Nat) : List Byte :=
  leBytes 1 (b2n ok) ++ leBytes 1 status ++ leBytes 4 gc ++ leBytes 4 gp ++ leBytes 8 reach ++ leBytes 2 cols

/-- A group command ends (R218): status, DETAIL, RESULT bitmap and SLOT go to the host, or to the parent as the slot's VOTE
or DONE (R228). -/
def Dev.groupEnd (d : Dev) (g : Group) (status detail bitmap : Nat) (aborted : Bool) : Dev :=
  let d := d.onStand fun z => { z with group := none, resv := none }
  let d := d.onSec fun z => { z with parts := z.parts.filter (fun p => p.1 != g.txn) }
  let d := d.showGroup g.txn 3 (if aborted then 2 else if bitmap = 0 then 0 else 1) g.okMap bitmap
  let slot := if bitmap = 0 then 0xFF else (bitsOf 32 bitmap).headD 0xFF
  match g.k, g.up with
  | some k, _ =>
    match d.sec.cmds.find? (fun c => c.k == k) with
    | some c => d.completeAs c status detail bitmap slot
    | none => d
  | none, some up =>
    if aborted then
      if g.phase = 1 then d.ctrlUp 0x04 up (voteBytes false status (d.get F.FPA_GEN_CUR_GEN) (d.get F.FPA_GEN_PEND_GEN) 0 0) else d
    else d.ctrlUp 0x07 up (leBytes 1 status ++ leBytes 8 d.t ++ leBytes 4 (d.get F.FPA_GEN_CUR_GEN))
  | none, none => d

/-- ABORT to all targets; the completion names the refusing and silent slots (R218). -/
def Dev.groupAbort (d : Dev) (detail bitmap : Nat) : Dev :=
  match d.stand.group with
  | none => d
  | some g => (d.bcast 4 3 (ctrl 0x06 0x3F g.txn [])).groupEnd { g with failMap := bitmap } St.refused detail bitmap true

/-- A commit whose every slot has succeeded or failed completes (R218). -/
def Dev.groupCheck (d : Dev) : Dev :=
  match d.stand.group with
  | some g =>
    if g.phase = 2 ∧ g.mask &&& (g.okMap ||| g.failMap) = g.mask then
      let bad := (bitsOf 32 g.failMap).head?
      let det := match bad with | some s => (assoc g.stat s).getD 0 | none => 0
      d.groupEnd g (if g.failMap = 0 then St.ok else St.partial_) det g.failMap false
    else d
  | none => d

/-- Slots fail in a commit (R218, R220). -/
def Dev.groupFail (d : Dev) (slots status : Nat) : Dev :=
  match d.stand.group with
  | some g =>
    if g.phase ≠ 2 then d
    else
      let new := (bitsOf 32 (g.mask &&& slots)).filter (fun i => !(g.okMap ||| g.failMap).testBit i)
      if new.isEmpty then d
      else
        let g := { g with failMap := g.failMap ||| ofBits new, stat := g.stat ++ new.map (fun s => (s, status)) }
        let acq := leAt g.entry 0 2 = 0x0004
        let d := d.onStand fun z => { z with
          group := some g
          degGen := if acq then z.degGen.filter (fun q => !new.contains q.1) ++ new.map (fun s => (s, g.gen)) else z.degGen }
        let d := d.put F.STAND_DEGRADED_MAP (d.get F.STAND_DEGRADED_MAP ||| ofBits new)
        let d := ((d.put F.STAND_GRP_FAIL_MAP g.failMap).put F.STAND_GRP_OK_MAP g.okMap)
        d.groupCheck
  | none => d

/-- What an epoch change does to the group command (R218): an abort in Prepare, the dead slots failed in Commit. -/
def Dev.groupEpoch (d : Dev) (dead : Nat) : Dev :=
  match d.stand.group with
  | some g => if g.phase = 1 ∨ g.phase = 4 then d.groupAbort 0 (g.mask &&& dead) else d.groupFail dead 0
  | none => d

/-! ### Epochs (R209) -/

/-- The full map as 33 MAP flits, its header carrying an epoch and a version. -/
def Dev.sendMap (d : Dev) (m : StandMap) (epoch ver : Nat) : Dev :=
  let d := d.bcast 8 1 ([0, 0] ++ leBytes 1 m.root ++ leBytes 1 m.level ++ leBytes 4 epoch ++ leBytes 2 ver ++ [0, 0] ++ leBytes 8 m.sid)
  let d := (List.range 32).foldl (fun d s =>
    d.bcast 8 (if s = 31 then 2 else 0) ([1] ++ leBytes 1 s ++ leBytes 2 ver ++ (mapEnt m s).bytes)) d
  d.onStand fun z => { z with lastMapT := d.t }

/-- The Keep takes the map, slot and epoch before any flit goes out under the new epoch (R204). -/
def Dev.keepEpoch (d : Dev) : Dev :=
  let d := d.keepPush .modState 14
  if d.bit F.SEC_STAT_KEEP_OK then d.onStand fun z => { z with hold := true } else d

/-- A map comes into force under an epoch and version. -/
def Dev.takeMap (d : Dev) (m : StandMap) (epoch ver : Nat) : Dev :=
  let d := (d.put F.STAND_EPOCH_EPOCH epoch).put F.STAND_MAP_VER_VER ver
  let d := (d.freshQdr standMapAddr 832).onStand fun z => { z with map := some m, mapRx := none, since := d.t }
  d.standShow.keepEpoch

/-- EPOCH_CHANGE at the root (R209): the epoch rises by one, the map is announced under the old epoch, then comes into force;
`dead` are the slots declared dead by it. -/
def Dev.epochChange (d : Dev) (m : StandMap) (dead : Nat) : Dev :=
  let e := (d.get F.STAND_EPOCH_EPOCH + 1) % 2 ^ 32
  let v := (d.get F.STAND_MAP_VER_VER + 1) % 2 ^ 16
  let d := d.groupEpoch dead
  ((d.sendMap m e v).takeMap m e v).inc F.STAND_EPOCH_CHG_CNT

/-! ### Revenants (R210) -/

/-- Flits of this module's own origin and of certain types leave the egress queues unsent. -/
def Dev.dropOwn (d : Dev) (types : List Nat) : Dev :=
  let keep (f : Flit) : Bool := !types.contains f.type
  let d := (List.range 3).foldl (fun d p =>
    let x := d.port p
    d.putPort p { x with qs := x.qs.map (fun q => { q with own := q.own.filter keep }) }) d
  d.onStand fun z => { z with held := z.held.filter (fun q => keep q.2) }

/-- This module becomes a revenant under an epoch. -/
def Dev.revenant (d : Dev) (epoch : Nat) : Dev :=
  let d := match d.stand.group with | some _ => d.groupAbort 0 0 | none => d
  let d := (d.put F.STAND_EPOCH_EPOCH epoch).put F.STAND_STAT_ROLE 5
  let d := d.onStand fun z => { z with
    merge := [], mrecs := [], seams := [], resv := none, clearing := true, contChans := [], quiet := false, encTake := false,
    tokHolder := none, tokQueue := [] }
  let d := (List.range 3).foldl (fun d p => d.framesMove p none) ((d.onWeb fun z => { z with lines := [] }).dropOwn [1, 2, 3])
  let d := (d.onProof fun z => { z with token := false }).putBit F.LINK_ENC_CTL_TX_EN false
  let d := d.put F.STAND_STAT_CLR_TEST 1
  (d.startSelfTest [] 0xFF true).keepEpoch

/-! ### HEART (R207) -/

/-- A port in the PORTS field: 0 down, 1 UP, 2 UP and listed. -/
def Dev.heartPort (d : Dev) (p : Nat) : Nat := if d.portState p ≠ 4 then 0 else if d.bit (F.LINK_P_STAT_LISTED.at p) then 2 else 1

/-- Age of the last ROOT HEART in 100 µs; a root's own is 0. -/
def Dev.rootAge (d : Dev) : Nat :=
  if d.get F.STAND_STAT_ROLE = 1 then 0
  else match d.stand.lastRoot with | some t => satN 16 ((d.t - t) / 10000) | none => 0xFFFF

/-- A HEART payload with an epoch, an ID and the SUBROOT bit. -/
def Dev.heartBytes (d : Dev) (sub : Bool) (epoch id : Nat) : List Byte :=
  let role := d.get F.STAND_STAT_ROLE
  let own := d.ownSlot
  [1] ++ leBytes 1 (role + 8 * b2n sub + 16 * d.get F.STAND_STAT_CLR_TEST + 64 * d.get F.STAND_STAT_LEVEL) ++
  leBytes 1 (d.heartPort 0 + 4 * d.heartPort 1 + 16 * d.heartPort 2) ++
  leBytes 1 (b2n (d.bit F.LINK_TS_STAT_LOCKED) + 2 * b2n (d.bit F.FPA_STAT_RUNNING) + 4 * b2n d.proof.token +
    8 * b2n (d.bit F.STAND_STAT_ROOT_SILENT) + 16 * b2n ((d.get F.STAND_DEGRADED_MAP).testBit own)) ++
  leBytes 4 epoch ++ leBytes 8 id ++ leBytes 2 (d.get F.STAND_MAP_VER_VER) ++ leBytes 2 d.rootAge ++
  leBytes 4 (d.get F.FPA_GEN_CUR_GEN) ++ leBytes 4 (d.get F.FPA_GEN_PEND_GEN)

/-- The module's U port joins a parent stand (R173, R227). -/
def Dev.upLinked (d : Dev) : Bool := d.get F.LINK_HP_STAT_MODE_ACT == 1 && d.portState 2 == 4

/-- HEART_SEND: at ticks that are multiples of 100,000; a sub-stand root also speaks on its U link (R207, R227). -/
def heartSend (d : Dev) : Dev :=
  if !d.inStand || d.t % 100000 != 0 then d
  else
    let d := d.standLive
    let d := d.bcast 7 3 (d.heartBytes false (d.get F.STAND_EPOCH_EPOCH) d.selfId)
    if d.isRoot && d.upLinked then
      let e := match d.stand.parent with | some q => q.epoch | none => 0
      let src := match d.stand.parent with | some q => q.slot | none => 0x3F
      let n := d.nextSeq 0x47
      n.2.pushOwn 2 ⟨7, src, e % 256, n.1, 7, slice (d.heartBytes true e (d.get F.STAND_SID_ID)) 0 28⟩
    else d

/-- HEART_SEND. -/
def execHeartSend (s : State) : Host.Outcome State Fault Refusal := .next (s.onDev heartSend)

/-- The HEART a payload carries, as arrived on a port. -/
def heardOfFlit (d : Dev) (p : Nat) (b : List Byte) : Heard :=
  let r := leAt b 1 1
  let sub := r.testBit 3
  let level := r / 64
  let id := leAt b 8 8
  { id := id, slot := (d.stand.map.bind (fun m => slotOfHeart m id level sub)).getD 0x3F, port := p, t := d.t, role := r % 8, subroot := sub,
    clr := r / 16 % 4, level := level, ports := leAt b 2 1, flags := leAt b 3 1, epoch := leAt b 4 4, ver := leAt b 16 2,
    genCur := leAt b 20 4, genPend := leAt b 24 4 }

/-- A member seen again after silence from a vacated slot, or under an older epoch, is counted once as a revenant (R210). -/
def Dev.countRevenant (d : Dev) (h : Heard) (before : Option Heard) : Dev :=
  let vac := match d.ent h.slot with | some e => e.kind == 4 | none => false
  let old := later32 (d.get F.STAND_EPOCH_EPOCH) h.epoch
  let again := match before with
    | some x => decide (x.t + d.standMs F.STAND_TIMING_DEAD_MS ≤ h.t) || (old && !later32 (d.get F.STAND_EPOCH_EPOCH) x.epoch)
    | none => true
  if d.isRoot && !h.subroot && (vac || old) && again then
    (d.inc F.STAND_REVENANT_CNT).event 0x0D02 { elem := h.slot, arg0 := h.epoch }
  else d

/-- A slot's DEGRADED bit clears when its HEART reports the committed generation (R220). -/
def Dev.degradedHeart (d : Dev) (h : Heard) : Dev :=
  if d.stand.degGen.any (fun q => q.1 == h.slot && q.2 == h.genCur) then
    (d.put F.STAND_DEGRADED_MAP (setB (d.get F.STAND_DEGRADED_MAP) h.slot false)).onStand fun z => { z with
      degGen := z.degGen.filter (fun q => q.1 != h.slot) }
  else d

/-- A ROOT HEART (R207, R210, R212, R327). -/
def Dev.rootHeart (d : Dev) (h : Heard) : Dev :=
  let e := d.get F.STAND_EPOCH_EPOCH
  if later32 h.epoch e then
    let d := d.onStand fun z => { z with lastRoot := some d.t, quiet := false }
    if d.stand.map.isSome then d.revenant h.epoch else d
  else if h.epoch = e then
    if d.get F.STAND_STAT_ROLE = 1 then (if h.id < d.selfId then d.revenant e else d)
    else d.onStand fun z => { z with lastRoot := some d.t, quiet := false }
  else d

/-- HEART_RECEIVE: on whichever port it arrives (R207). A HEART of the parent stand only tells its epoch (R227). -/
def heartReceive (p : Nat) (fl : Flit) (d : Dev) : Dev :=
  let b := fl.payload
  if leAt b 0 1 ≠ 1 ∨ d.bit (F.LINK_P_STAT_MISWIRED.at p) then d
  else if p = 2 ∧ d.get F.LINK_HP_STAT_MODE_ACT = 1 then
    if leAt b 1 1 % 8 = 1 ∧ ¬ (leAt b 1 1).testBit 3 then
      d.onStand fun z => { z with parent := z.parent.map (fun q => if later32 (leAt b 4 4) q.epoch then { q with epoch := leAt b 4 4 } else q) }
    else d
  else if leAt b 8 8 = d.selfId ∨ !d.bit F.STAND_CTL_EN then d
  else
    let h := heardOfFlit d p b
    let before := d.stand.heard.find? (fun x => x.id == h.id && x.subroot == h.subroot)
    let d := d.onStand fun z => { z with heard := h :: z.heard.filter (fun x => !(x.id == h.id && x.subroot == h.subroot)) }
    let d := if d.inStand then (d.countRevenant h before).degradedHeart h else d
    let d := if h.role = 1 ∧ ¬ h.subroot ∧ d.inStand then d.rootHeart h else d
    let d := if h.slot < 32 ∧ d.inStand then d.put F.STAND_ALIVE_MAP (setB (d.get F.STAND_ALIVE_MAP) h.slot true) else d
    if h.role = 1 then d.putBit F.STAND_STAT_ROOT_SILENT (d.bit F.STAND_STAT_ROOT_SILENT && d.stand.lastRoot != some d.t) else d

/-- HEART_RECEIVE. -/
def execHeartReceive (q : Port) (fl : Flit) (s : State) : Host.Outcome State Fault Refusal :=
  .next (s.onDev (heartReceive q.idx fl))

/-! ### Routes the root issues (R188, R191) -/

/-- The root issues its ring order and its branches, with a new version. -/
def Dev.sendRoutes (d : Dev) (order : List Nat) : Dev :=
  let v := (d.get F.LINK_ROUTE_VER_VER + 1) % 65536
  let packed := order.zipIdx.foldl (fun a q => a + q.1 % 64 * 64 ^ q.2) 0
  let ring := [0x10] ++ leBytes 1 order.length ++ leBytes 1 (b2n d.link.closed) ++ [0] ++ leBytes 2 v ++ [0, 0] ++ leBytes 24 packed
  let br := d.link.branches
  let bp := br.zipIdx.foldl (fun a q => a + (q.1.1 % 64 + 64 * (q.1.2 % 64)) * 4096 ^ q.2) 0
  let d := routeRing ⟨8, d.ownSlot, 0, 0, 7, slice ring 0 28⟩ d
  let d := d.bcast 8 3 ring
  if br.isEmpty then d
  else
    let b := [0x11] ++ leBytes 1 br.length ++ [0, 0] ++ leBytes 2 v ++ [0, 0] ++ leBytes 24 bp
    let d := routeRing ⟨8, d.ownSlot, 0, 0, 7, slice b 0 28⟩ d
    d.bcast 8 3 b

/-- The ring order turned so that a slot comes first, if it stands in it. -/
def turned (l : List Nat) (s : Nat) : List Nat :=
  match l.findIdx? (· == s) with | some i => l.drop i ++ l.take i | none => l

/-- A slot that is heard reports a hop up that is marked cut: the root lists it again (R191). -/
def Dev.relist (d : Dev) : Dev :=
  let up (q : Nat × Nat) : Bool :=
    if q.1 = d.ownSlot then d.portState q.2 == 4
    else d.heardNow q.1 && (match d.heardOf q.1 with | some h => h.ports / 4 ^ q.2 % 4 == 1 | none => false)
  if d.link.cuts.any up then d.sendRoutes d.link.order else d

/-! ### Membership (R203, R206, R208, R211, R213) -/

/-- A slot is silent (R208): no HEART for its limit, counted from when the map came into force if it was never heard. -/
def Dev.silent (d : Dev) (m : StandMap) (s : Nat) : Bool :=
  let lim := d.standMs (if (mapEnt m s).kind = 3 then F.STAND_TIMING_SUB_DEAD_MS else F.STAND_TIMING_DEAD_MS)
  let last := match d.heardOf s with | some h => h.t | none => d.stand.since
  decide (last + lim ≤ d.t)

/-- The death of a slot in a map (R208): vacated, its lowest live standby promoted, the others re-covering. -/
def mapDeath (d : Dev) (dead : List Nat) (m : StandMap) (s : Nat) : StandMap :=
  let e := mapEnt m s
  let m1 := mapPut m s { e with kind := 4, cover := 0xFF }
  if e.kind ≠ 1 then m1
  else
    match (mapSlots m1 (fun x => x.kind == 2 && x.cover == s)).find? (fun t => !dead.contains t && (t == d.ownSlot || d.heardNow t)) with
    | none => m1
    | some p =>
      let m2 := mapPut m1 p { mapEnt m1 p with kind := 1, cover := 0xFF }
      { m2 with ents := m2.ents.map (fun x => if x.kind = 2 ∧ x.cover = s then { x with cover := p } else x) }

/-- The deaths of an evaluation, under one epoch change (R136, R208). -/
def Dev.deaths (d : Dev) : Dev :=
  match d.stand.map with
  | none => d
  | some m =>
    let dead := (assignedOf m).filter (fun s => s != d.ownSlot && d.silent m s)
    if dead.isEmpty || !d.quorumNow then d
    else
      let m' := dead.foldl (mapDeath d dead) m
      let d := d.onStand fun z => { z with
        tokHolder := match z.tokHolder with | some (h, t) => if dead.contains h then none else some (h, t) | none => none
        tokQueue := z.tokQueue.filter (fun q => !dead.contains q.2) }
      let d := d.epochChange m' (ofBits dead)
      dead.foldl (fun d s => (d.inc F.STAND_DEATHS_CNT).event 0x0D01 { elem := s, arg0 := d.get F.STAND_DEATHS_CNT }) d

/-- A map of STAND_MAP_SET is applied at the evaluation, after the deaths, under its own epoch change (R208, R220, R226). -/
def Dev.applyMapWait (d : Dev) : Dev :=
  match d.stand.mapWait with
  | none => d
  | some (k, m) =>
    let d := (d.onStand fun z => { z with mapWait := none, degGen := [] }).epochChange m 0
    let d := d.trimReset.put F.STAND_DEGRADED_MAP 0
    let d := if d.link.order.contains m.root then d else d.onLink fun z => { z with order := [m.root], closed := false, branches := [], cuts := [] }
    let d := if d.link.order.length = 1 then d.reroute else d
    d.completeK k St.ok 0 (d.get F.STAND_EPOCH_EPOCH)

/-- The slot that a re-admitted standby covers: the imaging slot that holds most of its old region, or the vacated slot (R211). -/
def readmitCover (d : Dev) (m : StandMap) (s : Nat) : Nat :=
  let e := mapEnt m s
  let overT (t : Nat) : Nat :=
    let x := mapEnt m t
    Nat.min (e.col0 + d.colsOf s) (x.col0 + d.colsOf t) - Nat.max e.col0 x.col0
  let best := (mapSlots m (fun x => x.kind == 1 && x.chan == e.chan)).foldl (fun (b : Option Nat) t =>
    if overT t = 0 then b else match b with | none => some t | some y => if overT y < overT t then some t else b) none
  best.getD s

/-- Bindings and admissions of an evaluation: the map they give (R203, R211). -/
def Dev.binds (d : Dev) (m : StandMap) : StandMap :=
  let now (h : Heard) : Bool := decide (d.t < h.t + d.standMs F.STAND_TIMING_DEAD_MS)
  let pass (h : Heard) : Bool := h.role == 0 || (h.role == 5 && h.clr == 2 && d.bit F.STAND_CTL_READMIT)
  (d.stand.heard.reverse.filter now).foldl (fun m h =>
    if h.subroot then
      if h.level = m.level + 1 ∧ (slotOfHeart m h.id h.level true).isNone then
        match (mapSlots m (fun e => e.kind == 3 && e.id == 0)).head? with
        | some s => mapPut m s { mapEnt m s with id := h.id }
        | none => m
      else m
    else if !pass h then m
    else
      match slotOfId m h.id with
      | some s =>
        if h.role = 5 ∧ (mapEnt m s).kind = 4 then mapPut m s { mapEnt m s with kind := 2, cover := readmitCover d m s } else m
      | none =>
        match (mapSlots m (fun e => (e.kind == 1 || e.kind == 2) && e.id == 0)).head? with
        | some s => mapPut m s { mapEnt m s with id := h.id }
        | none => m) m

/-- MEMBERSHIP_EVALUATION: the root's, every 1 ms at its HEART ticks (R208). -/
def membership (d : Dev) : Dev :=
  if d.t % 100000 ≠ 0 then d
  else if !d.inStand || !d.isRoot then d.applyMapWait
  else if d.stand.quiet then d
  else
    let d := d.standLive
    let d := (d.deaths).applyMapWait.relist
    match d.stand.map with
    | some m => if d.quorumNow ∧ d.binds m ≠ m then d.epochChange (d.binds m) 0 else d
    | none => d

/-- MEMBERSHIP_EVALUATION. -/
def execMembershipEvaluation (s : State) : Host.Outcome State Fault Refusal := .next (s.onDev membership)

/-- MAP_REPEAT: the root repeats the map in force every 100 ms (R209). -/
def mapRepeat (d : Dev) : Dev :=
  match d.stand.map with
  | some m =>
    if d.inStand ∧ d.isRoot ∧ d.stand.lastMapT + 100 * msT ≤ d.t ∧ ¬ d.stand.quiet then
      d.sendMap m (d.get F.STAND_EPOCH_EPOCH) (d.get F.STAND_MAP_VER_VER)
    else d
  | none => d

/-- MAP_REPEAT. -/
def execMapRepeat (s : State) : Host.Outcome State Fault Refusal := .next (s.onDev mapRepeat)

/-! ### MAP_RECEIVE (R203, R209, R210, R227) -/

/-- A complete map of the parent stand tells a sub-stand root its slot (R227). -/
def parentOf (d : Dev) (m : StandMap) (epoch : Nat) : Option ParentSt :=
  let sid := d.get F.STAND_SID_ID
  if d.inStand ∧ d.isRoot ∧ d.get F.LINK_HP_STAT_MODE_ACT = 1 ∧ sid ≠ 0 ∧ d.get F.STAND_STAT_LEVEL = m.level + 1 then
    (mapSlots m (fun e => e.kind == 3 && e.id == sid)).head?.map (fun s => ⟨epoch, s, (mapEnt m s).wofs, (mapEnt m s).chan, m.level⟩)
  else none

/-- A map with all 33 flits is taken if it is newer than the one in force, or if a stand of one hears its root (R203, R209). -/
def Dev.adoptMap (d : Dev) (src : Nat) (x : MapRx) (h : Nat × Nat × Nat × Nat) : Dev :=
  let m : StandMap := ⟨h.1, h.2.1, h.2.2.2, (List.range 32).map (fun s => (assoc x.ents s).getD MapEnt.empty)⟩
  let e := h.2.2.1
  match parentOf d m e with
  | some q => d.onStand fun z => { z with parent := some q, mapRx := none }
  | none =>
    let own := d.get F.STAND_EPOCH_EPOCH
    if !d.bit F.STAND_CTL_EN then d.onStand fun z => { z with mapRx := none }
    else if !d.inStand then
      if src = m.root then
        let d := d.takeMap m e x.ver
        if d.get F.STAND_STAT_ROLE = 5 then d.revenant e else d
      else d.onStand fun z => { z with mapRx := none }
    else if d.isRoot then d.onStand fun z => { z with mapRx := none }
    else if later32 e own ∨ (e = own ∧ d.stand.clearing ∧ (x.ver ≠ d.get F.STAND_MAP_VER_VER ∨ d.stand.map ≠ some m)) then
      let mine (m : StandMap) : Option (Nat × MapEnt) := (slotOfId m d.selfId).map (fun s => (s, mapEnt m s))
      let was := d.stand.clearing
      let named := d.stand.map.bind mine ≠ mine m
      let d := if was ∧ named then (d.onStand fun z => { z with clearing := false }).put F.STAND_STAT_ROLE 0 else d
      let d := d.takeMap m e x.ver
      if d.get F.STAND_STAT_ROLE = 5 ∧ ¬ was then d.revenant e
      else if d.get F.STAND_STAT_ROLE = 5 then d.onStand fun z => { z with clearing := true }
      else if was then d.put F.STAND_STAT_CLR_TEST 0
      else d
    else d.onStand fun z => { z with mapRx := none }

/-- MAP_RECEIVE: a header or an entry of a map; flits of another VERSION start the collection again. -/
def mapReceive (fl : Flit) (d : Dev) : Dev :=
  let b := fl.payload
  let sub := leAt b 0 1
  if 1 < sub then d
  else
    let ver := leAt b (if sub = 0 then 8 else 2) 2
    let x := match d.stand.mapRx with | some x => if x.ver = ver then x else ⟨ver, none, []⟩ | none => ⟨ver, none, []⟩
    let x : MapRx :=
      if sub = 0 then { x with hdr := some (leAt b 2 1, leAt b 3 1, leAt b 4 4, leAt b 12 8) }
      else { x with ents := (leAt b 1 1, entOf (slice b 4 24)) :: x.ents.filter (fun q => q.1 != leAt b 1 1) }
    let d := d.onStand fun z => { z with mapRx := some x }
    match x.hdr with
    | some h => if (List.range 32).all (fun s => x.ents.any (fun q => q.1 == s)) then d.adoptMap fl.src x h else d
    | none => d

/-- MAP_RECEIVE. -/
def execMapReceive (fl : Flit) (s : State) : Host.Outcome State Fault Refusal := .next (s.onDev (mapReceive fl))

/-! ### Failover (R214, R215) and resumption (R327) -/

/-- The channels in use at the root. -/
def Dev.usedChans (d : Dev) : List Nat := (List.range 16).filter (fun c => d.chanUsed c)

/-- Every listed neighbour's newest HEART reports its root silent. -/
def Dev.neighboursSilent (d : Dev) : Bool :=
  (List.range 3).all (fun p =>
    !d.portListed p || (p == 2 && d.get F.LINK_HP_STAT_MODE_ACT == 1) ||
    (match d.stand.heard.find? (fun h => h.id == d.get (F.LINK_P_NBR_ID.at p)) with | some h => h.flags.testBit 3 | none => false))

/-- TAKEOVER: at one of the deputy's own HEART ticks. -/
def takeover (d : Dev) : Dev :=
  match d.stand.map with
  | none => d
  | some m =>
    let silent := decide ((d.stand.lastRoot.getD 0) + d.standMs F.STAND_TIMING_DEAD_MS ≤ d.t)
    if d.inStand ∧ d.get F.STAND_STAT_ROLE = 2 ∧ d.t % 100000 = 0 ∧ silent ∧ d.neighboursSilent ∧ d.quorumNow ∧ ¬ d.stand.quiet then
      let me := d.ownSlot
      let old := mapEnt m m.root
      let m := mapPut m m.root { old with kind := 4, cover := 0xFF }
      let own := mapEnt m me
      let m := { mapPut m me { own with flags := own.flags / 2 * 2 } with root := me }
      let d := d.epochChange m 0
      let d := d.sendRoutes (turned d.link.order me)
      let d := (d.putBit F.LINK_TS_STAT_FOLLOWING false).putBit F.LINK_TS_STAT_HOLDOVER false
      let d := d.onLink fun z => { z with slew := 0, lastTime := none, holdT := none }
      let d := (d.inc F.STAND_TAKEOVERS_CNT).event 0x0D03 { elem := me, arg0 := d.get F.STAND_EPOCH_EPOCH }
      d.onStand fun z => { z with resv := none, tokHolder := none, tokQueue := [], contChans := d.usedChans }
    else d

/-- TAKEOVER. -/
def execTakeover (s : State) : Host.Outcome State Fault Refusal := .next (s.onDev takeover)

/-- ROOT_RESUME: a module stored as ROOT_SLOT, 100 ms after its first port came UP, under the stored epoch (R327). -/
def rootResume (d : Dev) : Dev :=
  match d.stand.map, d.stand.upT with
  | some m, some t =>
    if d.stand.quiet ∧ d.get F.STAND_STAT_ROLE = 1 ∧ t + 100 * msT ≤ d.t then
      let d := d.onStand fun z => { z with quiet := false, since := d.t }
      let d := d.sendRoutes (turned d.link.order d.ownSlot)
      d.sendMap m (d.get F.STAND_EPOCH_EPOCH) (d.get F.STAND_MAP_VER_VER)
    else d
  | _, _ => d

/-- ROOT_RESUME. -/
def execRootResume (s : State) : Host.Outcome State Fault Refusal := .next (s.onDev rootResume)


/-- CHANNEL_STATE at the root: every 1 ms for each channel in use (R215). -/
def channelSend (d : Dev) : Dev :=
  if d.inStand && d.isRoot && d.t % 100000 == 0 then
    d.usedChans.foldl (fun d c =>
      let x := d.chan c
      d.bcast 4 3 (ctrl 0x0A 0x3F 0 (leBytes 1 c ++ leBytes 8 x.index ++ leBytes 8 x.fin ++ leBytes 4 x.seq))) d
  else d

/-- CHANNEL_STATE at another module: the newest is kept for a takeover (R215). -/
def channelTake (fl : Flit) (d : Dev) : Dev :=
  let b := fl.payload
  if leAt b 0 1 ≠ 0x0A ∨ d.isRoot then d
  else d.putChan ⟨leAt b 4 1 % 16, leAt b 5 8, leAt b 13 8, leAt b 21 4⟩

/-- CHANNEL_STATE. -/
def execChannelState (rx : Option Flit) (s : State) : Host.Outcome State Fault Refusal :=
  .next (s.onDev (match rx with | none => channelSend | some fl => channelTake fl))

/-! ### Host commands on the stand -/

/-- STAND_MAP_SET (R202): refused unless the map makes this module its root and passes every check; applied at the next
evaluation. -/
def doStandMapSet (c : Cmd) (d : Dev) : Dev :=
  let m := mapOf c.data
  if !mapFields c.data then d.complete c St.badParam 0 0
  else if (mapEnt m m.root).id ≠ d.selfId ∨ !mapOk m d.colsOf ∨ !d.bit F.STAND_CTL_EN then d.complete c St.refused 0 0
  else
    match d.stand.mapWait with
    | some _ => d.complete c St.refused 0 0
    | none => d.onStand fun z => { z with mapWait := some (c.k, m) }

/-- ROLE_SET (R202, R209): KIND, COVER and FLAGS of one slot. -/
def doRoleSet (c : Cmd) (d : Dev) : Dev :=
  let s := c.p8 24
  if 31 < s ∨ 4 < c.p8 25 ∨ 7 < c.p8 27 then d.complete c St.badParam 0 0
  else
    match d.stand.map with
    | none => d.complete c St.refused 0 0
    | some m =>
      let m' := mapPut m s { mapEnt m s with kind := c.p8 25, cover := c.p8 26, flags := c.p8 27 }
      if !d.inStand ∨ !d.isRoot ∨ !mapOk m' d.colsOf then d.complete c St.refused 0 0
      else
        let d := d.epochChange m' 0
        d.ok c (d.get F.STAND_EPOCH_EPOCH)

/-- STAND_QUERY (R201, R252): the map, then the STAND registers. -/
def doStandQuery (c : Cmd) (s : State) : State :=
  let d := s.dev
  let regs := (List.range 128).flatMap (fun i => leBytes 4 (d.reg (0x1C000 + 4 * i)).toNat)
  (s.returnData c (d.mapImage ++ regs)).onDev (fun d => d.ok c 1344)

/-- STAND_CNT_CLR (R26). -/
def execStandCntClr (s : State) : Host.Outcome State Fault Refusal :=
  .next (s.onDev (fun d => d.clearAll [F.STAND_DEATHS_CNT, F.STAND_REVENANT_CNT, F.STAND_TAKEOVERS_CNT, F.STAND_EPOCH_CHG_CNT,
    F.STAND_MERGE_LATE_CNT, F.STAND_MERGE_OVF_CNT, F.STAND_MERGE_DUP_CNT, F.STAND_MERGE_INCOMP_CNT]))

/-! ### The proof token and the glade relay (R133, R136, R217) -/

/-- The root grants the token in order of request, the lower slot first between requests of one tick (R136). -/
def Dev.tokenGrant (d : Dev) : Dev :=
  if d.get F.STAND_STAT_ROLE ≠ 1 ∨ d.stand.tokHolder.isSome then d
  else
    let old := d.stand.tokQueue.filter (fun q => decide (q.1 < d.t))
    let best := old.foldl (fun (b : Option (Nat × Nat)) q => match b with
      | none => some q
      | some x => if q.1 < x.1 ∨ (q.1 = x.1 ∧ q.2 < x.2) then some q else b) none
    match best with
    | none => d
    | some q =>
      let d := d.onStand fun z => { z with tokHolder := some (q.2, d.t), tokQueue := z.tokQueue.filter (fun x => x.2 != q.2) }
      if q.2 = d.ownSlot then d.onProof fun z => { z with token := true }
      else d.bcast 4 3 (ctrl 0x09 q.2 0 (leBytes 1 1 ++ leBytes 1 q.2))

/-- A request reaches the root; a repeat changes nothing. -/
def Dev.tokenAsk (d : Dev) (s : Nat) : Dev :=
  if d.stand.tokQueue.any (fun q => q.2 == s) || (match d.stand.tokHolder with | some h => h.1 == s | none => false) then d
  else d.onStand fun z => { z with tokQueue := z.tokQueue ++ [(d.t, s)] }

/-- A waiting module asks, and repeats its request every 10 ms (R217). -/
def Dev.tokenWait (d : Dev) : Dev :=
  if !d.inStand || !d.bit F.PROOF_STAT_TOKEN_WAIT then d.onStand fun z => { z with tokReqT := none }
  else if d.get F.STAND_STAT_ROLE = 1 then d.tokenAsk d.ownSlot
  else if match d.stand.tokReqT with | some t => decide (t + 10 * msT ≤ d.t) | none => true then
    (d.toRoot 4 3 (ctrl 0x09 (d.get F.STAND_ROLES_ROOT) 0 (leBytes 1 0 ++ leBytes 1 d.ownSlot))).onStand fun z => { z with tokReqT := some d.t }
  else d

/-- TOKEN: a request or a return at the root, a grant at the member it names. -/
def tokenFlit (fl : Flit) (d : Dev) : Dev :=
  let b := fl.payload
  let s := leAt b 5 1
  if leAt b 0 1 ≠ 9 then d
  else
    match leAt b 4 1 with
    | 0 => if d.isRoot then d.tokenAsk s else d
    | 1 => if !d.isRoot ∧ leAt b 1 1 = d.ownSlot then (d.onProof fun z => { z with token := true }) else d
    | _ =>
      if d.isRoot then
        (d.onStand fun z => { z with tokHolder := match z.tokHolder with | some h => if h.1 = s then none else some h | none => none })
      else d

/-- TOKEN. -/
def execToken (fl : Flit) (s : State) : Host.Outcome State Fault Refusal := .next (s.onDev (tokenFlit fl))

/-- TOKEN_WITHDRAW: a grant that the holder's HEART has not shown within 100 ms (R217). -/
def tokenWithdraw (d : Dev) : Dev :=
  match d.stand.tokHolder with
  | some (s, t) =>
    let shown := match d.heardOf s with | some h => h.flags.testBit 2 && decide (t ≤ h.t) | none => false
    if d.isRoot && s != d.ownSlot && decide (t + 100 * msT ≤ d.t) && !shown then d.onStand fun z => { z with tokHolder := none } else d
  | none => d

/-- TOKEN_WITHDRAW. -/
def execTokenWithdraw (s : State) : Host.Outcome State Fault Refusal := .next (s.onDev tokenWithdraw)

/-- GLADE_RELAY at the root: its state on a change, and again every 10 ms (R133, R217). -/
def gladeSend (d : Dev) : Dev :=
  let o := d.bit F.PROOF_GLADE_STAT_OPEN
  if d.inStand ∧ d.isRoot ∧ (o ≠ d.stand.gladeSent ∨ d.stand.gladeSentT + 10 * msT ≤ d.t) then
    let t := d.get (if o then F.PROOF_GLADE_BEGIN_T else F.PROOF_GLADE_END_T)
    (d.bcast 4 3 (ctrl 0x08 0x3F 0 (leBytes 1 (b2n o) ++ leBytes 8 t))).onStand fun z => { z with gladeSent := o, gladeSentT := d.t }
  else d

/-- GLADE_RELAY at a member: the relayed window changes at the root's tick (R133). -/
def gladeTake (fl : Flit) (d : Dev) : Dev :=
  let b := fl.payload
  let o := leAt b 4 1 == 1
  if leAt b 0 1 ≠ 8 ∨ d.isRoot then d
  else
    let t := leAt b 5 8
    (if o then d.relayBegin t else d.relayEnd t).gladeEval

/-- GLADE_RELAY. -/
def execGladeRelay (rx : Option Flit) (s : State) : Host.Outcome State Fault Refusal :=
  .next (s.onDev (match rx with | none => gladeSend | some fl => gladeTake fl))

end Sys2Proof.Machine
end

