-- ==== Sys2Proof/Machine/Group.lean ====
section
/-! DEFINITION. Group commands: prepare, vote, commit, done, and the relay of critical commands (R216 to R220, R228, R259,
R260). -/

namespace Sys2Proof.Machine

/-- NOP: the low word of the timebase (R252). -/
def doNop (c : Cmd) (d : Dev) : Dev := d.ok c (d.t % 2 ^ 32)

/-- The local effect of a command that other slots may be given, by opcode, with the commit time, coordinate and generation
a group commit carries. -/
def applyLocal (c : Cmd) (tc x : Nat) (g : Option Nat) (s : State) : State :=
  let dev (f : Cmd → Dev → Dev) : State := s.onDev (f c)
  match c.op with
  | 0x0000 => dev doNop
  | 0x0001 => dev doStartImaging
  | 0x0002 => dev doStopImaging
  | 0x0003 => dev doAcqStage
  | 0x0004 => dev (doAcqCommit tc g)
  | 0x0005 => dev (doProfileSelect x)
  | 0x0006 => dev doGladeDeclare
  | 0x0007 => dev doProofRequest
  | 0x0008 => dev doSnapshot
  | 0x0009 => dev doFrameCapture
  | 0x000B => dev doAuxSeqLoad
  | 0x000C => dev doAuxCalZero
  | 0x000D => dev doAuxCalFull
  | 0x000E => dev doDomainSet
  | 0x000F => dev doSelftest
  | 0x0010 => dev doMarginPlanRun
  | 0x8001 => doPlateWrite c s
  | 0x8002 => doPlateCommit c s
  | 0x8003 => dev doCurveWrite
  | 0x8004 => dev doProfileDefine
  | 0x8005 => dev doStippleEdit
  | 0x8006 => doFactoryRestore c s
  | 0x8009 => dev doKeyImport
  | 0x800A => dev doKeyRetire
  | 0x800B => dev doFwStage
  | 0x800C => dev (doFwSwitch tc)
  | 0x800F => dev doRepairPolicy
  | _ => dev (fun c d => d.complete c St.badOpcode 0 0)

/-- A command run as this module's part of transaction `txn`. -/
def State.runPart (s : State) (entry data : List Byte) (txn tc x : Nat) (g : Option Nat) : State :=
  let c : Cmd := ⟨s.dev.sec.nextK, slice entry 0 64, 0xFFFF, .group txn, data, true, true, true, s.dev.t⟩
  applyLocal c tc x g (s.onDev (fun d => d.onSec fun z => { z with cmds := z.cmds ++ [c], nextK := z.nextK + 1 }))

/-- The window columns an entry would give this module: an ACQ_COMMIT's set, else those in force. -/
def colsAfter (d : Dev) (entry : List Byte) : Nat :=
  if leAt entry 0 2 = 0x0004 then (d.setOf (leAt entry 24 1 % 4)).cols else d.fpa.set.cols

/-- An ACQ_COMMIT's change of the window keeps R202. -/
def widthOk (d : Dev) (entry : List Byte) : Bool :=
  let n := colsAfter d entry
  match d.stand.map, d.selfEnt with
  | some m, some e => n == d.fpa.set.cols || e.kind != 1 || mapOk m (fun s => if s = d.ownSlot then n else d.colsOf s)
  | _, _ => true

/-- The check of a target (R218): 0, or the status it refuses with. It is the check the command's own effect makes, seen on a
copy of the state that is then dropped. -/
def prepareCheck (s : State) (entry data : List Byte) : Nat :=
  let d := s.dev
  let c : Cmd := ⟨d.sec.nextK, slice entry 0 64, 0xFFFF, .group 0x10000, data, true, true, true, d.t⟩
  match (preCheck d c).or (paramFail d c) with
  | some st => st
  | none =>
    if !widthOk d entry then St.refused
    else
      let x := if c.f 32 8 = 0 then 0 else wadd (c.f 32 8) (-d.wOfs)
      match (s.runPart entry data 0x10000 0 x none).dev.sec.parts.find? (fun p => p.1 == 0x10000) with
      | some p => p.2.1
      | none => 0

/-- This module's vote on a command (R216, R218). -/
def voteOf (s : State) (entry data : List Byte) : Vote :=
  let d := s.dev
  let st := prepareCheck s entry data
  ⟨d.ownSlot, st == 0, st, d.get F.FPA_GEN_CUR_GEN, d.get F.FPA_GEN_PEND_GEN, wadd d.reach d.wOfs, colsAfter d entry⟩

/-- Transaction numbers match: a critical command's targets know the low byte only (R260). -/
def txnEq (entry : List Byte) (a b : Nat) : Bool := if 0x8000 ≤ leAt entry 0 2 then a % 256 == b % 256 else a == b

/-! ### DONE (R218, R220) -/

/-- A slot's DONE at the root: it has succeeded, or failed with a status; a success clears its DEGRADED bit. -/
def Dev.doneIn (d : Dev) (slot txn status : Nat) : Dev :=
  match d.stand.group with
  | some g =>
    if g.phase ≠ 2 ∨ ¬ txnEq g.entry g.txn txn ∨ ¬ g.mask.testBit slot ∨ (g.okMap ||| g.failMap).testBit slot then d
    else if status = 0 then
      let g := { g with okMap := g.okMap ||| 2 ^ slot }
      let d := d.onStand fun z => { z with group := some g, degGen := z.degGen.filter (fun q => q.1 != slot) }
      ((d.put F.STAND_DEGRADED_MAP (setB (d.get F.STAND_DEGRADED_MAP) slot false)).put F.STAND_GRP_OK_MAP g.okMap).groupCheck
    else d.groupFail (2 ^ slot) status
  | none => d

/-- Answer DONE: to the root, or in this module's own part at the root. -/
def Dev.sendDone (d : Dev) (txn status : Nat) : Dev :=
  if d.isRoot then d.doneIn d.ownSlot txn status
  else d.toRoot 4 3 (ctrl 0x07 (d.get F.STAND_ROLES_ROOT) txn (leBytes 1 status ++ leBytes 8 d.t ++ leBytes 4 (d.get F.FPA_GEN_CUR_GEN)))

/-- Effects that waited are done, or failed: T_eff or the boundary differs from the promise (R219). -/
def Dev.flushDones (d : Dev) : Dev :=
  d.sec.parts.foldl (fun d p =>
    let d := d.onSec fun z => { z with parts := z.parts.filter (fun q => q != p) }
    match d.stand.dones.find? (fun x => x.txn == p.1) with
    | none => d
    | some x =>
      let d := d.onStand fun z => { z with dones := z.dones.filter (fun y => y.txn != p.1) }
      let late := x.op == 0x0004 && (x.bad || (x.bnd != 0 && x.bnd != d.get F.FPA_FRAME_T_T))
      d.sendDone p.1 (if p.2.1 = 0 ∧ late then St.refused else p.2.1)) d

/-- DONE of a self-test, a Margin Plan run or a capture follows its start, as their completions lie far beyond any COMMIT_MS
(R217, R218; DESIGN CHOICE, log 87). -/
def doneAtStart (op : Nat) : Bool := op == 0x0009 || op == 0x000F || op == 0x0010

/-- A COMMIT carried out (R218, R219): `x` is a stand coordinate. DONE follows when the target's own part completes. -/
def State.applyCommit (s : State) (entry data : List Byte) (txn tc x gen : Nat) : State :=
  let op := leAt entry 0 2
  let s := s.runPart entry data txn tc (wadd x (-s.dev.wOfs)) (if op = 0x0004 then some gen else none)
  s.onDev (fun d =>
    match d.sec.parts.find? (fun p => p.1 == txn) with
    | some p => (d.onSec fun z => { z with parts := z.parts.filter (fun q => q.1 != txn) }).sendDone txn p.2.1
    | none =>
      if doneAtStart op then d.sendDone txn 0
      else
        let bad := match d.fpa.pend with | some q => q.teff != tc | none => false
        d.onStand fun z => { z with dones := z.dones ++ [⟨txn, op, tc, d.predicted, bad⟩] })

/-! ### Deciding at the root (R218, R219) -/

/-- The later of two generations. -/
def laterGen (a b : Nat) : Nat := if a = 0 then b else if b = 0 then a else if later32 b a then b else a

/-- The generation after one. -/
def nextGen (g : Nat) : Nat := if g = 0xFFFFFFFF then 1 else g + 1

/-- T_c for a web coordinate X from tick `ts` (R219), or none where the root refuses. -/
def tcAtWeb (d : Dev) (ts x : Nat) : Option Nat :=
  let vn := d.web.vNum
  let vd : Int := (d.web.vDen : Nat)
  if vn ≤ 0 ∨ vd = 0 then none
  else
    let w := wadd (wadd (d.get F.WEB_POS_W) d.wOfs) (rdiv (vn * 100000) vd)
    let dx := sdiff w x
    let n := (-((-(dx * vd)) / vn)).toNat
    if dx < 0 ∨ 1000000000 < 100000 + n then none else some (ts + 100000 + n)

/-- What a COMMIT carries (R219): T_c, a coordinate and a generation, or none where the root refuses. -/
def resolve (d : Dev) (entry : List Byte) (votes : List Vote) : Option (Nat × Nat × Nat) :=
  let ts := d.t
  let op := leAt entry 0 2
  let v := leAt entry 32 8
  if op = 0x0004 then
    let gen := nextGen (votes.foldl (fun a q => laterGen (laterGen a q.genCur) q.genPend) 0)
    if (leAt entry 25 1).testBit 0 then (tcAtWeb d ts v).map (fun t => (t, v, gen)) else some (Nat.max v (ts + 100000), 0, gen)
  else if op = 0x800C then some (Nat.max v (ts + 100000), 0, 0)
  else if op = 0x0005 then
    let r := votes.foldl (fun (b : Option Nat) q => match b with | none => some q.reach | some y => if 0 < sdiff y q.reach then some q.reach else b) none
    let reach := r.getD 0
    some (0, if v = 0 then wadd (d.selectX (wadd reach (-d.wOfs))) d.wOfs else v, 0)
  else some (0, 0, 0)

/-- COMMIT goes to the targets, and this module's own part runs (R218). -/
def State.groupCommit (s : State) (g : Group) (tc x gen : Nat) : State :=
  let g := { g with phase := 2, t0 := s.dev.t, tc := tc, x := x, gen := gen }
  let s := s.onDev (fun d =>
    let d := (d.onStand fun z => { z with group := some g, resv := none }).put F.STAND_GRP_STAT_PHASE 2
    d.bcast 4 3 (ctrl 0x05 0x3F g.txn (leBytes 8 tc ++ leBytes 8 x ++ leBytes 4 gen)))
  if g.mask.testBit s.dev.ownSlot then s.applyCommit g.entry g.data g.txn tc x gen else s

/-- Decide (R218): a refusal aborts; every vote in, the command is committed, or voted on to the parent (R228). -/
def State.groupDecide (s : State) : State :=
  match s.dev.stand.group with
  | some g =>
    if g.phase ≠ 1 then s
    else
      let bad := g.votes.filter (fun v => !v.ok)
      let low := bad.foldl (fun (b : Option Vote) v => match b with | none => some v | some y => if v.slot < y.slot then some v else b) none
      match low with
      | some v => s.onDev (fun d => d.groupAbort v.status (ofBits (bad.map (·.slot))))
      | none =>
        if !(bitsOf 32 g.mask).all (fun i => g.votes.any (fun v => v.slot == i)) then s
        else
          match g.up with
          | some up =>
            s.onDev (fun d =>
              let gc := g.votes.foldl (fun a q => laterGen a q.genCur) 0
              let gp := g.votes.foldl (fun a q => laterGen a q.genPend) 0
              let r := g.votes.foldl (fun (b : Option Nat) q => match b with | none => some q.reach | some y => if 0 < sdiff y q.reach then some q.reach else b) none
              (d.onStand fun z => { z with group := some { g with phase := 4, t0 := d.t } }).ctrlUp 0x04 up
                (voteBytes true 0 gc gp (wadd (r.getD 0) d.parentOfs) 0))
          | none =>
            match resolve s.dev g.entry g.votes with
            | some (tc, x, gen) => s.groupCommit g tc x gen
            | none => s.onDev (fun d => d.groupAbort 0x0F 0)
  | none => s

/-! ### Starting a group command (R213, R218, R259) -/

/-- A relayed entry (R259): KEY 7, CTR of the epoch and the relay tally, TAG under the stand key. -/
def retag (key entry data : List Byte) (ctr : Nat) : List Byte :=
  let e := slice entry 0 40 ++ [7] ++ slice entry 41 7 ++ leBytes 8 ctr
  e ++ cmdTag key (e ++ List.replicate 8 0) data

/-- One AUTH message (R259, R260). -/
def sendAuth (entry data : List Byte) (txn slot : Nat) (d : Dev) : Dev :=
  let op := leAt entry 0 2
  let d := (d.wake 106).inc F.SEC_RELAYED_CNT
  let msg (e : List Byte) : List Byte := leBytes 1 slot ++ leBytes 1 txn ++ [0, 0] ++ e ++ data
  let send (d : Dev) (m : List Byte) : Dev := d.bcastMsg 9 (chunks28 (m.length / 28 + 1) m)
  if op = 0x8009 ∨ op = 0x800A then send (d.tallyInc 8) (msg entry)
  else
    match d.keyOf 7 with
    | none => d
    | some k =>
      let d := d.tallyInc 8
      send d (msg (retag k.bytes entry data (d.get F.STAND_EPOCH_EPOCH * 2 ^ 32 + d.tally 8)))

/-- Why a critical command cannot be relayed: no stand key, or a failed relay tally (R259, R286). -/
def relayErr (d : Dev) (op : Nat) : Option Nat :=
  if op < 0x8000 then none
  else if d.tallyFailed 8 then some St.storeErr
  else if op = 0x8009 ∨ op = 0x800A then none
  else if (d.keyOf 7).isNone then some St.keyEmpty
  else none

/-- Prepare (R218): the targets are asked, and this module's own part votes at once. -/
def State.groupStart (s : State) (k up : Option Nat) (entry data : List Byte) (mask : Nat) : State :=
  let txn := (s.dev.get F.STAND_GRP_STAT_TXN + 1) % 65536
  let own := if mask.testBit s.dev.ownSlot then [voteOf s entry data] else []
  let resv : Option Resv := if own.any (·.ok) then some ⟨txn, entry, data, s.dev.t⟩ else none
  let g : Group := ⟨k, up, entry, data, txn, mask, 1, s.dev.t, own, 0, 0, [], 0, 0, 0⟩
  let s := s.onDev (fun d =>
    let d := (d.onStand fun z => { z with group := some g, resv := resv }).showGroup txn 1 0 0 0
    if 0x8000 ≤ leAt entry 0 2 then
      ((bitsOf 32 mask).filter (fun i => i != d.ownSlot)).foldl (fun d i => sendAuth entry data txn i d) d
    else d.bcastMsg 4 (ctrlMsg 0x03 0x3F txn (leBytes 4 mask ++ entry ++ data)))
  s.groupDecide

/-- A host command that names other slots (R213, R218): only a root with a quorum runs it. -/
def groupBegin (c : Cmd) (s : State) : State :=
  let d := s.dev
  if d.inStand && !d.isRoot then s.onDev (fun d => d.complete c St.badOpcode 0 0)
  else if !d.inStand || !d.quorumNow then s.onDev (fun d => d.complete c St.noQuorum 0 0)
  else
    match relayErr d c.op with
    | some st => s.onDev (fun d => d.complete c st 0 0)
    | none => s.groupStart (some c.k) none c.entry c.data c.slots

/-! ### The rows -/

/-- A vote goes to the root, and an accepted command is reserved (R217, R218). -/
def Dev.answerVote (d : Dev) (txn : Nat) (v : Vote) (entry data : List Byte) : Dev :=
  let d := if v.ok then d.onStand fun z => { z with resv := some ⟨txn, entry, data, d.t⟩ } else d
  d.toRoot 4 3 (ctrl 0x04 (d.get F.STAND_ROLES_ROOT) txn (voteBytes v.ok v.status v.genCur v.genPend v.reach v.cols))

/-- The parent's command runs as a group command of the sub-stand, its coordinate brought into it (R228). -/
def State.fromParent (s : State) (up : Nat) (entry data : List Byte) : State :=
  let d := s.dev
  let x := leAt entry 32 8
  let shift := leAt entry 0 2 = 0x0005 ∧ x ≠ 0 ∨ leAt entry 0 2 = 0x0004 ∧ (leAt entry 25 1).testBit 0
  let e := if shift then slice entry 0 32 ++ leBytes 8 (wadd x (-d.parentOfs)) ++ slice entry 40 24 else entry
  let refuse (st : Nat) : State := s.onDev (fun d =>
    d.ctrlUp 0x04 up (voteBytes false st (d.get F.FPA_GEN_CUR_GEN) (d.get F.FPA_GEN_PEND_GEN) 0 0))
  if d.stand.group.isSome then refuse St.busy
  else if !d.quorumNow then refuse St.noQuorum
  else
    match relayErr d (leAt entry 0 2) with
    | some st => refuse st
    | none => s.groupStart none (some up) e data (d.get F.STAND_ASSIGNED_MAP)

/-- PREPARE at a target: `data` is the message after its headers: slot mask, entry, indirect data (R216). -/
def prepareIn (fl : Flit) (data : List Byte) (s : State) : State :=
  let d := s.dev
  let txn := leAt fl.payload 2 2
  let mask := leAt data 0 4
  let entry := slice data 4 64
  let ind := data.drop 68
  if leAt fl.payload 0 1 ≠ 3 ∨ ¬ d.inStand then s
  else if d.isRoot then
    match d.stand.parent with
    | some q => if mask.testBit q.slot then s.fromParent txn entry ind else s
    | none => s
  else if mask.testBit d.ownSlot then
    let v := voteOf s entry ind
    s.onDev (fun d => d.answerVote txn v entry ind)
  else s

/-- PREPARE. -/
def execPrepare (fl : Flit) (data : List Byte) (s : State) : Host.Outcome State Fault Refusal := .next (prepareIn fl data s)

/-- AUTH_RECEIVE: a relayed critical command is checked against slot 7, KEY_IMPORT and KEY_RETIRE against their own slot
(R259, R260); the verdict is the vote. `data` is the message after its four header bytes. -/
def authIn (fl : Flit) (data : List Byte) (s : State) : State :=
  let d := s.dev
  let target := leAt fl.payload 0 1
  let txn := leAt fl.payload 1 1
  let entry := slice data 0 64
  let ind := data.drop 64
  let c : Cmd := ⟨d.sec.nextK, entry, 0xFFFF, .group txn, ind, true, true, true, d.t⟩
  let up := match d.stand.parent with | some q => d.isRoot && target == q.slot | none => false
  if !d.inStand || (d.isRoot && !up) || (!d.isRoot && target != d.ownSlot) then s
  else
    let own := c.op = 0x8009 ∨ c.op = 0x800A
    let r := critCheck d c (!own)
    let s := s.onDev (fun _ => r.1)
    match r.2 with
    | some st =>
      let v : Vote := ⟨d.ownSlot, false, st, d.get F.FPA_GEN_CUR_GEN, d.get F.FPA_GEN_PEND_GEN, wadd d.reach d.wOfs, d.fpa.set.cols⟩
      if up then s.onDev (fun d => d.ctrlUp 0x04 txn (voteBytes false st v.genCur v.genPend 0 0))
      else s.onDev (fun d => d.answerVote txn v entry ind)
    | none =>
      if up then s.fromParent txn entry ind
      else
        let v := voteOf s entry ind
        s.onDev (fun d => d.answerVote txn v entry ind)

/-- AUTH_RECEIVE. -/
def execAuthReceive (fl : Flit) (data : List Byte) (s : State) : Host.Outcome State Fault Refusal := .next (authIn fl data s)

/-- VOTE at the root (R218): one per slot; its window columns are kept. -/
def voteIn (fl : Flit) (s : State) : State :=
  let b := fl.payload
  match s.dev.stand.group with
  | some g =>
    if leAt b 0 1 ≠ 4 ∨ ¬ s.dev.isRoot ∨ g.phase ≠ 1 ∨ ¬ txnEq g.entry g.txn (leAt b 2 2) ∨ ¬ g.mask.testBit fl.src ∨
        g.votes.any (fun v => v.slot == fl.src) then s
    else
      let v : Vote := ⟨fl.src, leAt b 4 1 % 2 == 1, leAt b 5 1, leAt b 6 4, leAt b 10 4, leAt b 14 8, leAt b 22 2⟩
      (s.onDev (fun d => d.onStand fun z => { z with
        group := some { g with votes := g.votes ++ [v] }
        cols := if v.cols = 0 then z.cols else (v.slot, v.cols) :: z.cols.filter (fun q => q.1 != v.slot) })).groupDecide
  | none => s

/-- VOTE. -/
def execVote (fl : Flit) (s : State) : Host.Outcome State Fault Refusal := .next (voteIn fl s)

/-- PREP_TIMEOUT: a vote is missing after `PREP_MS` (R217, R218). -/
def prepTimeout (d : Dev) : Dev :=
  match d.stand.group with
  | some g =>
    if g.phase = 1 ∧ g.t0 + d.standMs F.STAND_TIMING_PREP_MS ≤ d.t then
      d.groupAbort 0 (ofBits ((bitsOf 32 g.mask).filter (fun i => !g.votes.any (fun v => v.slot == i && v.ok))))
    else d
  | none => d

/-- PREP_TIMEOUT. -/
def execPrepTimeout (s : State) : Host.Outcome State Fault Refusal := .next (s.onDev prepTimeout)

/-- COMMIT at a target that has voted to accept; a sub-stand root commits in its own stand (R218, R228). -/
def commitIn (fl : Flit) (s : State) : State :=
  let b := fl.payload
  let txn := leAt b 2 2
  let tc := leAt b 4 8
  let x := leAt b 12 8
  let gen := leAt b 20 4
  if leAt b 0 1 ≠ 5 then s
  else
    match s.dev.stand.group, s.dev.stand.resv with
    | some g, _ =>
      match g.up with
      | some up => if g.phase = 4 ∧ txnEq g.entry up txn then s.groupCommit g tc (wadd x (-s.dev.parentOfs)) gen else s
      | none => s
    | none, some r =>
      if txnEq r.entry r.txn txn then
        (s.onDev (fun d => d.onStand fun z => { z with resv := none })).applyCommit r.entry r.data txn tc x gen
      else s
    | none, none => s

/-- COMMIT. -/
def execCommit (fl : Flit) (s : State) : Host.Outcome State Fault Refusal := .next (commitIn fl s)

/-- ABORT at a target: its reservation is withdrawn; a sub-stand root aborts in its own stand. -/
def abortIn (fl : Flit) (d : Dev) : Dev :=
  let txn := leAt fl.payload 2 2
  if leAt fl.payload 0 1 ≠ 6 then d
  else
    let d := d.onStand fun z => { z with resv := match z.resv with | some r => if txnEq r.entry r.txn txn then none else some r | none => none }
    match d.stand.group with
    | some g =>
      match g.up with
      | some up =>
        if txnEq g.entry up txn ∧ g.phase ≠ 2 then (d.onStand fun z => { z with group := some { g with phase := 4 } }).groupAbort 0 0 else d
      | none => d
    | none => d

/-- ABORT. -/
def execAbort (fl : Flit) (s : State) : Host.Outcome State Fault Refusal := .next (s.onDev (abortIn fl))

/-- DONE at the root. -/
def doneRx (fl : Flit) (d : Dev) : Dev :=
  if leAt fl.payload 0 1 = 7 ∧ d.isRoot then d.doneIn fl.src (leAt fl.payload 2 2) (leAt fl.payload 4 1) else d

/-- DONE. -/
def execDone (fl : Flit) (s : State) : Host.Outcome State Fault Refusal := .next (s.onDev (doneRx fl))

/-- COMMIT_TIMEOUT (R217, R218): at the root slots without DONE fail `COMMIT_MS` after the COMMIT, or after the T_c it
carries; a voter that hears neither COMMIT nor ABORT withdraws its reservation. -/
def commitTimeout (d : Dev) : Dev :=
  let lim := d.standMs F.STAND_TIMING_COMMIT_MS
  let d := match d.stand.group with
    | some g =>
      if g.phase = 2 ∧ Nat.max g.t0 g.tc + lim ≤ d.t then d.groupFail (g.mask - (g.mask &&& (g.okMap ||| g.failMap))) 0
      else if g.phase = 4 ∧ g.t0 + lim ≤ d.t then d.groupAbort 0 0
      else d
    | none => d
  d.onStand fun z => { z with resv := match z.resv with | some r => if z.group.isNone ∧ r.t0 + lim ≤ d.t then none else some r | none => none }

/-- COMMIT_TIMEOUT. -/
def execCommitTimeout (s : State) : Host.Outcome State Fault Refusal := .next (s.onDev commitTimeout)

end Sys2Proof.Machine
end

