-- ==== Sys2Proof/Machine/Persist.lean ====
section
/-! DEFINITION. Writes to the Keep and to flash as they end, and the boot configuration (R77, R204, R278, R280 to R284, R325). -/

namespace Sys2Proof.Machine

/-! ### The Keep (R280 to R284) -/

/-- The module state as it stands (R281). -/
def Dev.modState (d : Dev) : SavedSt :=
  { refs := d.burin.refs, substs := d.fpa.substs, sliceTrim := d.fpa.sliceTrim, blindExcl := d.fpa.blindNext, diodes := d.stage.perm
    stageTrims := d.stage.trims, map := d.stand.map, aside := d.health.aside, trims := d.health.trims, failed := d.health.failedElems ++ (d.health.laneNext.filter (fun q => q.2)).map (fun q => (3, q.1))
    plans := d.health.plans, cals := d.aux.cals, skim := d.health.skim
    curveAfter := d.burin.curveAfter, prov := d.saved.prov }

/-- Register words of the module state: map version and epoch (R204), Margin Plan results, erased wires (R298). -/
def Dev.modRegs (d : Dev) : List (Nat × Word) :=
  ([R.STAND_EPOCH, R.STAND_MAP_VER, R.HEALTH_MP_LAST, R.HEALTH_MP_LIFE, R.HEALTH_MP_LIMIT, R.HEALTH_MP_TINT] ++
    (List.range 80).map (fun g => R.FPA_CGMAP + 4 * g) ++
    (List.range 16).map (fun i => R.HEALTH_MP_MARGIN + 4 * i) ++
    (List.range 4).flatMap (fun c => [R.MEM_QDR_ERASE + 0x80 * c, R.MEM_QDR_ERASE + 0x80 * c + 4])).map (fun o => (o, d.reg o))

/-- Register words put into the Keep. -/
def Dev.keepRegs (d : Dev) (l : List (Nat × Word)) : Dev :=
  d.onStore fun z => { z with kept := l ++ z.kept.filter (fun q => !l.any (fun x => x.1 == q.1)) }

/-- Show a key slot. -/
def Dev.showKey (d : Dev) (slot : Nat) : Dev :=
  match d.keyOf slot with
  | some x => (d.putBit (F.SEC_KEY_PRESENT.at slot) true).put (F.SEC_KEY_ROLE.at slot) x.role
  | none => (d.putBit (F.SEC_KEY_PRESENT.at slot) false).put (F.SEC_KEY_ROLE.at slot) 0

/-- Replace or erase the key of a slot. -/
def Dev.setKey (d : Dev) (slot : Nat) (x : Option Key) : Dev :=
  (d.onSec fun z => { z with keys := x.toList ++ z.keys.filter (fun y => y.slot != slot) }).showKey slot

/-- What a journalled write does once its commit point is reached: the command waiting for it completes (R252, R282). -/
def commitKeep (w : KeepWhat) (d : Dev) : Dev :=
  match w with
  | .user k _ _ => d.completeK k St.ok 0 0
  | .key k x => (d.setKey x.slot (some x)).completeK k St.ok 0 0
  | .keyErase k slot => (d.setKey slot none).completeK k St.ok 0 0
  | .auxCal k idx z g =>
    let c : AuxCal := ⟨idx, z, g, d.t⟩
    let last := (d.aux.cals.reverse.find? (fun x => x.idx == idx)).toList
    let d := d.onAux fun y => { y with cals := y.cals.filter (fun x => x.idx != idx) ++ last ++ [c] }
    (d.onSaved fun y => { y with cals := d.aux.cals }).showCal.completeK k St.ok 0 0
  | .regs l => d.keepRegs l
  | .modState => (((d.onSaved fun _ => d.modState).keepRegs d.modRegs)).releaseHeld
  | .event _ _ => d

/-- One target page of a journalled write (R282): the user area is written page by page. -/
def targetPage (w : KeepWhat) (i : Nat) (s : State) : State :=
  match w with
  | .user _ a bs => s.wrKeep (a + 64 * i) (slice bs (64 * i) 64)
  | _ => s

/-- A journalled write that cannot reach its commit point ends the command it served with STORE_ERR (R251). -/
def keepLost (w : KeepWhat) (d : Dev) : Dev :=
  match w with
  | .user k _ _ => d.completeK k St.storeErr 0 0
  | .key k _ => d.completeK k St.storeErr 0 0
  | .keyErase k _ => d.completeK k St.storeErr 0 0
  | .auxCal k _ _ _ => d.completeK k St.storeErr 0 0
  | .modState => d.releaseHeld
  | _ => d

/-- KEEP_PAGE_WRITE_DONE: one page of the write at the head of the order is written, or fails (R280, R282, R283). A page
before the commit point is tried twice again; one after it, and an event page, until it is written (R251; DESIGN CHOICE,
log 89). -/
def keepPageDone (ok : Bool) (s : State) : State :=
  match s.dev.store.keepQ with
  | [] => s
  | j :: rest =>
    let put (q : List KeepJob) (s : State) : State :=
      s.onDev (fun d => (d.onStore fun z => { z with keepQ := q }).putBit F.STORE_KEEP_STAT_QUEUED (!q.isEmpty))
    if !ok then
      if 0 < j.pre ∧ 2 ≤ j.fails then (put rest s).onDev (keepLost j.what)
      else put ({ j with fails := j.fails + 1 } :: rest) s
    else if 0 < j.pre then
      let s := put ({ j with pre := j.pre - 1, fails := 0 } :: rest) s
      if j.pre = 1 then s.onDev (commitKeep j.what) else s
    else
      let pages := match j.what with | .user _ _ bs => bs.length / 64 | _ => 0
      let s := if 1 < j.post then targetPage j.what (pages + 1 - j.post) s else s
      if j.post ≤ 1 then put rest s else put ({ j with post := j.post - 1 } :: rest) s

/-- KEEP_PAGE_WRITE_DONE. -/
def execKeepPageWriteDone (ok : Bool) (s : State) : Host.Outcome State Fault Refusal := .next (keepPageDone ok s)

/-- The groups of an event page that a power loss leaves old, new or torn (R283, R284): its bytes and its torn groups. -/
def cutEvent (idx page : Nat) (old new : List Byte) : List Byte × List Nat :=
  let o := if old.isEmpty then List.replicate 64 keepDef else old
  let out (g : Nat) : Nat := Config.tornGroup idx g
  let same (g : Nat) : Bool := slice o (8 * g) 8 == slice new (8 * g) 8
  ((List.range 8).flatMap (fun g => if same g || out g == 0 then slice o (8 * g) 8 else slice new (8 * g) 8),
   ((List.range 8).filter (fun g => !same g && out g != 0 && out g != 1)).map (fun g => 0x18000 + 64 * page + 8 * g))

/-- A power loss or reset ends the writes to the Keep (R284): a journalled write past its commit point stays for the replay,
the direct write in progress is cut, and what had not begun is as if never asked. -/
def cutKeep (d : Dev) : Dev :=
  let rest := (d.store.keepQ.drop 1)
  let old (l : List KeepJob) (d : Dev) : Dev := l.foldl (fun d j => match j.what with
    | .event p b => d.onHealth fun z => { z with evPages := Tab.ins z.evPages p b }
    | _ => d) d
  let d := old rest d
  match d.store.keepQ.head? with
  | none => d
  | some j =>
    match j.what with
    | .event p b =>
      let x := cutEvent d.freeIdx p b (Tab.get [] d.health.evPages p)
      let d := (d.onHealth fun z => { z with evPages := Tab.ins z.evPages p x.1 }).fresh
      d.onStore fun z => { z with keepQ := [], keepTorn := x.2 ++ z.keepTorn.filter (fun a => a / 64 != (0x18000 + 64 * p) / 64) }
    | _ => d.onStore fun z => { z with keepQ := if j.pre = 0 then [j] else [] }

/-- KEEP_REPLAY at start-up (R282): a committed write is done again. -/
def replayKeep (s : State) : State :=
  match s.dev.store.keepQ with
  | [] => s
  | j :: _ =>
    let s := match j.what with | .user _ a bs => s.wrKeep a bs | _ => s
    s.onDev (fun d =>
      let d := d.onStore fun z => { z with keepQ := [] }
      ((d.putBit F.STORE_KEEP_STAT_QUEUED false).putBit F.STORE_KEEP_STAT_REPLAYED true).event 0x0503 {})

/-! ### Flash (R77, R278, R325) -/

/-- The bank no longer holds the image it was shipped with. -/
def Dev.fwNotShip (d : Dev) (b : Nat) : Dev := d.onSec fun z => { z with fwShip := z.fwShip.set b false }

/-- What a flash write leaves when it succeeds. -/
def flashOk (w : FlashWhat) (s : State) : State :=
  let d := s.dev
  match w with
  | .plate _ _ _ => s
  | .stipple k i seq =>
    let s := (s.qdrToFlash stAddr 0x280000 (stFlash i)).writeCheck (stFlash i) 0x280000 (stFlash i + 0x280000)
    s.onDev (fun d =>
      let d := (d.onStore fun z => { z with badSlots := z.badSlots.filter (· != (1, i)) }).putSlot 6 0 i
      let d := d.putSlot 7 i seq
      match k with | some k => d.completeK k St.ok 0 0 | none => d)
  | .curve _ i bs => (s.wrFlash (curveFlash i) bs).onDev (fun d => d.onStore fun z => { z with badSlots := z.badSlots.filter (· != (2, i)) })
  | .geometry bs =>
    let n := d.nextSlot 3 0
    ((s.eraseFlash (geoFlash n) 0x80000).wrFlash (geoFlash n) bs).onDev (fun d => d.putSlot 3 0 n)
  | .profile k id bs =>
    let n := d.nextSlot 4 id
    let b := slice bs 0 1600
    ((s.eraseFlash (profFlash id n) 0x4000).wrFlash (profFlash id n) (b ++ leBytes 4 (crc32c b))).onDev (fun d =>
      (d.putSlot 4 id n).completeK k St.ok 0 0)
  | .boot bs =>
    let n := d.nextSlot 5 0
    ((s.eraseFlash (bootFlash n) 0x80000).wrFlash (bootFlash n) bs).onDev (fun d =>
      (((d.putSlot 5 0 n).putBit F.SYS_BOOT_STAT_BUSY false).putBit F.SYS_BOOT_STAT_VALID true).put F.SYS_BOOT_STAT_SLOT n)
  | .bootClear =>
    (s.eraseFlash (bootFlash 0) 0x100000).onDev (fun d =>
      ((d.onStore fun z => { z with lastSlot := z.lastSlot.filter (fun x => x.1 != 5) }).putBit F.SYS_BOOT_STAT_VALID false).put
        F.SYS_BOOT_STAT_SLOT 0)
  | .fwChunk k b o bs last =>
    let s := if o = 0 then (s.eraseFlash (fwFlash b) 0x1000000).onDev (fun d => d.fwNotShip b) else s
    let s := s.wrFlash (fwFlash b + o) bs
    s.onDev (fun d =>
      if !last then d.completeK k St.ok 0 0
      else if fwValid s.mem d b (o + bs.length) then
        ((d.put (bankFld b) 2).put (F.SEC_FW_VER_VAL.at b) (s.mem.fN (fwFlash b + 4) 4)).completeK k St.ok 0 0
      else (d.put (bankFld b) 3).completeK k St.sigFail 0 0)
  | .erase k a n => (s.eraseFlash a n).onDev (fun d =>
    let d := (List.range 2).foldl (fun d b => if meets a n (fwFlash b) 0x1000000 then d.fwNotShip b else d) d
    d.completeK k St.ok 0 0)
  | .archive => s

/-- What a flash write leaves when no spare block remains (R278): the command it served ends with STORE_ERR. -/
def flashLost (w : FlashWhat) (d : Dev) : Dev :=
  match w with
  | .stipple (some k) _ _ => d.completeK k St.storeErr 0 0
  | .profile k _ _ => d.completeK k St.storeErr 0 0
  | .fwChunk k _ _ _ _ => d.completeK k St.storeErr 0 0
  | .erase k _ _ => d.completeK k St.storeErr 0 0
  | .boot _ => (d.putBit F.SYS_BOOT_STAT_BUSY false).flag F.SYS_BOOT_STAT_SAVE_ERR
  | _ => d

/-- The write is a plate's: PLATE_PERSIST_DONE ends it. -/
def FlashJob.isPlate (j : FlashJob) : Bool := match j.what with | .plate _ _ _ => true | _ => false

/-- A curve that waited for the write before it follows (R77, R103). -/
def Dev.curveNext (d : Dev) (m : Mems) : Dev :=
  match d.burin.curveWait with
  | some (g, bs) => if d.curveWriting.isNone then (d.onBurin fun z => { z with curveWait := none }).curvePersist m g bs else d
  | none => d

/-- FLASH_WRITE_DONE: the first background write that is no plate succeeds, or a block of it fails: two retries, then the
block is retired for a spare and the write repeated (R278). -/
def flashDone (ok : Bool) (s : State) : State :=
  match s.dev.store.flashQ.find? (fun j => !j.isPlate) with
  | none => s
  | some j =>
    let i := (s.dev.store.flashQ.findIdx? (fun j => !j.isPlate)).getD 0
    let drop (d : Dev) : Dev :=
      let q := d.store.flashQ.eraseIdx i
      (d.onStore fun z => { z with flashQ := q }).putBit F.STORE_FLASH_STAT_BUSY (!q.isEmpty)
    let keep (n : Nat) (d : Dev) : Dev := d.onStore fun z => { z with flashQ := z.flashQ.set i { j with fails := n } }
    let next (s : State) : State := s.onDev (fun d => d.curveNext s.mem)
    if ok then next ((flashOk j.what s).onDev drop)
    else next <| s.onDev (fun d =>
      let a := (j.what.range d).1
      if j.fails < 2 then keep (j.fails + 1) d
      else if 0 < d.store.flashSpares then
        let d := (d.onStore fun z => { z with flashSpares := z.flashSpares - 1 }).inc F.STORE_FLASH_BADBLK_CNT
        keep 0 (d.event 0x0602 { elem := a / 0x20000, arg0 := d.get F.STORE_FLASH_BADBLK_CNT })
      else
        let d := (d.putBit F.STORE_FLASH_STAT_NO_SPARE true).flag F.STORE_FLASH_STAT_WR_ERR
        drop (flashLost j.what (d.event 0x0603 { elem := a / 0x20000 })))

/-- FLASH_WRITE_DONE. -/
def execFlashWriteDone (ok : Bool) (s : State) : Host.Outcome State Fault Refusal := .next (flashDone ok s)

/-- A slot that a background write was filling when power failed holds nothing valid (R77). -/
def cutFlash (s : State) : State :=
  let s := s.dev.store.flashQ.foldl (fun s j => match j.what with
    | .geometry _ | .profile _ _ _ | .boot _ => (fun r : Nat × Nat => s.eraseFlash r.1 r.2) (j.what.range s.dev)
    | _ => s) s
  s.onDev (fun d => d.onStore fun z => { z with flashQ := [] })

/-! ### Boot configuration (R325) -/

/-- Blocks whose RW fields are captured, by number of 16 KiB range, with PWR. -/
def bootBlock (off : Nat) : Bool :=
  let b := off / 0x4000
  [1, 2, 3, 4, 5, 6, 7, 10, 12, 13, 14].contains b || (decide (0x2000 ≤ off) && decide (off < 0x3000))

/-- Registers that the capture leaves out. -/
def bootSkip : List Nat := [R.LINK_HP_CTL, R.FPA_ACQ_TIME, R.FPA_ACQ_TIME + 4, R.WEB_PRESET, R.WEB_PRESET + 4, R.PROOF_SCHED_START,
  R.PROOF_SCHED_START + 4, R.FPA_CTL, R.MEM_TW_SEL, R.MEM_TW_BASE]

/-- The RW bits of a row. -/
def RegRow.rwMask (r : RegRow) : Nat := r.flds.foldl (fun a f => match f.acc with | .rw => a + (2 ^ f.w - 1) * 2 ^ f.lo | _ => a) 0

/-- The words of a row with RW fields, by offset. -/
def bootWords (d : Dev) (r : RegRow) : List (Nat × Nat) :=
  let m := r.rwMask
  (List.range r.count).flatMap (fun i =>
    let o := r.base + r.stride * i
    let w (o m : Nat) : List (Nat × Nat) := if m = 0 ∨ bootSkip.contains o then [] else [(o, (d.reg o).toNat &&& m)]
    w o (m % 2 ^ 32) ++ (if r.pair then w (o + 4) (m / 2 ^ 32) else []))

/-- Put words in offset order. -/
def insWord (l : List (Nat × Nat)) (x : Nat × Nat) : List (Nat × Nat) :=
  l.filter (fun y => decide (y.1 < x.1)) ++ [x] ++ l.filter (fun y => decide (x.1 < y.1))

/-- The saved register words, in offset order. -/
def Dev.bootRegs (d : Dev) : List (Nat × Nat) :=
  let ws := (List.range 15).flatMap (fun b => ((blockRegs b).filter (fun r => bootBlock r.base)).flatMap (bootWords d))
  ws.foldl insWord []

/-- The image of a boot configuration (R325; its layout is the model's choice, log 9): count of words, SYS_BOOT_CTL, the map of
domains off, the words, the CRC. -/
def Dev.bootImage (d : Dev) : List Byte :=
  let ws := d.bootRegs
  let off := ofBits ((List.range 112).filter (fun i => !d.domBit i))
  let b := leBytes 4 ws.length ++ leBytes 4 (d.reg R.SYS_BOOT_CTL).toNat ++ leBytes 16 off ++ ws.flatMap (fun q => leBytes 4 q.1 ++ leBytes 4 q.2)
  b ++ leBytes 4 (crc32c b)

/-- A boot configuration in flash verifies. -/
def bootOk (m : Mems) (slot : Nat) : Bool :=
  let a := bootFlash slot
  let n := 24 + 8 * m.fN a 4
  decide (n ≤ 0x7FFF0) && m.fN (a + n) 4 == crc32c (m.f a n)

/-- The newest valid boot configuration's slot. -/
def bootSlot (m : Mems) (d : Dev) : Option Nat :=
  match d.lastSlot 5 0 with
  | none => none
  | some n => if bootOk m n then some n else if bootOk m (1 - n) then some (1 - n) else none

/-- The saved words of a slot. -/
def bootRead (m : Mems) (slot : Nat) : List (Nat × Nat) :=
  let a := bootFlash slot
  (List.range (m.fN a 4)).map (fun i => (m.fN (a + 24 + 8 * i) 4, m.fN (a + 28 + 8 * i) 4))

/-- SAVE: the capture is written to the other slot in the background. -/
def execSave (s : State) : Host.Outcome State Fault Refusal :=
  .next (s.onDev (fun d => (d.flashPush (.boot d.bootImage)).putBit F.SYS_BOOT_STAT_BUSY true))

/-- BOOT_CLEAR: both slots are invalidated. -/
def execBootClear (s : State) : Host.Outcome State Fault Refusal :=
  .next (s.onDev (fun d => ((d.flashPush .bootClear).putBit F.SYS_BOOT_STAT_VALID false)))

end Sys2Proof.Machine
end

