-- ==== Sys2Proof/Machine/Reset.lean ====
section
/-! DEFINITION. Resets: what each keeps, the straps, and what it does to the host port (R172, R319 to R321, R323). -/

namespace Sys2Proof.Machine

/-- The host port function and ring enable that the straps set (R172). -/
def Dev.strapped (d : Dev) : Dev :=
  let s := d.pwr.straps
  let mode := if s = 1 then 1 else if s = 2 then 2 else 0
  let ring := s != 3
  let d := (d.put F.LINK_HP_CTL_MODE mode).putBit F.LINK_HP_CTL_RING_EN ring
  let d := ((d.put F.LINK_HP_STAT_MODE_ACT mode).put F.LINK_HP_STAT_ROLE0 (s % 2)).put F.LINK_HP_STAT_ROLE1 (s / 2)
  d.onLink fun z => { z with ringEn := ring }

/-- Sample the straps `ROLE1` and `ROLE0` (R172). -/
def Dev.sampleStraps (role1 role0 : Bool) (d : Dev) : Dev := (d.onPwr fun z => { z with straps := 2 * b2n role1 + b2n role0 }).strapped

/-- What stays over every reset of R320: the Keep and flash with their bookkeeping. -/
def keptStore (x : StoreSt) : StoreSt :=
  { StoreSt.reset with
    tallies := x.tallies, keepQ := x.keepQ, keepTorn := x.keepTorn, flashSpares := x.flashSpares, badSlots := x.badSlots
    lastSlot := x.lastSlot, kept := x.kept, opBase := x.opBase }

/-- Registers whose values stand in the Keep or in flash and are shown throughout: the newest event and the counts of the
stores' own bookkeeping. -/
def Dev.keptShown (o d : Dev) : Dev :=
  [R.HEALTH_EVT_SEQ, R.STORE_KEEP_SPARES, R.STORE_FLASH_BADBLK].foldl (fun d r => d.setReg r (o.reg r)) d

/-- The module restarts: every part is as after reset but what the Keep and flash hold (R320). -/
def Dev.restarted (o : Dev) : Dev :=
  Dev.keptShown o { Dev.reset with
    out := o.out, freeIdx := o.freeIdx, saved := o.saved
    store := keptStore o.store
    sec := { SecSt.reset with keys := o.sec.keys, fwShip := o.sec.fwShip }
    health := { HealthSt.reset with evPages := o.health.evPages, archive := o.health.archive }
    pwr := { PwrSt.reset with vioLow := o.pwr.vioLow, perstT := o.pwr.perstT } }

/-- The writes that a loss of supply or a reset ends, and the loss of QDR contents (R77, R284, log 3). -/
def State.cutWrites (s : State) : State :=
  let s := (cutFlash s).onDev cutKeep
  { s with mem := { s.mem with qdr := [] } }

/-- Power-on reset: the timebase is at zero (R14, R320). -/
def State.powerReset (s : State) : State := s.cutWrites.onDev Dev.restarted

/-- A reset that keeps the timebase (R14, R320): start-up begins at step 2 with the clocks as they are, and the cause is
recorded beside those recorded before. -/
def Dev.warmed (cause : Fld) (o : Dev) : Dev :=
  let d := o.restarted
  let d := { d with now := o.now }
  let d := d.onStore fun z => { z with nextSweep := (o.t / (60 * secT) + 1) * (60 * secT), opT0 := o.store.opT0 }
  let d := d.onPwr fun z => { z with
    startT0 := o.t, warm := true, straps := o.pwr.straps, refLostT := o.pwr.refLostT, relock := o.pwr.relock }
  let d := (d.setReg R.CLK_STAT (o.reg R.CLK_STAT)).setReg R.SYS_RST_CAUSE (o.reg R.SYS_RST_CAUSE)
  ((d.put F.SYS_START_STEP 2).putBit cause true).strapped

/-- A warm reset of the whole state. -/
def State.warmReset (cause : Fld) (s : State) : State := s.cutWrites.onDev (Dev.warmed cause)

/-- POWER_ON_RESET_RELEASE: start-up begins at step 1 at timebase tick 0, with the straps sampled (R319, R320, R322). -/
def execPowerOnResetRelease (role1 role0 : Bool) (s : State) : Host.Outcome State Fault Refusal :=
  .next (s.powerReset.onDev (Dev.sampleStraps role1 role0))

/-- BROWNOUT: power-on reset is asserted again (R319). -/
def execBrownout (s : State) : Host.Outcome State Fault Refusal :=
  .next (s.powerReset.onDev (fun d => d.onPwr fun z => { z with por := true }))

/-- RESET_N: held low it holds the module in reset; its release samples the straps and restarts at step 2 (R320, R321). -/
def execResetN (low role1 role0 : Bool) (s : State) : Host.Outcome State Fault Refusal :=
  .next (
    if s.dev.pwr.por then s
    else if low then (s.warmReset F.SYS_RST_CAUSE_RESET_N).onDev (fun d => d.onPwr fun z => { z with rstLow := true })
    else if s.dev.pwr.rstLow then
      s.onDev (fun d => (d.onPwr fun z => { z with rstLow := false, startT0 := d.t }).sampleStraps role1 role0)
    else s)

/-- The host port is reset as by a link down (R234, R320). -/
def Dev.hostReset (cause : Fld) (d : Dev) : Dev :=
  if d.get F.LINK_HP_STAT_MODE_ACT = 0 then (linkDown false d).putBit cause true else d

/-- PERST_N: its assertion resets the host port in PCIe mode, and its release is noted for the end of step 8 (R320, R323). -/
def execPerstN (low : Bool) (s : State) : Host.Outcome State Fault Refusal :=
  .next (s.onDev (fun d =>
    if low then (d.hostReset F.SYS_RST_CAUSE_PERST_N).onPwr fun z => { z with perstT := none }
    else d.onPwr fun z => { z with perstT := some d.t }))

/-- SYS_RST_HOST: as PERST_N (R320). -/
def execSysRstHost (s : State) : Host.Outcome State Fault Refusal := .next (s.onDev (Dev.hostReset F.SYS_RST_CAUSE_CMD_HOST))

/-- SYS_RST_WARM: as RESET_N, with the strap values kept (R320). -/
def execSysRstWarm (s : State) : Host.Outcome State Fault Refusal := .next (s.warmReset F.SYS_RST_CAUSE_CMD_WARM)

end Sys2Proof.Machine
end

