-- ==== Sys2Proof/Machine/Access.lean ====
section
/-! DEFINITION. Register and table window accesses from BAR0, BAR2 and the management port (R3 to R5, R22 to R29, R230, R323,
R342 to R348, R353). -/

namespace Sys2Proof.Machine

/-- The state an operation answers, or the state before it where it stops. -/
def stateOf (o : Host.Outcome State Fault Refusal) (s : State) : State := match o with | .next t => t | _ => s

/-- Run an operation if a bit of the written word is 1. -/
def onBit (v : Word) (i : Nat) (f : State → Host.Outcome State Fault Refusal) (s : State) : State :=
  if v.getLsbD i then stateOf (f s) s else s

/-- A plain write by the access codes. -/
def plainWrite (off : Nat) (v : Word) (s : State) : State := s.onDev (fun d => d.writeWord off v.toNat)

/-! ### Writes with effects, block by block -/

/-- SYS, CLK and PWR. -/
def sysWrite (off : Nat) (v : Word) (s : State) : State :=
  if off = R.SYS_RST then
    (if v.toNat % 256 ≠ 0xA5 then s
     else if v.toNat / 256 % 4 = 1 then stateOf (execSysRstHost s) s
     else if v.toNat / 256 % 4 = 2 then stateOf (execSysRstWarm s) s
     else s)
  else if off = R.SYS_BOOT_CTL then onBit v 1 execBootClear (onBit v 0 execSave (plainWrite off v s))
  else if off = R.CLK_CNT_CLR then onBit v 0 execClkCntClr s
  else if off = R.PWR_CNT_CLR then onBit v 0 execPwrCntClr s
  else if off = R.PWR_BAL_CTL then s.onDev (balWrite v)
  else plainWrite off v s

/-- FPA. -/
def fpaWrite (off : Nat) (v : Word) (s : State) : State :=
  if off = R.FPA_CTL then
    let run := s.dev.bit F.FPA_CTL_RUN
    let s := onBit v 1 execFpaCntClr s
    if v.getLsbD 0 && !run then stateOf (execRunSet s) s
    else if !v.getLsbD 0 && run then stateOf (execRunClear s) s
    else s
  else if off = R.FPA_ACQ_CTL then s.onDev (acqCtlWrite (v.getLsbD 0) (v.getLsbD 1))
  else if off = R.FPA_STAGE_CTL then s.onDev (stageCtlWrite v)
  else plainWrite off v s

/-- PIPE. -/
def pipeWrite (off : Nat) (v : Word) (s : State) : State :=
  if off = R.PIPE_PL_CTL then onBit v 16 execShadowRelease (plainWrite off v s)
  else if off = R.PIPE_CNT_CLR then stateOf (execPipeCntClr (v.getLsbD 0) (v.getLsbD 1) s) s
  else if off = R.PIPE_AC_CTL then s.onDev (acCtlWrite v)
  else if R.PIPE_DM_K ≤ off ∧ off < R.PIPE_DM_K + 32 then s.onDev (dmCoeffWrite ((off - R.PIPE_DM_K) / 4) v)
  else plainWrite off v s

/-- PROOF. -/
def proofWrite (off : Nat) (v : Word) (s : State) : State :=
  if off = R.PROOF_SHUT_CTL then (plainWrite off v s).onDev (fun d => d.tmrReserve.showPos)
  else if off = R.PROOF_SHUT_CMD then onBit v 2 execTestOpen (onBit v 1 execTestClose (onBit v 0 execShutClear s))
  else if off = R.PROOF_SCHED then s.onDev (schedWrite v)
  else if off = R.PROOF_CNT_CLR then onBit v 0 execProofCntClr s
  else plainWrite off v s

/-- WEB. -/
def webWrite (off : Nat) (v : Word) (s : State) : State :=
  if off = R.WEB_CTL then s.onDev (webCtlWrite v)
  else if off = R.WEB_CMD then onBit v 2 execWebCntClr (onBit v 1 execFlush (onBit v 0 execPreset s))
  else if off = R.WEB_GEO_CTL then onBit v 0 execGeoCommit s
  else plainWrite off v s

/-- STAT. -/
def statWrite (off : Nat) (v : Word) (s : State) : State :=
  if off = R.STAT_SNAP_CTL then onBit v 0 execSnap (plainWrite off v s)
  else if R.STAT_AL_OUT ≤ off ∧ off < R.STAT_AL_OUT + 16 then s.onDev (alOutWrite ((off - R.STAT_AL_OUT) / 4) v)
  else if off = R.STAT_AL_CLR then onBit v 1 execAlarmQueueClr (onBit v 0 execAlarmCntClr s)
  else plainWrite off v s

/-- `LINK_Pp_CTL`: a lane whose bit falls is handled as failed (R186); the port follows its enable; SCAN. -/
def portCtlWrite (p : Nat) (v : Word) (d : Dev) : Dev :=
  let old := d.get (F.LINK_P_CTL_LANE_EN.at p)
  let d := (d.writeWord (R.LINK_P_CTL + 0x40 * p) v.toNat).portsFollow
  let off := (List.range 4).filter (fun i => old.testBit i && !(d.get (F.LINK_P_CTL_LANE_EN.at p)).testBit i)
  let d := if d.portState p = 4 then off.foldl (fun d i => d.laneOut p i) d else d
  if v.getLsbD 8 then scanPort p d else d

/-- LINK. -/
def linkWrite (off : Nat) (v : Word) (s : State) : State :=
  if off = R.LINK_HP_CTL then onBit v 3 execApply (plainWrite off v s)
  else if off = R.LINK_CNT_CLR then onBit v 0 execLinkCntClr s
  else if off = R.LINK_TS_CTL then
    let s := s.onDev (tsSrcWrite (v.toNat % 4))
    plainWrite off v s
  else if R.LINK_P_CTL ≤ off ∧ off < R.LINK_P_CTL + 0xC0 ∧ (off - R.LINK_P_CTL) % 0x40 = 0 then
    s.onDev (portCtlWrite ((off - R.LINK_P_CTL) / 0x40) v)
  else plainWrite off v s

/-- STAND. -/
def standWrite (off : Nat) (v : Word) (s : State) : State :=
  if off = R.STAND_CTL then (plainWrite off v s).onDev Dev.standShow
  else if off = R.STAND_CNT_CLR then onBit v 1 execTrimReset (onBit v 0 execStandCntClr s)
  else plainWrite off v s

/-- `HOST_RINGn_CTL`: the channel changes only while the ring is DISABLED and is fixed for rings 0 and 1, the function only for
rings 11 to 15, to 0 or 1 (R234, R241, R243). -/
def ringCtlWrite (n : Nat) (v : Word) (d : Dev) : Dev :=
  let on := d.bit (F.HOST_RING_CTL_EN.at n)
  let dma := d.get (F.HOST_RING_CTL_DMA.at n)
  let func := d.get (F.HOST_RING_CTL_FUNC.at n)
  let free := d.ringState n == 0 && decide (2 ≤ n)
  let d := d.writeWord (R.HOST_RING_CTL + 0x40 * n) v.toNat
  let nd := d.get (F.HOST_RING_CTL_DMA.at n)
  let nf := d.get (F.HOST_RING_CTL_FUNC.at n)
  let d := if free && nd != 0 then d else d.put (F.HOST_RING_CTL_DMA.at n) dma
  let d := if 11 ≤ n ∧ nf ≤ 1 then d else d.put (F.HOST_RING_CTL_FUNC.at n) func
  let want := d.bit (F.HOST_RING_CTL_EN.at n)
  let d := d.putBit (F.HOST_RING_CTL_EN.at n) on
  if v.getLsbD 1 then d.ringReset n
  else if want && !on then ringEnable n d
  else if !want && on then ringDisable n d
  else d

/-- HOST. -/
def hostWrite (off : Nat) (v : Word) (s : State) : State :=
  if off = R.HOST_CTL then
    let s := stateOf (execWidthMaxWrite (Fin.ofNat 4 (v.toNat / 2 ^ 24)) s) s
    let w := s.dev.get F.HOST_CTL_WIDTH_MAX
    (plainWrite off v s).onDev (fun d => d.put F.HOST_CTL_WIDTH_MAX w)
  else if off = R.HOST_CNT_CLR then onBit v 0 execHostCntClr s
  else if R.HOST_DMA_CTL ≤ off ∧ off < R.HOST_DMA_CTL + 0x100 ∧ (off - R.HOST_DMA_CTL) % 0x20 = 0 then
    onBit v 0 (fun s => .next (s.onDev (resumeChan ((off - R.HOST_DMA_CTL) / 0x20)))) s
  else if R.HOST_RING_BASE ≤ off ∧ off < R.HOST_RING_BASE + 0x400 then
    let n := (off - R.HOST_RING_BASE) / 0x40
    let o := (off - R.HOST_RING_BASE) % 0x40
    if o < 0xC ∧ s.dev.bit (F.HOST_RING_CTL_EN.at n) then s
    else if o = 0xC then s.onDev (ringCtlWrite n v)
    else plainWrite off v s
  else if R.HOST_IDX_BASE ≤ off ∧ off < R.HOST_IDX_BASE + 8 then
    if (List.range 16).any (fun n => s.dev.bit (F.HOST_RING_CTL_EN.at n)) then s else plainWrite off v s
  else plainWrite off v s

/-- SEC. -/
def secWrite (p : Path) (off : Nat) (v : Word) (s : State) : State :=
  if off = R.SEC_CNT_CLR then onBit v 0 execSecCntClr s
  else if off = R.SEC_MBX_CTL then onBit v 0 (execMbxGo p) (onBit v 1 (execMbxAck p) s)
  else plainWrite off v s

/-- MEM and STORE; the window registers exist once per path (R275). -/
def memWrite (p : Path) (off : Nat) (v : Word) (s : State) : State :=
  let i := (pathCopy p).getD 0
  let q := s.dev.path i
  if off = R.MEM_TW_SEL then s.onDev (twSelWrite i v)
  else if off = R.MEM_TW_BASE then s.onDev (fun d => d.putPath i { q with twBase := v &&& 0xFFFF })
  else if off = R.MEM_TW_STAT then
    let tied := s.dev.tied (R.MEM_TW_STAT + i)
    s.onDev (fun d => d.putPath i { q with
      wrDenied := q.wrDenied && (!v.getLsbD 0 || tied.testBit 0), uncorr := q.uncorr && (!v.getLsbD 1 || tied.testBit 1) })
  else if off = R.MEM_CNT_CLR then onBit v 0 execMemCntClr s
  else if off = R.STORE_CNT_CLR then onBit v 0 execStoreCntClr s
  else plainWrite off v s

/-- HEALTH. -/
def healthWrite (off : Nat) (v : Word) (s : State) : State :=
  if off = R.HEALTH_FAULT_MASK ∨ off = R.HEALTH_FAULT_SRC then (plainWrite off v s).onDev Dev.faultPin
  else if off = R.HEALTH_MP_CTL then onBit v 8 execMpRun (plainWrite off v s)
  else if off = R.HEALTH_CNT_CLR then onBit v 0 execHealthCntClr s
  else plainWrite off v s

/-- AUX. -/
def auxWrite (off : Nat) (v : Word) (s : State) : State :=
  if off = R.AUX_REF then s.onDev (refWrite (v.toNat % 4))
  else if off = R.AUX_SEQ_CTL then onBit v 16 execAuxSeqCommit (plainWrite off v s)
  else if off = R.AUX_CNT_CLR then onBit v 0 execAuxCntClr s
  else plainWrite off v s

/-- IO; a reserved timer's registers ignore the write, which loses the contention (R353, R354). -/
def ioWrite (off : Nat) (v : Word) (s : State) : State :=
  if off = R.IO_PIN_CFG then
    let s := if v.getLsbD 0 = s.dev.bit F.IO_PIN_CFG_GLADE_IN_POL then s else s.onDev (gladePol (v.getLsbD 0))
    plainWrite off v s
  else if R.IO_GP_CFG ≤ off ∧ off < R.IO_GP_CFG + 32 then s.onDev (gpCfgWrite ((off - R.IO_GP_CFG) / 4) v)
  else if off = R.IO_CNT_CLR then onBit v 0 execIoCntClr s
  else if R.TMR_CTL ≤ off ∧ off < R.TMR_CTL + 0x80 then
    let n := (off - R.TMR_CTL) / 0x10
    let o := (off - R.TMR_CTL) % 0x10
    if o = 0 then s.onDev (tmrCtlWrite n v)
    else if o = 4 ∧ s.dev.get (F.TMR_CTL_OWNER.at n) ≠ 0 then s.onDev (fun d => d.conflict (0x10 + n) 2)
    else plainWrite off v s
  else plainWrite off v s

/-- The effect of a 32-bit word written to a register that is no half of a 64-bit pair, or of a half put in place (R4, R5). -/
def regEffect (p : Path) (off : Nat) (v : Word) (s : State) : State :=
  let b := off / 0x4000
  if b = 0 then sysWrite off v s
  else if b = 1 then fpaWrite off v s
  else if b = 2 then pipeWrite off v s
  else if b = 3 then proofWrite off v s
  else if b = 4 then webWrite off v s
  else if b = 5 then statWrite off v s
  else if b = 6 then linkWrite off v s
  else if b = 7 then standWrite off v s
  else if b = 8 then hostWrite off v s
  else if b = 9 then secWrite p off v s
  else if b = 10 ∨ b = 11 then memWrite p off v s
  else if b = 12 then healthWrite off v s
  else if b = 13 then auxWrite off v s
  else if b = 14 then ioWrite off v s
  else s

/-! ### 64-bit pairs (R23, R24) -/

/-- Low and high offset of the pair an offset lies in. -/
def pairOf (off : Nat) : Option (Nat × Bool) :=
  match findReg off with
  | some (r, hi) => if r.pair then some (if hi then off - 4 else off, hi) else none
  | none => none

/-- Both halves of a pair written in one clock. -/
def pairWrite (p : Path) (low : Nat) (lo hi : Word) (s : State) : State := regEffect p (low + 4) hi (regEffect p low lo s)

/-- A low word is staged; a second one replaces it (R24). -/
def stageLow (i low : Nat) (v : Word) (d : Dev) : Dev :=
  let q := d.path i
  d.putPath i { q with staged := (low, v) :: q.staged.filter (fun x => x.1 != low) }

/-- A high word applies the staged low word with it, or the current one (R24). -/
def applyHigh (p : Path) (i low : Nat) (v : Word) (s : State) : State :=
  let q := s.dev.path i
  let lo := (assoc q.staged low).getD (s.dev.reg low)
  let s := s.onDev (fun d => d.putPath i { q with staged := q.staged.filter (fun x => x.1 != low) })
  pairWrite p low lo v s

/-- A 32-bit register write on a path. -/
def write32 (p : Path) (i off : Nat) (v : Word) (s : State) : State :=
  match pairOf off with
  | some (low, true) => applyHigh p i low v s
  | some (low, false) => s.onDev (stageLow i low v)
  | none => regEffect p off v s

/-! ### Reads (R23, R25, R27, R28) -/

/-- The 64-bit value of the pair, or the word, at an offset: what is not held as a register word is computed, and an offset that
no register owns reads 0 (R28). -/
def Dev.liveAt (m : Mems) (d : Dev) (i off : Nat) : Nat :=
  let q := d.path i
  if off = R.SYS_TIME then d.t
  else if off = R.STORE_OPTIME then d.optime
  else if off = R.STORE_CTR_FAIL then ofBits ((List.range 17).filter d.tallyFailed)
  else if off = R.FPA_COPPICE_STAT then
    let full := (List.range 80).countP (fun g => decide (2 ≤ d.fpa.substs.countP (fun x => x.group == g)))
    d.fpa.substs.length % 256 + 256 * full
  else if off = R.IO_PIN_IN then d.pinIn
  else if off = R.IO_GP_IN then d.gpIn
  else if off = R.MEM_TW_SEL then q.twSel.toNat
  else if off = R.MEM_TW_BASE then q.twBase.toNat
  else if off = R.MEM_TW_STAT then b2n q.wrDenied + 2 * b2n q.uncorr + 4 * b2n (d.twStale q)
  else if off = R.MEM_TW_SIZE then tableSize m d q.table q.inst
  else match pairOf off with
    | some (low, _) => (d.reg low).toNat + 2 ^ 32 * (d.reg (low + 4)).toNat
    | none => if (findReg off).isNone then 0 else (d.reg off).toNat

/-- A 32-bit read: a low word latches the high one, a latched high word is returned once (R23). -/
def read32 (i off : Nat) (s : State) : State × Nat :=
  match pairOf off with
  | some (low, false) =>
    let w := s.dev.liveAt s.mem i low
    (s.onDev (fun d =>
      let q := d.path i
      d.putPath i { q with shadow := (low, BitVec.ofNat 32 (w / 2 ^ 32)) :: q.shadow.filter (fun x => x.1 != low) }), w % 2 ^ 32)
  | some (low, true) =>
    match assoc (s.dev.path i).shadow low with
    | some w =>
      (s.onDev (fun d =>
        let q := d.path i
        d.putPath i { q with shadow := q.shadow.filter (fun x => x.1 != low) }), w.toNat)
    | none => (s, s.dev.liveAt s.mem i low / 2 ^ 32 % 2 ^ 32)
  | none => (if off = R.IO_PIN_IN ∨ off = R.IO_GP_IN then s.onDev Dev.fresh else s, s.dev.liveAt s.mem i off % 2 ^ 32)

/-! ### Readiness (R323, R324, R346) -/

/-- A register or window offset is ready: its block has been brought up. -/
def Dev.ready (d : Dev) (off : Nat) : Bool :=
  let done := d.get F.SYS_START_STEP
  let b := off / 0x4000
  if d.pwr.por || d.pwr.rstLow then false
  else if 0x80000 ≤ off then decide (6 < done)
  else if b = 0 ∨ b = 14 then decide (1 < done)
  else if b = 9 ∨ b = 11 then decide (2 < done)
  else decide (4 < done)

/-- BAR accesses reach the module: PCIe mode, and step 8 has ended or start-up is halted (R323, R324). -/
def Dev.barOpen (d : Dev) : Bool :=
  !d.pwr.por && !d.pwr.rstLow && d.get F.LINK_HP_STAT_MODE_ACT == 0 && (decide (8 < d.get F.SYS_START_STEP) || d.bit F.SYS_START_HALTED)

/-! ### BAR0 and BAR2 -/

/-- A 32-bit write at an offset of BAR0. -/
def barWrite (off : Nat) (v : Word) (s : State) : State :=
  if !s.dev.ready off then s
  else if 0x80000 ≤ off then windowWrite 0 (off - 0x80000) v s
  else write32 .bar0 0 off v s

/-- A 32-bit read at an offset of BAR0. -/
def barRead (off : Nat) (s : State) : State × Nat :=
  if !s.dev.ready off then (s, 0)
  else if 0x80000 ≤ off then
    let r := windowWord 0 (off - 0x80000) none s
    (r.1, r.2.1)
  else read32 0 off s

/-- A write to BAR2: a doorbell, or a word of the MSI-X table (R230). -/
def bar2Write (off : Nat) (v : Word) (wide : Option Word) (s : State) : State :=
  if off < 0x400 then
    if off % 0x40 = 0 then s.onDev (doorbell (off / 0x40) v wide.isSome) else s
  else
    let put (o : Nat) (v : Word) (d : Dev) : Dev :=
      if 0x8000 ≤ o ∧ o < 0x8200 then
        d.onHost fun z => { z with msixTab := Tab.ins z.msixTab ((o - 0x8000) / 4) v }
      else d
    s.onDev (fun d =>
      let d := put off v d
      match wide with | some w => put (off + 4) w d | none => d)

/-- The word at an offset of BAR2: the index last accepted by a doorbell, the MSI-X table, the pending bits (R230). -/
def Dev.bar2Word (d : Dev) (off : Nat) : Nat :=
  if off < 0x400 then (if off % 0x40 = 0 then d.ringH (off / 0x40) else 0)
  else if 0x8000 ≤ off ∧ off < 0x8200 then (Tab.get (if off % 16 = 12 then 1 else 0) d.host.msixTab ((off - 0x8000) / 4)).toNat
  else if off = 0x9000 then d.host.pend.toNat
  else 0

/-- A write to BAR0; a 64-bit write at the low offset of a pair is atomic, at any other offset it is two (R22, R24). -/
def bar0Write (off : Nat) (v : Word) (wide : Option Word) (s : State) : State :=
  match wide with
  | none => barWrite off v s
  | some w =>
    match pairOf off with
    | some (low, false) => if s.dev.ready off then pairWrite .bar0 low v w s else s
    | _ => barWrite (off + 4) w (barWrite off v s)

/-- A read of BAR0; a 64-bit read at the low offset of a pair is atomic and leaves the shadow (R22, R23). -/
def bar0Read (off : Nat) (wide : Bool) (s : State) : State × Nat :=
  if !wide then barRead off s
  else
    match pairOf off with
    | some (low, false) => if s.dev.ready off then (s, s.dev.liveAt s.mem 0 low) else (s, 0)
    | _ =>
      let a := barRead off s
      let b := barRead (off + 4) a.1
      (b.1, a.2 + 2 ^ 32 * b.2)

/-! ### Management port (R342 to R348) -/

/-- The word that a masked write of the low `n` bits leaves to be written: RW bits above keep their value, and every other
field is written with 0 there (R344). -/
def maskedWord (d : Dev) (off n : Nat) (v : Word) : Word :=
  let m := 2 ^ n
  match findReg off with
  | some (r, hi) =>
    let keep := r.flds.foldl (fun a f => match f.acc with
      | .rw => a + (2 ^ f.w - 1) * 2 ^ f.lo
      | .rwl => a + (2 ^ f.w - 1) * 2 ^ f.lo
      | _ => a) 0
    let k := (if hi then keep / 2 ^ 32 else keep % 2 ^ 32) / m * m
    BitVec.ofNat 32 (v.toNat % m + ((d.reg off).toNat &&& k))
  | none => BitVec.ofNat 32 (v.toNat % m)

/-- A word of the table window as it would read, for a masked write. -/
def windowMasked (o n : Nat) (v : Word) (s : State) : Word :=
  let q := s.dev.path 1
  let cur := match tableQdr q (q.twBase.toNat % 65536 * 65536 + o / 4 * 4) with
    | some a => s.mem.qN a 4
    | none => 0
  BitVec.ofNat 32 (v.toNat % 2 ^ n + cur / 2 ^ n * 2 ^ n)

/-- A write through the management port of the low `n` bits of the word at an address. -/
def mgmtWrite (off n : Nat) (v : Word) (s : State) : State :=
  if 0xFFFFC < off then s
  else if !s.dev.ready off then s.onDev (fun d => d.flag F.SPI_STAT_NOT_READY)
  else if 0x80000 ≤ off then windowWrite 1 (off - 0x80000) (windowMasked (off - 0x80000) n v s) s
  else
    let w := if off = R.MEM_TW_SEL ∨ off = R.MEM_TW_BASE then
        BitVec.ofNat 32 (v.toNat % 2 ^ n + s.dev.liveAt s.mem 1 off / 2 ^ n * 2 ^ n)
      else maskedWord s.dev off n v
    write32 .mgmt 1 off w s

/-- A read through the management port: the state, the word, whether it was ready, whether it was uncorrectable. -/
def mgmtRead (off : Nat) (late : Bool) (s : State) : State × Nat × Bool × Bool :=
  if 0xFFFFC < off then (s, 0, true, false)
  else if !s.dev.ready off then (s, 0, false, false)
  else if 0x80000 ≤ off then
    let r := windowWord 1 (off - 0x80000) none s
    if late then (r.1, 0, false, false) else (r.1, r.2.1, true, r.2.2)
  else
    let r := read32 1 off s
    (r.1, r.2, true, false)

/-! ### Rows -/

/-- A write on a path, 64 bits wide if `wide` carries a high word. Out of the path's space there is nothing. -/
def pathWrite (p : Path) (off : Nat) (v : Word) (wide : Option Word) (s : State) : Host.Outcome State Fault Refusal :=
  match p with
  | .bar0 =>
    if 0xFFFFF < off then .fault (.noAddress off)
    else if !s.dev.barOpen then .next s
    else if off % 4 ≠ 0 then execPartialWrite off s
    else .next (bar0Write off v wide s)
  | .bar2 =>
    if 0xFFFF < off then .fault (.noAddress off)
    else if !s.dev.barOpen then .next s
    else if off % 4 ≠ 0 then execPartialWrite off s
    else .next (bar2Write off v wide s)
  | .mgmt =>
    if 0xFFFFF < off then .fault (.noAddress off)
    else
      let s := mgmtWrite (off / 4 * 4) 32 v s
      .next (match wide with | some w => mgmtWrite (off / 4 * 4 + 4) 32 w s | none => s)

/-- REGISTER_WRITE. -/
def execRegisterWrite (p : Path) (off : Nat) (v : Word) (wide : Option Word) (s : State) : Host.Outcome State Fault Refusal :=
  pathWrite p off v wide s

/-- LOW_WORD_READ: a read on a path and its answer (R22, R23). -/
def execLowWordRead (p : Path) (off : Nat) (wide : Bool) (s : State) : Host.Outcome State Fault Refusal :=
  let o := off / 4 * 4
  match p with
  | .bar0 =>
    if 0xFFFFF < off then .fault (.noAddress off)
    else if !s.dev.barOpen then .next s
    else
      let r := bar0Read o wide s
      .next (r.1.onDev (fun d => d.emit (.readData p r.2)))
  | .bar2 =>
    if 0xFFFF < off then .fault (.noAddress off)
    else if !s.dev.barOpen then .next s
    else .next (s.onDev (fun d => d.emit (.readData p (d.bar2Word o + (if wide then 2 ^ 32 * d.bar2Word (o + 4) else 0)))))
  | .mgmt =>
    if 0xFFFFF < off then .fault (.noAddress off)
    else
      let r := mgmtRead o false s
      .next (r.1.onDev (fun d => (if r.2.2.1 then d else d.flag F.SPI_STAT_NOT_READY).emit (.readData p r.2.1)))

/-- HIGH_WORD_WRITE: the high word of a pair with the staged low word (R24). -/
def execHighWordWrite (p : Path) (off : Nat) (v : Word) (s : State) : Host.Outcome State Fault Refusal :=
  pathWrite p off v none s

/-- The pins of I/O bank B work: `VIO_B` and PD110 are up (R319, R321). -/
def Dev.bankB (d : Dev) : Bool := !d.pwr.vioLow.getD 1 false && d.domBit 110 && !d.pwr.por && !d.pwr.rstLow

/-- SPI_HEADER: a header is taken or refused (R342, R343). -/
def spiHeader (hdr : Word) (mode3 : Bool) (d : Dev) : Dev :=
  let h := hdr.toNat
  let op := h / 2 ^ 28
  let len := h / 2 ^ 23 % 32
  let bad := !(op == 1 || op == 2) || decide (len < 3) || h / 2 ^ 20 % 4 != 0 || h % 4 != 0
  let d := (d.putBit F.SPI_STAT_MODE3 mode3).onIo fun z => { z with
    spi := some ⟨op == 1, len + 1, h.testBit 22, h % 2 ^ 20, bad, 0, none⟩ }
  if bad then (d.flag F.SPI_STAT_BAD_HDR).inc F.SPI_BADHDR_CNT else d

/-- SPI_HEADER. -/
def execSpiHeader (hdr : Word) (mode3 : Bool) (s : State) : Host.Outcome State Fault Refusal :=
  .next (if s.dev.bankB then s.onDev (spiHeader hdr mode3) else s)

/-- The next word of the transaction, and what it is. -/
def spiNext (s : State) : Option (SpiTx × State) :=
  match s.dev.io.spi with
  | some x => if s.dev.bankB then some (x, s.onDev (fun d => d.onIo fun z => { z with spi := some { x with k := x.k + 1 } })) else none
  | none => none

/-- SPI_WRITE_WORD: a completed word of a write takes effect (R344). -/
def execSpiWriteWord (v : Word) (s : State) : Host.Outcome State Fault Refusal :=
  .next (match spiNext s with
    | some (x, t) => if x.bad || !x.write then t else mgmtWrite (x.addr + 4 * x.k) x.bits v t
    | none => s)

/-- SPI_READ_FETCH: the next word of a read, and its status word, are fetched; `late` says that the data is not there when its
first bit must be sent (R345 to R347). -/
def execSpiReadFetch (late : Bool) (s : State) : Host.Outcome State Fault Refusal :=
  .next (match spiNext s with
    | none => s
    | some (x, t) =>
      if x.write then t
      else if x.bad then t.onDev (fun d => d.emit (.spi 0 0))
      else
        let off := x.addr + 4 * x.k
        let r := mgmtRead off late t
        r.1.onDev (fun d =>
          let d := if r.2.2.1 then d else d.flag F.SPI_STAT_NOT_READY
          let d := match pairOf off with
            | some (low, false) =>
              let mark (y : SpiTx) : SpiTx := { y with unsent := some low }
              if r.2.2.1 then d.onIo (fun z => { z with spi := z.spi.map mark }) else d
            | _ => d
          let st := b2n r.2.2.1 + 2 * b2n (!r.2.2.1) + 4 * b2n r.2.2.2 + 8 * b2n (d.bit F.SPI_STAT_FRAG)
          d.emit (.spi (r.2.1 % 2 ^ x.bits) (if x.stat then st else 0))))

/-- The end of a transaction: counted, a fragment noted, and the shadow of a low word not sent in full invalidated (R345,
R348). The bits after a refused header are ignored, so they make no fragment. -/
def spiEnd (e : SpiEnd) (lowUnsent : Bool) (d : Dev) : Dev :=
  let bad := match d.io.spi with | some x => x.bad | none => false
  let frag := match e with | .inHeader => true | .inWord => !bad | _ => false
  let d := match d.io.spi with
    | some x => (match x.unsent with
      | some low => if lowUnsent then
          let q := d.path 1
          d.putPath 1 { q with shadow := q.shadow.filter (fun y => y.1 != low) }
        else d
      | none => d)
    | none => d
  let d := (d.onIo fun z => { z with spi := none }).inc F.SPI_TXN_CNT
  if frag then (d.flag F.SPI_STAT_FRAG).inc F.SPI_FRAG_CNT else d

/-- SPI_TRANSACTION_END. -/
def execSpiTransactionEnd (e : SpiEnd) (lowUnsent : Bool) (s : State) : Host.Outcome State Fault Refusal :=
  .next (if s.dev.bankB then s.onDev (spiEnd e lowUnsent) else s)

end Sys2Proof.Machine
end

