-- ==== Sys2Proof/Machine/Startup.lean ====
section
/-! DEFINITION. Start-up, the boot configuration applied, and the resumption of a stand (R322 to R327). -/

namespace Sys2Proof.Machine

/-! ### Step 2: the Keep -/

/-- What the module state area and the kept registers restore (R98, R100, R204, R281, R296, R303, R339). -/
def Dev.restoreKeep (d : Dev) : Dev :=
  let x := d.saved
  let d := d.onBurin fun z => { z with refs := x.refs, curveAfter := x.curveAfter }
  let d := d.onFpa fun z => { z with substs := x.substs, sliceTrim := x.sliceTrim, blindNext := x.blindExcl, blindExcl := x.blindExcl }
  let d := d.onStage fun z => { z with perm := x.diodes, trims := x.stageTrims }
  let d := d.onHealth fun z => { z with aside := x.aside, trims := x.trims, failedElems := x.failed, plans := x.plans, skim := x.skim }
  (d.onAux fun z => { z with cals := x.cals }).showCal

/-- The register words the Keep holds, put back; the boot bank is taken at step 3. -/
def Dev.restoreRegs (d : Dev) : Dev :=
  let d := (d.store.kept.filter (fun q => q.1 != R.SEC_FW_STAT)).foldl (fun d q => d.setReg q.1 q.2) d
  d.onHealth fun z => { z with vcoreTarget := d.get F.HEALTH_MP_VCORE_STEPS, planLastOp := 3600 * d.get F.HEALTH_MP_LAST_H }

/-- Keys and tally counters shown; the power cycle is counted; a failed counter is reported (R255, R257, R286, R287). -/
def Dev.showKeep (d : Dev) : Dev :=
  let d := (List.range 8).foldl (fun d k => (d.showKey k).put (F.SEC_CTR_CTR.at k) (d.tally k)) d
  let d := d.putBit F.SEC_STAT_PROVISIONED (d.saved.prov || (d.keyOf 0).isSome)
  let d := d.tallyInc 15
  let d := (((d.put F.STORE_PWR_CYCLES_VAL (d.tally 15)).put F.PROOF_CNT_DONE_CNT (d.tally 14)).put F.SEC_FW_SVN_MIN_VAL (d.tally 16)).putBit
    F.SEC_STAT_KEEP_OK true
  ((List.range 17).filter d.tallyFailed).foldl (fun d i => d.event 0x0504 { elem := i }) d

/-- Step 2: journal replay, and what the Keep holds is taken up (R282). -/
def startKeep (s : State) : State := (replayKeep s).onDev (fun d => d.restoreKeep.restoreRegs.showKeep)

/-! ### Step 3: firmware -/

/-- A bank's image is sound for the boot ROM (R262, R324). -/
def bankOk (m : Mems) (d : Dev) (b : Nat) : Bool :=
  if d.sec.fwShip.getD b false then decide (d.get F.SEC_FW_SVN_MIN_VAL ≤ fwWord m d b 8)
  else
    let n := m.fN (fwFlash b + 12) 4 + 128
    decide (n ≤ 0x1000000) && fwValid m d b n

/-- State of a bank at start-up: 0 empty, 2 valid, 3 invalid. -/
def bankState (m : Mems) (d : Dev) (b : Nat) : Nat :=
  if bankOk m d b then 2
  else if !d.sec.fwShip.getD b false && m.fN (fwFlash b) 4 == 0xFFFFFFFF then 0
  else 3

/-- Step 3: the boot bank, or the other one with FALLBACK, or a halt (R324). The newest boot configuration is looked for. -/
def startFirmware (m : Mems) (d : Dev) : Dev :=
  let boot := (match assoc d.store.kept R.SEC_FW_STAT with | some w => w.toNat | none => 0) / 2 % 2
  let ok (b : Nat) : Bool := bankOk m d b
  let d := (List.range 2).foldl (fun d b => (d.put (bankFld b) (bankState m d b)).put (F.SEC_FW_VER_VAL.at b) (fwWord m d b 4)) d
  let d := d.put F.SEC_FW_STAT_BOOT boot
  let slot := bootSlot m d
  let d := (d.putBit F.SYS_BOOT_STAT_VALID slot.isSome).put F.SYS_BOOT_STAT_SLOT (slot.getD 0)
  let d := match slot with | some n => d.putSlot 5 0 n | none => d
  if ok boot then (d.put F.SEC_FW_STAT_ACTIVE boot).put F.SYS_START_STEP 4
  else if ok (1 - boot) then ((d.put F.SEC_FW_STAT_ACTIVE (1 - boot)).flag F.SEC_FW_STAT_FALLBACK).put F.SYS_START_STEP 4
  else d.putBit F.SYS_START_HALTED true

/-! ### Steps 4 and 5 -/

/-- Step 4: a wire that fails training is erased within `ERASE_MAX`; the step ends when every channel is trained. -/
def startQdr (si : StartIn) (d : Dev) : Dev :=
  let one (d : Dev) (q : Nat × Nat) : Dev :=
    let c := q.1 % 4
    let w := q.2 % 36
    if (d.erased c).contains w then d
    else if (d.erased c).length < d.get F.MEM_CTL_ERASE_MAX then
      d.put (F.MEM_QDR_ERASE_MASK.at c) (setB (d.get (F.MEM_QDR_ERASE_MASK.at c)) w true)
    else (d.put F.MEM_STAT_FAILED (setB (d.get F.MEM_STAT_FAILED) c true)).event 0x0003 { elem := 36 * c + w }
  let d := si.failedWires.foldl one d
  let d := if si.failedWires.isEmpty then d else d.keepPush .modState 1
  let d := d.put F.MEM_STAT_TRAINED si.trained.toNat
  if si.trained.toNat = 15 then (d.auxPower true).put F.SYS_START_STEP 5 else d

/-- The saved word of a register in the newest boot configuration. -/
def bootWord (m : Mems) (d : Dev) (off : Nat) : Option Nat :=
  match bootSlot m d with
  | some n => assoc (bootRead m n) off
  | none => none

/-- Step 5: bias comes up, `FPA_STAGE_CTL` is loaded, and stage heating starts (R53, R54, R326). -/
def startBias (m : Mems) (d : Dev) : Dev :=
  let d := (d.putBit F.FPA_STAT_BIAS_READY true).onFpa fun z => { z with biasOn := true }
  let d := match bootWord m d R.FPA_STAGE_CTL with
    | some w => d.writeWord R.FPA_STAGE_CTL w
    | none => d
  d.startHeating.put F.SYS_START_STEP 6

/-! ### Step 6: tables -/

/-- An image in flash that fails its check is counted and logged (R278). -/
def Dev.flashBad (d : Dev) (a : Nat) : Dev :=
  let d := d.inc F.STORE_FLASH_CRCERR_CNT
  d.event 0x0601 { elem := a / 0x20000, arg0 := d.get F.STORE_FLASH_CRCERR_CNT, arg2 := a }

/-- A drift reference for each factory plate loaded that has none (R98, log 5). -/
def Dev.factoryRefs (d : Dev) : Dev :=
  d.pipe.regions.foldl (fun d x =>
    if x.valid && x.src == 1 && !d.burin.refs.any (fun q => q.seq == x.seq) then d.putRef (factoryRef d x.seq x.seq) else d) d

/-- The first valid stipple map of a list of instances. -/
def loadStipple : List Nat → State → State
  | [], s => s
  | i :: is, s =>
    if stValid s.mem s.dev i then
      (s.flashToQdr (stFlash i) 0x280000 stAddr).onDev (fun d =>
        let seq := (d.lastSlot 7 i).getD 0
        ((d.onPipe fun z => { z with stInst := i, stSeq := seq }).put F.PIPE_ST_SEQ_SEQ seq).putBit F.PIPE_ST_STAT_EVAL_BUSY true)
    else
      let s := if stPresent s.mem s.dev i then s.onDev (fun d => d.loadErr (stFlash i)) else s
      loadStipple is s

/-- Stipple map: the newest field map, the other, the factory map (R82). -/
def startStipple (s : State) : State :=
  let n := (s.dev.lastSlot 6 0).getD 1
  let s := loadStipple [n, 3 - n, 0] s
  s.onDev (fun d => clusterStep s.mem (d.putBit F.PIPE_ST_STAT_EVAL_BUSY false))

/-- The first valid curve of a list of instances. -/
def loadCurve (g : Nat) : List Nat → State → State
  | [], s => s
  | i :: is, s =>
    let b := s.mem.f (curveFlash i) 0x6044
    if curveOk b && !s.dev.store.badSlots.contains (2, i) then
      (s.flashToQdr (curveFlash i) 0x6044 (curveAddr g)).onDev (fun d => d.showCurve g (srcOfInst i) (leAt b 4 4))
    else
      let s := if leAt b 0 8 ≠ 0xFFFFFFFFFFFFFFFF && !s.dev.store.badSlots.contains (2, i) then s.onDev (fun d => d.loadErr (curveFlash i)) else s
      loadCurve g is s

/-- Curves of both ranges: the newest field curve, the other, the factory curve (R102). -/
def startCurves (s : State) : State :=
  (List.range 2).foldl (fun s g =>
    let a := fieldA g
    let newerB := later32 (s.mem.fN (curveFlash (a + 1) + 4) 4) (s.mem.fN (curveFlash a + 4) 4)
    loadCurve g (if newerB then [a + 1, a, g] else [a, a + 1, g]) s) s

/-- The first slot of a list whose image of `n` bytes carries its CRC. -/
def goodSlot (m : Mems) (place : Nat → Nat) (n : Nat) : List Nat → Option Nat
  | [] => none
  | i :: is => if m.fN (place i + n) 4 == crc32c (m.f (place i) n) then some i else goodSlot m place n is

/-- The geometry map in flash (R146). -/
def startGeo (m : Mems) (d : Dev) : Dev :=
  match d.lastSlot 3 0 with
  | none => d
  | some n =>
    match goodSlot m geoFlash geoBytes [n, 1 - n] with
    | some i => ((d.onWeb fun z => { z with geo := some (geoOf (m.f (geoFlash i) geoBytes)) }).showGeo).putSlot 3 0 i
    | none => d.flashBad (geoFlash n)

/-- The profiles in flash (R161). -/
def startProfiles (m : Mems) (d : Dev) : Dev :=
  (List.range 64).foldl (fun d id =>
    match d.lastSlot 4 id with
    | none => d
    | some n =>
      match goodSlot m (profFlash id) 1600 [n, 1 - n] with
      | some i => (d.putProf id (m.f (profFlash id i) 1600)).putSlot 4 id i
      | none => d.flashBad (profFlash id n)) d

/-- The gain range of the boot configuration's set (R70). -/
def bootRange (m : Mems) (d : Dev) : Nat :=
  let set := (bootWord m d R.FPA_ACQ_SEL).getD 0 % 4
  (bootWord m d (R.ACQ_MODE + 0x20 * set)).getD 0 % 2

/-- Step 6: plates, stipple map, curves, geometry, profiles, and the skimming trims of the Margin Plan. -/
def startTables (s : State) : State :=
  let g := bootRange s.mem s.dev
  let s := s.onDev (fun d => d.onFpa fun z => { z with set := { z.set with gain := g } })
  let s := (plateLoad g s).onDev (fun d => d.factoryRefs)
  let s := s.onDev (showPlates s.mem)
  let s := startCurves (startStipple s)
  let s := s.dev.health.skim.foldl (fun s q => s.wrQdr (skimAddr q.1 + q.2.1) (leBytes 1 (uns 8 q.2.2))) s
  s.onDev (fun d => ((startProfiles s.mem (startGeo s.mem d)).put F.SYS_START_STEP 7))

/-! ### Steps 7 and 8 -/

/-- Step 7: the ports follow, and a module with a stored map resumes its role, slot and epoch, silent but for HEART and LOCAL
flits (R203, R204, R327). -/
def startStand (d : Dev) : Dev :=
  let d := d.portsFollow
  let d := match d.saved.map with
    | some m =>
      if d.link.ringEn then
        let d := d.onStand fun z => { z with map := some m, quiet := true, since := d.t, upT := none }
        let d := d.standShow
        d.onLink fun z => { z with order := [d.ownSlot], closed := false }
      else d.standShow
    | none => d.standShow
  d.put F.SYS_START_STEP 8

/-- Step 8 may end: in PCIe mode not before 100 ms after `PERST_N` was released (R323). -/
def Dev.pcieReady (d : Dev) : Bool :=
  d.get F.LINK_HP_STAT_MODE_ACT != 0 || (match d.pwr.perstT with | some t => decide (t + 100 * msT ≤ d.t) | none => true)

/-! ### Step 9 (R326) -/

/-- Substep 1: the saved words in offset order; `ACC_EN` as 0, and `FPA_STAGE_CTL` is in force already. -/
def bootWrites (ws : List (Nat × Nat)) (s : State) : State :=
  ws.foldl (fun s q =>
    let v := if q.1 = R.WEB_CTL then q.2 / 2 * 2 else q.2
    let w := BitVec.ofNat 32 v
    match pairOf q.1 with
    | some _ => s.onDev (fun d => d.setReg q.1 w)
    | none => regEffect .bar0 q.1 w s) s

/-- Substep 3: the listed domains are powered down; one that is refused stays on. -/
def bootDomains (off : Nat) (d : Dev) : Dev :=
  (bitsOf 112 off).foldl (fun d i =>
    let r := d.domRequest i false 0 none false
    if r.2 = 0 then r.1 else r.1.putBit F.SYS_BOOT_STAT_DOM_KEPT true) d

/-- Substeps 5 to 7: accumulation, the profile, imaging. -/
def bootRun (acc : Bool) (ctl : Nat) (webCtl : Nat) (s : State) : State :=
  let s := if acc then s.onDev (webCtlWrite (BitVec.ofNat 32 webCtl)) else s
  let s := s.onDev (fun d => d.writeWord R.SYS_BOOT_CTL (ctl / 4 * 4))
  let s := if ctl.testBit 14 then s.onDev (fun d => d.onWeb fun z => { z with bootProf := some (ctl / 2 ^ 8 % 64) }) else s
  if ctl.testBit 2 then stateOf (execRunSet s) s else s

/-- The newest valid boot configuration is applied. -/
def bootApply (slot : Nat) (s : State) : State :=
  let a := bootFlash slot
  let m := s.mem
  let ws := bootRead m slot
  let s := bootWrites ws s
  let s := s.onDev (fun d => d.restoreRegs.showCal)
  let s := s.onDev (bootDomains (m.fN (a + 8) 16))
  let s := s.onDev regCommit
  let web := (assoc ws R.WEB_CTL).getD 0
  (bootRun (web.testBit 0) (m.fN (a + 4) 4) web s).onDev (fun d => d.putBit F.SYS_BOOT_STAT_USED true)

/-- The end of start-up: START is logged, and a start-up that is no power-on counts as a stop (R305, R322). -/
def startEnd (d : Dev) : Dev :=
  let d := (d.put F.SYS_START_STEP 15).put F.SYS_START_MS (satN 16 ((d.t - d.pwr.startT0) / msT))
  let d := d.event 0x0F01 {}
  if d.pwr.warm then
    let d := d.inc F.HEALTH_STOPS_VAL
    (d.event 0x0F05 { arg0 := d.get F.HEALTH_STOPS_VAL, arg1 := Config.noFit d.freeIdx 0x0F05 0 % 2 ^ 32 }).fresh
  else d

/-- Step 9. -/
def startBoot (s : State) : State :=
  let s := match bootSlot s.mem s.dev with | some n => bootApply n s | none => s
  s.onDev startEnd

/-- START_UP_STEP: the step in progress completes (R322). -/
def startStep (si : StartIn) (s : State) : State :=
  let d := s.dev
  let n := d.get F.SYS_START_STEP
  if d.pwr.por || d.pwr.rstLow || d.bit F.SYS_START_HALTED then s
  else if n = 1 then s.onDev (fun d => (pllLock d).put F.SYS_START_STEP 2)
  else if n = 2 then (startKeep s).onDev (fun d => d.put F.SYS_START_STEP 3)
  else if n = 3 then s.onDev (startFirmware s.mem)
  else if n = 4 then s.onDev (startQdr si)
  else if n = 5 then s.onDev (startBias s.mem)
  else if n = 6 then startTables s
  else if n = 7 then s.onDev startStand
  else if n = 8 then (if d.pcieReady then s.onDev (fun d => d.put F.SYS_START_STEP 9) else s)
  else if n = 9 then startBoot s
  else s

/-- START_UP_STEP. -/
def execStartUpStep (si : StartIn) (s : State) : Host.Outcome State Fault Refusal := .next (startStep si s)

end Sys2Proof.Machine
end

