-- ==== Sys2Proof/Machine/Commands.lean ====
section
/-! DEFINITION. The rows of the host command set (R252): a held command starts when its order allows, and runs here or, if it
names other slots, as a group command (R218, R249, R250). -/

namespace Sys2Proof.Machine

/-- ACQ_COMMIT on this module alone: with AT_WEB its T_c comes from the web coordinate (R44, R219). -/
def localCommit (c : Cmd) (s : State) : State :=
  if (c.p8 25).testBit 0 then
    match tcAtWeb s.dev s.dev.t (c.f 32 8) with
    | some t => s.onDev (doAcqCommit t none c)
    | none => s.onDev (fun d => d.complete c St.refused 0x0F 0)
  else s.onDev (doAcqCommit (c.f 32 8) none c)

/-- PROFILE_SELECT_AT on this module alone: its coordinate is the stand's (R162, R198). -/
def localProfile (c : Cmd) (s : State) : State :=
  s.onDev (fun d => doProfileSelect (if c.f 32 8 = 0 then 0 else wadd (c.f 32 8) (-d.wOfs)) c d)

/-- FW_SWITCH on this module alone. -/
def localSwitch (c : Cmd) (d : Dev) : Dev := doFwSwitch (c.f 32 8) c d

/-- NOP (R252). -/
def execNop (k : Nat) (s : State) : Host.Outcome State Fault Refusal := .next (runCmd 0x0000 k groupBegin (fun c s => s.onDev (doNop c)) s)

/-- START_IMAGING (R373). -/
def execStartImaging (k : Nat) (s : State) : Host.Outcome State Fault Refusal := .next (runCmd 0x0001 k groupBegin (fun c s => s.onDev (doStartImaging c)) s)

/-- STOP_IMAGING (R252). -/
def execStopImaging (k : Nat) (s : State) : Host.Outcome State Fault Refusal := .next (runCmd 0x0002 k groupBegin (fun c s => s.onDev (doStopImaging c)) s)

/-- ACQ_STAGE (R252). -/
def execAcqStage (k : Nat) (s : State) : Host.Outcome State Fault Refusal := .next (runCmd 0x0003 k groupBegin (fun c s => s.onDev (doAcqStage c)) s)

/-- ACQ_COMMIT (R44). -/
def execAcqCommit (k : Nat) (s : State) : Host.Outcome State Fault Refusal := .next (runCmd 0x0004 k groupBegin localCommit s)

/-- PROFILE_SELECT_AT (R162). -/
def execProfileSelectAt (k : Nat) (s : State) : Host.Outcome State Fault Refusal := .next (runCmd 0x0005 k groupBegin localProfile s)

/-- GLADE_DECLARE (R131). -/
def execGladeDeclare (k : Nat) (s : State) : Host.Outcome State Fault Refusal := .next (runCmd 0x0006 k groupBegin (fun c s => s.onDev (doGladeDeclare c)) s)

/-- PROOF_REQUEST (R121). -/
def execProofRequest (k : Nat) (s : State) : Host.Outcome State Fault Refusal := .next (runCmd 0x0007 k groupBegin (fun c s => s.onDev (doProofRequest c)) s)

/-- STAT_SNAPSHOT (R167). -/
def execStatSnapshot (k : Nat) (s : State) : Host.Outcome State Fault Refusal := .next (runCmd 0x0008 k groupBegin (fun c s => s.onDev (doSnapshot c)) s)

/-- FRAME_CAPTURE (R83). -/
def execFrameCapture (k : Nat) (s : State) : Host.Outcome State Fault Refusal := .next (runCmd 0x0009 k groupBegin (fun c s => s.onDev (doFrameCapture c)) s)

/-- RING_RESET (R234). -/
def execRingReset (k : Nat) (s : State) : Host.Outcome State Fault Refusal := .next (runCmd 0x000A k groupBegin (fun c s => s.onDev (doRingReset c)) s)

/-- AUX_SEQ_LOAD (R333). -/
def execAuxSeqLoad (k : Nat) (s : State) : Host.Outcome State Fault Refusal := .next (runCmd 0x000B k groupBegin (fun c s => s.onDev (doAuxSeqLoad c)) s)

/-- AUX_CAL_ZERO (R338). -/
def execAuxCalZero (k : Nat) (s : State) : Host.Outcome State Fault Refusal := .next (runCmd 0x000C k groupBegin (fun c s => s.onDev (doAuxCalZero c)) s)

/-- AUX_CAL_FULL (R338). -/
def execAuxCalFull (k : Nat) (s : State) : Host.Outcome State Fault Refusal := .next (runCmd 0x000D k groupBegin (fun c s => s.onDev (doAuxCalFull c)) s)

/-- DOMAIN_SET (R310). -/
def execDomainSet (k : Nat) (s : State) : Host.Outcome State Fault Refusal := .next (runCmd 0x000E k groupBegin (fun c s => s.onDev (doDomainSet c)) s)

/-- HEALTH_SELFTEST (R297). -/
def execHealthSelftest (k : Nat) (s : State) : Host.Outcome State Fault Refusal := .next (runCmd 0x000F k groupBegin (fun c s => s.onDev (doSelftest c)) s)

/-- MARGIN_PLAN_RUN (R301). -/
def execMarginPlanRun (k : Nat) (s : State) : Host.Outcome State Fault Refusal := .next (runCmd 0x0010 k groupBegin (fun c s => s.onDev (doMarginPlanRun c)) s)

/-- LOG_READ (R291). -/
def execLogRead (k : Nat) (s : State) : Host.Outcome State Fault Refusal := .next (runCmd 0x0011 k groupBegin doLogRead s)

/-- KEEP_READ (R281). -/
def execKeepRead (k : Nat) (errs : List KeepErr) (s : State) : Host.Outcome State Fault Refusal :=
  .next (runCmd 0x0012 k groupBegin (doKeepRead errs) s)

/-- FLASH_READ (R252). -/
def execFlashRead (k : Nat) (s : State) : Host.Outcome State Fault Refusal := .next (runCmd 0x0013 k groupBegin doFlashRead s)

/-- STAND_QUERY (R201). -/
def execStandQuery (k : Nat) (s : State) : Host.Outcome State Fault Refusal := .next (runCmd 0x0014 k groupBegin doStandQuery s)

/-- PLATE_WRITE (R76). -/
def execPlateWrite (k : Nat) (s : State) : Host.Outcome State Fault Refusal := .next (runCmd 0x8001 k groupBegin doPlateWrite s)

/-- PLATE_COMMIT (R76). -/
def execPlateCommit (k : Nat) (s : State) : Host.Outcome State Fault Refusal := .next (runCmd 0x8002 k groupBegin doPlateCommit s)

/-- CURVE_WRITE (R103). -/
def execCurveWrite (k : Nat) (s : State) : Host.Outcome State Fault Refusal := .next (runCmd 0x8003 k groupBegin (fun c s => s.onDev (doCurveWrite c)) s)

/-- PROFILE_DEFINE (R161). -/
def execProfileDefine (k : Nat) (s : State) : Host.Outcome State Fault Refusal := .next (runCmd 0x8004 k groupBegin (fun c s => s.onDev (doProfileDefine c)) s)

/-- STIPPLE_EDIT (R82). -/
def execStippleEdit (k : Nat) (s : State) : Host.Outcome State Fault Refusal := .next (runCmd 0x8005 k groupBegin (fun c s => s.onDev (doStippleEdit c)) s)

/-- FACTORY_PLATE_RESTORE (R76). -/
def execFactoryPlateRestore (k : Nat) (s : State) : Host.Outcome State Fault Refusal := .next (runCmd 0x8006 k groupBegin doFactoryRestore s)

/-- STAND_MAP_SET (R202). -/
def execStandMapSet (k : Nat) (s : State) : Host.Outcome State Fault Refusal := .next (runCmd 0x8007 k groupBegin (fun c s => s.onDev (doStandMapSet c)) s)

/-- ROLE_SET (R209). -/
def execRoleSet (k : Nat) (s : State) : Host.Outcome State Fault Refusal := .next (runCmd 0x8008 k groupBegin (fun c s => s.onDev (doRoleSet c)) s)

/-- KEY_IMPORT (R256). -/
def execKeyImport (k : Nat) (s : State) : Host.Outcome State Fault Refusal := .next (runCmd 0x8009 k groupBegin (fun c s => s.onDev (doKeyImport c)) s)

/-- KEY_RETIRE (R258). -/
def execKeyRetire (k : Nat) (s : State) : Host.Outcome State Fault Refusal := .next (runCmd 0x800A k groupBegin (fun c s => s.onDev (doKeyRetire c)) s)

/-- FW_STAGE (R263). -/
def execFwStage (k : Nat) (s : State) : Host.Outcome State Fault Refusal := .next (runCmd 0x800B k groupBegin (fun c s => s.onDev (doFwStage c)) s)

/-- FW_SWITCH (R264). -/
def execFwSwitch (k : Nat) (s : State) : Host.Outcome State Fault Refusal := .next (runCmd 0x800C k groupBegin (fun c s => s.onDev (localSwitch c)) s)

/-- KEEP_WRITE (R282). -/
def execKeepWrite (k : Nat) (s : State) : Host.Outcome State Fault Refusal := .next (runCmd 0x800D k groupBegin (fun c s => s.onDev (doKeepWrite c)) s)

/-- FLASH_ERASE (R279). -/
def execFlashErase (k : Nat) (s : State) : Host.Outcome State Fault Refusal := .next (runCmd 0x800E k groupBegin (fun c s => s.onDev (doFlashErase c)) s)

/-- REPAIR_POLICY_SET (R296). -/
def execRepairPolicySet (k : Nat) (s : State) : Host.Outcome State Fault Refusal := .next (runCmd 0x800F k groupBegin (fun c s => s.onDev (doRepairPolicy c)) s)

end Sys2Proof.Machine
end

