-- ==== Sys2Proof/Machine/Boundary.lean ====
section
/-! DEFINITION. The frame boundary (R17), and what happens at every tick of the timebase. -/

namespace Sys2Proof.Machine

/-- What follows a boundary at `b` at which a frame began: the strobe, a firmware switch, a step of VCORE, and the commands
whose effect waited for it (R218, R264, R301, R351). A trigger that takes over `ENC_Z` suspends its index (R354). -/
def afterBoundary (b src : Nat) (d : Dev) : Dev :=
  let d := d.onIo fun z => { z with strobe := some (b + 100) }
  let d := if d.fpa.set.src = 2 ∧ src ≠ 2 ∧ d.bit F.WEB_ENC_CFG_Z_EN then d.conflict 0x01 1 else d
  (((d.fwBoundary b).vcoreStep).takeLanes).flushDones

/-- FRAME_BOUNDARY: the boundary that is due; a boundary held back begins no frame (R54). -/
def frameBoundary (s : State) : State :=
  match s.dev.boundaryDue with
  | none => s
  | some b =>
    let t := readoutBoundary s
    if s.dev.fpa.readoutStop || s.dev.fpa.clockStop then t else t.onDev (afterBoundary b s.dev.fpa.set.src)

/-- FRAME_BOUNDARY. -/
def execFrameBoundary (s : State) : Host.Outcome State Fault Refusal := .next (frameBoundary s)

/-! ### The tick (log 1) -/

/-- Slot midpoints passed since tick `t0` take the present coordinate; under source 2 the samples give it (R143, R199). -/
def Dev.latchMarks (d : Dev) (t0 : Nat) : Dev :=
  if d.get F.WEB_CTL_SRC = 2 then d
  else d.fillMarks (fun u => if t0 < u ∧ u ≤ d.t then some (d.get F.WEB_POS_W) else none)

/-- Frames in progress follow the web to their end, and note a stage out of REGULATED and FREE (R156). -/
def Dev.followFrames (d : Dev) : Dev :=
  let w := d.get F.WEB_POS_W
  let off := !d.stageGood
  d.onFpa fun z => { z with frames := z.frames.map (fun (f : Frame) =>
    if f.webE.isSome then f
    else if f.b + f.set.period ≤ d.t then { f with webE := some w }
    else { f with stageOff := f.stageOff || off }) }

/-- What changes with every tick of the timebase while the module runs. -/
def Dev.tickWork (d : Dev) (t0 : Nat) : Dev :=
  let d := (List.range 8).foldl (fun d n => tmrTick (d.t - t0) n d) d
  let d := (((d.webTick).latchMarks t0).followFrames).geoIdle
  let d := ((((d.gladeEval).trackProof).tokenWait).tokenGrant).openRetry.showOverdue
  let d := ((d.auxStart).switchTick).stopDone
  ((List.range 3).foldl (fun d p => (d.sendTick p).framesGone p) d).flushDones

/-- One tick of 10 ns with no command waiting (R14, R15): under RESET_N the timebase alone goes on, and without power nothing.
What the commands of the ending tick made true of R122 is stamped with that tick. -/
def Dev.tick (d : Dev) : Dev :=
  if d.pwr.por then d else if d.pwr.rstLow then d.clockTick else (d.mbxAdmit.swapWatch.gladeClose.trackProof.clockTick).tickWork d.t

end Sys2Proof.Machine
end

