-- ==== Sys2Proof/Machine/Dispatch.lean ====
section
/-! DEFINITION. One arm per constructor of `Instr`: each a direct call of that command's meaning. -/

namespace Sys2Proof.Machine

def exec (i : Instr) (s : State) : Host.Outcome State Fault Refusal :=
  match i with
  | .nop k => Sys2Proof.Machine.execNop k s
  | .startImaging k => Sys2Proof.Machine.execStartImaging k s
  | .stopImaging k => Sys2Proof.Machine.execStopImaging k s
  | .acqStage k => Sys2Proof.Machine.execAcqStage k s
  | .acqCommit k => Sys2Proof.Machine.execAcqCommit k s
  | .profileSelectAt k => Sys2Proof.Machine.execProfileSelectAt k s
  | .gladeDeclare k => Sys2Proof.Machine.execGladeDeclare k s
  | .proofRequest k => Sys2Proof.Machine.execProofRequest k s
  | .statSnapshot k => Sys2Proof.Machine.execStatSnapshot k s
  | .frameCapture k => Sys2Proof.Machine.execFrameCapture k s
  | .ringReset k => Sys2Proof.Machine.execRingReset k s
  | .auxSeqLoad k => Sys2Proof.Machine.execAuxSeqLoad k s
  | .auxCalZero k => Sys2Proof.Machine.execAuxCalZero k s
  | .auxCalFull k => Sys2Proof.Machine.execAuxCalFull k s
  | .domainSet k => Sys2Proof.Machine.execDomainSet k s
  | .healthSelftest k => Sys2Proof.Machine.execHealthSelftest k s
  | .marginPlanRun k => Sys2Proof.Machine.execMarginPlanRun k s
  | .logRead k => Sys2Proof.Machine.execLogRead k s
  | .keepRead k errs => Sys2Proof.Machine.execKeepRead k errs s
  | .flashRead k => Sys2Proof.Machine.execFlashRead k s
  | .standQuery k => Sys2Proof.Machine.execStandQuery k s
  | .plateWrite k => Sys2Proof.Machine.execPlateWrite k s
  | .plateCommit k => Sys2Proof.Machine.execPlateCommit k s
  | .curveWrite k => Sys2Proof.Machine.execCurveWrite k s
  | .profileDefine k => Sys2Proof.Machine.execProfileDefine k s
  | .stippleEdit k => Sys2Proof.Machine.execStippleEdit k s
  | .factoryPlateRestore k => Sys2Proof.Machine.execFactoryPlateRestore k s
  | .standMapSet k => Sys2Proof.Machine.execStandMapSet k s
  | .roleSet k => Sys2Proof.Machine.execRoleSet k s
  | .keyImport k => Sys2Proof.Machine.execKeyImport k s
  | .keyRetire k => Sys2Proof.Machine.execKeyRetire k s
  | .fwStage k => Sys2Proof.Machine.execFwStage k s
  | .fwSwitch k => Sys2Proof.Machine.execFwSwitch k s
  | .keepWrite k => Sys2Proof.Machine.execKeepWrite k s
  | .flashErase k => Sys2Proof.Machine.execFlashErase k s
  | .repairPolicySet k => Sys2Proof.Machine.execRepairPolicySet k s
  | .doorbellWrite n v wide => Sys2Proof.Machine.execDoorbellWrite n v wide s
  | .commandFetch entry => Sys2Proof.Machine.execCommandFetch entry s
  | .indirectDataFetch k data => Sys2Proof.Machine.execIndirectDataFetch k data s
  | .completionWrite => Sys2Proof.Machine.execCompletionWrite s
  | .mbxGo p => Sys2Proof.Machine.execMbxGo p s
  | .mbxAck p => Sys2Proof.Machine.execMbxAck p s
  | .runSet => Sys2Proof.Machine.execRunSet s
  | .runClear => Sys2Proof.Machine.execRunClear s
  | .fpaCntClr => Sys2Proof.Machine.execFpaCntClr s
  | .acqCtlCommit => Sys2Proof.Machine.execAcqCtlCommit s
  | .acqCtlCancel => Sys2Proof.Machine.execAcqCtlCancel s
  | .stageCtlWrite v => Sys2Proof.Machine.execStageCtlWrite v s
  | .shadowRelease => Sys2Proof.Machine.execShadowRelease s
  | .pipeCntClr loaderr cap => Sys2Proof.Machine.execPipeCntClr loaderr cap s
  | .acCtlWrite v => Sys2Proof.Machine.execAcCtlWrite v s
  | .dmCoeffWrite n v => Sys2Proof.Machine.execDmCoeffWrite n v s
  | .proofSchedWrite v => Sys2Proof.Machine.execProofSchedWrite v s
  | .shutClear => Sys2Proof.Machine.execShutClear s
  | .testClose => Sys2Proof.Machine.execTestClose s
  | .testOpen => Sys2Proof.Machine.execTestOpen s
  | .proofCntClr => Sys2Proof.Machine.execProofCntClr s
  | .preset => Sys2Proof.Machine.execPreset s
  | .flush => Sys2Proof.Machine.execFlush s
  | .webCntClr => Sys2Proof.Machine.execWebCntClr s
  | .webCtlWrite v => Sys2Proof.Machine.execWebCtlWrite v s
  | .hostSpeedWrite v => Sys2Proof.Machine.execHostSpeedWrite v s
  | .geoCommit => Sys2Proof.Machine.execGeoCommit s
  | .snap => Sys2Proof.Machine.execSnap s
  | .alarmCntClr => Sys2Proof.Machine.execAlarmCntClr s
  | .alarmQueueClr => Sys2Proof.Machine.execAlarmQueueClr s
  | .alOutWrite n v => Sys2Proof.Machine.execAlOutWrite n v s
  | .apply => Sys2Proof.Machine.execApply s
  | .linkCntClr => Sys2Proof.Machine.execLinkCntClr s
  | .scan q => Sys2Proof.Machine.execScan q s
  | .tsSrcWrite src => Sys2Proof.Machine.execTsSrcWrite src s
  | .standCntClr => Sys2Proof.Machine.execStandCntClr s
  | .trimReset => Sys2Proof.Machine.execTrimReset s
  | .hostCntClr => Sys2Proof.Machine.execHostCntClr s
  | .widthMaxWrite wm => Sys2Proof.Machine.execWidthMaxWrite wm s
  | .resume c => Sys2Proof.Machine.execResume c s
  | .ringEnable n => Sys2Proof.Machine.execRingEnable n s
  | .ringDisable n => Sys2Proof.Machine.execRingDisable n s
  | .ringCtlReset n => Sys2Proof.Machine.execRingCtlReset n s
  | .secCntClr => Sys2Proof.Machine.execSecCntClr s
  | .memCntClr => Sys2Proof.Machine.execMemCntClr s
  | .twSelWrite p v => Sys2Proof.Machine.execTwSelWrite p v s
  | .tableWindowRead p off code => Sys2Proof.Machine.execTableWindowRead p off code s
  | .tableWindowWrite p off v => Sys2Proof.Machine.execTableWindowWrite p off v s
  | .storeCntClr => Sys2Proof.Machine.execStoreCntClr s
  | .healthCntClr => Sys2Proof.Machine.execHealthCntClr s
  | .mpRun => Sys2Proof.Machine.execMpRun s
  | .sysRstHost => Sys2Proof.Machine.execSysRstHost s
  | .sysRstWarm => Sys2Proof.Machine.execSysRstWarm s
  | .save => Sys2Proof.Machine.execSave s
  | .bootClear => Sys2Proof.Machine.execBootClear s
  | .clkCntClr => Sys2Proof.Machine.execClkCntClr s
  | .pwrCntClr => Sys2Proof.Machine.execPwrCntClr s
  | .balSetpointWrite v => Sys2Proof.Machine.execBalSetpointWrite v s
  | .auxSeqCommit => Sys2Proof.Machine.execAuxSeqCommit s
  | .auxRefWrite sel => Sys2Proof.Machine.execAuxRefWrite sel s
  | .auxCntClr => Sys2Proof.Machine.execAuxCntClr s
  | .gladeInPolWrite pol => Sys2Proof.Machine.execGladeInPolWrite pol s
  | .gpCfgWrite n v => Sys2Proof.Machine.execGpCfgWrite n v s
  | .ioCntClr => Sys2Proof.Machine.execIoCntClr s
  | .tmrCtlWrite n v => Sys2Proof.Machine.execTmrCtlWrite n v s
  | .registerWrite p off v wide => Sys2Proof.Machine.execRegisterWrite p off v wide s
  | .lowWordRead p off wide => Sys2Proof.Machine.execLowWordRead p off wide s
  | .highWordWrite p off v => Sys2Proof.Machine.execHighWordWrite p off v s
  | .partialWrite off => Sys2Proof.Machine.execPartialWrite off s
  | .badAccess write off => Sys2Proof.Machine.execBadAccess write off s
  | .spiHeader hdr mode3 => Sys2Proof.Machine.execSpiHeader hdr mode3 s
  | .spiWriteWord v => Sys2Proof.Machine.execSpiWriteWord v s
  | .spiReadFetch late => Sys2Proof.Machine.execSpiReadFetch late s
  | .spiTransactionEnd e lowUnsent => Sys2Proof.Machine.execSpiTransactionEnd e lowUnsent s
  | .jtagInstruction code => Sys2Proof.Machine.execJtagInstruction code s
  | .frameBoundary => Sys2Proof.Machine.execFrameBoundary s
  | .trigInEdge encZ => Sys2Proof.Machine.execTrigInEdge encZ s
  | .verticalBlanking => Sys2Proof.Machine.execVerticalBlanking s
  | .slotPacketArrival f slot ok rows reads => Sys2Proof.Machine.execSlotPacketArrival f slot ok rows reads s
  | .slotAtTap4 f slot reads path => Sys2Proof.Machine.execSlotAtTap4 f slot reads path s
  | .samplesAccumulated f slot reads => Sys2Proof.Machine.execSamplesAccumulated f slot reads s
  | .idleExitEvaluation => Sys2Proof.Machine.execIdleExitEvaluation s
  | .recordTimeout => Sys2Proof.Machine.execRecordTimeout s
  | .captureFrameDone b reads => Sys2Proof.Machine.execCaptureFrameDone b reads s
  | .captureAbandoned b => Sys2Proof.Machine.execCaptureAbandoned b s
  | .stageSample => Sys2Proof.Machine.execStageSample s
  | .stageSettled => Sys2Proof.Machine.execStageSettled s
  | .marginLow => Sys2Proof.Machine.execMarginLow s
  | .stageUnreg => Sys2Proof.Machine.execStageUnreg s
  | .diodeExcl n => Sys2Proof.Machine.execDiodeExcl n s
  | .plateSwapFallback => Sys2Proof.Machine.execPlateSwapFallback s
  | .shadowHoldExpiry => Sys2Proof.Machine.execShadowHoldExpiry s
  | .platePersistDone ok => Sys2Proof.Machine.execPlatePersistDone ok s
  | .clusterEvaluation => Sys2Proof.Machine.execClusterEvaluation s
  | .proofBegin => Sys2Proof.Machine.execProofBegin s
  | .drivePulseEnd => Sys2Proof.Machine.execDrivePulseEnd s
  | .closedSensed => Sys2Proof.Machine.execClosedSensed s
  | .openSensed => Sys2Proof.Machine.execOpenSensed s
  | .shutFault => Sys2Proof.Machine.execShutFault s
  | .settlingEnd => Sys2Proof.Machine.execSettlingEnd s
  | .offsetsComputed => Sys2Proof.Machine.execOffsetsComputed s
  | .tauFit => Sys2Proof.Machine.execTauFit s
  | .plateAccepted => Sys2Proof.Machine.execPlateAccepted s
  | .noFrames => Sys2Proof.Machine.execNoFrames s
  | .proofAgeDue => Sys2Proof.Machine.execProofAgeDue s
  | .proofForceDue => Sys2Proof.Machine.execProofForceDue s
  | .overdue => Sys2Proof.Machine.execOverdue s
  | .channelCalPass group gains => Sys2Proof.Machine.execChannelCalPass group gains s
  | .gladeInWindow level => Sys2Proof.Machine.execGladeInWindow level s
  | .speedWindow => Sys2Proof.Machine.execSpeedWindow s
  | .declaredWindowEnd => Sys2Proof.Machine.execDeclaredWindowEnd s
  | .scheduleWindow => Sys2Proof.Machine.execScheduleWindow s
  | .profileGladeEnd => Sys2Proof.Machine.execProfileGladeEnd s
  | .encoderEdge a b => Sys2Proof.Machine.execEncoderEdge a b s
  | .indexEdge => Sys2Proof.Machine.execIndexEdge s
  | .encLoss => Sys2Proof.Machine.execEncLoss s
  | .speedEvaluation => Sys2Proof.Machine.execSpeedEvaluation s
  | .webStopped => Sys2Proof.Machine.execWebStopped s
  | .alarmIntervalEnter => Sys2Proof.Machine.execAlarmIntervalEnter s
  | .alarmIntervalRetire => Sys2Proof.Machine.execAlarmIntervalRetire s
  | .alarmPulseEnd n => Sys2Proof.Machine.execAlarmPulseEnd n s
  | .flitReceive q x bytes => Sys2Proof.Machine.execFlitReceive q x bytes s
  | .portTraining q ev => Sys2Proof.Machine.execPortTraining q ev s
  | .trainTimeout q => Sys2Proof.Machine.execTrainTimeout q s
  | .portDown q => Sys2Proof.Machine.execPortDown q s
  | .laneFailed q lane => Sys2Proof.Machine.execLaneFailed q lane s
  | .laneReturn q lane => Sys2Proof.Machine.execLaneReturn q lane s
  | .lmGroup q use_ req ack cnt => Sys2Proof.Machine.execLmGroup q use_ req ack cnt s
  | .routeRing fl => Sys2Proof.Machine.execRouteRing fl s
  | .routeCut fl => Sys2Proof.Machine.execRouteCut fl s
  | .dreq q => Sys2Proof.Machine.execDreq q s
  | .dresp q t4 fl => Sys2Proof.Machine.execDresp q t4 fl s
  | .timeSend => Sys2Proof.Machine.execTimeSend s
  | .timeReceive q tIn fl => Sys2Proof.Machine.execTimeReceive q tIn fl s
  | .timeHoldover => Sys2Proof.Machine.execTimeHoldover s
  | .encSend => Sys2Proof.Machine.execEncSend s
  | .encReceive q fl => Sys2Proof.Machine.execEncReceive q fl s
  | .encExtrapolate t => Sys2Proof.Machine.execEncExtrapolate t s
  | .encSampleLoss => Sys2Proof.Machine.execEncSampleLoss s
  | .heartSend => Sys2Proof.Machine.execHeartSend s
  | .heartReceive q fl => Sys2Proof.Machine.execHeartReceive q fl s
  | .membershipEvaluation => Sys2Proof.Machine.execMembershipEvaluation s
  | .mapReceive fl => Sys2Proof.Machine.execMapReceive fl s
  | .mapRepeat => Sys2Proof.Machine.execMapRepeat s
  | .takeover => Sys2Proof.Machine.execTakeover s
  | .channelState rx => Sys2Proof.Machine.execChannelState rx s
  | .prepare fl data => Sys2Proof.Machine.execPrepare fl data s
  | .vote fl => Sys2Proof.Machine.execVote fl s
  | .prepTimeout => Sys2Proof.Machine.execPrepTimeout s
  | .commit fl => Sys2Proof.Machine.execCommit fl s
  | .abort fl => Sys2Proof.Machine.execAbort fl s
  | .done fl => Sys2Proof.Machine.execDone fl s
  | .commitTimeout => Sys2Proof.Machine.execCommitTimeout s
  | .gladeRelay rx => Sys2Proof.Machine.execGladeRelay rx s
  | .token fl => Sys2Proof.Machine.execToken fl s
  | .tokenWithdraw => Sys2Proof.Machine.execTokenWithdraw s
  | .segmentReceive sg reads => Sys2Proof.Machine.execSegmentReceive sg reads s
  | .mergeWaitExpiry reads => Sys2Proof.Machine.execMergeWaitExpiry reads s
  | .authReceive fl data => Sys2Proof.Machine.execAuthReceive fl data s
  | .rootResume => Sys2Proof.Machine.execRootResume s
  | .descriptorFetch n bytes => Sys2Proof.Machine.execDescriptorFetch n bytes s
  | .dmaCompletion r cause bytes => Sys2Proof.Machine.execDmaCompletion r cause bytes s
  | .completionTimeout r => Sys2Proof.Machine.execCompletionTimeout r s
  | .dmaReissue r => Sys2Proof.Machine.execDmaReissue r s
  | .recordStaged reads => Sys2Proof.Machine.execRecordStaged reads s
  | .bufferHoldExpiry n => Sys2Proof.Machine.execBufferHoldExpiry n s
  | .bufferComplete n => Sys2Proof.Machine.execBufferComplete n s
  | .msiXMessage v => Sys2Proof.Machine.execMsiXMessage v s
  | .busMasterChange bme d3hot => Sys2Proof.Machine.execBusMasterChange bme d3hot s
  | .linkDown flr => Sys2Proof.Machine.execLinkDown flr s
  | .perstN low => Sys2Proof.Machine.execPerstN low s
  | .ptmDialog valid tn mn => Sys2Proof.Machine.execPtmDialog valid tn mn s
  | .firmwareSound => Sys2Proof.Machine.execFirmwareSound s
  | .fwTrialExpiry => Sys2Proof.Machine.execFwTrialExpiry s
  | .keepPageWriteDone ok => Sys2Proof.Machine.execKeepPageWriteDone ok s
  | .flashWriteDone ok => Sys2Proof.Machine.execFlashWriteDone ok s
  | .scrubSweep found => Sys2Proof.Machine.execScrubSweep found s
  | .scrubForcedCycle found => Sys2Proof.Machine.execScrubForcedCycle found s
  | .tableWordReload w => Sys2Proof.Machine.execTableWordReload w s
  | .healthTestComplete ss elem pass => Sys2Proof.Machine.execHealthTestComplete ss elem pass s
  | .testNotPossible ss elem => Sys2Proof.Machine.execTestNotPossible ss elem s
  | .restoreRetest ss elem pass => Sys2Proof.Machine.execRestoreRetest ss elem pass s
  | .ringCountRead dfs mons => Sys2Proof.Machine.execRingCountRead dfs mons s
  | .marginPlanDue => Sys2Proof.Machine.execMarginPlanDue s
  | .marginPlan mp => Sys2Proof.Machine.execMarginPlan mp s
  | .marginPlanGladeTimeout => Sys2Proof.Machine.execMarginPlanGladeTimeout s
  | .drainEnd d => Sys2Proof.Machine.execDrainEnd d s
  | .drainLimitExpiry d left => Sys2Proof.Machine.execDrainLimitExpiry d left s
  | .domainOff d => Sys2Proof.Machine.execDomainOff d s
  | .domainUsable d => Sys2Proof.Machine.execDomainUsable d s
  | .onDemandIdle d => Sys2Proof.Machine.execOnDemandIdle d s
  | .ballastSample pIn pFpa pHeater pBal => Sys2Proof.Machine.execBallastSample pIn pFpa pHeater pBal s
  | .ballastSat => Sys2Proof.Machine.execBallastSat s
  | .satWindowExpiry => Sys2Proof.Machine.execSatWindowExpiry s
  | .refclkLost => Sys2Proof.Machine.execRefclkLost s
  | .holdoverExpiry => Sys2Proof.Machine.execHoldoverExpiry s
  | .refclkReturn => Sys2Proof.Machine.execRefclkReturn s
  | .powerOnResetRelease role1 role0 => Sys2Proof.Machine.execPowerOnResetRelease role1 role0 s
  | .brownout => Sys2Proof.Machine.execBrownout s
  | .vioLow bank => Sys2Proof.Machine.execVioLow bank s
  | .resetN low role1 role0 => Sys2Proof.Machine.execResetN low role1 role0 s
  | .pllLock => Sys2Proof.Machine.execPllLock s
  | .startUpStep si => Sys2Proof.Machine.execStartUpStep si s
  | .auxRound => Sys2Proof.Machine.execAuxRound s
  | .auxEntryResult n sum => Sys2Proof.Machine.execAuxEntryResult n sum s
  | .auxCalMeasurementDone sum => Sys2Proof.Machine.execAuxCalMeasurementDone sum s
  | .refSettled valid => Sys2Proof.Machine.execRefSettled valid s
  | .auxRecordClose => Sys2Proof.Machine.execAuxRecordClose s
  | .timeInEdge => Sys2Proof.Machine.execTimeInEdge s
  | .timeInHoldover => Sys2Proof.Machine.execTimeInHoldover s
  | .timerCompare n => Sys2Proof.Machine.execTimerCompare n s
  | .timerCapture n => Sys2Proof.Machine.execTimerCapture n s
  | .shutPosChange which level => Sys2Proof.Machine.execShutPosChange which level s
  | .declaredWindowBegin => Sys2Proof.Machine.execDeclaredWindowBegin s
  | .encFailsafeEnd => Sys2Proof.Machine.execEncFailsafeEnd s
  | .ptmHoldover => Sys2Proof.Machine.execPtmHoldover s
  | .segmentHoldLimit => Sys2Proof.Machine.execSegmentHoldLimit s
  | .pcieLinkUp speed width => Sys2Proof.Machine.execPcieLinkUp speed width s
  | .pcieRetrain enter speed width => Sys2Proof.Machine.execPcieRetrain enter speed width s
  | .configurationRequest wr rd clr => Sys2Proof.Machine.execConfigurationRequest wr rd clr s
  | .sweepComplete => Sys2Proof.Machine.execSweepComplete s
  | .operatingTimeIncrement => Sys2Proof.Machine.execOperatingTimeIncrement s
  | .vioRestored bank => Sys2Proof.Machine.execVioRestored bank s
  | .frameStrobeEnd => Sys2Proof.Machine.execFrameStrobeEnd s
  | .newFirmwareRuns => Sys2Proof.Machine.execNewFirmwareRuns s
  | .fwSwitchTick => Sys2Proof.Machine.execFwSwitchTick s
  | .laneMaskSwitch q tx => Sys2Proof.Machine.execLaneMaskSwitch q tx s

end Sys2Proof.Machine
end

