-- ==== Sys2Proof/Machine/Step.lean ====
section
/-! DEFINITION. One step: the command at the front of the queue, or a tick of the timebase when none waits. -/

namespace Sys2Proof.Machine

open Sys2Proof

/-- Take the first waiting command and run it on the state that keeps the others waiting; with none waiting the timebase
advances by one tick (log 1). -/
def step (s : State) : Host.Outcome State Fault Refusal :=
  match s.pending with
  | [] => .next (s.onDev Dev.tick)
  | i :: is => exec i { s with pending := is }

/-- Put a command in front of the queue. -/
def State.pushFront (s : State) (i : Instr) : State := { s with pending := i :: s.pending }

/-- The command a word of the table spells, put in front; no row of the table gives bits (log 2). -/
def State.withFetchWord (s : State) (nbits w : Nat) : State :=
  match decodeTableWord nbits w with
  | some i => s.pushFront i
  | none => s

end Sys2Proof.Machine
end

