-- ==== Sys2Proof/Safety.lean ====
section
/-! DEFINITION. What the statements about the block speak of: the invariant of the memories, what a command answers, what it
leaves alone, and when a host command is carried out. -/

namespace Sys2Proof.Machine

open Sys2Proof

/-- The three byte memories are in their canonical form: addresses rise strictly, and no byte is listed that reads as an unlisted
one. -/
def State.Canonical (s : State) : Prop :=
  s.mem.qdr.wf qdrDef = true ∧ s.mem.flash.wf flashDef = true ∧ s.mem.keep.wf keepDef = true

/-- The command answers a next state, of which `P` holds. -/
def Answers (i : Instr) (s : State) (P : State → Prop) : Prop := ∃ t, exec i s = .next t ∧ P t

/-- Every register word outside `L` reads as before. -/
def RegsBut (L : Nat → Prop) (s t : State) : Prop := ∀ o, ¬ L o → t.dev.reg o = s.dev.reg o

/-- Every byte of the three memories reads as before, and the queue is the same. -/
def SameMem (s t : State) : Prop :=
  (∀ a, t.mem.qdr.rd qdrDef a = s.mem.qdr.rd qdrDef a) ∧ (∀ a, t.mem.flash.rd flashDef a = s.mem.flash.rd flashDef a) ∧
  (∀ a, t.mem.keep.rd keepDef a = s.mem.keep.rd keepDef a) ∧ t.pending = s.pending

/-! ### Frames -/

/-- The parts of the block beside its registers. The note of what the module has set in the present clock (`ties`, R26) is none of them:
no register shows it, and every tick clears it. -/
inductive Part where
  | now
  | out
  | freeIdx
  | paths
  | host
  | sec
  | store
  | health
  | fpa
  | stage
  | aux
  | pipe
  | pwr
  | burin
  | web
  | stat
  | alarm
  | proof
  | glade
  | cc
  | link
  | stand
  | saved
  | io
  deriving DecidableEq, Repr

/-- A part is the same in two states. -/
def Part.same (d e : Dev) : Part → Prop
  | .now => e.now = d.now
  | .out => e.out = d.out
  | .freeIdx => e.freeIdx = d.freeIdx
  | .paths => e.paths = d.paths
  | .host => e.host = d.host
  | .sec => e.sec = d.sec
  | .store => e.store = d.store
  | .health => e.health = d.health
  | .fpa => e.fpa = d.fpa
  | .stage => e.stage = d.stage
  | .aux => e.aux = d.aux
  | .pipe => e.pipe = d.pipe
  | .pwr => e.pwr = d.pwr
  | .burin => e.burin = d.burin
  | .web => e.web = d.web
  | .stat => e.stat = d.stat
  | .alarm => e.alarm = d.alarm
  | .proof => e.proof = d.proof
  | .glade => e.glade = d.glade
  | .cc => e.cc = d.cc
  | .link => e.link = d.link
  | .stand => e.stand = d.stand
  | .saved => e.saved = d.saved
  | .io => e.io = d.io

/-- Every register of the register index, in order of block. -/
def regRows : List RegRow := (List.range 15).flatMap blockRegs

/-- An offset is a word of the register, or of any element of the array, that a row describes. -/
def RegRow.holds (r : RegRow) (o : Nat) : Prop :=
  ∃ i < r.count, o = r.base + r.stride * i ∨ (r.pair = true ∧ o = r.base + r.stride * i + 4)

/-- What a command may change: registers, by the offset of their first word, and parts. -/
structure Touch where
  regs : List Nat
  parts : List Part
  deriving DecidableEq, Repr

/-- Nothing but what is named differs: every other register word reads as before, and every other part is the same. -/
def OnlyTouched (x : Touch) (d e : Dev) : Prop :=
  (∀ o, (∀ r ∈ regRows, r.base ∈ x.regs → ¬ r.holds o) → e.reg o = d.reg o) ∧ ∀ p, p ∉ x.parts → p.same d e

/-! ### Host commands -/

/-- A row of the host command set meets its command: the command held under the acceptance number `k` is `c`, of opcode `op`, and it
may start now; it names no other slot (R247, R249). -/
structure Ready (s : State) (op k : Nat) (c : Cmd) : Prop where
  held : s.dev.sec.cmds.find? (fun c => c.k == k) = some c
  isOp : c.op = op
  may : canStart s.dev c = true
  alone : (c.others s.dev).isEmpty = true

/-- Where a completion entry stands: behind those that wait for ring 1, in the mailbox, or with this module's part of a group
command (R218, R235, R261). `more` says what other commands ended before it. -/
def CplPlaced (more : List (List Byte)) (c : Cmd) (status detail result : Nat) (s t : State) : Prop :=
  match c.origin with
  | .ring => t.dev.host.cpls = s.dev.host.cpls ++ more ++ [cplBytes c status detail result 0xFF]
  | .mbx _ => t.dev.bit F.SEC_MBX_STAT_BUSY = false ∧ t.dev.bit F.SEC_MBX_STAT_DONE = true ∧
      ∀ i < 4, t.dev.get (F.SEC_MBX_CPL_DATA.at i) = leAt (cplBytes c status detail result 0xFF) (4 * i) 4
  | .group txn => (txn, status, detail, result) ∈ t.dev.sec.parts

/-- The command is ended with a status, a detail and a result: it is no longer held, and its completion is placed; no other
command ended. -/
def Ended (c : Cmd) (status detail result : Nat) (s t : State) : Prop :=
  t.dev.sec.cmds = (s.dev.sec.cmds.filter (fun x => x.k != c.k)) ∧ CplPlaced [] c status detail result s t

/-- The same where other commands may end with it. -/
def EndedToo (c : Cmd) (status detail result : Nat) (s t : State) : Prop :=
  (∀ x ∈ t.dev.sec.cmds, x.k ≠ c.k) ∧ ∃ more, CplPlaced more c status detail result s t

/-- The command is still held, and has started. -/
def Waits (k : Nat) (t : State) : Prop := ∃ x ∈ t.dev.sec.cmds, x.k = k ∧ x.started = true

/-- Data returned where the command asked for it: host memory, the mailbox's data registers, or the staging table of QDR when it is
longer than 4096 bytes (R248, R261). -/
def Returned (c : Cmd) (bs : List Byte) (s t : State) : Prop :=
  match c.origin with
  | .ring => t.dev.out = s.dev.out ++ [.dmaWrite c.iptr bs false]
  | .mbx _ =>
    if bs.length ≤ 4096 then ∀ i < cdiv bs.length 4, t.dev.get (F.SEC_MBX_DATA_DATA.at i) = leAt bs (4 * i) 4
    else ∀ i, (h : i < bs.length) → t.mem.qdr.rd qdrDef (0x0E700000 + i) = bs[i]
  | .group _ => True

/-- The coordinate PROFILE_SELECT_AT asks for, in this module's own coordinates: an X of 0 is the next boundary of the grid in force
(R162, R198). -/
def profileX (d : Dev) (c : Cmd) : Nat :=
  let x := if c.f 32 8 = 0 then 0 else wadd (c.f 32 8) (-d.wOfs)
  if x = 0 then d.selectX d.reach else x

/-- The tick a trigger edge accepted now bears: that of the first sample of its new level (R140, R349). -/
def trigStamp (encZ : Bool) (d : Dev) : Nat := if encZ then d.t - d.get F.WEB_ENC_CFG_FILT else d.t - d.get F.IO_PIN_CFG_FILT

/-- The block with the image of AUX_SEQ_LOAD in its staging registers (R333). -/
def auxStaged (b : List Byte) (d : Dev) : Dev :=
  let d := d.writeWord R.AUX_SEQ_CTL (leAt b 2 2)
  let d := d.writeWord R.AUX_WIN_EN (leAt b 4 2)
  (List.range 16).foldl (fun d n =>
    (d.writeWord (R.AUX_ENT_CFG + 0x10 * n) (leAt b (16 + 8 * n) 4)).writeWord (R.AUX_ENT_WIN + 0x10 * n) (leAt b (20 + 8 * n) 4)) d

/-- A flash range touches the factory area, the running firmware bank, the boot bank during a trial, or a slot that a background
write is using (R277, R279). -/
def eraseBarred (d : Dev) (a n : Nat) : Bool :=
  meets a n 0 0x100000 || meets a n (plateFlash 0) (2 * 0x02900000) || meets a n (stFlash 0) 0x300000 || meets a n (curveFlash 0) 0x40000 ||
  meets a n (fwFlash (d.get F.SEC_FW_STAT_ACTIVE)) 0x1000000 ||
  (d.bit F.SEC_FW_STAT_TRIAL && meets a n (fwFlash (d.get F.SEC_FW_STAT_BOOT)) 0x1000000) ||
  d.store.flashQ.any (fun j => meets a n (j.what.range d).1 (j.what.range d).2)

/-! ### What each command can change -/

/-- The registers an event log entry can change (R289, R293, R294): its number, the lost count, the fault source, the queue of tests
and the Keep's queue. -/
def logRegs : List Nat := [R.STORE_KEEP_STAT, R.HEALTH_STAT, R.HEALTH_EVT_SEQ, R.HEALTH_EVT_LOST, R.HEALTH_FAULT_SRC, R.HEALTH_TEST_DROP]

/-- The parts an event log entry can change. -/
def logParts : List Part := [.host, .store, .health]

/-- The registers a completion can change (R249, R261). -/
def cplRegs : List Nat := [R.SEC_STAT, R.SEC_MBX_STAT, R.SEC_MBX_CPL]

/-- What a command can change of the block beside its memories. A host command is taken to name no other slot. A register write,
a reset and the start-up have statements of their own. -/
def touched : Instr → Option Touch
  | .nop .. => some ⟨cplRegs, [.host, .sec]⟩
  | .startImaging .. => some ⟨cplRegs ++ [R.FPA_CTL, R.FPA_STAT, R.FPA_GEN_PEND, R.FPA_ACQ_STAT, R.FPA_ACQ_BND, R.WEB_STAT,
    R.WEB_PROF_CUR, R.WEB_PROF_PEND, R.WEB_PROF_NEXT, R.WEB_OPEN], [.host, .sec, .fpa, .web]⟩
  | .stopImaging .. => some ⟨logRegs ++ cplRegs ++ [R.FPA_CTL, R.FPA_STAT, R.FPA_GEN_PEND, R.FPA_ACQ_BND, R.PIPE_PL_STAT,
    R.PIPE_CAP_STAT, R.PROOF_STAT, R.PROOF_SHUT_STAT, R.PROOF_CNT_ABORT], logParts ++ [.sec, .fpa, .pipe, .web, .proof]⟩
  | .acqStage .. => some ⟨cplRegs ++ [R.ACQ_TINT, R.ACQ_TSLOT, R.ACQ_PERIOD, R.ACQ_BIAS, R.ACQ_SKIM, R.ACQ_MODE,
    R.ACQ_WIN_ROW, R.ACQ_WIN_COL], [.host, .sec]⟩
  | .acqCommit .. => some ⟨cplRegs ++ [R.PWR_DOM_DRAIN, R.PWR_LAST, R.FPA_STAT, R.FPA_GEN_PEND, R.FPA_ACQ_STAT,
    R.FPA_ACQ_BND, R.STORE_KEEP_SPARES], [.host, .sec, .store, .fpa, .pwr]⟩
  | .profileSelectAt .. => some ⟨cplRegs ++ [R.WEB_STAT, R.WEB_PROF_CUR, R.WEB_PROF_PEND, R.WEB_PROF_NEXT, R.WEB_OPEN],
    [.host, .sec, .web]⟩
  | .gladeDeclare .. => some ⟨logRegs ++ cplRegs ++ [R.PWR_BAL_STAT, R.FPA_STAGE_STAT, R.PIPE_PL_STAT, R.PROOF_STAT,
    R.PROOF_REQ, R.PROOF_SHUT_STAT, R.PROOF_GLADE_STAT, R.PROOF_GLADE_BEGIN, R.PROOF_CNT_ABORT], logParts ++ [.sec, .fpa,
    .stage, .pipe, .pwr, .web, .proof, .glade]⟩
  | .proofRequest .. => some ⟨logRegs ++ cplRegs ++ [R.PIPE_PL_STAT, R.PROOF_STAT, R.PROOF_REQ, R.PROOF_SHUT_STAT,
    R.PROOF_CNT_ABORT], logParts ++ [.sec, .fpa, .pipe, .web, .proof]⟩
  | .statSnapshot .. => some ⟨logRegs ++ cplRegs ++ [R.STAT_SNAP_STAT, R.STAT_SNAP_GENLO, R.STAT_SNAP_GENHI,
    R.STAT_SNAP_LINES, R.STAT_SNAP_WEB, R.STAT_SNAP_HUNDER, R.STAT_SNAP_HOVER, R.STAT_SNAP_HNOVAL, R.STAT_SNAP_HGEN,
    R.STAT_FLK_RES_A, R.STAT_FLK_RES_B, R.STAT_SNAP_LANE, R.STAT_SNAP_HIST, R.MEM_UNC_ADDR, R.MEM_QDR_UNCORR],
    logParts ++ [.freeIdx, .sec, .stat]⟩
  | .frameCapture .. => some ⟨cplRegs ++ [R.PIPE_CAP_STAT], [.host, .sec, .pipe]⟩
  | .ringReset .. => some ⟨cplRegs ++ [R.PIPE_CAP_STAT, R.PIPE_CAP_DONE, R.WEB_REC_DROP, R.HOST_DB_IGNORED, R.HOST_DMA_STAT,
    R.HOST_RING_CTL, R.HOST_RING_STAT, R.HOST_RING_HIDX, R.HOST_RING_DROP], [.out, .host, .sec, .pipe]⟩
  | .auxSeqLoad .. => some ⟨cplRegs ++ [R.AUX_SEQ_CTL, R.AUX_SEQ_STAT, R.AUX_WIN_EN, R.AUX_ENT_CFG, R.AUX_ENT_WIN], [.host,
    .sec, .aux]⟩
  | .auxCalZero .. => some ⟨cplRegs ++ [R.AUX_STAT], [.host, .sec, .aux]⟩
  | .auxCalFull .. => some ⟨cplRegs ++ [R.AUX_STAT], [.host, .sec, .aux]⟩
  | .domainSet .. => some ⟨logRegs ++ cplRegs ++ [R.PWR_DOM_ON, R.PWR_DOM_DRAIN, R.PWR_LAST, R.IO_CONFLICT,
    R.IO_CONFLICT_CNT], logParts ++ [.sec, .pwr, .link]⟩
  | .healthSelftest .. => some ⟨cplRegs ++ [R.STAND_STAT, R.STORE_KEEP_STAT, R.HEALTH_STAT, R.HEALTH_EVT_SEQ,
    R.HEALTH_EVT_LOST, R.HEALTH_FAULT_SRC, R.HEALTH_ST_RESULT, R.HEALTH_ST_T], [.host, .sec, .store, .health]⟩
  | .marginPlanRun .. => some ⟨[R.HEALTH_MP_STAT], [.sec, .health]⟩
  | .logRead .. => some ⟨cplRegs ++ [R.SEC_MBX_DATA], [.out, .host, .sec, .store]⟩
  | .keepRead .. => some ⟨logRegs ++ cplRegs ++ [R.SEC_MBX_DATA, R.STORE_KEEP_CORR, R.STORE_KEEP_UNCORR, R.STORE_KEEP_TORN,
    R.STORE_KEEP_TORN_ADDR], logParts ++ [.out, .freeIdx, .sec]⟩
  | .flashRead .. => some ⟨cplRegs ++ [R.PWR_DOM_ON, R.SEC_MBX_DATA], [.out, .freeIdx, .host, .sec, .store, .pwr]⟩
  | .standQuery .. => some ⟨cplRegs ++ [R.SEC_MBX_DATA], [.out, .host, .sec, .store]⟩
  | .plateWrite .. => some ⟨cplRegs ++ [R.PIPE_PL_STAT], [.host, .sec, .store, .pipe]⟩
  | .plateCommit .. => some ⟨cplRegs ++ [R.PIPE_PL_STAT, R.PIPE_ST_STAT, R.STORE_KEEP_STAT, R.STORE_KEEP_SPARES], [.host,
    .sec, .store, .pipe, .burin]⟩
  | .curveWrite .. => some ⟨cplRegs ++ [R.PIPE_RAD_CV_STAT, R.STORE_KEEP_SPARES], [.host, .sec, .store, .burin]⟩
  | .profileDefine .. => some ⟨cplRegs ++ [R.PWR_DOM_ON, R.WEB_PROF_MAP, R.STORE_FLASH_STAT], [.host, .sec, .store, .pwr,
    .web]⟩
  | .stippleEdit .. => some ⟨cplRegs ++ [R.PIPE_ST_STAT, R.STORE_KEEP_SPARES], [.host, .sec, .store, .pipe]⟩
  | .factoryPlateRestore .. => some ⟨cplRegs ++ [R.PWR_DOM_ON, R.PIPE_PL_STAT, R.PIPE_PL_SEQ_ACT, R.PIPE_PL_SEQ_STBY,
    R.PIPE_PL_TREF, R.PIPE_ST_STAT, R.PIPE_DM_REF_T, R.PIPE_DM_REF_F, R.PIPE_DM_REF_Q, R.PIPE_DM_REF_OP, R.PIPE_AC_REF_TINT,
    R.STORE_FLASH_STAT, R.STORE_KEEP_STAT, R.STORE_KEEP_SPARES], [.host, .sec, .store, .pipe, .pwr, .burin]⟩
  | .standMapSet .. => some ⟨cplRegs, [.host, .sec, .stand]⟩
  | .roleSet .. => some ⟨cplRegs ++ [R.WEB_CTL, R.WEB_STAT, R.LINK_ENC_CTL, R.STAND_STAT, R.STAND_EPOCH, R.STAND_MAP_VER,
    R.STAND_SID, R.STAND_ROLES, R.STAND_ASSIGNED, R.STAND_ALIVE, R.STAND_VACATED, R.STAND_DEGRADED, R.STAND_EPOCH_CHG,
    R.STAND_GRP_STAT, R.STAND_GRP_OK, R.STAND_GRP_FAIL, R.STORE_KEEP_STAT], [.host, .sec, .store, .web, .link, .stand]⟩
  | .keyImport .. => some ⟨cplRegs ++ [R.PWR_DOM_ON, R.STORE_KEEP_STAT], [.host, .sec, .store, .pwr, .saved]⟩
  | .keyRetire .. => some ⟨cplRegs ++ [R.STORE_KEEP_STAT], [.host, .sec, .store]⟩
  | .fwStage .. => some ⟨cplRegs ++ [R.PWR_DOM_ON, R.SEC_FW_STAT, R.STORE_FLASH_STAT], [.host, .sec, .store, .pwr]⟩
  | .fwSwitch .. => some ⟨cplRegs ++ [R.SEC_FW_STAT], [.host, .sec]⟩
  | .keepWrite .. => some ⟨cplRegs ++ [R.STORE_KEEP_STAT], [.host, .sec, .store]⟩
  | .flashErase .. => some ⟨cplRegs ++ [R.PWR_DOM_ON, R.STORE_FLASH_STAT], [.host, .sec, .store, .pwr]⟩
  | .repairPolicySet .. => some ⟨cplRegs ++ [R.STORE_KEEP_STAT, R.HEALTH_POLICY], [.host, .sec, .store]⟩
  | .doorbellWrite .. => some ⟨logRegs ++ [R.HOST_ERR_STAT, R.HOST_DB_IGNORED, R.HOST_DMA_STAT, R.HOST_RING_STAT,
    R.HOST_RING_HIDX], logParts ++ [.out]⟩
  | .commandFetch .. => some ⟨logRegs ++ cplRegs ++ [R.PWR_DOM_ON, R.HOST_ERR_STAT, R.HOST_DMA_STAT, R.HOST_RING_STAT,
    R.HOST_RING_MIDX, R.SEC_CTR, R.SEC_AUTH_FAIL, R.SEC_REPLAY, R.SEC_ROLE_FAIL, R.STORE_KEEP_SPARES], logParts ++ [.out, .sec,
    .pwr]⟩
  | .indirectDataFetch .. => some ⟨logRegs ++ cplRegs ++ [R.PWR_DOM_ON, R.HOST_DMA_STAT, R.SEC_CTR, R.SEC_AUTH_FAIL,
    R.SEC_REPLAY, R.SEC_ROLE_FAIL, R.STORE_KEEP_SPARES], logParts ++ [.out, .sec, .pwr]⟩
  | .completionWrite => some ⟨[R.HOST_DMA_STAT, R.HOST_RING_MIDX], [.out, .host]⟩
  | .mbxGo .. => some ⟨[R.SEC_MBX_STAT], [.sec]⟩
  | .mbxAck .. => some ⟨[R.SEC_MBX_STAT], []⟩
  | .runSet => some ⟨[R.FPA_CTL, R.FPA_STAT, R.FPA_GEN_PEND, R.FPA_ACQ_STAT, R.FPA_ACQ_BND, R.WEB_STAT, R.WEB_PROF_CUR,
    R.WEB_PROF_PEND, R.WEB_PROF_NEXT, R.WEB_OPEN], [.fpa, .web]⟩
  | .runClear => some ⟨logRegs ++ cplRegs ++ [R.FPA_CTL, R.FPA_STAT, R.FPA_GEN_PEND, R.FPA_ACQ_BND, R.PIPE_PL_STAT,
    R.PROOF_STAT, R.PROOF_SHUT_STAT, R.PROOF_CNT_ABORT], logParts ++ [.sec, .fpa, .pipe, .web, .proof]⟩
  | .fpaCntClr => some ⟨[R.FPA_TRIG_MISS, R.FPA_LINK_LOST], []⟩
  | .acqCtlCommit => some ⟨cplRegs ++ [R.PWR_DOM_DRAIN, R.PWR_LAST, R.FPA_STAT, R.FPA_GEN_PEND, R.FPA_ACQ_STAT,
    R.FPA_ACQ_BND, R.STORE_KEEP_SPARES], [.host, .sec, .store, .fpa, .pwr]⟩
  | .acqCtlCancel => some ⟨cplRegs ++ [R.PWR_DOM_DRAIN, R.PWR_LAST, R.FPA_STAT, R.FPA_GEN_PEND, R.FPA_ACQ_STAT,
    R.FPA_ACQ_BND, R.STORE_KEEP_SPARES], [.host, .sec, .store, .fpa, .pwr]⟩
  | .stageCtlWrite .. => some ⟨logRegs ++ [R.FPA_STAGE_CTL, R.FPA_STAGE_STAT, R.PIPE_PL_STAT, R.PROOF_STAT, R.PROOF_REQ,
    R.PROOF_SHUT_STAT, R.PROOF_CNT_ABORT], logParts ++ [.fpa, .stage, .pipe, .web, .proof]⟩
  | .shadowRelease => some ⟨[R.PIPE_PL_STAT], [.pipe]⟩
  | .pipeCntClr .. => some ⟨[R.PIPE_PL_LOADERR, R.PIPE_CAP_DONE, R.PIPE_CAP_DROP, R.PIPE_CAP_DROP_QDR], []⟩
  | .acCtlWrite .. => some ⟨[R.PIPE_AC_CTL], []⟩
  | .dmCoeffWrite .. => some ⟨[R.PIPE_DM_STAT, R.PIPE_DM_K, R.STORE_KEEP_STAT], [.store]⟩
  | .proofSchedWrite .. => some ⟨[R.PROOF_STAT, R.PROOF_SCHED], []⟩
  | .shutClear => some ⟨[R.PROOF_SHUT_STAT], []⟩
  | .testClose => some ⟨[R.PROOF_SHUT_STAT], [.fpa, .web, .proof]⟩
  | .testOpen => some ⟨[R.PROOF_SHUT_STAT], [.fpa, .web, .proof]⟩
  | .proofCntClr => some ⟨[R.PROOF_CNT_ABORT, R.PROOF_CNT_FORCED, R.PROOF_SHUT_FAILS, R.PROOF_CC_OUTLIER], []⟩
  | .preset => some ⟨logRegs ++ [R.PWR_BAL_STAT, R.FPA_STAGE_STAT, R.PIPE_PL_STAT, R.PROOF_STAT, R.PROOF_REQ,
    R.PROOF_SHUT_STAT, R.PROOF_GLADE_STAT, R.PROOF_GLADE_BEGIN, R.PROOF_CNT_ABORT, R.WEB_STAT, R.WEB_POS, R.WEB_HW],
    logParts ++ [.fpa, .stage, .pipe, .pwr, .web, .proof, .glade, .link]⟩
  | .flush => some ⟨logRegs ++ [R.WEB_STAT, R.WEB_PROF_CUR, R.WEB_PROF_PEND, R.WEB_PROF_NEXT, R.WEB_OPEN, R.WEB_LINES,
    R.WEB_GAP, R.STAT_AL_STAT, R.STAT_AL_FIRE, R.STAT_AL_TARDY, R.STAT_AL_MERGED, R.STAND_MERGE_STAT, R.STAND_MERGE_LATE,
    R.STAND_MERGE_OVF, R.STAND_MERGE_DUP, R.STAND_MERGE_INCOMP, R.STAND_SEAM_AT_LIMIT, R.STAND_TRIM, R.STAND_SEAM,
    R.MEM_UNC_ADDR, R.MEM_QDR_UNCORR, R.HEALTH_STOP_MAX, R.HEALTH_STOPS], logParts ++ [.freeIdx, .web, .stat, .alarm, .link,
    .stand]⟩
  | .webCntClr => some ⟨[R.WEB_ENC_CNT, R.WEB_ENC_ERR, R.WEB_Z_CNT, R.WEB_Z_ERR, R.WEB_DISC_REV, R.WEB_DISC_EMIT,
    R.WEB_TRUNC, R.WEB_GAP, R.WEB_REC_DROP], []⟩
  | .webCtlWrite .. => some ⟨[R.WEB_CTL, R.WEB_STAT, R.WEB_PROF_CUR, R.WEB_PROF_PEND, R.WEB_PROF_NEXT, R.WEB_OPEN], [.web]⟩
  | .hostSpeedWrite .. => some ⟨[R.WEB_HOST_SPEED], []⟩
  | .geoCommit => some ⟨[R.PWR_DOM_ON, R.WEB_GEO_STAT, R.WEB_GEO_OMIN, R.WEB_GEO_OMAX, R.STORE_FLASH_STAT], [.store, .pwr,
    .web]⟩
  | .snap => some ⟨logRegs ++ [R.STAT_SNAP_STAT, R.STAT_SNAP_GENLO, R.STAT_SNAP_GENHI, R.STAT_SNAP_LINES, R.STAT_SNAP_WEB,
    R.STAT_SNAP_HUNDER, R.STAT_SNAP_HOVER, R.STAT_SNAP_HNOVAL, R.STAT_SNAP_HGEN, R.STAT_FLK_RES_A, R.STAT_FLK_RES_B,
    R.STAT_SNAP_LANE, R.STAT_SNAP_HIST, R.MEM_UNC_ADDR, R.MEM_QDR_UNCORR], logParts ++ [.freeIdx, .stat]⟩
  | .alarmCntClr => some ⟨[R.STAT_AL_FIRE, R.STAT_AL_TARDY, R.STAT_AL_MERGED], []⟩
  | .alarmQueueClr => some ⟨[R.STAT_AL_STAT], [.alarm]⟩
  | .alOutWrite .. => some ⟨[R.STAT_AL_OUT, R.STAT_AL_STAT, R.IO_GP_CFG, R.IO_CONFLICT, R.IO_CONFLICT_CNT, R.TMR_CTL,
    R.TMR_CMP, R.TMR_CNT, R.TMR_CAP], [.freeIdx, .io]⟩
  | .apply => some ⟨logRegs ++ cplRegs ++ [R.PIPE_CAP_STAT, R.PIPE_CAP_DONE, R.WEB_REC_DROP, R.LINK_HP_STAT, R.LINK_ROUTE,
    R.LINK_REACH, R.LINK_ROUTE_VER, R.LINK_REROUTES, R.LINK_P_STAT, R.LINK_P_DROP, R.HOST_STAT, R.HOST_ERR_STAT,
    R.HOST_LINK_DOWNS, R.HOST_DB_IGNORED, R.HOST_DMA_STAT, R.HOST_RING_CTL, R.HOST_RING_STAT, R.HOST_RING_HIDX,
    R.HOST_RING_DROP], logParts ++ [.out, .sec, .pipe, .link, .stand]⟩
  | .linkCntClr => some ⟨[R.LINK_REROUTES, R.LINK_P_CORR, R.LINK_P_UNCORR, R.LINK_P_STALE, R.LINK_P_SEQGAP, R.LINK_P_DROP,
    R.LINK_P_LANE0, R.LINK_P_LANE1, R.LINK_P_LANE2, R.LINK_P_LANE3, R.LINK_ENC_EXTRAP, R.LINK_ENC_GAP], []⟩
  | .scan .. => some ⟨[R.HEALTH_STAT, R.HEALTH_TEST_DROP], [.health, .link]⟩
  | .tsSrcWrite .. => some ⟨[R.LINK_TS_CTL], [.host, .io]⟩
  | .standCntClr => some ⟨[R.STAND_DEATHS, R.STAND_REVENANT, R.STAND_TAKEOVERS, R.STAND_EPOCH_CHG, R.STAND_MERGE_LATE,
    R.STAND_MERGE_OVF, R.STAND_MERGE_DUP, R.STAND_MERGE_INCOMP], []⟩
  | .trimReset => some ⟨[R.STAND_SEAM_AT_LIMIT, R.STAND_TRIM], [.stand]⟩
  | .hostCntClr => some ⟨[R.HOST_LINK_DOWNS, R.HOST_RETRAINS, R.HOST_UNEXP_CPL, R.HOST_DB_IGNORED, R.HOST_PTM_STAT,
    R.HOST_DMA_RETRIES, R.HOST_RING_DROP], []⟩
  | .widthMaxWrite .. => some ⟨[R.HOST_CTL, R.HOST_STAT, R.HOST_RETRAINS], []⟩
  | .resume .. => some ⟨logRegs ++ cplRegs ++ [R.PIPE_CAP_STAT, R.PIPE_CAP_DONE, R.WEB_REC_DROP, R.HOST_ERR_STAT,
    R.HOST_DMA_STAT, R.HOST_RING_STAT, R.HOST_RING_MIDX, R.HOST_RING_DROP, R.MEM_UNC_ADDR, R.MEM_QDR_UNCORR],
    logParts ++ [.out, .sec, .pipe]⟩
  | .ringEnable .. => some ⟨logRegs ++ cplRegs ++ [R.PIPE_CAP_STAT, R.PIPE_CAP_DONE, R.WEB_REC_DROP, R.HOST_ERR_STAT,
    R.HOST_DMA_STAT, R.HOST_RING_CTL, R.HOST_RING_STAT, R.HOST_RING_HIDX, R.HOST_RING_MIDX, R.HOST_RING_DROP, R.MEM_UNC_ADDR,
    R.MEM_QDR_UNCORR], logParts ++ [.out, .sec, .pipe]⟩
  | .ringDisable .. => some ⟨[R.HOST_ERR_STAT, R.HOST_DMA_STAT, R.HOST_RING_CTL, R.HOST_RING_STAT, R.HOST_RING_MIDX], [.out,
    .host]⟩
  | .ringCtlReset .. => some ⟨cplRegs ++ [R.PIPE_CAP_STAT, R.PIPE_CAP_DONE, R.WEB_REC_DROP, R.HOST_DB_IGNORED,
    R.HOST_DMA_STAT, R.HOST_RING_CTL, R.HOST_RING_STAT, R.HOST_RING_HIDX, R.HOST_RING_DROP], [.out, .host, .sec, .pipe]⟩
  | .secCntClr => some ⟨[R.SEC_AUTH_FAIL, R.SEC_REPLAY, R.SEC_ROLE_FAIL, R.SEC_RELAYED], []⟩
  | .memCntClr => some ⟨[R.MEM_PATH_CORR, R.MEM_PATH_UNCORR, R.MEM_QDR_CORR, R.MEM_QDR_UNCORR, R.MEM_QDR_WBSKIP,
    R.MEM_QDR0_WIRE, R.MEM_QDR1_WIRE, R.MEM_QDR2_WIRE, R.MEM_QDR3_WIRE], []⟩
  | .twSelWrite .. => some ⟨[], [.paths]⟩
  | .tableWindowRead .. => some ⟨logRegs ++ cplRegs ++ [R.MEM_UNC_ADDR, R.MEM_QDR_CORR, R.MEM_QDR_UNCORR, R.MEM_QDR_WBSKIP,
    R.MEM_QDR0_WIRE, R.MEM_QDR1_WIRE, R.MEM_QDR2_WIRE, R.MEM_QDR3_WIRE], logParts ++ [.out, .freeIdx, .paths, .sec]⟩
  | .tableWindowWrite .. => some ⟨[], [.paths, .store]⟩
  | .storeCntClr => some ⟨[R.STORE_FLASH_CRCERR, R.STORE_KEEP_CORR, R.STORE_KEEP_UNCORR, R.STORE_KEEP_TORN], []⟩
  | .healthCntClr => some ⟨[R.HEALTH_EVT_LOST, R.HEALTH_TESTS, R.HEALTH_TRANSIENT, R.HEALTH_LASTING, R.HEALTH_REPAIRS,
    R.HEALTH_TEST_DROP, R.HEALTH_STOP_MAX, R.HEALTH_STOPS], []⟩
  | .mpRun => some ⟨[R.HEALTH_MP_STAT], [.health]⟩
  | .sysRstHost => some ⟨logRegs ++ cplRegs ++ [R.SYS_RST_CAUSE, R.PIPE_CAP_STAT, R.PIPE_CAP_DONE, R.WEB_REC_DROP,
    R.HOST_STAT, R.HOST_ERR_STAT, R.HOST_LINK_DOWNS, R.HOST_DB_IGNORED, R.HOST_DMA_STAT, R.HOST_RING_CTL, R.HOST_RING_STAT,
    R.HOST_RING_HIDX, R.HOST_RING_DROP], logParts ++ [.out, .sec, .pipe]⟩
  | .sysRstWarm => none
  | .save => some ⟨[R.SYS_BOOT_STAT, R.PWR_DOM_ON, R.STORE_FLASH_STAT], [.store, .pwr]⟩
  | .bootClear => some ⟨[R.SYS_BOOT_STAT, R.PWR_DOM_ON, R.STORE_FLASH_STAT], [.store, .pwr]⟩
  | .clkCntClr => some ⟨[R.CLK_REF_LOSS, R.CLK_UNLOCK], []⟩
  | .pwrCntClr => some ⟨[R.PWR_ABORTED, R.PWR_BAL_SAT_CNT], []⟩
  | .balSetpointWrite .. => some ⟨[R.PWR_BAL_CTL, R.PWR_BAL_STAT], [.pwr]⟩
  | .auxSeqCommit => some ⟨[R.AUX_SEQ_STAT], [.aux]⟩
  | .auxRefWrite .. => some ⟨[R.AUX_STAT, R.AUX_REF, R.AUX_CAL_VALID], [.aux]⟩
  | .auxCntClr => some ⟨[R.AUX_OVERRUN, R.AUX_BLANK_MISS], []⟩
  | .gladeInPolWrite .. => some ⟨logRegs ++ [R.PWR_BAL_STAT, R.FPA_STAGE_STAT, R.PIPE_PL_STAT, R.PROOF_STAT, R.PROOF_REQ,
    R.PROOF_SHUT_STAT, R.PROOF_GLADE_STAT, R.PROOF_GLADE_BEGIN, R.PROOF_CNT_ABORT, R.IO_PIN_CFG, R.IO_PIN_IN],
    logParts ++ [.fpa, .stage, .pipe, .pwr, .web, .proof, .glade]⟩
  | .gpCfgWrite .. => some ⟨[R.IO_GP_CFG, R.IO_CONFLICT, R.IO_CONFLICT_CNT], []⟩
  | .ioCntClr => some ⟨[R.SPI_TXN, R.SPI_FRAG, R.SPI_BADHDR, R.IO_CONFLICT_CNT, R.IO_TIME_CNT, R.IO_TIME_REJ], []⟩
  | .tmrCtlWrite .. => some ⟨[R.IO_CONFLICT, R.IO_CONFLICT_CNT, R.TMR_CTL, R.TMR_CNT], [.io]⟩
  | .registerWrite .. => none
  | .lowWordRead .. => some ⟨logRegs ++ cplRegs ++ [R.MEM_UNC_ADDR, R.MEM_QDR_CORR, R.MEM_QDR_UNCORR, R.MEM_QDR_WBSKIP,
    R.MEM_QDR0_WIRE, R.MEM_QDR1_WIRE, R.MEM_QDR2_WIRE, R.MEM_QDR3_WIRE, R.SPI_STAT], logParts ++ [.out, .freeIdx, .paths,
    .sec]⟩
  | .highWordWrite .. => none
  | .partialWrite .. => some ⟨logRegs, logParts⟩
  | .badAccess .. => some ⟨logRegs ++ [R.HOST_ERR_STAT], logParts ++ [.out]⟩
  | .spiHeader .. => some ⟨[R.SPI_STAT, R.SPI_BADHDR], [.io]⟩
  | .spiWriteWord .. => none
  | .spiReadFetch .. => some ⟨logRegs ++ cplRegs ++ [R.MEM_UNC_ADDR, R.MEM_QDR_CORR, R.MEM_QDR_UNCORR, R.MEM_QDR_WBSKIP,
    R.MEM_QDR0_WIRE, R.MEM_QDR1_WIRE, R.MEM_QDR2_WIRE, R.MEM_QDR3_WIRE, R.SPI_STAT], logParts ++ [.out, .freeIdx, .paths, .sec,
    .io]⟩
  | .spiTransactionEnd .. => some ⟨[R.SPI_STAT, R.SPI_TXN, R.SPI_FRAG], [.paths, .io]⟩
  | .jtagInstruction .. => some ⟨[], [.out]⟩
  | .frameBoundary => some ⟨logRegs ++ cplRegs ++ [R.PWR_DOM_ON, R.FPA_STAT, R.FPA_GEN_CUR, R.FPA_GEN_PEND, R.FPA_ACQ_BND,
    R.FPA_FRAME_T, R.FPA_FRAME_CNT, R.FPA_CGTRIM, R.FPA_CGMAP, R.PIPE_NS_STAT, R.PIPE_PL_STAT, R.PIPE_PL_SEQ_ACT,
    R.PIPE_PL_SEQ_STBY, R.PIPE_PL_TREF, R.PIPE_PL_SWAP_T, R.PIPE_ST_STAT, R.PIPE_ST_DEFECTS, R.PIPE_ST_INVALID,
    R.PIPE_ST_CLUMAX, R.PIPE_ST_SEQ, R.PIPE_CAP_STAT, R.PIPE_CAP_DROP, R.PIPE_BU_STAT, R.PIPE_BU_RESTART, R.PIPE_BU_GATED,
    R.PIPE_BU_TAUMED, R.PIPE_DM_OFS, R.PIPE_DM_K, R.PIPE_DM_REF_T, R.PIPE_DM_REF_F, R.PIPE_DM_REF_Q, R.PIPE_DM_REF_OP,
    R.PIPE_RAD_CV_STAT, R.PIPE_RAD_CV_SEQ, R.PIPE_RAD_SAT, R.PIPE_RAD_NOVAL, R.PIPE_AC_STAT, R.PIPE_AC_AGE, R.PIPE_AC_CHANGES,
    R.PIPE_AC_PROOF_T, R.PIPE_AC_REF_TINT, R.PROOF_STAT, R.PROOF_REQ, R.PROOF_SHUT_STAT, R.PROOF_BLADE_T, R.PROOF_CNT_DONE,
    R.PROOF_CNT_ABORT, R.WEB_GEO_STAT, R.WEB_GEO_OMIN, R.WEB_GEO_OMAX, R.STAND_DEGRADED, R.STAND_GRP_STAT, R.STAND_GRP_OK,
    R.STAND_GRP_FAIL, R.SEC_CTR, R.SEC_AUTH_FAIL, R.SEC_REPLAY, R.SEC_ROLE_FAIL, R.SEC_FW_STAT, R.SEC_FW_SWITCH_T,
    R.STORE_FLASH_STAT, R.STORE_KEEP_SPARES, R.HEALTH_MP_STAT, R.HEALTH_MP_VCORE, R.AUX_OVERRUN, R.IO_CONFLICT,
    R.IO_CONFLICT_CNT], logParts ++ [.sec, .fpa, .aux, .pipe, .pwr, .burin, .web, .stat, .proof, .link, .stand, .io]⟩
  | .trigInEdge .. => some ⟨[R.FPA_TRIG_MISS, R.IO_PIN_IN], [.fpa]⟩
  | .verticalBlanking => some ⟨[R.AUX_OVERRUN, R.AUX_BLANK_MISS], [.aux, .cc]⟩
  | .slotPacketArrival .. => some ⟨logRegs ++ cplRegs ++ [R.FPA_LINK_LOST, R.PIPE_NS_STAT, R.PIPE_NS_ROWSPAN,
    R.PIPE_NS_CHDRIFT, R.MEM_UNC_ADDR, R.MEM_QDR_CORR, R.MEM_QDR_UNCORR, R.MEM_QDR_WBSKIP, R.MEM_QDR0_WIRE, R.MEM_QDR1_WIRE,
    R.MEM_QDR2_WIRE, R.MEM_QDR3_WIRE], logParts ++ [.sec, .fpa]⟩
  | .slotAtTap4 .. => some ⟨logRegs ++ cplRegs ++ [R.MEM_UNC_ADDR, R.MEM_PATH_CORR, R.MEM_PATH_UNCORR, R.MEM_QDR_CORR,
    R.MEM_QDR_UNCORR, R.MEM_QDR_WBSKIP, R.MEM_QDR0_WIRE, R.MEM_QDR1_WIRE, R.MEM_QDR2_WIRE, R.MEM_QDR3_WIRE], logParts ++ [.sec,
    .fpa, .burin, .stat, .proof]⟩
  | .samplesAccumulated .. => some ⟨logRegs ++ cplRegs ++ [R.WEB_STAT, R.WEB_PROF_CUR, R.WEB_PROF_PEND, R.WEB_PROF_NEXT,
    R.WEB_OPEN, R.WEB_LINES, R.WEB_DISC_REV, R.WEB_DISC_EMIT, R.WEB_TRUNC, R.WEB_GAP, R.STAT_AL_STAT, R.STAT_AL_FIRE,
    R.STAT_AL_TARDY, R.STAT_AL_MERGED, R.STAND_MERGE_STAT, R.STAND_MERGE_LATE, R.STAND_MERGE_OVF, R.STAND_MERGE_DUP,
    R.STAND_MERGE_INCOMP, R.STAND_SEAM_AT_LIMIT, R.STAND_TRIM, R.STAND_SEAM, R.MEM_UNC_ADDR, R.MEM_QDR_CORR, R.MEM_QDR_UNCORR,
    R.MEM_QDR_WBSKIP, R.MEM_QDR0_WIRE, R.MEM_QDR1_WIRE, R.MEM_QDR2_WIRE, R.MEM_QDR3_WIRE, R.HEALTH_STOP_MAX, R.HEALTH_STOPS],
    logParts ++ [.freeIdx, .sec, .fpa, .web, .stat, .alarm, .link, .stand]⟩
  | .idleExitEvaluation => some ⟨logRegs ++ [R.WEB_STAT, R.WEB_PROF_CUR, R.WEB_PROF_PEND, R.WEB_PROF_NEXT, R.WEB_OPEN,
    R.WEB_LINES, R.WEB_GAP, R.STAT_AL_STAT, R.STAT_AL_FIRE, R.STAT_AL_TARDY, R.STAT_AL_MERGED, R.STAND_MERGE_STAT,
    R.STAND_MERGE_LATE, R.STAND_MERGE_OVF, R.STAND_MERGE_DUP, R.STAND_MERGE_INCOMP, R.STAND_SEAM_AT_LIMIT, R.STAND_TRIM,
    R.STAND_SEAM, R.MEM_UNC_ADDR, R.MEM_QDR_UNCORR, R.HEALTH_STOP_MAX, R.HEALTH_STOPS], logParts ++ [.freeIdx, .web, .stat,
    .alarm, .link, .stand]⟩
  | .recordTimeout => some ⟨[], [.freeIdx, .host, .stand]⟩
  | .captureFrameDone .. => some ⟨logRegs ++ cplRegs ++ [R.PIPE_CAP_STAT, R.MEM_UNC_ADDR, R.MEM_QDR_CORR, R.MEM_QDR_UNCORR,
    R.MEM_QDR_WBSKIP, R.MEM_QDR0_WIRE, R.MEM_QDR1_WIRE, R.MEM_QDR2_WIRE, R.MEM_QDR3_WIRE], logParts ++ [.sec, .pipe]⟩
  | .captureAbandoned .. => some ⟨cplRegs ++ [R.PIPE_CAP_STAT, R.PIPE_CAP_DROP_QDR], [.host, .sec, .pipe]⟩
  | .stageSample => some ⟨logRegs ++ cplRegs ++ [R.FPA_STAGE_STAT, R.FPA_STAGE_TEMP, R.FPA_STAGE_RATE, R.FPA_FRAME_TEMP,
    R.FPA_HEATER, R.PIPE_PL_STAT, R.PIPE_CAP_STAT, R.PROOF_STAT, R.PROOF_REQ, R.PROOF_SHUT_STAT, R.PROOF_CNT_ABORT],
    logParts ++ [.freeIdx, .sec, .fpa, .stage, .pipe, .web, .proof]⟩
  | .stageSettled => some ⟨logRegs ++ [R.FPA_STAGE_STAT, R.PIPE_PL_STAT, R.PROOF_STAT, R.PROOF_REQ, R.PROOF_SHUT_STAT,
    R.PROOF_CNT_ABORT], logParts ++ [.fpa, .stage, .pipe, .web, .proof]⟩
  | .marginLow => some ⟨logRegs ++ [R.FPA_STAGE_CTL, R.FPA_STAGE_STAT, R.PIPE_PL_STAT, R.PROOF_STAT, R.PROOF_REQ,
    R.PROOF_SHUT_STAT, R.PROOF_CNT_ABORT], logParts ++ [.fpa, .stage, .pipe, .web, .proof]⟩
  | .stageUnreg => some ⟨logRegs ++ [R.FPA_STAGE_STAT, R.PIPE_PL_STAT, R.PROOF_STAT, R.PROOF_REQ, R.PROOF_SHUT_STAT,
    R.PROOF_CNT_ABORT], logParts ++ [.fpa, .stage, .pipe, .web, .proof]⟩
  | .diodeExcl .. => some ⟨logRegs ++ [R.FPA_STAGE_STAT], logParts ++ [.stage]⟩
  | .plateSwapFallback => some ⟨logRegs ++ [R.PWR_DOM_ON, R.FPA_STAT, R.PIPE_PL_STAT, R.PIPE_PL_SEQ_ACT, R.PIPE_PL_SEQ_STBY,
    R.PIPE_PL_TREF, R.PIPE_PL_SWAP_T, R.PIPE_ST_STAT, R.PIPE_ST_DEFECTS, R.PIPE_ST_CLUMAX, R.PIPE_BU_STAT, R.PIPE_BU_TAUMED,
    R.PIPE_DM_K, R.PIPE_DM_REF_T, R.PIPE_DM_REF_F, R.PIPE_DM_REF_Q, R.PIPE_DM_REF_OP, R.PIPE_AC_PROOF_T, R.PIPE_AC_REF_TINT,
    R.PROOF_STAT, R.PROOF_REQ, R.PROOF_CNT_DONE, R.STORE_FLASH_STAT, R.STORE_KEEP_SPARES], logParts ++ [.fpa, .pipe, .pwr,
    .burin, .proof]⟩
  | .shadowHoldExpiry => some ⟨[R.PIPE_PL_STAT], [.pipe]⟩
  | .platePersistDone .. => some ⟨[R.PWR_DOM_ON, R.PIPE_PL_STAT, R.PIPE_PL_SEQ_ACT, R.PIPE_PL_SEQ_STBY, R.PIPE_PL_TREF,
    R.PIPE_DM_REF_T, R.PIPE_DM_REF_F, R.PIPE_DM_REF_Q, R.PIPE_DM_REF_OP, R.PIPE_AC_REF_TINT, R.STORE_FLASH_STAT], [.store,
    .pipe, .pwr]⟩
  | .clusterEvaluation => some ⟨logRegs ++ [R.PIPE_ST_STAT], logParts ++ [.pipe]⟩
  | .proofBegin => some ⟨[R.PIPE_PL_STAT, R.PROOF_STAT, R.PROOF_SHUT_STAT, R.PROOF_CNT_FORCED, R.PROOF_LAST_T], [.fpa, .web,
    .proof]⟩
  | .drivePulseEnd => some ⟨[], [.proof, .link, .stand]⟩
  | .closedSensed => some ⟨[R.PROOF_STAT, R.PROOF_SHUT_STAT, R.PROOF_SHUT_MOVE], [.proof]⟩
  | .openSensed => some ⟨[R.PROOF_STAT, R.PROOF_SHUT_STAT, R.PROOF_SHUT_MOVE], [.proof, .link, .stand]⟩
  | .shutFault => some ⟨logRegs ++ [R.PIPE_PL_STAT, R.PROOF_STAT, R.PROOF_SHUT_STAT, R.PROOF_CNT_ABORT, R.PROOF_SHUT_FAILS],
    logParts ++ [.fpa, .pipe, .web, .proof, .link, .stand]⟩
  | .settlingEnd => some ⟨[], [.proof]⟩
  | .offsetsComputed => some ⟨[R.PROOF_OFS_KEPT], [.proof]⟩
  | .tauFit => some ⟨[R.PROOF_STAT, R.PROOF_TAU_STAT], [.proof]⟩
  | .plateAccepted => some ⟨logRegs ++ [R.PWR_DOM_ON, R.FPA_STAT, R.PIPE_PL_STAT, R.PIPE_PL_SEQ_ACT, R.PIPE_PL_SEQ_STBY,
    R.PIPE_PL_TREF, R.PIPE_ST_STAT, R.PIPE_DM_STAT, R.PIPE_DM_K, R.PIPE_DM_REF_T, R.PIPE_DM_REF_F, R.PIPE_DM_REF_Q,
    R.PIPE_DM_REF_OP, R.PIPE_DM_RESID, R.PIPE_AC_PROOF_T, R.PIPE_AC_REF_TINT, R.PROOF_STAT, R.PROOF_REQ, R.PROOF_SHUT_STAT,
    R.PROOF_CNT_DONE, R.PROOF_CNT_ABORT, R.STORE_FLASH_STAT, R.STORE_KEEP_SPARES], logParts ++ [.fpa, .pipe, .pwr, .burin,
    .web, .proof]⟩
  | .noFrames => some ⟨logRegs ++ [R.PIPE_PL_STAT, R.PROOF_STAT, R.PROOF_SHUT_STAT, R.PROOF_TAU_STAT, R.PROOF_CNT_ABORT],
    logParts ++ [.fpa, .pipe, .web, .proof]⟩
  | .proofAgeDue => some ⟨[R.PROOF_REQ], [.proof]⟩
  | .proofForceDue => some ⟨[R.PROOF_REQ], [.proof]⟩
  | .overdue => some ⟨[R.PROOF_STAT], []⟩
  | .channelCalPass .. => some ⟨logRegs ++ [R.PROOF_REQ, R.PROOF_CC_LAST, R.PROOF_CC_OUTLIER], logParts ++ [.fpa, .proof,
    .cc]⟩
  | .gladeInWindow .. => some ⟨logRegs ++ [R.PWR_BAL_STAT, R.FPA_STAGE_STAT, R.PIPE_PL_STAT, R.PROOF_STAT, R.PROOF_REQ,
    R.PROOF_SHUT_STAT, R.PROOF_GLADE_STAT, R.PROOF_GLADE_BEGIN, R.PROOF_CNT_ABORT, R.IO_PIN_IN], logParts ++ [.fpa, .stage,
    .pipe, .pwr, .web, .proof, .glade]⟩
  | .speedWindow => some ⟨logRegs ++ [R.PWR_BAL_STAT, R.FPA_STAGE_STAT, R.PIPE_PL_STAT, R.PROOF_STAT, R.PROOF_REQ,
    R.PROOF_SHUT_STAT, R.PROOF_GLADE_STAT, R.PROOF_GLADE_BEGIN, R.PROOF_CNT_ABORT], logParts ++ [.fpa, .stage, .pipe, .pwr,
    .web, .proof, .glade]⟩
  | .declaredWindowEnd => some ⟨logRegs ++ [R.PWR_BAL_STAT, R.FPA_STAGE_STAT, R.PIPE_PL_STAT, R.PROOF_STAT, R.PROOF_REQ,
    R.PROOF_SHUT_STAT, R.PROOF_GLADE_STAT, R.PROOF_GLADE_BEGIN, R.PROOF_CNT_ABORT], logParts ++ [.fpa, .stage, .pipe, .pwr,
    .web, .proof, .glade]⟩
  | .scheduleWindow => some ⟨logRegs ++ [R.PWR_BAL_STAT, R.FPA_STAGE_STAT, R.PIPE_PL_STAT, R.PROOF_STAT, R.PROOF_REQ,
    R.PROOF_SHUT_STAT, R.PROOF_GLADE_STAT, R.PROOF_GLADE_BEGIN, R.PROOF_CNT_ABORT], logParts ++ [.fpa, .stage, .pipe, .pwr,
    .web, .proof, .glade]⟩
  | .profileGladeEnd => some ⟨logRegs ++ [R.PWR_BAL_STAT, R.FPA_STAGE_STAT, R.PIPE_PL_STAT, R.PROOF_STAT, R.PROOF_REQ,
    R.PROOF_SHUT_STAT, R.PROOF_GLADE_STAT, R.PROOF_GLADE_BEGIN, R.PROOF_CNT_ABORT], logParts ++ [.fpa, .stage, .pipe, .pwr,
    .web, .proof, .glade]⟩
  | .encoderEdge .. => some ⟨logRegs ++ [R.PWR_BAL_STAT, R.FPA_STAGE_STAT, R.PIPE_PL_STAT, R.PROOF_STAT, R.PROOF_REQ,
    R.PROOF_SHUT_STAT, R.PROOF_GLADE_STAT, R.PROOF_GLADE_BEGIN, R.PROOF_CNT_ABORT, R.WEB_CTL, R.WEB_STAT, R.WEB_POS, R.WEB_HW,
    R.WEB_ENC_CNT, R.WEB_ENC_ERR, R.LINK_ENC_CTL], logParts ++ [.fpa, .stage, .pipe, .pwr, .web, .proof, .glade, .stand]⟩
  | .indexEdge => some ⟨logRegs ++ [R.WEB_Z_CNT, R.WEB_Z_ERR, R.WEB_Z_POS], logParts ++ [.web]⟩
  | .encLoss => some ⟨logRegs ++ [R.WEB_STAT], logParts ++ [.web]⟩
  | .speedEvaluation => some ⟨logRegs ++ [R.PWR_BAL_STAT, R.FPA_STAGE_STAT, R.PIPE_PL_STAT, R.PROOF_STAT, R.PROOF_REQ,
    R.PROOF_SHUT_STAT, R.PROOF_GLADE_STAT, R.PROOF_GLADE_BEGIN, R.PROOF_CNT_ABORT, R.WEB_STAT, R.WEB_SPEED], logParts ++ [.fpa,
    .stage, .pipe, .pwr, .web, .proof, .glade]⟩
  | .webStopped => some ⟨logRegs ++ [R.WEB_STAT, R.WEB_PROF_CUR, R.WEB_PROF_PEND, R.WEB_PROF_NEXT, R.WEB_OPEN, R.WEB_LINES,
    R.WEB_GAP, R.STAT_AL_STAT, R.STAT_AL_FIRE, R.STAT_AL_TARDY, R.STAT_AL_MERGED, R.STAND_MERGE_STAT, R.STAND_MERGE_LATE,
    R.STAND_MERGE_OVF, R.STAND_MERGE_DUP, R.STAND_MERGE_INCOMP, R.STAND_SEAM_AT_LIMIT, R.STAND_TRIM, R.STAND_SEAM,
    R.MEM_UNC_ADDR, R.MEM_QDR_UNCORR, R.HEALTH_STOP_MAX, R.HEALTH_STOPS], logParts ++ [.freeIdx, .web, .stat, .alarm, .link,
    .stand]⟩
  | .alarmIntervalEnter => some ⟨[R.STAT_AL_STAT], [.alarm]⟩
  | .alarmIntervalRetire => some ⟨[R.STAT_AL_STAT], [.alarm]⟩
  | .alarmPulseEnd .. => some ⟨[R.STAT_AL_STAT], [.alarm]⟩
  | .flitReceive .. => some ⟨logRegs ++ cplRegs ++ [R.LINK_P_CORR, R.LINK_P_UNCORR, R.LINK_P_STALE, R.LINK_P_SEQGAP,
    R.LINK_P_DROP, R.LINK_P_LANE0, R.LINK_P_LANE1, R.LINK_P_LANE2, R.LINK_P_LANE3], logParts ++ [.sec, .link, .stand]⟩
  | .portTraining .. => some ⟨logRegs ++ cplRegs ++ [R.PIPE_CAP_STAT, R.PIPE_CAP_DONE, R.LINK_HP_STAT, R.LINK_ROUTE,
    R.LINK_REACH, R.LINK_ROUTE_VER, R.LINK_REROUTES, R.LINK_P_STAT, R.LINK_P_NBR, R.LINK_P_NBR_INFO, R.LINK_P_DROP],
    logParts ++ [.sec, .pipe, .link, .stand]⟩
  | .trainTimeout .. => some ⟨logRegs ++ [R.LINK_P_STAT], logParts ++ [.link]⟩
  | .portDown .. => some ⟨logRegs ++ cplRegs ++ [R.PIPE_CAP_STAT, R.PIPE_CAP_DONE, R.LINK_ROUTE, R.LINK_REACH,
    R.LINK_ROUTE_VER, R.LINK_REROUTES, R.LINK_P_STAT, R.LINK_P_DROP], logParts ++ [.sec, .pipe, .link, .stand]⟩
  | .laneFailed .. => some ⟨logRegs, logParts ++ [.link]⟩
  | .laneReturn .. => some ⟨[], [.link]⟩
  | .lmGroup .. => some ⟨[], [.link]⟩
  | .routeRing .. => some ⟨[R.LINK_ROUTE, R.LINK_REACH, R.LINK_ROUTE_VER, R.LINK_REROUTES, R.LINK_P_STAT, R.LINK_P_DROP],
    [.link, .stand]⟩
  | .routeCut .. => some ⟨[R.LINK_ROUTE, R.LINK_REACH, R.LINK_ROUTE_VER, R.LINK_REROUTES, R.LINK_P_STAT], [.link]⟩
  | .dreq .. => some ⟨[], [.link, .stand]⟩
  | .dresp .. => some ⟨[R.LINK_P_DELAY], [.link]⟩
  | .timeSend => some ⟨[], [.link, .stand]⟩
  | .timeReceive .. => some ⟨logRegs ++ [R.LINK_P_DROP, R.LINK_TS_STAT, R.LINK_TS_OFFSET, R.LINK_TS_RATE, R.LINK_TS_STEPS,
    R.STAND_STAT], logParts ++ [.now, .freeIdx, .link]⟩
  | .timeHoldover => some ⟨[R.LINK_TS_STAT, R.STAND_STAT], [.link]⟩
  | .encSend => some ⟨[], [.link, .stand]⟩
  | .encReceive .. => some ⟨logRegs ++ [R.PWR_BAL_STAT, R.FPA_STAGE_STAT, R.PIPE_PL_STAT, R.PROOF_STAT, R.PROOF_REQ,
    R.PROOF_SHUT_STAT, R.PROOF_GLADE_STAT, R.PROOF_GLADE_BEGIN, R.PROOF_CNT_ABORT, R.WEB_STAT, R.WEB_POS, R.WEB_HW,
    R.LINK_ENC_STAT, R.LINK_ENC_AGE, R.LINK_ENC_GAP], logParts ++ [.fpa, .stage, .pipe, .pwr, .web, .proof, .glade, .link,
    .stand]⟩
  | .encExtrapolate .. => some ⟨[R.LINK_ENC_STAT, R.LINK_ENC_EXTRAP], [.fpa, .web]⟩
  | .encSampleLoss => some ⟨logRegs ++ [R.WEB_STAT, R.LINK_ENC_STAT], logParts ++ [.web]⟩
  | .heartSend => some ⟨[R.WEB_CTL, R.WEB_STAT, R.LINK_ENC_CTL, R.STAND_STAT, R.STAND_ROLES, R.STAND_ALIVE], [.web, .link,
    .stand]⟩
  | .heartReceive .. => some ⟨logRegs ++ cplRegs ++ [R.PIPE_CAP_STAT, R.PIPE_CAP_DONE, R.LINK_ENC_CTL, R.STAND_STAT,
    R.STAND_EPOCH, R.STAND_ALIVE, R.STAND_DEGRADED, R.STAND_REVENANT, R.STAND_GRP_STAT, R.STAND_GRP_OK, R.STAND_GRP_FAIL,
    R.HEALTH_ST_RESULT, R.HEALTH_ST_T], logParts ++ [.sec, .pipe, .web, .proof, .link, .stand]⟩
  | .membershipEvaluation => some ⟨logRegs ++ cplRegs ++ [R.WEB_CTL, R.WEB_STAT, R.LINK_ROUTE, R.LINK_REACH,
    R.LINK_ROUTE_VER, R.LINK_REROUTES, R.LINK_P_STAT, R.LINK_ENC_CTL, R.STAND_STAT, R.STAND_EPOCH, R.STAND_MAP_VER,
    R.STAND_SID, R.STAND_ROLES, R.STAND_ASSIGNED, R.STAND_ALIVE, R.STAND_VACATED, R.STAND_DEGRADED, R.STAND_DEATHS,
    R.STAND_EPOCH_CHG, R.STAND_GRP_STAT, R.STAND_GRP_OK, R.STAND_GRP_FAIL, R.STAND_SEAM_AT_LIMIT, R.STAND_TRIM],
    logParts ++ [.sec, .web, .link, .stand]⟩
  | .mapReceive .. => some ⟨cplRegs ++ [R.PIPE_CAP_STAT, R.PIPE_CAP_DONE, R.WEB_CTL, R.WEB_STAT, R.LINK_ENC_CTL,
    R.STAND_STAT, R.STAND_EPOCH, R.STAND_MAP_VER, R.STAND_SID, R.STAND_ROLES, R.STAND_ASSIGNED, R.STAND_ALIVE, R.STAND_VACATED,
    R.STAND_GRP_STAT, R.STAND_GRP_OK, R.STAND_GRP_FAIL, R.STORE_KEEP_STAT, R.HEALTH_STAT, R.HEALTH_EVT_SEQ, R.HEALTH_EVT_LOST,
    R.HEALTH_FAULT_SRC, R.HEALTH_ST_RESULT, R.HEALTH_ST_T], [.host, .sec, .store, .health, .pipe, .web, .proof, .link, .stand]⟩
  | .mapRepeat => some ⟨[], [.link, .stand]⟩
  | .takeover => some ⟨logRegs ++ cplRegs ++ [R.WEB_CTL, R.WEB_STAT, R.LINK_ROUTE, R.LINK_REACH, R.LINK_ROUTE_VER,
    R.LINK_REROUTES, R.LINK_P_STAT, R.LINK_TS_STAT, R.LINK_ENC_CTL, R.STAND_STAT, R.STAND_EPOCH, R.STAND_MAP_VER, R.STAND_SID,
    R.STAND_ROLES, R.STAND_ASSIGNED, R.STAND_ALIVE, R.STAND_VACATED, R.STAND_DEGRADED, R.STAND_TAKEOVERS, R.STAND_EPOCH_CHG,
    R.STAND_GRP_STAT, R.STAND_GRP_OK, R.STAND_GRP_FAIL], logParts ++ [.sec, .web, .link, .stand]⟩
  | .channelState .. => some ⟨[], [.link, .stand]⟩
  | .prepare .. => some ⟨logRegs ++ cplRegs ++ [R.PWR_DOM_ON, R.PWR_DOM_DRAIN, R.PWR_LAST, R.PWR_BAL_STAT, R.FPA_CTL,
    R.FPA_STAT, R.FPA_GEN_PEND, R.FPA_ACQ_STAT, R.FPA_ACQ_BND, R.FPA_STAGE_STAT, R.ACQ_TINT, R.ACQ_TSLOT, R.ACQ_PERIOD,
    R.ACQ_BIAS, R.ACQ_SKIM, R.ACQ_MODE, R.ACQ_WIN_ROW, R.ACQ_WIN_COL, R.PIPE_PL_STAT, R.PIPE_PL_SEQ_ACT, R.PIPE_PL_SEQ_STBY,
    R.PIPE_PL_TREF, R.PIPE_ST_STAT, R.PIPE_CAP_STAT, R.PIPE_DM_REF_T, R.PIPE_DM_REF_F, R.PIPE_DM_REF_Q, R.PIPE_DM_REF_OP,
    R.PIPE_RAD_CV_STAT, R.PIPE_AC_REF_TINT, R.PROOF_STAT, R.PROOF_REQ, R.PROOF_SHUT_STAT, R.PROOF_GLADE_STAT,
    R.PROOF_GLADE_BEGIN, R.PROOF_CNT_ABORT, R.WEB_STAT, R.WEB_PROF_CUR, R.WEB_PROF_PEND, R.WEB_PROF_NEXT, R.WEB_PROF_MAP,
    R.WEB_OPEN, R.STAT_SNAP_STAT, R.STAT_SNAP_GENLO, R.STAT_SNAP_GENHI, R.STAT_SNAP_LINES, R.STAT_SNAP_WEB, R.STAT_SNAP_HUNDER,
    R.STAT_SNAP_HOVER, R.STAT_SNAP_HNOVAL, R.STAT_SNAP_HGEN, R.STAT_FLK_RES_A, R.STAT_FLK_RES_B, R.STAT_SNAP_LANE,
    R.STAT_SNAP_HIST, R.STAND_STAT, R.STAND_DEGRADED, R.STAND_GRP_STAT, R.STAND_GRP_OK, R.STAND_GRP_FAIL, R.SEC_RELAYED,
    R.SEC_FW_STAT, R.MEM_UNC_ADDR, R.MEM_QDR_UNCORR, R.STORE_FLASH_STAT, R.STORE_KEEP_SPARES, R.HEALTH_POLICY,
    R.HEALTH_ST_RESULT, R.HEALTH_ST_T, R.HEALTH_MP_STAT, R.AUX_STAT, R.AUX_SEQ_CTL, R.AUX_SEQ_STAT, R.AUX_WIN_EN,
    R.AUX_ENT_CFG, R.AUX_ENT_WIN, R.IO_CONFLICT, R.IO_CONFLICT_CNT], logParts ++ [.freeIdx, .sec, .fpa, .stage, .aux, .pipe,
    .pwr, .burin, .web, .stat, .proof, .glade, .link, .stand, .saved]⟩
  | .vote .. => some ⟨logRegs ++ cplRegs ++ [R.PWR_DOM_ON, R.PWR_DOM_DRAIN, R.PWR_LAST, R.PWR_BAL_STAT, R.FPA_CTL,
    R.FPA_STAT, R.FPA_GEN_PEND, R.FPA_ACQ_STAT, R.FPA_ACQ_BND, R.FPA_STAGE_STAT, R.ACQ_TINT, R.ACQ_TSLOT, R.ACQ_PERIOD,
    R.ACQ_BIAS, R.ACQ_SKIM, R.ACQ_MODE, R.ACQ_WIN_ROW, R.ACQ_WIN_COL, R.PIPE_PL_STAT, R.PIPE_PL_SEQ_ACT, R.PIPE_PL_SEQ_STBY,
    R.PIPE_PL_TREF, R.PIPE_ST_STAT, R.PIPE_CAP_STAT, R.PIPE_DM_REF_T, R.PIPE_DM_REF_F, R.PIPE_DM_REF_Q, R.PIPE_DM_REF_OP,
    R.PIPE_RAD_CV_STAT, R.PIPE_AC_REF_TINT, R.PROOF_STAT, R.PROOF_REQ, R.PROOF_SHUT_STAT, R.PROOF_GLADE_STAT,
    R.PROOF_GLADE_BEGIN, R.PROOF_CNT_ABORT, R.WEB_STAT, R.WEB_PROF_CUR, R.WEB_PROF_PEND, R.WEB_PROF_NEXT, R.WEB_PROF_MAP,
    R.WEB_OPEN, R.STAT_SNAP_STAT, R.STAT_SNAP_GENLO, R.STAT_SNAP_GENHI, R.STAT_SNAP_LINES, R.STAT_SNAP_WEB, R.STAT_SNAP_HUNDER,
    R.STAT_SNAP_HOVER, R.STAT_SNAP_HNOVAL, R.STAT_SNAP_HGEN, R.STAT_FLK_RES_A, R.STAT_FLK_RES_B, R.STAT_SNAP_LANE,
    R.STAT_SNAP_HIST, R.STAND_STAT, R.STAND_DEGRADED, R.STAND_GRP_STAT, R.STAND_GRP_OK, R.STAND_GRP_FAIL, R.SEC_FW_STAT,
    R.MEM_UNC_ADDR, R.MEM_QDR_UNCORR, R.STORE_FLASH_STAT, R.STORE_KEEP_SPARES, R.HEALTH_POLICY, R.HEALTH_ST_RESULT,
    R.HEALTH_ST_T, R.HEALTH_MP_STAT, R.AUX_STAT, R.AUX_SEQ_CTL, R.AUX_SEQ_STAT, R.AUX_WIN_EN, R.AUX_ENT_CFG, R.AUX_ENT_WIN,
    R.IO_CONFLICT, R.IO_CONFLICT_CNT], logParts ++ [.freeIdx, .sec, .fpa, .stage, .aux, .pipe, .pwr, .burin, .web, .stat,
    .proof, .glade, .link, .stand, .saved]⟩
  | .prepTimeout => some ⟨cplRegs ++ [R.STAND_GRP_STAT, R.STAND_GRP_OK, R.STAND_GRP_FAIL], [.host, .sec, .link, .stand]⟩
  | .commit .. => some ⟨logRegs ++ cplRegs ++ [R.PWR_DOM_ON, R.PWR_DOM_DRAIN, R.PWR_LAST, R.PWR_BAL_STAT, R.FPA_CTL,
    R.FPA_STAT, R.FPA_GEN_PEND, R.FPA_ACQ_STAT, R.FPA_ACQ_BND, R.FPA_STAGE_STAT, R.ACQ_TINT, R.ACQ_TSLOT, R.ACQ_PERIOD,
    R.ACQ_BIAS, R.ACQ_SKIM, R.ACQ_MODE, R.ACQ_WIN_ROW, R.ACQ_WIN_COL, R.PIPE_PL_STAT, R.PIPE_PL_SEQ_ACT, R.PIPE_PL_SEQ_STBY,
    R.PIPE_PL_TREF, R.PIPE_ST_STAT, R.PIPE_CAP_STAT, R.PIPE_DM_REF_T, R.PIPE_DM_REF_F, R.PIPE_DM_REF_Q, R.PIPE_DM_REF_OP,
    R.PIPE_RAD_CV_STAT, R.PIPE_AC_REF_TINT, R.PROOF_STAT, R.PROOF_REQ, R.PROOF_SHUT_STAT, R.PROOF_GLADE_STAT,
    R.PROOF_GLADE_BEGIN, R.PROOF_CNT_ABORT, R.WEB_STAT, R.WEB_PROF_CUR, R.WEB_PROF_PEND, R.WEB_PROF_NEXT, R.WEB_PROF_MAP,
    R.WEB_OPEN, R.STAT_SNAP_STAT, R.STAT_SNAP_GENLO, R.STAT_SNAP_GENHI, R.STAT_SNAP_LINES, R.STAT_SNAP_WEB, R.STAT_SNAP_HUNDER,
    R.STAT_SNAP_HOVER, R.STAT_SNAP_HNOVAL, R.STAT_SNAP_HGEN, R.STAT_FLK_RES_A, R.STAT_FLK_RES_B, R.STAT_SNAP_LANE,
    R.STAT_SNAP_HIST, R.STAND_STAT, R.STAND_DEGRADED, R.STAND_GRP_STAT, R.STAND_GRP_OK, R.STAND_GRP_FAIL, R.SEC_FW_STAT,
    R.MEM_UNC_ADDR, R.MEM_QDR_UNCORR, R.STORE_FLASH_STAT, R.STORE_KEEP_SPARES, R.HEALTH_POLICY, R.HEALTH_ST_RESULT,
    R.HEALTH_ST_T, R.HEALTH_MP_STAT, R.AUX_STAT, R.AUX_SEQ_CTL, R.AUX_SEQ_STAT, R.AUX_WIN_EN, R.AUX_ENT_CFG, R.AUX_ENT_WIN,
    R.IO_CONFLICT, R.IO_CONFLICT_CNT], logParts ++ [.freeIdx, .sec, .fpa, .stage, .aux, .pipe, .pwr, .burin, .web, .stat,
    .proof, .glade, .link, .stand, .saved]⟩
  | .abort .. => some ⟨cplRegs ++ [R.STAND_GRP_STAT, R.STAND_GRP_OK, R.STAND_GRP_FAIL], [.host, .sec, .link, .stand]⟩
  | .done .. => some ⟨cplRegs ++ [R.STAND_DEGRADED, R.STAND_GRP_STAT, R.STAND_GRP_OK, R.STAND_GRP_FAIL], [.host, .sec, .link,
    .stand]⟩
  | .commitTimeout => some ⟨cplRegs ++ [R.STAND_DEGRADED, R.STAND_GRP_STAT, R.STAND_GRP_OK, R.STAND_GRP_FAIL], [.host, .sec,
    .link, .stand]⟩
  | .gladeRelay .. => some ⟨logRegs ++ [R.PWR_BAL_STAT, R.FPA_STAGE_STAT, R.PIPE_PL_STAT, R.PROOF_STAT, R.PROOF_REQ,
    R.PROOF_SHUT_STAT, R.PROOF_GLADE_STAT, R.PROOF_GLADE_BEGIN, R.PROOF_GLADE_END, R.PROOF_CNT_ABORT], logParts ++ [.fpa,
    .stage, .pipe, .pwr, .web, .proof, .glade, .link, .stand]⟩
  | .token .. => some ⟨[], [.proof, .stand]⟩
  | .tokenWithdraw => some ⟨[], [.stand]⟩
  | .segmentReceive .. => some ⟨logRegs ++ cplRegs ++ [R.STAT_AL_STAT, R.STAT_AL_FIRE, R.STAT_AL_TARDY, R.STAT_AL_MERGED,
    R.STAND_MERGE_STAT, R.STAND_MERGE_LATE, R.STAND_MERGE_OVF, R.STAND_MERGE_DUP, R.STAND_MERGE_INCOMP, R.STAND_SEAM_AT_LIMIT,
    R.STAND_TRIM, R.STAND_SEAM, R.MEM_UNC_ADDR, R.MEM_QDR_CORR, R.MEM_QDR_UNCORR, R.MEM_QDR_WBSKIP, R.MEM_QDR0_WIRE,
    R.MEM_QDR1_WIRE, R.MEM_QDR2_WIRE, R.MEM_QDR3_WIRE, R.HEALTH_STOP_MAX, R.HEALTH_STOPS], logParts ++ [.freeIdx, .sec, .stat,
    .alarm, .link, .stand]⟩
  | .mergeWaitExpiry .. => some ⟨logRegs ++ cplRegs ++ [R.STAT_AL_STAT, R.STAT_AL_FIRE, R.STAT_AL_TARDY, R.STAT_AL_MERGED,
    R.STAND_MERGE_STAT, R.STAND_SEAM_AT_LIMIT, R.STAND_TRIM, R.STAND_SEAM, R.MEM_UNC_ADDR, R.MEM_QDR_CORR, R.MEM_QDR_UNCORR,
    R.MEM_QDR_WBSKIP, R.MEM_QDR0_WIRE, R.MEM_QDR1_WIRE, R.MEM_QDR2_WIRE, R.MEM_QDR3_WIRE, R.HEALTH_STOP_MAX, R.HEALTH_STOPS],
    logParts ++ [.freeIdx, .sec, .stat, .alarm, .link, .stand]⟩
  | .authReceive .. => some ⟨logRegs ++ cplRegs ++ [R.PWR_DOM_ON, R.PWR_DOM_DRAIN, R.PWR_LAST, R.PWR_BAL_STAT, R.FPA_CTL,
    R.FPA_STAT, R.FPA_GEN_PEND, R.FPA_ACQ_STAT, R.FPA_ACQ_BND, R.FPA_STAGE_STAT, R.ACQ_TINT, R.ACQ_TSLOT, R.ACQ_PERIOD,
    R.ACQ_BIAS, R.ACQ_SKIM, R.ACQ_MODE, R.ACQ_WIN_ROW, R.ACQ_WIN_COL, R.PIPE_PL_STAT, R.PIPE_PL_SEQ_ACT, R.PIPE_PL_SEQ_STBY,
    R.PIPE_PL_TREF, R.PIPE_ST_STAT, R.PIPE_CAP_STAT, R.PIPE_DM_REF_T, R.PIPE_DM_REF_F, R.PIPE_DM_REF_Q, R.PIPE_DM_REF_OP,
    R.PIPE_RAD_CV_STAT, R.PIPE_AC_REF_TINT, R.PROOF_STAT, R.PROOF_REQ, R.PROOF_SHUT_STAT, R.PROOF_GLADE_STAT,
    R.PROOF_GLADE_BEGIN, R.PROOF_CNT_ABORT, R.WEB_STAT, R.WEB_PROF_CUR, R.WEB_PROF_PEND, R.WEB_PROF_NEXT, R.WEB_PROF_MAP,
    R.WEB_OPEN, R.STAT_SNAP_STAT, R.STAT_SNAP_GENLO, R.STAT_SNAP_GENHI, R.STAT_SNAP_LINES, R.STAT_SNAP_WEB, R.STAT_SNAP_HUNDER,
    R.STAT_SNAP_HOVER, R.STAT_SNAP_HNOVAL, R.STAT_SNAP_HGEN, R.STAT_FLK_RES_A, R.STAT_FLK_RES_B, R.STAT_SNAP_LANE,
    R.STAT_SNAP_HIST, R.STAND_STAT, R.STAND_DEGRADED, R.STAND_GRP_STAT, R.STAND_GRP_OK, R.STAND_GRP_FAIL, R.SEC_CTR,
    R.SEC_AUTH_FAIL, R.SEC_REPLAY, R.SEC_ROLE_FAIL, R.SEC_RELAYED, R.SEC_FW_STAT, R.MEM_UNC_ADDR, R.MEM_QDR_UNCORR,
    R.STORE_FLASH_STAT, R.STORE_KEEP_SPARES, R.HEALTH_POLICY, R.HEALTH_ST_RESULT, R.HEALTH_ST_T, R.HEALTH_MP_STAT, R.AUX_STAT,
    R.AUX_SEQ_CTL, R.AUX_SEQ_STAT, R.AUX_WIN_EN, R.AUX_ENT_CFG, R.AUX_ENT_WIN, R.IO_CONFLICT, R.IO_CONFLICT_CNT],
    logParts ++ [.freeIdx, .sec, .fpa, .stage, .aux, .pipe, .pwr, .burin, .web, .stat, .proof, .glade, .link, .stand, .saved]⟩
  | .rootResume => some ⟨[R.LINK_ROUTE, R.LINK_REACH, R.LINK_ROUTE_VER, R.LINK_REROUTES, R.LINK_P_STAT], [.link, .stand]⟩
  | .descriptorFetch .. => some ⟨logRegs ++ cplRegs ++ [R.PIPE_CAP_STAT, R.PIPE_CAP_DONE, R.WEB_REC_DROP, R.HOST_ERR_STAT,
    R.HOST_DMA_STAT, R.HOST_RING_STAT, R.HOST_RING_MIDX, R.HOST_RING_DROP, R.MEM_UNC_ADDR, R.MEM_QDR_UNCORR],
    logParts ++ [.out, .sec, .pipe]⟩
  | .dmaCompletion .. => some ⟨logRegs ++ cplRegs ++ [R.HOST_ERR_STAT, R.HOST_UNEXP_CPL, R.HOST_DMA_STAT,
    R.HOST_DMA_FAIL_ADDR, R.HOST_RING_STAT, R.HOST_RING_MIDX], logParts ++ [.out, .sec]⟩
  | .completionTimeout .. => some ⟨logRegs ++ [R.HOST_DMA_STAT, R.HOST_DMA_FAIL_ADDR, R.HOST_RING_STAT], logParts ++ [.out]⟩
  | .dmaReissue .. => some ⟨[R.HOST_DMA_STAT, R.HOST_DMA_RETRIES], [.out, .host]⟩
  | .recordStaged .. => some ⟨logRegs ++ cplRegs ++ [R.PIPE_CAP_STAT, R.PIPE_CAP_DONE, R.WEB_REC_DROP, R.HOST_ERR_STAT,
    R.HOST_DMA_STAT, R.HOST_RING_STAT, R.HOST_RING_DROP, R.MEM_UNC_ADDR, R.MEM_QDR_CORR, R.MEM_QDR_UNCORR, R.MEM_QDR_WBSKIP,
    R.MEM_QDR0_WIRE, R.MEM_QDR1_WIRE, R.MEM_QDR2_WIRE, R.MEM_QDR3_WIRE], logParts ++ [.out, .sec, .pipe, .link, .stand]⟩
  | .bufferHoldExpiry .. => some ⟨[R.HOST_RING_STAT], [.host]⟩
  | .bufferComplete .. => some ⟨[R.HOST_ERR_STAT, R.HOST_DMA_STAT, R.HOST_RING_STAT, R.HOST_RING_MIDX], [.out, .host]⟩
  | .msiXMessage .. => some ⟨[], [.out, .host]⟩
  | .busMasterChange .. => some ⟨logRegs ++ cplRegs ++ [R.PIPE_CAP_STAT, R.PIPE_CAP_DONE, R.WEB_REC_DROP, R.HOST_STAT,
    R.HOST_ERR_STAT, R.HOST_DMA_STAT, R.HOST_RING_STAT, R.HOST_RING_MIDX, R.HOST_RING_DROP, R.MEM_UNC_ADDR, R.MEM_QDR_UNCORR],
    logParts ++ [.out, .sec, .pipe]⟩
  | .linkDown .. => some ⟨logRegs ++ cplRegs ++ [R.PIPE_CAP_STAT, R.PIPE_CAP_DONE, R.WEB_REC_DROP, R.HOST_STAT,
    R.HOST_ERR_STAT, R.HOST_LINK_DOWNS, R.HOST_DB_IGNORED, R.HOST_DMA_STAT, R.HOST_RING_CTL, R.HOST_RING_STAT,
    R.HOST_RING_HIDX, R.HOST_RING_DROP], logParts ++ [.out, .sec, .pipe]⟩
  | .perstN .. => some ⟨logRegs ++ cplRegs ++ [R.SYS_RST_CAUSE, R.PIPE_CAP_STAT, R.PIPE_CAP_DONE, R.WEB_REC_DROP,
    R.HOST_STAT, R.HOST_ERR_STAT, R.HOST_LINK_DOWNS, R.HOST_DB_IGNORED, R.HOST_DMA_STAT, R.HOST_RING_CTL, R.HOST_RING_STAT,
    R.HOST_RING_HIDX, R.HOST_RING_DROP], logParts ++ [.out, .sec, .pipe, .pwr]⟩
  | .ptmDialog .. => some ⟨logRegs ++ [R.LINK_TS_STAT, R.LINK_TS_RATE, R.LINK_TS_STEPS, R.HOST_PTM_STAT, R.HOST_PTM_OFS,
    R.HOST_PTM_T, R.HOST_PTM_M, R.HOST_PTM_K], logParts ++ [.now, .freeIdx, .link]⟩
  | .firmwareSound => some ⟨logRegs ++ cplRegs ++ [R.SEC_FW_STAT, R.SEC_FW_SVN_MIN, R.STORE_KEEP_SPARES], logParts ++ [.sec]⟩
  | .fwTrialExpiry => some ⟨logRegs ++ cplRegs ++ [R.PWR_DOM_ON, R.SEC_CTR, R.SEC_AUTH_FAIL, R.SEC_REPLAY, R.SEC_ROLE_FAIL,
    R.SEC_FW_STAT, R.SEC_FW_SWITCH_T, R.STORE_KEEP_SPARES], logParts ++ [.sec, .pwr]⟩
  | .keepPageWriteDone .. => some ⟨logRegs ++ cplRegs ++ [R.SEC_KEY, R.AUX_CAL_VALID], logParts ++ [.sec, .aux, .link,
    .stand, .saved]⟩
  | .flashWriteDone .. => some ⟨logRegs ++ cplRegs ++ [R.SYS_BOOT_STAT, R.PWR_DOM_ON, R.SEC_FW_STAT, R.SEC_FW_VER,
    R.STORE_FLASH_STAT, R.STORE_FLASH_BADBLK], logParts ++ [.sec, .pwr, .burin]⟩
  | .scrubSweep .. => some ⟨logRegs ++ cplRegs ++ [R.MEM_STAT, R.MEM_UNC_ADDR, R.MEM_QDR_CORR, R.MEM_QDR_UNCORR,
    R.MEM_QDR_WBSKIP, R.MEM_QDR0_WIRE, R.MEM_QDR1_WIRE, R.MEM_QDR2_WIRE, R.MEM_QDR3_WIRE], logParts ++ [.sec]⟩
  | .scrubForcedCycle .. => some ⟨logRegs ++ cplRegs ++ [R.MEM_UNC_ADDR, R.MEM_QDR_CORR, R.MEM_QDR_UNCORR, R.MEM_QDR_WBSKIP,
    R.MEM_QDR0_WIRE, R.MEM_QDR1_WIRE, R.MEM_QDR2_WIRE, R.MEM_QDR3_WIRE], logParts ++ [.sec]⟩
  | .tableWordReload .. => some ⟨[], [.store]⟩
  | .healthTestComplete .. => some ⟨logRegs ++ cplRegs ++ [R.FPA_STAGE_STAT, R.FPA_CGMAP, R.PIPE_ST_STAT, R.STAND_STAT,
    R.MEM_STAT, R.MEM_QDR_ERASE, R.STORE_FLASH_STAT, R.STORE_FLASH_BADBLK, R.STORE_KEEP_SPARES, R.HEALTH_TESTS,
    R.HEALTH_TRANSIENT, R.HEALTH_LASTING, R.HEALTH_REPAIRS, R.HEALTH_ST_RESULT, R.HEALTH_ST_T], logParts ++ [.freeIdx, .sec,
    .fpa, .stage, .pipe, .link]⟩
  | .testNotPossible .. => some ⟨cplRegs ++ [R.STAND_STAT, R.STORE_KEEP_STAT, R.HEALTH_STAT, R.HEALTH_EVT_SEQ,
    R.HEALTH_EVT_LOST, R.HEALTH_FAULT_SRC, R.HEALTH_ST_RESULT, R.HEALTH_ST_T], [.host, .sec, .store, .health]⟩
  | .restoreRetest .. => some ⟨[R.MEM_QDR_ERASE, R.STORE_KEEP_STAT, R.HEALTH_STAT, R.HEALTH_EVT_SEQ, R.HEALTH_EVT_LOST,
    R.HEALTH_FAULT_SRC, R.HEALTH_TESTS], [.host, .store, .health, .link]⟩
  | .ringCountRead .. => some ⟨[R.HEALTH_RC, R.HEALTH_MON_VAL, R.HEALTH_MON_MGN], [.freeIdx, .health]⟩
  | .marginPlanDue => some ⟨[R.HEALTH_MP_STAT], [.health]⟩
  | .marginPlan .. => some ⟨cplRegs ++ [R.PROOF_REQ, R.PROOF_SCHED, R.STORE_KEEP_STAT, R.HEALTH_STAT, R.HEALTH_EVT_SEQ,
    R.HEALTH_EVT_LOST, R.HEALTH_FAULT_SRC, R.HEALTH_RC, R.HEALTH_MON_VAL, R.HEALTH_MON_MGN, R.HEALTH_MP_STAT, R.HEALTH_MP_LAST,
    R.HEALTH_MP_LIFE, R.HEALTH_MP_LIMIT, R.HEALTH_MP_TINT, R.HEALTH_MP_MARGIN], [.freeIdx, .host, .sec, .store, .health,
    .proof]⟩
  | .marginPlanGladeTimeout => some ⟨[R.HEALTH_MP_STAT], [.health]⟩
  | .drainEnd .. => some ⟨[], [.pwr]⟩
  | .drainLimitExpiry .. => some ⟨logRegs ++ [R.PWR_ABORTED], logParts ++ [.pwr]⟩
  | .domainOff .. => some ⟨logRegs ++ cplRegs ++ [R.PWR_DOM_ON, R.PWR_DOM_DRAIN, R.PWR_LAST, R.FPA_STAT, R.PIPE_CAP_STAT,
    R.PIPE_CAP_DONE, R.LINK_ROUTE, R.LINK_REACH, R.LINK_ROUTE_VER, R.LINK_REROUTES, R.LINK_P_STAT, R.LINK_P_DROP, R.AUX_STAT],
    logParts ++ [.sec, .fpa, .aux, .pipe, .pwr, .link, .stand]⟩
  | .domainUsable .. => some ⟨cplRegs ++ [R.FPA_STAT, R.AUX_STAT], [.host, .sec, .fpa, .aux, .pwr]⟩
  | .onDemandIdle .. => some ⟨[R.PWR_DOM_ON], [.pwr]⟩
  | .ballastSample .. => some ⟨[R.PWR_BAL_STAT, R.PWR_P_IN, R.PWR_P_HELD, R.PWR_P_BAL, R.PWR_SP_ACT], [.pwr]⟩
  | .ballastSat => some ⟨logRegs ++ [R.PWR_BAL_SAT_CNT, R.PWR_BAL_STAT], logParts ++ [.pwr]⟩
  | .satWindowExpiry => some ⟨[R.PWR_BAL_STAT], [.pwr]⟩
  | .refclkLost => some ⟨logRegs ++ [R.CLK_STAT, R.CLK_REF_LOSS], logParts ++ [.pwr]⟩
  | .holdoverExpiry => some ⟨logRegs ++ cplRegs ++ [R.CLK_STAT, R.PIPE_CAP_STAT, R.PIPE_CAP_DONE, R.LINK_ROUTE, R.LINK_REACH,
    R.LINK_ROUTE_VER, R.LINK_REROUTES, R.LINK_P_STAT, R.LINK_P_DROP], logParts ++ [.sec, .fpa, .pipe, .link, .stand]⟩
  | .refclkReturn => some ⟨[R.CLK_STAT, R.CLK_UNLOCK], [.pwr]⟩
  | .powerOnResetRelease .. => none
  | .brownout => none
  | .vioLow .. => some ⟨logRegs, logParts ++ [.pwr]⟩
  | .resetN .. => none
  | .pllLock => some ⟨[R.CLK_STAT, R.FPA_STAT, R.FPA_GEN_PEND, R.FPA_ACQ_BND], [.fpa, .pwr]⟩
  | .startUpStep .. => none
  | .auxRound => some ⟨cplRegs ++ [R.AUX_SEQ_STAT, R.AUX_OVERRUN, R.AUX_BLANK_MISS], [.host, .sec, .aux]⟩
  | .auxEntryResult .. => some ⟨logRegs ++ [R.PWR_P_BAL, R.FPA_HEATER, R.FPA_TD, R.PIPE_PL_STAT, R.PROOF_STAT,
    R.PROOF_SHUT_STAT, R.PROOF_CNT_ABORT, R.PROOF_SHUT_FAILS, R.AUX_STAT, R.AUX_WIN_STAT, R.AUX_BLANK_MISS, R.AUX_ENT_RES,
    R.AUX_ENT_RES_T], logParts ++ [.fpa, .stage, .aux, .pipe, .web, .proof, .link, .stand]⟩
  | .auxCalMeasurementDone .. => some ⟨cplRegs ++ [R.STORE_KEEP_STAT, R.AUX_STAT], [.host, .sec, .store, .aux]⟩
  | .refSettled .. => some ⟨[R.AUX_STAT], [.aux]⟩
  | .auxRecordClose => some ⟨[], [.host, .aux]⟩
  | .timeInEdge => some ⟨logRegs ++ [R.LINK_TS_STAT, R.LINK_TS_RATE, R.LINK_TS_STEPS, R.IO_PIN_IN, R.IO_TIME_STAT,
    R.IO_TIME_EDGE, R.IO_TIME_K, R.IO_TIME_CNT, R.IO_TIME_REJ], logParts ++ [.now, .freeIdx, .link, .io]⟩
  | .timeInHoldover => some ⟨[R.IO_TIME_STAT], [.io]⟩
  | .timerCompare .. => some ⟨[R.TMR_CTL, R.TMR_CNT], [.io]⟩
  | .timerCapture .. => some ⟨[R.TMR_CAP], [.io]⟩
  | .shutPosChange .. => some ⟨[R.PROOF_SHUT_STAT, R.IO_PIN_IN], [.proof]⟩
  | .declaredWindowBegin => some ⟨logRegs ++ [R.PWR_BAL_STAT, R.FPA_STAGE_STAT, R.PIPE_PL_STAT, R.PROOF_STAT, R.PROOF_REQ,
    R.PROOF_SHUT_STAT, R.PROOF_GLADE_STAT, R.PROOF_GLADE_BEGIN, R.PROOF_CNT_ABORT], logParts ++ [.fpa, .stage, .pipe, .pwr,
    .web, .proof, .glade]⟩
  | .encFailsafeEnd => some ⟨[R.WEB_STAT], [.web]⟩
  | .ptmHoldover => some ⟨[R.HOST_PTM_STAT], [.host]⟩
  | .segmentHoldLimit => some ⟨[R.STAND_STAT], []⟩
  | .pcieLinkUp .. => some ⟨[R.LINK_HP_STAT, R.HOST_STAT], [.link]⟩
  | .pcieRetrain .. => some ⟨[R.HOST_STAT, R.HOST_RETRAINS, R.HOST_DMA_STAT], [.out, .host]⟩
  | .configurationRequest .. => some ⟨[R.HOST_STAT], [.out, .freeIdx, .host]⟩
  | .sweepComplete => some ⟨[R.MEM_STAT, R.MEM_SCRUB_STAT], [.store]⟩
  | .operatingTimeIncrement => some ⟨[R.STORE_KEEP_SPARES], [.store]⟩
  | .vioRestored .. => some ⟨[], [.pwr]⟩
  | .frameStrobeEnd => some ⟨[], [.io]⟩
  | .newFirmwareRuns => some ⟨logRegs ++ cplRegs ++ [R.PWR_DOM_ON, R.SEC_CTR, R.SEC_AUTH_FAIL, R.SEC_REPLAY, R.SEC_ROLE_FAIL,
    R.SEC_FW_STAT, R.STORE_KEEP_SPARES], logParts ++ [.sec, .pwr]⟩
  | .fwSwitchTick => some ⟨cplRegs ++ [R.SEC_FW_STAT, R.SEC_FW_SWITCH_T], [.host, .sec]⟩
  | .laneMaskSwitch .. => some ⟨logRegs ++ cplRegs ++ [R.PIPE_CAP_STAT, R.PIPE_CAP_DONE, R.LINK_ROUTE, R.LINK_REACH,
    R.LINK_ROUTE_VER, R.LINK_REROUTES, R.LINK_P_STAT, R.LINK_P_DROP], logParts ++ [.sec, .pipe, .link, .stand]⟩

/-- What a host command that names other slots can change: it becomes a group command (R218). -/
def groupTouch : Touch :=
  ⟨logRegs ++ cplRegs ++ [R.PWR_DOM_ON, R.PWR_DOM_DRAIN, R.PWR_LAST, R.PWR_BAL_STAT, R.FPA_CTL, R.FPA_STAT, R.FPA_GEN_PEND,
    R.FPA_ACQ_STAT, R.FPA_ACQ_BND, R.FPA_STAGE_STAT, R.ACQ_TINT, R.ACQ_TSLOT, R.ACQ_PERIOD, R.ACQ_BIAS, R.ACQ_SKIM, R.ACQ_MODE,
    R.ACQ_WIN_ROW, R.ACQ_WIN_COL, R.PIPE_PL_STAT, R.PIPE_PL_SEQ_ACT, R.PIPE_PL_SEQ_STBY, R.PIPE_PL_TREF, R.PIPE_ST_STAT,
    R.PIPE_CAP_STAT, R.PIPE_CAP_DONE, R.PIPE_DM_REF_T, R.PIPE_DM_REF_F, R.PIPE_DM_REF_Q, R.PIPE_DM_REF_OP, R.PIPE_RAD_CV_STAT,
    R.PIPE_AC_REF_TINT, R.PROOF_STAT, R.PROOF_REQ, R.PROOF_SHUT_STAT, R.PROOF_GLADE_STAT, R.PROOF_GLADE_BEGIN,
    R.PROOF_CNT_ABORT, R.WEB_CTL, R.WEB_STAT, R.WEB_PROF_CUR, R.WEB_PROF_PEND, R.WEB_PROF_NEXT, R.WEB_PROF_MAP, R.WEB_OPEN,
    R.WEB_REC_DROP, R.STAT_SNAP_STAT, R.STAT_SNAP_GENLO, R.STAT_SNAP_GENHI, R.STAT_SNAP_LINES, R.STAT_SNAP_WEB,
    R.STAT_SNAP_HUNDER, R.STAT_SNAP_HOVER, R.STAT_SNAP_HNOVAL, R.STAT_SNAP_HGEN, R.STAT_FLK_RES_A, R.STAT_FLK_RES_B,
    R.STAT_SNAP_LANE, R.STAT_SNAP_HIST, R.LINK_ENC_CTL, R.STAND_STAT, R.STAND_EPOCH, R.STAND_MAP_VER, R.STAND_SID,
    R.STAND_ROLES, R.STAND_ASSIGNED, R.STAND_ALIVE, R.STAND_VACATED, R.STAND_DEGRADED, R.STAND_EPOCH_CHG, R.STAND_GRP_STAT,
    R.STAND_GRP_OK, R.STAND_GRP_FAIL, R.HOST_DB_IGNORED, R.HOST_DMA_STAT, R.HOST_RING_CTL, R.HOST_RING_STAT, R.HOST_RING_HIDX,
    R.HOST_RING_DROP, R.SEC_RELAYED, R.SEC_FW_STAT, R.SEC_MBX_DATA, R.MEM_UNC_ADDR, R.MEM_QDR_UNCORR, R.STORE_FLASH_STAT,
    R.STORE_KEEP_CORR, R.STORE_KEEP_UNCORR, R.STORE_KEEP_TORN, R.STORE_KEEP_TORN_ADDR, R.STORE_KEEP_SPARES, R.HEALTH_POLICY,
    R.HEALTH_ST_RESULT, R.HEALTH_ST_T, R.HEALTH_MP_STAT, R.AUX_STAT, R.AUX_SEQ_CTL, R.AUX_SEQ_STAT, R.AUX_WIN_EN,
    R.AUX_ENT_CFG, R.AUX_ENT_WIN, R.IO_CONFLICT, R.IO_CONFLICT_CNT], logParts ++ [.out, .freeIdx, .sec, .fpa, .stage, .aux,
    .pipe, .pwr, .burin, .web, .stat, .proof, .glade, .link, .stand, .saved]⟩

/-- The chapter of the spec whose rule a command follows. -/
def chapterOf : Instr → Nat
  | .registerWrite .. => 0
  | .fpaCntClr
  | .pipeCntClr ..
  | .proofCntClr
  | .webCntClr
  | .alarmCntClr
  | .linkCntClr
  | .standCntClr
  | .hostCntClr
  | .secCntClr
  | .memCntClr
  | .storeCntClr
  | .healthCntClr
  | .clkCntClr
  | .pwrCntClr
  | .auxCntClr
  | .ioCntClr
  | .lowWordRead ..
  | .highWordWrite ..
  | .partialWrite ..
  | .frameBoundary
  | .slotPacketArrival ..
  | .slotAtTap4 .. => 1
  | .startImaging ..
  | .acqCommit ..
  | .runSet
  | .acqCtlCommit
  | .acqCtlCancel
  | .stageCtlWrite ..
  | .trigInEdge ..
  | .verticalBlanking
  | .stageSample
  | .stageSettled
  | .marginLow
  | .stageUnreg
  | .diodeExcl .. => 2
  | .frameCapture ..
  | .plateWrite ..
  | .plateCommit ..
  | .stippleEdit ..
  | .factoryPlateRestore ..
  | .shadowRelease
  | .captureFrameDone ..
  | .captureAbandoned ..
  | .plateSwapFallback
  | .shadowHoldExpiry
  | .platePersistDone ..
  | .clusterEvaluation => 3
  | .curveWrite ..
  | .acCtlWrite ..
  | .dmCoeffWrite .. => 4
  | .gladeDeclare ..
  | .proofRequest ..
  | .proofSchedWrite ..
  | .shutClear
  | .testClose
  | .testOpen
  | .gladeInPolWrite ..
  | .proofBegin
  | .drivePulseEnd
  | .closedSensed
  | .openSensed
  | .shutFault
  | .settlingEnd
  | .offsetsComputed
  | .tauFit
  | .plateAccepted
  | .noFrames
  | .proofAgeDue
  | .proofForceDue
  | .overdue
  | .channelCalPass ..
  | .gladeInWindow ..
  | .speedWindow
  | .declaredWindowEnd
  | .scheduleWindow
  | .profileGladeEnd
  | .gladeRelay ..
  | .token ..
  | .shutPosChange ..
  | .declaredWindowBegin => 5
  | .profileSelectAt ..
  | .statSnapshot ..
  | .profileDefine ..
  | .preset
  | .flush
  | .webCtlWrite ..
  | .hostSpeedWrite ..
  | .geoCommit
  | .snap
  | .alarmQueueClr
  | .samplesAccumulated ..
  | .idleExitEvaluation
  | .recordTimeout
  | .encoderEdge ..
  | .indexEdge
  | .encLoss
  | .speedEvaluation
  | .webStopped
  | .alarmIntervalEnter
  | .alarmIntervalRetire
  | .alarmPulseEnd ..
  | .encFailsafeEnd => 6
  | .apply
  | .scan ..
  | .flitReceive ..
  | .portTraining ..
  | .trainTimeout ..
  | .portDown ..
  | .laneFailed ..
  | .laneReturn ..
  | .lmGroup ..
  | .routeRing ..
  | .routeCut ..
  | .dreq ..
  | .dresp ..
  | .timeSend
  | .timeReceive ..
  | .timeHoldover
  | .encSend
  | .encReceive ..
  | .encExtrapolate ..
  | .encSampleLoss
  | .laneMaskSwitch .. => 7
  | .standQuery ..
  | .standMapSet ..
  | .roleSet ..
  | .trimReset
  | .heartSend
  | .heartReceive ..
  | .membershipEvaluation
  | .mapReceive ..
  | .mapRepeat
  | .takeover
  | .channelState ..
  | .prepare ..
  | .vote ..
  | .prepTimeout
  | .commit ..
  | .abort ..
  | .done ..
  | .commitTimeout
  | .tokenWithdraw
  | .segmentReceive ..
  | .mergeWaitExpiry ..
  | .segmentHoldLimit => 8
  | .ringReset ..
  | .doorbellWrite ..
  | .completionWrite
  | .tsSrcWrite ..
  | .widthMaxWrite ..
  | .resume ..
  | .ringEnable ..
  | .ringDisable ..
  | .ringCtlReset ..
  | .badAccess ..
  | .descriptorFetch ..
  | .dmaCompletion ..
  | .completionTimeout ..
  | .dmaReissue ..
  | .recordStaged ..
  | .bufferHoldExpiry ..
  | .bufferComplete ..
  | .msiXMessage ..
  | .busMasterChange ..
  | .linkDown ..
  | .ptmDialog ..
  | .ptmHoldover
  | .pcieLinkUp ..
  | .pcieRetrain .. => 9
  | .nop ..
  | .stopImaging ..
  | .acqStage ..
  | .flashRead ..
  | .keyImport ..
  | .keyRetire ..
  | .fwStage ..
  | .fwSwitch ..
  | .commandFetch ..
  | .indirectDataFetch ..
  | .mbxGo ..
  | .mbxAck ..
  | .runClear
  | .authReceive ..
  | .firmwareSound
  | .fwTrialExpiry
  | .newFirmwareRuns
  | .fwSwitchTick => 10
  | .keepRead ..
  | .keepWrite ..
  | .flashErase ..
  | .twSelWrite ..
  | .tableWindowRead ..
  | .tableWindowWrite ..
  | .keepPageWriteDone ..
  | .flashWriteDone ..
  | .scrubSweep ..
  | .scrubForcedCycle ..
  | .tableWordReload ..
  | .sweepComplete
  | .operatingTimeIncrement => 11
  | .healthSelftest ..
  | .marginPlanRun ..
  | .logRead ..
  | .repairPolicySet ..
  | .mpRun
  | .healthTestComplete ..
  | .testNotPossible ..
  | .restoreRetest ..
  | .ringCountRead ..
  | .marginPlanDue
  | .marginPlan ..
  | .marginPlanGladeTimeout => 12
  | .domainSet ..
  | .sysRstHost
  | .sysRstWarm
  | .save
  | .bootClear
  | .balSetpointWrite ..
  | .rootResume
  | .perstN ..
  | .drainEnd ..
  | .drainLimitExpiry ..
  | .domainOff ..
  | .domainUsable ..
  | .onDemandIdle ..
  | .ballastSample ..
  | .ballastSat
  | .satWindowExpiry
  | .refclkLost
  | .holdoverExpiry
  | .refclkReturn
  | .powerOnResetRelease ..
  | .brownout
  | .vioLow ..
  | .resetN ..
  | .pllLock
  | .startUpStep ..
  | .configurationRequest ..
  | .vioRestored .. => 13
  | .auxSeqLoad ..
  | .auxCalZero ..
  | .auxCalFull ..
  | .auxSeqCommit
  | .auxRefWrite ..
  | .auxRound
  | .auxEntryResult ..
  | .auxCalMeasurementDone ..
  | .refSettled ..
  | .auxRecordClose => 14
  | .alOutWrite ..
  | .gpCfgWrite ..
  | .tmrCtlWrite ..
  | .spiHeader ..
  | .spiWriteWord ..
  | .spiReadFetch ..
  | .spiTransactionEnd ..
  | .jtagInstruction ..
  | .timeInEdge
  | .timeInHoldover
  | .timerCompare ..
  | .timerCapture ..
  | .frameStrobeEnd => 15

/-- The acceptance number and opcode of a host command (R247). -/
def hostOp : Instr → Option (Nat × Nat)
  | .nop k => some (k, 0x0000)
  | .startImaging k => some (k, 0x0001)
  | .stopImaging k => some (k, 0x0002)
  | .acqStage k => some (k, 0x0003)
  | .acqCommit k => some (k, 0x0004)
  | .profileSelectAt k => some (k, 0x0005)
  | .gladeDeclare k => some (k, 0x0006)
  | .proofRequest k => some (k, 0x0007)
  | .statSnapshot k => some (k, 0x0008)
  | .frameCapture k => some (k, 0x0009)
  | .ringReset k => some (k, 0x000A)
  | .auxSeqLoad k => some (k, 0x000B)
  | .auxCalZero k => some (k, 0x000C)
  | .auxCalFull k => some (k, 0x000D)
  | .domainSet k => some (k, 0x000E)
  | .healthSelftest k => some (k, 0x000F)
  | .marginPlanRun k => some (k, 0x0010)
  | .logRead k => some (k, 0x0011)
  | .keepRead k _ => some (k, 0x0012)
  | .flashRead k => some (k, 0x0013)
  | .standQuery k => some (k, 0x0014)
  | .plateWrite k => some (k, 0x8001)
  | .plateCommit k => some (k, 0x8002)
  | .curveWrite k => some (k, 0x8003)
  | .profileDefine k => some (k, 0x8004)
  | .stippleEdit k => some (k, 0x8005)
  | .factoryPlateRestore k => some (k, 0x8006)
  | .standMapSet k => some (k, 0x8007)
  | .roleSet k => some (k, 0x8008)
  | .keyImport k => some (k, 0x8009)
  | .keyRetire k => some (k, 0x800A)
  | .fwStage k => some (k, 0x800B)
  | .fwSwitch k => some (k, 0x800C)
  | .keepWrite k => some (k, 0x800D)
  | .flashErase k => some (k, 0x800E)
  | .repairPolicySet k => some (k, 0x800F)
  | _ => none

/-- The held command of a host command row, if any, names no other slot. -/
def NamesNoOther (i : Instr) (s : State) : Prop :=
  ∀ k op, hostOp i = some (k, op) → ∀ c, s.dev.sec.cmds.find? (fun c => c.k == k && c.op == op) = some c → (c.others s.dev).isEmpty = true

/-- A command that can change flash: the end of a background write (R77, R278), a plate that takes a region whose own copy is still
on its way to flash (R77), and a reset, which ends such writes (R320). A register write, or start-up with its stored registers, can ask
for a reset. -/
def writesFlash : Instr → Bool
  | .plateWrite .. | .factoryPlateRestore .. | .plateAccepted .. | .prepare .. | .vote .. | .commit .. | .authReceive ..
  | .platePersistDone .. | .flashWriteDone .. | .powerOnResetRelease .. | .brownout | .resetN .. | .sysRstWarm | .registerWrite ..
  | .highWordWrite .. | .spiWriteWord .. | .startUpStep .. => true
  | _ => false

/-- A command that can change the Keep: a page write, and the replay at start-up (R280, R282). -/
def writesKeep : Instr → Bool
  | .keepPageWriteDone .. | .startUpStep .. => true
  | _ => false

/-- A command that can change QDR: writes of plates and curves, returned data staged in QDR (R261), the application of a group
command, window writes, scrubbing and reloads, a functional read whose word is corrected (R272), a proof's plate, what takes effect at
a boundary, resets and start-up. -/
def writesQdr : Instr → Bool
  | .logRead .. | .keepRead .. | .flashRead .. | .standQuery .. | .plateWrite .. | .plateCommit .. | .factoryPlateRestore ..
  | .prepare .. | .vote .. | .commit .. | .authReceive .. | .tableWindowRead .. | .tableWindowWrite .. | .registerWrite ..
  | .highWordWrite .. | .spiWriteWord .. | .scrubSweep .. | .scrubForcedCycle .. | .tableWordReload .. | .plateAccepted ..
  | .slotPacketArrival .. | .slotAtTap4 .. | .samplesAccumulated .. | .captureFrameDone .. | .segmentReceive .. | .mergeWaitExpiry ..
  | .recordStaged .. | .frameBoundary .. | .powerOnResetRelease .. | .brownout | .resetN .. | .sysRstWarm | .startUpStep .. => true
  | _ => false

/-- The flash bytes, address and number, that a background write which is no plate may change when it succeeds (R277, R278). -/
def FlashWhat.area (d : Dev) : FlashWhat → Nat × Nat
  | .plate _ _ _ => (0, 0)
  | .stipple _ i _ => (stFlash i, 0x00290000)
  | .curve _ i bs => (curveFlash i, bs.length)
  | .geometry bs => (geoFlash (d.nextSlot 3 0), Nat.max 0x80000 bs.length)
  | .profile _ id _ => (profFlash id (d.nextSlot 4 id), 0x4000)
  | .boot bs => (bootFlash (d.nextSlot 5 0), Nat.max 0x80000 bs.length)
  | .bootClear => (bootFlash 0, 0x100000)
  | .fwChunk _ b o bs _ => if o = 0 then (fwFlash b, Nat.max 0x1000000 bs.length) else (fwFlash b + o, bs.length)
  | .erase _ a n => (a, n)
  | .archive => (0, 0)

end Sys2Proof.Machine
end

