-- ==== Sys2Proof/Certificates/Slice0/Obligations.lean ====
section
/-! DEFINITION. The statements: what every command answers, by family; what it leaves alone; and what holds of every step. A statement
that rests on a choice of the model's own names the log entry. -/

section Slice0Statements

open Sys2Proof Sys2Proof.Machine
/-- NOP and the read commands complete with their data (R252, R281, R291): NOP with the low word of the timebase, the others with the
bytes they name, returned where the command asked for them. -/
def Obligations.ReadCommandsComplete : Prop :=
  ∀ (s : State) (k : Nat) (c : Cmd),
    (Ready s 0x0000 k c → Answers (.nop k) s (Ended c St.ok 0 (s.dev.t % 2 ^ 32) s)) ∧
    (Ready s 0x0011 k c → Answers (.logRead k) s (fun t =>
      let bs := (((heldRecords s.dev).filter (fun r => decide (c.f 24 4 ≤ r.1))).take (c.ilen / 64)).flatMap (·.2)
      Ended c St.ok 0 bs.length s t ∧ Returned c bs s t)) ∧
    (∀ errs, Ready s 0x0012 k c → c.f 24 4 + c.ilen ≤ 0x80000 → (0x2400 ≤ c.f 24 4 ∨ c.ilen = 0) → Answers (.keepRead k errs) s (fun t =>
      EndedToo c St.ok 0 c.ilen s t ∧
      (c.origin = .ring → .dmaWrite c.iptr ((List.range c.ilen).map (fun i =>
        if (s.dev.keepBad errs (c.f 24 4) c.ilen).2.contains ((c.f 24 4 + i) / 8 * 8) then 0xFF
        else keepByteAt s.mem s.dev (c.f 24 4 + i))) false ∈ t.dev.out))) ∧
    (Ready s 0x0013 k c → c.f 32 8 + c.ilen ≤ 0x20000000 → Answers (.flashRead k) s (fun t =>
      Ended c St.ok 0 c.ilen s t ∧ Returned c ((List.range c.ilen).map (fun i => flashByteAt s.mem s.dev (c.f 32 8 + i))) s t)) ∧
    (Ready s 0x0014 k c → Answers (.standQuery k) s (fun t =>
      Ended c St.ok 0 1344 s t ∧
      Returned c (s.dev.mapImage ++ (List.range 128).flatMap (fun i => leBytes 4 (s.dev.reg (0x1C000 + 4 * i)).toNat)) s t))

/-- Imaging commands (R44, R49, R252, R373). -/
def Obligations.ImagingCommandsComplete : Prop :=
  ∀ (s : State) (k : Nat) (c : Cmd),
    (Ready s 0x0001 k c → s.dev.bit F.FPA_CTL_RUN = false → checkSet s.dev s.dev.firstSet = 0 → Answers (.startImaging k) s (fun t =>
      Ended c St.ok 0 0 s t ∧ t.dev.bit F.FPA_CTL_RUN = true ∧ t.dev.bit F.FPA_STAT_RUNNING = true ∧
      t.dev.fpa.startAt = some (Nat.max (match s.dev.fpa.pend with | some p => p.teff | none => 0) (s.dev.t + 2000)))) ∧
    (Ready s 0x0002 k c → Answers (.stopImaging k) s (fun t =>
      t.dev.bit F.FPA_CTL_RUN = false ∧ t.dev.fpa.nextB = none ∧ t.dev.fpa.startAt = none ∧
      t.dev.bit F.FPA_STAT_RUNNING = s.dev.inFrame ∧ (s.dev.inFrame = false → ∀ x ∈ t.dev.sec.cmds, x.k ≠ k))) ∧
    (Ready s 0x0003 k c → c.p8 24 ≤ 3 → Answers (.acqStage k) s (fun t =>
      Ended c St.ok 0 0 s t ∧ ∀ i < 8, t.dev.reg (R.ACQ_TINT + 0x20 * c.p8 24 + 4 * i) =
        (s.dev.writeWord (R.ACQ_TINT + 0x20 * c.p8 24 + 4 * i) (leAt c.data (4 * i) 4)).reg (R.ACQ_TINT + 0x20 * c.p8 24 + 4 * i))) ∧
    (Ready s 0x0004 k c → c.p8 24 ≤ 3 → c.p8 25 = 0 → checkSet s.dev (s.dev.setOf (c.p8 24)) = 0 → s.dev.tallyFailed 9 = false →
      (∀ p, s.dev.fpa.pend = some p → p.k ≠ some k) → Answers (.acqCommit k) s (fun t =>
        t.dev.fpa.pend = some ⟨some k, s.dev.setOf (c.p8 24), genOf ((s.dev.tallyInc 9).tally 9), Nat.max (c.f 32 8) (s.dev.t + 2000)⟩ ∧
        t.dev.get F.FPA_ACQ_STAT_ERR = 0 ∧ t.dev.bit F.FPA_STAT_PENDING = true ∧ Waits k t))

/-- Profile, glade, proof, snapshot and capture commands (R83, R121, R131, R161, R162, R167). -/
def Obligations.WebAndProofCommandsComplete : Prop :=
  ∀ (s : State) (k : Nat) (c : Cmd),
    (Ready s 0x0005 k c → s.dev.selectErr (c.p8 24) (profileX s.dev c) = 0 → Answers (.profileSelectAt k) s (fun t =>
      t.dev.web.switches = s.dev.web.switches ++ [⟨profileX s.dev c, c.p8 24, false⟩] ∧ Ended c St.ok 0 0 s t)) ∧
    (Ready s 0x0006 k c → Answers (.gladeDeclare k) s (fun t =>
      t.dev.glade.decl = spanLeft s.dev.t (if c.f 24 2 = 0 then none
        else some (if c.f 32 8 = 0 then s.dev.t else c.f 32 8, (if c.f 32 8 = 0 then s.dev.t else c.f 32 8) + c.f 24 2 * msT)) ∧
      EndedToo c St.ok 0 0 s t)) ∧
    (Ready s 0x0007 k c → c.p8 24 < 2 → Answers (.proofRequest k) s (fun t =>
      (t.dev.get F.PROOF_REQ_REQ).testBit (c.p8 24 + 1) = true ∧ Ended c St.ok 0 (t.dev.get F.PROOF_REQ_REQ) s t)) ∧
    (Ready s 0x0007 k c → c.p8 24 = 2 → Answers (.proofRequest k) s (fun t =>
      (t.dev.get F.PROOF_REQ_REQ).testBit 1 = false ∧ (t.dev.get F.PROOF_REQ_REQ).testBit 2 = false ∧
      EndedToo c St.ok 0 (t.dev.get F.PROOF_REQ_REQ) s t)) ∧
    (Ready s 0x0008 k c → Answers (.statSnapshot k) s (fun t =>
      t.dev.get F.STAT_SNAP_STAT_SEQ = (s.dev.get F.STAT_SNAP_STAT_SEQ + 1) % 2 ^ F.STAT_SNAP_STAT_SEQ.w ∧
      Ended c St.ok 0 (t.dev.get F.STAT_SNAP_STAT_SEQ) s t)) ∧
    (Ready s 0x0009 k c → 0 < c.f 28 2 → c.p8 24 ≤ 4 → (c.p8 25 = 6 ∨ c.p8 25 = 7) → 0 < c.f 26 2 → c.f 26 2 ≤ 256 →
      Answers (.frameCapture k) s (fun t =>
        t.dev.pipe.capNext = some ⟨k, c.p8 24, c.p8 25, c.f 26 2, if c.f 28 2 = 0xFFFF then none else some (c.f 28 2), s.dev.t + 1000, 0, 0,
          c.cookie⟩)) ∧
    (Ready s 0x8004 k c → profOk c.data = true → s.dev.profUsed (leAt c.data 2 1) = false → Answers (.profileDefine k) s (fun t =>
      t.dev.prof (leAt c.data 2 1) = some c.data ∧ (t.dev.get F.WEB_PROF_MAP_VAL).testBit (leAt c.data 2 1) = true ∧
      t.dev.store.flashQ = s.dev.store.flashQ ++ [⟨.profile k (leAt c.data 2 1) c.data, 0⟩] ∧ Waits k t))

/-- Ring, converter, domain and health commands (R234, R297, R301, R310, R333, R338). -/
def Obligations.ServiceCommandsComplete : Prop :=
  ∀ (s : State) (k : Nat) (c : Cmd),
    (Ready s 0x000A k c → 2 ≤ c.p8 24 → c.p8 24 < 16 → Answers (.ringReset k) s (fun t =>
      EndedToo c St.ok 0 0 s t ∧ t.dev.bit (F.HOST_RING_CTL_EN.at (c.p8 24)) = false ∧
      t.dev.get (F.HOST_RING_STAT_STATE.at (c.p8 24)) = 0 ∧ t.dev.host.staged.all (fun r => r.ring != c.p8 24) = true)) ∧
    (Ready s 0x000B k c → leAt c.data 0 2 = 1 → leAt c.data 6 10 = 0 →
      checkSeq (auxStaged c.data s.dev) (auxStaged c.data s.dev).stagedSeq = 0 → Answers (.auxSeqLoad k) s (fun t =>
        t.dev.aux.pend = some (auxStaged c.data s.dev).stagedSeq ∧ k ∈ t.dev.aux.pendKs ∧ t.dev.get F.AUX_SEQ_STAT_ERR = 0 ∧ Waits k t)) ∧
    (Ready s 0x000C k c → c.p8 24 ≤ 11 → c.p8 25 ≤ 4 → s.dev.aux.meas = none → s.dev.bit F.AUX_STAT_REF_READY = true →
      Answers (.auxCalZero k) s (fun t =>
        t.dev.aux.meas = some ⟨k, none, c.p8 24, c.p8 25, s.dev.get F.AUX_REF_SEL, 0, 0⟩ ∧ t.dev.bit F.AUX_STAT_CAL_BUSY = true ∧ Waits k t)) ∧
    (∀ z, Ready s 0x000D k c → c.p8 24 ≤ 11 → c.p8 25 ≤ 4 → s.dev.aux.meas = none → s.dev.aux.zero = some z →
      z.idx = calIdx (c.p8 24) (c.p8 25) (s.dev.get F.AUX_REF_SEL) → s.dev.bit F.AUX_STAT_REF_READY = true →
      Answers (.auxCalFull k) s (fun t =>
        t.dev.aux.meas = some ⟨k, some (sext 32 (c.f 28 4)), c.p8 24, c.p8 25, s.dev.get F.AUX_REF_SEL, 0, 0⟩ ∧ t.dev.aux.zero = some z ∧
        t.dev.bit F.AUX_STAT_CAL_BUSY = true ∧ Waits k t)) ∧
    (Ready s 0x000E k c → 1 < c.p8 24 → c.p8 24 ≤ 111 → c.p8 25 = 0 → s.dev.domBit (c.p8 24) = false → Answers (.domainSet k) s (fun t =>
      Ended c St.ok 0 0 s t ∧ t.dev.get F.PWR_LAST_DOMAIN = c.p8 24 ∧ t.dev.get F.PWR_LAST_RESULT = 0 ∧ t.dev.bit F.PWR_LAST_ON = false)) ∧
    (Ready s 0x000E k c → 0 < c.p8 24 → c.p8 24 ≤ 111 → c.p8 25 = 0 → s.dev.domBit (c.p8 24) = true →
      s.dev.domInUse (c.p8 24) (c.origin == .mbx .mgmt) = false → Answers (.domainSet k) s (fun t =>
        t.dev.bit F.PWR_LAST_ON = false ∧ t.dev.get F.PWR_LAST_RESULT = 0 ∧
        ∃ x ∈ t.dev.pwr.drains, x.dom = c.p8 24 ∧ x.k = some k ∧
          x.due = s.dev.t + (if c.f 26 2 = 0 then s.dev.get F.PWR_DRAIN_US else c.f 26 2) * usT)) ∧
    (Ready s 0x000E k c → c.p8 24 ≤ 111 → c.p8 25 = 1 → s.dev.domBit (c.p8 24) = false → s.dev.pwr.drains.all (fun x => x.dom != c.p8 24) = true →
      Answers (.domainSet k) s (fun t =>
        t.dev.domBit (c.p8 24) = true ∧ ∃ x ∈ t.dev.pwr.ups, x.dom = c.p8 24 ∧ x.k = some k ∧ x.t = s.dev.t)) ∧
    (Ready s 0x000F k c → c.p8 24 < 10 → s.dev.elements (c.p8 24) false ≠ [] → Answers (.healthSelftest k) s (fun t =>
      ∃ x ∈ t.dev.health.selfTests, x.ks = [k] ∧ x.scope = c.p8 24 ∧ x.left = (s.dev.elements (c.p8 24) false).map (fun e => (c.p8 24, e)))) ∧
    (Ready s 0x0010 k c → Answers (.marginPlanRun k) s (fun t =>
      t.dev.health.planKs = s.dev.health.planKs ++ [k] ∧ t.dev.health.planDue = some (s.dev.health.planDue.getD s.dev.optime) ∧ Waits k t))

/-- Plate, curve and stipple commands (R75, R76, R82, R103). -/
def Obligations.PlateCommandsComplete : Prop :=
  ∀ (s : State) (k : Nat) (c : Cmd),
    (Ready s 0x8001 k c → c.p8 24 = s.dev.fpa.set.gain → c.p8 24 ≤ 1 → c.f 28 4 + c.data.length ≤ plateBytes →
      s.dev.bit F.PIPE_PL_STAT_SWAP_PEND = false → s.dev.owner < 2 → Answers (.plateWrite k) s (fun t =>
        Ended c St.ok 0 0 s t ∧ t.dev.get F.PIPE_PL_STAT_SHADOW_OWNER = 1 ∧ t.dev.pipe.hostHold = some (s.dev.t + 10 * secT) ∧
        ∀ i, (h : i < c.data.length) → t.mem.qdr.rd qdrDef (plateAddr (s.dev.get F.PIPE_PL_STAT_SHADOW_REG) (c.f 28 4 + i)) = c.data[i])) ∧
    (Ready s 0x8002 k c → c.p8 24 ≤ 1 → c.p8 24 = s.dev.fpa.set.gain → s.dev.owner = 1 →
      crc32c (plateRead s.mem (s.dev.get F.PIPE_PL_STAT_SHADOW_REG) 0 plateBytes) = c.f 28 4 → s.dev.tallyFailed 10 = false →
      Answers (.plateCommit k) s (fun t =>
        Ended c St.ok 0 ((s.dev.tallyInc 10).tally 10) s t ∧ t.dev.bit F.PIPE_PL_STAT_SWAP_PEND = true ∧
        t.dev.get F.PIPE_PL_STAT_SHADOW_OWNER = 0 ∧ t.dev.pipe.swap = some ⟨s.dev.t, false, none⟩)) ∧
    (Ready s 0x8003 k c → c.p8 24 ≤ 1 → curveOk c.data = true → s.dev.tallyFailed 11 = false → Answers (.curveWrite k) s (fun t =>
      Ended c St.ok 0 ((s.dev.tallyInc 11).tally 11) s t ∧ t.dev.bit F.PIPE_RAD_CV_STAT_PEND = true ∧
      ∃ q, t.dev.burin.curves = s.dev.burin.curves ++ [q] ∧ q.range = c.p8 24 ∧ q.t = s.dev.t ∧ q.seq = (s.dev.tallyInc 11).tally 11)) ∧
    (Ready s 0x8005 k c → (List.range (c.data.length / 8)).all (fun i => leAt c.data (8 * i + 6) 2 == 0) = true →
      (editEntries c.data).all (fun e => decide (e.2.2.1 < 16 ∧ e.2.2.2 < 16 ∧ e.1 < 2560 ∧ e.2.1 < 2048 ∧ e.2.2.1 &&& e.2.2.2 = 0)) = true →
      s.dev.tallyFailed 12 = false → Answers (.stippleEdit k) s (fun t =>
        t.dev.pipe.edits = s.dev.pipe.edits ++ [⟨some k, s.dev.t, (s.dev.tallyInc 12).tally 12, editEntries c.data⟩] ∧
        t.dev.bit F.PIPE_ST_STAT_EVAL_BUSY = true ∧ Waits k t)) ∧
    (Ready s 0x8006 k c → c.p8 24 = s.dev.fpa.set.gain → c.p8 24 ≤ 1 → s.dev.shadowFree = true → s.dev.owner ≠ 2 → s.dev.tallyFailed 10 = false →
      Answers (.factoryPlateRestore k) s (fun t =>
        Ended c St.ok 0 ((s.dev.tallyInc 10).tally 10) s t ∧ t.dev.bit F.PIPE_PL_STAT_SWAP_PEND = true ∧
        t.dev.pipe.swap = some ⟨s.dev.t, false, none⟩))

/-- Stand, key and firmware commands (R202, R209, R257, R258, R263, R264). -/
def Obligations.StandKeyAndFirmwareCommandsComplete : Prop :=
  ∀ (s : State) (k : Nat) (c : Cmd),
    (Ready s 0x8007 k c → mapFields c.data = true → (mapEnt (mapOf c.data) (mapOf c.data).root).id = s.dev.selfId →
      mapOk (mapOf c.data) s.dev.colsOf = true → s.dev.bit F.STAND_CTL_EN = true → s.dev.stand.mapWait = none →
      Answers (.standMapSet k) s (fun t => t.dev.stand.mapWait = some (k, mapOf c.data) ∧ Waits k t)) ∧
    (∀ m, Ready s 0x8008 k c → c.p8 24 ≤ 31 → c.p8 25 ≤ 4 → c.p8 27 ≤ 7 → s.dev.stand.map = some m → s.dev.inStand = true → s.dev.isRoot = true →
      mapOk (mapPut m (c.p8 24) { mapEnt m (c.p8 24) with kind := c.p8 25, cover := c.p8 26, flags := c.p8 27 }) s.dev.colsOf = true →
      Answers (.roleSet k) s (fun t =>
        t.dev.get F.STAND_EPOCH_EPOCH = (s.dev.get F.STAND_EPOCH_EPOCH + 1) % 2 ^ 32 ∧
        EndedToo c St.ok 0 (t.dev.get F.STAND_EPOCH_EPOCH) s t)) ∧
    (Ready s 0x8009 k c → firstImport s.dev c = true → Answers (.keyImport k) s (fun t =>
      t.dev.bit F.SEC_STAT_PROVISIONED = true ∧
      t.dev.store.keepQ = s.dev.store.keepQ ++ [⟨.key k ⟨0, 0, slice c.data 0 32⟩, 3, 3, 0⟩] ∧ Waits k t)) ∧
    (Ready s 0x800A k c → 1 ≤ c.p8 24 → c.p8 24 ≤ 7 → Answers (.keyRetire k) s (fun t =>
      t.dev.store.keepQ = s.dev.store.keepQ ++ [⟨.keyErase k (c.p8 24), 3, 3, 0⟩] ∧ Waits k t)) ∧
    (Ready s 0x800B k c → c.p8 24 ≤ 1 → c.p8 25 ≤ 1 → c.p8 24 ≠ s.dev.get F.SEC_FW_STAT_ACTIVE → c.f 28 4 = 0 → c.data.length ≤ 0x01000000 →
      Answers (.fwStage k) s (fun t =>
        t.dev.get (bankFld (c.p8 24)) = 1 ∧
        t.dev.store.flashQ = s.dev.store.flashQ ++ [⟨.fwChunk k (c.p8 24) 0 c.data (c.p8 25 == 1), 0⟩] ∧ Waits k t)) ∧
    (Ready s 0x800C k c → c.p8 24 ≤ 1 → s.dev.tallyFailed 16 = false → s.dev.get (bankFld (c.p8 24)) = 2 → Answers (.fwSwitch k) s (fun t =>
      t.dev.sec.fwSwitch = some ⟨k, c.p8 24, Nat.max (c.f 32 8) (c.accT + 2000), c.f 32 8⟩ ∧
      t.dev.bit F.SEC_FW_STAT_SWITCH_PEND = true ∧ Waits k t))

/-- KEEP_WRITE and REPAIR_POLICY_SET (R282, R290, R296). -/
def Obligations.KeepCommandsComplete : Prop :=
  ∀ (s : State) (k : Nat) (c : Cmd),
    (Ready s 0x800D k c → c.f 24 4 % 64 = 0 → 0x40000 ≤ c.f 24 4 → c.f 24 4 + c.ilen ≤ 0x80000 → Answers (.keepWrite k) s (fun t =>
      t.dev.store.keepQ = s.dev.store.keepQ ++ [⟨.user k (c.f 24 4) (slice c.data 0 c.ilen), c.ilen / 64 + 1, c.ilen / 64 + 1, 0⟩] ∧ Waits k t)) ∧
    (Ready s 0x800F k c → c.p8 25 ≤ 7 → c.p8 25 % 4 ∈ policiesOf (c.p8 24) → Answers (.repairPolicySet k) s (fun t =>
      t.dev.get (policyFld (c.p8 24)) = c.p8 25 ∧ Ended c St.ok 0 0 s t))

/-- FLASH_ERASE (R279): an address or a length that is no multiple of 128 KiB, or a range beyond the 512 MiB, ends it with BAD_PARAM;
the factory area, the running bank, the boot bank during a trial and a slot being written refuse it, with nothing erased; else the
erase waits for its turn. -/
def Obligations.FlashEraseChecksItsRange : Prop :=
  ∀ (s : State) (k : Nat) (c : Cmd), Ready s 0x800E k c →
    ((c.f 32 8 % 0x20000 ≠ 0 ∨ c.f 24 4 % 0x20000 ≠ 0 ∨ 0x20000000 < c.f 32 8 + c.f 24 4) →
      Answers (.flashErase k) s (fun t => Ended c St.badParam 0 0 s t ∧ t.mem = s.mem ∧ t.dev.store = s.dev.store)) ∧
    (c.f 32 8 % 0x20000 = 0 → c.f 24 4 % 0x20000 = 0 → c.f 32 8 + c.f 24 4 ≤ 0x20000000 → eraseBarred s.dev (c.f 32 8) (c.f 24 4) = true →
      Answers (.flashErase k) s (fun t => Ended c St.refused 0 0 s t ∧ t.mem = s.mem ∧ t.dev.store = s.dev.store)) ∧
    (c.f 32 8 % 0x20000 = 0 → c.f 24 4 % 0x20000 = 0 → c.f 32 8 + c.f 24 4 ≤ 0x20000000 → eraseBarred s.dev (c.f 32 8) (c.f 24 4) = false →
      Answers (.flashErase k) s (fun t => Waits k t ∧ t.mem = s.mem ∧
        t.dev.store.flashQ = s.dev.store.flashQ ++ [⟨.erase k (c.f 32 8) (c.f 24 4), 0⟩]))

/-- The clear of a block's counters leaves every counter of the block at 0, or at 1 where it has counted in the same clock (R26); the
reading of which counters belong to `WEB_CTL.CNT_CLR` and of those of the Keep is the block's own. -/
def Obligations.CounterClearsComplete : Prop :=
  ∀ s : State,
    Answers .fpaCntClr s (fun t => ∀ f ∈ [F.FPA_TRIG_MISS_CNT, F.FPA_LINK_LOST_CNT], t.dev.get f = b2n (s.dev.tiedFld f)) ∧
    (∀ loaderr cap, Answers (.pipeCntClr loaderr cap) s (fun t =>
      t.dev.get F.PIPE_PL_LOADERR_CNT = (if loaderr then b2n (s.dev.tiedFld F.PIPE_PL_LOADERR_CNT) else s.dev.get F.PIPE_PL_LOADERR_CNT) ∧
      ∀ f ∈ [F.PIPE_CAP_DONE_CNT, F.PIPE_CAP_DROP_CNT, F.PIPE_CAP_DROP_QDR_CNT], t.dev.get f = (if cap then b2n (s.dev.tiedFld f) else s.dev.get f))) ∧
    Answers .proofCntClr s (fun t => ∀ f ∈ [F.PROOF_CNT_ABORT_CNT, F.PROOF_CNT_FORCED_CNT, F.PROOF_SHUT_FAILS_CNT, F.PROOF_CC_OUTLIER_CNT],
      t.dev.get f = b2n (s.dev.tiedFld f)) ∧
    Answers .webCntClr s (fun t => ∀ f ∈ [F.WEB_ENC_ERR_CNT, F.WEB_Z_CNT_CNT, F.WEB_Z_ERR_CNT, F.WEB_DISC_REV_CNT, F.WEB_DISC_EMIT_CNT,
      F.WEB_TRUNC_CNT, F.WEB_GAP_CNT, F.WEB_REC_DROP_CNT], t.dev.get f = b2n (s.dev.tiedFld f)) ∧
    Answers .alarmCntClr s (fun t => (∀ i < 4, t.dev.get (F.STAT_AL_FIRE_CNT.at i) = b2n (s.dev.tiedFld (F.STAT_AL_FIRE_CNT.at i))) ∧ t.dev.get F.STAT_AL_TARDY_CNT = b2n (s.dev.tiedFld F.STAT_AL_TARDY_CNT) ∧
      t.dev.get F.STAT_AL_MERGED_CNT = b2n (s.dev.tiedFld F.STAT_AL_MERGED_CNT)) ∧
    Answers .linkCntClr s (fun t => t.dev.get F.LINK_REROUTES_CNT = b2n (s.dev.tiedFld F.LINK_REROUTES_CNT) ∧ t.dev.get F.LINK_ENC_EXTRAP_VAL = b2n (s.dev.tiedFld F.LINK_ENC_EXTRAP_VAL) ∧ t.dev.get F.LINK_ENC_GAP_VAL = b2n (s.dev.tiedFld F.LINK_ENC_GAP_VAL) ∧
      ∀ p < 3, ∀ f ∈ [F.LINK_P_CORR_CNT, F.LINK_P_UNCORR_CNT, F.LINK_P_STALE_CNT, F.LINK_P_SEQGAP_CNT, F.LINK_P_DROP_CNT,
        F.LINK_P_LANE0_BLOCK_ERR, F.LINK_P_LANE1_BLOCK_ERR, F.LINK_P_LANE2_BLOCK_ERR, F.LINK_P_LANE3_BLOCK_ERR, F.LINK_P_LANE0_CORR_SYM,
        F.LINK_P_LANE1_CORR_SYM, F.LINK_P_LANE2_CORR_SYM, F.LINK_P_LANE3_CORR_SYM], t.dev.get (f.at p) = b2n (s.dev.tiedFld (f.at p))) ∧
    Answers .standCntClr s (fun t => ∀ f ∈ [F.STAND_DEATHS_CNT, F.STAND_REVENANT_CNT, F.STAND_TAKEOVERS_CNT, F.STAND_EPOCH_CHG_CNT,
      F.STAND_MERGE_LATE_CNT, F.STAND_MERGE_OVF_CNT, F.STAND_MERGE_DUP_CNT, F.STAND_MERGE_INCOMP_CNT], t.dev.get f = b2n (s.dev.tiedFld f)) ∧
    Answers .hostCntClr s (fun t => (∀ f ∈ [F.HOST_LINK_DOWNS_CNT, F.HOST_RETRAINS_CNT, F.HOST_UNEXP_CPL_CNT, F.HOST_DB_IGNORED_CNT,
      F.HOST_PTM_STAT_FAILS], t.dev.get f = b2n (s.dev.tiedFld f)) ∧ (∀ c < 8, t.dev.get (F.HOST_DMA_RETRIES_CNT.at c) = b2n (s.dev.tiedFld (F.HOST_DMA_RETRIES_CNT.at c))) ∧
      ∀ n < 16, t.dev.get (F.HOST_RING_DROP_VAL.at n) = b2n (s.dev.tiedFld (F.HOST_RING_DROP_VAL.at n))) ∧
    Answers .secCntClr s (fun t => ∀ f ∈ [F.SEC_AUTH_FAIL_CNT, F.SEC_REPLAY_CNT, F.SEC_ROLE_FAIL_CNT, F.SEC_RELAYED_CNT], t.dev.get f = b2n (s.dev.tiedFld f)) ∧
    Answers .memCntClr s (fun t => t.dev.get F.MEM_PATH_CORR_VAL = b2n (s.dev.tiedFld F.MEM_PATH_CORR_VAL) ∧ t.dev.get F.MEM_PATH_UNCORR_VAL = b2n (s.dev.tiedFld F.MEM_PATH_UNCORR_VAL) ∧
      ∀ c < 4, t.dev.get (F.MEM_QDR_CORR_CNT.at c) = b2n (s.dev.tiedFld (F.MEM_QDR_CORR_CNT.at c)) ∧ t.dev.get (F.MEM_QDR_UNCORR_CNT.at c) = b2n (s.dev.tiedFld (F.MEM_QDR_UNCORR_CNT.at c)) ∧ t.dev.get (F.MEM_QDR_WBSKIP_CNT.at c) = b2n (s.dev.tiedFld (F.MEM_QDR_WBSKIP_CNT.at c)) ∧
        ∀ i < 36, t.dev.get (wireFld c i) = b2n (s.dev.tiedFld (wireFld c i))) ∧
    Answers .storeCntClr s (fun t => (∀ f ∈ [F.STORE_FLASH_CRCERR_CNT, F.STORE_KEEP_CORR_VAL, F.STORE_KEEP_UNCORR_VAL, F.STORE_KEEP_TORN_VAL],
      t.dev.get f = b2n (s.dev.tiedFld f)) ∧ t.dev.reg R.STORE_KEEP_SPARES = s.dev.reg R.STORE_KEEP_SPARES) ∧
    Answers .healthCntClr s (fun t => ∀ f ∈ [F.HEALTH_EVT_LOST_VAL, F.HEALTH_TESTS_CNT, F.HEALTH_TRANSIENT_CNT, F.HEALTH_LASTING_CNT,
      F.HEALTH_REPAIRS_CNT, F.HEALTH_TEST_DROP_CNT, F.HEALTH_STOPS_VAL, F.HEALTH_STOP_MAX_VAL], t.dev.get f = b2n (s.dev.tiedFld f)) ∧
    Answers .clkCntClr s (fun t => t.dev.get F.CLK_REF_LOSS_CNT = b2n (s.dev.tiedFld F.CLK_REF_LOSS_CNT) ∧ t.dev.get F.CLK_UNLOCK_CNT = b2n (s.dev.tiedFld F.CLK_UNLOCK_CNT)) ∧
    Answers .pwrCntClr s (fun t => t.dev.get F.PWR_ABORTED_CNT = b2n (s.dev.tiedFld F.PWR_ABORTED_CNT) ∧ t.dev.get F.PWR_BAL_SAT_CNT_CNT = b2n (s.dev.tiedFld F.PWR_BAL_SAT_CNT_CNT)) ∧
    Answers .auxCntClr s (fun t => t.dev.get F.AUX_OVERRUN_CNT = b2n (s.dev.tiedFld F.AUX_OVERRUN_CNT) ∧ t.dev.get F.AUX_BLANK_MISS_CNT = b2n (s.dev.tiedFld F.AUX_BLANK_MISS_CNT)) ∧
    Answers .ioCntClr s (fun t => ∀ f ∈ [F.SPI_TXN_CNT, F.SPI_FRAG_CNT, F.SPI_BADHDR_CNT, F.IO_CONFLICT_CNT_CNT, F.IO_TIME_CNT_CNT,
      F.IO_TIME_REJ_CNT], t.dev.get f = b2n (s.dev.tiedFld f))

/-- The ring registers (R230, R232, R233, R234, R243): a doorbell within bounds moves H; one in the clock of its ring's reset is
counted and moves nothing, and one accepted earlier in that clock is taken back and counted; one written 64 bits wide is logged and
moves nothing; enabling a disabled ring zeroes its indices; disabling it with nothing under way and resetting it leave it DISABLED;
RESUME clears a halt. -/
def Obligations.RingRegistersComplete : Prop :=
  ∀ (s : State) (n : Fin 16),
    (∀ v, s.dev.host.rstNow.contains n.val = false → s.dev.ringState n ≠ 0 → idxDiff v.toNat (s.dev.ringH n) < 2 ^ 31 →
      (if n.val = 1 then ¬ (0 < idxDiff v.toNat (s.dev.ringM 1) ∧ idxDiff v.toNat (s.dev.ringM 1) < 2 ^ 31)
        else idxDiff v.toNat (s.dev.ringM n) ≤ s.dev.ringS n) →
      Answers (.doorbellWrite n v false) s (fun t => t.dev.ringH n = v.toNat ∧ t.dev.get F.HOST_DB_IGNORED_CNT = s.dev.get F.HOST_DB_IGNORED_CNT)) ∧
    (∀ v, s.dev.host.rstNow.contains n.val = true → Answers (.doorbellWrite n v false) s (fun t =>
      t.dev.ringH n = s.dev.ringH n ∧ t.dev.get F.HOST_DB_IGNORED_CNT = satN F.HOST_DB_IGNORED_CNT.w (s.dev.get F.HOST_DB_IGNORED_CNT + 1))) ∧
    (∀ v, s.dev.host.rstNow.contains n.val = false → s.dev.ringState n = 0 → Answers (.doorbellWrite n v false) s (fun t =>
      t.dev.ringH n = s.dev.ringH n ∧ t.dev.bit F.HOST_ERR_STAT_DB_DISABLED = true)) ∧
    (∀ v, s.dev.host.rstNow.contains n.val = false → s.dev.ringState n ≠ 0 → 2 ^ 31 ≤ idxDiff v.toNat (s.dev.ringH n) →
      Answers (.doorbellWrite n v false) s (fun t => t.dev.ringH n = s.dev.ringH n ∧ t.dev.bit F.HOST_ERR_STAT_DB_BACK = true)) ∧
    (∀ v, Answers (.doorbellWrite n v true) s (fun t => t.dev.ringH n = s.dev.ringH n)) ∧
    (s.dev.ringState n = 0 → s.dev.host.staged.all (fun r => r.ring != n.val) = true → Answers (.ringEnable n) s (fun t =>
      t.dev.bit (F.HOST_RING_CTL_EN.at n) = true ∧ t.dev.ringH n = 0 ∧ t.dev.ringM n = 0 ∧ t.dev.ringState n = 1 ∧
      t.dev.get (F.HOST_RING_STAT_ERR.at n) = 0)) ∧
    Answers (.ringDisable n) s (fun t => t.dev.bit (F.HOST_RING_CTL_EN.at n) = false) ∧
    (s.dev.ringState n = 1 → s.dev.host.reqs.all (fun r => r.ring != n.val) = true → (s.dev.ringX n).bufs = [] →
      Answers (.ringDisable n) s (fun t => t.dev.ringState n = 0)) ∧
    Answers (.ringCtlReset n) s (fun t => t.dev.bit (F.HOST_RING_CTL_EN.at n) = false ∧ t.dev.ringState n = 0 ∧
      t.dev.host.staged.all (fun r => r.ring != n.val) = true ∧ t.dev.host.reqs.all (fun r => r.ring != n.val) = true) ∧
    (∀ h, s.dev.host.dbNow = [(n.val, h)] → h < 2 ^ 32 → Answers (.ringCtlReset n) s (fun t =>
      t.dev.ringH n = h ∧ t.dev.get F.HOST_DB_IGNORED_CNT = satN F.HOST_DB_IGNORED_CNT.w (s.dev.get F.HOST_DB_IGNORED_CNT + 1))) ∧
    (∀ c : Fin 8, s.dev.get (F.HOST_DMA_STAT_STATE.at c) = 3 → Answers (.resume c) s (fun t =>
      t.dev.get (F.HOST_DMA_STAT_STATE.at c) ≠ 3 ∧ t.dev.get (F.HOST_DMA_STAT_HALT.at c) = 0))

/-- Commands come in through ring 0 and the mailbox, and their completions go out through ring 1 and the mailbox (R235, R248, R249,
R261). -/
def Obligations.CommandTransportCompletes : Prop :=
  ∀ s : State,
    (∀ entry, s.dev.host.reqs.any (fun r => r.kind == .cmd && r.live) = true → s.dev.fwGap = false → (∀ x ∈ s.dev.sec.cmds, x.verified = true) →
      Answers (.commandFetch entry) s (fun t =>
      t.dev.sec.nextK = s.dev.sec.nextK + 1 ∧ t.dev.ringM 0 = (s.dev.ringM 0 + 1) % 2 ^ 32 ∧
      ((∃ x ∈ t.dev.sec.cmds, x.k = s.dev.sec.nextK ∧ x.entry = slice entry 0 64 ∧ x.origin = .ring) ∨
        ∃ b ∈ t.dev.host.cpls, ∃ c : Cmd, ∃ st, c.k = s.dev.sec.nextK ∧ c.entry = slice entry 0 64 ∧ c.origin = .ring ∧
          b = cplBytes c st 0 0 0xFF))) ∧
    (∀ k data c, (s.dev.sec.cmds.find? (fun c => c.k == k) = some c) → c.hasData = false →
      s.dev.host.reqs.any (fun r => r.kind == .indirect k && r.live) = true →
      s.dev.host.reqs.all (fun r => r.kind != .indirect k || r.live) = true →
      Answers (.indirectDataFetch k data) s (fun t => ∀ x ∈ t.dev.sec.cmds, x.k = k →
        x.hasData = true ∧ (x.data = slice data 0 x.ilen ∨ ∃ y ∈ s.dev.sec.cmds, y.k = k ∧ y.hasData = true))) ∧
    (∀ b bs, s.dev.host.cpls = b :: bs → s.dev.ringState 1 = 1 → idxDiff (s.dev.ringM 1) (s.dev.ringH 1) < s.dev.ringS 1 →
      s.dev.chanRuns 0 = true → Answers .completionWrite s (fun t =>
        t.dev.host.cpls = bs ∧ t.dev.ringM 1 = (s.dev.ringM 1 + 1) % 2 ^ 32 ∧
        (b.length = 16 → 16 ≤ s.dev.host.cfg.mps → .dmaWrite (s.dev.ringBase 1 + 16 * (s.dev.ringM 1 % s.dev.ringS 1))
          (b.take 15 ++ [BitVec.ofNat 8 (1 - s.dev.ringM 1 / s.dev.ringS 1 % 2)]) false ∈ t.dev.out))) ∧
    (∀ p : Path, p ≠ .bar2 → s.dev.bit F.SEC_MBX_STAT_BUSY = false → s.dev.bit F.SEC_MBX_STAT_DONE = false →
      Answers (.mbxGo p) s (fun t => t.dev.bit F.SEC_MBX_STAT_PATH = (p == .mgmt) ∧ t.dev.bit F.SEC_MBX_STAT_BUSY = true ∧
        ∃ e data, t.dev.sec.mbxWait = some (p, e, data) ∧
          e = (List.range 16).flatMap (fun i => leBytes 4 (s.dev.get (F.SEC_MBX_ENTRY_DATA.at i))))) ∧
    (∀ p : Path, p ≠ .bar2 → (s.dev.bit F.SEC_MBX_STAT_BUSY = true ∨ s.dev.bit F.SEC_MBX_STAT_DONE = true) →
      Answers (.mbxGo p) s (fun t => t.dev.bit F.SEC_MBX_STAT_COLLIDE = true ∧ t.dev.sec = s.dev.sec)) ∧
    (∀ p : Path, p ≠ .bar2 → s.dev.bit F.SEC_MBX_STAT_DONE = true → s.dev.bit F.SEC_MBX_STAT_PATH = (p == .mgmt) →
      Answers (.mbxAck p) s (fun t => t.dev.bit F.SEC_MBX_STAT_DONE = false))

/-- The readout's registers and its trigger (R43, R44, R47, R49, R53, R373): RUN starts and stops imaging, a commit becomes the pending
one, CANCEL withdraws it, a trigger edge places the next boundary or is counted as missed, the vertical blanking begins. -/
def Obligations.ReadoutRegistersComplete : Prop :=
  ∀ s : State,
    (s.dev.bit F.FPA_CTL_RUN = false → checkSet s.dev s.dev.firstSet = 0 → Answers .runSet s (fun t =>
      t.dev.bit F.FPA_CTL_RUN = true ∧ t.dev.bit F.FPA_STAT_RUNNING = true ∧ t.dev.get F.FPA_ACQ_STAT_ERR = 0 ∧
      t.dev.fpa.startAt = some (Nat.max (match s.dev.fpa.pend with | some p => p.teff | none => 0) (s.dev.t + 2000)))) ∧
    (s.dev.bit F.FPA_CTL_RUN = false → checkSet s.dev s.dev.firstSet ≠ 0 → Answers .runSet s (fun t =>
      t.dev.bit F.FPA_CTL_RUN = false ∧ t.dev.bit F.FPA_ACQ_STAT_REFUSED = true ∧ t.dev.fpa = s.dev.fpa)) ∧
    Answers .runClear s (fun t => t.dev.bit F.FPA_CTL_RUN = false ∧ t.dev.fpa.nextB = none ∧ t.dev.fpa.startAt = none ∧
      t.dev.bit F.FPA_STAT_RUNNING = s.dev.inFrame) ∧
    (checkSet s.dev (s.dev.setOf (s.dev.get F.FPA_ACQ_SEL_SET)) = 0 → s.dev.tallyFailed 9 = false → s.dev.commitDue = false → Answers .acqCtlCommit s (fun t =>
      t.dev.fpa.pend = some ⟨none, s.dev.setOf (s.dev.get F.FPA_ACQ_SEL_SET), genOf ((s.dev.tallyInc 9).tally 9),
        Nat.max (s.dev.get F.FPA_ACQ_TIME_T_C) (s.dev.t + 2000)⟩ ∧ t.dev.get F.FPA_ACQ_STAT_ERR = 0 ∧ t.dev.bit F.FPA_STAT_PENDING = true)) ∧
    (checkSet s.dev (s.dev.setOf (s.dev.get F.FPA_ACQ_SEL_SET)) ≠ 0 → Answers .acqCtlCommit s (fun t =>
      t.dev.fpa.pend = s.dev.fpa.pend ∧ t.dev.bit F.FPA_ACQ_STAT_REFUSED = true)) ∧
    (s.dev.fpa.pend.isSome = true → s.dev.commitDue = false → Answers .acqCtlCancel s (fun t =>
      t.dev.fpa.pend = none ∧ t.dev.bit F.FPA_ACQ_STAT_CANCELLED = true ∧ t.dev.bit F.FPA_STAT_PENDING = false)) ∧
    (s.dev.commitDue = true → Answers .acqCtlCancel s (fun t => t.dev.fpa.pend = s.dev.fpa.pend) ∧
      Answers .acqCtlCommit s (fun t => t.dev.fpa.pend = s.dev.fpa.pend)) ∧
    (∀ encZ : Bool, (encZ = false → s.dev.bankIn = true) → s.dev.bit F.FPA_CTL_RUN = true → s.dev.frameSrc = (if encZ then 2 else 1) →
      s.dev.fpa.startAt = none → s.dev.fpa.nextB = none → (∀ l, s.dev.fpa.lastB = some l → l + s.dev.fpa.set.period ≤ trigStamp encZ s.dev + 100) →
      Answers (.trigInEdge encZ) s (fun t => t.dev.fpa.nextB = some (trigStamp encZ s.dev + 100) ∧ t.dev.fpa.nextTrig = true)) ∧
    (∀ (encZ : Bool) (l : Nat), (encZ = false → s.dev.bankIn = true) → s.dev.bit F.FPA_CTL_RUN = true →
      s.dev.frameSrc = (if encZ then 2 else 1) →
      (s.dev.fpa.startAt = none ∧ s.dev.fpa.lastB = some l ∧ trigStamp encZ s.dev + 100 < l + s.dev.fpa.set.period ∨
        s.dev.fpa.startAt = some l ∧ trigStamp encZ s.dev + 100 < l) →
      Answers (.trigInEdge encZ) s (fun t => t.dev.fpa.nextB = s.dev.fpa.nextB ∧
        t.dev.get F.FPA_TRIG_MISS_CNT = Nat.min (2 ^ F.FPA_TRIG_MISS_CNT.w - 1) (s.dev.get F.FPA_TRIG_MISS_CNT + 1))) ∧
    (∀ f, s.dev.fpa.frames.find? (fun f => decide (f.b ≤ s.dev.t) && decide (s.dev.t < f.b + f.set.period) && f.cut.isNone) = some f →
      f.b + (f.set.rowSlots + 1) * f.set.tslot ≤ s.dev.t → s.dev.cc.vbStart ≠ some (f.b + (f.set.rowSlots + 1) * f.set.tslot) →
      Answers .verticalBlanking s (fun t => t.dev.cc.vbStart = some (f.b + (f.set.rowSlots + 1) * f.set.tslot) ∧ t.dev.cc.done = 0))

/-- The stage's register and its events (R50, R53, R54): a write of STAGE_CTL in OFF acts at once and is else held for a glade; a
sample's mean temperature shows, with OVER_TEMP outside 0 to 95 °C; HEATING goes to SETTLING, SETTLING to REGULATED and REGULATED to
UNREG when their conditions hold; a low margin shows and steps the setpoint under AUTO_STEP; a diode long invalid is excluded. -/
def Obligations.StageComplete : Prop :=
  ∀ s : State,
    (∀ v : Word, s.dev.stageState = 0 →
      Answers (.stageCtlWrite v) s (fun t => t.dev.reg R.FPA_STAGE_CTL = (s.dev.writeWord R.FPA_STAGE_CTL v.toNat).reg R.FPA_STAGE_CTL ∧
        ((t.dev.get F.FPA_STAGE_CTL_MODE, t.dev.get F.FPA_STAGE_CTL_SETPOINT) ≠ (s.dev.get F.FPA_STAGE_CTL_MODE, s.dev.get F.FPA_STAGE_CTL_SETPOINT) →
          t.dev.get F.FPA_STAGE_STAT_MODE_ACTIVE = t.dev.get F.FPA_STAGE_CTL_MODE ∧
          t.dev.get F.FPA_STAGE_STAT_SP_ACTIVE = t.dev.get F.FPA_STAGE_CTL_SETPOINT))) ∧
    (∀ v : Word, s.dev.stageState ≠ 0 → s.dev.bit F.PROOF_GLADE_STAT_OPEN = false →
      Answers (.stageCtlWrite v) s (fun t => t.dev.reg R.FPA_STAGE_CTL = (s.dev.writeWord R.FPA_STAGE_CTL v.toNat).reg R.FPA_STAGE_CTL ∧
        ((t.dev.get F.FPA_STAGE_CTL_MODE, t.dev.get F.FPA_STAGE_CTL_SETPOINT) ≠ (s.dev.get F.FPA_STAGE_CTL_MODE, s.dev.get F.FPA_STAGE_CTL_SETPOINT) →
          (t.dev.get F.FPA_STAGE_CTL_MODE, t.dev.get F.FPA_STAGE_CTL_SETPOINT) ≠ (s.dev.get F.FPA_STAGE_STAT_MODE_ACTIVE, s.dev.get F.FPA_STAGE_STAT_SP_ACTIVE) →
          t.dev.stage.pend = some (t.dev.get F.FPA_STAGE_CTL_MODE, t.dev.get F.FPA_STAGE_CTL_SETPOINT) ∧
          t.dev.bit F.FPA_STAGE_STAT_STEP_PENDING = true))) ∧
    Answers .stageSample s (fun t =>
      (∀ m, (stageMean (s.dev.stage.feeds.filter (fun r => !s.dev.stage.perm.contains r.diode))).1 = some m → t.dev.get F.FPA_STAGE_TEMP_T = uns 32 m) ∧
      t.dev.bit F.FPA_STAGE_STAT_OVER_TEMP = (decide (t.dev.stageT < 273150) || decide (368150 < t.dev.stageT)) ∧
      (s.dev.stageState = 1 → t.dev.stageErr.natAbs < 50 → t.dev.stageState = 2)) ∧
    (s.dev.stageState = 2 → ranFor s.dev.stage.settleT (5 * secT) s.dev.t = true → s.dev.stageErr.natAbs ≤ 20 → s.dev.stage.pend = none →
      Answers .stageSettled s (fun t => t.dev.stageState = 3 ∧ t.dev.bit F.FPA_STAGE_STAT_STAGE_REG = true)) ∧
    (s.dev.stageState = 3 → ranFor s.dev.stage.lowT (10 * secT) s.dev.t = true → s.dev.bit F.FPA_STAGE_STAT_MARGIN_LOW = false →
      Answers .marginLow s (fun t => t.dev.bit F.FPA_STAGE_STAT_MARGIN_LOW = true ∧
        (s.dev.bit F.FPA_STAGE_CTL_AUTO_STEP = true → s.dev.get F.FPA_STAGE_STAT_SP_ACTIVE < 6 →
          t.dev.get F.FPA_STAGE_CTL_SETPOINT = s.dev.get F.FPA_STAGE_STAT_SP_ACTIVE + 1))) ∧
    (s.dev.stageState = 3 → (s.dev.stage.validNow < 2 ∨ ranFor s.dev.stage.limitT secT s.dev.t = true) →
      Answers .stageUnreg s (fun t => t.dev.stageState = 5 ∧ t.dev.bit F.FPA_STAGE_STAT_STAGE_REG = false)) ∧
    (∀ (n : Fin 4) (x : Nat), s.dev.stage.invalidSince.getD n none = some x → x + 10 * secT < s.dev.t → n.val ∉ s.dev.stage.excluded →
      Answers (.diodeExcl n) s (fun t => n.val ∈ t.dev.stage.excluded ∧ (t.dev.get F.FPA_STAGE_STAT_DIODE_EXCL).testBit n = true))

/-- The order of `PROOF_SCHED` (R135): a write that keeps it is stored, one that breaks it changes nothing, and with FORCE_MIN at 0 no
proof is forced by its age. -/
def Obligations.ProofScheduleKeepsItsOrder : Prop :=
  ∀ s : State,
    (∀ v : Word, (v.toNat % 256 ≤ v.toNat / 256 % 256 ∧ (v.toNat / 65536 = 0 ∨ v.toNat / 256 % 256 ≤ v.toNat / 65536)) →
      Answers (.proofSchedWrite v) s (fun t => t.dev.reg R.PROOF_SCHED = v)) ∧
    (∀ v : Word, ¬ (v.toNat % 256 ≤ v.toNat / 256 % 256 ∧ (v.toNat / 65536 = 0 ∨ v.toNat / 256 % 256 ≤ v.toNat / 65536)) →
      exec (.proofSchedWrite v) s = .next s) ∧
    (s.dev.get F.PROOF_SCHED_FORCE_MIN = 0 → exec .proofForceDue s = .next s)

/-- Registers of the plates, the drift model and the blade (R75, R100, R113, R115, R118). -/
def Obligations.PlateAndBladeRegistersComplete : Prop :=
  ∀ s : State,
    (s.dev.get F.PIPE_PL_STAT_SHADOW_OWNER = 1 → Answers .shadowRelease s (fun t =>
      t.dev.get F.PIPE_PL_STAT_SHADOW_OWNER = 0 ∧ t.dev.pipe.hostHold = none)) ∧
    (s.dev.get F.PIPE_PL_STAT_SHADOW_OWNER ≠ 1 → exec .shadowRelease s = .next s) ∧
    (∀ v : Word, 1 ≤ v.toNat / 2 ^ 8 % 256 → v.toNat / 2 ^ 8 % 256 ≤ 15 → v.toNat / 2 ^ 8 % 256 ≤ v.toNat / 2 ^ 16 % 256 →
      v.toNat / 2 ^ 16 % 256 ≤ 60 → Answers (.acCtlWrite v) s (fun t =>
        t.dev.get F.PIPE_AC_CTL_A_MIN = v.toNat / 2 ^ 8 % 256 ∧ t.dev.get F.PIPE_AC_CTL_B_MIN = v.toNat / 2 ^ 16 % 256 ∧
        (v.toNat % 4 ≤ 2 → t.dev.get F.PIPE_AC_CTL_REQ_CLASS = v.toNat % 4))) ∧
    (∀ (n : Fin 8) (v : Word), Answers (.dmCoeffWrite n v) s (fun t =>
      t.dev.get (F.PIPE_DM_K_K.at n) = v.toNat ∧ t.dev.bit F.PIPE_DM_STAT_TRUSTED = false ∧ t.dev.get F.PIPE_DM_STAT_TRUST_CNT = 0 ∧
      t.dev.store.keepQ = s.dev.store.keepQ ++ [⟨.regs [(R.PIPE_DM_K + 4 * n, v), (R.PIPE_DM_STAT, t.dev.reg R.PIPE_DM_STAT)], 2, 2, 0⟩])) ∧
    (s.dev.get F.PROOF_SHUT_STAT_STATE = 4 → Answers .shutClear s (fun t =>
      t.dev.get F.PROOF_SHUT_STAT_CONSEC = 0 ∧ t.dev.get F.PROOF_SHUT_STAT_STATE ≠ 4)) ∧
    (s.dev.bit F.PROOF_CTL_EN = false → s.dev.proof.run = none → Answers .testClose s (fun t =>
      t.dev.proof.drive = some ⟨true, s.dev.t, 0, true, false, false⟩ ∧ (s.dev.get F.PROOF_SHUT_STAT_STATE ≠ 4 → t.dev.get F.PROOF_SHUT_STAT_STATE = 1))) ∧
    (s.dev.bit F.PROOF_CTL_EN = false → s.dev.proof.run = none → Answers .testOpen s (fun t =>
      t.dev.proof.drive = some ⟨false, s.dev.t, 0, true, false, false⟩ ∧ (s.dev.get F.PROOF_SHUT_STAT_STATE ≠ 4 → t.dev.get F.PROOF_SHUT_STAT_STATE = 3))) ∧
    ((s.dev.bit F.PROOF_CTL_EN = true ∨ s.dev.proof.run.isSome = true) → exec .testClose s = .next s ∧ exec .testOpen s = .next s)

/-- The blade (R115 to R118): a drive sensed at its target shows it with its time; one not sensed within MOVE_MAX is counted; its pulse
ends; the sense inputs show their levels. -/
def Obligations.BladeEventsComplete : Prop :=
  ∀ (s : State),
    (∀ v, s.dev.proof.drive = some v → v.close = true → v.sensed = false → v.failed = false → s.dev.sensedNow v = true → Answers .closedSensed s (fun t =>
      t.dev.get F.PROOF_SHUT_STAT_CONSEC = 0 ∧
      t.dev.get F.PROOF_SHUT_MOVE_CLOSE = (s.dev.t - v.t0) / 1000 % 2 ^ F.PROOF_SHUT_MOVE_CLOSE.w ∧
      (s.dev.get F.PROOF_SHUT_STAT_STATE ≠ 4 → t.dev.get F.PROOF_SHUT_STAT_STATE = 2) ∧
      ∀ r, s.dev.proof.run = some r → s.dev.get F.PROOF_STAT_PHASE = 1 → t.dev.get F.PROOF_STAT_PHASE = 2 ∧
        t.dev.proof.run = some { r with settleEnd := s.dev.t + s.dev.get F.PROOF_SHUT_TIME_SETTLE * msT })) ∧
    (∀ v, s.dev.proof.drive = some v → v.close = false → v.sensed = false → v.failed = false → s.dev.sensedNow v = true → Answers .openSensed s (fun t =>
      t.dev.get F.PROOF_SHUT_STAT_CONSEC = 0 ∧ t.dev.proof.closure = none ∧ t.dev.proof.token = false ∧
      t.dev.get F.PROOF_SHUT_MOVE_OPEN = (s.dev.t - v.t0) / 1000 % 2 ^ F.PROOF_SHUT_MOVE_OPEN.w ∧
      (s.dev.get F.PROOF_SHUT_STAT_STATE ≠ 4 → t.dev.get F.PROOF_SHUT_STAT_STATE = 0) ∧
      (s.dev.proof.run.isSome = true → s.dev.get F.PROOF_STAT_PHASE = 4 → t.dev.get F.PROOF_STAT_PHASE = 5))) ∧
    (∀ v, s.dev.proof.drive = some v → v.sensed = false → v.failed = false → s.dev.sensedNow v = false →
      v.t0 + s.dev.get F.PROOF_SHUT_TIME_MOVE_MAX * msT ≤ s.dev.t → Answers .shutFault s (fun t =>
        t.dev.get F.PROOF_SHUT_FAILS_CNT = Nat.min (2 ^ F.PROOF_SHUT_FAILS_CNT.w - 1) (s.dev.get F.PROOF_SHUT_FAILS_CNT + 1) ∧
        t.dev.get F.PROOF_SHUT_STAT_CONSEC = Nat.min 3 (s.dev.get F.PROOF_SHUT_STAT_CONSEC + 1) ∧
        (2 ≤ s.dev.get F.PROOF_SHUT_STAT_CONSEC → t.dev.get F.PROOF_SHUT_STAT_STATE = 4))) ∧
    (∀ v, s.dev.proof.drive = some v → v.driving = true → v.t0 + s.dev.get F.PROOF_SHUT_TIME_PULSE * msT ≤ s.dev.t →
      Answers .drivePulseEnd s (fun t => ∀ w, t.dev.proof.drive = some w → w.driving = false)) ∧
    (∀ which level, s.dev.bankIn = true → Answers (.shutPosChange which level) s (fun t =>
      t.dev.bit (if which then F.IO_PIN_IN_SHUT_POS1 else F.IO_PIN_IN_SHUT_POS0) = level ∧
      t.dev.proof.pos = s.dev.proof.pos.set (if which then 1 else 0) (level, s.dev.t - s.dev.get F.IO_PIN_CFG_FILT) ∧
      t.dev.bit F.PROOF_SHUT_STAT_POS0 = (t.dev.posAss 0).1 ∧ t.dev.bit F.PROOF_SHUT_STAT_POS1 = (t.dev.posAss 1).1))

/-- A proof from its requests to its end (R121 to R129, R134, R138): the events each make the step whose conditions hold. -/
def Obligations.ProofEventsComplete : Prop :=
  ∀ (s : State),
    (60 * s.dev.get F.PROOF_SCHED_DUE_MIN ≤ s.dev.proofAge → Answers .proofAgeDue s (fun t => (t.dev.get F.PROOF_REQ_REQ).testBit 0 = true)) ∧
    (s.dev.get F.PROOF_SCHED_FORCE_MIN ≠ 0 → 60 * s.dev.get F.PROOF_SCHED_FORCE_MIN ≤ s.dev.proofAge →
      Answers .proofForceDue s (fun t => (t.dev.get F.PROOF_REQ_REQ).testBit 6 = true)) ∧
    Answers .overdue s (fun t => t.dev.bit F.PROOF_STAT_OVERDUE = (decide (60 * s.dev.get F.PROOF_SCHED_OVERDUE_MIN ≤ s.dev.proofAge) ||
      s.dev.proof.reqT.any (fun q => q.1 != 0 && decide (q.2 + s.dev.get F.PROOF_SCHED_OVERDUE_MIN * 60 * secT ≤ s.dev.t)))) ∧
    (∀ c, s.dev.proofConds = true → s.dev.proof.condT = some c → c + 1000 ≤ s.dev.t → Answers .proofBegin s (fun t =>
      t.dev.get F.PROOF_STAT_PHASE = 1 ∧ t.dev.get F.PIPE_PL_STAT_SHADOW_OWNER = 2 ∧ t.dev.get F.PROOF_STAT_KIND = s.dev.proofKind ∧
      t.dev.proof.drive = some ⟨true, s.dev.t, 0, true, false, false⟩ ∧
      ∃ r, t.dev.proof.run = some r ∧ r.t0 = s.dev.t ∧ r.req = s.dev.get F.PROOF_REQ_REQ ∧ r.range = s.dev.fpa.set.gain)) ∧
    (∀ r, s.dev.proof.run = some r → s.dev.get F.PROOF_STAT_PHASE = 2 → r.settleEnd ≤ s.dev.t → r.lastEnd = 0 →
      Answers .settlingEnd s (fun t => t.dev.proof.run = some { r with lastEnd := r.settleEnd })) ∧
    (∀ r, s.dev.proof.run = some r → r.tcp.isSome = true → r.computed = false →
      r.frames.all (fun q => match s.dev.frame q.1 with
        | some f => f.slots.length == f.set.rowSlots + 1 && f.slots.all (fun x => x.lost || x.done || x.slot == 0) | none => true) = true →
      Answers .offsetsComputed s (fun t => ∃ q, t.dev.proof.run = some q ∧ q.computed = true ∧
        t.dev.get F.PROOF_OFS_KEPT_CNT = (nPix - q.meas.length) % 2 ^ F.PROOF_OFS_KEPT_CNT.w)) ∧
    (∀ r, s.dev.proof.run = some r → s.dev.get F.PROOF_STAT_PHASE = 5 → r.fitEnd ≠ 0 → r.fitted = false → Answers .tauFit s (fun t =>
      t.dev.get F.PROOF_STAT_PHASE = 6 ∧ ∃ q, t.dev.proof.run = some q ∧ q.fitted = true ∧
        t.dev.get F.PROOF_TAU_STAT_FITTED = q.taus.length % 2 ^ F.PROOF_TAU_STAT_FITTED.w)) ∧
    (∀ r, s.dev.proof.run = some r → s.dev.get F.PROOF_STAT_PHASE = 6 → r.computed = true → r.fitted = true → s.dev.tallyFailed 10 = false →
      Answers .plateAccepted s (fun t => t.dev.proof.run = none ∧ t.dev.get F.PIPE_PL_STAT_SHADOW_OWNER = 0 ∧
        (s.dev.fpa.set.gain = r.range → t.dev.bit F.PIPE_PL_STAT_SWAP_PEND = true ∧ t.dev.pipe.swap = some ⟨s.dev.t, true, none⟩))) ∧
    (∀ r, s.dev.proof.run = some r → (s.dev.get F.PROOF_STAT_PHASE = 2 ∨ s.dev.get F.PROOF_STAT_PHASE = 3) → r.lastEnd ≠ 0 →
      r.lastEnd + secT ≤ s.dev.t → Answers .noFrames s (fun t =>
        t.dev.proof.run = none ∧ t.dev.get F.PROOF_STAT_PHASE = 0 ∧ t.dev.get F.PROOF_STAT_ABORT = 8)) ∧
    (∀ r, s.dev.proof.run = some r → s.dev.get F.PROOF_STAT_PHASE = 5 → r.fitEnd = 0 → Nat.max (r.openT.getD 0) r.lastEnd + secT ≤ s.dev.t →
      Answers .noFrames s (fun t => t.dev.get F.PROOF_STAT_PHASE = 6 ∧ t.dev.bit F.PROOF_TAU_STAT_SKIP_FRAMES = true)) ∧
    (∀ (g : Fin 81) gains, s.dev.ccSlot = true →
      (if s.dev.ccOpen.isEmpty then g.val = ((ccWindow s.dev.fpa.set).find? (fun x => decide (s.dev.cc.next ≤ x))).getD ((ccWindow s.dev.fpa.set).headD 80)
        else g.val ∈ s.dev.ccOpen) →
      Answers (.channelCalPass g gains) s (fun t =>
        t.dev.get F.PROOF_CC_LAST_GROUP = g ∧ t.dev.cc.lastEnd = s.dev.t ∧ t.dev.cc.done = s.dev.cc.done + 1))

/-- The windows of a glade (R131 to R133, R136): each source's event moves its window; the glade is open whenever a window of an enabled
source, or the relayed one, is, and none opens without one (its end comes with the end of the tick, in which another window may begin);
a token granted to this module is held. -/
def Obligations.GladeEventsComplete : Prop :=
  ∀ (s : State),
    let shown (t : State) : Prop :=
      ((t.dev.get F.PROOF_GLADE_STAT_SRC != 0 || t.dev.bit F.PROOF_GLADE_STAT_RELAYED) = true → t.dev.bit F.PROOF_GLADE_STAT_OPEN = true) ∧
      ((t.dev.get F.PROOF_GLADE_STAT_SRC != 0 || t.dev.bit F.PROOF_GLADE_STAT_RELAYED) = false →
        t.dev.bit F.PROOF_GLADE_STAT_OPEN = true → s.dev.bit F.PROOF_GLADE_STAT_OPEN = true)
    (∀ level, s.dev.bankIn = true → Answers (.gladeInWindow level) s (fun t => shown t ∧
      t.dev.bit F.IO_PIN_IN_GLADE_IN = level ∧ t.dev.glade.level = level ∧ t.dev.glade.inAss = (level == s.dev.bit F.IO_PIN_CFG_GLADE_IN_POL) ∧
      (s.dev.glade.inAss = (level == s.dev.bit F.IO_PIN_CFG_GLADE_IN_POL) → s.dev.glade.inT + s.dev.get F.PROOF_GLADE_CTL_DEB * msT ≤ s.dev.t →
        t.dev.glade.inOpen = t.dev.glade.inAss))) ∧
    (∀ pol, Answers (.gladeInPolWrite pol) s (fun t => shown t ∧ t.dev.bit F.IO_PIN_CFG_GLADE_IN_POL = pol ∧
      t.dev.glade.inAss = (s.dev.glade.level == pol))) ∧
    Answers .speedWindow s (fun t => shown t ∧
      (1000 * s.dev.get F.PROOF_GLADE_SPD_TH ≤ (s.dev.getI F.WEB_SPEED_V).natAbs → t.dev.glade.spdOpen = false) ∧
      (∀ b, s.dev.glade.slowT = some b → b + s.dev.get F.PROOF_GLADE_SPD_HOLD * msT ≤ s.dev.t →
        (s.dev.getI F.WEB_SPEED_V).natAbs < 1000 * s.dev.get F.PROOF_GLADE_SPD_TH → t.dev.glade.spdOpen = true)) ∧
    (∀ b e, s.dev.glade.decl = some (b, e) → b ≤ s.dev.t → s.dev.t < e → (s.dev.get F.PROOF_GLADE_CTL_SRC_EN).testBit 2 = true →
      Answers .declaredWindowBegin s (fun t => shown t ∧ t.dev.bit F.PROOF_GLADE_STAT_OPEN = true)) ∧
    (∀ b e, s.dev.glade.decl = some (b, e) → e ≤ s.dev.t → Answers .declaredWindowEnd s (fun t => shown t ∧ t.dev.glade.decl = none ∧
      (t.dev.get F.PROOF_GLADE_STAT_SRC).testBit 2 = false)) ∧
    Answers .scheduleWindow s (fun t => shown t ∧
      (t.dev.get F.PROOF_GLADE_STAT_SRC).testBit 4 = ((s.dev.get F.PROOF_GLADE_CTL_SRC_EN).testBit 4 && s.dev.schedOpen)) ∧
    (∀ b e, s.dev.glade.prof = some (b, e) → e ≤ s.dev.t → Answers .profileGladeEnd s (fun t => shown t ∧ t.dev.glade.prof = none ∧
      (t.dev.get F.PROOF_GLADE_STAT_SRC).testBit 3 = false)) ∧
    (∀ fl : Flit, leAt fl.payload 0 1 = 8 → s.dev.isRoot = false → Answers (.gladeRelay (some fl)) s (fun t => shown t ∧
      t.dev.glade.relay = (leAt fl.payload 4 1 == 1))) ∧
    (s.dev.inStand = true → s.dev.isRoot = true →
      (s.dev.bit F.PROOF_GLADE_STAT_OPEN ≠ s.dev.stand.gladeSent ∨ s.dev.stand.gladeSentT + 10 * msT ≤ s.dev.t) →
      Answers (.gladeRelay none) s (fun t => t.dev.stand.gladeSent = s.dev.bit F.PROOF_GLADE_STAT_OPEN ∧ t.dev.stand.gladeSentT = s.dev.t)) ∧
    (∀ fl : Flit, leAt fl.payload 0 1 = 9 → leAt fl.payload 4 1 = 1 → s.dev.isRoot = false → leAt fl.payload 1 1 = s.dev.ownSlot →
      Answers (.token fl) s (fun t => t.dev.proof.token = true))

/-- A frame through the readout and the pipeline (R10, R17, R34, R46, R48, R54, R155): a boundary that is due forms a frame, a slot that
arrives is taken, a slot whose pixels are there passes TAP4 once, and its samples are accumulated once. -/
def Obligations.FrameEventsComplete : Prop :=
  ∀ (s : State),
    (∀ b, s.dev.boundaryDue = some b → s.dev.fpa.readoutStop = false → s.dev.fpa.clockStop = false → Answers .frameBoundary s (fun t =>
      t.dev.get F.FPA_FRAME_CNT_CNT = (s.dev.get F.FPA_FRAME_CNT_CNT + 1) % 2 ^ F.FPA_FRAME_CNT_CNT.w ∧
      t.dev.get F.FPA_FRAME_T_T = b % 2 ^ F.FPA_FRAME_T_T.w ∧ t.dev.fpa.lastB = some b ∧ t.dev.io.strobe = some (b + 100))) ∧
    (∀ b, s.dev.boundaryDue = some b → (s.dev.fpa.readoutStop = true ∨ s.dev.fpa.clockStop = true) → Answers .frameBoundary s (fun t =>
      t.dev.get F.FPA_FRAME_CNT_CNT = s.dev.get F.FPA_FRAME_CNT_CNT ∧ t.dev.fpa.frames = s.dev.fpa.frames)) ∧
    (∀ cnt slot ok rows reads f, s.dev.frame cnt = some f → f.dark = false → (∀ c, f.cut = some c → slot < c) → slot ≤ f.set.rowSlots →
      slot = f.slots.length → f.b + slot * f.set.tslot + f.set.tint ≤ s.dev.t → Answers (.slotPacketArrival cnt slot ok rows reads) s (fun t =>
        (∃ g, t.dev.frame cnt = some g ∧ g.slots.length = f.slots.length + 1) ∧
        (ok = false → t.dev.get F.FPA_LINK_LOST_CNT = Nat.min (2 ^ F.FPA_LINK_LOST_CNT.w - 1) (s.dev.get F.FPA_LINK_LOST_CNT + 1)))) ∧
    (∀ cnt slot f x reads path, s.dev.frame cnt = some f → f.slots.find? (fun y => y.slot == slot) = some x → slot ≠ 0 → x.lost = false →
      x.done = false → (f.set.rowSlots ≤ slot ∨ f.cut = some (slot + 1) ∨ f.slots.any (fun y => y.slot == slot + 1) = true) →
      Answers (.slotAtTap4 cnt slot reads path) s (fun t =>
        ∃ g y, t.dev.frame cnt = some g ∧ g.slots.find? (fun z => z.slot == slot) = some y ∧ y.done = true)) ∧
    (∀ cnt slot reads f x, s.dev.frame cnt = some f → f.slots.find? (fun y => y.slot == slot) = some x → slot ≠ 0 → f.dark = false →
      (∀ c, f.cut = some c → slot < c) → x.done = true →
      x.accumulated = false → f.slots.all (fun y => decide (slot ≤ y.slot) || y.slot == 0 || y.accumulated) = true →
      (s.dev.get F.WEB_CTL_SRC ≠ 2 ∨ f.wMarks.any (fun q => q.1 == slot) = true) → f.mid slot ≤ s.dev.t →
      Answers (.samplesAccumulated cnt slot reads) s (fun t =>
        t.dev.frame cnt = some { f with slots := updIf f.slots (fun y => y.slot == slot) (fun y => { y with accumulated := true }) }))

/-- The web position and its sources (R140 to R144): an edge counts, a change of both levels is an error, an index edge latches, a lost
source is reported and its end clears it; the speed follows the motion of its window; a preset loads W and H. -/
def Obligations.WebPositionComplete : Prop :=
  ∀ (s : State),
    (∀ a b, s.dev.accepts a s.dev.web.encA s.dev.web.encTa = true → s.dev.accepts b s.dev.web.encB s.dev.web.encTb = true →
      Answers (.encoderEdge a b) s (fun t =>
      t.dev.web.encA = a ∧ t.dev.web.encB = b ∧
      t.dev.get F.WEB_ENC_ERR_CNT = Nat.min (2 ^ F.WEB_ENC_ERR_CNT.w - 1) (s.dev.get F.WEB_ENC_ERR_CNT + 1))) ∧
    (∀ a b, s.dev.accepts a s.dev.web.encA s.dev.web.encTa = true → s.dev.accepts b s.dev.web.encB s.dev.web.encTb = false →
      s.dev.web.failSafe = false → Answers (.encoderEdge a b) s (fun t => t.dev.web.encA = a ∧ t.dev.web.encB = s.dev.web.encB ∧
        t.dev.get F.WEB_ENC_CNT_CNT = uns F.WEB_ENC_CNT_CNT.w (s.dev.getI F.WEB_ENC_CNT_CNT +
          quadCount (s.dev.get F.WEB_ENC_CFG_MODE) (s.dev.bit F.WEB_CTL_DIR_INV) s.dev.web.encA s.dev.web.encB a s.dev.web.encB))) ∧
    (∀ a b, s.dev.accepts a s.dev.web.encA s.dev.web.encTa = false → s.dev.accepts b s.dev.web.encB s.dev.web.encTb = true →
      s.dev.web.failSafe = false → Answers (.encoderEdge a b) s (fun t => t.dev.web.encA = s.dev.web.encA ∧ t.dev.web.encB = b ∧
        t.dev.get F.WEB_ENC_CNT_CNT = uns F.WEB_ENC_CNT_CNT.w (s.dev.getI F.WEB_ENC_CNT_CNT +
          quadCount (s.dev.get F.WEB_ENC_CFG_MODE) (s.dev.bit F.WEB_CTL_DIR_INV) s.dev.web.encA s.dev.web.encB s.dev.web.encA b))) ∧
    (s.dev.bit F.WEB_ENC_CFG_Z_EN = true → s.dev.fpa.set.src ≠ 2 →
      (s.dev.web.zSeen = true → s.dev.web.encTz + 2 * s.dev.get F.WEB_ENC_CFG_FILT + 1 ≤ s.dev.t) → Answers .indexEdge s (fun t =>
      t.dev.get F.WEB_Z_CNT_CNT = Nat.min (2 ^ F.WEB_Z_CNT_CNT.w - 1) (s.dev.get F.WEB_Z_CNT_CNT + 1) ∧
      (s.dev.byEncoder = false ∨ s.dev.t - s.dev.get F.WEB_ENC_CFG_FILT < s.dev.web.te → t.dev.get F.WEB_Z_POS_W = s.dev.get F.WEB_POS_W) ∧
      (s.dev.byEncoder = true → s.dev.web.te ≤ s.dev.t - s.dev.get F.WEB_ENC_CFG_FILT →
        t.dev.get F.WEB_Z_POS_W = s.dev.encAt (s.dev.t - s.dev.get F.WEB_ENC_CFG_FILT) % 2 ^ F.WEB_Z_POS_W.w) ∧ t.dev.web.zSeen = true)) ∧
    (s.dev.bit F.WEB_STAT_ENC_LOSS = false → Answers .encLoss s (fun t => t.dev.bit F.WEB_STAT_ENC_LOSS = true ∧
      t.dev.web.lossT = some s.dev.t ∧ t.dev.web.onHost = (s.dev.bit F.WEB_CTL_LOSS_HOST && s.dev.get F.WEB_CTL_SRC != 1))) ∧
    Answers .encFailsafeEnd s (fun t => t.dev.bit F.WEB_STAT_ENC_LOSS = (s.dev.bit F.WEB_STAT_ENC_LOSS && s.dev.bit F.LINK_ENC_STAT_LOSS) ∧
      t.dev.web.lossT = none ∧ t.dev.web.failSafe = false) ∧
    Answers .speedEvaluation s (fun t =>
      let tw := s.dev.get F.WEB_SPD_WIN_WIN * 10000
      let old := match s.dev.web.marks.find? (fun q => decide (q.1 + tw ≤ s.dev.t)) with | some q => q.2 | none => 0
      let v := clampI (-(2 ^ 31)) (2 ^ 31 - 1) (rdiv ((s.dev.web.motion - old) * 100000000) ((65536 * tw : Nat) : Int))
      t.dev.getI F.WEB_SPEED_V = v ∧ t.dev.bit F.WEB_STAT_DIR = decide (v < 0) ∧
        (1000 * s.dev.get F.WEB_STOP_TH ≤ v.natAbs → t.dev.bit F.WEB_STAT_STOPPED = false)) ∧
    (∀ b, s.dev.web.slowT = some b → b + s.dev.get F.WEB_STOP_MS * msT ≤ s.dev.t →
      (s.dev.getI F.WEB_SPEED_V).natAbs < 1000 * s.dev.get F.WEB_STOP_TH → Answers .webStopped s (fun t => t.dev.bit F.WEB_STAT_STOPPED = true)) ∧
    (s.dev.bit F.WEB_CTL_ACC_EN = false → Answers .preset s (fun t => t.dev.get F.WEB_POS_W = s.dev.get F.WEB_PRESET_W ∧
      t.dev.get F.WEB_HW_W = s.dev.get F.WEB_PRESET_W ∧ t.dev.bit F.WEB_STAT_BACK = false ∧ t.dev.web.motion = s.dev.web.motion)) ∧
    (s.dev.bit F.WEB_CTL_ACC_EN = true → exec .preset s = .next s) ∧
    (∀ v, Answers (.hostSpeedWrite v) s (fun t => t.dev.reg R.WEB_HOST_SPEED = v)) ∧
    (∀ v : Word, Answers (.webCtlWrite v) s (fun t =>
      t.dev.bit F.WEB_CTL_ACC_EN = ((s.dev.writeWord R.WEB_CTL v.toNat).bit F.WEB_CTL_ACC_EN && s.dev.web.geo.isSome) ∧
      t.dev.get F.WEB_STAT_SRC_ACT = t.dev.get F.WEB_CTL_SRC ∧
      (s.dev.bit F.WEB_CTL_ACC_EN = true → t.dev.get F.WEB_CTL_SRC = s.dev.get F.WEB_CTL_SRC ∧ t.dev.get F.WEB_CTL_DIR_INV = s.dev.get F.WEB_CTL_DIR_INV) ∧
      (s.dev.bit F.WEB_CTL_ACC_EN = false → t.dev.get F.WEB_CTL_SRC = (s.dev.writeWord R.WEB_CTL v.toNat).get F.WEB_CTL_SRC)))

/-- Lines, records, the geometry map, snapshots and alarms (R146, R151, R155, R158, R162, R167, R169, R170). -/
def Obligations.StripAndAlarmComplete : Prop :=
  ∀ (s : State),
    (∀ i l, s.dev.bit F.WEB_STAT_BACK = false → s.dev.accOn = true → s.dev.firstDeep = some l → s.dev.lineAt l.start = some i →
      i.start = l.start → Answers .flush s (fun t =>
        ∀ x ∈ t.dev.web.lines, x.start ≠ i.start)) ∧
    (∀ i, s.dev.inFrame = false → s.dev.bit F.WEB_STAT_BACK = false → s.dev.accOn = true → s.dev.nextLine.bind s.dev.lineAt = some i →
      0 ≤ sdiff i.fin s.dev.exitNow → Answers .idleExitEvaluation s (fun t => ∀ x ∈ t.dev.web.lines, x.start ≠ i.start)) ∧
    (∀ g gs, s.dev.inFrame = false → s.dev.accOn = false → s.dev.web.switches = g :: gs → 0 ≤ sdiff g.x0 s.dev.exitNow →
      Answers .idleExitEvaluation s (fun t => t.dev.web.cur.isSome = true ∧ t.dev.web.switches.length < s.dev.web.switches.length)) ∧
    Answers .recordTimeout s (fun t => ∀ r ∈ t.dev.stand.mrecs,
      r ∈ s.dev.stand.mrecs ∧ s.dev.t < r.rec_.t0 + s.dev.get F.WEB_REC_CTL_TMO * 100 * usT) ∧
    (crc32c (s.mem.q geoAddr geoBytes) = s.dev.get F.WEB_GEO_CRC_CRC → strictMono (geoOf (s.mem.q geoAddr geoBytes)).x = true →
      Answers .geoCommit s (fun t =>
        if s.dev.inFrame then t.dev.web.geoPend = some (geoOf (s.mem.q geoAddr geoBytes)) ∧ t.dev.bit F.WEB_GEO_STAT_PEND = true
        else t.dev.web.geo = some (geoOf (s.mem.q geoAddr geoBytes)) ∧ t.dev.web.geoPend = none)) ∧
    (¬ (crc32c (s.mem.q geoAddr geoBytes) = s.dev.get F.WEB_GEO_CRC_CRC ∧ strictMono (geoOf (s.mem.q geoAddr geoBytes)).x = true) →
      Answers .geoCommit s (fun t => t.dev.bit F.WEB_GEO_STAT_REFUSED = true ∧ t.dev.web = s.dev.web)) ∧
    Answers .snap s (fun t => t.dev.get F.STAT_SNAP_STAT_SEQ = (s.dev.get F.STAT_SNAP_STAT_SEQ + 1) % 2 ^ F.STAT_SNAP_STAT_SEQ.w) ∧
    Answers .alarmQueueClr s (fun t => t.dev.alarm.ints = [] ∧ t.dev.get F.STAT_AL_STAT_LEVEL = 0 ∧ t.dev.get F.STAT_AL_STAT_QMAX = 0) ∧
    (∀ (n : Fin 4) (v : Word), Answers (.alOutWrite n v) s (fun t =>
      ((s.dev.writeWord (R.STAT_AL_OUT + 4 * n) v.toNat).bit (F.STAT_AL_OUT_GP_MIRROR.at n) = true → s.dev.bit (F.STAT_AL_OUT_GP_MIRROR.at n) = false →
        (s.dev.get (F.IO_GP_CFG_FUNC.at (4 + n)) = 0 → t.dev.get (F.IO_GP_CFG_FUNC.at (4 + n)) = 5) ∧
        (s.dev.get (F.IO_GP_CFG_FUNC.at (4 + n)) ≠ 0 → t.dev.bit (F.STAT_AL_OUT_GP_MIRROR.at n) = false ∧ t.dev.bit F.IO_CONFLICT_VALID = true)) ∧
      ((s.dev.writeWord (R.STAT_AL_OUT + 4 * n) v.toNat).bit (F.STAT_AL_OUT_GP_MIRROR.at n) = false →
        s.dev.bit (F.STAT_AL_OUT_GP_MIRROR.at n) = true → t.dev.get (F.IO_GP_CFG_FUNC.at (4 + n)) = 0))) ∧
    Answers .alarmIntervalEnter s (fun t => t.dev.alarm.ints = s.dev.alarm.ints ∧
      ∀ n < 4, t.dev.alarm.inside.getD n false = s.dev.alarm.ints.any (fun x => x.out == n && x.inside (s.dev.get F.WEB_POS_W) s.dev.t)) ∧
    Answers .alarmIntervalRetire s (fun t => ∀ x, x ∈ t.dev.alarm.ints ↔
      x ∈ s.dev.alarm.ints ∧ (sdiff x.e (s.dev.get F.WEB_POS_W) < 0 ∨ x.late = some s.dev.t)) ∧
    (∀ (n : Fin 4) (b : Nat), s.dev.alarm.pulse.getD n none = some b → b ≤ s.dev.t → Answers (.alarmPulseEnd n) s (fun t =>
      t.dev.alarm.pulse.getD n none = none ∧ (s.dev.bit (F.STAT_AL_OUT_PULSE.at n) = true → t.dev.alarmLevel n = false)))

/-- The ports and their lanes (R173, R181, R185, R186): APPLY brings the mode into force, training moves a port on or back, a port that is
lost returns to DETECT, and lanes leave and return by the LM handshake. -/
def Obligations.PortEventsComplete : Prop :=
  ∀ (s : State) (q : Port),
    Answers .apply s (fun t => t.dev.get F.LINK_HP_STAT_MODE_ACT = s.dev.get F.LINK_HP_CTL_MODE ∧ t.dev.link.ringEn = s.dev.bit F.LINK_HP_CTL_RING_EN) ∧
    (s.dev.portState q.idx = 4 → s.dev.health.queue.countP (fun x => x.ss == 1 && !x.full) ≤ 12 → Answers (.scan q) s (fun t =>
      ∀ i ∈ bitsOf 4 (s.dev.port q.idx).rxMask, ∃ x ∈ t.dev.health.queue, x.ss = 1 ∧ x.elem = 4 * q.idx + i)) ∧
    (∀ n, s.dev.portState q.idx = 1 → Nat.max 1 (s.dev.get (F.LINK_P_CTL_MIN_LANES.at q.idx)) ≤ n → Answers (.portTraining q (.signal n)) s (fun t =>
      t.dev.portState q.idx = 2)) ∧
    (∀ n, s.dev.portState q.idx = 2 → Nat.max 1 (s.dev.get (F.LINK_P_CTL_MIN_LANES.at q.idx)) ≤ n → Answers (.portTraining q (.blockLock n)) s (fun t =>
      t.dev.portState q.idx = 3)) ∧
    (∀ id slot port epoch rx tx, s.dev.portState q.idx = 3 → Answers (.portTraining q (.peer id slot port epoch rx tx)) s (fun t =>
      t.dev.get (F.LINK_P_NBR_ID.at q.idx) = id.toNat ∧ t.dev.get (F.LINK_P_NBR_INFO_SLOT.at q.idx) = slot.toNat ∧
      t.dev.bit (F.LINK_P_STAT_MISWIRED.at q.idx) = (port.toNat != s.dev.peerCode q.idx))) ∧
    ((s.dev.portState q.idx = 2 ∨ s.dev.portState q.idx = 3) → (s.dev.port q.idx).progT + 20 * msT ≤ s.dev.t → Answers (.trainTimeout q) s (fun t =>
      t.dev.portState q.idx = 1)) ∧
    (s.dev.portState q.idx = 4 → Answers (.portDown q) s (fun t => t.dev.portState q.idx = 1 ∧ t.dev.get (F.LINK_P_STAT_RX_LANES.at q.idx) = 0 ∧
      t.dev.get (F.LINK_P_STAT_TX_LANES.at q.idx) = 0 ∧ t.dev.bit (F.LINK_P_STAT_LISTED.at q.idx) = false)) ∧
    (∀ lane : Fin 4, s.dev.portState q.idx = 4 → (s.dev.port q.idx).rxMask.testBit lane = true → Answers (.laneFailed q lane) s (fun t =>
      (t.dev.port q.idx).failed.any (fun x => x.1 == lane.val) = true ∧
      ∃ c, (t.dev.port q.idx).chgRx = some c ∧ c.mask.testBit lane = false ∧ c.ack = false)) ∧
    (∀ (lane : Fin 4) b, assoc (s.dev.port q.idx).failed lane = some b → b + secT ≤ s.dev.t →
      (s.dev.get (F.LINK_P_CTL_LANE_EN.at q.idx)).testBit lane = true → 4 ≤ s.dev.get F.HEALTH_POLICY_POLICY1 →
      s.dev.health.aside.any (fun a => a.ss == 1 && a.elem == 4 * q.idx + lane) = false → s.dev.portState q.idx = 4 →
      (s.dev.port q.idx).rxMask.testBit lane = false → Answers (.laneReturn q lane) s (fun t =>
        (t.dev.port q.idx).failed.any (fun x => x.1 == lane.val) = false ∧
        ∃ c, (t.dev.port q.idx).chgRx = some c ∧ c.mask.testBit lane = true)) ∧
    (∀ u req cnt, s.dev.portState q.idx = 4 → Answers (.lmGroup q u req false cnt) s (fun t =>
      (t.dev.port q.idx).chgTx = some ⟨req.toNat, cnt.toNat, true⟩ ∧ (t.dev.port q.idx).ackTx = some (req.toNat, cnt.toNat))) ∧
    (∀ u (req : BitVec 4) cnt c, s.dev.portState q.idx = 4 → (s.dev.port q.idx).chgRx = some c → c.mask = req.toNat →
      Answers (.lmGroup q u req true cnt) s (fun t => (t.dev.port q.idx).chgRx = some { c with ack := true })) ∧
    (∀ c, s.dev.portState q.idx = 4 → (s.dev.port q.idx).chgTx = some c → ((s.dev.port q.idx).pairTx + 65536 - c.cnt) % 65536 < 32768 →
      s.dev.get (F.LINK_P_CTL_MIN_LANES.at q.idx) ≤ popcount 4 c.mask →
      s.dev.get (F.LINK_P_CTL_MIN_LANES.at q.idx) ≤ popcount 4 (s.dev.port q.idx).rxMask → Answers (.laneMaskSwitch q true) s (fun t =>
        t.dev.get (F.LINK_P_STAT_TX_LANES.at q.idx) = c.mask % 16 ∧ (t.dev.port q.idx).chgTx = none)) ∧
    (∀ c, s.dev.portState q.idx = 4 → (s.dev.port q.idx).chgRx = some c → c.ack = true →
      s.dev.get (F.LINK_P_CTL_MIN_LANES.at q.idx) ≤ popcount 4 c.mask →
      s.dev.get (F.LINK_P_CTL_MIN_LANES.at q.idx) ≤ popcount 4 (s.dev.port q.idx).txMask → Answers (.laneMaskSwitch q false) s (fun t =>
        t.dev.get (F.LINK_P_STAT_RX_LANES.at q.idx) = c.mask % 16 ∧ (t.dev.port q.idx).chgRx = none))

/-- Flits and routes (R181, R183, R188 to R190): a flit beyond the decoder or of an unknown type is counted, one of another epoch is
counted stale, an accepted broadcast leaves its number; the ring order and cuts replace or mark the routes. -/
def Obligations.FlitEventsComplete : Prop :=
  ∀ (s : State) (q : Port),
    (∀ x bytes, s.dev.portState q.idx = 4 → hatchDecode [] (slice bytes 0 36) = .bad → Answers (.flitReceive q x bytes) s (fun t =>
      t.dev.get (F.LINK_P_UNCORR_CNT.at q.idx) =
        Nat.min (2 ^ F.LINK_P_UNCORR_CNT.w - 1) (s.dev.get (F.LINK_P_UNCORR_CNT.at q.idx) + 1))) ∧
    (∀ x bytes w, s.dev.portState q.idx = 4 → s.dev.localOnly q.idx = false → hatchDecode [] (slice bytes 0 36) = .ok w [] → (parseFlit w).type ≤ 9 → (parseFlit w).type ≠ 0 →
      (parseFlit w).type ≠ 7 → (parseFlit w).flags / 8 % 2 = 0 → (parseFlit w).epoch ≠ s.dev.portEpoch q.idx % 256 →
      Answers (.flitReceive q x bytes) s (fun t => t.dev.get (F.LINK_P_STALE_CNT.at q.idx) =
        Nat.min (2 ^ F.LINK_P_STALE_CNT.w - 1) (s.dev.get (F.LINK_P_STALE_CNT.at q.idx) + 1))) ∧
    (∀ x bytes w, s.dev.portState q.idx = 4 → s.dev.localOnly q.idx = false → hatchDecode [] (slice bytes 0 36) = .ok w [] → (parseFlit w).type ≤ 9 → (parseFlit w).type ≠ 0 →
      (parseFlit w).flags / 8 % 2 = 0 → ((parseFlit w).type = 7 ∨ (parseFlit w).epoch = s.dev.portEpoch q.idx % 256) →
      s.dev.stand.parent = none → (parseFlit w).flags / 4 % 2 = 1 → s.dev.routeTo (parseFlit w).src = some q.idx →
      Answers (.flitReceive q x bytes) s (fun t =>
        ((parseFlit w).src, (parseFlit w).type, (parseFlit w).seq) ∈ t.dev.link.seqRx)) ∧
    (∀ fl : Flit, leAt fl.payload 0 1 = 0x10 → Answers (.routeRing fl) s (fun t =>
      t.dev.link.order = (List.range (Nat.min 32 (leAt fl.payload 1 1))).map (fun i => leAt fl.payload 8 24 / 64 ^ i % 64) ∧
      t.dev.link.closed = (leAt fl.payload 2 1 % 2 == 1) ∧ t.dev.get F.LINK_ROUTE_VER_VER = leAt fl.payload 4 2)) ∧
    (∀ fl : Flit, leAt fl.payload 0 1 = 0x12 → Answers (.routeCut fl) s (fun t => (leAt fl.payload 1 1, leAt fl.payload 2 1) ∈ t.dev.link.cuts))

/-- Time and encoder flits (R194 to R199, R246): a delay is asked for and measured, the timebase follows its root and holds over, the
encoder's samples are sent, received, extrapolated and lost. -/
def Obligations.TimeAndEncoderFlitsComplete : Prop :=
  ∀ (s : State) (q : Port),
    (s.dev.portState q.idx = 4 → (∀ b, (s.dev.port q.idx).dreqT = some b → b + msT ≤ s.dev.t) → Answers (.dreq q) s (fun t =>
      (t.dev.port q.idx).dreqSeq = ((s.dev.port q.idx).dreqSeq + 1) % 1024 ∧ (t.dev.port q.idx).dreqT = some s.dev.t ∧
      (t.dev.port q.idx).dreq = none)) ∧
    (∀ t4 (fl : Flit) t1 frac sq, (s.dev.port q.idx).dreq = some (t1, frac, sq) → leAt fl.payload 0 1 = 3 → leAt fl.payload 24 2 = sq →
      Answers (.dresp q t4 fl) s (fun t => (t.dev.port q.idx).dreq = none ∧ (t.dev.port q.idx).delays =
        (rdiv ((((t4 : Int) - ((65536 * t1 + frac : Nat) : Int)) - sext 64 (leAt fl.payload 16 8)) * 10000) 131072 :: (s.dev.port q.idx).delays).take 16)) ∧
    (s.dev.timeMaster = true → (∀ b, s.dev.link.timeSentT = some b → b + s.dev.get F.LINK_TS_CTL_INTERVAL * 10 * usT ≤ s.dev.t) →
      Answers .timeSend s (fun t => t.dev.link.timeSentT = some s.dev.t ∧
      assoc t.dev.link.seqTx 5 = some (((assoc s.dev.link.seqTx 5).getD 0 + 1) % 1024))) ∧
    (s.dev.timeMaster = false → exec .timeSend s = .next s) ∧
    (∀ tIn (fl : Flit), leAt fl.payload 0 1 = 1 → s.dev.localOnly q.idx = false → s.dev.stand.parent = none → s.dev.routeTo fl.src = some q.idx → s.dev.follows = true →
      Answers (.timeReceive q tIn fl) s (fun t =>
        t.dev.getI F.LINK_TS_OFFSET_VAL = psShown (((65536 * leAt fl.payload 4 8 + leAt fl.payload 12 2 : Nat) : Int) +
          sext 64 (leAt fl.payload 16 8) + s.dev.dIn q.idx - (tIn : Int)) ∧
        t.dev.bit F.LINK_TS_STAT_FOLLOWING = true ∧ t.dev.get F.LINK_TS_STAT_PORT = q.idx ∧ t.dev.bit F.LINK_TS_STAT_HOLDOVER = false ∧
        t.dev.get F.LINK_TS_STAT_HOPS = Nat.min 63 (leAt fl.payload 1 1))) ∧
    (∀ b, s.dev.follows = true → s.dev.link.lastTime = some b → b + 10 * msT ≤ s.dev.t → s.dev.bit F.LINK_TS_STAT_HOLDOVER = false →
      Answers .timeHoldover s (fun t => t.dev.bit F.LINK_TS_STAT_HOLDOVER = true ∧ t.dev.bit F.LINK_TS_STAT_LOCKED = false)) ∧
    (∀ src : Fin 4, Answers (.tsSrcWrite src) s (fun t => t.dev.get F.LINK_TS_CTL_SRC = src ∧ t.dev.host.ptmArmed = true ∧ t.dev.io.timeArmed = true)) ∧
    (s.dev.bit F.LINK_ENC_CTL_TX_EN = true → s.dev.t % 1000 = 0 → Answers .encSend s (fun t => t.dev.link.presetSent = false ∧
      assoc t.dev.link.seqTx 6 = some (((assoc s.dev.link.seqTx 6).getD 0 + 1) % 1024))) ∧
    (∀ fl : Flit, leAt fl.payload 0 1 = 1 → s.dev.localOnly q.idx = false → s.dev.stand.parent = none → s.dev.routeTo fl.src = some q.idx → Answers (.encReceive q fl) s (fun t =>
      t.dev.get F.LINK_ENC_STAT_SRC_SLOT = fl.src % 2 ^ F.LINK_ENC_STAT_SRC_SLOT.w ∧ t.dev.bit F.LINK_ENC_STAT_VALID = true ∧
      t.dev.bit F.LINK_ENC_STAT_LOSS = false ∧ t.dev.link.lastEnc = some s.dev.t)) ∧
    (∀ (u : Nat) (a : EncS), s.dev.get F.WEB_CTL_SRC = 2 → u + s.dev.get F.LINK_ENC_CTL_WAIT * 1000 ≤ s.dev.t → a ∈ s.dev.link.enc → a.t ≤ u →
      s.dev.fpa.frames.any (fun f => (List.range (f.set.rowSlots + 1)).any (fun x => f.mid x == u && !f.wMarks.any (fun y => y.1 == x))) = true →
      Answers (.encExtrapolate u) s (fun t => t.dev.bit F.LINK_ENC_STAT_EXTRAP = true ∧
        t.dev.get F.LINK_ENC_EXTRAP_VAL = Nat.min (2 ^ F.LINK_ENC_EXTRAP_VAL.w - 1) (s.dev.get F.LINK_ENC_EXTRAP_VAL + 1))) ∧
    (s.dev.link.lastEnc.getD 0 + 10 * msT ≤ s.dev.t → Answers .encSampleLoss s (fun t => t.dev.bit F.LINK_ENC_STAT_VALID = false ∧
      (s.dev.get F.WEB_CTL_SRC = 2 → t.dev.bit F.LINK_ENC_STAT_LOSS = true ∧ t.dev.bit F.WEB_STAT_ENC_LOSS = true)))

/-- Hearts, maps and membership (R203, R207 to R211, R214, R215, R327): a module speaks and hears, the root evaluates and repeats its
map, a member gathers it, the deputy takes over, a resuming root speaks again. -/
def Obligations.MembershipEventsComplete : Prop :=
  ∀ (s : State) (q : Port),
    (s.dev.inStand = true → s.dev.t % 100000 = 0 → Answers .heartSend s (fun t =>
      assoc t.dev.link.seqTx 7 = some (((assoc s.dev.link.seqTx 7).getD 0 + 1) % 1024) ∧ t.dev.bit F.STAND_STAT_QUORUM = s.dev.quorumNow)) ∧
    (∀ fl : Flit, leAt fl.payload 0 1 = 1 → ¬ (q = .up ∧ s.dev.get F.LINK_HP_STAT_MODE_ACT = 1) → leAt fl.payload 8 8 ≠ s.dev.selfId →
      s.dev.bit (F.LINK_P_STAT_MISWIRED.at q.idx) = false → s.dev.bit F.STAND_CTL_EN = true → Answers (.heartReceive q fl) s (fun t =>
        t.dev.stand.heard.any (fun h => h.id == leAt fl.payload 8 8 && h.t == s.dev.t) = true)) ∧
    (∀ k m, s.dev.t % 100000 = 0 → (s.dev.inStand = false ∨ s.dev.isRoot = false) → s.dev.stand.mapWait = some (k, m) →
      Answers .membershipEvaluation s (fun t => t.dev.stand.mapWait = none ∧ t.dev.stand.map = some m ∧
        t.dev.get F.STAND_EPOCH_EPOCH = (s.dev.get F.STAND_EPOCH_EPOCH + 1) % 2 ^ 32 ∧
        t.dev.get F.STAND_MAP_VER_VER = (s.dev.get F.STAND_MAP_VER_VER + 1) % 2 ^ 16 ∧ t.dev.get F.STAND_DEGRADED_MAP = 0)) ∧
    (s.dev.t % 100000 = 0 → s.dev.inStand = true → s.dev.isRoot = true → s.dev.stand.quiet = false → Answers .membershipEvaluation s (fun t =>
      t.dev.stand.mapWait = none ∧ t.dev.stand.map.isSome = true)) ∧
    (∀ (fl : Flit) x, s.dev.stand.mapRx = some x → leAt fl.payload 0 1 = 1 → leAt fl.payload 2 2 = x.ver → x.hdr = none →
      Answers (.mapReceive fl) s (fun t => t.dev.stand.mapRx = some { x with
        ents := (leAt fl.payload 1 1, entOf (slice fl.payload 4 24)) :: x.ents.filter (fun y => y.1 != leAt fl.payload 1 1) })) ∧
    (∀ (fl : Flit) x h, s.dev.stand.mapRx = some x → leAt fl.payload 0 1 = 1 → leAt fl.payload 2 2 = x.ver → x.hdr = some h →
      (∀ i < 32, i = leAt fl.payload 1 1 ∨ x.ents.any (fun y => y.1 == i) = true) → s.dev.inStand = false → s.dev.bit F.STAND_CTL_EN = true →
      fl.src = h.1 → Answers (.mapReceive fl) s (fun t => (∃ m, t.dev.stand.map = some m ∧ m.root = h.1 ∧ m.sid = h.2.2.2) ∧
        t.dev.get F.STAND_EPOCH_EPOCH = h.2.2.1 % 2 ^ 32 ∧ t.dev.stand.mapRx = none)) ∧
    (s.dev.inStand = true → s.dev.isRoot = true → s.dev.stand.lastMapT + 100 * msT ≤ s.dev.t → s.dev.stand.quiet = false →
      Answers .mapRepeat s (fun t => t.dev.stand.lastMapT = s.dev.t)) ∧
    (s.dev.inStand = true → s.dev.get F.STAND_STAT_ROLE = 2 → s.dev.t % 100000 = 0 →
      s.dev.stand.lastRoot.getD 0 + s.dev.get F.STAND_TIMING_DEAD_MS * msT ≤ s.dev.t → s.dev.neighboursSilent = true → s.dev.quorumNow = true →
      s.dev.stand.quiet = false → Answers .takeover s (fun t =>
        t.dev.get F.STAND_EPOCH_EPOCH = (s.dev.get F.STAND_EPOCH_EPOCH + 1) % 2 ^ 32 ∧ t.dev.get F.STAND_ROLES_ROOT = s.dev.ownSlot ∧
        t.dev.get F.STAND_TAKEOVERS_CNT = Nat.min (2 ^ F.STAND_TAKEOVERS_CNT.w - 1) (s.dev.get F.STAND_TAKEOVERS_CNT + 1))) ∧
    (∀ u, s.dev.stand.map.isSome = true → s.dev.stand.upT = some u → s.dev.stand.quiet = true → s.dev.get F.STAND_STAT_ROLE = 1 →
      u + 100 * msT ≤ s.dev.t → Answers .rootResume s (fun t => t.dev.stand.quiet = false ∧ t.dev.stand.lastMapT = s.dev.t)) ∧
    (s.dev.inStand = true → s.dev.isRoot = true → s.dev.t % 100000 = 0 → Answers (.channelState none) s (fun t =>
      s.dev.usedChans ≠ [] → assoc t.dev.link.seqTx 4 = some (((assoc s.dev.link.seqTx 4).getD 0 + s.dev.usedChans.length) % 1024))) ∧
    (∀ fl : Flit, leAt fl.payload 0 1 = 0x0A → s.dev.isRoot = false → Answers (.channelState (some fl)) s (fun t =>
      (⟨leAt fl.payload 4 1 % 16, leAt fl.payload 5 8, leAt fl.payload 13 8, leAt fl.payload 21 4⟩ : ChanSt) ∈ t.dev.stand.chans))

/-- Group commands in two phases (R216 to R220, R259, R260): a target votes and reserves, the root gathers votes and results, and each
side ends what it waits for. -/
def Obligations.GroupEventsComplete : Prop :=
  ∀ (s : State),
    (∀ (fl : Flit) data, leAt fl.payload 0 1 = 3 → s.dev.inStand = true → s.dev.isRoot = false → (leAt data 0 4).testBit s.dev.ownSlot = true →
      Answers (.prepare fl data) s (fun t => t.dev.stand.resv =
        if prepareCheck s (slice data 4 64) (data.drop 68) = 0 then some ⟨leAt fl.payload 2 2, slice data 4 64, data.drop 68, s.dev.t⟩
        else s.dev.stand.resv)) ∧
    (∀ (fl : Flit) data, s.dev.inStand = true → s.dev.isRoot = false → leAt fl.payload 0 1 = s.dev.ownSlot →
      Answers (.authReceive fl data) s (fun t =>
        let c : Cmd := ⟨s.dev.sec.nextK, slice data 0 64, 0xFFFF, .group (leAt fl.payload 1 1), data.drop 64, true, true, true, s.dev.t⟩
        let r := critCheck s.dev c (!(c.op == 0x8009 || c.op == 0x800A))
        t.dev.stand.resv =
          if r.2 = none ∧ prepareCheck { s with dev := r.1 } (slice data 0 64) (data.drop 64) = 0 then
            some ⟨leAt fl.payload 1 1, slice data 0 64, data.drop 64, s.dev.t⟩
          else s.dev.stand.resv)) ∧
    (∀ (fl : Flit) g, s.dev.stand.group = some g → leAt fl.payload 0 1 = 4 → s.dev.isRoot = true → g.phase = 1 →
      txnEq g.entry g.txn (leAt fl.payload 2 2) = true → g.mask.testBit fl.src = true → g.votes.any (fun v => v.slot == fl.src) = false →
      g.votes.all (fun v => v.ok) = true →
      (leAt fl.payload 4 1 % 2 = 1 → (∃ i ∈ bitsOf 32 g.mask, i ≠ fl.src ∧ g.votes.any (fun v => v.slot == i) = false) →
        Answers (.vote fl) s (fun t => t.dev.stand.group = some { g with votes := g.votes ++ [⟨fl.src, true, leAt fl.payload 5 1,
          leAt fl.payload 6 4, leAt fl.payload 10 4, leAt fl.payload 14 8, leAt fl.payload 22 2⟩] })) ∧
      (leAt fl.payload 4 1 % 2 = 0 → Answers (.vote fl) s (fun t =>
        t.dev.stand.group = none ∧ t.dev.get F.STAND_GRP_STAT_PHASE = 3 ∧ t.dev.get F.STAND_GRP_STAT_RESULT = 2))) ∧
    (∀ g, s.dev.stand.group = some g → g.phase = 1 → g.t0 + s.dev.get F.STAND_TIMING_PREP_MS * msT ≤ s.dev.t → Answers .prepTimeout s (fun t =>
      t.dev.stand.group = none ∧ t.dev.get F.STAND_GRP_STAT_PHASE = 3 ∧ t.dev.get F.STAND_GRP_STAT_RESULT = 2)) ∧
    (∀ (fl : Flit) r, s.dev.stand.group = none → s.dev.stand.resv = some r → leAt fl.payload 0 1 = 5 →
      txnEq r.entry r.txn (leAt fl.payload 2 2) = true → Answers (.commit fl) s (fun t => t.dev.stand.resv = none)) ∧
    (∀ (fl : Flit) r, s.dev.stand.resv = some r → leAt fl.payload 0 1 = 6 → txnEq r.entry r.txn (leAt fl.payload 2 2) = true →
      Answers (.abort fl) s (fun t => t.dev.stand.resv = none)) ∧
    (∀ (fl : Flit) g, s.dev.stand.group = some g → leAt fl.payload 0 1 = 7 → s.dev.isRoot = true → g.phase = 2 →
      txnEq g.entry g.txn (leAt fl.payload 2 2) = true → g.mask.testBit fl.src = true → (g.okMap ||| g.failMap).testBit fl.src = false → fl.src < 32 →
      (leAt fl.payload 4 1 = 0 → Answers (.done fl) s (fun t => (t.dev.get F.STAND_GRP_OK_MAP).testBit fl.src = true ∧
        (t.dev.get F.STAND_DEGRADED_MAP).testBit fl.src = false)) ∧
      (leAt fl.payload 4 1 ≠ 0 → Answers (.done fl) s (fun t => (t.dev.get F.STAND_GRP_FAIL_MAP).testBit fl.src = true ∧
        (t.dev.get F.STAND_DEGRADED_MAP).testBit fl.src = true))) ∧
    (∀ g i, s.dev.stand.group = some g → g.phase = 2 → Nat.max g.t0 g.tc + s.dev.get F.STAND_TIMING_COMMIT_MS * msT ≤ s.dev.t → i < 32 →
      g.mask.testBit i = true → (g.okMap ||| g.failMap).testBit i = false → Answers .commitTimeout s (fun t =>
        (t.dev.get F.STAND_GRP_FAIL_MAP).testBit i = true)) ∧
    (∀ r, s.dev.stand.group = none → s.dev.stand.resv = some r → r.t0 + s.dev.get F.STAND_TIMING_COMMIT_MS * msT ≤ s.dev.t → Answers .commitTimeout s (fun t =>
      t.dev.stand.resv = none))

/-- Merging, trims and the token at the root (R136, R205, R217, R221 to R223, R226). -/
def Obligations.MergeEventsComplete : Prop :=
  ∀ (s : State),
    (∀ (sg : Segment) reads, s.dev.inStand = true → s.dev.isRoot = true → sg.whole = false → Answers (.segmentReceive sg reads) s (fun t =>
      t.dev.get F.STAND_MERGE_INCOMP_CNT = Nat.min (2 ^ F.STAND_MERGE_INCOMP_CNT.w - 1) (s.dev.get F.STAND_MERGE_INCOMP_CNT + 1) ∧
      t.dev.stand.merge = s.dev.stand.merge)) ∧
    (∀ (sg : Segment) reads e, s.dev.inStand = true → s.dev.isRoot = true → sg.whole = true → s.dev.ent sg.slot = some e →
      (e.kind = 1 ∨ e.kind = 2 ∨ e.kind = 3) → s.dev.failed sg.slot = false →
      (s.dev.chanUsed sg.channel = true → 0 ≤ sdiff (s.dev.chan sg.channel).fin sg.web.toNat) →
      s.dev.stand.merge.find? (fun l => l.chan == sg.channel && l.web == sg.web.toNat) = none → Answers (.segmentReceive sg reads) s (fun t =>
        (sg.slot, sg.px.length) ∈ t.dev.stand.cols ∧ t.dev.get F.STAND_MERGE_DUP_CNT = s.dev.get F.STAND_MERGE_DUP_CNT)) ∧
    (∀ c l reads, s.dev.inStand = true → s.dev.isRoot = true → c < 16 → s.dev.firstLine c = some l →
      l.t0 + s.dev.get F.STAND_MERGE_CTL_WAIT * 100 * usT ≤ s.dev.t → Answers (.mergeWaitExpiry reads) s (fun t =>
        ∀ x ∈ t.dev.stand.merge, ¬ (x.chan = l.chan ∧ x.web = l.web))) ∧
    Answers .trimReset s (fun t => t.dev.stand.seams = [] ∧ t.dev.get F.STAND_SEAM_AT_LIMIT_MAP = 0 ∧
      ∀ i < 32, t.dev.get (F.STAND_TRIM_OFS.at i) = 0 ∧ t.dev.get (F.STAND_TRIM_GAIN.at i) = 0) ∧
    (∀ h b, s.dev.stand.tokHolder = some (h, b) → s.dev.isRoot = true → h ≠ s.dev.ownSlot → b + 100 * msT ≤ s.dev.t →
      (∀ x, s.dev.heardOf h = some x → x.flags.testBit 2 = false ∨ x.t < b) → Answers .tokenWithdraw s (fun t => t.dev.stand.tokHolder = none)) ∧
    (∀ b, s.dev.bit F.LINK_TS_STAT_HOLDOVER = true → s.dev.bit F.LINK_TS_STAT_LOCKED = false → s.dev.link.holdT = some b → b + s.dev.get F.STAND_HOLD_HOLD_MS * msT ≤ s.dev.t →
      Answers .segmentHoldLimit s (fun t => t.dev.bit F.STAND_STAT_TIME_OK = false))

/-- Requests of the module and their completions (R237, R241 to R243): descriptors are taken or stop the ring, a completion is counted in
or fails its request, a failed request waits for its reissue, and a closed buffer is completed. -/
def Obligations.DmaEventsComplete : Prop :=
  ∀ (s : State),
    (∀ (n : Fin 16) bytes r, s.dev.host.reqs.filter (fun r => r.ring == n.val && r.kind == .desc) = [r] → r.live = true →
      (s.dev.ringX n).bad = false → (s.dev.ringX n).closing = false → s.dev.host.staged.all (fun x => x.ring != n.val) = true →
      (∀ i < r.len / 32, (parseDesc (slice bytes (32 * i) 32)).isSome = true) → Answers (.descriptorFetch n bytes) s (fun t =>
        t.dev.get (F.HOST_RING_STAT_PREFETCH.at n) =
          ((s.dev.ringX n).descs.length + r.len / 32 + (s.dev.ringX n).bufs.length) % 2 ^ F.HOST_RING_STAT_PREFETCH.w)) ∧
    (∀ id cause bytes, s.dev.host.reqs.find? (fun r => r.id == id && r.isOut) = none → Answers (.dmaCompletion id cause bytes) s (fun t =>
      t.dev.bit F.HOST_ERR_STAT_UNEXP_CPL = true ∧ t.dev.host.reqs = s.dev.host.reqs ∧
      t.dev.get F.HOST_UNEXP_CPL_CNT = Nat.min (2 ^ F.HOST_UNEXP_CPL_CNT.w - 1) (s.dev.get F.HOST_UNEXP_CPL_CNT + 1))) ∧
    (∀ id bytes r, s.dev.host.reqs.find? (fun r => r.id == id && r.isOut) = some r → r.got + bytes.length ≤ r.len → r.kind ≠ .barrier →
      Answers (.dmaCompletion id .ok bytes) s (fun t => ∃ x ∈ t.dev.host.reqs, x.id = id ∧ x.got = r.got + bytes.length ∧
        (x.st = .done ↔ r.got + bytes.length = r.len))) ∧
    (∀ id cause bytes r, s.dev.host.reqs.find? (fun r => r.id == id && r.isOut) = some r → cause ≠ .ok → r.chan < 8 →
      Answers (.dmaCompletion id cause bytes) s (fun t => t.dev.get (F.HOST_DMA_STAT_HALT.at r.chan) = cplCode cause ∧
        (s.dev.get F.HOST_CTL_RETRY ≤ r.tries → t.dev.get (F.HOST_DMA_STAT_STATE.at r.chan) = 3) ∧
        (r.tries < s.dev.get F.HOST_CTL_RETRY → ∀ x ∈ t.dev.host.reqs, x.id = r.id → x.st = .backoff (s.dev.t + s.dev.get F.HOST_CTL_BACKOFF * usT)))) ∧
    (∀ id r due, s.dev.host.reqs.find? (fun r => r.id == id) = some r → r.st = .out (some due) → due ≤ s.dev.t → r.chan < 8 →
      Answers (.completionTimeout id) s (fun t => t.dev.get (F.HOST_DMA_STAT_HALT.at r.chan) = 1)) ∧
    (∀ id r due, s.dev.host.reqs.find? (fun r => r.id == id) = some r → r.st = .backoff due → due ≤ s.dev.t → s.dev.chanRuns r.chan = true → r.chan < 8 →
      Answers (.dmaReissue id) s (fun t =>
        (∃ x ∈ t.dev.host.reqs, x.kind = r.kind ∧ x.addr = r.addr ∧ x.len = r.len ∧ x.tries = r.tries + 1) ∧
        t.dev.get (F.HOST_DMA_RETRIES_CNT.at r.chan) =
          Nat.min (2 ^ F.HOST_DMA_RETRIES_CNT.w - 1) (s.dev.get (F.HOST_DMA_RETRIES_CNT.at r.chan) + 1))) ∧
    (∀ r rs reads, s.dev.host.formed = r :: rs → Answers (.recordStaged reads) s (fun t => ∃ more, t.dev.host.formed = rs ++ more)) ∧
    (∀ (n : Fin 16) b due, openBuf (s.dev.ringX n) = some b → b.firstT = some due →
      due + s.dev.get (F.HOST_RING_CTL_HOLD.at n) * 10 * usT ≤ s.dev.t → b.data.isEmpty = false →
      Answers (.bufferHoldExpiry n) s (fun t => ∀ x ∈ (t.dev.ringX n).bufs, x.closed = true ∨ x.data.isEmpty = true)) ∧
    (∀ (n : Fin 16) b bs, s.dev.ringState n = 1 → s.dev.chanRuns (s.dev.ringChan n) = true → (s.dev.ringX n).bufs = b :: bs → b.closed = true →
      b.barrier = false → Answers (.bufferComplete n) s (fun t =>
        if b.d.flags.testBit 0 && !b.data.isEmpty then
          ∃ x ∈ t.dev.host.reqs, x.kind = .barrier ∧ x.ring = n.val ∧ x.addr = b.d.addr + b.data.length - 4 ∧ x.len = 4
        else t.dev.ringM n = (s.dev.ringM n + 1) % 2 ^ 32)) ∧
    (∀ v : Fin 32, s.dev.host.pend.getLsbD v = true → s.dev.host.cfg.msixEn = true → s.dev.host.cfg.fnMask = false → s.dev.vecMasked v = false →
      (∀ b, assoc s.dev.host.lastMsg v = some b → b + s.dev.get (F.HOST_VEC_MOD_MIN_GAP.at v) * usT ≤ s.dev.t) →
      s.dev.bit F.HOST_STAT_BME = true → s.dev.bit F.HOST_STAT_LINK_UP = true → s.dev.bit F.HOST_STAT_RETRAINING = false → Answers (.msiXMessage v) s (fun t =>
        t.dev.host.pend = s.dev.host.pend &&& ~~~ BitVec.ofNat 32 (2 ^ v.val) ∧ ∃ a w, t.dev.out = s.dev.out ++ [.msix v a w]))

/-- The PCIe link and the clock it carries (R22, R229, R230, R231, R234, R245, R246, R320, R323): link events show in HOST_STAT, a link
down resets every ring, a long access is aborted, configuration requests are answered. -/
def Obligations.PcieEventsComplete : Prop :=
  ∀ (s : State),
    (∀ bme d3, Answers (.busMasterChange bme d3) s (fun t => t.dev.bit F.HOST_STAT_BME = bme ∧ t.dev.bit F.HOST_STAT_D3HOT = d3 ∧
      (s.dev.bit F.HOST_STAT_BME = true → s.dev.bit F.HOST_STAT_D3HOT = false → (bme && !d3) = false →
        ∀ n < 16, s.dev.ringState n = 1 → t.dev.ringState n = 3) ∧
      ((s.dev.bit F.HOST_STAT_BME && !s.dev.bit F.HOST_STAT_D3HOT) = false → bme = true → d3 = false →
        ∀ n < 16, s.dev.ringState n = 3 → (s.dev.ringX n).closing = false → s.dev.host.staged.all (fun r => r.ring != n) = true →
          t.dev.ringState n = 1))) ∧
    (∀ flr, Answers (.linkDown flr) s (fun t => t.dev.bit F.HOST_STAT_LINK_UP = (flr && s.dev.bit F.HOST_STAT_LINK_UP) ∧
      t.dev.bit F.HOST_STAT_BME = false ∧ t.dev.host.reqs = [] ∧ t.dev.host.pend = 0 ∧ ∀ n < 16, t.dev.ringState n = 0)) ∧
    (s.dev.get F.LINK_HP_STAT_MODE_ACT = 0 → Answers (.perstN true) s (fun t => t.dev.bit F.SYS_RST_CAUSE_PERST_N = true ∧
      t.dev.bit F.HOST_STAT_LINK_UP = false ∧ t.dev.pwr.perstT = none ∧ ∀ n < 16, t.dev.ringState n = 0)) ∧
    Answers (.perstN false) s (fun t => t.dev.pwr.perstT = some s.dev.t) ∧
    (s.dev.get F.LINK_HP_STAT_MODE_ACT = 0 → Answers .sysRstHost s (fun t => t.dev.bit F.SYS_RST_CAUSE_CMD_HOST = true ∧
      t.dev.bit F.HOST_STAT_LINK_UP = false ∧ ∀ n < 16, t.dev.ringState n = 0)) ∧
    (∀ speed width, Answers (.pcieLinkUp speed width) s (fun t => t.dev.bit F.HOST_STAT_LINK_UP = true ∧
      t.dev.get F.HOST_STAT_SPEED = speed ∧ t.dev.get F.HOST_STAT_WIDTH = s.dev.linkWidth width)) ∧
    (∀ enter speed width, Answers (.pcieRetrain enter speed width) s (fun t => t.dev.bit F.HOST_STAT_RETRAINING = enter ∧
      (enter = true → t.dev.get F.HOST_RETRAINS_CNT = Nat.min (2 ^ F.HOST_RETRAINS_CNT.w - 1) (s.dev.get F.HOST_RETRAINS_CNT + 1)) ∧
      (enter = false → t.dev.get F.HOST_STAT_SPEED = speed ∧ t.dev.get F.HOST_STAT_WIDTH = s.dev.linkWidth width))) ∧
    (∀ wm : Fin 4, wm.val ≠ 3 → Answers (.widthMaxWrite wm) s (fun t => t.dev.get F.HOST_CTL_WIDTH_MAX = wm ∧
      (s.dev.get F.HOST_CTL_WIDTH_MAX ≠ wm → s.dev.bit F.HOST_STAT_LINK_UP = true → t.dev.bit F.HOST_STAT_RETRAINING = true))) ∧
    (∀ off, Answers (.badAccess true off) s (fun t => t.dev.bit F.HOST_ERR_STAT_BAD_ACCESS = true ∧ t.dev.out = s.dev.out)) ∧
    (∀ off, Answers (.badAccess false off) s (fun t => t.dev.bit F.HOST_ERR_STAT_BAD_ACCESS = true ∧ t.dev.out = s.dev.out ++ [.completerAbort])) ∧
    (∀ off, s.dev.health.rates.all (fun r => r.code != 0x0A02) = true → 0 < s.dev.get F.HEALTH_CTL_RATE → Answers (.partialWrite off) s (fun t =>
      t.dev.get F.HEALTH_EVT_SEQ_VAL = (s.dev.get F.HEALTH_EVT_SEQ_VAL + 1) % 2 ^ F.HEALTH_EVT_SEQ_VAL.w)) ∧
    (∀ wr rd clr, s.dev.get F.SYS_START_STEP ≤ 8 → s.dev.bit F.SYS_START_HALTED = false → Answers (.configurationRequest wr rd clr) s (fun t =>
      t.dev.out = s.dev.out ++ [.cfgReply true none] ∧ t.dev.host = s.dev.host)) ∧
    (∀ wr rd clr, (8 < s.dev.get F.SYS_START_STEP ∨ s.dev.bit F.SYS_START_HALTED = true) → Answers (.configurationRequest wr rd clr) s (fun t =>
      t.dev.out = s.dev.out ++ [.cfgReply false (rd.map s.dev.cfgRead)] ∧ (wr = none → t.dev.host.cfg = s.dev.host.cfg) ∧
      (∀ w, wr = some w → t.dev.host.cfg = (if 512 < w.mps then { w with mps := s.dev.host.cfg.mps } else w)) ∧
      (∀ u e, clr = some (u, e) → t.dev.host.aerU = s.dev.host.aerU &&& ~~~u ∧ t.dev.host.aerC = s.dev.host.aerC &&& ~~~e))) ∧
    (∀ tn mn, s.dev.bit F.HOST_PTM_CTL_EN = true → s.dev.host.cfg.ptm = true → s.dev.host.ptmNext ≤ s.dev.t →
      s.dev.bit F.HOST_STAT_RETRAINING = false → Answers (.ptmDialog true tn mn) s (fun t =>
      t.dev.get F.HOST_PTM_T_VAL = tn % 2 ^ 64 ∧ t.dev.get F.HOST_PTM_M_VAL = mn % 2 ^ 64 ∧ t.dev.bit F.HOST_PTM_STAT_VALID = true)) ∧
    (∀ ok tn mn, s.dev.bit F.HOST_PTM_CTL_EN = true → s.dev.host.cfg.ptm = true → s.dev.host.ptmNext ≤ s.dev.t →
      (ok = false ∨ s.dev.bit F.HOST_STAT_RETRAINING = true) → Answers (.ptmDialog ok tn mn) s (fun t =>
      t.dev.bit F.HOST_PTM_STAT_VALID = false ∧ t.dev.get F.HOST_PTM_STAT_FAILS = Nat.min (2 ^ F.HOST_PTM_STAT_FAILS.w - 1) (s.dev.get F.HOST_PTM_STAT_FAILS + 1))) ∧
    (∀ b, s.dev.get F.LINK_TS_CTL_SRC = 2 → s.dev.follows = false → s.dev.host.ptmLast = some b → b + 10 * msT ≤ s.dev.t →
      Answers .ptmHoldover s (fun t => t.dev.bit F.HOST_PTM_STAT_HOLDOVER = true ∧ t.dev.bit F.HOST_PTM_STAT_LOCKED = false))

/-- The firmware (R263, R264): a switch with imaging stopped runs the new bank on trial 2000 ticks after its T_c, the new firmware
begins the trial, a sound report within 2 s keeps the new bank, and 2 s without one return to the bank before. -/
def Obligations.FirmwareEventsComplete : Prop :=
  ∀ (s : State),
    (∀ x, s.dev.sec.fwSwitch = some x → s.dev.bit F.FPA_CTL_RUN = false → x.tc + 2000 ≤ s.dev.t →
      Answers .fwSwitchTick s (fun t => t.dev.get F.SEC_FW_STAT_ACTIVE = x.bank % 2 ^ F.SEC_FW_STAT_ACTIVE.w ∧
        t.dev.bit F.SEC_FW_STAT_SWITCH_PEND = false ∧ t.dev.sec.fwSwitch = none ∧
        t.dev.sec.fwTrial = some ⟨x.k, x.bank, s.dev.get F.SEC_FW_STAT_ACTIVE, s.dev.t, false, false⟩)) ∧
    (∀ x, s.dev.sec.fwTrial = some x → x.runs = false → Answers .newFirmwareRuns s (fun t => t.dev.bit F.SEC_FW_STAT_TRIAL = true ∧
      t.dev.sec.fwTrial = some { x with runs := true, t0 := s.dev.t })) ∧
    (∀ x, s.dev.sec.fwTrial = some x → x.runs = true → x.failed = false → s.dev.t < x.t0 + 2 * secT → Answers .firmwareSound s (fun t =>
      t.dev.sec.fwTrial = none ∧ t.dev.bit F.SEC_FW_STAT_TRIAL = false ∧
      t.dev.get F.SEC_FW_STAT_BOOT = x.bank % 2 ^ F.SEC_FW_STAT_BOOT.w ∧ ∀ c ∈ t.dev.sec.cmds, c.k ≠ x.k)) ∧
    (∀ x, s.dev.sec.fwTrial = some x → x.runs = true → x.t0 + 2 * secT ≤ s.dev.t → Answers .fwTrialExpiry s (fun t =>
      if s.dev.bit F.FPA_CTL_RUN = true then t.dev.sec.fwTrial = some { x with failed := true }
      else t.dev.sec.fwTrial = none ∧ t.dev.get F.SEC_FW_STAT_ACTIVE = x.prev % 2 ^ F.SEC_FW_STAT_ACTIVE.w ∧
        t.dev.bit F.SEC_FW_STAT_TRIAL = false ∧ t.dev.bit F.SEC_FW_STAT_FALLBACK = true))

/-- Background writes of the Keep and of flash (R278, R280, R282, R283, R313): a journalled write goes page by page and its command
completes at the commit point, a page that fails is tried again and, before the commit point, given up after two retries (log 89), a
flash write is retried twice, then takes a spare block, and without a spare it is lost. -/
def Obligations.KeepAndFlashWritesComplete : Prop :=
  ∀ (s : State),
    (∀ j rest, s.dev.store.keepQ = j :: rest → 1 < j.pre → Answers (.keepPageWriteDone true) s (fun t =>
      t.dev.store.keepQ = { j with pre := j.pre - 1, fails := 0 } :: rest ∧ t.mem = s.mem)) ∧
    (∀ j rest k a bs, s.dev.store.keepQ = j :: rest → j.pre = 1 → j.what = .user k a bs → Answers (.keepPageWriteDone true) s (fun t =>
      t.dev.store.keepQ = { j with pre := 0, fails := 0 } :: rest ∧ t.mem = s.mem ∧
      (∀ c, s.dev.sec.cmds = [c] → c.k = k → Ended c St.ok 0 0 s t))) ∧
    (∀ j rest, s.dev.store.keepQ = j :: rest → j.pre = 0 ∨ j.fails < 2 → Answers (.keepPageWriteDone false) s (fun t =>
      t.dev.store.keepQ = { j with fails := j.fails + 1 } :: rest ∧ t.mem = s.mem)) ∧
    (∀ j rest k a bs, s.dev.store.keepQ = j :: rest → 0 < j.pre → 2 ≤ j.fails → j.what = .user k a bs →
      Answers (.keepPageWriteDone false) s (fun t => t.dev.store.keepQ = rest ∧ t.mem = s.mem ∧
        (∀ c, s.dev.sec.cmds = [c] → c.k = k → Ended c St.storeErr 0 0 s t))) ∧
    (∀ j rest k a bs, s.dev.store.keepQ = j :: rest → j.pre = 0 → 1 < j.post → j.post ≤ bs.length / 64 + 1 → j.what = .user k a bs →
      Answers (.keepPageWriteDone true) s (fun t => t.dev.store.keepQ = { j with post := j.post - 1 } :: rest ∧
        (∀ x < 64, t.mem.keep.rd keepDef (a + 64 * (bs.length / 64 + 1 - j.post) + x) = bs.getD (64 * (bs.length / 64 + 1 - j.post) + x) 0) ∧
        ∀ y, (y < a + 64 * (bs.length / 64 + 1 - j.post) ∨ a + 64 * (bs.length / 64 + 1 - j.post) + 64 ≤ y) →
          t.mem.keep.rd keepDef y = s.mem.keep.rd keepDef y)) ∧
    (∀ j rest, s.dev.store.keepQ = j :: rest → j.pre = 0 → j.post ≤ 1 → Answers (.keepPageWriteDone true) s (fun t =>
      t.dev.store.keepQ = rest ∧ t.dev.bit F.STORE_KEEP_STAT_QUEUED = !rest.isEmpty ∧ t.mem = s.mem)) ∧
    (∀ i j, s.dev.store.flashQ.findIdx? (fun j => !j.isPlate) = some i → s.dev.store.flashQ[i]? = some j →
      Answers (.flashWriteDone true) s (fun t => (∃ l, t.dev.store.flashQ = s.dev.store.flashQ.eraseIdx i ++ l ∧
          (s.dev.burin.curveWait = none → l = [])) ∧
        t.dev.bit F.STORE_FLASH_STAT_BUSY = !t.dev.store.flashQ.isEmpty ∧
        ∀ k a n, j.what = .erase k a n → ∀ b, t.mem.flash.rd flashDef b = if a ≤ b ∧ b < a + n then 0xFF else s.mem.flash.rd flashDef b) ∧
      (s.dev.burin.curveWait = none → Answers (.flashWriteDone false) s (fun t => t.mem = s.mem ∧
        (j.fails < 2 → t.dev.store.flashQ = s.dev.store.flashQ.set i { j with fails := j.fails + 1 }) ∧
        (2 ≤ j.fails → 0 < s.dev.store.flashSpares → t.dev.store.flashSpares = s.dev.store.flashSpares - 1 ∧
          t.dev.store.flashQ = s.dev.store.flashQ.set i { j with fails := 0 }) ∧
        (2 ≤ j.fails → s.dev.store.flashSpares = 0 → t.dev.store.flashQ = s.dev.store.flashQ.eraseIdx i ∧
          t.dev.bit F.STORE_FLASH_STAT_NO_SPARE = true ∧ t.dev.bit F.STORE_FLASH_STAT_WR_ERR = true)))) ∧
    Answers .save s (fun t => t.dev.store.flashQ = s.dev.store.flashQ ++ [⟨.boot s.dev.bootImage, 0⟩] ∧
      t.dev.bit F.SYS_BOOT_STAT_BUSY = true ∧ t.mem = s.mem) ∧
    Answers .bootClear s (fun t => t.dev.store.flashQ = s.dev.store.flashQ ++ [⟨.bootClear, 0⟩] ∧
      t.dev.bit F.SYS_BOOT_STAT_VALID = false ∧ t.mem = s.mem)

/-- The scrubber, the reload of a table's word and the operating time (R271 to R274, R288): a sweep begins at its mark and shows its
duration at its end, a forced cycle corrects a word or finds it uncorrectable, such a word is reloaded from its flash copy, and
60 s of operation are counted. -/
def Obligations.ScrubAndTimeComplete : Prop :=
  ∀ (s : State),
    (∀ found, Answers (.scrubSweep found) s (fun t => t.dev.bit F.MEM_STAT_SCRUBBING = (s.dev.bit F.MEM_STAT_SCRUBBING || s.dev.sweepStarts))) ∧
    (∀ w code newer, s.dev.bit F.MEM_STAT_SCRUBBING = true → swept w = true →
      (hatchDecode (s.dev.erased (w % 4)) (slice code 0 36) = .bad → Answers (.scrubForcedCycle ⟨w, code, newer⟩) s (fun t =>
        w ∈ t.dev.store.qdrBad ∧ t.mem = s.mem ∧ t.dev.get F.MEM_UNC_ADDR_VAL = 32 * w % 2 ^ F.MEM_UNC_ADDR_VAL.w ∧
        t.dev.get (F.MEM_QDR_UNCORR_CNT.at (w % 4)) =
          Nat.min (2 ^ F.MEM_QDR_UNCORR_CNT.w - 1) (s.dev.get (F.MEM_QDR_UNCORR_CNT.at (w % 4)) + 1))) ∧
      (∀ word fixed, hatchDecode (s.dev.erased (w % 4)) (slice code 0 36) = .ok word fixed → fixed.isEmpty = false →
        Answers (.scrubForcedCycle ⟨w, code, newer⟩) s (fun t =>
          (newer = false → typedWord w = false →
            ∀ i, (hi : i < (word.take 32).length) → t.mem.qdr.rd qdrDef (32 * w + i) = (word.take 32)[i]) ∧
          (newer = true → t.mem = s.mem ∧ t.dev.get (F.MEM_QDR_WBSKIP_CNT.at (w % 4)) =
            Nat.min (2 ^ F.MEM_QDR_WBSKIP_CNT.w - 1) (s.dev.get (F.MEM_QDR_WBSKIP_CNT.at (w % 4)) + 1)) ∧
          t.dev.get (F.MEM_QDR_CORR_CNT.at (w % 4)) =
            Nat.min (2 ^ F.MEM_QDR_CORR_CNT.w - 1) (s.dev.get (F.MEM_QDR_CORR_CNT.at (w % 4)) + 1)))) ∧
    (∀ w a, w ∈ s.dev.store.qdrBad → flashCopy s.mem s.dev (32 * w) = some a → Answers (.tableWordReload w) s (fun t =>
      w ∉ t.dev.store.qdrBad ∧ ∀ i < 32, t.mem.qdr.rd qdrDef (32 * w + i) = s.mem.flash.rd flashDef (a + i))) ∧
    (s.dev.bit F.MEM_STAT_SCRUBBING = true → Answers .sweepComplete s (fun t =>
      t.dev.get F.MEM_SCRUB_STAT_LAST_MS = satN 16 ((s.dev.t - s.dev.store.sweepT0) / msT) ∧
      t.dev.get F.MEM_SCRUB_STAT_SWEEPS = (s.dev.get F.MEM_SCRUB_STAT_SWEEPS + 1) % 2 ^ F.MEM_SCRUB_STAT_SWEEPS.w ∧
      t.dev.bit F.MEM_STAT_SCRUBBING = (decide (s.dev.store.nextSweep ≤ s.dev.t) && s.dev.bit F.MEM_CTL_SCRUB_EN))) ∧
    (s.dev.store.opT0 + 60 * secT ≤ s.dev.t → Answers .operatingTimeIncrement s (fun t =>
      t.dev.store.opT0 = s.dev.store.opT0 + 60 * secT ∧
      (if s.dev.tallyFailed 13 = true then t.dev.store.opBase = s.dev.store.opBase + 60
       else t.dev.store.tallies = (s.dev.tallyInc 13).store.tallies)))

/-- The table window (R273, R275, R276): a selection latches the region that holds a plate's role, a read answers the table's word, or 0
where it is uncorrectable or beyond the table, a write lands in the table, or is ignored with WR_DENIED. -/
def Obligations.TableWindowComplete : Prop :=
  ∀ (s : State) (p : Path) (i : Nat), pathCopy p = some i → i < s.dev.paths.length →
    (∀ v : Word, Answers (.twSelWrite p v) s (fun t => (t.dev.path i).twSel = v &&& 0x3FFF ∧
      (t.dev.path i).region = if (t.dev.path i).table < 3 then some (s.dev.roleRegion (t.dev.path i).table) else none)) ∧
    (∀ off, off < 0x80000 →
      (∀ code, tableSize s.mem s.dev (s.dev.path i).table (s.dev.path i).inst ≤ (s.dev.path i).twBase.toNat % 65536 * 65536 + off / 4 * 4 →
        Answers (.tableWindowRead p off code) s (fun t => t.dev.out = s.dev.out ++ [.readData p 0] ∧ t.mem = s.mem)) ∧
      (∀ a, (s.dev.path i).twBase.toNat % 65536 * 65536 + off / 4 * 4 + 4 ≤ tableSize s.mem s.dev (s.dev.path i).table (s.dev.path i).inst →
        tableQdr (s.dev.path i) ((s.dev.path i).twBase.toNat % 65536 * 65536 + off / 4 * 4) = some a →
        (a / 32 ∉ s.dev.store.qdrBad → Answers (.tableWindowRead p off none) s (fun t =>
          t.dev.out = s.dev.out ++ [.readData p (if typedWord (a / 32) = true then leNat ((List.range 4).map (fun j =>
            tableByte s.mem s.dev (s.dev.path i).table (s.dev.path i).inst ((s.dev.path i).twBase.toNat % 65536 * 65536 + off / 4 * 4 + j)))
            else leNat (s.mem.q a 4))] ∧ t.mem = s.mem)) ∧
        (a / 32 ∈ s.dev.store.qdrBad → ∀ code, Answers (.tableWindowRead p off code) s (fun t =>
          t.dev.out = s.dev.out ++ [.readData p 0] ∧ (t.dev.path i).uncorr = true ∧ t.mem = s.mem)) ∧
        (∀ v : Word, s.dev.tableWritable (s.dev.path i).table = true → Answers (.tableWindowWrite p off v) s (fun t =>
          (∀ j < 4, t.mem.qdr.rd qdrDef (a + j) = BitVec.ofNat 8 (v.toNat / 256 ^ j)) ∧
          ∀ b, (b < a ∨ a + 4 ≤ b) → t.mem.qdr.rd qdrDef b = s.mem.qdr.rd qdrDef b))) ∧
      (∀ v : Word, s.dev.tableWritable (s.dev.path i).table = false → Answers (.tableWindowWrite p off v) s (fun t =>
        t.mem = s.mem ∧ (t.dev.path i).wrDenied = true)))

/-- Plates, clusters and captures in the background (R72, R73, R75, R77, R81, R84, R85): a plate is written to flash beside imaging, SHADOW
is released 10 s after the last write, flags are evaluated before they take effect, a swap takes place without a boundary, a
captured frame becomes a record, and a late capture frees its buffer. -/
def Obligations.PlateEventsComplete : Prop :=
  ∀ (s : State),
    (∀ range region inst n, s.dev.store.flashQ.find? FlashJob.isPlate = some ⟨.plate range region inst, n⟩ →
      Answers (.platePersistDone false) s (fun t => t.dev.bit F.STORE_FLASH_STAT_WR_ERR = true ∧ t.mem.qdr = s.mem.qdr ∧
        t.mem.keep = s.mem.keep ∧
        (s.dev.pipe.persistWait = [] → t.dev.pipe.persist = none ∧ t.dev.bit F.PIPE_PL_STAT_PERSIST_BUSY = false)) ∧
      (s.dev.pipe.persist = some (range, region) → s.dev.pipe.persistRead = none → s.dev.store.qdrBad = [] →
        Answers (.platePersistDone true) s (fun t =>
        (∀ i < 0x10000, t.mem.flash.rd flashDef (plateFlash inst + i) = s.mem.qdr.rd qdrDef (hdrAddr region + i)) ∧
        (∀ i < 0x02800000, t.mem.flash.rd flashDef (plateFlash inst + 0x10000 + i) = s.mem.qdr.rd qdrDef (entAddr region + i)) ∧
        (s.dev.pipe.persistWait = [] → t.dev.pipe.persist = none ∧ t.dev.bit F.PIPE_PL_STAT_PERSIST_BUSY = false))) ∧
      (s.dev.pipe.persistRead = some true → Answers (.platePersistDone true) s (fun t => t.mem.qdr = s.mem.qdr ∧
        ∀ i < plateBytes, t.mem.flash.rd flashDef (plateFlash inst + i) = s.mem.flash.rd flashDef (plateFlash inst + i)))) ∧
    (s.dev.owner = 1 → dueBy s.dev.pipe.hostHold s.dev.t = true → Answers .shadowHoldExpiry s (fun t =>
      t.dev.owner = 0 ∧ t.dev.pipe.hostHold = none ∧ t.dev.bit F.PIPE_PL_STAT_HOLD_EXPIRED = true)) ∧
    Answers .clusterEvaluation s (fun t => t.dev.bit F.PIPE_ST_STAT_EVAL_BUSY = false ∧ t.dev.pipe.cluNext =
      some (flaggedOf (defectPix s.mem s.dev.store.qdrBad s.dev.nextRegion s.dev.pipe.edits),
        defectPix s.mem s.dev.store.qdrBad s.dev.nextRegion s.dev.pipe.edits)) ∧
    (∀ x, s.dev.pipe.swap = some x → s.dev.inFrame = false →
      (x.ranAt.getD (s.dev.bit F.FPA_CTL_RUN) = false ∧ x.ready + 2000 ≤ s.dev.t ∨
        x.ranAt.getD (s.dev.bit F.FPA_CTL_RUN) = true ∧ s.dev.frameSrc ≠ 0 ∧ x.ready + 2000 + s.dev.get F.PIPE_PL_CTL_FALLBACK * msT ≤ s.dev.t) →
      Answers .plateSwapFallback s (fun t => t.dev.pipe.swap = none ∧ t.dev.bit F.PIPE_PL_STAT_FALLBACK = true ∧
        t.dev.get F.PIPE_PL_STAT_ACTIVE_REG = s.dev.get F.PIPE_PL_STAT_SHADOW_REG ∧
        t.dev.get F.PIPE_PL_STAT_SHADOW_REG = s.dev.get F.PIPE_PL_STAT_ACTIVE_REG ∧
        t.dev.get F.PIPE_PL_STAT_STANDBY_REG = s.dev.get F.PIPE_PL_STAT_STANDBY_REG)) ∧
    (∀ (b : Fin 2) x f, s.dev.pipe.capBufs.getD b none = some x → s.dev.frame x.frame = some f → x.ready = false → f.cut = none →
      (tapReady f x.cap.tap = true → Answers (.captureFrameDone b []) s (fun t =>
        (∀ bad, bad = badIn s.dev.store.qdrBad (capAddr b) (128 + 2 * 8 * (f.set.rowSlots + 1) * (f.set.cols + 16)) →
          ∃ l, t.dev.host.formed = s.dev.host.formed ++ l ++ [⟨x.cap.ring, padTo 64 (frameRecord f x bad), 0, some b.val, none⟩] ∧
            (bad = false → l = [])) ∧
        t.dev.pipe.capBufs.getD b none = some { x with ready := true })) ∧
      (x.b + 2 * x.period < s.dev.t → Answers (.captureAbandoned b) s (fun t => t.dev.pipe.capBufs.getD b none = none ∧
        t.dev.host.formed = s.dev.host.formed ∧
        t.dev.get F.PIPE_CAP_DROP_QDR_CNT = Nat.min (2 ^ F.PIPE_CAP_DROP_QDR_CNT.w - 1) (s.dev.get F.PIPE_CAP_DROP_QDR_CNT + 1))))

/-- Tests, retests, monitors and the Margin Plan (R295, R296, R300 to R303): verdicts are counted, a test that cannot run leaves the queue,
passed retests bring an element back, monitors are read at their period, the plan becomes due, waits for a glade and runs. -/
def Obligations.HealthEventsComplete : Prop :=
  ∀ (s : State),
    (∀ (ss : Fin 16) q, s.dev.testHead ss = some q → s.dev.health.repairs.find? (fun r => r.ss == ss.val && r.elem == q.elem) = none →
      Answers (.healthTestComplete ss q.elem true) s (fun t =>
        t.dev.get F.HEALTH_TESTS_CNT = Nat.min (2 ^ F.HEALTH_TESTS_CNT.w - 1) (s.dev.get F.HEALTH_TESTS_CNT + 1) ∧
        t.dev.get F.HEALTH_TRANSIENT_CNT = Nat.min (2 ^ F.HEALTH_TRANSIENT_CNT.w - 1) (s.dev.get F.HEALTH_TRANSIENT_CNT + 1)) ∧
      Answers (.healthTestComplete ss q.elem false) s (fun t =>
        t.dev.get F.HEALTH_TESTS_CNT = Nat.min (2 ^ F.HEALTH_TESTS_CNT.w - 1) (s.dev.get F.HEALTH_TESTS_CNT + 1) ∧
        t.dev.get F.HEALTH_LASTING_CNT = Nat.min (2 ^ F.HEALTH_LASTING_CNT.w - 1) (s.dev.get F.HEALTH_LASTING_CNT + 1))) ∧
    (∀ (ss : Fin 16) q, s.dev.testHead ss = some q → q.since + 10 * secT ≤ s.dev.t → Answers (.testNotPossible ss q.elem) s (fun t =>
      ∀ x ∈ t.dev.health.queue, x.ss = ss.val → x.elem ≠ q.elem)) ∧
    (∀ (ss : Fin 16) (a : Aside), s.dev.health.aside.find? (fun x => x.ss == ss.val && x.elem == a.elem) = some a →
      (ss = 0 ∨ ss = 1 ∨ ss = 3) → 4 ≤ s.dev.policy ss → a.lastOp + 24 * 3600 ≤ s.dev.optime →
      Answers (.restoreRetest ss a.elem true) s (fun t => ∀ x ∈ t.dev.health.aside, x.ss = ss.val → x.elem = a.elem →
        x.passes = a.passes + 1 ∧ x.passes < 3) ∧
      Answers (.restoreRetest ss a.elem false) s (fun t => ∀ x ∈ t.dev.health.aside, x.ss = ss.val → x.elem = a.elem → x.passes = 0)) ∧
    (∀ dfs mons, s.dev.health.rcT + s.dev.get F.HEALTH_RC_CTL_PERIOD * 60 * secT ≤ s.dev.t → Answers (.ringCountRead dfs mons) s (fun t =>
      t.dev.health.rcT = s.dev.t ∧ ∀ i < 24, t.dev.get (F.HEALTH_RC_DF.at i) = uns F.HEALTH_RC_DF.w (dfs.getD i 0))) ∧
    (s.dev.health.planDue = none → s.dev.health.planLastOp + 3600 * s.dev.get F.HEALTH_MP_CTL_PERIOD_H ≤ s.dev.optime →
      Answers .marginPlanDue s (fun t => t.dev.health.planDue = some s.dev.optime)) ∧
    Answers .mpRun s (fun t => t.dev.health.planDue = some (s.dev.health.planDue.getD s.dev.optime) ∧
      t.dev.get F.HEALTH_MP_STAT_STATE = if s.dev.health.planStart.isSome then 2 else 1) ∧
    (∀ o, s.dev.health.planDue = some o → o + 48 * 3600 ≤ s.dev.optime → Answers .marginPlanGladeTimeout s (fun t =>
      t.dev.health.planStart = some s.dev.t ∧ t.dev.get F.HEALTH_MP_STAT_STATE = 2)) ∧
    (∀ mp, s.dev.planReady = true → Answers (.marginPlan mp) s (fun t => t.dev.health.planDue = none ∧ t.dev.health.planStart = none ∧
      t.dev.health.planLastOp = s.dev.optime ∧ t.dev.get F.HEALTH_MP_LAST_H = s.dev.optime / 3600 % 2 ^ F.HEALTH_MP_LAST_H.w ∧
      t.dev.get F.HEALTH_MP_STAT_RUNS = (s.dev.get F.HEALTH_MP_STAT_RUNS + 1) % 2 ^ F.HEALTH_MP_STAT_RUNS.w))

/-- Domains and the ballast (R310, R311, R313 to R315): a drain ends or its transfers are aborted at the limit, a domain goes off, comes up
or idles, a sample of the powers shows, saturation is seen and its windows end, a setpoint waits for a glade. -/
def Obligations.PowerEventsComplete : Prop :=
  ∀ (s : State) (i : Fin 112),
    Answers (.drainEnd i) s (fun t => ∀ x ∈ t.dev.pwr.drains, x.dom = i.val → x.ending.isSome = true) ∧
    (∀ x left, s.dev.pwr.drains.find? (fun x => x.dom == i.val) = some x → x.due ≤ s.dev.t → x.ending = none →
      Answers (.drainLimitExpiry i left) s (fun t =>
        (∀ y ∈ t.dev.pwr.drains, y.dom = i.val → y.ending = some s.dev.t ∧ y.aborted = left) ∧
        t.dev.get F.PWR_ABORTED_CNT = satN F.PWR_ABORTED_CNT.w (s.dev.get F.PWR_ABORTED_CNT + left))) ∧
    (∀ x, s.dev.pwr.drains.find? (fun x => x.dom == i.val && x.ending.isSome && (decide (x.due ≤ s.dev.t) ||
        (match s.dev.domLane i with | some q => !s.dev.laneBusy q.1 q.2 | none => true))) = some x → Answers (.domainOff i) s (fun t =>
      t.dev.domBit i = false ∧ (∀ y ∈ t.dev.pwr.drains, y.dom ≠ i.val) ∧ t.dev.get F.PWR_LAST_DOMAIN = i ∧
      t.dev.bit F.PWR_LAST_ON = false ∧ t.dev.get F.PWR_LAST_RESULT = 0 ∧ t.dev.get F.PWR_LAST_ABORTED = satN 16 x.aborted)) ∧
    (∀ x, s.dev.pwr.ups.find? (fun x => x.dom == i.val) = some x → Answers (.domainUsable i) s (fun t =>
      (∀ y ∈ t.dev.pwr.ups, y.dom ≠ i.val) ∧ (i = 1 → t.dev.bit F.FPA_STAT_BIAS_READY = true))) ∧
    (∀ x, s.dev.pwr.demand.find? (fun q => q.1 == i.val) = some (i.val, some x) → x + msT ≤ s.dev.t →
      (i.val = 105 → s.dev.store.flashQ = []) → Answers (.onDemandIdle i) s (fun t => t.dev.domBit i = false ∧ (i.val, none) ∈ t.dev.pwr.demand)) ∧
    (∀ pIn pFpa pHeater pBal, Answers (.ballastSample pIn pFpa pHeater pBal) s (fun t =>
      t.dev.get F.PWR_P_IN_MW = satN 16 pIn ∧ t.dev.get F.PWR_SP_ACT_MW = t.dev.pwr.sp % 2 ^ F.PWR_SP_ACT_MW.w ∧
      (s.dev.bit F.PWR_BAL_CTL_EN = false → t.dev.pwr.bal2 = 0 ∧ t.dev.get F.PWR_P_BAL_MW = 0) ∧
      (s.dev.bit F.PWR_BAL_CTL_EN = true → t.dev.get F.PWR_P_BAL_MW = satN 16 pBal ∧
        t.dev.get F.PWR_P_HELD_MW = satN 16 ((pIn : Int) - pFpa - pHeater).toNat ∧
        t.dev.pwr.bal2 = 2 * (clampI 0 s.dev.balMax (t.dev.pwr.sp - (pIn - pFpa - pHeater - pBal))).toNat))) ∧
    (s.dev.bit F.PWR_BAL_CTL_EN = true → s.dev.bit F.PWR_BAL_STAT_SAT = false → 10 ≤ s.dev.pwr.satOut → Answers .ballastSat s (fun t =>
      t.dev.bit F.PWR_BAL_STAT_SAT = true ∧ t.dev.bit F.PWR_BAL_STAT_SAT_10S = true ∧ t.dev.bit F.PWR_BAL_STAT_SAT_60S = true ∧
      t.dev.get F.PWR_BAL_SAT_CNT_CNT = Nat.min (2 ^ F.PWR_BAL_SAT_CNT_CNT.w - 1) (s.dev.get F.PWR_BAL_SAT_CNT_CNT + 1))) ∧
    (∀ x, s.dev.pwr.satEnd = some x → x + 10 * secT ≤ s.dev.t → Answers .satWindowExpiry s (fun t =>
      t.dev.bit F.PWR_BAL_STAT_SAT_10S = false ∧
      (if x + 60 * secT ≤ s.dev.t then t.dev.bit F.PWR_BAL_STAT_SAT_60S = false ∧ t.dev.pwr.satEnd = none
       else t.dev.bit F.PWR_BAL_STAT_SAT_60S = s.dev.bit F.PWR_BAL_STAT_SAT_60S))) ∧
    (∀ v : Word, Answers (.balSetpointWrite v) s (fun t => t.dev.bit F.PWR_BAL_CTL_EN = v.getLsbD 0 ∧
      (if 2000 ≤ v.toNat / 65536 % 8192 ∧ v.toNat / 65536 % 8192 ≤ 7300 then t.dev.get F.PWR_BAL_CTL_SETPOINT = v.toNat / 65536 % 8192 ∧
        t.dev.bit F.PWR_BAL_STAT_SP_PEND = true ∧ t.dev.pwr.spPend = some (v.toNat / 65536 % 8192)
       else t.dev.get F.PWR_BAL_CTL_SETPOINT = s.dev.get F.PWR_BAL_CTL_SETPOINT ∧ t.dev.pwr.spPend = s.dev.pwr.spPend)))

/-- Clocks, supplies, resets and start-up (R172, R317 to R324): the PLL holds over a lost reference and then runs from the internal
oscillator, a power-on reset starts at step 1 with the timebase at zero, the other resets at step 2, a step completes into the next,
and QDR contents are lost at every reset. -/
def Obligations.ClockResetAndStartUpComplete : Prop :=
  ∀ (s : State),
    (s.dev.bit F.CLK_STAT_REF_OK = true → Answers .refclkLost s (fun t => t.dev.bit F.CLK_STAT_REF_OK = false ∧
      t.dev.bit F.CLK_STAT_HOLDOVER = true ∧ t.dev.bit F.CLK_STAT_REF_LOST = true ∧
      t.dev.get F.CLK_REF_LOSS_CNT = Nat.min (2 ^ F.CLK_REF_LOSS_CNT.w - 1) (s.dev.get F.CLK_REF_LOSS_CNT + 1))) ∧
    (∀ x, s.dev.bit F.CLK_STAT_HOLDOVER = true → s.dev.pwr.refLostT = some x → x + 10 * msT ≤ s.dev.t → Answers .holdoverExpiry s (fun t =>
      t.dev.bit F.CLK_STAT_HOLDOVER = false ∧ t.dev.bit F.CLK_STAT_INT_OSC = true ∧ t.dev.fpa.clockStop = true)) ∧
    (s.dev.bit F.CLK_STAT_REF_OK = false → (s.dev.bit F.CLK_STAT_HOLDOVER = true → Answers .refclkReturn s (fun t =>
        t.dev.bit F.CLK_STAT_REF_OK = true ∧ t.dev.bit F.CLK_STAT_HOLDOVER = false ∧
        t.dev.bit F.CLK_STAT_PLL_LOCK = s.dev.bit F.CLK_STAT_PLL_LOCK)) ∧
      (s.dev.bit F.CLK_STAT_HOLDOVER = false → s.dev.bit F.CLK_STAT_INT_OSC = true → Answers .refclkReturn s (fun t =>
        t.dev.bit F.CLK_STAT_REF_OK = true ∧ t.dev.bit F.CLK_STAT_PLL_LOCK = false ∧
        t.dev.get F.CLK_UNLOCK_CNT = Nat.min (2 ^ F.CLK_UNLOCK_CNT.w - 1) (s.dev.get F.CLK_UNLOCK_CNT + 1)))) ∧
    (s.dev.bit F.CLK_STAT_PLL_LOCK = false → Answers .pllLock s (fun t => t.dev.bit F.CLK_STAT_PLL_LOCK = true ∧
      t.dev.bit F.CLK_STAT_INT_OSC = false ∧ t.dev.fpa.clockStop = false)) ∧
    (∀ bank : Bool, s.dev.pwr.vioLow.length = 2 → Answers (.vioLow bank) s (fun t => t.dev.pwr.vioLow.getD bank.toNat false = true) ∧
      Answers (.vioRestored bank) s (fun t => t.dev.pwr.vioLow.getD bank.toNat false = false)) ∧
    (∀ role1 role0 : Bool, Answers (.powerOnResetRelease role1 role0) s (fun t => t.dev.t = 0 ∧ t.dev.get F.SYS_START_STEP = 1 ∧
      t.dev.pwr.por = false ∧ t.dev.pwr.straps = 2 * role1.toNat + role0.toNat ∧ t.dev.bit F.FPA_CTL_RUN = false ∧
      t.dev.get F.LINK_HP_STAT_MODE_ACT = (if role1 then (if role0 then 0 else 2) else if role0 then 1 else 0) ∧
      ∀ a, t.mem.qdr.rd qdrDef a = qdrDef)) ∧
    Answers .brownout s (fun t => t.dev.pwr.por = true ∧ t.dev.bit F.FPA_CTL_RUN = false ∧ ∀ a, t.mem.qdr.rd qdrDef a = qdrDef) ∧
    (s.dev.pwr.por = false → (∀ role1 role0 : Bool, Answers (.resetN true role1 role0) s (fun t => t.dev.pwr.rstLow = true ∧
        t.dev.t = s.dev.t ∧ t.dev.get F.SYS_START_STEP = 2 ∧ t.dev.bit F.SYS_RST_CAUSE_RESET_N = true ∧ t.dev.bit F.FPA_CTL_RUN = false ∧
        ∀ a, t.mem.qdr.rd qdrDef a = qdrDef)) ∧
      (∀ role1 role0 : Bool, s.dev.pwr.rstLow = true → Answers (.resetN false role1 role0) s (fun t => t.dev.pwr.rstLow = false ∧
        t.dev.pwr.startT0 = s.dev.t ∧ t.dev.pwr.straps = 2 * role1.toNat + role0.toNat ∧ t.mem = s.mem))) ∧
    Answers .sysRstWarm s (fun t => t.dev.t = s.dev.t ∧ t.dev.get F.SYS_START_STEP = 2 ∧ t.dev.bit F.SYS_RST_CAUSE_CMD_WARM = true ∧
      t.dev.pwr.straps = s.dev.pwr.straps ∧ t.dev.bit F.FPA_CTL_RUN = false ∧ ∀ a, t.mem.qdr.rd qdrDef a = qdrDef) ∧
    (∀ si : StartIn, s.dev.pwr.por = false → s.dev.pwr.rstLow = false → s.dev.bit F.SYS_START_HALTED = false →
      (s.dev.get F.SYS_START_STEP = 1 → Answers (.startUpStep si) s (fun t =>
        t.dev.get F.SYS_START_STEP = 2 ∧ t.dev.bit F.CLK_STAT_PLL_LOCK = true)) ∧
      (s.dev.get F.SYS_START_STEP = 2 → Answers (.startUpStep si) s (fun t => t.dev.get F.SYS_START_STEP = 3)) ∧
      (s.dev.get F.SYS_START_STEP = 3 → bankOk s.mem s.dev 0 = false → bankOk s.mem s.dev 1 = false → Answers (.startUpStep si) s (fun t =>
        t.dev.get F.SYS_START_STEP = 3 ∧ t.dev.bit F.SYS_START_HALTED = true)) ∧
      (s.dev.get F.SYS_START_STEP = 3 → bankOk s.mem s.dev 0 = true → bankOk s.mem s.dev 1 = true → Answers (.startUpStep si) s (fun t =>
        t.dev.get F.SYS_START_STEP = 4 ∧ t.dev.get F.SEC_FW_STAT_ACTIVE = t.dev.get F.SEC_FW_STAT_BOOT)) ∧
      (s.dev.get F.SYS_START_STEP = 4 → Answers (.startUpStep si) s (fun t => t.dev.get F.MEM_STAT_TRAINED = si.trained.toNat ∧
        t.dev.get F.SYS_START_STEP = if si.trained = 15#4 then 5 else 4)) ∧
      (s.dev.get F.SYS_START_STEP = 5 → Answers (.startUpStep si) s (fun t =>
        t.dev.get F.SYS_START_STEP = 6 ∧ t.dev.bit F.FPA_STAT_BIAS_READY = true)) ∧
      (s.dev.get F.SYS_START_STEP = 6 → Answers (.startUpStep si) s (fun t => t.dev.get F.SYS_START_STEP = 7)) ∧
      (s.dev.get F.SYS_START_STEP = 7 → Answers (.startUpStep si) s (fun t => t.dev.get F.SYS_START_STEP = 8)) ∧
      (s.dev.get F.SYS_START_STEP = 8 → s.dev.pcieReady = true → Answers (.startUpStep si) s (fun t => t.dev.get F.SYS_START_STEP = 9)) ∧
      (s.dev.get F.SYS_START_STEP = 9 → Answers (.startUpStep si) s (fun t => t.dev.get F.SYS_START_STEP = 15)))

/-- The converter (R330 to R333, R335 to R340): a sequence is committed or refused with the code of its first failed check and comes into
force at a round, results are delivered with their comparator, references settle, calibrations end, ring records close. -/
def Obligations.ConverterComplete : Prop :=
  ∀ (s : State),
    (checkSeq s.dev s.dev.stagedSeq = 0 → Answers .auxSeqCommit s (fun t => t.dev.aux.pend = some s.dev.stagedSeq ∧
      t.dev.aux.act = s.dev.aux.act ∧ t.dev.get F.AUX_SEQ_STAT_ERR = 0)) ∧
    (checkSeq s.dev s.dev.stagedSeq ≠ 0 → Answers .auxSeqCommit s (fun t => t.dev.aux = s.dev.aux ∧
      t.dev.bit F.AUX_SEQ_STAT_REFUSED = true ∧ t.dev.get F.AUX_SEQ_STAT_ERR = checkSeq s.dev s.dev.stagedSeq)) ∧
    (∀ sel : Fin 4, sel.val ≠ 3 → Answers (.auxRefWrite sel) s (fun t => t.dev.get F.AUX_REF_SEL = sel ∧
      t.dev.bit F.AUX_STAT_REF_READY = false ∧ t.dev.bit F.AUX_STAT_REF_FAULT = false ∧
      (s.dev.get F.AUX_REF_SEL ≠ sel → t.dev.aux.zero = none ∧ t.dev.bit F.AUX_STAT_ZERO_HELD = false))) ∧
    (∀ x valid, s.dev.aux.refT = some x → x + refSettle (s.dev.get F.AUX_REF_SEL) ≤ s.dev.t → Answers (.refSettled valid) s (fun t =>
      t.dev.bit F.AUX_STAT_REF_READY = (valid || s.dev.get F.AUX_REF_SEL == 0) ∧
      t.dev.bit F.AUX_STAT_REF_FAULT = !(valid || s.dev.get F.AUX_REF_SEL == 0) ∧ t.dev.aux.refT = none)) ∧
    (s.dev.bit F.AUX_CTL_EN = true → s.dev.aux.next ≤ s.dev.t → Answers .auxRound s (fun t =>
      t.dev.aux.act = s.dev.aux.pend.getD s.dev.aux.act ∧ t.dev.aux.pend = none ∧ t.dev.aux.next = s.dev.t + t.dev.aux.act.period * usT ∧
      (∀ q, s.dev.aux.pend = some q → t.dev.get F.AUX_SEQ_STAT_PERIOD_ACT = q.period % 2 ^ F.AUX_SEQ_STAT_PERIOD_ACT.w))) ∧
    (∀ (n : Fin 16) sum r x, r = nominalMean (cfgCh x.cfg) sum (cfgA x.cfg) → s.dev.aux.runs.find? (fun x => x.n == n.val && decide (x.hold + 20 ≤ s.dev.t)) = some x →
      Answers (.auxEntryResult n sum) s (fun t =>
        t.dev.get (F.AUX_ENT_RES_VALUE.at n) = uns 16 (s.dev.auxValue x r).1 ∧ t.dev.bit (F.AUX_ENT_RES_CAL.at n) = (s.dev.auxValue x r).2 ∧
        t.dev.bit (F.AUX_ENT_RES_WIN.at n) = (x.cmp && (decide ((s.dev.auxValue x r).1 < sext 16 (x.win % 65536)) ||
          decide (sext 16 (x.win / 65536) < (s.dev.auxValue x r).1))) ∧
        t.dev.get (F.AUX_ENT_RES_COUNT.at n) = (s.dev.get (F.AUX_ENT_RES_COUNT.at n) + 1) % 2 ^ F.AUX_ENT_RES_COUNT.w ∧
        t.dev.get (F.AUX_ENT_RES_T_T.at n) = x.hold % 2 ^ F.AUX_ENT_RES_T_T.w)) ∧
    (∀ sum m x, s.dev.aux.meas = some x → m = nominalMean x.ch sum 1024 → 16 ≤ x.rounds → x.slotEnd + 20 ≤ s.dev.t →
      Answers (.auxCalMeasurementDone sum) s (fun t => t.dev.aux.meas = none ∧
      t.dev.bit F.AUX_STAT_CAL_BUSY = false ∧
      (x.v = none → t.dev.aux.zero = some ⟨calIdx x.ch x.g x.ref, m, 0, s.dev.t⟩ ∧ t.dev.bit F.AUX_STAT_ZERO_HELD = true) ∧
      (∀ v z, x.v = some v → s.dev.aux.zero = some z → 0 < v → 4096 ≤ m - z.z → 8192 ≤ v → v ≤ 32767 →
        2 ^ 23 ≤ rdiv (v * 2 ^ 24) (m - z.z) → rdiv (v * 2 ^ 24) (m - z.z) ≤ 2 ^ 25 →
        t.dev.store.keepQ = s.dev.store.keepQ ++ [⟨.auxCal x.k (calIdx x.ch x.g x.ref) z.z (rdiv (v * 2 ^ 24) (m - z.z)), 2, 2, 0⟩]))) ∧
    (∀ r rs, s.dev.aux.recs = r :: rs → r.t + s.dev.get F.AUX_RING_CTL_HOLD * 10 * usT ≤ s.dev.t → Answers .auxRecordClose s (fun t =>
      t.dev.aux.recs = [] ∧ t.dev.host.formed.length = s.dev.host.formed.length + 1))

/-- Pins and timers (R350 to R355): an edge of TIME_IN is stamped or rejected, timers start, compare and capture, a GP pin takes its
function, a reserved timer and the fixed pin refuse theirs, and the frame strobe ends. -/
def Obligations.PinsAndTimersComplete : Prop :=
  ∀ (s : State) (n : Fin 8),
    (s.dev.bankIn = true → s.dev.bit F.IO_TIME_CTL_EN = true →
      ((∀ x, s.dev.io.timeLast = some x → x + 90000000 ≤ s.dev.pinT) → Answers .timeInEdge s (fun t =>
        t.dev.get F.IO_TIME_EDGE_T = s.dev.pinT % 2 ^ 64 ∧ t.dev.io.timeLast = some s.dev.pinT ∧
        t.dev.get F.IO_TIME_CNT_CNT = Nat.min (2 ^ F.IO_TIME_CNT_CNT.w - 1) (s.dev.get F.IO_TIME_CNT_CNT + 1))) ∧
      (∀ x, s.dev.io.timeLast = some x → s.dev.pinT < x + 90000000 → Answers .timeInEdge s (fun t =>
        t.dev.get F.IO_TIME_EDGE_T = s.dev.get F.IO_TIME_EDGE_T ∧ t.dev.io = s.dev.io ∧
        t.dev.get F.IO_TIME_REJ_CNT = Nat.min (2 ^ F.IO_TIME_REJ_CNT.w - 1) (s.dev.get F.IO_TIME_REJ_CNT + 1)))) ∧
    (∀ x, s.dev.get F.LINK_TS_CTL_SRC = 3 → s.dev.follows = false → s.dev.io.timeLast = some x → x + 2 * secT ≤ s.dev.t →
      Answers .timeInHoldover s (fun t => t.dev.bit F.IO_TIME_STAT_HOLDOVER = true ∧ t.dev.bit F.IO_TIME_STAT_LOCKED = false)) ∧
    (∀ v : Word, s.dev.get (F.TMR_CTL_OWNER.at n) = 0 → s.dev.bit (F.TMR_CTL_EN.at n) = false → v.getLsbD 0 = true →
      Answers (.tmrCtlWrite n v) s (fun t => t.dev.bit (F.TMR_CTL_EN.at n) = true ∧ t.dev.get (F.TMR_CNT_VAL.at n) = 0)) ∧
    (∀ v : Word, s.dev.get (F.TMR_CTL_OWNER.at n) ≠ 0 → Answers (.tmrCtlWrite n v) s (fun t => t.dev.io = s.dev.io ∧
      t.dev.bit F.IO_CONFLICT_VALID = true ∧ t.dev.bit (F.TMR_CTL_EN.at n) = s.dev.bit (F.TMR_CTL_EN.at n))) ∧
    (s.dev.bit (F.TMR_CTL_EN.at n) = true → s.dev.get (F.TMR_CMP_VAL.at n) ≤ s.dev.get (F.TMR_CNT_VAL.at n) → s.dev.io.tmrOut.length = 8 →
      (s.dev.get (F.TMR_CTL_MODE.at n) = 0 → Answers (.timerCompare n) s (fun t =>
        t.dev.bit (F.TMR_CTL_EN.at n) = false ∧ t.dev.io.tmrOut.getD n false = false)) ∧
      (s.dev.get (F.TMR_CTL_MODE.at n) = 1 → Answers (.timerCompare n) s (fun t =>
        t.dev.get (F.TMR_CNT_VAL.at n) = 0 ∧ t.dev.io.tmrOut.getD n false = !s.dev.io.tmrOut.getD n false))) ∧
    (s.dev.bit (F.TMR_CTL_EN.at n) = true → s.dev.get (F.TMR_CTL_MODE.at n) = 2 →
      (s.dev.get (F.TMR_CTL_CSEL.at n) ≠ 2 ∨ s.dev.get (F.IO_GP_CFG_FUNC.at n) = 1) → s.dev.io.caps.length = 8 →
      Answers (.timerCapture n) s (fun t => t.dev.get (F.TMR_CAP_VAL.at n) = s.dev.get (F.TMR_CNT_VAL.at n) ∧
        t.dev.io.caps.getD n 0 = s.dev.io.caps.getD n 0 + 1)) ∧
    (dueBy s.dev.io.strobe s.dev.t = true → Answers .frameStrobeEnd s (fun t => t.dev.io.strobe = none)) ∧
    (∀ v : Word, v.toNat % 16 ≤ 9 → v.toNat % 16 ≠ 5 → s.dev.get (F.IO_GP_CFG_FUNC.at n) ≠ 5 →
      s.dev.get (F.TMR_CTL_OWNER.at (v.toNat / 32 % 8)) = 0 → Answers (.gpCfgWrite n v) s (fun t =>
        t.dev.get (F.IO_GP_CFG_FUNC.at n) = v.toNat % 16 ∧ t.dev.bit (F.IO_GP_CFG_INV.at n) = v.getLsbD 4 ∧
        t.dev.get (F.IO_GP_CFG_TSEL.at n) = v.toNat / 32 % 8)) ∧
    (∀ v : Word, v.toNat % 16 = 5 → Answers (.gpCfgWrite n v) s (fun t => t.dev.bit F.IO_CONFLICT_VALID = true ∧
      t.dev.get (F.IO_GP_CFG_FUNC.at n) = s.dev.get (F.IO_GP_CFG_FUNC.at n)))

/-- Register accesses on the paths (R4, R22 to R25, R322): a 32-bit write sets a plain register, the low word of a pair is staged and the high
word applies it, a 64-bit write is one access, a read answers the register, a low-word read latches the high word. -/
def Obligations.RegisterAccessComplete : Prop :=
  ∀ (s : State) (v w : Word), s.dev.barOpen = true → s.dev.ready R.FPA_ACQ_SEL = true → s.dev.paths.length = 2 →
    (∀ f ∈ [F.FPA_ACQ_SEL_SET, F.PIPE_TRK_DT_LIM, F.PROOF_CC_TOL_TOL, F.WEB_SCALE_VAL, F.STAT_FLK_CTL_RGN_EN, F.STAND_HOLD_HOLD_MS,
        F.HEALTH_MP_WARN_H, F.AUX_WIN_EN_MAP, F.IO_GP_OUT_LEVEL],
      Answers (.registerWrite .bar0 f.reg v none) s (fun t => t.dev.get f = v.toNat / 2 ^ f.lo % 2 ^ f.w ∧ ∀ o, o ≠ f.reg → t.dev.reg o = s.dev.reg o) ∧
      Answers (.lowWordRead .bar0 f.reg false) s (fun t => t.dev.out = s.dev.out ++ [.readData .bar0 (s.dev.reg f.reg).toNat] ∧ t.mem = s.mem)) ∧
    (∀ f ∈ [F.FPA_ACQ_TIME_T_C, F.PROOF_SCHED_START_T, F.WEB_PRESET_W],
      Answers (.registerWrite .bar0 f.reg v none) s (fun t => assoc (t.dev.path 0).staged f.reg = some v ∧ ∀ o, t.dev.reg o = s.dev.reg o) ∧
      Answers (.highWordWrite .bar0 (f.reg + 4) w) s (fun t => assoc (t.dev.path 0).staged f.reg = none ∧
        t.dev.get f = ((assoc (s.dev.path 0).staged f.reg).getD (s.dev.reg f.reg)).toNat + 2 ^ 32 * w.toNat) ∧
      Answers (.registerWrite .bar0 f.reg v (some w)) s (fun t => t.dev.get f = v.toNat + 2 ^ 32 * w.toNat ∧
        (t.dev.path 0).staged = (s.dev.path 0).staged) ∧
      Answers (.lowWordRead .bar0 f.reg false) s (fun t => t.dev.out = s.dev.out ++ [.readData .bar0 (s.dev.reg f.reg).toNat] ∧
        assoc (t.dev.path 0).shadow f.reg = some (s.dev.reg (f.reg + 4))) ∧
      (∀ x, assoc (s.dev.path 0).shadow f.reg = some x → Answers (.lowWordRead .bar0 (f.reg + 4) false) s (fun t =>
        t.dev.out = s.dev.out ++ [.readData .bar0 x.toNat] ∧ assoc (t.dev.path 0).shadow f.reg = none)) ∧
      Answers (.lowWordRead .bar0 f.reg true) s (fun t => t.dev.out = s.dev.out ++ [.readData .bar0 (s.dev.get f)] ∧
        t.dev.paths = s.dev.paths))

/-- The management port and the test access port (R342 to R348, R355): a header opens a transaction or is refused, words are written and
fetched in order of address, the end counts the transaction and a fragment, and a test instruction connects its data register. -/
def Obligations.ManagementPortComplete : Prop :=
  ∀ (s : State), s.dev.bankB = true →
    (∀ (hdr : Word) mode3, Answers (.spiHeader hdr mode3) s (fun t => t.dev.bit F.SPI_STAT_MODE3 = mode3 ∧
      ∃ x, t.dev.io.spi = some x ∧ x.k = 0 ∧ x.addr = hdr.toNat % 2 ^ 20 ∧ x.bits = hdr.toNat / 2 ^ 23 % 32 + 1 ∧ x.write = (hdr.toNat / 2 ^ 28 == 1) ∧
        (x.bad = true ↔ ¬ ((hdr.toNat / 2 ^ 28 = 1 ∨ hdr.toNat / 2 ^ 28 = 2) ∧ 3 ≤ hdr.toNat / 2 ^ 23 % 32 ∧ hdr.toNat / 2 ^ 20 % 4 = 0 ∧
          hdr.toNat % 4 = 0)) ∧
        t.dev.get F.SPI_BADHDR_CNT = if x.bad then Nat.min (2 ^ F.SPI_BADHDR_CNT.w - 1) (s.dev.get F.SPI_BADHDR_CNT + 1)
          else s.dev.get F.SPI_BADHDR_CNT)) ∧
    (∀ x (v : Word), s.dev.io.spi = some x → x.bad = false → x.write = true → x.bits = 32 →
      ∀ f ∈ [F.FPA_ACQ_SEL_SET, F.WEB_SCALE_VAL, F.HEALTH_MP_WARN_H, F.IO_GP_OUT_LEVEL], x.addr + 4 * x.k = f.reg → s.dev.ready f.reg = true →
        Answers (.spiWriteWord v) s (fun t => t.dev.get f = v.toNat / 2 ^ f.lo % 2 ^ f.w ∧ t.dev.io.spi = some { x with k := x.k + 1 })) ∧
    (∀ x late, s.dev.io.spi = some x → x.bad = false → x.write = false →
      ∀ f ∈ [F.FPA_ACQ_SEL_SET, F.WEB_SCALE_VAL, F.HEALTH_MP_WARN_H, F.IO_GP_OUT_LEVEL], x.addr + 4 * x.k = f.reg → s.dev.ready f.reg = true →
        Answers (.spiReadFetch late) s (fun t => t.dev.io.spi = some { x with k := x.k + 1 } ∧ t.dev.out = s.dev.out ++
          [.spi ((s.dev.reg f.reg).toNat % 2 ^ x.bits) (if x.stat then 1 + 8 * (s.dev.bit F.SPI_STAT_FRAG).toNat else 0)])) ∧
    (∀ e unsent, Answers (.spiTransactionEnd e unsent) s (fun t => t.dev.io.spi = none ∧
      t.dev.get F.SPI_TXN_CNT = Nat.min (2 ^ F.SPI_TXN_CNT.w - 1) (s.dev.get F.SPI_TXN_CNT + 1) ∧
      (e = .inHeader → t.dev.bit F.SPI_STAT_FRAG = true ∧
        t.dev.get F.SPI_FRAG_CNT = Nat.min (2 ^ F.SPI_FRAG_CNT.w - 1) (s.dev.get F.SPI_FRAG_CNT + 1)) ∧
      (e = .complete ∨ e = .inTurnaround → t.dev.get F.SPI_FRAG_CNT = s.dev.get F.SPI_FRAG_CNT))) ∧
    (∀ code n, tapReg (s.dev.bit F.SEC_STAT_PROVISIONED) code = some n → Answers (.jtagInstruction code) s (fun t =>
      t.dev.out = s.dev.out ++ [.tap n] ∧ t.mem = s.mem))

/-- A step takes the command at the front of the queue and runs it on the state that keeps the others waiting. -/
def Obligations.StepRunsTheFrontCommand : Prop :=
  ∀ (i : Instr) (is : List Instr) (s : State), s.pending = i :: is → step s = exec i { s with pending := is }

/-- With no command waiting a step is one tick of the timebase, the model's own choice (log 1): memories and queue stay, nothing happens
while power-on reset is held, and an undisciplined timebase goes on by one, under RESET_N as well (R14, R15). -/
def Obligations.AnEmptyQueueIsOneTick : Prop :=
  ∀ s : State, s.pending = [] → ∃ t, step s = .next t ∧ t.mem = s.mem ∧ t.pending = [] ∧
    (s.dev.pwr.por = true → t.dev = s.dev) ∧
    (s.dev.pwr.por = false → s.dev.link.slew = 0 → s.dev.link.slewAcc = 0 → s.dev.link.rateAcc = 0 → s.dev.get F.LINK_TS_RATE_VAL = 0 →
      t.dev.now = s.dev.now + 1)

/-- What power-on reset leaves (R14, R320, R322): the timebase at zero, start-up at step 1, nothing pending, canonical memories, and the
reset values the register tables give, some of every block. -/
def Obligations.ResetState : Prop :=
  State.reset.Canonical ∧ State.reset.pending = [] ∧ State.reset.dev.t = 0 ∧
  State.reset.dev.get F.SYS_START_STEP = 1 ∧ State.reset.dev.get F.SYS_ID_STEP = 0x10 ∧ State.reset.dev.get F.SYS_ID_PART = 0x2520 ∧
  State.reset.dev.bit F.FPA_CTL_RUN = false ∧ State.reset.dev.get F.PIPE_TRK_DT_LIM = 5000 ∧ State.reset.dev.get F.PROOF_SCHED_DUE_MIN = 10 ∧
  State.reset.dev.get F.PROOF_SCHED_FORCE_MIN = 60 ∧ State.reset.dev.get F.WEB_SCALE_VAL = 0x10000 ∧
  State.reset.dev.get F.STAND_HOLD_HOLD_MS = 1000 ∧ State.reset.dev.get F.HEALTH_MP_WARN_H = 8760 ∧
  State.reset.dev.get F.AUX_WIN_EN_MAP = 0x50F ∧ State.reset.dev.get F.IO_GP_OUT_LEVEL = 0 ∧
  ∀ n < 16, State.reset.dev.ringState n = 0

/-- Every step that answers a next state keeps the three memories in their canonical form. -/
def Obligations.EveryStepKeepsMemoriesCanonical : Prop :=
  ∀ s t : State, s.Canonical → step s = .next t → t.Canonical

/-- A command leaves the commands that wait alone. -/
def Obligations.ExecLeavesTheQueue : Prop :=
  ∀ (i : Instr) (s t : State), exec i s = .next t → t.pending = s.pending

/-- An offset of a block that no chapter assigns reads 0 and ignores writes, on BAR0 and on the management port (R28). -/
def Obligations.UnassignedOffsetsReadZero : Prop :=
  ∀ (s : State) (off : Nat) (v : Word), off < 0x3C000 → off % 4 = 0 → findReg off = none →
    (s.dev.barOpen = true →
      Answers (.lowWordRead .bar0 off false) s (fun t => t = s.onDev (fun d => d.emit (.readData .bar0 0))) ∧
      Answers (.registerWrite .bar0 off v none) s (fun t => t = s)) ∧
    (s.dev.ready off = true →
      Answers (.lowWordRead .mgmt off false) s (fun t => t = s.onDev (fun d => d.emit (.readData .mgmt 0))) ∧
      Answers (.registerWrite .mgmt off v none) s (fun t => t = s))

/-- Only power-on reset zeroes the timebase (R14, R15): its rows leave 0, RESET_N and SYS_RST KIND 2 leave the timebase as it is, and so does every
row whose frame does not name it, domain switching among them; a discipline source either leaves it, to slew, or steps it forward. -/
def Obligations.TimebaseKept : Prop :=
  ∀ (i : Instr) (s t : State), exec i s = .next t →
    ((∃ a b, i = .powerOnResetRelease a b) ∨ i = .brownout → t.dev.t = 0) ∧
    ((∃ a b c, i = .resetN a b c) ∨ i = .sysRstWarm → t.dev.now = s.dev.now) ∧
    (∀ x, touched i = some x → .now ∉ x.parts → t.dev.now = s.dev.now) ∧
    ((∃ a b c, i = .timeReceive a b c) ∨ (∃ a b c, i = .ptmDialog a b c) ∨ i = .timeInEdge →
      t.dev.now = s.dev.now ∨ ∃ n, 1000 ≤ n ∧ t.dev.now = s.dev.now + BitVec.ofNat 64 n ∧ t.dev.bit F.LINK_TS_STAT_STEPPED = true)

/-- Who can change a memory: every byte of flash reads as before but after a background write's end, a reset or an access that can reset;
every byte of the Keep but after a page write or the replay at start-up; every byte of QDR but after the rows that write tables,
staged data or corrected words. -/
def Obligations.MemoriesChangeOnlyByTheirWriters : Prop :=
  ∀ (i : Instr) (s t : State), exec i s = .next t →
    (writesFlash i = false → NamesNoOther i s → ∀ a, t.mem.flash.rd flashDef a = s.mem.flash.rd flashDef a) ∧
    (writesKeep i = false → ∀ a, t.mem.keep.rd keepDef a = s.mem.keep.rd keepDef a) ∧
    (writesQdr i = false → NamesNoOther i s → ∀ a, t.mem.qdr.rd qdrDef a = s.mem.qdr.rd qdrDef a)

/-- What the writers of the memories leave alone (R75 to R77, R261, R272, R273, R276 to R278, R282): every byte outside the SHADOW plate, the
plate's slot, the staging table, the corrected or reloaded word, the area of the background write. -/
def Obligations.MemoryWritersKeepToTheirBytes : Prop :=
  ∀ (s t : State) (k a : Nat),
    (exec (.plateWrite k) s = .next t → NamesNoOther (.plateWrite k) s → ∀ r, r = s.dev.get F.PIPE_PL_STAT_SHADOW_REG →
      (a < hdrAddr r ∨ hdrAddr r + 0x10000 ≤ a) → (a < entAddr r ∨ entAddr r + 0x02800000 ≤ a) →
      t.mem.qdr.rd qdrDef a = s.mem.qdr.rd qdrDef a) ∧
    (exec (.plateCommit k) s = .next t → NamesNoOther (.plateCommit k) s → ∀ r, r = s.dev.get F.PIPE_PL_STAT_SHADOW_REG →
      (a < hdrAddr r + 3 ∨ hdrAddr r + 8 ≤ a) → t.mem.qdr.rd qdrDef a = s.mem.qdr.rd qdrDef a) ∧
    (exec (.factoryPlateRestore k) s = .next t → NamesNoOther (.factoryPlateRestore k) s →
      (∀ r, r = s.dev.get F.PIPE_PL_STAT_SHADOW_REG ∨ r = s.dev.get F.PIPE_PL_STAT_STANDBY_REG →
        (a < hdrAddr r ∨ hdrAddr r + 0x10000 ≤ a) ∧ (a < entAddr r ∨ entAddr r + 0x02800000 ≤ a)) →
      t.mem.qdr.rd qdrDef a = s.mem.qdr.rd qdrDef a) ∧
    (∀ i, i = .logRead k ∨ (∃ errs, i = .keepRead k errs) ∨ i = .flashRead k ∨ i = .standQuery k → exec i s = .next t → NamesNoOther i s → a < 0x0E700000 →
      t.mem.qdr.rd qdrDef a = s.mem.qdr.rd qdrDef a) ∧
    (∀ w code newer, exec (.scrubForcedCycle ⟨w, code, newer⟩) s = .next t → (a < 32 * w ∨ 32 * w + 32 ≤ a) → t.mem.qdr.rd qdrDef a = s.mem.qdr.rd qdrDef a) ∧
    (∀ w, exec (.tableWordReload w) s = .next t → (a < 32 * w ∨ 32 * w + 32 ≤ a) → t.mem.qdr.rd qdrDef a = s.mem.qdr.rd qdrDef a) ∧
    (∀ ok range region inst n, exec (.platePersistDone ok) s = .next t →
      s.dev.store.flashQ.find? FlashJob.isPlate = some ⟨.plate range region inst, n⟩ →
      (a < plateFlash inst ∨ plateFlash inst + plateBytes + 0x10000 ≤ a) → t.mem.flash.rd flashDef a = s.mem.flash.rd flashDef a) ∧
    (∀ ok j, exec (.flashWriteDone ok) s = .next t → s.dev.store.flashQ.find? (fun j => !j.isPlate) = some j →
      (a < (j.what.area s.dev).1 ∨ (j.what.area s.dev).1 + (j.what.area s.dev).2 ≤ a) → t.mem.flash.rd flashDef a = s.mem.flash.rd flashDef a)

/-- Frame of the readout, the pipeline and the rows of chapters 1 to 3: only the registers and parts named for the command differ. -/
def Obligations.FrameOfReadoutAndPlates : Prop :=
  ∀ (i : Instr) (x : Touch) (s t : State), chapterOf i < 4 → touched i = some x → NamesNoOther i s → exec i s = .next t → OnlyTouched x s.dev t.dev

/-- Frame of radiometry, proofs and glades (chapters 4 and 5). -/
def Obligations.FrameOfProofsAndGlades : Prop :=
  ∀ (i : Instr) (x : Touch) (s t : State), chapterOf i = 4 ∨ chapterOf i = 5 → touched i = some x → NamesNoOther i s → exec i s = .next t →
    OnlyTouched x s.dev t.dev

/-- Frame of the web, the strip, its statistics and alarms (chapter 6). -/
def Obligations.FrameOfWebAndStrip : Prop :=
  ∀ (i : Instr) (x : Touch) (s t : State), chapterOf i = 6 → touched i = some x → NamesNoOther i s → exec i s = .next t → OnlyTouched x s.dev t.dev

/-- Frame of the Jartan link and the stand (chapters 7 and 8). -/
def Obligations.FrameOfLinkAndStand : Prop :=
  ∀ (i : Instr) (x : Touch) (s t : State), chapterOf i = 7 ∨ chapterOf i = 8 → touched i = some x → NamesNoOther i s → exec i s = .next t →
    OnlyTouched x s.dev t.dev

/-- Frame of the host interface, commands, authentication, memories and storage (chapters 9 to 11). -/
def Obligations.FrameOfHostCommandsAndStorage : Prop :=
  ∀ (i : Instr) (x : Touch) (s t : State), 9 ≤ chapterOf i ∧ chapterOf i ≤ 11 → touched i = some x → NamesNoOther i s → exec i s = .next t →
    OnlyTouched x s.dev t.dev

/-- Frame of health, power, clocks, the converter, the management port and the pins (chapters 12 to 15). -/
def Obligations.FrameOfHealthPowerAndIo : Prop :=
  ∀ (i : Instr) (x : Touch) (s t : State), 12 ≤ chapterOf i → touched i = some x → NamesNoOther i s → exec i s = .next t → OnlyTouched x s.dev t.dev

/-- Frame of a host command whatever slots it names: it may become a group command (R218). -/
def Obligations.FrameOfGroupCommands : Prop :=
  ∀ (i : Instr) (s t : State), (hostOp i).isSome = true → exec i s = .next t → OnlyTouched groupTouch s.dev t.dev

/-- A commit takes effect at the first boundary at or after T_eff (R46, R48): there its set governs, its generation is the current one, and
nothing is pending but a commit accepted since it fell due; at an earlier boundary the set in force and the pending commit stay. -/
def Obligations.CommitTakesEffectAtItsBoundary : Prop :=
  ∀ (s : State) (b : Nat) (c : Commit), s.dev.boundaryDue = some b → s.dev.fpa.readoutStop = false → s.dev.fpa.clockStop = false →
    s.dev.fpa.pend = some c →
    (c.teff ≤ b → Answers .frameBoundary s (fun t => t.dev.fpa.set = c.set ∧ t.dev.fpa.pend = s.dev.fpa.pendNext ∧
      t.dev.get F.FPA_GEN_CUR_GEN = c.gen % 2 ^ 32 ∧
      (s.dev.fpa.pendNext = none → t.dev.get F.FPA_GEN_PEND_GEN = 0 ∧ t.dev.get F.FPA_ACQ_BND_BND = 0))) ∧
    (b < c.teff → Answers .frameBoundary s (fun t => t.dev.fpa.set = s.dev.fpa.set ∧ t.dev.fpa.pend = some c ∧
      t.dev.get F.FPA_GEN_CUR_GEN = s.dev.get F.FPA_GEN_CUR_GEN ∧ t.dev.get F.FPA_GEN_PEND_GEN = c.gen % 2 ^ 32))

/-- Where a command stops (R3, R230, R275, R355): a factory instruction of the test access port before provisioning is refused, an access outside a
path's address space faults, and nothing else does so for these rows. -/
def Obligations.StopsHaveTheirNames : Prop :=
  ∀ (s : State) (off : Nat) (v : Word) (w : Option Word) (code : Option (List Byte)) (c : Nat),
    (s.dev.bit F.SEC_STAT_PROVISIONED = false → exec (.jtagInstruction (.factory c)) s = .refused (.factoryInstruction c)) ∧
    (s.dev.bit F.SEC_STAT_PROVISIONED = true → exec (.jtagInstruction (.factory c)) s = exec (.jtagInstruction .bypass) s) ∧
    (0xFFFFF < off → exec (.registerWrite .bar0 off v w) s = .fault (.noAddress off) ∧ exec (.registerWrite .mgmt off v w) s = .fault (.noAddress off) ∧
      exec (.highWordWrite .bar0 off v) s = .fault (.noAddress off) ∧ exec (.lowWordRead .bar0 off w.isSome) s = .fault (.noAddress off) ∧
      exec (.lowWordRead .mgmt off w.isSome) s = .fault (.noAddress off)) ∧
    (0xFFFF < off → exec (.registerWrite .bar2 off v w) s = .fault (.noAddress off) ∧ exec (.lowWordRead .bar2 off w.isSome) s = .fault (.noAddress off)) ∧
    (0x80000 ≤ off → exec (.tableWindowRead .bar0 off code) s = .fault (.noAddress off) ∧ exec (.tableWindowWrite .mgmt off v) s = .fault (.noAddress off)) ∧
    exec (.tableWindowRead .bar2 off code) s = .fault (.noAddress off) ∧ exec (.tableWindowWrite .bar2 off v) s = .fault (.noAddress off) ∧
    exec (.twSelWrite .bar2 v) s = .fault (.noAddress 0x28010)

end Slice0Statements
end

