-- ==== Sys2Proof/Laws/Tab.lean ====
section
/-! SUPPORT. What the operations on sparse tables and byte memories do to one key, and that each keeps the canonical form. -/

namespace Sys2Proof.Machine

variable {α : Type}

@[simp] theorem Tab.get_nil (z : α) (k : Nat) : Tab.get z ([] : Tab α) k = z := rfl

theorem Tab.get_del (z : α) (t : Tab α) (k j : Nat) : Tab.get z (Tab.del t k) j = if j = k then z else Tab.get z t j := by
  induction t with
  | nil => simp [Tab.del]
  | cons p t ih =>
    obtain ⟨a, v⟩ := p
    by_cases h : a = k
    · subst h
      by_cases hj : j = a
      · subst hj; simpa [Tab.del] using ih
      · simp [Tab.del, ih, hj, Tab.get, Ne.symm hj]
    · by_cases hj : j = k
      · subst hj; simp [Tab.del, h, Tab.get, ih]
      · simp [Tab.del, h, Tab.get, ih, hj]

theorem Tab.get_ins (z : α) (t : Tab α) (k : Nat) (x : α) (j : Nat) :
    Tab.get z (Tab.ins t k x) j = if j = k then x else Tab.get z t j := by
  induction t with
  | nil => simp only [Tab.ins, Tab.get, eq_comm]
  | cons p t ih =>
    obtain ⟨a, v⟩ := p
    by_cases hj : j = k
    · subst hj
      simp only [Tab.ins, if_true]
      split
      · simp [Tab.get]
      · split
        · simp [Tab.get]
        · rename_i h; simp [Tab.get, h, ih]
    · have hk : ¬ k = j := fun h => hj h.symm
      simp only [Tab.ins, if_neg hj]
      split
      · simp [Tab.get, hk]
      · split
        · rename_i h; simp [Tab.get, hk, h]
        · simp [Tab.get, ih, hj]

/-- A write to one key is read back there and changes no other key. -/
theorem Tab.get_set [DecidableEq α] (z : α) (t : Tab α) (k : Nat) (x : α) (j : Nat) :
    Tab.get z (Tab.set z t k x) j = if j = k then x else Tab.get z t j := by
  unfold Tab.set
  split
  · rename_i h; rw [Tab.get_del]; simp [h]
  · exact Tab.get_ins z t k x j

@[simp] theorem Tab.get_set_same [DecidableEq α] (z : α) (t : Tab α) (k : Nat) (x : α) : Tab.get z (Tab.set z t k x) k = x := by
  simp [Tab.get_set]

theorem Tab.get_set_ne [DecidableEq α] (z : α) (t : Tab α) {k j : Nat} (x : α) (h : j ≠ k) :
    Tab.get z (Tab.set z t k x) j = Tab.get z t j := by
  simp [Tab.get_set, h]

/-! ### The canonical form -/

theorem Tab.wfFrom_le [DecidableEq α] (z : α) {lo lo' : Nat} (h : lo ≤ lo') :
    ∀ {t : Tab α}, Tab.wfFrom z lo' t = true → Tab.wfFrom z lo t = true
  | [], _ => rfl
  | (a, v) :: t, hw => by
    simp only [Tab.wfFrom, Bool.and_eq_true, decide_eq_true_eq] at hw ⊢
    exact ⟨⟨by omega, hw.1.2⟩, hw.2⟩

theorem Tab.wfFrom_del [DecidableEq α] (z : α) (k : Nat) :
    ∀ {lo : Nat} {t : Tab α}, Tab.wfFrom z lo t = true → Tab.wfFrom z lo (Tab.del t k) = true
  | _, [], _ => rfl
  | lo, (a, v) :: t, hw => by
    simp only [Tab.wfFrom, Bool.and_eq_true, decide_eq_true_eq] at hw
    simp only [Tab.del]
    split
    · exact Tab.wfFrom_le z (by omega) (Tab.wfFrom_del z k hw.2)
    · simp only [Tab.wfFrom, Bool.and_eq_true, decide_eq_true_eq]
      exact ⟨hw.1, Tab.wfFrom_del z k hw.2⟩

theorem Tab.wfFrom_ins [DecidableEq α] (z : α) {k : Nat} {x : α} (hx : x ≠ z) :
    ∀ {lo : Nat} {t : Tab α}, lo ≤ k → Tab.wfFrom z lo t = true → Tab.wfFrom z lo (Tab.ins t k x) = true
  | lo, [], hk, _ => by simp [Tab.ins, Tab.wfFrom, hk, hx]
  | lo, (a, v) :: t, hk, hw => by
    simp only [Tab.wfFrom, Bool.and_eq_true, decide_eq_true_eq] at hw
    simp only [Tab.ins]
    split
    · simp only [Tab.wfFrom, Bool.and_eq_true, decide_eq_true_eq]
      exact ⟨⟨hk, hx⟩, ⟨by omega, hw.1.2⟩, hw.2⟩
    · split
      · rename_i h; subst h
        simp only [Tab.wfFrom, Bool.and_eq_true, decide_eq_true_eq]
        exact ⟨⟨hk, hx⟩, hw.2⟩
      · simp only [Tab.wfFrom, Bool.and_eq_true, decide_eq_true_eq]
        exact ⟨hw.1, Tab.wfFrom_ins z hx (by omega) hw.2⟩

theorem Tab.wf_set [DecidableEq α] (z : α) {t : Tab α} (k : Nat) (x : α) (h : Tab.wf z t = true) :
    Tab.wf z (Tab.set z t k x) = true := by
  unfold Tab.set Tab.wf at *
  split
  · exact Tab.wfFrom_del z k h
  · rename_i hx; exact Tab.wfFrom_ins z hx (Nat.zero_le _) h

theorem Tab.wfFrom_filter [DecidableEq α] (z : α) (p : Nat × α → Bool) :
    ∀ {lo : Nat} {t : Tab α}, Tab.wfFrom z lo t = true → Tab.wfFrom z lo (t.filter p) = true
  | _, [], _ => rfl
  | lo, (a, v) :: t, hw => by
    simp only [Tab.wfFrom, Bool.and_eq_true, decide_eq_true_eq] at hw
    have ih := Tab.wfFrom_filter z p hw.2
    simp only [List.filter]
    split
    · simp only [Tab.wfFrom, Bool.and_eq_true, decide_eq_true_eq]
      exact ⟨hw.1, ih⟩
    · exact Tab.wfFrom_le z (by omega) ih

/-! ### Byte memories -/

theorem Mem.rd_wr (z : Byte) (m : Mem) (a : Nat) (b : Byte) (j : Nat) :
    (m.wr z a b).rd z j = if j = a then b else m.rd z j := Tab.get_set z m a b j

theorem Mem.wf_wr (z : Byte) {m : Mem} (a : Nat) (b : Byte) (h : m.wf z = true) : (m.wr z a b).wf z = true :=
  Tab.wf_set z a b h

theorem Mem.wf_wrN (z : Byte) : ∀ (bs : List Byte) {m : Mem} (a : Nat), m.wf z = true → (m.wrN z a bs).wf z = true
  | [], _, _, h => h
  | b :: bs, _, a, h => Mem.wf_wrN z bs (a + 1) (Mem.wf_wr z a b h)

/-- A run of bytes written leaves every other address as it was. -/
theorem Mem.rd_wrN_out (z : Byte) : ∀ (bs : List Byte) (m : Mem) (a j : Nat), (j < a ∨ a + bs.length ≤ j) →
    (m.wrN z a bs).rd z j = m.rd z j
  | [], _, _, _, _ => rfl
  | b :: bs, m, a, j, h => by
    simp only [List.length_cons] at h
    simp only [Mem.wrN]
    rw [Mem.rd_wrN_out z bs _ _ _ (by omega), Mem.rd_wr, if_neg (by omega)]

/-- A run of bytes written is read back. -/
theorem Mem.rd_wrN_in (z : Byte) : ∀ (bs : List Byte) (m : Mem) (a i : Nat), i < bs.length →
    (m.wrN z a bs).rd z (a + i) = bs.getD i 0
  | [], _, _, _, h => absurd h (by simp)
  | b :: bs, m, a, 0, _ => by
    simp only [Mem.wrN]
    rw [Mem.rd_wrN_out z bs _ _ _ (by omega), Mem.rd_wr]; simp
  | b :: bs, m, a, i + 1, h => by
    simp only [Mem.wrN]
    have := Mem.rd_wrN_in z bs (m.wr z a b) (a + 1) i (by simpa using h)
    rw [show a + (i + 1) = a + 1 + i from by omega, this]; simp

theorem Mem.wf_clear (z : Byte) {m : Mem} (a n : Nat) (h : m.wf z = true) : (m.clear a n).wf z = true :=
  Tab.wfFrom_filter z _ h

theorem Mem.wf_copy (y z : Byte) (src : Mem) (a n : Nat) {dst : Mem} (b : Nat) (h : dst.wf z = true) :
    (Mem.copy y z src a n dst b).wf z = true := by
  have hf : ∀ (cs : List Host.Cell) (m : Mem), m.wf z = true →
      (cs.foldl (fun (m : Mem) c => m.wr z (b + (c.1 - a)) c.2) m).wf z = true := by
    intro cs
    induction cs with
    | nil => exact fun m h => h
    | cons c cs ih => exact fun m h => ih _ (Mem.wf_wr z _ _ h)
  unfold Mem.copy
  split
  · exact hf _ _ (Mem.wf_clear z b n h)
  · exact Mem.wf_wrN z _ _ h

end Sys2Proof.Machine
end

