-- ==== Sys2Proof/Laws/State.lean ====
section
/-! SUPPORT. One lemma per field per update of the block's state, and what a field of a register reads after a field is
written. -/

namespace Sys2Proof.Machine

/-! ### The halves of the state -/

@[simp] theorem State.onDev_dev (s : State) (f : Dev → Dev) : (s.onDev f).dev = f s.dev := rfl
@[simp] theorem State.onDev_mem (s : State) (f : Dev → Dev) : (s.onDev f).mem = s.mem := rfl
@[simp] theorem State.onDev_pending (s : State) (f : Dev → Dev) : (s.onDev f).pending = s.pending := rfl

/-! ### Changing one part -/

@[simp] theorem Dev.onHost_now (d : Dev) (f : HostSt → HostSt) : (d.onHost f).now = d.now := rfl
@[simp] theorem Dev.onHost_regs (d : Dev) (f : HostSt → HostSt) : (d.onHost f).regs = d.regs := rfl
@[simp] theorem Dev.onHost_out (d : Dev) (f : HostSt → HostSt) : (d.onHost f).out = d.out := rfl
@[simp] theorem Dev.onHost_freeIdx (d : Dev) (f : HostSt → HostSt) : (d.onHost f).freeIdx = d.freeIdx := rfl
@[simp] theorem Dev.onHost_ties (d : Dev) (f : HostSt → HostSt) : (d.onHost f).ties = d.ties := rfl
@[simp] theorem Dev.onHost_paths (d : Dev) (f : HostSt → HostSt) : (d.onHost f).paths = d.paths := rfl
@[simp] theorem Dev.onHost_host (d : Dev) (f : HostSt → HostSt) : (d.onHost f).host = f d.host := rfl
@[simp] theorem Dev.onHost_sec (d : Dev) (f : HostSt → HostSt) : (d.onHost f).sec = d.sec := rfl
@[simp] theorem Dev.onHost_store (d : Dev) (f : HostSt → HostSt) : (d.onHost f).store = d.store := rfl
@[simp] theorem Dev.onHost_health (d : Dev) (f : HostSt → HostSt) : (d.onHost f).health = d.health := rfl
@[simp] theorem Dev.onHost_fpa (d : Dev) (f : HostSt → HostSt) : (d.onHost f).fpa = d.fpa := rfl
@[simp] theorem Dev.onHost_stage (d : Dev) (f : HostSt → HostSt) : (d.onHost f).stage = d.stage := rfl
@[simp] theorem Dev.onHost_aux (d : Dev) (f : HostSt → HostSt) : (d.onHost f).aux = d.aux := rfl
@[simp] theorem Dev.onHost_pipe (d : Dev) (f : HostSt → HostSt) : (d.onHost f).pipe = d.pipe := rfl
@[simp] theorem Dev.onHost_pwr (d : Dev) (f : HostSt → HostSt) : (d.onHost f).pwr = d.pwr := rfl
@[simp] theorem Dev.onHost_burin (d : Dev) (f : HostSt → HostSt) : (d.onHost f).burin = d.burin := rfl
@[simp] theorem Dev.onHost_web (d : Dev) (f : HostSt → HostSt) : (d.onHost f).web = d.web := rfl
@[simp] theorem Dev.onHost_stat (d : Dev) (f : HostSt → HostSt) : (d.onHost f).stat = d.stat := rfl
@[simp] theorem Dev.onHost_alarm (d : Dev) (f : HostSt → HostSt) : (d.onHost f).alarm = d.alarm := rfl
@[simp] theorem Dev.onHost_proof (d : Dev) (f : HostSt → HostSt) : (d.onHost f).proof = d.proof := rfl
@[simp] theorem Dev.onHost_glade (d : Dev) (f : HostSt → HostSt) : (d.onHost f).glade = d.glade := rfl
@[simp] theorem Dev.onHost_cc (d : Dev) (f : HostSt → HostSt) : (d.onHost f).cc = d.cc := rfl
@[simp] theorem Dev.onHost_link (d : Dev) (f : HostSt → HostSt) : (d.onHost f).link = d.link := rfl
@[simp] theorem Dev.onHost_stand (d : Dev) (f : HostSt → HostSt) : (d.onHost f).stand = d.stand := rfl
@[simp] theorem Dev.onHost_saved (d : Dev) (f : HostSt → HostSt) : (d.onHost f).saved = d.saved := rfl
@[simp] theorem Dev.onHost_io (d : Dev) (f : HostSt → HostSt) : (d.onHost f).io = d.io := rfl
@[simp] theorem Dev.onHost_reg (d : Dev) (f : HostSt → HostSt) (o : Nat) : (d.onHost f).reg o = d.reg o := rfl
@[simp] theorem Dev.onHost_get (d : Dev) (f : HostSt → HostSt) (g : Fld) : (d.onHost f).get g = d.get g := rfl
@[simp] theorem Dev.onHost_bit (d : Dev) (f : HostSt → HostSt) (g : Fld) : (d.onHost f).bit g = d.bit g := rfl

@[simp] theorem Dev.onSec_now (d : Dev) (f : SecSt → SecSt) : (d.onSec f).now = d.now := rfl
@[simp] theorem Dev.onSec_regs (d : Dev) (f : SecSt → SecSt) : (d.onSec f).regs = d.regs := rfl
@[simp] theorem Dev.onSec_out (d : Dev) (f : SecSt → SecSt) : (d.onSec f).out = d.out := rfl
@[simp] theorem Dev.onSec_freeIdx (d : Dev) (f : SecSt → SecSt) : (d.onSec f).freeIdx = d.freeIdx := rfl
@[simp] theorem Dev.onSec_ties (d : Dev) (f : SecSt → SecSt) : (d.onSec f).ties = d.ties := rfl
@[simp] theorem Dev.onSec_paths (d : Dev) (f : SecSt → SecSt) : (d.onSec f).paths = d.paths := rfl
@[simp] theorem Dev.onSec_host (d : Dev) (f : SecSt → SecSt) : (d.onSec f).host = d.host := rfl
@[simp] theorem Dev.onSec_sec (d : Dev) (f : SecSt → SecSt) : (d.onSec f).sec = f d.sec := rfl
@[simp] theorem Dev.onSec_store (d : Dev) (f : SecSt → SecSt) : (d.onSec f).store = d.store := rfl
@[simp] theorem Dev.onSec_health (d : Dev) (f : SecSt → SecSt) : (d.onSec f).health = d.health := rfl
@[simp] theorem Dev.onSec_fpa (d : Dev) (f : SecSt → SecSt) : (d.onSec f).fpa = d.fpa := rfl
@[simp] theorem Dev.onSec_stage (d : Dev) (f : SecSt → SecSt) : (d.onSec f).stage = d.stage := rfl
@[simp] theorem Dev.onSec_aux (d : Dev) (f : SecSt → SecSt) : (d.onSec f).aux = d.aux := rfl
@[simp] theorem Dev.onSec_pipe (d : Dev) (f : SecSt → SecSt) : (d.onSec f).pipe = d.pipe := rfl
@[simp] theorem Dev.onSec_pwr (d : Dev) (f : SecSt → SecSt) : (d.onSec f).pwr = d.pwr := rfl
@[simp] theorem Dev.onSec_burin (d : Dev) (f : SecSt → SecSt) : (d.onSec f).burin = d.burin := rfl
@[simp] theorem Dev.onSec_web (d : Dev) (f : SecSt → SecSt) : (d.onSec f).web = d.web := rfl
@[simp] theorem Dev.onSec_stat (d : Dev) (f : SecSt → SecSt) : (d.onSec f).stat = d.stat := rfl
@[simp] theorem Dev.onSec_alarm (d : Dev) (f : SecSt → SecSt) : (d.onSec f).alarm = d.alarm := rfl
@[simp] theorem Dev.onSec_proof (d : Dev) (f : SecSt → SecSt) : (d.onSec f).proof = d.proof := rfl
@[simp] theorem Dev.onSec_glade (d : Dev) (f : SecSt → SecSt) : (d.onSec f).glade = d.glade := rfl
@[simp] theorem Dev.onSec_cc (d : Dev) (f : SecSt → SecSt) : (d.onSec f).cc = d.cc := rfl
@[simp] theorem Dev.onSec_link (d : Dev) (f : SecSt → SecSt) : (d.onSec f).link = d.link := rfl
@[simp] theorem Dev.onSec_stand (d : Dev) (f : SecSt → SecSt) : (d.onSec f).stand = d.stand := rfl
@[simp] theorem Dev.onSec_saved (d : Dev) (f : SecSt → SecSt) : (d.onSec f).saved = d.saved := rfl
@[simp] theorem Dev.onSec_io (d : Dev) (f : SecSt → SecSt) : (d.onSec f).io = d.io := rfl
@[simp] theorem Dev.onSec_reg (d : Dev) (f : SecSt → SecSt) (o : Nat) : (d.onSec f).reg o = d.reg o := rfl
@[simp] theorem Dev.onSec_get (d : Dev) (f : SecSt → SecSt) (g : Fld) : (d.onSec f).get g = d.get g := rfl
@[simp] theorem Dev.onSec_bit (d : Dev) (f : SecSt → SecSt) (g : Fld) : (d.onSec f).bit g = d.bit g := rfl

@[simp] theorem Dev.onStore_now (d : Dev) (f : StoreSt → StoreSt) : (d.onStore f).now = d.now := rfl
@[simp] theorem Dev.onStore_regs (d : Dev) (f : StoreSt → StoreSt) : (d.onStore f).regs = d.regs := rfl
@[simp] theorem Dev.onStore_out (d : Dev) (f : StoreSt → StoreSt) : (d.onStore f).out = d.out := rfl
@[simp] theorem Dev.onStore_freeIdx (d : Dev) (f : StoreSt → StoreSt) : (d.onStore f).freeIdx = d.freeIdx := rfl
@[simp] theorem Dev.onStore_ties (d : Dev) (f : StoreSt → StoreSt) : (d.onStore f).ties = d.ties := rfl
@[simp] theorem Dev.onStore_paths (d : Dev) (f : StoreSt → StoreSt) : (d.onStore f).paths = d.paths := rfl
@[simp] theorem Dev.onStore_host (d : Dev) (f : StoreSt → StoreSt) : (d.onStore f).host = d.host := rfl
@[simp] theorem Dev.onStore_sec (d : Dev) (f : StoreSt → StoreSt) : (d.onStore f).sec = d.sec := rfl
@[simp] theorem Dev.onStore_store (d : Dev) (f : StoreSt → StoreSt) : (d.onStore f).store = f d.store := rfl
@[simp] theorem Dev.onStore_health (d : Dev) (f : StoreSt → StoreSt) : (d.onStore f).health = d.health := rfl
@[simp] theorem Dev.onStore_fpa (d : Dev) (f : StoreSt → StoreSt) : (d.onStore f).fpa = d.fpa := rfl
@[simp] theorem Dev.onStore_stage (d : Dev) (f : StoreSt → StoreSt) : (d.onStore f).stage = d.stage := rfl
@[simp] theorem Dev.onStore_aux (d : Dev) (f : StoreSt → StoreSt) : (d.onStore f).aux = d.aux := rfl
@[simp] theorem Dev.onStore_pipe (d : Dev) (f : StoreSt → StoreSt) : (d.onStore f).pipe = d.pipe := rfl
@[simp] theorem Dev.onStore_pwr (d : Dev) (f : StoreSt → StoreSt) : (d.onStore f).pwr = d.pwr := rfl
@[simp] theorem Dev.onStore_burin (d : Dev) (f : StoreSt → StoreSt) : (d.onStore f).burin = d.burin := rfl
@[simp] theorem Dev.onStore_web (d : Dev) (f : StoreSt → StoreSt) : (d.onStore f).web = d.web := rfl
@[simp] theorem Dev.onStore_stat (d : Dev) (f : StoreSt → StoreSt) : (d.onStore f).stat = d.stat := rfl
@[simp] theorem Dev.onStore_alarm (d : Dev) (f : StoreSt → StoreSt) : (d.onStore f).alarm = d.alarm := rfl
@[simp] theorem Dev.onStore_proof (d : Dev) (f : StoreSt → StoreSt) : (d.onStore f).proof = d.proof := rfl
@[simp] theorem Dev.onStore_glade (d : Dev) (f : StoreSt → StoreSt) : (d.onStore f).glade = d.glade := rfl
@[simp] theorem Dev.onStore_cc (d : Dev) (f : StoreSt → StoreSt) : (d.onStore f).cc = d.cc := rfl
@[simp] theorem Dev.onStore_link (d : Dev) (f : StoreSt → StoreSt) : (d.onStore f).link = d.link := rfl
@[simp] theorem Dev.onStore_stand (d : Dev) (f : StoreSt → StoreSt) : (d.onStore f).stand = d.stand := rfl
@[simp] theorem Dev.onStore_saved (d : Dev) (f : StoreSt → StoreSt) : (d.onStore f).saved = d.saved := rfl
@[simp] theorem Dev.onStore_io (d : Dev) (f : StoreSt → StoreSt) : (d.onStore f).io = d.io := rfl
@[simp] theorem Dev.onStore_reg (d : Dev) (f : StoreSt → StoreSt) (o : Nat) : (d.onStore f).reg o = d.reg o := rfl
@[simp] theorem Dev.onStore_get (d : Dev) (f : StoreSt → StoreSt) (g : Fld) : (d.onStore f).get g = d.get g := rfl
@[simp] theorem Dev.onStore_bit (d : Dev) (f : StoreSt → StoreSt) (g : Fld) : (d.onStore f).bit g = d.bit g := rfl

@[simp] theorem Dev.onHealth_now (d : Dev) (f : HealthSt → HealthSt) : (d.onHealth f).now = d.now := rfl
@[simp] theorem Dev.onHealth_regs (d : Dev) (f : HealthSt → HealthSt) : (d.onHealth f).regs = d.regs := rfl
@[simp] theorem Dev.onHealth_out (d : Dev) (f : HealthSt → HealthSt) : (d.onHealth f).out = d.out := rfl
@[simp] theorem Dev.onHealth_freeIdx (d : Dev) (f : HealthSt → HealthSt) : (d.onHealth f).freeIdx = d.freeIdx := rfl
@[simp] theorem Dev.onHealth_ties (d : Dev) (f : HealthSt → HealthSt) : (d.onHealth f).ties = d.ties := rfl
@[simp] theorem Dev.onHealth_paths (d : Dev) (f : HealthSt → HealthSt) : (d.onHealth f).paths = d.paths := rfl
@[simp] theorem Dev.onHealth_host (d : Dev) (f : HealthSt → HealthSt) : (d.onHealth f).host = d.host := rfl
@[simp] theorem Dev.onHealth_sec (d : Dev) (f : HealthSt → HealthSt) : (d.onHealth f).sec = d.sec := rfl
@[simp] theorem Dev.onHealth_store (d : Dev) (f : HealthSt → HealthSt) : (d.onHealth f).store = d.store := rfl
@[simp] theorem Dev.onHealth_health (d : Dev) (f : HealthSt → HealthSt) : (d.onHealth f).health = f d.health := rfl
@[simp] theorem Dev.onHealth_fpa (d : Dev) (f : HealthSt → HealthSt) : (d.onHealth f).fpa = d.fpa := rfl
@[simp] theorem Dev.onHealth_stage (d : Dev) (f : HealthSt → HealthSt) : (d.onHealth f).stage = d.stage := rfl
@[simp] theorem Dev.onHealth_aux (d : Dev) (f : HealthSt → HealthSt) : (d.onHealth f).aux = d.aux := rfl
@[simp] theorem Dev.onHealth_pipe (d : Dev) (f : HealthSt → HealthSt) : (d.onHealth f).pipe = d.pipe := rfl
@[simp] theorem Dev.onHealth_pwr (d : Dev) (f : HealthSt → HealthSt) : (d.onHealth f).pwr = d.pwr := rfl
@[simp] theorem Dev.onHealth_burin (d : Dev) (f : HealthSt → HealthSt) : (d.onHealth f).burin = d.burin := rfl
@[simp] theorem Dev.onHealth_web (d : Dev) (f : HealthSt → HealthSt) : (d.onHealth f).web = d.web := rfl
@[simp] theorem Dev.onHealth_stat (d : Dev) (f : HealthSt → HealthSt) : (d.onHealth f).stat = d.stat := rfl
@[simp] theorem Dev.onHealth_alarm (d : Dev) (f : HealthSt → HealthSt) : (d.onHealth f).alarm = d.alarm := rfl
@[simp] theorem Dev.onHealth_proof (d : Dev) (f : HealthSt → HealthSt) : (d.onHealth f).proof = d.proof := rfl
@[simp] theorem Dev.onHealth_glade (d : Dev) (f : HealthSt → HealthSt) : (d.onHealth f).glade = d.glade := rfl
@[simp] theorem Dev.onHealth_cc (d : Dev) (f : HealthSt → HealthSt) : (d.onHealth f).cc = d.cc := rfl
@[simp] theorem Dev.onHealth_link (d : Dev) (f : HealthSt → HealthSt) : (d.onHealth f).link = d.link := rfl
@[simp] theorem Dev.onHealth_stand (d : Dev) (f : HealthSt → HealthSt) : (d.onHealth f).stand = d.stand := rfl
@[simp] theorem Dev.onHealth_saved (d : Dev) (f : HealthSt → HealthSt) : (d.onHealth f).saved = d.saved := rfl
@[simp] theorem Dev.onHealth_io (d : Dev) (f : HealthSt → HealthSt) : (d.onHealth f).io = d.io := rfl
@[simp] theorem Dev.onHealth_reg (d : Dev) (f : HealthSt → HealthSt) (o : Nat) : (d.onHealth f).reg o = d.reg o := rfl
@[simp] theorem Dev.onHealth_get (d : Dev) (f : HealthSt → HealthSt) (g : Fld) : (d.onHealth f).get g = d.get g := rfl
@[simp] theorem Dev.onHealth_bit (d : Dev) (f : HealthSt → HealthSt) (g : Fld) : (d.onHealth f).bit g = d.bit g := rfl

@[simp] theorem Dev.onFpa_now (d : Dev) (f : FpaSt → FpaSt) : (d.onFpa f).now = d.now := rfl
@[simp] theorem Dev.onFpa_regs (d : Dev) (f : FpaSt → FpaSt) : (d.onFpa f).regs = d.regs := rfl
@[simp] theorem Dev.onFpa_out (d : Dev) (f : FpaSt → FpaSt) : (d.onFpa f).out = d.out := rfl
@[simp] theorem Dev.onFpa_freeIdx (d : Dev) (f : FpaSt → FpaSt) : (d.onFpa f).freeIdx = d.freeIdx := rfl
@[simp] theorem Dev.onFpa_ties (d : Dev) (f : FpaSt → FpaSt) : (d.onFpa f).ties = d.ties := rfl
@[simp] theorem Dev.onFpa_paths (d : Dev) (f : FpaSt → FpaSt) : (d.onFpa f).paths = d.paths := rfl
@[simp] theorem Dev.onFpa_host (d : Dev) (f : FpaSt → FpaSt) : (d.onFpa f).host = d.host := rfl
@[simp] theorem Dev.onFpa_sec (d : Dev) (f : FpaSt → FpaSt) : (d.onFpa f).sec = d.sec := rfl
@[simp] theorem Dev.onFpa_store (d : Dev) (f : FpaSt → FpaSt) : (d.onFpa f).store = d.store := rfl
@[simp] theorem Dev.onFpa_health (d : Dev) (f : FpaSt → FpaSt) : (d.onFpa f).health = d.health := rfl
@[simp] theorem Dev.onFpa_fpa (d : Dev) (f : FpaSt → FpaSt) : (d.onFpa f).fpa = f d.fpa := rfl
@[simp] theorem Dev.onFpa_stage (d : Dev) (f : FpaSt → FpaSt) : (d.onFpa f).stage = d.stage := rfl
@[simp] theorem Dev.onFpa_aux (d : Dev) (f : FpaSt → FpaSt) : (d.onFpa f).aux = d.aux := rfl
@[simp] theorem Dev.onFpa_pipe (d : Dev) (f : FpaSt → FpaSt) : (d.onFpa f).pipe = d.pipe := rfl
@[simp] theorem Dev.onFpa_pwr (d : Dev) (f : FpaSt → FpaSt) : (d.onFpa f).pwr = d.pwr := rfl
@[simp] theorem Dev.onFpa_burin (d : Dev) (f : FpaSt → FpaSt) : (d.onFpa f).burin = d.burin := rfl
@[simp] theorem Dev.onFpa_web (d : Dev) (f : FpaSt → FpaSt) : (d.onFpa f).web = d.web := rfl
@[simp] theorem Dev.onFpa_stat (d : Dev) (f : FpaSt → FpaSt) : (d.onFpa f).stat = d.stat := rfl
@[simp] theorem Dev.onFpa_alarm (d : Dev) (f : FpaSt → FpaSt) : (d.onFpa f).alarm = d.alarm := rfl
@[simp] theorem Dev.onFpa_proof (d : Dev) (f : FpaSt → FpaSt) : (d.onFpa f).proof = d.proof := rfl
@[simp] theorem Dev.onFpa_glade (d : Dev) (f : FpaSt → FpaSt) : (d.onFpa f).glade = d.glade := rfl
@[simp] theorem Dev.onFpa_cc (d : Dev) (f : FpaSt → FpaSt) : (d.onFpa f).cc = d.cc := rfl
@[simp] theorem Dev.onFpa_link (d : Dev) (f : FpaSt → FpaSt) : (d.onFpa f).link = d.link := rfl
@[simp] theorem Dev.onFpa_stand (d : Dev) (f : FpaSt → FpaSt) : (d.onFpa f).stand = d.stand := rfl
@[simp] theorem Dev.onFpa_saved (d : Dev) (f : FpaSt → FpaSt) : (d.onFpa f).saved = d.saved := rfl
@[simp] theorem Dev.onFpa_io (d : Dev) (f : FpaSt → FpaSt) : (d.onFpa f).io = d.io := rfl
@[simp] theorem Dev.onFpa_reg (d : Dev) (f : FpaSt → FpaSt) (o : Nat) : (d.onFpa f).reg o = d.reg o := rfl
@[simp] theorem Dev.onFpa_get (d : Dev) (f : FpaSt → FpaSt) (g : Fld) : (d.onFpa f).get g = d.get g := rfl
@[simp] theorem Dev.onFpa_bit (d : Dev) (f : FpaSt → FpaSt) (g : Fld) : (d.onFpa f).bit g = d.bit g := rfl

@[simp] theorem Dev.onStage_now (d : Dev) (f : StageSt → StageSt) : (d.onStage f).now = d.now := rfl
@[simp] theorem Dev.onStage_regs (d : Dev) (f : StageSt → StageSt) : (d.onStage f).regs = d.regs := rfl
@[simp] theorem Dev.onStage_out (d : Dev) (f : StageSt → StageSt) : (d.onStage f).out = d.out := rfl
@[simp] theorem Dev.onStage_freeIdx (d : Dev) (f : StageSt → StageSt) : (d.onStage f).freeIdx = d.freeIdx := rfl
@[simp] theorem Dev.onStage_ties (d : Dev) (f : StageSt → StageSt) : (d.onStage f).ties = d.ties := rfl
@[simp] theorem Dev.onStage_paths (d : Dev) (f : StageSt → StageSt) : (d.onStage f).paths = d.paths := rfl
@[simp] theorem Dev.onStage_host (d : Dev) (f : StageSt → StageSt) : (d.onStage f).host = d.host := rfl
@[simp] theorem Dev.onStage_sec (d : Dev) (f : StageSt → StageSt) : (d.onStage f).sec = d.sec := rfl
@[simp] theorem Dev.onStage_store (d : Dev) (f : StageSt → StageSt) : (d.onStage f).store = d.store := rfl
@[simp] theorem Dev.onStage_health (d : Dev) (f : StageSt → StageSt) : (d.onStage f).health = d.health := rfl
@[simp] theorem Dev.onStage_fpa (d : Dev) (f : StageSt → StageSt) : (d.onStage f).fpa = d.fpa := rfl
@[simp] theorem Dev.onStage_stage (d : Dev) (f : StageSt → StageSt) : (d.onStage f).stage = f d.stage := rfl
@[simp] theorem Dev.onStage_aux (d : Dev) (f : StageSt → StageSt) : (d.onStage f).aux = d.aux := rfl
@[simp] theorem Dev.onStage_pipe (d : Dev) (f : StageSt → StageSt) : (d.onStage f).pipe = d.pipe := rfl
@[simp] theorem Dev.onStage_pwr (d : Dev) (f : StageSt → StageSt) : (d.onStage f).pwr = d.pwr := rfl
@[simp] theorem Dev.onStage_burin (d : Dev) (f : StageSt → StageSt) : (d.onStage f).burin = d.burin := rfl
@[simp] theorem Dev.onStage_web (d : Dev) (f : StageSt → StageSt) : (d.onStage f).web = d.web := rfl
@[simp] theorem Dev.onStage_stat (d : Dev) (f : StageSt → StageSt) : (d.onStage f).stat = d.stat := rfl
@[simp] theorem Dev.onStage_alarm (d : Dev) (f : StageSt → StageSt) : (d.onStage f).alarm = d.alarm := rfl
@[simp] theorem Dev.onStage_proof (d : Dev) (f : StageSt → StageSt) : (d.onStage f).proof = d.proof := rfl
@[simp] theorem Dev.onStage_glade (d : Dev) (f : StageSt → StageSt) : (d.onStage f).glade = d.glade := rfl
@[simp] theorem Dev.onStage_cc (d : Dev) (f : StageSt → StageSt) : (d.onStage f).cc = d.cc := rfl
@[simp] theorem Dev.onStage_link (d : Dev) (f : StageSt → StageSt) : (d.onStage f).link = d.link := rfl
@[simp] theorem Dev.onStage_stand (d : Dev) (f : StageSt → StageSt) : (d.onStage f).stand = d.stand := rfl
@[simp] theorem Dev.onStage_saved (d : Dev) (f : StageSt → StageSt) : (d.onStage f).saved = d.saved := rfl
@[simp] theorem Dev.onStage_io (d : Dev) (f : StageSt → StageSt) : (d.onStage f).io = d.io := rfl
@[simp] theorem Dev.onStage_reg (d : Dev) (f : StageSt → StageSt) (o : Nat) : (d.onStage f).reg o = d.reg o := rfl
@[simp] theorem Dev.onStage_get (d : Dev) (f : StageSt → StageSt) (g : Fld) : (d.onStage f).get g = d.get g := rfl
@[simp] theorem Dev.onStage_bit (d : Dev) (f : StageSt → StageSt) (g : Fld) : (d.onStage f).bit g = d.bit g := rfl

@[simp] theorem Dev.onAux_now (d : Dev) (f : AuxSt → AuxSt) : (d.onAux f).now = d.now := rfl
@[simp] theorem Dev.onAux_regs (d : Dev) (f : AuxSt → AuxSt) : (d.onAux f).regs = d.regs := rfl
@[simp] theorem Dev.onAux_out (d : Dev) (f : AuxSt → AuxSt) : (d.onAux f).out = d.out := rfl
@[simp] theorem Dev.onAux_freeIdx (d : Dev) (f : AuxSt → AuxSt) : (d.onAux f).freeIdx = d.freeIdx := rfl
@[simp] theorem Dev.onAux_ties (d : Dev) (f : AuxSt → AuxSt) : (d.onAux f).ties = d.ties := rfl
@[simp] theorem Dev.onAux_paths (d : Dev) (f : AuxSt → AuxSt) : (d.onAux f).paths = d.paths := rfl
@[simp] theorem Dev.onAux_host (d : Dev) (f : AuxSt → AuxSt) : (d.onAux f).host = d.host := rfl
@[simp] theorem Dev.onAux_sec (d : Dev) (f : AuxSt → AuxSt) : (d.onAux f).sec = d.sec := rfl
@[simp] theorem Dev.onAux_store (d : Dev) (f : AuxSt → AuxSt) : (d.onAux f).store = d.store := rfl
@[simp] theorem Dev.onAux_health (d : Dev) (f : AuxSt → AuxSt) : (d.onAux f).health = d.health := rfl
@[simp] theorem Dev.onAux_fpa (d : Dev) (f : AuxSt → AuxSt) : (d.onAux f).fpa = d.fpa := rfl
@[simp] theorem Dev.onAux_stage (d : Dev) (f : AuxSt → AuxSt) : (d.onAux f).stage = d.stage := rfl
@[simp] theorem Dev.onAux_aux (d : Dev) (f : AuxSt → AuxSt) : (d.onAux f).aux = f d.aux := rfl
@[simp] theorem Dev.onAux_pipe (d : Dev) (f : AuxSt → AuxSt) : (d.onAux f).pipe = d.pipe := rfl
@[simp] theorem Dev.onAux_pwr (d : Dev) (f : AuxSt → AuxSt) : (d.onAux f).pwr = d.pwr := rfl
@[simp] theorem Dev.onAux_burin (d : Dev) (f : AuxSt → AuxSt) : (d.onAux f).burin = d.burin := rfl
@[simp] theorem Dev.onAux_web (d : Dev) (f : AuxSt → AuxSt) : (d.onAux f).web = d.web := rfl
@[simp] theorem Dev.onAux_stat (d : Dev) (f : AuxSt → AuxSt) : (d.onAux f).stat = d.stat := rfl
@[simp] theorem Dev.onAux_alarm (d : Dev) (f : AuxSt → AuxSt) : (d.onAux f).alarm = d.alarm := rfl
@[simp] theorem Dev.onAux_proof (d : Dev) (f : AuxSt → AuxSt) : (d.onAux f).proof = d.proof := rfl
@[simp] theorem Dev.onAux_glade (d : Dev) (f : AuxSt → AuxSt) : (d.onAux f).glade = d.glade := rfl
@[simp] theorem Dev.onAux_cc (d : Dev) (f : AuxSt → AuxSt) : (d.onAux f).cc = d.cc := rfl
@[simp] theorem Dev.onAux_link (d : Dev) (f : AuxSt → AuxSt) : (d.onAux f).link = d.link := rfl
@[simp] theorem Dev.onAux_stand (d : Dev) (f : AuxSt → AuxSt) : (d.onAux f).stand = d.stand := rfl
@[simp] theorem Dev.onAux_saved (d : Dev) (f : AuxSt → AuxSt) : (d.onAux f).saved = d.saved := rfl
@[simp] theorem Dev.onAux_io (d : Dev) (f : AuxSt → AuxSt) : (d.onAux f).io = d.io := rfl
@[simp] theorem Dev.onAux_reg (d : Dev) (f : AuxSt → AuxSt) (o : Nat) : (d.onAux f).reg o = d.reg o := rfl
@[simp] theorem Dev.onAux_get (d : Dev) (f : AuxSt → AuxSt) (g : Fld) : (d.onAux f).get g = d.get g := rfl
@[simp] theorem Dev.onAux_bit (d : Dev) (f : AuxSt → AuxSt) (g : Fld) : (d.onAux f).bit g = d.bit g := rfl

@[simp] theorem Dev.onPipe_now (d : Dev) (f : PipeSt → PipeSt) : (d.onPipe f).now = d.now := rfl
@[simp] theorem Dev.onPipe_regs (d : Dev) (f : PipeSt → PipeSt) : (d.onPipe f).regs = d.regs := rfl
@[simp] theorem Dev.onPipe_out (d : Dev) (f : PipeSt → PipeSt) : (d.onPipe f).out = d.out := rfl
@[simp] theorem Dev.onPipe_freeIdx (d : Dev) (f : PipeSt → PipeSt) : (d.onPipe f).freeIdx = d.freeIdx := rfl
@[simp] theorem Dev.onPipe_ties (d : Dev) (f : PipeSt → PipeSt) : (d.onPipe f).ties = d.ties := rfl
@[simp] theorem Dev.onPipe_paths (d : Dev) (f : PipeSt → PipeSt) : (d.onPipe f).paths = d.paths := rfl
@[simp] theorem Dev.onPipe_host (d : Dev) (f : PipeSt → PipeSt) : (d.onPipe f).host = d.host := rfl
@[simp] theorem Dev.onPipe_sec (d : Dev) (f : PipeSt → PipeSt) : (d.onPipe f).sec = d.sec := rfl
@[simp] theorem Dev.onPipe_store (d : Dev) (f : PipeSt → PipeSt) : (d.onPipe f).store = d.store := rfl
@[simp] theorem Dev.onPipe_health (d : Dev) (f : PipeSt → PipeSt) : (d.onPipe f).health = d.health := rfl
@[simp] theorem Dev.onPipe_fpa (d : Dev) (f : PipeSt → PipeSt) : (d.onPipe f).fpa = d.fpa := rfl
@[simp] theorem Dev.onPipe_stage (d : Dev) (f : PipeSt → PipeSt) : (d.onPipe f).stage = d.stage := rfl
@[simp] theorem Dev.onPipe_aux (d : Dev) (f : PipeSt → PipeSt) : (d.onPipe f).aux = d.aux := rfl
@[simp] theorem Dev.onPipe_pipe (d : Dev) (f : PipeSt → PipeSt) : (d.onPipe f).pipe = f d.pipe := rfl
@[simp] theorem Dev.onPipe_pwr (d : Dev) (f : PipeSt → PipeSt) : (d.onPipe f).pwr = d.pwr := rfl
@[simp] theorem Dev.onPipe_burin (d : Dev) (f : PipeSt → PipeSt) : (d.onPipe f).burin = d.burin := rfl
@[simp] theorem Dev.onPipe_web (d : Dev) (f : PipeSt → PipeSt) : (d.onPipe f).web = d.web := rfl
@[simp] theorem Dev.onPipe_stat (d : Dev) (f : PipeSt → PipeSt) : (d.onPipe f).stat = d.stat := rfl
@[simp] theorem Dev.onPipe_alarm (d : Dev) (f : PipeSt → PipeSt) : (d.onPipe f).alarm = d.alarm := rfl
@[simp] theorem Dev.onPipe_proof (d : Dev) (f : PipeSt → PipeSt) : (d.onPipe f).proof = d.proof := rfl
@[simp] theorem Dev.onPipe_glade (d : Dev) (f : PipeSt → PipeSt) : (d.onPipe f).glade = d.glade := rfl
@[simp] theorem Dev.onPipe_cc (d : Dev) (f : PipeSt → PipeSt) : (d.onPipe f).cc = d.cc := rfl
@[simp] theorem Dev.onPipe_link (d : Dev) (f : PipeSt → PipeSt) : (d.onPipe f).link = d.link := rfl
@[simp] theorem Dev.onPipe_stand (d : Dev) (f : PipeSt → PipeSt) : (d.onPipe f).stand = d.stand := rfl
@[simp] theorem Dev.onPipe_saved (d : Dev) (f : PipeSt → PipeSt) : (d.onPipe f).saved = d.saved := rfl
@[simp] theorem Dev.onPipe_io (d : Dev) (f : PipeSt → PipeSt) : (d.onPipe f).io = d.io := rfl
@[simp] theorem Dev.onPipe_reg (d : Dev) (f : PipeSt → PipeSt) (o : Nat) : (d.onPipe f).reg o = d.reg o := rfl
@[simp] theorem Dev.onPipe_get (d : Dev) (f : PipeSt → PipeSt) (g : Fld) : (d.onPipe f).get g = d.get g := rfl
@[simp] theorem Dev.onPipe_bit (d : Dev) (f : PipeSt → PipeSt) (g : Fld) : (d.onPipe f).bit g = d.bit g := rfl

@[simp] theorem Dev.onPwr_now (d : Dev) (f : PwrSt → PwrSt) : (d.onPwr f).now = d.now := rfl
@[simp] theorem Dev.onPwr_regs (d : Dev) (f : PwrSt → PwrSt) : (d.onPwr f).regs = d.regs := rfl
@[simp] theorem Dev.onPwr_out (d : Dev) (f : PwrSt → PwrSt) : (d.onPwr f).out = d.out := rfl
@[simp] theorem Dev.onPwr_freeIdx (d : Dev) (f : PwrSt → PwrSt) : (d.onPwr f).freeIdx = d.freeIdx := rfl
@[simp] theorem Dev.onPwr_ties (d : Dev) (f : PwrSt → PwrSt) : (d.onPwr f).ties = d.ties := rfl
@[simp] theorem Dev.onPwr_paths (d : Dev) (f : PwrSt → PwrSt) : (d.onPwr f).paths = d.paths := rfl
@[simp] theorem Dev.onPwr_host (d : Dev) (f : PwrSt → PwrSt) : (d.onPwr f).host = d.host := rfl
@[simp] theorem Dev.onPwr_sec (d : Dev) (f : PwrSt → PwrSt) : (d.onPwr f).sec = d.sec := rfl
@[simp] theorem Dev.onPwr_store (d : Dev) (f : PwrSt → PwrSt) : (d.onPwr f).store = d.store := rfl
@[simp] theorem Dev.onPwr_health (d : Dev) (f : PwrSt → PwrSt) : (d.onPwr f).health = d.health := rfl
@[simp] theorem Dev.onPwr_fpa (d : Dev) (f : PwrSt → PwrSt) : (d.onPwr f).fpa = d.fpa := rfl
@[simp] theorem Dev.onPwr_stage (d : Dev) (f : PwrSt → PwrSt) : (d.onPwr f).stage = d.stage := rfl
@[simp] theorem Dev.onPwr_aux (d : Dev) (f : PwrSt → PwrSt) : (d.onPwr f).aux = d.aux := rfl
@[simp] theorem Dev.onPwr_pipe (d : Dev) (f : PwrSt → PwrSt) : (d.onPwr f).pipe = d.pipe := rfl
@[simp] theorem Dev.onPwr_pwr (d : Dev) (f : PwrSt → PwrSt) : (d.onPwr f).pwr = f d.pwr := rfl
@[simp] theorem Dev.onPwr_burin (d : Dev) (f : PwrSt → PwrSt) : (d.onPwr f).burin = d.burin := rfl
@[simp] theorem Dev.onPwr_web (d : Dev) (f : PwrSt → PwrSt) : (d.onPwr f).web = d.web := rfl
@[simp] theorem Dev.onPwr_stat (d : Dev) (f : PwrSt → PwrSt) : (d.onPwr f).stat = d.stat := rfl
@[simp] theorem Dev.onPwr_alarm (d : Dev) (f : PwrSt → PwrSt) : (d.onPwr f).alarm = d.alarm := rfl
@[simp] theorem Dev.onPwr_proof (d : Dev) (f : PwrSt → PwrSt) : (d.onPwr f).proof = d.proof := rfl
@[simp] theorem Dev.onPwr_glade (d : Dev) (f : PwrSt → PwrSt) : (d.onPwr f).glade = d.glade := rfl
@[simp] theorem Dev.onPwr_cc (d : Dev) (f : PwrSt → PwrSt) : (d.onPwr f).cc = d.cc := rfl
@[simp] theorem Dev.onPwr_link (d : Dev) (f : PwrSt → PwrSt) : (d.onPwr f).link = d.link := rfl
@[simp] theorem Dev.onPwr_stand (d : Dev) (f : PwrSt → PwrSt) : (d.onPwr f).stand = d.stand := rfl
@[simp] theorem Dev.onPwr_saved (d : Dev) (f : PwrSt → PwrSt) : (d.onPwr f).saved = d.saved := rfl
@[simp] theorem Dev.onPwr_io (d : Dev) (f : PwrSt → PwrSt) : (d.onPwr f).io = d.io := rfl
@[simp] theorem Dev.onPwr_reg (d : Dev) (f : PwrSt → PwrSt) (o : Nat) : (d.onPwr f).reg o = d.reg o := rfl
@[simp] theorem Dev.onPwr_get (d : Dev) (f : PwrSt → PwrSt) (g : Fld) : (d.onPwr f).get g = d.get g := rfl
@[simp] theorem Dev.onPwr_bit (d : Dev) (f : PwrSt → PwrSt) (g : Fld) : (d.onPwr f).bit g = d.bit g := rfl

@[simp] theorem Dev.onBurin_now (d : Dev) (f : BurinSt → BurinSt) : (d.onBurin f).now = d.now := rfl
@[simp] theorem Dev.onBurin_regs (d : Dev) (f : BurinSt → BurinSt) : (d.onBurin f).regs = d.regs := rfl
@[simp] theorem Dev.onBurin_out (d : Dev) (f : BurinSt → BurinSt) : (d.onBurin f).out = d.out := rfl
@[simp] theorem Dev.onBurin_freeIdx (d : Dev) (f : BurinSt → BurinSt) : (d.onBurin f).freeIdx = d.freeIdx := rfl
@[simp] theorem Dev.onBurin_ties (d : Dev) (f : BurinSt → BurinSt) : (d.onBurin f).ties = d.ties := rfl
@[simp] theorem Dev.onBurin_paths (d : Dev) (f : BurinSt → BurinSt) : (d.onBurin f).paths = d.paths := rfl
@[simp] theorem Dev.onBurin_host (d : Dev) (f : BurinSt → BurinSt) : (d.onBurin f).host = d.host := rfl
@[simp] theorem Dev.onBurin_sec (d : Dev) (f : BurinSt → BurinSt) : (d.onBurin f).sec = d.sec := rfl
@[simp] theorem Dev.onBurin_store (d : Dev) (f : BurinSt → BurinSt) : (d.onBurin f).store = d.store := rfl
@[simp] theorem Dev.onBurin_health (d : Dev) (f : BurinSt → BurinSt) : (d.onBurin f).health = d.health := rfl
@[simp] theorem Dev.onBurin_fpa (d : Dev) (f : BurinSt → BurinSt) : (d.onBurin f).fpa = d.fpa := rfl
@[simp] theorem Dev.onBurin_stage (d : Dev) (f : BurinSt → BurinSt) : (d.onBurin f).stage = d.stage := rfl
@[simp] theorem Dev.onBurin_aux (d : Dev) (f : BurinSt → BurinSt) : (d.onBurin f).aux = d.aux := rfl
@[simp] theorem Dev.onBurin_pipe (d : Dev) (f : BurinSt → BurinSt) : (d.onBurin f).pipe = d.pipe := rfl
@[simp] theorem Dev.onBurin_pwr (d : Dev) (f : BurinSt → BurinSt) : (d.onBurin f).pwr = d.pwr := rfl
@[simp] theorem Dev.onBurin_burin (d : Dev) (f : BurinSt → BurinSt) : (d.onBurin f).burin = f d.burin := rfl
@[simp] theorem Dev.onBurin_web (d : Dev) (f : BurinSt → BurinSt) : (d.onBurin f).web = d.web := rfl
@[simp] theorem Dev.onBurin_stat (d : Dev) (f : BurinSt → BurinSt) : (d.onBurin f).stat = d.stat := rfl
@[simp] theorem Dev.onBurin_alarm (d : Dev) (f : BurinSt → BurinSt) : (d.onBurin f).alarm = d.alarm := rfl
@[simp] theorem Dev.onBurin_proof (d : Dev) (f : BurinSt → BurinSt) : (d.onBurin f).proof = d.proof := rfl
@[simp] theorem Dev.onBurin_glade (d : Dev) (f : BurinSt → BurinSt) : (d.onBurin f).glade = d.glade := rfl
@[simp] theorem Dev.onBurin_cc (d : Dev) (f : BurinSt → BurinSt) : (d.onBurin f).cc = d.cc := rfl
@[simp] theorem Dev.onBurin_link (d : Dev) (f : BurinSt → BurinSt) : (d.onBurin f).link = d.link := rfl
@[simp] theorem Dev.onBurin_stand (d : Dev) (f : BurinSt → BurinSt) : (d.onBurin f).stand = d.stand := rfl
@[simp] theorem Dev.onBurin_saved (d : Dev) (f : BurinSt → BurinSt) : (d.onBurin f).saved = d.saved := rfl
@[simp] theorem Dev.onBurin_io (d : Dev) (f : BurinSt → BurinSt) : (d.onBurin f).io = d.io := rfl
@[simp] theorem Dev.onBurin_reg (d : Dev) (f : BurinSt → BurinSt) (o : Nat) : (d.onBurin f).reg o = d.reg o := rfl
@[simp] theorem Dev.onBurin_get (d : Dev) (f : BurinSt → BurinSt) (g : Fld) : (d.onBurin f).get g = d.get g := rfl
@[simp] theorem Dev.onBurin_bit (d : Dev) (f : BurinSt → BurinSt) (g : Fld) : (d.onBurin f).bit g = d.bit g := rfl

@[simp] theorem Dev.onWeb_now (d : Dev) (f : WebSt → WebSt) : (d.onWeb f).now = d.now := rfl
@[simp] theorem Dev.onWeb_regs (d : Dev) (f : WebSt → WebSt) : (d.onWeb f).regs = d.regs := rfl
@[simp] theorem Dev.onWeb_out (d : Dev) (f : WebSt → WebSt) : (d.onWeb f).out = d.out := rfl
@[simp] theorem Dev.onWeb_freeIdx (d : Dev) (f : WebSt → WebSt) : (d.onWeb f).freeIdx = d.freeIdx := rfl
@[simp] theorem Dev.onWeb_ties (d : Dev) (f : WebSt → WebSt) : (d.onWeb f).ties = d.ties := rfl
@[simp] theorem Dev.onWeb_paths (d : Dev) (f : WebSt → WebSt) : (d.onWeb f).paths = d.paths := rfl
@[simp] theorem Dev.onWeb_host (d : Dev) (f : WebSt → WebSt) : (d.onWeb f).host = d.host := rfl
@[simp] theorem Dev.onWeb_sec (d : Dev) (f : WebSt → WebSt) : (d.onWeb f).sec = d.sec := rfl
@[simp] theorem Dev.onWeb_store (d : Dev) (f : WebSt → WebSt) : (d.onWeb f).store = d.store := rfl
@[simp] theorem Dev.onWeb_health (d : Dev) (f : WebSt → WebSt) : (d.onWeb f).health = d.health := rfl
@[simp] theorem Dev.onWeb_fpa (d : Dev) (f : WebSt → WebSt) : (d.onWeb f).fpa = d.fpa := rfl
@[simp] theorem Dev.onWeb_stage (d : Dev) (f : WebSt → WebSt) : (d.onWeb f).stage = d.stage := rfl
@[simp] theorem Dev.onWeb_aux (d : Dev) (f : WebSt → WebSt) : (d.onWeb f).aux = d.aux := rfl
@[simp] theorem Dev.onWeb_pipe (d : Dev) (f : WebSt → WebSt) : (d.onWeb f).pipe = d.pipe := rfl
@[simp] theorem Dev.onWeb_pwr (d : Dev) (f : WebSt → WebSt) : (d.onWeb f).pwr = d.pwr := rfl
@[simp] theorem Dev.onWeb_burin (d : Dev) (f : WebSt → WebSt) : (d.onWeb f).burin = d.burin := rfl
@[simp] theorem Dev.onWeb_web (d : Dev) (f : WebSt → WebSt) : (d.onWeb f).web = f d.web := rfl
@[simp] theorem Dev.onWeb_stat (d : Dev) (f : WebSt → WebSt) : (d.onWeb f).stat = d.stat := rfl
@[simp] theorem Dev.onWeb_alarm (d : Dev) (f : WebSt → WebSt) : (d.onWeb f).alarm = d.alarm := rfl
@[simp] theorem Dev.onWeb_proof (d : Dev) (f : WebSt → WebSt) : (d.onWeb f).proof = d.proof := rfl
@[simp] theorem Dev.onWeb_glade (d : Dev) (f : WebSt → WebSt) : (d.onWeb f).glade = d.glade := rfl
@[simp] theorem Dev.onWeb_cc (d : Dev) (f : WebSt → WebSt) : (d.onWeb f).cc = d.cc := rfl
@[simp] theorem Dev.onWeb_link (d : Dev) (f : WebSt → WebSt) : (d.onWeb f).link = d.link := rfl
@[simp] theorem Dev.onWeb_stand (d : Dev) (f : WebSt → WebSt) : (d.onWeb f).stand = d.stand := rfl
@[simp] theorem Dev.onWeb_saved (d : Dev) (f : WebSt → WebSt) : (d.onWeb f).saved = d.saved := rfl
@[simp] theorem Dev.onWeb_io (d : Dev) (f : WebSt → WebSt) : (d.onWeb f).io = d.io := rfl
@[simp] theorem Dev.onWeb_reg (d : Dev) (f : WebSt → WebSt) (o : Nat) : (d.onWeb f).reg o = d.reg o := rfl
@[simp] theorem Dev.onWeb_get (d : Dev) (f : WebSt → WebSt) (g : Fld) : (d.onWeb f).get g = d.get g := rfl
@[simp] theorem Dev.onWeb_bit (d : Dev) (f : WebSt → WebSt) (g : Fld) : (d.onWeb f).bit g = d.bit g := rfl

@[simp] theorem Dev.onStat_now (d : Dev) (f : StatSt → StatSt) : (d.onStat f).now = d.now := rfl
@[simp] theorem Dev.onStat_regs (d : Dev) (f : StatSt → StatSt) : (d.onStat f).regs = d.regs := rfl
@[simp] theorem Dev.onStat_out (d : Dev) (f : StatSt → StatSt) : (d.onStat f).out = d.out := rfl
@[simp] theorem Dev.onStat_freeIdx (d : Dev) (f : StatSt → StatSt) : (d.onStat f).freeIdx = d.freeIdx := rfl
@[simp] theorem Dev.onStat_ties (d : Dev) (f : StatSt → StatSt) : (d.onStat f).ties = d.ties := rfl
@[simp] theorem Dev.onStat_paths (d : Dev) (f : StatSt → StatSt) : (d.onStat f).paths = d.paths := rfl
@[simp] theorem Dev.onStat_host (d : Dev) (f : StatSt → StatSt) : (d.onStat f).host = d.host := rfl
@[simp] theorem Dev.onStat_sec (d : Dev) (f : StatSt → StatSt) : (d.onStat f).sec = d.sec := rfl
@[simp] theorem Dev.onStat_store (d : Dev) (f : StatSt → StatSt) : (d.onStat f).store = d.store := rfl
@[simp] theorem Dev.onStat_health (d : Dev) (f : StatSt → StatSt) : (d.onStat f).health = d.health := rfl
@[simp] theorem Dev.onStat_fpa (d : Dev) (f : StatSt → StatSt) : (d.onStat f).fpa = d.fpa := rfl
@[simp] theorem Dev.onStat_stage (d : Dev) (f : StatSt → StatSt) : (d.onStat f).stage = d.stage := rfl
@[simp] theorem Dev.onStat_aux (d : Dev) (f : StatSt → StatSt) : (d.onStat f).aux = d.aux := rfl
@[simp] theorem Dev.onStat_pipe (d : Dev) (f : StatSt → StatSt) : (d.onStat f).pipe = d.pipe := rfl
@[simp] theorem Dev.onStat_pwr (d : Dev) (f : StatSt → StatSt) : (d.onStat f).pwr = d.pwr := rfl
@[simp] theorem Dev.onStat_burin (d : Dev) (f : StatSt → StatSt) : (d.onStat f).burin = d.burin := rfl
@[simp] theorem Dev.onStat_web (d : Dev) (f : StatSt → StatSt) : (d.onStat f).web = d.web := rfl
@[simp] theorem Dev.onStat_stat (d : Dev) (f : StatSt → StatSt) : (d.onStat f).stat = f d.stat := rfl
@[simp] theorem Dev.onStat_alarm (d : Dev) (f : StatSt → StatSt) : (d.onStat f).alarm = d.alarm := rfl
@[simp] theorem Dev.onStat_proof (d : Dev) (f : StatSt → StatSt) : (d.onStat f).proof = d.proof := rfl
@[simp] theorem Dev.onStat_glade (d : Dev) (f : StatSt → StatSt) : (d.onStat f).glade = d.glade := rfl
@[simp] theorem Dev.onStat_cc (d : Dev) (f : StatSt → StatSt) : (d.onStat f).cc = d.cc := rfl
@[simp] theorem Dev.onStat_link (d : Dev) (f : StatSt → StatSt) : (d.onStat f).link = d.link := rfl
@[simp] theorem Dev.onStat_stand (d : Dev) (f : StatSt → StatSt) : (d.onStat f).stand = d.stand := rfl
@[simp] theorem Dev.onStat_saved (d : Dev) (f : StatSt → StatSt) : (d.onStat f).saved = d.saved := rfl
@[simp] theorem Dev.onStat_io (d : Dev) (f : StatSt → StatSt) : (d.onStat f).io = d.io := rfl
@[simp] theorem Dev.onStat_reg (d : Dev) (f : StatSt → StatSt) (o : Nat) : (d.onStat f).reg o = d.reg o := rfl
@[simp] theorem Dev.onStat_get (d : Dev) (f : StatSt → StatSt) (g : Fld) : (d.onStat f).get g = d.get g := rfl
@[simp] theorem Dev.onStat_bit (d : Dev) (f : StatSt → StatSt) (g : Fld) : (d.onStat f).bit g = d.bit g := rfl

@[simp] theorem Dev.onAlarm_now (d : Dev) (f : AlarmSt → AlarmSt) : (d.onAlarm f).now = d.now := rfl
@[simp] theorem Dev.onAlarm_regs (d : Dev) (f : AlarmSt → AlarmSt) : (d.onAlarm f).regs = d.regs := rfl
@[simp] theorem Dev.onAlarm_out (d : Dev) (f : AlarmSt → AlarmSt) : (d.onAlarm f).out = d.out := rfl
@[simp] theorem Dev.onAlarm_freeIdx (d : Dev) (f : AlarmSt → AlarmSt) : (d.onAlarm f).freeIdx = d.freeIdx := rfl
@[simp] theorem Dev.onAlarm_ties (d : Dev) (f : AlarmSt → AlarmSt) : (d.onAlarm f).ties = d.ties := rfl
@[simp] theorem Dev.onAlarm_paths (d : Dev) (f : AlarmSt → AlarmSt) : (d.onAlarm f).paths = d.paths := rfl
@[simp] theorem Dev.onAlarm_host (d : Dev) (f : AlarmSt → AlarmSt) : (d.onAlarm f).host = d.host := rfl
@[simp] theorem Dev.onAlarm_sec (d : Dev) (f : AlarmSt → AlarmSt) : (d.onAlarm f).sec = d.sec := rfl
@[simp] theorem Dev.onAlarm_store (d : Dev) (f : AlarmSt → AlarmSt) : (d.onAlarm f).store = d.store := rfl
@[simp] theorem Dev.onAlarm_health (d : Dev) (f : AlarmSt → AlarmSt) : (d.onAlarm f).health = d.health := rfl
@[simp] theorem Dev.onAlarm_fpa (d : Dev) (f : AlarmSt → AlarmSt) : (d.onAlarm f).fpa = d.fpa := rfl
@[simp] theorem Dev.onAlarm_stage (d : Dev) (f : AlarmSt → AlarmSt) : (d.onAlarm f).stage = d.stage := rfl
@[simp] theorem Dev.onAlarm_aux (d : Dev) (f : AlarmSt → AlarmSt) : (d.onAlarm f).aux = d.aux := rfl
@[simp] theorem Dev.onAlarm_pipe (d : Dev) (f : AlarmSt → AlarmSt) : (d.onAlarm f).pipe = d.pipe := rfl
@[simp] theorem Dev.onAlarm_pwr (d : Dev) (f : AlarmSt → AlarmSt) : (d.onAlarm f).pwr = d.pwr := rfl
@[simp] theorem Dev.onAlarm_burin (d : Dev) (f : AlarmSt → AlarmSt) : (d.onAlarm f).burin = d.burin := rfl
@[simp] theorem Dev.onAlarm_web (d : Dev) (f : AlarmSt → AlarmSt) : (d.onAlarm f).web = d.web := rfl
@[simp] theorem Dev.onAlarm_stat (d : Dev) (f : AlarmSt → AlarmSt) : (d.onAlarm f).stat = d.stat := rfl
@[simp] theorem Dev.onAlarm_alarm (d : Dev) (f : AlarmSt → AlarmSt) : (d.onAlarm f).alarm = f d.alarm := rfl
@[simp] theorem Dev.onAlarm_proof (d : Dev) (f : AlarmSt → AlarmSt) : (d.onAlarm f).proof = d.proof := rfl
@[simp] theorem Dev.onAlarm_glade (d : Dev) (f : AlarmSt → AlarmSt) : (d.onAlarm f).glade = d.glade := rfl
@[simp] theorem Dev.onAlarm_cc (d : Dev) (f : AlarmSt → AlarmSt) : (d.onAlarm f).cc = d.cc := rfl
@[simp] theorem Dev.onAlarm_link (d : Dev) (f : AlarmSt → AlarmSt) : (d.onAlarm f).link = d.link := rfl
@[simp] theorem Dev.onAlarm_stand (d : Dev) (f : AlarmSt → AlarmSt) : (d.onAlarm f).stand = d.stand := rfl
@[simp] theorem Dev.onAlarm_saved (d : Dev) (f : AlarmSt → AlarmSt) : (d.onAlarm f).saved = d.saved := rfl
@[simp] theorem Dev.onAlarm_io (d : Dev) (f : AlarmSt → AlarmSt) : (d.onAlarm f).io = d.io := rfl
@[simp] theorem Dev.onAlarm_reg (d : Dev) (f : AlarmSt → AlarmSt) (o : Nat) : (d.onAlarm f).reg o = d.reg o := rfl
@[simp] theorem Dev.onAlarm_get (d : Dev) (f : AlarmSt → AlarmSt) (g : Fld) : (d.onAlarm f).get g = d.get g := rfl
@[simp] theorem Dev.onAlarm_bit (d : Dev) (f : AlarmSt → AlarmSt) (g : Fld) : (d.onAlarm f).bit g = d.bit g := rfl

@[simp] theorem Dev.onProof_now (d : Dev) (f : ProofSt → ProofSt) : (d.onProof f).now = d.now := rfl
@[simp] theorem Dev.onProof_regs (d : Dev) (f : ProofSt → ProofSt) : (d.onProof f).regs = d.regs := rfl
@[simp] theorem Dev.onProof_out (d : Dev) (f : ProofSt → ProofSt) : (d.onProof f).out = d.out := rfl
@[simp] theorem Dev.onProof_freeIdx (d : Dev) (f : ProofSt → ProofSt) : (d.onProof f).freeIdx = d.freeIdx := rfl
@[simp] theorem Dev.onProof_ties (d : Dev) (f : ProofSt → ProofSt) : (d.onProof f).ties = d.ties := rfl
@[simp] theorem Dev.onProof_paths (d : Dev) (f : ProofSt → ProofSt) : (d.onProof f).paths = d.paths := rfl
@[simp] theorem Dev.onProof_host (d : Dev) (f : ProofSt → ProofSt) : (d.onProof f).host = d.host := rfl
@[simp] theorem Dev.onProof_sec (d : Dev) (f : ProofSt → ProofSt) : (d.onProof f).sec = d.sec := rfl
@[simp] theorem Dev.onProof_store (d : Dev) (f : ProofSt → ProofSt) : (d.onProof f).store = d.store := rfl
@[simp] theorem Dev.onProof_health (d : Dev) (f : ProofSt → ProofSt) : (d.onProof f).health = d.health := rfl
@[simp] theorem Dev.onProof_fpa (d : Dev) (f : ProofSt → ProofSt) : (d.onProof f).fpa = d.fpa := rfl
@[simp] theorem Dev.onProof_stage (d : Dev) (f : ProofSt → ProofSt) : (d.onProof f).stage = d.stage := rfl
@[simp] theorem Dev.onProof_aux (d : Dev) (f : ProofSt → ProofSt) : (d.onProof f).aux = d.aux := rfl
@[simp] theorem Dev.onProof_pipe (d : Dev) (f : ProofSt → ProofSt) : (d.onProof f).pipe = d.pipe := rfl
@[simp] theorem Dev.onProof_pwr (d : Dev) (f : ProofSt → ProofSt) : (d.onProof f).pwr = d.pwr := rfl
@[simp] theorem Dev.onProof_burin (d : Dev) (f : ProofSt → ProofSt) : (d.onProof f).burin = d.burin := rfl
@[simp] theorem Dev.onProof_web (d : Dev) (f : ProofSt → ProofSt) : (d.onProof f).web = d.web := rfl
@[simp] theorem Dev.onProof_stat (d : Dev) (f : ProofSt → ProofSt) : (d.onProof f).stat = d.stat := rfl
@[simp] theorem Dev.onProof_alarm (d : Dev) (f : ProofSt → ProofSt) : (d.onProof f).alarm = d.alarm := rfl
@[simp] theorem Dev.onProof_proof (d : Dev) (f : ProofSt → ProofSt) : (d.onProof f).proof = f d.proof := rfl
@[simp] theorem Dev.onProof_glade (d : Dev) (f : ProofSt → ProofSt) : (d.onProof f).glade = d.glade := rfl
@[simp] theorem Dev.onProof_cc (d : Dev) (f : ProofSt → ProofSt) : (d.onProof f).cc = d.cc := rfl
@[simp] theorem Dev.onProof_link (d : Dev) (f : ProofSt → ProofSt) : (d.onProof f).link = d.link := rfl
@[simp] theorem Dev.onProof_stand (d : Dev) (f : ProofSt → ProofSt) : (d.onProof f).stand = d.stand := rfl
@[simp] theorem Dev.onProof_saved (d : Dev) (f : ProofSt → ProofSt) : (d.onProof f).saved = d.saved := rfl
@[simp] theorem Dev.onProof_io (d : Dev) (f : ProofSt → ProofSt) : (d.onProof f).io = d.io := rfl
@[simp] theorem Dev.onProof_reg (d : Dev) (f : ProofSt → ProofSt) (o : Nat) : (d.onProof f).reg o = d.reg o := rfl
@[simp] theorem Dev.onProof_get (d : Dev) (f : ProofSt → ProofSt) (g : Fld) : (d.onProof f).get g = d.get g := rfl
@[simp] theorem Dev.onProof_bit (d : Dev) (f : ProofSt → ProofSt) (g : Fld) : (d.onProof f).bit g = d.bit g := rfl

@[simp] theorem Dev.onGlade_now (d : Dev) (f : GladeSt → GladeSt) : (d.onGlade f).now = d.now := rfl
@[simp] theorem Dev.onGlade_regs (d : Dev) (f : GladeSt → GladeSt) : (d.onGlade f).regs = d.regs := rfl
@[simp] theorem Dev.onGlade_out (d : Dev) (f : GladeSt → GladeSt) : (d.onGlade f).out = d.out := rfl
@[simp] theorem Dev.onGlade_freeIdx (d : Dev) (f : GladeSt → GladeSt) : (d.onGlade f).freeIdx = d.freeIdx := rfl
@[simp] theorem Dev.onGlade_ties (d : Dev) (f : GladeSt → GladeSt) : (d.onGlade f).ties = d.ties := rfl
@[simp] theorem Dev.onGlade_paths (d : Dev) (f : GladeSt → GladeSt) : (d.onGlade f).paths = d.paths := rfl
@[simp] theorem Dev.onGlade_host (d : Dev) (f : GladeSt → GladeSt) : (d.onGlade f).host = d.host := rfl
@[simp] theorem Dev.onGlade_sec (d : Dev) (f : GladeSt → GladeSt) : (d.onGlade f).sec = d.sec := rfl
@[simp] theorem Dev.onGlade_store (d : Dev) (f : GladeSt → GladeSt) : (d.onGlade f).store = d.store := rfl
@[simp] theorem Dev.onGlade_health (d : Dev) (f : GladeSt → GladeSt) : (d.onGlade f).health = d.health := rfl
@[simp] theorem Dev.onGlade_fpa (d : Dev) (f : GladeSt → GladeSt) : (d.onGlade f).fpa = d.fpa := rfl
@[simp] theorem Dev.onGlade_stage (d : Dev) (f : GladeSt → GladeSt) : (d.onGlade f).stage = d.stage := rfl
@[simp] theorem Dev.onGlade_aux (d : Dev) (f : GladeSt → GladeSt) : (d.onGlade f).aux = d.aux := rfl
@[simp] theorem Dev.onGlade_pipe (d : Dev) (f : GladeSt → GladeSt) : (d.onGlade f).pipe = d.pipe := rfl
@[simp] theorem Dev.onGlade_pwr (d : Dev) (f : GladeSt → GladeSt) : (d.onGlade f).pwr = d.pwr := rfl
@[simp] theorem Dev.onGlade_burin (d : Dev) (f : GladeSt → GladeSt) : (d.onGlade f).burin = d.burin := rfl
@[simp] theorem Dev.onGlade_web (d : Dev) (f : GladeSt → GladeSt) : (d.onGlade f).web = d.web := rfl
@[simp] theorem Dev.onGlade_stat (d : Dev) (f : GladeSt → GladeSt) : (d.onGlade f).stat = d.stat := rfl
@[simp] theorem Dev.onGlade_alarm (d : Dev) (f : GladeSt → GladeSt) : (d.onGlade f).alarm = d.alarm := rfl
@[simp] theorem Dev.onGlade_proof (d : Dev) (f : GladeSt → GladeSt) : (d.onGlade f).proof = d.proof := rfl
@[simp] theorem Dev.onGlade_glade (d : Dev) (f : GladeSt → GladeSt) : (d.onGlade f).glade = f d.glade := rfl
@[simp] theorem Dev.onGlade_cc (d : Dev) (f : GladeSt → GladeSt) : (d.onGlade f).cc = d.cc := rfl
@[simp] theorem Dev.onGlade_link (d : Dev) (f : GladeSt → GladeSt) : (d.onGlade f).link = d.link := rfl
@[simp] theorem Dev.onGlade_stand (d : Dev) (f : GladeSt → GladeSt) : (d.onGlade f).stand = d.stand := rfl
@[simp] theorem Dev.onGlade_saved (d : Dev) (f : GladeSt → GladeSt) : (d.onGlade f).saved = d.saved := rfl
@[simp] theorem Dev.onGlade_io (d : Dev) (f : GladeSt → GladeSt) : (d.onGlade f).io = d.io := rfl
@[simp] theorem Dev.onGlade_reg (d : Dev) (f : GladeSt → GladeSt) (o : Nat) : (d.onGlade f).reg o = d.reg o := rfl
@[simp] theorem Dev.onGlade_get (d : Dev) (f : GladeSt → GladeSt) (g : Fld) : (d.onGlade f).get g = d.get g := rfl
@[simp] theorem Dev.onGlade_bit (d : Dev) (f : GladeSt → GladeSt) (g : Fld) : (d.onGlade f).bit g = d.bit g := rfl

@[simp] theorem Dev.onCc_now (d : Dev) (f : CcSt → CcSt) : (d.onCc f).now = d.now := rfl
@[simp] theorem Dev.onCc_regs (d : Dev) (f : CcSt → CcSt) : (d.onCc f).regs = d.regs := rfl
@[simp] theorem Dev.onCc_out (d : Dev) (f : CcSt → CcSt) : (d.onCc f).out = d.out := rfl
@[simp] theorem Dev.onCc_freeIdx (d : Dev) (f : CcSt → CcSt) : (d.onCc f).freeIdx = d.freeIdx := rfl
@[simp] theorem Dev.onCc_ties (d : Dev) (f : CcSt → CcSt) : (d.onCc f).ties = d.ties := rfl
@[simp] theorem Dev.onCc_paths (d : Dev) (f : CcSt → CcSt) : (d.onCc f).paths = d.paths := rfl
@[simp] theorem Dev.onCc_host (d : Dev) (f : CcSt → CcSt) : (d.onCc f).host = d.host := rfl
@[simp] theorem Dev.onCc_sec (d : Dev) (f : CcSt → CcSt) : (d.onCc f).sec = d.sec := rfl
@[simp] theorem Dev.onCc_store (d : Dev) (f : CcSt → CcSt) : (d.onCc f).store = d.store := rfl
@[simp] theorem Dev.onCc_health (d : Dev) (f : CcSt → CcSt) : (d.onCc f).health = d.health := rfl
@[simp] theorem Dev.onCc_fpa (d : Dev) (f : CcSt → CcSt) : (d.onCc f).fpa = d.fpa := rfl
@[simp] theorem Dev.onCc_stage (d : Dev) (f : CcSt → CcSt) : (d.onCc f).stage = d.stage := rfl
@[simp] theorem Dev.onCc_aux (d : Dev) (f : CcSt → CcSt) : (d.onCc f).aux = d.aux := rfl
@[simp] theorem Dev.onCc_pipe (d : Dev) (f : CcSt → CcSt) : (d.onCc f).pipe = d.pipe := rfl
@[simp] theorem Dev.onCc_pwr (d : Dev) (f : CcSt → CcSt) : (d.onCc f).pwr = d.pwr := rfl
@[simp] theorem Dev.onCc_burin (d : Dev) (f : CcSt → CcSt) : (d.onCc f).burin = d.burin := rfl
@[simp] theorem Dev.onCc_web (d : Dev) (f : CcSt → CcSt) : (d.onCc f).web = d.web := rfl
@[simp] theorem Dev.onCc_stat (d : Dev) (f : CcSt → CcSt) : (d.onCc f).stat = d.stat := rfl
@[simp] theorem Dev.onCc_alarm (d : Dev) (f : CcSt → CcSt) : (d.onCc f).alarm = d.alarm := rfl
@[simp] theorem Dev.onCc_proof (d : Dev) (f : CcSt → CcSt) : (d.onCc f).proof = d.proof := rfl
@[simp] theorem Dev.onCc_glade (d : Dev) (f : CcSt → CcSt) : (d.onCc f).glade = d.glade := rfl
@[simp] theorem Dev.onCc_cc (d : Dev) (f : CcSt → CcSt) : (d.onCc f).cc = f d.cc := rfl
@[simp] theorem Dev.onCc_link (d : Dev) (f : CcSt → CcSt) : (d.onCc f).link = d.link := rfl
@[simp] theorem Dev.onCc_stand (d : Dev) (f : CcSt → CcSt) : (d.onCc f).stand = d.stand := rfl
@[simp] theorem Dev.onCc_saved (d : Dev) (f : CcSt → CcSt) : (d.onCc f).saved = d.saved := rfl
@[simp] theorem Dev.onCc_io (d : Dev) (f : CcSt → CcSt) : (d.onCc f).io = d.io := rfl
@[simp] theorem Dev.onCc_reg (d : Dev) (f : CcSt → CcSt) (o : Nat) : (d.onCc f).reg o = d.reg o := rfl
@[simp] theorem Dev.onCc_get (d : Dev) (f : CcSt → CcSt) (g : Fld) : (d.onCc f).get g = d.get g := rfl
@[simp] theorem Dev.onCc_bit (d : Dev) (f : CcSt → CcSt) (g : Fld) : (d.onCc f).bit g = d.bit g := rfl

@[simp] theorem Dev.onLink_now (d : Dev) (f : LinkSt → LinkSt) : (d.onLink f).now = d.now := rfl
@[simp] theorem Dev.onLink_regs (d : Dev) (f : LinkSt → LinkSt) : (d.onLink f).regs = d.regs := rfl
@[simp] theorem Dev.onLink_out (d : Dev) (f : LinkSt → LinkSt) : (d.onLink f).out = d.out := rfl
@[simp] theorem Dev.onLink_freeIdx (d : Dev) (f : LinkSt → LinkSt) : (d.onLink f).freeIdx = d.freeIdx := rfl
@[simp] theorem Dev.onLink_ties (d : Dev) (f : LinkSt → LinkSt) : (d.onLink f).ties = d.ties := rfl
@[simp] theorem Dev.onLink_paths (d : Dev) (f : LinkSt → LinkSt) : (d.onLink f).paths = d.paths := rfl
@[simp] theorem Dev.onLink_host (d : Dev) (f : LinkSt → LinkSt) : (d.onLink f).host = d.host := rfl
@[simp] theorem Dev.onLink_sec (d : Dev) (f : LinkSt → LinkSt) : (d.onLink f).sec = d.sec := rfl
@[simp] theorem Dev.onLink_store (d : Dev) (f : LinkSt → LinkSt) : (d.onLink f).store = d.store := rfl
@[simp] theorem Dev.onLink_health (d : Dev) (f : LinkSt → LinkSt) : (d.onLink f).health = d.health := rfl
@[simp] theorem Dev.onLink_fpa (d : Dev) (f : LinkSt → LinkSt) : (d.onLink f).fpa = d.fpa := rfl
@[simp] theorem Dev.onLink_stage (d : Dev) (f : LinkSt → LinkSt) : (d.onLink f).stage = d.stage := rfl
@[simp] theorem Dev.onLink_aux (d : Dev) (f : LinkSt → LinkSt) : (d.onLink f).aux = d.aux := rfl
@[simp] theorem Dev.onLink_pipe (d : Dev) (f : LinkSt → LinkSt) : (d.onLink f).pipe = d.pipe := rfl
@[simp] theorem Dev.onLink_pwr (d : Dev) (f : LinkSt → LinkSt) : (d.onLink f).pwr = d.pwr := rfl
@[simp] theorem Dev.onLink_burin (d : Dev) (f : LinkSt → LinkSt) : (d.onLink f).burin = d.burin := rfl
@[simp] theorem Dev.onLink_web (d : Dev) (f : LinkSt → LinkSt) : (d.onLink f).web = d.web := rfl
@[simp] theorem Dev.onLink_stat (d : Dev) (f : LinkSt → LinkSt) : (d.onLink f).stat = d.stat := rfl
@[simp] theorem Dev.onLink_alarm (d : Dev) (f : LinkSt → LinkSt) : (d.onLink f).alarm = d.alarm := rfl
@[simp] theorem Dev.onLink_proof (d : Dev) (f : LinkSt → LinkSt) : (d.onLink f).proof = d.proof := rfl
@[simp] theorem Dev.onLink_glade (d : Dev) (f : LinkSt → LinkSt) : (d.onLink f).glade = d.glade := rfl
@[simp] theorem Dev.onLink_cc (d : Dev) (f : LinkSt → LinkSt) : (d.onLink f).cc = d.cc := rfl
@[simp] theorem Dev.onLink_link (d : Dev) (f : LinkSt → LinkSt) : (d.onLink f).link = f d.link := rfl
@[simp] theorem Dev.onLink_stand (d : Dev) (f : LinkSt → LinkSt) : (d.onLink f).stand = d.stand := rfl
@[simp] theorem Dev.onLink_saved (d : Dev) (f : LinkSt → LinkSt) : (d.onLink f).saved = d.saved := rfl
@[simp] theorem Dev.onLink_io (d : Dev) (f : LinkSt → LinkSt) : (d.onLink f).io = d.io := rfl
@[simp] theorem Dev.onLink_reg (d : Dev) (f : LinkSt → LinkSt) (o : Nat) : (d.onLink f).reg o = d.reg o := rfl
@[simp] theorem Dev.onLink_get (d : Dev) (f : LinkSt → LinkSt) (g : Fld) : (d.onLink f).get g = d.get g := rfl
@[simp] theorem Dev.onLink_bit (d : Dev) (f : LinkSt → LinkSt) (g : Fld) : (d.onLink f).bit g = d.bit g := rfl

@[simp] theorem Dev.onStand_now (d : Dev) (f : StandSt → StandSt) : (d.onStand f).now = d.now := rfl
@[simp] theorem Dev.onStand_regs (d : Dev) (f : StandSt → StandSt) : (d.onStand f).regs = d.regs := rfl
@[simp] theorem Dev.onStand_out (d : Dev) (f : StandSt → StandSt) : (d.onStand f).out = d.out := rfl
@[simp] theorem Dev.onStand_freeIdx (d : Dev) (f : StandSt → StandSt) : (d.onStand f).freeIdx = d.freeIdx := rfl
@[simp] theorem Dev.onStand_ties (d : Dev) (f : StandSt → StandSt) : (d.onStand f).ties = d.ties := rfl
@[simp] theorem Dev.onStand_paths (d : Dev) (f : StandSt → StandSt) : (d.onStand f).paths = d.paths := rfl
@[simp] theorem Dev.onStand_host (d : Dev) (f : StandSt → StandSt) : (d.onStand f).host = d.host := rfl
@[simp] theorem Dev.onStand_sec (d : Dev) (f : StandSt → StandSt) : (d.onStand f).sec = d.sec := rfl
@[simp] theorem Dev.onStand_store (d : Dev) (f : StandSt → StandSt) : (d.onStand f).store = d.store := rfl
@[simp] theorem Dev.onStand_health (d : Dev) (f : StandSt → StandSt) : (d.onStand f).health = d.health := rfl
@[simp] theorem Dev.onStand_fpa (d : Dev) (f : StandSt → StandSt) : (d.onStand f).fpa = d.fpa := rfl
@[simp] theorem Dev.onStand_stage (d : Dev) (f : StandSt → StandSt) : (d.onStand f).stage = d.stage := rfl
@[simp] theorem Dev.onStand_aux (d : Dev) (f : StandSt → StandSt) : (d.onStand f).aux = d.aux := rfl
@[simp] theorem Dev.onStand_pipe (d : Dev) (f : StandSt → StandSt) : (d.onStand f).pipe = d.pipe := rfl
@[simp] theorem Dev.onStand_pwr (d : Dev) (f : StandSt → StandSt) : (d.onStand f).pwr = d.pwr := rfl
@[simp] theorem Dev.onStand_burin (d : Dev) (f : StandSt → StandSt) : (d.onStand f).burin = d.burin := rfl
@[simp] theorem Dev.onStand_web (d : Dev) (f : StandSt → StandSt) : (d.onStand f).web = d.web := rfl
@[simp] theorem Dev.onStand_stat (d : Dev) (f : StandSt → StandSt) : (d.onStand f).stat = d.stat := rfl
@[simp] theorem Dev.onStand_alarm (d : Dev) (f : StandSt → StandSt) : (d.onStand f).alarm = d.alarm := rfl
@[simp] theorem Dev.onStand_proof (d : Dev) (f : StandSt → StandSt) : (d.onStand f).proof = d.proof := rfl
@[simp] theorem Dev.onStand_glade (d : Dev) (f : StandSt → StandSt) : (d.onStand f).glade = d.glade := rfl
@[simp] theorem Dev.onStand_cc (d : Dev) (f : StandSt → StandSt) : (d.onStand f).cc = d.cc := rfl
@[simp] theorem Dev.onStand_link (d : Dev) (f : StandSt → StandSt) : (d.onStand f).link = d.link := rfl
@[simp] theorem Dev.onStand_stand (d : Dev) (f : StandSt → StandSt) : (d.onStand f).stand = f d.stand := rfl
@[simp] theorem Dev.onStand_saved (d : Dev) (f : StandSt → StandSt) : (d.onStand f).saved = d.saved := rfl
@[simp] theorem Dev.onStand_io (d : Dev) (f : StandSt → StandSt) : (d.onStand f).io = d.io := rfl
@[simp] theorem Dev.onStand_reg (d : Dev) (f : StandSt → StandSt) (o : Nat) : (d.onStand f).reg o = d.reg o := rfl
@[simp] theorem Dev.onStand_get (d : Dev) (f : StandSt → StandSt) (g : Fld) : (d.onStand f).get g = d.get g := rfl
@[simp] theorem Dev.onStand_bit (d : Dev) (f : StandSt → StandSt) (g : Fld) : (d.onStand f).bit g = d.bit g := rfl

@[simp] theorem Dev.onSaved_now (d : Dev) (f : SavedSt → SavedSt) : (d.onSaved f).now = d.now := rfl
@[simp] theorem Dev.onSaved_regs (d : Dev) (f : SavedSt → SavedSt) : (d.onSaved f).regs = d.regs := rfl
@[simp] theorem Dev.onSaved_out (d : Dev) (f : SavedSt → SavedSt) : (d.onSaved f).out = d.out := rfl
@[simp] theorem Dev.onSaved_freeIdx (d : Dev) (f : SavedSt → SavedSt) : (d.onSaved f).freeIdx = d.freeIdx := rfl
@[simp] theorem Dev.onSaved_ties (d : Dev) (f : SavedSt → SavedSt) : (d.onSaved f).ties = d.ties := rfl
@[simp] theorem Dev.onSaved_paths (d : Dev) (f : SavedSt → SavedSt) : (d.onSaved f).paths = d.paths := rfl
@[simp] theorem Dev.onSaved_host (d : Dev) (f : SavedSt → SavedSt) : (d.onSaved f).host = d.host := rfl
@[simp] theorem Dev.onSaved_sec (d : Dev) (f : SavedSt → SavedSt) : (d.onSaved f).sec = d.sec := rfl
@[simp] theorem Dev.onSaved_store (d : Dev) (f : SavedSt → SavedSt) : (d.onSaved f).store = d.store := rfl
@[simp] theorem Dev.onSaved_health (d : Dev) (f : SavedSt → SavedSt) : (d.onSaved f).health = d.health := rfl
@[simp] theorem Dev.onSaved_fpa (d : Dev) (f : SavedSt → SavedSt) : (d.onSaved f).fpa = d.fpa := rfl
@[simp] theorem Dev.onSaved_stage (d : Dev) (f : SavedSt → SavedSt) : (d.onSaved f).stage = d.stage := rfl
@[simp] theorem Dev.onSaved_aux (d : Dev) (f : SavedSt → SavedSt) : (d.onSaved f).aux = d.aux := rfl
@[simp] theorem Dev.onSaved_pipe (d : Dev) (f : SavedSt → SavedSt) : (d.onSaved f).pipe = d.pipe := rfl
@[simp] theorem Dev.onSaved_pwr (d : Dev) (f : SavedSt → SavedSt) : (d.onSaved f).pwr = d.pwr := rfl
@[simp] theorem Dev.onSaved_burin (d : Dev) (f : SavedSt → SavedSt) : (d.onSaved f).burin = d.burin := rfl
@[simp] theorem Dev.onSaved_web (d : Dev) (f : SavedSt → SavedSt) : (d.onSaved f).web = d.web := rfl
@[simp] theorem Dev.onSaved_stat (d : Dev) (f : SavedSt → SavedSt) : (d.onSaved f).stat = d.stat := rfl
@[simp] theorem Dev.onSaved_alarm (d : Dev) (f : SavedSt → SavedSt) : (d.onSaved f).alarm = d.alarm := rfl
@[simp] theorem Dev.onSaved_proof (d : Dev) (f : SavedSt → SavedSt) : (d.onSaved f).proof = d.proof := rfl
@[simp] theorem Dev.onSaved_glade (d : Dev) (f : SavedSt → SavedSt) : (d.onSaved f).glade = d.glade := rfl
@[simp] theorem Dev.onSaved_cc (d : Dev) (f : SavedSt → SavedSt) : (d.onSaved f).cc = d.cc := rfl
@[simp] theorem Dev.onSaved_link (d : Dev) (f : SavedSt → SavedSt) : (d.onSaved f).link = d.link := rfl
@[simp] theorem Dev.onSaved_stand (d : Dev) (f : SavedSt → SavedSt) : (d.onSaved f).stand = d.stand := rfl
@[simp] theorem Dev.onSaved_saved (d : Dev) (f : SavedSt → SavedSt) : (d.onSaved f).saved = f d.saved := rfl
@[simp] theorem Dev.onSaved_io (d : Dev) (f : SavedSt → SavedSt) : (d.onSaved f).io = d.io := rfl
@[simp] theorem Dev.onSaved_reg (d : Dev) (f : SavedSt → SavedSt) (o : Nat) : (d.onSaved f).reg o = d.reg o := rfl
@[simp] theorem Dev.onSaved_get (d : Dev) (f : SavedSt → SavedSt) (g : Fld) : (d.onSaved f).get g = d.get g := rfl
@[simp] theorem Dev.onSaved_bit (d : Dev) (f : SavedSt → SavedSt) (g : Fld) : (d.onSaved f).bit g = d.bit g := rfl

@[simp] theorem Dev.onIo_now (d : Dev) (f : IoSt → IoSt) : (d.onIo f).now = d.now := rfl
@[simp] theorem Dev.onIo_regs (d : Dev) (f : IoSt → IoSt) : (d.onIo f).regs = d.regs := rfl
@[simp] theorem Dev.onIo_out (d : Dev) (f : IoSt → IoSt) : (d.onIo f).out = d.out := rfl
@[simp] theorem Dev.onIo_freeIdx (d : Dev) (f : IoSt → IoSt) : (d.onIo f).freeIdx = d.freeIdx := rfl
@[simp] theorem Dev.onIo_ties (d : Dev) (f : IoSt → IoSt) : (d.onIo f).ties = d.ties := rfl
@[simp] theorem Dev.onIo_paths (d : Dev) (f : IoSt → IoSt) : (d.onIo f).paths = d.paths := rfl
@[simp] theorem Dev.onIo_host (d : Dev) (f : IoSt → IoSt) : (d.onIo f).host = d.host := rfl
@[simp] theorem Dev.onIo_sec (d : Dev) (f : IoSt → IoSt) : (d.onIo f).sec = d.sec := rfl
@[simp] theorem Dev.onIo_store (d : Dev) (f : IoSt → IoSt) : (d.onIo f).store = d.store := rfl
@[simp] theorem Dev.onIo_health (d : Dev) (f : IoSt → IoSt) : (d.onIo f).health = d.health := rfl
@[simp] theorem Dev.onIo_fpa (d : Dev) (f : IoSt → IoSt) : (d.onIo f).fpa = d.fpa := rfl
@[simp] theorem Dev.onIo_stage (d : Dev) (f : IoSt → IoSt) : (d.onIo f).stage = d.stage := rfl
@[simp] theorem Dev.onIo_aux (d : Dev) (f : IoSt → IoSt) : (d.onIo f).aux = d.aux := rfl
@[simp] theorem Dev.onIo_pipe (d : Dev) (f : IoSt → IoSt) : (d.onIo f).pipe = d.pipe := rfl
@[simp] theorem Dev.onIo_pwr (d : Dev) (f : IoSt → IoSt) : (d.onIo f).pwr = d.pwr := rfl
@[simp] theorem Dev.onIo_burin (d : Dev) (f : IoSt → IoSt) : (d.onIo f).burin = d.burin := rfl
@[simp] theorem Dev.onIo_web (d : Dev) (f : IoSt → IoSt) : (d.onIo f).web = d.web := rfl
@[simp] theorem Dev.onIo_stat (d : Dev) (f : IoSt → IoSt) : (d.onIo f).stat = d.stat := rfl
@[simp] theorem Dev.onIo_alarm (d : Dev) (f : IoSt → IoSt) : (d.onIo f).alarm = d.alarm := rfl
@[simp] theorem Dev.onIo_proof (d : Dev) (f : IoSt → IoSt) : (d.onIo f).proof = d.proof := rfl
@[simp] theorem Dev.onIo_glade (d : Dev) (f : IoSt → IoSt) : (d.onIo f).glade = d.glade := rfl
@[simp] theorem Dev.onIo_cc (d : Dev) (f : IoSt → IoSt) : (d.onIo f).cc = d.cc := rfl
@[simp] theorem Dev.onIo_link (d : Dev) (f : IoSt → IoSt) : (d.onIo f).link = d.link := rfl
@[simp] theorem Dev.onIo_stand (d : Dev) (f : IoSt → IoSt) : (d.onIo f).stand = d.stand := rfl
@[simp] theorem Dev.onIo_saved (d : Dev) (f : IoSt → IoSt) : (d.onIo f).saved = d.saved := rfl
@[simp] theorem Dev.onIo_io (d : Dev) (f : IoSt → IoSt) : (d.onIo f).io = f d.io := rfl
@[simp] theorem Dev.onIo_reg (d : Dev) (f : IoSt → IoSt) (o : Nat) : (d.onIo f).reg o = d.reg o := rfl
@[simp] theorem Dev.onIo_get (d : Dev) (f : IoSt → IoSt) (g : Fld) : (d.onIo f).get g = d.get g := rfl
@[simp] theorem Dev.onIo_bit (d : Dev) (f : IoSt → IoSt) (g : Fld) : (d.onIo f).bit g = d.bit g := rfl

/-! ### Writing register words and fields -/

@[simp] theorem Dev.setReg_now (d : Dev) (o : Nat) (w : Word) : (d.setReg o w).now = d.now := rfl
@[simp] theorem Dev.setReg_out (d : Dev) (o : Nat) (w : Word) : (d.setReg o w).out = d.out := rfl
@[simp] theorem Dev.setReg_freeIdx (d : Dev) (o : Nat) (w : Word) : (d.setReg o w).freeIdx = d.freeIdx := rfl
@[simp] theorem Dev.setReg_ties (d : Dev) (o : Nat) (w : Word) : (d.setReg o w).ties = d.ties := rfl
@[simp] theorem Dev.setReg_paths (d : Dev) (o : Nat) (w : Word) : (d.setReg o w).paths = d.paths := rfl
@[simp] theorem Dev.setReg_host (d : Dev) (o : Nat) (w : Word) : (d.setReg o w).host = d.host := rfl
@[simp] theorem Dev.setReg_sec (d : Dev) (o : Nat) (w : Word) : (d.setReg o w).sec = d.sec := rfl
@[simp] theorem Dev.setReg_store (d : Dev) (o : Nat) (w : Word) : (d.setReg o w).store = d.store := rfl
@[simp] theorem Dev.setReg_health (d : Dev) (o : Nat) (w : Word) : (d.setReg o w).health = d.health := rfl
@[simp] theorem Dev.setReg_fpa (d : Dev) (o : Nat) (w : Word) : (d.setReg o w).fpa = d.fpa := rfl
@[simp] theorem Dev.setReg_stage (d : Dev) (o : Nat) (w : Word) : (d.setReg o w).stage = d.stage := rfl
@[simp] theorem Dev.setReg_aux (d : Dev) (o : Nat) (w : Word) : (d.setReg o w).aux = d.aux := rfl
@[simp] theorem Dev.setReg_pipe (d : Dev) (o : Nat) (w : Word) : (d.setReg o w).pipe = d.pipe := rfl
@[simp] theorem Dev.setReg_pwr (d : Dev) (o : Nat) (w : Word) : (d.setReg o w).pwr = d.pwr := rfl
@[simp] theorem Dev.setReg_burin (d : Dev) (o : Nat) (w : Word) : (d.setReg o w).burin = d.burin := rfl
@[simp] theorem Dev.setReg_web (d : Dev) (o : Nat) (w : Word) : (d.setReg o w).web = d.web := rfl
@[simp] theorem Dev.setReg_stat (d : Dev) (o : Nat) (w : Word) : (d.setReg o w).stat = d.stat := rfl
@[simp] theorem Dev.setReg_alarm (d : Dev) (o : Nat) (w : Word) : (d.setReg o w).alarm = d.alarm := rfl
@[simp] theorem Dev.setReg_proof (d : Dev) (o : Nat) (w : Word) : (d.setReg o w).proof = d.proof := rfl
@[simp] theorem Dev.setReg_glade (d : Dev) (o : Nat) (w : Word) : (d.setReg o w).glade = d.glade := rfl
@[simp] theorem Dev.setReg_cc (d : Dev) (o : Nat) (w : Word) : (d.setReg o w).cc = d.cc := rfl
@[simp] theorem Dev.setReg_link (d : Dev) (o : Nat) (w : Word) : (d.setReg o w).link = d.link := rfl
@[simp] theorem Dev.setReg_stand (d : Dev) (o : Nat) (w : Word) : (d.setReg o w).stand = d.stand := rfl
@[simp] theorem Dev.setReg_saved (d : Dev) (o : Nat) (w : Word) : (d.setReg o w).saved = d.saved := rfl
@[simp] theorem Dev.setReg_io (d : Dev) (o : Nat) (w : Word) : (d.setReg o w).io = d.io := rfl
@[simp] theorem Dev.put_now (d : Dev) (g : Fld) (v : Nat) : (d.put g v).now = d.now := by unfold Dev.put; dsimp only; split <;> rfl
@[simp] theorem Dev.put_out (d : Dev) (g : Fld) (v : Nat) : (d.put g v).out = d.out := by unfold Dev.put; dsimp only; split <;> rfl
@[simp] theorem Dev.put_freeIdx (d : Dev) (g : Fld) (v : Nat) : (d.put g v).freeIdx = d.freeIdx := by unfold Dev.put; dsimp only; split <;> rfl
@[simp] theorem Dev.put_ties (d : Dev) (g : Fld) (v : Nat) : (d.put g v).ties = d.ties := by unfold Dev.put; dsimp only; split <;> rfl
@[simp] theorem Dev.put_paths (d : Dev) (g : Fld) (v : Nat) : (d.put g v).paths = d.paths := by unfold Dev.put; dsimp only; split <;> rfl
@[simp] theorem Dev.put_host (d : Dev) (g : Fld) (v : Nat) : (d.put g v).host = d.host := by unfold Dev.put; dsimp only; split <;> rfl
@[simp] theorem Dev.put_sec (d : Dev) (g : Fld) (v : Nat) : (d.put g v).sec = d.sec := by unfold Dev.put; dsimp only; split <;> rfl
@[simp] theorem Dev.put_store (d : Dev) (g : Fld) (v : Nat) : (d.put g v).store = d.store := by unfold Dev.put; dsimp only; split <;> rfl
@[simp] theorem Dev.put_health (d : Dev) (g : Fld) (v : Nat) : (d.put g v).health = d.health := by unfold Dev.put; dsimp only; split <;> rfl
@[simp] theorem Dev.put_fpa (d : Dev) (g : Fld) (v : Nat) : (d.put g v).fpa = d.fpa := by unfold Dev.put; dsimp only; split <;> rfl
@[simp] theorem Dev.put_stage (d : Dev) (g : Fld) (v : Nat) : (d.put g v).stage = d.stage := by unfold Dev.put; dsimp only; split <;> rfl
@[simp] theorem Dev.put_aux (d : Dev) (g : Fld) (v : Nat) : (d.put g v).aux = d.aux := by unfold Dev.put; dsimp only; split <;> rfl
@[simp] theorem Dev.put_pipe (d : Dev) (g : Fld) (v : Nat) : (d.put g v).pipe = d.pipe := by unfold Dev.put; dsimp only; split <;> rfl
@[simp] theorem Dev.put_pwr (d : Dev) (g : Fld) (v : Nat) : (d.put g v).pwr = d.pwr := by unfold Dev.put; dsimp only; split <;> rfl
@[simp] theorem Dev.put_burin (d : Dev) (g : Fld) (v : Nat) : (d.put g v).burin = d.burin := by unfold Dev.put; dsimp only; split <;> rfl
@[simp] theorem Dev.put_web (d : Dev) (g : Fld) (v : Nat) : (d.put g v).web = d.web := by unfold Dev.put; dsimp only; split <;> rfl
@[simp] theorem Dev.put_stat (d : Dev) (g : Fld) (v : Nat) : (d.put g v).stat = d.stat := by unfold Dev.put; dsimp only; split <;> rfl
@[simp] theorem Dev.put_alarm (d : Dev) (g : Fld) (v : Nat) : (d.put g v).alarm = d.alarm := by unfold Dev.put; dsimp only; split <;> rfl
@[simp] theorem Dev.put_proof (d : Dev) (g : Fld) (v : Nat) : (d.put g v).proof = d.proof := by unfold Dev.put; dsimp only; split <;> rfl
@[simp] theorem Dev.put_glade (d : Dev) (g : Fld) (v : Nat) : (d.put g v).glade = d.glade := by unfold Dev.put; dsimp only; split <;> rfl
@[simp] theorem Dev.put_cc (d : Dev) (g : Fld) (v : Nat) : (d.put g v).cc = d.cc := by unfold Dev.put; dsimp only; split <;> rfl
@[simp] theorem Dev.put_link (d : Dev) (g : Fld) (v : Nat) : (d.put g v).link = d.link := by unfold Dev.put; dsimp only; split <;> rfl
@[simp] theorem Dev.put_stand (d : Dev) (g : Fld) (v : Nat) : (d.put g v).stand = d.stand := by unfold Dev.put; dsimp only; split <;> rfl
@[simp] theorem Dev.put_saved (d : Dev) (g : Fld) (v : Nat) : (d.put g v).saved = d.saved := by unfold Dev.put; dsimp only; split <;> rfl
@[simp] theorem Dev.put_io (d : Dev) (g : Fld) (v : Nat) : (d.put g v).io = d.io := by unfold Dev.put; dsimp only; split <;> rfl
@[simp] theorem Dev.tieBits_now (d : Dev) (o m : Nat) : (d.tieBits o m).now = d.now := rfl
@[simp] theorem Dev.tieBits_regs (d : Dev) (o m : Nat) : (d.tieBits o m).regs = d.regs := rfl
@[simp] theorem Dev.tieBits_out (d : Dev) (o m : Nat) : (d.tieBits o m).out = d.out := rfl
@[simp] theorem Dev.tieBits_freeIdx (d : Dev) (o m : Nat) : (d.tieBits o m).freeIdx = d.freeIdx := rfl
@[simp] theorem Dev.tieBits_paths (d : Dev) (o m : Nat) : (d.tieBits o m).paths = d.paths := rfl
@[simp] theorem Dev.tieBits_host (d : Dev) (o m : Nat) : (d.tieBits o m).host = d.host := rfl
@[simp] theorem Dev.tieBits_sec (d : Dev) (o m : Nat) : (d.tieBits o m).sec = d.sec := rfl
@[simp] theorem Dev.tieBits_store (d : Dev) (o m : Nat) : (d.tieBits o m).store = d.store := rfl
@[simp] theorem Dev.tieBits_health (d : Dev) (o m : Nat) : (d.tieBits o m).health = d.health := rfl
@[simp] theorem Dev.tieBits_fpa (d : Dev) (o m : Nat) : (d.tieBits o m).fpa = d.fpa := rfl
@[simp] theorem Dev.tieBits_stage (d : Dev) (o m : Nat) : (d.tieBits o m).stage = d.stage := rfl
@[simp] theorem Dev.tieBits_aux (d : Dev) (o m : Nat) : (d.tieBits o m).aux = d.aux := rfl
@[simp] theorem Dev.tieBits_pipe (d : Dev) (o m : Nat) : (d.tieBits o m).pipe = d.pipe := rfl
@[simp] theorem Dev.tieBits_pwr (d : Dev) (o m : Nat) : (d.tieBits o m).pwr = d.pwr := rfl
@[simp] theorem Dev.tieBits_burin (d : Dev) (o m : Nat) : (d.tieBits o m).burin = d.burin := rfl
@[simp] theorem Dev.tieBits_web (d : Dev) (o m : Nat) : (d.tieBits o m).web = d.web := rfl
@[simp] theorem Dev.tieBits_stat (d : Dev) (o m : Nat) : (d.tieBits o m).stat = d.stat := rfl
@[simp] theorem Dev.tieBits_alarm (d : Dev) (o m : Nat) : (d.tieBits o m).alarm = d.alarm := rfl
@[simp] theorem Dev.tieBits_proof (d : Dev) (o m : Nat) : (d.tieBits o m).proof = d.proof := rfl
@[simp] theorem Dev.tieBits_glade (d : Dev) (o m : Nat) : (d.tieBits o m).glade = d.glade := rfl
@[simp] theorem Dev.tieBits_cc (d : Dev) (o m : Nat) : (d.tieBits o m).cc = d.cc := rfl
@[simp] theorem Dev.tieBits_link (d : Dev) (o m : Nat) : (d.tieBits o m).link = d.link := rfl
@[simp] theorem Dev.tieBits_stand (d : Dev) (o m : Nat) : (d.tieBits o m).stand = d.stand := rfl
@[simp] theorem Dev.tieBits_saved (d : Dev) (o m : Nat) : (d.tieBits o m).saved = d.saved := rfl
@[simp] theorem Dev.tieBits_io (d : Dev) (o m : Nat) : (d.tieBits o m).io = d.io := rfl
@[simp] theorem Dev.tieBits_reg (d : Dev) (o m j : Nat) : (d.tieBits o m).reg j = d.reg j := rfl
@[simp] theorem Dev.tieBits_get (d : Dev) (o m : Nat) (g : Fld) : (d.tieBits o m).get g = d.get g := rfl
@[simp] theorem Dev.tieBits_bit (d : Dev) (o m : Nat) (g : Fld) : (d.tieBits o m).bit g = d.bit g := rfl

@[simp] theorem Dev.putBit_eq (d : Dev) (g : Fld) (b : Bool) : d.putBit g b = d.put g (b2n b) := rfl
@[simp] theorem Dev.putI_eq (d : Dev) (g : Fld) (v : Int) : d.putI g v = d.put g (uns g.w v) := rfl
@[simp] theorem Dev.tie_eq (d : Dev) (g : Fld) : d.tie g = d.tieBits g.reg ((2 ^ g.w - 1) * 2 ^ g.lo) := rfl
@[simp] theorem Dev.flag_eq (d : Dev) (g : Fld) : d.flag g = (d.put g 1).tie g := rfl
@[simp] theorem Dev.inc_eq (d : Dev) (g : Fld) : d.inc g = (d.put g (satN g.w (d.get g + 1))).tie g := rfl
@[simp] theorem Dev.addSat_eq (d : Dev) (g : Fld) (n : Nat) : d.addSat g n = if n = 0 then d else (d.put g (satN g.w (d.get g + n))).tie g := rfl
@[simp] theorem Dev.incWrap_eq (d : Dev) (g : Fld) : d.incWrap g = (d.put g (d.get g + 1)).tie g := rfl

/-! ### What a register reads -/

theorem Dev.reg_eq_get (d : Dev) (o : Nat) : d.reg o = Tab.get (regReset o) d.regs o := by
  have h : ∀ (z : Word) (t : List (Nat × Word)),
      (match t.find? (fun p => p.1 == o) with | some p => p.2 | none => z) = Tab.get z t o := by
    intro z t
    induction t with
    | nil => rfl
    | cons p t ih =>
      obtain ⟨a, v⟩ := p
      by_cases h : a = o
      · simp [List.find?, h, Tab.get]
      · have h' : (a == o) = false := by simpa using h
        simp only [List.find?, h', Tab.get, if_neg h]; exact ih
  exact h (regReset o) d.regs

/-- A register word written is read back, and no other word changes. -/
theorem Dev.reg_setReg (d : Dev) (o : Nat) (w : Word) (j : Nat) : (d.setReg o w).reg j = if j = o then w else d.reg j := by
  rw [Dev.reg_eq_get, Dev.reg_eq_get]
  have h : (d.setReg o w).regs = Tab.set (regReset o) d.regs o w := rfl
  rw [h]
  by_cases hj : j = o
  · subst hj; simp
  · rw [if_neg hj]
    unfold Tab.set
    split
    · rw [Tab.get_del, if_neg hj]
    · rw [Tab.get_ins, if_neg hj]

/-- The bits of a word with a field replaced. -/
theorem insField_testBit (w lo wd v i : Nat) :
    (insField w lo wd v).testBit i = if lo ≤ i ∧ i < lo + wd then v.testBit (i - lo) else w.testBit i := by
  have hdm : w / 2 ^ lo = 2 ^ wd * (w / 2 ^ (lo + wd)) + w / 2 ^ lo % 2 ^ wd := by
    rw [Nat.pow_add, ← Nat.div_div_eq_div_mul]; exact (Nat.div_add_mod _ _).symm
  have hw : w = 2 ^ lo * (w / 2 ^ lo) + w % 2 ^ lo := (Nat.div_add_mod _ _).symm
  have hlt : w % 2 ^ lo < 2 ^ lo := Nat.mod_lt _ (Nat.two_pow_pos _)
  have hv : v % 2 ^ wd < 2 ^ wd := Nat.mod_lt _ (Nat.two_pow_pos _)
  have key : insField w lo wd v = 2 ^ lo * (2 ^ wd * (w / 2 ^ (lo + wd)) + v % 2 ^ wd) + w % 2 ^ lo := by
    unfold insField
    generalize hq : w / 2 ^ (lo + wd) = q at *
    generalize hm : w / 2 ^ lo % 2 ^ wd = m at *
    generalize hr : w % 2 ^ lo = r at *
    generalize hu : v % 2 ^ wd = u at *
    rw [hw, hdm, Nat.mul_add, Nat.mul_add, Nat.mul_comm m, Nat.mul_comm u]
    omega
  rw [key, Nat.testBit_two_pow_mul_add _ hlt]
  by_cases h1 : i < lo
  · rw [if_pos h1, if_neg (by omega), Nat.testBit_mod_two_pow]; simp [h1]
  · rw [if_neg h1, Nat.testBit_two_pow_mul_add _ hv]
    by_cases h2 : i - lo < wd
    · rw [if_pos h2, if_pos (by omega), Nat.testBit_mod_two_pow]; simp [h2]
    · rw [if_neg h2, if_neg (by omega), Nat.testBit_div_two_pow]; congr 1; omega

/-- The bits of the word or pair a field lies in. -/
theorem Dev.fieldWord_testBit (d : Dev) (f : Fld) (i : Nat) :
    (d.fieldWord f).testBit i =
      if i < 32 then (d.reg f.reg).toNat.testBit i else if f.pair then (d.reg (f.reg + 4)).toNat.testBit (i - 32) else false := by
  have hlt : (d.reg f.reg).toNat < 2 ^ 32 := (d.reg f.reg).isLt
  unfold Dev.fieldWord
  split
  · rw [Nat.add_comm, Nat.testBit_two_pow_mul_add _ hlt]
  · split
    · rfl
    · rename_i h1 h; exact Nat.testBit_lt_two_pow (Nat.lt_of_lt_of_le hlt (Nat.pow_le_pow_right (by omega) (by omega)))

/-- A field lies inside its word or pair. -/
def Fld.ok (f : Fld) : Bool := decide (f.lo + f.w ≤ if f.pair then 64 else 32)

/-- Two fields share no bit. -/
def Fld.sep (f g : Fld) : Bool :=
  if f.reg = g.reg then
    decide (f.pair = g.pair) && (decide (f.lo + f.w ≤ g.lo) || decide (g.lo + g.w ≤ f.lo)) && g.ok
  else !(f.pair && decide (f.reg + 4 = g.reg)) && !(g.pair && decide (g.reg + 4 = f.reg))

theorem Dev.fieldWord_put_same (d : Dev) (f g : Fld) (v i : Nat) (hr : f.reg = g.reg) (hp : f.pair = g.pair)
    (hi : i < if g.pair then 64 else 32) :
    ((d.put f v).fieldWord g).testBit i = (insField (d.fieldWord f) f.lo f.w v).testBit i := by
  obtain ⟨r, st, ct, lo, w, p⟩ := f
  obtain ⟨r', st', ct', lo', w', p'⟩ := g
  simp only at hr hp hi
  subst hr hp
  rw [Dev.fieldWord_testBit]
  unfold Dev.put
  dsimp only
  cases p
  · simp only [Bool.false_eq_true, if_false] at hi ⊢
    rw [if_pos hi, Dev.reg_setReg, if_pos rfl, BitVec.toNat_ofNat, Nat.testBit_mod_two_pow]
    simp [hi]
  · simp only [if_true] at hi ⊢
    simp only [Dev.reg_setReg]
    split
    · rename_i h32
      rw [if_neg (by omega), if_true, BitVec.toNat_ofNat, Nat.testBit_mod_two_pow]; simp [h32]
    · rename_i h32
      rw [if_true, BitVec.toNat_ofNat, Nat.testBit_mod_two_pow, Nat.testBit_div_two_pow]
      simp only [show i - 32 < 32 from by omega, decide_true, Bool.true_and]
      congr 1; omega

theorem Dev.get_testBit (d : Dev) (f : Fld) (i : Nat) :
    (d.get f).testBit i = (decide (i < f.w) && (d.fieldWord f).testBit (f.lo + i)) := by
  unfold Dev.get
  rw [Nat.testBit_mod_two_pow, Nat.testBit_div_two_pow, Nat.add_comm]

/-- A field written is read back. -/
theorem Dev.get_put_same (d : Dev) (f : Fld) (v : Nat) (h : f.ok = true) : (d.put f v).get f = v % 2 ^ f.w := by
  apply Nat.eq_of_testBit_eq
  intro i
  simp only [Fld.ok, decide_eq_true_eq] at h
  rw [Dev.get_testBit, Nat.testBit_mod_two_pow]
  by_cases hi : i < f.w
  · simp only [hi, decide_true, Bool.true_and]
    rw [Dev.fieldWord_put_same d f f v _ rfl rfl (by omega), insField_testBit, if_pos (by omega)]
    congr 1; omega
  · simp [hi]

/-- A field written changes no field that shares no bit with it. -/
theorem Dev.get_put_sep (d : Dev) (f g : Fld) (v : Nat) (h : f.sep g = true) : (d.put f v).get g = d.get g := by
  unfold Fld.sep at h
  split at h
  · rename_i hr
    simp only [Bool.and_eq_true, decide_eq_true_eq, Bool.or_eq_true, Fld.ok] at h
    obtain ⟨⟨hp, hb⟩, hok⟩ := h
    apply Nat.eq_of_testBit_eq
    intro i
    rw [Dev.get_testBit, Dev.get_testBit]
    by_cases hi : i < g.w
    · simp only [hi, decide_true, Bool.true_and]
      rw [Dev.fieldWord_put_same d f g v _ hr hp (by omega), insField_testBit, if_neg (by omega)]
      rw [Dev.fieldWord_testBit, Dev.fieldWord_testBit, hr, hp]
    · simp [hi]
  · rename_i hr
    simp only [Bool.and_eq_true, Bool.not_eq_true', Bool.and_eq_false_imp, decide_eq_false_iff_not] at h
    obtain ⟨h1, h2⟩ := h
    have hreg : ∀ o, (o = g.reg ∨ (g.pair = true ∧ o = g.reg + 4)) → (d.put f v).reg o = d.reg o := by
      intro o ho
      have ne1 : o ≠ f.reg := by
        rcases ho with ho | ⟨hp, ho⟩
        · subst ho; exact fun e => hr e.symm
        · subst ho; exact h2 hp
      have ne2 : f.pair = true → o ≠ f.reg + 4 := by
        intro hp
        rcases ho with ho | ⟨_, ho⟩
        · subst ho; exact fun e => h1 hp e.symm
        · subst ho; omega
      unfold Dev.put
      dsimp only
      split
      · rename_i hp; rw [Dev.reg_setReg, if_neg (ne2 hp), Dev.reg_setReg, if_neg ne1]
      · rw [Dev.reg_setReg, if_neg ne1]
    have hw : (d.put f v).fieldWord g = d.fieldWord g := by
      unfold Dev.fieldWord
      split
      · rename_i hp; rw [hreg _ (.inl rfl), hreg _ (.inr ⟨hp, rfl⟩)]
      · rw [hreg _ (.inl rfl)]
    unfold Dev.get
    rw [hw]

theorem Dev.bit_put_same (d : Dev) (f : Fld) (v : Nat) (h : f.ok = true) : (d.put f v).bit f = (v % 2 ^ f.w == 1) := by
  unfold Dev.bit; rw [Dev.get_put_same d f v h]

theorem Dev.bit_put_sep (d : Dev) (f g : Fld) (v : Nat) (h : f.sep g = true) : (d.put f v).bit g = d.bit g := by
  unfold Dev.bit; rw [Dev.get_put_sep d f g v h]

theorem Dev.tiedFld_put (d : Dev) (f g : Fld) (v : Nat) : (d.put f v).tiedFld g = d.tiedFld g := by
  unfold Dev.tiedFld Dev.tied; rw [Dev.put_ties]

/-- A counter that is cleared reads 0, or 1 where it counted in this clock, and so does every other one of the list (R26). -/
theorem Dev.get_clearAll (g : Fld) (hg : g.ok = true) (hw : 0 < g.w) : ∀ (fs : List Fld) (d : Dev),
    (∀ f ∈ fs, f = g ∨ f.sep g = true) → (d.clearAll fs).get g = if g ∈ fs then b2n (d.tiedFld g) else d.get g := by
  intro fs
  induction fs with
  | nil => intro d _; rfl
  | cons f fs ih =>
    intro d h
    have hs := ih (d.put f (b2n (d.tiedFld f))) (fun x hx => h x (List.mem_cons_of_mem _ hx))
    have e : d.clearAll (f :: fs) = (d.put f (b2n (d.tiedFld f))).clearAll fs := rfl
    rw [e, hs, Dev.tiedFld_put]
    by_cases hm : g ∈ fs
    · simp [hm]
    · rw [if_neg hm]
      rcases h f (List.mem_cons_self) with h1 | h1
      · subst h1
        rw [Dev.get_put_same d f _ hg, if_pos (List.mem_cons_self), Nat.mod_eq_of_lt]
        exact Nat.lt_of_le_of_lt (by unfold b2n; split <;> omega) (Nat.one_lt_two_pow (by omega) : 1 < 2 ^ f.w)
      · rw [Dev.get_put_sep d f g _ h1]
        have : g ≠ f := by
          intro e2; subst e2
          simp only [Fld.sep, if_true, Bool.and_eq_true, decide_eq_true_eq, Bool.or_eq_true] at h1
          omega
        simp [hm, this]

end Sys2Proof.Machine
end

