-- ==== Sys2Proof/Laws/Within.lean ====
section
/-! SUPPORT. Frames of the operations on the block: which registers and which parts an operation can change. A set of registers
is a number whose bit j stands for row j of the register index, a set of parts a number whose bit p stands for part p. -/

namespace Sys2Proof.Machine

open Sys2Proof

/-- The number of a part. -/
def Part.idx : Part → Nat
  | .now => 0
  | .out => 1
  | .freeIdx => 2
  | .paths => 3
  | .host => 4
  | .sec => 5
  | .store => 6
  | .health => 7
  | .fpa => 8
  | .stage => 9
  | .aux => 10
  | .pipe => 11
  | .pwr => 12
  | .burin => 13
  | .web => 14
  | .stat => 15
  | .alarm => 16
  | .proof => 17
  | .glade => 18
  | .cc => 19
  | .link => 20
  | .stand => 21
  | .saved => 22
  | .io => 23

/-- An offset is no word of a register of the set. -/
def OutOf (M o : Nat) : Prop := ∀ j r, regRows[j]? = some r → M.testBit j = true → ¬ r.holds o

/-- From `d` to `e` only registers of `M` and parts of `P` differ. -/
structure Within (M P : Nat) (d e : Dev) : Prop where
  regs : ∀ o, OutOf M o → e.reg o = d.reg o
  parts : ∀ p : Part, P.testBit p.idx = false → p.same d e

/-- Offset, number, stride, count and pair mark of the rows of a block. -/
def rowTab : Nat → List (Nat × Nat × Nat × Nat × Bool)
  | 0 => [(0x0, 0, 0, 1, false), (0x10, 1, 0, 1, true), (0x20, 2, 0, 1, false), (0x24, 3, 0, 1, false), (0x28, 4, 0, 1, false),
    (0x30, 5, 0, 1, false), (0x34, 6, 0, 1, false), (0x1000, 7, 0, 1, false), (0x1004, 8, 0, 1, false), (0x1008, 9, 0, 1, false),
    (0x10F0, 10, 0, 1, false), (0x2000, 11, 4, 4, false), (0x2010, 12, 4, 4, false), (0x2020, 13, 0, 1, false), (0x2024, 14, 0, 1, false),
    (0x2028, 15, 0, 1, false), (0x202C, 16, 0, 1, false), (0x2040, 17, 0, 1, false), (0x2044, 18, 0, 1, false), (0x2048, 19, 0, 1, false),
    (0x204C, 20, 0, 1, false), (0x2050, 21, 0, 1, false), (0x2054, 22, 0, 1, false), (0x20F0, 23, 0, 1, false)]
  | 1 => [(0x4000, 24, 0, 1, false), (0x4004, 25, 0, 1, false), (0x4008, 26, 0, 1, false), (0x400C, 27, 0, 1, false), (0x4010, 28, 0, 1, false),
    (0x4014, 29, 0, 1, false), (0x4018, 30, 0, 1, true), (0x4020, 31, 0, 1, false), (0x4028, 32, 0, 1, true), (0x4030, 33, 0, 1, true),
    (0x4038, 34, 0, 1, false), (0x403C, 35, 0, 1, false), (0x4040, 36, 0, 1, false), (0x4080, 37, 0, 1, false), (0x4084, 38, 0, 1, false),
    (0x4088, 39, 0, 1, false), (0x408C, 40, 0, 1, false), (0x4090, 41, 0, 1, false), (0x4094, 42, 0, 1, false), (0x40A0, 43, 4, 4, false),
    (0x40C0, 44, 0, 1, false), (0x4100, 45, 32, 4, false), (0x4104, 46, 32, 4, false), (0x4108, 47, 32, 4, false), (0x410C, 48, 32, 4, false),
    (0x4110, 49, 32, 4, false), (0x4114, 50, 32, 4, false), (0x4118, 51, 32, 4, false), (0x411C, 52, 32, 4, false), (0x4200, 53, 4, 80, false),
    (0x4400, 54, 4, 80, false)]
  | 2 => [(0x8000, 55, 0, 1, false), (0x8004, 56, 0, 1, false), (0x8008, 57, 0, 1, false), (0x800C, 58, 0, 1, false), (0x8040, 59, 0, 1, false),
    (0x8044, 60, 0, 1, false), (0x8048, 61, 0, 1, false), (0x804C, 62, 0, 1, false), (0x8050, 63, 0, 1, false), (0x8058, 64, 0, 1, true),
    (0x8060, 65, 0, 1, false), (0x8080, 66, 0, 1, false), (0x8084, 67, 0, 1, false), (0x8088, 68, 0, 1, false), (0x808C, 69, 0, 1, false),
    (0x8090, 70, 0, 1, false), (0x8094, 71, 0, 1, false), (0x80C0, 72, 0, 1, false), (0x80C4, 73, 0, 1, false), (0x80C8, 74, 0, 1, false),
    (0x80CC, 75, 0, 1, false), (0x80F0, 76, 0, 1, false), (0xA000, 77, 0, 1, false), (0xA004, 78, 0, 1, false), (0xA008, 79, 0, 1, false),
    (0xA00C, 80, 0, 1, false), (0xA010, 81, 0, 1, false), (0xA014, 82, 0, 1, false), (0xA018, 83, 0, 1, false), (0xA040, 84, 0, 1, false),
    (0xA044, 85, 0, 1, false), (0xA048, 86, 0, 1, false), (0xA04C, 87, 0, 1, false), (0xA050, 88, 4, 8, false), (0xA070, 89, 0, 1, false),
    (0xA074, 90, 0, 1, false), (0xA078, 91, 0, 1, false), (0xA07C, 92, 0, 1, false), (0xA080, 93, 0, 1, false), (0xA090, 94, 0, 1, false),
    (0xA094, 95, 0, 1, false), (0xA098, 96, 0, 1, false), (0xA0A0, 97, 0, 1, false), (0xA0A4, 98, 0, 1, false), (0xA0A8, 99, 0, 1, false),
    (0xA0AC, 100, 0, 1, false), (0xA0B0, 101, 4, 2, false), (0xA0B8, 102, 0, 1, false), (0xA0BC, 103, 0, 1, false), (0xA0E0, 104, 0, 1, false),
    (0xA0E4, 105, 0, 1, false), (0xA0E8, 106, 0, 1, false), (0xA0EC, 107, 0, 1, false), (0xA0F0, 108, 0, 1, false), (0xA0F4, 109, 0, 1, false),
    (0xA0F8, 110, 0, 1, false), (0xA100, 111, 0, 1, true), (0xA108, 112, 0, 1, false)]
  | 3 => [(0xC000, 113, 0, 1, false), (0xC004, 114, 0, 1, false), (0xC008, 115, 0, 1, false), (0xC00C, 116, 0, 1, false), (0xC020, 117, 0, 1, false),
    (0xC024, 118, 0, 1, false), (0xC028, 119, 0, 1, false), (0xC02C, 120, 0, 1, false), (0xC030, 121, 0, 1, false), (0xC040, 122, 0, 1, false),
    (0xC044, 123, 0, 1, false), (0xC048, 124, 0, 1, false), (0xC04C, 125, 0, 1, false), (0xC050, 126, 0, 1, false), (0xC054, 127, 0, 1, false),
    (0xC058, 128, 0, 1, false), (0xC060, 129, 0, 1, false), (0xC064, 130, 0, 1, false), (0xC068, 131, 0, 1, false), (0xC080, 132, 0, 1, false),
    (0xC084, 133, 0, 1, false), (0xC088, 134, 0, 1, false), (0xC090, 135, 0, 1, true), (0xC098, 136, 0, 1, true), (0xC0B0, 137, 0, 1, true),
    (0xC0B8, 138, 0, 1, false), (0xC0BC, 139, 0, 1, false), (0xC0C0, 140, 0, 1, false), (0xC0C4, 141, 0, 1, false), (0xC0C8, 142, 0, 1, false),
    (0xC0CC, 143, 0, 1, false), (0xC0D0, 144, 0, 1, true), (0xC0F0, 145, 0, 1, false), (0xC100, 146, 0, 1, false), (0xC104, 147, 0, 1, false),
    (0xC108, 148, 0, 1, false), (0xC10C, 149, 0, 1, false)]
  | 4 => [(0x10000, 150, 0, 1, false), (0x10004, 151, 0, 1, false), (0x10008, 152, 0, 1, false), (0x1000C, 153, 0, 1, false), (0x10010, 154, 0, 1, false),
    (0x10014, 155, 0, 1, false), (0x10018, 156, 0, 1, true), (0x10020, 157, 0, 1, true), (0x10028, 158, 0, 1, false), (0x1002C, 159, 0, 1, false),
    (0x10030, 160, 0, 1, false), (0x10034, 161, 0, 1, false), (0x10038, 162, 0, 1, true), (0x10040, 163, 0, 1, false), (0x10044, 164, 0, 1, false),
    (0x10048, 165, 0, 1, false), (0x1004C, 166, 0, 1, false), (0x10050, 167, 0, 1, true), (0x10060, 168, 0, 1, false), (0x10064, 169, 0, 1, false),
    (0x10068, 170, 0, 1, false), (0x1006C, 171, 0, 1, false), (0x10070, 172, 0, 1, false), (0x10080, 173, 0, 1, false), (0x10084, 174, 0, 1, false),
    (0x10088, 175, 0, 1, true), (0x10090, 176, 0, 1, true), (0x100A0, 177, 0, 1, false), (0x100A4, 178, 0, 1, false), (0x100A8, 179, 0, 1, true),
    (0x100B0, 180, 0, 1, false), (0x100B4, 181, 0, 1, false), (0x100B8, 182, 0, 1, false), (0x100BC, 183, 0, 1, false), (0x100C0, 184, 0, 1, false)]
  | 5 => [(0x14000, 185, 0, 1, false), (0x14004, 186, 0, 1, false), (0x14008, 187, 0, 1, false), (0x1400C, 188, 0, 1, false), (0x14010, 189, 0, 1, false),
    (0x14014, 190, 0, 1, false), (0x14018, 191, 0, 1, true), (0x14020, 192, 0, 1, false), (0x14024, 193, 0, 1, false), (0x14028, 194, 0, 1, false),
    (0x1402C, 195, 0, 1, false), (0x14040, 196, 0, 1, false), (0x14060, 197, 0, 1, false), (0x14080, 198, 8, 16, false), (0x14084, 199, 8, 16, false),
    (0x14100, 200, 8, 16, false), (0x14104, 201, 8, 16, false), (0x14200, 202, 4, 4, false), (0x14240, 203, 4, 16, false), (0x14280, 204, 0, 1, false),
    (0x14290, 205, 4, 4, false), (0x142A0, 206, 0, 1, false), (0x142A4, 207, 0, 1, false), (0x142B0, 208, 0, 1, false), (0x14400, 209, 4, 256, false),
    (0x14800, 210, 4, 256, false)]
  | 6 => [(0x18000, 211, 0, 1, false), (0x18004, 212, 0, 1, false), (0x18008, 213, 0, 1, true), (0x18010, 214, 0, 1, false), (0x18014, 215, 0, 1, false),
    (0x18018, 216, 0, 1, false), (0x1801C, 217, 0, 1, false), (0x18100, 218, 64, 3, false), (0x18104, 219, 64, 3, false), (0x18108, 220, 64, 3, true),
    (0x18110, 221, 64, 3, false), (0x18114, 222, 64, 3, false), (0x18118, 223, 64, 3, false), (0x1811C, 224, 64, 3, false), (0x18120, 225, 64, 3, false),
    (0x18124, 226, 64, 3, false), (0x18128, 227, 64, 3, false), (0x1812C, 228, 64, 3, false), (0x18130, 229, 64, 3, false), (0x18134, 230, 64, 3, false),
    (0x18138, 231, 64, 3, false), (0x1813C, 232, 64, 3, false), (0x18200, 233, 0, 1, false), (0x18204, 234, 0, 1, false), (0x18208, 235, 0, 1, false),
    (0x1820C, 236, 0, 1, false), (0x18210, 237, 0, 1, false), (0x18240, 238, 0, 1, false), (0x18244, 239, 0, 1, false), (0x18248, 240, 0, 1, false),
    (0x1824C, 241, 0, 1, false), (0x18250, 242, 0, 1, false)]
  | 7 => [(0x1C000, 243, 0, 1, false), (0x1C004, 244, 0, 1, false), (0x1C008, 245, 0, 1, false), (0x1C00C, 246, 0, 1, false), (0x1C010, 247, 0, 1, true),
    (0x1C018, 248, 0, 1, true), (0x1C020, 249, 0, 1, false), (0x1C024, 250, 0, 1, false), (0x1C028, 251, 0, 1, false), (0x1C02C, 252, 0, 1, false),
    (0x1C030, 253, 0, 1, false), (0x1C034, 254, 0, 1, false), (0x1C038, 255, 0, 1, false), (0x1C040, 256, 0, 1, false), (0x1C044, 257, 0, 1, false),
    (0x1C048, 258, 0, 1, false), (0x1C04C, 259, 0, 1, false), (0x1C050, 260, 0, 1, false), (0x1C054, 261, 0, 1, false), (0x1C058, 262, 0, 1, false),
    (0x1C060, 263, 0, 1, false), (0x1C064, 264, 0, 1, false), (0x1C068, 265, 0, 1, false), (0x1C06C, 266, 0, 1, false), (0x1C070, 267, 0, 1, false),
    (0x1C074, 268, 0, 1, false), (0x1C080, 269, 0, 1, false), (0x1C084, 270, 0, 1, false), (0x1C088, 271, 0, 1, false), (0x1C08C, 272, 0, 1, false),
    (0x1C0F0, 273, 0, 1, false), (0x1C100, 274, 4, 32, false), (0x1C180, 275, 4, 32, false)]
  | 8 => [(0x20000, 276, 0, 1, false), (0x20004, 277, 0, 1, false), (0x20008, 278, 0, 1, true), (0x20010, 279, 0, 1, true), (0x20018, 280, 0, 1, false),
    (0x20020, 281, 0, 1, false), (0x20024, 282, 0, 1, false), (0x20028, 283, 0, 1, false), (0x2002C, 284, 0, 1, false), (0x2003C, 285, 0, 1, false),
    (0x20040, 286, 0, 1, false), (0x20044, 287, 0, 1, false), (0x20048, 288, 0, 1, false), (0x20050, 289, 0, 1, true), (0x20058, 290, 0, 1, true),
    (0x20060, 291, 0, 1, true), (0x20100, 292, 4, 32, false), (0x20200, 293, 32, 8, false), (0x20204, 294, 32, 8, false), (0x20208, 295, 32, 8, false),
    (0x2020C, 296, 32, 8, true), (0x20400, 297, 64, 16, true), (0x20408, 298, 64, 16, false), (0x2040C, 299, 64, 16, false), (0x20410, 300, 64, 16, false),
    (0x20414, 301, 64, 16, false), (0x20418, 302, 64, 16, false), (0x2041C, 303, 64, 16, false)]
  | 9 => [(0x24000, 304, 0, 1, false), (0x24004, 305, 0, 1, false), (0x24010, 306, 4, 8, false), (0x24040, 307, 8, 8, true), (0x24080, 308, 0, 1, false),
    (0x24084, 309, 0, 1, false), (0x24088, 310, 0, 1, false), (0x2408C, 311, 0, 1, false), (0x24090, 312, 0, 1, false), (0x240A0, 313, 0, 1, false),
    (0x240A4, 314, 4, 2, false), (0x240AC, 315, 0, 1, false), (0x240B0, 316, 0, 1, true), (0x240C0, 317, 0, 1, false), (0x240C4, 318, 0, 1, false),
    (0x24100, 319, 4, 16, false), (0x24140, 320, 4, 4, false), (0x25000, 321, 4, 1024, false)]
  | 10 => [(0x28000, 322, 0, 1, false), (0x28004, 323, 0, 1, false), (0x28008, 324, 0, 1, false), (0x2800C, 325, 0, 1, false), (0x28010, 326, 0, 1, false),
    (0x28014, 327, 0, 1, false), (0x28018, 328, 0, 1, false), (0x2801C, 329, 0, 1, false), (0x28020, 330, 0, 1, false), (0x28024, 331, 0, 1, false),
    (0x28028, 332, 0, 1, false), (0x28100, 333, 128, 4, true), (0x28108, 334, 128, 4, false), (0x2810C, 335, 128, 4, false), (0x28110, 336, 128, 4, false),
    (0x28120, 337, 4, 18, false), (0x281A0, 338, 4, 18, false), (0x28220, 339, 4, 18, false), (0x282A0, 340, 4, 18, false)]
  | 11 => [(0x2C000, 341, 0, 1, false), (0x2C004, 342, 0, 1, false), (0x2C008, 343, 0, 1, false), (0x2C020, 344, 0, 1, false), (0x2C024, 345, 0, 1, false),
    (0x2C028, 346, 0, 1, false), (0x2C02C, 347, 0, 1, false), (0x2C030, 348, 0, 1, false), (0x2C034, 349, 0, 1, false), (0x2C038, 350, 0, 1, false),
    (0x2C03C, 351, 0, 1, false), (0x2C040, 352, 0, 1, true), (0x2C0F0, 353, 0, 1, false)]
  | 12 => [(0x30000, 354, 0, 1, false), (0x30004, 355, 0, 1, false), (0x30008, 356, 0, 1, false), (0x3000C, 357, 0, 1, false), (0x30010, 358, 0, 1, false),
    (0x30014, 359, 0, 1, false), (0x30018, 360, 0, 1, false), (0x3001C, 361, 0, 1, false), (0x30020, 362, 0, 1, false), (0x30024, 363, 0, 1, false),
    (0x30028, 364, 0, 1, false), (0x3002C, 365, 0, 1, false), (0x30030, 366, 0, 1, false), (0x30034, 367, 0, 1, false), (0x30040, 368, 0, 1, false),
    (0x30048, 369, 0, 1, true), (0x30080, 370, 0, 1, false), (0x30100, 371, 4, 24, false), (0x30200, 372, 8, 12, false), (0x30204, 373, 8, 12, false),
    (0x30300, 374, 0, 1, false), (0x30304, 375, 0, 1, false), (0x30308, 376, 0, 1, false), (0x3030C, 377, 0, 1, false), (0x30310, 378, 0, 1, false),
    (0x30314, 379, 0, 1, false), (0x30318, 380, 0, 1, false), (0x3031C, 381, 0, 1, false), (0x30320, 382, 4, 16, false), (0x30380, 383, 0, 1, false),
    (0x30384, 384, 0, 1, false), (0x303F0, 385, 0, 1, false)]
  | 13 => [(0x34000, 386, 0, 1, false), (0x34004, 387, 0, 1, false), (0x34008, 388, 0, 1, false), (0x3400C, 389, 0, 1, false), (0x34010, 390, 0, 1, false),
    (0x34014, 391, 0, 1, false), (0x34018, 392, 0, 1, false), (0x3401C, 393, 0, 1, false), (0x34020, 394, 0, 1, false), (0x34024, 395, 0, 1, false),
    (0x34028, 396, 0, 1, true), (0x340F0, 397, 0, 1, false), (0x34100, 398, 16, 16, false), (0x34104, 399, 16, 16, false), (0x34108, 400, 16, 16, false),
    (0x3410C, 401, 16, 16, false)]
  | 14 => [(0x38000, 402, 0, 1, false), (0x38004, 403, 0, 1, false), (0x38008, 404, 0, 1, false), (0x3800C, 405, 0, 1, false), (0x38040, 406, 0, 1, false),
    (0x38044, 407, 0, 1, false), (0x38048, 408, 0, 1, false), (0x3804C, 409, 0, 1, false), (0x38060, 410, 4, 8, false), (0x38080, 411, 0, 1, false),
    (0x38084, 412, 0, 1, false), (0x380A0, 413, 0, 1, false), (0x380A4, 414, 0, 1, false), (0x380A8, 415, 0, 1, true), (0x380B0, 416, 0, 1, true),
    (0x380B8, 417, 0, 1, false), (0x380BC, 418, 0, 1, false), (0x380F0, 419, 0, 1, false), (0x38100, 420, 16, 8, false), (0x38104, 421, 16, 8, false),
    (0x38108, 422, 16, 8, false), (0x3810C, 423, 16, 8, false)]
  | _ => []

/-- The table agrees with the register index. -/
theorem rowTab_ok : (List.range 15).all (fun k => (rowTab k).all (fun x => match regRows[x.2.1]? with
    | some r => r.base == x.1 && r.stride == x.2.2.1 && r.count == x.2.2.2.1 && r.pair == x.2.2.2.2
    | none => false)) = true := by decide +kernel

theorem rowTab_row {k : Nat} {x : Nat × Nat × Nat × Nat × Bool} (hx : x ∈ rowTab k) :
    ∃ r, regRows[x.2.1]? = some r ∧ r.base = x.1 ∧ r.stride = x.2.2.1 ∧ r.count = x.2.2.2.1 ∧ r.pair = x.2.2.2.2 := by
  have hk : k < 15 := by
    by_cases h : k < 15
    · exact h
    · have : rowTab k = [] := by
        unfold rowTab; split <;> first | omega | rfl
      rw [this] at hx; cases hx
  have h := rowTab_ok
  rw [List.all_eq_true] at h
  have h := h k (by simp [hk])
  rw [List.all_eq_true] at h
  have h := h x hx
  revert h
  split
  · rename_i r hr
    intro h
    simp only [Bool.and_eq_true, beq_iff_eq] at h
    exact ⟨r, hr, h.1.1.1, h.1.1.2, h.1.2, h.2⟩
  · intro h; cases h

/-- The entry of an offset. -/
def rowAt (o : Nat) : Option (Nat × Nat × Nat × Nat × Bool) := (rowTab (o / 0x4000)).find? (fun x => x.1 == o)

/-- A field's register is in the set. -/
def hasFld (M : Nat) (f : Fld) : Bool :=
  match rowAt f.reg with
  | some x => x.2.2.1 == f.stride && x.2.2.2.1 == f.count && x.2.2.2.2 == f.pair && M.testBit x.2.1
  | none => false

/-- One set lies in another. -/
def inMask (a b : Nat) : Bool := a &&& b == a

variable {M P : Nat} {d e : Dev}

theorem Part.same_refl (p : Part) (d : Dev) : p.same d d := by cases p <;> rfl

theorem Part.same_trans {p : Part} {a b c : Dev} (h : p.same a b) (h' : p.same b c) : p.same a c := by
  cases p <;> exact Eq.trans h' h

theorem inMask_testBit {a b j : Nat} (h : inMask a b = true) (ha : a.testBit j = true) : b.testBit j = true := by
  have h' : a &&& b = a := by simpa [inMask] using h
  have := Nat.testBit_and a b j
  rw [h', ha] at this
  simpa using this.symm

theorem Within.refl (d : Dev) : Within M P d d := ⟨fun _ _ => rfl, fun p _ => p.same_refl d⟩

theorem Within.andThen {m p : Nat} {f : Dev} (h : Within M P d e) (h' : Within m p e f) (hm : inMask m M = true) (hp : inMask p P = true) :
    Within M P d f where
  regs o ho := (h'.regs o (fun j r hj hb => ho j r hj (inMask_testBit hm hb))).trans (h.regs o ho)
  parts q hq := Part.same_trans (h.parts q hq) (h'.parts q (by
    cases hb : p.testBit q.idx
    · rfl
    · rw [inMask_testBit hp hb] at hq; cases hq))

theorem Within.ite {c : Prop} [Decidable c] {f : Dev} (h : Within M P d e) (h' : Within M P d f) : Within M P d (if c then e else f) := by
  split <;> assumption

theorem Within.foldl {α : Type} (h : Within M P d e) (l : List α) (g : Dev → α → Dev)
    (hg : ∀ u x, Within M P d u → Within M P d (g u x)) : Within M P d (l.foldl g e) := by
  induction l generalizing e with
  | nil => exact h
  | cons x xs ih => exact ih (hg e x h)

theorem Within.ofFst {α : Type} {p : Dev × α} {x : α} (h : p = (e, x)) (hf : Within M P d p.1) : Within M P d e := by
  rw [h] at hf; exact hf

theorem Within.ofSnd {α : Type} {p : α × Dev} {x : α} (h : p = (x, e)) (hf : Within M P d p.2) : Within M P d e := by
  rw [h] at hf; exact hf

theorem Within.setReg (h : Within M P d e) (o : Nat) (w : Word) (ho : ∀ q, OutOf M q → q ≠ o) : Within M P d (e.setReg o w) where
  regs q hq := by rw [Dev.reg_setReg, if_neg (ho q hq)]; exact h.regs q hq
  parts p hp := Part.same_trans (h.parts p hp) (by cases p <;> rfl)

theorem rowAt_row {o : Nat} {x : Nat × Nat × Nat × Nat × Bool} (h : rowAt o = some x) :
    ∃ r, regRows[x.2.1]? = some r ∧ r.base = o ∧ r.stride = x.2.2.1 ∧ r.count = x.2.2.2.1 ∧ r.pair = x.2.2.2.2 := by
  unfold rowAt at h
  obtain ⟨r, h1, h2, h3⟩ := rowTab_row (List.mem_of_find?_eq_some h)
  have := List.find?_some h
  exact ⟨r, h1, h2.trans (by simpa using this), h3⟩

theorem hasFld_row {f : Fld} (hb : hasFld M f = true) : ∃ j r, regRows[j]? = some r ∧ M.testBit j = true ∧ r.base = f.reg ∧
    r.stride = f.stride ∧ r.count = f.count ∧ r.pair = f.pair := by
  unfold hasFld at hb
  split at hb
  · rename_i x hx
    obtain ⟨r, h1, h2, h3, h4, h5⟩ := rowAt_row hx
    simp only [Bool.and_eq_true, beq_iff_eq] at hb
    exact ⟨_, r, h1, hb.2, h2, h3.trans hb.1.1.1, h4.trans hb.1.1.2, h5.trans hb.1.2⟩
  · cases hb

theorem regRows_count : regRows.all (fun r => decide (0 < r.count)) = true := by decide +kernel

/-- A field that lies in an element of an array of the set. -/
theorem Within.putIn (h : Within M P d e) (f g : Fld) (n v : Nat) (hn : n < g.count) (hb : hasFld M g = true)
    (hr : f.reg = g.reg + g.stride * n) (hp : f.pair = g.pair) : Within M P d (e.put f v) := by
  obtain ⟨j, r, hj, hm, h1, h2, h4, h3⟩ := hasFld_row hb
  have lo : ∀ q, OutOf M q → q ≠ f.reg := fun q hq e => hq j r hj hm ⟨n, by omega, .inl (by rw [e, h1, h2, hr])⟩
  unfold Dev.put
  split
  · rename_i hp'
    exact (h.setReg _ _ lo).setReg _ _ (fun q hq e => hq j r hj hm ⟨n, by omega, .inr ⟨by rw [h3, ← hp]; exact hp', by rw [e, h1, h2, hr]⟩⟩)
  · exact h.setReg _ _ lo

theorem hasFld_count {f : Fld} (hb : hasFld M f = true) : 0 < f.count := by
  obtain ⟨j, r, hj, _, _, _, h4, _⟩ := hasFld_row hb
  have := List.all_eq_true.mp regRows_count r (List.mem_of_getElem? hj)
  simpa [h4] using this

theorem put_absent_reg (d : Dev) (v o : Nat) : (d.put .absent v).reg o = d.reg o := by
  unfold Dev.put Fld.absent insField Dev.fieldWord
  simp only [Bool.false_eq_true, if_false]
  rw [Dev.reg_setReg]
  split
  · rename_i h; subst h; simp [Nat.mod_one]
  · rfl

theorem Within.putAt (h : Within M P d e) (f : Fld) (n v : Nat) (hb : hasFld M f = true) : Within M P d (e.put (f.at n) v) := by
  unfold Fld.at
  split
  · rename_i hn
    exact h.putIn _ f n v hn hb rfl rfl
  · exact ⟨fun o ho => (put_absent_reg e v o).trans (h.regs o ho), fun p hp => Part.same_trans (h.parts p hp) (by cases p <;> rfl)⟩

theorem Within.put (h : Within M P d e) (f : Fld) (v : Nat) (hb : hasFld M f = true) : Within M P d (e.put f v) :=
  h.putIn f f 0 v (hasFld_count hb) hb (by simp) rfl

theorem Within.putBit (h : Within M P d e) (f : Fld) (b : Bool) (hb : hasFld M f = true) : Within M P d (e.putBit f b) := h.put f _ hb
theorem Within.putBitAt (h : Within M P d e) (f : Fld) (n : Nat) (b : Bool) (hb : hasFld M f = true) :
    Within M P d (e.putBit (f.at n) b) := h.putAt f n _ hb
theorem Within.putI (h : Within M P d e) (f : Fld) (v : Int) (hb : hasFld M f = true) : Within M P d (e.putI f v) := h.put f _ hb
theorem Within.putIAt (h : Within M P d e) (f : Fld) (n : Nat) (v : Int) (hb : hasFld M f = true) :
    Within M P d (e.putI (f.at n) v) := h.putAt f n _ hb
theorem Within.tieBits (h : Within M P d e) (o m : Nat) : Within M P d (e.tieBits o m) :=
  ⟨fun o ho => h.regs o ho, fun p hp => Part.same_trans (h.parts p hp) (by cases p <;> rfl)⟩
theorem Within.tie (h : Within M P d e) (f : Fld) : Within M P d (e.tie f) := h.tieBits _ _
theorem Within.flag (h : Within M P d e) (f : Fld) (hb : hasFld M f = true) : Within M P d (e.flag f) := (h.putBit f true hb).tie f
theorem Within.flagAt (h : Within M P d e) (f : Fld) (n : Nat) (hb : hasFld M f = true) : Within M P d (e.flag (f.at n)) :=
  (h.putBitAt f n true hb).tie _
theorem Within.addSat (h : Within M P d e) (f : Fld) (v : Nat) (hb : hasFld M f = true) : Within M P d (e.addSat f v) := by
  unfold Dev.addSat
  split
  · exact h
  · exact (h.put f _ hb).tie f
theorem Within.addSatAt (h : Within M P d e) (f : Fld) (n v : Nat) (hb : hasFld M f = true) : Within M P d (e.addSat (f.at n) v) := by
  unfold Dev.addSat
  split
  · exact h
  · exact (h.putAt f n _ hb).tie _
theorem Within.inc (h : Within M P d e) (f : Fld) (hb : hasFld M f = true) : Within M P d (e.inc f) := h.addSat f 1 hb
theorem Within.incAt (h : Within M P d e) (f : Fld) (n : Nat) (hb : hasFld M f = true) : Within M P d (e.inc (f.at n)) := h.addSatAt f n 1 hb
theorem Within.incWrap (h : Within M P d e) (f : Fld) (hb : hasFld M f = true) : Within M P d (e.incWrap f) := (h.put f _ hb).tie f
theorem Within.incWrapAt (h : Within M P d e) (f : Fld) (n : Nat) (hb : hasFld M f = true) :
    Within M P d (e.incWrap (f.at n)) := (h.putAt f n _ hb).tie _

/-- The field lies in an element of a register of the set. -/
def hasFldIn (M : Nat) (f : Fld) : Bool :=
  (rowTab (f.reg / 0x4000)).any (fun x => M.testBit x.2.1 && x.2.2.2.2 == f.pair &&
    (List.range x.2.2.2.1).any (fun i => x.1 + x.2.2.1 * i == f.reg))

theorem Within.putB (h : Within M P d e) (f : Fld) (v : Nat) (hb : hasFldIn M f = true) : Within M P d (e.put f v) := by
  simp only [hasFldIn, List.any_eq_true, Bool.and_eq_true, beq_iff_eq, List.mem_range] at hb
  obtain ⟨x, hx, ⟨hm, hp⟩, i, hi, hr⟩ := hb
  obtain ⟨r, hj, h1, h2, h3, h4⟩ := rowTab_row hx
  have lo : ∀ q, OutOf M q → q ≠ f.reg := fun q hq e => hq _ r hj hm ⟨i, by omega, .inl (by rw [e, h1, h2, hr])⟩
  unfold Dev.put
  split
  · rename_i hp'
    exact (h.setReg _ _ lo).setReg _ _ (fun q hq e => hq _ r hj hm ⟨i, by omega, .inr ⟨by rw [h4, hp]; exact hp', by rw [e, h1, h2, hr]⟩⟩)
  · exact h.setReg _ _ lo

theorem Within.clearAllB (h : Within M P d e) (fs : List Fld) (hb : fs.all (hasFldIn M) = true) : Within M P d (e.clearAll fs) := by
  unfold Dev.clearAll
  induction fs generalizing e with
  | nil => exact h
  | cons f fs ih =>
    simp only [List.all_cons, Bool.and_eq_true] at hb
    exact ih (h.putB f _ hb.1) hb.2

theorem Within.onHost (h : Within M P d e) (g) (hp : P.testBit 4 = true) : Within M P d (e.onHost g) where
  regs o ho := h.regs o ho
  parts p hq := Part.same_trans (h.parts p hq) (by cases p <;> first | rfl | (exact absurd hq (by simp only [Part.idx]; rw [hp]; simp)))
theorem Within.onSec (h : Within M P d e) (g) (hp : P.testBit 5 = true) : Within M P d (e.onSec g) where
  regs o ho := h.regs o ho
  parts p hq := Part.same_trans (h.parts p hq) (by cases p <;> first | rfl | (exact absurd hq (by simp only [Part.idx]; rw [hp]; simp)))
theorem Within.onStore (h : Within M P d e) (g) (hp : P.testBit 6 = true) : Within M P d (e.onStore g) where
  regs o ho := h.regs o ho
  parts p hq := Part.same_trans (h.parts p hq) (by cases p <;> first | rfl | (exact absurd hq (by simp only [Part.idx]; rw [hp]; simp)))
theorem Within.onHealth (h : Within M P d e) (g) (hp : P.testBit 7 = true) : Within M P d (e.onHealth g) where
  regs o ho := h.regs o ho
  parts p hq := Part.same_trans (h.parts p hq) (by cases p <;> first | rfl | (exact absurd hq (by simp only [Part.idx]; rw [hp]; simp)))
theorem Within.onFpa (h : Within M P d e) (g) (hp : P.testBit 8 = true) : Within M P d (e.onFpa g) where
  regs o ho := h.regs o ho
  parts p hq := Part.same_trans (h.parts p hq) (by cases p <;> first | rfl | (exact absurd hq (by simp only [Part.idx]; rw [hp]; simp)))
theorem Within.onStage (h : Within M P d e) (g) (hp : P.testBit 9 = true) : Within M P d (e.onStage g) where
  regs o ho := h.regs o ho
  parts p hq := Part.same_trans (h.parts p hq) (by cases p <;> first | rfl | (exact absurd hq (by simp only [Part.idx]; rw [hp]; simp)))
theorem Within.onAux (h : Within M P d e) (g) (hp : P.testBit 10 = true) : Within M P d (e.onAux g) where
  regs o ho := h.regs o ho
  parts p hq := Part.same_trans (h.parts p hq) (by cases p <;> first | rfl | (exact absurd hq (by simp only [Part.idx]; rw [hp]; simp)))
theorem Within.onPipe (h : Within M P d e) (g) (hp : P.testBit 11 = true) : Within M P d (e.onPipe g) where
  regs o ho := h.regs o ho
  parts p hq := Part.same_trans (h.parts p hq) (by cases p <;> first | rfl | (exact absurd hq (by simp only [Part.idx]; rw [hp]; simp)))
theorem Within.onPwr (h : Within M P d e) (g) (hp : P.testBit 12 = true) : Within M P d (e.onPwr g) where
  regs o ho := h.regs o ho
  parts p hq := Part.same_trans (h.parts p hq) (by cases p <;> first | rfl | (exact absurd hq (by simp only [Part.idx]; rw [hp]; simp)))
theorem Within.onBurin (h : Within M P d e) (g) (hp : P.testBit 13 = true) : Within M P d (e.onBurin g) where
  regs o ho := h.regs o ho
  parts p hq := Part.same_trans (h.parts p hq) (by cases p <;> first | rfl | (exact absurd hq (by simp only [Part.idx]; rw [hp]; simp)))
theorem Within.onWeb (h : Within M P d e) (g) (hp : P.testBit 14 = true) : Within M P d (e.onWeb g) where
  regs o ho := h.regs o ho
  parts p hq := Part.same_trans (h.parts p hq) (by cases p <;> first | rfl | (exact absurd hq (by simp only [Part.idx]; rw [hp]; simp)))
theorem Within.onStat (h : Within M P d e) (g) (hp : P.testBit 15 = true) : Within M P d (e.onStat g) where
  regs o ho := h.regs o ho
  parts p hq := Part.same_trans (h.parts p hq) (by cases p <;> first | rfl | (exact absurd hq (by simp only [Part.idx]; rw [hp]; simp)))
theorem Within.onAlarm (h : Within M P d e) (g) (hp : P.testBit 16 = true) : Within M P d (e.onAlarm g) where
  regs o ho := h.regs o ho
  parts p hq := Part.same_trans (h.parts p hq) (by cases p <;> first | rfl | (exact absurd hq (by simp only [Part.idx]; rw [hp]; simp)))
theorem Within.onProof (h : Within M P d e) (g) (hp : P.testBit 17 = true) : Within M P d (e.onProof g) where
  regs o ho := h.regs o ho
  parts p hq := Part.same_trans (h.parts p hq) (by cases p <;> first | rfl | (exact absurd hq (by simp only [Part.idx]; rw [hp]; simp)))
theorem Within.onGlade (h : Within M P d e) (g) (hp : P.testBit 18 = true) : Within M P d (e.onGlade g) where
  regs o ho := h.regs o ho
  parts p hq := Part.same_trans (h.parts p hq) (by cases p <;> first | rfl | (exact absurd hq (by simp only [Part.idx]; rw [hp]; simp)))
theorem Within.onCc (h : Within M P d e) (g) (hp : P.testBit 19 = true) : Within M P d (e.onCc g) where
  regs o ho := h.regs o ho
  parts p hq := Part.same_trans (h.parts p hq) (by cases p <;> first | rfl | (exact absurd hq (by simp only [Part.idx]; rw [hp]; simp)))
theorem Within.onLink (h : Within M P d e) (g) (hp : P.testBit 20 = true) : Within M P d (e.onLink g) where
  regs o ho := h.regs o ho
  parts p hq := Part.same_trans (h.parts p hq) (by cases p <;> first | rfl | (exact absurd hq (by simp only [Part.idx]; rw [hp]; simp)))
theorem Within.onStand (h : Within M P d e) (g) (hp : P.testBit 21 = true) : Within M P d (e.onStand g) where
  regs o ho := h.regs o ho
  parts p hq := Part.same_trans (h.parts p hq) (by cases p <;> first | rfl | (exact absurd hq (by simp only [Part.idx]; rw [hp]; simp)))
theorem Within.onSaved (h : Within M P d e) (g) (hp : P.testBit 22 = true) : Within M P d (e.onSaved g) where
  regs o ho := h.regs o ho
  parts p hq := Part.same_trans (h.parts p hq) (by cases p <;> first | rfl | (exact absurd hq (by simp only [Part.idx]; rw [hp]; simp)))
theorem Within.onIo (h : Within M P d e) (g) (hp : P.testBit 23 = true) : Within M P d (e.onIo g) where
  regs o ho := h.regs o ho
  parts p hq := Part.same_trans (h.parts p hq) (by cases p <;> first | rfl | (exact absurd hq (by simp only [Part.idx]; rw [hp]; simp)))
theorem Within.emit (h : Within M P d e) (x : Machine.Out) (hp : P.testBit 1 = true) : Within M P d (e.emit x) where
  regs o ho := h.regs o ho
  parts p hq := Part.same_trans (h.parts p hq) (by cases p <;> first | rfl | (exact absurd hq (by simp only [Part.idx]; rw [hp]; simp)))
theorem Within.fresh (h : Within M P d e) (hp : P.testBit 2 = true) : Within M P d (e.fresh) where
  regs o ho := h.regs o ho
  parts p hq := Part.same_trans (h.parts p hq) (by cases p <;> first | rfl | (exact absurd hq (by simp only [Part.idx]; rw [hp]; simp)))

/-- The register of an offset is in the set. -/
def hasRow (M off : Nat) : Bool :=
  match findReg off with
  | none => true
  | some (r, _) => match rowAt r.base with
    | some x => x.2.2.1 == r.stride && x.2.2.2.1 == r.count && x.2.2.2.2 == r.pair && M.testBit x.2.1
    | none => false

theorem RegRow.idx_lt {r : RegRow} {off : Nat} {b : Bool} (h : findReg off = some (r, b)) (hc : 0 < r.count) : r.idx off < r.count := by
  unfold findReg at h
  split at h
  · cases h
  · rename_i q hq
    dsimp only at h
    injection h with h
    injection h with h _
    subst h
    have ho := List.find?_some hq
    unfold RegRow.owns at ho
    simp only [Bool.and_eq_true, decide_eq_true_eq] at ho
    unfold RegRow.idx
    split
    · exact hc
    · rename_i hs
      rw [if_neg hs] at ho
      exact ho.2.1

theorem Within.writeWord (h : Within M P d e) (off w : Nat) (hb : hasRow M off = true) : Within M P d (e.writeWord off w) := by
  unfold Dev.writeWord
  unfold hasRow at hb
  split
  · exact h
  · rename_i r hi hf
    rw [hf] at hb
    dsimp only at hb
    split at hb
    · rename_i x hx
      obtain ⟨q, hj, h1, h2, h7, h3⟩ := rowAt_row hx
      simp only [Bool.and_eq_true, beq_iff_eq] at hb
      obtain ⟨⟨⟨h4, h8⟩, h5⟩, h6⟩ := hb
      have hq : 0 < q.count := by simpa using List.all_eq_true.mp regRows_count q (List.mem_of_getElem? hj)
      have hlt : r.idx off < q.count := by
        have := RegRow.idx_lt hf (by omega)
        omega
      have key : ∀ v, Within M P d (e.putRow r off v) := fun v => by
        have lo : ∀ o, OutOf M o → o ≠ r.base + r.stride * r.idx off := fun o ho e =>
          ho _ q hj h6 ⟨r.idx off, hlt, .inl (by rw [e, h1, h2, h4])⟩
        unfold Dev.putRow
        dsimp only
        split
        · rename_i hp
          exact (h.setReg _ _ lo).setReg _ _ (fun o ho e =>
            ho _ q hj h6 ⟨r.idx off, hlt, .inr ⟨by rw [h3, h5]; exact hp, by rw [e, h1, h2, h4]⟩⟩)
        · exact h.setReg _ _ lo
      dsimp only
      split <;> exact key _
    · cases hb

/-- A register set by its offset. -/
theorem Within.setRow (h : Within M P d e) (o : Nat) (w : Word)
    (hb : (match rowAt o with | some x => M.testBit x.2.1 | none => false) = true) : Within M P d (e.setReg o w) := by
  split at hb
  · rename_i x hx
    obtain ⟨r, h1, h2, _⟩ := rowAt_row hx
    have hq : 0 < r.count := by simpa using List.all_eq_true.mp regRows_count r (List.mem_of_getElem? h1)
    exact h.setReg o w (fun q hq' e => hq' _ r h1 hb ⟨0, hq, .inl (by rw [e, ← h2]; rfl)⟩)
  · cases hb

theorem Within.pendVec (h : Within M P d e) (v : Nat) (hp : P.testBit 4 = true) : Within M P d (e.pendVec v) := h.onHost _ hp

theorem Within.hostErr (h : Within M P d e) (f : Fld) (hb : hasFld M f = true) (hp : P.testBit 4 = true) :
    Within M P d (e.hostErr f) := (h.flag f hb).pendVec _ hp

theorem Within.foldlMem {α : Type} {d e : Dev} (h : Within M P d e) (l : List α) (g : Dev → α → Dev)
    (hg : ∀ u x, x ∈ l → Within M P d u → Within M P d (g u x)) : Within M P d (l.foldl g e) := by
  induction l generalizing e with
  | nil => exact h
  | cons x xs ih => exact ih (hg e x (by simp) h) (fun u y hy => hg u y (by simp [hy]))

theorem Within.putPath (h : Within M P d e) (i : Nat) (x : PathSt) (hp : P.testBit 3 = true) : Within M P d (e.putPath i x) where
  regs o ho := h.regs o ho
  parts p hq := Part.same_trans (h.parts p hq) (by cases p <;> first | rfl | (exact absurd hq (by simp only [Part.idx]; rw [hp]; simp)))

theorem Within.setNow (h : Within M P d e) (v : BitVec 64) (l) (hp : P.testBit 0 = true) : Within M P d { e with now := v, ties := l } where
  regs o ho := h.regs o ho
  parts p hq := Part.same_trans (h.parts p hq) (by cases p <;> first | rfl | (exact absurd hq (by simp only [Part.idx]; rw [hp]; simp)))

/-! ### Reading outside a frame -/

/-- The offsets of a register. -/
def RegRow.offsets (r : RegRow) : List Nat :=
  (List.range r.count).flatMap (fun i => if r.pair then [r.base + r.stride * i, r.base + r.stride * i + 4] else [r.base + r.stride * i])

/-- Mark the numbers of a list in a bit mask, failing on one that is marked. -/
def markAll : List Nat → Nat → Bool
  | [], _ => true
  | o :: l, m => !m.testBit o && markAll l (m ||| 2 ^ o)

theorem markAll_nodup : ∀ (l : List Nat) (m : Nat), markAll l m = true → l.Nodup ∧ ∀ o ∈ l, m.testBit o = false
  | [], _, _ => ⟨List.nodup_nil, fun _ h => by cases h⟩
  | o :: l, m, h => by
    simp only [markAll, Bool.and_eq_true, Bool.not_eq_true'] at h
    obtain ⟨h1, h2⟩ := markAll_nodup l _ h.2
    have h3 : ∀ q ∈ l, m.testBit q = false ∧ o ≠ q := fun q hq => by
      have := h2 q hq
      rw [Nat.testBit_or, Nat.testBit_two_pow] at this
      simpa using this
    refine ⟨List.nodup_cons.mpr ⟨fun ho => (h3 o ho).2 rfl, h1⟩, fun q hq => ?_⟩
    rcases List.mem_cons.mp hq with rfl | hq
    · exact h.1
    · exact (h3 q hq).1

/-- No two registers share an offset. -/
theorem regRows_nodup : (regRows.flatMap RegRow.offsets).Nodup := (markAll_nodup _ 0 (by decide +kernel)).1

theorem mem_zipIdx_of {α : Type} {l : List α} {k : Nat} {x : α} (h : l[k]? = some x) : (x, k) ∈ l.zipIdx := by
  refine List.mem_of_getElem? (i := k) ?_
  rw [List.getElem?_zipIdx, h]
  simp

theorem RegRow.holds_offsets {r : RegRow} {o : Nat} (h : r.holds o) : o ∈ r.offsets := by
  obtain ⟨i, hi, h⟩ := h
  refine List.mem_flatMap.mpr ⟨i, List.mem_range.mpr hi, ?_⟩
  rcases h with h | ⟨hp, h⟩
  · split <;> simp [h]
  · rw [if_pos hp]; simp [h]

theorem regRows_sep {i j : Nat} {r q : RegRow} {o : Nat} (hi : regRows[i]? = some r) (hj : regRows[j]? = some q)
    (hr : r.holds o) (hq : q.holds o) : i = j := by
  have hp := (List.pairwise_flatMap.mp regRows_nodup).2
  have hs := List.pairwise_iff_getElem.mp hp
  obtain ⟨hi', ei⟩ := List.getElem?_eq_some_iff.mp hi
  obtain ⟨hj', ej⟩ := List.getElem?_eq_some_iff.mp hj
  have hro := RegRow.holds_offsets hr
  have hqo := RegRow.holds_offsets hq
  rcases Nat.lt_trichotomy i j with h | h | h
  · exact absurd rfl (hs i j hi' hj' h o (by rw [ei]; exact hro) o (by rw [ej]; exact hqo))
  · exact h
  · exact absurd rfl (hs j i hj' hi' h o (by rw [ej]; exact hqo) o (by rw [ei]; exact hro))

/-- The field's register is not in the set. -/
def outFld (M : Nat) (f : Fld) : Bool :=
  match rowAt f.reg with
  | some x => x.2.2.1 == f.stride && x.2.2.2.1 == f.count && x.2.2.2.2 == f.pair && !M.testBit x.2.1
  | none => false

theorem outFld_row {f : Fld} (hb : outFld M f = true) : ∃ j r, regRows[j]? = some r ∧ M.testBit j = false ∧ r.base = f.reg ∧
    r.stride = f.stride ∧ r.count = f.count ∧ r.pair = f.pair := by
  unfold outFld at hb
  split at hb
  · rename_i x hx
    obtain ⟨r, h1, h2, h3, h4, h5⟩ := rowAt_row hx
    simp only [Bool.and_eq_true, beq_iff_eq, Bool.not_eq_true'] at hb
    exact ⟨_, r, h1, hb.2, h2, h3.trans hb.1.1.1, h4.trans hb.1.1.2, h5.trans hb.1.2⟩
  · cases hb

theorem OutOf.of_row {j : Nat} {r : RegRow} {o : Nat} (hj : regRows[j]? = some r) (hm : M.testBit j = false) (ho : r.holds o) : OutOf M o := by
  intro i q hi hb hq
  have := regRows_sep hi hj hq ho
  subst this
  rw [hm] at hb; cases hb

/-- A field of a register outside the set reads as before, in every element. -/
theorem Within.get_at (h : Within M P d e) (f : Fld) (n : Nat) (hb : outFld M f = true) : e.get (f.at n) = d.get (f.at n) := by
  obtain ⟨j, r, hj, hm, h1, h2, h3, h4⟩ := outFld_row hb
  unfold Fld.at
  split
  · rename_i hn
    have hlo : OutOf M (f.reg + f.stride * n) := OutOf.of_row hj hm ⟨n, by omega, .inl (by rw [h1, h2])⟩
    unfold Dev.get Dev.fieldWord
    dsimp only
    split
    · rename_i hp
      have hhi : OutOf M (f.reg + f.stride * n + 4) := OutOf.of_row hj hm ⟨n, by omega, .inr ⟨by rw [h4]; exact hp, by rw [h1, h2]⟩⟩
      rw [h.regs _ hlo, h.regs _ hhi]
    · rw [h.regs _ hlo]
  · simp [Dev.get, Fld.absent, Nat.mod_one]

theorem outFld_count {f : Fld} (hb : outFld M f = true) : 0 < f.count := by
  obtain ⟨j, r, hj, _, _, _, h4, _⟩ := outFld_row hb
  have := List.all_eq_true.mp regRows_count r (List.mem_of_getElem? hj)
  simpa [h4] using this

theorem get_at_zero (d : Dev) (f : Fld) (hc : 0 < f.count) : d.get (f.at 0) = d.get f := by
  unfold Fld.at
  rw [if_pos hc]
  simp [Dev.get, Dev.fieldWord]

theorem Within.get (h : Within M P d e) (f : Fld) (hb : outFld M f = true) : e.get f = d.get f := by
  have := h.get_at f 0 hb
  rwa [get_at_zero _ _ (outFld_count hb), get_at_zero _ _ (outFld_count hb)] at this

theorem Within.bit (h : Within M P d e) (f : Fld) (hb : outFld M f = true) : e.bit f = d.bit f := by
  unfold Dev.bit; rw [h.get f hb]

theorem Within.bit_at (h : Within M P d e) (f : Fld) (n : Nat) (hb : outFld M f = true) : e.bit (f.at n) = d.bit (f.at n) := by
  unfold Dev.bit; rw [h.get_at f n hb]

/-! ### From a frame to the registers and parts it names -/

/-- Every register and part of the set is named. -/
def named (M P : Nat) (x : Touch) : Bool :=
  regRows.zipIdx.all (fun q => !M.testBit q.2 || x.regs.contains q.1.base) &&
  [Part.now, .out, .freeIdx, .paths, .host, .sec, .store, .health, .fpa, .stage, .aux, .pipe, .pwr, .burin, .web, .stat, .alarm, .proof,
    .glade, .cc, .link, .stand, .saved, .io].all (fun p => !P.testBit p.idx || x.parts.contains p)

theorem Within.onlyTouched (h : Within M P d e) {x : Touch} (hx : named M P x = true) : OnlyTouched x d e := by
  simp only [named, Bool.and_eq_true] at hx
  obtain ⟨h1, h2⟩ := hx
  constructor
  · intro o ho
    refine h.regs o (fun j r hj hm hr => ?_)
    have := List.all_eq_true.mp h1 (r, j) (mem_zipIdx_of hj)
    simp only [hm, Bool.not_true, Bool.false_or, List.contains_iff_mem] at this
    exact ho r (List.mem_of_getElem? hj) this hr
  · intro p hp
    refine h.parts p ?_
    have := List.all_eq_true.mp h2 p (by cases p <;> decide)
    cases hc : P.testBit p.idx
    · rfl
    · simp only [hc, Bool.not_true, Bool.false_or, List.contains_iff_mem] at this
      exact absurd this hp

end Sys2Proof.Machine
end

