-- ==== Sys2Proof/Laws/FramesHost.lean ====
section
/-! SUPPORT. Frames of the operations of the host interface, of commands and of captures. -/

set_option linter.unusedVariables false
set_option Elab.async false

namespace Sys2Proof.Machine

open Sys2Proof

theorem wearMove_w0 (d : Dev) (t : Tally) (e : Dev) (x_ : Tally) (h : wearMove d t = (e, x_)) : Within 0x2000000000000000000000000000000000000000000000000000000000000000000000000000000000000000 0 d e := by
  unfold wearMove at h
  try dsimp only at h
  repeat' split at h
  all_goals (first | cases h | (injection h with h h'; subst h) | (injection h with h; subst h) | skip)
  all_goals try dsimp only
  all_goals (
    repeat' first
      | (with_reducible exact Within.refl _)
      | (with_reducible assumption)
      | ((try lift_lets); intro x_; first
        | (refine (fun (hx_ : Within 0x2000000000000000000000000000000000000000000000000000000000000000000000000000000000000000 0 d x_) => ?rest) ?val; (case' rest => clear_value x_); (case' val => subst x_))
        | (have _t := fun y_ => x_ y_; clear _t; subst x_)
        | (have _t : Dev := x_.1; clear _t; subst x_)
        | (have _t : Dev := x_.2; clear _t; subst x_)
        | (have _t : Dev := x_; clear _t; subst x_)
        | clear_value x_)
      | (with_reducible refine Within.putAt ?_ _ _ _ (by decide +kernel))
      | (with_reducible refine Within.put ?_ _ _ (by decide +kernel))
      | (with_reducible refine Within.ite ?_ ?_)
      | (intro _ _ _)
      | split
      | dsimp only)

theorem wearMove_w (d : Dev) (t : Tally) (e : Dev) (x_ : Tally) (h : wearMove d t = (e, x_)) {M P : Nat} {dz : Dev} (hd : Within M P dz d) (hm : inMask 0x2000000000000000000000000000000000000000000000000000000000000000000000000000000000000000 M = true) (hp : inMask 0 P = true) : Within M P dz e :=
  hd.andThen (wearMove_w0 d t _ _ h) hm hp

theorem wearMove_w1 (d : Dev) (t : Tally) {M P : Nat} {dz : Dev} (hd : Within M P dz d) (hm : inMask 0x2000000000000000000000000000000000000000000000000000000000000000000000000000000000000000 M = true) (hp : inMask 0 P = true) : Within M P dz (wearMove d t).1 :=
  wearMove_w d t _ _ rfl hd hm hp

theorem Dev.putTally_w0 (d : Dev) (i : Nat) (t : Tally) : Within 0x2000000000000000000000000000000000000000000000000000000000000000000000000000000000000000 0x40 d (Dev.putTally d i t) := by
  unfold Dev.putTally
  repeat' first
    | (with_reducible exact Within.refl _)
    | (with_reducible assumption)
    | ((try lift_lets); intro x_; first
      | (refine (fun (hx_ : Within 0x2000000000000000000000000000000000000000000000000000000000000000000000000000000000000000 0x40 d x_) => ?rest) ?val; (case' rest => clear_value x_); (case' val => subst x_))
      | (have _t := fun y_ => x_ y_; clear _t; subst x_)
      | (have _t : Dev := x_.1; clear _t; subst x_)
      | (have _t : Dev := x_.2; clear _t; subst x_)
      | (have _t : Dev := x_; clear _t; subst x_)
      | clear_value x_)
    | (with_reducible refine Within.onStore ?_ _ (by decide +kernel))
    | (with_reducible refine wearMove_w1 _ _ ?_ (by decide +kernel) (by decide +kernel))
    | (with_reducible refine wearMove_w _ _ _ _ (by assumption) ?_ (by decide +kernel) (by decide +kernel))
    | (with_reducible refine Within.ite ?_ ?_)
    | (intro _ _ _)
    | split
    | dsimp only

theorem Dev.putTally_w (d : Dev) (i : Nat) (t : Tally) {M P : Nat} {dz : Dev} (hd : Within M P dz d) (hm : inMask 0x2000000000000000000000000000000000000000000000000000000000000000000000000000000000000000 M = true) (hp : inMask 0x40 P = true) : Within M P dz (Dev.putTally d i t) :=
  hd.andThen (Dev.putTally_w0 d i t) hm hp

theorem Dev.tallyInc_w0 (d : Dev) (i : Nat) : Within 0x2000000000000000000000000000000000000000000000000000000000000000000000000000000000000000 0x40 d (Dev.tallyInc d i) := by
  unfold Dev.tallyInc
  repeat' first
    | (with_reducible exact Within.refl _)
    | (with_reducible assumption)
    | (with_reducible refine Dev.putTally_w _ _ _ ?_ (by decide +kernel) (by decide +kernel))
    | (with_reducible refine Within.ite ?_ ?_)
    | (intro _ _ _)
    | split
    | dsimp only

theorem Dev.tallyInc_w (d : Dev) (i : Nat) {M P : Nat} {dz : Dev} (hd : Within M P dz d) (hm : inMask 0x2000000000000000000000000000000000000000000000000000000000000000000000000000000000000000 M = true) (hp : inMask 0x40 P = true) : Within M P dz (Dev.tallyInc d i) :=
  hd.andThen (Dev.tallyInc_w0 d i) hm hp

theorem Dev.tallySet_w0 (d : Dev) (i : Nat) (v : Nat) : Within 0x2000000000000000000000000000000000000000000000000000000000000000000000000000000000000000 0x40 d (Dev.tallySet d i v) := by
  unfold Dev.tallySet
  repeat' first
    | (with_reducible exact Within.refl _)
    | (with_reducible assumption)
    | (with_reducible refine Dev.putTally_w _ _ _ ?_ (by decide +kernel) (by decide +kernel))
    | (with_reducible refine Within.ite ?_ ?_)
    | (intro _ _ _)
    | split
    | dsimp only

theorem Dev.tallySet_w (d : Dev) (i : Nat) (v : Nat) {M P : Nat} {dz : Dev} (hd : Within M P dz d) (hm : inMask 0x2000000000000000000000000000000000000000000000000000000000000000000000000000000000000000 M = true) (hp : inMask 0x40 P = true) : Within M P dz (Dev.tallySet d i v) :=
  hd.andThen (Dev.tallySet_w0 d i v) hm hp

theorem Dev.pendVec_w0 (d : Dev) (v : Nat) : Within 0 0x10 d (Dev.pendVec d v) := by
  unfold Dev.pendVec
  repeat' first
    | (with_reducible exact Within.refl _)
    | (with_reducible assumption)
    | (with_reducible refine Within.onHost ?_ _ (by decide +kernel))
    | (with_reducible refine Within.ite ?_ ?_)
    | (intro _ _ _)
    | split
    | dsimp only

theorem Dev.pendVec_w (d : Dev) (v : Nat) {M P : Nat} {dz : Dev} (hd : Within M P dz d) (hm : inMask 0 M = true) (hp : inMask 0x10 P = true) : Within M P dz (Dev.pendVec d v) :=
  hd.andThen (Dev.pendVec_w0 d v) hm hp

theorem Dev.pendErr_w0 (d : Dev) : Within 0 0x10 d (Dev.pendErr d) := by
  unfold Dev.pendErr
  repeat' first
    | (with_reducible exact Within.refl _)
    | (with_reducible assumption)
    | (with_reducible refine Dev.pendVec_w _ _ ?_ (by decide +kernel) (by decide +kernel))
    | (with_reducible refine Within.ite ?_ ?_)
    | (intro _ _ _)
    | split
    | dsimp only

theorem Dev.pendErr_w (d : Dev) {M P : Nat} {dz : Dev} (hd : Within M P dz d) (hm : inMask 0 M = true) (hp : inMask 0x10 P = true) : Within M P dz (Dev.pendErr d) :=
  hd.andThen (Dev.pendErr_w0 d) hm hp

theorem Dev.formRec_w0 (d : Dev) (ring : Nat) (bs : List Byte) (lines : Nat) : Within 0 0x10 d (Dev.formRec d ring bs lines) := by
  unfold Dev.formRec
  repeat' first
    | (with_reducible exact Within.refl _)
    | (with_reducible assumption)
    | (with_reducible refine Within.onHost ?_ _ (by decide +kernel))
    | (with_reducible refine Within.ite ?_ ?_)
    | (intro _ _ _)
    | split
    | dsimp only

theorem Dev.formRec_w (d : Dev) (ring : Nat) (bs : List Byte) (lines : Nat) {M P : Nat} {dz : Dev} (hd : Within M P dz d) (hm : inMask 0 M = true) (hp : inMask 0x10 P = true) : Within M P dz (Dev.formRec d ring bs lines) :=
  hd.andThen (Dev.formRec_w0 d ring bs lines) hm hp

theorem Dev.faultPin_w0 (d : Dev) : Within 0x80000000000000000000000000000000000000000000000000000000000000000000000000000000000000000 0 d (Dev.faultPin d) := by
  unfold Dev.faultPin
  repeat' first
    | (with_reducible exact Within.refl _)
    | (with_reducible assumption)
    | (with_reducible refine Within.putBitAt ?_ _ _ _ (by decide +kernel))
    | (with_reducible refine Within.putBit ?_ _ _ (by decide +kernel))
    | (with_reducible refine Within.ite ?_ ?_)
    | (intro _ _ _)
    | split
    | dsimp only

theorem Dev.faultPin_w (d : Dev) {M P : Nat} {dz : Dev} (hd : Within M P dz d) (hm : inMask 0x80000000000000000000000000000000000000000000000000000000000000000000000000000000000000000 M = true) (hp : inMask 0 P = true) : Within M P dz (Dev.faultPin d) :=
  hd.andThen (Dev.faultPin_w0 d) hm hp

theorem Dev.queueTest_w0 (d : Dev) (ss : Nat) (elem : Nat) (code : Nat) (full : Bool) : Within 0x80080000000000000000000000000000000000000000000000000000000000000000000000000000000000000000 0x80 d (Dev.queueTest d ss elem code full) := by
  unfold Dev.queueTest
  repeat' first
    | (with_reducible exact Within.refl _)
    | (with_reducible assumption)
    | ((try lift_lets); intro x_; first
      | (refine (fun (hx_ : Within 0x80080000000000000000000000000000000000000000000000000000000000000000000000000000000000000000 0x80 d x_) => ?rest) ?val; (case' rest => clear_value x_); (case' val => subst x_))
      | (have _t := fun y_ => x_ y_; clear _t; subst x_)
      | (have _t : Dev := x_.1; clear _t; subst x_)
      | (have _t : Dev := x_.2; clear _t; subst x_)
      | (have _t : Dev := x_; clear _t; subst x_)
      | clear_value x_)
    | (with_reducible refine Within.putAt ?_ _ _ _ (by decide +kernel))
    | (with_reducible refine Within.put ?_ _ _ (by decide +kernel))
    | (with_reducible refine Within.incAt ?_ _ _ (by decide +kernel))
    | (with_reducible refine Within.inc ?_ _ (by decide +kernel))
    | (with_reducible refine Within.onHealth ?_ _ (by decide +kernel))
    | (with_reducible refine Within.ite ?_ ?_)
    | (intro _ _ _)
    | split
    | dsimp only

theorem Dev.queueTest_w (d : Dev) (ss : Nat) (elem : Nat) (code : Nat) (full : Bool) {M P : Nat} {dz : Dev} (hd : Within M P dz d) (hm : inMask 0x80080000000000000000000000000000000000000000000000000000000000000000000000000000000000000000 M = true) (hp : inMask 0x80 P = true) : Within M P dz (Dev.queueTest d ss elem code full) :=
  hd.andThen (Dev.queueTest_w0 d ss elem code full) hm hp

theorem Dev.logEvent_w0 (d : Dev) (code : Nat) (a : EvArgs) : Within 0xB80100000000000000000000000000000000000000000000000000000000000000000000000000000000000000 0xD0 d (Dev.logEvent d code a) := by
  unfold Dev.logEvent
  unfold onlyIf
  repeat' first
    | (with_reducible exact Within.refl _)
    | (with_reducible assumption)
    | ((try lift_lets); intro x_; first
      | (refine (fun (hx_ : Within 0xB80100000000000000000000000000000000000000000000000000000000000000000000000000000000000000 0xD0 d x_) => ?rest) ?val; (case' rest => clear_value x_); (case' val => subst x_))
      | (have _t := fun y_ => x_ y_; clear _t; subst x_)
      | (have _t : Dev := x_.1; clear _t; subst x_)
      | (have _t : Dev := x_.2; clear _t; subst x_)
      | (have _t : Dev := x_; clear _t; subst x_)
      | clear_value x_)
    | (with_reducible refine Dev.formRec_w _ _ _ _ ?_ (by decide +kernel) (by decide +kernel))
    | (with_reducible refine Dev.faultPin_w _ ?_ (by decide +kernel) (by decide +kernel))
    | (with_reducible refine Within.putBitAt ?_ _ _ _ (by decide +kernel))
    | (with_reducible refine Within.putBit ?_ _ _ (by decide +kernel))
    | (with_reducible refine Within.putAt ?_ _ _ _ (by decide +kernel))
    | (with_reducible refine Within.put ?_ _ _ (by decide +kernel))
    | (with_reducible refine Within.incWrapAt ?_ _ _ (by decide +kernel))
    | (with_reducible refine Within.incWrap ?_ _ (by decide +kernel))
    | (with_reducible refine Within.incAt ?_ _ _ (by decide +kernel))
    | (with_reducible refine Within.inc ?_ _ (by decide +kernel))
    | (with_reducible refine Within.onStore ?_ _ (by decide +kernel))
    | (with_reducible refine Within.onHealth ?_ _ (by decide +kernel))
    | (with_reducible refine Within.tieBits ?_ _ _)
    | (with_reducible refine Within.ite ?_ ?_)
    | (intro _ _ _)
    | split
    | dsimp only

theorem Dev.logEvent_w (d : Dev) (code : Nat) (a : EvArgs) {M P : Nat} {dz : Dev} (hd : Within M P dz d) (hm : inMask 0xB80100000000000000000000000000000000000000000000000000000000000000000000000000000000000000 M = true) (hp : inMask 0xD0 P = true) : Within M P dz (Dev.logEvent d code a) :=
  hd.andThen (Dev.logEvent_w0 d code a) hm hp

theorem Dev.event_w0 (d : Dev) (code : Nat) (a : EvArgs) : Within 0x80B80100000000000000000000000000000000000000000000000000000000000000000000000000000000000000 0xD0 d (Dev.event d code a) := by
  unfold Dev.event
  repeat' first
    | (with_reducible exact Within.refl _)
    | (with_reducible assumption)
    | ((try lift_lets); intro x_; first
      | (refine (fun (hx_ : Within 0x80B80100000000000000000000000000000000000000000000000000000000000000000000000000000000000000 0xD0 d x_) => ?rest) ?val; (case' rest => clear_value x_); (case' val => subst x_))
      | (have _t := fun y_ => x_ y_; clear _t; subst x_)
      | (have _t : Dev := x_.1; clear _t; subst x_)
      | (have _t : Dev := x_.2; clear _t; subst x_)
      | (have _t : Dev := x_; clear _t; subst x_)
      | clear_value x_)
    | (with_reducible refine Dev.queueTest_w _ _ _ _ _ ?_ (by decide +kernel) (by decide +kernel))
    | (with_reducible refine Dev.logEvent_w _ _ _ ?_ (by decide +kernel) (by decide +kernel))
    | (with_reducible refine Within.ite ?_ ?_)
    | (intro _ _ _)
    | split
    | dsimp only

theorem Dev.event_w (d : Dev) (code : Nat) (a : EvArgs) {M P : Nat} {dz : Dev} (hd : Within M P dz d) (hm : inMask 0x80B80100000000000000000000000000000000000000000000000000000000000000000000000000000000000000 M = true) (hp : inMask 0xD0 P = true) : Within M P dz (Dev.event d code a) :=
  hd.andThen (Dev.event_w0 d code a) hm hp

theorem Dev.qdrUncorr_w0 (d : Dev) (w : Nat) : Within 0x80B80100802000000000000000000000000000000000000000000000000000000000000000000000000000000000 0xD0 d (Dev.qdrUncorr d w) := by
  unfold Dev.qdrUncorr
  repeat' first
    | (with_reducible exact Within.refl _)
    | (with_reducible assumption)
    | ((try lift_lets); intro x_; first
      | (refine (fun (hx_ : Within 0x80B80100802000000000000000000000000000000000000000000000000000000000000000000000000000000000 0xD0 d x_) => ?rest) ?val; (case' rest => clear_value x_); (case' val => subst x_))
      | (have _t := fun y_ => x_ y_; clear _t; subst x_)
      | (have _t : Dev := x_.1; clear _t; subst x_)
      | (have _t : Dev := x_.2; clear _t; subst x_)
      | (have _t : Dev := x_; clear _t; subst x_)
      | clear_value x_)
    | (with_reducible refine Dev.queueTest_w _ _ _ _ _ ?_ (by decide +kernel) (by decide +kernel))
    | (with_reducible refine Dev.event_w _ _ _ ?_ (by decide +kernel) (by decide +kernel))
    | (with_reducible refine Within.putAt ?_ _ _ _ (by decide +kernel))
    | (with_reducible refine Within.put ?_ _ _ (by decide +kernel))
    | (with_reducible refine Within.incAt ?_ _ _ (by decide +kernel))
    | (with_reducible refine Within.inc ?_ _ (by decide +kernel))
    | (with_reducible refine Within.foldl ?_ _ _ ?_)
    | (with_reducible refine Within.ite ?_ ?_)
    | (intro _ _ _)
    | split
    | dsimp only

theorem Dev.qdrUncorr_w (d : Dev) (w : Nat) {M P : Nat} {dz : Dev} (hd : Within M P dz d) (hm : inMask 0x80B80100802000000000000000000000000000000000000000000000000000000000000000000000000000000000 M = true) (hp : inMask 0xD0 P = true) : Within M P dz (Dev.qdrUncorr d w) :=
  hd.andThen (Dev.qdrUncorr_w0 d w) hm hp

theorem Dev.setDom_w0 (d : Dev) (i : Nat) (b : Bool) : Within 0x800 0x1000 d (Dev.setDom d i b) := by
  unfold Dev.setDom
  repeat' first
    | (with_reducible exact Within.refl _)
    | (with_reducible assumption)
    | ((try lift_lets); intro x_; first
      | (refine (fun (hx_ : Within 0x800 0x1000 d x_) => ?rest) ?val; (case' rest => clear_value x_); (case' val => subst x_))
      | (have _t := fun y_ => x_ y_; clear _t; subst x_)
      | (have _t : Dev := x_.1; clear _t; subst x_)
      | (have _t : Dev := x_.2; clear _t; subst x_)
      | (have _t : Dev := x_; clear _t; subst x_)
      | clear_value x_)
    | (with_reducible refine Within.putAt ?_ _ _ _ (by decide +kernel))
    | (with_reducible refine Within.put ?_ _ _ (by decide +kernel))
    | (with_reducible refine Within.onPwr ?_ _ (by decide +kernel))
    | (with_reducible refine Within.ite ?_ ?_)
    | (intro _ _ _)
    | split
    | dsimp only

theorem Dev.setDom_w (d : Dev) (i : Nat) (b : Bool) {M P : Nat} {dz : Dev} (hd : Within M P dz d) (hm : inMask 0x800 M = true) (hp : inMask 0x1000 P = true) : Within M P dz (Dev.setDom d i b) :=
  hd.andThen (Dev.setDom_w0 d i b) hm hp

theorem Dev.wake_w0 (d : Dev) (i : Nat) : Within 0x800 0x1000 d (Dev.wake d i) := by
  unfold Dev.wake
  repeat' first
    | (with_reducible exact Within.refl _)
    | (with_reducible assumption)
    | (with_reducible refine Dev.setDom_w _ _ _ ?_ (by decide +kernel) (by decide +kernel))
    | (with_reducible refine Within.onPwr ?_ _ (by decide +kernel))
    | (with_reducible refine Within.ite ?_ ?_)
    | (intro _ _ _)
    | split
    | dsimp only

theorem Dev.wake_w (d : Dev) (i : Nat) {M P : Nat} {dz : Dev} (hd : Within M P dz d) (hm : inMask 0x800 M = true) (hp : inMask 0x1000 P = true) : Within M P dz (Dev.wake d i) :=
  hd.andThen (Dev.wake_w0 d i) hm hp

theorem Dev.conflict_w0 (d : Dev) (res : Nat) (loser : Nat) : Within 0x18000000000000000000000000000000000000000000000000000000000000000000000000000000000000000000000000000000 0 d (Dev.conflict d res loser) := by
  unfold Dev.conflict
  repeat' first
    | (with_reducible exact Within.refl _)
    | (with_reducible assumption)
    | ((try lift_lets); intro x_; first
      | (refine (fun (hx_ : Within 0x18000000000000000000000000000000000000000000000000000000000000000000000000000000000000000000000000000000 0 d x_) => ?rest) ?val; (case' rest => clear_value x_); (case' val => subst x_))
      | (have _t := fun y_ => x_ y_; clear _t; subst x_)
      | (have _t : Dev := x_.1; clear _t; subst x_)
      | (have _t : Dev := x_.2; clear _t; subst x_)
      | (have _t : Dev := x_; clear _t; subst x_)
      | clear_value x_)
    | (with_reducible refine Within.putAt ?_ _ _ _ (by decide +kernel))
    | (with_reducible refine Within.put ?_ _ _ (by decide +kernel))
    | (with_reducible refine Within.flagAt ?_ _ _ (by decide +kernel))
    | (with_reducible refine Within.flag ?_ _ (by decide +kernel))
    | (with_reducible refine Within.incAt ?_ _ _ (by decide +kernel))
    | (with_reducible refine Within.inc ?_ _ (by decide +kernel))
    | (with_reducible refine Within.ite ?_ ?_)
    | (intro _ _ _)
    | split
    | dsimp only

theorem Dev.conflict_w (d : Dev) (res : Nat) (loser : Nat) {M P : Nat} {dz : Dev} (hd : Within M P dz d) (hm : inMask 0x18000000000000000000000000000000000000000000000000000000000000000000000000000000000000000000000000000000 M = true) (hp : inMask 0 P = true) : Within M P dz (Dev.conflict d res loser) :=
  hd.andThen (Dev.conflict_w0 d res loser) hm hp

theorem Dev.flashPush_w0 (d : Dev) (w : FlashWhat) : Within 0x20000000000000000000000000000000000000000000000000000000000000000000000000000000000800 0x1040 d (Dev.flashPush d w) := by
  unfold Dev.flashPush
  repeat' first
    | (with_reducible exact Within.refl _)
    | (with_reducible assumption)
    | (with_reducible refine Dev.wake_w _ _ ?_ (by decide +kernel) (by decide +kernel))
    | (with_reducible refine Within.putBitAt ?_ _ _ _ (by decide +kernel))
    | (with_reducible refine Within.putBit ?_ _ _ (by decide +kernel))
    | (with_reducible refine Within.onStore ?_ _ (by decide +kernel))
    | (with_reducible refine Within.ite ?_ ?_)
    | (intro _ _ _)
    | split
    | dsimp only

theorem Dev.flashPush_w (d : Dev) (w : FlashWhat) {M P : Nat} {dz : Dev} (hd : Within M P dz d) (hm : inMask 0x20000000000000000000000000000000000000000000000000000000000000000000000000000000000800 M = true) (hp : inMask 0x1040 P = true) : Within M P dz (Dev.flashPush d w) :=
  hd.andThen (Dev.flashPush_w0 d w) hm hp

theorem Dev.keepPush_w0 (d : Dev) (w : KeepWhat) (n : Nat) : Within 0x100000000000000000000000000000000000000000000000000000000000000000000000000000000000000 0x40 d (Dev.keepPush d w n) := by
  unfold Dev.keepPush
  repeat' first
    | (with_reducible exact Within.refl _)
    | (with_reducible assumption)
    | (with_reducible refine Within.putBitAt ?_ _ _ _ (by decide +kernel))
    | (with_reducible refine Within.putBit ?_ _ _ (by decide +kernel))
    | (with_reducible refine Within.onStore ?_ _ (by decide +kernel))
    | (with_reducible refine Within.ite ?_ ?_)
    | (intro _ _ _)
    | split
    | dsimp only

theorem Dev.keepPush_w (d : Dev) (w : KeepWhat) (n : Nat) {M P : Nat} {dz : Dev} (hd : Within M P dz d) (hm : inMask 0x100000000000000000000000000000000000000000000000000000000000000000000000000000000000000 M = true) (hp : inMask 0x40 P = true) : Within M P dz (Dev.keepPush d w n) :=
  hd.andThen (Dev.keepPush_w0 d w n) hm hp

theorem Dev.authReject_w0 (d : Dev) (status : Nat) (slot : Nat) : Within 0x80B80100000000700000000000000000000000000000000000000000000000000000000000000000000000000000 0xF0 d (Dev.authReject d status slot) := by
  unfold Dev.authReject
  repeat' first
    | (with_reducible exact Within.refl _)
    | (with_reducible assumption)
    | ((try lift_lets); intro x_; first
      | (refine (fun (hx_ : Within 0x80B80100000000700000000000000000000000000000000000000000000000000000000000000000000000000000 0xF0 d x_) => ?rest) ?val; (case' rest => clear_value x_); (case' val => subst x_))
      | (have _t := fun y_ => x_ y_; clear _t; subst x_)
      | (have _t : Dev := x_.1; clear _t; subst x_)
      | (have _t : Dev := x_.2; clear _t; subst x_)
      | (have _t : Dev := x_; clear _t; subst x_)
      | clear_value x_)
    | (with_reducible refine Dev.event_w _ _ _ ?_ (by decide +kernel) (by decide +kernel))
    | (with_reducible refine Within.incAt ?_ _ _ (by decide +kernel))
    | (with_reducible refine Within.inc ?_ _ (by decide +kernel))
    | (with_reducible refine Within.onSec ?_ _ (by decide +kernel))
    | (with_reducible refine Within.ite ?_ ?_)
    | (intro _ _ _)
    | split
    | dsimp only

theorem Dev.authReject_w (d : Dev) (status : Nat) (slot : Nat) {M P : Nat} {dz : Dev} (hd : Within M P dz d) (hm : inMask 0x80B80100000000700000000000000000000000000000000000000000000000000000000000000000000000000000 M = true) (hp : inMask 0xF0 P = true) : Within M P dz (Dev.authReject d status slot) :=
  hd.andThen (Dev.authReject_w0 d status slot) hm hp

theorem Dev.recordCtr_w0 (d : Dev) (slot : Nat) (ctr : Nat) (e : Dev) (h : Dev.recordCtr d slot ctr = some e) : Within 0x2000000000080000000000000000000000000000000000000000000000000000000000000000000000000000 0x40 d e := by
  unfold Dev.recordCtr at h
  try dsimp only at h
  repeat' split at h
  all_goals (first | cases h | (injection h with h h'; subst h) | (injection h with h; subst h) | skip)
  all_goals try dsimp only
  all_goals (
    repeat' first
      | (with_reducible exact Within.refl _)
      | (with_reducible assumption)
      | (with_reducible refine Dev.tallySet_w _ _ _ ?_ (by decide +kernel) (by decide +kernel))
      | (with_reducible refine Within.putAt ?_ _ _ _ (by decide +kernel))
      | (with_reducible refine Within.put ?_ _ _ (by decide +kernel))
      | (with_reducible refine Within.ite ?_ ?_)
      | (intro _ _ _)
      | split
      | dsimp only)

theorem Dev.recordCtr_w (d : Dev) (slot : Nat) (ctr : Nat) (e : Dev) (h : Dev.recordCtr d slot ctr = some e) {M P : Nat} {dz : Dev} (hd : Within M P dz d) (hm : inMask 0x2000000000080000000000000000000000000000000000000000000000000000000000000000000000000000 M = true) (hp : inMask 0x40 P = true) : Within M P dz e :=
  hd.andThen (Dev.recordCtr_w0 d slot ctr _ h) hm hp

theorem critCheck_w0 (d : Dev) (c : Cmd) (relayed : Bool) (e : Dev) (x_ : Option Nat) (h : critCheck d c relayed = (e, x_)) : Within 0x80B82100000000780000000000000000000000000000000000000000000000000000000000000000000000000800 0x10F0 d e := by
  unfold critCheck at h
  try dsimp only at h
  repeat' split at h
  all_goals (first | cases h | (injection h with h h'; subst h) | (injection h with h; subst h) | skip)
  all_goals try dsimp only
  all_goals (
    repeat' first
      | (with_reducible exact Within.refl _)
      | (with_reducible assumption)
      | ((try lift_lets); intro x_; first
        | (refine (fun (hx_ : Within 0x80B82100000000780000000000000000000000000000000000000000000000000000000000000000000000000800 0x10F0 d x_) => ?rest) ?val; (case' rest => clear_value x_); (case' val => subst x_))
        | (have _t := fun y_ => x_ y_; clear _t; subst x_)
        | (have _t : Dev := x_.1; clear _t; subst x_)
        | (have _t : Dev := x_.2; clear _t; subst x_)
        | (have _t : Dev := x_; clear _t; subst x_)
        | clear_value x_)
      | (with_reducible refine Dev.wake_w _ _ ?_ (by decide +kernel) (by decide +kernel))
      | (with_reducible refine Dev.authReject_w _ _ _ ?_ (by decide +kernel) (by decide +kernel))
      | (with_reducible refine Dev.recordCtr_w _ _ _ _ (by assumption) ?_ (by decide +kernel) (by decide +kernel))
      | (with_reducible refine Within.ite ?_ ?_)
      | (intro _ _ _)
      | split
      | dsimp only)

theorem critCheck_w (d : Dev) (c : Cmd) (relayed : Bool) (e : Dev) (x_ : Option Nat) (h : critCheck d c relayed = (e, x_)) {M P : Nat} {dz : Dev} (hd : Within M P dz d) (hm : inMask 0x80B82100000000780000000000000000000000000000000000000000000000000000000000000000000000000800 M = true) (hp : inMask 0x10F0 P = true) : Within M P dz e :=
  hd.andThen (critCheck_w0 d c relayed _ _ h) hm hp

theorem critCheck_w1 (d : Dev) (c : Cmd) (relayed : Bool) {M P : Nat} {dz : Dev} (hd : Within M P dz d) (hm : inMask 0x80B82100000000780000000000000000000000000000000000000000000000000000000000000000000000000800 M = true) (hp : inMask 0x10F0 P = true) : Within M P dz (critCheck d c relayed).1 :=
  critCheck_w d c relayed _ _ rfl hd hm hp

theorem Dev.showExec_w0 (d : Dev) : Within 0x10000000000000000000000000000000000000000000000000000000000000000000000000000 0 d (Dev.showExec d) := by
  unfold Dev.showExec
  repeat' first
    | (with_reducible exact Within.refl _)
    | (with_reducible assumption)
    | (with_reducible refine Within.putAt ?_ _ _ _ (by decide +kernel))
    | (with_reducible refine Within.put ?_ _ _ (by decide +kernel))
    | (with_reducible refine Within.ite ?_ ?_)
    | (intro _ _ _)
    | split
    | dsimp only

theorem Dev.showExec_w (d : Dev) {M P : Nat} {dz : Dev} (hd : Within M P dz d) (hm : inMask 0x10000000000000000000000000000000000000000000000000000000000000000000000000000 M = true) (hp : inMask 0 P = true) : Within M P dz (Dev.showExec d) :=
  hd.andThen (Dev.showExec_w0 d) hm hp

theorem Dev.completeAs_w0 (d : Dev) (c : Cmd) (status : Nat) (detail : Nat) (result : Nat) (slot : Nat) : Within 0x140010000000000000000000000000000000000000000000000000000000000000000000000000000 0x30 d (Dev.completeAs d c status detail result slot) := by
  unfold Dev.completeAs
  repeat' first
    | (with_reducible exact Within.refl _)
    | (with_reducible assumption)
    | ((try lift_lets); intro x_; first
      | (refine (fun (hx_ : Within 0x140010000000000000000000000000000000000000000000000000000000000000000000000000000 0x30 d x_) => ?rest) ?val; (case' rest => clear_value x_); (case' val => subst x_))
      | (have _t := fun y_ => x_ y_; clear _t; subst x_)
      | (have _t : Dev := x_.1; clear _t; subst x_)
      | (have _t : Dev := x_.2; clear _t; subst x_)
      | (have _t : Dev := x_; clear _t; subst x_)
      | clear_value x_)
    | (with_reducible refine Dev.showExec_w _ ?_ (by decide +kernel) (by decide +kernel))
    | (with_reducible refine Within.putBitAt ?_ _ _ _ (by decide +kernel))
    | (with_reducible refine Within.putBit ?_ _ _ (by decide +kernel))
    | (with_reducible refine Within.putAt ?_ _ _ _ (by decide +kernel))
    | (with_reducible refine Within.put ?_ _ _ (by decide +kernel))
    | (with_reducible refine Within.onHost ?_ _ (by decide +kernel))
    | (with_reducible refine Within.onSec ?_ _ (by decide +kernel))
    | (with_reducible refine Within.foldl ?_ _ _ ?_)
    | (with_reducible refine Within.ite ?_ ?_)
    | (intro _ _ _)
    | split
    | dsimp only

theorem Dev.completeAs_w (d : Dev) (c : Cmd) (status : Nat) (detail : Nat) (result : Nat) (slot : Nat) {M P : Nat} {dz : Dev} (hd : Within M P dz d) (hm : inMask 0x140010000000000000000000000000000000000000000000000000000000000000000000000000000 M = true) (hp : inMask 0x30 P = true) : Within M P dz (Dev.completeAs d c status detail result slot) :=
  hd.andThen (Dev.completeAs_w0 d c status detail result slot) hm hp

theorem Dev.complete_w0 (d : Dev) (c : Cmd) (status : Nat) (detail : Nat) (result : Nat) : Within 0x140010000000000000000000000000000000000000000000000000000000000000000000000000000 0x30 d (Dev.complete d c status detail result) := by
  unfold Dev.complete
  repeat' first
    | (with_reducible exact Within.refl _)
    | (with_reducible assumption)
    | (with_reducible refine Dev.completeAs_w _ _ _ _ _ _ ?_ (by decide +kernel) (by decide +kernel))
    | (with_reducible refine Within.ite ?_ ?_)
    | (intro _ _ _)
    | split
    | dsimp only

theorem Dev.complete_w (d : Dev) (c : Cmd) (status : Nat) (detail : Nat) (result : Nat) {M P : Nat} {dz : Dev} (hd : Within M P dz d) (hm : inMask 0x140010000000000000000000000000000000000000000000000000000000000000000000000000000 M = true) (hp : inMask 0x30 P = true) : Within M P dz (Dev.complete d c status detail result) :=
  hd.andThen (Dev.complete_w0 d c status detail result) hm hp

theorem Dev.ok_w0 (d : Dev) (c : Cmd) (result : Nat) : Within 0x140010000000000000000000000000000000000000000000000000000000000000000000000000000 0x30 d (Dev.ok d c result) := by
  unfold Dev.ok
  repeat' first
    | (with_reducible exact Within.refl _)
    | (with_reducible assumption)
    | (with_reducible refine Dev.complete_w _ _ _ _ _ ?_ (by decide +kernel) (by decide +kernel))
    | (with_reducible refine Within.ite ?_ ?_)
    | (intro _ _ _)
    | split
    | dsimp only

theorem Dev.ok_w (d : Dev) (c : Cmd) (result : Nat) {M P : Nat} {dz : Dev} (hd : Within M P dz d) (hm : inMask 0x140010000000000000000000000000000000000000000000000000000000000000000000000000000 M = true) (hp : inMask 0x30 P = true) : Within M P dz (Dev.ok d c result) :=
  hd.andThen (Dev.ok_w0 d c result) hm hp

theorem Dev.completeK_w0 (d : Dev) (k : Nat) (status : Nat) (detail : Nat) (result : Nat) : Within 0x140010000000000000000000000000000000000000000000000000000000000000000000000000000 0x30 d (Dev.completeK d k status detail result) := by
  unfold Dev.completeK
  repeat' first
    | (with_reducible exact Within.refl _)
    | (with_reducible assumption)
    | (with_reducible refine Dev.complete_w _ _ _ _ _ ?_ (by decide +kernel) (by decide +kernel))
    | (with_reducible refine Within.ite ?_ ?_)
    | (intro _ _ _)
    | split
    | dsimp only

theorem Dev.completeK_w (d : Dev) (k : Nat) (status : Nat) (detail : Nat) (result : Nat) {M P : Nat} {dz : Dev} (hd : Within M P dz d) (hm : inMask 0x140010000000000000000000000000000000000000000000000000000000000000000000000000000 M = true) (hp : inMask 0x30 P = true) : Within M P dz (Dev.completeK d k status detail result) :=
  hd.andThen (Dev.completeK_w0 d k status detail result) hm hp

theorem Dev.completeAll_w0 (d : Dev) (ks : List Nat) (status : Nat) (detail : Nat) (result : Nat) : Within 0x140010000000000000000000000000000000000000000000000000000000000000000000000000000 0x30 d (Dev.completeAll d ks status detail result) := by
  unfold Dev.completeAll
  repeat' first
    | (with_reducible exact Within.refl _)
    | (with_reducible assumption)
    | (with_reducible refine Dev.completeK_w _ _ _ _ _ ?_ (by decide +kernel) (by decide +kernel))
    | (with_reducible refine Within.foldl ?_ _ _ ?_)
    | (with_reducible refine Within.ite ?_ ?_)
    | (intro _ _ _)
    | split
    | dsimp only

theorem Dev.completeAll_w (d : Dev) (ks : List Nat) (status : Nat) (detail : Nat) (result : Nat) {M P : Nat} {dz : Dev} (hd : Within M P dz d) (hm : inMask 0x140010000000000000000000000000000000000000000000000000000000000000000000000000000 M = true) (hp : inMask 0x30 P = true) : Within M P dz (Dev.completeAll d ks status detail result) :=
  hd.andThen (Dev.completeAll_w0 d ks status detail result) hm hp

theorem Dev.markStarted_w0 (d : Dev) (k : Nat) : Within 0 0x20 d (Dev.markStarted d k) := by
  unfold Dev.markStarted
  repeat' first
    | (with_reducible exact Within.refl _)
    | (with_reducible assumption)
    | (with_reducible refine Within.onSec ?_ _ (by decide +kernel))
    | (with_reducible refine Within.ite ?_ ?_)
    | (intro _ _ _)
    | split
    | dsimp only

theorem Dev.markStarted_w (d : Dev) (k : Nat) {M P : Nat} {dz : Dev} (hd : Within M P dz d) (hm : inMask 0 M = true) (hp : inMask 0x20 P = true) : Within M P dz (Dev.markStarted d k) :=
  hd.andThen (Dev.markStarted_w0 d k) hm hp

theorem Dev.verifyGo_wr  {d0 : Dev} : ∀ (n_ : Nat) (d : Dev), Within 0x80B82100000140790000000000000000000000000000000000000000000000000000000000000000000000000800 0x10F0 d0 d → Within 0x80B82100000140790000000000000000000000000000000000000000000000000000000000000000000000000800 0x10F0 d0 (Dev.verifyGo n_ d)
  | 0, d, hd => by
    unfold Dev.verifyGo
    repeat' first
      | (with_reducible refine Dev.verifyGo_wr  _ _ ?_)
      | (with_reducible exact Within.refl _)
      | (with_reducible assumption)
      | ((try lift_lets); intro x_; first
        | (refine (fun (hx_ : Within 0x80B82100000140790000000000000000000000000000000000000000000000000000000000000000000000000800 0x10F0 d0 x_) => ?rest) ?val; (case' rest => clear_value x_); (case' val => subst x_))
        | (have _t := fun y_ => x_ y_; clear _t; subst x_)
        | (have _t : Dev := x_.1; clear _t; subst x_)
        | (have _t : Dev := x_.2; clear _t; subst x_)
        | (have _t : Dev := x_; clear _t; subst x_)
        | clear_value x_)
      | (with_reducible refine Dev.complete_w _ _ _ _ _ ?_ (by decide +kernel) (by decide +kernel))
      | (with_reducible refine Within.onSec ?_ _ (by decide +kernel))
      | (with_reducible refine critCheck_w1 _ _ _ ?_ (by decide +kernel) (by decide +kernel))
      | (with_reducible refine critCheck_w _ _ _ _ _ (by assumption) ?_ (by decide +kernel) (by decide +kernel))
      | (with_reducible refine Within.ite ?_ ?_)
      | (intro _ _ _)
      | split
      | dsimp only
  | n_ + 1, d, hd => by
    unfold Dev.verifyGo
    repeat' first
      | (with_reducible refine Dev.verifyGo_wr  _ _ ?_)
      | (with_reducible exact Within.refl _)
      | (with_reducible assumption)
      | ((try lift_lets); intro x_; first
        | (refine (fun (hx_ : Within 0x80B82100000140790000000000000000000000000000000000000000000000000000000000000000000000000800 0x10F0 d0 x_) => ?rest) ?val; (case' rest => clear_value x_); (case' val => subst x_))
        | (have _t := fun y_ => x_ y_; clear _t; subst x_)
        | (have _t : Dev := x_.1; clear _t; subst x_)
        | (have _t : Dev := x_.2; clear _t; subst x_)
        | (have _t : Dev := x_; clear _t; subst x_)
        | clear_value x_)
      | (with_reducible refine Dev.complete_w _ _ _ _ _ ?_ (by decide +kernel) (by decide +kernel))
      | (with_reducible refine Within.onSec ?_ _ (by decide +kernel))
      | (with_reducible refine critCheck_w1 _ _ _ ?_ (by decide +kernel) (by decide +kernel))
      | (with_reducible refine critCheck_w _ _ _ _ _ (by assumption) ?_ (by decide +kernel) (by decide +kernel))
      | (with_reducible refine Within.ite ?_ ?_)
      | (intro _ _ _)
      | split
      | dsimp only

theorem Dev.verifyGo_w (n_ : Nat) (d : Dev) {M P : Nat} {dz : Dev} (hd : Within M P dz d) (hm : inMask 0x80B82100000140790000000000000000000000000000000000000000000000000000000000000000000000000800 M = true) (hp : inMask 0x10F0 P = true) : Within M P dz (Dev.verifyGo n_ d) :=
  hd.andThen (Dev.verifyGo_wr  _ _ (Within.refl d)) hm hp

theorem Dev.verifyAll_w0 (d : Dev) : Within 0x80B82100000140790000000000000000000000000000000000000000000000000000000000000000000000000800 0x10F0 d (Dev.verifyAll d) := by
  unfold Dev.verifyAll
  repeat' first
    | (with_reducible exact Within.refl _)
    | (with_reducible assumption)
    | (with_reducible refine Dev.verifyGo_w _ _ ?_ (by decide +kernel) (by decide +kernel))
    | (with_reducible refine Within.ite ?_ ?_)
    | (intro _ _ _)
    | split
    | dsimp only

theorem Dev.verifyAll_w (d : Dev) {M P : Nat} {dz : Dev} (hd : Within M P dz d) (hm : inMask 0x80B82100000140790000000000000000000000000000000000000000000000000000000000000000000000000800 M = true) (hp : inMask 0x10F0 P = true) : Within M P dz (Dev.verifyAll d) :=
  hd.andThen (Dev.verifyAll_w0 d) hm hp

theorem Dev.accept_w0 (d : Dev) (entry : List Byte) (index : Nat) (o : Origin) (data : Option (List Byte)) : Within 0x80B82100000140790000000000000000000000000000000000000000000000000000000000000000000000000800 0x10F0 d (Dev.accept d entry index o data) := by
  unfold Dev.accept
  repeat' first
    | (with_reducible exact Within.refl _)
    | (with_reducible assumption)
    | ((try lift_lets); intro x_; first
      | (refine (fun (hx_ : Within 0x80B82100000140790000000000000000000000000000000000000000000000000000000000000000000000000800 0x10F0 d x_) => ?rest) ?val; (case' rest => clear_value x_); (case' val => subst x_))
      | (have _t := fun y_ => x_ y_; clear _t; subst x_)
      | (have _t : Dev := x_.1; clear _t; subst x_)
      | (have _t : Dev := x_.2; clear _t; subst x_)
      | (have _t : Dev := x_; clear _t; subst x_)
      | clear_value x_)
    | (with_reducible refine Dev.showExec_w _ ?_ (by decide +kernel) (by decide +kernel))
    | (with_reducible refine Dev.complete_w _ _ _ _ _ ?_ (by decide +kernel) (by decide +kernel))
    | (with_reducible refine Dev.verifyAll_w _ ?_ (by decide +kernel) (by decide +kernel))
    | (with_reducible refine Within.onSec ?_ _ (by decide +kernel))
    | (with_reducible refine Within.ite ?_ ?_)
    | (intro _ _ _)
    | split
    | dsimp only

theorem Dev.accept_w (d : Dev) (entry : List Byte) (index : Nat) (o : Origin) (data : Option (List Byte)) {M P : Nat} {dz : Dev} (hd : Within M P dz d) (hm : inMask 0x80B82100000140790000000000000000000000000000000000000000000000000000000000000000000000000800 M = true) (hp : inMask 0x10F0 P = true) : Within M P dz (Dev.accept d entry index o data) :=
  hd.andThen (Dev.accept_w0 d entry index o data) hm hp

theorem Dev.mbxAdmit_w0 (d : Dev) : Within 0x80B82100000140790000000000000000000000000000000000000000000000000000000000000000000000000800 0x10F0 d (Dev.mbxAdmit d) := by
  unfold Dev.mbxAdmit
  repeat' first
    | (with_reducible exact Within.refl _)
    | (with_reducible assumption)
    | ((try lift_lets); intro x_; first
      | (refine (fun (hx_ : Within 0x80B82100000140790000000000000000000000000000000000000000000000000000000000000000000000000800 0x10F0 d x_) => ?rest) ?val; (case' rest => clear_value x_); (case' val => subst x_))
      | (have _t := fun y_ => x_ y_; clear _t; subst x_)
      | (have _t : Dev := x_.1; clear _t; subst x_)
      | (have _t : Dev := x_.2; clear _t; subst x_)
      | (have _t : Dev := x_; clear _t; subst x_)
      | clear_value x_)
    | (with_reducible refine Dev.completeK_w _ _ _ _ _ ?_ (by decide +kernel) (by decide +kernel))
    | (with_reducible refine Dev.accept_w _ _ _ _ _ ?_ (by decide +kernel) (by decide +kernel))
    | (with_reducible refine Within.onSec ?_ _ (by decide +kernel))
    | (with_reducible refine Within.ite ?_ ?_)
    | (intro _ _ _)
    | split
    | dsimp only

theorem Dev.mbxAdmit_w (d : Dev) {M P : Nat} {dz : Dev} (hd : Within M P dz d) (hm : inMask 0x80B82100000140790000000000000000000000000000000000000000000000000000000000000000000000000800 M = true) (hp : inMask 0x10F0 P = true) : Within M P dz (Dev.mbxAdmit d) :=
  hd.andThen (Dev.mbxAdmit_w0 d) hm hp

theorem showCap_w0 (d : Dev) : Within 0x1000000000000000000 0 d (showCap d) := by
  unfold showCap
  repeat' first
    | (with_reducible exact Within.refl _)
    | (with_reducible assumption)
    | ((try lift_lets); intro x_; first
      | (refine (fun (hx_ : Within 0x1000000000000000000 0 d x_) => ?rest) ?val; (case' rest => clear_value x_); (case' val => subst x_))
      | (have _t := fun y_ => x_ y_; clear _t; subst x_)
      | (have _t : Dev := x_.1; clear _t; subst x_)
      | (have _t : Dev := x_.2; clear _t; subst x_)
      | (have _t : Dev := x_; clear _t; subst x_)
      | clear_value x_)
    | (with_reducible refine Within.putBitAt ?_ _ _ _ (by decide +kernel))
    | (with_reducible refine Within.putBit ?_ _ _ (by decide +kernel))
    | (with_reducible refine Within.putAt ?_ _ _ _ (by decide +kernel))
    | (with_reducible refine Within.put ?_ _ _ (by decide +kernel))
    | (with_reducible refine Within.foldl ?_ _ _ ?_)
    | (with_reducible refine Within.ite ?_ ?_)
    | (intro _ _ _)
    | split
    | dsimp only

theorem showCap_w (d : Dev) {M P : Nat} {dz : Dev} (hd : Within M P dz d) (hm : inMask 0x1000000000000000000 M = true) (hp : inMask 0 P = true) : Within M P dz (showCap d) :=
  hd.andThen (showCap_w0 d) hm hp

theorem settleCaps_w0 (d : Dev) : Within 0x140010000000000000000000000000000000000000000000000000000000001000000000000000000 0x830 d (settleCaps d) := by
  unfold settleCaps
  repeat' first
    | (with_reducible exact Within.refl _)
    | (with_reducible assumption)
    | ((try lift_lets); intro x_; first
      | (refine (fun (hx_ : Within 0x140010000000000000000000000000000000000000000000000000000000001000000000000000000 0x830 d x_) => ?rest) ?val; (case' rest => clear_value x_); (case' val => subst x_))
      | (have _t := fun y_ => x_ y_; clear _t; subst x_)
      | (have _t : Dev := x_.1; clear _t; subst x_)
      | (have _t : Dev := x_.2; clear _t; subst x_)
      | (have _t : Dev := x_; clear _t; subst x_)
      | clear_value x_)
    | (with_reducible refine Dev.completeK_w _ _ _ _ _ ?_ (by decide +kernel) (by decide +kernel))
    | (with_reducible refine showCap_w _ ?_ (by decide +kernel) (by decide +kernel))
    | (with_reducible refine Within.onPipe ?_ _ (by decide +kernel))
    | (with_reducible refine Within.foldl ?_ _ _ ?_)
    | (with_reducible refine Within.ite ?_ ?_)
    | (intro _ _ _)
    | split
    | dsimp only

theorem settleCaps_w (d : Dev) {M P : Nat} {dz : Dev} (hd : Within M P dz d) (hm : inMask 0x140010000000000000000000000000000000000000000000000000000000001000000000000000000 M = true) (hp : inMask 0x830 P = true) : Within M P dz (settleCaps d) :=
  hd.andThen (settleCaps_w0 d) hm hp

theorem endCap_w0 (k : Nat) (st : Nat) (d : Dev) : Within 0x140010000000000000000000000000000000000000000000000000000000001000000000000000000 0x830 d (endCap k st d) := by
  unfold endCap
  repeat' first
    | (with_reducible exact Within.refl _)
    | (with_reducible assumption)
    | (with_reducible refine settleCaps_w _ ?_ (by decide +kernel) (by decide +kernel))
    | (with_reducible refine Within.onPipe ?_ _ (by decide +kernel))
    | (with_reducible refine Within.ite ?_ ?_)
    | (intro _ _ _)
    | split
    | dsimp only

theorem endCap_w (k : Nat) (st : Nat) (d : Dev) {M P : Nat} {dz : Dev} (hd : Within M P dz d) (hm : inMask 0x140010000000000000000000000000000000000000000000000000000000001000000000000000000 M = true) (hp : inMask 0x830 P = true) : Within M P dz (endCap k st d) :=
  hd.andThen (endCap_w0 k st d) hm hp

theorem countDropped_w0 (k : Nat) (n : Nat) (d : Dev) : Within 0 0x800 d (countDropped k n d) := by
  unfold countDropped
  repeat' first
    | (with_reducible exact Within.refl _)
    | (with_reducible assumption)
    | ((try lift_lets); intro x_; first
      | (refine (fun (hx_ : Within 0 0x800 d x_) => ?rest) ?val; (case' rest => clear_value x_); (case' val => subst x_))
      | (have _t := fun y_ => x_ y_; clear _t; subst x_)
      | (have _t : Dev := x_.1; clear _t; subst x_)
      | (have _t : Dev := x_.2; clear _t; subst x_)
      | (have _t : Dev := x_; clear _t; subst x_)
      | clear_value x_)
    | (with_reducible refine Within.onPipe ?_ _ (by decide +kernel))
    | (with_reducible refine Within.ite ?_ ?_)
    | (intro _ _ _)
    | split
    | dsimp only

theorem countDropped_w (k : Nat) (n : Nat) (d : Dev) {M P : Nat} {dz : Dev} (hd : Within M P dz d) (hm : inMask 0 M = true) (hp : inMask 0x800 P = true) : Within M P dz (countDropped k n d) :=
  hd.andThen (countDropped_w0 k n d) hm hp

theorem capLeft_w0 (buf : Option Nat) (delivered : Bool) (d : Dev) : Within 0x140010000000000000000000000000000000000000000000000000000000003000000000000000000 0x830 d (capLeft buf delivered d) := by
  unfold capLeft
  repeat' first
    | (with_reducible exact Within.refl _)
    | (with_reducible assumption)
    | ((try lift_lets); intro x_; first
      | (refine (fun (hx_ : Within 0x140010000000000000000000000000000000000000000000000000000000003000000000000000000 0x830 d x_) => ?rest) ?val; (case' rest => clear_value x_); (case' val => subst x_))
      | (have _t := fun y_ => x_ y_; clear _t; subst x_)
      | (have _t : Dev := x_.1; clear _t; subst x_)
      | (have _t : Dev := x_.2; clear _t; subst x_)
      | (have _t : Dev := x_; clear _t; subst x_)
      | clear_value x_)
    | (with_reducible refine settleCaps_w _ ?_ (by decide +kernel) (by decide +kernel))
    | (with_reducible refine Within.incWrapAt ?_ _ _ (by decide +kernel))
    | (with_reducible refine Within.incWrap ?_ _ (by decide +kernel))
    | (with_reducible refine Within.onPipe ?_ _ (by decide +kernel))
    | (with_reducible refine Within.ite ?_ ?_)
    | (intro _ _ _)
    | split
    | dsimp only

theorem capLeft_w (buf : Option Nat) (delivered : Bool) (d : Dev) {M P : Nat} {dz : Dev} (hd : Within M P dz d) (hm : inMask 0x140010000000000000000000000000000000000000000000000000000000003000000000000000000 M = true) (hp : inMask 0x830 P = true) : Within M P dz (capLeft buf delivered d) :=
  hd.andThen (capLeft_w0 buf delivered d) hm hp

theorem abandonWhere_w0 (p : Nat → Bool) (d : Dev) : Within 0x140010000000000000000000000000000000000000000000000000000000001000000000000000000 0x830 d (abandonWhere p d) := by
  unfold abandonWhere
  repeat' first
    | (with_reducible exact Within.refl _)
    | (with_reducible assumption)
    | ((try lift_lets); intro x_; first
      | (refine (fun (hx_ : Within 0x140010000000000000000000000000000000000000000000000000000000001000000000000000000 0x830 d x_) => ?rest) ?val; (case' rest => clear_value x_); (case' val => subst x_))
      | (have _t := fun y_ => x_ y_; clear _t; subst x_)
      | (have _t : Dev := x_.1; clear _t; subst x_)
      | (have _t : Dev := x_.2; clear _t; subst x_)
      | (have _t : Dev := x_; clear _t; subst x_)
      | clear_value x_)
    | (with_reducible refine showCap_w _ ?_ (by decide +kernel) (by decide +kernel))
    | (with_reducible refine endCap_w _ _ _ ?_ (by decide +kernel) (by decide +kernel))
    | (with_reducible refine Within.onPipe ?_ _ (by decide +kernel))
    | (with_reducible refine Within.foldl ?_ _ _ ?_)
    | (with_reducible refine Within.ite ?_ ?_)
    | (intro _ _ _)
    | split
    | dsimp only

theorem abandonWhere_w (p : Nat → Bool) (d : Dev) {M P : Nat} {dz : Dev} (hd : Within M P dz d) (hm : inMask 0x140010000000000000000000000000000000000000000000000000000000001000000000000000000 M = true) (hp : inMask 0x830 P = true) : Within M P dz (abandonWhere p d) :=
  hd.andThen (abandonWhere_w0 p d) hm hp

theorem abandonCaptures_w0 (n : Nat) (d : Dev) : Within 0x140010000000000000000000000000000000000000000000000000000000001000000000000000000 0x830 d (abandonCaptures n d) := by
  unfold abandonCaptures
  repeat' first
    | (with_reducible exact Within.refl _)
    | (with_reducible assumption)
    | ((try lift_lets); intro x_; first
      | (refine (fun (hx_ : Within 0x140010000000000000000000000000000000000000000000000000000000001000000000000000000 0x830 d x_) => ?rest) ?val; (case' rest => clear_value x_); (case' val => subst x_))
      | (have _t := fun y_ => x_ y_; clear _t; subst x_)
      | (have _t : Dev := x_.1; clear _t; subst x_)
      | (have _t : Dev := x_.2; clear _t; subst x_)
      | (have _t : Dev := x_; clear _t; subst x_)
      | clear_value x_)
    | (with_reducible refine Dev.ok_w _ _ _ ?_ (by decide +kernel) (by decide +kernel))
    | (with_reducible refine settleCaps_w _ ?_ (by decide +kernel) (by decide +kernel))
    | (with_reducible refine abandonWhere_w _ _ ?_ (by decide +kernel) (by decide +kernel))
    | (with_reducible refine Within.onPipe ?_ _ (by decide +kernel))
    | (with_reducible refine Within.ite ?_ ?_)
    | (intro _ _ _)
    | split
    | dsimp only

theorem abandonCaptures_w (n : Nat) (d : Dev) {M P : Nat} {dz : Dev} (hd : Within M P dz d) (hm : inMask 0x140010000000000000000000000000000000000000000000000000000000001000000000000000000 M = true) (hp : inMask 0x830 P = true) : Within M P dz (abandonCaptures n d) :=
  hd.andThen (abandonCaptures_w0 n d) hm hp

theorem Dev.freshQdr_w0 (d : Dev) (a : Nat) (n : Nat) : Within 0 0x40 d (Dev.freshQdr d a n) := by
  unfold Dev.freshQdr
  repeat' first
    | (with_reducible exact Within.refl _)
    | (with_reducible assumption)
    | (with_reducible refine Within.onStore ?_ _ (by decide +kernel))
    | (with_reducible refine Within.ite ?_ ?_)
    | (intro _ _ _)
    | split
    | dsimp only

theorem Dev.freshQdr_w (d : Dev) (a : Nat) (n : Nat) {M P : Nat} {dz : Dev} (hd : Within M P dz d) (hm : inMask 0 M = true) (hp : inMask 0x40 P = true) : Within M P dz (Dev.freshQdr d a n) :=
  hd.andThen (Dev.freshQdr_w0 d a n) hm hp

theorem incWire_w (c i : Nat) (d : Dev) {M P : Nat} {dz : Dev} (hd : Within M P dz d) (hm : inMask 0x80B8011E400000000000000000000000000000000000000000000000000000000000000000000000000000000000 M = true) (hp : inMask 0xD0 P = true) : Within M P dz (d.inc (wireFld c i)) := by
  refine hd.andThen (m := 0x80B8011E400000000000000000000000000000000000000000000000000000000000000000000000000000000000) (p := 0xD0) ?_ hm hp
  unfold wireFld
  dsimp only
  split
  · split <;> exact Within.incAt (Within.refl _) _ _ (by decide +kernel)
  · split
    · split <;> exact Within.incAt (Within.refl _) _ _ (by decide +kernel)
    · split
      · split <;> exact Within.incAt (Within.refl _) _ _ (by decide +kernel)
      · split <;> exact Within.incAt (Within.refl _) _ _ (by decide +kernel)

theorem Dev.qdrCorr_w0 (d : Dev) (w : Nat) (fixed : List Nat) : Within 0x80B8011E400000000000000000000000000000000000000000000000000000000000000000000000000000000000 0xD0 d (Dev.qdrCorr d w fixed) := by
  unfold Dev.qdrCorr
  repeat' first
    | (with_reducible refine incWire_w _ _ _ ?_ (by decide +kernel) (by decide +kernel))
    | (with_reducible exact Within.refl _)
    | (with_reducible assumption)
    | ((try lift_lets); intro x_; first
      | (refine (fun (hx_ : Within 0x80B8011E400000000000000000000000000000000000000000000000000000000000000000000000000000000000 0xD0 d x_) => ?rest) ?val; (case' rest => clear_value x_); (case' val => subst x_))
      | (have _t := fun y_ => x_ y_; clear _t; subst x_)
      | (have _t : Dev := x_.1; clear _t; subst x_)
      | (have _t : Dev := x_.2; clear _t; subst x_)
      | (have _t : Dev := x_; clear _t; subst x_)
      | clear_value x_)
    | (with_reducible refine Dev.event_w _ _ _ ?_ (by decide +kernel) (by decide +kernel))
    | (with_reducible refine Within.incAt ?_ _ _ (by decide +kernel))
    | (with_reducible refine Within.inc ?_ _ (by decide +kernel))
    | (with_reducible refine Within.foldl ?_ _ _ ?_)
    | (with_reducible refine Within.ite ?_ ?_)
    | (intro _ _ _)
    | split
    | dsimp only

theorem Dev.qdrCorr_w (d : Dev) (w : Nat) (fixed : List Nat) {M P : Nat} {dz : Dev} (hd : Within M P dz d) (hm : inMask 0x80B8011E400000000000000000000000000000000000000000000000000000000000000000000000000000000000 M = true) (hp : inMask 0xD0 P = true) : Within M P dz (Dev.qdrCorr d w fixed) :=
  hd.andThen (Dev.qdrCorr_w0 d w fixed) hm hp

theorem Dev.badSeen_w0 (d : Dev) (ws : List Nat) : Within 0x80B80100802000000000000000000000000000000000000000000000000000000000000000000000000000000000 0xD0 d (Dev.badSeen d ws) := by
  unfold Dev.badSeen
  repeat' first
    | (with_reducible exact Within.refl _)
    | (with_reducible assumption)
    | (with_reducible refine Dev.qdrUncorr_w _ _ ?_ (by decide +kernel) (by decide +kernel))
    | (with_reducible refine Within.foldl ?_ _ _ ?_)
    | (with_reducible refine Within.ite ?_ ?_)
    | (intro _ _ _)
    | split
    | dsimp only

theorem Dev.badSeen_w (d : Dev) (ws : List Nat) {M P : Nat} {dz : Dev} (hd : Within M P dz d) (hm : inMask 0x80B80100802000000000000000000000000000000000000000000000000000000000000000000000000000000000 M = true) (hp : inMask 0xD0 P = true) : Within M P dz (Dev.badSeen d ws) :=
  hd.andThen (Dev.badSeen_w0 d ws) hm hp

theorem Dev.pathRead_w0 (d : Dev) (lane : Nat) (code : List Byte) : Within 0x80B80100180000000000000000000000000000000000000000000000000000000000000000000000000000000000 0xD0 d (Dev.pathRead d lane code) := by
  unfold Dev.pathRead
  repeat' first
    | (with_reducible exact Within.refl _)
    | (with_reducible assumption)
    | ((try lift_lets); intro x_; first
      | (refine (fun (hx_ : Within 0x80B80100180000000000000000000000000000000000000000000000000000000000000000000000000000000000 0xD0 d x_) => ?rest) ?val; (case' rest => clear_value x_); (case' val => subst x_))
      | (have _t := fun y_ => x_ y_; clear _t; subst x_)
      | (have _t : Dev := x_.1; clear _t; subst x_)
      | (have _t : Dev := x_.2; clear _t; subst x_)
      | (have _t : Dev := x_; clear _t; subst x_)
      | clear_value x_)
    | (with_reducible refine Dev.event_w _ _ _ ?_ (by decide +kernel) (by decide +kernel))
    | (with_reducible refine Within.incAt ?_ _ _ (by decide +kernel))
    | (with_reducible refine Within.inc ?_ _ (by decide +kernel))
    | (with_reducible refine Within.ite ?_ ?_)
    | (intro _ _ _)
    | split
    | dsimp only

theorem Dev.pathRead_w (d : Dev) (lane : Nat) (code : List Byte) {M P : Nat} {dz : Dev} (hd : Within M P dz d) (hm : inMask 0x80B80100180000000000000000000000000000000000000000000000000000000000000000000000000000000000 M = true) (hp : inMask 0xD0 P = true) : Within M P dz (Dev.pathRead d lane code) :=
  hd.andThen (Dev.pathRead_w0 d lane code) hm hp

theorem Dev.putRingX_w0 (d : Dev) (n : Nat) (r : RingX) : Within 0x1000000000000000000000000000000000000000000000000000000000000000000000000000 0x10 d (Dev.putRingX d n r) := by
  unfold Dev.putRingX
  repeat' first
    | (with_reducible exact Within.refl _)
    | (with_reducible assumption)
    | (with_reducible refine Within.putAt ?_ _ _ _ (by decide +kernel))
    | (with_reducible refine Within.put ?_ _ _ (by decide +kernel))
    | (with_reducible refine Within.onHost ?_ _ (by decide +kernel))
    | (with_reducible refine Within.ite ?_ ?_)
    | (intro _ _ _)
    | split
    | dsimp only

theorem Dev.putRingX_w (d : Dev) (n : Nat) (r : RingX) {M P : Nat} {dz : Dev} (hd : Within M P dz d) (hm : inMask 0x1000000000000000000000000000000000000000000000000000000000000000000000000000 M = true) (hp : inMask 0x10 P = true) : Within M P dz (Dev.putRingX d n r) :=
  hd.andThen (Dev.putRingX_w0 d n r) hm hp

theorem Dev.idxEntry_w0 (d : Dev) (n : Nat) : Within 0 2 d (Dev.idxEntry d n) := by
  unfold Dev.idxEntry
  repeat' first
    | (with_reducible exact Within.refl _)
    | (with_reducible assumption)
    | (with_reducible refine Within.emit ?_ _ (by decide +kernel))
    | (with_reducible refine Within.ite ?_ ?_)
    | (intro _ _ _)
    | split
    | dsimp only

theorem Dev.idxEntry_w (d : Dev) (n : Nat) {M P : Nat} {dz : Dev} (hd : Within M P dz d) (hm : inMask 0 M = true) (hp : inMask 2 P = true) : Within M P dz (Dev.idxEntry d n) :=
  hd.andThen (Dev.idxEntry_w0 d n) hm hp

theorem Dev.ringTo_w0 (d : Dev) (n : Nat) (st : Nat) (err : Nat) : Within 0x1000000000000000000000000000000000000000000000000000000000000000000000000000 0x12 d (Dev.ringTo d n st err) := by
  unfold Dev.ringTo
  repeat' first
    | (with_reducible exact Within.refl _)
    | (with_reducible assumption)
    | ((try lift_lets); intro x_; first
      | (refine (fun (hx_ : Within 0x1000000000000000000000000000000000000000000000000000000000000000000000000000 0x12 d x_) => ?rest) ?val; (case' rest => clear_value x_); (case' val => subst x_))
      | (have _t := fun y_ => x_ y_; clear _t; subst x_)
      | (have _t : Dev := x_.1; clear _t; subst x_)
      | (have _t : Dev := x_.2; clear _t; subst x_)
      | (have _t : Dev := x_; clear _t; subst x_)
      | clear_value x_)
    | (with_reducible refine Dev.pendErr_w _ ?_ (by decide +kernel) (by decide +kernel))
    | (with_reducible refine Dev.idxEntry_w _ _ ?_ (by decide +kernel) (by decide +kernel))
    | (with_reducible refine Within.putAt ?_ _ _ _ (by decide +kernel))
    | (with_reducible refine Within.put ?_ _ _ (by decide +kernel))
    | (with_reducible refine Within.ite ?_ ?_)
    | (intro _ _ _)
    | split
    | dsimp only

theorem Dev.ringTo_w (d : Dev) (n : Nat) (st : Nat) (err : Nat) {M P : Nat} {dz : Dev} (hd : Within M P dz d) (hm : inMask 0x1000000000000000000000000000000000000000000000000000000000000000000000000000 M = true) (hp : inMask 0x12 P = true) : Within M P dz (Dev.ringTo d n st err) :=
  hd.andThen (Dev.ringTo_w0 d n st err) hm hp

theorem Dev.advanceM_w0 (d : Dev) (n : Nat) (k : Nat) : Within 0x4000000000000000000000000000000000000000000000000000000000000000000000000000 2 d (Dev.advanceM d n k) := by
  unfold Dev.advanceM
  repeat' first
    | (with_reducible exact Within.refl _)
    | (with_reducible assumption)
    | (with_reducible refine Dev.idxEntry_w _ _ ?_ (by decide +kernel) (by decide +kernel))
    | (with_reducible refine Within.putAt ?_ _ _ _ (by decide +kernel))
    | (with_reducible refine Within.put ?_ _ _ (by decide +kernel))
    | (with_reducible refine Within.ite ?_ ?_)
    | (intro _ _ _)
    | split
    | dsimp only

theorem Dev.advanceM_w (d : Dev) (n : Nat) (k : Nat) {M P : Nat} {dz : Dev} (hd : Within M P dz d) (hm : inMask 0x4000000000000000000000000000000000000000000000000000000000000000000000000000 M = true) (hp : inMask 2 P = true) : Within M P dz (Dev.advanceM d n k) :=
  hd.andThen (Dev.advanceM_w0 d n k) hm hp

theorem Dev.dropRec_w0 (d : Dev) (r : RecX) : Within 0x140019000000000000000000000000000010000000000000000000000000003000000000000000000 0x830 d (Dev.dropRec d r) := by
  unfold Dev.dropRec
  repeat' first
    | (with_reducible exact Within.refl _)
    | (with_reducible assumption)
    | ((try lift_lets); intro x_; first
      | (refine (fun (hx_ : Within 0x140019000000000000000000000000000010000000000000000000000000003000000000000000000 0x830 d x_) => ?rest) ?val; (case' rest => clear_value x_); (case' val => subst x_))
      | (have _t := fun y_ => x_ y_; clear _t; subst x_)
      | (have _t : Dev := x_.1; clear _t; subst x_)
      | (have _t : Dev := x_.2; clear _t; subst x_)
      | (have _t : Dev := x_; clear _t; subst x_)
      | clear_value x_)
    | (with_reducible refine capLeft_w _ _ _ ?_ (by decide +kernel) (by decide +kernel))
    | (with_reducible refine Dev.putRingX_w _ _ _ ?_ (by decide +kernel) (by decide +kernel))
    | (with_reducible refine Within.addSatAt ?_ _ _ _ (by decide +kernel))
    | (with_reducible refine Within.addSat ?_ _ _ (by decide +kernel))
    | (with_reducible refine Within.incAt ?_ _ _ (by decide +kernel))
    | (with_reducible refine Within.inc ?_ _ (by decide +kernel))
    | (with_reducible refine Within.ite ?_ ?_)
    | (intro _ _ _)
    | split
    | dsimp only

theorem Dev.dropRec_w (d : Dev) (r : RecX) {M P : Nat} {dz : Dev} (hd : Within M P dz d) (hm : inMask 0x140019000000000000000000000000000010000000000000000000000000003000000000000000000 M = true) (hp : inMask 0x830 P = true) : Within M P dz (Dev.dropRec d r) :=
  hd.andThen (Dev.dropRec_w0 d r) hm hp

theorem Dev.dmaWrite_w0 (d : Dev) (addr : Nat) (bs : List Byte) (ro : Bool) : Within 0 2 d (Dev.dmaWrite d addr bs ro) := by
  unfold Dev.dmaWrite
  repeat' first
    | (with_reducible exact Within.refl _)
    | (with_reducible assumption)
    | (with_reducible refine Within.emit ?_ _ (by decide +kernel))
    | (with_reducible refine Within.foldl ?_ _ _ ?_)
    | (with_reducible refine Within.ite ?_ ?_)
    | (intro _ _ _)
    | split
    | dsimp only

theorem Dev.dmaWrite_w (d : Dev) (addr : Nat) (bs : List Byte) (ro : Bool) {M P : Nat} {dz : Dev} (hd : Within M P dz d) (hm : inMask 0 M = true) (hp : inMask 2 P = true) : Within M P dz (Dev.dmaWrite d addr bs ro) :=
  hd.andThen (Dev.dmaWrite_w0 d addr bs ro) hm hp

theorem Dev.issue_w0 (d : Dev) (chan : Nat) (ring : Nat) (addr : Nat) (len : Nat) (k : ReqKind) : Within 0 0x10 d (Dev.issue d chan ring addr len k) := by
  unfold Dev.issue
  repeat' first
    | (with_reducible exact Within.refl _)
    | (with_reducible assumption)
    | (with_reducible refine Within.onHost ?_ _ (by decide +kernel))
    | (with_reducible refine Within.ite ?_ ?_)
    | (intro _ _ _)
    | split
    | dsimp only

theorem Dev.issue_w (d : Dev) (chan : Nat) (ring : Nat) (addr : Nat) (len : Nat) (k : ReqKind) {M P : Nat} {dz : Dev} (hd : Within M P dz d) (hm : inMask 0 M = true) (hp : inMask 0x10 P = true) : Within M P dz (Dev.issue d chan ring addr len k) :=
  hd.andThen (Dev.issue_w0 d chan ring addr len k) hm hp

theorem Dev.issueOne_w0 (d : Dev) (r : Req) : Within 0 0x12 d (Dev.issueOne d r) := by
  unfold Dev.issueOne
  repeat' first
    | (with_reducible exact Within.refl _)
    | (with_reducible assumption)
    | ((try lift_lets); intro x_; first
      | (refine (fun (hx_ : Within 0 0x12 d x_) => ?rest) ?val; (case' rest => clear_value x_); (case' val => subst x_))
      | (have _t := fun y_ => x_ y_; clear _t; subst x_)
      | (have _t : Dev := x_.1; clear _t; subst x_)
      | (have _t : Dev := x_.2; clear _t; subst x_)
      | (have _t : Dev := x_; clear _t; subst x_)
      | clear_value x_)
    | (with_reducible refine Within.onHost ?_ _ (by decide +kernel))
    | (with_reducible refine Within.emit ?_ _ (by decide +kernel))
    | (with_reducible refine Within.ite ?_ ?_)
    | (intro _ _ _)
    | split
    | dsimp only

theorem Dev.issueOne_w (d : Dev) (r : Req) {M P : Nat} {dz : Dev} (hd : Within M P dz d) (hm : inMask 0 M = true) (hp : inMask 0x12 P = true) : Within M P dz (Dev.issueOne d r) :=
  hd.andThen (Dev.issueOne_w0 d r) hm hp

theorem issueGo_wr  {d0 : Dev} : ∀ (n_ : Nat) (d : Dev), Within 0 0x12 d0 d → Within 0 0x12 d0 (issueGo n_ d)
  | 0, d, hd => by
    unfold issueGo
    repeat' first
      | (with_reducible refine issueGo_wr  _ _ ?_)
      | (with_reducible exact Within.refl _)
      | (with_reducible assumption)
      | (with_reducible refine Dev.issueOne_w _ _ ?_ (by decide +kernel) (by decide +kernel))
      | (with_reducible refine Within.ite ?_ ?_)
      | (intro _ _ _)
      | split
      | dsimp only
  | n_ + 1, d, hd => by
    unfold issueGo
    repeat' first
      | (with_reducible refine issueGo_wr  _ _ ?_)
      | (with_reducible exact Within.refl _)
      | (with_reducible assumption)
      | (with_reducible refine Dev.issueOne_w _ _ ?_ (by decide +kernel) (by decide +kernel))
      | (with_reducible refine Within.ite ?_ ?_)
      | (intro _ _ _)
      | split
      | dsimp only

theorem issueGo_w (n_ : Nat) (d : Dev) {M P : Nat} {dz : Dev} (hd : Within M P dz d) (hm : inMask 0 M = true) (hp : inMask 0x12 P = true) : Within M P dz (issueGo n_ d) :=
  hd.andThen (issueGo_wr  _ _ (Within.refl d)) hm hp

theorem Dev.showBusy_w0 (d : Dev) : Within 0x40000000000000000000000000000000000000000000000000000000000000000000000000 0 d (Dev.showBusy d) := by
  unfold Dev.showBusy
  repeat' first
    | (with_reducible exact Within.refl _)
    | (with_reducible assumption)
    | (with_reducible refine Within.putAt ?_ _ _ _ (by decide +kernel))
    | (with_reducible refine Within.put ?_ _ _ (by decide +kernel))
    | (with_reducible refine Within.foldl ?_ _ _ ?_)
    | (with_reducible refine Within.ite ?_ ?_)
    | (intro _ _ _)
    | split
    | dsimp only

theorem Dev.showBusy_w (d : Dev) {M P : Nat} {dz : Dev} (hd : Within M P dz d) (hm : inMask 0x40000000000000000000000000000000000000000000000000000000000000000000000000 M = true) (hp : inMask 0 P = true) : Within M P dz (Dev.showBusy d) :=
  hd.andThen (Dev.showBusy_w0 d) hm hp

theorem Dev.issueAll_w0 (d : Dev) : Within 0x40000000000000000000000000000000000000000000000000000000000000000000000000 0x12 d (Dev.issueAll d) := by
  unfold Dev.issueAll
  repeat' first
    | (with_reducible exact Within.refl _)
    | (with_reducible assumption)
    | (with_reducible refine issueGo_w _ _ ?_ (by decide +kernel) (by decide +kernel))
    | (with_reducible refine Dev.showBusy_w _ ?_ (by decide +kernel) (by decide +kernel))
    | (with_reducible refine Within.ite ?_ ?_)
    | (intro _ _ _)
    | split
    | dsimp only

theorem Dev.issueAll_w (d : Dev) {M P : Nat} {dz : Dev} (hd : Within M P dz d) (hm : inMask 0x40000000000000000000000000000000000000000000000000000000000000000000000000 M = true) (hp : inMask 0x12 P = true) : Within M P dz (Dev.issueAll d) :=
  hd.andThen (Dev.issueAll_w0 d) hm hp

theorem Dev.pumpRing_w0 (d : Dev) (n : Nat) : Within 0 0x10 d (Dev.pumpRing d n) := by
  unfold Dev.pumpRing
  repeat' first
    | (with_reducible exact Within.refl _)
    | (with_reducible assumption)
    | ((try lift_lets); intro x_; first
      | (refine (fun (hx_ : Within 0 0x10 d x_) => ?rest) ?val; (case' rest => clear_value x_); (case' val => subst x_))
      | (have _t := fun y_ => x_ y_; clear _t; subst x_)
      | (have _t : Dev := x_.1; clear _t; subst x_)
      | (have _t : Dev := x_.2; clear _t; subst x_)
      | (have _t : Dev := x_; clear _t; subst x_)
      | clear_value x_)
    | (with_reducible refine Dev.issue_w _ _ _ _ _ _ ?_ (by decide +kernel) (by decide +kernel))
    | (with_reducible refine Within.ite ?_ ?_)
    | (intro _ _ _)
    | split
    | dsimp only

theorem Dev.pumpRing_w (d : Dev) (n : Nat) {M P : Nat} {dz : Dev} (hd : Within M P dz d) (hm : inMask 0 M = true) (hp : inMask 0x10 P = true) : Within M P dz (Dev.pumpRing d n) :=
  hd.andThen (Dev.pumpRing_w0 d n) hm hp

theorem Dev.pumpData_w0 (d : Dev) : Within 0 0x10 d (Dev.pumpData d) := by
  unfold Dev.pumpData
  repeat' first
    | (with_reducible exact Within.refl _)
    | (with_reducible assumption)
    | (with_reducible refine Dev.issue_w _ _ _ _ _ _ ?_ (by decide +kernel) (by decide +kernel))
    | (with_reducible refine Within.foldl ?_ _ _ ?_)
    | (with_reducible refine Within.ite ?_ ?_)
    | (intro _ _ _)
    | split
    | dsimp only

theorem Dev.pumpData_w (d : Dev) {M P : Nat} {dz : Dev} (hd : Within M P dz d) (hm : inMask 0 M = true) (hp : inMask 0x10 P = true) : Within M P dz (Dev.pumpData d) :=
  hd.andThen (Dev.pumpData_w0 d) hm hp

theorem Dev.pump_w0 (d : Dev) : Within 0x40000000000000000000000000000000000000000000000000000000000000000000000000 0x12 d (Dev.pump d) := by
  unfold Dev.pump
  repeat' first
    | (with_reducible exact Within.refl _)
    | (with_reducible assumption)
    | (with_reducible refine Dev.issueAll_w _ ?_ (by decide +kernel) (by decide +kernel))
    | (with_reducible refine Dev.pumpRing_w _ _ ?_ (by decide +kernel) (by decide +kernel))
    | (with_reducible refine Dev.pumpData_w _ ?_ (by decide +kernel) (by decide +kernel))
    | (with_reducible refine Within.foldl ?_ _ _ ?_)
    | (with_reducible refine Within.ite ?_ ?_)
    | (intro _ _ _)
    | split
    | dsimp only

theorem Dev.pump_w (d : Dev) {M P : Nat} {dz : Dev} (hd : Within M P dz d) (hm : inMask 0x40000000000000000000000000000000000000000000000000000000000000000000000000 M = true) (hp : inMask 0x12 P = true) : Within M P dz (Dev.pump d) :=
  hd.andThen (Dev.pump_w0 d) hm hp

theorem Dev.aer_w0 (d : Dev) (bit : Nat) (advisory : Bool) : Within 0 0x10 d (Dev.aer d bit advisory) := by
  unfold Dev.aer
  repeat' first
    | (with_reducible exact Within.refl _)
    | (with_reducible assumption)
    | (with_reducible refine Within.onHost ?_ _ (by decide +kernel))
    | (with_reducible refine Within.ite ?_ ?_)
    | (intro _ _ _)
    | split
    | dsimp only

theorem Dev.aer_w (d : Dev) (bit : Nat) (advisory : Bool) {M P : Nat} {dz : Dev} (hd : Within M P dz d) (hm : inMask 0 M = true) (hp : inMask 0x10 P = true) : Within M P dz (Dev.aer d bit advisory) :=
  hd.andThen (Dev.aer_w0 d bit advisory) hm hp

theorem Dev.aerFail_w0 (d : Dev) (cause : Nat) (again : Bool) : Within 0 0x10 d (Dev.aerFail d cause again) := by
  unfold Dev.aerFail
  repeat' first
    | (with_reducible exact Within.refl _)
    | (with_reducible assumption)
    | (with_reducible refine Dev.aer_w _ _ _ ?_ (by decide +kernel) (by decide +kernel))
    | (with_reducible refine Within.ite ?_ ?_)
    | (intro _ _ _)
    | split
    | dsimp only

theorem Dev.aerFail_w (d : Dev) (cause : Nat) (again : Bool) {M P : Nat} {dz : Dev} (hd : Within M P dz d) (hm : inMask 0 M = true) (hp : inMask 0x10 P = true) : Within M P dz (Dev.aerFail d cause again) :=
  hd.andThen (Dev.aerFail_w0 d cause again) hm hp

theorem Dev.chanHalt_w0 (d : Dev) (r : Req) (cause : Nat) : Within 0x80B80100000000001140000000000000000000000000000000000000000000000000000000000000000000000000 0xD2 d (Dev.chanHalt d r cause) := by
  unfold Dev.chanHalt
  repeat' first
    | (with_reducible exact Within.refl _)
    | (with_reducible assumption)
    | ((try lift_lets); intro x_; first
      | (refine (fun (hx_ : Within 0x80B80100000000001140000000000000000000000000000000000000000000000000000000000000000000000000 0xD2 d x_) => ?rest) ?val; (case' rest => clear_value x_); (case' val => subst x_))
      | (have _t := fun y_ => x_ y_; clear _t; subst x_)
      | (have _t : Dev := x_.1; clear _t; subst x_)
      | (have _t : Dev := x_.2; clear _t; subst x_)
      | (have _t : Dev := x_; clear _t; subst x_)
      | clear_value x_)
    | (with_reducible refine Dev.pendErr_w _ ?_ (by decide +kernel) (by decide +kernel))
    | (with_reducible refine Dev.event_w _ _ _ ?_ (by decide +kernel) (by decide +kernel))
    | (with_reducible refine Dev.ringTo_w _ _ _ _ ?_ (by decide +kernel) (by decide +kernel))
    | (with_reducible refine Within.putAt ?_ _ _ _ (by decide +kernel))
    | (with_reducible refine Within.put ?_ _ _ (by decide +kernel))
    | (with_reducible refine Within.onHost ?_ _ (by decide +kernel))
    | (with_reducible refine Within.foldl ?_ _ _ ?_)
    | (with_reducible refine Within.ite ?_ ?_)
    | (intro _ _ _)
    | split
    | dsimp only

theorem Dev.chanHalt_w (d : Dev) (r : Req) (cause : Nat) {M P : Nat} {dz : Dev} (hd : Within M P dz d) (hm : inMask 0x80B80100000000001140000000000000000000000000000000000000000000000000000000000000000000000000 M = true) (hp : inMask 0xD2 P = true) : Within M P dz (Dev.chanHalt d r cause) :=
  hd.andThen (Dev.chanHalt_w0 d r cause) hm hp

theorem Dev.reqFail_w0 (d : Dev) (r : Req) (cause : Nat) : Within 0x80B80100000000001140000000000000000000000000000000000000000000000000000000000000000000000000 0xD2 d (Dev.reqFail d r cause) := by
  unfold Dev.reqFail
  repeat' first
    | (with_reducible exact Within.refl _)
    | (with_reducible assumption)
    | ((try lift_lets); intro x_; first
      | (refine (fun (hx_ : Within 0x80B80100000000001140000000000000000000000000000000000000000000000000000000000000000000000000 0xD2 d x_) => ?rest) ?val; (case' rest => clear_value x_); (case' val => subst x_))
      | (have _t := fun y_ => x_ y_; clear _t; subst x_)
      | (have _t : Dev := x_.1; clear _t; subst x_)
      | (have _t : Dev := x_.2; clear _t; subst x_)
      | (have _t : Dev := x_; clear _t; subst x_)
      | clear_value x_)
    | (with_reducible refine Dev.aerFail_w _ _ _ ?_ (by decide +kernel) (by decide +kernel))
    | (with_reducible refine Dev.chanHalt_w _ _ _ ?_ (by decide +kernel) (by decide +kernel))
    | (with_reducible refine Within.putAt ?_ _ _ _ (by decide +kernel))
    | (with_reducible refine Within.put ?_ _ _ (by decide +kernel))
    | (with_reducible refine Within.onHost ?_ _ (by decide +kernel))
    | (with_reducible refine Within.ite ?_ ?_)
    | (intro _ _ _)
    | split
    | dsimp only

theorem Dev.reqFail_w (d : Dev) (r : Req) (cause : Nat) {M P : Nat} {dz : Dev} (hd : Within M P dz d) (hm : inMask 0x80B80100000000001140000000000000000000000000000000000000000000000000000000000000000000000000 M = true) (hp : inMask 0xD2 P = true) : Within M P dz (Dev.reqFail d r cause) :=
  hd.andThen (Dev.reqFail_w0 d r cause) hm hp

theorem Dev.reqDone_w0 (d : Dev) (p : Req → Bool) : Within 0 0x10 d (Dev.reqDone d p) := by
  unfold Dev.reqDone
  repeat' first
    | (with_reducible exact Within.refl _)
    | (with_reducible assumption)
    | (with_reducible refine Within.onHost ?_ _ (by decide +kernel))
    | (with_reducible refine Within.ite ?_ ?_)
    | (intro _ _ _)
    | split
    | dsimp only

theorem Dev.reqDone_w (d : Dev) (p : Req → Bool) {M P : Nat} {dz : Dev} (hd : Within M P dz d) (hm : inMask 0 M = true) (hp : inMask 0x10 P = true) : Within M P dz (Dev.reqDone d p) :=
  hd.andThen (Dev.reqDone_w0 d p) hm hp

theorem Dev.haltDesc_w0 (d : Dev) (n : Nat) : Within 0x1000010000000000000000000000000000000000000000000000000000000000000000000000 0x12 d (Dev.haltDesc d n) := by
  unfold Dev.haltDesc
  repeat' first
    | (with_reducible exact Within.refl _)
    | (with_reducible assumption)
    | (with_reducible refine Dev.ringTo_w _ _ _ _ ?_ (by decide +kernel) (by decide +kernel))
    | (with_reducible refine Within.hostErr ?_ _ (by decide +kernel) (by decide +kernel))
    | (with_reducible refine Within.ite ?_ ?_)
    | (intro _ _ _)
    | split
    | dsimp only

theorem Dev.haltDesc_w (d : Dev) (n : Nat) {M P : Nat} {dz : Dev} (hd : Within M P dz d) (hm : inMask 0x1000010000000000000000000000000000000000000000000000000000000000000000000000 M = true) (hp : inMask 0x12 P = true) : Within M P dz (Dev.haltDesc d n) :=
  hd.andThen (Dev.haltDesc_w0 d n) hm hp

theorem Dev.stopBad_w0 (d : Dev) (n : Nat) : Within 0x1000010000000000000000000000000000000000000000000000000000000000000000000000 0x12 d (Dev.stopBad d n) := by
  unfold Dev.stopBad
  repeat' first
    | (with_reducible exact Within.refl _)
    | (with_reducible assumption)
    | ((try lift_lets); intro x_; first
      | (refine (fun (hx_ : Within 0x1000010000000000000000000000000000000000000000000000000000000000000000000000 0x12 d x_) => ?rest) ?val; (case' rest => clear_value x_); (case' val => subst x_))
      | (have _t := fun y_ => x_ y_; clear _t; subst x_)
      | (have _t : Dev := x_.1; clear _t; subst x_)
      | (have _t : Dev := x_.2; clear _t; subst x_)
      | (have _t : Dev := x_; clear _t; subst x_)
      | clear_value x_)
    | (with_reducible refine Dev.haltDesc_w _ _ ?_ (by decide +kernel) (by decide +kernel))
    | (with_reducible refine Within.ite ?_ ?_)
    | (intro _ _ _)
    | split
    | dsimp only

theorem Dev.stopBad_w (d : Dev) (n : Nat) {M P : Nat} {dz : Dev} (hd : Within M P dz d) (hm : inMask 0x1000010000000000000000000000000000000000000000000000000000000000000000000000 M = true) (hp : inMask 0x12 P = true) : Within M P dz (Dev.stopBad d n) :=
  hd.andThen (Dev.stopBad_w0 d n) hm hp

theorem Dev.sendBufs_w0 (d : Dev) (n : Nat) : Within 0x1000000000000000000000000000000000000000000000000000000000000000000000000000 0x12 d (Dev.sendBufs d n) := by
  unfold Dev.sendBufs
  repeat' first
    | (with_reducible exact Within.refl _)
    | (with_reducible assumption)
    | ((try lift_lets); intro x_; first
      | (refine (fun (hx_ : Within 0x1000000000000000000000000000000000000000000000000000000000000000000000000000 0x12 d x_) => ?rest) ?val; (case' rest => clear_value x_); (case' val => subst x_))
      | (have _t := fun y_ => x_ y_; clear _t; subst x_)
      | (have _t : Dev := x_.1; clear _t; subst x_)
      | (have _t : Dev := x_.2; clear _t; subst x_)
      | (have _t : Dev := x_; clear _t; subst x_)
      | clear_value x_)
    | (with_reducible refine Dev.putRingX_w _ _ _ ?_ (by decide +kernel) (by decide +kernel))
    | (with_reducible refine Dev.dmaWrite_w _ _ _ _ ?_ (by decide +kernel) (by decide +kernel))
    | (with_reducible refine Within.foldl ?_ _ _ ?_)
    | (with_reducible refine Within.ite ?_ ?_)
    | (intro _ _ _)
    | split
    | dsimp only

theorem Dev.sendBufs_w (d : Dev) (n : Nat) {M P : Nat} {dz : Dev} (hd : Within M P dz d) (hm : inMask 0x1000000000000000000000000000000000000000000000000000000000000000000000000000 M = true) (hp : inMask 0x12 P = true) : Within M P dz (Dev.sendBufs d n) :=
  hd.andThen (Dev.sendBufs_w0 d n) hm hp

theorem placeGo_wr (n : Nat) {d0 : Dev} : ∀ (n_ : Nat) (d : Dev), Within 0x80B80100802140019000010000000000000000000000010000000000000000000000000003000000000000000000 0x8F2 d0 d → Within 0x80B80100802140019000010000000000000000000000010000000000000000000000000003000000000000000000 0x8F2 d0 (placeGo n n_ d)
  | 0, d, hd => by
    unfold placeGo
    repeat' first
      | (with_reducible refine placeGo_wr _ _ _ ?_)
      | (with_reducible exact Within.refl _)
      | (with_reducible assumption)
      | ((try lift_lets); intro x_; first
        | (refine (fun (hx_ : Within 0x80B80100802140019000010000000000000000000000010000000000000000000000000003000000000000000000 0x8F2 d0 x_) => ?rest) ?val; (case' rest => clear_value x_); (case' val => subst x_))
        | (have _t := fun y_ => x_ y_; clear _t; subst x_)
        | (have _t : Dev := x_.1; clear _t; subst x_)
        | (have _t : Dev := x_.2; clear _t; subst x_)
        | (have _t : Dev := x_; clear _t; subst x_)
        | clear_value x_)
      | (with_reducible refine capLeft_w _ _ _ ?_ (by decide +kernel) (by decide +kernel))
      | (with_reducible refine Dev.badSeen_w _ _ ?_ (by decide +kernel) (by decide +kernel))
      | (with_reducible refine Dev.putRingX_w _ _ _ ?_ (by decide +kernel) (by decide +kernel))
      | (with_reducible refine Dev.dropRec_w _ _ ?_ (by decide +kernel) (by decide +kernel))
      | (with_reducible refine Dev.haltDesc_w _ _ ?_ (by decide +kernel) (by decide +kernel))
      | (with_reducible refine Dev.stopBad_w _ _ ?_ (by decide +kernel) (by decide +kernel))
      | (with_reducible refine Dev.sendBufs_w _ _ ?_ (by decide +kernel) (by decide +kernel))
      | (with_reducible refine Within.onHost ?_ _ (by decide +kernel))
      | (with_reducible refine Within.hostErr ?_ _ (by decide +kernel) (by decide +kernel))
      | (with_reducible refine Within.ite ?_ ?_)
      | (intro _ _ _)
      | split
      | dsimp only
  | n_ + 1, d, hd => by
    unfold placeGo
    repeat' first
      | (with_reducible refine placeGo_wr _ _ _ ?_)
      | (with_reducible exact Within.refl _)
      | (with_reducible assumption)
      | ((try lift_lets); intro x_; first
        | (refine (fun (hx_ : Within 0x80B80100802140019000010000000000000000000000010000000000000000000000000003000000000000000000 0x8F2 d0 x_) => ?rest) ?val; (case' rest => clear_value x_); (case' val => subst x_))
        | (have _t := fun y_ => x_ y_; clear _t; subst x_)
        | (have _t : Dev := x_.1; clear _t; subst x_)
        | (have _t : Dev := x_.2; clear _t; subst x_)
        | (have _t : Dev := x_; clear _t; subst x_)
        | clear_value x_)
      | (with_reducible refine capLeft_w _ _ _ ?_ (by decide +kernel) (by decide +kernel))
      | (with_reducible refine Dev.badSeen_w _ _ ?_ (by decide +kernel) (by decide +kernel))
      | (with_reducible refine Dev.putRingX_w _ _ _ ?_ (by decide +kernel) (by decide +kernel))
      | (with_reducible refine Dev.dropRec_w _ _ ?_ (by decide +kernel) (by decide +kernel))
      | (with_reducible refine Dev.haltDesc_w _ _ ?_ (by decide +kernel) (by decide +kernel))
      | (with_reducible refine Dev.stopBad_w _ _ ?_ (by decide +kernel) (by decide +kernel))
      | (with_reducible refine Dev.sendBufs_w _ _ ?_ (by decide +kernel) (by decide +kernel))
      | (with_reducible refine Within.onHost ?_ _ (by decide +kernel))
      | (with_reducible refine Within.hostErr ?_ _ (by decide +kernel) (by decide +kernel))
      | (with_reducible refine Within.ite ?_ ?_)
      | (intro _ _ _)
      | split
      | dsimp only

theorem placeGo_w (n : Nat) (n_ : Nat) (d : Dev) {M P : Nat} {dz : Dev} (hd : Within M P dz d) (hm : inMask 0x80B80100802140019000010000000000000000000000010000000000000000000000000003000000000000000000 M = true) (hp : inMask 0x8F2 P = true) : Within M P dz (placeGo n n_ d) :=
  hd.andThen (placeGo_wr n _ _ (Within.refl d)) hm hp

theorem Dev.place_w0 (d : Dev) (n : Nat) : Within 0x80B80100802140019040010000000000000000000000010000000000000000000000000003000000000000000000 0x8F2 d (Dev.place d n) := by
  unfold Dev.place
  repeat' first
    | (with_reducible exact Within.refl _)
    | (with_reducible assumption)
    | (with_reducible refine Dev.pump_w _ ?_ (by decide +kernel) (by decide +kernel))
    | (with_reducible refine placeGo_w _ _ _ ?_ (by decide +kernel) (by decide +kernel))
    | (with_reducible refine Within.ite ?_ ?_)
    | (intro _ _ _)
    | split
    | dsimp only

theorem Dev.place_w (d : Dev) (n : Nat) {M P : Nat} {dz : Dev} (hd : Within M P dz d) (hm : inMask 0x80B80100802140019040010000000000000000000000010000000000000000000000000003000000000000000000 M = true) (hp : inMask 0x8F2 P = true) : Within M P dz (Dev.place d n) :=
  hd.andThen (Dev.place_w0 d n) hm hp

theorem Dev.stageRec_w0 (d : Dev) (r : RecX) : Within 0 0x50 d (Dev.stageRec d r) := by
  unfold Dev.stageRec
  repeat' first
    | (with_reducible exact Within.refl _)
    | (with_reducible assumption)
    | ((try lift_lets); intro x_; first
      | (refine (fun (hx_ : Within 0 0x50 d x_) => ?rest) ?val; (case' rest => clear_value x_); (case' val => subst x_))
      | (have _t := fun y_ => x_ y_; clear _t; subst x_)
      | (have _t : Dev := x_.1; clear _t; subst x_)
      | (have _t : Dev := x_.2; clear _t; subst x_)
      | (have _t : Dev := x_; clear _t; subst x_)
      | clear_value x_)
    | (with_reducible refine Dev.freshQdr_w _ _ _ ?_ (by decide +kernel) (by decide +kernel))
    | (with_reducible refine Within.onHost ?_ _ (by decide +kernel))
    | (with_reducible refine Within.foldl ?_ _ _ ?_)
    | (with_reducible refine Within.ite ?_ ?_)
    | (intro _ _ _)
    | split
    | dsimp only

theorem Dev.stageRec_w (d : Dev) (r : RecX) {M P : Nat} {dz : Dev} (hd : Within M P dz d) (hm : inMask 0 M = true) (hp : inMask 0x50 P = true) : Within M P dz (Dev.stageRec d r) :=
  hd.andThen (Dev.stageRec_w0 d r) hm hp

theorem Dev.writeBack_w0 (d : Dev) (n : Nat) : Within 0x5000010000000000000000000000000000000000000000000000000000000000000000000000 0x12 d (Dev.writeBack d n) := by
  unfold Dev.writeBack
  repeat' first
    | (with_reducible exact Within.refl _)
    | (with_reducible assumption)
    | ((try lift_lets); intro x_; first
      | (refine (fun (hx_ : Within 0x5000010000000000000000000000000000000000000000000000000000000000000000000000 0x12 d x_) => ?rest) ?val; (case' rest => clear_value x_); (case' val => subst x_))
      | (have _t := fun y_ => x_ y_; clear _t; subst x_)
      | (have _t : Dev := x_.1; clear _t; subst x_)
      | (have _t : Dev := x_.2; clear _t; subst x_)
      | (have _t : Dev := x_; clear _t; subst x_)
      | clear_value x_)
    | (with_reducible refine Dev.pendVec_w _ _ ?_ (by decide +kernel) (by decide +kernel))
    | (with_reducible refine Dev.putRingX_w _ _ _ ?_ (by decide +kernel) (by decide +kernel))
    | (with_reducible refine Dev.advanceM_w _ _ _ ?_ (by decide +kernel) (by decide +kernel))
    | (with_reducible refine Dev.dmaWrite_w _ _ _ _ ?_ (by decide +kernel) (by decide +kernel))
    | (with_reducible refine Dev.stopBad_w _ _ ?_ (by decide +kernel) (by decide +kernel))
    | (with_reducible refine Within.ite ?_ ?_)
    | (intro _ _ _)
    | split
    | dsimp only

theorem Dev.writeBack_w (d : Dev) (n : Nat) {M P : Nat} {dz : Dev} (hd : Within M P dz d) (hm : inMask 0x5000010000000000000000000000000000000000000000000000000000000000000000000000 M = true) (hp : inMask 0x12 P = true) : Within M P dz (Dev.writeBack d n) :=
  hd.andThen (Dev.writeBack_w0 d n) hm hp

theorem Dev.bufComplete_w0 (d : Dev) (n : Nat) : Within 0x5000010000000000000000000000000000000000000000000000000000000000000000000000 0x12 d (Dev.bufComplete d n) := by
  unfold Dev.bufComplete
  repeat' first
    | (with_reducible exact Within.refl _)
    | (with_reducible assumption)
    | ((try lift_lets); intro x_; first
      | (refine (fun (hx_ : Within 0x5000010000000000000000000000000000000000000000000000000000000000000000000000 0x12 d x_) => ?rest) ?val; (case' rest => clear_value x_); (case' val => subst x_))
      | (have _t := fun y_ => x_ y_; clear _t; subst x_)
      | (have _t : Dev := x_.1; clear _t; subst x_)
      | (have _t : Dev := x_.2; clear _t; subst x_)
      | (have _t : Dev := x_; clear _t; subst x_)
      | clear_value x_)
    | (with_reducible refine Dev.putRingX_w _ _ _ ?_ (by decide +kernel) (by decide +kernel))
    | (with_reducible refine Dev.issue_w _ _ _ _ _ _ ?_ (by decide +kernel) (by decide +kernel))
    | (with_reducible refine Dev.writeBack_w _ _ ?_ (by decide +kernel) (by decide +kernel))
    | (with_reducible refine Within.ite ?_ ?_)
    | (intro _ _ _)
    | split
    | dsimp only

theorem Dev.bufComplete_w (d : Dev) (n : Nat) {M P : Nat} {dz : Dev} (hd : Within M P dz d) (hm : inMask 0x5000010000000000000000000000000000000000000000000000000000000000000000000000 M = true) (hp : inMask 0x12 P = true) : Within M P dz (Dev.bufComplete d n) :=
  hd.andThen (Dev.bufComplete_w0 d n) hm hp

theorem Dev.closeBuf_w0 (d : Dev) (n : Nat) (flushed : Bool) : Within 0x1000000000000000000000000000000000000000000000000000000000000000000000000000 0x10 d (Dev.closeBuf d n flushed) := by
  unfold Dev.closeBuf
  repeat' first
    | (with_reducible exact Within.refl _)
    | (with_reducible assumption)
    | ((try lift_lets); intro x_; first
      | (refine (fun (hx_ : Within 0x1000000000000000000000000000000000000000000000000000000000000000000000000000 0x10 d x_) => ?rest) ?val; (case' rest => clear_value x_); (case' val => subst x_))
      | (have _t := fun y_ => x_ y_; clear _t; subst x_)
      | (have _t : Dev := x_.1; clear _t; subst x_)
      | (have _t : Dev := x_.2; clear _t; subst x_)
      | (have _t : Dev := x_; clear _t; subst x_)
      | clear_value x_)
    | (with_reducible refine Dev.putRingX_w _ _ _ ?_ (by decide +kernel) (by decide +kernel))
    | (with_reducible refine Within.ite ?_ ?_)
    | (intro _ _ _)
    | split
    | dsimp only

theorem Dev.closeBuf_w (d : Dev) (n : Nat) (flushed : Bool) {M P : Nat} {dz : Dev} (hd : Within M P dz d) (hm : inMask 0x1000000000000000000000000000000000000000000000000000000000000000000000000000 M = true) (hp : inMask 0x10 P = true) : Within M P dz (Dev.closeBuf d n flushed) :=
  hd.andThen (Dev.closeBuf_w0 d n flushed) hm hp

theorem Dev.flushBufs_wr (n : Nat) {d0 : Dev} : ∀ (n_ : Nat) (d : Dev), Within 0x5000010000000000000000000000000000000000000000000000000000000000000000000000 0x12 d0 d → Within 0x5000010000000000000000000000000000000000000000000000000000000000000000000000 0x12 d0 (Dev.flushBufs d n n_)
  | 0, d, hd => by
    unfold Dev.flushBufs
    repeat' first
      | (with_reducible refine Dev.flushBufs_wr _ _ _ ?_)
      | (with_reducible exact Within.refl _)
      | (with_reducible assumption)
      | ((try lift_lets); intro x_; first
        | (refine (fun (hx_ : Within 0x5000010000000000000000000000000000000000000000000000000000000000000000000000 0x12 d0 x_) => ?rest) ?val; (case' rest => clear_value x_); (case' val => subst x_))
        | (have _t := fun y_ => x_ y_; clear _t; subst x_)
        | (have _t : Dev := x_.1; clear _t; subst x_)
        | (have _t : Dev := x_.2; clear _t; subst x_)
        | (have _t : Dev := x_; clear _t; subst x_)
        | clear_value x_)
      | (with_reducible refine Dev.bufComplete_w _ _ ?_ (by decide +kernel) (by decide +kernel))
      | (with_reducible refine Within.ite ?_ ?_)
      | (intro _ _ _)
      | split
      | dsimp only
  | n_ + 1, d, hd => by
    unfold Dev.flushBufs
    repeat' first
      | (with_reducible refine Dev.flushBufs_wr _ _ _ ?_)
      | (with_reducible exact Within.refl _)
      | (with_reducible assumption)
      | ((try lift_lets); intro x_; first
        | (refine (fun (hx_ : Within 0x5000010000000000000000000000000000000000000000000000000000000000000000000000 0x12 d0 x_) => ?rest) ?val; (case' rest => clear_value x_); (case' val => subst x_))
        | (have _t := fun y_ => x_ y_; clear _t; subst x_)
        | (have _t : Dev := x_.1; clear _t; subst x_)
        | (have _t : Dev := x_.2; clear _t; subst x_)
        | (have _t : Dev := x_; clear _t; subst x_)
        | clear_value x_)
      | (with_reducible refine Dev.bufComplete_w _ _ ?_ (by decide +kernel) (by decide +kernel))
      | (with_reducible refine Within.ite ?_ ?_)
      | (intro _ _ _)
      | split
      | dsimp only

theorem Dev.flushBufs_w (d : Dev) (n : Nat) (n_ : Nat) {M P : Nat} {dz : Dev} (hd : Within M P dz d) (hm : inMask 0x5000010000000000000000000000000000000000000000000000000000000000000000000000 M = true) (hp : inMask 0x12 P = true) : Within M P dz (Dev.flushBufs d n n_) :=
  hd.andThen (Dev.flushBufs_wr n _ _ (Within.refl d)) hm hp

theorem Dev.closeGo_w0 (d : Dev) (n : Nat) : Within 0x5000010000000000000000000000000000000000000000000000000000000000000000000000 0x12 d (Dev.closeGo d n) := by
  unfold Dev.closeGo
  repeat' first
    | (with_reducible exact Within.refl _)
    | (with_reducible assumption)
    | ((try lift_lets); intro x_; first
      | (refine (fun (hx_ : Within 0x5000010000000000000000000000000000000000000000000000000000000000000000000000 0x12 d x_) => ?rest) ?val; (case' rest => clear_value x_); (case' val => subst x_))
      | (have _t := fun y_ => x_ y_; clear _t; subst x_)
      | (have _t : Dev := x_.1; clear _t; subst x_)
      | (have _t : Dev := x_.2; clear _t; subst x_)
      | (have _t : Dev := x_; clear _t; subst x_)
      | clear_value x_)
    | (with_reducible refine Dev.putRingX_w _ _ _ ?_ (by decide +kernel) (by decide +kernel))
    | (with_reducible refine Dev.ringTo_w _ _ _ _ ?_ (by decide +kernel) (by decide +kernel))
    | (with_reducible refine Dev.flushBufs_w _ _ _ ?_ (by decide +kernel) (by decide +kernel))
    | (with_reducible refine Within.ite ?_ ?_)
    | (intro _ _ _)
    | split
    | dsimp only

theorem Dev.closeGo_w (d : Dev) (n : Nat) {M P : Nat} {dz : Dev} (hd : Within M P dz d) (hm : inMask 0x5000010000000000000000000000000000000000000000000000000000000000000000000000 M = true) (hp : inMask 0x12 P = true) : Within M P dz (Dev.closeGo d n) :=
  hd.andThen (Dev.closeGo_w0 d n) hm hp

theorem Dev.discardDb_w0 (d : Dev) (n : Nat) : Within 0x2000100000000000000000000000000000000000000000000000000000000000000000000000 0x10 d (Dev.discardDb d n) := by
  unfold Dev.discardDb
  repeat' first
    | (with_reducible exact Within.refl _)
    | (with_reducible assumption)
    | ((try lift_lets); intro x_; first
      | (refine (fun (hx_ : Within 0x2000100000000000000000000000000000000000000000000000000000000000000000000000 0x10 d x_) => ?rest) ?val; (case' rest => clear_value x_); (case' val => subst x_))
      | (have _t := fun y_ => x_ y_; clear _t; subst x_)
      | (have _t : Dev := x_.1; clear _t; subst x_)
      | (have _t : Dev := x_.2; clear _t; subst x_)
      | (have _t : Dev := x_; clear _t; subst x_)
      | clear_value x_)
    | (with_reducible refine Within.putAt ?_ _ _ _ (by decide +kernel))
    | (with_reducible refine Within.put ?_ _ _ (by decide +kernel))
    | (with_reducible refine Within.incAt ?_ _ _ (by decide +kernel))
    | (with_reducible refine Within.inc ?_ _ (by decide +kernel))
    | (with_reducible refine Within.onHost ?_ _ (by decide +kernel))
    | (with_reducible refine Within.foldl ?_ _ _ ?_)
    | (with_reducible refine Within.ite ?_ ?_)
    | (intro _ _ _)
    | split
    | dsimp only

theorem Dev.discardDb_w (d : Dev) (n : Nat) {M P : Nat} {dz : Dev} (hd : Within M P dz d) (hm : inMask 0x2000100000000000000000000000000000000000000000000000000000000000000000000000 M = true) (hp : inMask 0x10 P = true) : Within M P dz (Dev.discardDb d n) :=
  hd.andThen (Dev.discardDb_w0 d n) hm hp

theorem Dev.ringReset_w0 (d : Dev) (n : Nat) : Within 0x14001B840100000000000000000000000010000000000000000000000000003000000000000000000 0x832 d (Dev.ringReset d n) := by
  unfold Dev.ringReset
  repeat' first
    | (with_reducible exact Within.refl _)
    | (with_reducible assumption)
    | ((try lift_lets); intro x_; first
      | (refine (fun (hx_ : Within 0x14001B840100000000000000000000000010000000000000000000000000003000000000000000000 0x832 d x_) => ?rest) ?val; (case' rest => clear_value x_); (case' val => subst x_))
      | (have _t := fun y_ => x_ y_; clear _t; subst x_)
      | (have _t : Dev := x_.1; clear _t; subst x_)
      | (have _t : Dev := x_.2; clear _t; subst x_)
      | (have _t : Dev := x_; clear _t; subst x_)
      | clear_value x_)
    | (with_reducible refine abandonCaptures_w _ _ ?_ (by decide +kernel) (by decide +kernel))
    | (with_reducible refine Dev.putRingX_w _ _ _ ?_ (by decide +kernel) (by decide +kernel))
    | (with_reducible refine Dev.ringTo_w _ _ _ _ ?_ (by decide +kernel) (by decide +kernel))
    | (with_reducible refine Dev.dropRec_w _ _ ?_ (by decide +kernel) (by decide +kernel))
    | (with_reducible refine Dev.discardDb_w _ _ ?_ (by decide +kernel) (by decide +kernel))
    | (with_reducible refine Within.putBitAt ?_ _ _ _ (by decide +kernel))
    | (with_reducible refine Within.putBit ?_ _ _ (by decide +kernel))
    | (with_reducible refine Within.putAt ?_ _ _ _ (by decide +kernel))
    | (with_reducible refine Within.put ?_ _ _ (by decide +kernel))
    | (with_reducible refine Within.onHost ?_ _ (by decide +kernel))
    | (with_reducible refine Within.onSec ?_ _ (by decide +kernel))
    | (with_reducible refine Within.foldl ?_ _ _ ?_)
    | (with_reducible refine Within.ite ?_ ?_)
    | (intro _ _ _)
    | split
    | dsimp only

theorem Dev.ringReset_w (d : Dev) (n : Nat) {M P : Nat} {dz : Dev} (hd : Within M P dz d) (hm : inMask 0x14001B840100000000000000000000000010000000000000000000000000003000000000000000000 M = true) (hp : inMask 0x832 P = true) : Within M P dz (Dev.ringReset d n) :=
  hd.andThen (Dev.ringReset_w0 d n) hm hp

theorem Dev.hostDown_w0 (d : Dev) : Within 0x14001B840102000000000000000000000010000000000000000000000000003000000000000000000 0x832 d (Dev.hostDown d) := by
  unfold Dev.hostDown
  repeat' first
    | (with_reducible exact Within.refl _)
    | (with_reducible assumption)
    | ((try lift_lets); intro x_; first
      | (refine (fun (hx_ : Within 0x14001B840102000000000000000000000010000000000000000000000000003000000000000000000 0x832 d x_) => ?rest) ?val; (case' rest => clear_value x_); (case' val => subst x_))
      | (have _t := fun y_ => x_ y_; clear _t; subst x_)
      | (have _t : Dev := x_.1; clear _t; subst x_)
      | (have _t : Dev := x_.2; clear _t; subst x_)
      | (have _t : Dev := x_; clear _t; subst x_)
      | clear_value x_)
    | (with_reducible refine Dev.ringReset_w _ _ ?_ (by decide +kernel) (by decide +kernel))
    | (with_reducible refine Within.putBitAt ?_ _ _ _ (by decide +kernel))
    | (with_reducible refine Within.putBit ?_ _ _ (by decide +kernel))
    | (with_reducible refine Within.putAt ?_ _ _ _ (by decide +kernel))
    | (with_reducible refine Within.put ?_ _ _ (by decide +kernel))
    | (with_reducible refine Within.onHost ?_ _ (by decide +kernel))
    | (with_reducible refine Within.foldl ?_ _ _ ?_)
    | (with_reducible refine Within.ite ?_ ?_)
    | (intro _ _ _)
    | split
    | dsimp only

theorem Dev.hostDown_w (d : Dev) {M P : Nat} {dz : Dev} (hd : Within M P dz d) (hm : inMask 0x14001B840102000000000000000000000010000000000000000000000000003000000000000000000 M = true) (hp : inMask 0x832 P = true) : Within M P dz (Dev.hostDown d) :=
  hd.andThen (Dev.hostDown_w0 d) hm hp

theorem Dev.sendMsg_w0 (d : Dev) (v : Nat) : Within 0 0x12 d (Dev.sendMsg d v) := by
  unfold Dev.sendMsg
  repeat' first
    | (with_reducible exact Within.refl _)
    | (with_reducible assumption)
    | ((try lift_lets); intro x_; first
      | (refine (fun (hx_ : Within 0 0x12 d x_) => ?rest) ?val; (case' rest => clear_value x_); (case' val => subst x_))
      | (have _t := fun y_ => x_ y_; clear _t; subst x_)
      | (have _t : Dev := x_.1; clear _t; subst x_)
      | (have _t : Dev := x_.2; clear _t; subst x_)
      | (have _t : Dev := x_; clear _t; subst x_)
      | clear_value x_)
    | (with_reducible refine Within.onHost ?_ _ (by decide +kernel))
    | (with_reducible refine Within.emit ?_ _ (by decide +kernel))
    | (with_reducible refine Within.ite ?_ ?_)
    | (intro _ _ _)
    | split
    | dsimp only

theorem Dev.sendMsg_w (d : Dev) (v : Nat) {M P : Nat} {dz : Dev} (hd : Within M P dz d) (hm : inMask 0 M = true) (hp : inMask 0x12 P = true) : Within M P dz (Dev.sendMsg d v) :=
  hd.andThen (Dev.sendMsg_w0 d v) hm hp

theorem doorbell_w0 (n : Nat) (v : Word) (wide : Bool) (d : Dev) : Within 0x80B80100000000003040110000000000000000000000000000000000000000000000000000000000000000000000 0xD2 d (doorbell n v wide d) := by
  unfold doorbell
  repeat' first
    | (with_reducible exact Within.refl _)
    | (with_reducible assumption)
    | ((try lift_lets); intro x_; first
      | (refine (fun (hx_ : Within 0x80B80100000000003040110000000000000000000000000000000000000000000000000000000000000000000000 0xD2 d x_) => ?rest) ?val; (case' rest => clear_value x_); (case' val => subst x_))
      | (have _t := fun y_ => x_ y_; clear _t; subst x_)
      | (have _t : Dev := x_.1; clear _t; subst x_)
      | (have _t : Dev := x_.2; clear _t; subst x_)
      | (have _t : Dev := x_; clear _t; subst x_)
      | clear_value x_)
    | (with_reducible refine Dev.event_w _ _ _ ?_ (by decide +kernel) (by decide +kernel))
    | (with_reducible refine Dev.ringTo_w _ _ _ _ ?_ (by decide +kernel) (by decide +kernel))
    | (with_reducible refine Dev.pump_w _ ?_ (by decide +kernel) (by decide +kernel))
    | (with_reducible refine Within.putAt ?_ _ _ _ (by decide +kernel))
    | (with_reducible refine Within.put ?_ _ _ (by decide +kernel))
    | (with_reducible refine Within.incAt ?_ _ _ (by decide +kernel))
    | (with_reducible refine Within.inc ?_ _ (by decide +kernel))
    | (with_reducible refine Within.onHost ?_ _ (by decide +kernel))
    | (with_reducible refine Within.hostErr ?_ _ (by decide +kernel) (by decide +kernel))
    | (with_reducible refine Within.ite ?_ ?_)
    | (intro _ _ _)
    | split
    | dsimp only

theorem doorbell_w (n : Nat) (v : Word) (wide : Bool) (d : Dev) {M P : Nat} {dz : Dev} (hd : Within M P dz d) (hm : inMask 0x80B80100000000003040110000000000000000000000000000000000000000000000000000000000000000000000 M = true) (hp : inMask 0xD2 P = true) : Within M P dz (doorbell n v wide d) :=
  hd.andThen (doorbell_w0 n v wide d) hm hp

theorem commandFetch_w0 (entry : List Byte) (d : Dev) : Within 0x80B82100000140795040010000000000000000000000000000000000000000000000000000000000000000000800 0x10F2 d (commandFetch entry d) := by
  unfold commandFetch
  repeat' first
    | (with_reducible exact Within.refl _)
    | (with_reducible assumption)
    | ((try lift_lets); intro x_; first
      | (refine (fun (hx_ : Within 0x80B82100000140795040010000000000000000000000000000000000000000000000000000000000000000000800 0x10F2 d x_) => ?rest) ?val; (case' rest => clear_value x_); (case' val => subst x_))
      | (have _t := fun y_ => x_ y_; clear _t; subst x_)
      | (have _t : Dev := x_.1; clear _t; subst x_)
      | (have _t : Dev := x_.2; clear _t; subst x_)
      | (have _t : Dev := x_; clear _t; subst x_)
      | clear_value x_)
    | (with_reducible refine Dev.accept_w _ _ _ _ _ ?_ (by decide +kernel) (by decide +kernel))
    | (with_reducible refine Dev.advanceM_w _ _ _ ?_ (by decide +kernel) (by decide +kernel))
    | (with_reducible refine Dev.pump_w _ ?_ (by decide +kernel) (by decide +kernel))
    | (with_reducible refine Dev.reqDone_w _ _ ?_ (by decide +kernel) (by decide +kernel))
    | (with_reducible refine Dev.closeGo_w _ _ ?_ (by decide +kernel) (by decide +kernel))
    | (with_reducible refine Within.onSec ?_ _ (by decide +kernel))
    | (with_reducible refine Within.ite ?_ ?_)
    | (intro _ _ _)
    | split
    | dsimp only

theorem commandFetch_w (entry : List Byte) (d : Dev) {M P : Nat} {dz : Dev} (hd : Within M P dz d) (hm : inMask 0x80B82100000140795040010000000000000000000000000000000000000000000000000000000000000000000800 M = true) (hp : inMask 0x10F2 P = true) : Within M P dz (commandFetch entry d) :=
  hd.andThen (commandFetch_w0 entry d) hm hp

theorem indirectFetch_w0 (k : Nat) (data : List Byte) (d : Dev) : Within 0x80B82100000140790040000000000000000000000000000000000000000000000000000000000000000000000800 0x10F2 d (indirectFetch k data d) := by
  unfold indirectFetch
  repeat' first
    | (with_reducible exact Within.refl _)
    | (with_reducible assumption)
    | ((try lift_lets); intro x_; first
      | (refine (fun (hx_ : Within 0x80B82100000140790040000000000000000000000000000000000000000000000000000000000000000000000800 0x10F2 d x_) => ?rest) ?val; (case' rest => clear_value x_); (case' val => subst x_))
      | (have _t := fun y_ => x_ y_; clear _t; subst x_)
      | (have _t : Dev := x_.1; clear _t; subst x_)
      | (have _t : Dev := x_.2; clear _t; subst x_)
      | (have _t : Dev := x_; clear _t; subst x_)
      | clear_value x_)
    | (with_reducible refine Dev.verifyAll_w _ ?_ (by decide +kernel) (by decide +kernel))
    | (with_reducible refine Dev.issueOne_w _ _ ?_ (by decide +kernel) (by decide +kernel))
    | (with_reducible refine Dev.pump_w _ ?_ (by decide +kernel) (by decide +kernel))
    | (with_reducible refine Dev.reqDone_w _ _ ?_ (by decide +kernel) (by decide +kernel))
    | (with_reducible refine Within.onSec ?_ _ (by decide +kernel))
    | (with_reducible refine Within.foldl ?_ _ _ ?_)
    | (with_reducible refine Within.ite ?_ ?_)
    | (intro _ _ _)
    | split
    | dsimp only

theorem indirectFetch_w (k : Nat) (data : List Byte) (d : Dev) {M P : Nat} {dz : Dev} (hd : Within M P dz d) (hm : inMask 0x80B82100000140790040000000000000000000000000000000000000000000000000000000000000000000000800 M = true) (hp : inMask 0x10F2 P = true) : Within M P dz (indirectFetch k data d) :=
  hd.andThen (indirectFetch_w0 k data d) hm hp

theorem completionWrite_w0 (d : Dev) : Within 0x4040000000000000000000000000000000000000000000000000000000000000000000000000 0x12 d (completionWrite d) := by
  unfold completionWrite
  repeat' first
    | (with_reducible exact Within.refl _)
    | (with_reducible assumption)
    | ((try lift_lets); intro x_; first
      | (refine (fun (hx_ : Within 0x4040000000000000000000000000000000000000000000000000000000000000000000000000 0x12 d x_) => ?rest) ?val; (case' rest => clear_value x_); (case' val => subst x_))
      | (have _t := fun y_ => x_ y_; clear _t; subst x_)
      | (have _t : Dev := x_.1; clear _t; subst x_)
      | (have _t : Dev := x_.2; clear _t; subst x_)
      | (have _t : Dev := x_; clear _t; subst x_)
      | clear_value x_)
    | (with_reducible refine Dev.pendVec_w _ _ ?_ (by decide +kernel) (by decide +kernel))
    | (with_reducible refine Dev.advanceM_w _ _ _ ?_ (by decide +kernel) (by decide +kernel))
    | (with_reducible refine Dev.dmaWrite_w _ _ _ _ ?_ (by decide +kernel) (by decide +kernel))
    | (with_reducible refine Dev.pump_w _ ?_ (by decide +kernel) (by decide +kernel))
    | (with_reducible refine Within.onHost ?_ _ (by decide +kernel))
    | (with_reducible refine Within.ite ?_ ?_)
    | (intro _ _ _)
    | split
    | dsimp only

theorem completionWrite_w (d : Dev) {M P : Nat} {dz : Dev} (hd : Within M P dz d) (hm : inMask 0x4040000000000000000000000000000000000000000000000000000000000000000000000000 M = true) (hp : inMask 0x12 P = true) : Within M P dz (completionWrite d) :=
  hd.andThen (completionWrite_w0 d) hm hp

theorem descFetch_w0 (n : Nat) (bytes : List Byte) (d : Dev) : Within 0x5040010000000000000000000000000000000000000000000000000000000000000000000000 0x12 d (descFetch n bytes d) := by
  unfold descFetch
  repeat' first
    | (with_reducible exact Within.refl _)
    | (with_reducible assumption)
    | ((try lift_lets); intro x_; first
      | (refine (fun (hx_ : Within 0x5040010000000000000000000000000000000000000000000000000000000000000000000000 0x12 d x_) => ?rest) ?val; (case' rest => clear_value x_); (case' val => subst x_))
      | (have _t := fun y_ => x_ y_; clear _t; subst x_)
      | (have _t : Dev := x_.1; clear _t; subst x_)
      | (have _t : Dev := x_.2; clear _t; subst x_)
      | (have _t : Dev := x_; clear _t; subst x_)
      | clear_value x_)
    | (with_reducible refine Dev.putRingX_w _ _ _ ?_ (by decide +kernel) (by decide +kernel))
    | (with_reducible refine Dev.pump_w _ ?_ (by decide +kernel) (by decide +kernel))
    | (with_reducible refine Dev.reqDone_w _ _ ?_ (by decide +kernel) (by decide +kernel))
    | (with_reducible refine Dev.stopBad_w _ _ ?_ (by decide +kernel) (by decide +kernel))
    | (with_reducible refine Dev.closeGo_w _ _ ?_ (by decide +kernel) (by decide +kernel))
    | (with_reducible refine Within.foldl ?_ _ _ ?_)
    | (with_reducible refine Within.ite ?_ ?_)
    | (intro _ _ _)
    | split
    | dsimp only

theorem descFetch_w (n : Nat) (bytes : List Byte) (d : Dev) {M P : Nat} {dz : Dev} (hd : Within M P dz d) (hm : inMask 0x5040010000000000000000000000000000000000000000000000000000000000000000000000 M = true) (hp : inMask 0x12 P = true) : Within M P dz (descFetch n bytes d) :=
  hd.andThen (descFetch_w0 n bytes d) hm hp

theorem dmaCompletion_w0 (id : Nat) (cause : CplCause) (bytes : List Byte) (d : Dev) : Within 0x80B80100000140015140090000000000000000000000000000000000000000000000000000000000000000000000 0xF2 d (dmaCompletion id cause bytes d) := by
  unfold dmaCompletion
  repeat' first
    | (with_reducible exact Within.refl _)
    | (with_reducible assumption)
    | ((try lift_lets); intro x_; first
      | (refine (fun (hx_ : Within 0x80B80100000140015140090000000000000000000000000000000000000000000000000000000000000000000000 0xF2 d x_) => ?rest) ?val; (case' rest => clear_value x_); (case' val => subst x_))
      | (have _t := fun y_ => x_ y_; clear _t; subst x_)
      | (have _t : Dev := x_.1; clear _t; subst x_)
      | (have _t : Dev := x_.2; clear _t; subst x_)
      | (have _t : Dev := x_; clear _t; subst x_)
      | clear_value x_)
    | (with_reducible refine Dev.ok_w _ _ _ ?_ (by decide +kernel) (by decide +kernel))
    | (with_reducible refine Dev.pump_w _ ?_ (by decide +kernel) (by decide +kernel))
    | (with_reducible refine Dev.aer_w _ _ _ ?_ (by decide +kernel) (by decide +kernel))
    | (with_reducible refine Dev.reqFail_w _ _ _ ?_ (by decide +kernel) (by decide +kernel))
    | (with_reducible refine Dev.reqDone_w _ _ ?_ (by decide +kernel) (by decide +kernel))
    | (with_reducible refine Dev.writeBack_w _ _ ?_ (by decide +kernel) (by decide +kernel))
    | (with_reducible refine Dev.closeGo_w _ _ ?_ (by decide +kernel) (by decide +kernel))
    | (with_reducible refine Within.incAt ?_ _ _ (by decide +kernel))
    | (with_reducible refine Within.inc ?_ _ (by decide +kernel))
    | (with_reducible refine Within.onHost ?_ _ (by decide +kernel))
    | (with_reducible refine Within.hostErr ?_ _ (by decide +kernel) (by decide +kernel))
    | (with_reducible refine Within.ite ?_ ?_)
    | (intro _ _ _)
    | split
    | dsimp only

theorem dmaCompletion_w (id : Nat) (cause : CplCause) (bytes : List Byte) (d : Dev) {M P : Nat} {dz : Dev} (hd : Within M P dz d) (hm : inMask 0x80B80100000140015140090000000000000000000000000000000000000000000000000000000000000000000000 M = true) (hp : inMask 0xF2 P = true) : Within M P dz (dmaCompletion id cause bytes d) :=
  hd.andThen (dmaCompletion_w0 id cause bytes d) hm hp

theorem completionTimeout_w0 (id : Nat) (d : Dev) : Within 0x80B80100000000001140000000000000000000000000000000000000000000000000000000000000000000000000 0xD2 d (completionTimeout id d) := by
  unfold completionTimeout
  repeat' first
    | (with_reducible exact Within.refl _)
    | (with_reducible assumption)
    | (with_reducible refine Dev.reqFail_w _ _ _ ?_ (by decide +kernel) (by decide +kernel))
    | (with_reducible refine Within.ite ?_ ?_)
    | (intro _ _ _)
    | split
    | dsimp only

theorem completionTimeout_w (id : Nat) (d : Dev) {M P : Nat} {dz : Dev} (hd : Within M P dz d) (hm : inMask 0x80B80100000000001140000000000000000000000000000000000000000000000000000000000000000000000000 M = true) (hp : inMask 0xD2 P = true) : Within M P dz (completionTimeout id d) :=
  hd.andThen (completionTimeout_w0 id d) hm hp

theorem Dev.reissue_w0 (d : Dev) (id : Nat) (tries : Nat → Nat) : Within 0 0x10 d (Dev.reissue d id tries) := by
  unfold Dev.reissue
  repeat' first
    | (with_reducible exact Within.refl _)
    | (with_reducible assumption)
    | (with_reducible refine Within.onHost ?_ _ (by decide +kernel))
    | (with_reducible refine Within.ite ?_ ?_)
    | (intro _ _ _)
    | split
    | dsimp only

theorem Dev.reissue_w (d : Dev) (id : Nat) (tries : Nat → Nat) {M P : Nat} {dz : Dev} (hd : Within M P dz d) (hm : inMask 0 M = true) (hp : inMask 0x10 P = true) : Within M P dz (Dev.reissue d id tries) :=
  hd.andThen (Dev.reissue_w0 d id tries) hm hp

theorem dmaReissue_w0 (id : Nat) (d : Dev) : Within 0xC0000000000000000000000000000000000000000000000000000000000000000000000000 0x12 d (dmaReissue id d) := by
  unfold dmaReissue
  repeat' first
    | (with_reducible exact Within.refl _)
    | (with_reducible assumption)
    | (with_reducible refine Dev.pump_w _ ?_ (by decide +kernel) (by decide +kernel))
    | (with_reducible refine Dev.reissue_w _ _ _ ?_ (by decide +kernel) (by decide +kernel))
    | (with_reducible refine Within.incAt ?_ _ _ (by decide +kernel))
    | (with_reducible refine Within.inc ?_ _ (by decide +kernel))
    | (with_reducible refine Within.ite ?_ ?_)
    | (intro _ _ _)
    | split
    | dsimp only

theorem dmaReissue_w (id : Nat) (d : Dev) {M P : Nat} {dz : Dev} (hd : Within M P dz d) (hm : inMask 0xC0000000000000000000000000000000000000000000000000000000000000000000000000 M = true) (hp : inMask 0x12 P = true) : Within M P dz (dmaReissue id d) :=
  hd.andThen (dmaReissue_w0 id d) hm hp

theorem Dev.placeAll_w0 (d : Dev) : Within 0x80B8010080214001D040010000000000000000000000010000000000000000000000000003000000000000000000 0x8F2 d (Dev.placeAll d) := by
  unfold Dev.placeAll
  repeat' first
    | (with_reducible exact Within.refl _)
    | (with_reducible assumption)
    | (with_reducible refine Dev.pump_w _ ?_ (by decide +kernel) (by decide +kernel))
    | (with_reducible refine Dev.place_w _ _ ?_ (by decide +kernel) (by decide +kernel))
    | (with_reducible refine Dev.closeGo_w _ _ ?_ (by decide +kernel) (by decide +kernel))
    | (with_reducible refine Within.foldl ?_ _ _ ?_)
    | (with_reducible refine Within.ite ?_ ?_)
    | (intro _ _ _)
    | split
    | dsimp only

theorem Dev.placeAll_w (d : Dev) {M P : Nat} {dz : Dev} (hd : Within M P dz d) (hm : inMask 0x80B8010080214001D040010000000000000000000000010000000000000000000000000003000000000000000000 M = true) (hp : inMask 0x8F2 P = true) : Within M P dz (Dev.placeAll d) :=
  hd.andThen (Dev.placeAll_w0 d) hm hp

theorem resumeChan_w0 (c : Nat) (d : Dev) : Within 0x80B8010080214001D040010000000000000000000000010000000000000000000000000003000000000000000000 0x8F2 d (resumeChan c d) := by
  unfold resumeChan
  repeat' first
    | (with_reducible exact Within.refl _)
    | (with_reducible assumption)
    | ((try lift_lets); intro x_; first
      | (refine (fun (hx_ : Within 0x80B8010080214001D040010000000000000000000000010000000000000000000000000003000000000000000000 0x8F2 d x_) => ?rest) ?val; (case' rest => clear_value x_); (case' val => subst x_))
      | (have _t := fun y_ => x_ y_; clear _t; subst x_)
      | (have _t : Dev := x_.1; clear _t; subst x_)
      | (have _t : Dev := x_.2; clear _t; subst x_)
      | (have _t : Dev := x_; clear _t; subst x_)
      | clear_value x_)
    | (with_reducible refine Dev.ringTo_w _ _ _ _ ?_ (by decide +kernel) (by decide +kernel))
    | (with_reducible refine Dev.reissue_w _ _ _ ?_ (by decide +kernel) (by decide +kernel))
    | (with_reducible refine Dev.placeAll_w _ ?_ (by decide +kernel) (by decide +kernel))
    | (with_reducible refine Within.putAt ?_ _ _ _ (by decide +kernel))
    | (with_reducible refine Within.put ?_ _ _ (by decide +kernel))
    | (with_reducible refine Within.foldl ?_ _ _ ?_)
    | (with_reducible refine Within.ite ?_ ?_)
    | (intro _ _ _)
    | split
    | dsimp only

theorem resumeChan_w (c : Nat) (d : Dev) {M P : Nat} {dz : Dev} (hd : Within M P dz d) (hm : inMask 0x80B8010080214001D040010000000000000000000000010000000000000000000000000003000000000000000000 M = true) (hp : inMask 0x8F2 P = true) : Within M P dz (resumeChan c d) :=
  hd.andThen (resumeChan_w0 c d) hm hp

theorem ringEnable_w0 (n : Nat) (d : Dev) : Within 0x80B8010080214001F840010000000000000000000000010000000000000000000000000003000000000000000000 0x8F2 d (ringEnable n d) := by
  unfold ringEnable
  repeat' first
    | (with_reducible exact Within.refl _)
    | (with_reducible assumption)
    | ((try lift_lets); intro x_; first
      | (refine (fun (hx_ : Within 0x80B8010080214001F840010000000000000000000000010000000000000000000000000003000000000000000000 0x8F2 d x_) => ?rest) ?val; (case' rest => clear_value x_); (case' val => subst x_))
      | (have _t := fun y_ => x_ y_; clear _t; subst x_)
      | (have _t : Dev := x_.1; clear _t; subst x_)
      | (have _t : Dev := x_.2; clear _t; subst x_)
      | (have _t : Dev := x_; clear _t; subst x_)
      | clear_value x_)
    | (with_reducible refine Dev.putRingX_w _ _ _ ?_ (by decide +kernel) (by decide +kernel))
    | (with_reducible refine Dev.ringTo_w _ _ _ _ ?_ (by decide +kernel) (by decide +kernel))
    | (with_reducible refine Dev.place_w _ _ ?_ (by decide +kernel) (by decide +kernel))
    | (with_reducible refine Within.putBitAt ?_ _ _ _ (by decide +kernel))
    | (with_reducible refine Within.putBit ?_ _ _ (by decide +kernel))
    | (with_reducible refine Within.putAt ?_ _ _ _ (by decide +kernel))
    | (with_reducible refine Within.put ?_ _ _ (by decide +kernel))
    | (with_reducible refine Within.ite ?_ ?_)
    | (intro _ _ _)
    | split
    | dsimp only

theorem ringEnable_w (n : Nat) (d : Dev) {M P : Nat} {dz : Dev} (hd : Within M P dz d) (hm : inMask 0x80B8010080214001F840010000000000000000000000010000000000000000000000000003000000000000000000 M = true) (hp : inMask 0x8F2 P = true) : Within M P dz (ringEnable n d) :=
  hd.andThen (ringEnable_w0 n d) hm hp

theorem ringDisable_w0 (n : Nat) (d : Dev) : Within 0x5840010000000000000000000000000000000000000000000000000000000000000000000000 0x12 d (ringDisable n d) := by
  unfold ringDisable
  repeat' first
    | (with_reducible exact Within.refl _)
    | (with_reducible assumption)
    | ((try lift_lets); intro x_; first
      | (refine (fun (hx_ : Within 0x5840010000000000000000000000000000000000000000000000000000000000000000000000 0x12 d x_) => ?rest) ?val; (case' rest => clear_value x_); (case' val => subst x_))
      | (have _t := fun y_ => x_ y_; clear _t; subst x_)
      | (have _t : Dev := x_.1; clear _t; subst x_)
      | (have _t : Dev := x_.2; clear _t; subst x_)
      | (have _t : Dev := x_; clear _t; subst x_)
      | clear_value x_)
    | (with_reducible refine Dev.putRingX_w _ _ _ ?_ (by decide +kernel) (by decide +kernel))
    | (with_reducible refine Dev.pump_w _ ?_ (by decide +kernel) (by decide +kernel))
    | (with_reducible refine Dev.closeBuf_w _ _ _ ?_ (by decide +kernel) (by decide +kernel))
    | (with_reducible refine Dev.closeGo_w _ _ ?_ (by decide +kernel) (by decide +kernel))
    | (with_reducible refine Within.putBitAt ?_ _ _ _ (by decide +kernel))
    | (with_reducible refine Within.putBit ?_ _ _ (by decide +kernel))
    | (with_reducible refine Within.ite ?_ ?_)
    | (intro _ _ _)
    | split
    | dsimp only

theorem ringDisable_w (n : Nat) (d : Dev) {M P : Nat} {dz : Dev} (hd : Within M P dz d) (hm : inMask 0x5840010000000000000000000000000000000000000000000000000000000000000000000000 M = true) (hp : inMask 0x12 P = true) : Within M P dz (ringDisable n d) :=
  hd.andThen (ringDisable_w0 n d) hm hp

theorem recordStaged_w0 (d : Dev) : Within 0x80B80100802140019040010000000000000000000000010000000000000000000000000003000000000000000000 0x8F2 d (recordStaged d) := by
  unfold recordStaged
  repeat' first
    | (with_reducible exact Within.refl _)
    | (with_reducible assumption)
    | ((try lift_lets); intro x_; first
      | (refine (fun (hx_ : Within 0x80B80100802140019040010000000000000000000000010000000000000000000000000003000000000000000000 0x8F2 d x_) => ?rest) ?val; (case' rest => clear_value x_); (case' val => subst x_))
      | (have _t := fun y_ => x_ y_; clear _t; subst x_)
      | (have _t : Dev := x_.1; clear _t; subst x_)
      | (have _t : Dev := x_.2; clear _t; subst x_)
      | (have _t : Dev := x_; clear _t; subst x_)
      | clear_value x_)
    | (with_reducible refine Dev.dropRec_w _ _ ?_ (by decide +kernel) (by decide +kernel))
    | (with_reducible refine Dev.place_w _ _ ?_ (by decide +kernel) (by decide +kernel))
    | (with_reducible refine Dev.stageRec_w _ _ ?_ (by decide +kernel) (by decide +kernel))
    | (with_reducible refine Within.onHost ?_ _ (by decide +kernel))
    | (with_reducible refine Within.ite ?_ ?_)
    | (intro _ _ _)
    | split
    | dsimp only

theorem recordStaged_w (d : Dev) {M P : Nat} {dz : Dev} (hd : Within M P dz d) (hm : inMask 0x80B80100802140019040010000000000000000000000010000000000000000000000000003000000000000000000 M = true) (hp : inMask 0x8F2 P = true) : Within M P dz (recordStaged d) :=
  hd.andThen (recordStaged_w0 d) hm hp

theorem bufferHold_w0 (n : Nat) (d : Dev) : Within 0x1000000000000000000000000000000000000000000000000000000000000000000000000000 0x10 d (bufferHold n d) := by
  unfold bufferHold
  repeat' first
    | (with_reducible exact Within.refl _)
    | (with_reducible assumption)
    | (with_reducible refine Dev.closeBuf_w _ _ _ ?_ (by decide +kernel) (by decide +kernel))
    | (with_reducible refine Within.ite ?_ ?_)
    | (intro _ _ _)
    | split
    | dsimp only

theorem bufferHold_w (n : Nat) (d : Dev) {M P : Nat} {dz : Dev} (hd : Within M P dz d) (hm : inMask 0x1000000000000000000000000000000000000000000000000000000000000000000000000000 M = true) (hp : inMask 0x10 P = true) : Within M P dz (bufferHold n d) :=
  hd.andThen (bufferHold_w0 n d) hm hp

theorem busMaster_w0 (bme : Bool) (d3 : Bool) (d : Dev) : Within 0x80B8010080214001D040012000000000000000000000010000000000000000000000000003000000000000000000 0x8F2 d (busMaster bme d3 d) := by
  unfold busMaster
  repeat' first
    | (with_reducible exact Within.refl _)
    | (with_reducible assumption)
    | ((try lift_lets); intro x_; first
      | (refine (fun (hx_ : Within 0x80B8010080214001D040012000000000000000000000010000000000000000000000000003000000000000000000 0x8F2 d x_) => ?rest) ?val; (case' rest => clear_value x_); (case' val => subst x_))
      | (have _t := fun y_ => x_ y_; clear _t; subst x_)
      | (have _t : Dev := x_.1; clear _t; subst x_)
      | (have _t : Dev := x_.2; clear _t; subst x_)
      | (have _t : Dev := x_; clear _t; subst x_)
      | clear_value x_)
    | (with_reducible refine Dev.ringTo_w _ _ _ _ ?_ (by decide +kernel) (by decide +kernel))
    | (with_reducible refine Dev.reissue_w _ _ _ ?_ (by decide +kernel) (by decide +kernel))
    | (with_reducible refine Dev.placeAll_w _ ?_ (by decide +kernel) (by decide +kernel))
    | (with_reducible refine Within.putBitAt ?_ _ _ _ (by decide +kernel))
    | (with_reducible refine Within.putBit ?_ _ _ (by decide +kernel))
    | (with_reducible refine Within.putAt ?_ _ _ _ (by decide +kernel))
    | (with_reducible refine Within.put ?_ _ _ (by decide +kernel))
    | (with_reducible refine Within.onHost ?_ _ (by decide +kernel))
    | (with_reducible refine Within.foldl ?_ _ _ ?_)
    | (with_reducible refine Within.ite ?_ ?_)
    | (intro _ _ _)
    | split
    | dsimp only

theorem busMaster_w (bme : Bool) (d3 : Bool) (d : Dev) {M P : Nat} {dz : Dev} (hd : Within M P dz d) (hm : inMask 0x80B8010080214001D040012000000000000000000000010000000000000000000000000003000000000000000000 M = true) (hp : inMask 0x8F2 P = true) : Within M P dz (busMaster bme d3 d) :=
  hd.andThen (busMaster_w0 bme d3 d) hm hp

theorem linkDown_w0 (flr : Bool) (d : Dev) : Within 0x80B8010000014001B840132000000000000000000000010000000000000000000000000003000000000000000000 0x8F2 d (linkDown flr d) := by
  unfold linkDown
  repeat' first
    | (with_reducible exact Within.refl _)
    | (with_reducible assumption)
    | ((try lift_lets); intro x_; first
      | (refine (fun (hx_ : Within 0x80B8010000014001B840132000000000000000000000010000000000000000000000000003000000000000000000 0x8F2 d x_) => ?rest) ?val; (case' rest => clear_value x_); (case' val => subst x_))
      | (have _t := fun y_ => x_ y_; clear _t; subst x_)
      | (have _t : Dev := x_.1; clear _t; subst x_)
      | (have _t : Dev := x_.2; clear _t; subst x_)
      | (have _t : Dev := x_; clear _t; subst x_)
      | clear_value x_)
    | (with_reducible refine Dev.event_w _ _ _ ?_ (by decide +kernel) (by decide +kernel))
    | (with_reducible refine Dev.hostDown_w _ ?_ (by decide +kernel) (by decide +kernel))
    | (with_reducible refine Within.putBitAt ?_ _ _ _ (by decide +kernel))
    | (with_reducible refine Within.putBit ?_ _ _ (by decide +kernel))
    | (with_reducible refine Within.putAt ?_ _ _ _ (by decide +kernel))
    | (with_reducible refine Within.put ?_ _ _ (by decide +kernel))
    | (with_reducible refine Within.incAt ?_ _ _ (by decide +kernel))
    | (with_reducible refine Within.inc ?_ _ (by decide +kernel))
    | (with_reducible refine Within.hostErr ?_ _ (by decide +kernel) (by decide +kernel))
    | (with_reducible refine Within.ite ?_ ?_)
    | (intro _ _ _)
    | split
    | dsimp only

theorem linkDown_w (flr : Bool) (d : Dev) {M P : Nat} {dz : Dev} (hd : Within M P dz d) (hm : inMask 0x80B8010000014001B840132000000000000000000000010000000000000000000000000003000000000000000000 M = true) (hp : inMask 0x8F2 P = true) : Within M P dz (linkDown flr d) :=
  hd.andThen (linkDown_w0 flr d) hm hp

theorem setCfg_w0 (w : CfgCtl) (d : Dev) : Within 0x2000000000000000000000000000000000000000000000000000000000000000000000 0x10 d (setCfg w d) := by
  unfold setCfg
  repeat' first
    | (with_reducible exact Within.refl _)
    | (with_reducible assumption)
    | ((try lift_lets); intro x_; first
      | (refine (fun (hx_ : Within 0x2000000000000000000000000000000000000000000000000000000000000000000000 0x10 d x_) => ?rest) ?val; (case' rest => clear_value x_); (case' val => subst x_))
      | (have _t := fun y_ => x_ y_; clear _t; subst x_)
      | (have _t : Dev := x_.1; clear _t; subst x_)
      | (have _t : Dev := x_.2; clear _t; subst x_)
      | (have _t : Dev := x_; clear _t; subst x_)
      | clear_value x_)
    | (with_reducible refine Within.putBitAt ?_ _ _ _ (by decide +kernel))
    | (with_reducible refine Within.putBit ?_ _ _ (by decide +kernel))
    | (with_reducible refine Within.onHost ?_ _ (by decide +kernel))
    | (with_reducible refine Within.ite ?_ ?_)
    | (intro _ _ _)
    | split
    | dsimp only

theorem setCfg_w (w : CfgCtl) (d : Dev) {M P : Nat} {dz : Dev} (hd : Within M P dz d) (hm : inMask 0x2000000000000000000000000000000000000000000000000000000000000000000000 M = true) (hp : inMask 0x10 P = true) : Within M P dz (setCfg w d) :=
  hd.andThen (setCfg_w0 w d) hm hp

end Sys2Proof.Machine
end

