-- ==== Sys2Proof/Laws/FramesImage.lean ====
section
/-! SUPPORT. Frames of the operations of the focal plane, the plates, the blade and the stage. -/

set_option linter.unusedVariables false
set_option Elab.async false

namespace Sys2Proof.Machine

open Sys2Proof

theorem Dev.domLast_w0 (d : Dev) (i : Nat) (on : Bool) (res : Nat) (aborted : Nat) : Within 0x4000 0 d (Dev.domLast d i on res aborted) := by
  unfold Dev.domLast
  repeat' first
    | (with_reducible exact Within.refl _)
    | (with_reducible assumption)
    | (with_reducible refine Within.putBitAt ?_ _ _ _ (by decide +kernel))
    | (with_reducible refine Within.putBit ?_ _ _ (by decide +kernel))
    | (with_reducible refine Within.putAt ?_ _ _ _ (by decide +kernel))
    | (with_reducible refine Within.put ?_ _ _ (by decide +kernel))
    | (with_reducible refine Within.ite ?_ ?_)
    | (intro _ _ _)
    | split
    | dsimp only

theorem Dev.domLast_w (d : Dev) (i : Nat) (on : Bool) (res : Nat) (aborted : Nat) {M P : Nat} {dz : Dev} (hd : Within M P dz d) (hm : inMask 0x4000 M = true) (hp : inMask 0 P = true) : Within M P dz (Dev.domLast d i on res aborted) :=
  hd.andThen (Dev.domLast_w0 d i on res aborted) hm hp

theorem Dev.domEnd_w0 (d : Dev) (k : Option Nat) (st : Nat) (det : Nat) (res : Nat) : Within 0x140010000000000000000000000000000000000000000000000000000000000000000000000000000 0x30 d (Dev.domEnd d k st det res) := by
  unfold Dev.domEnd
  repeat' first
    | (with_reducible exact Within.refl _)
    | (with_reducible assumption)
    | (with_reducible refine Dev.completeK_w _ _ _ _ _ ?_ (by decide +kernel) (by decide +kernel))
    | (with_reducible refine Within.ite ?_ ?_)
    | (intro _ _ _)
    | split
    | dsimp only

theorem Dev.domEnd_w (d : Dev) (k : Option Nat) (st : Nat) (det : Nat) (res : Nat) {M P : Nat} {dz : Dev} (hd : Within M P dz d) (hm : inMask 0x140010000000000000000000000000000000000000000000000000000000000000000000000000000 M = true) (hp : inMask 0x30 P = true) : Within M P dz (Dev.domEnd d k st det res) :=
  hd.andThen (Dev.domEnd_w0 d k st det res) hm hp

theorem Dev.undrain_w0 (d : Dev) (a : AcqSet) : Within 0x140010000000000000000000000000000000000000000000000000000000000000000000000005000 0x1030 d (Dev.undrain d a) := by
  unfold Dev.undrain
  repeat' first
    | (with_reducible exact Within.refl _)
    | (with_reducible assumption)
    | ((try lift_lets); intro x_; first
      | (refine (fun (hx_ : Within 0x140010000000000000000000000000000000000000000000000000000000000000000000000005000 0x1030 d x_) => ?rest) ?val; (case' rest => clear_value x_); (case' val => subst x_))
      | (have _t := fun y_ => x_ y_; clear _t; subst x_)
      | (have _t : Dev := x_.1; clear _t; subst x_)
      | (have _t : Dev := x_.2; clear _t; subst x_)
      | (have _t : Dev := x_; clear _t; subst x_)
      | clear_value x_)
    | (with_reducible refine Dev.domLast_w _ _ _ _ _ ?_ (by decide +kernel) (by decide +kernel))
    | (with_reducible refine Dev.domEnd_w _ _ _ _ _ ?_ (by decide +kernel) (by decide +kernel))
    | (with_reducible refine Within.putAt ?_ _ _ _ (by decide +kernel))
    | (with_reducible refine Within.put ?_ _ _ (by decide +kernel))
    | (with_reducible refine Within.onPwr ?_ _ (by decide +kernel))
    | (with_reducible refine Within.foldl ?_ _ _ ?_)
    | (with_reducible refine Within.ite ?_ ?_)
    | (intro _ _ _)
    | split
    | dsimp only

theorem Dev.undrain_w (d : Dev) (a : AcqSet) {M P : Nat} {dz : Dev} (hd : Within M P dz d) (hm : inMask 0x140010000000000000000000000000000000000000000000000000000000000000000000000005000 M = true) (hp : inMask 0x1030 P = true) : Within M P dz (Dev.undrain d a) :=
  hd.andThen (Dev.undrain_w0 d a) hm hp

theorem Dev.showPend_w0 (d : Dev) : Within 0x10A000000 0 d (Dev.showPend d) := by
  unfold Dev.showPend
  repeat' first
    | (with_reducible exact Within.refl _)
    | (with_reducible assumption)
    | ((try lift_lets); intro x_; first
      | (refine (fun (hx_ : Within 0x10A000000 0 d x_) => ?rest) ?val; (case' rest => clear_value x_); (case' val => subst x_))
      | (have _t := fun y_ => x_ y_; clear _t; subst x_)
      | (have _t : Dev := x_.1; clear _t; subst x_)
      | (have _t : Dev := x_.2; clear _t; subst x_)
      | (have _t : Dev := x_; clear _t; subst x_)
      | clear_value x_)
    | (with_reducible refine Within.putBitAt ?_ _ _ _ (by decide +kernel))
    | (with_reducible refine Within.putBit ?_ _ _ (by decide +kernel))
    | (with_reducible refine Within.putAt ?_ _ _ _ (by decide +kernel))
    | (with_reducible refine Within.put ?_ _ _ (by decide +kernel))
    | (with_reducible refine Within.ite ?_ ?_)
    | (intro _ _ _)
    | split
    | dsimp only

theorem Dev.showPend_w (d : Dev) {M P : Nat} {dz : Dev} (hd : Within M P dz d) (hm : inMask 0x10A000000 M = true) (hp : inMask 0 P = true) : Within M P dz (Dev.showPend d) :=
  hd.andThen (Dev.showPend_w0 d) hm hp

theorem Dev.putCommit_w0 (d : Dev) (c : Option Commit) : Within 0 0x100 d (Dev.putCommit d c) := by
  unfold Dev.putCommit
  repeat' first
    | (with_reducible exact Within.refl _)
    | (with_reducible assumption)
    | (with_reducible refine Within.onFpa ?_ _ (by decide +kernel))
    | (with_reducible refine Within.ite ?_ ?_)
    | (intro _ _ _)
    | split
    | dsimp only

theorem Dev.putCommit_w (d : Dev) (c : Option Commit) {M P : Nat} {dz : Dev} (hd : Within M P dz d) (hm : inMask 0 M = true) (hp : inMask 0x100 P = true) : Within M P dz (Dev.putCommit d c) :=
  hd.andThen (Dev.putCommit_w0 d c) hm hp

theorem Dev.supersede_w0 (d : Dev) : Within 0x140010000000000000000000000000000000000000000000000000000000000000000000080000000 0x130 d (Dev.supersede d) := by
  unfold Dev.supersede
  repeat' first
    | (with_reducible exact Within.refl _)
    | (with_reducible assumption)
    | ((try lift_lets); intro x_; first
      | (refine (fun (hx_ : Within 0x140010000000000000000000000000000000000000000000000000000000000000000000080000000 0x130 d x_) => ?rest) ?val; (case' rest => clear_value x_); (case' val => subst x_))
      | (have _t := fun y_ => x_ y_; clear _t; subst x_)
      | (have _t : Dev := x_.1; clear _t; subst x_)
      | (have _t : Dev := x_.2; clear _t; subst x_)
      | (have _t : Dev := x_; clear _t; subst x_)
      | clear_value x_)
    | (with_reducible refine Dev.completeK_w _ _ _ _ _ ?_ (by decide +kernel) (by decide +kernel))
    | (with_reducible refine Dev.putCommit_w _ _ ?_ (by decide +kernel) (by decide +kernel))
    | (with_reducible refine Within.flagAt ?_ _ _ (by decide +kernel))
    | (with_reducible refine Within.flag ?_ _ (by decide +kernel))
    | (with_reducible refine Within.ite ?_ ?_)
    | (intro _ _ _)
    | split
    | dsimp only

theorem Dev.supersede_w (d : Dev) {M P : Nat} {dz : Dev} (hd : Within M P dz d) (hm : inMask 0x140010000000000000000000000000000000000000000000000000000000000000000000080000000 M = true) (hp : inMask 0x130 P = true) : Within M P dz (Dev.supersede d) :=
  hd.andThen (Dev.supersede_w0 d) hm hp

theorem Dev.placeFirst_w0 (d : Dev) : Within 0 0x100 d (Dev.placeFirst d) := by
  unfold Dev.placeFirst
  repeat' first
    | (with_reducible exact Within.refl _)
    | (with_reducible assumption)
    | ((try lift_lets); intro x_; first
      | (refine (fun (hx_ : Within 0 0x100 d x_) => ?rest) ?val; (case' rest => clear_value x_); (case' val => subst x_))
      | (have _t := fun y_ => x_ y_; clear _t; subst x_)
      | (have _t : Dev := x_.1; clear _t; subst x_)
      | (have _t : Dev := x_.2; clear _t; subst x_)
      | (have _t : Dev := x_; clear _t; subst x_)
      | clear_value x_)
    | (with_reducible refine Within.onFpa ?_ _ (by decide +kernel))
    | (with_reducible refine Within.ite ?_ ?_)
    | (intro _ _ _)
    | split
    | dsimp only

theorem Dev.placeFirst_w (d : Dev) {M P : Nat} {dz : Dev} (hd : Within M P dz d) (hm : inMask 0 M = true) (hp : inMask 0x100 P = true) : Within M P dz (Dev.placeFirst d) :=
  hd.andThen (Dev.placeFirst_w0 d) hm hp

theorem commitSet_w0 (a : AcqSet) (tc : Nat) (k : Option Nat) (g : Option Nat) (d : Dev) (e : Dev) (x_ : Nat) (h : commitSet a tc k g d = (e, x_)) : Within 0x200000014001000000000000000000000000000000000000000000000000000000000000000000018A005000 0x1170 d e := by
  unfold commitSet at h
  try dsimp only at h
  repeat' split at h
  all_goals (first | cases h | (injection h with h h'; subst h) | (injection h with h; subst h) | skip)
  all_goals try dsimp only
  all_goals (
    repeat' first
      | (with_reducible exact Within.refl _)
      | (with_reducible assumption)
      | ((try lift_lets); intro x_; first
        | (refine (fun (hx_ : Within 0x200000014001000000000000000000000000000000000000000000000000000000000000000000018A005000 0x1170 d x_) => ?rest) ?val; (case' rest => clear_value x_); (case' val => subst x_))
        | (have _t := fun y_ => x_ y_; clear _t; subst x_)
        | (have _t : Dev := x_.1; clear _t; subst x_)
        | (have _t : Dev := x_.2; clear _t; subst x_)
        | (have _t : Dev := x_; clear _t; subst x_)
        | clear_value x_)
      | (with_reducible refine Dev.tallyInc_w _ _ ?_ (by decide +kernel) (by decide +kernel))
      | (with_reducible refine Dev.tallySet_w _ _ _ ?_ (by decide +kernel) (by decide +kernel))
      | (with_reducible refine Dev.undrain_w _ _ ?_ (by decide +kernel) (by decide +kernel))
      | (with_reducible refine Dev.showPend_w _ ?_ (by decide +kernel) (by decide +kernel))
      | (with_reducible refine Dev.putCommit_w _ _ ?_ (by decide +kernel) (by decide +kernel))
      | (with_reducible refine Dev.supersede_w _ ?_ (by decide +kernel) (by decide +kernel))
      | (with_reducible refine Dev.placeFirst_w _ ?_ (by decide +kernel) (by decide +kernel))
      | (with_reducible refine Within.putAt ?_ _ _ _ (by decide +kernel))
      | (with_reducible refine Within.put ?_ _ _ (by decide +kernel))
      | (with_reducible refine Within.flagAt ?_ _ _ (by decide +kernel))
      | (with_reducible refine Within.flag ?_ _ (by decide +kernel))
      | (with_reducible refine Within.ite ?_ ?_)
      | (intro _ _ _)
      | split
      | dsimp only)

theorem commitSet_w (a : AcqSet) (tc : Nat) (k : Option Nat) (g : Option Nat) (d : Dev) (e : Dev) (x_ : Nat) (h : commitSet a tc k g d = (e, x_)) {M P : Nat} {dz : Dev} (hd : Within M P dz d) (hm : inMask 0x200000014001000000000000000000000000000000000000000000000000000000000000000000018A005000 M = true) (hp : inMask 0x1170 P = true) : Within M P dz e :=
  hd.andThen (commitSet_w0 a tc k g d _ _ h) hm hp

theorem commitSet_w1 (a : AcqSet) (tc : Nat) (k : Option Nat) (g : Option Nat) (d : Dev) {M P : Nat} {dz : Dev} (hd : Within M P dz d) (hm : inMask 0x200000014001000000000000000000000000000000000000000000000000000000000000000000018A005000 M = true) (hp : inMask 0x1170 P = true) : Within M P dz (commitSet a tc k g d).1 :=
  commitSet_w a tc k g d _ _ rfl hd hm hp

theorem cancelCommit_w0 (d : Dev) : Within 0x14001000000000000000000000000000000000000000000000000000000000000000000018A000000 0x130 d (cancelCommit d) := by
  unfold cancelCommit
  repeat' first
    | (with_reducible exact Within.refl _)
    | (with_reducible assumption)
    | ((try lift_lets); intro x_; first
      | (refine (fun (hx_ : Within 0x14001000000000000000000000000000000000000000000000000000000000000000000018A000000 0x130 d x_) => ?rest) ?val; (case' rest => clear_value x_); (case' val => subst x_))
      | (have _t := fun y_ => x_ y_; clear _t; subst x_)
      | (have _t : Dev := x_.1; clear _t; subst x_)
      | (have _t : Dev := x_.2; clear _t; subst x_)
      | (have _t : Dev := x_; clear _t; subst x_)
      | clear_value x_)
    | (with_reducible refine Dev.completeK_w _ _ _ _ _ ?_ (by decide +kernel) (by decide +kernel))
    | (with_reducible refine Dev.showPend_w _ ?_ (by decide +kernel) (by decide +kernel))
    | (with_reducible refine Dev.putCommit_w _ _ ?_ (by decide +kernel) (by decide +kernel))
    | (with_reducible refine Dev.placeFirst_w _ ?_ (by decide +kernel) (by decide +kernel))
    | (with_reducible refine Within.flagAt ?_ _ _ (by decide +kernel))
    | (with_reducible refine Within.flag ?_ _ (by decide +kernel))
    | (with_reducible refine Within.onFpa ?_ _ (by decide +kernel))
    | (with_reducible refine Within.ite ?_ ?_)
    | (intro _ _ _)
    | split
    | dsimp only

theorem cancelCommit_w (d : Dev) {M P : Nat} {dz : Dev} (hd : Within M P dz d) (hm : inMask 0x14001000000000000000000000000000000000000000000000000000000000000000000018A000000 M = true) (hp : inMask 0x130 P = true) : Within M P dz (cancelCommit d) :=
  hd.andThen (cancelCommit_w0 d) hm hp

theorem regCommit_w0 (d : Dev) : Within 0x200000014001000000000000000000000000000000000000000000000000000000000000000000018A005000 0x1170 d (regCommit d) := by
  unfold regCommit
  repeat' first
    | (with_reducible exact Within.refl _)
    | (with_reducible assumption)
    | (with_reducible refine commitSet_w1 _ _ _ _ _ ?_ (by decide +kernel) (by decide +kernel))
    | (with_reducible refine commitSet_w _ _ _ _ _ _ _ (by assumption) ?_ (by decide +kernel) (by decide +kernel))
    | (with_reducible refine Within.ite ?_ ?_)
    | (intro _ _ _)
    | split
    | dsimp only

theorem regCommit_w (d : Dev) {M P : Nat} {dz : Dev} (hd : Within M P dz d) (hm : inMask 0x200000014001000000000000000000000000000000000000000000000000000000000000000000018A005000 M = true) (hp : inMask 0x1170 P = true) : Within M P dz (regCommit d) :=
  hd.andThen (regCommit_w0 d) hm hp

theorem acqCtlWrite_w0 (commit : Bool) (cancel : Bool) (d : Dev) : Within 0x200000014001000000000000000000000000000000000000000000000000000000000000000000018A005000 0x1170 d (acqCtlWrite commit cancel d) := by
  unfold acqCtlWrite
  repeat' first
    | (with_reducible exact Within.refl _)
    | (with_reducible assumption)
    | ((try lift_lets); intro x_; first
      | (refine (fun (hx_ : Within 0x200000014001000000000000000000000000000000000000000000000000000000000000000000018A005000 0x1170 d x_) => ?rest) ?val; (case' rest => clear_value x_); (case' val => subst x_))
      | (have _t := fun y_ => x_ y_; clear _t; subst x_)
      | (have _t : Dev := x_.1; clear _t; subst x_)
      | (have _t : Dev := x_.2; clear _t; subst x_)
      | (have _t : Dev := x_; clear _t; subst x_)
      | clear_value x_)
    | (with_reducible refine cancelCommit_w _ ?_ (by decide +kernel) (by decide +kernel))
    | (with_reducible refine regCommit_w _ ?_ (by decide +kernel) (by decide +kernel))
    | (with_reducible refine Within.ite ?_ ?_)
    | (intro _ _ _)
    | split
    | dsimp only

theorem acqCtlWrite_w (commit : Bool) (cancel : Bool) (d : Dev) {M P : Nat} {dz : Dev} (hd : Within M P dz d) (hm : inMask 0x200000014001000000000000000000000000000000000000000000000000000000000000000000018A005000 M = true) (hp : inMask 0x1170 P = true) : Within M P dz (acqCtlWrite commit cancel d) :=
  hd.andThen (acqCtlWrite_w0 commit cancel d) hm hp

theorem stageSet_w (n : Nat) (hn : n < 4) (bs : List Byte) (d : Dev) {M P : Nat} {dz : Dev} (hd : Within M P dz d) (hm : inMask 0x1FE00000000000 M = true) (hp : inMask 0 P = true) :
    Within M P dz (stageSet n bs d) := by
  refine hd.andThen (m := 0x1FE00000000000) (p := 0) ?_ hm hp
  unfold stageSet
  refine Within.foldlMem (Within.refl _) _ _ (fun u x hx hu => Within.writeWord hu _ _ ?_)
  have key : ∀ n < 4, ∀ i < 8, hasRow 0x1FE00000000000 (R.ACQ_TINT + 0x20 * n + 4 * i) = true := by decide +kernel
  exact key n hn x (by simpa using hx)

theorem doAcqStage_w (c : Cmd) (d : Dev) {M P : Nat} {dz : Dev} (hd : Within M P dz d) (hm : inMask 0x14001000000000000000000000000000000000000000000000000000000000000001FE00000000000 M = true) (hp : inMask 0x30 P = true) : Within M P dz (doAcqStage c d) := by
  refine hd.andThen (m := 0x14001000000000000000000000000000000000000000000000000000000000000001FE00000000000) (p := 0x30) ?_ hm hp
  unfold doAcqStage
  split
  · exact Dev.complete_w _ _ _ _ _ (Within.refl _) (by decide +kernel) (by decide +kernel)
  · exact Dev.ok_w _ _ _ (stageSet_w _ (by omega) _ _ (Within.refl _) (by decide +kernel) (by decide +kernel)) (by decide +kernel) (by decide +kernel)

theorem doAcqCommit_w0 (tc : Nat) (g : Option Nat) (c : Cmd) (d : Dev) : Within 0x200000014001000000000000000000000000000000000000000000000000000000000000000000018A005000 0x1170 d (doAcqCommit tc g c d) := by
  unfold doAcqCommit
  repeat' first
    | (with_reducible exact Within.refl _)
    | (with_reducible assumption)
    | (with_reducible refine Dev.complete_w _ _ _ _ _ ?_ (by decide +kernel) (by decide +kernel))
    | (with_reducible refine commitSet_w1 _ _ _ _ _ ?_ (by decide +kernel) (by decide +kernel))
    | (with_reducible refine commitSet_w _ _ _ _ _ _ _ (by assumption) ?_ (by decide +kernel) (by decide +kernel))
    | (with_reducible refine Within.ite ?_ ?_)
    | (intro _ _ _)
    | split
    | dsimp only

theorem doAcqCommit_w (tc : Nat) (g : Option Nat) (c : Cmd) (d : Dev) {M P : Nat} {dz : Dev} (hd : Within M P dz d) (hm : inMask 0x200000014001000000000000000000000000000000000000000000000000000000000000000000018A005000 M = true) (hp : inMask 0x1170 P = true) : Within M P dz (doAcqCommit tc g c d) :=
  hd.andThen (doAcqCommit_w0 tc g c d) hm hp

theorem Dev.placeStart_w0 (d : Dev) : Within 0 0x100 d (Dev.placeStart d) := by
  unfold Dev.placeStart
  repeat' first
    | (with_reducible exact Within.refl _)
    | (with_reducible assumption)
    | ((try lift_lets); intro x_; first
      | (refine (fun (hx_ : Within 0 0x100 d x_) => ?rest) ?val; (case' rest => clear_value x_); (case' val => subst x_))
      | (have _t := fun y_ => x_ y_; clear _t; subst x_)
      | (have _t : Dev := x_.1; clear _t; subst x_)
      | (have _t : Dev := x_.2; clear _t; subst x_)
      | (have _t : Dev := x_; clear _t; subst x_)
      | clear_value x_)
    | (with_reducible refine Within.onFpa ?_ _ (by decide +kernel))
    | (with_reducible refine Within.ite ?_ ?_)
    | (intro _ _ _)
    | split
    | dsimp only

theorem Dev.placeStart_w (d : Dev) {M P : Nat} {dz : Dev} (hd : Within M P dz d) (hm : inMask 0 M = true) (hp : inMask 0x100 P = true) : Within M P dz (Dev.placeStart d) :=
  hd.andThen (Dev.placeStart_w0 d) hm hp

theorem startReadout_w0 (d : Dev) (e : Dev) (x_ : Nat) (h : startReadout d = (e, x_)) : Within 0x18B000000 0x100 d e := by
  unfold startReadout at h
  try dsimp only at h
  repeat' split at h
  all_goals (first | cases h | (injection h with h h'; subst h) | (injection h with h; subst h) | skip)
  all_goals try dsimp only
  all_goals (
    repeat' first
      | (with_reducible exact Within.refl _)
      | (with_reducible assumption)
      | ((try lift_lets); intro x_; first
        | (refine (fun (hx_ : Within 0x18B000000 0x100 d x_) => ?rest) ?val; (case' rest => clear_value x_); (case' val => subst x_))
        | (have _t := fun y_ => x_ y_; clear _t; subst x_)
        | (have _t : Dev := x_.1; clear _t; subst x_)
        | (have _t : Dev := x_.2; clear _t; subst x_)
        | (have _t : Dev := x_; clear _t; subst x_)
        | clear_value x_)
      | (with_reducible refine Dev.showPend_w _ ?_ (by decide +kernel) (by decide +kernel))
      | (with_reducible refine Dev.placeStart_w _ ?_ (by decide +kernel) (by decide +kernel))
      | (with_reducible refine Within.putBitAt ?_ _ _ _ (by decide +kernel))
      | (with_reducible refine Within.putBit ?_ _ _ (by decide +kernel))
      | (with_reducible refine Within.putAt ?_ _ _ _ (by decide +kernel))
      | (with_reducible refine Within.put ?_ _ _ (by decide +kernel))
      | (with_reducible refine Within.flagAt ?_ _ _ (by decide +kernel))
      | (with_reducible refine Within.flag ?_ _ (by decide +kernel))
      | (with_reducible refine Within.onFpa ?_ _ (by decide +kernel))
      | (with_reducible refine Within.ite ?_ ?_)
      | (intro _ _ _)
      | split
      | dsimp only)

theorem startReadout_w (d : Dev) (e : Dev) (x_ : Nat) (h : startReadout d = (e, x_)) {M P : Nat} {dz : Dev} (hd : Within M P dz d) (hm : inMask 0x18B000000 M = true) (hp : inMask 0x100 P = true) : Within M P dz e :=
  hd.andThen (startReadout_w0 d _ _ h) hm hp

theorem startReadout_w1 (d : Dev) {M P : Nat} {dz : Dev} (hd : Within M P dz d) (hm : inMask 0x18B000000 M = true) (hp : inMask 0x100 P = true) : Within M P dz (startReadout d).1 :=
  startReadout_w d _ _ rfl hd hm hp

theorem stopReadout_w0 (d : Dev) : Within 0x10B000000 0x100 d (stopReadout d) := by
  unfold stopReadout
  repeat' first
    | (with_reducible exact Within.refl _)
    | (with_reducible assumption)
    | ((try lift_lets); intro x_; first
      | (refine (fun (hx_ : Within 0x10B000000 0x100 d x_) => ?rest) ?val; (case' rest => clear_value x_); (case' val => subst x_))
      | (have _t := fun y_ => x_ y_; clear _t; subst x_)
      | (have _t : Dev := x_.1; clear _t; subst x_)
      | (have _t : Dev := x_.2; clear _t; subst x_)
      | (have _t : Dev := x_; clear _t; subst x_)
      | clear_value x_)
    | (with_reducible refine Dev.showPend_w _ ?_ (by decide +kernel) (by decide +kernel))
    | (with_reducible refine Within.putBitAt ?_ _ _ _ (by decide +kernel))
    | (with_reducible refine Within.putBit ?_ _ _ (by decide +kernel))
    | (with_reducible refine Within.onFpa ?_ _ (by decide +kernel))
    | (with_reducible refine Within.ite ?_ ?_)
    | (intro _ _ _)
    | split
    | dsimp only

theorem stopReadout_w (d : Dev) {M P : Nat} {dz : Dev} (hd : Within M P dz d) (hm : inMask 0x10B000000 M = true) (hp : inMask 0x100 P = true) : Within M P dz (stopReadout d) :=
  hd.andThen (stopReadout_w0 d) hm hp

theorem trigEdge_w0 (encZ : Bool) (d : Dev) : Within 0x800000000000000000000000000000000000000000000000000000000000000000000000000000000000000000000800000000 0x100 d (trigEdge encZ d) := by
  unfold trigEdge
  repeat' first
    | (with_reducible exact Within.refl _)
    | (with_reducible assumption)
    | ((try lift_lets); intro x_; first
      | (refine (fun (hx_ : Within 0x800000000000000000000000000000000000000000000000000000000000000000000000000000000000000000000800000000 0x100 d x_) => ?rest) ?val; (case' rest => clear_value x_); (case' val => subst x_))
      | (have _t := fun y_ => x_ y_; clear _t; subst x_)
      | (have _t : Dev := x_.1; clear _t; subst x_)
      | (have _t : Dev := x_.2; clear _t; subst x_)
      | (have _t : Dev := x_; clear _t; subst x_)
      | clear_value x_)
    | (with_reducible refine Within.putBitAt ?_ _ _ _ (by decide +kernel))
    | (with_reducible refine Within.putBit ?_ _ _ (by decide +kernel))
    | (with_reducible refine Within.incAt ?_ _ _ (by decide +kernel))
    | (with_reducible refine Within.inc ?_ _ (by decide +kernel))
    | (with_reducible refine Within.onFpa ?_ _ (by decide +kernel))
    | (with_reducible refine Within.ite ?_ ?_)
    | (intro _ _ _)
    | split
    | dsimp only

theorem trigEdge_w (encZ : Bool) (d : Dev) {M P : Nat} {dz : Dev} (hd : Within M P dz d) (hm : inMask 0x800000000000000000000000000000000000000000000000000000000000000000000000000000000000000000000800000000 M = true) (hp : inMask 0x100 P = true) : Within M P dz (trigEdge encZ d) :=
  hd.andThen (trigEdge_w0 encZ d) hm hp

theorem Dev.putFrame_w0 (d : Dev) (f : Frame) : Within 0 0x100 d (Dev.putFrame d f) := by
  unfold Dev.putFrame
  repeat' first
    | (with_reducible exact Within.refl _)
    | (with_reducible assumption)
    | (with_reducible refine Within.onFpa ?_ _ (by decide +kernel))
    | (with_reducible refine Within.ite ?_ ?_)
    | (intro _ _ _)
    | split
    | dsimp only

theorem Dev.putFrame_w (d : Dev) (f : Frame) {M P : Nat} {dz : Dev} (hd : Within M P dz d) (hm : inMask 0 M = true) (hp : inMask 0x100 P = true) : Within M P dz (Dev.putFrame d f) :=
  hd.andThen (Dev.putFrame_w0 d f) hm hp

theorem dropFilters_w0 (f : Frame) (d : Dev) : Within 0 0x140 d (dropFilters f d) := by
  unfold dropFilters
  repeat' first
    | (with_reducible exact Within.refl _)
    | (with_reducible assumption)
    | ((try lift_lets); intro x_; first
      | (refine (fun (hx_ : Within 0 0x140 d x_) => ?rest) ?val; (case' rest => clear_value x_); (case' val => subst x_))
      | (have _t := fun y_ => x_ y_; clear _t; subst x_)
      | (have _t : Dev := x_.1; clear _t; subst x_)
      | (have _t : Dev := x_.2; clear _t; subst x_)
      | (have _t : Dev := x_; clear _t; subst x_)
      | clear_value x_)
    | (with_reducible refine Within.onStore ?_ _ (by decide +kernel))
    | (with_reducible refine Within.onFpa ?_ _ (by decide +kernel))
    | (with_reducible refine Within.ite ?_ ?_)
    | (intro _ _ _)
    | split
    | dsimp only

theorem dropFilters_w (f : Frame) (d : Dev) {M P : Nat} {dz : Dev} (hd : Within M P dz d) (hm : inMask 0 M = true) (hp : inMask 0x140 P = true) : Within M P dz (dropFilters f d) :=
  hd.andThen (dropFilters_w0 f d) hm hp

theorem slotLost_w0 (f : Frame) (slot : Nat) (d : Dev) : Within 0x80B80100000000000000000000000000000000000000000000000000000000000000000000000000001000000000 0x1D0 d (slotLost f slot d) := by
  unfold slotLost
  repeat' first
    | (with_reducible exact Within.refl _)
    | (with_reducible assumption)
    | ((try lift_lets); intro x_; first
      | (refine (fun (hx_ : Within 0x80B80100000000000000000000000000000000000000000000000000000000000000000000000000001000000000 0x1D0 d x_) => ?rest) ?val; (case' rest => clear_value x_); (case' val => subst x_))
      | (have _t := fun y_ => x_ y_; clear _t; subst x_)
      | (have _t : Dev := x_.1; clear _t; subst x_)
      | (have _t : Dev := x_.2; clear _t; subst x_)
      | (have _t : Dev := x_; clear _t; subst x_)
      | clear_value x_)
    | (with_reducible refine Dev.event_w _ _ _ ?_ (by decide +kernel) (by decide +kernel))
    | (with_reducible refine Dev.putFrame_w _ _ ?_ (by decide +kernel) (by decide +kernel))
    | (with_reducible refine dropFilters_w _ _ ?_ (by decide +kernel) (by decide +kernel))
    | (with_reducible refine Within.incAt ?_ _ _ (by decide +kernel))
    | (with_reducible refine Within.inc ?_ _ (by decide +kernel))
    | (with_reducible refine Within.ite ?_ ?_)
    | (intro _ _ _)
    | split
    | dsimp only

theorem slotLost_w (f : Frame) (slot : Nat) (d : Dev) {M P : Nat} {dz : Dev} (hd : Within M P dz d) (hm : inMask 0x80B80100000000000000000000000000000000000000000000000000000000000000000000000000001000000000 M = true) (hp : inMask 0x1D0 P = true) : Within M P dz (slotLost f slot d) :=
  hd.andThen (slotLost_w0 f slot d) hm hp

theorem slotNoise_w0 (m : Mems) (f : Frame) (slot : Nat) (rows : List (List Nat)) (d : Dev) : Within 0x400000000000000 0x140 d (slotNoise m f slot rows d) := by
  unfold slotNoise
  repeat' first
    | (with_reducible exact Within.refl _)
    | (with_reducible assumption)
    | ((try lift_lets); intro x_; first
      | (refine (fun (hx_ : Within 0x400000000000000 0x140 d x_) => ?rest) ?val; (case' rest => clear_value x_); (case' val => subst x_))
      | (have _t := fun y_ => x_ y_; clear _t; subst x_)
      | (have _t : Dev := x_.1; clear _t; subst x_)
      | (have _t : Dev := x_.2; clear _t; subst x_)
      | (have _t : Dev := x_; clear _t; subst x_)
      | clear_value x_)
    | (with_reducible refine Dev.putFrame_w _ _ ?_ (by decide +kernel) (by decide +kernel))
    | (with_reducible refine dropFilters_w _ _ ?_ (by decide +kernel) (by decide +kernel))
    | (with_reducible refine Within.putAt ?_ _ _ _ (by decide +kernel))
    | (with_reducible refine Within.put ?_ _ _ (by decide +kernel))
    | (with_reducible refine Within.onFpa ?_ _ (by decide +kernel))
    | (with_reducible refine Within.foldl ?_ _ _ ?_)
    | (with_reducible refine Within.ite ?_ ?_)
    | (intro _ _ _)
    | split
    | dsimp only

theorem slotNoise_w (m : Mems) (f : Frame) (slot : Nat) (rows : List (List Nat)) (d : Dev) {M P : Nat} {dz : Dev} (hd : Within M P dz d) (hm : inMask 0x400000000000000 M = true) (hp : inMask 0x140 P = true) : Within M P dz (slotNoise m f slot rows d) :=
  hd.andThen (slotNoise_w0 m f slot rows d) hm hp

theorem noiseShow_w0 (f : Frame) (d : Dev) : Within 0x300000000000000 0 d (noiseShow f d) := by
  unfold noiseShow
  repeat' first
    | (with_reducible exact Within.refl _)
    | (with_reducible assumption)
    | ((try lift_lets); intro x_; first
      | (refine (fun (hx_ : Within 0x300000000000000 0 d x_) => ?rest) ?val; (case' rest => clear_value x_); (case' val => subst x_))
      | (have _t := fun y_ => x_ y_; clear _t; subst x_)
      | (have _t : Dev := x_.1; clear _t; subst x_)
      | (have _t : Dev := x_.2; clear _t; subst x_)
      | (have _t : Dev := x_; clear _t; subst x_)
      | clear_value x_)
    | (with_reducible refine Within.putBitAt ?_ _ _ _ (by decide +kernel))
    | (with_reducible refine Within.putBit ?_ _ _ (by decide +kernel))
    | (with_reducible refine Within.putAt ?_ _ _ _ (by decide +kernel))
    | (with_reducible refine Within.put ?_ _ _ (by decide +kernel))
    | (with_reducible refine Within.ite ?_ ?_)
    | (intro _ _ _)
    | split
    | dsimp only

theorem noiseShow_w (f : Frame) (d : Dev) {M P : Nat} {dz : Dev} (hd : Within M P dz d) (hm : inMask 0x300000000000000 M = true) (hp : inMask 0 P = true) : Within M P dz (noiseShow f d) :=
  hd.andThen (noiseShow_w0 f d) hm hp

theorem slotArrival_w0 (m : Mems) (cnt : Nat) (slot : Nat) (ok : Bool) (rows : List (List Nat)) (d : Dev) : Within 0x80B80100000000000000000000000000000000000000000000000000000000000000000000000700001000000000 0x1D0 d (slotArrival m cnt slot ok rows d) := by
  unfold slotArrival
  repeat' first
    | (with_reducible exact Within.refl _)
    | (with_reducible assumption)
    | ((try lift_lets); intro x_; first
      | (refine (fun (hx_ : Within 0x80B80100000000000000000000000000000000000000000000000000000000000000000000000700001000000000 0x1D0 d x_) => ?rest) ?val; (case' rest => clear_value x_); (case' val => subst x_))
      | (have _t := fun y_ => x_ y_; clear _t; subst x_)
      | (have _t : Dev := x_.1; clear _t; subst x_)
      | (have _t : Dev := x_.2; clear _t; subst x_)
      | (have _t : Dev := x_; clear _t; subst x_)
      | clear_value x_)
    | (with_reducible refine slotLost_w _ _ _ ?_ (by decide +kernel) (by decide +kernel))
    | (with_reducible refine slotNoise_w _ _ _ _ _ ?_ (by decide +kernel) (by decide +kernel))
    | (with_reducible refine noiseShow_w _ _ ?_ (by decide +kernel) (by decide +kernel))
    | (with_reducible refine Within.ite ?_ ?_)
    | (intro _ _ _)
    | split
    | dsimp only

theorem slotArrival_w (m : Mems) (cnt : Nat) (slot : Nat) (ok : Bool) (rows : List (List Nat)) (d : Dev) {M P : Nat} {dz : Dev} (hd : Within M P dz d) (hm : inMask 0x80B80100000000000000000000000000000000000000000000000000000000000000000000000700001000000000 M = true) (hp : inMask 0x1D0 P = true) : Within M P dz (slotArrival m cnt slot ok rows d) :=
  hd.andThen (slotArrival_w0 m cnt slot ok rows d) hm hp

theorem Dev.loadErr_w0 (d : Dev) (a : Nat) : Within 0x80B80140000000000000000000000000000000000000000000000000000000000000000000020000000000000000 0xD0 d (Dev.loadErr d a) := by
  unfold Dev.loadErr
  repeat' first
    | (with_reducible exact Within.refl _)
    | (with_reducible assumption)
    | ((try lift_lets); intro x_; first
      | (refine (fun (hx_ : Within 0x80B80140000000000000000000000000000000000000000000000000000000000000000000020000000000000000 0xD0 d x_) => ?rest) ?val; (case' rest => clear_value x_); (case' val => subst x_))
      | (have _t := fun y_ => x_ y_; clear _t; subst x_)
      | (have _t : Dev := x_.1; clear _t; subst x_)
      | (have _t : Dev := x_.2; clear _t; subst x_)
      | (have _t : Dev := x_; clear _t; subst x_)
      | clear_value x_)
    | (with_reducible refine Dev.event_w _ _ _ ?_ (by decide +kernel) (by decide +kernel))
    | (with_reducible refine Within.incAt ?_ _ _ (by decide +kernel))
    | (with_reducible refine Within.inc ?_ _ (by decide +kernel))
    | (with_reducible refine Within.ite ?_ ?_)
    | (intro _ _ _)
    | split
    | dsimp only

theorem Dev.loadErr_w (d : Dev) (a : Nat) {M P : Nat} {dz : Dev} (hd : Within M P dz d) (hm : inMask 0x80B80140000000000000000000000000000000000000000000000000000000000000000000020000000000000000 M = true) (hp : inMask 0xD0 P = true) : Within M P dz (Dev.loadErr d a) :=
  hd.andThen (Dev.loadErr_w0 d a) hm hp

theorem showPlates_w0 (m : Mems) (d : Dev) : Within 0x100001E000000F000000000000000 0 d (showPlates m d) := by
  unfold showPlates
  repeat' first
    | (with_reducible exact Within.refl _)
    | (with_reducible assumption)
    | ((try lift_lets); intro x_; first
      | (refine (fun (hx_ : Within 0x100001E000000F000000000000000 0 d x_) => ?rest) ?val; (case' rest => clear_value x_); (case' val => subst x_))
      | (have _t := fun y_ => x_ y_; clear _t; subst x_)
      | (have _t : Dev := x_.1; clear _t; subst x_)
      | (have _t : Dev := x_.2; clear _t; subst x_)
      | (have _t : Dev := x_; clear _t; subst x_)
      | clear_value x_)
    | (with_reducible refine Within.putIAt ?_ _ _ _ (by decide +kernel))
    | (with_reducible refine Within.putI ?_ _ _ (by decide +kernel))
    | (with_reducible refine Within.putAt ?_ _ _ _ (by decide +kernel))
    | (with_reducible refine Within.put ?_ _ _ (by decide +kernel))
    | (with_reducible refine Within.ite ?_ ?_)
    | (intro _ _ _)
    | split
    | dsimp only

theorem showPlates_w (m : Mems) (d : Dev) {M P : Nat} {dz : Dev} (hd : Within M P dz d) (hm : inMask 0x100001E000000F000000000000000 M = true) (hp : inMask 0 P = true) : Within M P dz (showPlates m d) :=
  hd.andThen (showPlates_w0 m d) hm hp

theorem showTau_w0 (m : Mems) (d : Dev) : Within 0x900000000000000000000 0 d (showTau m d) := by
  unfold showTau
  repeat' first
    | (with_reducible exact Within.refl _)
    | (with_reducible assumption)
    | ((try lift_lets); intro x_; first
      | (refine (fun (hx_ : Within 0x900000000000000000000 0 d x_) => ?rest) ?val; (case' rest => clear_value x_); (case' val => subst x_))
      | (have _t := fun y_ => x_ y_; clear _t; subst x_)
      | (have _t : Dev := x_.1; clear _t; subst x_)
      | (have _t : Dev := x_.2; clear _t; subst x_)
      | (have _t : Dev := x_; clear _t; subst x_)
      | clear_value x_)
    | (with_reducible refine Within.putAt ?_ _ _ _ (by decide +kernel))
    | (with_reducible refine Within.put ?_ _ _ (by decide +kernel))
    | (with_reducible refine Within.ite ?_ ?_)
    | (intro _ _ _)
    | split
    | dsimp only

theorem showTau_w (m : Mems) (d : Dev) {M P : Nat} {dz : Dev} (hd : Within M P dz d) (hm : inMask 0x900000000000000000000 M = true) (hp : inMask 0 P = true) : Within M P dz (showTau m d) :=
  hd.andThen (showTau_w0 m d) hm hp

theorem startPersist_w0 (m : Mems) (range : Nat) (region : Nat) (d : Dev) : Within 0x20000000000000000000000000000000000000000000000000000000000000000000001000000000000800 0x1840 d (startPersist m range region d) := by
  unfold startPersist
  repeat' first
    | (with_reducible exact Within.refl _)
    | (with_reducible assumption)
    | ((try lift_lets); intro x_; first
      | (refine (fun (hx_ : Within 0x20000000000000000000000000000000000000000000000000000000000000000000001000000000000800 0x1840 d x_) => ?rest) ?val; (case' rest => clear_value x_); (case' val => subst x_))
      | (have _t := fun y_ => x_ y_; clear _t; subst x_)
      | (have _t : Dev := x_.1; clear _t; subst x_)
      | (have _t : Dev := x_.2; clear _t; subst x_)
      | (have _t : Dev := x_; clear _t; subst x_)
      | clear_value x_)
    | (with_reducible refine Dev.flashPush_w _ _ ?_ (by decide +kernel) (by decide +kernel))
    | (with_reducible refine Within.putBitAt ?_ _ _ _ (by decide +kernel))
    | (with_reducible refine Within.putBit ?_ _ _ (by decide +kernel))
    | (with_reducible refine Within.onStore ?_ _ (by decide +kernel))
    | (with_reducible refine Within.onPipe ?_ _ (by decide +kernel))
    | (with_reducible refine Within.ite ?_ ?_)
    | (intro _ _ _)
    | split
    | dsimp only

theorem startPersist_w (m : Mems) (range : Nat) (region : Nat) (d : Dev) {M P : Nat} {dz : Dev} (hd : Within M P dz d) (hm : inMask 0x20000000000000000000000000000000000000000000000000000000000000000000001000000000000800 M = true) (hp : inMask 0x1840 P = true) : Within M P dz (startPersist m range region d) :=
  hd.andThen (startPersist_w0 m range region d) hm hp

theorem Dev.releaseShadow_w0 (d : Dev) : Within 0x1000000000000000 0x800 d (Dev.releaseShadow d) := by
  unfold Dev.releaseShadow
  repeat' first
    | (with_reducible exact Within.refl _)
    | (with_reducible assumption)
    | ((try lift_lets); intro x_; first
      | (refine (fun (hx_ : Within 0x1000000000000000 0x800 d x_) => ?rest) ?val; (case' rest => clear_value x_); (case' val => subst x_))
      | (have _t := fun y_ => x_ y_; clear _t; subst x_)
      | (have _t : Dev := x_.1; clear _t; subst x_)
      | (have _t : Dev := x_.2; clear _t; subst x_)
      | (have _t : Dev := x_; clear _t; subst x_)
      | clear_value x_)
    | (with_reducible refine Within.putAt ?_ _ _ _ (by decide +kernel))
    | (with_reducible refine Within.put ?_ _ _ (by decide +kernel))
    | (with_reducible refine Within.onPipe ?_ _ (by decide +kernel))
    | (with_reducible refine Within.ite ?_ ?_)
    | (intro _ _ _)
    | split
    | dsimp only

theorem Dev.releaseShadow_w (d : Dev) {M P : Nat} {dz : Dev} (hd : Within M P dz d) (hm : inMask 0x1000000000000000 M = true) (hp : inMask 0x800 P = true) : Within M P dz (Dev.releaseShadow d) :=
  hd.andThen (Dev.releaseShadow_w0 d) hm hp

theorem Dev.putRef_w0 (d : Dev) (q : DriftRef) : Within 0x100000000000000000000000000000000000000000000000000000000000000000000000000000000000000 0x2040 d (Dev.putRef d q) := by
  unfold Dev.putRef
  repeat' first
    | (with_reducible exact Within.refl _)
    | (with_reducible assumption)
    | (with_reducible refine Dev.keepPush_w _ _ _ ?_ (by decide +kernel) (by decide +kernel))
    | (with_reducible refine Within.onBurin ?_ _ (by decide +kernel))
    | (with_reducible refine Within.ite ?_ ?_)
    | (intro _ _ _)
    | split
    | dsimp only

theorem Dev.putRef_w (d : Dev) (q : DriftRef) {M P : Nat} {dz : Dev} (hd : Within M P dz d) (hm : inMask 0x100000000000000000000000000000000000000000000000000000000000000000000000000000000000000 M = true) (hp : inMask 0x2040 P = true) : Within M P dz (Dev.putRef d q) :=
  hd.andThen (Dev.putRef_w0 d q) hm hp

theorem acceptShadow_w0 (range : Nat) (seq : Nat) (proof : Bool) (d : Dev) : Within 0x81000000000000000 0x800 d (acceptShadow range seq proof d) := by
  unfold acceptShadow
  repeat' first
    | (with_reducible exact Within.refl _)
    | (with_reducible assumption)
    | ((try lift_lets); intro x_; first
      | (refine (fun (hx_ : Within 0x81000000000000000 0x800 d x_) => ?rest) ?val; (case' rest => clear_value x_); (case' val => subst x_))
      | (have _t := fun y_ => x_ y_; clear _t; subst x_)
      | (have _t : Dev := x_.1; clear _t; subst x_)
      | (have _t : Dev := x_.2; clear _t; subst x_)
      | (have _t : Dev := x_; clear _t; subst x_)
      | clear_value x_)
    | (with_reducible refine Within.putBitAt ?_ _ _ _ (by decide +kernel))
    | (with_reducible refine Within.putBit ?_ _ _ (by decide +kernel))
    | (with_reducible refine Within.putAt ?_ _ _ _ (by decide +kernel))
    | (with_reducible refine Within.put ?_ _ _ (by decide +kernel))
    | (with_reducible refine Within.onPipe ?_ _ (by decide +kernel))
    | (with_reducible refine Within.ite ?_ ?_)
    | (intro _ _ _)
    | split
    | dsimp only

theorem acceptShadow_w (range : Nat) (seq : Nat) (proof : Bool) (d : Dev) {M P : Nat} {dz : Dev} (hd : Within M P dz d) (hm : inMask 0x81000000000000000 M = true) (hp : inMask 0x800 P = true) : Within M P dz (acceptShadow range seq proof d) :=
  hd.andThen (acceptShadow_w0 range seq proof d) hm hp

theorem swapRoles_w0 (m : Mems) (d : Dev) : Within 0x200000000000000000000000000000000000000000000000000000000100001E090001F000000000000800 0x1840 d (swapRoles m d) := by
  unfold swapRoles
  repeat' first
    | (with_reducible exact Within.refl _)
    | (with_reducible assumption)
    | ((try lift_lets); intro x_; first
      | (refine (fun (hx_ : Within 0x200000000000000000000000000000000000000000000000000000000100001E090001F000000000000800 0x1840 d x_) => ?rest) ?val; (case' rest => clear_value x_); (case' val => subst x_))
      | (have _t := fun y_ => x_ y_; clear _t; subst x_)
      | (have _t : Dev := x_.1; clear _t; subst x_)
      | (have _t : Dev := x_.2; clear _t; subst x_)
      | (have _t : Dev := x_; clear _t; subst x_)
      | clear_value x_)
    | (with_reducible refine showPlates_w _ _ ?_ (by decide +kernel) (by decide +kernel))
    | (with_reducible refine showTau_w _ _ ?_ (by decide +kernel) (by decide +kernel))
    | (with_reducible refine startPersist_w _ _ _ _ ?_ (by decide +kernel) (by decide +kernel))
    | (with_reducible refine Within.putBitAt ?_ _ _ _ (by decide +kernel))
    | (with_reducible refine Within.putBit ?_ _ _ (by decide +kernel))
    | (with_reducible refine Within.putAt ?_ _ _ _ (by decide +kernel))
    | (with_reducible refine Within.put ?_ _ _ (by decide +kernel))
    | (with_reducible refine Within.onPipe ?_ _ (by decide +kernel))
    | (with_reducible refine Within.ite ?_ ?_)
    | (intro _ _ _)
    | split
    | dsimp only

theorem swapRoles_w (m : Mems) (d : Dev) {M P : Nat} {dz : Dev} (hd : Within M P dz d) (hm : inMask 0x200000000000000000000000000000000000000000000000000000000100001E090001F000000000000800 M = true) (hp : inMask 0x1840 P = true) : Within M P dz (swapRoles m d) :=
  hd.andThen (swapRoles_w0 m d) hm hp

theorem rangeChange_w0 (m : Mems) (proofKeeps : Bool) (d : Dev) : Within 0x200000000000000000000000000000000000000000000000000000000100001E090000F000000000000800 0x1840 d (rangeChange m proofKeeps d) := by
  unfold rangeChange
  repeat' first
    | (with_reducible exact Within.refl _)
    | (with_reducible assumption)
    | ((try lift_lets); intro x_; first
      | (refine (fun (hx_ : Within 0x200000000000000000000000000000000000000000000000000000000100001E090000F000000000000800 0x1840 d x_) => ?rest) ?val; (case' rest => clear_value x_); (case' val => subst x_))
      | (have _t := fun y_ => x_ y_; clear _t; subst x_)
      | (have _t : Dev := x_.1; clear _t; subst x_)
      | (have _t : Dev := x_.2; clear _t; subst x_)
      | (have _t : Dev := x_; clear _t; subst x_)
      | clear_value x_)
    | (with_reducible refine showPlates_w _ _ ?_ (by decide +kernel) (by decide +kernel))
    | (with_reducible refine showTau_w _ _ ?_ (by decide +kernel) (by decide +kernel))
    | (with_reducible refine startPersist_w _ _ _ _ ?_ (by decide +kernel) (by decide +kernel))
    | (with_reducible refine Dev.releaseShadow_w _ ?_ (by decide +kernel) (by decide +kernel))
    | (with_reducible refine Within.putBitAt ?_ _ _ _ (by decide +kernel))
    | (with_reducible refine Within.putBit ?_ _ _ (by decide +kernel))
    | (with_reducible refine Within.putAt ?_ _ _ _ (by decide +kernel))
    | (with_reducible refine Within.put ?_ _ _ (by decide +kernel))
    | (with_reducible refine Within.onPipe ?_ _ (by decide +kernel))
    | (with_reducible refine Within.ite ?_ ?_)
    | (intro _ _ _)
    | split
    | dsimp only

theorem rangeChange_w (m : Mems) (proofKeeps : Bool) (d : Dev) {M P : Nat} {dz : Dev} (hd : Within M P dz d) (hm : inMask 0x200000000000000000000000000000000000000000000000000000000100001E090000F000000000000800 M = true) (hp : inMask 0x1840 P = true) : Within M P dz (rangeChange m proofKeeps d) :=
  hd.andThen (rangeChange_w0 m proofKeeps d) hm hp

theorem doStippleEdit_w0 (c : Cmd) (d : Dev) : Within 0x2000000140010000000000000000000000000000000000000000000000000000000000080000000000000000 0x870 d (doStippleEdit c d) := by
  unfold doStippleEdit
  repeat' first
    | (with_reducible exact Within.refl _)
    | (with_reducible assumption)
    | ((try lift_lets); intro x_; first
      | (refine (fun (hx_ : Within 0x2000000140010000000000000000000000000000000000000000000000000000000000080000000000000000 0x870 d x_) => ?rest) ?val; (case' rest => clear_value x_); (case' val => subst x_))
      | (have _t := fun y_ => x_ y_; clear _t; subst x_)
      | (have _t : Dev := x_.1; clear _t; subst x_)
      | (have _t : Dev := x_.2; clear _t; subst x_)
      | (have _t : Dev := x_; clear _t; subst x_)
      | clear_value x_)
    | (with_reducible refine Dev.tallyInc_w _ _ ?_ (by decide +kernel) (by decide +kernel))
    | (with_reducible refine Dev.complete_w _ _ _ _ _ ?_ (by decide +kernel) (by decide +kernel))
    | (with_reducible refine Within.putBitAt ?_ _ _ _ (by decide +kernel))
    | (with_reducible refine Within.putBit ?_ _ _ (by decide +kernel))
    | (with_reducible refine Within.onPipe ?_ _ (by decide +kernel))
    | (with_reducible refine Within.ite ?_ ?_)
    | (intro _ _ _)
    | split
    | dsimp only

theorem doStippleEdit_w (c : Cmd) (d : Dev) {M P : Nat} {dz : Dev} (hd : Within M P dz d) (hm : inMask 0x2000000140010000000000000000000000000000000000000000000000000000000000080000000000000000 M = true) (hp : inMask 0x870 P = true) : Within M P dz (doStippleEdit c d) :=
  hd.andThen (doStippleEdit_w0 c d) hm hp

theorem logClusters_w0 (fl : List (List Nat)) (d : Dev) : Within 0x80B80100000000000000000000000000000000000000000000000000000000000000000000000000000000000000 0x8D0 d (logClusters fl d) := by
  unfold logClusters
  repeat' first
    | (with_reducible exact Within.refl _)
    | (with_reducible assumption)
    | ((try lift_lets); intro x_; first
      | (refine (fun (hx_ : Within 0x80B80100000000000000000000000000000000000000000000000000000000000000000000000000000000000000 0x8D0 d x_) => ?rest) ?val; (case' rest => clear_value x_); (case' val => subst x_))
      | (have _t := fun y_ => x_ y_; clear _t; subst x_)
      | (have _t : Dev := x_.1; clear _t; subst x_)
      | (have _t : Dev := x_.2; clear _t; subst x_)
      | (have _t : Dev := x_; clear _t; subst x_)
      | clear_value x_)
    | (with_reducible refine Dev.event_w _ _ _ ?_ (by decide +kernel) (by decide +kernel))
    | (with_reducible refine Within.onPipe ?_ _ (by decide +kernel))
    | (with_reducible refine Within.foldl ?_ _ _ ?_)
    | (with_reducible refine Within.ite ?_ ?_)
    | (intro _ _ _)
    | split
    | dsimp only

theorem logClusters_w (fl : List (List Nat)) (d : Dev) {M P : Nat} {dz : Dev} (hd : Within M P dz d) (hm : inMask 0x80B80100000000000000000000000000000000000000000000000000000000000000000000000000000000000000 M = true) (hp : inMask 0x8D0 P = true) : Within M P dz (logClusters fl d) :=
  hd.andThen (logClusters_w0 fl d) hm hp

theorem clusterEval_w0 (m : Mems) (d : Dev) : Within 0x80B80100000000000000000000000000000000000000000000000000000000000000000000080000000000000000 0x8D0 d (clusterEval m d) := by
  unfold clusterEval
  repeat' first
    | (with_reducible exact Within.refl _)
    | (with_reducible assumption)
    | ((try lift_lets); intro x_; first
      | (refine (fun (hx_ : Within 0x80B80100000000000000000000000000000000000000000000000000000000000000000000080000000000000000 0x8D0 d x_) => ?rest) ?val; (case' rest => clear_value x_); (case' val => subst x_))
      | (have _t := fun y_ => x_ y_; clear _t; subst x_)
      | (have _t : Dev := x_.1; clear _t; subst x_)
      | (have _t : Dev := x_.2; clear _t; subst x_)
      | (have _t : Dev := x_; clear _t; subst x_)
      | clear_value x_)
    | (with_reducible refine logClusters_w _ _ ?_ (by decide +kernel) (by decide +kernel))
    | (with_reducible refine Within.putBitAt ?_ _ _ _ (by decide +kernel))
    | (with_reducible refine Within.putBit ?_ _ _ (by decide +kernel))
    | (with_reducible refine Within.onPipe ?_ _ (by decide +kernel))
    | (with_reducible refine Within.ite ?_ ?_)
    | (intro _ _ _)
    | split
    | dsimp only

theorem clusterEval_w (m : Mems) (d : Dev) {M P : Nat} {dz : Dev} (hd : Within M P dz d) (hm : inMask 0x80B80100000000000000000000000000000000000000000000000000000000000000000000080000000000000000 M = true) (hp : inMask 0x8D0 P = true) : Within M P dz (clusterEval m d) :=
  hd.andThen (clusterEval_w0 m d) hm hp

theorem useClusters_w0 (fl : List (List Nat)) (pix : List Nat) (d : Dev) : Within 0x580000000000000000 0x800 d (useClusters fl pix d) := by
  unfold useClusters
  repeat' first
    | (with_reducible exact Within.refl _)
    | (with_reducible assumption)
    | ((try lift_lets); intro x_; first
      | (refine (fun (hx_ : Within 0x580000000000000000 0x800 d x_) => ?rest) ?val; (case' rest => clear_value x_); (case' val => subst x_))
      | (have _t := fun y_ => x_ y_; clear _t; subst x_)
      | (have _t : Dev := x_.1; clear _t; subst x_)
      | (have _t : Dev := x_.2; clear _t; subst x_)
      | (have _t : Dev := x_; clear _t; subst x_)
      | clear_value x_)
    | (with_reducible refine Within.putAt ?_ _ _ _ (by decide +kernel))
    | (with_reducible refine Within.put ?_ _ _ (by decide +kernel))
    | (with_reducible refine Within.onPipe ?_ _ (by decide +kernel))
    | (with_reducible refine Within.ite ?_ ?_)
    | (intro _ _ _)
    | split
    | dsimp only

theorem useClusters_w (fl : List (List Nat)) (pix : List Nat) (d : Dev) {M P : Nat} {dz : Dev} (hd : Within M P dz d) (hm : inMask 0x580000000000000000 M = true) (hp : inMask 0x800 P = true) : Within M P dz (useClusters fl pix d) :=
  hd.andThen (useClusters_w0 fl pix d) hm hp

theorem clusterStep_w0 (m : Mems) (d : Dev) : Within 0x80B80100000000000000000000000000000000000000000000000000000000000000000000580000000000000000 0x8D0 d (clusterStep m d) := by
  unfold clusterStep
  repeat' first
    | (with_reducible exact Within.refl _)
    | (with_reducible assumption)
    | ((try lift_lets); intro x_; first
      | (refine (fun (hx_ : Within 0x80B80100000000000000000000000000000000000000000000000000000000000000000000580000000000000000 0x8D0 d x_) => ?rest) ?val; (case' rest => clear_value x_); (case' val => subst x_))
      | (have _t := fun y_ => x_ y_; clear _t; subst x_)
      | (have _t : Dev := x_.1; clear _t; subst x_)
      | (have _t : Dev := x_.2; clear _t; subst x_)
      | (have _t : Dev := x_; clear _t; subst x_)
      | clear_value x_)
    | (with_reducible refine logClusters_w _ _ ?_ (by decide +kernel) (by decide +kernel))
    | (with_reducible refine useClusters_w _ _ _ ?_ (by decide +kernel) (by decide +kernel))
    | (with_reducible refine Within.onPipe ?_ _ (by decide +kernel))
    | (with_reducible refine Within.ite ?_ ?_)
    | (unfold clusterStep.now)
    | (intro _ _ _)
    | split
    | dsimp only

theorem clusterStep_w (m : Mems) (d : Dev) {M P : Nat} {dz : Dev} (hd : Within M P dz d) (hm : inMask 0x80B80100000000000000000000000000000000000000000000000000000000000000000000580000000000000000 M = true) (hp : inMask 0x8D0 P = true) : Within M P dz (clusterStep m d) :=
  hd.andThen (clusterStep_w0 m d) hm hp

theorem doFrameCapture_w0 (c : Cmd) (d : Dev) : Within 0x140010000000000000000000000000000000000000000000000000000000001000000000000000000 0x830 d (doFrameCapture c d) := by
  unfold doFrameCapture
  repeat' first
    | (with_reducible exact Within.refl _)
    | (with_reducible assumption)
    | ((try lift_lets); intro x_; first
      | (refine (fun (hx_ : Within 0x140010000000000000000000000000000000000000000000000000000000001000000000000000000 0x830 d x_) => ?rest) ?val; (case' rest => clear_value x_); (case' val => subst x_))
      | (have _t := fun y_ => x_ y_; clear _t; subst x_)
      | (have _t : Dev := x_.1; clear _t; subst x_)
      | (have _t : Dev := x_.2; clear _t; subst x_)
      | (have _t : Dev := x_; clear _t; subst x_)
      | clear_value x_)
    | (with_reducible refine Dev.complete_w _ _ _ _ _ ?_ (by decide +kernel) (by decide +kernel))
    | (with_reducible refine Dev.ok_w _ _ _ ?_ (by decide +kernel) (by decide +kernel))
    | (with_reducible refine endCap_w _ _ _ ?_ (by decide +kernel) (by decide +kernel))
    | (with_reducible refine Within.onPipe ?_ _ (by decide +kernel))
    | (with_reducible refine Within.ite ?_ ?_)
    | (intro _ _ _)
    | split
    | dsimp only

theorem doFrameCapture_w (c : Cmd) (d : Dev) {M P : Nat} {dz : Dev} (hd : Within M P dz d) (hm : inMask 0x140010000000000000000000000000000000000000000000000000000000001000000000000000000 M = true) (hp : inMask 0x830 P = true) : Within M P dz (doFrameCapture c d) :=
  hd.andThen (doFrameCapture_w0 c d) hm hp

theorem doRingReset_w0 (c : Cmd) (d : Dev) : Within 0x14001B840100000000000000000000000010000000000000000000000000003000000000000000000 0x832 d (doRingReset c d) := by
  unfold doRingReset
  repeat' first
    | (with_reducible exact Within.refl _)
    | (with_reducible assumption)
    | ((try lift_lets); intro x_; first
      | (refine (fun (hx_ : Within 0x14001B840100000000000000000000000010000000000000000000000000003000000000000000000 0x832 d x_) => ?rest) ?val; (case' rest => clear_value x_); (case' val => subst x_))
      | (have _t := fun y_ => x_ y_; clear _t; subst x_)
      | (have _t : Dev := x_.1; clear _t; subst x_)
      | (have _t : Dev := x_.2; clear _t; subst x_)
      | (have _t : Dev := x_; clear _t; subst x_)
      | clear_value x_)
    | (with_reducible refine Dev.complete_w _ _ _ _ _ ?_ (by decide +kernel) (by decide +kernel))
    | (with_reducible refine Dev.ok_w _ _ _ ?_ (by decide +kernel) (by decide +kernel))
    | (with_reducible refine Dev.ringReset_w _ _ ?_ (by decide +kernel) (by decide +kernel))
    | (with_reducible refine Within.ite ?_ ?_)
    | (intro _ _ _)
    | split
    | dsimp only

theorem doRingReset_w (c : Cmd) (d : Dev) {M P : Nat} {dz : Dev} (hd : Within M P dz d) (hm : inMask 0x14001B840100000000000000000000000010000000000000000000000000003000000000000000000 M = true) (hp : inMask 0x832 P = true) : Within M P dz (doRingReset c d) :=
  hd.andThen (doRingReset_w0 c d) hm hp

theorem captureReplace_w0 (f : Frame) (d : Dev) : Within 0x140010000000000000000000000000000000000000000000000000000000001000000000000000000 0x830 d (captureReplace f d) := by
  unfold captureReplace
  repeat' first
    | (with_reducible exact Within.refl _)
    | (with_reducible assumption)
    | ((try lift_lets); intro x_; first
      | (refine (fun (hx_ : Within 0x140010000000000000000000000000000000000000000000000000000000001000000000000000000 0x830 d x_) => ?rest) ?val; (case' rest => clear_value x_); (case' val => subst x_))
      | (have _t := fun y_ => x_ y_; clear _t; subst x_)
      | (have _t : Dev := x_.1; clear _t; subst x_)
      | (have _t : Dev := x_.2; clear _t; subst x_)
      | (have _t : Dev := x_; clear _t; subst x_)
      | clear_value x_)
    | (with_reducible refine endCap_w _ _ _ ?_ (by decide +kernel) (by decide +kernel))
    | (with_reducible refine Within.onPipe ?_ _ (by decide +kernel))
    | (with_reducible refine Within.ite ?_ ?_)
    | (intro _ _ _)
    | split
    | dsimp only

theorem captureReplace_w (f : Frame) (d : Dev) {M P : Nat} {dz : Dev} (hd : Within M P dz d) (hm : inMask 0x140010000000000000000000000000000000000000000000000000000000001000000000000000000 M = true) (hp : inMask 0x830 P = true) : Within M P dz (captureReplace f d) :=
  hd.andThen (captureReplace_w0 f d) hm hp

theorem captureBoundary_w0 (f : Frame) (d : Dev) : Within 0x140010000000000000000000000000000000000000000000000000000000005000000000000000000 0x870 d (captureBoundary f d) := by
  unfold captureBoundary
  repeat' first
    | (with_reducible exact Within.refl _)
    | (with_reducible assumption)
    | ((try lift_lets); intro x_; first
      | (refine (fun (hx_ : Within 0x140010000000000000000000000000000000000000000000000000000000005000000000000000000 0x870 d x_) => ?rest) ?val; (case' rest => clear_value x_); (case' val => subst x_))
      | (have _t := fun y_ => x_ y_; clear _t; subst x_)
      | (have _t : Dev := x_.1; clear _t; subst x_)
      | (have _t : Dev := x_.2; clear _t; subst x_)
      | (have _t : Dev := x_; clear _t; subst x_)
      | clear_value x_)
    | (with_reducible refine Dev.ok_w _ _ _ ?_ (by decide +kernel) (by decide +kernel))
    | (with_reducible refine showCap_w _ ?_ (by decide +kernel) (by decide +kernel))
    | (with_reducible refine endCap_w _ _ _ ?_ (by decide +kernel) (by decide +kernel))
    | (with_reducible refine Dev.freshQdr_w _ _ _ ?_ (by decide +kernel) (by decide +kernel))
    | (with_reducible refine captureReplace_w _ _ ?_ (by decide +kernel) (by decide +kernel))
    | (with_reducible refine Within.incAt ?_ _ _ (by decide +kernel))
    | (with_reducible refine Within.inc ?_ _ (by decide +kernel))
    | (with_reducible refine Within.onPipe ?_ _ (by decide +kernel))
    | (with_reducible refine Within.ite ?_ ?_)
    | (intro _ _ _)
    | split
    | dsimp only

theorem captureBoundary_w (f : Frame) (d : Dev) {M P : Nat} {dz : Dev} (hd : Within M P dz d) (hm : inMask 0x140010000000000000000000000000000000000000000000000000000000005000000000000000000 M = true) (hp : inMask 0x870 P = true) : Within M P dz (captureBoundary f d) :=
  hd.andThen (captureBoundary_w0 f d) hm hp

theorem captureDone_w0 (b : Nat) (d : Dev) : Within 0x80B80100802000000000000000000000000000000000000000000000000000000000000001000000000000000000 0x8D0 d (captureDone b d) := by
  unfold captureDone
  repeat' first
    | (with_reducible exact Within.refl _)
    | (with_reducible assumption)
    | ((try lift_lets); intro x_; first
      | (refine (fun (hx_ : Within 0x80B80100802000000000000000000000000000000000000000000000000000000000000001000000000000000000 0x8D0 d x_) => ?rest) ?val; (case' rest => clear_value x_); (case' val => subst x_))
      | (have _t := fun y_ => x_ y_; clear _t; subst x_)
      | (have _t : Dev := x_.1; clear _t; subst x_)
      | (have _t : Dev := x_.2; clear _t; subst x_)
      | (have _t : Dev := x_; clear _t; subst x_)
      | clear_value x_)
    | (with_reducible refine showCap_w _ ?_ (by decide +kernel) (by decide +kernel))
    | (with_reducible refine Dev.badSeen_w _ _ ?_ (by decide +kernel) (by decide +kernel))
    | (with_reducible refine Within.onHost ?_ _ (by decide +kernel))
    | (with_reducible refine Within.onPipe ?_ _ (by decide +kernel))
    | (with_reducible refine Within.ite ?_ ?_)
    | (intro _ _ _)
    | split
    | dsimp only

theorem captureDone_w (b : Nat) (d : Dev) {M P : Nat} {dz : Dev} (hd : Within M P dz d) (hm : inMask 0x80B80100802000000000000000000000000000000000000000000000000000000000000001000000000000000000 M = true) (hp : inMask 0x8D0 P = true) : Within M P dz (captureDone b d) :=
  hd.andThen (captureDone_w0 b d) hm hp

theorem captureAbandoned_w0 (b : Nat) (d : Dev) : Within 0x140010000000000000000000000000000000000000000000000000000000009000000000000000000 0x830 d (captureAbandoned b d) := by
  unfold captureAbandoned
  repeat' first
    | (with_reducible exact Within.refl _)
    | (with_reducible assumption)
    | ((try lift_lets); intro x_; first
      | (refine (fun (hx_ : Within 0x140010000000000000000000000000000000000000000000000000000000009000000000000000000 0x830 d x_) => ?rest) ?val; (case' rest => clear_value x_); (case' val => subst x_))
      | (have _t := fun y_ => x_ y_; clear _t; subst x_)
      | (have _t : Dev := x_.1; clear _t; subst x_)
      | (have _t : Dev := x_.2; clear _t; subst x_)
      | (have _t : Dev := x_; clear _t; subst x_)
      | clear_value x_)
    | (with_reducible refine settleCaps_w _ ?_ (by decide +kernel) (by decide +kernel))
    | (with_reducible refine countDropped_w _ _ _ ?_ (by decide +kernel) (by decide +kernel))
    | (with_reducible refine Within.incAt ?_ _ _ (by decide +kernel))
    | (with_reducible refine Within.inc ?_ _ (by decide +kernel))
    | (with_reducible refine Within.onPipe ?_ _ (by decide +kernel))
    | (with_reducible refine Within.ite ?_ ?_)
    | (intro _ _ _)
    | split
    | dsimp only

theorem captureAbandoned_w (b : Nat) (d : Dev) {M P : Nat} {dz : Dev} (hd : Within M P dz d) (hm : inMask 0x140010000000000000000000000000000000000000000000000000000000009000000000000000000 M = true) (hp : inMask 0x830 P = true) : Within M P dz (captureAbandoned b d) :=
  hd.andThen (captureAbandoned_w0 b d) hm hp

theorem proofTakes_w0 (m : Mems) (f : Frame) (slot : Nat) (t2 : List (List Px)) (ws : List (List Int)) (d : Dev) : Within 0 0x20000 d (proofTakes m f slot t2 ws d) := by
  unfold proofTakes
  repeat' first
    | (with_reducible exact Within.refl _)
    | (with_reducible assumption)
    | ((try lift_lets); intro x_; first
      | (refine (fun (hx_ : Within 0 0x20000 d x_) => ?rest) ?val; (case' rest => clear_value x_); (case' val => subst x_))
      | (have _t := fun y_ => x_ y_; clear _t; subst x_)
      | (have _t : Dev := x_.1; clear _t; subst x_)
      | (have _t : Dev := x_.2; clear _t; subst x_)
      | (have _t : Dev := x_; clear _t; subst x_)
      | clear_value x_)
    | (with_reducible refine Within.onProof ?_ _ (by decide +kernel))
    | (with_reducible refine Within.foldl ?_ _ _ ?_)
    | (with_reducible refine Within.ite ?_ ?_)
    | (intro _ _ _)
    | split
    | dsimp only

theorem proofTakes_w (m : Mems) (f : Frame) (slot : Nat) (t2 : List (List Px)) (ws : List (List Int)) (d : Dev) {M P : Nat} {dz : Dev} (hd : Within M P dz d) (hm : inMask 0 M = true) (hp : inMask 0x20000 P = true) : Within M P dz (proofTakes m f slot t2 ws d) :=
  hd.andThen (proofTakes_w0 m f slot t2 ws d) hm hp

theorem slotAtTap4_w0 (m : Mems) (cnt : Nat) (slot : Nat) (path : List PathIn) (d : Dev) : Within 0x80B80100180000000000000000000000000000000000000000000000000000000000000000000000000000000000 0x221D0 d (slotAtTap4 m cnt slot path d) := by
  unfold slotAtTap4
  repeat' first
    | (with_reducible exact Within.refl _)
    | (with_reducible assumption)
    | ((try lift_lets); intro x_; first
      | (refine (fun (hx_ : Within 0x80B80100180000000000000000000000000000000000000000000000000000000000000000000000000000000000 0x221D0 d x_) => ?rest) ?val; (case' rest => clear_value x_); (case' val => subst x_))
      | (have _t := fun y_ => x_ y_; clear _t; subst x_)
      | (have _t : Dev := x_.1; clear _t; subst x_)
      | (have _t : Dev := x_.2; clear _t; subst x_)
      | (have _t : Dev := x_; clear _t; subst x_)
      | clear_value x_)
    | (with_reducible refine Dev.pathRead_w _ _ _ ?_ (by decide +kernel) (by decide +kernel))
    | (with_reducible refine Dev.putFrame_w _ _ ?_ (by decide +kernel) (by decide +kernel))
    | (with_reducible refine proofTakes_w _ _ _ _ _ _ ?_ (by decide +kernel) (by decide +kernel))
    | (with_reducible refine Within.onStore ?_ _ (by decide +kernel))
    | (with_reducible refine Within.onBurin ?_ _ (by decide +kernel))
    | (with_reducible refine Within.foldl ?_ _ _ ?_)
    | (with_reducible refine Within.ite ?_ ?_)
    | (intro _ _ _)
    | split
    | dsimp only

theorem slotAtTap4_w (m : Mems) (cnt : Nat) (slot : Nat) (path : List PathIn) (d : Dev) {M P : Nat} {dz : Dev} (hd : Within M P dz d) (hm : inMask 0x80B80100180000000000000000000000000000000000000000000000000000000000000000000000000000000000 M = true) (hp : inMask 0x221D0 P = true) : Within M P dz (slotAtTap4 m cnt slot path d) :=
  hd.andThen (slotAtTap4_w0 m cnt slot path d) hm hp

theorem Dev.putPort_w0 (d : Dev) (p : Nat) (x : PortX) : Within 0 0x100000 d (Dev.putPort d p x) := by
  unfold Dev.putPort
  repeat' first
    | (with_reducible exact Within.refl _)
    | (with_reducible assumption)
    | (with_reducible refine Within.onLink ?_ _ (by decide +kernel))
    | (with_reducible refine Within.ite ?_ ?_)
    | (intro _ _ _)
    | split
    | dsimp only

theorem Dev.putPort_w (d : Dev) (p : Nat) (x : PortX) {M P : Nat} {dz : Dev} (hd : Within M P dz d) (hm : inMask 0 M = true) (hp : inMask 0x100000 P = true) : Within M P dz (Dev.putPort d p x) :=
  hd.andThen (Dev.putPort_w0 d p x) hm hp

theorem Dev.enqOwn_w0 (d : Dev) (p : Nat) (f : Flit) : Within 0 0x100000 d (Dev.enqOwn d p f) := by
  unfold Dev.enqOwn
  repeat' first
    | (with_reducible exact Within.refl _)
    | (with_reducible assumption)
    | ((try lift_lets); intro x_; first
      | (refine (fun (hx_ : Within 0 0x100000 d x_) => ?rest) ?val; (case' rest => clear_value x_); (case' val => subst x_))
      | (have _t := fun y_ => x_ y_; clear _t; subst x_)
      | (have _t : Dev := x_.1; clear _t; subst x_)
      | (have _t : Dev := x_.2; clear _t; subst x_)
      | (have _t : Dev := x_; clear _t; subst x_)
      | clear_value x_)
    | (with_reducible refine Dev.putPort_w _ _ _ ?_ (by decide +kernel) (by decide +kernel))
    | (with_reducible refine Within.ite ?_ ?_)
    | (intro _ _ _)
    | split
    | dsimp only

theorem Dev.enqOwn_w (d : Dev) (p : Nat) (f : Flit) {M P : Nat} {dz : Dev} (hd : Within M P dz d) (hm : inMask 0 M = true) (hp : inMask 0x100000 P = true) : Within M P dz (Dev.enqOwn d p f) :=
  hd.andThen (Dev.enqOwn_w0 d p f) hm hp

theorem Dev.pushOwn_w0 (d : Dev) (p : Nat) (f : Flit) : Within 0 0x300000 d (Dev.pushOwn d p f) := by
  unfold Dev.pushOwn
  repeat' first
    | (with_reducible exact Within.refl _)
    | (with_reducible assumption)
    | (with_reducible refine Dev.enqOwn_w _ _ _ ?_ (by decide +kernel) (by decide +kernel))
    | (with_reducible refine Within.onStand ?_ _ (by decide +kernel))
    | (with_reducible refine Within.ite ?_ ?_)
    | (intro _ _ _)
    | split
    | dsimp only

theorem Dev.pushOwn_w (d : Dev) (p : Nat) (f : Flit) {M P : Nat} {dz : Dev} (hd : Within M P dz d) (hm : inMask 0 M = true) (hp : inMask 0x300000 P = true) : Within M P dz (Dev.pushOwn d p f) :=
  hd.andThen (Dev.pushOwn_w0 d p f) hm hp

theorem Dev.releaseHeld_w0 (d : Dev) : Within 0 0x300000 d (Dev.releaseHeld d) := by
  unfold Dev.releaseHeld
  repeat' first
    | (with_reducible exact Within.refl _)
    | (with_reducible assumption)
    | ((try lift_lets); intro x_; first
      | (refine (fun (hx_ : Within 0 0x300000 d x_) => ?rest) ?val; (case' rest => clear_value x_); (case' val => subst x_))
      | (have _t := fun y_ => x_ y_; clear _t; subst x_)
      | (have _t : Dev := x_.1; clear _t; subst x_)
      | (have _t : Dev := x_.2; clear _t; subst x_)
      | (have _t : Dev := x_; clear _t; subst x_)
      | clear_value x_)
    | (with_reducible refine Dev.enqOwn_w _ _ _ ?_ (by decide +kernel) (by decide +kernel))
    | (with_reducible refine Within.onStand ?_ _ (by decide +kernel))
    | (with_reducible refine Within.foldl ?_ _ _ ?_)
    | (with_reducible refine Within.ite ?_ ?_)
    | (intro _ _ _)
    | split
    | dsimp only

theorem Dev.releaseHeld_w (d : Dev) {M P : Nat} {dz : Dev} (hd : Within M P dz d) (hm : inMask 0 M = true) (hp : inMask 0x300000 P = true) : Within M P dz (Dev.releaseHeld d) :=
  hd.andThen (Dev.releaseHeld_w0 d) hm hp

theorem Dev.pushFwd_w0 (d : Dev) (p : Nat) (f : Flit) : Within 0x400000000000000000000000000000000000000000000000000000000 0x100000 d (Dev.pushFwd d p f) := by
  unfold Dev.pushFwd
  repeat' first
    | (with_reducible exact Within.refl _)
    | (with_reducible assumption)
    | ((try lift_lets); intro x_; first
      | (refine (fun (hx_ : Within 0x400000000000000000000000000000000000000000000000000000000 0x100000 d x_) => ?rest) ?val; (case' rest => clear_value x_); (case' val => subst x_))
      | (have _t := fun y_ => x_ y_; clear _t; subst x_)
      | (have _t : Dev := x_.1; clear _t; subst x_)
      | (have _t : Dev := x_.2; clear _t; subst x_)
      | (have _t : Dev := x_; clear _t; subst x_)
      | clear_value x_)
    | (with_reducible refine Dev.putPort_w _ _ _ ?_ (by decide +kernel) (by decide +kernel))
    | (with_reducible refine Within.incAt ?_ _ _ (by decide +kernel))
    | (with_reducible refine Within.inc ?_ _ (by decide +kernel))
    | (with_reducible refine Within.ite ?_ ?_)
    | (intro _ _ _)
    | split
    | dsimp only

theorem Dev.pushFwd_w (d : Dev) (p : Nat) (f : Flit) {M P : Nat} {dz : Dev} (hd : Within M P dz d) (hm : inMask 0x400000000000000000000000000000000000000000000000000000000 M = true) (hp : inMask 0x100000 P = true) : Within M P dz (Dev.pushFwd d p f) :=
  hd.andThen (Dev.pushFwd_w0 d p f) hm hp

theorem Dev.nextSeq_w0 (d : Dev) (type : Nat) (e : Dev) (x_ : Nat) (h : Dev.nextSeq d type = (x_, e)) : Within 0 0x100000 d e := by
  unfold Dev.nextSeq at h
  try dsimp only at h
  repeat' split at h
  all_goals (first | cases h | (injection h with h h'; subst h) | (injection h with h; subst h) | skip)
  all_goals try dsimp only
  all_goals (
    repeat' first
      | (with_reducible exact Within.refl _)
      | (with_reducible assumption)
      | ((try lift_lets); intro x_; first
        | (refine (fun (hx_ : Within 0 0x100000 d x_) => ?rest) ?val; (case' rest => clear_value x_); (case' val => subst x_))
        | (have _t := fun y_ => x_ y_; clear _t; subst x_)
        | (have _t : Dev := x_.1; clear _t; subst x_)
        | (have _t : Dev := x_.2; clear _t; subst x_)
        | (have _t : Dev := x_; clear _t; subst x_)
        | clear_value x_)
      | (with_reducible refine Within.onLink ?_ _ (by decide +kernel))
      | (with_reducible refine Within.ite ?_ ?_)
      | (intro _ _ _)
      | split
      | dsimp only)

theorem Dev.nextSeq_w (d : Dev) (type : Nat) (e : Dev) (x_ : Nat) (h : Dev.nextSeq d type = (x_, e)) {M P : Nat} {dz : Dev} (hd : Within M P dz d) (hm : inMask 0 M = true) (hp : inMask 0x100000 P = true) : Within M P dz e :=
  hd.andThen (Dev.nextSeq_w0 d type _ _ h) hm hp

theorem Dev.nextSeq_w2 (d : Dev) (type : Nat) {M P : Nat} {dz : Dev} (hd : Within M P dz d) (hm : inMask 0 M = true) (hp : inMask 0x100000 P = true) : Within M P dz (Dev.nextSeq d type).2 :=
  Dev.nextSeq_w d type _ _ rfl hd hm hp

theorem Dev.sendLocal_w0 (d : Dev) (p : Nat) (type : Nat) (seq : Nat) (payload : List Byte) : Within 0 0x300000 d (Dev.sendLocal d p type seq payload) := by
  unfold Dev.sendLocal
  repeat' first
    | (with_reducible exact Within.refl _)
    | (with_reducible assumption)
    | (with_reducible refine Dev.pushOwn_w _ _ _ ?_ (by decide +kernel) (by decide +kernel))
    | (with_reducible refine Within.ite ?_ ?_)
    | (intro _ _ _)
    | split
    | dsimp only

theorem Dev.sendLocal_w (d : Dev) (p : Nat) (type : Nat) (seq : Nat) (payload : List Byte) {M P : Nat} {dz : Dev} (hd : Within M P dz d) (hm : inMask 0 M = true) (hp : inMask 0x300000 P = true) : Within M P dz (Dev.sendLocal d p type seq payload) :=
  hd.andThen (Dev.sendLocal_w0 d p type seq payload) hm hp

theorem Dev.bcast_w0 (d : Dev) (type : Nat) (fl : Nat) (payload : List Byte) : Within 0 0x300000 d (Dev.bcast d type fl payload) := by
  unfold Dev.bcast
  repeat' first
    | (with_reducible exact Within.refl _)
    | (with_reducible assumption)
    | ((try lift_lets); intro x_; first
      | (refine (fun (hx_ : Within 0 0x300000 d x_) => ?rest) ?val; (case' rest => clear_value x_); (case' val => subst x_))
      | (have _t := fun y_ => x_ y_; clear _t; subst x_)
      | (have _t : Dev := x_.1; clear _t; subst x_)
      | (have _t : Dev := x_.2; clear _t; subst x_)
      | (have _t : Dev := x_; clear _t; subst x_)
      | clear_value x_)
    | (with_reducible refine Dev.pushOwn_w _ _ _ ?_ (by decide +kernel) (by decide +kernel))
    | (with_reducible refine Within.foldl ?_ _ _ ?_)
    | (with_reducible refine Dev.nextSeq_w2 _ _ ?_ (by decide +kernel) (by decide +kernel))
    | (with_reducible refine Dev.nextSeq_w _ _ _ _ (by assumption) ?_ (by decide +kernel) (by decide +kernel))
    | (with_reducible refine Within.ite ?_ ?_)
    | (intro _ _ _)
    | split
    | dsimp only

theorem Dev.bcast_w (d : Dev) (type : Nat) (fl : Nat) (payload : List Byte) {M P : Nat} {dz : Dev} (hd : Within M P dz d) (hm : inMask 0 M = true) (hp : inMask 0x300000 P = true) : Within M P dz (Dev.bcast d type fl payload) :=
  hd.andThen (Dev.bcast_w0 d type fl payload) hm hp

theorem Dev.toRoot_w0 (d : Dev) (type : Nat) (fl : Nat) (payload : List Byte) : Within 0 0x300000 d (Dev.toRoot d type fl payload) := by
  unfold Dev.toRoot
  repeat' first
    | (with_reducible exact Within.refl _)
    | (with_reducible assumption)
    | ((try lift_lets); intro x_; first
      | (refine (fun (hx_ : Within 0 0x300000 d x_) => ?rest) ?val; (case' rest => clear_value x_); (case' val => subst x_))
      | (have _t := fun y_ => x_ y_; clear _t; subst x_)
      | (have _t : Dev := x_.1; clear _t; subst x_)
      | (have _t : Dev := x_.2; clear _t; subst x_)
      | (have _t : Dev := x_; clear _t; subst x_)
      | clear_value x_)
    | (with_reducible refine Dev.pushOwn_w _ _ _ ?_ (by decide +kernel) (by decide +kernel))
    | (with_reducible refine Dev.nextSeq_w2 _ _ ?_ (by decide +kernel) (by decide +kernel))
    | (with_reducible refine Dev.nextSeq_w _ _ _ _ (by assumption) ?_ (by decide +kernel) (by decide +kernel))
    | (with_reducible refine Within.ite ?_ ?_)
    | (intro _ _ _)
    | split
    | dsimp only

theorem Dev.toRoot_w (d : Dev) (type : Nat) (fl : Nat) (payload : List Byte) {M P : Nat} {dz : Dev} (hd : Within M P dz d) (hm : inMask 0 M = true) (hp : inMask 0x300000 P = true) : Within M P dz (Dev.toRoot d type fl payload) :=
  hd.andThen (Dev.toRoot_w0 d type fl payload) hm hp

theorem Dev.bcastMsg_w0 (d : Dev) (type : Nat) (ps : List (List Byte)) : Within 0 0x300000 d (Dev.bcastMsg d type ps) := by
  unfold Dev.bcastMsg
  repeat' first
    | (with_reducible exact Within.refl _)
    | (with_reducible assumption)
    | (with_reducible refine Dev.bcast_w _ _ _ _ ?_ (by decide +kernel) (by decide +kernel))
    | (with_reducible refine Within.foldl ?_ _ _ ?_)
    | (with_reducible refine Within.ite ?_ ?_)
    | (intro _ _ _)
    | split
    | dsimp only

theorem Dev.bcastMsg_w (d : Dev) (type : Nat) (ps : List (List Byte)) {M P : Nat} {dz : Dev} (hd : Within M P dz d) (hm : inMask 0 M = true) (hp : inMask 0x300000 P = true) : Within M P dz (Dev.bcastMsg d type ps) :=
  hd.andThen (Dev.bcastMsg_w0 d type ps) hm hp

theorem Dev.toRootMsg_w0 (d : Dev) (type : Nat) (ps : List (List Byte)) : Within 0 0x300000 d (Dev.toRootMsg d type ps) := by
  unfold Dev.toRootMsg
  repeat' first
    | (with_reducible exact Within.refl _)
    | (with_reducible assumption)
    | (with_reducible refine Dev.toRoot_w _ _ _ _ ?_ (by decide +kernel) (by decide +kernel))
    | (with_reducible refine Within.foldl ?_ _ _ ?_)
    | (with_reducible refine Within.ite ?_ ?_)
    | (intro _ _ _)
    | split
    | dsimp only

theorem Dev.toRootMsg_w (d : Dev) (type : Nat) (ps : List (List Byte)) {M P : Nat} {dz : Dev} (hd : Within M P dz d) (hm : inMask 0 M = true) (hp : inMask 0x300000 P = true) : Within M P dz (Dev.toRootMsg d type ps) :=
  hd.andThen (Dev.toRootMsg_w0 d type ps) hm hp

theorem Dev.sendGroups_w0 (d : Dev) (p : Nat) : Within 0 0x100002 d (Dev.sendGroups d p) := by
  unfold Dev.sendGroups
  repeat' first
    | (with_reducible exact Within.refl _)
    | (with_reducible assumption)
    | ((try lift_lets); intro x_; first
      | (refine (fun (hx_ : Within 0 0x100002 d x_) => ?rest) ?val; (case' rest => clear_value x_); (case' val => subst x_))
      | (have _t := fun y_ => x_ y_; clear _t; subst x_)
      | (have _t : Dev := x_.1; clear _t; subst x_)
      | (have _t : Dev := x_.2; clear _t; subst x_)
      | (have _t : Dev := x_; clear _t; subst x_)
      | clear_value x_)
    | (with_reducible refine Dev.putPort_w _ _ _ ?_ (by decide +kernel) (by decide +kernel))
    | (with_reducible refine Within.emit ?_ _ (by decide +kernel))
    | (with_reducible refine Within.ite ?_ ?_)
    | (intro _ _ _)
    | split
    | dsimp only

theorem Dev.sendGroups_w (d : Dev) (p : Nat) {M P : Nat} {dz : Dev} (hd : Within M P dz d) (hm : inMask 0 M = true) (hp : inMask 0x100002 P = true) : Within M P dz (Dev.sendGroups d p) :=
  hd.andThen (Dev.sendGroups_w0 d p) hm hp

theorem Dev.nextFlit_w0 (d : Dev) (p : Nat) (e : Dev) (x_ : (Flit × Bool)) (h : Dev.nextFlit d p = (x_, e)) : Within 0 0x100000 d e := by
  unfold Dev.nextFlit at h
  try dsimp only at h
  repeat' split at h
  all_goals (first | cases h | (injection h with h h'; subst h) | (injection h with h; subst h) | skip)
  all_goals try dsimp only
  all_goals (
    repeat' first
      | (with_reducible exact Within.refl _)
      | (with_reducible assumption)
      | ((try lift_lets); intro x_; first
        | (refine (fun (hx_ : Within 0 0x100000 d x_) => ?rest) ?val; (case' rest => clear_value x_); (case' val => subst x_))
        | (have _t := fun y_ => x_ y_; clear _t; subst x_)
        | (have _t : Dev := x_.1; clear _t; subst x_)
        | (have _t : Dev := x_.2; clear _t; subst x_)
        | (have _t : Dev := x_; clear _t; subst x_)
        | clear_value x_)
      | (with_reducible refine Dev.putPort_w _ _ _ ?_ (by decide +kernel) (by decide +kernel))
      | (with_reducible refine Within.ite ?_ ?_)
      | (intro _ _ _)
      | split
      | dsimp only)

theorem Dev.nextFlit_w (d : Dev) (p : Nat) (e : Dev) (x_ : (Flit × Bool)) (h : Dev.nextFlit d p = (x_, e)) {M P : Nat} {dz : Dev} (hd : Within M P dz d) (hm : inMask 0 M = true) (hp : inMask 0x100000 P = true) : Within M P dz e :=
  hd.andThen (Dev.nextFlit_w0 d p _ _ h) hm hp

theorem Dev.nextFlit_w2 (d : Dev) (p : Nat) {M P : Nat} {dz : Dev} (hd : Within M P dz d) (hm : inMask 0 M = true) (hp : inMask 0x100000 P = true) : Within M P dz (Dev.nextFlit d p).2 :=
  Dev.nextFlit_w d p _ _ rfl hd hm hp

theorem Dev.flitOut_w0 (d : Dev) (p : Nat) (st : Nat) (q : Flit × Bool) (e : Dev) (x_ : List Byte) (h : Dev.flitOut d p st q = (x_, e)) : Within 0 0x100000 d e := by
  unfold Dev.flitOut at h
  try dsimp only at h
  repeat' split at h
  all_goals (first | cases h | (injection h with h h'; subst h) | (injection h with h; subst h) | skip)
  all_goals try dsimp only
  all_goals (
    repeat' first
      | (with_reducible exact Within.refl _)
      | (with_reducible assumption)
      | ((try lift_lets); intro x_; first
        | (refine (fun (hx_ : Within 0 0x100000 d x_) => ?rest) ?val; (case' rest => clear_value x_); (case' val => subst x_))
        | (have _t := fun y_ => x_ y_; clear _t; subst x_)
        | (have _t : Dev := x_.1; clear _t; subst x_)
        | (have _t : Dev := x_.2; clear _t; subst x_)
        | (have _t : Dev := x_; clear _t; subst x_)
        | clear_value x_)
      | (with_reducible refine Dev.putPort_w _ _ _ ?_ (by decide +kernel) (by decide +kernel))
      | (with_reducible refine Within.ite ?_ ?_)
      | (intro _ _ _)
      | split
      | dsimp only)

theorem Dev.flitOut_w (d : Dev) (p : Nat) (st : Nat) (q : Flit × Bool) (e : Dev) (x_ : List Byte) (h : Dev.flitOut d p st q = (x_, e)) {M P : Nat} {dz : Dev} (hd : Within M P dz d) (hm : inMask 0 M = true) (hp : inMask 0x100000 P = true) : Within M P dz e :=
  hd.andThen (Dev.flitOut_w0 d p st q _ _ h) hm hp

theorem Dev.flitOut_w2 (d : Dev) (p : Nat) (st : Nat) (q : Flit × Bool) {M P : Nat} {dz : Dev} (hd : Within M P dz d) (hm : inMask 0 M = true) (hp : inMask 0x100000 P = true) : Within M P dz (Dev.flitOut d p st q).2 :=
  Dev.flitOut_w d p st q _ _ rfl hd hm hp

theorem Dev.sendPair_w0 (d : Dev) (p : Nat) (st : Nat → Nat) : Within 0 0x100002 d (Dev.sendPair d p st) := by
  unfold Dev.sendPair
  repeat' first
    | (with_reducible exact Within.refl _)
    | (with_reducible assumption)
    | ((try lift_lets); intro x_; first
      | (refine (fun (hx_ : Within 0 0x100002 d x_) => ?rest) ?val; (case' rest => clear_value x_); (case' val => subst x_))
      | (have _t := fun y_ => x_ y_; clear _t; subst x_)
      | (have _t : Dev := x_.1; clear _t; subst x_)
      | (have _t : Dev := x_.2; clear _t; subst x_)
      | (have _t : Dev := x_; clear _t; subst x_)
      | clear_value x_)
    | (with_reducible refine Dev.putPort_w _ _ _ ?_ (by decide +kernel) (by decide +kernel))
    | (with_reducible refine Within.emit ?_ _ (by decide +kernel))
    | (with_reducible refine Dev.nextFlit_w2 _ _ ?_ (by decide +kernel) (by decide +kernel))
    | (with_reducible refine Dev.nextFlit_w _ _ _ _ (by assumption) ?_ (by decide +kernel) (by decide +kernel))
    | (with_reducible refine Dev.flitOut_w2 _ _ _ _ ?_ (by decide +kernel) (by decide +kernel))
    | (with_reducible refine Dev.flitOut_w _ _ _ _ _ _ (by assumption) ?_ (by decide +kernel) (by decide +kernel))
    | (with_reducible refine Within.ite ?_ ?_)
    | (intro _ _ _)
    | split
    | dsimp only

theorem Dev.sendPair_w (d : Dev) (p : Nat) (st : Nat → Nat) {M P : Nat} {dz : Dev} (hd : Within M P dz d) (hm : inMask 0 M = true) (hp : inMask 0x100002 P = true) : Within M P dz (Dev.sendPair d p st) :=
  hd.andThen (Dev.sendPair_w0 d p st) hm hp

theorem Dev.sendStream_wr (p : Nat) {d0 : Dev} : ∀ (n_ : Nat) (d : Dev), Within 0 0x100002 d0 d → Within 0 0x100002 d0 (Dev.sendStream p n_ d)
  | 0, d, hd => by
    unfold Dev.sendStream
    repeat' first
      | (with_reducible refine Dev.sendStream_wr _ _ _ ?_)
      | (with_reducible exact Within.refl _)
      | (with_reducible assumption)
      | ((try lift_lets); intro x_; first
        | (refine (fun (hx_ : Within 0 0x100002 d0 x_) => ?rest) ?val; (case' rest => clear_value x_); (case' val => subst x_))
        | (have _t := fun y_ => x_ y_; clear _t; subst x_)
        | (have _t : Dev := x_.1; clear _t; subst x_)
        | (have _t : Dev := x_.2; clear _t; subst x_)
        | (have _t : Dev := x_; clear _t; subst x_)
        | clear_value x_)
      | (with_reducible refine Dev.sendGroups_w _ _ ?_ (by decide +kernel) (by decide +kernel))
      | (with_reducible refine Dev.sendPair_w _ _ _ ?_ (by decide +kernel) (by decide +kernel))
      | (with_reducible refine Within.ite ?_ ?_)
      | (intro _ _ _)
      | split
      | dsimp only
  | n_ + 1, d, hd => by
    unfold Dev.sendStream
    repeat' first
      | (with_reducible refine Dev.sendStream_wr _ _ _ ?_)
      | (with_reducible exact Within.refl _)
      | (with_reducible assumption)
      | ((try lift_lets); intro x_; first
        | (refine (fun (hx_ : Within 0 0x100002 d0 x_) => ?rest) ?val; (case' rest => clear_value x_); (case' val => subst x_))
        | (have _t := fun y_ => x_ y_; clear _t; subst x_)
        | (have _t : Dev := x_.1; clear _t; subst x_)
        | (have _t : Dev := x_.2; clear _t; subst x_)
        | (have _t : Dev := x_; clear _t; subst x_)
        | clear_value x_)
      | (with_reducible refine Dev.sendGroups_w _ _ ?_ (by decide +kernel) (by decide +kernel))
      | (with_reducible refine Dev.sendPair_w _ _ _ ?_ (by decide +kernel) (by decide +kernel))
      | (with_reducible refine Within.ite ?_ ?_)
      | (intro _ _ _)
      | split
      | dsimp only

theorem Dev.sendStream_w (p : Nat) (n_ : Nat) (d : Dev) {M P : Nat} {dz : Dev} (hd : Within M P dz d) (hm : inMask 0 M = true) (hp : inMask 0x100002 P = true) : Within M P dz (Dev.sendStream p n_ d) :=
  hd.andThen (Dev.sendStream_wr p _ _ (Within.refl d)) hm hp

theorem Dev.sendTick_w0 (d : Dev) (p : Nat) : Within 0 0x100002 d (Dev.sendTick d p) := by
  unfold Dev.sendTick
  repeat' first
    | (with_reducible exact Within.refl _)
    | (with_reducible assumption)
    | ((try lift_lets); intro x_; first
      | (refine (fun (hx_ : Within 0 0x100002 d x_) => ?rest) ?val; (case' rest => clear_value x_); (case' val => subst x_))
      | (have _t := fun y_ => x_ y_; clear _t; subst x_)
      | (have _t : Dev := x_.1; clear _t; subst x_)
      | (have _t : Dev := x_.2; clear _t; subst x_)
      | (have _t : Dev := x_; clear _t; subst x_)
      | clear_value x_)
    | (with_reducible refine Dev.putPort_w _ _ _ ?_ (by decide +kernel) (by decide +kernel))
    | (with_reducible refine Dev.sendStream_w _ _ _ ?_ (by decide +kernel) (by decide +kernel))
    | (with_reducible refine Within.ite ?_ ?_)
    | (intro _ _ _)
    | split
    | dsimp only

theorem Dev.sendTick_w (d : Dev) (p : Nat) {M P : Nat} {dz : Dev} (hd : Within M P dz d) (hm : inMask 0 M = true) (hp : inMask 0x100002 P = true) : Within M P dz (Dev.sendTick d p) :=
  hd.andThen (Dev.sendTick_w0 d p) hm hp

theorem Dev.markShutter_w0 (d : Dev) : Within 0 0x4100 d (Dev.markShutter d) := by
  unfold Dev.markShutter
  repeat' first
    | (with_reducible exact Within.refl _)
    | (with_reducible assumption)
    | ((try lift_lets); intro x_; first
      | (refine (fun (hx_ : Within 0 0x4100 d x_) => ?rest) ?val; (case' rest => clear_value x_); (case' val => subst x_))
      | (have _t := fun y_ => x_ y_; clear _t; subst x_)
      | (have _t : Dev := x_.1; clear _t; subst x_)
      | (have _t : Dev := x_.2; clear _t; subst x_)
      | (have _t : Dev := x_; clear _t; subst x_)
      | clear_value x_)
    | (with_reducible refine Within.onFpa ?_ _ (by decide +kernel))
    | (with_reducible refine Within.onWeb ?_ _ (by decide +kernel))
    | (with_reducible refine Within.ite ?_ ?_)
    | (intro _ _ _)
    | split
    | dsimp only

theorem Dev.markShutter_w (d : Dev) {M P : Nat} {dz : Dev} (hd : Within M P dz d) (hm : inMask 0 M = true) (hp : inMask 0x4100 P = true) : Within M P dz (Dev.markShutter d) :=
  hd.andThen (Dev.markShutter_w0 d) hm hp

theorem Dev.startDrive_w0 (d : Dev) (close : Bool) (tries : Nat) : Within 0x800000000000000000000000000000 0x24100 d (Dev.startDrive d close tries) := by
  unfold Dev.startDrive
  repeat' first
    | (with_reducible exact Within.refl _)
    | (with_reducible assumption)
    | ((try lift_lets); intro x_; first
      | (refine (fun (hx_ : Within 0x800000000000000000000000000000 0x24100 d x_) => ?rest) ?val; (case' rest => clear_value x_); (case' val => subst x_))
      | (have _t := fun y_ => x_ y_; clear _t; subst x_)
      | (have _t : Dev := x_.1; clear _t; subst x_)
      | (have _t : Dev := x_.2; clear _t; subst x_)
      | (have _t : Dev := x_; clear _t; subst x_)
      | clear_value x_)
    | (with_reducible refine Dev.markShutter_w _ ?_ (by decide +kernel) (by decide +kernel))
    | (with_reducible refine Within.putAt ?_ _ _ _ (by decide +kernel))
    | (with_reducible refine Within.put ?_ _ _ (by decide +kernel))
    | (with_reducible refine Within.onProof ?_ _ (by decide +kernel))
    | (with_reducible refine Within.ite ?_ ?_)
    | (intro _ _ _)
    | split
    | dsimp only

theorem Dev.startDrive_w (d : Dev) (close : Bool) (tries : Nat) {M P : Nat} {dz : Dev} (hd : Within M P dz d) (hm : inMask 0x800000000000000000000000000000 M = true) (hp : inMask 0x24100 P = true) : Within M P dz (Dev.startDrive d close tries) :=
  hd.andThen (Dev.startDrive_w0 d close tries) hm hp

theorem Dev.endClosure_w0 (d : Dev) : Within 0 0x20000 d (Dev.endClosure d) := by
  unfold Dev.endClosure
  repeat' first
    | (with_reducible exact Within.refl _)
    | (with_reducible assumption)
    | (with_reducible refine Within.onProof ?_ _ (by decide +kernel))
    | (with_reducible refine Within.ite ?_ ?_)
    | (intro _ _ _)
    | split
    | dsimp only

theorem Dev.endClosure_w (d : Dev) {M P : Nat} {dz : Dev} (hd : Within M P dz d) (hm : inMask 0 M = true) (hp : inMask 0x20000 P = true) : Within M P dz (Dev.endClosure d) :=
  hd.andThen (Dev.endClosure_w0 d) hm hp

theorem Dev.dropDrive_w0 (d : Dev) : Within 0 0x20000 d (Dev.dropDrive d) := by
  unfold Dev.dropDrive
  repeat' first
    | (with_reducible exact Within.refl _)
    | (with_reducible assumption)
    | (with_reducible refine Within.onProof ?_ _ (by decide +kernel))
    | (with_reducible refine Within.ite ?_ ?_)
    | (intro _ _ _)
    | split
    | dsimp only

theorem Dev.dropDrive_w (d : Dev) {M P : Nat} {dz : Dev} (hd : Within M P dz d) (hm : inMask 0 M = true) (hp : inMask 0x20000 P = true) : Within M P dz (Dev.dropDrive d) :=
  hd.andThen (Dev.dropDrive_w0 d) hm hp

theorem Dev.showPos_w0 (d : Dev) : Within 0x800000000000000000000000000000 0x20000 d (Dev.showPos d) := by
  unfold Dev.showPos
  repeat' first
    | (with_reducible exact Within.refl _)
    | (with_reducible assumption)
    | ((try lift_lets); intro x_; first
      | (refine (fun (hx_ : Within 0x800000000000000000000000000000 0x20000 d x_) => ?rest) ?val; (case' rest => clear_value x_); (case' val => subst x_))
      | (have _t := fun y_ => x_ y_; clear _t; subst x_)
      | (have _t : Dev := x_.1; clear _t; subst x_)
      | (have _t : Dev := x_.2; clear _t; subst x_)
      | (have _t : Dev := x_; clear _t; subst x_)
      | clear_value x_)
    | (with_reducible refine Within.putBitAt ?_ _ _ _ (by decide +kernel))
    | (with_reducible refine Within.putBit ?_ _ _ (by decide +kernel))
    | (with_reducible refine Within.onProof ?_ _ (by decide +kernel))
    | (with_reducible refine Within.ite ?_ ?_)
    | (intro _ _ _)
    | split
    | dsimp only

theorem Dev.showPos_w (d : Dev) {M P : Nat} {dz : Dev} (hd : Within M P dz d) (hm : inMask 0x800000000000000000000000000000 M = true) (hp : inMask 0x20000 P = true) : Within M P dz (Dev.showPos d) :=
  hd.andThen (Dev.showPos_w0 d) hm hp

theorem Dev.request_w0 (d : Dev) (b : Nat) : Within 0x80000000000000000000000000000 0x20000 d (Dev.request d b) := by
  unfold Dev.request
  repeat' first
    | (with_reducible exact Within.refl _)
    | (with_reducible assumption)
    | (with_reducible refine Within.putAt ?_ _ _ _ (by decide +kernel))
    | (with_reducible refine Within.put ?_ _ _ (by decide +kernel))
    | (with_reducible refine Within.onProof ?_ _ (by decide +kernel))
    | (with_reducible refine Within.ite ?_ ?_)
    | (intro _ _ _)
    | split
    | dsimp only

theorem Dev.request_w (d : Dev) (b : Nat) {M P : Nat} {dz : Dev} (hd : Within M P dz d) (hm : inMask 0x80000000000000000000000000000 M = true) (hp : inMask 0x20000 P = true) : Within M P dz (Dev.request d b) :=
  hd.andThen (Dev.request_w0 d b) hm hp

theorem Dev.unrequest_w0 (d : Dev) (m : Nat) : Within 0x80000000000000000000000000000 0x20000 d (Dev.unrequest d m) := by
  unfold Dev.unrequest
  repeat' first
    | (with_reducible exact Within.refl _)
    | (with_reducible assumption)
    | (with_reducible refine Within.putAt ?_ _ _ _ (by decide +kernel))
    | (with_reducible refine Within.put ?_ _ _ (by decide +kernel))
    | (with_reducible refine Within.onProof ?_ _ (by decide +kernel))
    | (with_reducible refine Within.ite ?_ ?_)
    | (intro _ _ _)
    | split
    | dsimp only

theorem Dev.unrequest_w (d : Dev) (m : Nat) {M P : Nat} {dz : Dev} (hd : Within M P dz d) (hm : inMask 0x80000000000000000000000000000 M = true) (hp : inMask 0x20000 P = true) : Within M P dz (Dev.unrequest d m) :=
  hd.andThen (Dev.unrequest_w0 d m) hm hp

theorem Dev.showOverdue_w0 (d : Dev) : Within 0x40000000000000000000000000000 0 d (Dev.showOverdue d) := by
  unfold Dev.showOverdue
  repeat' first
    | (with_reducible exact Within.refl _)
    | (with_reducible assumption)
    | (with_reducible refine Within.putBitAt ?_ _ _ _ (by decide +kernel))
    | (with_reducible refine Within.putBit ?_ _ _ (by decide +kernel))
    | (with_reducible refine Within.ite ?_ ?_)
    | (intro _ _ _)
    | split
    | dsimp only

theorem Dev.showOverdue_w (d : Dev) {M P : Nat} {dz : Dev} (hd : Within M P dz d) (hm : inMask 0x40000000000000000000000000000 M = true) (hp : inMask 0 P = true) : Within M P dz (Dev.showOverdue d) :=
  hd.andThen (Dev.showOverdue_w0 d) hm hp

theorem Dev.trackProof_w0 (d : Dev) : Within 0x40000000000000000000000000000 0x20000 d (Dev.trackProof d) := by
  unfold Dev.trackProof
  repeat' first
    | (with_reducible exact Within.refl _)
    | (with_reducible assumption)
    | ((try lift_lets); intro x_; first
      | (refine (fun (hx_ : Within 0x40000000000000000000000000000 0x20000 d x_) => ?rest) ?val; (case' rest => clear_value x_); (case' val => subst x_))
      | (have _t := fun y_ => x_ y_; clear _t; subst x_)
      | (have _t : Dev := x_.1; clear _t; subst x_)
      | (have _t : Dev := x_.2; clear _t; subst x_)
      | (have _t : Dev := x_; clear _t; subst x_)
      | clear_value x_)
    | (with_reducible refine Within.putBitAt ?_ _ _ _ (by decide +kernel))
    | (with_reducible refine Within.putBit ?_ _ _ (by decide +kernel))
    | (with_reducible refine Within.onProof ?_ _ (by decide +kernel))
    | (with_reducible refine Within.ite ?_ ?_)
    | (intro _ _ _)
    | split
    | dsimp only

theorem Dev.trackProof_w (d : Dev) {M P : Nat} {dz : Dev} (hd : Within M P dz d) (hm : inMask 0x40000000000000000000000000000 M = true) (hp : inMask 0x20000 P = true) : Within M P dz (Dev.trackProof d) :=
  hd.andThen (Dev.trackProof_w0 d) hm hp

theorem Dev.proofAbort_w0 (d : Dev) (code : Nat) : Within 0x80B80100000000000000000000000000000000000000000000000000200000840000000000001000000000000000 0x249D0 d (Dev.proofAbort d code) := by
  unfold Dev.proofAbort
  repeat' first
    | (with_reducible exact Within.refl _)
    | (with_reducible assumption)
    | ((try lift_lets); intro x_; first
      | (refine (fun (hx_ : Within 0x80B80100000000000000000000000000000000000000000000000000200000840000000000001000000000000000 0x249D0 d x_) => ?rest) ?val; (case' rest => clear_value x_); (case' val => subst x_))
      | (have _t := fun y_ => x_ y_; clear _t; subst x_)
      | (have _t : Dev := x_.1; clear _t; subst x_)
      | (have _t : Dev := x_.2; clear _t; subst x_)
      | (have _t : Dev := x_; clear _t; subst x_)
      | clear_value x_)
    | (with_reducible refine Dev.event_w _ _ _ ?_ (by decide +kernel) (by decide +kernel))
    | (with_reducible refine Dev.releaseShadow_w _ ?_ (by decide +kernel) (by decide +kernel))
    | (with_reducible refine Dev.startDrive_w _ _ _ ?_ (by decide +kernel) (by decide +kernel))
    | (with_reducible refine Dev.showOverdue_w _ ?_ (by decide +kernel) (by decide +kernel))
    | (with_reducible refine Within.putAt ?_ _ _ _ (by decide +kernel))
    | (with_reducible refine Within.put ?_ _ _ (by decide +kernel))
    | (with_reducible refine Within.incAt ?_ _ _ (by decide +kernel))
    | (with_reducible refine Within.inc ?_ _ (by decide +kernel))
    | (with_reducible refine Within.onProof ?_ _ (by decide +kernel))
    | (with_reducible refine Within.ite ?_ ?_)
    | (intro _ _ _)
    | split
    | dsimp only

theorem Dev.proofAbort_w (d : Dev) (code : Nat) {M P : Nat} {dz : Dev} (hd : Within M P dz d) (hm : inMask 0x80B80100000000000000000000000000000000000000000000000000200000840000000000001000000000000000 M = true) (hp : inMask 0x249D0 P = true) : Within M P dz (Dev.proofAbort d code) :=
  hd.andThen (Dev.proofAbort_w0 d code) hm hp

theorem Dev.abortEarly_w0 (d : Dev) (code : Nat) : Within 0x80B80100000000000000000000000000000000000000000000000000200000840000000000001000000000000000 0x249D0 d (Dev.abortEarly d code) := by
  unfold Dev.abortEarly
  repeat' first
    | (with_reducible exact Within.refl _)
    | (with_reducible assumption)
    | (with_reducible refine Dev.proofAbort_w _ _ ?_ (by decide +kernel) (by decide +kernel))
    | (with_reducible refine Within.ite ?_ ?_)
    | (intro _ _ _)
    | split
    | dsimp only

theorem Dev.abortEarly_w (d : Dev) (code : Nat) {M P : Nat} {dz : Dev} (hd : Within M P dz d) (hm : inMask 0x80B80100000000000000000000000000000000000000000000000000200000840000000000001000000000000000 M = true) (hp : inMask 0x249D0 P = true) : Within M P dz (Dev.abortEarly d code) :=
  hd.andThen (Dev.abortEarly_w0 d code) hm hp

theorem Dev.returnToken_w0 (d : Dev) : Within 0 0x320000 d (Dev.returnToken d) := by
  unfold Dev.returnToken
  repeat' first
    | (with_reducible exact Within.refl _)
    | (with_reducible assumption)
    | ((try lift_lets); intro x_; first
      | (refine (fun (hx_ : Within 0 0x320000 d x_) => ?rest) ?val; (case' rest => clear_value x_); (case' val => subst x_))
      | (have _t := fun y_ => x_ y_; clear _t; subst x_)
      | (have _t : Dev := x_.1; clear _t; subst x_)
      | (have _t : Dev := x_.2; clear _t; subst x_)
      | (have _t : Dev := x_; clear _t; subst x_)
      | clear_value x_)
    | (with_reducible refine Dev.toRoot_w _ _ _ _ ?_ (by decide +kernel) (by decide +kernel))
    | (with_reducible refine Within.onProof ?_ _ (by decide +kernel))
    | (with_reducible refine Within.onStand ?_ _ (by decide +kernel))
    | (with_reducible refine Within.ite ?_ ?_)
    | (intro _ _ _)
    | split
    | dsimp only

theorem Dev.returnToken_w (d : Dev) {M P : Nat} {dz : Dev} (hd : Within M P dz d) (hm : inMask 0 M = true) (hp : inMask 0x320000 P = true) : Within M P dz (Dev.returnToken d) :=
  hd.andThen (Dev.returnToken_w0 d) hm hp

theorem Dev.openEnd_w0 (d : Dev) : Within 0 0x320000 d (Dev.openEnd d) := by
  unfold Dev.openEnd
  repeat' first
    | (with_reducible exact Within.refl _)
    | (with_reducible assumption)
    | (with_reducible refine Dev.endClosure_w _ ?_ (by decide +kernel) (by decide +kernel))
    | (with_reducible refine Dev.returnToken_w _ ?_ (by decide +kernel) (by decide +kernel))
    | (with_reducible refine Within.onProof ?_ _ (by decide +kernel))
    | (with_reducible refine Within.ite ?_ ?_)
    | (intro _ _ _)
    | split
    | dsimp only

theorem Dev.openEnd_w (d : Dev) {M P : Nat} {dz : Dev} (hd : Within M P dz d) (hm : inMask 0 M = true) (hp : inMask 0x320000 P = true) : Within M P dz (Dev.openEnd d) :=
  hd.andThen (Dev.openEnd_w0 d) hm hp

theorem Dev.openRetry_w0 (d : Dev) : Within 0x80B80100000000000000000000000000000000000000000000000000200000840000000000001000000000000000 0x3249D0 d (Dev.openRetry d) := by
  unfold Dev.openRetry
  repeat' first
    | (with_reducible exact Within.refl _)
    | (with_reducible assumption)
    | ((try lift_lets); intro x_; first
      | (refine (fun (hx_ : Within 0x80B80100000000000000000000000000000000000000000000000000200000840000000000001000000000000000 0x3249D0 d x_) => ?rest) ?val; (case' rest => clear_value x_); (case' val => subst x_))
      | (have _t := fun y_ => x_ y_; clear _t; subst x_)
      | (have _t : Dev := x_.1; clear _t; subst x_)
      | (have _t : Dev := x_.2; clear _t; subst x_)
      | (have _t : Dev := x_; clear _t; subst x_)
      | clear_value x_)
    | (with_reducible refine Dev.startDrive_w _ _ _ ?_ (by decide +kernel) (by decide +kernel))
    | (with_reducible refine Dev.proofAbort_w _ _ ?_ (by decide +kernel) (by decide +kernel))
    | (with_reducible refine Dev.openEnd_w _ ?_ (by decide +kernel) (by decide +kernel))
    | (with_reducible refine Within.onProof ?_ _ (by decide +kernel))
    | (with_reducible refine Within.ite ?_ ?_)
    | (intro _ _ _)
    | split
    | dsimp only

theorem Dev.openRetry_w (d : Dev) {M P : Nat} {dz : Dev} (hd : Within M P dz d) (hm : inMask 0x80B80100000000000000000000000000000000000000000000000000200000840000000000001000000000000000 M = true) (hp : inMask 0x3249D0 P = true) : Within M P dz (Dev.openRetry d) :=
  hd.andThen (Dev.openRetry_w0 d) hm hp

theorem Dev.shutterFault_w0 (d : Dev) : Within 0x80B80100000000000000000000000000000000000000000000000000A00000840000000000001000000000000000 0x3249D0 d (Dev.shutterFault d) := by
  unfold Dev.shutterFault
  repeat' first
    | (with_reducible exact Within.refl _)
    | (with_reducible assumption)
    | ((try lift_lets); intro x_; first
      | (refine (fun (hx_ : Within 0x80B80100000000000000000000000000000000000000000000000000A00000840000000000001000000000000000 0x3249D0 d x_) => ?rest) ?val; (case' rest => clear_value x_); (case' val => subst x_))
      | (have _t := fun y_ => x_ y_; clear _t; subst x_)
      | (have _t : Dev := x_.1; clear _t; subst x_)
      | (have _t : Dev := x_.2; clear _t; subst x_)
      | (have _t : Dev := x_; clear _t; subst x_)
      | clear_value x_)
    | (with_reducible refine Dev.event_w _ _ _ ?_ (by decide +kernel) (by decide +kernel))
    | (with_reducible refine Dev.startDrive_w _ _ _ ?_ (by decide +kernel) (by decide +kernel))
    | (with_reducible refine Dev.abortEarly_w _ _ ?_ (by decide +kernel) (by decide +kernel))
    | (with_reducible refine Dev.openRetry_w _ ?_ (by decide +kernel) (by decide +kernel))
    | (with_reducible refine Within.putAt ?_ _ _ _ (by decide +kernel))
    | (with_reducible refine Within.put ?_ _ _ (by decide +kernel))
    | (with_reducible refine Within.incAt ?_ _ _ (by decide +kernel))
    | (with_reducible refine Within.inc ?_ _ (by decide +kernel))
    | (with_reducible refine Within.onProof ?_ _ (by decide +kernel))
    | (with_reducible refine Within.ite ?_ ?_)
    | (intro _ _ _)
    | split
    | dsimp only

theorem Dev.shutterFault_w (d : Dev) {M P : Nat} {dz : Dev} (hd : Within M P dz d) (hm : inMask 0x80B80100000000000000000000000000000000000000000000000000A00000840000000000001000000000000000 M = true) (hp : inMask 0x3249D0 P = true) : Within M P dz (Dev.shutterFault d) :=
  hd.andThen (Dev.shutterFault_w0 d) hm hp

theorem closedSensed_w0 (d : Dev) : Within 0x1840000000000000000000000000000 0x20000 d (closedSensed d) := by
  unfold closedSensed
  repeat' first
    | (with_reducible exact Within.refl _)
    | (with_reducible assumption)
    | ((try lift_lets); intro x_; first
      | (refine (fun (hx_ : Within 0x1840000000000000000000000000000 0x20000 d x_) => ?rest) ?val; (case' rest => clear_value x_); (case' val => subst x_))
      | (have _t := fun y_ => x_ y_; clear _t; subst x_)
      | (have _t : Dev := x_.1; clear _t; subst x_)
      | (have _t : Dev := x_.2; clear _t; subst x_)
      | (have _t : Dev := x_; clear _t; subst x_)
      | clear_value x_)
    | (with_reducible refine Dev.dropDrive_w _ ?_ (by decide +kernel) (by decide +kernel))
    | (with_reducible refine Within.putAt ?_ _ _ _ (by decide +kernel))
    | (with_reducible refine Within.put ?_ _ _ (by decide +kernel))
    | (with_reducible refine Within.onProof ?_ _ (by decide +kernel))
    | (with_reducible refine Within.ite ?_ ?_)
    | (intro _ _ _)
    | split
    | dsimp only

theorem closedSensed_w (d : Dev) {M P : Nat} {dz : Dev} (hd : Within M P dz d) (hm : inMask 0x1840000000000000000000000000000 M = true) (hp : inMask 0x20000 P = true) : Within M P dz (closedSensed d) :=
  hd.andThen (closedSensed_w0 d) hm hp

theorem openSensed_w0 (d : Dev) : Within 0x1840000000000000000000000000000 0x320000 d (openSensed d) := by
  unfold openSensed
  repeat' first
    | (with_reducible exact Within.refl _)
    | (with_reducible assumption)
    | ((try lift_lets); intro x_; first
      | (refine (fun (hx_ : Within 0x1840000000000000000000000000000 0x320000 d x_) => ?rest) ?val; (case' rest => clear_value x_); (case' val => subst x_))
      | (have _t := fun y_ => x_ y_; clear _t; subst x_)
      | (have _t : Dev := x_.1; clear _t; subst x_)
      | (have _t : Dev := x_.2; clear _t; subst x_)
      | (have _t : Dev := x_; clear _t; subst x_)
      | clear_value x_)
    | (with_reducible refine Dev.endClosure_w _ ?_ (by decide +kernel) (by decide +kernel))
    | (with_reducible refine Dev.dropDrive_w _ ?_ (by decide +kernel) (by decide +kernel))
    | (with_reducible refine Dev.returnToken_w _ ?_ (by decide +kernel) (by decide +kernel))
    | (with_reducible refine Within.putAt ?_ _ _ _ (by decide +kernel))
    | (with_reducible refine Within.put ?_ _ _ (by decide +kernel))
    | (with_reducible refine Within.onProof ?_ _ (by decide +kernel))
    | (with_reducible refine Within.ite ?_ ?_)
    | (intro _ _ _)
    | split
    | dsimp only

theorem openSensed_w (d : Dev) {M P : Nat} {dz : Dev} (hd : Within M P dz d) (hm : inMask 0x1840000000000000000000000000000 M = true) (hp : inMask 0x320000 P = true) : Within M P dz (openSensed d) :=
  hd.andThen (openSensed_w0 d) hm hp

theorem shutFault_w0 (d : Dev) : Within 0x80B80100000000000000000000000000000000000000000000000000A00000840000000000001000000000000000 0x3249D0 d (shutFault d) := by
  unfold shutFault
  repeat' first
    | (with_reducible exact Within.refl _)
    | (with_reducible assumption)
    | ((try lift_lets); intro x_; first
      | (refine (fun (hx_ : Within 0x80B80100000000000000000000000000000000000000000000000000A00000840000000000001000000000000000 0x3249D0 d x_) => ?rest) ?val; (case' rest => clear_value x_); (case' val => subst x_))
      | (have _t := fun y_ => x_ y_; clear _t; subst x_)
      | (have _t : Dev := x_.1; clear _t; subst x_)
      | (have _t : Dev := x_.2; clear _t; subst x_)
      | (have _t : Dev := x_; clear _t; subst x_)
      | clear_value x_)
    | (with_reducible refine Dev.openRetry_w _ ?_ (by decide +kernel) (by decide +kernel))
    | (with_reducible refine Dev.shutterFault_w _ ?_ (by decide +kernel) (by decide +kernel))
    | (with_reducible refine Within.onProof ?_ _ (by decide +kernel))
    | (with_reducible refine Within.ite ?_ ?_)
    | (intro _ _ _)
    | split
    | dsimp only

theorem shutFault_w (d : Dev) {M P : Nat} {dz : Dev} (hd : Within M P dz d) (hm : inMask 0x80B80100000000000000000000000000000000000000000000000000A00000840000000000001000000000000000 M = true) (hp : inMask 0x3249D0 P = true) : Within M P dz (shutFault d) :=
  hd.andThen (shutFault_w0 d) hm hp

theorem pulseEnd_w0 (d : Dev) : Within 0 0x320000 d (pulseEnd d) := by
  unfold pulseEnd
  repeat' first
    | (with_reducible exact Within.refl _)
    | (with_reducible assumption)
    | (with_reducible refine Dev.dropDrive_w _ ?_ (by decide +kernel) (by decide +kernel))
    | (with_reducible refine Dev.openEnd_w _ ?_ (by decide +kernel) (by decide +kernel))
    | (with_reducible refine Within.onProof ?_ _ (by decide +kernel))
    | (with_reducible refine Within.ite ?_ ?_)
    | (intro _ _ _)
    | split
    | dsimp only

theorem pulseEnd_w (d : Dev) {M P : Nat} {dz : Dev} (hd : Within M P dz d) (hm : inMask 0 M = true) (hp : inMask 0x320000 P = true) : Within M P dz (pulseEnd d) :=
  hd.andThen (pulseEnd_w0 d) hm hp

theorem posChange_w0 (which : Bool) (level : Bool) (d : Dev) : Within 0x800000000000000000000000000000000000000000000000000000000000000000000000800000000000000000000000000000 0x20000 d (posChange which level d) := by
  unfold posChange
  repeat' first
    | (with_reducible exact Within.refl _)
    | (with_reducible assumption)
    | ((try lift_lets); intro x_; first
      | (refine (fun (hx_ : Within 0x800000000000000000000000000000000000000000000000000000000000000000000000800000000000000000000000000000 0x20000 d x_) => ?rest) ?val; (case' rest => clear_value x_); (case' val => subst x_))
      | (have _t := fun y_ => x_ y_; clear _t; subst x_)
      | (have _t : Dev := x_.1; clear _t; subst x_)
      | (have _t : Dev := x_.2; clear _t; subst x_)
      | (have _t : Dev := x_; clear _t; subst x_)
      | clear_value x_)
    | (with_reducible refine Dev.showPos_w _ ?_ (by decide +kernel) (by decide +kernel))
    | (with_reducible refine Within.putBitAt ?_ _ _ _ (by decide +kernel))
    | (with_reducible refine Within.putBit ?_ _ _ (by decide +kernel))
    | (with_reducible refine Within.onProof ?_ _ (by decide +kernel))
    | (with_reducible refine Within.ite ?_ ?_)
    | (intro _ _ _)
    | split
    | dsimp only

theorem posChange_w (which : Bool) (level : Bool) (d : Dev) {M P : Nat} {dz : Dev} (hd : Within M P dz d) (hm : inMask 0x800000000000000000000000000000000000000000000000000000000000000000000000800000000000000000000000000000 M = true) (hp : inMask 0x20000 P = true) : Within M P dz (posChange which level d) :=
  hd.andThen (posChange_w0 which level d) hm hp

theorem shutClear_w0 (d : Dev) : Within 0x800000000000000000000000000000 0 d (shutClear d) := by
  unfold shutClear
  repeat' first
    | (with_reducible exact Within.refl _)
    | (with_reducible assumption)
    | ((try lift_lets); intro x_; first
      | (refine (fun (hx_ : Within 0x800000000000000000000000000000 0 d x_) => ?rest) ?val; (case' rest => clear_value x_); (case' val => subst x_))
      | (have _t := fun y_ => x_ y_; clear _t; subst x_)
      | (have _t : Dev := x_.1; clear _t; subst x_)
      | (have _t : Dev := x_.2; clear _t; subst x_)
      | (have _t : Dev := x_; clear _t; subst x_)
      | clear_value x_)
    | (with_reducible refine Within.putAt ?_ _ _ _ (by decide +kernel))
    | (with_reducible refine Within.put ?_ _ _ (by decide +kernel))
    | (with_reducible refine Within.ite ?_ ?_)
    | (intro _ _ _)
    | split
    | dsimp only

theorem shutClear_w (d : Dev) {M P : Nat} {dz : Dev} (hd : Within M P dz d) (hm : inMask 0x800000000000000000000000000000 M = true) (hp : inMask 0 P = true) : Within M P dz (shutClear d) :=
  hd.andThen (shutClear_w0 d) hm hp

theorem testDrive_w0 (close : Bool) (d : Dev) : Within 0x800000000000000000000000000000 0x24100 d (testDrive close d) := by
  unfold testDrive
  repeat' first
    | (with_reducible exact Within.refl _)
    | (with_reducible assumption)
    | (with_reducible refine Dev.startDrive_w _ _ _ ?_ (by decide +kernel) (by decide +kernel))
    | (with_reducible refine Within.ite ?_ ?_)
    | (intro _ _ _)
    | split
    | dsimp only

theorem testDrive_w (close : Bool) (d : Dev) {M P : Nat} {dz : Dev} (hd : Within M P dz d) (hm : inMask 0x800000000000000000000000000000 M = true) (hp : inMask 0x24100 P = true) : Within M P dz (testDrive close d) :=
  hd.andThen (testDrive_w0 close d) hm hp

theorem schedWrite_w0 (v : Word) (d : Dev) : Within 0x140000000000000000000000000000 0 d (schedWrite v d) := by
  unfold schedWrite
  repeat' first
    | (with_reducible exact Within.refl _)
    | (with_reducible assumption)
    | ((try lift_lets); intro x_; first
      | (refine (fun (hx_ : Within 0x140000000000000000000000000000 0 d x_) => ?rest) ?val; (case' rest => clear_value x_); (case' val => subst x_))
      | (have _t := fun y_ => x_ y_; clear _t; subst x_)
      | (have _t : Dev := x_.1; clear _t; subst x_)
      | (have _t : Dev := x_.2; clear _t; subst x_)
      | (have _t : Dev := x_; clear _t; subst x_)
      | clear_value x_)
    | (with_reducible refine Dev.showOverdue_w _ ?_ (by decide +kernel) (by decide +kernel))
    | (with_reducible refine Within.writeWord ?_ _ _ (by decide +kernel))
    | (with_reducible refine Within.ite ?_ ?_)
    | (intro _ _ _)
    | split
    | dsimp only

theorem schedWrite_w (v : Word) (d : Dev) {M P : Nat} {dz : Dev} (hd : Within M P dz d) (hm : inMask 0x140000000000000000000000000000 M = true) (hp : inMask 0 P = true) : Within M P dz (schedWrite v d) :=
  hd.andThen (schedWrite_w0 v d) hm hp

theorem Dev.forgetReq_w0 (m : Nat) (d : Dev) : Within 0 0x20000 d (Dev.forgetReq m d) := by
  unfold Dev.forgetReq
  repeat' first
    | (with_reducible exact Within.refl _)
    | (with_reducible assumption)
    | (with_reducible refine Within.onProof ?_ _ (by decide +kernel))
    | (with_reducible refine Within.ite ?_ ?_)
    | (intro _ _ _)
    | split
    | dsimp only

theorem Dev.forgetReq_w (m : Nat) (d : Dev) {M P : Nat} {dz : Dev} (hd : Within M P dz d) (hm : inMask 0 M = true) (hp : inMask 0x20000 P = true) : Within M P dz (Dev.forgetReq m d) :=
  hd.andThen (Dev.forgetReq_w0 m d) hm hp

theorem doProofRequest_w0 (c : Cmd) (d : Dev) : Within 0x80B801000001400100000000000000000000000000000000000000002000008C0000000000001000000000000000 0x249F0 d (doProofRequest c d) := by
  unfold doProofRequest
  repeat' first
    | (with_reducible exact Within.refl _)
    | (with_reducible assumption)
    | ((try lift_lets); intro x_; first
      | (refine (fun (hx_ : Within 0x80B801000001400100000000000000000000000000000000000000002000008C0000000000001000000000000000 0x249F0 d x_) => ?rest) ?val; (case' rest => clear_value x_); (case' val => subst x_))
      | (have _t := fun y_ => x_ y_; clear _t; subst x_)
      | (have _t : Dev := x_.1; clear _t; subst x_)
      | (have _t : Dev := x_.2; clear _t; subst x_)
      | (have _t : Dev := x_; clear _t; subst x_)
      | clear_value x_)
    | (with_reducible refine Dev.complete_w _ _ _ _ _ ?_ (by decide +kernel) (by decide +kernel))
    | (with_reducible refine Dev.ok_w _ _ _ ?_ (by decide +kernel) (by decide +kernel))
    | (with_reducible refine Dev.request_w _ _ ?_ (by decide +kernel) (by decide +kernel))
    | (with_reducible refine Dev.unrequest_w _ _ ?_ (by decide +kernel) (by decide +kernel))
    | (with_reducible refine Dev.showOverdue_w _ ?_ (by decide +kernel) (by decide +kernel))
    | (with_reducible refine Dev.abortEarly_w _ _ ?_ (by decide +kernel) (by decide +kernel))
    | (with_reducible refine Dev.forgetReq_w _ _ ?_ (by decide +kernel) (by decide +kernel))
    | (with_reducible refine Within.ite ?_ ?_)
    | (intro _ _ _)
    | split
    | dsimp only

theorem doProofRequest_w (c : Cmd) (d : Dev) {M P : Nat} {dz : Dev} (hd : Within M P dz d) (hm : inMask 0x80B801000001400100000000000000000000000000000000000000002000008C0000000000001000000000000000 M = true) (hp : inMask 0x249F0 P = true) : Within M P dz (doProofRequest c d) :=
  hd.andThen (doProofRequest_w0 c d) hm hp

theorem Dev.stageSettled_w0 (d : Dev) : Within 0x80000000000000000000000000000 0x20200 d (Dev.stageSettled d) := by
  unfold Dev.stageSettled
  repeat' first
    | (with_reducible exact Within.refl _)
    | (with_reducible assumption)
    | ((try lift_lets); intro x_; first
      | (refine (fun (hx_ : Within 0x80000000000000000000000000000 0x20200 d x_) => ?rest) ?val; (case' rest => clear_value x_); (case' val => subst x_))
      | (have _t := fun y_ => x_ y_; clear _t; subst x_)
      | (have _t : Dev := x_.1; clear _t; subst x_)
      | (have _t : Dev := x_.2; clear _t; subst x_)
      | (have _t : Dev := x_; clear _t; subst x_)
      | clear_value x_)
    | (with_reducible refine Dev.request_w _ _ ?_ (by decide +kernel) (by decide +kernel))
    | (with_reducible refine Within.onStage ?_ _ (by decide +kernel))
    | (with_reducible refine Within.ite ?_ ?_)
    | (intro _ _ _)
    | split
    | dsimp only

theorem Dev.stageSettled_w (d : Dev) {M P : Nat} {dz : Dev} (hd : Within M P dz d) (hm : inMask 0x80000000000000000000000000000 M = true) (hp : inMask 0x20200 P = true) : Within M P dz (Dev.stageSettled d) :=
  hd.andThen (Dev.stageSettled_w0 d) hm hp

theorem Dev.toStage_w0 (d : Dev) (st : Nat) : Within 0x80B801000000000000000000000000000000000000000000000000002000008C0000000000001000004000000000 0x24BD0 d (Dev.toStage d st) := by
  unfold Dev.toStage
  repeat' first
    | (with_reducible exact Within.refl _)
    | (with_reducible assumption)
    | ((try lift_lets); intro x_; first
      | (refine (fun (hx_ : Within 0x80B801000000000000000000000000000000000000000000000000002000008C0000000000001000004000000000 0x24BD0 d x_) => ?rest) ?val; (case' rest => clear_value x_); (case' val => subst x_))
      | (have _t := fun y_ => x_ y_; clear _t; subst x_)
      | (have _t : Dev := x_.1; clear _t; subst x_)
      | (have _t : Dev := x_.2; clear _t; subst x_)
      | (have _t : Dev := x_; clear _t; subst x_)
      | clear_value x_)
    | (with_reducible refine Dev.abortEarly_w _ _ ?_ (by decide +kernel) (by decide +kernel))
    | (with_reducible refine Dev.stageSettled_w _ ?_ (by decide +kernel) (by decide +kernel))
    | (with_reducible refine Within.putBitAt ?_ _ _ _ (by decide +kernel))
    | (with_reducible refine Within.putBit ?_ _ _ (by decide +kernel))
    | (with_reducible refine Within.putAt ?_ _ _ _ (by decide +kernel))
    | (with_reducible refine Within.put ?_ _ _ (by decide +kernel))
    | (with_reducible refine Within.onStage ?_ _ (by decide +kernel))
    | (with_reducible refine Within.ite ?_ ?_)
    | (intro _ _ _)
    | split
    | dsimp only

theorem Dev.toStage_w (d : Dev) (st : Nat) {M P : Nat} {dz : Dev} (hd : Within M P dz d) (hm : inMask 0x80B801000000000000000000000000000000000000000000000000002000008C0000000000001000004000000000 M = true) (hp : inMask 0x24BD0 P = true) : Within M P dz (Dev.toStage d st) :=
  hd.andThen (Dev.toStage_w0 d st) hm hp

theorem Dev.tryStep_w0 (d : Dev) : Within 0x80B801000000000000000000000000000000000000000000000000002000008C0000000000001000004000000000 0x24BD0 d (Dev.tryStep d) := by
  unfold Dev.tryStep
  repeat' first
    | (with_reducible exact Within.refl _)
    | (with_reducible assumption)
    | ((try lift_lets); intro x_; first
      | (refine (fun (hx_ : Within 0x80B801000000000000000000000000000000000000000000000000002000008C0000000000001000004000000000 0x24BD0 d x_) => ?rest) ?val; (case' rest => clear_value x_); (case' val => subst x_))
      | (have _t := fun y_ => x_ y_; clear _t; subst x_)
      | (have _t : Dev := x_.1; clear _t; subst x_)
      | (have _t : Dev := x_.2; clear _t; subst x_)
      | (have _t : Dev := x_; clear _t; subst x_)
      | clear_value x_)
    | (with_reducible refine Dev.event_w _ _ _ ?_ (by decide +kernel) (by decide +kernel))
    | (with_reducible refine Dev.toStage_w _ _ ?_ (by decide +kernel) (by decide +kernel))
    | (with_reducible refine Within.putBitAt ?_ _ _ _ (by decide +kernel))
    | (with_reducible refine Within.putBit ?_ _ _ (by decide +kernel))
    | (with_reducible refine Within.putAt ?_ _ _ _ (by decide +kernel))
    | (with_reducible refine Within.put ?_ _ _ (by decide +kernel))
    | (with_reducible refine Within.flagAt ?_ _ _ (by decide +kernel))
    | (with_reducible refine Within.flag ?_ _ (by decide +kernel))
    | (with_reducible refine Within.onStage ?_ _ (by decide +kernel))
    | (with_reducible refine Within.ite ?_ ?_)
    | (intro _ _ _)
    | split
    | dsimp only

theorem Dev.tryStep_w (d : Dev) {M P : Nat} {dz : Dev} (hd : Within M P dz d) (hm : inMask 0x80B801000000000000000000000000000000000000000000000000002000008C0000000000001000004000000000 M = true) (hp : inMask 0x24BD0 P = true) : Within M P dz (Dev.tryStep d) :=
  hd.andThen (Dev.tryStep_w0 d) hm hp

theorem stageCtlWrite_w0 (v : Word) (d : Dev) : Within 0x80B801000000000000000000000000000000000000000000000000002000008C0000000000001000006000000000 0x24BD0 d (stageCtlWrite v d) := by
  unfold stageCtlWrite
  repeat' first
    | (with_reducible exact Within.refl _)
    | (with_reducible assumption)
    | ((try lift_lets); intro x_; first
      | (refine (fun (hx_ : Within 0x80B801000000000000000000000000000000000000000000000000002000008C0000000000001000006000000000 0x24BD0 d x_) => ?rest) ?val; (case' rest => clear_value x_); (case' val => subst x_))
      | (have _t := fun y_ => x_ y_; clear _t; subst x_)
      | (have _t : Dev := x_.1; clear _t; subst x_)
      | (have _t : Dev := x_.2; clear _t; subst x_)
      | (have _t : Dev := x_; clear _t; subst x_)
      | clear_value x_)
    | (with_reducible refine Dev.tryStep_w _ ?_ (by decide +kernel) (by decide +kernel))
    | (with_reducible refine Within.putBitAt ?_ _ _ _ (by decide +kernel))
    | (with_reducible refine Within.putBit ?_ _ _ (by decide +kernel))
    | (with_reducible refine Within.putAt ?_ _ _ _ (by decide +kernel))
    | (with_reducible refine Within.put ?_ _ _ (by decide +kernel))
    | (with_reducible refine Within.onStage ?_ _ (by decide +kernel))
    | (with_reducible refine Within.writeWord ?_ _ _ (by decide +kernel))
    | (with_reducible refine Within.ite ?_ ?_)
    | (intro _ _ _)
    | split
    | dsimp only

theorem stageCtlWrite_w (v : Word) (d : Dev) {M P : Nat} {dz : Dev} (hd : Within M P dz d) (hm : inMask 0x80B801000000000000000000000000000000000000000000000000002000008C0000000000001000006000000000 M = true) (hp : inMask 0x24BD0 P = true) : Within M P dz (stageCtlWrite v d) :=
  hd.andThen (stageCtlWrite_w0 v d) hm hp

theorem Dev.readoutStop_w0 (d : Dev) : Within 0x80B80100000140010000000000000000000000000000000000000000000000000000000001000000000000000000 0x9F0 d (Dev.readoutStop d) := by
  unfold Dev.readoutStop
  repeat' first
    | (with_reducible exact Within.refl _)
    | (with_reducible assumption)
    | ((try lift_lets); intro x_; first
      | (refine (fun (hx_ : Within 0x80B80100000140010000000000000000000000000000000000000000000000000000000001000000000000000000 0x9F0 d x_) => ?rest) ?val; (case' rest => clear_value x_); (case' val => subst x_))
      | (have _t := fun y_ => x_ y_; clear _t; subst x_)
      | (have _t : Dev := x_.1; clear _t; subst x_)
      | (have _t : Dev := x_.2; clear _t; subst x_)
      | (have _t : Dev := x_; clear _t; subst x_)
      | clear_value x_)
    | (with_reducible refine Dev.event_w _ _ _ ?_ (by decide +kernel) (by decide +kernel))
    | (with_reducible refine settleCaps_w _ ?_ (by decide +kernel) (by decide +kernel))
    | (with_reducible refine Within.onFpa ?_ _ (by decide +kernel))
    | (with_reducible refine Within.onPipe ?_ _ (by decide +kernel))
    | (with_reducible refine Within.foldl ?_ _ _ ?_)
    | (with_reducible refine Within.ite ?_ ?_)
    | (intro _ _ _)
    | split
    | dsimp only

theorem Dev.readoutStop_w (d : Dev) {M P : Nat} {dz : Dev} (hd : Within M P dz d) (hm : inMask 0x80B80100000140010000000000000000000000000000000000000000000000000000000001000000000000000000 M = true) (hp : inMask 0x9F0 P = true) : Within M P dz (Dev.readoutStop d) :=
  hd.andThen (Dev.readoutStop_w0 d) hm hp

theorem Dev.sampleTemp_w0 (d : Dev) : Within 0x1C000000000 0x200 d (Dev.sampleTemp d) := by
  unfold Dev.sampleTemp
  repeat' first
    | (with_reducible exact Within.refl _)
    | (with_reducible assumption)
    | ((try lift_lets); intro x_; first
      | (refine (fun (hx_ : Within 0x1C000000000 0x200 d x_) => ?rest) ?val; (case' rest => clear_value x_); (case' val => subst x_))
      | (have _t := fun y_ => x_ y_; clear _t; subst x_)
      | (have _t : Dev := x_.1; clear _t; subst x_)
      | (have _t : Dev := x_.2; clear _t; subst x_)
      | (have _t : Dev := x_; clear _t; subst x_)
      | clear_value x_)
    | (with_reducible refine Within.putIAt ?_ _ _ _ (by decide +kernel))
    | (with_reducible refine Within.putI ?_ _ _ (by decide +kernel))
    | (with_reducible refine Within.putAt ?_ _ _ _ (by decide +kernel))
    | (with_reducible refine Within.put ?_ _ _ (by decide +kernel))
    | (with_reducible refine Within.onStage ?_ _ (by decide +kernel))
    | (with_reducible refine Within.ite ?_ ?_)
    | (intro _ _ _)
    | split
    | dsimp only

theorem Dev.sampleTemp_w (d : Dev) {M P : Nat} {dz : Dev} (hd : Within M P dz d) (hm : inMask 0x1C000000000 M = true) (hp : inMask 0x200 P = true) : Within M P dz (Dev.sampleTemp d) :=
  hd.andThen (Dev.sampleTemp_w0 d) hm hp

theorem Dev.sampleHeat_w0 (d : Dev) : Within 0x60000000000 0x204 d (Dev.sampleHeat d) := by
  unfold Dev.sampleHeat
  repeat' first
    | (with_reducible exact Within.refl _)
    | (with_reducible assumption)
    | ((try lift_lets); intro x_; first
      | (refine (fun (hx_ : Within 0x60000000000 0x204 d x_) => ?rest) ?val; (case' rest => clear_value x_); (case' val => subst x_))
      | (have _t := fun y_ => x_ y_; clear _t; subst x_)
      | (have _t : Dev := x_.1; clear _t; subst x_)
      | (have _t : Dev := x_.2; clear _t; subst x_)
      | (have _t : Dev := x_; clear _t; subst x_)
      | clear_value x_)
    | (with_reducible refine Within.putAt ?_ _ _ _ (by decide +kernel))
    | (with_reducible refine Within.put ?_ _ _ (by decide +kernel))
    | (with_reducible refine Within.onStage ?_ _ (by decide +kernel))
    | (with_reducible refine Within.fresh ?_ (by decide +kernel))
    | (with_reducible refine Within.ite ?_ ?_)
    | (intro _ _ _)
    | split
    | dsimp only

theorem Dev.sampleHeat_w (d : Dev) {M P : Nat} {dz : Dev} (hd : Within M P dz d) (hm : inMask 0x60000000000 M = true) (hp : inMask 0x204 P = true) : Within M P dz (Dev.sampleHeat d) :=
  hd.andThen (Dev.sampleHeat_w0 d) hm hp

theorem Dev.sampleTimers_w0 (d : Dev) : Within 0 0x200 d (Dev.sampleTimers d) := by
  unfold Dev.sampleTimers
  repeat' first
    | (with_reducible exact Within.refl _)
    | (with_reducible assumption)
    | ((try lift_lets); intro x_; first
      | (refine (fun (hx_ : Within 0 0x200 d x_) => ?rest) ?val; (case' rest => clear_value x_); (case' val => subst x_))
      | (have _t := fun y_ => x_ y_; clear _t; subst x_)
      | (have _t : Dev := x_.1; clear _t; subst x_)
      | (have _t : Dev := x_.2; clear _t; subst x_)
      | (have _t : Dev := x_; clear _t; subst x_)
      | clear_value x_)
    | (with_reducible refine Within.onStage ?_ _ (by decide +kernel))
    | (with_reducible refine Within.ite ?_ ?_)
    | (intro _ _ _)
    | split
    | dsimp only

theorem Dev.sampleTimers_w (d : Dev) {M P : Nat} {dz : Dev} (hd : Within M P dz d) (hm : inMask 0 M = true) (hp : inMask 0x200 P = true) : Within M P dz (Dev.sampleTimers d) :=
  hd.andThen (Dev.sampleTimers_w0 d) hm hp

theorem Dev.sampleLimits_w0 (d : Dev) : Within 0x80B80100000140010000000000000000000000000000000000000000000000000000000001000000004000000000 0xBF0 d (Dev.sampleLimits d) := by
  unfold Dev.sampleLimits
  unfold onlyIf
  repeat' first
    | (with_reducible exact Within.refl _)
    | (with_reducible assumption)
    | ((try lift_lets); intro x_; first
      | (refine (fun (hx_ : Within 0x80B80100000140010000000000000000000000000000000000000000000000000000000001000000004000000000 0xBF0 d x_) => ?rest) ?val; (case' rest => clear_value x_); (case' val => subst x_))
      | (have _t := fun y_ => x_ y_; clear _t; subst x_)
      | (have _t : Dev := x_.1; clear _t; subst x_)
      | (have _t : Dev := x_.2; clear _t; subst x_)
      | (have _t : Dev := x_; clear _t; subst x_)
      | clear_value x_)
    | (with_reducible refine Dev.event_w _ _ _ ?_ (by decide +kernel) (by decide +kernel))
    | (with_reducible refine Dev.readoutStop_w _ ?_ (by decide +kernel) (by decide +kernel))
    | (with_reducible refine Within.putBitAt ?_ _ _ _ (by decide +kernel))
    | (with_reducible refine Within.putBit ?_ _ _ (by decide +kernel))
    | (with_reducible refine Within.onFpa ?_ _ (by decide +kernel))
    | (with_reducible refine Within.onStage ?_ _ (by decide +kernel))
    | (with_reducible refine Within.ite ?_ ?_)
    | (intro _ _ _)
    | split
    | dsimp only

theorem Dev.sampleLimits_w (d : Dev) {M P : Nat} {dz : Dev} (hd : Within M P dz d) (hm : inMask 0x80B80100000140010000000000000000000000000000000000000000000000000000000001000000004000000000 M = true) (hp : inMask 0xBF0 P = true) : Within M P dz (Dev.sampleLimits d) :=
  hd.andThen (Dev.sampleLimits_w0 d) hm hp

theorem stageSample_w0 (d : Dev) : Within 0x80B801000001400100000000000000000000000000000000000000002000008C000000000100100007C000000000 0x24BF4 d (stageSample d) := by
  unfold stageSample
  unfold onlyIf
  repeat' first
    | (with_reducible exact Within.refl _)
    | (with_reducible assumption)
    | ((try lift_lets); intro x_; first
      | (refine (fun (hx_ : Within 0x80B801000001400100000000000000000000000000000000000000002000008C000000000100100007C000000000 0x24BF4 d x_) => ?rest) ?val; (case' rest => clear_value x_); (case' val => subst x_))
      | (have _t := fun y_ => x_ y_; clear _t; subst x_)
      | (have _t : Dev := x_.1; clear _t; subst x_)
      | (have _t : Dev := x_.2; clear _t; subst x_)
      | (have _t : Dev := x_; clear _t; subst x_)
      | clear_value x_)
    | (with_reducible refine Dev.toStage_w _ _ ?_ (by decide +kernel) (by decide +kernel))
    | (with_reducible refine Dev.tryStep_w _ ?_ (by decide +kernel) (by decide +kernel))
    | (with_reducible refine Dev.sampleTemp_w _ ?_ (by decide +kernel) (by decide +kernel))
    | (with_reducible refine Dev.sampleHeat_w _ ?_ (by decide +kernel) (by decide +kernel))
    | (with_reducible refine Dev.sampleTimers_w _ ?_ (by decide +kernel) (by decide +kernel))
    | (with_reducible refine Dev.sampleLimits_w _ ?_ (by decide +kernel) (by decide +kernel))
    | (with_reducible refine Within.putBitAt ?_ _ _ _ (by decide +kernel))
    | (with_reducible refine Within.putBit ?_ _ _ (by decide +kernel))
    | (with_reducible refine Within.ite ?_ ?_)
    | (intro _ _ _)
    | split
    | dsimp only

theorem stageSample_w (d : Dev) {M P : Nat} {dz : Dev} (hd : Within M P dz d) (hm : inMask 0x80B801000001400100000000000000000000000000000000000000002000008C000000000100100007C000000000 M = true) (hp : inMask 0x24BF4 P = true) : Within M P dz (stageSample d) :=
  hd.andThen (stageSample_w0 d) hm hp

theorem stageSettledRow_w0 (d : Dev) : Within 0x80B801000000000000000000000000000000000000000000000000002000008C0000000000001000004000000000 0x24BD0 d (stageSettledRow d) := by
  unfold stageSettledRow
  repeat' first
    | (with_reducible exact Within.refl _)
    | (with_reducible assumption)
    | ((try lift_lets); intro x_; first
      | (refine (fun (hx_ : Within 0x80B801000000000000000000000000000000000000000000000000002000008C0000000000001000004000000000 0x24BD0 d x_) => ?rest) ?val; (case' rest => clear_value x_); (case' val => subst x_))
      | (have _t := fun y_ => x_ y_; clear _t; subst x_)
      | (have _t : Dev := x_.1; clear _t; subst x_)
      | (have _t : Dev := x_.2; clear _t; subst x_)
      | (have _t : Dev := x_; clear _t; subst x_)
      | clear_value x_)
    | (with_reducible refine Dev.toStage_w _ _ ?_ (by decide +kernel) (by decide +kernel))
    | (with_reducible refine Dev.tryStep_w _ ?_ (by decide +kernel) (by decide +kernel))
    | (with_reducible refine Within.onStage ?_ _ (by decide +kernel))
    | (with_reducible refine Within.ite ?_ ?_)
    | (intro _ _ _)
    | split
    | dsimp only

theorem stageSettledRow_w (d : Dev) {M P : Nat} {dz : Dev} (hd : Within M P dz d) (hm : inMask 0x80B801000000000000000000000000000000000000000000000000002000008C0000000000001000004000000000 M = true) (hp : inMask 0x24BD0 P = true) : Within M P dz (stageSettledRow d) :=
  hd.andThen (stageSettledRow_w0 d) hm hp

theorem marginLow_w0 (d : Dev) : Within 0x80B801000000000000000000000000000000000000000000000000002000008C0000000000001000006000000000 0x24BD0 d (marginLow d) := by
  unfold marginLow
  repeat' first
    | (with_reducible exact Within.refl _)
    | (with_reducible assumption)
    | ((try lift_lets); intro x_; first
      | (refine (fun (hx_ : Within 0x80B801000000000000000000000000000000000000000000000000002000008C0000000000001000006000000000 0x24BD0 d x_) => ?rest) ?val; (case' rest => clear_value x_); (case' val => subst x_))
      | (have _t := fun y_ => x_ y_; clear _t; subst x_)
      | (have _t : Dev := x_.1; clear _t; subst x_)
      | (have _t : Dev := x_.2; clear _t; subst x_)
      | (have _t : Dev := x_; clear _t; subst x_)
      | clear_value x_)
    | (with_reducible refine Dev.tryStep_w _ ?_ (by decide +kernel) (by decide +kernel))
    | (with_reducible refine Within.putBitAt ?_ _ _ _ (by decide +kernel))
    | (with_reducible refine Within.putBit ?_ _ _ (by decide +kernel))
    | (with_reducible refine Within.putAt ?_ _ _ _ (by decide +kernel))
    | (with_reducible refine Within.put ?_ _ _ (by decide +kernel))
    | (with_reducible refine Within.onStage ?_ _ (by decide +kernel))
    | (with_reducible refine Within.ite ?_ ?_)
    | (intro _ _ _)
    | split
    | dsimp only

theorem marginLow_w (d : Dev) {M P : Nat} {dz : Dev} (hd : Within M P dz d) (hm : inMask 0x80B801000000000000000000000000000000000000000000000000002000008C0000000000001000006000000000 M = true) (hp : inMask 0x24BD0 P = true) : Within M P dz (marginLow d) :=
  hd.andThen (marginLow_w0 d) hm hp

theorem stageUnreg_w0 (d : Dev) : Within 0x80B801000000000000000000000000000000000000000000000000002000008C0000000000001000004000000000 0x24BD0 d (stageUnreg d) := by
  unfold stageUnreg
  repeat' first
    | (with_reducible exact Within.refl _)
    | (with_reducible assumption)
    | (with_reducible refine Dev.toStage_w _ _ ?_ (by decide +kernel) (by decide +kernel))
    | (with_reducible refine Within.onStage ?_ _ (by decide +kernel))
    | (with_reducible refine Within.ite ?_ ?_)
    | (intro _ _ _)
    | split
    | dsimp only

theorem stageUnreg_w (d : Dev) {M P : Nat} {dz : Dev} (hd : Within M P dz d) (hm : inMask 0x80B801000000000000000000000000000000000000000000000000002000008C0000000000001000004000000000 M = true) (hp : inMask 0x24BD0 P = true) : Within M P dz (stageUnreg d) :=
  hd.andThen (stageUnreg_w0 d) hm hp

theorem diodeExcl_w0 (i : Nat) (d : Dev) : Within 0x80B80100000000000000000000000000000000000000000000000000000000000000000000000000004000000000 0x2D0 d (diodeExcl i d) := by
  unfold diodeExcl
  repeat' first
    | (with_reducible exact Within.refl _)
    | (with_reducible assumption)
    | ((try lift_lets); intro x_; first
      | (refine (fun (hx_ : Within 0x80B80100000000000000000000000000000000000000000000000000000000000000000000000000004000000000 0x2D0 d x_) => ?rest) ?val; (case' rest => clear_value x_); (case' val => subst x_))
      | (have _t := fun y_ => x_ y_; clear _t; subst x_)
      | (have _t : Dev := x_.1; clear _t; subst x_)
      | (have _t : Dev := x_.2; clear _t; subst x_)
      | (have _t : Dev := x_; clear _t; subst x_)
      | clear_value x_)
    | (with_reducible refine Dev.event_w _ _ _ ?_ (by decide +kernel) (by decide +kernel))
    | (with_reducible refine Within.putAt ?_ _ _ _ (by decide +kernel))
    | (with_reducible refine Within.put ?_ _ _ (by decide +kernel))
    | (with_reducible refine Within.onStage ?_ _ (by decide +kernel))
    | (with_reducible refine Within.ite ?_ ?_)
    | (intro _ _ _)
    | split
    | dsimp only

theorem diodeExcl_w (i : Nat) (d : Dev) {M P : Nat} {dz : Dev} (hd : Within M P dz d) (hm : inMask 0x80B80100000000000000000000000000000000000000000000000000000000000000000000000000004000000000 M = true) (hp : inMask 0x2D0 P = true) : Within M P dz (diodeExcl i d) :=
  hd.andThen (diodeExcl_w0 i d) hm hp

theorem Dev.startHeating_w0 (d : Dev) : Within 0x80B801000000000000000000000000000000000000000000000000002000008C0000000000001000004000000000 0x24BD0 d (Dev.startHeating d) := by
  unfold Dev.startHeating
  repeat' first
    | (with_reducible exact Within.refl _)
    | (with_reducible assumption)
    | ((try lift_lets); intro x_; first
      | (refine (fun (hx_ : Within 0x80B801000000000000000000000000000000000000000000000000002000008C0000000000001000004000000000 0x24BD0 d x_) => ?rest) ?val; (case' rest => clear_value x_); (case' val => subst x_))
      | (have _t := fun y_ => x_ y_; clear _t; subst x_)
      | (have _t : Dev := x_.1; clear _t; subst x_)
      | (have _t : Dev := x_.2; clear _t; subst x_)
      | (have _t : Dev := x_; clear _t; subst x_)
      | clear_value x_)
    | (with_reducible refine Dev.toStage_w _ _ ?_ (by decide +kernel) (by decide +kernel))
    | (with_reducible refine Within.putAt ?_ _ _ _ (by decide +kernel))
    | (with_reducible refine Within.put ?_ _ _ (by decide +kernel))
    | (with_reducible refine Within.ite ?_ ?_)
    | (intro _ _ _)
    | split
    | dsimp only

theorem Dev.startHeating_w (d : Dev) {M P : Nat} {dz : Dev} (hd : Within M P dz d) (hm : inMask 0x80B801000000000000000000000000000000000000000000000000002000008C0000000000001000004000000000 M = true) (hp : inMask 0x24BD0 P = true) : Within M P dz (Dev.startHeating d) :=
  hd.andThen (Dev.startHeating_w0 d) hm hp

theorem Dev.rampStart_w0 (d : Dev) : Within 0x40000 0x1000 d (Dev.rampStart d) := by
  unfold Dev.rampStart
  repeat' first
    | (with_reducible exact Within.refl _)
    | (with_reducible assumption)
    | ((try lift_lets); intro x_; first
      | (refine (fun (hx_ : Within 0x40000 0x1000 d x_) => ?rest) ?val; (case' rest => clear_value x_); (case' val => subst x_))
      | (have _t := fun y_ => x_ y_; clear _t; subst x_)
      | (have _t : Dev := x_.1; clear _t; subst x_)
      | (have _t : Dev := x_.2; clear _t; subst x_)
      | (have _t : Dev := x_; clear _t; subst x_)
      | clear_value x_)
    | (with_reducible refine Within.putBitAt ?_ _ _ _ (by decide +kernel))
    | (with_reducible refine Within.putBit ?_ _ _ (by decide +kernel))
    | (with_reducible refine Within.onPwr ?_ _ (by decide +kernel))
    | (with_reducible refine Within.ite ?_ ?_)
    | (intro _ _ _)
    | split
    | dsimp only

theorem Dev.rampStart_w (d : Dev) {M P : Nat} {dz : Dev} (hd : Within M P dz d) (hm : inMask 0x40000 M = true) (hp : inMask 0x1000 P = true) : Within M P dz (Dev.rampStart d) :=
  hd.andThen (Dev.rampStart_w0 d) hm hp

theorem Dev.gladeBegin_w0 (d : Dev) (t : Nat) : Within 0x80B8010000000000000000000000000000000000000000000000000020C0008C0000000000001000004000040000 0x25BD0 d (Dev.gladeBegin d t) := by
  unfold Dev.gladeBegin
  repeat' first
    | (with_reducible exact Within.refl _)
    | (with_reducible assumption)
    | (with_reducible refine Dev.tryStep_w _ ?_ (by decide +kernel) (by decide +kernel))
    | (with_reducible refine Dev.rampStart_w _ ?_ (by decide +kernel) (by decide +kernel))
    | (with_reducible refine Within.putBitAt ?_ _ _ _ (by decide +kernel))
    | (with_reducible refine Within.putBit ?_ _ _ (by decide +kernel))
    | (with_reducible refine Within.putAt ?_ _ _ _ (by decide +kernel))
    | (with_reducible refine Within.put ?_ _ _ (by decide +kernel))
    | (with_reducible refine Within.ite ?_ ?_)
    | (intro _ _ _)
    | split
    | dsimp only

theorem Dev.gladeBegin_w (d : Dev) (t : Nat) {M P : Nat} {dz : Dev} (hd : Within M P dz d) (hm : inMask 0x80B8010000000000000000000000000000000000000000000000000020C0008C0000000000001000004000040000 M = true) (hp : inMask 0x25BD0 P = true) : Within M P dz (Dev.gladeBegin d t) :=
  hd.andThen (Dev.gladeBegin_w0 d t) hm hp

theorem Dev.gladeAbort_w0 (d : Dev) (t : Nat) : Within 0x80B80100000000000000000000000000000000000000000000000000200000840000000000001000000000000000 0x249D0 d (Dev.gladeAbort d t) := by
  unfold Dev.gladeAbort
  repeat' first
    | (with_reducible exact Within.refl _)
    | (with_reducible assumption)
    | (with_reducible refine Dev.proofAbort_w _ _ ?_ (by decide +kernel) (by decide +kernel))
    | (with_reducible refine Within.ite ?_ ?_)
    | (intro _ _ _)
    | split
    | dsimp only

theorem Dev.gladeAbort_w (d : Dev) (t : Nat) {M P : Nat} {dz : Dev} (hd : Within M P dz d) (hm : inMask 0x80B80100000000000000000000000000000000000000000000000000200000840000000000001000000000000000 M = true) (hp : inMask 0x249D0 P = true) : Within M P dz (Dev.gladeAbort d t) :=
  hd.andThen (Dev.gladeAbort_w0 d t) hm hp

theorem Dev.putGladeEnd_w0 (d : Dev) (t : Nat) : Within 0x10000000000000000000000000000000000 0x40000 d (Dev.putGladeEnd d t) := by
  unfold Dev.putGladeEnd
  repeat' first
    | (with_reducible exact Within.refl _)
    | (with_reducible assumption)
    | (with_reducible refine Within.putAt ?_ _ _ _ (by decide +kernel))
    | (with_reducible refine Within.put ?_ _ _ (by decide +kernel))
    | (with_reducible refine Within.onGlade ?_ _ (by decide +kernel))
    | (with_reducible refine Within.ite ?_ ?_)
    | (intro _ _ _)
    | split
    | dsimp only

theorem Dev.putGladeEnd_w (d : Dev) (t : Nat) {M P : Nat} {dz : Dev} (hd : Within M P dz d) (hm : inMask 0x10000000000000000000000000000000000 M = true) (hp : inMask 0x40000 P = true) : Within M P dz (Dev.putGladeEnd d t) :=
  hd.andThen (Dev.putGladeEnd_w0 d t) hm hp

theorem Dev.gladeEndAt_w0 (d : Dev) (t : Nat) : Within 0x80B80100000000000000000000000000000000000000000000000000214000840000000000001000000000000000 0x649D0 d (Dev.gladeEndAt d t) := by
  unfold Dev.gladeEndAt
  repeat' first
    | (with_reducible exact Within.refl _)
    | (with_reducible assumption)
    | (with_reducible refine Dev.gladeAbort_w _ _ ?_ (by decide +kernel) (by decide +kernel))
    | (with_reducible refine Dev.putGladeEnd_w _ _ ?_ (by decide +kernel) (by decide +kernel))
    | (with_reducible refine Within.putBitAt ?_ _ _ _ (by decide +kernel))
    | (with_reducible refine Within.putBit ?_ _ _ (by decide +kernel))
    | (with_reducible refine Within.ite ?_ ?_)
    | (intro _ _ _)
    | split
    | dsimp only

theorem Dev.gladeEndAt_w (d : Dev) (t : Nat) {M P : Nat} {dz : Dev} (hd : Within M P dz d) (hm : inMask 0x80B80100000000000000000000000000000000000000000000000000214000840000000000001000000000000000 M = true) (hp : inMask 0x649D0 P = true) : Within M P dz (Dev.gladeEndAt d t) :=
  hd.andThen (Dev.gladeEndAt_w0 d t) hm hp

theorem Dev.ownNote_w0 (d : Dev) (o : Bool) : Within 0 0x40000 d (Dev.ownNote d o) := by
  unfold Dev.ownNote
  repeat' first
    | (with_reducible exact Within.refl _)
    | (with_reducible assumption)
    | (with_reducible refine Within.onGlade ?_ _ (by decide +kernel))
    | (with_reducible refine Within.ite ?_ ?_)
    | (intro _ _ _)
    | split
    | dsimp only

theorem Dev.ownNote_w (d : Dev) (o : Bool) {M P : Nat} {dz : Dev} (hd : Within M P dz d) (hm : inMask 0 M = true) (hp : inMask 0x40000 P = true) : Within M P dz (Dev.ownNote d o) :=
  hd.andThen (Dev.ownNote_w0 d o) hm hp

theorem Dev.gladeEval_w0 (d : Dev) : Within 0x80B8010000000000000000000000000000000000000000000000000020C0008C0000000000001000004000040000 0x65BD0 d (Dev.gladeEval d) := by
  unfold Dev.gladeEval
  repeat' first
    | (with_reducible exact Within.refl _)
    | (with_reducible assumption)
    | ((try lift_lets); intro x_; first
      | (refine (fun (hx_ : Within 0x80B8010000000000000000000000000000000000000000000000000020C0008C0000000000001000004000040000 0x65BD0 d x_) => ?rest) ?val; (case' rest => clear_value x_); (case' val => subst x_))
      | (have _t := fun y_ => x_ y_; clear _t; subst x_)
      | (have _t : Dev := x_.1; clear _t; subst x_)
      | (have _t : Dev := x_.2; clear _t; subst x_)
      | (have _t : Dev := x_; clear _t; subst x_)
      | clear_value x_)
    | (with_reducible refine Dev.gladeBegin_w _ _ ?_ (by decide +kernel) (by decide +kernel))
    | (with_reducible refine Dev.ownNote_w _ _ ?_ (by decide +kernel) (by decide +kernel))
    | (with_reducible refine Within.putBitAt ?_ _ _ _ (by decide +kernel))
    | (with_reducible refine Within.putBit ?_ _ _ (by decide +kernel))
    | (with_reducible refine Within.putAt ?_ _ _ _ (by decide +kernel))
    | (with_reducible refine Within.put ?_ _ _ (by decide +kernel))
    | (with_reducible refine Within.ite ?_ ?_)
    | (intro _ _ _)
    | split
    | dsimp only

theorem Dev.gladeEval_w (d : Dev) {M P : Nat} {dz : Dev} (hd : Within M P dz d) (hm : inMask 0x80B8010000000000000000000000000000000000000000000000000020C0008C0000000000001000004000040000 M = true) (hp : inMask 0x65BD0 P = true) : Within M P dz (Dev.gladeEval d) :=
  hd.andThen (Dev.gladeEval_w0 d) hm hp

theorem Dev.gladeClose_w0 (d : Dev) : Within 0x80B80100000000000000000000000000000000000000000000000000214000840000000000001000000000000000 0x649D0 d (Dev.gladeClose d) := by
  unfold Dev.gladeClose
  repeat' first
    | (with_reducible exact Within.refl _)
    | (with_reducible assumption)
    | ((try lift_lets); intro x_; first
      | (refine (fun (hx_ : Within 0x80B80100000000000000000000000000000000000000000000000000214000840000000000001000000000000000 0x649D0 d x_) => ?rest) ?val; (case' rest => clear_value x_); (case' val => subst x_))
      | (have _t := fun y_ => x_ y_; clear _t; subst x_)
      | (have _t : Dev := x_.1; clear _t; subst x_)
      | (have _t : Dev := x_.2; clear _t; subst x_)
      | (have _t : Dev := x_; clear _t; subst x_)
      | clear_value x_)
    | (with_reducible refine Dev.gladeEndAt_w _ _ ?_ (by decide +kernel) (by decide +kernel))
    | (with_reducible refine Dev.ownNote_w _ _ ?_ (by decide +kernel) (by decide +kernel))
    | (with_reducible refine Within.ite ?_ ?_)
    | (intro _ _ _)
    | split
    | dsimp only

theorem Dev.gladeClose_w (d : Dev) {M P : Nat} {dz : Dev} (hd : Within M P dz d) (hm : inMask 0x80B80100000000000000000000000000000000000000000000000000214000840000000000001000000000000000 M = true) (hp : inMask 0x649D0 P = true) : Within M P dz (Dev.gladeClose d) :=
  hd.andThen (Dev.gladeClose_w0 d) hm hp

theorem Dev.relayBegin_w0 (d : Dev) (t : Nat) : Within 0x80B8010000000000000000000000000000000000000000000000000021C0008C0000000000001000004000040000 0x65BD0 d (Dev.relayBegin d t) := by
  unfold Dev.relayBegin
  repeat' first
    | (with_reducible exact Within.refl _)
    | (with_reducible assumption)
    | ((try lift_lets); intro x_; first
      | (refine (fun (hx_ : Within 0x80B8010000000000000000000000000000000000000000000000000021C0008C0000000000001000004000040000 0x65BD0 d x_) => ?rest) ?val; (case' rest => clear_value x_); (case' val => subst x_))
      | (have _t := fun y_ => x_ y_; clear _t; subst x_)
      | (have _t : Dev := x_.1; clear _t; subst x_)
      | (have _t : Dev := x_.2; clear _t; subst x_)
      | (have _t : Dev := x_; clear _t; subst x_)
      | clear_value x_)
    | (with_reducible refine Dev.gladeBegin_w _ _ ?_ (by decide +kernel) (by decide +kernel))
    | (with_reducible refine Within.putBitAt ?_ _ _ _ (by decide +kernel))
    | (with_reducible refine Within.putBit ?_ _ _ (by decide +kernel))
    | (with_reducible refine Within.putAt ?_ _ _ _ (by decide +kernel))
    | (with_reducible refine Within.put ?_ _ _ (by decide +kernel))
    | (with_reducible refine Within.onGlade ?_ _ (by decide +kernel))
    | (with_reducible refine Within.ite ?_ ?_)
    | (intro _ _ _)
    | split
    | dsimp only

theorem Dev.relayBegin_w (d : Dev) (t : Nat) {M P : Nat} {dz : Dev} (hd : Within M P dz d) (hm : inMask 0x80B8010000000000000000000000000000000000000000000000000021C0008C0000000000001000004000040000 M = true) (hp : inMask 0x65BD0 P = true) : Within M P dz (Dev.relayBegin d t) :=
  hd.andThen (Dev.relayBegin_w0 d t) hm hp

theorem Dev.relayEnd_w0 (d : Dev) (t : Nat) : Within 0x80B8010000000000000000000000000000000000000000000000000021C0008C0000000000001000004000040000 0x65BD0 d (Dev.relayEnd d t) := by
  unfold Dev.relayEnd
  repeat' first
    | (with_reducible exact Within.refl _)
    | (with_reducible assumption)
    | ((try lift_lets); intro x_; first
      | (refine (fun (hx_ : Within 0x80B8010000000000000000000000000000000000000000000000000021C0008C0000000000001000004000040000 0x65BD0 d x_) => ?rest) ?val; (case' rest => clear_value x_); (case' val => subst x_))
      | (have _t := fun y_ => x_ y_; clear _t; subst x_)
      | (have _t : Dev := x_.1; clear _t; subst x_)
      | (have _t : Dev := x_.2; clear _t; subst x_)
      | (have _t : Dev := x_; clear _t; subst x_)
      | clear_value x_)
    | (with_reducible refine Dev.gladeBegin_w _ _ ?_ (by decide +kernel) (by decide +kernel))
    | (with_reducible refine Dev.gladeAbort_w _ _ ?_ (by decide +kernel) (by decide +kernel))
    | (with_reducible refine Dev.putGladeEnd_w _ _ ?_ (by decide +kernel) (by decide +kernel))
    | (with_reducible refine Within.putBitAt ?_ _ _ _ (by decide +kernel))
    | (with_reducible refine Within.putBit ?_ _ _ (by decide +kernel))
    | (with_reducible refine Within.onGlade ?_ _ (by decide +kernel))
    | (with_reducible refine Within.ite ?_ ?_)
    | (intro _ _ _)
    | split
    | dsimp only

theorem Dev.relayEnd_w (d : Dev) (t : Nat) {M P : Nat} {dz : Dev} (hd : Within M P dz d) (hm : inMask 0x80B8010000000000000000000000000000000000000000000000000021C0008C0000000000001000004000040000 M = true) (hp : inMask 0x65BD0 P = true) : Within M P dz (Dev.relayEnd d t) :=
  hd.andThen (Dev.relayEnd_w0 d t) hm hp

theorem gladeIn_w0 (level : Bool) (d : Dev) : Within 0x800000000080B8010000000000000000000000000000000000000000000000000020C0008C0000000000001000004000040000 0x65BD0 d (gladeIn level d) := by
  unfold gladeIn
  repeat' first
    | (with_reducible exact Within.refl _)
    | (with_reducible assumption)
    | ((try lift_lets); intro x_; first
      | (refine (fun (hx_ : Within 0x800000000080B8010000000000000000000000000000000000000000000000000020C0008C0000000000001000004000040000 0x65BD0 d x_) => ?rest) ?val; (case' rest => clear_value x_); (case' val => subst x_))
      | (have _t := fun y_ => x_ y_; clear _t; subst x_)
      | (have _t : Dev := x_.1; clear _t; subst x_)
      | (have _t : Dev := x_.2; clear _t; subst x_)
      | (have _t : Dev := x_; clear _t; subst x_)
      | clear_value x_)
    | (with_reducible refine Dev.gladeEval_w _ ?_ (by decide +kernel) (by decide +kernel))
    | (with_reducible refine Within.putBitAt ?_ _ _ _ (by decide +kernel))
    | (with_reducible refine Within.putBit ?_ _ _ (by decide +kernel))
    | (with_reducible refine Within.onGlade ?_ _ (by decide +kernel))
    | (with_reducible refine Within.ite ?_ ?_)
    | (intro _ _ _)
    | split
    | dsimp only

theorem gladeIn_w (level : Bool) (d : Dev) {M P : Nat} {dz : Dev} (hd : Within M P dz d) (hm : inMask 0x800000000080B8010000000000000000000000000000000000000000000000000020C0008C0000000000001000004000040000 M = true) (hp : inMask 0x65BD0 P = true) : Within M P dz (gladeIn level d) :=
  hd.andThen (gladeIn_w0 level d) hm hp

theorem gladePol_w0 (pol : Bool) (d : Dev) : Within 0xC00000000080B8010000000000000000000000000000000000000000000000000020C0008C0000000000001000004000040000 0x65BD0 d (gladePol pol d) := by
  unfold gladePol
  repeat' first
    | (with_reducible exact Within.refl _)
    | (with_reducible assumption)
    | ((try lift_lets); intro x_; first
      | (refine (fun (hx_ : Within 0xC00000000080B8010000000000000000000000000000000000000000000000000020C0008C0000000000001000004000040000 0x65BD0 d x_) => ?rest) ?val; (case' rest => clear_value x_); (case' val => subst x_))
      | (have _t := fun y_ => x_ y_; clear _t; subst x_)
      | (have _t : Dev := x_.1; clear _t; subst x_)
      | (have _t : Dev := x_.2; clear _t; subst x_)
      | (have _t : Dev := x_; clear _t; subst x_)
      | clear_value x_)
    | (with_reducible refine gladeIn_w _ _ ?_ (by decide +kernel) (by decide +kernel))
    | (with_reducible refine Within.putBitAt ?_ _ _ _ (by decide +kernel))
    | (with_reducible refine Within.putBit ?_ _ _ (by decide +kernel))
    | (with_reducible refine Within.onGlade ?_ _ (by decide +kernel))
    | (with_reducible refine Within.ite ?_ ?_)
    | (intro _ _ _)
    | split
    | dsimp only

theorem gladePol_w (pol : Bool) (d : Dev) {M P : Nat} {dz : Dev} (hd : Within M P dz d) (hm : inMask 0xC00000000080B8010000000000000000000000000000000000000000000000000020C0008C0000000000001000004000040000 M = true) (hp : inMask 0x65BD0 P = true) : Within M P dz (gladePol pol d) :=
  hd.andThen (gladePol_w0 pol d) hm hp

theorem Dev.gladeSpeed_w0 (d : Dev) : Within 0 0x40000 d (Dev.gladeSpeed d) := by
  unfold Dev.gladeSpeed
  repeat' first
    | (with_reducible exact Within.refl _)
    | (with_reducible assumption)
    | ((try lift_lets); intro x_; first
      | (refine (fun (hx_ : Within 0 0x40000 d x_) => ?rest) ?val; (case' rest => clear_value x_); (case' val => subst x_))
      | (have _t := fun y_ => x_ y_; clear _t; subst x_)
      | (have _t : Dev := x_.1; clear _t; subst x_)
      | (have _t : Dev := x_.2; clear _t; subst x_)
      | (have _t : Dev := x_; clear _t; subst x_)
      | clear_value x_)
    | (with_reducible refine Within.onGlade ?_ _ (by decide +kernel))
    | (with_reducible refine Within.ite ?_ ?_)
    | (intro _ _ _)
    | split
    | dsimp only

theorem Dev.gladeSpeed_w (d : Dev) {M P : Nat} {dz : Dev} (hd : Within M P dz d) (hm : inMask 0 M = true) (hp : inMask 0x40000 P = true) : Within M P dz (Dev.gladeSpeed d) :=
  hd.andThen (Dev.gladeSpeed_w0 d) hm hp

theorem speedWindow_w0 (d : Dev) : Within 0x80B8010000000000000000000000000000000000000000000000000020C0008C0000000000001000004000040000 0x65BD0 d (speedWindow d) := by
  unfold speedWindow
  repeat' first
    | (with_reducible exact Within.refl _)
    | (with_reducible assumption)
    | ((try lift_lets); intro x_; first
      | (refine (fun (hx_ : Within 0x80B8010000000000000000000000000000000000000000000000000020C0008C0000000000001000004000040000 0x65BD0 d x_) => ?rest) ?val; (case' rest => clear_value x_); (case' val => subst x_))
      | (have _t := fun y_ => x_ y_; clear _t; subst x_)
      | (have _t : Dev := x_.1; clear _t; subst x_)
      | (have _t : Dev := x_.2; clear _t; subst x_)
      | (have _t : Dev := x_; clear _t; subst x_)
      | clear_value x_)
    | (with_reducible refine Dev.gladeEval_w _ ?_ (by decide +kernel) (by decide +kernel))
    | (with_reducible refine Dev.gladeSpeed_w _ ?_ (by decide +kernel) (by decide +kernel))
    | (with_reducible refine Within.onGlade ?_ _ (by decide +kernel))
    | (with_reducible refine Within.ite ?_ ?_)
    | (intro _ _ _)
    | split
    | dsimp only

theorem speedWindow_w (d : Dev) {M P : Nat} {dz : Dev} (hd : Within M P dz d) (hm : inMask 0x80B8010000000000000000000000000000000000000000000000000020C0008C0000000000001000004000040000 M = true) (hp : inMask 0x65BD0 P = true) : Within M P dz (speedWindow d) :=
  hd.andThen (speedWindow_w0 d) hm hp

theorem declaredEval_w0 (d : Dev) : Within 0x80B8010000000000000000000000000000000000000000000000000020C0008C0000000000001000004000040000 0x65BD0 d (declaredEval d) := by
  unfold declaredEval
  repeat' first
    | (with_reducible exact Within.refl _)
    | (with_reducible assumption)
    | (with_reducible refine Dev.gladeEval_w _ ?_ (by decide +kernel) (by decide +kernel))
    | (with_reducible refine Within.onGlade ?_ _ (by decide +kernel))
    | (with_reducible refine Within.ite ?_ ?_)
    | (intro _ _ _)
    | split
    | dsimp only

theorem declaredEval_w (d : Dev) {M P : Nat} {dz : Dev} (hd : Within M P dz d) (hm : inMask 0x80B8010000000000000000000000000000000000000000000000000020C0008C0000000000001000004000040000 M = true) (hp : inMask 0x65BD0 P = true) : Within M P dz (declaredEval d) :=
  hd.andThen (declaredEval_w0 d) hm hp

theorem doGladeDeclare_w0 (c : Cmd) (d : Dev) : Within 0x80B8010000014001000000000000000000000000000000000000000020C0008C0000000000001000004000040000 0x65BF0 d (doGladeDeclare c d) := by
  unfold doGladeDeclare
  repeat' first
    | (with_reducible exact Within.refl _)
    | (with_reducible assumption)
    | ((try lift_lets); intro x_; first
      | (refine (fun (hx_ : Within 0x80B8010000014001000000000000000000000000000000000000000020C0008C0000000000001000004000040000 0x65BF0 d x_) => ?rest) ?val; (case' rest => clear_value x_); (case' val => subst x_))
      | (have _t := fun y_ => x_ y_; clear _t; subst x_)
      | (have _t : Dev := x_.1; clear _t; subst x_)
      | (have _t : Dev := x_.2; clear _t; subst x_)
      | (have _t : Dev := x_; clear _t; subst x_)
      | clear_value x_)
    | (with_reducible refine Dev.ok_w _ _ _ ?_ (by decide +kernel) (by decide +kernel))
    | (with_reducible refine declaredEval_w _ ?_ (by decide +kernel) (by decide +kernel))
    | (with_reducible refine Within.onGlade ?_ _ (by decide +kernel))
    | (with_reducible refine Within.ite ?_ ?_)
    | (intro _ _ _)
    | split
    | dsimp only

theorem doGladeDeclare_w (c : Cmd) (d : Dev) {M P : Nat} {dz : Dev} (hd : Within M P dz d) (hm : inMask 0x80B8010000014001000000000000000000000000000000000000000020C0008C0000000000001000004000040000 M = true) (hp : inMask 0x65BF0 P = true) : Within M P dz (doGladeDeclare c d) :=
  hd.andThen (doGladeDeclare_w0 c d) hm hp

theorem scheduleWindow_w0 (d : Dev) : Within 0x80B8010000000000000000000000000000000000000000000000000020C0008C0000000000001000004000040000 0x65BD0 d (scheduleWindow d) := by
  unfold scheduleWindow
  repeat' first
    | (with_reducible exact Within.refl _)
    | (with_reducible assumption)
    | (with_reducible refine Dev.gladeEval_w _ ?_ (by decide +kernel) (by decide +kernel))
    | (with_reducible refine Within.ite ?_ ?_)
    | (intro _ _ _)
    | split
    | dsimp only

theorem scheduleWindow_w (d : Dev) {M P : Nat} {dz : Dev} (hd : Within M P dz d) (hm : inMask 0x80B8010000000000000000000000000000000000000000000000000020C0008C0000000000001000004000040000 M = true) (hp : inMask 0x65BD0 P = true) : Within M P dz (scheduleWindow d) :=
  hd.andThen (scheduleWindow_w0 d) hm hp

theorem profileGladeEnd_w0 (d : Dev) : Within 0x80B8010000000000000000000000000000000000000000000000000020C0008C0000000000001000004000040000 0x65BD0 d (profileGladeEnd d) := by
  unfold profileGladeEnd
  repeat' first
    | (with_reducible exact Within.refl _)
    | (with_reducible assumption)
    | (with_reducible refine Dev.gladeEval_w _ ?_ (by decide +kernel) (by decide +kernel))
    | (with_reducible refine Within.onGlade ?_ _ (by decide +kernel))
    | (with_reducible refine Within.ite ?_ ?_)
    | (intro _ _ _)
    | split
    | dsimp only

theorem profileGladeEnd_w (d : Dev) {M P : Nat} {dz : Dev} (hd : Within M P dz d) (hm : inMask 0x80B8010000000000000000000000000000000000000000000000000020C0008C0000000000001000004000040000 M = true) (hp : inMask 0x65BD0 P = true) : Within M P dz (profileGladeEnd d) :=
  hd.andThen (profileGladeEnd_w0 d) hm hp

theorem Dev.gladeProfile_w0 (d : Dev) (ms : Nat) : Within 0x80B8010000000000000000000000000000000000000000000000000020C0008C0000000000001000004000040000 0x65BD0 d (Dev.gladeProfile d ms) := by
  unfold Dev.gladeProfile
  repeat' first
    | (with_reducible exact Within.refl _)
    | (with_reducible assumption)
    | (with_reducible refine Dev.gladeEval_w _ ?_ (by decide +kernel) (by decide +kernel))
    | (with_reducible refine Within.onGlade ?_ _ (by decide +kernel))
    | (with_reducible refine Within.ite ?_ ?_)
    | (intro _ _ _)
    | split
    | dsimp only

theorem Dev.gladeProfile_w (d : Dev) (ms : Nat) {M P : Nat} {dz : Dev} (hd : Within M P dz d) (hm : inMask 0x80B8010000000000000000000000000000000000000000000000000020C0008C0000000000001000004000040000 M = true) (hp : inMask 0x65BD0 P = true) : Within M P dz (Dev.gladeProfile d ms) :=
  hd.andThen (Dev.gladeProfile_w0 d ms) hm hp

end Sys2Proof.Machine
end

