-- ==== Sys2Proof/Laws/FramesWeb.lean ====
section
/-! SUPPORT. Frames of the operations of statistics, converter, alarms, lines, web and proofs. -/

set_option linter.unusedVariables false
set_option Elab.async false

namespace Sys2Proof.Machine

open Sys2Proof

theorem Dev.closeBlock_w0 (d : Dev) (early : Bool) : Within 0x80B80100802000000000000000000000000000000000000000000000000000000000000000000000000000000000 0x80D4 d (Dev.closeBlock d early) := by
  unfold Dev.closeBlock
  repeat' first
    | (with_reducible exact Within.refl _)
    | (with_reducible assumption)
    | ((try lift_lets); intro x_; first
      | (refine (fun (hx_ : Within 0x80B80100802000000000000000000000000000000000000000000000000000000000000000000000000000000000 0x80D4 d x_) => ?rest) ?val; (case' rest => clear_value x_); (case' val => subst x_))
      | (have _t := fun y_ => x_ y_; clear _t; subst x_)
      | (have _t : Dev := x_.1; clear _t; subst x_)
      | (have _t : Dev := x_.2; clear _t; subst x_)
      | (have _t : Dev := x_; clear _t; subst x_)
      | clear_value x_)
    | (with_reducible refine Dev.formRec_w _ _ _ _ ?_ (by decide +kernel) (by decide +kernel))
    | (with_reducible refine Dev.freshQdr_w _ _ _ ?_ (by decide +kernel) (by decide +kernel))
    | (with_reducible refine Dev.badSeen_w _ _ ?_ (by decide +kernel) (by decide +kernel))
    | (with_reducible refine Within.onStat ?_ _ (by decide +kernel))
    | (with_reducible refine Within.fresh ?_ (by decide +kernel))
    | (with_reducible refine Within.ite ?_ ?_)
    | (intro _ _ _)
    | split
    | dsimp only

theorem Dev.closeBlock_w (d : Dev) (early : Bool) {M P : Nat} {dz : Dev} (hd : Within M P dz d) (hm : inMask 0x80B80100802000000000000000000000000000000000000000000000000000000000000000000000000000000000 M = true) (hp : inMask 0x80D4 P = true) : Within M P dz (Dev.closeBlock d early) :=
  hd.andThen (Dev.closeBlock_w0 d early) hm hp

theorem Dev.statLine_w0 (d : Dev) (l : EmLine) (xs : Nat → Int) : Within 0x80B80100802000000000000000000000000000000000000000000000000000000000000000000000000000000000 0x80D4 d (Dev.statLine d l xs) := by
  unfold Dev.statLine
  repeat' first
    | (with_reducible exact Within.refl _)
    | (with_reducible assumption)
    | ((try lift_lets); intro x_; first
      | (refine (fun (hx_ : Within 0x80B80100802000000000000000000000000000000000000000000000000000000000000000000000000000000000 0x80D4 d x_) => ?rest) ?val; (case' rest => clear_value x_); (case' val => subst x_))
      | (have _t := fun y_ => x_ y_; clear _t; subst x_)
      | (have _t : Dev := x_.1; clear _t; subst x_)
      | (have _t : Dev := x_.2; clear _t; subst x_)
      | (have _t : Dev := x_; clear _t; subst x_)
      | clear_value x_)
    | (with_reducible refine Dev.closeBlock_w _ _ ?_ (by decide +kernel) (by decide +kernel))
    | (with_reducible refine Within.onStat ?_ _ (by decide +kernel))
    | (with_reducible refine Within.foldl ?_ _ _ ?_)
    | (with_reducible refine Within.ite ?_ ?_)
    | (intro _ _ _)
    | split
    | dsimp only

theorem Dev.statLine_w (d : Dev) (l : EmLine) (xs : Nat → Int) {M P : Nat} {dz : Dev} (hd : Within M P dz d) (hm : inMask 0x80B80100802000000000000000000000000000000000000000000000000000000000000000000000000000000000 M = true) (hp : inMask 0x80D4 P = true) : Within M P dz (Dev.statLine d l xs) :=
  hd.andThen (Dev.statLine_w0 d l xs) hm hp

theorem Dev.takeHist_w0 (d : Dev) (f : Frame) : Within 0 0x8010 d (Dev.takeHist d f) := by
  unfold Dev.takeHist
  repeat' first
    | (with_reducible exact Within.refl _)
    | (with_reducible assumption)
    | ((try lift_lets); intro x_; first
      | (refine (fun (hx_ : Within 0 0x8010 d x_) => ?rest) ?val; (case' rest => clear_value x_); (case' val => subst x_))
      | (have _t := fun y_ => x_ y_; clear _t; subst x_)
      | (have _t : Dev := x_.1; clear _t; subst x_)
      | (have _t : Dev := x_.2; clear _t; subst x_)
      | (have _t : Dev := x_; clear _t; subst x_)
      | clear_value x_)
    | (with_reducible refine Dev.formRec_w _ _ _ _ ?_ (by decide +kernel) (by decide +kernel))
    | (with_reducible refine Within.onStat ?_ _ (by decide +kernel))
    | (with_reducible refine Within.ite ?_ ?_)
    | (intro _ _ _)
    | split
    | dsimp only

theorem Dev.takeHist_w (d : Dev) (f : Frame) {M P : Nat} {dz : Dev} (hd : Within M P dz d) (hm : inMask 0 M = true) (hp : inMask 0x8010 P = true) : Within M P dz (Dev.takeHist d f) :=
  hd.andThen (Dev.takeHist_w0 d f) hm hp

theorem Dev.takeFlicker_w0 (d : Dev) (f : Frame) : Within 0 0x8010 d (Dev.takeFlicker d f) := by
  unfold Dev.takeFlicker
  repeat' first
    | (with_reducible exact Within.refl _)
    | (with_reducible assumption)
    | ((try lift_lets); intro x_; first
      | (refine (fun (hx_ : Within 0 0x8010 d x_) => ?rest) ?val; (case' rest => clear_value x_); (case' val => subst x_))
      | (have _t := fun y_ => x_ y_; clear _t; subst x_)
      | (have _t : Dev := x_.1; clear _t; subst x_)
      | (have _t : Dev := x_.2; clear _t; subst x_)
      | (have _t : Dev := x_; clear _t; subst x_)
      | clear_value x_)
    | (with_reducible refine Dev.formRec_w _ _ _ _ ?_ (by decide +kernel) (by decide +kernel))
    | (with_reducible refine Within.onStat ?_ _ (by decide +kernel))
    | (with_reducible refine Within.ite ?_ ?_)
    | (intro _ _ _)
    | split
    | dsimp only

theorem Dev.takeFlicker_w (d : Dev) (f : Frame) {M P : Nat} {dz : Dev} (hd : Within M P dz d) (hm : inMask 0 M = true) (hp : inMask 0x8010 P = true) : Within M P dz (Dev.takeFlicker d f) :=
  hd.andThen (Dev.takeFlicker_w0 d f) hm hp

theorem Dev.frameStats_w0 (d : Dev) (cnt : Nat) : Within 0 0x8110 d (Dev.frameStats d cnt) := by
  unfold Dev.frameStats
  repeat' first
    | (with_reducible exact Within.refl _)
    | (with_reducible assumption)
    | ((try lift_lets); intro x_; first
      | (refine (fun (hx_ : Within 0 0x8110 d x_) => ?rest) ?val; (case' rest => clear_value x_); (case' val => subst x_))
      | (have _t := fun y_ => x_ y_; clear _t; subst x_)
      | (have _t : Dev := x_.1; clear _t; subst x_)
      | (have _t : Dev := x_.2; clear _t; subst x_)
      | (have _t : Dev := x_; clear _t; subst x_)
      | clear_value x_)
    | (with_reducible refine Dev.putFrame_w _ _ ?_ (by decide +kernel) (by decide +kernel))
    | (with_reducible refine Dev.takeHist_w _ _ ?_ (by decide +kernel) (by decide +kernel))
    | (with_reducible refine Dev.takeFlicker_w _ _ ?_ (by decide +kernel) (by decide +kernel))
    | (with_reducible refine Within.ite ?_ ?_)
    | (intro _ _ _)
    | split
    | dsimp only

theorem Dev.frameStats_w (d : Dev) (cnt : Nat) {M P : Nat} {dz : Dev} (hd : Within M P dz d) (hm : inMask 0 M = true) (hp : inMask 0x8110 P = true) : Within M P dz (Dev.frameStats d cnt) :=
  hd.andThen (Dev.frameStats_w0 d cnt) hm hp

theorem Dev.frameStatsIfWhole_w0 (d : Dev) (cnt : Nat) : Within 0 0x8110 d (Dev.frameStatsIfWhole d cnt) := by
  unfold Dev.frameStatsIfWhole
  repeat' first
    | (with_reducible exact Within.refl _)
    | (with_reducible assumption)
    | (with_reducible refine Dev.frameStats_w _ _ ?_ (by decide +kernel) (by decide +kernel))
    | (with_reducible refine Within.ite ?_ ?_)
    | (intro _ _ _)
    | split
    | dsimp only

theorem Dev.frameStatsIfWhole_w (d : Dev) (cnt : Nat) {M P : Nat} {dz : Dev} (hd : Within M P dz d) (hm : inMask 0 M = true) (hp : inMask 0x8110 P = true) : Within M P dz (Dev.frameStatsIfWhole d cnt) :=
  hd.andThen (Dev.frameStatsIfWhole_w0 d cnt) hm hp

theorem Dev.snapBlock_w0 (d : Dev) (b : Block) : Within 0x20000F80000000000000000000000000000000000000000000000 0 d (Dev.snapBlock d b) := by
  unfold Dev.snapBlock
  repeat' first
    | (with_reducible exact Within.refl _)
    | (with_reducible assumption)
    | ((try lift_lets); intro x_; first
      | (refine (fun (hx_ : Within 0x20000F80000000000000000000000000000000000000000000000 0 d x_) => ?rest) ?val; (case' rest => clear_value x_); (case' val => subst x_))
      | (have _t := fun y_ => x_ y_; clear _t; subst x_)
      | (have _t : Dev := x_.1; clear _t; subst x_)
      | (have _t : Dev := x_.2; clear _t; subst x_)
      | (have _t : Dev := x_; clear _t; subst x_)
      | clear_value x_)
    | (with_reducible refine Within.putBitAt ?_ _ _ _ (by decide +kernel))
    | (with_reducible refine Within.putBit ?_ _ _ (by decide +kernel))
    | (with_reducible refine Within.putAt ?_ _ _ _ (by decide +kernel))
    | (with_reducible refine Within.put ?_ _ _ (by decide +kernel))
    | (with_reducible refine Within.foldl ?_ _ _ ?_)
    | (with_reducible refine Within.ite ?_ ?_)
    | (intro _ _ _)
    | split
    | dsimp only

theorem Dev.snapBlock_w (d : Dev) (b : Block) {M P : Nat} {dz : Dev} (hd : Within M P dz d) (hm : inMask 0x20000F80000000000000000000000000000000000000000000000 M = true) (hp : inMask 0 P = true) : Within M P dz (Dev.snapBlock d b) :=
  hd.andThen (Dev.snapBlock_w0 d b) hm hp

theorem Dev.snapHist_w0 (d : Dev) (h : Hist) : Within 0x4000F000000000000000000000000000000000000000000000000 0 d (Dev.snapHist d h) := by
  unfold Dev.snapHist
  repeat' first
    | (with_reducible exact Within.refl _)
    | (with_reducible assumption)
    | ((try lift_lets); intro x_; first
      | (refine (fun (hx_ : Within 0x4000F000000000000000000000000000000000000000000000000 0 d x_) => ?rest) ?val; (case' rest => clear_value x_); (case' val => subst x_))
      | (have _t := fun y_ => x_ y_; clear _t; subst x_)
      | (have _t : Dev := x_.1; clear _t; subst x_)
      | (have _t : Dev := x_.2; clear _t; subst x_)
      | (have _t : Dev := x_; clear _t; subst x_)
      | clear_value x_)
    | (with_reducible refine Within.putAt ?_ _ _ _ (by decide +kernel))
    | (with_reducible refine Within.put ?_ _ _ (by decide +kernel))
    | (with_reducible refine Within.foldl ?_ _ _ ?_)
    | (with_reducible refine Within.ite ?_ ?_)
    | (intro _ _ _)
    | split
    | dsimp only

theorem Dev.snapHist_w (d : Dev) (h : Hist) {M P : Nat} {dz : Dev} (hd : Within M P dz d) (hm : inMask 0x4000F000000000000000000000000000000000000000000000000 M = true) (hp : inMask 0 P = true) : Within M P dz (Dev.snapHist d h) :=
  hd.andThen (Dev.snapHist_w0 d h) hm hp

theorem Dev.snapFlk_w0 (d : Dev) : Within 0x300000000000000000000000000000000000000000000000000 0 d (Dev.snapFlk d) := by
  unfold Dev.snapFlk
  repeat' first
    | (with_reducible exact Within.refl _)
    | (with_reducible assumption)
    | ((try lift_lets); intro x_; first
      | (refine (fun (hx_ : Within 0x300000000000000000000000000000000000000000000000000 0 d x_) => ?rest) ?val; (case' rest => clear_value x_); (case' val => subst x_))
      | (have _t := fun y_ => x_ y_; clear _t; subst x_)
      | (have _t : Dev := x_.1; clear _t; subst x_)
      | (have _t : Dev := x_.2; clear _t; subst x_)
      | (have _t : Dev := x_; clear _t; subst x_)
      | clear_value x_)
    | (with_reducible refine Within.putBitAt ?_ _ _ _ (by decide +kernel))
    | (with_reducible refine Within.putBit ?_ _ _ (by decide +kernel))
    | (with_reducible refine Within.putAt ?_ _ _ _ (by decide +kernel))
    | (with_reducible refine Within.put ?_ _ _ (by decide +kernel))
    | (with_reducible refine Within.foldl ?_ _ _ ?_)
    | (with_reducible refine Within.ite ?_ ?_)
    | (intro _ _ _)
    | split
    | dsimp only

theorem Dev.snapFlk_w (d : Dev) {M P : Nat} {dz : Dev} (hd : Within M P dz d) (hm : inMask 0x300000000000000000000000000000000000000000000000000 M = true) (hp : inMask 0 P = true) : Within M P dz (Dev.snapFlk d) :=
  hd.andThen (Dev.snapFlk_w0 d) hm hp

theorem Dev.snapshot_w0 (d : Dev) (close : Bool) (post : Bool) : Within 0x80B8010080200000000000000000000000000006030FF80000000000000000000000000000000000000000000000 0x80D4 d (Dev.snapshot d close post) := by
  unfold Dev.snapshot
  repeat' first
    | (with_reducible exact Within.refl _)
    | (with_reducible assumption)
    | ((try lift_lets); intro x_; first
      | (refine (fun (hx_ : Within 0x80B8010080200000000000000000000000000006030FF80000000000000000000000000000000000000000000000 0x80D4 d x_) => ?rest) ?val; (case' rest => clear_value x_); (case' val => subst x_))
      | (have _t := fun y_ => x_ y_; clear _t; subst x_)
      | (have _t : Dev := x_.1; clear _t; subst x_)
      | (have _t : Dev := x_.2; clear _t; subst x_)
      | (have _t : Dev := x_; clear _t; subst x_)
      | clear_value x_)
    | (with_reducible refine Dev.formRec_w _ _ _ _ ?_ (by decide +kernel) (by decide +kernel))
    | (with_reducible refine Dev.closeBlock_w _ _ ?_ (by decide +kernel) (by decide +kernel))
    | (with_reducible refine Dev.snapBlock_w _ _ ?_ (by decide +kernel) (by decide +kernel))
    | (with_reducible refine Dev.snapHist_w _ _ ?_ (by decide +kernel) (by decide +kernel))
    | (with_reducible refine Dev.snapFlk_w _ ?_ (by decide +kernel) (by decide +kernel))
    | (with_reducible refine Within.incWrapAt ?_ _ _ (by decide +kernel))
    | (with_reducible refine Within.incWrap ?_ _ (by decide +kernel))
    | (with_reducible refine Within.ite ?_ ?_)
    | (intro _ _ _)
    | split
    | dsimp only

theorem Dev.snapshot_w (d : Dev) (close : Bool) (post : Bool) {M P : Nat} {dz : Dev} (hd : Within M P dz d) (hm : inMask 0x80B8010080200000000000000000000000000006030FF80000000000000000000000000000000000000000000000 M = true) (hp : inMask 0x80D4 P = true) : Within M P dz (Dev.snapshot d close post) :=
  hd.andThen (Dev.snapshot_w0 d close post) hm hp

theorem doSnapshot_w0 (c : Cmd) (d : Dev) : Within 0x80B8010080214001000000000000000000000006030FF80000000000000000000000000000000000000000000000 0x80F4 d (doSnapshot c d) := by
  unfold doSnapshot
  repeat' first
    | (with_reducible exact Within.refl _)
    | (with_reducible assumption)
    | ((try lift_lets); intro x_; first
      | (refine (fun (hx_ : Within 0x80B8010080214001000000000000000000000006030FF80000000000000000000000000000000000000000000000 0x80F4 d x_) => ?rest) ?val; (case' rest => clear_value x_); (case' val => subst x_))
      | (have _t := fun y_ => x_ y_; clear _t; subst x_)
      | (have _t : Dev := x_.1; clear _t; subst x_)
      | (have _t : Dev := x_.2; clear _t; subst x_)
      | (have _t : Dev := x_; clear _t; subst x_)
      | clear_value x_)
    | (with_reducible refine Dev.ok_w _ _ _ ?_ (by decide +kernel) (by decide +kernel))
    | (with_reducible refine Dev.snapshot_w _ _ _ ?_ (by decide +kernel) (by decide +kernel))
    | (with_reducible refine Within.ite ?_ ?_)
    | (intro _ _ _)
    | split
    | dsimp only

theorem doSnapshot_w (c : Cmd) (d : Dev) {M P : Nat} {dz : Dev} (hd : Within M P dz d) (hm : inMask 0x80B8010080214001000000000000000000000006030FF80000000000000000000000000000000000000000000000 M = true) (hp : inMask 0x80F4 P = true) : Within M P dz (doSnapshot c d) :=
  hd.andThen (doSnapshot_w0 c d) hm hp

theorem commitSeq_w0 (ks : List Nat) (bad : Bool) (d : Dev) (e : Dev) (x_ : Nat) (h : commitSeq ks bad d = (e, x_)) : Within 0x40000000000000000000000000000000000000000000000000000000000000000000000000000000000000000000000000 0x400 d e := by
  unfold commitSeq at h
  try dsimp only at h
  repeat' split at h
  all_goals (first | cases h | (injection h with h h'; subst h) | (injection h with h; subst h) | skip)
  all_goals try dsimp only
  all_goals (
    repeat' first
      | (with_reducible exact Within.refl _)
      | (with_reducible assumption)
      | ((try lift_lets); intro x_; first
        | (refine (fun (hx_ : Within 0x40000000000000000000000000000000000000000000000000000000000000000000000000000000000000000000000000 0x400 d x_) => ?rest) ?val; (case' rest => clear_value x_); (case' val => subst x_))
        | (have _t := fun y_ => x_ y_; clear _t; subst x_)
        | (have _t : Dev := x_.1; clear _t; subst x_)
        | (have _t : Dev := x_.2; clear _t; subst x_)
        | (have _t : Dev := x_; clear _t; subst x_)
        | clear_value x_)
      | (with_reducible refine Within.putAt ?_ _ _ _ (by decide +kernel))
      | (with_reducible refine Within.put ?_ _ _ (by decide +kernel))
      | (with_reducible refine Within.flagAt ?_ _ _ (by decide +kernel))
      | (with_reducible refine Within.flag ?_ _ (by decide +kernel))
      | (with_reducible refine Within.onAux ?_ _ (by decide +kernel))
      | (with_reducible refine Within.ite ?_ ?_)
      | (intro _ _ _)
      | split
      | dsimp only)

theorem commitSeq_w (ks : List Nat) (bad : Bool) (d : Dev) (e : Dev) (x_ : Nat) (h : commitSeq ks bad d = (e, x_)) {M P : Nat} {dz : Dev} (hd : Within M P dz d) (hm : inMask 0x40000000000000000000000000000000000000000000000000000000000000000000000000000000000000000000000000 M = true) (hp : inMask 0x400 P = true) : Within M P dz e :=
  hd.andThen (commitSeq_w0 ks bad d _ _ h) hm hp

theorem commitSeq_w1 (ks : List Nat) (bad : Bool) (d : Dev) {M P : Nat} {dz : Dev} (hd : Within M P dz d) (hm : inMask 0x40000000000000000000000000000000000000000000000000000000000000000000000000000000000000000000000000 M = true) (hp : inMask 0x400 P = true) : Within M P dz (commitSeq ks bad d).1 :=
  commitSeq_w ks bad d _ _ rfl hd hm hp

theorem auxLoad_w (b : List Byte) (d : Dev) {M P : Nat} {dz : Dev} (hd : Within M P dz d) (hm : inMask 0xC0E0000000000000000140010000000000000000000000000000000000000000000000000000000000000000000000000000 M = true) (hp : inMask 0x430 P = true) :
    Within M P dz ((List.range 16).foldl (fun d n =>
      (d.writeWord (R.AUX_ENT_CFG + 0x10 * n) (leAt b (16 + 8 * n) 4)).writeWord (R.AUX_ENT_WIN + 0x10 * n) (leAt b (20 + 8 * n) 4)) d) := by
  refine hd.andThen (m := 0xC0E0000000000000000140010000000000000000000000000000000000000000000000000000000000000000000000000000) (p := 0x430) ?_ hm hp
  refine Within.foldlMem (Within.refl _) _ _ (fun u x hx hu => Within.writeWord (Within.writeWord hu _ _ ?_) _ _ ?_)
  · have key : ∀ n < 16, hasRow 0xC0E0000000000000000140010000000000000000000000000000000000000000000000000000000000000000000000000000 (R.AUX_ENT_CFG + 0x10 * n) = true := by decide +kernel
    exact key x (by simpa using hx)
  · have key : ∀ n < 16, hasRow 0xC0E0000000000000000140010000000000000000000000000000000000000000000000000000000000000000000000000000 (R.AUX_ENT_WIN + 0x10 * n) = true := by decide +kernel
    exact key x (by simpa using hx)

theorem doAuxSeqLoad_w (c : Cmd) (d : Dev) {M P : Nat} {dz : Dev} (hd : Within M P dz d) (hm : inMask 0xC0E0000000000000000140010000000000000000000000000000000000000000000000000000000000000000000000000000 M = true) (hp : inMask 0x430 P = true) : Within M P dz (doAuxSeqLoad c d) := by
  refine hd.andThen (m := 0xC0E0000000000000000140010000000000000000000000000000000000000000000000000000000000000000000000000000) (p := 0x430) ?_ hm hp
  unfold doAuxSeqLoad
  dsimp only
  have h0 := auxLoad_w c.data _ (Within.writeWord (Within.writeWord (Within.refl (M := 0xC0E0000000000000000140010000000000000000000000000000000000000000000000000000000000000000000000000000) (P := 0x430) d) R.AUX_SEQ_CTL (leAt c.data 2 2) (by decide +kernel)) R.AUX_WIN_EN (leAt c.data 4 2) (by decide +kernel)) (by decide +kernel) (by decide +kernel)
  split
  · rename_i h
    exact commitSeq_w _ _ _ _ _ h h0 (by decide +kernel) (by decide +kernel)
  · rename_i h
    exact Dev.complete_w _ _ _ _ _ (commitSeq_w _ _ _ _ _ h h0 (by decide +kernel) (by decide +kernel)) (by decide +kernel) (by decide +kernel)

theorem Dev.showCal_w0 (d : Dev) : Within 0x1000000000000000000000000000000000000000000000000000000000000000000000000000000000000000000000000000 0 d (Dev.showCal d) := by
  unfold Dev.showCal
  repeat' first
    | (with_reducible exact Within.refl _)
    | (with_reducible assumption)
    | ((try lift_lets); intro x_; first
      | (refine (fun (hx_ : Within 0x1000000000000000000000000000000000000000000000000000000000000000000000000000000000000000000000000000 0 d x_) => ?rest) ?val; (case' rest => clear_value x_); (case' val => subst x_))
      | (have _t := fun y_ => x_ y_; clear _t; subst x_)
      | (have _t : Dev := x_.1; clear _t; subst x_)
      | (have _t : Dev := x_.2; clear _t; subst x_)
      | (have _t : Dev := x_; clear _t; subst x_)
      | clear_value x_)
    | (with_reducible refine Within.putAt ?_ _ _ _ (by decide +kernel))
    | (with_reducible refine Within.put ?_ _ _ (by decide +kernel))
    | (with_reducible refine Within.ite ?_ ?_)
    | (intro _ _ _)
    | split
    | dsimp only

theorem Dev.showCal_w (d : Dev) {M P : Nat} {dz : Dev} (hd : Within M P dz d) (hm : inMask 0x1000000000000000000000000000000000000000000000000000000000000000000000000000000000000000000000000000 M = true) (hp : inMask 0 P = true) : Within M P dz (Dev.showCal d) :=
  hd.andThen (Dev.showCal_w0 d) hm hp

theorem Dev.showZero_w0 (d : Dev) : Within 0x8000000000000000000000000000000000000000000000000000000000000000000000000000000000000000000000000 0 d (Dev.showZero d) := by
  unfold Dev.showZero
  repeat' first
    | (with_reducible exact Within.refl _)
    | (with_reducible assumption)
    | (with_reducible refine Within.putBitAt ?_ _ _ _ (by decide +kernel))
    | (with_reducible refine Within.putBit ?_ _ _ (by decide +kernel))
    | (with_reducible refine Within.putAt ?_ _ _ _ (by decide +kernel))
    | (with_reducible refine Within.put ?_ _ _ (by decide +kernel))
    | (with_reducible refine Within.ite ?_ ?_)
    | (intro _ _ _)
    | split
    | dsimp only

theorem Dev.showZero_w (d : Dev) {M P : Nat} {dz : Dev} (hd : Within M P dz d) (hm : inMask 0x8000000000000000000000000000000000000000000000000000000000000000000000000000000000000000000000000 M = true) (hp : inMask 0 P = true) : Within M P dz (Dev.showZero d) :=
  hd.andThen (Dev.showZero_w0 d) hm hp

theorem refWrite_w0 (sel : Nat) (d : Dev) : Within 0x1018000000000000000000000000000000000000000000000000000000000000000000000000000000000000000000000000 0x400 d (refWrite sel d) := by
  unfold refWrite
  repeat' first
    | (with_reducible exact Within.refl _)
    | (with_reducible assumption)
    | ((try lift_lets); intro x_; first
      | (refine (fun (hx_ : Within 0x1018000000000000000000000000000000000000000000000000000000000000000000000000000000000000000000000000 0x400 d x_) => ?rest) ?val; (case' rest => clear_value x_); (case' val => subst x_))
      | (have _t := fun y_ => x_ y_; clear _t; subst x_)
      | (have _t : Dev := x_.1; clear _t; subst x_)
      | (have _t : Dev := x_.2; clear _t; subst x_)
      | (have _t : Dev := x_; clear _t; subst x_)
      | clear_value x_)
    | (with_reducible refine Dev.showCal_w _ ?_ (by decide +kernel) (by decide +kernel))
    | (with_reducible refine Dev.showZero_w _ ?_ (by decide +kernel) (by decide +kernel))
    | (with_reducible refine Within.putBitAt ?_ _ _ _ (by decide +kernel))
    | (with_reducible refine Within.putBit ?_ _ _ (by decide +kernel))
    | (with_reducible refine Within.putAt ?_ _ _ _ (by decide +kernel))
    | (with_reducible refine Within.put ?_ _ _ (by decide +kernel))
    | (with_reducible refine Within.onAux ?_ _ (by decide +kernel))
    | (with_reducible refine Within.ite ?_ ?_)
    | (intro _ _ _)
    | split
    | dsimp only

theorem refWrite_w (sel : Nat) (d : Dev) {M P : Nat} {dz : Dev} (hd : Within M P dz d) (hm : inMask 0x1018000000000000000000000000000000000000000000000000000000000000000000000000000000000000000000000000 M = true) (hp : inMask 0x400 P = true) : Within M P dz (refWrite sel d) :=
  hd.andThen (refWrite_w0 sel d) hm hp

theorem refSettled_w0 (valid : Bool) (d : Dev) : Within 0x8000000000000000000000000000000000000000000000000000000000000000000000000000000000000000000000000 0x400 d (refSettled valid d) := by
  unfold refSettled
  repeat' first
    | (with_reducible exact Within.refl _)
    | (with_reducible assumption)
    | ((try lift_lets); intro x_; first
      | (refine (fun (hx_ : Within 0x8000000000000000000000000000000000000000000000000000000000000000000000000000000000000000000000000 0x400 d x_) => ?rest) ?val; (case' rest => clear_value x_); (case' val => subst x_))
      | (have _t := fun y_ => x_ y_; clear _t; subst x_)
      | (have _t : Dev := x_.1; clear _t; subst x_)
      | (have _t : Dev := x_.2; clear _t; subst x_)
      | (have _t : Dev := x_; clear _t; subst x_)
      | clear_value x_)
    | (with_reducible refine Within.putBitAt ?_ _ _ _ (by decide +kernel))
    | (with_reducible refine Within.putBit ?_ _ _ (by decide +kernel))
    | (with_reducible refine Within.onAux ?_ _ (by decide +kernel))
    | (with_reducible refine Within.ite ?_ ?_)
    | (intro _ _ _)
    | split
    | dsimp only

theorem refSettled_w (valid : Bool) (d : Dev) {M P : Nat} {dz : Dev} (hd : Within M P dz d) (hm : inMask 0x8000000000000000000000000000000000000000000000000000000000000000000000000000000000000000000000000 M = true) (hp : inMask 0x400 P = true) : Within M P dz (refSettled valid d) :=
  hd.andThen (refSettled_w0 valid d) hm hp

theorem Dev.auxPower_w0 (d : Dev) (on : Bool) : Within 0x8000000000000000000000000000000000000000000000000000000000000000000000000000000000000000000000000 0x400 d (Dev.auxPower d on) := by
  unfold Dev.auxPower
  repeat' first
    | (with_reducible exact Within.refl _)
    | (with_reducible assumption)
    | ((try lift_lets); intro x_; first
      | (refine (fun (hx_ : Within 0x8000000000000000000000000000000000000000000000000000000000000000000000000000000000000000000000000 0x400 d x_) => ?rest) ?val; (case' rest => clear_value x_); (case' val => subst x_))
      | (have _t := fun y_ => x_ y_; clear _t; subst x_)
      | (have _t : Dev := x_.1; clear _t; subst x_)
      | (have _t : Dev := x_.2; clear _t; subst x_)
      | (have _t : Dev := x_; clear _t; subst x_)
      | clear_value x_)
    | (with_reducible refine Within.putBitAt ?_ _ _ _ (by decide +kernel))
    | (with_reducible refine Within.putBit ?_ _ _ (by decide +kernel))
    | (with_reducible refine Within.onAux ?_ _ (by decide +kernel))
    | (with_reducible refine Within.ite ?_ ?_)
    | (intro _ _ _)
    | split
    | dsimp only

theorem Dev.auxPower_w (d : Dev) (on : Bool) {M P : Nat} {dz : Dev} (hd : Within M P dz d) (hm : inMask 0x8000000000000000000000000000000000000000000000000000000000000000000000000000000000000000000000000 M = true) (hp : inMask 0x400 P = true) : Within M P dz (Dev.auxPower d on) :=
  hd.andThen (Dev.auxPower_w0 d on) hm hp

theorem startMeas_w0 (c : Cmd) (v : Option Int) (d : Dev) : Within 0x8000000000000000140010000000000000000000000000000000000000000000000000000000000000000000000000000 0x430 d (startMeas c v d) := by
  unfold startMeas
  repeat' first
    | (with_reducible exact Within.refl _)
    | (with_reducible assumption)
    | ((try lift_lets); intro x_; first
      | (refine (fun (hx_ : Within 0x8000000000000000140010000000000000000000000000000000000000000000000000000000000000000000000000000 0x430 d x_) => ?rest) ?val; (case' rest => clear_value x_); (case' val => subst x_))
      | (have _t := fun y_ => x_ y_; clear _t; subst x_)
      | (have _t : Dev := x_.1; clear _t; subst x_)
      | (have _t : Dev := x_.2; clear _t; subst x_)
      | (have _t : Dev := x_; clear _t; subst x_)
      | clear_value x_)
    | (with_reducible refine Dev.complete_w _ _ _ _ _ ?_ (by decide +kernel) (by decide +kernel))
    | (with_reducible refine Dev.showZero_w _ ?_ (by decide +kernel) (by decide +kernel))
    | (with_reducible refine Within.putBitAt ?_ _ _ _ (by decide +kernel))
    | (with_reducible refine Within.putBit ?_ _ _ (by decide +kernel))
    | (with_reducible refine Within.onAux ?_ _ (by decide +kernel))
    | (with_reducible refine Within.ite ?_ ?_)
    | (intro _ _ _)
    | split
    | dsimp only

theorem startMeas_w (c : Cmd) (v : Option Int) (d : Dev) {M P : Nat} {dz : Dev} (hd : Within M P dz d) (hm : inMask 0x8000000000000000140010000000000000000000000000000000000000000000000000000000000000000000000000000 M = true) (hp : inMask 0x430 P = true) : Within M P dz (startMeas c v d) :=
  hd.andThen (startMeas_w0 c v d) hm hp

theorem doAuxCalZero_w0 (c : Cmd) (d : Dev) : Within 0x8000000000000000140010000000000000000000000000000000000000000000000000000000000000000000000000000 0x430 d (doAuxCalZero c d) := by
  unfold doAuxCalZero
  repeat' first
    | (with_reducible exact Within.refl _)
    | (with_reducible assumption)
    | (with_reducible refine startMeas_w _ _ _ ?_ (by decide +kernel) (by decide +kernel))
    | (with_reducible refine Within.ite ?_ ?_)
    | (intro _ _ _)
    | split
    | dsimp only

theorem doAuxCalZero_w (c : Cmd) (d : Dev) {M P : Nat} {dz : Dev} (hd : Within M P dz d) (hm : inMask 0x8000000000000000140010000000000000000000000000000000000000000000000000000000000000000000000000000 M = true) (hp : inMask 0x430 P = true) : Within M P dz (doAuxCalZero c d) :=
  hd.andThen (doAuxCalZero_w0 c d) hm hp

theorem doAuxCalFull_w0 (c : Cmd) (d : Dev) : Within 0x8000000000000000140010000000000000000000000000000000000000000000000000000000000000000000000000000 0x430 d (doAuxCalFull c d) := by
  unfold doAuxCalFull
  repeat' first
    | (with_reducible exact Within.refl _)
    | (with_reducible assumption)
    | (with_reducible refine startMeas_w _ _ _ ?_ (by decide +kernel) (by decide +kernel))
    | (with_reducible refine Within.ite ?_ ?_)
    | (intro _ _ _)
    | split
    | dsimp only

theorem doAuxCalFull_w (c : Cmd) (d : Dev) {M P : Nat} {dz : Dev} (hd : Within M P dz d) (hm : inMask 0x8000000000000000140010000000000000000000000000000000000000000000000000000000000000000000000000000 M = true) (hp : inMask 0x430 P = true) : Within M P dz (doAuxCalFull c d) :=
  hd.andThen (doAuxCalFull_w0 c d) hm hp

theorem measDone_w0 (sum : Nat) (d : Dev) : Within 0x8000000000100000140010000000000000000000000000000000000000000000000000000000000000000000000000000 0x470 d (measDone sum d) := by
  unfold measDone
  repeat' first
    | (with_reducible exact Within.refl _)
    | (with_reducible assumption)
    | ((try lift_lets); intro x_; first
      | (refine (fun (hx_ : Within 0x8000000000100000140010000000000000000000000000000000000000000000000000000000000000000000000000000 0x470 d x_) => ?rest) ?val; (case' rest => clear_value x_); (case' val => subst x_))
      | (have _t := fun y_ => x_ y_; clear _t; subst x_)
      | (have _t : Dev := x_.1; clear _t; subst x_)
      | (have _t : Dev := x_.2; clear _t; subst x_)
      | (have _t : Dev := x_; clear _t; subst x_)
      | clear_value x_)
    | (with_reducible refine Dev.keepPush_w _ _ _ ?_ (by decide +kernel) (by decide +kernel))
    | (with_reducible refine Dev.ok_w _ _ _ ?_ (by decide +kernel) (by decide +kernel))
    | (with_reducible refine Dev.completeK_w _ _ _ _ _ ?_ (by decide +kernel) (by decide +kernel))
    | (with_reducible refine Dev.showZero_w _ ?_ (by decide +kernel) (by decide +kernel))
    | (with_reducible refine Within.putBitAt ?_ _ _ _ (by decide +kernel))
    | (with_reducible refine Within.putBit ?_ _ _ (by decide +kernel))
    | (with_reducible refine Within.onAux ?_ _ (by decide +kernel))
    | (with_reducible refine Within.ite ?_ ?_)
    | (intro _ _ _)
    | split
    | dsimp only

theorem measDone_w (sum : Nat) (d : Dev) {M P : Nat} {dz : Dev} (hd : Within M P dz d) (hm : inMask 0x8000000000100000140010000000000000000000000000000000000000000000000000000000000000000000000000000 M = true) (hp : inMask 0x470 P = true) : Within M P dz (measDone sum d) :=
  hd.andThen (measDone_w0 sum d) hm hp

theorem Dev.auxDue_w0 (d : Dev) (p : Nat → Bool) : Within 0x200000000000000000000000000000000000000000000000000000000000000000000000000000000000000000000000000 0x400 d (Dev.auxDue d p) := by
  unfold Dev.auxDue
  repeat' first
    | (with_reducible exact Within.refl _)
    | (with_reducible assumption)
    | ((try lift_lets); intro x_; first
      | (refine (fun (hx_ : Within 0x200000000000000000000000000000000000000000000000000000000000000000000000000000000000000000000000000 0x400 d x_) => ?rest) ?val; (case' rest => clear_value x_); (case' val => subst x_))
      | (have _t := fun y_ => x_ y_; clear _t; subst x_)
      | (have _t : Dev := x_.1; clear _t; subst x_)
      | (have _t : Dev := x_.2; clear _t; subst x_)
      | (have _t : Dev := x_; clear _t; subst x_)
      | clear_value x_)
    | (with_reducible refine Within.addSatAt ?_ _ _ _ (by decide +kernel))
    | (with_reducible refine Within.addSat ?_ _ _ (by decide +kernel))
    | (with_reducible refine Within.onAux ?_ _ (by decide +kernel))
    | (with_reducible refine Within.ite ?_ ?_)
    | (intro _ _ _)
    | split
    | dsimp only

theorem Dev.auxDue_w (d : Dev) (p : Nat → Bool) {M P : Nat} {dz : Dev} (hd : Within M P dz d) (hm : inMask 0x200000000000000000000000000000000000000000000000000000000000000000000000000000000000000000000000000 M = true) (hp : inMask 0x400 P = true) : Within M P dz (Dev.auxDue d p) :=
  hd.andThen (Dev.auxDue_w0 d p) hm hp

theorem Dev.auxMiss_w0 (d : Dev) : Within 0x400000000000000000000000000000000000000000000000000000000000000000000000000000000000000000000000000 0x400 d (Dev.auxMiss d) := by
  unfold Dev.auxMiss
  repeat' first
    | (with_reducible exact Within.refl _)
    | (with_reducible assumption)
    | ((try lift_lets); intro x_; first
      | (refine (fun (hx_ : Within 0x400000000000000000000000000000000000000000000000000000000000000000000000000000000000000000000000000 0x400 d x_) => ?rest) ?val; (case' rest => clear_value x_); (case' val => subst x_))
      | (have _t := fun y_ => x_ y_; clear _t; subst x_)
      | (have _t : Dev := x_.1; clear _t; subst x_)
      | (have _t : Dev := x_.2; clear _t; subst x_)
      | (have _t : Dev := x_; clear _t; subst x_)
      | clear_value x_)
    | (with_reducible refine Within.addSatAt ?_ _ _ _ (by decide +kernel))
    | (with_reducible refine Within.addSat ?_ _ _ (by decide +kernel))
    | (with_reducible refine Within.onAux ?_ _ (by decide +kernel))
    | (with_reducible refine Within.ite ?_ ?_)
    | (intro _ _ _)
    | split
    | dsimp only

theorem Dev.auxMiss_w (d : Dev) {M P : Nat} {dz : Dev} (hd : Within M P dz d) (hm : inMask 0x400000000000000000000000000000000000000000000000000000000000000000000000000000000000000000000000000 M = true) (hp : inMask 0x400 P = true) : Within M P dz (Dev.auxMiss d) :=
  hd.andThen (Dev.auxMiss_w0 d) hm hp

theorem Dev.auxStart_w0 (d : Dev) : Within 0x400000000000000000000000000000000000000000000000000000000000000000000000000000000000000000000000000 0x400 d (Dev.auxStart d) := by
  unfold Dev.auxStart
  repeat' first
    | (with_reducible exact Within.refl _)
    | (with_reducible assumption)
    | ((try lift_lets); intro x_; first
      | (refine (fun (hx_ : Within 0x400000000000000000000000000000000000000000000000000000000000000000000000000000000000000000000000000 0x400 d x_) => ?rest) ?val; (case' rest => clear_value x_); (case' val => subst x_))
      | (have _t := fun y_ => x_ y_; clear _t; subst x_)
      | (have _t : Dev := x_.1; clear _t; subst x_)
      | (have _t : Dev := x_.2; clear _t; subst x_)
      | (have _t : Dev := x_; clear _t; subst x_)
      | clear_value x_)
    | (with_reducible refine Dev.auxMiss_w _ ?_ (by decide +kernel) (by decide +kernel))
    | (with_reducible refine Within.onAux ?_ _ (by decide +kernel))
    | (with_reducible refine Within.ite ?_ ?_)
    | (intro _ _ _)
    | split
    | dsimp only

theorem Dev.auxStart_w (d : Dev) {M P : Nat} {dz : Dev} (hd : Within M P dz d) (hm : inMask 0x400000000000000000000000000000000000000000000000000000000000000000000000000000000000000000000000000 M = true) (hp : inMask 0x400 P = true) : Within M P dz (Dev.auxStart d) :=
  hd.andThen (Dev.auxStart_w0 d) hm hp

theorem auxRound_w0 (d : Dev) : Within 0x640000000000000000140010000000000000000000000000000000000000000000000000000000000000000000000000000 0x430 d (auxRound d) := by
  unfold auxRound
  repeat' first
    | (with_reducible exact Within.refl _)
    | (with_reducible assumption)
    | ((try lift_lets); intro x_; first
      | (refine (fun (hx_ : Within 0x640000000000000000140010000000000000000000000000000000000000000000000000000000000000000000000000000 0x430 d x_) => ?rest) ?val; (case' rest => clear_value x_); (case' val => subst x_))
      | (have _t := fun y_ => x_ y_; clear _t; subst x_)
      | (have _t : Dev := x_.1; clear _t; subst x_)
      | (have _t : Dev := x_.2; clear _t; subst x_)
      | (have _t : Dev := x_; clear _t; subst x_)
      | clear_value x_)
    | (with_reducible refine Dev.ok_w _ _ _ ?_ (by decide +kernel) (by decide +kernel))
    | (with_reducible refine Dev.completeAll_w _ _ _ _ _ ?_ (by decide +kernel) (by decide +kernel))
    | (with_reducible refine Dev.auxDue_w _ _ ?_ (by decide +kernel) (by decide +kernel))
    | (with_reducible refine Dev.auxStart_w _ ?_ (by decide +kernel) (by decide +kernel))
    | (with_reducible refine Within.putAt ?_ _ _ _ (by decide +kernel))
    | (with_reducible refine Within.put ?_ _ _ (by decide +kernel))
    | (with_reducible refine Within.onAux ?_ _ (by decide +kernel))
    | (with_reducible refine Within.ite ?_ ?_)
    | (intro _ _ _)
    | split
    | dsimp only

theorem auxRound_w (d : Dev) {M P : Nat} {dz : Dev} (hd : Within M P dz d) (hm : inMask 0x640000000000000000140010000000000000000000000000000000000000000000000000000000000000000000000000000 M = true) (hp : inMask 0x430 P = true) : Within M P dz (auxRound d) :=
  hd.andThen (auxRound_w0 d) hm hp

theorem Dev.closeAuxRec_w0 (d : Dev) : Within 0 0x410 d (Dev.closeAuxRec d) := by
  unfold Dev.closeAuxRec
  repeat' first
    | (with_reducible exact Within.refl _)
    | (with_reducible assumption)
    | ((try lift_lets); intro x_; first
      | (refine (fun (hx_ : Within 0 0x410 d x_) => ?rest) ?val; (case' rest => clear_value x_); (case' val => subst x_))
      | (have _t := fun y_ => x_ y_; clear _t; subst x_)
      | (have _t : Dev := x_.1; clear _t; subst x_)
      | (have _t : Dev := x_.2; clear _t; subst x_)
      | (have _t : Dev := x_; clear _t; subst x_)
      | clear_value x_)
    | (with_reducible refine Dev.formRec_w _ _ _ _ ?_ (by decide +kernel) (by decide +kernel))
    | (with_reducible refine Within.onAux ?_ _ (by decide +kernel))
    | (with_reducible refine Within.ite ?_ ?_)
    | (intro _ _ _)
    | split
    | dsimp only

theorem Dev.closeAuxRec_w (d : Dev) {M P : Nat} {dz : Dev} (hd : Within M P dz d) (hm : inMask 0 M = true) (hp : inMask 0x410 P = true) : Within M P dz (Dev.closeAuxRec d) :=
  hd.andThen (Dev.closeAuxRec_w0 d) hm hp

theorem Dev.auxToRing_w0 (d : Dev) (r : AuxRec) : Within 0 0x410 d (Dev.auxToRing d r) := by
  unfold Dev.auxToRing
  repeat' first
    | (with_reducible exact Within.refl _)
    | (with_reducible assumption)
    | ((try lift_lets); intro x_; first
      | (refine (fun (hx_ : Within 0 0x410 d x_) => ?rest) ?val; (case' rest => clear_value x_); (case' val => subst x_))
      | (have _t := fun y_ => x_ y_; clear _t; subst x_)
      | (have _t : Dev := x_.1; clear _t; subst x_)
      | (have _t : Dev := x_.2; clear _t; subst x_)
      | (have _t : Dev := x_; clear _t; subst x_)
      | clear_value x_)
    | (with_reducible refine Dev.closeAuxRec_w _ ?_ (by decide +kernel) (by decide +kernel))
    | (with_reducible refine Within.onAux ?_ _ (by decide +kernel))
    | (with_reducible refine Within.ite ?_ ?_)
    | (intro _ _ _)
    | split
    | dsimp only

theorem Dev.auxToRing_w (d : Dev) (r : AuxRec) {M P : Nat} {dz : Dev} (hd : Within M P dz d) (hm : inMask 0 M = true) (hp : inMask 0x410 P = true) : Within M P dz (Dev.auxToRing d r) :=
  hd.andThen (Dev.auxToRing_w0 d r) hm hp

theorem Dev.auxFeed_w0 (d : Dev) (ch : Nat) (g : Nat) (v : Int) (trip : Bool) : Within 0x8000080B80100000000000000000000000000000000000000000000000000A000008400000000000010000C0000200000 0x324BD0 d (Dev.auxFeed d ch g v trip) := by
  unfold Dev.auxFeed
  repeat' first
    | (with_reducible exact Within.refl _)
    | (with_reducible assumption)
    | ((try lift_lets); intro x_; first
      | (refine (fun (hx_ : Within 0x8000080B80100000000000000000000000000000000000000000000000000A000008400000000000010000C0000200000 0x324BD0 d x_) => ?rest) ?val; (case' rest => clear_value x_); (case' val => subst x_))
      | (have _t := fun y_ => x_ y_; clear _t; subst x_)
      | (have _t : Dev := x_.1; clear _t; subst x_)
      | (have _t : Dev := x_.2; clear _t; subst x_)
      | (have _t : Dev := x_; clear _t; subst x_)
      | clear_value x_)
    | (with_reducible refine Dev.shutterFault_w _ ?_ (by decide +kernel) (by decide +kernel))
    | (with_reducible refine Within.putBitAt ?_ _ _ _ (by decide +kernel))
    | (with_reducible refine Within.putBit ?_ _ _ (by decide +kernel))
    | (with_reducible refine Within.putAt ?_ _ _ _ (by decide +kernel))
    | (with_reducible refine Within.put ?_ _ _ (by decide +kernel))
    | (with_reducible refine Within.onStage ?_ _ (by decide +kernel))
    | (with_reducible refine Within.ite ?_ ?_)
    | (intro _ _ _)
    | split
    | dsimp only

theorem Dev.auxFeed_w (d : Dev) (ch : Nat) (g : Nat) (v : Int) (trip : Bool) {M P : Nat} {dz : Dev} (hd : Within M P dz d) (hm : inMask 0x8000080B80100000000000000000000000000000000000000000000000000A000008400000000000010000C0000200000 M = true) (hp : inMask 0x324BD0 P = true) : Within M P dz (Dev.auxFeed d ch g v trip) :=
  hd.andThen (Dev.auxFeed_w0 d ch g v trip) hm hp

theorem Dev.bladeReading_w0 (d : Dev) (ch : Nat) (v : Int) (cal : Bool) (hold : Nat) : Within 0 0x20000 d (Dev.bladeReading d ch v cal hold) := by
  unfold Dev.bladeReading
  repeat' first
    | (with_reducible exact Within.refl _)
    | (with_reducible assumption)
    | ((try lift_lets); intro x_; first
      | (refine (fun (hx_ : Within 0 0x20000 d x_) => ?rest) ?val; (case' rest => clear_value x_); (case' val => subst x_))
      | (have _t := fun y_ => x_ y_; clear _t; subst x_)
      | (have _t : Dev := x_.1; clear _t; subst x_)
      | (have _t : Dev := x_.2; clear _t; subst x_)
      | (have _t : Dev := x_; clear _t; subst x_)
      | clear_value x_)
    | (with_reducible refine Within.onProof ?_ _ (by decide +kernel))
    | (with_reducible refine Within.ite ?_ ?_)
    | (intro _ _ _)
    | split
    | dsimp only

theorem Dev.bladeReading_w (d : Dev) (ch : Nat) (v : Int) (cal : Bool) (hold : Nat) {M P : Nat} {dz : Dev} (hd : Within M P dz d) (hm : inMask 0 M = true) (hp : inMask 0x20000 P = true) : Within M P dz (Dev.bladeReading d ch v cal hold) :=
  hd.andThen (Dev.bladeReading_w0 d ch v cal hold) hm hp

theorem Dev.auxTrip_w0 (d : Dev) (n : Nat) (ch : Nat) (v : Int) : Within 0x100000080B80100000000000000000000000000000000000000000000000000000000000000000000000000000000000000 0xD0 d (Dev.auxTrip d n ch v) := by
  unfold Dev.auxTrip
  repeat' first
    | (with_reducible exact Within.refl _)
    | (with_reducible assumption)
    | ((try lift_lets); intro x_; first
      | (refine (fun (hx_ : Within 0x100000080B80100000000000000000000000000000000000000000000000000000000000000000000000000000000000000 0xD0 d x_) => ?rest) ?val; (case' rest => clear_value x_); (case' val => subst x_))
      | (have _t := fun y_ => x_ y_; clear _t; subst x_)
      | (have _t : Dev := x_.1; clear _t; subst x_)
      | (have _t : Dev := x_.2; clear _t; subst x_)
      | (have _t : Dev := x_; clear _t; subst x_)
      | clear_value x_)
    | (with_reducible refine Dev.event_w _ _ _ ?_ (by decide +kernel) (by decide +kernel))
    | (with_reducible refine Within.putAt ?_ _ _ _ (by decide +kernel))
    | (with_reducible refine Within.put ?_ _ _ (by decide +kernel))
    | (with_reducible refine Within.tieBits ?_ _ _)
    | (with_reducible refine Within.ite ?_ ?_)
    | (intro _ _ _)
    | split
    | dsimp only

theorem Dev.auxTrip_w (d : Dev) (n : Nat) (ch : Nat) (v : Int) {M P : Nat} {dz : Dev} (hd : Within M P dz d) (hm : inMask 0x100000080B80100000000000000000000000000000000000000000000000000000000000000000000000000000000000000 M = true) (hp : inMask 0xD0 P = true) : Within M P dz (Dev.auxTrip d n ch v) :=
  hd.andThen (Dev.auxTrip_w0 d n ch v) hm hp

theorem auxResult_w0 (n : Nat) (sum : Nat) (d : Dev) : Within 0x30508000080B80100000000000000000000000000000000000000000000000000A000008400000000000010000C0000200000 0x324FD0 d (auxResult n sum d) := by
  unfold auxResult
  repeat' first
    | (with_reducible exact Within.refl _)
    | (with_reducible assumption)
    | ((try lift_lets); intro x_; first
      | (refine (fun (hx_ : Within 0x30508000080B80100000000000000000000000000000000000000000000000000A000008400000000000010000C0000200000 0x324FD0 d x_) => ?rest) ?val; (case' rest => clear_value x_); (case' val => subst x_))
      | (have _t := fun y_ => x_ y_; clear _t; subst x_)
      | (have _t : Dev := x_.1; clear _t; subst x_)
      | (have _t : Dev := x_.2; clear _t; subst x_)
      | (have _t : Dev := x_; clear _t; subst x_)
      | clear_value x_)
    | (with_reducible refine Dev.auxStart_w _ ?_ (by decide +kernel) (by decide +kernel))
    | (with_reducible refine Dev.auxToRing_w _ _ ?_ (by decide +kernel) (by decide +kernel))
    | (with_reducible refine Dev.auxFeed_w _ _ _ _ _ ?_ (by decide +kernel) (by decide +kernel))
    | (with_reducible refine Dev.bladeReading_w _ _ _ _ _ ?_ (by decide +kernel) (by decide +kernel))
    | (with_reducible refine Dev.auxTrip_w _ _ _ _ ?_ (by decide +kernel) (by decide +kernel))
    | (with_reducible refine Within.putBitAt ?_ _ _ _ (by decide +kernel))
    | (with_reducible refine Within.putBit ?_ _ _ (by decide +kernel))
    | (with_reducible refine Within.putIAt ?_ _ _ _ (by decide +kernel))
    | (with_reducible refine Within.putI ?_ _ _ (by decide +kernel))
    | (with_reducible refine Within.putAt ?_ _ _ _ (by decide +kernel))
    | (with_reducible refine Within.put ?_ _ _ (by decide +kernel))
    | (with_reducible refine Within.incWrapAt ?_ _ _ (by decide +kernel))
    | (with_reducible refine Within.incWrap ?_ _ (by decide +kernel))
    | (with_reducible refine Within.onAux ?_ _ (by decide +kernel))
    | (with_reducible refine Within.ite ?_ ?_)
    | (intro _ _ _)
    | split
    | dsimp only

theorem auxResult_w (n : Nat) (sum : Nat) (d : Dev) {M P : Nat} {dz : Dev} (hd : Within M P dz d) (hm : inMask 0x30508000080B80100000000000000000000000000000000000000000000000000A000008400000000000010000C0000200000 M = true) (hp : inMask 0x324FD0 P = true) : Within M P dz (auxResult n sum d) :=
  hd.andThen (auxResult_w0 n sum d) hm hp

theorem auxRecordClose_w0 (d : Dev) : Within 0 0x410 d (auxRecordClose d) := by
  unfold auxRecordClose
  repeat' first
    | (with_reducible exact Within.refl _)
    | (with_reducible assumption)
    | (with_reducible refine Dev.closeAuxRec_w _ ?_ (by decide +kernel) (by decide +kernel))
    | (with_reducible refine Within.ite ?_ ?_)
    | (intro _ _ _)
    | split
    | dsimp only

theorem auxRecordClose_w (d : Dev) {M P : Nat} {dz : Dev} (hd : Within M P dz d) (hm : inMask 0 M = true) (hp : inMask 0x410 P = true) : Within M P dz (auxRecordClose d) :=
  hd.andThen (auxRecordClose_w0 d) hm hp

theorem Dev.showAlarm_w0 (d : Dev) : Within 0x1000000000000000000000000000000000000000000000000000 0 d (Dev.showAlarm d) := by
  unfold Dev.showAlarm
  repeat' first
    | (with_reducible exact Within.refl _)
    | (with_reducible assumption)
    | (with_reducible refine Within.putAt ?_ _ _ _ (by decide +kernel))
    | (with_reducible refine Within.put ?_ _ _ (by decide +kernel))
    | (with_reducible refine Within.ite ?_ ?_)
    | (intro _ _ _)
    | split
    | dsimp only

theorem Dev.showAlarm_w (d : Dev) {M P : Nat} {dz : Dev} (hd : Within M P dz d) (hm : inMask 0x1000000000000000000000000000000000000000000000000000 M = true) (hp : inMask 0 P = true) : Within M P dz (Dev.showAlarm d) :=
  hd.andThen (Dev.showAlarm_w0 d) hm hp

theorem Dev.alarmEval_w0 (d : Dev) : Within 0x1000000000000000000000000000000000000000000000000000 0x10000 d (Dev.alarmEval d) := by
  unfold Dev.alarmEval
  repeat' first
    | (with_reducible exact Within.refl _)
    | (with_reducible assumption)
    | ((try lift_lets); intro x_; first
      | (refine (fun (hx_ : Within 0x1000000000000000000000000000000000000000000000000000 0x10000 d x_) => ?rest) ?val; (case' rest => clear_value x_); (case' val => subst x_))
      | (have _t := fun y_ => x_ y_; clear _t; subst x_)
      | (have _t : Dev := x_.1; clear _t; subst x_)
      | (have _t : Dev := x_.2; clear _t; subst x_)
      | (have _t : Dev := x_; clear _t; subst x_)
      | clear_value x_)
    | (with_reducible refine Dev.showAlarm_w _ ?_ (by decide +kernel) (by decide +kernel))
    | (with_reducible refine Within.onAlarm ?_ _ (by decide +kernel))
    | (with_reducible refine Within.ite ?_ ?_)
    | (intro _ _ _)
    | split
    | dsimp only

theorem Dev.alarmEval_w (d : Dev) {M P : Nat} {dz : Dev} (hd : Within M P dz d) (hm : inMask 0x1000000000000000000000000000000000000000000000000000 M = true) (hp : inMask 0x10000 P = true) : Within M P dz (Dev.alarmEval d) :=
  hd.andThen (Dev.alarmEval_w0 d) hm hp

theorem Dev.alarmRetire_w0 (d : Dev) : Within 0x1000000000000000000000000000000000000000000000000000 0x10000 d (Dev.alarmRetire d) := by
  unfold Dev.alarmRetire
  repeat' first
    | (with_reducible exact Within.refl _)
    | (with_reducible assumption)
    | ((try lift_lets); intro x_; first
      | (refine (fun (hx_ : Within 0x1000000000000000000000000000000000000000000000000000 0x10000 d x_) => ?rest) ?val; (case' rest => clear_value x_); (case' val => subst x_))
      | (have _t := fun y_ => x_ y_; clear _t; subst x_)
      | (have _t : Dev := x_.1; clear _t; subst x_)
      | (have _t : Dev := x_.2; clear _t; subst x_)
      | (have _t : Dev := x_; clear _t; subst x_)
      | clear_value x_)
    | (with_reducible refine Dev.alarmEval_w _ ?_ (by decide +kernel) (by decide +kernel))
    | (with_reducible refine Within.onAlarm ?_ _ (by decide +kernel))
    | (with_reducible refine Within.ite ?_ ?_)
    | (intro _ _ _)
    | split
    | dsimp only

theorem Dev.alarmRetire_w (d : Dev) {M P : Nat} {dz : Dev} (hd : Within M P dz d) (hm : inMask 0x1000000000000000000000000000000000000000000000000000 M = true) (hp : inMask 0x10000 P = true) : Within M P dz (Dev.alarmRetire d) :=
  hd.andThen (Dev.alarmRetire_w0 d) hm hp

theorem Dev.alarmQueue_w0 (d : Dev) (r : Rule) (a : Nat) (e : Nat) : Within 0xE000000000000000000000000000000000000000000000000000 0x10000 d (Dev.alarmQueue d r a e) := by
  unfold Dev.alarmQueue
  repeat' first
    | (with_reducible exact Within.refl _)
    | (with_reducible assumption)
    | ((try lift_lets); intro x_; first
      | (refine (fun (hx_ : Within 0xE000000000000000000000000000000000000000000000000000 0x10000 d x_) => ?rest) ?val; (case' rest => clear_value x_); (case' val => subst x_))
      | (have _t := fun y_ => x_ y_; clear _t; subst x_)
      | (have _t : Dev := x_.1; clear _t; subst x_)
      | (have _t : Dev := x_.2; clear _t; subst x_)
      | (have _t : Dev := x_; clear _t; subst x_)
      | clear_value x_)
    | (with_reducible refine Within.incAt ?_ _ _ (by decide +kernel))
    | (with_reducible refine Within.inc ?_ _ (by decide +kernel))
    | (with_reducible refine Within.onAlarm ?_ _ (by decide +kernel))
    | (with_reducible refine Within.ite ?_ ?_)
    | (intro _ _ _)
    | split
    | dsimp only

theorem Dev.alarmQueue_w (d : Dev) (r : Rule) (a : Nat) (e : Nat) {M P : Nat} {dz : Dev} (hd : Within M P dz d) (hm : inMask 0xE000000000000000000000000000000000000000000000000000 M = true) (hp : inMask 0x10000 P = true) : Within M P dz (Dev.alarmQueue d r a e) :=
  hd.andThen (Dev.alarmQueue_w0 d r a e) hm hp

theorem Dev.ruleLine_w0 (d : Dev) (l : EmLine) (hit : Bool) (k : Nat) (r : Rule) : Within 0xE000000000000000000000000000000000000000000000000000 0x10000 d (Dev.ruleLine d l hit k r) := by
  unfold Dev.ruleLine
  repeat' first
    | (with_reducible exact Within.refl _)
    | (with_reducible assumption)
    | ((try lift_lets); intro x_; first
      | (refine (fun (hx_ : Within 0xE000000000000000000000000000000000000000000000000000 0x10000 d x_) => ?rest) ?val; (case' rest => clear_value x_); (case' val => subst x_))
      | (have _t := fun y_ => x_ y_; clear _t; subst x_)
      | (have _t : Dev := x_.1; clear _t; subst x_)
      | (have _t : Dev := x_.2; clear _t; subst x_)
      | (have _t : Dev := x_; clear _t; subst x_)
      | clear_value x_)
    | (with_reducible refine Dev.alarmQueue_w _ _ _ _ ?_ (by decide +kernel) (by decide +kernel))
    | (with_reducible refine Within.onAlarm ?_ _ (by decide +kernel))
    | (with_reducible refine Within.ite ?_ ?_)
    | (intro _ _ _)
    | split
    | dsimp only

theorem Dev.ruleLine_w (d : Dev) (l : EmLine) (hit : Bool) (k : Nat) (r : Rule) {M P : Nat} {dz : Dev} (hd : Within M P dz d) (hm : inMask 0xE000000000000000000000000000000000000000000000000000 M = true) (hp : inMask 0x10000 P = true) : Within M P dz (Dev.ruleLine d l hit k r) :=
  hd.andThen (Dev.ruleLine_w0 d l hit k r) hm hp

theorem Dev.alarmLine_w0 (d : Dev) (l : EmLine) (xs : Nat → Int) : Within 0xF000000000000000000000000000000000000000000000000000 0x10000 d (Dev.alarmLine d l xs) := by
  unfold Dev.alarmLine
  repeat' first
    | (with_reducible exact Within.refl _)
    | (with_reducible assumption)
    | ((try lift_lets); intro x_; first
      | (refine (fun (hx_ : Within 0xF000000000000000000000000000000000000000000000000000 0x10000 d x_) => ?rest) ?val; (case' rest => clear_value x_); (case' val => subst x_))
      | (have _t := fun y_ => x_ y_; clear _t; subst x_)
      | (have _t : Dev := x_.1; clear _t; subst x_)
      | (have _t : Dev := x_.2; clear _t; subst x_)
      | (have _t : Dev := x_; clear _t; subst x_)
      | clear_value x_)
    | (with_reducible refine Dev.alarmEval_w _ ?_ (by decide +kernel) (by decide +kernel))
    | (with_reducible refine Dev.ruleLine_w _ _ _ _ _ ?_ (by decide +kernel) (by decide +kernel))
    | (with_reducible refine Within.onAlarm ?_ _ (by decide +kernel))
    | (with_reducible refine Within.foldl ?_ _ _ ?_)
    | (with_reducible refine Within.ite ?_ ?_)
    | (intro _ _ _)
    | split
    | dsimp only

theorem Dev.alarmLine_w (d : Dev) (l : EmLine) (xs : Nat → Int) {M P : Nat} {dz : Dev} (hd : Within M P dz d) (hm : inMask 0xF000000000000000000000000000000000000000000000000000 M = true) (hp : inMask 0x10000 P = true) : Within M P dz (Dev.alarmLine d l xs) :=
  hd.andThen (Dev.alarmLine_w0 d l xs) hm hp

theorem alarmPulseEnd_w0 (n : Nat) (d : Dev) : Within 0x1000000000000000000000000000000000000000000000000000 0x10000 d (alarmPulseEnd n d) := by
  unfold alarmPulseEnd
  repeat' first
    | (with_reducible exact Within.refl _)
    | (with_reducible assumption)
    | (with_reducible refine Dev.showAlarm_w _ ?_ (by decide +kernel) (by decide +kernel))
    | (with_reducible refine Within.onAlarm ?_ _ (by decide +kernel))
    | (with_reducible refine Within.ite ?_ ?_)
    | (intro _ _ _)
    | split
    | dsimp only

theorem alarmPulseEnd_w (n : Nat) (d : Dev) {M P : Nat} {dz : Dev} (hd : Within M P dz d) (hm : inMask 0x1000000000000000000000000000000000000000000000000000 M = true) (hp : inMask 0x10000 P = true) : Within M P dz (alarmPulseEnd n d) :=
  hd.andThen (alarmPulseEnd_w0 n d) hm hp

theorem Dev.putChan_w0 (d : Dev) (x : ChanSt) : Within 0 0x200000 d (Dev.putChan d x) := by
  unfold Dev.putChan
  repeat' first
    | (with_reducible exact Within.refl _)
    | (with_reducible assumption)
    | (with_reducible refine Within.onStand ?_ _ (by decide +kernel))
    | (with_reducible refine Within.ite ?_ ?_)
    | (intro _ _ _)
    | split
    | dsimp only

theorem Dev.putChan_w (d : Dev) (x : ChanSt) {M P : Nat} {dz : Dev} (hd : Within M P dz d) (hm : inMask 0 M = true) (hp : inMask 0x200000 P = true) : Within M P dz (Dev.putChan d x) :=
  hd.andThen (Dev.putChan_w0 d x) hm hp

theorem Dev.stripRing_w0 (d : Dev) (c : Nat) (e : Dev) (x_ : Nat) (h : Dev.stripRing d c = (x_, e)) : Within 0 0x10 d e := by
  unfold Dev.stripRing at h
  try dsimp only at h
  repeat' split at h
  all_goals (first | cases h | (injection h with h h'; subst h) | (injection h with h; subst h) | skip)
  all_goals try dsimp only
  all_goals (
    repeat' first
      | (with_reducible exact Within.refl _)
      | (with_reducible assumption)
      | ((try lift_lets); intro x_; first
        | (refine (fun (hx_ : Within 0 0x10 d x_) => ?rest) ?val; (case' rest => clear_value x_); (case' val => subst x_))
        | (have _t := fun y_ => x_ y_; clear _t; subst x_)
        | (have _t : Dev := x_.1; clear _t; subst x_)
        | (have _t : Dev := x_.2; clear _t; subst x_)
        | (have _t : Dev := x_; clear _t; subst x_)
        | clear_value x_)
      | (with_reducible refine Within.onHost ?_ _ (by decide +kernel))
      | (with_reducible refine Within.ite ?_ ?_)
      | (intro _ _ _)
      | split
      | dsimp only)

theorem Dev.stripRing_w (d : Dev) (c : Nat) (e : Dev) (x_ : Nat) (h : Dev.stripRing d c = (x_, e)) {M P : Nat} {dz : Dev} (hd : Within M P dz d) (hm : inMask 0 M = true) (hp : inMask 0x10 P = true) : Within M P dz e :=
  hd.andThen (Dev.stripRing_w0 d c _ _ h) hm hp

theorem Dev.stripRing_w2 (d : Dev) (c : Nat) {M P : Nat} {dz : Dev} (hd : Within M P dz d) (hm : inMask 0 M = true) (hp : inMask 0x10 P = true) : Within M P dz (Dev.stripRing d c).2 :=
  Dev.stripRing_w d c _ _ rfl hd hm hp

theorem Dev.closeRec_w0 (d : Dev) (c : Nat) : Within 0 0x200014 d (Dev.closeRec d c) := by
  unfold Dev.closeRec
  repeat' first
    | (with_reducible exact Within.refl _)
    | (with_reducible assumption)
    | ((try lift_lets); intro x_; first
      | (refine (fun (hx_ : Within 0 0x200014 d x_) => ?rest) ?val; (case' rest => clear_value x_); (case' val => subst x_))
      | (have _t := fun y_ => x_ y_; clear _t; subst x_)
      | (have _t : Dev := x_.1; clear _t; subst x_)
      | (have _t : Dev := x_.2; clear _t; subst x_)
      | (have _t : Dev := x_; clear _t; subst x_)
      | clear_value x_)
    | (with_reducible refine Dev.formRec_w _ _ _ _ ?_ (by decide +kernel) (by decide +kernel))
    | (with_reducible refine Dev.putChan_w _ _ ?_ (by decide +kernel) (by decide +kernel))
    | (with_reducible refine Within.onStand ?_ _ (by decide +kernel))
    | (with_reducible refine Within.fresh ?_ (by decide +kernel))
    | (with_reducible refine Dev.stripRing_w2 _ _ ?_ (by decide +kernel) (by decide +kernel))
    | (with_reducible refine Dev.stripRing_w _ _ _ _ (by assumption) ?_ (by decide +kernel) (by decide +kernel))
    | (with_reducible refine Within.ite ?_ ?_)
    | (intro _ _ _)
    | split
    | dsimp only

theorem Dev.closeRec_w (d : Dev) (c : Nat) {M P : Nat} {dz : Dev} (hd : Within M P dz d) (hm : inMask 0 M = true) (hp : inMask 0x200014 P = true) : Within M P dz (Dev.closeRec d c) :=
  hd.andThen (Dev.closeRec_w0 d c) hm hp

theorem Dev.recLine_w0 (d : Dev) (l : EmLine) : Within 0 0x200014 d (Dev.recLine d l) := by
  unfold Dev.recLine
  repeat' first
    | (with_reducible exact Within.refl _)
    | (with_reducible assumption)
    | ((try lift_lets); intro x_; first
      | (refine (fun (hx_ : Within 0 0x200014 d x_) => ?rest) ?val; (case' rest => clear_value x_); (case' val => subst x_))
      | (have _t := fun y_ => x_ y_; clear _t; subst x_)
      | (have _t : Dev := x_.1; clear _t; subst x_)
      | (have _t : Dev := x_.2; clear _t; subst x_)
      | (have _t : Dev := x_; clear _t; subst x_)
      | clear_value x_)
    | (with_reducible refine Dev.closeRec_w _ _ ?_ (by decide +kernel) (by decide +kernel))
    | (with_reducible refine Within.onStand ?_ _ (by decide +kernel))
    | (with_reducible refine Within.ite ?_ ?_)
    | (intro _ _ _)
    | split
    | dsimp only

theorem Dev.recLine_w (d : Dev) (l : EmLine) {M P : Nat} {dz : Dev} (hd : Within M P dz d) (hm : inMask 0 M = true) (hp : inMask 0x200014 P = true) : Within M P dz (Dev.recLine d l) :=
  hd.andThen (Dev.recLine_w0 d l) hm hp

theorem recordTimeout_w0 (d : Dev) : Within 0 0x200014 d (recordTimeout d) := by
  unfold recordTimeout
  repeat' first
    | (with_reducible exact Within.refl _)
    | (with_reducible assumption)
    | (with_reducible refine Dev.closeRec_w _ _ ?_ (by decide +kernel) (by decide +kernel))
    | (with_reducible refine Within.foldl ?_ _ _ ?_)
    | (with_reducible refine Within.ite ?_ ?_)
    | (intro _ _ _)
    | split
    | dsimp only

theorem recordTimeout_w (d : Dev) {M P : Nat} {dz : Dev} (hd : Within M P dz d) (hm : inMask 0 M = true) (hp : inMask 0x200014 P = true) : Within M P dz (recordTimeout d) :=
  hd.andThen (recordTimeout_w0 d) hm hp

theorem Dev.emitDelay_w0 (d : Dev) (c : Nat) (due : Nat) : Within 0x1800080B80100000000000000000000000000000000000000000000000000000000000000000000000000000000000000 0xD0 d (Dev.emitDelay d c due) := by
  unfold Dev.emitDelay
  repeat' first
    | (with_reducible exact Within.refl _)
    | (with_reducible assumption)
    | ((try lift_lets); intro x_; first
      | (refine (fun (hx_ : Within 0x1800080B80100000000000000000000000000000000000000000000000000000000000000000000000000000000000000 0xD0 d x_) => ?rest) ?val; (case' rest => clear_value x_); (case' val => subst x_))
      | (have _t := fun y_ => x_ y_; clear _t; subst x_)
      | (have _t : Dev := x_.1; clear _t; subst x_)
      | (have _t : Dev := x_.2; clear _t; subst x_)
      | (have _t : Dev := x_; clear _t; subst x_)
      | clear_value x_)
    | (with_reducible refine Dev.event_w _ _ _ ?_ (by decide +kernel) (by decide +kernel))
    | (with_reducible refine Within.putAt ?_ _ _ _ (by decide +kernel))
    | (with_reducible refine Within.put ?_ _ _ (by decide +kernel))
    | (with_reducible refine Within.incAt ?_ _ _ (by decide +kernel))
    | (with_reducible refine Within.inc ?_ _ (by decide +kernel))
    | (with_reducible refine Within.ite ?_ ?_)
    | (intro _ _ _)
    | split
    | dsimp only

theorem Dev.emitDelay_w (d : Dev) (c : Nat) (due : Nat) {M P : Nat} {dz : Dev} (hd : Within M P dz d) (hm : inMask 0x1800080B80100000000000000000000000000000000000000000000000000000000000000000000000000000000000000 M = true) (hp : inMask 0xD0 P = true) : Within M P dz (Dev.emitDelay d c due) :=
  hd.andThen (Dev.emitDelay_w0 d c due) hm hp

theorem Dev.deliverLine_w0 (d : Dev) (l : EmLine) (xs : Nat → Int) (due : Nat) : Within 0x1800080B8010080200000000000000000000000000000F000000000000000000000000000000000000000000000000000 0x2180D4 d (Dev.deliverLine d l xs due) := by
  unfold Dev.deliverLine
  repeat' first
    | (with_reducible exact Within.refl _)
    | (with_reducible assumption)
    | ((try lift_lets); intro x_; first
      | (refine (fun (hx_ : Within 0x1800080B8010080200000000000000000000000000000F000000000000000000000000000000000000000000000000000 0x2180D4 d x_) => ?rest) ?val; (case' rest => clear_value x_); (case' val => subst x_))
      | (have _t := fun y_ => x_ y_; clear _t; subst x_)
      | (have _t : Dev := x_.1; clear _t; subst x_)
      | (have _t : Dev := x_.2; clear _t; subst x_)
      | (have _t : Dev := x_; clear _t; subst x_)
      | clear_value x_)
    | (with_reducible refine Dev.statLine_w _ _ _ ?_ (by decide +kernel) (by decide +kernel))
    | (with_reducible refine Dev.alarmLine_w _ _ _ ?_ (by decide +kernel) (by decide +kernel))
    | (with_reducible refine Dev.putChan_w _ _ ?_ (by decide +kernel) (by decide +kernel))
    | (with_reducible refine Dev.recLine_w _ _ ?_ (by decide +kernel) (by decide +kernel))
    | (with_reducible refine Dev.emitDelay_w _ _ _ ?_ (by decide +kernel) (by decide +kernel))
    | (with_reducible refine Within.ite ?_ ?_)
    | (intro _ _ _)
    | split
    | dsimp only

theorem Dev.deliverLine_w (d : Dev) (l : EmLine) (xs : Nat → Int) (due : Nat) {M P : Nat} {dz : Dev} (hd : Within M P dz d) (hm : inMask 0x1800080B8010080200000000000000000000000000000F000000000000000000000000000000000000000000000000000 M = true) (hp : inMask 0x2180D4 P = true) : Within M P dz (Dev.deliverLine d l xs due) :=
  hd.andThen (Dev.deliverLine_w0 d l xs due) hm hp

theorem Dev.toParent_w0 (d : Dev) (q : ParentSt) (sg : Segment) : Within 0 0x300000 d (Dev.toParent d q sg) := by
  unfold Dev.toParent
  repeat' first
    | (with_reducible exact Within.refl _)
    | (with_reducible assumption)
    | ((try lift_lets); intro x_; first
      | (refine (fun (hx_ : Within 0 0x300000 d x_) => ?rest) ?val; (case' rest => clear_value x_); (case' val => subst x_))
      | (have _t := fun y_ => x_ y_; clear _t; subst x_)
      | (have _t : Dev := x_.1; clear _t; subst x_)
      | (have _t : Dev := x_.2; clear _t; subst x_)
      | (have _t : Dev := x_; clear _t; subst x_)
      | clear_value x_)
    | (with_reducible refine Dev.pushOwn_w _ _ _ ?_ (by decide +kernel) (by decide +kernel))
    | (with_reducible refine Within.foldl ?_ _ _ ?_)
    | (with_reducible refine Dev.nextSeq_w2 _ _ ?_ (by decide +kernel) (by decide +kernel))
    | (with_reducible refine Dev.nextSeq_w _ _ _ _ (by assumption) ?_ (by decide +kernel) (by decide +kernel))
    | (with_reducible refine Within.ite ?_ ?_)
    | (intro _ _ _)
    | split
    | dsimp only

theorem Dev.toParent_w (d : Dev) (q : ParentSt) (sg : Segment) {M P : Nat} {dz : Dev} (hd : Within M P dz d) (hm : inMask 0 M = true) (hp : inMask 0x300000 P = true) : Within M P dz (Dev.toParent d q sg) :=
  hd.andThen (Dev.toParent_w0 d q sg) hm hp

theorem Dev.seamUpdate_w0 (d : Dev) (a : SeamAcc) (far : Nat) (sg : Int) : Within 0xD00000000000000000000000000000000000000000000000000000000000000000000 0 d (Dev.seamUpdate d a far sg) := by
  unfold Dev.seamUpdate
  repeat' first
    | (with_reducible exact Within.refl _)
    | (with_reducible assumption)
    | ((try lift_lets); intro x_; first
      | (refine (fun (hx_ : Within 0xD00000000000000000000000000000000000000000000000000000000000000000000 0 d x_) => ?rest) ?val; (case' rest => clear_value x_); (case' val => subst x_))
      | (have _t := fun y_ => x_ y_; clear _t; subst x_)
      | (have _t : Dev := x_.1; clear _t; subst x_)
      | (have _t : Dev := x_.2; clear _t; subst x_)
      | (have _t : Dev := x_; clear _t; subst x_)
      | clear_value x_)
    | (with_reducible refine Within.putIAt ?_ _ _ _ (by decide +kernel))
    | (with_reducible refine Within.putI ?_ _ _ (by decide +kernel))
    | (with_reducible refine Within.putAt ?_ _ _ _ (by decide +kernel))
    | (with_reducible refine Within.put ?_ _ _ (by decide +kernel))
    | (with_reducible refine Within.ite ?_ ?_)
    | (intro _ _ _)
    | split
    | dsimp only

theorem Dev.seamUpdate_w (d : Dev) (a : SeamAcc) (far : Nat) (sg : Int) {M P : Nat} {dz : Dev} (hd : Within M P dz d) (hm : inMask 0xD00000000000000000000000000000000000000000000000000000000000000000000 M = true) (hp : inMask 0 P = true) : Within M P dz (Dev.seamUpdate d a far sg) :=
  hd.andThen (Dev.seamUpdate_w0 d a far sg) hm hp

theorem Dev.seamLine_w0 (d : Dev) (chan : Nat) (a : Placed_) (b : Placed_) : Within 0xD00000000000000000000000000000000000000000000000000000000000000000000 0x200000 d (Dev.seamLine d chan a b) := by
  unfold Dev.seamLine
  repeat' first
    | (with_reducible exact Within.refl _)
    | (with_reducible assumption)
    | ((try lift_lets); intro x_; first
      | (refine (fun (hx_ : Within 0xD00000000000000000000000000000000000000000000000000000000000000000000 0x200000 d x_) => ?rest) ?val; (case' rest => clear_value x_); (case' val => subst x_))
      | (have _t := fun y_ => x_ y_; clear _t; subst x_)
      | (have _t : Dev := x_.1; clear _t; subst x_)
      | (have _t : Dev := x_.2; clear _t; subst x_)
      | (have _t : Dev := x_; clear _t; subst x_)
      | clear_value x_)
    | (with_reducible refine Dev.seamUpdate_w _ _ _ _ ?_ (by decide +kernel) (by decide +kernel))
    | (with_reducible refine Within.onStand ?_ _ (by decide +kernel))
    | (with_reducible refine Within.ite ?_ ?_)
    | (intro _ _ _)
    | split
    | dsimp only

theorem Dev.seamLine_w (d : Dev) (chan : Nat) (a : Placed_) (b : Placed_) {M P : Nat} {dz : Dev} (hd : Within M P dz d) (hm : inMask 0xD00000000000000000000000000000000000000000000000000000000000000000000 M = true) (hp : inMask 0x200000 P = true) : Within M P dz (Dev.seamLine d chan a b) :=
  hd.andThen (Dev.seamLine_w0 d chan a b) hm hp

theorem Dev.sendLine_w0 (d : Dev) (l : EmLine) (xs : Nat → Int) (due : Nat) : Within 0x1800080B8010080200000000000000000000000000000F000000000000000000000000000000000000000000000000000 0x3180D4 d (Dev.sendLine d l xs due) := by
  unfold Dev.sendLine
  repeat' first
    | (with_reducible exact Within.refl _)
    | (with_reducible assumption)
    | ((try lift_lets); intro x_; first
      | (refine (fun (hx_ : Within 0x1800080B8010080200000000000000000000000000000F000000000000000000000000000000000000000000000000000 0x3180D4 d x_) => ?rest) ?val; (case' rest => clear_value x_); (case' val => subst x_))
      | (have _t := fun y_ => x_ y_; clear _t; subst x_)
      | (have _t : Dev := x_.1; clear _t; subst x_)
      | (have _t : Dev := x_.2; clear _t; subst x_)
      | (have _t : Dev := x_; clear _t; subst x_)
      | clear_value x_)
    | (with_reducible refine Dev.putChan_w _ _ ?_ (by decide +kernel) (by decide +kernel))
    | (with_reducible refine Dev.emitDelay_w _ _ _ ?_ (by decide +kernel) (by decide +kernel))
    | (with_reducible refine Dev.deliverLine_w _ _ _ _ ?_ (by decide +kernel) (by decide +kernel))
    | (with_reducible refine Dev.toParent_w _ _ _ ?_ (by decide +kernel) (by decide +kernel))
    | (with_reducible refine Within.ite ?_ ?_)
    | (intro _ _ _)
    | split
    | dsimp only

theorem Dev.sendLine_w (d : Dev) (l : EmLine) (xs : Nat → Int) (due : Nat) {M P : Nat} {dz : Dev} (hd : Within M P dz d) (hm : inMask 0x1800080B8010080200000000000000000000000000000F000000000000000000000000000000000000000000000000000 M = true) (hp : inMask 0x3180D4 P = true) : Within M P dz (Dev.sendLine d l xs due) :=
  hd.andThen (Dev.sendLine_w0 d l xs due) hm hp

theorem Dev.emitSub_w0 (d : Dev) (l : MLine) : Within 0x1800080B8010080200000000000000000000000000000F000000000000000000000000000000000000000000000000000 0x3180D4 d (Dev.emitSub d l) := by
  unfold Dev.emitSub
  repeat' first
    | (with_reducible exact Within.refl _)
    | (with_reducible assumption)
    | ((try lift_lets); intro x_; first
      | (refine (fun (hx_ : Within 0x1800080B8010080200000000000000000000000000000F000000000000000000000000000000000000000000000000000 0x3180D4 d x_) => ?rest) ?val; (case' rest => clear_value x_); (case' val => subst x_))
      | (have _t := fun y_ => x_ y_; clear _t; subst x_)
      | (have _t : Dev := x_.1; clear _t; subst x_)
      | (have _t : Dev := x_.2; clear _t; subst x_)
      | (have _t : Dev := x_; clear _t; subst x_)
      | clear_value x_)
    | (with_reducible refine Dev.sendLine_w _ _ _ _ ?_ (by decide +kernel) (by decide +kernel))
    | (with_reducible refine Within.fresh ?_ (by decide +kernel))
    | (with_reducible refine Within.ite ?_ ?_)
    | (intro _ _ _)
    | split
    | dsimp only

theorem Dev.emitSub_w (d : Dev) (l : MLine) {M P : Nat} {dz : Dev} (hd : Within M P dz d) (hm : inMask 0x1800080B8010080200000000000000000000000000000F000000000000000000000000000000000000000000000000000 M = true) (hp : inMask 0x3180D4 P = true) : Within M P dz (Dev.emitSub d l) :=
  hd.andThen (Dev.emitSub_w0 d l) hm hp

theorem Dev.emitMerged_w0 (d : Dev) (l : MLine) : Within 0x1800080B80100802000000000000D0000000000000000F000000000000000000000000000000000000000000000000000 0x3180D4 d (Dev.emitMerged d l) := by
  unfold Dev.emitMerged
  repeat' first
    | (with_reducible exact Within.refl _)
    | (with_reducible assumption)
    | ((try lift_lets); intro x_; first
      | (refine (fun (hx_ : Within 0x1800080B80100802000000000000D0000000000000000F000000000000000000000000000000000000000000000000000 0x3180D4 d x_) => ?rest) ?val; (case' rest => clear_value x_); (case' val => subst x_))
      | (have _t := fun y_ => x_ y_; clear _t; subst x_)
      | (have _t : Dev := x_.1; clear _t; subst x_)
      | (have _t : Dev := x_.2; clear _t; subst x_)
      | (have _t : Dev := x_; clear _t; subst x_)
      | clear_value x_)
    | (with_reducible refine Dev.badSeen_w _ _ ?_ (by decide +kernel) (by decide +kernel))
    | (with_reducible refine Dev.seamLine_w _ _ _ _ ?_ (by decide +kernel) (by decide +kernel))
    | (with_reducible refine Dev.sendLine_w _ _ _ _ ?_ (by decide +kernel) (by decide +kernel))
    | (with_reducible refine Dev.emitSub_w _ _ ?_ (by decide +kernel) (by decide +kernel))
    | (with_reducible refine Within.onStand ?_ _ (by decide +kernel))
    | (with_reducible refine Within.fresh ?_ (by decide +kernel))
    | (with_reducible refine Within.foldl ?_ _ _ ?_)
    | (with_reducible refine Within.ite ?_ ?_)
    | (intro _ _ _)
    | split
    | dsimp only

theorem Dev.emitMerged_w (d : Dev) (l : MLine) {M P : Nat} {dz : Dev} (hd : Within M P dz d) (hm : inMask 0x1800080B80100802000000000000D0000000000000000F000000000000000000000000000000000000000000000000000 M = true) (hp : inMask 0x3180D4 P = true) : Within M P dz (Dev.emitMerged d l) :=
  hd.andThen (Dev.emitMerged_w0 d l) hm hp

theorem Dev.gapGo_wr (l : MLine) {d0 : Dev} : ∀ (n_ : Nat) (d : Dev), Within 0x1800080B80100802000000000000D0000000000000000F000000000000000000000000000000000000000000000000000 0x3180D4 d0 d → Within 0x1800080B80100802000000000000D0000000000000000F000000000000000000000000000000000000000000000000000 0x3180D4 d0 (Dev.gapGo l n_ d)
  | 0, d, hd => by
    unfold Dev.gapGo
    repeat' first
      | (with_reducible refine Dev.gapGo_wr _ _ _ ?_)
      | (with_reducible exact Within.refl _)
      | (with_reducible assumption)
      | (with_reducible refine Dev.emitMerged_w _ _ ?_ (by decide +kernel) (by decide +kernel))
      | (with_reducible refine Within.ite ?_ ?_)
      | (intro _ _ _)
      | split
      | dsimp only
  | n_ + 1, d, hd => by
    unfold Dev.gapGo
    repeat' first
      | (with_reducible refine Dev.gapGo_wr _ _ _ ?_)
      | (with_reducible exact Within.refl _)
      | (with_reducible assumption)
      | (with_reducible refine Dev.emitMerged_w _ _ ?_ (by decide +kernel) (by decide +kernel))
      | (with_reducible refine Within.ite ?_ ?_)
      | (intro _ _ _)
      | split
      | dsimp only

theorem Dev.gapGo_w (l : MLine) (n_ : Nat) (d : Dev) {M P : Nat} {dz : Dev} (hd : Within M P dz d) (hm : inMask 0x1800080B80100802000000000000D0000000000000000F000000000000000000000000000000000000000000000000000 M = true) (hp : inMask 0x3180D4 P = true) : Within M P dz (Dev.gapGo l n_ d) :=
  hd.andThen (Dev.gapGo_wr l _ _ (Within.refl d)) hm hp

theorem Dev.continueTo_w0 (d : Dev) (l : MLine) : Within 0x1800080B80100802000000000000D0000000000000000F000000000000000000000000000000000000000000000000000 0x3180D4 d (Dev.continueTo d l) := by
  unfold Dev.continueTo
  repeat' first
    | (with_reducible exact Within.refl _)
    | (with_reducible assumption)
    | (with_reducible refine Dev.gapGo_w _ _ _ ?_ (by decide +kernel) (by decide +kernel))
    | (with_reducible refine Within.onStand ?_ _ (by decide +kernel))
    | (with_reducible refine Within.ite ?_ ?_)
    | (intro _ _ _)
    | split
    | dsimp only

theorem Dev.continueTo_w (d : Dev) (l : MLine) {M P : Nat} {dz : Dev} (hd : Within M P dz d) (hm : inMask 0x1800080B80100802000000000000D0000000000000000F000000000000000000000000000000000000000000000000000 M = true) (hp : inMask 0x3180D4 P = true) : Within M P dz (Dev.continueTo d l) :=
  hd.andThen (Dev.continueTo_w0 d l) hm hp

theorem Dev.mergeGo_wr (chan : Nat) {d0 : Dev} : ∀ (n_ : Nat) (d : Dev), Within 0x1800080B80100802000000000000D0000000000000000F000000000000000000000000000000000000000000000000000 0x3180D4 d0 d → Within 0x1800080B80100802000000000000D0000000000000000F000000000000000000000000000000000000000000000000000 0x3180D4 d0 (Dev.mergeGo chan n_ d)
  | 0, d, hd => by
    unfold Dev.mergeGo
    repeat' first
      | (with_reducible refine Dev.mergeGo_wr _ _ _ ?_)
      | (with_reducible exact Within.refl _)
      | (with_reducible assumption)
      | (with_reducible refine Dev.emitMerged_w _ _ ?_ (by decide +kernel) (by decide +kernel))
      | (with_reducible refine Dev.continueTo_w _ _ ?_ (by decide +kernel) (by decide +kernel))
      | (with_reducible refine Within.ite ?_ ?_)
      | (intro _ _ _)
      | split
      | dsimp only
  | n_ + 1, d, hd => by
    unfold Dev.mergeGo
    repeat' first
      | (with_reducible refine Dev.mergeGo_wr _ _ _ ?_)
      | (with_reducible exact Within.refl _)
      | (with_reducible assumption)
      | (with_reducible refine Dev.emitMerged_w _ _ ?_ (by decide +kernel) (by decide +kernel))
      | (with_reducible refine Dev.continueTo_w _ _ ?_ (by decide +kernel) (by decide +kernel))
      | (with_reducible refine Within.ite ?_ ?_)
      | (intro _ _ _)
      | split
      | dsimp only

theorem Dev.mergeGo_w (chan : Nat) (n_ : Nat) (d : Dev) {M P : Nat} {dz : Dev} (hd : Within M P dz d) (hm : inMask 0x1800080B80100802000000000000D0000000000000000F000000000000000000000000000000000000000000000000000 M = true) (hp : inMask 0x3180D4 P = true) : Within M P dz (Dev.mergeGo chan n_ d) :=
  hd.andThen (Dev.mergeGo_wr chan _ _ (Within.refl d)) hm hp

theorem Dev.showMerge_w0 (d : Dev) : Within 0x1000000000000000000000000000000000000000000000000000000000000000000 0 d (Dev.showMerge d) := by
  unfold Dev.showMerge
  repeat' first
    | (with_reducible exact Within.refl _)
    | (with_reducible assumption)
    | (with_reducible refine Within.putAt ?_ _ _ _ (by decide +kernel))
    | (with_reducible refine Within.put ?_ _ _ (by decide +kernel))
    | (with_reducible refine Within.ite ?_ ?_)
    | (intro _ _ _)
    | split
    | dsimp only

theorem Dev.showMerge_w (d : Dev) {M P : Nat} {dz : Dev} (hd : Within M P dz d) (hm : inMask 0x1000000000000000000000000000000000000000000000000000000000000000000 M = true) (hp : inMask 0 P = true) : Within M P dz (Dev.showMerge d) :=
  hd.andThen (Dev.showMerge_w0 d) hm hp

theorem Dev.mergeAll_w0 (d : Dev) : Within 0x1800080B80100802000000000000D0100000000000000F000000000000000000000000000000000000000000000000000 0x3180D4 d (Dev.mergeAll d) := by
  unfold Dev.mergeAll
  repeat' first
    | (with_reducible exact Within.refl _)
    | (with_reducible assumption)
    | (with_reducible refine Dev.mergeGo_w _ _ _ ?_ (by decide +kernel) (by decide +kernel))
    | (with_reducible refine Dev.showMerge_w _ ?_ (by decide +kernel) (by decide +kernel))
    | (with_reducible refine Within.foldl ?_ _ _ ?_)
    | (with_reducible refine Within.ite ?_ ?_)
    | (intro _ _ _)
    | split
    | dsimp only

theorem Dev.mergeAll_w (d : Dev) {M P : Nat} {dz : Dev} (hd : Within M P dz d) (hm : inMask 0x1800080B80100802000000000000D0100000000000000F000000000000000000000000000000000000000000000000000 M = true) (hp : inMask 0x3180D4 P = true) : Within M P dz (Dev.mergeAll d) :=
  hd.andThen (Dev.mergeAll_w0 d) hm hp

theorem Dev.mergeRoom_w0 (d : Dev) : Within 0x5000000000000000000000000000000000000000000000000000000000000000000 0x200000 d (Dev.mergeRoom d) := by
  unfold Dev.mergeRoom
  repeat' first
    | (with_reducible exact Within.refl _)
    | (with_reducible assumption)
    | ((try lift_lets); intro x_; first
      | (refine (fun (hx_ : Within 0x5000000000000000000000000000000000000000000000000000000000000000000 0x200000 d x_) => ?rest) ?val; (case' rest => clear_value x_); (case' val => subst x_))
      | (have _t := fun y_ => x_ y_; clear _t; subst x_)
      | (have _t : Dev := x_.1; clear _t; subst x_)
      | (have _t : Dev := x_.2; clear _t; subst x_)
      | (have _t : Dev := x_; clear _t; subst x_)
      | clear_value x_)
    | (with_reducible refine Dev.showMerge_w _ ?_ (by decide +kernel) (by decide +kernel))
    | (with_reducible refine Within.incAt ?_ _ _ (by decide +kernel))
    | (with_reducible refine Within.inc ?_ _ (by decide +kernel))
    | (with_reducible refine Within.onStand ?_ _ (by decide +kernel))
    | (with_reducible refine Within.foldl ?_ _ _ ?_)
    | (with_reducible refine Within.ite ?_ ?_)
    | (intro _ _ _)
    | split
    | dsimp only

theorem Dev.mergeRoom_w (d : Dev) {M P : Nat} {dz : Dev} (hd : Within M P dz d) (hm : inMask 0x5000000000000000000000000000000000000000000000000000000000000000000 M = true) (hp : inMask 0x200000 P = true) : Within M P dz (Dev.mergeRoom d) :=
  hd.andThen (Dev.mergeRoom_w0 d) hm hp

theorem Dev.segIn_w0 (d : Dev) (g : Segment) : Within 0x1800080B80100802000000000000D1F00000000000000F000000000000000000000000000000000000000000000000000 0x3180D4 d (Dev.segIn d g) := by
  unfold Dev.segIn
  repeat' first
    | (with_reducible exact Within.refl _)
    | (with_reducible assumption)
    | ((try lift_lets); intro x_; first
      | (refine (fun (hx_ : Within 0x1800080B80100802000000000000D1F00000000000000F000000000000000000000000000000000000000000000000000 0x3180D4 d x_) => ?rest) ?val; (case' rest => clear_value x_); (case' val => subst x_))
      | (have _t := fun y_ => x_ y_; clear _t; subst x_)
      | (have _t : Dev := x_.1; clear _t; subst x_)
      | (have _t : Dev := x_.2; clear _t; subst x_)
      | (have _t : Dev := x_; clear _t; subst x_)
      | clear_value x_)
    | (with_reducible refine Dev.freshQdr_w _ _ _ ?_ (by decide +kernel) (by decide +kernel))
    | (with_reducible refine Dev.mergeAll_w _ ?_ (by decide +kernel) (by decide +kernel))
    | (with_reducible refine Dev.mergeRoom_w _ ?_ (by decide +kernel) (by decide +kernel))
    | (with_reducible refine Within.incAt ?_ _ _ (by decide +kernel))
    | (with_reducible refine Within.inc ?_ _ (by decide +kernel))
    | (with_reducible refine Within.onStand ?_ _ (by decide +kernel))
    | (with_reducible refine Within.ite ?_ ?_)
    | (intro _ _ _)
    | split
    | dsimp only

theorem Dev.segIn_w (d : Dev) (g : Segment) {M P : Nat} {dz : Dev} (hd : Within M P dz d) (hm : inMask 0x1800080B80100802000000000000D1F00000000000000F000000000000000000000000000000000000000000000000000 M = true) (hp : inMask 0x3180D4 P = true) : Within M P dz (Dev.segIn d g) :=
  hd.andThen (Dev.segIn_w0 d g) hm hp

theorem Dev.trimReset_w0 (d : Dev) : Within 0x500000000000000000000000000000000000000000000000000000000000000000000 0x200000 d (Dev.trimReset d) := by
  unfold Dev.trimReset
  repeat' first
    | (with_reducible exact Within.refl _)
    | (with_reducible assumption)
    | ((try lift_lets); intro x_; first
      | (refine (fun (hx_ : Within 0x500000000000000000000000000000000000000000000000000000000000000000000 0x200000 d x_) => ?rest) ?val; (case' rest => clear_value x_); (case' val => subst x_))
      | (have _t := fun y_ => x_ y_; clear _t; subst x_)
      | (have _t : Dev := x_.1; clear _t; subst x_)
      | (have _t : Dev := x_.2; clear _t; subst x_)
      | (have _t : Dev := x_; clear _t; subst x_)
      | clear_value x_)
    | (with_reducible refine Within.putAt ?_ _ _ _ (by decide +kernel))
    | (with_reducible refine Within.put ?_ _ _ (by decide +kernel))
    | (with_reducible refine Within.onStand ?_ _ (by decide +kernel))
    | (with_reducible refine Within.foldl ?_ _ _ ?_)
    | (with_reducible refine Within.ite ?_ ?_)
    | (intro _ _ _)
    | split
    | dsimp only

theorem Dev.trimReset_w (d : Dev) {M P : Nat} {dz : Dev} (hd : Within M P dz d) (hm : inMask 0x500000000000000000000000000000000000000000000000000000000000000000000 M = true) (hp : inMask 0x200000 P = true) : Within M P dz (Dev.trimReset d) :=
  hd.andThen (Dev.trimReset_w0 d) hm hp

theorem Dev.showWeb_w0 (d : Dev) : Within 0x4E0000800000000000000000000000000000000000000 0 d (Dev.showWeb d) := by
  unfold Dev.showWeb
  repeat' first
    | (with_reducible exact Within.refl _)
    | (with_reducible assumption)
    | ((try lift_lets); intro x_; first
      | (refine (fun (hx_ : Within 0x4E0000800000000000000000000000000000000000000 0 d x_) => ?rest) ?val; (case' rest => clear_value x_); (case' val => subst x_))
      | (have _t := fun y_ => x_ y_; clear _t; subst x_)
      | (have _t : Dev := x_.1; clear _t; subst x_)
      | (have _t : Dev := x_.2; clear _t; subst x_)
      | (have _t : Dev := x_; clear _t; subst x_)
      | clear_value x_)
    | (with_reducible refine Within.putBitAt ?_ _ _ _ (by decide +kernel))
    | (with_reducible refine Within.putBit ?_ _ _ (by decide +kernel))
    | (with_reducible refine Within.putAt ?_ _ _ _ (by decide +kernel))
    | (with_reducible refine Within.put ?_ _ _ (by decide +kernel))
    | (with_reducible refine Within.ite ?_ ?_)
    | (intro _ _ _)
    | split
    | dsimp only

theorem Dev.showWeb_w (d : Dev) {M P : Nat} {dz : Dev} (hd : Within M P dz d) (hm : inMask 0x4E0000800000000000000000000000000000000000000 M = true) (hp : inMask 0 P = true) : Within M P dz (Dev.showWeb d) :=
  hd.andThen (Dev.showWeb_w0 d) hm hp

theorem Dev.putLine_w0 (d : Dev) (l : Line) : Within 0 0x4000 d (Dev.putLine d l) := by
  unfold Dev.putLine
  repeat' first
    | (with_reducible exact Within.refl _)
    | (with_reducible assumption)
    | (with_reducible refine Within.onWeb ?_ _ (by decide +kernel))
    | (with_reducible refine Within.ite ?_ ?_)
    | (intro _ _ _)
    | split
    | dsimp only

theorem Dev.putLine_w (d : Dev) (l : Line) {M P : Nat} {dz : Dev} (hd : Within M P dz d) (hm : inMask 0 M = true) (hp : inMask 0x4000 P = true) : Within M P dz (Dev.putLine d l) :=
  hd.andThen (Dev.putLine_w0 d l) hm hp

theorem Dev.truncLine_w0 (d : Dev) (start : Nat) : Within 0x4000000000000000000000000000000000000000000000 0x4000 d (Dev.truncLine d start) := by
  unfold Dev.truncLine
  repeat' first
    | (with_reducible exact Within.refl _)
    | (with_reducible assumption)
    | (with_reducible refine Within.incAt ?_ _ _ (by decide +kernel))
    | (with_reducible refine Within.inc ?_ _ (by decide +kernel))
    | (with_reducible refine Within.onWeb ?_ _ (by decide +kernel))
    | (with_reducible refine Within.ite ?_ ?_)
    | (intro _ _ _)
    | split
    | dsimp only

theorem Dev.truncLine_w (d : Dev) (start : Nat) {M P : Nat} {dz : Dev} (hd : Within M P dz d) (hm : inMask 0x4000000000000000000000000000000000000000000000 M = true) (hp : inMask 0x4000 P = true) : Within M P dz (Dev.truncLine d start) :=
  hd.andThen (Dev.truncLine_w0 d start) hm hp

theorem Dev.openLine_w0 (d : Dev) (f : Frame) (c : Nat) (start : Nat) : Within 0x4000000000000000000000000000000000000000000000 0x4040 d (Dev.openLine d f c start) := by
  unfold Dev.openLine
  repeat' first
    | (with_reducible exact Within.refl _)
    | (with_reducible assumption)
    | ((try lift_lets); intro x_; first
      | (refine (fun (hx_ : Within 0x4000000000000000000000000000000000000000000000 0x4040 d x_) => ?rest) ?val; (case' rest => clear_value x_); (case' val => subst x_))
      | (have _t := fun y_ => x_ y_; clear _t; subst x_)
      | (have _t : Dev := x_.1; clear _t; subst x_)
      | (have _t : Dev := x_.2; clear _t; subst x_)
      | (have _t : Dev := x_; clear _t; subst x_)
      | clear_value x_)
    | (with_reducible refine Dev.freshQdr_w _ _ _ ?_ (by decide +kernel) (by decide +kernel))
    | (with_reducible refine Dev.truncLine_w _ _ ?_ (by decide +kernel) (by decide +kernel))
    | (with_reducible refine Within.onWeb ?_ _ (by decide +kernel))
    | (with_reducible refine Within.foldl ?_ _ _ ?_)
    | (with_reducible refine Within.ite ?_ ?_)
    | (intro _ _ _)
    | split
    | dsimp only

theorem Dev.openLine_w (d : Dev) (f : Frame) (c : Nat) (start : Nat) {M P : Nat} {dz : Dev} (hd : Within M P dz d) (hm : inMask 0x4000000000000000000000000000000000000000000000 M = true) (hp : inMask 0x4040 P = true) : Within M P dz (Dev.openLine d f c start) :=
  hd.andThen (Dev.openLine_w0 d f c start) hm hp

theorem Dev.lineFor_w0 (d : Dev) (f : Frame) (x : Nat) (count : Bool) (e : Dev) (x_ : Option (LineId × Line)) (h : Dev.lineFor d f x count = (e, x_)) : Within 0x6000000000000000000000000000000000000000000000 0x4040 d e := by
  unfold Dev.lineFor at h
  try dsimp only at h
  repeat' split at h
  all_goals (first | cases h | (injection h with h h'; subst h) | (injection h with h; subst h) | skip)
  all_goals try dsimp only
  all_goals (
    repeat' first
      | (with_reducible exact Within.refl _)
      | (with_reducible assumption)
      | ((try lift_lets); intro x_; first
        | (refine (fun (hx_ : Within 0x6000000000000000000000000000000000000000000000 0x4040 d x_) => ?rest) ?val; (case' rest => clear_value x_); (case' val => subst x_))
        | (have _t := fun y_ => x_ y_; clear _t; subst x_)
        | (have _t : Dev := x_.1; clear _t; subst x_)
        | (have _t : Dev := x_.2; clear _t; subst x_)
        | (have _t : Dev := x_; clear _t; subst x_)
        | clear_value x_)
      | (with_reducible refine Dev.openLine_w _ _ _ _ ?_ (by decide +kernel) (by decide +kernel))
      | (with_reducible refine Within.addSatAt ?_ _ _ _ (by decide +kernel))
      | (with_reducible refine Within.addSat ?_ _ _ (by decide +kernel))
      | (with_reducible refine Within.ite ?_ ?_)
      | (intro _ _ _)
      | split
      | dsimp only)

theorem Dev.lineFor_w (d : Dev) (f : Frame) (x : Nat) (count : Bool) (e : Dev) (x_ : Option (LineId × Line)) (h : Dev.lineFor d f x count = (e, x_)) {M P : Nat} {dz : Dev} (hd : Within M P dz d) (hm : inMask 0x6000000000000000000000000000000000000000000000 M = true) (hp : inMask 0x4040 P = true) : Within M P dz e :=
  hd.andThen (Dev.lineFor_w0 d f x count _ _ h) hm hp

theorem Dev.lineFor_w1 (d : Dev) (f : Frame) (x : Nat) (count : Bool) {M P : Nat} {dz : Dev} (hd : Within M P dz d) (hm : inMask 0x6000000000000000000000000000000000000000000000 M = true) (hp : inMask 0x4040 P = true) : Within M P dz (Dev.lineFor d f x count).1 :=
  Dev.lineFor_w d f x count _ _ rfl hd hm hp

theorem Dev.addRow_w0 (d : Dev) (f : Frame) (x : SlotX) (p : Nat) : Within 0x6000000000000000000000000000000000000000000000 0x4040 d (Dev.addRow d f x p) := by
  unfold Dev.addRow
  repeat' first
    | (with_reducible exact Within.refl _)
    | (with_reducible assumption)
    | ((try lift_lets); intro x_; first
      | (refine (fun (hx_ : Within 0x6000000000000000000000000000000000000000000000 0x4040 d x_) => ?rest) ?val; (case' rest => clear_value x_); (case' val => subst x_))
      | (have _t := fun y_ => x_ y_; clear _t; subst x_)
      | (have _t : Dev := x_.1; clear _t; subst x_)
      | (have _t : Dev := x_.2; clear _t; subst x_)
      | (have _t : Dev := x_; clear _t; subst x_)
      | clear_value x_)
    | (with_reducible refine Dev.putLine_w _ _ ?_ (by decide +kernel) (by decide +kernel))
    | (with_reducible refine Dev.lineFor_w1 _ _ _ _ ?_ (by decide +kernel) (by decide +kernel))
    | (with_reducible refine Dev.lineFor_w _ _ _ _ _ _ (by assumption) ?_ (by decide +kernel) (by decide +kernel))
    | (with_reducible refine Within.ite ?_ ?_)
    | (intro _ _ _)
    | split
    | dsimp only

theorem Dev.addRow_w (d : Dev) (f : Frame) (x : SlotX) (p : Nat) {M P : Nat} {dz : Dev} (hd : Within M P dz d) (hm : inMask 0x6000000000000000000000000000000000000000000000 M = true) (hp : inMask 0x4040 P = true) : Within M P dz (Dev.addRow d f x p) :=
  hd.andThen (Dev.addRow_w0 d f x p) hm hp

theorem Dev.markLost_w0 (d : Dev) (f : Frame) (slot : Nat) (p : Nat) : Within 0x6000000000000000000000000000000000000000000000 0x4040 d (Dev.markLost d f slot p) := by
  unfold Dev.markLost
  repeat' first
    | (with_reducible exact Within.refl _)
    | (with_reducible assumption)
    | ((try lift_lets); intro x_; first
      | (refine (fun (hx_ : Within 0x6000000000000000000000000000000000000000000000 0x4040 d x_) => ?rest) ?val; (case' rest => clear_value x_); (case' val => subst x_))
      | (have _t := fun y_ => x_ y_; clear _t; subst x_)
      | (have _t : Dev := x_.1; clear _t; subst x_)
      | (have _t : Dev := x_.2; clear _t; subst x_)
      | (have _t : Dev := x_; clear _t; subst x_)
      | clear_value x_)
    | (with_reducible refine Dev.putLine_w _ _ ?_ (by decide +kernel) (by decide +kernel))
    | (with_reducible refine Dev.lineFor_w1 _ _ _ _ ?_ (by decide +kernel) (by decide +kernel))
    | (with_reducible refine Dev.lineFor_w _ _ _ _ _ _ (by assumption) ?_ (by decide +kernel) (by decide +kernel))
    | (with_reducible refine Within.ite ?_ ?_)
    | (intro _ _ _)
    | split
    | dsimp only

theorem Dev.markLost_w (d : Dev) (f : Frame) (slot : Nat) (p : Nat) {M P : Nat} {dz : Dev} (hd : Within M P dz d) (hm : inMask 0x6000000000000000000000000000000000000000000000 M = true) (hp : inMask 0x4040 P = true) : Within M P dz (Dev.markLost d f slot p) :=
  hd.andThen (Dev.markLost_w0 d f slot p) hm hp

theorem Dev.addSlot_w0 (d : Dev) (f : Frame) (x : SlotX) : Within 0x7000000000000000000000000000000000000000000000 0x4040 d (Dev.addSlot d f x) := by
  unfold Dev.addSlot
  repeat' first
    | (with_reducible exact Within.refl _)
    | (with_reducible assumption)
    | ((try lift_lets); intro x_; first
      | (refine (fun (hx_ : Within 0x7000000000000000000000000000000000000000000000 0x4040 d x_) => ?rest) ?val; (case' rest => clear_value x_); (case' val => subst x_))
      | (have _t := fun y_ => x_ y_; clear _t; subst x_)
      | (have _t : Dev := x_.1; clear _t; subst x_)
      | (have _t : Dev := x_.2; clear _t; subst x_)
      | (have _t : Dev := x_; clear _t; subst x_)
      | clear_value x_)
    | (with_reducible refine Dev.addRow_w _ _ _ _ ?_ (by decide +kernel) (by decide +kernel))
    | (with_reducible refine Dev.markLost_w _ _ _ _ ?_ (by decide +kernel) (by decide +kernel))
    | (with_reducible refine Within.addSatAt ?_ _ _ _ (by decide +kernel))
    | (with_reducible refine Within.addSat ?_ _ _ (by decide +kernel))
    | (with_reducible refine Within.foldl ?_ _ _ ?_)
    | (with_reducible refine Within.ite ?_ ?_)
    | (intro _ _ _)
    | split
    | dsimp only

theorem Dev.addSlot_w (d : Dev) (f : Frame) (x : SlotX) {M P : Nat} {dz : Dev} (hd : Within M P dz d) (hm : inMask 0x7000000000000000000000000000000000000000000000 M = true) (hp : inMask 0x4040 P = true) : Within M P dz (Dev.addSlot d f x) :=
  hd.andThen (Dev.addSlot_w0 d f x) hm hp

theorem Dev.lineOut_w0 (d : Dev) (l : EmLine) (due : Nat) : Within 0x1800080B80100802000000000000D1F00000000000000F000000000000000000000000000000000000000000000000000 0x3180D4 d (Dev.lineOut d l due) := by
  unfold Dev.lineOut
  repeat' first
    | (with_reducible exact Within.refl _)
    | (with_reducible assumption)
    | ((try lift_lets); intro x_; first
      | (refine (fun (hx_ : Within 0x1800080B80100802000000000000D1F00000000000000F000000000000000000000000000000000000000000000000000 0x3180D4 d x_) => ?rest) ?val; (case' rest => clear_value x_); (case' val => subst x_))
      | (have _t := fun y_ => x_ y_; clear _t; subst x_)
      | (have _t : Dev := x_.1; clear _t; subst x_)
      | (have _t : Dev := x_.2; clear _t; subst x_)
      | (have _t : Dev := x_; clear _t; subst x_)
      | clear_value x_)
    | (with_reducible refine Dev.toRootMsg_w _ _ _ ?_ (by decide +kernel) (by decide +kernel))
    | (with_reducible refine Dev.sendLine_w _ _ _ _ ?_ (by decide +kernel) (by decide +kernel))
    | (with_reducible refine Dev.segIn_w _ _ ?_ (by decide +kernel) (by decide +kernel))
    | (with_reducible refine Within.ite ?_ ?_)
    | (intro _ _ _)
    | split
    | dsimp only

theorem Dev.lineOut_w (d : Dev) (l : EmLine) (due : Nat) {M P : Nat} {dz : Dev} (hd : Within M P dz d) (hm : inMask 0x1800080B80100802000000000000D1F00000000000000F000000000000000000000000000000000000000000000000000 M = true) (hp : inMask 0x3180D4 P = true) : Within M P dz (Dev.lineOut d l due) :=
  hd.andThen (Dev.lineOut_w0 d l due) hm hp

theorem Dev.emitStrip_w0 (d : Dev) (i : LineId) (l : Option Line) : Within 0x1800080B80100802000000000000D1F00000000000000F000008800000000000000000000000000000000000000000000 0x31C0D4 d (Dev.emitStrip d i l) := by
  unfold Dev.emitStrip
  repeat' first
    | (with_reducible exact Within.refl _)
    | (with_reducible assumption)
    | ((try lift_lets); intro x_; first
      | (refine (fun (hx_ : Within 0x1800080B80100802000000000000D1F00000000000000F000008800000000000000000000000000000000000000000000 0x31C0D4 d x_) => ?rest) ?val; (case' rest => clear_value x_); (case' val => subst x_))
      | (have _t := fun y_ => x_ y_; clear _t; subst x_)
      | (have _t : Dev := x_.1; clear _t; subst x_)
      | (have _t : Dev := x_.2; clear _t; subst x_)
      | (have _t : Dev := x_; clear _t; subst x_)
      | clear_value x_)
    | (with_reducible refine Dev.badSeen_w _ _ ?_ (by decide +kernel) (by decide +kernel))
    | (with_reducible refine Dev.lineOut_w _ _ _ ?_ (by decide +kernel) (by decide +kernel))
    | (with_reducible refine Within.incWrapAt ?_ _ _ (by decide +kernel))
    | (with_reducible refine Within.incWrap ?_ _ (by decide +kernel))
    | (with_reducible refine Within.incAt ?_ _ _ (by decide +kernel))
    | (with_reducible refine Within.inc ?_ _ (by decide +kernel))
    | (with_reducible refine Within.onWeb ?_ _ (by decide +kernel))
    | (with_reducible refine Within.ite ?_ ?_)
    | (intro _ _ _)
    | split
    | dsimp only

theorem Dev.emitStrip_w (d : Dev) (i : LineId) (l : Option Line) {M P : Nat} {dz : Dev} (hd : Within M P dz d) (hm : inMask 0x1800080B80100802000000000000D1F00000000000000F000008800000000000000000000000000000000000000000000 M = true) (hp : inMask 0x31C0D4 P = true) : Within M P dz (Dev.emitStrip d i l) :=
  hd.andThen (Dev.emitStrip_w0 d i l) hm hp

theorem Dev.passAhead_w0 (d : Dev) (i : LineId) : Within 0 0x4000 d (Dev.passAhead d i) := by
  unfold Dev.passAhead
  repeat' first
    | (with_reducible exact Within.refl _)
    | (with_reducible assumption)
    | (with_reducible refine Within.onWeb ?_ _ (by decide +kernel))
    | (with_reducible refine Within.ite ?_ ?_)
    | (intro _ _ _)
    | split
    | dsimp only

theorem Dev.passAhead_w (d : Dev) (i : LineId) {M P : Nat} {dz : Dev} (hd : Within M P dz d) (hm : inMask 0 M = true) (hp : inMask 0x4000 P = true) : Within M P dz (Dev.passAhead d i) :=
  hd.andThen (Dev.passAhead_w0 d i) hm hp

theorem Dev.drainBy_wr (due : Dev → LineId → Option Line → Bool) {d0 : Dev} : ∀ (n_ : Nat) (d : Dev), Within 0x1800080B80100802000000000000D1F00000000000000F000008800000000000000000000000000000000000000000000 0x31C0D4 d0 d → Within 0x1800080B80100802000000000000D1F00000000000000F000008800000000000000000000000000000000000000000000 0x31C0D4 d0 (Dev.drainBy due n_ d)
  | 0, d, hd => by
    unfold Dev.drainBy
    repeat' first
      | (with_reducible refine Dev.drainBy_wr _ _ _ ?_)
      | (with_reducible exact Within.refl _)
      | (with_reducible assumption)
      | ((try lift_lets); intro x_; first
        | (refine (fun (hx_ : Within 0x1800080B80100802000000000000D1F00000000000000F000008800000000000000000000000000000000000000000000 0x31C0D4 d0 x_) => ?rest) ?val; (case' rest => clear_value x_); (case' val => subst x_))
        | (have _t := fun y_ => x_ y_; clear _t; subst x_)
        | (have _t : Dev := x_.1; clear _t; subst x_)
        | (have _t : Dev := x_.2; clear _t; subst x_)
        | (have _t : Dev := x_; clear _t; subst x_)
        | clear_value x_)
      | (with_reducible refine Dev.emitStrip_w _ _ _ ?_ (by decide +kernel) (by decide +kernel))
      | (with_reducible refine Dev.passAhead_w _ _ ?_ (by decide +kernel) (by decide +kernel))
      | (with_reducible refine Within.ite ?_ ?_)
      | (intro _ _ _)
      | split
      | dsimp only
  | n_ + 1, d, hd => by
    unfold Dev.drainBy
    repeat' first
      | (with_reducible refine Dev.drainBy_wr _ _ _ ?_)
      | (with_reducible exact Within.refl _)
      | (with_reducible assumption)
      | ((try lift_lets); intro x_; first
        | (refine (fun (hx_ : Within 0x1800080B80100802000000000000D1F00000000000000F000008800000000000000000000000000000000000000000000 0x31C0D4 d0 x_) => ?rest) ?val; (case' rest => clear_value x_); (case' val => subst x_))
        | (have _t := fun y_ => x_ y_; clear _t; subst x_)
        | (have _t : Dev := x_.1; clear _t; subst x_)
        | (have _t : Dev := x_.2; clear _t; subst x_)
        | (have _t : Dev := x_; clear _t; subst x_)
        | clear_value x_)
      | (with_reducible refine Dev.emitStrip_w _ _ _ ?_ (by decide +kernel) (by decide +kernel))
      | (with_reducible refine Dev.passAhead_w _ _ ?_ (by decide +kernel) (by decide +kernel))
      | (with_reducible refine Within.ite ?_ ?_)
      | (intro _ _ _)
      | split
      | dsimp only

theorem Dev.drainBy_w (due : Dev → LineId → Option Line → Bool) (n_ : Nat) (d : Dev) {M P : Nat} {dz : Dev} (hd : Within M P dz d) (hm : inMask 0x1800080B80100802000000000000D1F00000000000000F000008800000000000000000000000000000000000000000000 M = true) (hp : inMask 0x31C0D4 P = true) : Within M P dz (Dev.drainBy due n_ d) :=
  hd.andThen (Dev.drainBy_wr due _ _ (Within.refl d)) hm hp

theorem Dev.drain_w0 (d : Dev) (e : Option Nat) : Within 0x1800080B80100802000000000000D1F00000000000000F000008800000000000000000000000000000000000000000000 0x31C0D4 d (Dev.drain d e) := by
  unfold Dev.drain
  repeat' first
    | (with_reducible exact Within.refl _)
    | (with_reducible assumption)
    | (with_reducible refine Dev.drainBy_w _ _ _ ?_ (by decide +kernel) (by decide +kernel))
    | (with_reducible refine Within.ite ?_ ?_)
    | (intro _ _ _)
    | split
    | dsimp only

theorem Dev.drain_w (d : Dev) (e : Option Nat) {M P : Nat} {dz : Dev} (hd : Within M P dz d) (hm : inMask 0x1800080B80100802000000000000D1F00000000000000F000008800000000000000000000000000000000000000000000 M = true) (hp : inMask 0x31C0D4 P = true) : Within M P dz (Dev.drain d e) :=
  hd.andThen (Dev.drain_w0 d e) hm hp

theorem Dev.switchGo_wr (e : Nat) {d0 : Dev} : ∀ (n_ : Nat) (d : Dev), Within 0 0x4000 d0 d → Within 0 0x4000 d0 (Dev.switchGo e n_ d)
  | 0, d, hd => by
    unfold Dev.switchGo
    repeat' first
      | (with_reducible refine Dev.switchGo_wr _ _ _ ?_)
      | (with_reducible exact Within.refl _)
      | (with_reducible assumption)
      | ((try lift_lets); intro x_; first
        | (refine (fun (hx_ : Within 0 0x4000 d0 x_) => ?rest) ?val; (case' rest => clear_value x_); (case' val => subst x_))
        | (have _t := fun y_ => x_ y_; clear _t; subst x_)
        | (have _t : Dev := x_.1; clear _t; subst x_)
        | (have _t : Dev := x_.2; clear _t; subst x_)
        | (have _t : Dev := x_; clear _t; subst x_)
        | clear_value x_)
      | (with_reducible refine Within.onWeb ?_ _ (by decide +kernel))
      | (with_reducible refine Within.ite ?_ ?_)
      | (intro _ _ _)
      | split
      | dsimp only
  | n_ + 1, d, hd => by
    unfold Dev.switchGo
    repeat' first
      | (with_reducible refine Dev.switchGo_wr _ _ _ ?_)
      | (with_reducible exact Within.refl _)
      | (with_reducible assumption)
      | ((try lift_lets); intro x_; first
        | (refine (fun (hx_ : Within 0 0x4000 d0 x_) => ?rest) ?val; (case' rest => clear_value x_); (case' val => subst x_))
        | (have _t := fun y_ => x_ y_; clear _t; subst x_)
        | (have _t : Dev := x_.1; clear _t; subst x_)
        | (have _t : Dev := x_.2; clear _t; subst x_)
        | (have _t : Dev := x_; clear _t; subst x_)
        | clear_value x_)
      | (with_reducible refine Within.onWeb ?_ _ (by decide +kernel))
      | (with_reducible refine Within.ite ?_ ?_)
      | (intro _ _ _)
      | split
      | dsimp only

theorem Dev.switchGo_w (e : Nat) (n_ : Nat) (d : Dev) {M P : Nat} {dz : Dev} (hd : Within M P dz d) (hm : inMask 0 M = true) (hp : inMask 0x4000 P = true) : Within M P dz (Dev.switchGo e n_ d) :=
  hd.andThen (Dev.switchGo_wr e _ _ (Within.refl d)) hm hp

theorem Dev.exitEval_w0 (d : Dev) (e : Nat) : Within 0x1800080B80100802000000000000D1F00000000000000F000008CE0000800000000000000000000000000000000000000 0x31C0D4 d (Dev.exitEval d e) := by
  unfold Dev.exitEval
  repeat' first
    | (with_reducible exact Within.refl _)
    | (with_reducible assumption)
    | ((try lift_lets); intro x_; first
      | (refine (fun (hx_ : Within 0x1800080B80100802000000000000D1F00000000000000F000008CE0000800000000000000000000000000000000000000 0x31C0D4 d x_) => ?rest) ?val; (case' rest => clear_value x_); (case' val => subst x_))
      | (have _t := fun y_ => x_ y_; clear _t; subst x_)
      | (have _t : Dev := x_.1; clear _t; subst x_)
      | (have _t : Dev := x_.2; clear _t; subst x_)
      | (have _t : Dev := x_; clear _t; subst x_)
      | clear_value x_)
    | (with_reducible refine Dev.showWeb_w _ ?_ (by decide +kernel) (by decide +kernel))
    | (with_reducible refine Dev.drain_w _ _ ?_ (by decide +kernel) (by decide +kernel))
    | (with_reducible refine Dev.switchGo_w _ _ _ ?_ (by decide +kernel) (by decide +kernel))
    | (with_reducible refine Within.ite ?_ ?_)
    | (intro _ _ _)
    | split
    | dsimp only

theorem Dev.exitEval_w (d : Dev) (e : Nat) {M P : Nat} {dz : Dev} (hd : Within M P dz d) (hm : inMask 0x1800080B80100802000000000000D1F00000000000000F000008CE0000800000000000000000000000000000000000000 M = true) (hp : inMask 0x31C0D4 P = true) : Within M P dz (Dev.exitEval d e) :=
  hd.andThen (Dev.exitEval_w0 d e) hm hp

theorem samplesAccumulated_w0 (cnt : Nat) (slot : Nat) (d : Dev) : Within 0x1800080B80100802000000000000D1F00000000000000F00000FCE0000800000000000000000000000000000000000000 0x31C1D4 d (samplesAccumulated cnt slot d) := by
  unfold samplesAccumulated
  repeat' first
    | (with_reducible exact Within.refl _)
    | (with_reducible assumption)
    | ((try lift_lets); intro x_; first
      | (refine (fun (hx_ : Within 0x1800080B80100802000000000000D1F00000000000000F00000FCE0000800000000000000000000000000000000000000 0x31C1D4 d x_) => ?rest) ?val; (case' rest => clear_value x_); (case' val => subst x_))
      | (have _t := fun y_ => x_ y_; clear _t; subst x_)
      | (have _t : Dev := x_.1; clear _t; subst x_)
      | (have _t : Dev := x_.2; clear _t; subst x_)
      | (have _t : Dev := x_; clear _t; subst x_)
      | clear_value x_)
    | (with_reducible refine Dev.putFrame_w _ _ ?_ (by decide +kernel) (by decide +kernel))
    | (with_reducible refine Dev.showWeb_w _ ?_ (by decide +kernel) (by decide +kernel))
    | (with_reducible refine Dev.addSlot_w _ _ _ ?_ (by decide +kernel) (by decide +kernel))
    | (with_reducible refine Dev.drain_w _ _ ?_ (by decide +kernel) (by decide +kernel))
    | (with_reducible refine Dev.exitEval_w _ _ ?_ (by decide +kernel) (by decide +kernel))
    | (with_reducible refine Within.ite ?_ ?_)
    | (intro _ _ _)
    | split
    | dsimp only

theorem samplesAccumulated_w (cnt : Nat) (slot : Nat) (d : Dev) {M P : Nat} {dz : Dev} (hd : Within M P dz d) (hm : inMask 0x1800080B80100802000000000000D1F00000000000000F00000FCE0000800000000000000000000000000000000000000 M = true) (hp : inMask 0x31C1D4 P = true) : Within M P dz (samplesAccumulated cnt slot d) :=
  hd.andThen (samplesAccumulated_w0 cnt slot d) hm hp

theorem Dev.flushGo_wr  {d0 : Dev} : ∀ (n_ : Nat) (d : Dev), Within 0x1800080B80100802000000000000D1F00000000000000F000008800000000000000000000000000000000000000000000 0x31C0D4 d0 d → Within 0x1800080B80100802000000000000D1F00000000000000F000008800000000000000000000000000000000000000000000 0x31C0D4 d0 (Dev.flushGo n_ d)
  | 0, d, hd => by
    unfold Dev.flushGo
    repeat' first
      | (with_reducible refine Dev.flushGo_wr  _ _ ?_)
      | (with_reducible exact Within.refl _)
      | (with_reducible assumption)
      | (with_reducible refine Dev.emitStrip_w _ _ _ ?_ (by decide +kernel) (by decide +kernel))
      | (with_reducible refine Within.ite ?_ ?_)
      | (intro _ _ _)
      | split
      | dsimp only
  | n_ + 1, d, hd => by
    unfold Dev.flushGo
    repeat' first
      | (with_reducible refine Dev.flushGo_wr  _ _ ?_)
      | (with_reducible exact Within.refl _)
      | (with_reducible assumption)
      | (with_reducible refine Dev.emitStrip_w _ _ _ ?_ (by decide +kernel) (by decide +kernel))
      | (with_reducible refine Within.ite ?_ ?_)
      | (intro _ _ _)
      | split
      | dsimp only

theorem Dev.flushGo_w (n_ : Nat) (d : Dev) {M P : Nat} {dz : Dev} (hd : Within M P dz d) (hm : inMask 0x1800080B80100802000000000000D1F00000000000000F000008800000000000000000000000000000000000000000000 M = true) (hp : inMask 0x31C0D4 P = true) : Within M P dz (Dev.flushGo n_ d) :=
  hd.andThen (Dev.flushGo_wr  _ _ (Within.refl d)) hm hp

theorem Dev.flushLines_w0 (d : Dev) : Within 0x1800080B80100802000000000000D1F00000000000000F000008CE0000800000000000000000000000000000000000000 0x31C0D4 d (Dev.flushLines d) := by
  unfold Dev.flushLines
  repeat' first
    | (with_reducible exact Within.refl _)
    | (with_reducible assumption)
    | (with_reducible refine Dev.showWeb_w _ ?_ (by decide +kernel) (by decide +kernel))
    | (with_reducible refine Dev.flushGo_w _ _ ?_ (by decide +kernel) (by decide +kernel))
    | (with_reducible refine Within.ite ?_ ?_)
    | (intro _ _ _)
    | split
    | dsimp only

theorem Dev.flushLines_w (d : Dev) {M P : Nat} {dz : Dev} (hd : Within M P dz d) (hm : inMask 0x1800080B80100802000000000000D1F00000000000000F000008CE0000800000000000000000000000000000000000000 M = true) (hp : inMask 0x31C0D4 P = true) : Within M P dz (Dev.flushLines d) :=
  hd.andThen (Dev.flushLines_w0 d) hm hp

theorem webStopped_w0 (d : Dev) : Within 0x1800080B80100802000000000000D1F00000000000000F000008CE0000800000000000000000000000000000000000000 0x31C0D4 d (webStopped d) := by
  unfold webStopped
  repeat' first
    | (with_reducible exact Within.refl _)
    | (with_reducible assumption)
    | (with_reducible refine Dev.flushLines_w _ ?_ (by decide +kernel) (by decide +kernel))
    | (with_reducible refine Within.putBitAt ?_ _ _ _ (by decide +kernel))
    | (with_reducible refine Within.putBit ?_ _ _ (by decide +kernel))
    | (with_reducible refine Within.ite ?_ ?_)
    | (intro _ _ _)
    | split
    | dsimp only

theorem webStopped_w (d : Dev) {M P : Nat} {dz : Dev} (hd : Within M P dz d) (hm : inMask 0x1800080B80100802000000000000D1F00000000000000F000008CE0000800000000000000000000000000000000000000 M = true) (hp : inMask 0x31C0D4 P = true) : Within M P dz (webStopped d) :=
  hd.andThen (webStopped_w0 d) hm hp

theorem Dev.takeGlades_w0 (d : Dev) (w : Nat) : Within 0x80B8010000000000000000000000000000000000000000000000000020C0008C0000000000001000004000040000 0x65BD0 d (Dev.takeGlades d w) := by
  unfold Dev.takeGlades
  repeat' first
    | (with_reducible exact Within.refl _)
    | (with_reducible assumption)
    | ((try lift_lets); intro x_; first
      | (refine (fun (hx_ : Within 0x80B8010000000000000000000000000000000000000000000000000020C0008C0000000000001000004000040000 0x65BD0 d x_) => ?rest) ?val; (case' rest => clear_value x_); (case' val => subst x_))
      | (have _t := fun y_ => x_ y_; clear _t; subst x_)
      | (have _t : Dev := x_.1; clear _t; subst x_)
      | (have _t : Dev := x_.2; clear _t; subst x_)
      | (have _t : Dev := x_; clear _t; subst x_)
      | clear_value x_)
    | (with_reducible refine Dev.gladeProfile_w _ _ ?_ (by decide +kernel) (by decide +kernel))
    | (with_reducible refine Within.onWeb ?_ _ (by decide +kernel))
    | (with_reducible refine Within.foldl ?_ _ _ ?_)
    | (with_reducible refine Within.ite ?_ ?_)
    | (intro _ _ _)
    | split
    | dsimp only

theorem Dev.takeGlades_w (d : Dev) (w : Nat) {M P : Nat} {dz : Dev} (hd : Within M P dz d) (hm : inMask 0x80B8010000000000000000000000000000000000000000000000000020C0008C0000000000001000004000040000 M = true) (hp : inMask 0x65BD0 P = true) : Within M P dz (Dev.takeGlades d w) :=
  hd.andThen (Dev.takeGlades_w0 d w) hm hp

theorem Dev.markLeft_wr (e : Nat) {d0 : Dev} : ∀ (n_ : Nat) (d : Dev), Within 0 0x4000 d0 d → Within 0 0x4000 d0 (Dev.markLeft e n_ d)
  | 0, d, hd => by
    unfold Dev.markLeft
    repeat' first
      | (with_reducible refine Dev.markLeft_wr _ _ _ ?_)
      | (with_reducible exact Within.refl _)
      | (with_reducible assumption)
      | ((try lift_lets); intro x_; first
        | (refine (fun (hx_ : Within 0 0x4000 d0 x_) => ?rest) ?val; (case' rest => clear_value x_); (case' val => subst x_))
        | (have _t := fun y_ => x_ y_; clear _t; subst x_)
        | (have _t : Dev := x_.1; clear _t; subst x_)
        | (have _t : Dev := x_.2; clear _t; subst x_)
        | (have _t : Dev := x_; clear _t; subst x_)
        | clear_value x_)
      | (with_reducible refine Within.onWeb ?_ _ (by decide +kernel))
      | (with_reducible refine Within.ite ?_ ?_)
      | (intro _ _ _)
      | split
      | dsimp only
  | n_ + 1, d, hd => by
    unfold Dev.markLeft
    repeat' first
      | (with_reducible refine Dev.markLeft_wr _ _ _ ?_)
      | (with_reducible exact Within.refl _)
      | (with_reducible assumption)
      | ((try lift_lets); intro x_; first
        | (refine (fun (hx_ : Within 0 0x4000 d0 x_) => ?rest) ?val; (case' rest => clear_value x_); (case' val => subst x_))
        | (have _t := fun y_ => x_ y_; clear _t; subst x_)
        | (have _t : Dev := x_.1; clear _t; subst x_)
        | (have _t : Dev := x_.2; clear _t; subst x_)
        | (have _t : Dev := x_; clear _t; subst x_)
        | clear_value x_)
      | (with_reducible refine Within.onWeb ?_ _ (by decide +kernel))
      | (with_reducible refine Within.ite ?_ ?_)
      | (intro _ _ _)
      | split
      | dsimp only

theorem Dev.markLeft_w (e : Nat) (n_ : Nat) (d : Dev) {M P : Nat} {dz : Dev} (hd : Within M P dz d) (hm : inMask 0 M = true) (hp : inMask 0x4000 P = true) : Within M P dz (Dev.markLeft e n_ d) :=
  hd.andThen (Dev.markLeft_wr e _ _ (Within.refl d)) hm hp

theorem Dev.rebase_w0 (d : Dev) (w : Nat) : Within 0 0x4000 d (Dev.rebase d w) := by
  unfold Dev.rebase
  repeat' first
    | (with_reducible exact Within.refl _)
    | (with_reducible assumption)
    | ((try lift_lets); intro x_; first
      | (refine (fun (hx_ : Within 0 0x4000 d x_) => ?rest) ?val; (case' rest => clear_value x_); (case' val => subst x_))
      | (have _t := fun y_ => x_ y_; clear _t; subst x_)
      | (have _t : Dev := x_.1; clear _t; subst x_)
      | (have _t : Dev := x_.2; clear _t; subst x_)
      | (have _t : Dev := x_; clear _t; subst x_)
      | clear_value x_)
    | (with_reducible refine Within.onWeb ?_ _ (by decide +kernel))
    | (with_reducible refine Within.ite ?_ ?_)
    | (intro _ _ _)
    | split
    | dsimp only

theorem Dev.rebase_w (d : Dev) (w : Nat) {M P : Nat} {dz : Dev} (hd : Within M P dz d) (hm : inMask 0 M = true) (hp : inMask 0x4000 P = true) : Within M P dz (Dev.rebase d w) :=
  hd.andThen (Dev.rebase_w0 d w) hm hp

theorem Dev.setW_w0 (d : Dev) (w : Nat) (moved : Int) : Within 0x80B8010000000000000000000000000000000000000000000000380020C0008C0000000000001000004000040000 0x65BD0 d (Dev.setW d w moved) := by
  unfold Dev.setW
  repeat' first
    | (with_reducible exact Within.refl _)
    | (with_reducible assumption)
    | ((try lift_lets); intro x_; first
      | (refine (fun (hx_ : Within 0x80B8010000000000000000000000000000000000000000000000380020C0008C0000000000001000004000040000 0x65BD0 d x_) => ?rest) ?val; (case' rest => clear_value x_); (case' val => subst x_))
      | (have _t := fun y_ => x_ y_; clear _t; subst x_)
      | (have _t : Dev := x_.1; clear _t; subst x_)
      | (have _t : Dev := x_.2; clear _t; subst x_)
      | (have _t : Dev := x_; clear _t; subst x_)
      | clear_value x_)
    | (with_reducible refine Dev.takeGlades_w _ _ ?_ (by decide +kernel) (by decide +kernel))
    | (with_reducible refine Dev.markLeft_w _ _ _ ?_ (by decide +kernel) (by decide +kernel))
    | (with_reducible refine Dev.rebase_w _ _ ?_ (by decide +kernel) (by decide +kernel))
    | (with_reducible refine Within.putBitAt ?_ _ _ _ (by decide +kernel))
    | (with_reducible refine Within.putBit ?_ _ _ (by decide +kernel))
    | (with_reducible refine Within.putAt ?_ _ _ _ (by decide +kernel))
    | (with_reducible refine Within.put ?_ _ _ (by decide +kernel))
    | (with_reducible refine Within.onWeb ?_ _ (by decide +kernel))
    | (with_reducible refine Within.ite ?_ ?_)
    | (intro _ _ _)
    | split
    | dsimp only

theorem Dev.setW_w (d : Dev) (w : Nat) (moved : Int) {M P : Nat} {dz : Dev} (hd : Within M P dz d) (hm : inMask 0x80B8010000000000000000000000000000000000000000000000380020C0008C0000000000001000004000040000 M = true) (hp : inMask 0x65BD0 P = true) : Within M P dz (Dev.setW d w moved) :=
  hd.andThen (Dev.setW_w0 d w moved) hm hp

theorem Dev.moveW_w0 (d : Dev) (k : Int) : Within 0x80B8010000000000000000000000000000000000000000000000380020C0008C0000000000001000004000040000 0x65BD0 d (Dev.moveW d k) := by
  unfold Dev.moveW
  repeat' first
    | (with_reducible exact Within.refl _)
    | (with_reducible assumption)
    | (with_reducible refine Dev.setW_w _ _ _ ?_ (by decide +kernel) (by decide +kernel))
    | (with_reducible refine Within.ite ?_ ?_)
    | (intro _ _ _)
    | split
    | dsimp only

theorem Dev.moveW_w (d : Dev) (k : Int) {M P : Nat} {dz : Dev} (hd : Within M P dz d) (hm : inMask 0x80B8010000000000000000000000000000000000000000000000380020C0008C0000000000001000004000040000 M = true) (hp : inMask 0x65BD0 P = true) : Within M P dz (Dev.moveW d k) :=
  hd.andThen (Dev.moveW_w0 d k) hm hp

theorem Dev.presetW_w0 (d : Dev) (w : Nat) : Within 0x80B8010000000000000000000000000000000000000000000000380020C0008C0000000000001000004000040000 0x165BD0 d (Dev.presetW d w) := by
  unfold Dev.presetW
  repeat' first
    | (with_reducible exact Within.refl _)
    | (with_reducible assumption)
    | ((try lift_lets); intro x_; first
      | (refine (fun (hx_ : Within 0x80B8010000000000000000000000000000000000000000000000380020C0008C0000000000001000004000040000 0x165BD0 d x_) => ?rest) ?val; (case' rest => clear_value x_); (case' val => subst x_))
      | (have _t := fun y_ => x_ y_; clear _t; subst x_)
      | (have _t : Dev := x_.1; clear _t; subst x_)
      | (have _t : Dev := x_.2; clear _t; subst x_)
      | (have _t : Dev := x_; clear _t; subst x_)
      | clear_value x_)
    | (with_reducible refine Dev.takeGlades_w _ _ ?_ (by decide +kernel) (by decide +kernel))
    | (with_reducible refine Within.putBitAt ?_ _ _ _ (by decide +kernel))
    | (with_reducible refine Within.putBit ?_ _ _ (by decide +kernel))
    | (with_reducible refine Within.putAt ?_ _ _ _ (by decide +kernel))
    | (with_reducible refine Within.put ?_ _ _ (by decide +kernel))
    | (with_reducible refine Within.onWeb ?_ _ (by decide +kernel))
    | (with_reducible refine Within.onLink ?_ _ (by decide +kernel))
    | (with_reducible refine Within.ite ?_ ?_)
    | (intro _ _ _)
    | split
    | dsimp only

theorem Dev.presetW_w (d : Dev) (w : Nat) {M P : Nat} {dz : Dev} (hd : Within M P dz d) (hm : inMask 0x80B8010000000000000000000000000000000000000000000000380020C0008C0000000000001000004000040000 M = true) (hp : inMask 0x165BD0 P = true) : Within M P dz (Dev.presetW d w) :=
  hd.andThen (Dev.presetW_w0 d w) hm hp

theorem Dev.hostTick_w0 (d : Dev) : Within 0x80B8010000000000000000000000000000000000000000000000380020C0008C0000000000001000004000040000 0x65BD0 d (Dev.hostTick d) := by
  unfold Dev.hostTick
  repeat' first
    | (with_reducible exact Within.refl _)
    | (with_reducible assumption)
    | ((try lift_lets); intro x_; first
      | (refine (fun (hx_ : Within 0x80B8010000000000000000000000000000000000000000000000380020C0008C0000000000001000004000040000 0x65BD0 d x_) => ?rest) ?val; (case' rest => clear_value x_); (case' val => subst x_))
      | (have _t := fun y_ => x_ y_; clear _t; subst x_)
      | (have _t : Dev := x_.1; clear _t; subst x_)
      | (have _t : Dev := x_.2; clear _t; subst x_)
      | (have _t : Dev := x_; clear _t; subst x_)
      | clear_value x_)
    | (with_reducible refine Dev.moveW_w _ _ ?_ (by decide +kernel) (by decide +kernel))
    | (with_reducible refine Within.onWeb ?_ _ (by decide +kernel))
    | (with_reducible refine Within.ite ?_ ?_)
    | (intro _ _ _)
    | split
    | dsimp only

theorem Dev.hostTick_w (d : Dev) {M P : Nat} {dz : Dev} (hd : Within M P dz d) (hm : inMask 0x80B8010000000000000000000000000000000000000000000000380020C0008C0000000000001000004000040000 M = true) (hp : inMask 0x65BD0 P = true) : Within M P dz (Dev.hostTick d) :=
  hd.andThen (Dev.hostTick_w0 d) hm hp

theorem Dev.encTick_w0 (d : Dev) : Within 0x80B8010000000000000000000000000000000000000000000000380020C0008C0000000000001000004000040000 0x65BD0 d (Dev.encTick d) := by
  unfold Dev.encTick
  repeat' first
    | (with_reducible exact Within.refl _)
    | (with_reducible assumption)
    | (with_reducible refine Dev.moveW_w _ _ ?_ (by decide +kernel) (by decide +kernel))
    | (with_reducible refine Within.ite ?_ ?_)
    | (intro _ _ _)
    | split
    | dsimp only

theorem Dev.encTick_w (d : Dev) {M P : Nat} {dz : Dev} (hd : Within M P dz d) (hm : inMask 0x80B8010000000000000000000000000000000000000000000000380020C0008C0000000000001000004000040000 M = true) (hp : inMask 0x65BD0 P = true) : Within M P dz (Dev.encTick d) :=
  hd.andThen (Dev.encTick_w0 d) hm hp

theorem Dev.webTick_w0 (d : Dev) : Within 0x80B8010000000000000000000000000000000000000000000000380020C0008C0000000000001000004000040000 0x65BD0 d (Dev.webTick d) := by
  unfold Dev.webTick
  repeat' first
    | (with_reducible exact Within.refl _)
    | (with_reducible assumption)
    | (with_reducible refine Dev.hostTick_w _ ?_ (by decide +kernel) (by decide +kernel))
    | (with_reducible refine Dev.encTick_w _ ?_ (by decide +kernel) (by decide +kernel))
    | (with_reducible refine Within.ite ?_ ?_)
    | (intro _ _ _)
    | split
    | dsimp only

theorem Dev.webTick_w (d : Dev) {M P : Nat} {dz : Dev} (hd : Within M P dz d) (hm : inMask 0x80B8010000000000000000000000000000000000000000000000380020C0008C0000000000001000004000040000 M = true) (hp : inMask 0x65BD0 P = true) : Within M P dz (Dev.webTick d) :=
  hd.andThen (Dev.webTick_w0 d) hm hp

theorem Dev.reMark_w0 (d : Dev) (t0 : Nat) : Within 0 0x100 d (Dev.reMark d t0) := by
  unfold Dev.reMark
  repeat' first
    | (with_reducible exact Within.refl _)
    | (with_reducible assumption)
    | (with_reducible refine Within.onFpa ?_ _ (by decide +kernel))
    | (with_reducible refine Within.ite ?_ ?_)
    | (intro _ _ _)
    | split
    | dsimp only

theorem Dev.reMark_w (d : Dev) (t0 : Nat) {M P : Nat} {dz : Dev} (hd : Within M P dz d) (hm : inMask 0 M = true) (hp : inMask 0x100 P = true) : Within M P dz (Dev.reMark d t0) :=
  hd.andThen (Dev.reMark_w0 d t0) hm hp

theorem Dev.encOver_w0 (d : Dev) : Within 0x80B8010000000000000000000000000040000000000000000000384020C0008C0000000000001000004000040000 0x265BD0 d (Dev.encOver d) := by
  unfold Dev.encOver
  repeat' first
    | (with_reducible exact Within.refl _)
    | (with_reducible assumption)
    | ((try lift_lets); intro x_; first
      | (refine (fun (hx_ : Within 0x80B8010000000000000000000000000040000000000000000000384020C0008C0000000000001000004000040000 0x265BD0 d x_) => ?rest) ?val; (case' rest => clear_value x_); (case' val => subst x_))
      | (have _t := fun y_ => x_ y_; clear _t; subst x_)
      | (have _t : Dev := x_.1; clear _t; subst x_)
      | (have _t : Dev := x_.2; clear _t; subst x_)
      | (have _t : Dev := x_; clear _t; subst x_)
      | clear_value x_)
    | (with_reducible refine Dev.setW_w _ _ _ ?_ (by decide +kernel) (by decide +kernel))
    | (with_reducible refine Within.putBitAt ?_ _ _ _ (by decide +kernel))
    | (with_reducible refine Within.putBit ?_ _ _ (by decide +kernel))
    | (with_reducible refine Within.putAt ?_ _ _ _ (by decide +kernel))
    | (with_reducible refine Within.put ?_ _ _ (by decide +kernel))
    | (with_reducible refine Within.onWeb ?_ _ (by decide +kernel))
    | (with_reducible refine Within.onStand ?_ _ (by decide +kernel))
    | (with_reducible refine Within.ite ?_ ?_)
    | (intro _ _ _)
    | split
    | dsimp only

theorem Dev.encOver_w (d : Dev) {M P : Nat} {dz : Dev} (hd : Within M P dz d) (hm : inMask 0x80B8010000000000000000000000000040000000000000000000384020C0008C0000000000001000004000040000 M = true) (hp : inMask 0x265BD0 P = true) : Within M P dz (Dev.encOver d) :=
  hd.andThen (Dev.encOver_w0 d) hm hp

theorem Dev.encCount_w0 (d : Dev) (c : Int) (t0 : Nat) (back : Bool) : Within 0x80B8010000000000000000000000000040000000000000000008384020C0008C0000000000001000004000040000 0x265BD0 d (Dev.encCount d c t0 back) := by
  unfold Dev.encCount
  unfold onlyIf
  repeat' first
    | (with_reducible exact Within.refl _)
    | (with_reducible assumption)
    | ((try lift_lets); intro x_; first
      | (refine (fun (hx_ : Within 0x80B8010000000000000000000000000040000000000000000008384020C0008C0000000000001000004000040000 0x265BD0 d x_) => ?rest) ?val; (case' rest => clear_value x_); (case' val => subst x_))
      | (have _t := fun y_ => x_ y_; clear _t; subst x_)
      | (have _t : Dev := x_.1; clear _t; subst x_)
      | (have _t : Dev := x_.2; clear _t; subst x_)
      | (have _t : Dev := x_; clear _t; subst x_)
      | clear_value x_)
    | (with_reducible refine Dev.encTick_w _ ?_ (by decide +kernel) (by decide +kernel))
    | (with_reducible refine Dev.reMark_w _ _ ?_ (by decide +kernel) (by decide +kernel))
    | (with_reducible refine Dev.encOver_w _ ?_ (by decide +kernel) (by decide +kernel))
    | (with_reducible refine Within.putIAt ?_ _ _ _ (by decide +kernel))
    | (with_reducible refine Within.putI ?_ _ _ (by decide +kernel))
    | (with_reducible refine Within.onWeb ?_ _ (by decide +kernel))
    | (with_reducible refine Within.tie ?_ _)
    | (with_reducible refine Within.ite ?_ ?_)
    | (intro _ _ _)
    | split
    | dsimp only

theorem Dev.encCount_w (d : Dev) (c : Int) (t0 : Nat) (back : Bool) {M P : Nat} {dz : Dev} (hd : Within M P dz d) (hm : inMask 0x80B8010000000000000000000000000040000000000000000008384020C0008C0000000000001000004000040000 M = true) (hp : inMask 0x265BD0 P = true) : Within M P dz (Dev.encCount d c t0 back) :=
  hd.andThen (Dev.encCount_w0 d c t0 back) hm hp

theorem Dev.encBack_w0 (d : Dev) (t0 : Nat) : Within 0 0x4000 d (Dev.encBack d t0) := by
  unfold Dev.encBack
  repeat' first
    | (with_reducible exact Within.refl _)
    | (with_reducible assumption)
    | (with_reducible refine Within.onWeb ?_ _ (by decide +kernel))
    | (with_reducible refine Within.ite ?_ ?_)
    | (intro _ _ _)
    | split
    | dsimp only

theorem Dev.encBack_w (d : Dev) (t0 : Nat) {M P : Nat} {dz : Dev} (hd : Within M P dz d) (hm : inMask 0 M = true) (hp : inMask 0x4000 P = true) : Within M P dz (Dev.encBack d t0) :=
  hd.andThen (Dev.encBack_w0 d t0) hm hp

theorem encoderEdge_w0 (a : Bool) (b : Bool) (d : Dev) : Within 0x80B8010000000000000000000000000040000000000000000018384020C0008C0000000000001000004000040000 0x265BD0 d (encoderEdge a b d) := by
  unfold encoderEdge
  repeat' first
    | (with_reducible exact Within.refl _)
    | (with_reducible assumption)
    | ((try lift_lets); intro x_; first
      | (refine (fun (hx_ : Within 0x80B8010000000000000000000000000040000000000000000018384020C0008C0000000000001000004000040000 0x265BD0 d x_) => ?rest) ?val; (case' rest => clear_value x_); (case' val => subst x_))
      | (have _t := fun y_ => x_ y_; clear _t; subst x_)
      | (have _t : Dev := x_.1; clear _t; subst x_)
      | (have _t : Dev := x_.2; clear _t; subst x_)
      | (have _t : Dev := x_; clear _t; subst x_)
      | clear_value x_)
    | (with_reducible refine Dev.event_w _ _ _ ?_ (by decide +kernel) (by decide +kernel))
    | (with_reducible refine Dev.encCount_w _ _ _ _ ?_ (by decide +kernel) (by decide +kernel))
    | (with_reducible refine Dev.encBack_w _ _ ?_ (by decide +kernel) (by decide +kernel))
    | (with_reducible refine Within.incAt ?_ _ _ (by decide +kernel))
    | (with_reducible refine Within.inc ?_ _ (by decide +kernel))
    | (with_reducible refine Within.onHost ?_ _ (by decide +kernel))
    | (with_reducible refine Within.onWeb ?_ _ (by decide +kernel))
    | (with_reducible refine Within.ite ?_ ?_)
    | (intro _ _ _)
    | split
    | dsimp only

theorem encoderEdge_w (a : Bool) (b : Bool) (d : Dev) {M P : Nat} {dz : Dev} (hd : Within M P dz d) (hm : inMask 0x80B8010000000000000000000000000040000000000000000018384020C0008C0000000000001000004000040000 M = true) (hp : inMask 0x265BD0 P = true) : Within M P dz (encoderEdge a b d) :=
  hd.andThen (encoderEdge_w0 a b d) hm hp

theorem Dev.sourceLost_w0 (d : Dev) : Within 0x80B80100000000000000000000000000000000000000000000000800000000000000000000000000000000000000 0x40D0 d (Dev.sourceLost d) := by
  unfold Dev.sourceLost
  repeat' first
    | (with_reducible exact Within.refl _)
    | (with_reducible assumption)
    | ((try lift_lets); intro x_; first
      | (refine (fun (hx_ : Within 0x80B80100000000000000000000000000000000000000000000000800000000000000000000000000000000000000 0x40D0 d x_) => ?rest) ?val; (case' rest => clear_value x_); (case' val => subst x_))
      | (have _t := fun y_ => x_ y_; clear _t; subst x_)
      | (have _t : Dev := x_.1; clear _t; subst x_)
      | (have _t : Dev := x_.2; clear _t; subst x_)
      | (have _t : Dev := x_; clear _t; subst x_)
      | clear_value x_)
    | (with_reducible refine Dev.event_w _ _ _ ?_ (by decide +kernel) (by decide +kernel))
    | (with_reducible refine Within.putBitAt ?_ _ _ _ (by decide +kernel))
    | (with_reducible refine Within.putBit ?_ _ _ (by decide +kernel))
    | (with_reducible refine Within.onWeb ?_ _ (by decide +kernel))
    | (with_reducible refine Within.ite ?_ ?_)
    | (intro _ _ _)
    | split
    | dsimp only

theorem Dev.sourceLost_w (d : Dev) {M P : Nat} {dz : Dev} (hd : Within M P dz d) (hm : inMask 0x80B80100000000000000000000000000000000000000000000000800000000000000000000000000000000000000 M = true) (hp : inMask 0x40D0 P = true) : Within M P dz (Dev.sourceLost d) :=
  hd.andThen (Dev.sourceLost_w0 d) hm hp

theorem indexEdge_w0 (d : Dev) : Within 0x80B80100000000000000000000000000000000000000000000E00000000000000000000000000000000000000000 0x40D0 d (indexEdge d) := by
  unfold indexEdge
  repeat' first
    | (with_reducible exact Within.refl _)
    | (with_reducible assumption)
    | ((try lift_lets); intro x_; first
      | (refine (fun (hx_ : Within 0x80B80100000000000000000000000000000000000000000000E00000000000000000000000000000000000000000 0x40D0 d x_) => ?rest) ?val; (case' rest => clear_value x_); (case' val => subst x_))
      | (have _t := fun y_ => x_ y_; clear _t; subst x_)
      | (have _t : Dev := x_.1; clear _t; subst x_)
      | (have _t : Dev := x_.2; clear _t; subst x_)
      | (have _t : Dev := x_; clear _t; subst x_)
      | clear_value x_)
    | (with_reducible refine Dev.event_w _ _ _ ?_ (by decide +kernel) (by decide +kernel))
    | (with_reducible refine Within.putAt ?_ _ _ _ (by decide +kernel))
    | (with_reducible refine Within.put ?_ _ _ (by decide +kernel))
    | (with_reducible refine Within.incAt ?_ _ _ (by decide +kernel))
    | (with_reducible refine Within.inc ?_ _ (by decide +kernel))
    | (with_reducible refine Within.onWeb ?_ _ (by decide +kernel))
    | (with_reducible refine Within.ite ?_ ?_)
    | (intro _ _ _)
    | split
    | dsimp only

theorem indexEdge_w (d : Dev) {M P : Nat} {dz : Dev} (hd : Within M P dz d) (hm : inMask 0x80B80100000000000000000000000000000000000000000000E00000000000000000000000000000000000000000 M = true) (hp : inMask 0x40D0 P = true) : Within M P dz (indexEdge d) :=
  hd.andThen (indexEdge_w0 d) hm hp

theorem speedEvaluation_w0 (d : Dev) : Within 0x80B8010000000000000000000000000000000000000000000000480020C0008C0000000000001000004000040000 0x65BD0 d (speedEvaluation d) := by
  unfold speedEvaluation
  repeat' first
    | (with_reducible exact Within.refl _)
    | (with_reducible assumption)
    | ((try lift_lets); intro x_; first
      | (refine (fun (hx_ : Within 0x80B8010000000000000000000000000000000000000000000000480020C0008C0000000000001000004000040000 0x65BD0 d x_) => ?rest) ?val; (case' rest => clear_value x_); (case' val => subst x_))
      | (have _t := fun y_ => x_ y_; clear _t; subst x_)
      | (have _t : Dev := x_.1; clear _t; subst x_)
      | (have _t : Dev := x_.2; clear _t; subst x_)
      | (have _t : Dev := x_; clear _t; subst x_)
      | clear_value x_)
    | (with_reducible refine Dev.gladeEval_w _ ?_ (by decide +kernel) (by decide +kernel))
    | (with_reducible refine Dev.gladeSpeed_w _ ?_ (by decide +kernel) (by decide +kernel))
    | (with_reducible refine Within.putBitAt ?_ _ _ _ (by decide +kernel))
    | (with_reducible refine Within.putBit ?_ _ _ (by decide +kernel))
    | (with_reducible refine Within.putIAt ?_ _ _ _ (by decide +kernel))
    | (with_reducible refine Within.putI ?_ _ _ (by decide +kernel))
    | (with_reducible refine Within.onWeb ?_ _ (by decide +kernel))
    | (with_reducible refine Within.ite ?_ ?_)
    | (intro _ _ _)
    | split
    | dsimp only

theorem speedEvaluation_w (d : Dev) {M P : Nat} {dz : Dev} (hd : Within M P dz d) (hm : inMask 0x80B8010000000000000000000000000000000000000000000000480020C0008C0000000000001000004000040000 M = true) (hp : inMask 0x65BD0 P = true) : Within M P dz (speedEvaluation d) :=
  hd.andThen (speedEvaluation_w0 d) hm hp

theorem Dev.accResume_w0 (d : Dev) : Within 0 0x4000 d (Dev.accResume d) := by
  unfold Dev.accResume
  repeat' first
    | (with_reducible exact Within.refl _)
    | (with_reducible assumption)
    | (with_reducible refine Within.onWeb ?_ _ (by decide +kernel))
    | (with_reducible refine Within.ite ?_ ?_)
    | (intro _ _ _)
    | split
    | dsimp only

theorem Dev.accResume_w (d : Dev) {M P : Nat} {dz : Dev} (hd : Within M P dz d) (hm : inMask 0 M = true) (hp : inMask 0x4000 P = true) : Within M P dz (Dev.accResume d) :=
  hd.andThen (Dev.accResume_w0 d) hm hp

theorem webCtlWrite_w0 (v : Word) (d : Dev) : Within 0x4E0000840000000000000000000000000000000000000 0x4000 d (webCtlWrite v d) := by
  unfold webCtlWrite
  repeat' first
    | (with_reducible exact Within.refl _)
    | (with_reducible assumption)
    | ((try lift_lets); intro x_; first
      | (refine (fun (hx_ : Within 0x4E0000840000000000000000000000000000000000000 0x4000 d x_) => ?rest) ?val; (case' rest => clear_value x_); (case' val => subst x_))
      | (have _t := fun y_ => x_ y_; clear _t; subst x_)
      | (have _t : Dev := x_.1; clear _t; subst x_)
      | (have _t : Dev := x_.2; clear _t; subst x_)
      | (have _t : Dev := x_; clear _t; subst x_)
      | clear_value x_)
    | (with_reducible refine Dev.showWeb_w _ ?_ (by decide +kernel) (by decide +kernel))
    | (with_reducible refine Dev.accResume_w _ ?_ (by decide +kernel) (by decide +kernel))
    | (with_reducible refine Within.putBitAt ?_ _ _ _ (by decide +kernel))
    | (with_reducible refine Within.putBit ?_ _ _ (by decide +kernel))
    | (with_reducible refine Within.putAt ?_ _ _ _ (by decide +kernel))
    | (with_reducible refine Within.put ?_ _ _ (by decide +kernel))
    | (with_reducible refine Within.onWeb ?_ _ (by decide +kernel))
    | (with_reducible refine Within.writeWord ?_ _ _ (by decide +kernel))
    | (with_reducible refine Within.ite ?_ ?_)
    | (intro _ _ _)
    | split
    | dsimp only

theorem webCtlWrite_w (v : Word) (d : Dev) {M P : Nat} {dz : Dev} (hd : Within M P dz d) (hm : inMask 0x4E0000840000000000000000000000000000000000000 M = true) (hp : inMask 0x4000 P = true) : Within M P dz (webCtlWrite v d) :=
  hd.andThen (webCtlWrite_w0 v d) hm hp

theorem Dev.showGeo_w0 (d : Dev) : Within 0x1C000000000000000000000000000000000000000000 0 d (Dev.showGeo d) := by
  unfold Dev.showGeo
  repeat' first
    | (with_reducible exact Within.refl _)
    | (with_reducible assumption)
    | ((try lift_lets); intro x_; first
      | (refine (fun (hx_ : Within 0x1C000000000000000000000000000000000000000000 0 d x_) => ?rest) ?val; (case' rest => clear_value x_); (case' val => subst x_))
      | (have _t := fun y_ => x_ y_; clear _t; subst x_)
      | (have _t : Dev := x_.1; clear _t; subst x_)
      | (have _t : Dev := x_.2; clear _t; subst x_)
      | (have _t : Dev := x_; clear _t; subst x_)
      | clear_value x_)
    | (with_reducible refine Within.putBitAt ?_ _ _ _ (by decide +kernel))
    | (with_reducible refine Within.putBit ?_ _ _ (by decide +kernel))
    | (with_reducible refine Within.putIAt ?_ _ _ _ (by decide +kernel))
    | (with_reducible refine Within.putI ?_ _ _ (by decide +kernel))
    | (with_reducible refine Within.putAt ?_ _ _ _ (by decide +kernel))
    | (with_reducible refine Within.put ?_ _ _ (by decide +kernel))
    | (with_reducible refine Within.ite ?_ ?_)
    | (intro _ _ _)
    | split
    | dsimp only

theorem Dev.showGeo_w (d : Dev) {M P : Nat} {dz : Dev} (hd : Within M P dz d) (hm : inMask 0x1C000000000000000000000000000000000000000000 M = true) (hp : inMask 0 P = true) : Within M P dz (Dev.showGeo d) :=
  hd.andThen (Dev.showGeo_w0 d) hm hp

theorem Dev.applyGeo_w0 (d : Dev) : Within 0x1C000000000000000000000000000000000000000000 0x4040 d (Dev.applyGeo d) := by
  unfold Dev.applyGeo
  repeat' first
    | (with_reducible exact Within.refl _)
    | (with_reducible assumption)
    | (with_reducible refine Dev.freshQdr_w _ _ _ ?_ (by decide +kernel) (by decide +kernel))
    | (with_reducible refine Dev.showGeo_w _ ?_ (by decide +kernel) (by decide +kernel))
    | (with_reducible refine Within.onWeb ?_ _ (by decide +kernel))
    | (with_reducible refine Within.ite ?_ ?_)
    | (intro _ _ _)
    | split
    | dsimp only

theorem Dev.applyGeo_w (d : Dev) {M P : Nat} {dz : Dev} (hd : Within M P dz d) (hm : inMask 0x1C000000000000000000000000000000000000000000 M = true) (hp : inMask 0x4040 P = true) : Within M P dz (Dev.applyGeo d) :=
  hd.andThen (Dev.applyGeo_w0 d) hm hp

theorem Dev.geoIdle_w0 (d : Dev) : Within 0x1C000000000000000000000000000000000000000000 0x4040 d (Dev.geoIdle d) := by
  unfold Dev.geoIdle
  repeat' first
    | (with_reducible exact Within.refl _)
    | (with_reducible assumption)
    | (with_reducible refine Dev.applyGeo_w _ ?_ (by decide +kernel) (by decide +kernel))
    | (with_reducible refine Within.ite ?_ ?_)
    | (intro _ _ _)
    | split
    | dsimp only

theorem Dev.geoIdle_w (d : Dev) {M P : Nat} {dz : Dev} (hd : Within M P dz d) (hm : inMask 0x1C000000000000000000000000000000000000000000 M = true) (hp : inMask 0x4040 P = true) : Within M P dz (Dev.geoIdle d) :=
  hd.andThen (Dev.geoIdle_w0 d) hm hp

theorem geoCommit_w0 (m : Mems) (d : Dev) : Within 0x2000000000000000000000000000000000000000001C000000000000000000000000000000000000000800 0x5040 d (geoCommit m d) := by
  unfold geoCommit
  repeat' first
    | (with_reducible exact Within.refl _)
    | (with_reducible assumption)
    | ((try lift_lets); intro x_; first
      | (refine (fun (hx_ : Within 0x2000000000000000000000000000000000000000001C000000000000000000000000000000000000000800 0x5040 d x_) => ?rest) ?val; (case' rest => clear_value x_); (case' val => subst x_))
      | (have _t := fun y_ => x_ y_; clear _t; subst x_)
      | (have _t : Dev := x_.1; clear _t; subst x_)
      | (have _t : Dev := x_.2; clear _t; subst x_)
      | (have _t : Dev := x_; clear _t; subst x_)
      | clear_value x_)
    | (with_reducible refine Dev.flashPush_w _ _ ?_ (by decide +kernel) (by decide +kernel))
    | (with_reducible refine Dev.geoIdle_w _ ?_ (by decide +kernel) (by decide +kernel))
    | (with_reducible refine Within.putBitAt ?_ _ _ _ (by decide +kernel))
    | (with_reducible refine Within.putBit ?_ _ _ (by decide +kernel))
    | (with_reducible refine Within.flagAt ?_ _ _ (by decide +kernel))
    | (with_reducible refine Within.flag ?_ _ (by decide +kernel))
    | (with_reducible refine Within.onWeb ?_ _ (by decide +kernel))
    | (with_reducible refine Within.ite ?_ ?_)
    | (intro _ _ _)
    | split
    | dsimp only

theorem geoCommit_w (m : Mems) (d : Dev) {M P : Nat} {dz : Dev} (hd : Within M P dz d) (hm : inMask 0x2000000000000000000000000000000000000000001C000000000000000000000000000000000000000800 M = true) (hp : inMask 0x5040 P = true) : Within M P dz (geoCommit m d) :=
  hd.andThen (geoCommit_w0 m d) hm hp

theorem Dev.putProf_w0 (d : Dev) (id : Nat) (b : List Byte) : Within 0x100000000000000000000000000000000000000000000 0x4040 d (Dev.putProf d id b) := by
  unfold Dev.putProf
  repeat' first
    | (with_reducible exact Within.refl _)
    | (with_reducible assumption)
    | (with_reducible refine Dev.freshQdr_w _ _ _ ?_ (by decide +kernel) (by decide +kernel))
    | (with_reducible refine Within.putAt ?_ _ _ _ (by decide +kernel))
    | (with_reducible refine Within.put ?_ _ _ (by decide +kernel))
    | (with_reducible refine Within.onWeb ?_ _ (by decide +kernel))
    | (with_reducible refine Within.ite ?_ ?_)
    | (intro _ _ _)
    | split
    | dsimp only

theorem Dev.putProf_w (d : Dev) (id : Nat) (b : List Byte) {M P : Nat} {dz : Dev} (hd : Within M P dz d) (hm : inMask 0x100000000000000000000000000000000000000000000 M = true) (hp : inMask 0x4040 P = true) : Within M P dz (Dev.putProf d id b) :=
  hd.andThen (Dev.putProf_w0 d id b) hm hp

theorem doProfileDefine_w0 (c : Cmd) (d : Dev) : Within 0x20000140010000000000000000000000000000000100000000000000000000000000000000000000000800 0x5070 d (doProfileDefine c d) := by
  unfold doProfileDefine
  repeat' first
    | (with_reducible exact Within.refl _)
    | (with_reducible assumption)
    | ((try lift_lets); intro x_; first
      | (refine (fun (hx_ : Within 0x20000140010000000000000000000000000000000100000000000000000000000000000000000000000800 0x5070 d x_) => ?rest) ?val; (case' rest => clear_value x_); (case' val => subst x_))
      | (have _t := fun y_ => x_ y_; clear _t; subst x_)
      | (have _t : Dev := x_.1; clear _t; subst x_)
      | (have _t : Dev := x_.2; clear _t; subst x_)
      | (have _t : Dev := x_; clear _t; subst x_)
      | clear_value x_)
    | (with_reducible refine Dev.flashPush_w _ _ ?_ (by decide +kernel) (by decide +kernel))
    | (with_reducible refine Dev.complete_w _ _ _ _ _ ?_ (by decide +kernel) (by decide +kernel))
    | (with_reducible refine Dev.putProf_w _ _ _ ?_ (by decide +kernel) (by decide +kernel))
    | (with_reducible refine Within.ite ?_ ?_)
    | (intro _ _ _)
    | split
    | dsimp only

theorem doProfileDefine_w (c : Cmd) (d : Dev) {M P : Nat} {dz : Dev} (hd : Within M P dz d) (hm : inMask 0x20000140010000000000000000000000000000000100000000000000000000000000000000000000000800 M = true) (hp : inMask 0x5070 P = true) : Within M P dz (doProfileDefine c d) :=
  hd.andThen (doProfileDefine_w0 c d) hm hp

theorem Dev.addSwitch_w0 (d : Dev) (id : Nat) (x : Nat) : Within 0x4E0000800000000000000000000000000000000000000 0x4000 d (Dev.addSwitch d id x) := by
  unfold Dev.addSwitch
  repeat' first
    | (with_reducible exact Within.refl _)
    | (with_reducible assumption)
    | (with_reducible refine Dev.showWeb_w _ ?_ (by decide +kernel) (by decide +kernel))
    | (with_reducible refine Within.onWeb ?_ _ (by decide +kernel))
    | (with_reducible refine Within.ite ?_ ?_)
    | (intro _ _ _)
    | split
    | dsimp only

theorem Dev.addSwitch_w (d : Dev) (id : Nat) (x : Nat) {M P : Nat} {dz : Dev} (hd : Within M P dz d) (hm : inMask 0x4E0000800000000000000000000000000000000000000 M = true) (hp : inMask 0x4000 P = true) : Within M P dz (Dev.addSwitch d id x) :=
  hd.andThen (Dev.addSwitch_w0 d id x) hm hp

theorem doProfileSelect_w0 (x : Nat) (c : Cmd) (d : Dev) : Within 0x1400100000000000000000000000000000004E0000800000000000000000000000000000000000000 0x4030 d (doProfileSelect x c d) := by
  unfold doProfileSelect
  repeat' first
    | (with_reducible exact Within.refl _)
    | (with_reducible assumption)
    | ((try lift_lets); intro x_; first
      | (refine (fun (hx_ : Within 0x1400100000000000000000000000000000004E0000800000000000000000000000000000000000000 0x4030 d x_) => ?rest) ?val; (case' rest => clear_value x_); (case' val => subst x_))
      | (have _t := fun y_ => x_ y_; clear _t; subst x_)
      | (have _t : Dev := x_.1; clear _t; subst x_)
      | (have _t : Dev := x_.2; clear _t; subst x_)
      | (have _t : Dev := x_; clear _t; subst x_)
      | clear_value x_)
    | (with_reducible refine Dev.complete_w _ _ _ _ _ ?_ (by decide +kernel) (by decide +kernel))
    | (with_reducible refine Dev.ok_w _ _ _ ?_ (by decide +kernel) (by decide +kernel))
    | (with_reducible refine Dev.addSwitch_w _ _ _ ?_ (by decide +kernel) (by decide +kernel))
    | (with_reducible refine Within.ite ?_ ?_)
    | (intro _ _ _)
    | split
    | dsimp only

theorem doProfileSelect_w (x : Nat) (c : Cmd) (d : Dev) {M P : Nat} {dz : Dev} (hd : Within M P dz d) (hm : inMask 0x1400100000000000000000000000000000004E0000800000000000000000000000000000000000000 M = true) (hp : inMask 0x4030 P = true) : Within M P dz (doProfileSelect x c d) :=
  hd.andThen (doProfileSelect_w0 x c d) hm hp

theorem Dev.bootProfile_w0 (d : Dev) : Within 0x4E0000800000000000000000000000000000000000000 0x4000 d (Dev.bootProfile d) := by
  unfold Dev.bootProfile
  repeat' first
    | (with_reducible exact Within.refl _)
    | (with_reducible assumption)
    | ((try lift_lets); intro x_; first
      | (refine (fun (hx_ : Within 0x4E0000800000000000000000000000000000000000000 0x4000 d x_) => ?rest) ?val; (case' rest => clear_value x_); (case' val => subst x_))
      | (have _t := fun y_ => x_ y_; clear _t; subst x_)
      | (have _t : Dev := x_.1; clear _t; subst x_)
      | (have _t : Dev := x_.2; clear _t; subst x_)
      | (have _t : Dev := x_; clear _t; subst x_)
      | clear_value x_)
    | (with_reducible refine Dev.addSwitch_w _ _ _ ?_ (by decide +kernel) (by decide +kernel))
    | (with_reducible refine Within.onWeb ?_ _ (by decide +kernel))
    | (with_reducible refine Within.ite ?_ ?_)
    | (intro _ _ _)
    | split
    | dsimp only

theorem Dev.bootProfile_w (d : Dev) {M P : Nat} {dz : Dev} (hd : Within M P dz d) (hm : inMask 0x4E0000800000000000000000000000000000000000000 M = true) (hp : inMask 0x4000 P = true) : Within M P dz (Dev.bootProfile d) :=
  hd.andThen (Dev.bootProfile_w0 d) hm hp

theorem proofBegin_w0 (d : Dev) : Within 0x1400000840000000000001000000000000000 0x24100 d (proofBegin d) := by
  unfold proofBegin
  repeat' first
    | (with_reducible exact Within.refl _)
    | (with_reducible assumption)
    | ((try lift_lets); intro x_; first
      | (refine (fun (hx_ : Within 0x1400000840000000000001000000000000000 0x24100 d x_) => ?rest) ?val; (case' rest => clear_value x_); (case' val => subst x_))
      | (have _t := fun y_ => x_ y_; clear _t; subst x_)
      | (have _t : Dev := x_.1; clear _t; subst x_)
      | (have _t : Dev := x_.2; clear _t; subst x_)
      | (have _t : Dev := x_; clear _t; subst x_)
      | clear_value x_)
    | (with_reducible refine Dev.startDrive_w _ _ _ ?_ (by decide +kernel) (by decide +kernel))
    | (with_reducible refine Within.putBitAt ?_ _ _ _ (by decide +kernel))
    | (with_reducible refine Within.putBit ?_ _ _ (by decide +kernel))
    | (with_reducible refine Within.putAt ?_ _ _ _ (by decide +kernel))
    | (with_reducible refine Within.put ?_ _ _ (by decide +kernel))
    | (with_reducible refine Within.incAt ?_ _ _ (by decide +kernel))
    | (with_reducible refine Within.inc ?_ _ (by decide +kernel))
    | (with_reducible refine Within.onProof ?_ _ (by decide +kernel))
    | (with_reducible refine Within.ite ?_ ?_)
    | (intro _ _ _)
    | split
    | dsimp only

theorem proofBegin_w (d : Dev) {M P : Nat} {dz : Dev} (hd : Within M P dz d) (hm : inMask 0x1400000840000000000001000000000000000 M = true) (hp : inMask 0x24100 P = true) : Within M P dz (proofBegin d) :=
  hd.andThen (proofBegin_w0 d) hm hp

theorem settlingEnd_w0 (d : Dev) : Within 0 0x20000 d (settlingEnd d) := by
  unfold settlingEnd
  repeat' first
    | (with_reducible exact Within.refl _)
    | (with_reducible assumption)
    | (with_reducible refine Within.onProof ?_ _ (by decide +kernel))
    | (with_reducible refine Within.ite ?_ ?_)
    | (intro _ _ _)
    | split
    | dsimp only

theorem settlingEnd_w (d : Dev) {M P : Nat} {dz : Dev} (hd : Within M P dz d) (hm : inMask 0 M = true) (hp : inMask 0x20000 P = true) : Within M P dz (settlingEnd d) :=
  hd.andThen (settlingEnd_w0 d) hm hp

theorem noFrames_w0 (d : Dev) : Within 0x80B80100000000000000000000000000000000000000000000000000200800840000000000001000000000000000 0x249D0 d (noFrames d) := by
  unfold noFrames
  repeat' first
    | (with_reducible exact Within.refl _)
    | (with_reducible assumption)
    | ((try lift_lets); intro x_; first
      | (refine (fun (hx_ : Within 0x80B80100000000000000000000000000000000000000000000000000200800840000000000001000000000000000 0x249D0 d x_) => ?rest) ?val; (case' rest => clear_value x_); (case' val => subst x_))
      | (have _t := fun y_ => x_ y_; clear _t; subst x_)
      | (have _t : Dev := x_.1; clear _t; subst x_)
      | (have _t : Dev := x_.2; clear _t; subst x_)
      | (have _t : Dev := x_; clear _t; subst x_)
      | clear_value x_)
    | (with_reducible refine Dev.proofAbort_w _ _ ?_ (by decide +kernel) (by decide +kernel))
    | (with_reducible refine Within.putBitAt ?_ _ _ _ (by decide +kernel))
    | (with_reducible refine Within.putBit ?_ _ _ (by decide +kernel))
    | (with_reducible refine Within.putAt ?_ _ _ _ (by decide +kernel))
    | (with_reducible refine Within.put ?_ _ _ (by decide +kernel))
    | (with_reducible refine Within.onProof ?_ _ (by decide +kernel))
    | (with_reducible refine Within.ite ?_ ?_)
    | (intro _ _ _)
    | split
    | dsimp only

theorem noFrames_w (d : Dev) {M P : Nat} {dz : Dev} (hd : Within M P dz d) (hm : inMask 0x80B80100000000000000000000000000000000000000000000000000200800840000000000001000000000000000 M = true) (hp : inMask 0x249D0 P = true) : Within M P dz (noFrames d) :=
  hd.andThen (noFrames_w0 d) hm hp

theorem commitPoint_w0 (m : Mems) (r : ProofRun) (d : Dev) : Within 0x80B80100000000000000000000000000000000000000000000000000200040840000000000001000000000000000 0x249D0 d (commitPoint m r d) := by
  unfold commitPoint
  repeat' first
    | (with_reducible exact Within.refl _)
    | (with_reducible assumption)
    | ((try lift_lets); intro x_; first
      | (refine (fun (hx_ : Within 0x80B80100000000000000000000000000000000000000000000000000200040840000000000001000000000000000 0x249D0 d x_) => ?rest) ?val; (case' rest => clear_value x_); (case' val => subst x_))
      | (have _t := fun y_ => x_ y_; clear _t; subst x_)
      | (have _t : Dev := x_.1; clear _t; subst x_)
      | (have _t : Dev := x_.2; clear _t; subst x_)
      | (have _t : Dev := x_; clear _t; subst x_)
      | clear_value x_)
    | (with_reducible refine Dev.startDrive_w _ _ _ ?_ (by decide +kernel) (by decide +kernel))
    | (with_reducible refine Dev.proofAbort_w _ _ ?_ (by decide +kernel) (by decide +kernel))
    | (with_reducible refine Within.putAt ?_ _ _ _ (by decide +kernel))
    | (with_reducible refine Within.put ?_ _ _ (by decide +kernel))
    | (with_reducible refine Within.onProof ?_ _ (by decide +kernel))
    | (with_reducible refine Within.ite ?_ ?_)
    | (intro _ _ _)
    | split
    | dsimp only

theorem commitPoint_w (m : Mems) (r : ProofRun) (d : Dev) {M P : Nat} {dz : Dev} (hd : Within M P dz d) (hm : inMask 0x80B80100000000000000000000000000000000000000000000000000200040840000000000001000000000000000 M = true) (hp : inMask 0x249D0 P = true) : Within M P dz (commitPoint m r d) :=
  hd.andThen (commitPoint_w0 m r d) hm hp

theorem addAverage_w0 (f : Frame) (r : ProofRun) (d : Dev) : Within 0x40000000000000000000000000000 0x20000 d (addAverage f r d) := by
  unfold addAverage
  repeat' first
    | (with_reducible exact Within.refl _)
    | (with_reducible assumption)
    | (with_reducible refine Within.putAt ?_ _ _ _ (by decide +kernel))
    | (with_reducible refine Within.put ?_ _ _ (by decide +kernel))
    | (with_reducible refine Within.onProof ?_ _ (by decide +kernel))
    | (with_reducible refine Within.ite ?_ ?_)
    | (intro _ _ _)
    | split
    | dsimp only

theorem addAverage_w (f : Frame) (r : ProofRun) (d : Dev) {M P : Nat} {dz : Dev} (hd : Within M P dz d) (hm : inMask 0x40000000000000000000000000000 M = true) (hp : inMask 0x20000 P = true) : Within M P dz (addAverage f r d) :=
  hd.andThen (addAverage_w0 f r d) hm hp

theorem proofBoundary_w0 (m : Mems) (f : Frame) (d : Dev) : Within 0x80B80100000000000000000000000000000000000000000000000000200040840000000000001000000000000000 0x249D0 d (proofBoundary m f d) := by
  unfold proofBoundary
  repeat' first
    | (with_reducible exact Within.refl _)
    | (with_reducible assumption)
    | ((try lift_lets); intro x_; first
      | (refine (fun (hx_ : Within 0x80B80100000000000000000000000000000000000000000000000000200040840000000000001000000000000000 0x249D0 d x_) => ?rest) ?val; (case' rest => clear_value x_); (case' val => subst x_))
      | (have _t := fun y_ => x_ y_; clear _t; subst x_)
      | (have _t : Dev := x_.1; clear _t; subst x_)
      | (have _t : Dev := x_.2; clear _t; subst x_)
      | (have _t : Dev := x_; clear _t; subst x_)
      | clear_value x_)
    | (with_reducible refine Dev.proofAbort_w _ _ ?_ (by decide +kernel) (by decide +kernel))
    | (with_reducible refine commitPoint_w _ _ _ ?_ (by decide +kernel) (by decide +kernel))
    | (with_reducible refine addAverage_w _ _ _ ?_ (by decide +kernel) (by decide +kernel))
    | (with_reducible refine Within.onProof ?_ _ (by decide +kernel))
    | (with_reducible refine Within.ite ?_ ?_)
    | (intro _ _ _)
    | split
    | dsimp only

theorem proofBoundary_w (m : Mems) (f : Frame) (d : Dev) {M P : Nat} {dz : Dev} (hd : Within M P dz d) (hm : inMask 0x80B80100000000000000000000000000000000000000000000000000200040840000000000001000000000000000 M = true) (hp : inMask 0x249D0 P = true) : Within M P dz (proofBoundary m f d) :=
  hd.andThen (proofBoundary_w0 m f d) hm hp

theorem offsetsComputed_w0 (m : Mems) (d : Dev) : Within 0x100000000000000000000000000000000 0x20000 d (offsetsComputed m d) := by
  unfold offsetsComputed
  repeat' first
    | (with_reducible exact Within.refl _)
    | (with_reducible assumption)
    | ((try lift_lets); intro x_; first
      | (refine (fun (hx_ : Within 0x100000000000000000000000000000000 0x20000 d x_) => ?rest) ?val; (case' rest => clear_value x_); (case' val => subst x_))
      | (have _t := fun y_ => x_ y_; clear _t; subst x_)
      | (have _t : Dev := x_.1; clear _t; subst x_)
      | (have _t : Dev := x_.2; clear _t; subst x_)
      | (have _t : Dev := x_; clear _t; subst x_)
      | clear_value x_)
    | (with_reducible refine Within.putAt ?_ _ _ _ (by decide +kernel))
    | (with_reducible refine Within.put ?_ _ _ (by decide +kernel))
    | (with_reducible refine Within.onProof ?_ _ (by decide +kernel))
    | (with_reducible refine Within.ite ?_ ?_)
    | (intro _ _ _)
    | split
    | dsimp only

theorem offsetsComputed_w (m : Mems) (d : Dev) {M P : Nat} {dz : Dev} (hd : Within M P dz d) (hm : inMask 0x100000000000000000000000000000000 M = true) (hp : inMask 0x20000 P = true) : Within M P dz (offsetsComputed m d) :=
  hd.andThen (offsetsComputed_w0 m d) hm hp

theorem tauFit_w0 (m : Mems) (d : Dev) : Within 0x800040000000000000000000000000000 0x20000 d (tauFit m d) := by
  unfold tauFit
  repeat' first
    | (with_reducible exact Within.refl _)
    | (with_reducible assumption)
    | ((try lift_lets); intro x_; first
      | (refine (fun (hx_ : Within 0x800040000000000000000000000000000 0x20000 d x_) => ?rest) ?val; (case' rest => clear_value x_); (case' val => subst x_))
      | (have _t := fun y_ => x_ y_; clear _t; subst x_)
      | (have _t : Dev := x_.1; clear _t; subst x_)
      | (have _t : Dev := x_.2; clear _t; subst x_)
      | (have _t : Dev := x_; clear _t; subst x_)
      | clear_value x_)
    | (with_reducible refine Within.putBitAt ?_ _ _ _ (by decide +kernel))
    | (with_reducible refine Within.putBit ?_ _ _ (by decide +kernel))
    | (with_reducible refine Within.putAt ?_ _ _ _ (by decide +kernel))
    | (with_reducible refine Within.put ?_ _ _ (by decide +kernel))
    | (with_reducible refine Within.onProof ?_ _ (by decide +kernel))
    | (with_reducible refine Within.ite ?_ ?_)
    | (intro _ _ _)
    | split
    | dsimp only

theorem tauFit_w (m : Mems) (d : Dev) {M P : Nat} {dz : Dev} (hd : Within M P dz d) (hm : inMask 0x800040000000000000000000000000000 M = true) (hp : inMask 0x20000 P = true) : Within M P dz (tauFit m d) :=
  hd.andThen (tauFit_w0 m d) hm hp

theorem Dev.putTrust_w0 (d : Dev) (ok : Bool) : Within 0x2000000000000000000000 0 d (Dev.putTrust d ok) := by
  unfold Dev.putTrust
  repeat' first
    | (with_reducible exact Within.refl _)
    | (with_reducible assumption)
    | ((try lift_lets); intro x_; first
      | (refine (fun (hx_ : Within 0x2000000000000000000000 0 d x_) => ?rest) ?val; (case' rest => clear_value x_); (case' val => subst x_))
      | (have _t := fun y_ => x_ y_; clear _t; subst x_)
      | (have _t : Dev := x_.1; clear _t; subst x_)
      | (have _t : Dev := x_.2; clear _t; subst x_)
      | (have _t : Dev := x_; clear _t; subst x_)
      | clear_value x_)
    | (with_reducible refine Within.putBitAt ?_ _ _ _ (by decide +kernel))
    | (with_reducible refine Within.putBit ?_ _ _ (by decide +kernel))
    | (with_reducible refine Within.putAt ?_ _ _ _ (by decide +kernel))
    | (with_reducible refine Within.put ?_ _ _ (by decide +kernel))
    | (with_reducible refine Within.ite ?_ ?_)
    | (intro _ _ _)
    | split
    | dsimp only

theorem Dev.putTrust_w (d : Dev) (ok : Bool) {M P : Nat} {dz : Dev} (hd : Within M P dz d) (hm : inMask 0x2000000000000000000000 M = true) (hp : inMask 0 P = true) : Within M P dz (Dev.putTrust d ok) :=
  hd.andThen (Dev.putTrust_w0 d ok) hm hp

theorem learnStep_w0 (m : Mems) (r : ProofRun) (es : List (Nat × Rat)) (d : Dev) : Within 0x202000000000000000000000 0x2000 d (learnStep m r es d) := by
  unfold learnStep
  repeat' first
    | (with_reducible exact Within.refl _)
    | (with_reducible assumption)
    | ((try lift_lets); intro x_; first
      | (refine (fun (hx_ : Within 0x202000000000000000000000 0x2000 d x_) => ?rest) ?val; (case' rest => clear_value x_); (case' val => subst x_))
      | (have _t := fun y_ => x_ y_; clear _t; subst x_)
      | (have _t : Dev := x_.1; clear _t; subst x_)
      | (have _t : Dev := x_.2; clear _t; subst x_)
      | (have _t : Dev := x_; clear _t; subst x_)
      | clear_value x_)
    | (with_reducible refine Dev.putTrust_w _ _ ?_ (by decide +kernel) (by decide +kernel))
    | (with_reducible refine Within.putBitAt ?_ _ _ _ (by decide +kernel))
    | (with_reducible refine Within.putBit ?_ _ _ (by decide +kernel))
    | (with_reducible refine Within.putIAt ?_ _ _ _ (by decide +kernel))
    | (with_reducible refine Within.putI ?_ _ _ (by decide +kernel))
    | (with_reducible refine Within.onBurin ?_ _ (by decide +kernel))
    | (with_reducible refine Within.foldl ?_ _ _ ?_)
    | (with_reducible refine Within.ite ?_ ?_)
    | (intro _ _ _)
    | split
    | dsimp only

theorem learnStep_w (m : Mems) (r : ProofRun) (es : List (Nat × Rat)) (d : Dev) {M P : Nat} {dz : Dev} (hd : Within M P dz d) (hm : inMask 0x202000000000000000000000 M = true) (hp : inMask 0x2000 P = true) : Within M P dz (learnStep m r es d) :=
  hd.andThen (learnStep_w0 m r es d) hm hp

theorem outlierStep_w0 (r : ProofRun) (es : List (Nat × Rat)) (d : Dev) : Within 0x80B80100000000000000000000000000000000000000000000000000000000000000000000000000000000000000 0xD0 d (outlierStep r es d) := by
  unfold outlierStep
  repeat' first
    | (with_reducible exact Within.refl _)
    | (with_reducible assumption)
    | ((try lift_lets); intro x_; first
      | (refine (fun (hx_ : Within 0x80B80100000000000000000000000000000000000000000000000000000000000000000000000000000000000000 0xD0 d x_) => ?rest) ?val; (case' rest => clear_value x_); (case' val => subst x_))
      | (have _t := fun y_ => x_ y_; clear _t; subst x_)
      | (have _t : Dev := x_.1; clear _t; subst x_)
      | (have _t : Dev := x_.2; clear _t; subst x_)
      | (have _t : Dev := x_; clear _t; subst x_)
      | clear_value x_)
    | (with_reducible refine Dev.event_w _ _ _ ?_ (by decide +kernel) (by decide +kernel))
    | (with_reducible refine Within.onHealth ?_ _ (by decide +kernel))
    | (with_reducible refine Within.foldl ?_ _ _ ?_)
    | (with_reducible refine Within.ite ?_ ?_)
    | (intro _ _ _)
    | split
    | dsimp only

theorem outlierStep_w (r : ProofRun) (es : List (Nat × Rat)) (d : Dev) {M P : Nat} {dz : Dev} (hd : Within M P dz d) (hm : inMask 0x80B80100000000000000000000000000000000000000000000000000000000000000000000000000000000000000 M = true) (hp : inMask 0xD0 P = true) : Within M P dz (outlierStep r es d) :=
  hd.andThen (outlierStep_w0 r es d) hm hp

theorem Dev.planShow_w0 (d : Dev) : Within 0x8000000000000000000000000000000000000000000000000000000000000000000000000000000000000000000000 0 d (Dev.planShow d) := by
  unfold Dev.planShow
  repeat' first
    | (with_reducible exact Within.refl _)
    | (with_reducible assumption)
    | (with_reducible refine Within.putAt ?_ _ _ _ (by decide +kernel))
    | (with_reducible refine Within.put ?_ _ _ (by decide +kernel))
    | (with_reducible refine Within.ite ?_ ?_)
    | (intro _ _ _)
    | split
    | dsimp only

theorem Dev.planShow_w (d : Dev) {M P : Nat} {dz : Dev} (hd : Within M P dz d) (hm : inMask 0x8000000000000000000000000000000000000000000000000000000000000000000000000000000000000000000000 M = true) (hp : inMask 0 P = true) : Within M P dz (Dev.planShow d) :=
  hd.andThen (Dev.planShow_w0 d) hm hp

theorem Dev.planCheck_w0 (d : Dev) : Within 0x8000000000000140010000000000000000000000000000000000000000000000000000000000000000000000000000 0xB0 d (Dev.planCheck d) := by
  unfold Dev.planCheck
  repeat' first
    | (with_reducible exact Within.refl _)
    | (with_reducible assumption)
    | ((try lift_lets); intro x_; first
      | (refine (fun (hx_ : Within 0x8000000000000140010000000000000000000000000000000000000000000000000000000000000000000000000000 0xB0 d x_) => ?rest) ?val; (case' rest => clear_value x_); (case' val => subst x_))
      | (have _t := fun y_ => x_ y_; clear _t; subst x_)
      | (have _t : Dev := x_.1; clear _t; subst x_)
      | (have _t : Dev := x_.2; clear _t; subst x_)
      | (have _t : Dev := x_; clear _t; subst x_)
      | clear_value x_)
    | (with_reducible refine Dev.ok_w _ _ _ ?_ (by decide +kernel) (by decide +kernel))
    | (with_reducible refine Dev.completeAll_w _ _ _ _ _ ?_ (by decide +kernel) (by decide +kernel))
    | (with_reducible refine Dev.planShow_w _ ?_ (by decide +kernel) (by decide +kernel))
    | (with_reducible refine Within.onHealth ?_ _ (by decide +kernel))
    | (with_reducible refine Within.ite ?_ ?_)
    | (intro _ _ _)
    | split
    | dsimp only

theorem Dev.planCheck_w (d : Dev) {M P : Nat} {dz : Dev} (hd : Within M P dz d) (hm : inMask 0x8000000000000140010000000000000000000000000000000000000000000000000000000000000000000000000000 M = true) (hp : inMask 0xB0 P = true) : Within M P dz (Dev.planCheck d) :=
  hd.andThen (Dev.planCheck_w0 d) hm hp

theorem Dev.radioKeep_w0 (d : Dev) : Within 0x100000000000000000000000000000000000000000000000000000000000000000000000000000000000000 0xC0 d (Dev.radioKeep d) := by
  unfold Dev.radioKeep
  repeat' first
    | (with_reducible exact Within.refl _)
    | (with_reducible assumption)
    | ((try lift_lets); intro x_; first
      | (refine (fun (hx_ : Within 0x100000000000000000000000000000000000000000000000000000000000000000000000000000000000000 0xC0 d x_) => ?rest) ?val; (case' rest => clear_value x_); (case' val => subst x_))
      | (have _t := fun y_ => x_ y_; clear _t; subst x_)
      | (have _t : Dev := x_.1; clear _t; subst x_)
      | (have _t : Dev := x_.2; clear _t; subst x_)
      | (have _t : Dev := x_; clear _t; subst x_)
      | clear_value x_)
    | (with_reducible refine Dev.keepPush_w _ _ _ ?_ (by decide +kernel) (by decide +kernel))
    | (with_reducible refine Within.onHealth ?_ _ (by decide +kernel))
    | (with_reducible refine Within.ite ?_ ?_)
    | (intro _ _ _)
    | split
    | dsimp only

theorem Dev.radioKeep_w (d : Dev) {M P : Nat} {dz : Dev} (hd : Within M P dz d) (hm : inMask 0x100000000000000000000000000000000000000000000000000000000000000000000000000000000000000 M = true) (hp : inMask 0xC0 P = true) : Within M P dz (Dev.radioKeep d) :=
  hd.andThen (Dev.radioKeep_w0 d) hm hp

theorem proofComplete_w0 (d : Dev) : Within 0x21000000000000000000000000000000000000000000000000001000000C8000010000000000000002000000 0x221C0 d (proofComplete d) := by
  unfold proofComplete
  repeat' first
    | (with_reducible exact Within.refl _)
    | (with_reducible assumption)
    | ((try lift_lets); intro x_; first
      | (refine (fun (hx_ : Within 0x21000000000000000000000000000000000000000000000000001000000C8000010000000000000002000000 0x221C0 d x_) => ?rest) ?val; (case' rest => clear_value x_); (case' val => subst x_))
      | (have _t := fun y_ => x_ y_; clear _t; subst x_)
      | (have _t : Dev := x_.1; clear _t; subst x_)
      | (have _t : Dev := x_.2; clear _t; subst x_)
      | (have _t : Dev := x_; clear _t; subst x_)
      | clear_value x_)
    | (with_reducible refine Dev.tallyInc_w _ _ ?_ (by decide +kernel) (by decide +kernel))
    | (with_reducible refine Dev.keepPush_w _ _ _ ?_ (by decide +kernel) (by decide +kernel))
    | (with_reducible refine Dev.unrequest_w _ _ ?_ (by decide +kernel) (by decide +kernel))
    | (with_reducible refine Dev.showOverdue_w _ ?_ (by decide +kernel) (by decide +kernel))
    | (with_reducible refine Dev.radioKeep_w _ ?_ (by decide +kernel) (by decide +kernel))
    | (with_reducible refine Within.putBitAt ?_ _ _ _ (by decide +kernel))
    | (with_reducible refine Within.putBit ?_ _ _ (by decide +kernel))
    | (with_reducible refine Within.putIAt ?_ _ _ _ (by decide +kernel))
    | (with_reducible refine Within.putI ?_ _ _ (by decide +kernel))
    | (with_reducible refine Within.putAt ?_ _ _ _ (by decide +kernel))
    | (with_reducible refine Within.put ?_ _ _ (by decide +kernel))
    | (with_reducible refine Within.onFpa ?_ _ (by decide +kernel))
    | (with_reducible refine Within.onBurin ?_ _ (by decide +kernel))
    | (with_reducible refine Within.onProof ?_ _ (by decide +kernel))
    | (with_reducible refine Within.foldl ?_ _ _ ?_)
    | (with_reducible refine Within.ite ?_ ?_)
    | (intro _ _ _)
    | split
    | dsimp only

theorem proofComplete_w (d : Dev) {M P : Nat} {dz : Dev} (hd : Within M P dz d) (hm : inMask 0x21000000000000000000000000000000000000000000000000001000000C8000010000000000000002000000 M = true) (hp : inMask 0x221C0 P = true) : Within M P dz (proofComplete d) :=
  hd.andThen (proofComplete_w0 d) hm hp

theorem takeSwap_w0 (m : Mems) (d : Dev) : Within 0x21200000000000000000000000000000000000000000000000001000000D80001F090001F000000002000800 0x239C0 d (takeSwap m d) := by
  unfold takeSwap
  repeat' first
    | (with_reducible exact Within.refl _)
    | (with_reducible assumption)
    | ((try lift_lets); intro x_; first
      | (refine (fun (hx_ : Within 0x21200000000000000000000000000000000000000000000000001000000D80001F090001F000000002000800 0x239C0 d x_) => ?rest) ?val; (case' rest => clear_value x_); (case' val => subst x_))
      | (have _t := fun y_ => x_ y_; clear _t; subst x_)
      | (have _t : Dev := x_.1; clear _t; subst x_)
      | (have _t : Dev := x_.2; clear _t; subst x_)
      | (have _t : Dev := x_; clear _t; subst x_)
      | clear_value x_)
    | (with_reducible refine swapRoles_w _ _ ?_ (by decide +kernel) (by decide +kernel))
    | (with_reducible refine proofComplete_w _ ?_ (by decide +kernel) (by decide +kernel))
    | (with_reducible refine Within.ite ?_ ?_)
    | (intro _ _ _)
    | split
    | dsimp only

theorem takeSwap_w (m : Mems) (d : Dev) {M P : Nat} {dz : Dev} (hd : Within M P dz d) (hm : inMask 0x21200000000000000000000000000000000000000000000000001000000D80001F090001F000000002000800 M = true) (hp : inMask 0x239C0 P = true) : Within M P dz (takeSwap m d) :=
  hd.andThen (takeSwap_w0 m d) hm hp

theorem Dev.swapWatch_w0 (d : Dev) : Within 0 0x800 d (Dev.swapWatch d) := by
  unfold Dev.swapWatch
  repeat' first
    | (with_reducible exact Within.refl _)
    | (with_reducible assumption)
    | (with_reducible refine Within.onPipe ?_ _ (by decide +kernel))
    | (with_reducible refine Within.ite ?_ ?_)
    | (intro _ _ _)
    | split
    | dsimp only

theorem Dev.swapWatch_w (d : Dev) {M P : Nat} {dz : Dev} (hd : Within M P dz d) (hm : inMask 0 M = true) (hp : inMask 0x800 P = true) : Within M P dz (Dev.swapWatch d) :=
  hd.andThen (Dev.swapWatch_w0 d) hm hp

theorem swapFallback_w0 (m : Mems) (d : Dev) : Within 0x80B821200000000000000000000000000000000000000000000000001000000D80001F090059F000000002000800 0x239D0 d (swapFallback m d) := by
  unfold swapFallback
  repeat' first
    | (with_reducible exact Within.refl _)
    | (with_reducible assumption)
    | ((try lift_lets); intro x_; first
      | (refine (fun (hx_ : Within 0x80B821200000000000000000000000000000000000000000000000001000000D80001F090059F000000002000800 0x239D0 d x_) => ?rest) ?val; (case' rest => clear_value x_); (case' val => subst x_))
      | (have _t := fun y_ => x_ y_; clear _t; subst x_)
      | (have _t : Dev := x_.1; clear _t; subst x_)
      | (have _t : Dev := x_.2; clear _t; subst x_)
      | (have _t : Dev := x_; clear _t; subst x_)
      | clear_value x_)
    | (with_reducible refine clusterStep_w _ _ ?_ (by decide +kernel) (by decide +kernel))
    | (with_reducible refine takeSwap_w _ _ ?_ (by decide +kernel) (by decide +kernel))
    | (with_reducible refine Within.flagAt ?_ _ _ (by decide +kernel))
    | (with_reducible refine Within.flag ?_ _ (by decide +kernel))
    | (with_reducible refine Within.onPipe ?_ _ (by decide +kernel))
    | (with_reducible refine Within.ite ?_ ?_)
    | (intro _ _ _)
    | split
    | dsimp only

theorem swapFallback_w (m : Mems) (d : Dev) {M P : Nat} {dz : Dev} (hd : Within M P dz d) (hm : inMask 0x80B821200000000000000000000000000000000000000000000000001000000D80001F090059F000000002000800 M = true) (hp : inMask 0x239D0 P = true) : Within M P dz (swapFallback m d) :=
  hd.andThen (swapFallback_w0 m d) hm hp

theorem calPass_w0 (group : Nat) (gains : List (Nat × Nat)) (d : Dev) : Within 0x80B80100000000000000000000000000000000000000000000000030000000080000000000000000000000000000 0xA01D0 d (calPass group gains d) := by
  unfold calPass
  repeat' first
    | (with_reducible exact Within.refl _)
    | (with_reducible assumption)
    | ((try lift_lets); intro x_; first
      | (refine (fun (hx_ : Within 0x80B80100000000000000000000000000000000000000000000000030000000080000000000000000000000000000 0xA01D0 d x_) => ?rest) ?val; (case' rest => clear_value x_); (case' val => subst x_))
      | (have _t := fun y_ => x_ y_; clear _t; subst x_)
      | (have _t : Dev := x_.1; clear _t; subst x_)
      | (have _t : Dev := x_.2; clear _t; subst x_)
      | (have _t : Dev := x_; clear _t; subst x_)
      | clear_value x_)
    | (with_reducible refine Dev.event_w _ _ _ ?_ (by decide +kernel) (by decide +kernel))
    | (with_reducible refine Dev.request_w _ _ ?_ (by decide +kernel) (by decide +kernel))
    | (with_reducible refine Within.putAt ?_ _ _ _ (by decide +kernel))
    | (with_reducible refine Within.put ?_ _ _ (by decide +kernel))
    | (with_reducible refine Within.incWrapAt ?_ _ _ (by decide +kernel))
    | (with_reducible refine Within.incWrap ?_ _ (by decide +kernel))
    | (with_reducible refine Within.incAt ?_ _ _ (by decide +kernel))
    | (with_reducible refine Within.inc ?_ _ (by decide +kernel))
    | (with_reducible refine Within.onFpa ?_ _ (by decide +kernel))
    | (with_reducible refine Within.onCc ?_ _ (by decide +kernel))
    | (with_reducible refine Within.foldl ?_ _ _ ?_)
    | (with_reducible refine Within.ite ?_ ?_)
    | (intro _ _ _)
    | split
    | dsimp only

theorem calPass_w (group : Nat) (gains : List (Nat × Nat)) (d : Dev) {M P : Nat} {dz : Dev} (hd : Within M P dz d) (hm : inMask 0x80B80100000000000000000000000000000000000000000000000030000000080000000000000000000000000000 M = true) (hp : inMask 0xA01D0 P = true) : Within M P dz (calPass group gains d) :=
  hd.andThen (calPass_w0 group gains d) hm hp

theorem verticalBlanking_w0 (d : Dev) : Within 0x600000000000000000000000000000000000000000000000000000000000000000000000000000000000000000000000000 0x80400 d (verticalBlanking d) := by
  unfold verticalBlanking
  repeat' first
    | (with_reducible exact Within.refl _)
    | (with_reducible assumption)
    | ((try lift_lets); intro x_; first
      | (refine (fun (hx_ : Within 0x600000000000000000000000000000000000000000000000000000000000000000000000000000000000000000000000000 0x80400 d x_) => ?rest) ?val; (case' rest => clear_value x_); (case' val => subst x_))
      | (have _t := fun y_ => x_ y_; clear _t; subst x_)
      | (have _t : Dev := x_.1; clear _t; subst x_)
      | (have _t : Dev := x_.2; clear _t; subst x_)
      | (have _t : Dev := x_; clear _t; subst x_)
      | clear_value x_)
    | (with_reducible refine Dev.auxDue_w _ _ ?_ (by decide +kernel) (by decide +kernel))
    | (with_reducible refine Dev.auxStart_w _ ?_ (by decide +kernel) (by decide +kernel))
    | (with_reducible refine Within.onCc ?_ _ (by decide +kernel))
    | (with_reducible refine Within.ite ?_ ?_)
    | (intro _ _ _)
    | split
    | dsimp only

theorem verticalBlanking_w (d : Dev) {M P : Nat} {dz : Dev} (hd : Within M P dz d) (hm : inMask 0x600000000000000000000000000000000000000000000000000000000000000000000000000000000000000000000000000 M = true) (hp : inMask 0x80400 P = true) : Within M P dz (verticalBlanking d) :=
  hd.andThen (verticalBlanking_w0 d) hm hp

theorem doCurveWrite_w0 (c : Cmd) (d : Dev) : Within 0x2000000140010000000000000000000000000000000000000000000000000010000000000000000000000000 0x2070 d (doCurveWrite c d) := by
  unfold doCurveWrite
  repeat' first
    | (with_reducible exact Within.refl _)
    | (with_reducible assumption)
    | ((try lift_lets); intro x_; first
      | (refine (fun (hx_ : Within 0x2000000140010000000000000000000000000000000000000000000000000010000000000000000000000000 0x2070 d x_) => ?rest) ?val; (case' rest => clear_value x_); (case' val => subst x_))
      | (have _t := fun y_ => x_ y_; clear _t; subst x_)
      | (have _t : Dev := x_.1; clear _t; subst x_)
      | (have _t : Dev := x_.2; clear _t; subst x_)
      | (have _t : Dev := x_; clear _t; subst x_)
      | clear_value x_)
    | (with_reducible refine Dev.tallyInc_w _ _ ?_ (by decide +kernel) (by decide +kernel))
    | (with_reducible refine Dev.complete_w _ _ _ _ _ ?_ (by decide +kernel) (by decide +kernel))
    | (with_reducible refine Dev.ok_w _ _ _ ?_ (by decide +kernel) (by decide +kernel))
    | (with_reducible refine Within.putBitAt ?_ _ _ _ (by decide +kernel))
    | (with_reducible refine Within.putBit ?_ _ _ (by decide +kernel))
    | (with_reducible refine Within.onBurin ?_ _ (by decide +kernel))
    | (with_reducible refine Within.ite ?_ ?_)
    | (intro _ _ _)
    | split
    | dsimp only

theorem doCurveWrite_w (c : Cmd) (d : Dev) {M P : Nat} {dz : Dev} (hd : Within M P dz d) (hm : inMask 0x2000000140010000000000000000000000000000000000000000000000000010000000000000000000000000 M = true) (hp : inMask 0x2070 P = true) : Within M P dz (doCurveWrite c d) :=
  hd.andThen (doCurveWrite_w0 c d) hm hp

theorem Dev.curvePersist_w0 (d : Dev) (m : Mems) (g : Nat) (bytes : List Byte) : Within 0x20000000000000000000000000000000000000000000000000000000000000000000000000000000000800 0x3040 d (Dev.curvePersist d m g bytes) := by
  unfold Dev.curvePersist
  repeat' first
    | (with_reducible exact Within.refl _)
    | (with_reducible assumption)
    | ((try lift_lets); intro x_; first
      | (refine (fun (hx_ : Within 0x20000000000000000000000000000000000000000000000000000000000000000000000000000000000800 0x3040 d x_) => ?rest) ?val; (case' rest => clear_value x_); (case' val => subst x_))
      | (have _t := fun y_ => x_ y_; clear _t; subst x_)
      | (have _t : Dev := x_.1; clear _t; subst x_)
      | (have _t : Dev := x_.2; clear _t; subst x_)
      | (have _t : Dev := x_; clear _t; subst x_)
      | clear_value x_)
    | (with_reducible refine Dev.flashPush_w _ _ ?_ (by decide +kernel) (by decide +kernel))
    | (with_reducible refine Within.onStore ?_ _ (by decide +kernel))
    | (with_reducible refine Within.onBurin ?_ _ (by decide +kernel))
    | (with_reducible refine Within.ite ?_ ?_)
    | (intro _ _ _)
    | split
    | dsimp only

theorem Dev.curvePersist_w (d : Dev) (m : Mems) (g : Nat) (bytes : List Byte) {M P : Nat} {dz : Dev} (hd : Within M P dz d) (hm : inMask 0x20000000000000000000000000000000000000000000000000000000000000000000000000000000000800 M = true) (hp : inMask 0x3040 P = true) : Within M P dz (Dev.curvePersist d m g bytes) :=
  hd.andThen (Dev.curvePersist_w0 d m g bytes) hm hp

theorem Dev.showCurve_w0 (d : Dev) (range : Nat) (src : Nat) (seq : Nat) : Within 0x30000000000000000000000000 0 d (Dev.showCurve d range src seq) := by
  unfold Dev.showCurve
  repeat' first
    | (with_reducible exact Within.refl _)
    | (with_reducible assumption)
    | (with_reducible refine Within.putAt ?_ _ _ _ (by decide +kernel))
    | (with_reducible refine Within.put ?_ _ _ (by decide +kernel))
    | (with_reducible refine Within.ite ?_ ?_)
    | (intro _ _ _)
    | split
    | dsimp only

theorem Dev.showCurve_w (d : Dev) (range : Nat) (src : Nat) (seq : Nat) {M P : Nat} {dz : Dev} (hd : Within M P dz d) (hm : inMask 0x30000000000000000000000000 M = true) (hp : inMask 0 P = true) : Within M P dz (Dev.showCurve d range src seq) :=
  hd.andThen (Dev.showCurve_w0 d range src seq) hm hp

theorem acCtlWrite_w0 (v : Word) (d : Dev) : Within 0x100000000000000000000000000 0 d (acCtlWrite v d) := by
  unfold acCtlWrite
  repeat' first
    | (with_reducible exact Within.refl _)
    | (with_reducible assumption)
    | ((try lift_lets); intro x_; first
      | (refine (fun (hx_ : Within 0x100000000000000000000000000 0 d x_) => ?rest) ?val; (case' rest => clear_value x_); (case' val => subst x_))
      | (have _t := fun y_ => x_ y_; clear _t; subst x_)
      | (have _t : Dev := x_.1; clear _t; subst x_)
      | (have _t : Dev := x_.2; clear _t; subst x_)
      | (have _t : Dev := x_; clear _t; subst x_)
      | clear_value x_)
    | (with_reducible refine Within.writeWord ?_ _ _ (by decide +kernel))
    | (with_reducible refine Within.ite ?_ ?_)
    | (intro _ _ _)
    | split
    | dsimp only

theorem acCtlWrite_w (v : Word) (d : Dev) {M P : Nat} {dz : Dev} (hd : Within M P dz d) (hm : inMask 0x100000000000000000000000000 M = true) (hp : inMask 0 P = true) : Within M P dz (acCtlWrite v d) :=
  hd.andThen (acCtlWrite_w0 v d) hm hp

theorem dmCoeffWrite_w0 (i : Nat) (v : Word) (d : Dev) : Within 0x100000000000000000000000000000000000000000000000000000000000000012000000000000000000000 0x40 d (dmCoeffWrite i v d) := by
  unfold dmCoeffWrite
  repeat' first
    | (with_reducible exact Within.refl _)
    | (with_reducible assumption)
    | ((try lift_lets); intro x_; first
      | (refine (fun (hx_ : Within 0x100000000000000000000000000000000000000000000000000000000000000012000000000000000000000 0x40 d x_) => ?rest) ?val; (case' rest => clear_value x_); (case' val => subst x_))
      | (have _t := fun y_ => x_ y_; clear _t; subst x_)
      | (have _t : Dev := x_.1; clear _t; subst x_)
      | (have _t : Dev := x_.2; clear _t; subst x_)
      | (have _t : Dev := x_; clear _t; subst x_)
      | clear_value x_)
    | (with_reducible refine Dev.keepPush_w _ _ _ ?_ (by decide +kernel) (by decide +kernel))
    | (with_reducible refine Dev.putTrust_w _ _ ?_ (by decide +kernel) (by decide +kernel))
    | (with_reducible refine Within.putAt ?_ _ _ _ (by decide +kernel))
    | (with_reducible refine Within.put ?_ _ _ (by decide +kernel))
    | (with_reducible refine Within.ite ?_ ?_)
    | (intro _ _ _)
    | split
    | dsimp only

theorem dmCoeffWrite_w (i : Nat) (v : Word) (d : Dev) {M P : Nat} {dz : Dev} (hd : Within M P dz d) (hm : inMask 0x100000000000000000000000000000000000000000000000000000000000000012000000000000000000000 M = true) (hp : inMask 0x40 P = true) : Within M P dz (dmCoeffWrite i v d) :=
  hd.andThen (dmCoeffWrite_w0 i v d) hm hp

theorem classStep_w0 (m : Mems) (t : Int) (f : Int) (d : Dev) : Within 0x80B80100000000000000000000000000000000000000000000000000000000000E00000000000000000000000000 0x20D0 d (classStep m t f d) := by
  unfold classStep
  repeat' first
    | (with_reducible exact Within.refl _)
    | (with_reducible assumption)
    | ((try lift_lets); intro x_; first
      | (refine (fun (hx_ : Within 0x80B80100000000000000000000000000000000000000000000000000000000000E00000000000000000000000000 0x20D0 d x_) => ?rest) ?val; (case' rest => clear_value x_); (case' val => subst x_))
      | (have _t := fun y_ => x_ y_; clear _t; subst x_)
      | (have _t : Dev := x_.1; clear _t; subst x_)
      | (have _t : Dev := x_.2; clear _t; subst x_)
      | (have _t : Dev := x_; clear _t; subst x_)
      | clear_value x_)
    | (with_reducible refine Dev.event_w _ _ _ ?_ (by decide +kernel) (by decide +kernel))
    | (with_reducible refine Within.putBitAt ?_ _ _ _ (by decide +kernel))
    | (with_reducible refine Within.putBit ?_ _ _ (by decide +kernel))
    | (with_reducible refine Within.putAt ?_ _ _ _ (by decide +kernel))
    | (with_reducible refine Within.put ?_ _ _ (by decide +kernel))
    | (with_reducible refine Within.incWrapAt ?_ _ _ (by decide +kernel))
    | (with_reducible refine Within.incWrap ?_ _ (by decide +kernel))
    | (with_reducible refine Within.onBurin ?_ _ (by decide +kernel))
    | (with_reducible refine Within.ite ?_ ?_)
    | (intro _ _ _)
    | split
    | dsimp only

theorem classStep_w (m : Mems) (t : Int) (f : Int) (d : Dev) {M P : Nat} {dz : Dev} (hd : Within M P dz d) (hm : inMask 0x80B80100000000000000000000000000000000000000000000000000000000000E00000000000000000000000000 M = true) (hp : inMask 0x20D0 P = true) : Within M P dz (classStep m t f d) :=
  hd.andThen (classStep_w0 m t f d) hm hp

theorem takeCommit_w0 (b : Nat) (d : Dev) : Within 0x14001000000000000000000000000000000000000000000000000000000000000000000010E000000 0x130 d (takeCommit b d) := by
  unfold takeCommit
  repeat' first
    | (with_reducible exact Within.refl _)
    | (with_reducible assumption)
    | ((try lift_lets); intro x_; first
      | (refine (fun (hx_ : Within 0x14001000000000000000000000000000000000000000000000000000000000000000000010E000000 0x130 d x_) => ?rest) ?val; (case' rest => clear_value x_); (case' val => subst x_))
      | (have _t := fun y_ => x_ y_; clear _t; subst x_)
      | (have _t : Dev := x_.1; clear _t; subst x_)
      | (have _t : Dev := x_.2; clear _t; subst x_)
      | (have _t : Dev := x_; clear _t; subst x_)
      | clear_value x_)
    | (with_reducible refine Dev.ok_w _ _ _ ?_ (by decide +kernel) (by decide +kernel))
    | (with_reducible refine Dev.completeK_w _ _ _ _ _ ?_ (by decide +kernel) (by decide +kernel))
    | (with_reducible refine Dev.showPend_w _ ?_ (by decide +kernel) (by decide +kernel))
    | (with_reducible refine Within.putAt ?_ _ _ _ (by decide +kernel))
    | (with_reducible refine Within.put ?_ _ _ (by decide +kernel))
    | (with_reducible refine Within.onFpa ?_ _ (by decide +kernel))
    | (with_reducible refine Within.ite ?_ ?_)
    | (intro _ _ _)
    | split
    | dsimp only

theorem takeCommit_w (b : Nat) (d : Dev) {M P : Nat} {dz : Dev} (hd : Within M P dz d) (hm : inMask 0x14001000000000000000000000000000000000000000000000000000000000000000000010E000000 M = true) (hp : inMask 0x130 P = true) : Within M P dz (takeCommit b d) :=
  hd.andThen (takeCommit_w0 b d) hm hp

theorem takePlates_w0 (m : Mems) (b : Nat) (oldGain : Nat) (d : Dev) : Within 0x80B821200000000000000000000000000000000000000000000000003000008D80001F090001F000000002000800 0x279D0 d (takePlates m b oldGain d) := by
  unfold takePlates
  repeat' first
    | (with_reducible exact Within.refl _)
    | (with_reducible assumption)
    | ((try lift_lets); intro x_; first
      | (refine (fun (hx_ : Within 0x80B821200000000000000000000000000000000000000000000000003000008D80001F090001F000000002000800 0x279D0 d x_) => ?rest) ?val; (case' rest => clear_value x_); (case' val => subst x_))
      | (have _t := fun y_ => x_ y_; clear _t; subst x_)
      | (have _t : Dev := x_.1; clear _t; subst x_)
      | (have _t : Dev := x_.2; clear _t; subst x_)
      | (have _t : Dev := x_; clear _t; subst x_)
      | clear_value x_)
    | (with_reducible refine rangeChange_w _ _ _ ?_ (by decide +kernel) (by decide +kernel))
    | (with_reducible refine Dev.proofAbort_w _ _ ?_ (by decide +kernel) (by decide +kernel))
    | (with_reducible refine proofComplete_w _ ?_ (by decide +kernel) (by decide +kernel))
    | (with_reducible refine takeSwap_w _ _ ?_ (by decide +kernel) (by decide +kernel))
    | (with_reducible refine Within.ite ?_ ?_)
    | (intro _ _ _)
    | split
    | dsimp only

theorem takePlates_w (m : Mems) (b : Nat) (oldGain : Nat) (d : Dev) {M P : Nat} {dz : Dev} (hd : Within M P dz d) (hm : inMask 0x80B821200000000000000000000000000000000000000000000000003000008D80001F090001F000000002000800 M = true) (hp : inMask 0x279D0 P = true) : Within M P dz (takePlates m b oldGain d) :=
  hd.andThen (takePlates_w0 m b oldGain d) hm hp

theorem takeSubsts_w0 (d : Dev) : Within 0x80140000002000000 0x100 d (takeSubsts d) := by
  unfold takeSubsts
  repeat' first
    | (with_reducible exact Within.refl _)
    | (with_reducible assumption)
    | ((try lift_lets); intro x_; first
      | (refine (fun (hx_ : Within 0x80140000002000000 0x100 d x_) => ?rest) ?val; (case' rest => clear_value x_); (case' val => subst x_))
      | (have _t := fun y_ => x_ y_; clear _t; subst x_)
      | (have _t : Dev := x_.1; clear _t; subst x_)
      | (have _t : Dev := x_.2; clear _t; subst x_)
      | (have _t : Dev := x_; clear _t; subst x_)
      | clear_value x_)
    | (with_reducible refine Within.putBitAt ?_ _ _ _ (by decide +kernel))
    | (with_reducible refine Within.putBit ?_ _ _ (by decide +kernel))
    | (with_reducible refine Within.putAt ?_ _ _ _ (by decide +kernel))
    | (with_reducible refine Within.put ?_ _ _ (by decide +kernel))
    | (with_reducible refine Within.onFpa ?_ _ (by decide +kernel))
    | (with_reducible refine Within.foldl ?_ _ _ ?_)
    | (with_reducible refine Within.ite ?_ ?_)
    | (intro _ _ _)
    | split
    | dsimp only

theorem takeSubsts_w (d : Dev) {M P : Nat} {dz : Dev} (hd : Within M P dz d) (hm : inMask 0x80140000002000000 M = true) (hp : inMask 0x100 P = true) : Within M P dz (takeSubsts d) :=
  hd.andThen (takeSubsts_w0 d) hm hp

theorem showLastFrame_w0 (d : Dev) : Within 0xC0000700200000000000000000 0 d (showLastFrame d) := by
  unfold showLastFrame
  repeat' first
    | (with_reducible exact Within.refl _)
    | (with_reducible assumption)
    | ((try lift_lets); intro x_; first
      | (refine (fun (hx_ : Within 0xC0000700200000000000000000 0 d x_) => ?rest) ?val; (case' rest => clear_value x_); (case' val => subst x_))
      | (have _t := fun y_ => x_ y_; clear _t; subst x_)
      | (have _t : Dev := x_.1; clear _t; subst x_)
      | (have _t : Dev := x_.2; clear _t; subst x_)
      | (have _t : Dev := x_; clear _t; subst x_)
      | clear_value x_)
    | (with_reducible refine Within.putBitAt ?_ _ _ _ (by decide +kernel))
    | (with_reducible refine Within.putBit ?_ _ _ (by decide +kernel))
    | (with_reducible refine Within.putAt ?_ _ _ _ (by decide +kernel))
    | (with_reducible refine Within.put ?_ _ _ (by decide +kernel))
    | (with_reducible refine Within.ite ?_ ?_)
    | (intro _ _ _)
    | split
    | dsimp only

theorem showLastFrame_w (d : Dev) {M P : Nat} {dz : Dev} (hd : Within M P dz d) (hm : inMask 0xC0000700200000000000000000 M = true) (hp : inMask 0 P = true) : Within M P dz (showLastFrame d) :=
  hd.andThen (showLastFrame_w0 d) hm hp

theorem retireFrames_w0 (d : Dev) : Within 0 0xC110 d (retireFrames d) := by
  unfold retireFrames
  repeat' first
    | (with_reducible exact Within.refl _)
    | (with_reducible assumption)
    | ((try lift_lets); intro x_; first
      | (refine (fun (hx_ : Within 0 0xC110 d x_) => ?rest) ?val; (case' rest => clear_value x_); (case' val => subst x_))
      | (have _t := fun y_ => x_ y_; clear _t; subst x_)
      | (have _t : Dev := x_.1; clear _t; subst x_)
      | (have _t : Dev := x_.2; clear _t; subst x_)
      | (have _t : Dev := x_; clear _t; subst x_)
      | clear_value x_)
    | (with_reducible refine Dev.frameStats_w _ _ ?_ (by decide +kernel) (by decide +kernel))
    | (with_reducible refine Within.onFpa ?_ _ (by decide +kernel))
    | (with_reducible refine Within.onWeb ?_ _ (by decide +kernel))
    | (with_reducible refine Within.foldl ?_ _ _ ?_)
    | (with_reducible refine Within.ite ?_ ?_)
    | (intro _ _ _)
    | split
    | dsimp only

theorem retireFrames_w (d : Dev) {M P : Nat} {dz : Dev} (hd : Within M P dz d) (hm : inMask 0 M = true) (hp : inMask 0xC110 P = true) : Within M P dz (retireFrames d) :=
  hd.andThen (retireFrames_w0 d) hm hp

theorem nextBoundary_w0 (b : Nat) (d : Dev) : Within 0x10A000000 0x100 d (nextBoundary b d) := by
  unfold nextBoundary
  repeat' first
    | (with_reducible exact Within.refl _)
    | (with_reducible assumption)
    | ((try lift_lets); intro x_; first
      | (refine (fun (hx_ : Within 0x10A000000 0x100 d x_) => ?rest) ?val; (case' rest => clear_value x_); (case' val => subst x_))
      | (have _t := fun y_ => x_ y_; clear _t; subst x_)
      | (have _t : Dev := x_.1; clear _t; subst x_)
      | (have _t : Dev := x_.2; clear _t; subst x_)
      | (have _t : Dev := x_; clear _t; subst x_)
      | clear_value x_)
    | (with_reducible refine Dev.showPend_w _ ?_ (by decide +kernel) (by decide +kernel))
    | (with_reducible refine Within.onFpa ?_ _ (by decide +kernel))
    | (with_reducible refine Within.ite ?_ ?_)
    | (intro _ _ _)
    | split
    | dsimp only

theorem nextBoundary_w (b : Nat) (d : Dev) {M P : Nat} {dz : Dev} (hd : Within M P dz d) (hm : inMask 0x10A000000 M = true) (hp : inMask 0x100 P = true) : Within M P dz (nextBoundary b d) :=
  hd.andThen (nextBoundary_w0 b d) hm hp

theorem boundaryFrame_w0 (m : Mems) (b : Nat) (d0 : Dev) (d : Dev) : Within 0x200000080B8010000014001000000000000000000000000000000001C000000200040840E0000800558114000070A000000 0x2EDF0 d (boundaryFrame m b d0 d) := by
  unfold boundaryFrame
  repeat' first
    | (with_reducible exact Within.refl _)
    | (with_reducible assumption)
    | ((try lift_lets); intro x_; first
      | (refine (fun (hx_ : Within 0x200000080B8010000014001000000000000000000000000000000001C000000200040840E0000800558114000070A000000 0x2EDF0 d x_) => ?rest) ?val; (case' rest => clear_value x_); (case' val => subst x_))
      | (have _t := fun y_ => x_ y_; clear _t; subst x_)
      | (have _t : Dev := x_.1; clear _t; subst x_)
      | (have _t : Dev := x_.2; clear _t; subst x_)
      | (have _t : Dev := x_; clear _t; subst x_)
      | clear_value x_)
    | (with_reducible refine clusterStep_w _ _ ?_ (by decide +kernel) (by decide +kernel))
    | (with_reducible refine captureBoundary_w _ _ ?_ (by decide +kernel) (by decide +kernel))
    | (with_reducible refine Dev.auxDue_w _ _ ?_ (by decide +kernel) (by decide +kernel))
    | (with_reducible refine Dev.showGeo_w _ ?_ (by decide +kernel) (by decide +kernel))
    | (with_reducible refine proofBoundary_w _ _ _ ?_ (by decide +kernel) (by decide +kernel))
    | (with_reducible refine classStep_w _ _ _ _ ?_ (by decide +kernel) (by decide +kernel))
    | (with_reducible refine takeSubsts_w _ ?_ (by decide +kernel) (by decide +kernel))
    | (with_reducible refine retireFrames_w _ ?_ (by decide +kernel) (by decide +kernel))
    | (with_reducible refine nextBoundary_w _ _ ?_ (by decide +kernel) (by decide +kernel))
    | (with_reducible refine Within.putAt ?_ _ _ _ (by decide +kernel))
    | (with_reducible refine Within.put ?_ _ _ (by decide +kernel))
    | (with_reducible refine Within.incWrapAt ?_ _ _ (by decide +kernel))
    | (with_reducible refine Within.incWrap ?_ _ (by decide +kernel))
    | (with_reducible refine Within.onFpa ?_ _ (by decide +kernel))
    | (with_reducible refine Within.onPipe ?_ _ (by decide +kernel))
    | (with_reducible refine Within.ite ?_ ?_)
    | (intro _ _ _)
    | split
    | dsimp only

theorem boundaryFrame_w (m : Mems) (b : Nat) (d0 : Dev) (d : Dev) {M P : Nat} {dz : Dev} (hd : Within M P dz d) (hm : inMask 0x200000080B8010000014001000000000000000000000000000000001C000000200040840E0000800558114000070A000000 M = true) (hp : inMask 0x2EDF0 P = true) : Within M P dz (boundaryFrame m b d0 d) :=
  hd.andThen (boundaryFrame_w0 m b d0 d) hm hp

theorem skipBoundary_w0 (b : Nat) (d : Dev) : Within 0x10A000000 0x100 d (skipBoundary b d) := by
  unfold skipBoundary
  repeat' first
    | (with_reducible exact Within.refl _)
    | (with_reducible assumption)
    | (with_reducible refine Dev.showPend_w _ ?_ (by decide +kernel) (by decide +kernel))
    | (with_reducible refine Within.onFpa ?_ _ (by decide +kernel))
    | (with_reducible refine Within.ite ?_ ?_)
    | (intro _ _ _)
    | split
    | dsimp only

theorem skipBoundary_w (b : Nat) (d : Dev) {M P : Nat} {dz : Dev} (hd : Within M P dz d) (hm : inMask 0x10A000000 M = true) (hp : inMask 0x100 P = true) : Within M P dz (skipBoundary b d) :=
  hd.andThen (skipBoundary_w0 b d) hm hp

theorem doStartImaging_w0 (c : Cmd) (d : Dev) : Within 0x1400100000000000000000000000000000004E000080000000000000000000000000000018B000000 0x4130 d (doStartImaging c d) := by
  unfold doStartImaging
  repeat' first
    | (with_reducible exact Within.refl _)
    | (with_reducible assumption)
    | (with_reducible refine Dev.complete_w _ _ _ _ _ ?_ (by decide +kernel) (by decide +kernel))
    | (with_reducible refine Dev.ok_w _ _ _ ?_ (by decide +kernel) (by decide +kernel))
    | (with_reducible refine Dev.bootProfile_w _ ?_ (by decide +kernel) (by decide +kernel))
    | (with_reducible refine startReadout_w1 _ ?_ (by decide +kernel) (by decide +kernel))
    | (with_reducible refine startReadout_w _ _ _ (by assumption) ?_ (by decide +kernel) (by decide +kernel))
    | (with_reducible refine Within.ite ?_ ?_)
    | (intro _ _ _)
    | split
    | dsimp only

theorem doStartImaging_w (c : Cmd) (d : Dev) {M P : Nat} {dz : Dev} (hd : Within M P dz d) (hm : inMask 0x1400100000000000000000000000000000004E000080000000000000000000000000000018B000000 M = true) (hp : inMask 0x4130 P = true) : Within M P dz (doStartImaging c d) :=
  hd.andThen (doStartImaging_w0 c d) hm hp

theorem Dev.stopDone_w0 (d : Dev) : Within 0x140010000000000000000000000000000000000000000000000000000000000000000000002000000 0x130 d (Dev.stopDone d) := by
  unfold Dev.stopDone
  repeat' first
    | (with_reducible exact Within.refl _)
    | (with_reducible assumption)
    | ((try lift_lets); intro x_; first
      | (refine (fun (hx_ : Within 0x140010000000000000000000000000000000000000000000000000000000000000000000002000000 0x130 d x_) => ?rest) ?val; (case' rest => clear_value x_); (case' val => subst x_))
      | (have _t := fun y_ => x_ y_; clear _t; subst x_)
      | (have _t : Dev := x_.1; clear _t; subst x_)
      | (have _t : Dev := x_.2; clear _t; subst x_)
      | (have _t : Dev := x_; clear _t; subst x_)
      | clear_value x_)
    | (with_reducible refine Dev.ok_w _ _ _ ?_ (by decide +kernel) (by decide +kernel))
    | (with_reducible refine Dev.completeAll_w _ _ _ _ _ ?_ (by decide +kernel) (by decide +kernel))
    | (with_reducible refine Within.putBitAt ?_ _ _ _ (by decide +kernel))
    | (with_reducible refine Within.putBit ?_ _ _ (by decide +kernel))
    | (with_reducible refine Within.onFpa ?_ _ (by decide +kernel))
    | (with_reducible refine Within.ite ?_ ?_)
    | (intro _ _ _)
    | split
    | dsimp only

theorem Dev.stopDone_w (d : Dev) {M P : Nat} {dz : Dev} (hd : Within M P dz d) (hm : inMask 0x140010000000000000000000000000000000000000000000000000000000000000000000002000000 M = true) (hp : inMask 0x130 P = true) : Within M P dz (Dev.stopDone d) :=
  hd.andThen (Dev.stopDone_w0 d) hm hp

theorem stopAll_w0 (d : Dev) : Within 0x80B8010000000000000000000000000000000000000000000000000020000084000000000000100000010B000000 0x249D0 d (stopAll d) := by
  unfold stopAll
  repeat' first
    | (with_reducible exact Within.refl _)
    | (with_reducible assumption)
    | (with_reducible refine stopReadout_w _ ?_ (by decide +kernel) (by decide +kernel))
    | (with_reducible refine Dev.abortEarly_w _ _ ?_ (by decide +kernel) (by decide +kernel))
    | (with_reducible refine Within.ite ?_ ?_)
    | (intro _ _ _)
    | split
    | dsimp only

theorem stopAll_w (d : Dev) {M P : Nat} {dz : Dev} (hd : Within M P dz d) (hm : inMask 0x80B8010000000000000000000000000000000000000000000000000020000084000000000000100000010B000000 M = true) (hp : inMask 0x249D0 P = true) : Within M P dz (stopAll d) :=
  hd.andThen (stopAll_w0 d) hm hp

theorem doStopImaging_w0 (c : Cmd) (d : Dev) : Within 0x80B8010000014001000000000000000000000000000000000000000020000084000000000100100000010B000000 0x249F0 d (doStopImaging c d) := by
  unfold doStopImaging
  repeat' first
    | (with_reducible exact Within.refl _)
    | (with_reducible assumption)
    | ((try lift_lets); intro x_; first
      | (refine (fun (hx_ : Within 0x80B8010000014001000000000000000000000000000000000000000020000084000000000100100000010B000000 0x249F0 d x_) => ?rest) ?val; (case' rest => clear_value x_); (case' val => subst x_))
      | (have _t := fun y_ => x_ y_; clear _t; subst x_)
      | (have _t : Dev := x_.1; clear _t; subst x_)
      | (have _t : Dev := x_.2; clear _t; subst x_)
      | (have _t : Dev := x_; clear _t; subst x_)
      | clear_value x_)
    | (with_reducible refine abandonWhere_w _ _ ?_ (by decide +kernel) (by decide +kernel))
    | (with_reducible refine Dev.stopDone_w _ ?_ (by decide +kernel) (by decide +kernel))
    | (with_reducible refine stopAll_w _ ?_ (by decide +kernel) (by decide +kernel))
    | (with_reducible refine Within.onFpa ?_ _ (by decide +kernel))
    | (with_reducible refine Within.ite ?_ ?_)
    | (intro _ _ _)
    | split
    | dsimp only

theorem doStopImaging_w (c : Cmd) (d : Dev) {M P : Nat} {dz : Dev} (hd : Within M P dz d) (hm : inMask 0x80B8010000014001000000000000000000000000000000000000000020000084000000000100100000010B000000 M = true) (hp : inMask 0x249F0 P = true) : Within M P dz (doStopImaging c d) :=
  hd.andThen (doStopImaging_w0 c d) hm hp

end Sys2Proof.Machine
end

