-- ==== Sys2Proof/Laws/FramesLink.lean ====
section
/-! SUPPORT. Frames of the operations of storage, link, health, pins, power and security. -/

set_option linter.unusedVariables false
set_option Elab.async false

namespace Sys2Proof.Machine

open Sys2Proof

theorem Dev.beginSweep_w0 (d : Dev) : Within 0x800000000000000000000000000000000000000000000000000000000000000000000000000000000 0x40 d (Dev.beginSweep d) := by
  unfold Dev.beginSweep
  repeat' first
    | (with_reducible exact Within.refl _)
    | (with_reducible assumption)
    | (with_reducible refine Within.putBitAt ?_ _ _ _ (by decide +kernel))
    | (with_reducible refine Within.putBit ?_ _ _ (by decide +kernel))
    | (with_reducible refine Within.onStore ?_ _ (by decide +kernel))
    | (with_reducible refine Within.ite ?_ ?_)
    | (intro _ _ _)
    | split
    | dsimp only

theorem Dev.beginSweep_w (d : Dev) {M P : Nat} {dz : Dev} (hd : Within M P dz d) (hm : inMask 0x800000000000000000000000000000000000000000000000000000000000000000000000000000000 M = true) (hp : inMask 0x40 P = true) : Within M P dz (Dev.beginSweep d) :=
  hd.andThen (Dev.beginSweep_w0 d) hm hp

theorem Dev.sweepComplete_w0 (d : Dev) : Within 0x1800000000000000000000000000000000000000000000000000000000000000000000000000000000 0x40 d (Dev.sweepComplete d) := by
  unfold Dev.sweepComplete
  repeat' first
    | (with_reducible exact Within.refl _)
    | (with_reducible assumption)
    | ((try lift_lets); intro x_; first
      | (refine (fun (hx_ : Within 0x1800000000000000000000000000000000000000000000000000000000000000000000000000000000 0x40 d x_) => ?rest) ?val; (case' rest => clear_value x_); (case' val => subst x_))
      | (have _t := fun y_ => x_ y_; clear _t; subst x_)
      | (have _t : Dev := x_.1; clear _t; subst x_)
      | (have _t : Dev := x_.2; clear _t; subst x_)
      | (have _t : Dev := x_; clear _t; subst x_)
      | clear_value x_)
    | (with_reducible refine Dev.beginSweep_w _ ?_ (by decide +kernel) (by decide +kernel))
    | (with_reducible refine Within.putBitAt ?_ _ _ _ (by decide +kernel))
    | (with_reducible refine Within.putBit ?_ _ _ (by decide +kernel))
    | (with_reducible refine Within.putAt ?_ _ _ _ (by decide +kernel))
    | (with_reducible refine Within.put ?_ _ _ (by decide +kernel))
    | (with_reducible refine Within.incWrapAt ?_ _ _ (by decide +kernel))
    | (with_reducible refine Within.incWrap ?_ _ (by decide +kernel))
    | (with_reducible refine Within.ite ?_ ?_)
    | (intro _ _ _)
    | split
    | dsimp only

theorem Dev.sweepComplete_w (d : Dev) {M P : Nat} {dz : Dev} (hd : Within M P dz d) (hm : inMask 0x1800000000000000000000000000000000000000000000000000000000000000000000000000000000 M = true) (hp : inMask 0x40 P = true) : Within M P dz (Dev.sweepComplete d) :=
  hd.andThen (Dev.sweepComplete_w0 d) hm hp

theorem twSelWrite_w0 (i : Nat) (v : Word) (d : Dev) : Within 0 8 d (twSelWrite i v d) := by
  unfold twSelWrite
  repeat' first
    | (with_reducible exact Within.refl _)
    | (with_reducible assumption)
    | ((try lift_lets); intro x_; first
      | (refine (fun (hx_ : Within 0 8 d x_) => ?rest) ?val; (case' rest => clear_value x_); (case' val => subst x_))
      | (have _t := fun y_ => x_ y_; clear _t; subst x_)
      | (have _t : Dev := x_.1; clear _t; subst x_)
      | (have _t : Dev := x_.2; clear _t; subst x_)
      | (have _t : Dev := x_; clear _t; subst x_)
      | clear_value x_)
    | (with_reducible refine Dev.putPath_w _ _ _ ?_ (by decide +kernel) (by decide +kernel))
    | (with_reducible refine Within.putPath ?_ _ _ (by decide +kernel))
    | (with_reducible refine Within.ite ?_ ?_)
    | (intro _ _ _)
    | split
    | dsimp only

theorem twSelWrite_w (i : Nat) (v : Word) (d : Dev) {M P : Nat} {dz : Dev} (hd : Within M P dz d) (hm : inMask 0 M = true) (hp : inMask 8 P = true) : Within M P dz (twSelWrite i v d) :=
  hd.andThen (twSelWrite_w0 i v d) hm hp

theorem Dev.keepLog_w0 (d : Dev) (code : Nat) (n : Nat) (gs : List Nat) : Within 0x80B80100000000000000000000000000000000000000000000000000000000000000000000000000000000000000 0xD0 d (Dev.keepLog d code n gs) := by
  unfold Dev.keepLog
  repeat' first
    | (with_reducible exact Within.refl _)
    | (with_reducible assumption)
    | (with_reducible refine Dev.event_w _ _ _ ?_ (by decide +kernel) (by decide +kernel))
    | (with_reducible refine Within.foldl ?_ _ _ ?_)
    | (with_reducible refine Within.ite ?_ ?_)
    | (intro _ _ _)
    | split
    | dsimp only

theorem Dev.keepLog_w (d : Dev) (code : Nat) (n : Nat) (gs : List Nat) {M P : Nat} {dz : Dev} (hd : Within M P dz d) (hm : inMask 0x80B80100000000000000000000000000000000000000000000000000000000000000000000000000000000000000 M = true) (hp : inMask 0xD0 P = true) : Within M P dz (Dev.keepLog d code n gs) :=
  hd.andThen (Dev.keepLog_w0 d code n gs) hm hp

theorem Dev.keepSeen_w0 (d : Dev) (errs : List KeepErr) (a : Nat) (n : Nat) : Within 0x80B81F00000000000000000000000000000000000000000000000000000000000000000000000000000000000000 0xD0 d (Dev.keepSeen d errs a n) := by
  unfold Dev.keepSeen
  repeat' first
    | (with_reducible exact Within.refl _)
    | (with_reducible assumption)
    | ((try lift_lets); intro x_; first
      | (refine (fun (hx_ : Within 0x80B81F00000000000000000000000000000000000000000000000000000000000000000000000000000000000000 0xD0 d x_) => ?rest) ?val; (case' rest => clear_value x_); (case' val => subst x_))
      | (have _t := fun y_ => x_ y_; clear _t; subst x_)
      | (have _t : Dev := x_.1; clear _t; subst x_)
      | (have _t : Dev := x_.2; clear _t; subst x_)
      | (have _t : Dev := x_; clear _t; subst x_)
      | clear_value x_)
    | (with_reducible refine Dev.keepLog_w _ _ _ _ ?_ (by decide +kernel) (by decide +kernel))
    | (with_reducible refine Within.putAt ?_ _ _ _ (by decide +kernel))
    | (with_reducible refine Within.put ?_ _ _ (by decide +kernel))
    | (with_reducible refine Within.addSatAt ?_ _ _ _ (by decide +kernel))
    | (with_reducible refine Within.addSat ?_ _ _ (by decide +kernel))
    | (with_reducible refine Within.foldl ?_ _ _ ?_)
    | (with_reducible refine Within.ite ?_ ?_)
    | (intro _ _ _)
    | split
    | dsimp only

theorem Dev.keepSeen_w (d : Dev) (errs : List KeepErr) (a : Nat) (n : Nat) {M P : Nat} {dz : Dev} (hd : Within M P dz d) (hm : inMask 0x80B81F00000000000000000000000000000000000000000000000000000000000000000000000000000000000000 M = true) (hp : inMask 0xD0 P = true) : Within M P dz (Dev.keepSeen d errs a n) :=
  hd.andThen (Dev.keepSeen_w0 d errs a n) hm hp

theorem doKeepWrite_w0 (c : Cmd) (d : Dev) : Within 0x100000140010000000000000000000000000000000000000000000000000000000000000000000000000000 0x70 d (doKeepWrite c d) := by
  unfold doKeepWrite
  repeat' first
    | (with_reducible exact Within.refl _)
    | (with_reducible assumption)
    | ((try lift_lets); intro x_; first
      | (refine (fun (hx_ : Within 0x100000140010000000000000000000000000000000000000000000000000000000000000000000000000000 0x70 d x_) => ?rest) ?val; (case' rest => clear_value x_); (case' val => subst x_))
      | (have _t := fun y_ => x_ y_; clear _t; subst x_)
      | (have _t : Dev := x_.1; clear _t; subst x_)
      | (have _t : Dev := x_.2; clear _t; subst x_)
      | (have _t : Dev := x_; clear _t; subst x_)
      | clear_value x_)
    | (with_reducible refine Dev.keepPush_w _ _ _ ?_ (by decide +kernel) (by decide +kernel))
    | (with_reducible refine Dev.complete_w _ _ _ _ _ ?_ (by decide +kernel) (by decide +kernel))
    | (with_reducible refine Within.ite ?_ ?_)
    | (intro _ _ _)
    | split
    | dsimp only

theorem doKeepWrite_w (c : Cmd) (d : Dev) {M P : Nat} {dz : Dev} (hd : Within M P dz d) (hm : inMask 0x100000140010000000000000000000000000000000000000000000000000000000000000000000000000000 M = true) (hp : inMask 0x70 P = true) : Within M P dz (doKeepWrite c d) :=
  hd.andThen (doKeepWrite_w0 c d) hm hp

theorem Dev.putSlot_w0 (d : Dev) (kind : Nat) (id : Nat) (slot : Nat) : Within 0 0x40 d (Dev.putSlot d kind id slot) := by
  unfold Dev.putSlot
  repeat' first
    | (with_reducible exact Within.refl _)
    | (with_reducible assumption)
    | (with_reducible refine Within.onStore ?_ _ (by decide +kernel))
    | (with_reducible refine Within.ite ?_ ?_)
    | (intro _ _ _)
    | split
    | dsimp only

theorem Dev.putSlot_w (d : Dev) (kind : Nat) (id : Nat) (slot : Nat) {M P : Nat} {dz : Dev} (hd : Within M P dz d) (hm : inMask 0 M = true) (hp : inMask 0x40 P = true) : Within M P dz (Dev.putSlot d kind id slot) :=
  hd.andThen (Dev.putSlot_w0 d kind id slot) hm hp

theorem doFlashErase_w0 (c : Cmd) (d : Dev) : Within 0x20000140010000000000000000000000000000000000000000000000000000000000000000000000000800 0x1070 d (doFlashErase c d) := by
  unfold doFlashErase
  repeat' first
    | (with_reducible exact Within.refl _)
    | (with_reducible assumption)
    | ((try lift_lets); intro x_; first
      | (refine (fun (hx_ : Within 0x20000140010000000000000000000000000000000000000000000000000000000000000000000000000800 0x1070 d x_) => ?rest) ?val; (case' rest => clear_value x_); (case' val => subst x_))
      | (have _t := fun y_ => x_ y_; clear _t; subst x_)
      | (have _t : Dev := x_.1; clear _t; subst x_)
      | (have _t : Dev := x_.2; clear _t; subst x_)
      | (have _t : Dev := x_; clear _t; subst x_)
      | clear_value x_)
    | (with_reducible refine Dev.flashPush_w _ _ ?_ (by decide +kernel) (by decide +kernel))
    | (with_reducible refine Dev.complete_w _ _ _ _ _ ?_ (by decide +kernel) (by decide +kernel))
    | (with_reducible refine Within.ite ?_ ?_)
    | (intro _ _ _)
    | split
    | dsimp only

theorem doFlashErase_w (c : Cmd) (d : Dev) {M P : Nat} {dz : Dev} (hd : Within M P dz d) (hm : inMask 0x20000140010000000000000000000000000000000000000000000000000000000000000000000000000800 M = true) (hp : inMask 0x1070 P = true) : Within M P dz (doFlashErase c d) :=
  hd.andThen (doFlashErase_w0 c d) hm hp

theorem Dev.opIncrement_w0 (d : Dev) : Within 0x2000000000000000000000000000000000000000000000000000000000000000000000000000000000000000 0x40 d (Dev.opIncrement d) := by
  unfold Dev.opIncrement
  repeat' first
    | (with_reducible exact Within.refl _)
    | (with_reducible assumption)
    | ((try lift_lets); intro x_; first
      | (refine (fun (hx_ : Within 0x2000000000000000000000000000000000000000000000000000000000000000000000000000000000000000 0x40 d x_) => ?rest) ?val; (case' rest => clear_value x_); (case' val => subst x_))
      | (have _t := fun y_ => x_ y_; clear _t; subst x_)
      | (have _t : Dev := x_.1; clear _t; subst x_)
      | (have _t : Dev := x_.2; clear _t; subst x_)
      | (have _t : Dev := x_; clear _t; subst x_)
      | clear_value x_)
    | (with_reducible refine Dev.tallyInc_w _ _ ?_ (by decide +kernel) (by decide +kernel))
    | (with_reducible refine Within.onStore ?_ _ (by decide +kernel))
    | (with_reducible refine Within.ite ?_ ?_)
    | (intro _ _ _)
    | split
    | dsimp only

theorem Dev.opIncrement_w (d : Dev) {M P : Nat} {dz : Dev} (hd : Within M P dz d) (hm : inMask 0x2000000000000000000000000000000000000000000000000000000000000000000000000000000000000000 M = true) (hp : inMask 0x40 P = true) : Within M P dz (Dev.opIncrement d) :=
  hd.andThen (Dev.opIncrement_w0 d) hm hp

theorem Dev.reroute_w0 (d : Dev) : Within 0x8E00000000000000000000000000000000000000000000000000000 0 d (Dev.reroute d) := by
  unfold Dev.reroute
  repeat' first
    | (with_reducible exact Within.refl _)
    | (with_reducible assumption)
    | ((try lift_lets); intro x_; first
      | (refine (fun (hx_ : Within 0x8E00000000000000000000000000000000000000000000000000000 0 d x_) => ?rest) ?val; (case' rest => clear_value x_); (case' val => subst x_))
      | (have _t := fun y_ => x_ y_; clear _t; subst x_)
      | (have _t : Dev := x_.1; clear _t; subst x_)
      | (have _t : Dev := x_.2; clear _t; subst x_)
      | (have _t : Dev := x_; clear _t; subst x_)
      | clear_value x_)
    | (with_reducible refine Within.putBitAt ?_ _ _ _ (by decide +kernel))
    | (with_reducible refine Within.putBit ?_ _ _ (by decide +kernel))
    | (with_reducible refine Within.putAt ?_ _ _ _ (by decide +kernel))
    | (with_reducible refine Within.put ?_ _ _ (by decide +kernel))
    | (with_reducible refine Within.foldl ?_ _ _ ?_)
    | (with_reducible refine Within.ite ?_ ?_)
    | (intro _ _ _)
    | split
    | dsimp only

theorem Dev.reroute_w (d : Dev) {M P : Nat} {dz : Dev} (hd : Within M P dz d) (hm : inMask 0x8E00000000000000000000000000000000000000000000000000000 M = true) (hp : inMask 0 P = true) : Within M P dz (Dev.reroute d) :=
  hd.andThen (Dev.reroute_w0 d) hm hp

theorem Dev.sendCut_w0 (d : Dev) (p : Nat) : Within 0 0x300000 d (Dev.sendCut d p) := by
  unfold Dev.sendCut
  repeat' first
    | (with_reducible exact Within.refl _)
    | (with_reducible assumption)
    | (with_reducible refine Dev.bcast_w _ _ _ _ ?_ (by decide +kernel) (by decide +kernel))
    | (with_reducible refine Within.ite ?_ ?_)
    | (intro _ _ _)
    | split
    | dsimp only

theorem Dev.sendCut_w (d : Dev) (p : Nat) {M P : Nat} {dz : Dev} (hd : Within M P dz d) (hm : inMask 0 M = true) (hp : inMask 0x300000 P = true) : Within M P dz (Dev.sendCut d p) :=
  hd.andThen (Dev.sendCut_w0 d p) hm hp

theorem Dev.markCut_w0 (d : Dev) (slot : Nat) (p : Nat) : Within 0x9E00000000000000000000000000000000000000000000000000000 0x100000 d (Dev.markCut d slot p) := by
  unfold Dev.markCut
  repeat' first
    | (with_reducible exact Within.refl _)
    | (with_reducible assumption)
    | ((try lift_lets); intro x_; first
      | (refine (fun (hx_ : Within 0x9E00000000000000000000000000000000000000000000000000000 0x100000 d x_) => ?rest) ?val; (case' rest => clear_value x_); (case' val => subst x_))
      | (have _t := fun y_ => x_ y_; clear _t; subst x_)
      | (have _t : Dev := x_.1; clear _t; subst x_)
      | (have _t : Dev := x_.2; clear _t; subst x_)
      | (have _t : Dev := x_; clear _t; subst x_)
      | clear_value x_)
    | (with_reducible refine Dev.reroute_w _ ?_ (by decide +kernel) (by decide +kernel))
    | (with_reducible refine Within.incAt ?_ _ _ (by decide +kernel))
    | (with_reducible refine Within.inc ?_ _ (by decide +kernel))
    | (with_reducible refine Within.onLink ?_ _ (by decide +kernel))
    | (with_reducible refine Within.ite ?_ ?_)
    | (intro _ _ _)
    | split
    | dsimp only

theorem Dev.markCut_w (d : Dev) (slot : Nat) (p : Nat) {M P : Nat} {dz : Dev} (hd : Within M P dz d) (hm : inMask 0x9E00000000000000000000000000000000000000000000000000000 M = true) (hp : inMask 0x100000 P = true) : Within M P dz (Dev.markCut d slot p) :=
  hd.andThen (Dev.markCut_w0 d slot p) hm hp

theorem Dev.cutDown_w0 (d : Dev) : Within 0x9E00000000000000000000000000000000000000000000000000000 0x300000 d (Dev.cutDown d) := by
  unfold Dev.cutDown
  repeat' first
    | (with_reducible exact Within.refl _)
    | (with_reducible assumption)
    | (with_reducible refine Dev.sendCut_w _ _ ?_ (by decide +kernel) (by decide +kernel))
    | (with_reducible refine Dev.markCut_w _ _ _ ?_ (by decide +kernel) (by decide +kernel))
    | (with_reducible refine Within.foldl ?_ _ _ ?_)
    | (with_reducible refine Within.ite ?_ ?_)
    | (intro _ _ _)
    | split
    | dsimp only

theorem Dev.cutDown_w (d : Dev) {M P : Nat} {dz : Dev} (hd : Within M P dz d) (hm : inMask 0x9E00000000000000000000000000000000000000000000000000000 M = true) (hp : inMask 0x300000 P = true) : Within M P dz (Dev.cutDown d) :=
  hd.andThen (Dev.cutDown_w0 d) hm hp

theorem Dev.framesMove_w0 (d : Dev) (p : Nat) (r : Option Nat) : Within 0x140010000000000000000000000000000000000000000000000000000000003000000000000000000 0x100830 d (Dev.framesMove d p r) := by
  unfold Dev.framesMove
  repeat' first
    | (with_reducible exact Within.refl _)
    | (with_reducible assumption)
    | ((try lift_lets); intro x_; first
      | (refine (fun (hx_ : Within 0x140010000000000000000000000000000000000000000000000000000000003000000000000000000 0x100830 d x_) => ?rest) ?val; (case' rest => clear_value x_); (case' val => subst x_))
      | (have _t := fun y_ => x_ y_; clear _t; subst x_)
      | (have _t : Dev := x_.1; clear _t; subst x_)
      | (have _t : Dev := x_.2; clear _t; subst x_)
      | (have _t : Dev := x_; clear _t; subst x_)
      | clear_value x_)
    | (with_reducible refine capLeft_w _ _ _ ?_ (by decide +kernel) (by decide +kernel))
    | (with_reducible refine Within.onLink ?_ _ (by decide +kernel))
    | (with_reducible refine Within.foldl ?_ _ _ ?_)
    | (with_reducible refine Within.ite ?_ ?_)
    | (intro _ _ _)
    | split
    | dsimp only

theorem Dev.framesMove_w (d : Dev) (p : Nat) (r : Option Nat) {M P : Nat} {dz : Dev} (hd : Within M P dz d) (hm : inMask 0x140010000000000000000000000000000000000000000000000000000000003000000000000000000 M = true) (hp : inMask 0x100830 P = true) : Within M P dz (Dev.framesMove d p r) :=
  hd.andThen (Dev.framesMove_w0 d p r) hm hp

theorem Dev.framesGone_w0 (d : Dev) (p : Nat) : Within 0x140010000000000000000000000000000000000000000000000000000000003000000000000000000 0x100830 d (Dev.framesGone d p) := by
  unfold Dev.framesGone
  repeat' first
    | (with_reducible exact Within.refl _)
    | (with_reducible assumption)
    | ((try lift_lets); intro x_; first
      | (refine (fun (hx_ : Within 0x140010000000000000000000000000000000000000000000000000000000003000000000000000000 0x100830 d x_) => ?rest) ?val; (case' rest => clear_value x_); (case' val => subst x_))
      | (have _t := fun y_ => x_ y_; clear _t; subst x_)
      | (have _t : Dev := x_.1; clear _t; subst x_)
      | (have _t : Dev := x_.2; clear _t; subst x_)
      | (have _t : Dev := x_; clear _t; subst x_)
      | clear_value x_)
    | (with_reducible refine capLeft_w _ _ _ ?_ (by decide +kernel) (by decide +kernel))
    | (with_reducible refine Within.onLink ?_ _ (by decide +kernel))
    | (with_reducible refine Within.foldl ?_ _ _ ?_)
    | (with_reducible refine Within.ite ?_ ?_)
    | (intro _ _ _)
    | split
    | dsimp only

theorem Dev.framesGone_w (d : Dev) (p : Nat) {M P : Nat} {dz : Dev} (hd : Within M P dz d) (hm : inMask 0x140010000000000000000000000000000000000000000000000000000000003000000000000000000 M = true) (hp : inMask 0x100830 P = true) : Within M P dz (Dev.framesGone d p) :=
  hd.andThen (Dev.framesGone_w0 d p) hm hp

theorem Dev.portLost_w0 (d : Dev) (p : Nat) : Within 0x80B80100000140010000000000000000000409E00000000000000000000000000000000003000000000000000000 0x3008F0 d (Dev.portLost d p) := by
  unfold Dev.portLost
  repeat' first
    | (with_reducible exact Within.refl _)
    | (with_reducible assumption)
    | ((try lift_lets); intro x_; first
      | (refine (fun (hx_ : Within 0x80B80100000140010000000000000000000409E00000000000000000000000000000000003000000000000000000 0x3008F0 d x_) => ?rest) ?val; (case' rest => clear_value x_); (case' val => subst x_))
      | (have _t := fun y_ => x_ y_; clear _t; subst x_)
      | (have _t : Dev := x_.1; clear _t; subst x_)
      | (have _t : Dev := x_.2; clear _t; subst x_)
      | (have _t : Dev := x_; clear _t; subst x_)
      | clear_value x_)
    | (with_reducible refine Dev.event_w _ _ _ ?_ (by decide +kernel) (by decide +kernel))
    | (with_reducible refine Dev.putPort_w _ _ _ ?_ (by decide +kernel) (by decide +kernel))
    | (with_reducible refine Dev.pushOwn_w _ _ _ ?_ (by decide +kernel) (by decide +kernel))
    | (with_reducible refine Dev.pushFwd_w _ _ _ ?_ (by decide +kernel) (by decide +kernel))
    | (with_reducible refine Dev.sendCut_w _ _ ?_ (by decide +kernel) (by decide +kernel))
    | (with_reducible refine Dev.markCut_w _ _ _ ?_ (by decide +kernel) (by decide +kernel))
    | (with_reducible refine Dev.framesMove_w _ _ _ ?_ (by decide +kernel) (by decide +kernel))
    | (with_reducible refine Within.putBitAt ?_ _ _ _ (by decide +kernel))
    | (with_reducible refine Within.putBit ?_ _ _ (by decide +kernel))
    | (with_reducible refine Within.putAt ?_ _ _ _ (by decide +kernel))
    | (with_reducible refine Within.put ?_ _ _ (by decide +kernel))
    | (with_reducible refine Within.foldl ?_ _ _ ?_)
    | (with_reducible refine Within.ite ?_ ?_)
    | (intro _ _ _)
    | split
    | dsimp only

theorem Dev.portLost_w (d : Dev) (p : Nat) {M P : Nat} {dz : Dev} (hd : Within M P dz d) (hm : inMask 0x80B80100000140010000000000000000000409E00000000000000000000000000000000003000000000000000000 M = true) (hp : inMask 0x3008F0 P = true) : Within M P dz (Dev.portLost d p) :=
  hd.andThen (Dev.portLost_w0 d p) hm hp

theorem routeRing_w0 (fl : Flit) (d : Dev) : Within 0x9E00000000000000000000000000000000000000000000000000000 0x300000 d (routeRing fl d) := by
  unfold routeRing
  repeat' first
    | (with_reducible exact Within.refl _)
    | (with_reducible assumption)
    | ((try lift_lets); intro x_; first
      | (refine (fun (hx_ : Within 0x9E00000000000000000000000000000000000000000000000000000 0x300000 d x_) => ?rest) ?val; (case' rest => clear_value x_); (case' val => subst x_))
      | (have _t := fun y_ => x_ y_; clear _t; subst x_)
      | (have _t : Dev := x_.1; clear _t; subst x_)
      | (have _t : Dev := x_.2; clear _t; subst x_)
      | (have _t : Dev := x_; clear _t; subst x_)
      | clear_value x_)
    | (with_reducible refine Dev.reroute_w _ ?_ (by decide +kernel) (by decide +kernel))
    | (with_reducible refine Dev.cutDown_w _ ?_ (by decide +kernel) (by decide +kernel))
    | (with_reducible refine Within.putAt ?_ _ _ _ (by decide +kernel))
    | (with_reducible refine Within.put ?_ _ _ (by decide +kernel))
    | (with_reducible refine Within.onLink ?_ _ (by decide +kernel))
    | (with_reducible refine Within.ite ?_ ?_)
    | (intro _ _ _)
    | split
    | dsimp only

theorem routeRing_w (fl : Flit) (d : Dev) {M P : Nat} {dz : Dev} (hd : Within M P dz d) (hm : inMask 0x9E00000000000000000000000000000000000000000000000000000 M = true) (hp : inMask 0x300000 P = true) : Within M P dz (routeRing fl d) :=
  hd.andThen (routeRing_w0 fl d) hm hp

theorem Dev.showLanes_w0 (d : Dev) (p : Nat) : Within 0x80B80100000140010000000000000000000409E00000000000000000000000000000000003000000000000000000 0x3008F0 d (Dev.showLanes d p) := by
  unfold Dev.showLanes
  repeat' first
    | (with_reducible exact Within.refl _)
    | (with_reducible assumption)
    | ((try lift_lets); intro x_; first
      | (refine (fun (hx_ : Within 0x80B80100000140010000000000000000000409E00000000000000000000000000000000003000000000000000000 0x3008F0 d x_) => ?rest) ?val; (case' rest => clear_value x_); (case' val => subst x_))
      | (have _t := fun y_ => x_ y_; clear _t; subst x_)
      | (have _t : Dev := x_.1; clear _t; subst x_)
      | (have _t : Dev := x_.2; clear _t; subst x_)
      | (have _t : Dev := x_; clear _t; subst x_)
      | clear_value x_)
    | (with_reducible refine Dev.portLost_w _ _ ?_ (by decide +kernel) (by decide +kernel))
    | (with_reducible refine Within.putBitAt ?_ _ _ _ (by decide +kernel))
    | (with_reducible refine Within.putBit ?_ _ _ (by decide +kernel))
    | (with_reducible refine Within.putAt ?_ _ _ _ (by decide +kernel))
    | (with_reducible refine Within.put ?_ _ _ (by decide +kernel))
    | (with_reducible refine Within.ite ?_ ?_)
    | (intro _ _ _)
    | split
    | dsimp only

theorem Dev.showLanes_w (d : Dev) (p : Nat) {M P : Nat} {dz : Dev} (hd : Within M P dz d) (hm : inMask 0x80B80100000140010000000000000000000409E00000000000000000000000000000000003000000000000000000 M = true) (hp : inMask 0x3008F0 P = true) : Within M P dz (Dev.showLanes d p) :=
  hd.andThen (Dev.showLanes_w0 d p) hm hp

theorem Dev.askMask_w0 (d : Dev) (p : Nat) (mask : Nat) : Within 0 0x100000 d (Dev.askMask d p mask) := by
  unfold Dev.askMask
  repeat' first
    | (with_reducible exact Within.refl _)
    | (with_reducible assumption)
    | ((try lift_lets); intro x_; first
      | (refine (fun (hx_ : Within 0 0x100000 d x_) => ?rest) ?val; (case' rest => clear_value x_); (case' val => subst x_))
      | (have _t := fun y_ => x_ y_; clear _t; subst x_)
      | (have _t : Dev := x_.1; clear _t; subst x_)
      | (have _t : Dev := x_.2; clear _t; subst x_)
      | (have _t : Dev := x_; clear _t; subst x_)
      | clear_value x_)
    | (with_reducible refine Dev.putPort_w _ _ _ ?_ (by decide +kernel) (by decide +kernel))
    | (with_reducible refine Within.ite ?_ ?_)
    | (intro _ _ _)
    | split
    | dsimp only

theorem Dev.askMask_w (d : Dev) (p : Nat) (mask : Nat) {M P : Nat} {dz : Dev} (hd : Within M P dz d) (hm : inMask 0 M = true) (hp : inMask 0x100000 P = true) : Within M P dz (Dev.askMask d p mask) :=
  hd.andThen (Dev.askMask_w0 d p mask) hm hp

theorem Dev.laneQuit_w0 (d : Dev) (p : Nat) (i : Nat) : Within 0 0x100000 d (Dev.laneQuit d p i) := by
  unfold Dev.laneQuit
  repeat' first
    | (with_reducible exact Within.refl _)
    | (with_reducible assumption)
    | ((try lift_lets); intro x_; first
      | (refine (fun (hx_ : Within 0 0x100000 d x_) => ?rest) ?val; (case' rest => clear_value x_); (case' val => subst x_))
      | (have _t := fun y_ => x_ y_; clear _t; subst x_)
      | (have _t : Dev := x_.1; clear _t; subst x_)
      | (have _t : Dev := x_.2; clear _t; subst x_)
      | (have _t : Dev := x_; clear _t; subst x_)
      | clear_value x_)
    | (with_reducible refine Dev.putPort_w _ _ _ ?_ (by decide +kernel) (by decide +kernel))
    | (with_reducible refine Within.ite ?_ ?_)
    | (intro _ _ _)
    | split
    | dsimp only

theorem Dev.laneQuit_w (d : Dev) (p : Nat) (i : Nat) {M P : Nat} {dz : Dev} (hd : Within M P dz d) (hm : inMask 0 M = true) (hp : inMask 0x100000 P = true) : Within M P dz (Dev.laneQuit d p i) :=
  hd.andThen (Dev.laneQuit_w0 d p i) hm hp

theorem Dev.laneOut_w0 (d : Dev) (p : Nat) (i : Nat) : Within 0x80B80100000000000000000000000000000000000000000000000000000000000000000000000000000000000000 0x1000D0 d (Dev.laneOut d p i) := by
  unfold Dev.laneOut
  repeat' first
    | (with_reducible exact Within.refl _)
    | (with_reducible assumption)
    | ((try lift_lets); intro x_; first
      | (refine (fun (hx_ : Within 0x80B80100000000000000000000000000000000000000000000000000000000000000000000000000000000000000 0x1000D0 d x_) => ?rest) ?val; (case' rest => clear_value x_); (case' val => subst x_))
      | (have _t := fun y_ => x_ y_; clear _t; subst x_)
      | (have _t : Dev := x_.1; clear _t; subst x_)
      | (have _t : Dev := x_.2; clear _t; subst x_)
      | (have _t : Dev := x_; clear _t; subst x_)
      | clear_value x_)
    | (with_reducible refine Dev.event_w _ _ _ ?_ (by decide +kernel) (by decide +kernel))
    | (with_reducible refine Dev.putPort_w _ _ _ ?_ (by decide +kernel) (by decide +kernel))
    | (with_reducible refine Dev.askMask_w _ _ _ ?_ (by decide +kernel) (by decide +kernel))
    | (with_reducible refine Within.ite ?_ ?_)
    | (intro _ _ _)
    | split
    | dsimp only

theorem Dev.laneOut_w (d : Dev) (p : Nat) (i : Nat) {M P : Nat} {dz : Dev} (hd : Within M P dz d) (hm : inMask 0x80B80100000000000000000000000000000000000000000000000000000000000000000000000000000000000000 M = true) (hp : inMask 0x1000D0 P = true) : Within M P dz (Dev.laneOut d p i) :=
  hd.andThen (Dev.laneOut_w0 d p i) hm hp

theorem Dev.laneBack_w0 (d : Dev) (p : Nat) (i : Nat) : Within 0 0x100000 d (Dev.laneBack d p i) := by
  unfold Dev.laneBack
  repeat' first
    | (with_reducible exact Within.refl _)
    | (with_reducible assumption)
    | ((try lift_lets); intro x_; first
      | (refine (fun (hx_ : Within 0 0x100000 d x_) => ?rest) ?val; (case' rest => clear_value x_); (case' val => subst x_))
      | (have _t := fun y_ => x_ y_; clear _t; subst x_)
      | (have _t : Dev := x_.1; clear _t; subst x_)
      | (have _t : Dev := x_.2; clear _t; subst x_)
      | (have _t : Dev := x_; clear _t; subst x_)
      | clear_value x_)
    | (with_reducible refine Dev.putPort_w _ _ _ ?_ (by decide +kernel) (by decide +kernel))
    | (with_reducible refine Dev.askMask_w _ _ _ ?_ (by decide +kernel) (by decide +kernel))
    | (with_reducible refine Within.ite ?_ ?_)
    | (intro _ _ _)
    | split
    | dsimp only

theorem Dev.laneBack_w (d : Dev) (p : Nat) (i : Nat) {M P : Nat} {dz : Dev} (hd : Within M P dz d) (hm : inMask 0 M = true) (hp : inMask 0x100000 P = true) : Within M P dz (Dev.laneBack d p i) :=
  hd.andThen (Dev.laneBack_w0 d p i) hm hp

theorem laneReturn_w0 (p : Nat) (i : Nat) (d : Dev) : Within 0 0x100000 d (laneReturn p i d) := by
  unfold laneReturn
  repeat' first
    | (with_reducible exact Within.refl _)
    | (with_reducible assumption)
    | ((try lift_lets); intro x_; first
      | (refine (fun (hx_ : Within 0 0x100000 d x_) => ?rest) ?val; (case' rest => clear_value x_); (case' val => subst x_))
      | (have _t := fun y_ => x_ y_; clear _t; subst x_)
      | (have _t : Dev := x_.1; clear _t; subst x_)
      | (have _t : Dev := x_.2; clear _t; subst x_)
      | (have _t : Dev := x_; clear _t; subst x_)
      | clear_value x_)
    | (with_reducible refine Dev.laneBack_w _ _ _ ?_ (by decide +kernel) (by decide +kernel))
    | (with_reducible refine Within.ite ?_ ?_)
    | (intro _ _ _)
    | split
    | dsimp only

theorem laneReturn_w (p : Nat) (i : Nat) (d : Dev) {M P : Nat} {dz : Dev} (hd : Within M P dz d) (hm : inMask 0 M = true) (hp : inMask 0x100000 P = true) : Within M P dz (laneReturn p i d) :=
  hd.andThen (laneReturn_w0 p i d) hm hp

theorem lmGroup_w0 (p : Nat) (req : Nat) (ack : Bool) (cnt : Nat) (d : Dev) : Within 0 0x100000 d (lmGroup p req ack cnt d) := by
  unfold lmGroup
  repeat' first
    | (with_reducible exact Within.refl _)
    | (with_reducible assumption)
    | ((try lift_lets); intro x_; first
      | (refine (fun (hx_ : Within 0 0x100000 d x_) => ?rest) ?val; (case' rest => clear_value x_); (case' val => subst x_))
      | (have _t := fun y_ => x_ y_; clear _t; subst x_)
      | (have _t : Dev := x_.1; clear _t; subst x_)
      | (have _t : Dev := x_.2; clear _t; subst x_)
      | (have _t : Dev := x_; clear _t; subst x_)
      | clear_value x_)
    | (with_reducible refine Dev.putPort_w _ _ _ ?_ (by decide +kernel) (by decide +kernel))
    | (with_reducible refine Within.ite ?_ ?_)
    | (intro _ _ _)
    | split
    | dsimp only

theorem lmGroup_w (p : Nat) (req : Nat) (ack : Bool) (cnt : Nat) (d : Dev) {M P : Nat} {dz : Dev} (hd : Within M P dz d) (hm : inMask 0 M = true) (hp : inMask 0x100000 P = true) : Within M P dz (lmGroup p req ack cnt d) :=
  hd.andThen (lmGroup_w0 p req ack cnt d) hm hp

theorem laneMaskSwitch_w0 (p : Nat) (tx : Bool) (d : Dev) : Within 0x80B80100000140010000000000000000000409E00000000000000000000000000000000003000000000000000000 0x3008F0 d (laneMaskSwitch p tx d) := by
  unfold laneMaskSwitch
  repeat' first
    | (with_reducible exact Within.refl _)
    | (with_reducible assumption)
    | ((try lift_lets); intro x_; first
      | (refine (fun (hx_ : Within 0x80B80100000140010000000000000000000409E00000000000000000000000000000000003000000000000000000 0x3008F0 d x_) => ?rest) ?val; (case' rest => clear_value x_); (case' val => subst x_))
      | (have _t := fun y_ => x_ y_; clear _t; subst x_)
      | (have _t : Dev := x_.1; clear _t; subst x_)
      | (have _t : Dev := x_.2; clear _t; subst x_)
      | (have _t : Dev := x_; clear _t; subst x_)
      | clear_value x_)
    | (with_reducible refine Dev.putPort_w _ _ _ ?_ (by decide +kernel) (by decide +kernel))
    | (with_reducible refine Dev.showLanes_w _ _ ?_ (by decide +kernel) (by decide +kernel))
    | (with_reducible refine Within.ite ?_ ?_)
    | (intro _ _ _)
    | split
    | dsimp only

theorem laneMaskSwitch_w (p : Nat) (tx : Bool) (d : Dev) {M P : Nat} {dz : Dev} (hd : Within M P dz d) (hm : inMask 0x80B80100000140010000000000000000000409E00000000000000000000000000000000003000000000000000000 M = true) (hp : inMask 0x3008F0 P = true) : Within M P dz (laneMaskSwitch p tx d) :=
  hd.andThen (laneMaskSwitch_w0 p tx d) hm hp

theorem scanPort_w0 (p : Nat) (d : Dev) : Within 0x80080000000000000000000000000000000000000000000000000000000000000000000000000000000000000000 0x100080 d (scanPort p d) := by
  unfold scanPort
  repeat' first
    | (with_reducible exact Within.refl _)
    | (with_reducible assumption)
    | ((try lift_lets); intro x_; first
      | (refine (fun (hx_ : Within 0x80080000000000000000000000000000000000000000000000000000000000000000000000000000000000000000 0x100080 d x_) => ?rest) ?val; (case' rest => clear_value x_); (case' val => subst x_))
      | (have _t := fun y_ => x_ y_; clear _t; subst x_)
      | (have _t : Dev := x_.1; clear _t; subst x_)
      | (have _t : Dev := x_.2; clear _t; subst x_)
      | (have _t : Dev := x_; clear _t; subst x_)
      | clear_value x_)
    | (with_reducible refine Dev.queueTest_w _ _ _ _ _ ?_ (by decide +kernel) (by decide +kernel))
    | (with_reducible refine Dev.putPort_w _ _ _ ?_ (by decide +kernel) (by decide +kernel))
    | (with_reducible refine Within.foldl ?_ _ _ ?_)
    | (with_reducible refine Within.ite ?_ ?_)
    | (intro _ _ _)
    | split
    | dsimp only

theorem scanPort_w (p : Nat) (d : Dev) {M P : Nat} {dz : Dev} (hd : Within M P dz d) (hm : inMask 0x80080000000000000000000000000000000000000000000000000000000000000000000000000000000000000000 M = true) (hp : inMask 0x100080 P = true) : Within M P dz (scanPort p d) :=
  hd.andThen (scanPort_w0 p d) hm hp

theorem Dev.portFollow_w0 (d : Dev) (p : Nat) : Within 0x80B80100000140010000000000000000000409E00000000000000000000000000000000003000000000000000000 0x3008F0 d (Dev.portFollow d p) := by
  unfold Dev.portFollow
  repeat' first
    | (with_reducible exact Within.refl _)
    | (with_reducible assumption)
    | ((try lift_lets); intro x_; first
      | (refine (fun (hx_ : Within 0x80B80100000140010000000000000000000409E00000000000000000000000000000000003000000000000000000 0x3008F0 d x_) => ?rest) ?val; (case' rest => clear_value x_); (case' val => subst x_))
      | (have _t := fun y_ => x_ y_; clear _t; subst x_)
      | (have _t : Dev := x_.1; clear _t; subst x_)
      | (have _t : Dev := x_.2; clear _t; subst x_)
      | (have _t : Dev := x_; clear _t; subst x_)
      | clear_value x_)
    | (with_reducible refine Dev.putPort_w _ _ _ ?_ (by decide +kernel) (by decide +kernel))
    | (with_reducible refine Dev.portLost_w _ _ ?_ (by decide +kernel) (by decide +kernel))
    | (with_reducible refine Within.putBitAt ?_ _ _ _ (by decide +kernel))
    | (with_reducible refine Within.putBit ?_ _ _ (by decide +kernel))
    | (with_reducible refine Within.putAt ?_ _ _ _ (by decide +kernel))
    | (with_reducible refine Within.put ?_ _ _ (by decide +kernel))
    | (with_reducible refine Within.ite ?_ ?_)
    | (intro _ _ _)
    | split
    | dsimp only

theorem Dev.portFollow_w (d : Dev) (p : Nat) {M P : Nat} {dz : Dev} (hd : Within M P dz d) (hm : inMask 0x80B80100000140010000000000000000000409E00000000000000000000000000000000003000000000000000000 M = true) (hp : inMask 0x3008F0 P = true) : Within M P dz (Dev.portFollow d p) :=
  hd.andThen (Dev.portFollow_w0 d p) hm hp

theorem Dev.portsFollow_w0 (d : Dev) : Within 0x80B80100000140010000000000000000000409E00000000000000000000000000000000003000000000000000000 0x3008F0 d (Dev.portsFollow d) := by
  unfold Dev.portsFollow
  repeat' first
    | (with_reducible exact Within.refl _)
    | (with_reducible assumption)
    | (with_reducible refine Dev.portFollow_w _ _ ?_ (by decide +kernel) (by decide +kernel))
    | (with_reducible refine Within.foldl ?_ _ _ ?_)
    | (with_reducible refine Within.ite ?_ ?_)
    | (intro _ _ _)
    | split
    | dsimp only

theorem Dev.portsFollow_w (d : Dev) {M P : Nat} {dz : Dev} (hd : Within M P dz d) (hm : inMask 0x80B80100000140010000000000000000000409E00000000000000000000000000000000003000000000000000000 M = true) (hp : inMask 0x3008F0 P = true) : Within M P dz (Dev.portsFollow d) :=
  hd.andThen (Dev.portsFollow_w0 d) hm hp

theorem portTraining_w0 (p : Nat) (ev : TrainEv) (d : Dev) : Within 0x80B80100000140010000000000000000000439F00000000000000000000000000000000003000000000000000000 0x3008F0 d (portTraining p ev d) := by
  unfold portTraining
  repeat' first
    | (with_reducible exact Within.refl _)
    | (with_reducible assumption)
    | ((try lift_lets); intro x_; first
      | (refine (fun (hx_ : Within 0x80B80100000140010000000000000000000439F00000000000000000000000000000000003000000000000000000 0x3008F0 d x_) => ?rest) ?val; (case' rest => clear_value x_); (case' val => subst x_))
      | (have _t := fun y_ => x_ y_; clear _t; subst x_)
      | (have _t : Dev := x_.1; clear _t; subst x_)
      | (have _t : Dev := x_.2; clear _t; subst x_)
      | (have _t : Dev := x_; clear _t; subst x_)
      | clear_value x_)
    | (with_reducible refine Dev.event_w _ _ _ ?_ (by decide +kernel) (by decide +kernel))
    | (with_reducible refine Dev.putPort_w _ _ _ ?_ (by decide +kernel) (by decide +kernel))
    | (with_reducible refine Dev.showLanes_w _ _ ?_ (by decide +kernel) (by decide +kernel))
    | (with_reducible refine Within.putBitAt ?_ _ _ _ (by decide +kernel))
    | (with_reducible refine Within.putBit ?_ _ _ (by decide +kernel))
    | (with_reducible refine Within.putAt ?_ _ _ _ (by decide +kernel))
    | (with_reducible refine Within.put ?_ _ _ (by decide +kernel))
    | (with_reducible refine Within.onLink ?_ _ (by decide +kernel))
    | (with_reducible refine Within.onStand ?_ _ (by decide +kernel))
    | (with_reducible refine Within.ite ?_ ?_)
    | (intro _ _ _)
    | split
    | dsimp only

theorem portTraining_w (p : Nat) (ev : TrainEv) (d : Dev) {M P : Nat} {dz : Dev} (hd : Within M P dz d) (hm : inMask 0x80B80100000140010000000000000000000439F00000000000000000000000000000000003000000000000000000 M = true) (hp : inMask 0x3008F0 P = true) : Within M P dz (portTraining p ev d) :=
  hd.andThen (portTraining_w0 p ev d) hm hp

theorem trainTimeout_w0 (p : Nat) (d : Dev) : Within 0x80B80100000000000000000000000000000008000000000000000000000000000000000000000000000000000000 0x1000D0 d (trainTimeout p d) := by
  unfold trainTimeout
  repeat' first
    | (with_reducible exact Within.refl _)
    | (with_reducible assumption)
    | ((try lift_lets); intro x_; first
      | (refine (fun (hx_ : Within 0x80B80100000000000000000000000000000008000000000000000000000000000000000000000000000000000000 0x1000D0 d x_) => ?rest) ?val; (case' rest => clear_value x_); (case' val => subst x_))
      | (have _t := fun y_ => x_ y_; clear _t; subst x_)
      | (have _t : Dev := x_.1; clear _t; subst x_)
      | (have _t : Dev := x_.2; clear _t; subst x_)
      | (have _t : Dev := x_; clear _t; subst x_)
      | clear_value x_)
    | (with_reducible refine Dev.event_w _ _ _ ?_ (by decide +kernel) (by decide +kernel))
    | (with_reducible refine Dev.putPort_w _ _ _ ?_ (by decide +kernel) (by decide +kernel))
    | (with_reducible refine Within.putAt ?_ _ _ _ (by decide +kernel))
    | (with_reducible refine Within.put ?_ _ _ (by decide +kernel))
    | (with_reducible refine Within.ite ?_ ?_)
    | (intro _ _ _)
    | split
    | dsimp only

theorem trainTimeout_w (p : Nat) (d : Dev) {M P : Nat} {dz : Dev} (hd : Within M P dz d) (hm : inMask 0x80B80100000000000000000000000000000008000000000000000000000000000000000000000000000000000000 M = true) (hp : inMask 0x1000D0 P = true) : Within M P dz (trainTimeout p d) :=
  hd.andThen (trainTimeout_w0 p d) hm hp

theorem applyHp_w0 (d : Dev) : Within 0x80B8010000014001B840132000000000000409F00000010000000000000000000000000003000000000000000000 0x3008F2 d (applyHp d) := by
  unfold applyHp
  repeat' first
    | (with_reducible exact Within.refl _)
    | (with_reducible assumption)
    | ((try lift_lets); intro x_; first
      | (refine (fun (hx_ : Within 0x80B8010000014001B840132000000000000409F00000010000000000000000000000000003000000000000000000 0x3008F2 d x_) => ?rest) ?val; (case' rest => clear_value x_); (case' val => subst x_))
      | (have _t := fun y_ => x_ y_; clear _t; subst x_)
      | (have _t : Dev := x_.1; clear _t; subst x_)
      | (have _t : Dev := x_.2; clear _t; subst x_)
      | (have _t : Dev := x_; clear _t; subst x_)
      | clear_value x_)
    | (with_reducible refine Dev.hostDown_w _ ?_ (by decide +kernel) (by decide +kernel))
    | (with_reducible refine linkDown_w _ _ ?_ (by decide +kernel) (by decide +kernel))
    | (with_reducible refine Dev.putPort_w _ _ _ ?_ (by decide +kernel) (by decide +kernel))
    | (with_reducible refine Dev.portLost_w _ _ ?_ (by decide +kernel) (by decide +kernel))
    | (with_reducible refine Dev.portsFollow_w _ ?_ (by decide +kernel) (by decide +kernel))
    | (with_reducible refine Within.putBitAt ?_ _ _ _ (by decide +kernel))
    | (with_reducible refine Within.putBit ?_ _ _ (by decide +kernel))
    | (with_reducible refine Within.putAt ?_ _ _ _ (by decide +kernel))
    | (with_reducible refine Within.put ?_ _ _ (by decide +kernel))
    | (with_reducible refine Within.onLink ?_ _ (by decide +kernel))
    | (with_reducible refine Within.ite ?_ ?_)
    | (intro _ _ _)
    | split
    | dsimp only

theorem applyHp_w (d : Dev) {M P : Nat} {dz : Dev} (hd : Within M P dz d) (hm : inMask 0x80B8010000014001B840132000000000000409F00000010000000000000000000000000003000000000000000000 M = true) (hp : inMask 0x3008F2 P = true) : Within M P dz (applyHp d) :=
  hd.andThen (applyHp_w0 d) hm hp

theorem Dev.switchTick_w0 (d : Dev) : Within 0x100000000000000000000000000000000000000000000000000000 0x100000 d (Dev.switchTick d) := by
  unfold Dev.switchTick
  repeat' first
    | (with_reducible exact Within.refl _)
    | (with_reducible assumption)
    | (with_reducible refine Within.putBitAt ?_ _ _ _ (by decide +kernel))
    | (with_reducible refine Within.putBit ?_ _ _ (by decide +kernel))
    | (with_reducible refine Within.onLink ?_ _ (by decide +kernel))
    | (with_reducible refine Within.ite ?_ ?_)
    | (intro _ _ _)
    | split
    | dsimp only

theorem Dev.switchTick_w (d : Dev) {M P : Nat} {dz : Dev} (hd : Within M P dz d) (hm : inMask 0x100000000000000000000000000000000000000000000000000000 M = true) (hp : inMask 0x100000 P = true) : Within M P dz (Dev.switchTick d) :=
  hd.andThen (Dev.switchTick_w0 d) hm hp

theorem incLane_w (p i : Nat) (d : Dev) {M P : Nat} {dz : Dev} (hd : Within M P dz d) (hm : inMask 0x8008000000000000000000000000000001E000000000000000000000000000000000000000000000000000000000 M = true) (hp : inMask 0x100080 P = true) : Within M P dz (d.inc (laneFld p i)) := by
  refine hd.andThen (m := 0x8008000000000000000000000000000001E000000000000000000000000000000000000000000000000000000000) (p := 0x100080) ?_ hm hp
  unfold laneFld
  dsimp only
  split
  · exact Within.incAt (Within.refl _) _ _ (by decide +kernel)
  · split
    · exact Within.incAt (Within.refl _) _ _ (by decide +kernel)
    · split
      · exact Within.incAt (Within.refl _) _ _ (by decide +kernel)
      · exact Within.incAt (Within.refl _) _ _ (by decide +kernel)

theorem Dev.laneSym_w0 (d : Dev) (p : Nat) (i : Nat) : Within 0x8008000000000000000000000000000001E000000000000000000000000000000000000000000000000000000000 0x100080 d (Dev.laneSym d p i) := by
  unfold Dev.laneSym
  repeat' first
    | (with_reducible refine incLane_w _ _ _ ?_ (by decide +kernel) (by decide +kernel))
    | (with_reducible exact Within.refl _)
    | (with_reducible assumption)
    | ((try lift_lets); intro x_; first
      | (refine (fun (hx_ : Within 0x8008000000000000000000000000000001E000000000000000000000000000000000000000000000000000000000 0x100080 d x_) => ?rest) ?val; (case' rest => clear_value x_); (case' val => subst x_))
      | (have _t := fun y_ => x_ y_; clear _t; subst x_)
      | (have _t : Dev := x_.1; clear _t; subst x_)
      | (have _t : Dev := x_.2; clear _t; subst x_)
      | (have _t : Dev := x_; clear _t; subst x_)
      | clear_value x_)
    | (with_reducible refine Dev.queueTest_w _ _ _ _ _ ?_ (by decide +kernel) (by decide +kernel))
    | (with_reducible refine Dev.putPort_w _ _ _ ?_ (by decide +kernel) (by decide +kernel))
    | (with_reducible refine Within.incAt ?_ _ _ (by decide +kernel))
    | (with_reducible refine Within.inc ?_ _ (by decide +kernel))
    | (with_reducible refine Within.ite ?_ ?_)
    | (intro _ _ _)
    | split
    | dsimp only

theorem Dev.laneSym_w (d : Dev) (p : Nat) (i : Nat) {M P : Nat} {dz : Dev} (hd : Within M P dz d) (hm : inMask 0x8008000000000000000000000000000001E000000000000000000000000000000000000000000000000000000000 M = true) (hp : inMask 0x100080 P = true) : Within M P dz (Dev.laneSym d p i) :=
  hd.andThen (Dev.laneSym_w0 d p i) hm hp

theorem Dev.seqCheck_w0 (d : Dev) (p : Nat) (f : Flit) : Within 0x200000000000000000000000000000000000000000000000000000000 0x100000 d (Dev.seqCheck d p f) := by
  unfold Dev.seqCheck
  repeat' first
    | (with_reducible exact Within.refl _)
    | (with_reducible assumption)
    | ((try lift_lets); intro x_; first
      | (refine (fun (hx_ : Within 0x200000000000000000000000000000000000000000000000000000000 0x100000 d x_) => ?rest) ?val; (case' rest => clear_value x_); (case' val => subst x_))
      | (have _t := fun y_ => x_ y_; clear _t; subst x_)
      | (have _t : Dev := x_.1; clear _t; subst x_)
      | (have _t : Dev := x_.2; clear _t; subst x_)
      | (have _t : Dev := x_; clear _t; subst x_)
      | clear_value x_)
    | (with_reducible refine Within.addSatAt ?_ _ _ _ (by decide +kernel))
    | (with_reducible refine Within.addSat ?_ _ _ (by decide +kernel))
    | (with_reducible refine Within.incAt ?_ _ _ (by decide +kernel))
    | (with_reducible refine Within.inc ?_ _ (by decide +kernel))
    | (with_reducible refine Within.onLink ?_ _ (by decide +kernel))
    | (with_reducible refine Within.ite ?_ ?_)
    | (intro _ _ _)
    | split
    | dsimp only

theorem Dev.seqCheck_w (d : Dev) (p : Nat) (f : Flit) {M P : Nat} {dz : Dev} (hd : Within M P dz d) (hm : inMask 0x200000000000000000000000000000000000000000000000000000000 M = true) (hp : inMask 0x100000 P = true) : Within M P dz (Dev.seqCheck d p f) :=
  hd.andThen (Dev.seqCheck_w0 d p f) hm hp

theorem Dev.answerDreq_w0 (d : Dev) (p : Nat) (t2 : Nat) (f : Flit) : Within 0 0x300000 d (Dev.answerDreq d p t2 f) := by
  unfold Dev.answerDreq
  repeat' first
    | (with_reducible exact Within.refl _)
    | (with_reducible assumption)
    | (with_reducible refine Dev.sendLocal_w _ _ _ _ _ ?_ (by decide +kernel) (by decide +kernel))
    | (with_reducible refine Within.ite ?_ ?_)
    | (intro _ _ _)
    | split
    | dsimp only

theorem Dev.answerDreq_w (d : Dev) (p : Nat) (t2 : Nat) (f : Flit) {M P : Nat} {dz : Dev} (hd : Within M P dz d) (hm : inMask 0 M = true) (hp : inMask 0x300000 P = true) : Within M P dz (Dev.answerDreq d p t2 f) :=
  hd.andThen (Dev.answerDreq_w0 d p t2 f) hm hp

theorem Dev.recordIn_w0 (d : Dev) (f : Flit) : Within 0 0x100010 d (Dev.recordIn d f) := by
  unfold Dev.recordIn
  repeat' first
    | (with_reducible exact Within.refl _)
    | (with_reducible assumption)
    | ((try lift_lets); intro x_; first
      | (refine (fun (hx_ : Within 0 0x100010 d x_) => ?rest) ?val; (case' rest => clear_value x_); (case' val => subst x_))
      | (have _t := fun y_ => x_ y_; clear _t; subst x_)
      | (have _t : Dev := x_.1; clear _t; subst x_)
      | (have _t : Dev := x_.2; clear _t; subst x_)
      | (have _t : Dev := x_; clear _t; subst x_)
      | clear_value x_)
    | (with_reducible refine Dev.formRec_w _ _ _ _ ?_ (by decide +kernel) (by decide +kernel))
    | (with_reducible refine Within.onLink ?_ _ (by decide +kernel))
    | (with_reducible refine Within.ite ?_ ?_)
    | (intro _ _ _)
    | split
    | dsimp only

theorem Dev.recordIn_w (d : Dev) (f : Flit) {M P : Nat} {dz : Dev} (hd : Within M P dz d) (hm : inMask 0 M = true) (hp : inMask 0x100010 P = true) : Within M P dz (Dev.recordIn d f) :=
  hd.andThen (Dev.recordIn_w0 d f) hm hp

theorem Dev.routeFlit_w0 (d : Dev) (p : Nat) (f : Flit) : Within 0x600000000000000000000000000000000000000000000000000000000 0x100010 d (Dev.routeFlit d p f) := by
  unfold Dev.routeFlit
  repeat' first
    | (with_reducible exact Within.refl _)
    | (with_reducible assumption)
    | ((try lift_lets); intro x_; first
      | (refine (fun (hx_ : Within 0x600000000000000000000000000000000000000000000000000000000 0x100010 d x_) => ?rest) ?val; (case' rest => clear_value x_); (case' val => subst x_))
      | (have _t := fun y_ => x_ y_; clear _t; subst x_)
      | (have _t : Dev := x_.1; clear _t; subst x_)
      | (have _t : Dev := x_.2; clear _t; subst x_)
      | (have _t : Dev := x_; clear _t; subst x_)
      | clear_value x_)
    | (with_reducible refine Dev.pushFwd_w _ _ _ ?_ (by decide +kernel) (by decide +kernel))
    | (with_reducible refine Dev.seqCheck_w _ _ _ ?_ (by decide +kernel) (by decide +kernel))
    | (with_reducible refine Dev.recordIn_w _ _ ?_ (by decide +kernel) (by decide +kernel))
    | (with_reducible refine Within.foldl ?_ _ _ ?_)
    | (with_reducible refine Within.ite ?_ ?_)
    | (intro _ _ _)
    | split
    | dsimp only

theorem Dev.routeFlit_w (d : Dev) (p : Nat) (f : Flit) {M P : Nat} {dz : Dev} (hd : Within M P dz d) (hm : inMask 0x600000000000000000000000000000000000000000000000000000000 M = true) (hp : inMask 0x100010 P = true) : Within M P dz (Dev.routeFlit d p f) :=
  hd.andThen (Dev.routeFlit_w0 d p f) hm hp

theorem Dev.laneErr_w (d : Dev) (p : Nat) (i : Nat) {M P : Nat} {dz : Dev} (hd : Within M P dz d) (hm : inMask 0x1E000000000000000000000000000000000000000000000000000000000 M = true) (hp : inMask 0 P = true) : Within M P dz (Dev.laneErr d p i) := by
  refine hd.andThen (m := 0x1E000000000000000000000000000000000000000000000000000000000) (p := 0) ?_ hm hp
  unfold Dev.laneErr laneErrFld
  dsimp only
  split
  · exact Within.incAt (Within.refl _) _ _ (by decide +kernel)
  · split
    · exact Within.incAt (Within.refl _) _ _ (by decide +kernel)
    · split
      · exact Within.incAt (Within.refl _) _ _ (by decide +kernel)
      · exact Within.incAt (Within.refl _) _ _ (by decide +kernel)

theorem flitReceive_w0 (p : Nat) (x : FlitIn) (bytes : List Byte) (d : Dev) : Within 0x80B8010000014001000000000000000001E7C0000000000000000000000000000000000000000000000000000000 0x3000F0 d (flitReceive p x bytes d) := by
  unfold flitReceive
  repeat' first
    | (with_reducible exact Within.refl _)
    | (with_reducible assumption)
    | ((try lift_lets); intro x_; first
      | (refine (fun (hx_ : Within 0x80B8010000014001000000000000000001E7C0000000000000000000000000000000000000000000000000000000 0x3000F0 d x_) => ?rest) ?val; (case' rest => clear_value x_); (case' val => subst x_))
      | (have _t := fun y_ => x_ y_; clear _t; subst x_)
      | (have _t : Dev := x_.1; clear _t; subst x_)
      | (have _t : Dev := x_.2; clear _t; subst x_)
      | (have _t : Dev := x_; clear _t; subst x_)
      | clear_value x_)
    | (with_reducible refine Dev.queueTest_w _ _ _ _ _ ?_ (by decide +kernel) (by decide +kernel))
    | (with_reducible refine Dev.event_w _ _ _ ?_ (by decide +kernel) (by decide +kernel))
    | (with_reducible refine Dev.ok_w _ _ _ ?_ (by decide +kernel) (by decide +kernel))
    | (with_reducible refine Dev.laneSym_w _ _ _ ?_ (by decide +kernel) (by decide +kernel))
    | (with_reducible refine Dev.seqCheck_w _ _ _ ?_ (by decide +kernel) (by decide +kernel))
    | (with_reducible refine Dev.answerDreq_w _ _ _ _ ?_ (by decide +kernel) (by decide +kernel))
    | (with_reducible refine Dev.routeFlit_w _ _ _ ?_ (by decide +kernel) (by decide +kernel))
    | (with_reducible refine Dev.laneErr_w _ _ _ ?_ (by decide +kernel) (by decide +kernel))
    | (with_reducible refine Within.incAt ?_ _ _ (by decide +kernel))
    | (with_reducible refine Within.inc ?_ _ (by decide +kernel))
    | (with_reducible refine Within.foldl ?_ _ _ ?_)
    | (with_reducible refine Within.ite ?_ ?_)
    | (intro _ _ _)
    | split
    | dsimp only

theorem flitReceive_w (p : Nat) (x : FlitIn) (bytes : List Byte) (d : Dev) {M P : Nat} {dz : Dev} (hd : Within M P dz d) (hm : inMask 0x80B8010000014001000000000000000001E7C0000000000000000000000000000000000000000000000000000000 M = true) (hp : inMask 0x3000F0 P = true) : Within M P dz (flitReceive p x bytes d) :=
  hd.andThen (flitReceive_w0 p x bytes d) hm hp

theorem recordOut_w0 (d : Dev) : Within 0x80B80100802140019040010000000000000000000000010000000000000000000000000003000000000000000000 0x3008F2 d (recordOut d) := by
  unfold recordOut
  repeat' first
    | (with_reducible exact Within.refl _)
    | (with_reducible assumption)
    | ((try lift_lets); intro x_; first
      | (refine (fun (hx_ : Within 0x80B80100802140019040010000000000000000000000010000000000000000000000000003000000000000000000 0x3008F2 d x_) => ?rest) ?val; (case' rest => clear_value x_); (case' val => subst x_))
      | (have _t := fun y_ => x_ y_; clear _t; subst x_)
      | (have _t : Dev := x_.1; clear _t; subst x_)
      | (have _t : Dev := x_.2; clear _t; subst x_)
      | (have _t : Dev := x_; clear _t; subst x_)
      | clear_value x_)
    | (with_reducible refine capLeft_w _ _ _ ?_ (by decide +kernel) (by decide +kernel))
    | (with_reducible refine recordStaged_w _ ?_ (by decide +kernel) (by decide +kernel))
    | (with_reducible refine Dev.toRootMsg_w _ _ _ ?_ (by decide +kernel) (by decide +kernel))
    | (with_reducible refine Dev.framesGone_w _ _ ?_ (by decide +kernel) (by decide +kernel))
    | (with_reducible refine Within.onHost ?_ _ (by decide +kernel))
    | (with_reducible refine Within.onLink ?_ _ (by decide +kernel))
    | (with_reducible refine Within.ite ?_ ?_)
    | (intro _ _ _)
    | split
    | dsimp only

theorem recordOut_w (d : Dev) {M P : Nat} {dz : Dev} (hd : Within M P dz d) (hm : inMask 0x80B80100802140019040010000000000000000000000010000000000000000000000000003000000000000000000 M = true) (hp : inMask 0x3008F2 P = true) : Within M P dz (recordOut d) :=
  hd.andThen (recordOut_w0 d) hm hp

theorem sendDreq_w0 (p : Nat) (d : Dev) : Within 0 0x300000 d (sendDreq p d) := by
  unfold sendDreq
  repeat' first
    | (with_reducible exact Within.refl _)
    | (with_reducible assumption)
    | ((try lift_lets); intro x_; first
      | (refine (fun (hx_ : Within 0 0x300000 d x_) => ?rest) ?val; (case' rest => clear_value x_); (case' val => subst x_))
      | (have _t := fun y_ => x_ y_; clear _t; subst x_)
      | (have _t : Dev := x_.1; clear _t; subst x_)
      | (have _t : Dev := x_.2; clear _t; subst x_)
      | (have _t : Dev := x_; clear _t; subst x_)
      | clear_value x_)
    | (with_reducible refine Dev.putPort_w _ _ _ ?_ (by decide +kernel) (by decide +kernel))
    | (with_reducible refine Dev.sendLocal_w _ _ _ _ _ ?_ (by decide +kernel) (by decide +kernel))
    | (with_reducible refine Within.ite ?_ ?_)
    | (intro _ _ _)
    | split
    | dsimp only

theorem sendDreq_w (p : Nat) (d : Dev) {M P : Nat} {dz : Dev} (hd : Within M P dz d) (hm : inMask 0 M = true) (hp : inMask 0x300000 P = true) : Within M P dz (sendDreq p d) :=
  hd.andThen (sendDreq_w0 p d) hm hp

theorem takeDresp_w0 (p : Nat) (t4 : Nat) (fl : Flit) (d : Dev) : Within 0x800000000000000000000000000000000000000000000000000000000 0x100000 d (takeDresp p t4 fl d) := by
  unfold takeDresp
  repeat' first
    | (with_reducible exact Within.refl _)
    | (with_reducible assumption)
    | ((try lift_lets); intro x_; first
      | (refine (fun (hx_ : Within 0x800000000000000000000000000000000000000000000000000000000 0x100000 d x_) => ?rest) ?val; (case' rest => clear_value x_); (case' val => subst x_))
      | (have _t := fun y_ => x_ y_; clear _t; subst x_)
      | (have _t : Dev := x_.1; clear _t; subst x_)
      | (have _t : Dev := x_.2; clear _t; subst x_)
      | (have _t : Dev := x_; clear _t; subst x_)
      | clear_value x_)
    | (with_reducible refine Dev.putPort_w _ _ _ ?_ (by decide +kernel) (by decide +kernel))
    | (with_reducible refine Within.putAt ?_ _ _ _ (by decide +kernel))
    | (with_reducible refine Within.put ?_ _ _ (by decide +kernel))
    | (with_reducible refine Within.ite ?_ ?_)
    | (intro _ _ _)
    | split
    | dsimp only

theorem takeDresp_w (p : Nat) (t4 : Nat) (fl : Flit) (d : Dev) {M P : Nat} {dz : Dev} (hd : Within M P dz d) (hm : inMask 0x800000000000000000000000000000000000000000000000000000000 M = true) (hp : inMask 0x100000 P = true) : Within M P dz (takeDresp p t4 fl d) :=
  hd.andThen (takeDresp_w0 p t4 fl d) hm hp

theorem Dev.correct_w0 (d : Dev) (off : Int) : Within 0x80B80100000000000000000000000000240000000000000000000000000000000000000000000000000000000000 0x1000D1 d (Dev.correct d off) := by
  unfold Dev.correct
  split
  · exact Dev.event_w _ _ _ (Within.flag (Within.addSat (Within.onLink (Within.setNow (Within.refl d) _ _ (by decide +kernel)) _ (by decide +kernel)) _ _ (by decide +kernel)) _ (by decide +kernel)) (by decide +kernel) (by decide +kernel)
  · exact Within.onLink (Within.refl _) _ (by decide +kernel)

theorem Dev.correct_w (d : Dev) (off : Int) {M P : Nat} {dz : Dev} (hd : Within M P dz d) (hm : inMask 0x80B80100000000000000000000000000240000000000000000000000000000000000000000000000000000000000 M = true) (hp : inMask 0x1000D1 P = true) : Within M P dz (Dev.correct d off) :=
  hd.andThen (Dev.correct_w0 d off) hm hp

theorem Dev.steer_w0 (d : Dev) (off : Int) : Within 0x80B80100000000000000000000000000340000000000000000000000000000000000000000000000000000000000 0x1000D5 d (Dev.steer d off) := by
  unfold Dev.steer
  repeat' first
    | (with_reducible exact Within.refl _)
    | (with_reducible assumption)
    | ((try lift_lets); intro x_; first
      | (refine (fun (hx_ : Within 0x80B80100000000000000000000000000340000000000000000000000000000000000000000000000000000000000 0x1000D5 d x_) => ?rest) ?val; (case' rest => clear_value x_); (case' val => subst x_))
      | (have _t := fun y_ => x_ y_; clear _t; subst x_)
      | (have _t : Dev := x_.1; clear _t; subst x_)
      | (have _t : Dev := x_.2; clear _t; subst x_)
      | (have _t : Dev := x_; clear _t; subst x_)
      | clear_value x_)
    | (with_reducible refine Dev.correct_w _ _ ?_ (by decide +kernel) (by decide +kernel))
    | (with_reducible refine Within.putAt ?_ _ _ _ (by decide +kernel))
    | (with_reducible refine Within.put ?_ _ _ (by decide +kernel))
    | (with_reducible refine Within.fresh ?_ (by decide +kernel))
    | (with_reducible refine Within.ite ?_ ?_)
    | (intro _ _ _)
    | split
    | dsimp only

theorem Dev.steer_w (d : Dev) (off : Int) {M P : Nat} {dz : Dev} (hd : Within M P dz d) (hm : inMask 0x80B80100000000000000000000000000340000000000000000000000000000000000000000000000000000000000 M = true) (hp : inMask 0x1000D5 P = true) : Within M P dz (Dev.steer d off) :=
  hd.andThen (Dev.steer_w0 d off) hm hp

theorem timeSend_w0 (d : Dev) : Within 0 0x300000 d (timeSend d) := by
  unfold timeSend
  repeat' first
    | (with_reducible exact Within.refl _)
    | (with_reducible assumption)
    | ((try lift_lets); intro x_; first
      | (refine (fun (hx_ : Within 0 0x300000 d x_) => ?rest) ?val; (case' rest => clear_value x_); (case' val => subst x_))
      | (have _t := fun y_ => x_ y_; clear _t; subst x_)
      | (have _t : Dev := x_.1; clear _t; subst x_)
      | (have _t : Dev := x_.2; clear _t; subst x_)
      | (have _t : Dev := x_; clear _t; subst x_)
      | clear_value x_)
    | (with_reducible refine Dev.bcast_w _ _ _ _ ?_ (by decide +kernel) (by decide +kernel))
    | (with_reducible refine Within.onLink ?_ _ (by decide +kernel))
    | (with_reducible refine Within.ite ?_ ?_)
    | (intro _ _ _)
    | split
    | dsimp only

theorem timeSend_w (d : Dev) {M P : Nat} {dz : Dev} (hd : Within M P dz d) (hm : inMask 0 M = true) (hp : inMask 0x300000 P = true) : Within M P dz (timeSend d) :=
  hd.andThen (timeSend_w0 d) hm hp

theorem Dev.showTimeOk_w0 (d : Dev) : Within 0x10000000000000000000000000000000000000000000000000000000000000 0 d (Dev.showTimeOk d) := by
  unfold Dev.showTimeOk
  repeat' first
    | (with_reducible exact Within.refl _)
    | (with_reducible assumption)
    | ((try lift_lets); intro x_; first
      | (refine (fun (hx_ : Within 0x10000000000000000000000000000000000000000000000000000000000000 0 d x_) => ?rest) ?val; (case' rest => clear_value x_); (case' val => subst x_))
      | (have _t := fun y_ => x_ y_; clear _t; subst x_)
      | (have _t : Dev := x_.1; clear _t; subst x_)
      | (have _t : Dev := x_.2; clear _t; subst x_)
      | (have _t : Dev := x_; clear _t; subst x_)
      | clear_value x_)
    | (with_reducible refine Within.putBitAt ?_ _ _ _ (by decide +kernel))
    | (with_reducible refine Within.putBit ?_ _ _ (by decide +kernel))
    | (with_reducible refine Within.ite ?_ ?_)
    | (intro _ _ _)
    | split
    | dsimp only

theorem Dev.showTimeOk_w (d : Dev) {M P : Nat} {dz : Dev} (hd : Within M P dz d) (hm : inMask 0x10000000000000000000000000000000000000000000000000000000000000 M = true) (hp : inMask 0 P = true) : Within M P dz (Dev.showTimeOk d) :=
  hd.andThen (Dev.showTimeOk_w0 d) hm hp

theorem timeReceive_w0 (p : Nat) (tIn : Nat) (fl : Flit) (d : Dev) : Within 0x80B801000000000000000000000000103C0400000000000000000000000000000000000000000000000000000000 0x1000D5 d (timeReceive p tIn fl d) := by
  unfold timeReceive
  repeat' first
    | (with_reducible exact Within.refl _)
    | (with_reducible assumption)
    | ((try lift_lets); intro x_; first
      | (refine (fun (hx_ : Within 0x80B801000000000000000000000000103C0400000000000000000000000000000000000000000000000000000000 0x1000D5 d x_) => ?rest) ?val; (case' rest => clear_value x_); (case' val => subst x_))
      | (have _t := fun y_ => x_ y_; clear _t; subst x_)
      | (have _t : Dev := x_.1; clear _t; subst x_)
      | (have _t : Dev := x_.2; clear _t; subst x_)
      | (have _t : Dev := x_; clear _t; subst x_)
      | clear_value x_)
    | (with_reducible refine Dev.pushFwd_w _ _ _ ?_ (by decide +kernel) (by decide +kernel))
    | (with_reducible refine Dev.steer_w _ _ ?_ (by decide +kernel) (by decide +kernel))
    | (with_reducible refine Dev.showTimeOk_w _ ?_ (by decide +kernel) (by decide +kernel))
    | (with_reducible refine Within.putBitAt ?_ _ _ _ (by decide +kernel))
    | (with_reducible refine Within.putBit ?_ _ _ (by decide +kernel))
    | (with_reducible refine Within.putIAt ?_ _ _ _ (by decide +kernel))
    | (with_reducible refine Within.putI ?_ _ _ (by decide +kernel))
    | (with_reducible refine Within.putAt ?_ _ _ _ (by decide +kernel))
    | (with_reducible refine Within.put ?_ _ _ (by decide +kernel))
    | (with_reducible refine Within.onLink ?_ _ (by decide +kernel))
    | (with_reducible refine Within.foldl ?_ _ _ ?_)
    | (with_reducible refine Within.ite ?_ ?_)
    | (intro _ _ _)
    | split
    | dsimp only

theorem timeReceive_w (p : Nat) (tIn : Nat) (fl : Flit) (d : Dev) {M P : Nat} {dz : Dev} (hd : Within M P dz d) (hm : inMask 0x80B801000000000000000000000000103C0400000000000000000000000000000000000000000000000000000000 M = true) (hp : inMask 0x1000D5 P = true) : Within M P dz (timeReceive p tIn fl d) :=
  hd.andThen (timeReceive_w0 p tIn fl d) hm hp

theorem timeHoldover_w0 (d : Dev) : Within 0x10040000000000000000000000000000000000000000000000000000000000 0x100000 d (timeHoldover d) := by
  unfold timeHoldover
  repeat' first
    | (with_reducible exact Within.refl _)
    | (with_reducible assumption)
    | ((try lift_lets); intro x_; first
      | (refine (fun (hx_ : Within 0x10040000000000000000000000000000000000000000000000000000000000 0x100000 d x_) => ?rest) ?val; (case' rest => clear_value x_); (case' val => subst x_))
      | (have _t := fun y_ => x_ y_; clear _t; subst x_)
      | (have _t : Dev := x_.1; clear _t; subst x_)
      | (have _t : Dev := x_.2; clear _t; subst x_)
      | (have _t : Dev := x_; clear _t; subst x_)
      | clear_value x_)
    | (with_reducible refine Dev.showTimeOk_w _ ?_ (by decide +kernel) (by decide +kernel))
    | (with_reducible refine Within.putBitAt ?_ _ _ _ (by decide +kernel))
    | (with_reducible refine Within.putBit ?_ _ _ (by decide +kernel))
    | (with_reducible refine Within.onLink ?_ _ (by decide +kernel))
    | (with_reducible refine Within.ite ?_ ?_)
    | (intro _ _ _)
    | split
    | dsimp only

theorem timeHoldover_w (d : Dev) {M P : Nat} {dz : Dev} (hd : Within M P dz d) (hm : inMask 0x10040000000000000000000000000000000000000000000000000000000000 M = true) (hp : inMask 0x100000 P = true) : Within M P dz (timeHoldover d) :=
  hd.andThen (timeHoldover_w0 d) hm hp

theorem segmentHoldLimit_w0 (d : Dev) : Within 0x10000000000000000000000000000000000000000000000000000000000000 0 d (segmentHoldLimit d) := by
  unfold segmentHoldLimit
  repeat' first
    | (with_reducible exact Within.refl _)
    | (with_reducible assumption)
    | (with_reducible refine Dev.showTimeOk_w _ ?_ (by decide +kernel) (by decide +kernel))
    | (with_reducible refine Within.ite ?_ ?_)
    | (intro _ _ _)
    | split
    | dsimp only

theorem segmentHoldLimit_w (d : Dev) {M P : Nat} {dz : Dev} (hd : Within M P dz d) (hm : inMask 0x10000000000000000000000000000000000000000000000000000000000000 M = true) (hp : inMask 0 P = true) : Within M P dz (segmentHoldLimit d) :=
  hd.andThen (segmentHoldLimit_w0 d) hm hp

theorem Dev.clockTick_w0 (d : Dev) : Within 0 0x100011 d (Dev.clockTick d) := by
  unfold Dev.clockTick
  repeat' first
    | (with_reducible exact Within.refl _)
    | (with_reducible assumption)
    | ((try lift_lets); intro x_; first
      | (refine (fun (hx_ : Within 0 0x100011 d x_) => ?rest) ?val; (case' rest => clear_value x_); (case' val => subst x_))
      | (have _t := fun y_ => x_ y_; clear _t; subst x_)
      | (have _t : Dev := x_.1; clear _t; subst x_)
      | (have _t : Dev := x_.2; clear _t; subst x_)
      | (have _t : Dev := x_; clear _t; subst x_)
      | clear_value x_)
    | (with_reducible refine Within.onHost ?_ _ (by decide +kernel))
    | (with_reducible refine Within.onLink ?_ _ (by decide +kernel))
    | (with_reducible refine Within.setNow ?_ _ _ (by decide +kernel))
    | (with_reducible refine Within.ite ?_ ?_)
    | (intro _ _ _)
    | split
    | dsimp only

theorem Dev.clockTick_w (d : Dev) {M P : Nat} {dz : Dev} (hd : Within M P dz d) (hm : inMask 0 M = true) (hp : inMask 0x100011 P = true) : Within M P dz (Dev.clockTick d) :=
  hd.andThen (Dev.clockTick_w0 d) hm hp

theorem encSend_w0 (d : Dev) : Within 0 0x300000 d (encSend d) := by
  unfold encSend
  repeat' first
    | (with_reducible exact Within.refl _)
    | (with_reducible assumption)
    | ((try lift_lets); intro x_; first
      | (refine (fun (hx_ : Within 0 0x300000 d x_) => ?rest) ?val; (case' rest => clear_value x_); (case' val => subst x_))
      | (have _t := fun y_ => x_ y_; clear _t; subst x_)
      | (have _t : Dev := x_.1; clear _t; subst x_)
      | (have _t : Dev := x_.2; clear _t; subst x_)
      | (have _t : Dev := x_; clear _t; subst x_)
      | clear_value x_)
    | (with_reducible refine Dev.bcast_w _ _ _ _ ?_ (by decide +kernel) (by decide +kernel))
    | (with_reducible refine Within.onLink ?_ _ (by decide +kernel))
    | (with_reducible refine Within.ite ?_ ?_)
    | (intro _ _ _)
    | split
    | dsimp only

theorem encSend_w (d : Dev) {M P : Nat} {dz : Dev} (hd : Within M P dz d) (hm : inMask 0 M = true) (hp : inMask 0x300000 P = true) : Within M P dz (encSend d) :=
  hd.andThen (encSend_w0 d) hm hp

theorem Dev.fillMarks_w0 (d : Dev) (w : Nat → Option Nat) : Within 0 0x100 d (Dev.fillMarks d w) := by
  unfold Dev.fillMarks
  repeat' first
    | (with_reducible exact Within.refl _)
    | (with_reducible assumption)
    | ((try lift_lets); intro x_; first
      | (refine (fun (hx_ : Within 0 0x100 d x_) => ?rest) ?val; (case' rest => clear_value x_); (case' val => subst x_))
      | (have _t := fun y_ => x_ y_; clear _t; subst x_)
      | (have _t : Dev := x_.1; clear _t; subst x_)
      | (have _t : Dev := x_.2; clear _t; subst x_)
      | (have _t : Dev := x_; clear _t; subst x_)
      | clear_value x_)
    | (with_reducible refine Within.onFpa ?_ _ (by decide +kernel))
    | (with_reducible refine Within.foldl ?_ _ _ ?_)
    | (with_reducible refine Within.ite ?_ ?_)
    | (intro _ _ _)
    | split
    | dsimp only

theorem Dev.fillMarks_w (d : Dev) (w : Nat → Option Nat) {M P : Nat} {dz : Dev} (hd : Within M P dz d) (hm : inMask 0 M = true) (hp : inMask 0x100 P = true) : Within M P dz (Dev.fillMarks d w) :=
  hd.andThen (Dev.fillMarks_w0 d w) hm hp

theorem Dev.fillEnds_w0 (d : Dev) (w : Nat → Option Nat) : Within 0 0x4100 d (Dev.fillEnds d w) := by
  unfold Dev.fillEnds
  repeat' first
    | (with_reducible exact Within.refl _)
    | (with_reducible assumption)
    | ((try lift_lets); intro x_; first
      | (refine (fun (hx_ : Within 0 0x4100 d x_) => ?rest) ?val; (case' rest => clear_value x_); (case' val => subst x_))
      | (have _t := fun y_ => x_ y_; clear _t; subst x_)
      | (have _t : Dev := x_.1; clear _t; subst x_)
      | (have _t : Dev := x_.2; clear _t; subst x_)
      | (have _t : Dev := x_; clear _t; subst x_)
      | clear_value x_)
    | (with_reducible refine Within.onFpa ?_ _ (by decide +kernel))
    | (with_reducible refine Within.onWeb ?_ _ (by decide +kernel))
    | (with_reducible refine Within.ite ?_ ?_)
    | (intro _ _ _)
    | split
    | dsimp only

theorem Dev.fillEnds_w (d : Dev) (w : Nat → Option Nat) {M P : Nat} {dz : Dev} (hd : Within M P dz d) (hm : inMask 0 M = true) (hp : inMask 0x4100 P = true) : Within M P dz (Dev.fillEnds d w) :=
  hd.andThen (Dev.fillEnds_w0 d w) hm hp

theorem encReceive_w0 (p : Nat) (fl : Flit) (d : Dev) : Within 0x80B8010000000000000000000000000580000000000000000000380020C0008C0000000000001000004000040000 0x365BD0 d (encReceive p fl d) := by
  unfold encReceive
  repeat' first
    | (with_reducible exact Within.refl _)
    | (with_reducible assumption)
    | ((try lift_lets); intro x_; first
      | (refine (fun (hx_ : Within 0x80B8010000000000000000000000000580000000000000000000380020C0008C0000000000001000004000040000 0x365BD0 d x_) => ?rest) ?val; (case' rest => clear_value x_); (case' val => subst x_))
      | (have _t := fun y_ => x_ y_; clear _t; subst x_)
      | (have _t : Dev := x_.1; clear _t; subst x_)
      | (have _t : Dev := x_.2; clear _t; subst x_)
      | (have _t : Dev := x_; clear _t; subst x_)
      | skip)
    | (with_reducible refine Dev.bcast_w _ _ _ _ ?_ (by decide +kernel) (by decide +kernel))
    | (with_reducible refine Dev.setW_w _ _ _ ?_ (by decide +kernel) (by decide +kernel))
    | (with_reducible refine Dev.presetW_w _ _ ?_ (by decide +kernel) (by decide +kernel))
    | (with_reducible refine Dev.sourceLost_w _ ?_ (by decide +kernel) (by decide +kernel))
    | (with_reducible refine Dev.fillMarks_w _ _ ?_ (by decide +kernel) (by decide +kernel))
    | (with_reducible refine Dev.fillEnds_w _ _ ?_ (by decide +kernel) (by decide +kernel))
    | (with_reducible refine Within.putBitAt ?_ _ _ _ (by decide +kernel))
    | (with_reducible refine Within.putBit ?_ _ _ (by decide +kernel))
    | (with_reducible refine Within.putAt ?_ _ _ _ (by decide +kernel))
    | (with_reducible refine Within.put ?_ _ _ (by decide +kernel))
    | (with_reducible refine Within.addSatAt ?_ _ _ _ (by decide +kernel))
    | (with_reducible refine Within.addSat ?_ _ _ (by decide +kernel))
    | (with_reducible refine Within.onHost ?_ _ (by decide +kernel))
    | (with_reducible refine Within.onWeb ?_ _ (by decide +kernel))
    | (with_reducible refine Within.onLink ?_ _ (by decide +kernel))
    | (with_reducible refine Within.ite ?_ ?_)
    | (intro _ _ _)
    | split
    | dsimp only

theorem encReceive_w (p : Nat) (fl : Flit) (d : Dev) {M P : Nat} {dz : Dev} (hd : Within M P dz d) (hm : inMask 0x80B8010000000000000000000000000580000000000000000000380020C0008C0000000000001000004000040000 M = true) (hp : inMask 0x365BD0 P = true) : Within M P dz (encReceive p fl d) :=
  hd.andThen (encReceive_w0 p fl d) hm hp

theorem encExtrapolate_w0 (t : Nat) (d : Dev) : Within 0x2800000000000000000000000000000000000000000000000000000000000 0x4100 d (encExtrapolate t d) := by
  unfold encExtrapolate
  repeat' first
    | (with_reducible exact Within.refl _)
    | (with_reducible assumption)
    | ((try lift_lets); intro x_; first
      | (refine (fun (hx_ : Within 0x2800000000000000000000000000000000000000000000000000000000000 0x4100 d x_) => ?rest) ?val; (case' rest => clear_value x_); (case' val => subst x_))
      | (have _t := fun y_ => x_ y_; clear _t; subst x_)
      | (have _t : Dev := x_.1; clear _t; subst x_)
      | (have _t : Dev := x_.2; clear _t; subst x_)
      | (have _t : Dev := x_; clear _t; subst x_)
      | clear_value x_)
    | (with_reducible refine Dev.fillMarks_w _ _ ?_ (by decide +kernel) (by decide +kernel))
    | (with_reducible refine Dev.fillEnds_w _ _ ?_ (by decide +kernel) (by decide +kernel))
    | (with_reducible refine Within.putBitAt ?_ _ _ _ (by decide +kernel))
    | (with_reducible refine Within.putBit ?_ _ _ (by decide +kernel))
    | (with_reducible refine Within.incAt ?_ _ _ (by decide +kernel))
    | (with_reducible refine Within.inc ?_ _ (by decide +kernel))
    | (with_reducible refine Within.foldl ?_ _ _ ?_)
    | (with_reducible refine Within.ite ?_ ?_)
    | (intro _ _ _)
    | split
    | dsimp only

theorem encExtrapolate_w (t : Nat) (d : Dev) {M P : Nat} {dz : Dev} (hd : Within M P dz d) (hm : inMask 0x2800000000000000000000000000000000000000000000000000000000000 M = true) (hp : inMask 0x4100 P = true) : Within M P dz (encExtrapolate t d) :=
  hd.andThen (encExtrapolate_w0 t d) hm hp

theorem encSampleLoss_w0 (d : Dev) : Within 0x80B80100000000000000000000000000800000000000000000000800000000000000000000000000000000000000 0x40D0 d (encSampleLoss d) := by
  unfold encSampleLoss
  repeat' first
    | (with_reducible exact Within.refl _)
    | (with_reducible assumption)
    | ((try lift_lets); intro x_; first
      | (refine (fun (hx_ : Within 0x80B80100000000000000000000000000800000000000000000000800000000000000000000000000000000000000 0x40D0 d x_) => ?rest) ?val; (case' rest => clear_value x_); (case' val => subst x_))
      | (have _t := fun y_ => x_ y_; clear _t; subst x_)
      | (have _t : Dev := x_.1; clear _t; subst x_)
      | (have _t : Dev := x_.2; clear _t; subst x_)
      | (have _t : Dev := x_; clear _t; subst x_)
      | clear_value x_)
    | (with_reducible refine Dev.sourceLost_w _ ?_ (by decide +kernel) (by decide +kernel))
    | (with_reducible refine Within.putBitAt ?_ _ _ _ (by decide +kernel))
    | (with_reducible refine Within.putBit ?_ _ _ (by decide +kernel))
    | (with_reducible refine Within.ite ?_ ?_)
    | (intro _ _ _)
    | split
    | dsimp only

theorem encSampleLoss_w (d : Dev) {M P : Nat} {dz : Dev} (hd : Within M P dz d) (hm : inMask 0x80B80100000000000000000000000000800000000000000000000800000000000000000000000000000000000000 M = true) (hp : inMask 0x40D0 P = true) : Within M P dz (encSampleLoss d) :=
  hd.andThen (encSampleLoss_w0 d) hm hp

theorem tsSrcWrite_w0 (src : Nat) (d : Dev) : Within 0x20000000000000000000000000000000000000000000000000000000000 0x800010 d (tsSrcWrite src d) := by
  unfold tsSrcWrite
  repeat' first
    | (with_reducible exact Within.refl _)
    | (with_reducible assumption)
    | ((try lift_lets); intro x_; first
      | (refine (fun (hx_ : Within 0x20000000000000000000000000000000000000000000000000000000000 0x800010 d x_) => ?rest) ?val; (case' rest => clear_value x_); (case' val => subst x_))
      | (have _t := fun y_ => x_ y_; clear _t; subst x_)
      | (have _t : Dev := x_.1; clear _t; subst x_)
      | (have _t : Dev := x_.2; clear _t; subst x_)
      | (have _t : Dev := x_; clear _t; subst x_)
      | clear_value x_)
    | (with_reducible refine Within.putAt ?_ _ _ _ (by decide +kernel))
    | (with_reducible refine Within.put ?_ _ _ (by decide +kernel))
    | (with_reducible refine Within.onHost ?_ _ (by decide +kernel))
    | (with_reducible refine Within.onIo ?_ _ (by decide +kernel))
    | (with_reducible refine Within.ite ?_ ?_)
    | (intro _ _ _)
    | split
    | dsimp only

theorem tsSrcWrite_w (src : Nat) (d : Dev) {M P : Nat} {dz : Dev} (hd : Within M P dz d) (hm : inMask 0x20000000000000000000000000000000000000000000000000000000000 M = true) (hp : inMask 0x800010 P = true) : Within M P dz (tsSrcWrite src d) :=
  hd.andThen (tsSrcWrite_w0 src d) hm hp

theorem Dev.showTests_w0 (d : Dev) : Within 0x80000000000000000000000000000000000000000000000000000000000000000000000000000000000000000 0 d (Dev.showTests d) := by
  unfold Dev.showTests
  repeat' first
    | (with_reducible exact Within.refl _)
    | (with_reducible assumption)
    | ((try lift_lets); intro x_; first
      | (refine (fun (hx_ : Within 0x80000000000000000000000000000000000000000000000000000000000000000000000000000000000000000 0 d x_) => ?rest) ?val; (case' rest => clear_value x_); (case' val => subst x_))
      | (have _t := fun y_ => x_ y_; clear _t; subst x_)
      | (have _t : Dev := x_.1; clear _t; subst x_)
      | (have _t : Dev := x_.2; clear _t; subst x_)
      | (have _t : Dev := x_; clear _t; subst x_)
      | clear_value x_)
    | (with_reducible refine Within.putBitAt ?_ _ _ _ (by decide +kernel))
    | (with_reducible refine Within.putBit ?_ _ _ (by decide +kernel))
    | (with_reducible refine Within.putAt ?_ _ _ _ (by decide +kernel))
    | (with_reducible refine Within.put ?_ _ _ (by decide +kernel))
    | (with_reducible refine Within.ite ?_ ?_)
    | (intro _ _ _)
    | split
    | dsimp only

theorem Dev.showTests_w (d : Dev) {M P : Nat} {dz : Dev} (hd : Within M P dz d) (hm : inMask 0x80000000000000000000000000000000000000000000000000000000000000000000000000000000000000000 M = true) (hp : inMask 0 P = true) : Within M P dz (Dev.showTests d) :=
  hd.andThen (Dev.showTests_w0 d) hm hp

theorem Dev.endSelfTest_w0 (d : Dev) (x : SelfTest) : Within 0x300B80100000140010000000000000010000000000000000000000000000000000000000000000000000000000000 0xF0 d (Dev.endSelfTest d x) := by
  unfold Dev.endSelfTest
  repeat' first
    | (with_reducible exact Within.refl _)
    | (with_reducible assumption)
    | ((try lift_lets); intro x_; first
      | (refine (fun (hx_ : Within 0x300B80100000140010000000000000010000000000000000000000000000000000000000000000000000000000000 0xF0 d x_) => ?rest) ?val; (case' rest => clear_value x_); (case' val => subst x_))
      | (have _t := fun y_ => x_ y_; clear _t; subst x_)
      | (have _t : Dev := x_.1; clear _t; subst x_)
      | (have _t : Dev := x_.2; clear _t; subst x_)
      | (have _t : Dev := x_; clear _t; subst x_)
      | clear_value x_)
    | (with_reducible refine Dev.logEvent_w _ _ _ ?_ (by decide +kernel) (by decide +kernel))
    | (with_reducible refine Dev.ok_w _ _ _ ?_ (by decide +kernel) (by decide +kernel))
    | (with_reducible refine Dev.completeAll_w _ _ _ _ _ ?_ (by decide +kernel) (by decide +kernel))
    | (with_reducible refine Within.putAt ?_ _ _ _ (by decide +kernel))
    | (with_reducible refine Within.put ?_ _ _ (by decide +kernel))
    | (with_reducible refine Within.incWrapAt ?_ _ _ (by decide +kernel))
    | (with_reducible refine Within.incWrap ?_ _ (by decide +kernel))
    | (with_reducible refine Within.ite ?_ ?_)
    | (intro _ _ _)
    | split
    | dsimp only

theorem Dev.endSelfTest_w (d : Dev) (x : SelfTest) {M P : Nat} {dz : Dev} (hd : Within M P dz d) (hm : inMask 0x300B80100000140010000000000000010000000000000000000000000000000000000000000000000000000000000 M = true) (hp : inMask 0xF0 P = true) : Within M P dz (Dev.endSelfTest d x) :=
  hd.andThen (Dev.endSelfTest_w0 d x) hm hp

theorem Dev.endSelfTests_w0 (d : Dev) : Within 0x300B80100000140010000000000000010000000000000000000000000000000000000000000000000000000000000 0xF0 d (Dev.endSelfTests d) := by
  unfold Dev.endSelfTests
  repeat' first
    | (with_reducible exact Within.refl _)
    | (with_reducible assumption)
    | ((try lift_lets); intro x_; first
      | (refine (fun (hx_ : Within 0x300B80100000140010000000000000010000000000000000000000000000000000000000000000000000000000000 0xF0 d x_) => ?rest) ?val; (case' rest => clear_value x_); (case' val => subst x_))
      | (have _t := fun y_ => x_ y_; clear _t; subst x_)
      | (have _t : Dev := x_.1; clear _t; subst x_)
      | (have _t : Dev := x_.2; clear _t; subst x_)
      | (have _t : Dev := x_; clear _t; subst x_)
      | clear_value x_)
    | (with_reducible refine Dev.showTests_w _ ?_ (by decide +kernel) (by decide +kernel))
    | (with_reducible refine Dev.endSelfTest_w _ _ ?_ (by decide +kernel) (by decide +kernel))
    | (with_reducible refine Within.onHealth ?_ _ (by decide +kernel))
    | (with_reducible refine Within.foldl ?_ _ _ ?_)
    | (with_reducible refine Within.ite ?_ ?_)
    | (intro _ _ _)
    | split
    | dsimp only

theorem Dev.endSelfTests_w (d : Dev) {M P : Nat} {dz : Dev} (hd : Within M P dz d) (hm : inMask 0x300B80100000140010000000000000010000000000000000000000000000000000000000000000000000000000000 M = true) (hp : inMask 0xF0 P = true) : Within M P dz (Dev.endSelfTests d) :=
  hd.andThen (Dev.endSelfTests_w0 d) hm hp

theorem Dev.endTest_w0 (d : Dev) (ss : Nat) (elem : Nat) (lasting : Bool) : Within 0x300B80100000140010000000000000010000000000000000000000000000000000000000000000000000000000000 0xF0 d (Dev.endTest d ss elem lasting) := by
  unfold Dev.endTest
  repeat' first
    | (with_reducible exact Within.refl _)
    | (with_reducible assumption)
    | (with_reducible refine Dev.endSelfTests_w _ ?_ (by decide +kernel) (by decide +kernel))
    | (with_reducible refine Within.onHealth ?_ _ (by decide +kernel))
    | (with_reducible refine Within.ite ?_ ?_)
    | (intro _ _ _)
    | split
    | dsimp only

theorem Dev.endTest_w (d : Dev) (ss : Nat) (elem : Nat) (lasting : Bool) {M P : Nat} {dz : Dev} (hd : Within M P dz d) (hm : inMask 0x300B80100000140010000000000000010000000000000000000000000000000000000000000000000000000000000 M = true) (hp : inMask 0xF0 P = true) : Within M P dz (Dev.endTest d ss elem lasting) :=
  hd.andThen (Dev.endTest_w0 d ss elem lasting) hm hp

theorem Dev.trimStep_w0 (d : Dev) (ss : Nat) (elem : Nat) : Within 0x40000100000000000000000000000000000000000000000000000000000000000000000000000000000000000000 0x3C4 d (Dev.trimStep d ss elem) := by
  unfold Dev.trimStep
  repeat' first
    | (with_reducible exact Within.refl _)
    | (with_reducible assumption)
    | ((try lift_lets); intro x_; first
      | (refine (fun (hx_ : Within 0x40000100000000000000000000000000000000000000000000000000000000000000000000000000000000000000 0x3C4 d x_) => ?rest) ?val; (case' rest => clear_value x_); (case' val => subst x_))
      | (have _t := fun y_ => x_ y_; clear _t; subst x_)
      | (have _t : Dev := x_.1; clear _t; subst x_)
      | (have _t : Dev := x_.2; clear _t; subst x_)
      | (have _t : Dev := x_; clear _t; subst x_)
      | clear_value x_)
    | (with_reducible refine Dev.keepPush_w _ _ _ ?_ (by decide +kernel) (by decide +kernel))
    | (with_reducible refine Within.incAt ?_ _ _ (by decide +kernel))
    | (with_reducible refine Within.inc ?_ _ (by decide +kernel))
    | (with_reducible refine Within.onHealth ?_ _ (by decide +kernel))
    | (with_reducible refine Within.onFpa ?_ _ (by decide +kernel))
    | (with_reducible refine Within.onStage ?_ _ (by decide +kernel))
    | (with_reducible refine Within.fresh ?_ (by decide +kernel))
    | (with_reducible refine Within.ite ?_ ?_)
    | (intro _ _ _)
    | split
    | dsimp only

theorem Dev.trimStep_w (d : Dev) (ss : Nat) (elem : Nat) {M P : Nat} {dz : Dev} (hd : Within M P dz d) (hm : inMask 0x40000100000000000000000000000000000000000000000000000000000000000000000000000000000000000000 M = true) (hp : inMask 0x3C4 P = true) : Within M P dz (Dev.trimStep d ss elem) :=
  hd.andThen (Dev.trimStep_w0 d ss elem) hm hp

theorem Dev.setAside_w0 (d : Dev) (ss : Nat) (elem : Nat) (code : Nat) : Within 0 0x80 d (Dev.setAside d ss elem code) := by
  unfold Dev.setAside
  repeat' first
    | (with_reducible exact Within.refl _)
    | (with_reducible assumption)
    | (with_reducible refine Within.onHealth ?_ _ (by decide +kernel))
    | (with_reducible refine Within.ite ?_ ?_)
    | (intro _ _ _)
    | split
    | dsimp only

theorem Dev.setAside_w (d : Dev) (ss : Nat) (elem : Nat) (code : Nat) {M P : Nat} {dz : Dev} (hd : Within M P dz d) (hm : inMask 0 M = true) (hp : inMask 0x80 P = true) : Within M P dz (Dev.setAside d ss elem code) :=
  hd.andThen (Dev.setAside_w0 d ss elem code) hm hp

theorem Dev.substSlice_w0 (d : Dev) (g : Nat) (k : Nat) (e : Dev) (x_ : Bool) (h : Dev.substSlice d g k = (e, x_)) : Within 0x80B82100000000000000000000000000000000000000000000000000000000000000000000080040000000000000 0x9D0 d e := by
  unfold Dev.substSlice at h
  try dsimp only at h
  repeat' split at h
  all_goals (first | cases h | (injection h with h h'; subst h) | (injection h with h; subst h) | skip)
  all_goals try dsimp only
  all_goals (
    repeat' first
      | (with_reducible exact Within.refl _)
      | (with_reducible assumption)
      | ((try lift_lets); intro x_; first
        | (refine (fun (hx_ : Within 0x80B82100000000000000000000000000000000000000000000000000000000000000000000080040000000000000 0x9D0 d x_) => ?rest) ?val; (case' rest => clear_value x_); (case' val => subst x_))
        | (have _t := fun y_ => x_ y_; clear _t; subst x_)
        | (have _t : Dev := x_.1; clear _t; subst x_)
        | (have _t : Dev := x_.2; clear _t; subst x_)
        | (have _t : Dev := x_; clear _t; subst x_)
        | clear_value x_)
      | (with_reducible refine Dev.tallyInc_w _ _ ?_ (by decide +kernel) (by decide +kernel))
      | (with_reducible refine Dev.event_w _ _ _ ?_ (by decide +kernel) (by decide +kernel))
      | (with_reducible refine Within.putBitAt ?_ _ _ _ (by decide +kernel))
      | (with_reducible refine Within.putBit ?_ _ _ (by decide +kernel))
      | (with_reducible refine Within.onFpa ?_ _ (by decide +kernel))
      | (with_reducible refine Within.onPipe ?_ _ (by decide +kernel))
      | (with_reducible refine Within.ite ?_ ?_)
      | (intro _ _ _)
      | split
      | dsimp only)

theorem Dev.substSlice_w (d : Dev) (g : Nat) (k : Nat) (e : Dev) (x_ : Bool) (h : Dev.substSlice d g k = (e, x_)) {M P : Nat} {dz : Dev} (hd : Within M P dz d) (hm : inMask 0x80B82100000000000000000000000000000000000000000000000000000000000000000000080040000000000000 M = true) (hp : inMask 0x9D0 P = true) : Within M P dz e :=
  hd.andThen (Dev.substSlice_w0 d g k _ _ h) hm hp

theorem Dev.substSlice_w1 (d : Dev) (g : Nat) (k : Nat) {M P : Nat} {dz : Dev} (hd : Within M P dz d) (hm : inMask 0x80B82100000000000000000000000000000000000000000000000000000000000000000000080040000000000000 M = true) (hp : inMask 0x9D0 P = true) : Within M P dz (Dev.substSlice d g k).1 :=
  Dev.substSlice_w d g k _ _ rfl hd hm hp

theorem Dev.coppice_w0 (d : Dev) (ss : Nat) (elem : Nat) (code : Nat) (e : Dev) (x_ : Bool) (h : Dev.coppice d ss elem code = (e, x_)) : Within 0x80B821A0200800000000000000000000000000000000000000000000000000000000000000080040004000000000 0x100BD0 d e := by
  unfold Dev.coppice at h
  try dsimp only at h
  repeat' split at h
  all_goals (first | cases h | (injection h with h h'; subst h) | (injection h with h; subst h) | skip)
  all_goals try dsimp only
  all_goals (
    repeat' first
      | (with_reducible exact Within.refl _)
      | (with_reducible assumption)
      | ((try lift_lets); intro x_; first
        | (refine (fun (hx_ : Within 0x80B821A0200800000000000000000000000000000000000000000000000000000000000000080040004000000000 0x100BD0 d x_) => ?rest) ?val; (case' rest => clear_value x_); (case' val => subst x_))
        | (have _t := fun y_ => x_ y_; clear _t; subst x_)
        | (have _t : Dev := x_.1; clear _t; subst x_)
        | (have _t : Dev := x_.2; clear _t; subst x_)
        | (have _t : Dev := x_; clear _t; subst x_)
        | clear_value x_)
      | (with_reducible refine Dev.event_w _ _ _ ?_ (by decide +kernel) (by decide +kernel))
      | (with_reducible refine Dev.laneOut_w _ _ _ ?_ (by decide +kernel) (by decide +kernel))
      | (with_reducible refine Dev.setAside_w _ _ _ _ ?_ (by decide +kernel) (by decide +kernel))
      | (with_reducible refine Within.putBitAt ?_ _ _ _ (by decide +kernel))
      | (with_reducible refine Within.putBit ?_ _ _ (by decide +kernel))
      | (with_reducible refine Within.putAt ?_ _ _ _ (by decide +kernel))
      | (with_reducible refine Within.put ?_ _ _ (by decide +kernel))
      | (with_reducible refine Within.incAt ?_ _ _ (by decide +kernel))
      | (with_reducible refine Within.inc ?_ _ (by decide +kernel))
      | (with_reducible refine Within.onStore ?_ _ (by decide +kernel))
      | (with_reducible refine Within.onHealth ?_ _ (by decide +kernel))
      | (with_reducible refine Within.onFpa ?_ _ (by decide +kernel))
      | (with_reducible refine Within.onStage ?_ _ (by decide +kernel))
      | (with_reducible refine Dev.substSlice_w1 _ _ _ ?_ (by decide +kernel) (by decide +kernel))
      | (with_reducible refine Dev.substSlice_w _ _ _ _ _ (by assumption) ?_ (by decide +kernel) (by decide +kernel))
      | (with_reducible refine Within.ite ?_ ?_)
      | (intro _ _ _)
      | split
      | dsimp only)

theorem Dev.coppice_w (d : Dev) (ss : Nat) (elem : Nat) (code : Nat) (e : Dev) (x_ : Bool) (h : Dev.coppice d ss elem code = (e, x_)) {M P : Nat} {dz : Dev} (hd : Within M P dz d) (hm : inMask 0x80B821A0200800000000000000000000000000000000000000000000000000000000000000080040004000000000 M = true) (hp : inMask 0x100BD0 P = true) : Within M P dz e :=
  hd.andThen (Dev.coppice_w0 d ss elem code _ _ h) hm hp

theorem Dev.coppice_w1 (d : Dev) (ss : Nat) (elem : Nat) (code : Nat) {M P : Nat} {dz : Dev} (hd : Within M P dz d) (hm : inMask 0x80B821A0200800000000000000000000000000000000000000000000000000000000000000080040004000000000 M = true) (hp : inMask 0x100BD0 P = true) : Within M P dz (Dev.coppice d ss elem code).1 :=
  Dev.coppice_w d ss elem code _ _ rfl hd hm hp

theorem Dev.laneStep_w0 (d : Dev) (q : Nat × Bool) : Within 0x80B80100000000000000000000000000000000000000000000000000000000000000000000000000000000000800 0x10D0 d (Dev.laneStep d q) := by
  unfold Dev.laneStep
  repeat' first
    | (with_reducible exact Within.refl _)
    | (with_reducible assumption)
    | ((try lift_lets); intro x_; first
      | (refine (fun (hx_ : Within 0x80B80100000000000000000000000000000000000000000000000000000000000000000000000000000000000800 0x10D0 d x_) => ?rest) ?val; (case' rest => clear_value x_); (case' val => subst x_))
      | (have _t := fun y_ => x_ y_; clear _t; subst x_)
      | (have _t : Dev := x_.1; clear _t; subst x_)
      | (have _t : Dev := x_.2; clear _t; subst x_)
      | (have _t : Dev := x_; clear _t; subst x_)
      | clear_value x_)
    | (with_reducible refine Dev.event_w _ _ _ ?_ (by decide +kernel) (by decide +kernel))
    | (with_reducible refine Dev.setDom_w _ _ _ ?_ (by decide +kernel) (by decide +kernel))
    | (with_reducible refine Within.onHealth ?_ _ (by decide +kernel))
    | (with_reducible refine Within.ite ?_ ?_)
    | (intro _ _ _)
    | split
    | dsimp only

theorem Dev.laneStep_w (d : Dev) (q : Nat × Bool) {M P : Nat} {dz : Dev} (hd : Within M P dz d) (hm : inMask 0x80B80100000000000000000000000000000000000000000000000000000000000000000000000000000000000800 M = true) (hp : inMask 0x10D0 P = true) : Within M P dz (Dev.laneStep d q) :=
  hd.andThen (Dev.laneStep_w0 d q) hm hp

theorem Dev.takeLanes_w0 (d : Dev) : Within 0x80B80100000000000000000000000000000000000000000000000000000000000000000000000000000000000800 0x10D0 d (Dev.takeLanes d) := by
  unfold Dev.takeLanes
  repeat' first
    | (with_reducible exact Within.refl _)
    | (with_reducible assumption)
    | (with_reducible refine Dev.keepPush_w _ _ _ ?_ (by decide +kernel) (by decide +kernel))
    | (with_reducible refine Dev.laneStep_w _ _ ?_ (by decide +kernel) (by decide +kernel))
    | (with_reducible refine Within.onHealth ?_ _ (by decide +kernel))
    | (with_reducible refine Within.foldl ?_ _ _ ?_)
    | (with_reducible refine Within.ite ?_ ?_)
    | (intro _ _ _)
    | split
    | dsimp only

theorem Dev.takeLanes_w (d : Dev) {M P : Nat} {dz : Dev} (hd : Within M P dz d) (hm : inMask 0x80B80100000000000000000000000000000000000000000000000000000000000000000000000000000000000800 M = true) (hp : inMask 0x10D0 P = true) : Within M P dz (Dev.takeLanes d) :=
  hd.andThen (Dev.takeLanes_w0 d) hm hp

theorem Dev.substitute_w0 (d : Dev) (ss : Nat) (elem : Nat) (code : Nat) : Within 0x3C0B821A0200940010000000000000010000000000000000000000000000000000000000000080040004000000000 0x100BF0 d (Dev.substitute d ss elem code) := by
  unfold Dev.substitute
  repeat' first
    | (with_reducible exact Within.refl _)
    | (with_reducible assumption)
    | ((try lift_lets); intro x_; first
      | (refine (fun (hx_ : Within 0x3C0B821A0200940010000000000000010000000000000000000000000000000000000000000080040004000000000 0x100BF0 d x_) => ?rest) ?val; (case' rest => clear_value x_); (case' val => subst x_))
      | (have _t := fun y_ => x_ y_; clear _t; subst x_)
      | (have _t : Dev := x_.1; clear _t; subst x_)
      | (have _t : Dev := x_.2; clear _t; subst x_)
      | (have _t : Dev := x_; clear _t; subst x_)
      | clear_value x_)
    | (with_reducible refine Dev.logEvent_w _ _ _ ?_ (by decide +kernel) (by decide +kernel))
    | (with_reducible refine Dev.keepPush_w _ _ _ ?_ (by decide +kernel) (by decide +kernel))
    | (with_reducible refine Dev.endTest_w _ _ _ _ ?_ (by decide +kernel) (by decide +kernel))
    | (with_reducible refine Within.incAt ?_ _ _ (by decide +kernel))
    | (with_reducible refine Within.inc ?_ _ (by decide +kernel))
    | (with_reducible refine Dev.coppice_w1 _ _ _ _ ?_ (by decide +kernel) (by decide +kernel))
    | (with_reducible refine Dev.coppice_w _ _ _ _ _ _ (by assumption) ?_ (by decide +kernel) (by decide +kernel))
    | (with_reducible refine Within.ite ?_ ?_)
    | (intro _ _ _)
    | split
    | dsimp only

theorem Dev.substitute_w (d : Dev) (ss : Nat) (elem : Nat) (code : Nat) {M P : Nat} {dz : Dev} (hd : Within M P dz d) (hm : inMask 0x3C0B821A0200940010000000000000010000000000000000000000000000000000000000000080040004000000000 M = true) (hp : inMask 0x100BF0 P = true) : Within M P dz (Dev.substitute d ss elem code) :=
  hd.andThen (Dev.substitute_w0 d ss elem code) hm hp

theorem Dev.unrepaired_w0 (d : Dev) (ss : Nat) (elem : Nat) (code : Nat) : Within 0x3C0B821A0200940010000000000000010000000000000000000000000000000000000000000080040004000000000 0x100BF0 d (Dev.unrepaired d ss elem code) := by
  unfold Dev.unrepaired
  repeat' first
    | (with_reducible exact Within.refl _)
    | (with_reducible assumption)
    | (with_reducible refine Dev.endTest_w _ _ _ _ ?_ (by decide +kernel) (by decide +kernel))
    | (with_reducible refine Dev.substitute_w _ _ _ _ ?_ (by decide +kernel) (by decide +kernel))
    | (with_reducible refine Within.ite ?_ ?_)
    | (intro _ _ _)
    | split
    | dsimp only

theorem Dev.unrepaired_w (d : Dev) (ss : Nat) (elem : Nat) (code : Nat) {M P : Nat} {dz : Dev} (hd : Within M P dz d) (hm : inMask 0x3C0B821A0200940010000000000000010000000000000000000000000000000000000000000080040004000000000 M = true) (hp : inMask 0x100BF0 P = true) : Within M P dz (Dev.unrepaired d ss elem code) :=
  hd.andThen (Dev.unrepaired_w0 d ss elem code) hm hp

theorem Dev.lasting_w0 (d : Dev) (ss : Nat) (elem : Nat) (code : Nat) : Within 0x3E0B821A0200940010000000000000010000000000000000000000000000000000000000000080040004000000000 0x100BF4 d (Dev.lasting d ss elem code) := by
  unfold Dev.lasting
  repeat' first
    | (with_reducible exact Within.refl _)
    | (with_reducible assumption)
    | ((try lift_lets); intro x_; first
      | (refine (fun (hx_ : Within 0x3E0B821A0200940010000000000000010000000000000000000000000000000000000000000080040004000000000 0x100BF4 d x_) => ?rest) ?val; (case' rest => clear_value x_); (case' val => subst x_))
      | (have _t := fun y_ => x_ y_; clear _t; subst x_)
      | (have _t : Dev := x_.1; clear _t; subst x_)
      | (have _t : Dev := x_.2; clear _t; subst x_)
      | (have _t : Dev := x_; clear _t; subst x_)
      | clear_value x_)
    | (with_reducible refine Dev.logEvent_w _ _ _ ?_ (by decide +kernel) (by decide +kernel))
    | (with_reducible refine Dev.trimStep_w _ _ _ ?_ (by decide +kernel) (by decide +kernel))
    | (with_reducible refine Dev.substitute_w _ _ _ _ ?_ (by decide +kernel) (by decide +kernel))
    | (with_reducible refine Dev.unrepaired_w _ _ _ _ ?_ (by decide +kernel) (by decide +kernel))
    | (with_reducible refine Within.incAt ?_ _ _ (by decide +kernel))
    | (with_reducible refine Within.inc ?_ _ (by decide +kernel))
    | (with_reducible refine Within.onHealth ?_ _ (by decide +kernel))
    | (with_reducible refine Within.ite ?_ ?_)
    | (intro _ _ _)
    | split
    | dsimp only

theorem Dev.lasting_w (d : Dev) (ss : Nat) (elem : Nat) (code : Nat) {M P : Nat} {dz : Dev} (hd : Within M P dz d) (hm : inMask 0x3E0B821A0200940010000000000000010000000000000000000000000000000000000000000080040004000000000 M = true) (hp : inMask 0x100BF4 P = true) : Within M P dz (Dev.lasting d ss elem code) :=
  hd.andThen (Dev.lasting_w0 d ss elem code) hm hp

theorem Dev.retest_w0 (d : Dev) (r : RepairX) (pass : Bool) : Within 0x3C0B821A0200940010000000000000010000000000000000000000000000000000000000000080040004000000000 0x100BF4 d (Dev.retest d r pass) := by
  unfold Dev.retest
  repeat' first
    | (with_reducible exact Within.refl _)
    | (with_reducible assumption)
    | (with_reducible refine Dev.logEvent_w _ _ _ ?_ (by decide +kernel) (by decide +kernel))
    | (with_reducible refine Dev.endTest_w _ _ _ _ ?_ (by decide +kernel) (by decide +kernel))
    | (with_reducible refine Dev.trimStep_w _ _ _ ?_ (by decide +kernel) (by decide +kernel))
    | (with_reducible refine Dev.substitute_w _ _ _ _ ?_ (by decide +kernel) (by decide +kernel))
    | (with_reducible refine Dev.unrepaired_w _ _ _ _ ?_ (by decide +kernel) (by decide +kernel))
    | (with_reducible refine Within.onHealth ?_ _ (by decide +kernel))
    | (with_reducible refine Within.ite ?_ ?_)
    | (intro _ _ _)
    | split
    | dsimp only

theorem Dev.retest_w (d : Dev) (r : RepairX) (pass : Bool) {M P : Nat} {dz : Dev} (hd : Within M P dz d) (hm : inMask 0x3C0B821A0200940010000000000000010000000000000000000000000000000000000000000080040004000000000 M = true) (hp : inMask 0x100BF4 P = true) : Within M P dz (Dev.retest d r pass) :=
  hd.andThen (Dev.retest_w0 d r pass) hm hp

theorem Dev.noisyPixels_w0 (d : Dev) (ch : Nat) : Within 0x20002000000000000000000000000000000000000000000000000000000000000000000000080000000000000000 0x8C0 d (Dev.noisyPixels d ch) := by
  unfold Dev.noisyPixels
  repeat' first
    | (with_reducible exact Within.refl _)
    | (with_reducible assumption)
    | ((try lift_lets); intro x_; first
      | (refine (fun (hx_ : Within 0x20002000000000000000000000000000000000000000000000000000000000000000000000080000000000000000 0x8C0 d x_) => ?rest) ?val; (case' rest => clear_value x_); (case' val => subst x_))
      | (have _t := fun y_ => x_ y_; clear _t; subst x_)
      | (have _t : Dev := x_.1; clear _t; subst x_)
      | (have _t : Dev := x_.2; clear _t; subst x_)
      | (have _t : Dev := x_; clear _t; subst x_)
      | clear_value x_)
    | (with_reducible refine Dev.tallyInc_w _ _ ?_ (by decide +kernel) (by decide +kernel))
    | (with_reducible refine Within.putBitAt ?_ _ _ _ (by decide +kernel))
    | (with_reducible refine Within.putBit ?_ _ _ (by decide +kernel))
    | (with_reducible refine Within.addSatAt ?_ _ _ _ (by decide +kernel))
    | (with_reducible refine Within.addSat ?_ _ _ (by decide +kernel))
    | (with_reducible refine Within.onHealth ?_ _ (by decide +kernel))
    | (with_reducible refine Within.onPipe ?_ _ (by decide +kernel))
    | (with_reducible refine Within.ite ?_ ?_)
    | (intro _ _ _)
    | split
    | dsimp only

theorem Dev.noisyPixels_w (d : Dev) (ch : Nat) {M P : Nat} {dz : Dev} (hd : Within M P dz d) (hm : inMask 0x20002000000000000000000000000000000000000000000000000000000000000000000000080000000000000000 M = true) (hp : inMask 0x8C0 P = true) : Within M P dz (Dev.noisyPixels d ch) :=
  hd.andThen (Dev.noisyPixels_w0 d ch) hm hp

theorem Dev.transient_w0 (d : Dev) (ss : Nat) (elem : Nat) (code : Nat) : Within 0x3F0B821A0200940010000000000000010000000000000000000000000000000000000000000080040004000000000 0x100BF4 d (Dev.transient d ss elem code) := by
  unfold Dev.transient
  repeat' first
    | (with_reducible exact Within.refl _)
    | (with_reducible assumption)
    | ((try lift_lets); intro x_; first
      | (refine (fun (hx_ : Within 0x3F0B821A0200940010000000000000010000000000000000000000000000000000000000000080040004000000000 0x100BF4 d x_) => ?rest) ?val; (case' rest => clear_value x_); (case' val => subst x_))
      | (have _t := fun y_ => x_ y_; clear _t; subst x_)
      | (have _t : Dev := x_.1; clear _t; subst x_)
      | (have _t : Dev := x_.2; clear _t; subst x_)
      | (have _t : Dev := x_; clear _t; subst x_)
      | clear_value x_)
    | (with_reducible refine Dev.logEvent_w _ _ _ ?_ (by decide +kernel) (by decide +kernel))
    | (with_reducible refine Dev.endTest_w _ _ _ _ ?_ (by decide +kernel) (by decide +kernel))
    | (with_reducible refine Dev.lasting_w _ _ _ _ ?_ (by decide +kernel) (by decide +kernel))
    | (with_reducible refine Within.incAt ?_ _ _ (by decide +kernel))
    | (with_reducible refine Within.inc ?_ _ (by decide +kernel))
    | (with_reducible refine Within.onHealth ?_ _ (by decide +kernel))
    | (with_reducible refine Within.ite ?_ ?_)
    | (intro _ _ _)
    | split
    | dsimp only

theorem Dev.transient_w (d : Dev) (ss : Nat) (elem : Nat) (code : Nat) {M P : Nat} {dz : Dev} (hd : Within M P dz d) (hm : inMask 0x3F0B821A0200940010000000000000010000000000000000000000000000000000000000000080040004000000000 M = true) (hp : inMask 0x100BF4 P = true) : Within M P dz (Dev.transient d ss elem code) :=
  hd.andThen (Dev.transient_w0 d ss elem code) hm hp

theorem testComplete_w0 (ss : Nat) (elem : Nat) (pass : Bool) (d : Dev) : Within 0x3F8B821A0200940010000000000000010000000000000000000000000000000000000000000080040004000000000 0x100BF4 d (testComplete ss elem pass d) := by
  unfold testComplete
  repeat' first
    | (with_reducible exact Within.refl _)
    | (with_reducible assumption)
    | ((try lift_lets); intro x_; first
      | (refine (fun (hx_ : Within 0x3F8B821A0200940010000000000000010000000000000000000000000000000000000000000080040004000000000 0x100BF4 d x_) => ?rest) ?val; (case' rest => clear_value x_); (case' val => subst x_))
      | (have _t := fun y_ => x_ y_; clear _t; subst x_)
      | (have _t : Dev := x_.1; clear _t; subst x_)
      | (have _t : Dev := x_.2; clear _t; subst x_)
      | (have _t : Dev := x_; clear _t; subst x_)
      | clear_value x_)
    | (with_reducible refine Dev.endTest_w _ _ _ _ ?_ (by decide +kernel) (by decide +kernel))
    | (with_reducible refine Dev.lasting_w _ _ _ _ ?_ (by decide +kernel) (by decide +kernel))
    | (with_reducible refine Dev.retest_w _ _ _ ?_ (by decide +kernel) (by decide +kernel))
    | (with_reducible refine Dev.noisyPixels_w _ _ ?_ (by decide +kernel) (by decide +kernel))
    | (with_reducible refine Dev.transient_w _ _ _ _ ?_ (by decide +kernel) (by decide +kernel))
    | (with_reducible refine Within.incAt ?_ _ _ (by decide +kernel))
    | (with_reducible refine Within.inc ?_ _ (by decide +kernel))
    | (with_reducible refine Within.ite ?_ ?_)
    | (intro _ _ _)
    | split
    | dsimp only

theorem testComplete_w (ss : Nat) (elem : Nat) (pass : Bool) (d : Dev) {M P : Nat} {dz : Dev} (hd : Within M P dz d) (hm : inMask 0x3F8B821A0200940010000000000000010000000000000000000000000000000000000000000080040004000000000 M = true) (hp : inMask 0x100BF4 P = true) : Within M P dz (testComplete ss elem pass d) :=
  hd.andThen (testComplete_w0 ss elem pass d) hm hp

theorem testNotPossible_w0 (ss : Nat) (elem : Nat) (d : Dev) : Within 0x300B80100000140010000000000000010000000000000000000000000000000000000000000000000000000000000 0xF0 d (testNotPossible ss elem d) := by
  unfold testNotPossible
  repeat' first
    | (with_reducible exact Within.refl _)
    | (with_reducible assumption)
    | ((try lift_lets); intro x_; first
      | (refine (fun (hx_ : Within 0x300B80100000140010000000000000010000000000000000000000000000000000000000000000000000000000000 0xF0 d x_) => ?rest) ?val; (case' rest => clear_value x_); (case' val => subst x_))
      | (have _t := fun y_ => x_ y_; clear _t; subst x_)
      | (have _t : Dev := x_.1; clear _t; subst x_)
      | (have _t : Dev := x_.2; clear _t; subst x_)
      | (have _t : Dev := x_; clear _t; subst x_)
      | clear_value x_)
    | (with_reducible refine Dev.logEvent_w _ _ _ ?_ (by decide +kernel) (by decide +kernel))
    | (with_reducible refine Dev.endTest_w _ _ _ _ ?_ (by decide +kernel) (by decide +kernel))
    | (with_reducible refine Within.ite ?_ ?_)
    | (intro _ _ _)
    | split
    | dsimp only

theorem testNotPossible_w (ss : Nat) (elem : Nat) (d : Dev) {M P : Nat} {dz : Dev} (hd : Within M P dz d) (hm : inMask 0x300B80100000140010000000000000010000000000000000000000000000000000000000000000000000000000000 M = true) (hp : inMask 0xF0 P = true) : Within M P dz (testNotPossible ss elem d) :=
  hd.andThen (testNotPossible_w0 ss elem d) hm hp

theorem Dev.giveBack_w0 (d : Dev) (a : Aside) : Within 0xB80100200000000000000000000000000000000000000000000000000000000000000000000000000000000000 0x1000D0 d (Dev.giveBack d a) := by
  unfold Dev.giveBack
  repeat' first
    | (with_reducible exact Within.refl _)
    | (with_reducible assumption)
    | ((try lift_lets); intro x_; first
      | (refine (fun (hx_ : Within 0xB80100200000000000000000000000000000000000000000000000000000000000000000000000000000000000 0x1000D0 d x_) => ?rest) ?val; (case' rest => clear_value x_); (case' val => subst x_))
      | (have _t := fun y_ => x_ y_; clear _t; subst x_)
      | (have _t : Dev := x_.1; clear _t; subst x_)
      | (have _t : Dev := x_.2; clear _t; subst x_)
      | (have _t : Dev := x_; clear _t; subst x_)
      | clear_value x_)
    | (with_reducible refine Dev.logEvent_w _ _ _ ?_ (by decide +kernel) (by decide +kernel))
    | (with_reducible refine Dev.keepPush_w _ _ _ ?_ (by decide +kernel) (by decide +kernel))
    | (with_reducible refine Dev.laneBack_w _ _ _ ?_ (by decide +kernel) (by decide +kernel))
    | (with_reducible refine Within.putAt ?_ _ _ _ (by decide +kernel))
    | (with_reducible refine Within.put ?_ _ _ (by decide +kernel))
    | (with_reducible refine Within.onHealth ?_ _ (by decide +kernel))
    | (with_reducible refine Within.ite ?_ ?_)
    | (intro _ _ _)
    | split
    | dsimp only

theorem Dev.giveBack_w (d : Dev) (a : Aside) {M P : Nat} {dz : Dev} (hd : Within M P dz d) (hm : inMask 0xB80100200000000000000000000000000000000000000000000000000000000000000000000000000000000000 M = true) (hp : inMask 0x1000D0 P = true) : Within M P dz (Dev.giveBack d a) :=
  hd.andThen (Dev.giveBack_w0 d a) hm hp

theorem restoreRetest_w0 (ss : Nat) (elem : Nat) (pass : Bool) (d : Dev) : Within 0x8B80100200000000000000000000000000000000000000000000000000000000000000000000000000000000000 0x1000D0 d (restoreRetest ss elem pass d) := by
  unfold restoreRetest
  repeat' first
    | (with_reducible exact Within.refl _)
    | (with_reducible assumption)
    | ((try lift_lets); intro x_; first
      | (refine (fun (hx_ : Within 0x8B80100200000000000000000000000000000000000000000000000000000000000000000000000000000000000 0x1000D0 d x_) => ?rest) ?val; (case' rest => clear_value x_); (case' val => subst x_))
      | (have _t := fun y_ => x_ y_; clear _t; subst x_)
      | (have _t : Dev := x_.1; clear _t; subst x_)
      | (have _t : Dev := x_.2; clear _t; subst x_)
      | (have _t : Dev := x_; clear _t; subst x_)
      | clear_value x_)
    | (with_reducible refine Dev.giveBack_w _ _ ?_ (by decide +kernel) (by decide +kernel))
    | (with_reducible refine Within.incAt ?_ _ _ (by decide +kernel))
    | (with_reducible refine Within.inc ?_ _ (by decide +kernel))
    | (with_reducible refine Within.onHealth ?_ _ (by decide +kernel))
    | (with_reducible refine Within.ite ?_ ?_)
    | (intro _ _ _)
    | split
    | dsimp only

theorem restoreRetest_w (ss : Nat) (elem : Nat) (pass : Bool) (d : Dev) {M P : Nat} {dz : Dev} (hd : Within M P dz d) (hm : inMask 0x8B80100200000000000000000000000000000000000000000000000000000000000000000000000000000000000 M = true) (hp : inMask 0x1000D0 P = true) : Within M P dz (restoreRetest ss elem pass d) :=
  hd.andThen (restoreRetest_w0 ss elem pass d) hm hp

theorem Dev.startSelfTest_w0 (d : Dev) (ks : List Nat) (scope : Nat) (own : Bool) : Within 0x300B80100000140010000000000000010000000000000000000000000000000000000000000000000000000000000 0xF0 d (Dev.startSelfTest d ks scope own) := by
  unfold Dev.startSelfTest
  repeat' first
    | (with_reducible exact Within.refl _)
    | (with_reducible assumption)
    | ((try lift_lets); intro x_; first
      | (refine (fun (hx_ : Within 0x300B80100000140010000000000000010000000000000000000000000000000000000000000000000000000000000 0xF0 d x_) => ?rest) ?val; (case' rest => clear_value x_); (case' val => subst x_))
      | (have _t := fun y_ => x_ y_; clear _t; subst x_)
      | (have _t : Dev := x_.1; clear _t; subst x_)
      | (have _t : Dev := x_.2; clear _t; subst x_)
      | (have _t : Dev := x_; clear _t; subst x_)
      | clear_value x_)
    | (with_reducible refine Dev.endSelfTests_w _ ?_ (by decide +kernel) (by decide +kernel))
    | (with_reducible refine Within.onHealth ?_ _ (by decide +kernel))
    | (with_reducible refine Within.ite ?_ ?_)
    | (intro _ _ _)
    | split
    | dsimp only

theorem Dev.startSelfTest_w (d : Dev) (ks : List Nat) (scope : Nat) (own : Bool) {M P : Nat} {dz : Dev} (hd : Within M P dz d) (hm : inMask 0x300B80100000140010000000000000010000000000000000000000000000000000000000000000000000000000000 M = true) (hp : inMask 0xF0 P = true) : Within M P dz (Dev.startSelfTest d ks scope own) :=
  hd.andThen (Dev.startSelfTest_w0 d ks scope own) hm hp

theorem doSelftest_w0 (c : Cmd) (d : Dev) : Within 0x300B80100000140010000000000000010000000000000000000000000000000000000000000000000000000000000 0xF0 d (doSelftest c d) := by
  unfold doSelftest
  repeat' first
    | (with_reducible exact Within.refl _)
    | (with_reducible assumption)
    | (with_reducible refine Dev.complete_w _ _ _ _ _ ?_ (by decide +kernel) (by decide +kernel))
    | (with_reducible refine Dev.startSelfTest_w _ _ _ _ ?_ (by decide +kernel) (by decide +kernel))
    | (with_reducible refine Within.ite ?_ ?_)
    | (intro _ _ _)
    | split
    | dsimp only

theorem doSelftest_w (c : Cmd) (d : Dev) {M P : Nat} {dz : Dev} (hd : Within M P dz d) (hm : inMask 0x300B80100000140010000000000000010000000000000000000000000000000000000000000000000000000000000 M = true) (hp : inMask 0xF0 P = true) : Within M P dz (doSelftest c d) :=
  hd.andThen (doSelftest_w0 c d) hm hp

theorem doRepairPolicy_w0 (c : Cmd) (d : Dev) : Within 0x4000100000140010000000000000000000000000000000000000000000000000000000000000000000000000000 0x70 d (doRepairPolicy c d) := by
  unfold doRepairPolicy
  repeat' first
    | (with_reducible exact Within.refl _)
    | (with_reducible assumption)
    | ((try lift_lets); intro x_; first
      | (refine (fun (hx_ : Within 0x4000100000140010000000000000000000000000000000000000000000000000000000000000000000000000000 0x70 d x_) => ?rest) ?val; (case' rest => clear_value x_); (case' val => subst x_))
      | (have _t := fun y_ => x_ y_; clear _t; subst x_)
      | (have _t : Dev := x_.1; clear _t; subst x_)
      | (have _t : Dev := x_.2; clear _t; subst x_)
      | (have _t : Dev := x_; clear _t; subst x_)
      | clear_value x_)
    | (with_reducible refine Within.putIn ?_ _ F.HEALTH_POLICY_POLICY0 0 _ (by decide +kernel) (by decide +kernel) rfl rfl)
    | (with_reducible refine Dev.keepPush_w _ _ _ ?_ (by decide +kernel) (by decide +kernel))
    | (with_reducible refine Dev.complete_w _ _ _ _ _ ?_ (by decide +kernel) (by decide +kernel))
    | (with_reducible refine Dev.ok_w _ _ _ ?_ (by decide +kernel) (by decide +kernel))
    | (with_reducible refine Within.putAt ?_ _ _ _ (by decide +kernel))
    | (with_reducible refine Within.put ?_ _ _ (by decide +kernel))
    | (with_reducible refine Within.ite ?_ ?_)
    | (intro _ _ _)
    | split
    | dsimp only

theorem doRepairPolicy_w (c : Cmd) (d : Dev) {M P : Nat} {dz : Dev} (hd : Within M P dz d) (hm : inMask 0x4000100000140010000000000000000000000000000000000000000000000000000000000000000000000000000 M = true) (hp : inMask 0x70 P = true) : Within M P dz (doRepairPolicy c d) :=
  hd.andThen (doRepairPolicy_w0 c d) hm hp

theorem Dev.putMon_w0 (d : Dev) (i : Nat) (r : Int) (fac : Int) : Within 0x3000000000000000000000000000000000000000000000000000000000000000000000000000000000000000000000 4 d (Dev.putMon d i r fac) := by
  unfold Dev.putMon
  repeat' first
    | (with_reducible exact Within.refl _)
    | (with_reducible assumption)
    | ((try lift_lets); intro x_; first
      | (refine (fun (hx_ : Within 0x3000000000000000000000000000000000000000000000000000000000000000000000000000000000000000000000 4 d x_) => ?rest) ?val; (case' rest => clear_value x_); (case' val => subst x_))
      | (have _t := fun y_ => x_ y_; clear _t; subst x_)
      | (have _t : Dev := x_.1; clear _t; subst x_)
      | (have _t : Dev := x_.2; clear _t; subst x_)
      | (have _t : Dev := x_; clear _t; subst x_)
      | clear_value x_)
    | (with_reducible refine Within.putIAt ?_ _ _ _ (by decide +kernel))
    | (with_reducible refine Within.putI ?_ _ _ (by decide +kernel))
    | (with_reducible refine Within.putAt ?_ _ _ _ (by decide +kernel))
    | (with_reducible refine Within.put ?_ _ _ (by decide +kernel))
    | (with_reducible refine Within.fresh ?_ (by decide +kernel))
    | (with_reducible refine Within.ite ?_ ?_)
    | (intro _ _ _)
    | split
    | dsimp only

theorem Dev.putMon_w (d : Dev) (i : Nat) (r : Int) (fac : Int) {M P : Nat} {dz : Dev} (hd : Within M P dz d) (hm : inMask 0x3000000000000000000000000000000000000000000000000000000000000000000000000000000000000000000000 M = true) (hp : inMask 4 P = true) : Within M P dz (Dev.putMon d i r fac) :=
  hd.andThen (Dev.putMon_w0 d i r fac) hm hp

theorem Dev.readMons_w0 (d : Dev) (dfs : List Int) (mons : List (Int × Int × Int)) : Within 0x3800000000000000000000000000000000000000000000000000000000000000000000000000000000000000000000 4 d (Dev.readMons d dfs mons) := by
  unfold Dev.readMons
  repeat' first
    | (with_reducible exact Within.refl _)
    | (with_reducible assumption)
    | ((try lift_lets); intro x_; first
      | (refine (fun (hx_ : Within 0x3800000000000000000000000000000000000000000000000000000000000000000000000000000000000000000000 4 d x_) => ?rest) ?val; (case' rest => clear_value x_); (case' val => subst x_))
      | (have _t := fun y_ => x_ y_; clear _t; subst x_)
      | (have _t : Dev := x_.1; clear _t; subst x_)
      | (have _t : Dev := x_.2; clear _t; subst x_)
      | (have _t : Dev := x_; clear _t; subst x_)
      | clear_value x_)
    | (with_reducible refine Dev.putMon_w _ _ _ _ ?_ (by decide +kernel) (by decide +kernel))
    | (with_reducible refine Within.putIAt ?_ _ _ _ (by decide +kernel))
    | (with_reducible refine Within.putI ?_ _ _ (by decide +kernel))
    | (with_reducible refine Within.foldl ?_ _ _ ?_)
    | (with_reducible refine Within.ite ?_ ?_)
    | (intro _ _ _)
    | split
    | dsimp only

theorem Dev.readMons_w (d : Dev) (dfs : List Int) (mons : List (Int × Int × Int)) {M P : Nat} {dz : Dev} (hd : Within M P dz d) (hm : inMask 0x3800000000000000000000000000000000000000000000000000000000000000000000000000000000000000000000 M = true) (hp : inMask 4 P = true) : Within M P dz (Dev.readMons d dfs mons) :=
  hd.andThen (Dev.readMons_w0 d dfs mons) hm hp

theorem ringCountRead_w0 (dfs : List Int) (mons : List (Int × Int × Int)) (d : Dev) : Within 0x3800000000000000000000000000000000000000000000000000000000000000000000000000000000000000000000 0x84 d (ringCountRead dfs mons d) := by
  unfold ringCountRead
  repeat' first
    | (with_reducible exact Within.refl _)
    | (with_reducible assumption)
    | (with_reducible refine Dev.readMons_w _ _ _ ?_ (by decide +kernel) (by decide +kernel))
    | (with_reducible refine Within.onHealth ?_ _ (by decide +kernel))
    | (with_reducible refine Within.ite ?_ ?_)
    | (intro _ _ _)
    | split
    | dsimp only

theorem ringCountRead_w (dfs : List Int) (mons : List (Int × Int × Int)) (d : Dev) {M P : Nat} {dz : Dev} (hd : Within M P dz d) (hm : inMask 0x3800000000000000000000000000000000000000000000000000000000000000000000000000000000000000000000 M = true) (hp : inMask 0x84 P = true) : Within M P dz (ringCountRead dfs mons d) :=
  hd.andThen (ringCountRead_w0 dfs mons d) hm hp

theorem Dev.planDueNow_w0 (d : Dev) : Within 0x8000000000000000000000000000000000000000000000000000000000000000000000000000000000000000000000 0x80 d (Dev.planDueNow d) := by
  unfold Dev.planDueNow
  repeat' first
    | (with_reducible exact Within.refl _)
    | (with_reducible assumption)
    | (with_reducible refine Dev.planShow_w _ ?_ (by decide +kernel) (by decide +kernel))
    | (with_reducible refine Within.onHealth ?_ _ (by decide +kernel))
    | (with_reducible refine Within.ite ?_ ?_)
    | (intro _ _ _)
    | split
    | dsimp only

theorem Dev.planDueNow_w (d : Dev) {M P : Nat} {dz : Dev} (hd : Within M P dz d) (hm : inMask 0x8000000000000000000000000000000000000000000000000000000000000000000000000000000000000000000000 M = true) (hp : inMask 0x80 P = true) : Within M P dz (Dev.planDueNow d) :=
  hd.andThen (Dev.planDueNow_w0 d) hm hp

theorem marginPlanDue_w0 (d : Dev) : Within 0x8000000000000000000000000000000000000000000000000000000000000000000000000000000000000000000000 0x80 d (marginPlanDue d) := by
  unfold marginPlanDue
  repeat' first
    | (with_reducible exact Within.refl _)
    | (with_reducible assumption)
    | (with_reducible refine Dev.planDueNow_w _ ?_ (by decide +kernel) (by decide +kernel))
    | (with_reducible refine Within.ite ?_ ?_)
    | (intro _ _ _)
    | split
    | dsimp only

theorem marginPlanDue_w (d : Dev) {M P : Nat} {dz : Dev} (hd : Within M P dz d) (hm : inMask 0x8000000000000000000000000000000000000000000000000000000000000000000000000000000000000000000000 M = true) (hp : inMask 0x80 P = true) : Within M P dz (marginPlanDue d) :=
  hd.andThen (marginPlanDue_w0 d) hm hp

theorem doMarginPlanRun_w0 (c : Cmd) (d : Dev) : Within 0x8000000000000000000000000000000000000000000000000000000000000000000000000000000000000000000000 0x80 d (doMarginPlanRun c d) := by
  unfold doMarginPlanRun
  repeat' first
    | (with_reducible exact Within.refl _)
    | (with_reducible assumption)
    | (with_reducible refine Dev.planDueNow_w _ ?_ (by decide +kernel) (by decide +kernel))
    | (with_reducible refine Within.onHealth ?_ _ (by decide +kernel))
    | (with_reducible refine Within.ite ?_ ?_)
    | (intro _ _ _)
    | split
    | dsimp only

theorem doMarginPlanRun_w (c : Cmd) (d : Dev) {M P : Nat} {dz : Dev} (hd : Within M P dz d) (hm : inMask 0x8000000000000000000000000000000000000000000000000000000000000000000000000000000000000000000000 M = true) (hp : inMask 0x80 P = true) : Within M P dz (doMarginPlanRun c d) :=
  hd.andThen (doMarginPlanRun_w0 c d) hm hp

theorem planGladeTimeout_w0 (d : Dev) : Within 0x8000000000000000000000000000000000000000000000000000000000000000000000000000000000000000000000 0x80 d (planGladeTimeout d) := by
  unfold planGladeTimeout
  repeat' first
    | (with_reducible exact Within.refl _)
    | (with_reducible assumption)
    | (with_reducible refine Dev.planShow_w _ ?_ (by decide +kernel) (by decide +kernel))
    | (with_reducible refine Within.onHealth ?_ _ (by decide +kernel))
    | (with_reducible refine Within.ite ?_ ?_)
    | (intro _ _ _)
    | split
    | dsimp only

theorem planGladeTimeout_w (d : Dev) {M P : Nat} {dz : Dev} (hd : Within M P dz d) (hm : inMask 0x8000000000000000000000000000000000000000000000000000000000000000000000000000000000000000000000 M = true) (hp : inMask 0x80 P = true) : Within M P dz (planGladeTimeout d) :=
  hd.andThen (planGladeTimeout_w0 d) hm hp

theorem Dev.planForecast_w0 (d : Dev) : Within 0x60000B80100000000000000000000000000000000000000000000000000000000000000000000000000000000000000 0xD0 d (Dev.planForecast d) := by
  unfold Dev.planForecast
  repeat' first
    | (with_reducible exact Within.refl _)
    | (with_reducible assumption)
    | ((try lift_lets); intro x_; first
      | (refine (fun (hx_ : Within 0x60000B80100000000000000000000000000000000000000000000000000000000000000000000000000000000000000 0xD0 d x_) => ?rest) ?val; (case' rest => clear_value x_); (case' val => subst x_))
      | (have _t := fun y_ => x_ y_; clear _t; subst x_)
      | (have _t : Dev := x_.1; clear _t; subst x_)
      | (have _t : Dev := x_.2; clear _t; subst x_)
      | (have _t : Dev := x_; clear _t; subst x_)
      | clear_value x_)
    | (with_reducible refine Dev.logEvent_w _ _ _ ?_ (by decide +kernel) (by decide +kernel))
    | (with_reducible refine Within.putAt ?_ _ _ _ (by decide +kernel))
    | (with_reducible refine Within.put ?_ _ _ (by decide +kernel))
    | (with_reducible refine Within.foldl ?_ _ _ ?_)
    | (with_reducible refine Within.ite ?_ ?_)
    | (intro _ _ _)
    | split
    | dsimp only

theorem Dev.planForecast_w (d : Dev) {M P : Nat} {dz : Dev} (hd : Within M P dz d) (hm : inMask 0x60000B80100000000000000000000000000000000000000000000000000000000000000000000000000000000000000 M = true) (hp : inMask 0xD0 P = true) : Within M P dz (Dev.planForecast d) :=
  hd.andThen (Dev.planForecast_w0 d) hm hp

theorem Dev.planRadio_w0 (m : Mems) (mp : PlanIn) (d : Dev) : Within 0x8000000000000000000000000000000000000000000000000000000000000000080000000000000000000000000000 0x20080 d (Dev.planRadio m mp d) := by
  unfold Dev.planRadio
  repeat' first
    | (with_reducible exact Within.refl _)
    | (with_reducible assumption)
    | ((try lift_lets); intro x_; first
      | (refine (fun (hx_ : Within 0x8000000000000000000000000000000000000000000000000000000000000000080000000000000000000000000000 0x20080 d x_) => ?rest) ?val; (case' rest => clear_value x_); (case' val => subst x_))
      | (have _t := fun y_ => x_ y_; clear _t; subst x_)
      | (have _t : Dev := x_.1; clear _t; subst x_)
      | (have _t : Dev := x_.2; clear _t; subst x_)
      | (have _t : Dev := x_; clear _t; subst x_)
      | clear_value x_)
    | (with_reducible refine Dev.request_w _ _ ?_ (by decide +kernel) (by decide +kernel))
    | (with_reducible refine Within.putBitAt ?_ _ _ _ (by decide +kernel))
    | (with_reducible refine Within.putBit ?_ _ _ (by decide +kernel))
    | (with_reducible refine Within.onHealth ?_ _ (by decide +kernel))
    | (with_reducible refine Within.ite ?_ ?_)
    | (intro _ _ _)
    | split
    | dsimp only

theorem Dev.planRadio_w (m : Mems) (mp : PlanIn) (d : Dev) {M P : Nat} {dz : Dev} (hd : Within M P dz d) (hm : inMask 0x8000000000000000000000000000000000000000000000000000000000000000080000000000000000000000000000 M = true) (hp : inMask 0x20080 P = true) : Within M P dz (Dev.planRadio m mp d) :=
  hd.andThen (Dev.planRadio_w0 m mp d) hm hp

theorem marginPlan_w0 (m : Mems) (mp : PlanIn) (d : Dev) : Within 0x67B800B80100000140010000000000000000000000000000000000000000000000180000000000000000000000000000 0x200F4 d (marginPlan m mp d) := by
  unfold marginPlan
  repeat' first
    | (with_reducible exact Within.refl _)
    | (with_reducible assumption)
    | ((try lift_lets); intro x_; first
      | (refine (fun (hx_ : Within 0x67B800B80100000140010000000000000000000000000000000000000000000000180000000000000000000000000000 0x200F4 d x_) => ?rest) ?val; (case' rest => clear_value x_); (case' val => subst x_))
      | (have _t := fun y_ => x_ y_; clear _t; subst x_)
      | (have _t : Dev := x_.1; clear _t; subst x_)
      | (have _t : Dev := x_.2; clear _t; subst x_)
      | (have _t : Dev := x_; clear _t; subst x_)
      | clear_value x_)
    | (with_reducible refine Dev.logEvent_w _ _ _ ?_ (by decide +kernel) (by decide +kernel))
    | (with_reducible refine Dev.keepPush_w _ _ _ ?_ (by decide +kernel) (by decide +kernel))
    | (with_reducible refine Dev.planCheck_w _ ?_ (by decide +kernel) (by decide +kernel))
    | (with_reducible refine Dev.readMons_w _ _ _ ?_ (by decide +kernel) (by decide +kernel))
    | (with_reducible refine Dev.planForecast_w _ ?_ (by decide +kernel) (by decide +kernel))
    | (with_reducible refine Dev.planRadio_w _ _ _ ?_ (by decide +kernel) (by decide +kernel))
    | (with_reducible refine Within.putAt ?_ _ _ _ (by decide +kernel))
    | (with_reducible refine Within.put ?_ _ _ (by decide +kernel))
    | (with_reducible refine Within.incWrapAt ?_ _ _ (by decide +kernel))
    | (with_reducible refine Within.incWrap ?_ _ (by decide +kernel))
    | (with_reducible refine Within.onHealth ?_ _ (by decide +kernel))
    | (with_reducible refine Within.foldl ?_ _ _ ?_)
    | (with_reducible refine Within.ite ?_ ?_)
    | (intro _ _ _)
    | split
    | dsimp only

theorem marginPlan_w (m : Mems) (mp : PlanIn) (d : Dev) {M P : Nat} {dz : Dev} (hd : Within M P dz d) (hm : inMask 0x67B800B80100000140010000000000000000000000000000000000000000000000180000000000000000000000000000 M = true) (hp : inMask 0x200F4 P = true) : Within M P dz (marginPlan m mp d) :=
  hd.andThen (marginPlan_w0 m mp d) hm hp

theorem Dev.vcoreStep_w0 (d : Dev) : Within 0x108000000100000140010000000000000000000000000000000000000000000000000000000000000000000000000000 0xF0 d (Dev.vcoreStep d) := by
  unfold Dev.vcoreStep
  repeat' first
    | (with_reducible exact Within.refl _)
    | (with_reducible assumption)
    | ((try lift_lets); intro x_; first
      | (refine (fun (hx_ : Within 0x108000000100000140010000000000000000000000000000000000000000000000000000000000000000000000000000 0xF0 d x_) => ?rest) ?val; (case' rest => clear_value x_); (case' val => subst x_))
      | (have _t := fun y_ => x_ y_; clear _t; subst x_)
      | (have _t : Dev := x_.1; clear _t; subst x_)
      | (have _t : Dev := x_.2; clear _t; subst x_)
      | (have _t : Dev := x_; clear _t; subst x_)
      | clear_value x_)
    | (with_reducible refine Dev.keepPush_w _ _ _ ?_ (by decide +kernel) (by decide +kernel))
    | (with_reducible refine Dev.planCheck_w _ ?_ (by decide +kernel) (by decide +kernel))
    | (with_reducible refine Within.putAt ?_ _ _ _ (by decide +kernel))
    | (with_reducible refine Within.put ?_ _ _ (by decide +kernel))
    | (with_reducible refine Within.onHealth ?_ _ (by decide +kernel))
    | (with_reducible refine Within.ite ?_ ?_)
    | (intro _ _ _)
    | split
    | dsimp only

theorem Dev.vcoreStep_w (d : Dev) {M P : Nat} {dz : Dev} (hd : Within M P dz d) (hm : inMask 0x108000000100000140010000000000000000000000000000000000000000000000000000000000000000000000000000 M = true) (hp : inMask 0xF0 P = true) : Within M P dz (Dev.vcoreStep d) :=
  hd.andThen (Dev.vcoreStep_w0 d) hm hp

theorem Dev.tmrReserve_w0 (d : Dev) : Within 0xF000000000000000000000000000000000000000000000000000000000000000000000000000000000000000000000000000000000 0x800004 d (Dev.tmrReserve d) := by
  unfold Dev.tmrReserve
  repeat' first
    | (with_reducible exact Within.refl _)
    | (with_reducible assumption)
    | ((try lift_lets); intro x_; first
      | (refine (fun (hx_ : Within 0xF000000000000000000000000000000000000000000000000000000000000000000000000000000000000000000000000000000000 0x800004 d x_) => ?rest) ?val; (case' rest => clear_value x_); (case' val => subst x_))
      | (have _t := fun y_ => x_ y_; clear _t; subst x_)
      | (have _t : Dev := x_.1; clear _t; subst x_)
      | (have _t : Dev := x_.2; clear _t; subst x_)
      | (have _t : Dev := x_; clear _t; subst x_)
      | clear_value x_)
    | (with_reducible refine Within.putBitAt ?_ _ _ _ (by decide +kernel))
    | (with_reducible refine Within.putBit ?_ _ _ (by decide +kernel))
    | (with_reducible refine Within.putAt ?_ _ _ _ (by decide +kernel))
    | (with_reducible refine Within.put ?_ _ _ (by decide +kernel))
    | (with_reducible refine Within.onIo ?_ _ (by decide +kernel))
    | (with_reducible refine Within.fresh ?_ (by decide +kernel))
    | (with_reducible refine Within.foldl ?_ _ _ ?_)
    | (with_reducible refine Within.ite ?_ ?_)
    | (intro _ _ _)
    | split
    | dsimp only

theorem Dev.tmrReserve_w (d : Dev) {M P : Nat} {dz : Dev} (hd : Within M P dz d) (hm : inMask 0xF000000000000000000000000000000000000000000000000000000000000000000000000000000000000000000000000000000000 M = true) (hp : inMask 0x800004 P = true) : Within M P dz (Dev.tmrReserve d) :=
  hd.andThen (Dev.tmrReserve_w0 d) hm hp

theorem tmrCtlWrite_w0 (n : Nat) (hn : n < 8) (v : Word) (d : Dev) : Within 0x5018000000000000000000000000000000000000000000000000000000000000000000000000000000000000000000000000000000 0x800000 d (tmrCtlWrite n v d) := by
  have key : ∀ n < 8, hasRow 0x5018000000000000000000000000000000000000000000000000000000000000000000000000000000000000000000000000000000 (R.TMR_CTL + 0x10 * n) = true := by decide +kernel
  have hw := Within.writeWord (Within.refl (M := 0x5018000000000000000000000000000000000000000000000000000000000000000000000000000000000000000000000000000000) (P := 0x800000) d) _ v.toNat (key n hn)
  unfold tmrCtlWrite
  dsimp only
  split
  · exact Dev.conflict_w _ _ _ (Within.refl _) (by decide +kernel) (by decide +kernel)
  · split
    · exact Within.onIo (Within.putAt hw _ _ _ (by decide +kernel)) _ (by decide +kernel)
    · exact hw

theorem tmrCompare_w0 (n : Nat) (d : Dev) : Within 0x5000000000000000000000000000000000000000000000000000000000000000000000000000000000000000000000000000000000 0x800000 d (tmrCompare n d) := by
  unfold tmrCompare
  repeat' first
    | (with_reducible exact Within.refl _)
    | (with_reducible assumption)
    | ((try lift_lets); intro x_; first
      | (refine (fun (hx_ : Within 0x5000000000000000000000000000000000000000000000000000000000000000000000000000000000000000000000000000000000 0x800000 d x_) => ?rest) ?val; (case' rest => clear_value x_); (case' val => subst x_))
      | (have _t := fun y_ => x_ y_; clear _t; subst x_)
      | (have _t : Dev := x_.1; clear _t; subst x_)
      | (have _t : Dev := x_.2; clear _t; subst x_)
      | (have _t : Dev := x_; clear _t; subst x_)
      | clear_value x_)
    | (with_reducible refine Within.putBitAt ?_ _ _ _ (by decide +kernel))
    | (with_reducible refine Within.putBit ?_ _ _ (by decide +kernel))
    | (with_reducible refine Within.putAt ?_ _ _ _ (by decide +kernel))
    | (with_reducible refine Within.put ?_ _ _ (by decide +kernel))
    | (with_reducible refine Within.onIo ?_ _ (by decide +kernel))
    | (with_reducible refine Within.ite ?_ ?_)
    | (intro _ _ _)
    | split
    | dsimp only

theorem tmrCompare_w (n : Nat) (d : Dev) {M P : Nat} {dz : Dev} (hd : Within M P dz d) (hm : inMask 0x5000000000000000000000000000000000000000000000000000000000000000000000000000000000000000000000000000000000 M = true) (hp : inMask 0x800000 P = true) : Within M P dz (tmrCompare n d) :=
  hd.andThen (tmrCompare_w0 n d) hm hp

theorem tmrTick_w0 (step : Nat) (n : Nat) (d : Dev) : Within 0x5000000000000000000000000000000000000000000000000000000000000000000000000000000000000000000000000000000000 0x800000 d (tmrTick step n d) := by
  unfold tmrTick
  repeat' first
    | (with_reducible exact Within.refl _)
    | (with_reducible assumption)
    | ((try lift_lets); intro x_; first
      | (refine (fun (hx_ : Within 0x5000000000000000000000000000000000000000000000000000000000000000000000000000000000000000000000000000000000 0x800000 d x_) => ?rest) ?val; (case' rest => clear_value x_); (case' val => subst x_))
      | (have _t := fun y_ => x_ y_; clear _t; subst x_)
      | (have _t : Dev := x_.1; clear _t; subst x_)
      | (have _t : Dev := x_.2; clear _t; subst x_)
      | (have _t : Dev := x_; clear _t; subst x_)
      | clear_value x_)
    | (with_reducible refine tmrCompare_w _ _ ?_ (by decide +kernel) (by decide +kernel))
    | (with_reducible refine Within.putAt ?_ _ _ _ (by decide +kernel))
    | (with_reducible refine Within.put ?_ _ _ (by decide +kernel))
    | (with_reducible refine Within.ite ?_ ?_)
    | (intro _ _ _)
    | split
    | dsimp only

theorem tmrTick_w (step : Nat) (n : Nat) (d : Dev) {M P : Nat} {dz : Dev} (hd : Within M P dz d) (hm : inMask 0x5000000000000000000000000000000000000000000000000000000000000000000000000000000000000000000000000000000000 M = true) (hp : inMask 0x800000 P = true) : Within M P dz (tmrTick step n d) :=
  hd.andThen (tmrTick_w0 step n d) hm hp

theorem tmrCapture_w0 (n : Nat) (d : Dev) : Within 0x8000000000000000000000000000000000000000000000000000000000000000000000000000000000000000000000000000000000 0x800000 d (tmrCapture n d) := by
  unfold tmrCapture
  repeat' first
    | (with_reducible exact Within.refl _)
    | (with_reducible assumption)
    | (with_reducible refine Within.putAt ?_ _ _ _ (by decide +kernel))
    | (with_reducible refine Within.put ?_ _ _ (by decide +kernel))
    | (with_reducible refine Within.onIo ?_ _ (by decide +kernel))
    | (with_reducible refine Within.ite ?_ ?_)
    | (intro _ _ _)
    | split
    | dsimp only

theorem tmrCapture_w (n : Nat) (d : Dev) {M P : Nat} {dz : Dev} (hd : Within M P dz d) (hm : inMask 0x8000000000000000000000000000000000000000000000000000000000000000000000000000000000000000000000000000000000 M = true) (hp : inMask 0x800000 P = true) : Within M P dz (tmrCapture n d) :=
  hd.andThen (tmrCapture_w0 n d) hm hp

theorem gpCfgWrite_w0 (n : Nat) (hn : n < 8) (v : Word) (d : Dev) : Within 0x1C000000000000000000000000000000000000000000000000000000000000000000000000000000000000000000000000000000 0 d (gpCfgWrite n v d) := by
  have key : ∀ n < 8, hasRow 0x1C000000000000000000000000000000000000000000000000000000000000000000000000000000000000000000000000000000 (R.IO_GP_CFG + 4 * n) = true := by decide +kernel
  have hw := Within.writeWord (Within.refl (M := 0x1C000000000000000000000000000000000000000000000000000000000000000000000000000000000000000000000000000000) (P := 0) d) _ v.toNat (key n hn)
  have hc : ∀ u : Dev, Within 0x1C000000000000000000000000000000000000000000000000000000000000000000000000000000000000000000000000000000 0 d u → ∀ g a b (x : Nat) (f : Fld), hasFld 0x1C000000000000000000000000000000000000000000000000000000000000000000000000000000000000000000000000000000 f = true → Within 0x1C000000000000000000000000000000000000000000000000000000000000000000000000000000000000000000000000000000 0 d ((u.put (f.at g) x).conflict a b) :=
    fun u hu g a b x f hf => Dev.conflict_w _ _ _ (Within.putAt hu f g x hf) (by decide +kernel) (by decide +kernel)
  unfold gpCfgWrite
  extract_lets func tsel nf nt badF badT u w
  have hu : Within 0x1C000000000000000000000000000000000000000000000000000000000000000000000000000000000000000000000000000000 0 d w := by
    unfold w
    split
    · exact hc _ hw _ _ _ _ _ (by decide +kernel)
    · exact hw
  split
  · exact hc _ hu _ _ _ _ _ (by decide +kernel)
  · exact hu

theorem alOutWrite_w0 (n : Nat) (hn : n < 4) (v : Word) (d : Dev) : Within 0xF01C000000000000000000000000000000000000000000000000001400000000000000000000000000000000000000000000000000 0x800004 d (alOutWrite n v d) := by
  have key : ∀ n < 4, hasRow 0xF01C000000000000000000000000000000000000000000000000001400000000000000000000000000000000000000000000000000 (R.STAT_AL_OUT + 4 * n) = true := by decide +kernel
  have hw := Within.writeWord (Within.refl (M := 0xF01C000000000000000000000000000000000000000000000000001400000000000000000000000000000000000000000000000000) (P := 0x800004) d) _ v.toNat (key n hn)
  unfold alOutWrite
  extract_lets was u now func w
  have hu : Within 0xF01C000000000000000000000000000000000000000000000000001400000000000000000000000000000000000000000000000000 0x800004 d w := by
    unfold w
    split
    · split
      · exact Within.putAt hw _ _ _ (by decide +kernel)
      · exact Dev.conflict_w _ _ _ (Within.putBitAt hw _ _ _ (by decide +kernel)) (by decide +kernel) (by decide +kernel)
    · split
      · exact Within.putAt hw _ _ _ (by decide +kernel)
      · exact hw
  exact Dev.showAlarm_w _ (Dev.tmrReserve_w _ hu (by decide +kernel) (by decide +kernel)) (by decide +kernel) (by decide +kernel)

theorem timeInEdge_w0 (d : Dev) : Within 0x7C0800000000080B80100000000000000000000000000340000000000000000000000000000000000000000000000000000000000 0x9000D5 d (timeInEdge d) := by
  unfold timeInEdge
  repeat' first
    | (with_reducible exact Within.refl _)
    | (with_reducible assumption)
    | ((try lift_lets); intro x_; first
      | (refine (fun (hx_ : Within 0x7C0800000000080B80100000000000000000000000000340000000000000000000000000000000000000000000000000000000000 0x9000D5 d x_) => ?rest) ?val; (case' rest => clear_value x_); (case' val => subst x_))
      | (have _t := fun y_ => x_ y_; clear _t; subst x_)
      | (have _t : Dev := x_.1; clear _t; subst x_)
      | (have _t : Dev := x_.2; clear _t; subst x_)
      | (have _t : Dev := x_; clear _t; subst x_)
      | clear_value x_)
    | (with_reducible refine Dev.steer_w _ _ ?_ (by decide +kernel) (by decide +kernel))
    | (with_reducible refine Within.putBitAt ?_ _ _ _ (by decide +kernel))
    | (with_reducible refine Within.putBit ?_ _ _ (by decide +kernel))
    | (with_reducible refine Within.putAt ?_ _ _ _ (by decide +kernel))
    | (with_reducible refine Within.put ?_ _ _ (by decide +kernel))
    | (with_reducible refine Within.incAt ?_ _ _ (by decide +kernel))
    | (with_reducible refine Within.inc ?_ _ (by decide +kernel))
    | (with_reducible refine Within.onIo ?_ _ (by decide +kernel))
    | (with_reducible refine Within.ite ?_ ?_)
    | (intro _ _ _)
    | split
    | dsimp only

theorem timeInEdge_w (d : Dev) {M P : Nat} {dz : Dev} (hd : Within M P dz d) (hm : inMask 0x7C0800000000080B80100000000000000000000000000340000000000000000000000000000000000000000000000000000000000 M = true) (hp : inMask 0x9000D5 P = true) : Within M P dz (timeInEdge d) :=
  hd.andThen (timeInEdge_w0 d) hm hp

theorem timeInHoldover_w0 (d : Dev) : Within 0x40000000000000000000000000000000000000000000000000000000000000000000000000000000000000000000000000000000 0x800000 d (timeInHoldover d) := by
  unfold timeInHoldover
  repeat' first
    | (with_reducible exact Within.refl _)
    | (with_reducible assumption)
    | (with_reducible refine Within.putBitAt ?_ _ _ _ (by decide +kernel))
    | (with_reducible refine Within.putBit ?_ _ _ (by decide +kernel))
    | (with_reducible refine Within.onIo ?_ _ (by decide +kernel))
    | (with_reducible refine Within.ite ?_ ?_)
    | (intro _ _ _)
    | split
    | dsimp only

theorem timeInHoldover_w (d : Dev) {M P : Nat} {dz : Dev} (hd : Within M P dz d) (hm : inMask 0x40000000000000000000000000000000000000000000000000000000000000000000000000000000000000000000000000000000 M = true) (hp : inMask 0x800000 P = true) : Within M P dz (timeInHoldover d) :=
  hd.andThen (timeInHoldover_w0 d) hm hp

theorem Dev.ptmLock_w0 (d : Dev) (on : Bool) : Within 0x800000000000000000000000000000000000000000000000000000000000000000000000 0x10 d (Dev.ptmLock d on) := by
  unfold Dev.ptmLock
  repeat' first
    | (with_reducible exact Within.refl _)
    | (with_reducible assumption)
    | ((try lift_lets); intro x_; first
      | (refine (fun (hx_ : Within 0x800000000000000000000000000000000000000000000000000000000000000000000000 0x10 d x_) => ?rest) ?val; (case' rest => clear_value x_); (case' val => subst x_))
      | (have _t := fun y_ => x_ y_; clear _t; subst x_)
      | (have _t : Dev := x_.1; clear _t; subst x_)
      | (have _t : Dev := x_.2; clear _t; subst x_)
      | (have _t : Dev := x_; clear _t; subst x_)
      | clear_value x_)
    | (with_reducible refine Dev.pendErr_w _ ?_ (by decide +kernel) (by decide +kernel))
    | (with_reducible refine Within.putBitAt ?_ _ _ _ (by decide +kernel))
    | (with_reducible refine Within.putBit ?_ _ _ (by decide +kernel))
    | (with_reducible refine Within.ite ?_ ?_)
    | (intro _ _ _)
    | split
    | dsimp only

theorem Dev.ptmLock_w (d : Dev) (on : Bool) {M P : Nat} {dz : Dev} (hd : Within M P dz d) (hm : inMask 0x800000000000000000000000000000000000000000000000000000000000000000000000 M = true) (hp : inMask 0x10 P = true) : Within M P dz (Dev.ptmLock d on) :=
  hd.andThen (Dev.ptmLock_w0 d on) hm hp

theorem ptmDialog_w0 (valid : Bool) (tn : Nat) (mn : Nat) (d : Dev) : Within 0x80B8010000000000000F800000000000340000000000000000000000000000000000000000000000000000000000 0x1000D5 d (ptmDialog valid tn mn d) := by
  unfold ptmDialog
  repeat' first
    | (with_reducible exact Within.refl _)
    | (with_reducible assumption)
    | ((try lift_lets); intro x_; first
      | (refine (fun (hx_ : Within 0x80B8010000000000000F800000000000340000000000000000000000000000000000000000000000000000000000 0x1000D5 d x_) => ?rest) ?val; (case' rest => clear_value x_); (case' val => subst x_))
      | (have _t := fun y_ => x_ y_; clear _t; subst x_)
      | (have _t : Dev := x_.1; clear _t; subst x_)
      | (have _t : Dev := x_.2; clear _t; subst x_)
      | (have _t : Dev := x_; clear _t; subst x_)
      | clear_value x_)
    | (with_reducible refine Dev.steer_w _ _ ?_ (by decide +kernel) (by decide +kernel))
    | (with_reducible refine Dev.ptmLock_w _ _ ?_ (by decide +kernel) (by decide +kernel))
    | (with_reducible refine Within.putBitAt ?_ _ _ _ (by decide +kernel))
    | (with_reducible refine Within.putBit ?_ _ _ (by decide +kernel))
    | (with_reducible refine Within.putIAt ?_ _ _ _ (by decide +kernel))
    | (with_reducible refine Within.putI ?_ _ _ (by decide +kernel))
    | (with_reducible refine Within.putAt ?_ _ _ _ (by decide +kernel))
    | (with_reducible refine Within.put ?_ _ _ (by decide +kernel))
    | (with_reducible refine Within.incAt ?_ _ _ (by decide +kernel))
    | (with_reducible refine Within.inc ?_ _ (by decide +kernel))
    | (with_reducible refine Within.onHost ?_ _ (by decide +kernel))
    | (with_reducible refine Within.ite ?_ ?_)
    | (intro _ _ _)
    | split
    | dsimp only

theorem ptmDialog_w (valid : Bool) (tn : Nat) (mn : Nat) (d : Dev) {M P : Nat} {dz : Dev} (hd : Within M P dz d) (hm : inMask 0x80B8010000000000000F800000000000340000000000000000000000000000000000000000000000000000000000 M = true) (hp : inMask 0x1000D5 P = true) : Within M P dz (ptmDialog valid tn mn d) :=
  hd.andThen (ptmDialog_w0 valid tn mn d) hm hp

theorem ptmHoldover_w0 (d : Dev) : Within 0x800000000000000000000000000000000000000000000000000000000000000000000000 0x10 d (ptmHoldover d) := by
  unfold ptmHoldover
  repeat' first
    | (with_reducible exact Within.refl _)
    | (with_reducible assumption)
    | (with_reducible refine Dev.ptmLock_w _ _ ?_ (by decide +kernel) (by decide +kernel))
    | (with_reducible refine Within.putBitAt ?_ _ _ _ (by decide +kernel))
    | (with_reducible refine Within.putBit ?_ _ _ (by decide +kernel))
    | (with_reducible refine Within.onHost ?_ _ (by decide +kernel))
    | (with_reducible refine Within.ite ?_ ?_)
    | (intro _ _ _)
    | split
    | dsimp only

theorem ptmHoldover_w (d : Dev) {M P : Nat} {dz : Dev} (hd : Within M P dz d) (hm : inMask 0x800000000000000000000000000000000000000000000000000000000000000000000000 M = true) (hp : inMask 0x10 P = true) : Within M P dz (ptmHoldover d) :=
  hd.andThen (ptmHoldover_w0 d) hm hp

theorem Dev.domReplace_w0 (d : Dev) (i : Nat) : Within 0x140010000000000000000000000000000000000000000000000000000000000000000000000001000 0x1030 d (Dev.domReplace d i) := by
  unfold Dev.domReplace
  repeat' first
    | (with_reducible exact Within.refl _)
    | (with_reducible assumption)
    | ((try lift_lets); intro x_; first
      | (refine (fun (hx_ : Within 0x140010000000000000000000000000000000000000000000000000000000000000000000000001000 0x1030 d x_) => ?rest) ?val; (case' rest => clear_value x_); (case' val => subst x_))
      | (have _t := fun y_ => x_ y_; clear _t; subst x_)
      | (have _t : Dev := x_.1; clear _t; subst x_)
      | (have _t : Dev := x_.2; clear _t; subst x_)
      | (have _t : Dev := x_; clear _t; subst x_)
      | clear_value x_)
    | (with_reducible refine Dev.domEnd_w _ _ _ _ _ ?_ (by decide +kernel) (by decide +kernel))
    | (with_reducible refine Within.putAt ?_ _ _ _ (by decide +kernel))
    | (with_reducible refine Within.put ?_ _ _ (by decide +kernel))
    | (with_reducible refine Within.onPwr ?_ _ (by decide +kernel))
    | (with_reducible refine Within.foldl ?_ _ _ ?_)
    | (with_reducible refine Within.ite ?_ ?_)
    | (intro _ _ _)
    | split
    | dsimp only

theorem Dev.domReplace_w (d : Dev) (i : Nat) {M P : Nat} {dz : Dev} (hd : Within M P dz d) (hm : inMask 0x140010000000000000000000000000000000000000000000000000000000000000000000000001000 M = true) (hp : inMask 0x1030 P = true) : Within M P dz (Dev.domReplace d i) :=
  hd.andThen (Dev.domReplace_w0 d i) hm hp

theorem Dev.domDrain_w0 (d : Dev) (i : Nat) (us : Nat) (k : Option Nat) : Within 0x80B80100000000000000000000000000000000000000000000000000000000000000000000000000000000001000 0x1010D0 d (Dev.domDrain d i us k) := by
  unfold Dev.domDrain
  repeat' first
    | (with_reducible exact Within.refl _)
    | (with_reducible assumption)
    | ((try lift_lets); intro x_; first
      | (refine (fun (hx_ : Within 0x80B80100000000000000000000000000000000000000000000000000000000000000000000000000000000001000 0x1010D0 d x_) => ?rest) ?val; (case' rest => clear_value x_); (case' val => subst x_))
      | (have _t := fun y_ => x_ y_; clear _t; subst x_)
      | (have _t : Dev := x_.1; clear _t; subst x_)
      | (have _t : Dev := x_.2; clear _t; subst x_)
      | (have _t : Dev := x_; clear _t; subst x_)
      | clear_value x_)
    | (with_reducible refine Dev.laneQuit_w _ _ _ ?_ (by decide +kernel) (by decide +kernel))
    | (with_reducible refine Dev.laneOut_w _ _ _ ?_ (by decide +kernel) (by decide +kernel))
    | (with_reducible refine Within.putAt ?_ _ _ _ (by decide +kernel))
    | (with_reducible refine Within.put ?_ _ _ (by decide +kernel))
    | (with_reducible refine Within.onPwr ?_ _ (by decide +kernel))
    | (with_reducible refine Within.ite ?_ ?_)
    | (intro _ _ _)
    | split
    | dsimp only

theorem Dev.domDrain_w (d : Dev) (i : Nat) (us : Nat) (k : Option Nat) {M P : Nat} {dz : Dev} (hd : Within M P dz d) (hm : inMask 0x80B80100000000000000000000000000000000000000000000000000000000000000000000000000000000001000 M = true) (hp : inMask 0x1010D0 P = true) : Within M P dz (Dev.domDrain d i us k) :=
  hd.andThen (Dev.domDrain_w0 d i us k) hm hp

theorem Dev.domRequest_w0 (d : Dev) (i : Nat) (on : Bool) (us : Nat) (k : Option Nat) (mgmt : Bool) (e : Dev) (x_ : Nat) (h : Dev.domRequest d i on us k mgmt = (e, x_)) : Within 0x18000000000080B80100000140010000000000000000000000000000000000000000000000000000000000000000000000005800 0x1010F0 d e := by
  unfold Dev.domRequest at h
  try dsimp only at h
  repeat' split at h
  all_goals (first | cases h | (injection h with h h'; subst h) | (injection h with h; subst h) | skip)
  all_goals try dsimp only
  all_goals (
    repeat' first
      | (with_reducible exact Within.refl _)
      | (with_reducible assumption)
      | ((try lift_lets); intro x_; first
        | (refine (fun (hx_ : Within 0x18000000000080B80100000140010000000000000000000000000000000000000000000000000000000000000000000000005800 0x1010F0 d x_) => ?rest) ?val; (case' rest => clear_value x_); (case' val => subst x_))
        | (have _t := fun y_ => x_ y_; clear _t; subst x_)
        | (have _t : Dev := x_.1; clear _t; subst x_)
        | (have _t : Dev := x_.2; clear _t; subst x_)
        | (have _t : Dev := x_; clear _t; subst x_)
        | clear_value x_)
      | (with_reducible refine Dev.setDom_w _ _ _ ?_ (by decide +kernel) (by decide +kernel))
      | (with_reducible refine Dev.conflict_w _ _ _ ?_ (by decide +kernel) (by decide +kernel))
      | (with_reducible refine Dev.ok_w _ _ _ ?_ (by decide +kernel) (by decide +kernel))
      | (with_reducible refine Dev.domLast_w _ _ _ _ _ ?_ (by decide +kernel) (by decide +kernel))
      | (with_reducible refine Dev.domEnd_w _ _ _ _ _ ?_ (by decide +kernel) (by decide +kernel))
      | (with_reducible refine Dev.domReplace_w _ _ ?_ (by decide +kernel) (by decide +kernel))
      | (with_reducible refine Dev.domDrain_w _ _ _ _ ?_ (by decide +kernel) (by decide +kernel))
      | (with_reducible refine Within.onPwr ?_ _ (by decide +kernel))
      | (with_reducible refine Within.ite ?_ ?_)
      | (intro _ _ _)
      | split
      | dsimp only)

theorem Dev.domRequest_w (d : Dev) (i : Nat) (on : Bool) (us : Nat) (k : Option Nat) (mgmt : Bool) (e : Dev) (x_ : Nat) (h : Dev.domRequest d i on us k mgmt = (e, x_)) {M P : Nat} {dz : Dev} (hd : Within M P dz d) (hm : inMask 0x18000000000080B80100000140010000000000000000000000000000000000000000000000000000000000000000000000005800 M = true) (hp : inMask 0x1010F0 P = true) : Within M P dz e :=
  hd.andThen (Dev.domRequest_w0 d i on us k mgmt _ _ h) hm hp

theorem Dev.domRequest_w1 (d : Dev) (i : Nat) (on : Bool) (us : Nat) (k : Option Nat) (mgmt : Bool) {M P : Nat} {dz : Dev} (hd : Within M P dz d) (hm : inMask 0x18000000000080B80100000140010000000000000000000000000000000000000000000000000000000000000000000000005800 M = true) (hp : inMask 0x1010F0 P = true) : Within M P dz (Dev.domRequest d i on us k mgmt).1 :=
  Dev.domRequest_w d i on us k mgmt _ _ rfl hd hm hp

theorem doDomainSet_w0 (c : Cmd) (d : Dev) : Within 0x18000000000080B80100000140010000000000000000000000000000000000000000000000000000000000000000000000005800 0x1010F0 d (doDomainSet c d) := by
  unfold doDomainSet
  repeat' first
    | (with_reducible exact Within.refl _)
    | (with_reducible assumption)
    | (with_reducible refine Dev.complete_w _ _ _ _ _ ?_ (by decide +kernel) (by decide +kernel))
    | (with_reducible refine Dev.domRequest_w1 _ _ _ _ _ _ ?_ (by decide +kernel) (by decide +kernel))
    | (with_reducible refine Dev.domRequest_w _ _ _ _ _ _ _ _ (by assumption) ?_ (by decide +kernel) (by decide +kernel))
    | (with_reducible refine Within.ite ?_ ?_)
    | (intro _ _ _)
    | split
    | dsimp only

theorem doDomainSet_w (c : Cmd) (d : Dev) {M P : Nat} {dz : Dev} (hd : Within M P dz d) (hm : inMask 0x18000000000080B80100000140010000000000000000000000000000000000000000000000000000000000000000000000005800 M = true) (hp : inMask 0x1010F0 P = true) : Within M P dz (doDomainSet c d) :=
  hd.andThen (doDomainSet_w0 c d) hm hp

theorem Dev.putDrain_w0 (d : Dev) (i : Nat) (f : Drain → Drain) : Within 0 0x1000 d (Dev.putDrain d i f) := by
  unfold Dev.putDrain
  repeat' first
    | (with_reducible exact Within.refl _)
    | (with_reducible assumption)
    | (with_reducible refine Within.onPwr ?_ _ (by decide +kernel))
    | (with_reducible refine Within.ite ?_ ?_)
    | (intro _ _ _)
    | split
    | dsimp only

theorem Dev.putDrain_w (d : Dev) (i : Nat) (f : Drain → Drain) {M P : Nat} {dz : Dev} (hd : Within M P dz d) (hm : inMask 0 M = true) (hp : inMask 0x1000 P = true) : Within M P dz (Dev.putDrain d i f) :=
  hd.andThen (Dev.putDrain_w0 d i f) hm hp

theorem drainLimit_w0 (i : Nat) (left : Nat) (d : Dev) : Within 0x80B80100000000000000000000000000000000000000000000000000000000000000000000000000000000008000 0x10D0 d (drainLimit i left d) := by
  unfold drainLimit
  repeat' first
    | (with_reducible exact Within.refl _)
    | (with_reducible assumption)
    | ((try lift_lets); intro x_; first
      | (refine (fun (hx_ : Within 0x80B80100000000000000000000000000000000000000000000000000000000000000000000000000000000008000 0x10D0 d x_) => ?rest) ?val; (case' rest => clear_value x_); (case' val => subst x_))
      | (have _t := fun y_ => x_ y_; clear _t; subst x_)
      | (have _t : Dev := x_.1; clear _t; subst x_)
      | (have _t : Dev := x_.2; clear _t; subst x_)
      | (have _t : Dev := x_; clear _t; subst x_)
      | clear_value x_)
    | (with_reducible refine Dev.event_w _ _ _ ?_ (by decide +kernel) (by decide +kernel))
    | (with_reducible refine Dev.putDrain_w _ _ _ ?_ (by decide +kernel) (by decide +kernel))
    | (with_reducible refine Within.addSatAt ?_ _ _ _ (by decide +kernel))
    | (with_reducible refine Within.addSat ?_ _ _ (by decide +kernel))
    | (with_reducible refine Within.ite ?_ ?_)
    | (intro _ _ _)
    | split
    | dsimp only

theorem drainLimit_w (i : Nat) (left : Nat) (d : Dev) {M P : Nat} {dz : Dev} (hd : Within M P dz d) (hm : inMask 0x80B80100000000000000000000000000000000000000000000000000000000000000000000000000000000008000 M = true) (hp : inMask 0x10D0 P = true) : Within M P dz (drainLimit i left d) :=
  hd.andThen (drainLimit_w0 i left d) hm hp

theorem Dev.domEffect_w0 (d : Dev) (i : Nat) (on : Bool) : Within 0x8000000000000000000000000000000000000000000000000000000000000000000000000000000000000000002000000 0x1500 d (Dev.domEffect d i on) := by
  unfold Dev.domEffect
  repeat' first
    | (with_reducible exact Within.refl _)
    | (with_reducible assumption)
    | (with_reducible refine Dev.auxPower_w _ _ ?_ (by decide +kernel) (by decide +kernel))
    | (with_reducible refine Within.putBitAt ?_ _ _ _ (by decide +kernel))
    | (with_reducible refine Within.putBit ?_ _ _ (by decide +kernel))
    | (with_reducible refine Within.onFpa ?_ _ (by decide +kernel))
    | (with_reducible refine Within.onPwr ?_ _ (by decide +kernel))
    | (with_reducible refine Within.ite ?_ ?_)
    | (intro _ _ _)
    | split
    | dsimp only

theorem Dev.domEffect_w (d : Dev) (i : Nat) (on : Bool) {M P : Nat} {dz : Dev} (hd : Within M P dz d) (hm : inMask 0x8000000000000000000000000000000000000000000000000000000000000000000000000000000000000000002000000 M = true) (hp : inMask 0x1500 P = true) : Within M P dz (Dev.domEffect d i on) :=
  hd.andThen (Dev.domEffect_w0 d i on) hm hp

theorem Dev.laneDark_w0 (d : Dev) (q : Option (Nat × Nat)) : Within 0x80B80100000140010000000000000000000409E00000000000000000000000000000000003000000000000000000 0x3008F0 d (Dev.laneDark d q) := by
  unfold Dev.laneDark
  repeat' first
    | (with_reducible exact Within.refl _)
    | (with_reducible assumption)
    | ((try lift_lets); intro x_; first
      | (refine (fun (hx_ : Within 0x80B80100000140010000000000000000000409E00000000000000000000000000000000003000000000000000000 0x3008F0 d x_) => ?rest) ?val; (case' rest => clear_value x_); (case' val => subst x_))
      | (have _t := fun y_ => x_ y_; clear _t; subst x_)
      | (have _t : Dev := x_.1; clear _t; subst x_)
      | (have _t : Dev := x_.2; clear _t; subst x_)
      | (have _t : Dev := x_; clear _t; subst x_)
      | clear_value x_)
    | (with_reducible refine Dev.putPort_w _ _ _ ?_ (by decide +kernel) (by decide +kernel))
    | (with_reducible refine Dev.showLanes_w _ _ ?_ (by decide +kernel) (by decide +kernel))
    | (with_reducible refine Within.ite ?_ ?_)
    | (intro _ _ _)
    | split
    | dsimp only

theorem Dev.laneDark_w (d : Dev) (q : Option (Nat × Nat)) {M P : Nat} {dz : Dev} (hd : Within M P dz d) (hm : inMask 0x80B80100000140010000000000000000000409E00000000000000000000000000000000003000000000000000000 M = true) (hp : inMask 0x3008F0 P = true) : Within M P dz (Dev.laneDark d q) :=
  hd.andThen (Dev.laneDark_w0 d q) hm hp

theorem domainOff_w0 (i : Nat) (d : Dev) : Within 0x8000080B80100000140010000000000000000000409E00000000000000000000000000000000003000000000002005800 0x301DF0 d (domainOff i d) := by
  unfold domainOff
  repeat' first
    | (with_reducible exact Within.refl _)
    | (with_reducible assumption)
    | ((try lift_lets); intro x_; first
      | (refine (fun (hx_ : Within 0x8000080B80100000140010000000000000000000409E00000000000000000000000000000000003000000000002005800 0x301DF0 d x_) => ?rest) ?val; (case' rest => clear_value x_); (case' val => subst x_))
      | (have _t := fun y_ => x_ y_; clear _t; subst x_)
      | (have _t : Dev := x_.1; clear _t; subst x_)
      | (have _t : Dev := x_.2; clear _t; subst x_)
      | (have _t : Dev := x_; clear _t; subst x_)
      | clear_value x_)
    | (with_reducible refine Dev.setDom_w _ _ _ ?_ (by decide +kernel) (by decide +kernel))
    | (with_reducible refine Dev.ok_w _ _ _ ?_ (by decide +kernel) (by decide +kernel))
    | (with_reducible refine Dev.domLast_w _ _ _ _ _ ?_ (by decide +kernel) (by decide +kernel))
    | (with_reducible refine Dev.domEnd_w _ _ _ _ _ ?_ (by decide +kernel) (by decide +kernel))
    | (with_reducible refine Dev.domEffect_w _ _ _ ?_ (by decide +kernel) (by decide +kernel))
    | (with_reducible refine Dev.laneDark_w _ _ ?_ (by decide +kernel) (by decide +kernel))
    | (with_reducible refine Within.putAt ?_ _ _ _ (by decide +kernel))
    | (with_reducible refine Within.put ?_ _ _ (by decide +kernel))
    | (with_reducible refine Within.onPwr ?_ _ (by decide +kernel))
    | (with_reducible refine Within.ite ?_ ?_)
    | (intro _ _ _)
    | split
    | dsimp only

theorem domainOff_w (i : Nat) (d : Dev) {M P : Nat} {dz : Dev} (hd : Within M P dz d) (hm : inMask 0x8000080B80100000140010000000000000000000409E00000000000000000000000000000000003000000000002005800 M = true) (hp : inMask 0x301DF0 P = true) : Within M P dz (domainOff i d) :=
  hd.andThen (domainOff_w0 i d) hm hp

theorem domainUsable_w0 (i : Nat) (d : Dev) : Within 0x8000000000000000140010000000000000000000000000000000000000000000000000000000000000000000002000000 0x1530 d (domainUsable i d) := by
  unfold domainUsable
  repeat' first
    | (with_reducible exact Within.refl _)
    | (with_reducible assumption)
    | (with_reducible refine Dev.ok_w _ _ _ ?_ (by decide +kernel) (by decide +kernel))
    | (with_reducible refine Dev.domEnd_w _ _ _ _ _ ?_ (by decide +kernel) (by decide +kernel))
    | (with_reducible refine Dev.domEffect_w _ _ _ ?_ (by decide +kernel) (by decide +kernel))
    | (with_reducible refine Within.onPwr ?_ _ (by decide +kernel))
    | (with_reducible refine Within.ite ?_ ?_)
    | (intro _ _ _)
    | split
    | dsimp only

theorem domainUsable_w (i : Nat) (d : Dev) {M P : Nat} {dz : Dev} (hd : Within M P dz d) (hm : inMask 0x8000000000000000140010000000000000000000000000000000000000000000000000000000000000000000002000000 M = true) (hp : inMask 0x1530 P = true) : Within M P dz (domainUsable i d) :=
  hd.andThen (domainUsable_w0 i d) hm hp

theorem onDemandIdle_w0 (i : Nat) (d : Dev) : Within 0x800 0x1000 d (onDemandIdle i d) := by
  unfold onDemandIdle
  repeat' first
    | (with_reducible exact Within.refl _)
    | (with_reducible assumption)
    | ((try lift_lets); intro x_; first
      | (refine (fun (hx_ : Within 0x800 0x1000 d x_) => ?rest) ?val; (case' rest => clear_value x_); (case' val => subst x_))
      | (have _t := fun y_ => x_ y_; clear _t; subst x_)
      | (have _t : Dev := x_.1; clear _t; subst x_)
      | (have _t : Dev := x_.2; clear _t; subst x_)
      | (have _t : Dev := x_; clear _t; subst x_)
      | clear_value x_)
    | (with_reducible refine Dev.setDom_w _ _ _ ?_ (by decide +kernel) (by decide +kernel))
    | (with_reducible refine Within.onPwr ?_ _ (by decide +kernel))
    | (with_reducible refine Within.ite ?_ ?_)
    | (intro _ _ _)
    | split
    | dsimp only

theorem onDemandIdle_w (i : Nat) (d : Dev) {M P : Nat} {dz : Dev} (hd : Within M P dz d) (hm : inMask 0x800 M = true) (hp : inMask 0x1000 P = true) : Within M P dz (onDemandIdle i d) :=
  hd.andThen (onDemandIdle_w0 i d) hm hp

theorem Dev.rampSample_w0 (d : Dev) : Within 0x40000 0x1000 d (Dev.rampSample d) := by
  unfold Dev.rampSample
  repeat' first
    | (with_reducible exact Within.refl _)
    | (with_reducible assumption)
    | ((try lift_lets); intro x_; first
      | (refine (fun (hx_ : Within 0x40000 0x1000 d x_) => ?rest) ?val; (case' rest => clear_value x_); (case' val => subst x_))
      | (have _t := fun y_ => x_ y_; clear _t; subst x_)
      | (have _t : Dev := x_.1; clear _t; subst x_)
      | (have _t : Dev := x_.2; clear _t; subst x_)
      | (have _t : Dev := x_; clear _t; subst x_)
      | clear_value x_)
    | (with_reducible refine Within.putBitAt ?_ _ _ _ (by decide +kernel))
    | (with_reducible refine Within.putBit ?_ _ _ (by decide +kernel))
    | (with_reducible refine Within.onPwr ?_ _ (by decide +kernel))
    | (with_reducible refine Within.ite ?_ ?_)
    | (intro _ _ _)
    | split
    | dsimp only

theorem Dev.rampSample_w (d : Dev) {M P : Nat} {dz : Dev} (hd : Within M P dz d) (hm : inMask 0x40000 M = true) (hp : inMask 0x1000 P = true) : Within M P dz (Dev.rampSample d) :=
  hd.andThen (Dev.rampSample_w0 d) hm hp

theorem Dev.satLeave_w0 (d : Dev) : Within 0x40000 0x1000 d (Dev.satLeave d) := by
  unfold Dev.satLeave
  repeat' first
    | (with_reducible exact Within.refl _)
    | (with_reducible assumption)
    | (with_reducible refine Within.putBitAt ?_ _ _ _ (by decide +kernel))
    | (with_reducible refine Within.putBit ?_ _ _ (by decide +kernel))
    | (with_reducible refine Within.onPwr ?_ _ (by decide +kernel))
    | (with_reducible refine Within.ite ?_ ?_)
    | (intro _ _ _)
    | split
    | dsimp only

theorem Dev.satLeave_w (d : Dev) {M P : Nat} {dz : Dev} (hd : Within M P dz d) (hm : inMask 0x40000 M = true) (hp : inMask 0x1000 P = true) : Within M P dz (Dev.satLeave d) :=
  hd.andThen (Dev.satLeave_w0 d) hm hp

theorem ballastSample_w0 (pIn : Nat) (pFpa : Nat) (pHeater : Nat) (pBal : Nat) (d : Dev) : Within 0x7C0000 0x1000 d (ballastSample pIn pFpa pHeater pBal d) := by
  unfold ballastSample
  repeat' first
    | (with_reducible exact Within.refl _)
    | (with_reducible assumption)
    | ((try lift_lets); intro x_; first
      | (refine (fun (hx_ : Within 0x7C0000 0x1000 d x_) => ?rest) ?val; (case' rest => clear_value x_); (case' val => subst x_))
      | (have _t := fun y_ => x_ y_; clear _t; subst x_)
      | (have _t : Dev := x_.1; clear _t; subst x_)
      | (have _t : Dev := x_.2; clear _t; subst x_)
      | (have _t : Dev := x_; clear _t; subst x_)
      | clear_value x_)
    | (with_reducible refine Dev.rampSample_w _ ?_ (by decide +kernel) (by decide +kernel))
    | (with_reducible refine Dev.satLeave_w _ ?_ (by decide +kernel) (by decide +kernel))
    | (with_reducible refine Within.putAt ?_ _ _ _ (by decide +kernel))
    | (with_reducible refine Within.put ?_ _ _ (by decide +kernel))
    | (with_reducible refine Within.onPwr ?_ _ (by decide +kernel))
    | (with_reducible refine Within.ite ?_ ?_)
    | (intro _ _ _)
    | split
    | dsimp only

theorem ballastSample_w (pIn : Nat) (pFpa : Nat) (pHeater : Nat) (pBal : Nat) (d : Dev) {M P : Nat} {dz : Dev} (hd : Within M P dz d) (hm : inMask 0x7C0000 M = true) (hp : inMask 0x1000 P = true) : Within M P dz (ballastSample pIn pFpa pHeater pBal d) :=
  hd.andThen (ballastSample_w0 pIn pFpa pHeater pBal d) hm hp

theorem ballastSat_w0 (d : Dev) : Within 0x80B80100000000000000000000000000000000000000000000000000000000000000000000000000000000050000 0x10D0 d (ballastSat d) := by
  unfold ballastSat
  repeat' first
    | (with_reducible exact Within.refl _)
    | (with_reducible assumption)
    | ((try lift_lets); intro x_; first
      | (refine (fun (hx_ : Within 0x80B80100000000000000000000000000000000000000000000000000000000000000000000000000000000050000 0x10D0 d x_) => ?rest) ?val; (case' rest => clear_value x_); (case' val => subst x_))
      | (have _t := fun y_ => x_ y_; clear _t; subst x_)
      | (have _t : Dev := x_.1; clear _t; subst x_)
      | (have _t : Dev := x_.2; clear _t; subst x_)
      | (have _t : Dev := x_; clear _t; subst x_)
      | clear_value x_)
    | (with_reducible refine Dev.event_w _ _ _ ?_ (by decide +kernel) (by decide +kernel))
    | (with_reducible refine Within.putBitAt ?_ _ _ _ (by decide +kernel))
    | (with_reducible refine Within.putBit ?_ _ _ (by decide +kernel))
    | (with_reducible refine Within.incAt ?_ _ _ (by decide +kernel))
    | (with_reducible refine Within.inc ?_ _ (by decide +kernel))
    | (with_reducible refine Within.onPwr ?_ _ (by decide +kernel))
    | (with_reducible refine Within.ite ?_ ?_)
    | (intro _ _ _)
    | split
    | dsimp only

theorem ballastSat_w (d : Dev) {M P : Nat} {dz : Dev} (hd : Within M P dz d) (hm : inMask 0x80B80100000000000000000000000000000000000000000000000000000000000000000000000000000000050000 M = true) (hp : inMask 0x10D0 P = true) : Within M P dz (ballastSat d) :=
  hd.andThen (ballastSat_w0 d) hm hp

theorem satWindow_w0 (d : Dev) : Within 0x40000 0x1000 d (satWindow d) := by
  unfold satWindow
  repeat' first
    | (with_reducible exact Within.refl _)
    | (with_reducible assumption)
    | ((try lift_lets); intro x_; first
      | (refine (fun (hx_ : Within 0x40000 0x1000 d x_) => ?rest) ?val; (case' rest => clear_value x_); (case' val => subst x_))
      | (have _t := fun y_ => x_ y_; clear _t; subst x_)
      | (have _t : Dev := x_.1; clear _t; subst x_)
      | (have _t : Dev := x_.2; clear _t; subst x_)
      | (have _t : Dev := x_; clear _t; subst x_)
      | clear_value x_)
    | (with_reducible refine Within.putBitAt ?_ _ _ _ (by decide +kernel))
    | (with_reducible refine Within.putBit ?_ _ _ (by decide +kernel))
    | (with_reducible refine Within.onPwr ?_ _ (by decide +kernel))
    | (with_reducible refine Within.ite ?_ ?_)
    | (intro _ _ _)
    | split
    | dsimp only

theorem satWindow_w (d : Dev) {M P : Nat} {dz : Dev} (hd : Within M P dz d) (hm : inMask 0x40000 M = true) (hp : inMask 0x1000 P = true) : Within M P dz (satWindow d) :=
  hd.andThen (satWindow_w0 d) hm hp

theorem balWrite_w0 (v : Word) (d : Dev) : Within 0x60000 0x1000 d (balWrite v d) := by
  unfold balWrite
  repeat' first
    | (with_reducible exact Within.refl _)
    | (with_reducible assumption)
    | ((try lift_lets); intro x_; first
      | (refine (fun (hx_ : Within 0x60000 0x1000 d x_) => ?rest) ?val; (case' rest => clear_value x_); (case' val => subst x_))
      | (have _t := fun y_ => x_ y_; clear _t; subst x_)
      | (have _t : Dev := x_.1; clear _t; subst x_)
      | (have _t : Dev := x_.2; clear _t; subst x_)
      | (have _t : Dev := x_; clear _t; subst x_)
      | clear_value x_)
    | (with_reducible refine Within.putBitAt ?_ _ _ _ (by decide +kernel))
    | (with_reducible refine Within.putBit ?_ _ _ (by decide +kernel))
    | (with_reducible refine Within.putAt ?_ _ _ _ (by decide +kernel))
    | (with_reducible refine Within.put ?_ _ _ (by decide +kernel))
    | (with_reducible refine Within.onPwr ?_ _ (by decide +kernel))
    | (with_reducible refine Within.writeWord ?_ _ _ (by decide +kernel))
    | (with_reducible refine Within.ite ?_ ?_)
    | (intro _ _ _)
    | split
    | dsimp only

theorem balWrite_w (v : Word) (d : Dev) {M P : Nat} {dz : Dev} (hd : Within M P dz d) (hm : inMask 0x60000 M = true) (hp : inMask 0x1000 P = true) : Within M P dz (balWrite v d) :=
  hd.andThen (balWrite_w0 v d) hm hp

theorem refclkLost_w0 (d : Dev) : Within 0x80B80100000000000000000000000000000000000000000000000000000000000000000000000000000000000180 0x10D0 d (refclkLost d) := by
  unfold refclkLost
  repeat' first
    | (with_reducible exact Within.refl _)
    | (with_reducible assumption)
    | ((try lift_lets); intro x_; first
      | (refine (fun (hx_ : Within 0x80B80100000000000000000000000000000000000000000000000000000000000000000000000000000000000180 0x10D0 d x_) => ?rest) ?val; (case' rest => clear_value x_); (case' val => subst x_))
      | (have _t := fun y_ => x_ y_; clear _t; subst x_)
      | (have _t : Dev := x_.1; clear _t; subst x_)
      | (have _t : Dev := x_.2; clear _t; subst x_)
      | (have _t : Dev := x_; clear _t; subst x_)
      | clear_value x_)
    | (with_reducible refine Dev.event_w _ _ _ ?_ (by decide +kernel) (by decide +kernel))
    | (with_reducible refine Within.putBitAt ?_ _ _ _ (by decide +kernel))
    | (with_reducible refine Within.putBit ?_ _ _ (by decide +kernel))
    | (with_reducible refine Within.flagAt ?_ _ _ (by decide +kernel))
    | (with_reducible refine Within.flag ?_ _ (by decide +kernel))
    | (with_reducible refine Within.incAt ?_ _ _ (by decide +kernel))
    | (with_reducible refine Within.inc ?_ _ (by decide +kernel))
    | (with_reducible refine Within.onPwr ?_ _ (by decide +kernel))
    | (with_reducible refine Within.ite ?_ ?_)
    | (intro _ _ _)
    | split
    | dsimp only

theorem refclkLost_w (d : Dev) {M P : Nat} {dz : Dev} (hd : Within M P dz d) (hm : inMask 0x80B80100000000000000000000000000000000000000000000000000000000000000000000000000000000000180 M = true) (hp : inMask 0x10D0 P = true) : Within M P dz (refclkLost d) :=
  hd.andThen (refclkLost_w0 d) hm hp

theorem holdoverExpiry_w0 (d : Dev) : Within 0x80B80100000140010000000000000000000409E00000000000000000000000000000000003000000000000000080 0x3009F0 d (holdoverExpiry d) := by
  unfold holdoverExpiry
  repeat' first
    | (with_reducible exact Within.refl _)
    | (with_reducible assumption)
    | ((try lift_lets); intro x_; first
      | (refine (fun (hx_ : Within 0x80B80100000140010000000000000000000409E00000000000000000000000000000000003000000000000000080 0x3009F0 d x_) => ?rest) ?val; (case' rest => clear_value x_); (case' val => subst x_))
      | (have _t := fun y_ => x_ y_; clear _t; subst x_)
      | (have _t : Dev := x_.1; clear _t; subst x_)
      | (have _t : Dev := x_.2; clear _t; subst x_)
      | (have _t : Dev := x_; clear _t; subst x_)
      | clear_value x_)
    | (with_reducible refine Dev.portLost_w _ _ ?_ (by decide +kernel) (by decide +kernel))
    | (with_reducible refine Within.putBitAt ?_ _ _ _ (by decide +kernel))
    | (with_reducible refine Within.putBit ?_ _ _ (by decide +kernel))
    | (with_reducible refine Within.onFpa ?_ _ (by decide +kernel))
    | (with_reducible refine Within.foldl ?_ _ _ ?_)
    | (with_reducible refine Within.ite ?_ ?_)
    | (intro _ _ _)
    | split
    | dsimp only

theorem holdoverExpiry_w (d : Dev) {M P : Nat} {dz : Dev} (hd : Within M P dz d) (hm : inMask 0x80B80100000140010000000000000000000409E00000000000000000000000000000000003000000000000000080 M = true) (hp : inMask 0x3009F0 P = true) : Within M P dz (holdoverExpiry d) :=
  hd.andThen (holdoverExpiry_w0 d) hm hp

theorem refclkReturn_w0 (d : Dev) : Within 0x280 0x1000 d (refclkReturn d) := by
  unfold refclkReturn
  repeat' first
    | (with_reducible exact Within.refl _)
    | (with_reducible assumption)
    | ((try lift_lets); intro x_; first
      | (refine (fun (hx_ : Within 0x280 0x1000 d x_) => ?rest) ?val; (case' rest => clear_value x_); (case' val => subst x_))
      | (have _t := fun y_ => x_ y_; clear _t; subst x_)
      | (have _t : Dev := x_.1; clear _t; subst x_)
      | (have _t : Dev := x_.2; clear _t; subst x_)
      | (have _t : Dev := x_; clear _t; subst x_)
      | clear_value x_)
    | (with_reducible refine Within.putBitAt ?_ _ _ _ (by decide +kernel))
    | (with_reducible refine Within.putBit ?_ _ _ (by decide +kernel))
    | (with_reducible refine Within.incAt ?_ _ _ (by decide +kernel))
    | (with_reducible refine Within.inc ?_ _ (by decide +kernel))
    | (with_reducible refine Within.onPwr ?_ _ (by decide +kernel))
    | (with_reducible refine Within.ite ?_ ?_)
    | (intro _ _ _)
    | split
    | dsimp only

theorem refclkReturn_w (d : Dev) {M P : Nat} {dz : Dev} (hd : Within M P dz d) (hm : inMask 0x280 M = true) (hp : inMask 0x1000 P = true) : Within M P dz (refclkReturn d) :=
  hd.andThen (refclkReturn_w0 d) hm hp

theorem pllLock_w0 (d : Dev) : Within 0x10A000080 0x1100 d (pllLock d) := by
  unfold pllLock
  repeat' first
    | (with_reducible exact Within.refl _)
    | (with_reducible assumption)
    | ((try lift_lets); intro x_; first
      | (refine (fun (hx_ : Within 0x10A000080 0x1100 d x_) => ?rest) ?val; (case' rest => clear_value x_); (case' val => subst x_))
      | (have _t := fun y_ => x_ y_; clear _t; subst x_)
      | (have _t : Dev := x_.1; clear _t; subst x_)
      | (have _t : Dev := x_.2; clear _t; subst x_)
      | (have _t : Dev := x_; clear _t; subst x_)
      | clear_value x_)
    | (with_reducible refine Dev.showPend_w _ ?_ (by decide +kernel) (by decide +kernel))
    | (with_reducible refine Dev.placeStart_w _ ?_ (by decide +kernel) (by decide +kernel))
    | (with_reducible refine Within.putBitAt ?_ _ _ _ (by decide +kernel))
    | (with_reducible refine Within.putBit ?_ _ _ (by decide +kernel))
    | (with_reducible refine Within.onFpa ?_ _ (by decide +kernel))
    | (with_reducible refine Within.onPwr ?_ _ (by decide +kernel))
    | (with_reducible refine Within.ite ?_ ?_)
    | (intro _ _ _)
    | split
    | dsimp only

theorem pllLock_w (d : Dev) {M P : Nat} {dz : Dev} (hd : Within M P dz d) (hm : inMask 0x10A000080 M = true) (hp : inMask 0x1100 P = true) : Within M P dz (pllLock d) :=
  hd.andThen (pllLock_w0 d) hm hp

theorem Dev.provision_w0 (d : Dev) : Within 0x10000000000000000000000000000000000000000000000000000000000000000000000000000 0x400000 d (Dev.provision d) := by
  unfold Dev.provision
  repeat' first
    | (with_reducible exact Within.refl _)
    | (with_reducible assumption)
    | (with_reducible refine Within.putBitAt ?_ _ _ _ (by decide +kernel))
    | (with_reducible refine Within.putBit ?_ _ _ (by decide +kernel))
    | (with_reducible refine Within.onSaved ?_ _ (by decide +kernel))
    | (with_reducible refine Within.ite ?_ ?_)
    | (intro _ _ _)
    | split
    | dsimp only

theorem Dev.provision_w (d : Dev) {M P : Nat} {dz : Dev} (hd : Within M P dz d) (hm : inMask 0x10000000000000000000000000000000000000000000000000000000000000000000000000000 M = true) (hp : inMask 0x400000 P = true) : Within M P dz (Dev.provision d) :=
  hd.andThen (Dev.provision_w0 d) hm hp

theorem doKeyImport_w0 (c : Cmd) (d : Dev) : Within 0x100000140010000000000000000000000000000000000000000000000000000000000000000000000000800 0x401070 d (doKeyImport c d) := by
  unfold doKeyImport
  repeat' first
    | (with_reducible exact Within.refl _)
    | (with_reducible assumption)
    | ((try lift_lets); intro x_; first
      | (refine (fun (hx_ : Within 0x100000140010000000000000000000000000000000000000000000000000000000000000000000000000800 0x401070 d x_) => ?rest) ?val; (case' rest => clear_value x_); (case' val => subst x_))
      | (have _t := fun y_ => x_ y_; clear _t; subst x_)
      | (have _t : Dev := x_.1; clear _t; subst x_)
      | (have _t : Dev := x_.2; clear _t; subst x_)
      | (have _t : Dev := x_; clear _t; subst x_)
      | clear_value x_)
    | (with_reducible refine Dev.wake_w _ _ ?_ (by decide +kernel) (by decide +kernel))
    | (with_reducible refine Dev.keepPush_w _ _ _ ?_ (by decide +kernel) (by decide +kernel))
    | (with_reducible refine Dev.complete_w _ _ _ _ _ ?_ (by decide +kernel) (by decide +kernel))
    | (with_reducible refine Dev.provision_w _ ?_ (by decide +kernel) (by decide +kernel))
    | (with_reducible refine Within.ite ?_ ?_)
    | (intro _ _ _)
    | split
    | dsimp only

theorem doKeyImport_w (c : Cmd) (d : Dev) {M P : Nat} {dz : Dev} (hd : Within M P dz d) (hm : inMask 0x100000140010000000000000000000000000000000000000000000000000000000000000000000000000800 M = true) (hp : inMask 0x401070 P = true) : Within M P dz (doKeyImport c d) :=
  hd.andThen (doKeyImport_w0 c d) hm hp

theorem doKeyRetire_w0 (c : Cmd) (d : Dev) : Within 0x100000140010000000000000000000000000000000000000000000000000000000000000000000000000000 0x70 d (doKeyRetire c d) := by
  unfold doKeyRetire
  repeat' first
    | (with_reducible exact Within.refl _)
    | (with_reducible assumption)
    | (with_reducible refine Dev.keepPush_w _ _ _ ?_ (by decide +kernel) (by decide +kernel))
    | (with_reducible refine Dev.complete_w _ _ _ _ _ ?_ (by decide +kernel) (by decide +kernel))
    | (with_reducible refine Within.ite ?_ ?_)
    | (intro _ _ _)
    | split
    | dsimp only

theorem doKeyRetire_w (c : Cmd) (d : Dev) {M P : Nat} {dz : Dev} (hd : Within M P dz d) (hm : inMask 0x100000140010000000000000000000000000000000000000000000000000000000000000000000000000000 M = true) (hp : inMask 0x70 P = true) : Within M P dz (doKeyRetire c d) :=
  hd.andThen (doKeyRetire_w0 c d) hm hp

theorem putBank_w (b v : Nat) (d : Dev) {M P : Nat} {dz : Dev} (hd : Within M P dz d) (hm : inMask 0x2000000000000000000000000000000000000000000000000000000000000000000000000000000 M = true) (hp : inMask 0 P = true) : Within M P dz (d.put (bankFld b) v) := by
  refine hd.andThen (m := 0x2000000000000000000000000000000000000000000000000000000000000000000000000000000) (p := 0) ?_ hm hp
  unfold bankFld
  split
  · exact Within.put (Within.refl _) _ _ (by decide +kernel)
  · exact Within.put (Within.refl _) _ _ (by decide +kernel)

theorem doFwStage_w0 (c : Cmd) (d : Dev) : Within 0x20000142010000000000000000000000000000000000000000000000000000000000000000000000000800 0x1070 d (doFwStage c d) := by
  unfold doFwStage
  repeat' first
    | (with_reducible exact Within.refl _)
    | (with_reducible assumption)
    | ((try lift_lets); intro x_; first
      | (refine (fun (hx_ : Within 0x20000142010000000000000000000000000000000000000000000000000000000000000000000000000800 0x1070 d x_) => ?rest) ?val; (case' rest => clear_value x_); (case' val => subst x_))
      | (have _t := fun y_ => x_ y_; clear _t; subst x_)
      | (have _t : Dev := x_.1; clear _t; subst x_)
      | (have _t : Dev := x_.2; clear _t; subst x_)
      | (have _t : Dev := x_; clear _t; subst x_)
      | clear_value x_)
    | (with_reducible refine putBank_w _ _ _ ?_ (by decide +kernel) (by decide +kernel))
    | (with_reducible refine Dev.flashPush_w _ _ ?_ (by decide +kernel) (by decide +kernel))
    | (with_reducible refine Dev.complete_w _ _ _ _ _ ?_ (by decide +kernel) (by decide +kernel))
    | (with_reducible refine Within.putAt ?_ _ _ _ (by decide +kernel))
    | (with_reducible refine Within.put ?_ _ _ (by decide +kernel))
    | (with_reducible refine Within.onSec ?_ _ (by decide +kernel))
    | (with_reducible refine Within.ite ?_ ?_)
    | (intro _ _ _)
    | split
    | dsimp only

theorem doFwStage_w (c : Cmd) (d : Dev) {M P : Nat} {dz : Dev} (hd : Within M P dz d) (hm : inMask 0x20000142010000000000000000000000000000000000000000000000000000000000000000000000000800 M = true) (hp : inMask 0x1070 P = true) : Within M P dz (doFwStage c d) :=
  hd.andThen (doFwStage_w0 c d) hm hp

theorem doFwSwitch_w0 (tc : Nat) (c : Cmd) (d : Dev) : Within 0x142010000000000000000000000000000000000000000000000000000000000000000000000000000 0x30 d (doFwSwitch tc c d) := by
  unfold doFwSwitch
  repeat' first
    | (with_reducible exact Within.refl _)
    | (with_reducible assumption)
    | ((try lift_lets); intro x_; first
      | (refine (fun (hx_ : Within 0x142010000000000000000000000000000000000000000000000000000000000000000000000000000 0x30 d x_) => ?rest) ?val; (case' rest => clear_value x_); (case' val => subst x_))
      | (have _t := fun y_ => x_ y_; clear _t; subst x_)
      | (have _t : Dev := x_.1; clear _t; subst x_)
      | (have _t : Dev := x_.2; clear _t; subst x_)
      | (have _t : Dev := x_; clear _t; subst x_)
      | clear_value x_)
    | (with_reducible refine putBank_w _ _ _ ?_ (by decide +kernel) (by decide +kernel))
    | (with_reducible refine Dev.complete_w _ _ _ _ _ ?_ (by decide +kernel) (by decide +kernel))
    | (with_reducible refine Within.putBitAt ?_ _ _ _ (by decide +kernel))
    | (with_reducible refine Within.putBit ?_ _ _ (by decide +kernel))
    | (with_reducible refine Within.onSec ?_ _ (by decide +kernel))
    | (with_reducible refine Within.ite ?_ ?_)
    | (intro _ _ _)
    | split
    | dsimp only

theorem doFwSwitch_w (tc : Nat) (c : Cmd) (d : Dev) {M P : Nat} {dz : Dev} (hd : Within M P dz d) (hm : inMask 0x142010000000000000000000000000000000000000000000000000000000000000000000000000000 M = true) (hp : inMask 0x30 P = true) : Within M P dz (doFwSwitch tc c d) :=
  hd.andThen (doFwSwitch_w0 tc c d) hm hp

theorem Dev.partSwitched_w0 (d : Dev) (k : Nat) : Within 0x140010000000000000000000000000000000000000000000000000000000000000000000000000000 0x30 d (Dev.partSwitched d k) := by
  unfold Dev.partSwitched
  repeat' first
    | (with_reducible exact Within.refl _)
    | (with_reducible assumption)
    | (with_reducible refine Dev.ok_w _ _ _ ?_ (by decide +kernel) (by decide +kernel))
    | (with_reducible refine Within.ite ?_ ?_)
    | (intro _ _ _)
    | split
    | dsimp only

theorem Dev.partSwitched_w (d : Dev) (k : Nat) {M P : Nat} {dz : Dev} (hd : Within M P dz d) (hm : inMask 0x140010000000000000000000000000000000000000000000000000000000000000000000000000000 M = true) (hp : inMask 0x30 P = true) : Within M P dz (Dev.partSwitched d k) :=
  hd.andThen (Dev.partSwitched_w0 d k) hm hp

theorem Dev.fwSwap_w0 (d : Dev) (x : FwSwitch) : Within 0x152010000000000000000000000000000000000000000000000000000000000000000000000000000 0x30 d (Dev.fwSwap d x) := by
  unfold Dev.fwSwap
  repeat' first
    | (with_reducible exact Within.refl _)
    | (with_reducible assumption)
    | ((try lift_lets); intro x_; first
      | (refine (fun (hx_ : Within 0x152010000000000000000000000000000000000000000000000000000000000000000000000000000 0x30 d x_) => ?rest) ?val; (case' rest => clear_value x_); (case' val => subst x_))
      | (have _t := fun y_ => x_ y_; clear _t; subst x_)
      | (have _t : Dev := x_.1; clear _t; subst x_)
      | (have _t : Dev := x_.2; clear _t; subst x_)
      | (have _t : Dev := x_; clear _t; subst x_)
      | clear_value x_)
    | (with_reducible refine Dev.partSwitched_w _ _ ?_ (by decide +kernel) (by decide +kernel))
    | (with_reducible refine Within.putBitAt ?_ _ _ _ (by decide +kernel))
    | (with_reducible refine Within.putBit ?_ _ _ (by decide +kernel))
    | (with_reducible refine Within.putAt ?_ _ _ _ (by decide +kernel))
    | (with_reducible refine Within.put ?_ _ _ (by decide +kernel))
    | (with_reducible refine Within.onSec ?_ _ (by decide +kernel))
    | (with_reducible refine Within.ite ?_ ?_)
    | (intro _ _ _)
    | split
    | dsimp only

theorem Dev.fwSwap_w (d : Dev) (x : FwSwitch) {M P : Nat} {dz : Dev} (hd : Within M P dz d) (hm : inMask 0x152010000000000000000000000000000000000000000000000000000000000000000000000000000 M = true) (hp : inMask 0x30 P = true) : Within M P dz (Dev.fwSwap d x) :=
  hd.andThen (Dev.fwSwap_w0 d x) hm hp

theorem Dev.commandsResume_w0 (d : Dev) : Within 0x80B82100000140790000000000000000000000000000000000000000000000000000000000000000000000000800 0x10F0 d (Dev.commandsResume d) := by
  unfold Dev.commandsResume
  repeat' first
    | (with_reducible exact Within.refl _)
    | (with_reducible assumption)
    | ((try lift_lets); intro x_; first
      | (refine (fun (hx_ : Within 0x80B82100000140790000000000000000000000000000000000000000000000000000000000000000000000000800 0x10F0 d x_) => ?rest) ?val; (case' rest => clear_value x_); (case' val => subst x_))
      | (have _t := fun y_ => x_ y_; clear _t; subst x_)
      | (have _t : Dev := x_.1; clear _t; subst x_)
      | (have _t : Dev := x_.2; clear _t; subst x_)
      | (have _t : Dev := x_; clear _t; subst x_)
      | clear_value x_)
    | (with_reducible refine Dev.verifyAll_w _ ?_ (by decide +kernel) (by decide +kernel))
    | (with_reducible refine Dev.accept_w _ _ _ _ _ ?_ (by decide +kernel) (by decide +kernel))
    | (with_reducible refine Within.onSec ?_ _ (by decide +kernel))
    | (with_reducible refine Within.ite ?_ ?_)
    | (intro _ _ _)
    | split
    | dsimp only

theorem Dev.commandsResume_w (d : Dev) {M P : Nat} {dz : Dev} (hd : Within M P dz d) (hm : inMask 0x80B82100000140790000000000000000000000000000000000000000000000000000000000000000000000000800 M = true) (hp : inMask 0x10F0 P = true) : Within M P dz (Dev.commandsResume d) :=
  hd.andThen (Dev.commandsResume_w0 d) hm hp

theorem Dev.fwReturn_w0 (d : Dev) (x : FwTrial) : Within 0x80B82100000152790000000000000000000000000000000000000000000000000000000000000000000000000800 0x10F0 d (Dev.fwReturn d x) := by
  unfold Dev.fwReturn
  repeat' first
    | (with_reducible exact Within.refl _)
    | (with_reducible assumption)
    | ((try lift_lets); intro x_; first
      | (refine (fun (hx_ : Within 0x80B82100000152790000000000000000000000000000000000000000000000000000000000000000000000000800 0x10F0 d x_) => ?rest) ?val; (case' rest => clear_value x_); (case' val => subst x_))
      | (have _t := fun y_ => x_ y_; clear _t; subst x_)
      | (have _t : Dev := x_.1; clear _t; subst x_)
      | (have _t : Dev := x_.2; clear _t; subst x_)
      | (have _t : Dev := x_; clear _t; subst x_)
      | clear_value x_)
    | (with_reducible refine Dev.event_w _ _ _ ?_ (by decide +kernel) (by decide +kernel))
    | (with_reducible refine Dev.completeK_w _ _ _ _ _ ?_ (by decide +kernel) (by decide +kernel))
    | (with_reducible refine Dev.commandsResume_w _ ?_ (by decide +kernel) (by decide +kernel))
    | (with_reducible refine Within.putBitAt ?_ _ _ _ (by decide +kernel))
    | (with_reducible refine Within.putBit ?_ _ _ (by decide +kernel))
    | (with_reducible refine Within.putAt ?_ _ _ _ (by decide +kernel))
    | (with_reducible refine Within.put ?_ _ _ (by decide +kernel))
    | (with_reducible refine Within.flagAt ?_ _ _ (by decide +kernel))
    | (with_reducible refine Within.flag ?_ _ (by decide +kernel))
    | (with_reducible refine Within.onSec ?_ _ (by decide +kernel))
    | (with_reducible refine Within.ite ?_ ?_)
    | (intro _ _ _)
    | split
    | dsimp only

theorem Dev.fwReturn_w (d : Dev) (x : FwTrial) {M P : Nat} {dz : Dev} (hd : Within M P dz d) (hm : inMask 0x80B82100000152790000000000000000000000000000000000000000000000000000000000000000000000000800 M = true) (hp : inMask 0x10F0 P = true) : Within M P dz (Dev.fwReturn d x) :=
  hd.andThen (Dev.fwReturn_w0 d x) hm hp

theorem Dev.fwBoundary_w0 (d : Dev) (b : Nat) : Within 0x80B82100000152790000000000000000000000000000000000000000000000000000000000000000000000000800 0x10F0 d (Dev.fwBoundary d b) := by
  unfold Dev.fwBoundary
  repeat' first
    | (with_reducible exact Within.refl _)
    | (with_reducible assumption)
    | (with_reducible refine Dev.fwSwap_w _ _ ?_ (by decide +kernel) (by decide +kernel))
    | (with_reducible refine Dev.fwReturn_w _ _ ?_ (by decide +kernel) (by decide +kernel))
    | (with_reducible refine Within.ite ?_ ?_)
    | (intro _ _ _)
    | split
    | dsimp only

theorem Dev.fwBoundary_w (d : Dev) (b : Nat) {M P : Nat} {dz : Dev} (hd : Within M P dz d) (hm : inMask 0x80B82100000152790000000000000000000000000000000000000000000000000000000000000000000000000800 M = true) (hp : inMask 0x10F0 P = true) : Within M P dz (Dev.fwBoundary d b) :=
  hd.andThen (Dev.fwBoundary_w0 d b) hm hp

theorem fwSwitchTick_w0 (d : Dev) : Within 0x152010000000000000000000000000000000000000000000000000000000000000000000000000000 0x30 d (fwSwitchTick d) := by
  unfold fwSwitchTick
  repeat' first
    | (with_reducible exact Within.refl _)
    | (with_reducible assumption)
    | (with_reducible refine Dev.fwSwap_w _ _ ?_ (by decide +kernel) (by decide +kernel))
    | (with_reducible refine Within.ite ?_ ?_)
    | (intro _ _ _)
    | split
    | dsimp only

theorem fwSwitchTick_w (d : Dev) {M P : Nat} {dz : Dev} (hd : Within M P dz d) (hm : inMask 0x152010000000000000000000000000000000000000000000000000000000000000000000000000000 M = true) (hp : inMask 0x30 P = true) : Within M P dz (fwSwitchTick d) :=
  hd.andThen (fwSwitchTick_w0 d) hm hp

theorem newFirmware_w0 (d : Dev) : Within 0x80B82100000142790000000000000000000000000000000000000000000000000000000000000000000000000800 0x10F0 d (newFirmware d) := by
  unfold newFirmware
  repeat' first
    | (with_reducible exact Within.refl _)
    | (with_reducible assumption)
    | (with_reducible refine Dev.commandsResume_w _ ?_ (by decide +kernel) (by decide +kernel))
    | (with_reducible refine Within.putBitAt ?_ _ _ _ (by decide +kernel))
    | (with_reducible refine Within.putBit ?_ _ _ (by decide +kernel))
    | (with_reducible refine Within.onSec ?_ _ (by decide +kernel))
    | (with_reducible refine Within.ite ?_ ?_)
    | (intro _ _ _)
    | split
    | dsimp only

theorem newFirmware_w (d : Dev) {M P : Nat} {dz : Dev} (hd : Within M P dz d) (hm : inMask 0x80B82100000142790000000000000000000000000000000000000000000000000000000000000000000000000800 M = true) (hp : inMask 0x10F0 P = true) : Within M P dz (newFirmware d) :=
  hd.andThen (newFirmware_w0 d) hm hp

theorem firmwareSound_w0 (m : Mems) (d : Dev) : Within 0x80B8210000014A010000000000000000000000000000000000000000000000000000000000000000000000000000 0xF0 d (firmwareSound m d) := by
  unfold firmwareSound
  repeat' first
    | (with_reducible exact Within.refl _)
    | (with_reducible assumption)
    | ((try lift_lets); intro x_; first
      | (refine (fun (hx_ : Within 0x80B8210000014A010000000000000000000000000000000000000000000000000000000000000000000000000000 0xF0 d x_) => ?rest) ?val; (case' rest => clear_value x_); (case' val => subst x_))
      | (have _t := fun y_ => x_ y_; clear _t; subst x_)
      | (have _t : Dev := x_.1; clear _t; subst x_)
      | (have _t : Dev := x_.2; clear _t; subst x_)
      | (have _t : Dev := x_; clear _t; subst x_)
      | clear_value x_)
    | (with_reducible refine Dev.tallySet_w _ _ _ ?_ (by decide +kernel) (by decide +kernel))
    | (with_reducible refine Dev.event_w _ _ _ ?_ (by decide +kernel) (by decide +kernel))
    | (with_reducible refine Dev.keepPush_w _ _ _ ?_ (by decide +kernel) (by decide +kernel))
    | (with_reducible refine Dev.ok_w _ _ _ ?_ (by decide +kernel) (by decide +kernel))
    | (with_reducible refine Dev.completeK_w _ _ _ _ _ ?_ (by decide +kernel) (by decide +kernel))
    | (with_reducible refine Within.putBitAt ?_ _ _ _ (by decide +kernel))
    | (with_reducible refine Within.putBit ?_ _ _ (by decide +kernel))
    | (with_reducible refine Within.putAt ?_ _ _ _ (by decide +kernel))
    | (with_reducible refine Within.put ?_ _ _ (by decide +kernel))
    | (with_reducible refine Within.onSec ?_ _ (by decide +kernel))
    | (with_reducible refine Within.ite ?_ ?_)
    | (intro _ _ _)
    | split
    | dsimp only

theorem firmwareSound_w (m : Mems) (d : Dev) {M P : Nat} {dz : Dev} (hd : Within M P dz d) (hm : inMask 0x80B8210000014A010000000000000000000000000000000000000000000000000000000000000000000000000000 M = true) (hp : inMask 0xF0 P = true) : Within M P dz (firmwareSound m d) :=
  hd.andThen (firmwareSound_w0 m d) hm hp

theorem fwExpiry_w0 (d : Dev) : Within 0x80B82100000152790000000000000000000000000000000000000000000000000000000000000000000000000800 0x10F0 d (fwExpiry d) := by
  unfold fwExpiry
  repeat' first
    | (with_reducible exact Within.refl _)
    | (with_reducible assumption)
    | ((try lift_lets); intro x_; first
      | (refine (fun (hx_ : Within 0x80B82100000152790000000000000000000000000000000000000000000000000000000000000000000000000800 0x10F0 d x_) => ?rest) ?val; (case' rest => clear_value x_); (case' val => subst x_))
      | (have _t := fun y_ => x_ y_; clear _t; subst x_)
      | (have _t : Dev := x_.1; clear _t; subst x_)
      | (have _t : Dev := x_.2; clear _t; subst x_)
      | (have _t : Dev := x_; clear _t; subst x_)
      | clear_value x_)
    | (with_reducible refine Dev.fwReturn_w _ _ ?_ (by decide +kernel) (by decide +kernel))
    | (with_reducible refine Within.onSec ?_ _ (by decide +kernel))
    | (with_reducible refine Within.ite ?_ ?_)
    | (intro _ _ _)
    | split
    | dsimp only

theorem fwExpiry_w (d : Dev) {M P : Nat} {dz : Dev} (hd : Within M P dz d) (hm : inMask 0x80B82100000152790000000000000000000000000000000000000000000000000000000000000000000000000800 M = true) (hp : inMask 0x10F0 P = true) : Within M P dz (fwExpiry d) :=
  hd.andThen (fwExpiry_w0 d) hm hp

theorem mbxAck_w0 (p : Path) (d : Dev) : Within 0x40000000000000000000000000000000000000000000000000000000000000000000000000000000 0 d (mbxAck p d) := by
  unfold mbxAck
  repeat' first
    | (with_reducible exact Within.refl _)
    | (with_reducible assumption)
    | (with_reducible refine Within.putBitAt ?_ _ _ _ (by decide +kernel))
    | (with_reducible refine Within.putBit ?_ _ _ (by decide +kernel))
    | (with_reducible refine Within.ite ?_ ?_)
    | (intro _ _ _)
    | split
    | dsimp only

theorem mbxAck_w (p : Path) (d : Dev) {M P : Nat} {dz : Dev} (hd : Within M P dz d) (hm : inMask 0x40000000000000000000000000000000000000000000000000000000000000000000000000000000 M = true) (hp : inMask 0 P = true) : Within M P dz (mbxAck p d) :=
  hd.andThen (mbxAck_w0 p d) hm hp

end Sys2Proof.Machine
end

