-- ==== Sys2Proof/Laws/FramesStand.lean ====
section
/-! SUPPORT. Frames of the operations of stands and group commands, and what remains. -/

set_option linter.unusedVariables false
set_option Elab.async false

namespace Sys2Proof.Machine

open Sys2Proof

theorem Dev.setSrc_w0 (d : Dev) (src : Nat) : Within 0x840000000000000000000000000000000000000 0x4000 d (Dev.setSrc d src) := by
  unfold Dev.setSrc
  repeat' first
    | (with_reducible exact Within.refl _)
    | (with_reducible assumption)
    | ((try lift_lets); intro x_; first
      | (refine (fun (hx_ : Within 0x840000000000000000000000000000000000000 0x4000 d x_) => ?rest) ?val; (case' rest => clear_value x_); (case' val => subst x_))
      | (have _t := fun y_ => x_ y_; clear _t; subst x_)
      | (have _t : Dev := x_.1; clear _t; subst x_)
      | (have _t : Dev := x_.2; clear _t; subst x_)
      | (have _t : Dev := x_; clear _t; subst x_)
      | clear_value x_)
    | (with_reducible refine Within.putAt ?_ _ _ _ (by decide +kernel))
    | (with_reducible refine Within.put ?_ _ _ (by decide +kernel))
    | (with_reducible refine Within.onWeb ?_ _ (by decide +kernel))
    | (with_reducible refine Within.ite ?_ ?_)
    | (intro _ _ _)
    | split
    | dsimp only

theorem Dev.setSrc_w (d : Dev) (src : Nat) {M P : Nat} {dz : Dev} (hd : Within M P dz d) (hm : inMask 0x840000000000000000000000000000000000000 M = true) (hp : inMask 0x4000 P = true) : Within M P dz (Dev.setSrc d src) :=
  hd.andThen (Dev.setSrc_w0 d src) hm hp

theorem Dev.encOwner_w0 (d : Dev) (owner : Nat) : Within 0x800400000000000000000000840000000000000000000000000000000000000 0x204000 d (Dev.encOwner d owner) := by
  unfold Dev.encOwner
  repeat' first
    | (with_reducible exact Within.refl _)
    | (with_reducible assumption)
    | ((try lift_lets); intro x_; first
      | (refine (fun (hx_ : Within 0x800400000000000000000000840000000000000000000000000000000000000 0x204000 d x_) => ?rest) ?val; (case' rest => clear_value x_); (case' val => subst x_))
      | (have _t := fun y_ => x_ y_; clear _t; subst x_)
      | (have _t : Dev := x_.1; clear _t; subst x_)
      | (have _t : Dev := x_.2; clear _t; subst x_)
      | (have _t : Dev := x_; clear _t; subst x_)
      | clear_value x_)
    | (with_reducible refine Dev.setSrc_w _ _ ?_ (by decide +kernel) (by decide +kernel))
    | (with_reducible refine Within.putBitAt ?_ _ _ _ (by decide +kernel))
    | (with_reducible refine Within.putBit ?_ _ _ (by decide +kernel))
    | (with_reducible refine Within.putAt ?_ _ _ _ (by decide +kernel))
    | (with_reducible refine Within.put ?_ _ _ (by decide +kernel))
    | (with_reducible refine Within.onStand ?_ _ (by decide +kernel))
    | (with_reducible refine Within.ite ?_ ?_)
    | (intro _ _ _)
    | split
    | dsimp only

theorem Dev.encOwner_w (d : Dev) (owner : Nat) {M P : Nat} {dz : Dev} (hd : Within M P dz d) (hm : inMask 0x800400000000000000000000840000000000000000000000000000000000000 M = true) (hp : inMask 0x204000 P = true) : Within M P dz (Dev.encOwner d owner) :=
  hd.andThen (Dev.encOwner_w0 d owner) hm hp

theorem Dev.standLive_w0 (d : Dev) : Within 0x2810400000000000000000000840000000000000000000000000000000000000 0x204000 d (Dev.standLive d) := by
  unfold Dev.standLive
  repeat' first
    | (with_reducible exact Within.refl _)
    | (with_reducible assumption)
    | ((try lift_lets); intro x_; first
      | (refine (fun (hx_ : Within 0x2810400000000000000000000840000000000000000000000000000000000000 0x204000 d x_) => ?rest) ?val; (case' rest => clear_value x_); (case' val => subst x_))
      | (have _t := fun y_ => x_ y_; clear _t; subst x_)
      | (have _t : Dev := x_.1; clear _t; subst x_)
      | (have _t : Dev := x_.2; clear _t; subst x_)
      | (have _t : Dev := x_; clear _t; subst x_)
      | clear_value x_)
    | (with_reducible refine Dev.encOwner_w _ _ ?_ (by decide +kernel) (by decide +kernel))
    | (with_reducible refine Within.putBitAt ?_ _ _ _ (by decide +kernel))
    | (with_reducible refine Within.putBit ?_ _ _ (by decide +kernel))
    | (with_reducible refine Within.putAt ?_ _ _ _ (by decide +kernel))
    | (with_reducible refine Within.put ?_ _ _ (by decide +kernel))
    | (with_reducible refine Within.onStand ?_ _ (by decide +kernel))
    | (with_reducible refine Within.ite ?_ ?_)
    | (intro _ _ _)
    | split
    | dsimp only

theorem Dev.standLive_w (d : Dev) {M P : Nat} {dz : Dev} (hd : Within M P dz d) (hm : inMask 0x2810400000000000000000000840000000000000000000000000000000000000 M = true) (hp : inMask 0x204000 P = true) : Within M P dz (Dev.standLive d) :=
  hd.andThen (Dev.standLive_w0 d) hm hp

theorem Dev.standShow_w0 (d : Dev) : Within 0x7910400000000000000000000840000000000000000000000000000000000000 0x204000 d (Dev.standShow d) := by
  unfold Dev.standShow
  repeat' first
    | (with_reducible exact Within.refl _)
    | (with_reducible assumption)
    | ((try lift_lets); intro x_; first
      | (refine (fun (hx_ : Within 0x7910400000000000000000000840000000000000000000000000000000000000 0x204000 d x_) => ?rest) ?val; (case' rest => clear_value x_); (case' val => subst x_))
      | (have _t := fun y_ => x_ y_; clear _t; subst x_)
      | (have _t : Dev := x_.1; clear _t; subst x_)
      | (have _t : Dev := x_.2; clear _t; subst x_)
      | (have _t : Dev := x_; clear _t; subst x_)
      | clear_value x_)
    | (with_reducible refine Dev.standLive_w _ ?_ (by decide +kernel) (by decide +kernel))
    | (with_reducible refine Within.putBitAt ?_ _ _ _ (by decide +kernel))
    | (with_reducible refine Within.putBit ?_ _ _ (by decide +kernel))
    | (with_reducible refine Within.putAt ?_ _ _ _ (by decide +kernel))
    | (with_reducible refine Within.put ?_ _ _ (by decide +kernel))
    | (with_reducible refine Within.onStand ?_ _ (by decide +kernel))
    | (with_reducible refine Within.ite ?_ ?_)
    | (intro _ _ _)
    | split
    | dsimp only

theorem Dev.standShow_w (d : Dev) {M P : Nat} {dz : Dev} (hd : Within M P dz d) (hm : inMask 0x7910400000000000000000000840000000000000000000000000000000000000 M = true) (hp : inMask 0x204000 P = true) : Within M P dz (Dev.standShow d) :=
  hd.andThen (Dev.standShow_w0 d) hm hp

theorem Dev.showGroup_w0 (d : Dev) (txn : Nat) (phase : Nat) (result : Nat) (okMap : Nat) (failMap : Nat) : Within 0x700000000000000000000000000000000000000000000000000000000000000000 0 d (Dev.showGroup d txn phase result okMap failMap) := by
  unfold Dev.showGroup
  repeat' first
    | (with_reducible exact Within.refl _)
    | (with_reducible assumption)
    | (with_reducible refine Within.putAt ?_ _ _ _ (by decide +kernel))
    | (with_reducible refine Within.put ?_ _ _ (by decide +kernel))
    | (with_reducible refine Within.ite ?_ ?_)
    | (intro _ _ _)
    | split
    | dsimp only

theorem Dev.showGroup_w (d : Dev) (txn : Nat) (phase : Nat) (result : Nat) (okMap : Nat) (failMap : Nat) {M P : Nat} {dz : Dev} (hd : Within M P dz d) (hm : inMask 0x700000000000000000000000000000000000000000000000000000000000000000 M = true) (hp : inMask 0 P = true) : Within M P dz (Dev.showGroup d txn phase result okMap failMap) :=
  hd.andThen (Dev.showGroup_w0 d txn phase result okMap failMap) hm hp

theorem Dev.ctrlUp_w0 (d : Dev) (sub : Nat) (txn : Nat) (content : List Byte) : Within 0 0x300000 d (Dev.ctrlUp d sub txn content) := by
  unfold Dev.ctrlUp
  repeat' first
    | (with_reducible exact Within.refl _)
    | (with_reducible assumption)
    | ((try lift_lets); intro x_; first
      | (refine (fun (hx_ : Within 0 0x300000 d x_) => ?rest) ?val; (case' rest => clear_value x_); (case' val => subst x_))
      | (have _t := fun y_ => x_ y_; clear _t; subst x_)
      | (have _t : Dev := x_.1; clear _t; subst x_)
      | (have _t : Dev := x_.2; clear _t; subst x_)
      | (have _t : Dev := x_; clear _t; subst x_)
      | clear_value x_)
    | (with_reducible refine Dev.pushOwn_w _ _ _ ?_ (by decide +kernel) (by decide +kernel))
    | (with_reducible refine Dev.nextSeq_w2 _ _ ?_ (by decide +kernel) (by decide +kernel))
    | (with_reducible refine Dev.nextSeq_w _ _ _ _ (by assumption) ?_ (by decide +kernel) (by decide +kernel))
    | (with_reducible refine Within.ite ?_ ?_)
    | (intro _ _ _)
    | split
    | dsimp only

theorem Dev.ctrlUp_w (d : Dev) (sub : Nat) (txn : Nat) (content : List Byte) {M P : Nat} {dz : Dev} (hd : Within M P dz d) (hm : inMask 0 M = true) (hp : inMask 0x300000 P = true) : Within M P dz (Dev.ctrlUp d sub txn content) :=
  hd.andThen (Dev.ctrlUp_w0 d sub txn content) hm hp

theorem Dev.groupEnd_w0 (d : Dev) (g : Group) (status : Nat) (detail : Nat) (bitmap : Nat) (aborted : Bool) : Within 0x140010000000000700000000000000000000000000000000000000000000000000000000000000000 0x300030 d (Dev.groupEnd d g status detail bitmap aborted) := by
  unfold Dev.groupEnd
  repeat' first
    | (with_reducible exact Within.refl _)
    | (with_reducible assumption)
    | ((try lift_lets); intro x_; first
      | (refine (fun (hx_ : Within 0x140010000000000700000000000000000000000000000000000000000000000000000000000000000 0x300030 d x_) => ?rest) ?val; (case' rest => clear_value x_); (case' val => subst x_))
      | (have _t := fun y_ => x_ y_; clear _t; subst x_)
      | (have _t : Dev := x_.1; clear _t; subst x_)
      | (have _t : Dev := x_.2; clear _t; subst x_)
      | (have _t : Dev := x_; clear _t; subst x_)
      | clear_value x_)
    | (with_reducible refine Dev.completeAs_w _ _ _ _ _ _ ?_ (by decide +kernel) (by decide +kernel))
    | (with_reducible refine Dev.showGroup_w _ _ _ _ _ _ ?_ (by decide +kernel) (by decide +kernel))
    | (with_reducible refine Dev.ctrlUp_w _ _ _ _ ?_ (by decide +kernel) (by decide +kernel))
    | (with_reducible refine Within.onSec ?_ _ (by decide +kernel))
    | (with_reducible refine Within.onStand ?_ _ (by decide +kernel))
    | (with_reducible refine Within.ite ?_ ?_)
    | (intro _ _ _)
    | split
    | dsimp only

theorem Dev.groupEnd_w (d : Dev) (g : Group) (status : Nat) (detail : Nat) (bitmap : Nat) (aborted : Bool) {M P : Nat} {dz : Dev} (hd : Within M P dz d) (hm : inMask 0x140010000000000700000000000000000000000000000000000000000000000000000000000000000 M = true) (hp : inMask 0x300030 P = true) : Within M P dz (Dev.groupEnd d g status detail bitmap aborted) :=
  hd.andThen (Dev.groupEnd_w0 d g status detail bitmap aborted) hm hp

theorem Dev.groupAbort_w0 (d : Dev) (detail : Nat) (bitmap : Nat) : Within 0x140010000000000700000000000000000000000000000000000000000000000000000000000000000 0x300030 d (Dev.groupAbort d detail bitmap) := by
  unfold Dev.groupAbort
  repeat' first
    | (with_reducible exact Within.refl _)
    | (with_reducible assumption)
    | (with_reducible refine Dev.bcast_w _ _ _ _ ?_ (by decide +kernel) (by decide +kernel))
    | (with_reducible refine Dev.groupEnd_w _ _ _ _ _ _ ?_ (by decide +kernel) (by decide +kernel))
    | (with_reducible refine Within.ite ?_ ?_)
    | (intro _ _ _)
    | split
    | dsimp only

theorem Dev.groupAbort_w (d : Dev) (detail : Nat) (bitmap : Nat) {M P : Nat} {dz : Dev} (hd : Within M P dz d) (hm : inMask 0x140010000000000700000000000000000000000000000000000000000000000000000000000000000 M = true) (hp : inMask 0x300030 P = true) : Within M P dz (Dev.groupAbort d detail bitmap) :=
  hd.andThen (Dev.groupAbort_w0 d detail bitmap) hm hp

theorem Dev.groupCheck_w0 (d : Dev) : Within 0x140010000000000700000000000000000000000000000000000000000000000000000000000000000 0x300030 d (Dev.groupCheck d) := by
  unfold Dev.groupCheck
  repeat' first
    | (with_reducible exact Within.refl _)
    | (with_reducible assumption)
    | ((try lift_lets); intro x_; first
      | (refine (fun (hx_ : Within 0x140010000000000700000000000000000000000000000000000000000000000000000000000000000 0x300030 d x_) => ?rest) ?val; (case' rest => clear_value x_); (case' val => subst x_))
      | (have _t := fun y_ => x_ y_; clear _t; subst x_)
      | (have _t : Dev := x_.1; clear _t; subst x_)
      | (have _t : Dev := x_.2; clear _t; subst x_)
      | (have _t : Dev := x_; clear _t; subst x_)
      | clear_value x_)
    | (with_reducible refine Dev.ok_w _ _ _ ?_ (by decide +kernel) (by decide +kernel))
    | (with_reducible refine Dev.groupEnd_w _ _ _ _ _ _ ?_ (by decide +kernel) (by decide +kernel))
    | (with_reducible refine Within.ite ?_ ?_)
    | (intro _ _ _)
    | split
    | dsimp only

theorem Dev.groupCheck_w (d : Dev) {M P : Nat} {dz : Dev} (hd : Within M P dz d) (hm : inMask 0x140010000000000700000000000000000000000000000000000000000000000000000000000000000 M = true) (hp : inMask 0x300030 P = true) : Within M P dz (Dev.groupCheck d) :=
  hd.andThen (Dev.groupCheck_w0 d) hm hp

theorem Dev.groupFail_w0 (d : Dev) (slots : Nat) (status : Nat) : Within 0x140010000000000708000000000000000000000000000000000000000000000000000000000000000 0x300030 d (Dev.groupFail d slots status) := by
  unfold Dev.groupFail
  repeat' first
    | (with_reducible exact Within.refl _)
    | (with_reducible assumption)
    | ((try lift_lets); intro x_; first
      | (refine (fun (hx_ : Within 0x140010000000000708000000000000000000000000000000000000000000000000000000000000000 0x300030 d x_) => ?rest) ?val; (case' rest => clear_value x_); (case' val => subst x_))
      | (have _t := fun y_ => x_ y_; clear _t; subst x_)
      | (have _t : Dev := x_.1; clear _t; subst x_)
      | (have _t : Dev := x_.2; clear _t; subst x_)
      | (have _t : Dev := x_; clear _t; subst x_)
      | clear_value x_)
    | (with_reducible refine Dev.groupCheck_w _ ?_ (by decide +kernel) (by decide +kernel))
    | (with_reducible refine Within.putAt ?_ _ _ _ (by decide +kernel))
    | (with_reducible refine Within.put ?_ _ _ (by decide +kernel))
    | (with_reducible refine Within.onStand ?_ _ (by decide +kernel))
    | (with_reducible refine Within.ite ?_ ?_)
    | (intro _ _ _)
    | split
    | dsimp only

theorem Dev.groupFail_w (d : Dev) (slots : Nat) (status : Nat) {M P : Nat} {dz : Dev} (hd : Within M P dz d) (hm : inMask 0x140010000000000708000000000000000000000000000000000000000000000000000000000000000 M = true) (hp : inMask 0x300030 P = true) : Within M P dz (Dev.groupFail d slots status) :=
  hd.andThen (Dev.groupFail_w0 d slots status) hm hp

theorem Dev.groupEpoch_w0 (d : Dev) (dead : Nat) : Within 0x140010000000000708000000000000000000000000000000000000000000000000000000000000000 0x300030 d (Dev.groupEpoch d dead) := by
  unfold Dev.groupEpoch
  repeat' first
    | (with_reducible exact Within.refl _)
    | (with_reducible assumption)
    | (with_reducible refine Dev.groupAbort_w _ _ _ ?_ (by decide +kernel) (by decide +kernel))
    | (with_reducible refine Dev.groupFail_w _ _ _ ?_ (by decide +kernel) (by decide +kernel))
    | (with_reducible refine Within.ite ?_ ?_)
    | (intro _ _ _)
    | split
    | dsimp only

theorem Dev.groupEpoch_w (d : Dev) (dead : Nat) {M P : Nat} {dz : Dev} (hd : Within M P dz d) (hm : inMask 0x140010000000000708000000000000000000000000000000000000000000000000000000000000000 M = true) (hp : inMask 0x300030 P = true) : Within M P dz (Dev.groupEpoch d dead) :=
  hd.andThen (Dev.groupEpoch_w0 d dead) hm hp

theorem Dev.sendMap_w0 (d : Dev) (m : StandMap) (epoch : Nat) (ver : Nat) : Within 0 0x300000 d (Dev.sendMap d m epoch ver) := by
  unfold Dev.sendMap
  repeat' first
    | (with_reducible exact Within.refl _)
    | (with_reducible assumption)
    | ((try lift_lets); intro x_; first
      | (refine (fun (hx_ : Within 0 0x300000 d x_) => ?rest) ?val; (case' rest => clear_value x_); (case' val => subst x_))
      | (have _t := fun y_ => x_ y_; clear _t; subst x_)
      | (have _t : Dev := x_.1; clear _t; subst x_)
      | (have _t : Dev := x_.2; clear _t; subst x_)
      | (have _t : Dev := x_; clear _t; subst x_)
      | clear_value x_)
    | (with_reducible refine Dev.bcast_w _ _ _ _ ?_ (by decide +kernel) (by decide +kernel))
    | (with_reducible refine Within.onStand ?_ _ (by decide +kernel))
    | (with_reducible refine Within.foldl ?_ _ _ ?_)
    | (with_reducible refine Within.ite ?_ ?_)
    | (intro _ _ _)
    | split
    | dsimp only

theorem Dev.sendMap_w (d : Dev) (m : StandMap) (epoch : Nat) (ver : Nat) {M P : Nat} {dz : Dev} (hd : Within M P dz d) (hm : inMask 0 M = true) (hp : inMask 0x300000 P = true) : Within M P dz (Dev.sendMap d m epoch ver) :=
  hd.andThen (Dev.sendMap_w0 d m epoch ver) hm hp

theorem Dev.keepEpoch_w0 (d : Dev) : Within 0x100000000000000000000000000000000000000000000000000000000000000000000000000000000000000 0x200040 d (Dev.keepEpoch d) := by
  unfold Dev.keepEpoch
  repeat' first
    | (with_reducible exact Within.refl _)
    | (with_reducible assumption)
    | ((try lift_lets); intro x_; first
      | (refine (fun (hx_ : Within 0x100000000000000000000000000000000000000000000000000000000000000000000000000000000000000 0x200040 d x_) => ?rest) ?val; (case' rest => clear_value x_); (case' val => subst x_))
      | (have _t := fun y_ => x_ y_; clear _t; subst x_)
      | (have _t : Dev := x_.1; clear _t; subst x_)
      | (have _t : Dev := x_.2; clear _t; subst x_)
      | (have _t : Dev := x_; clear _t; subst x_)
      | clear_value x_)
    | (with_reducible refine Dev.keepPush_w _ _ _ ?_ (by decide +kernel) (by decide +kernel))
    | (with_reducible refine Within.onStand ?_ _ (by decide +kernel))
    | (with_reducible refine Within.ite ?_ ?_)
    | (intro _ _ _)
    | split
    | dsimp only

theorem Dev.keepEpoch_w (d : Dev) {M P : Nat} {dz : Dev} (hd : Within M P dz d) (hm : inMask 0x100000000000000000000000000000000000000000000000000000000000000000000000000000000000000 M = true) (hp : inMask 0x200040 P = true) : Within M P dz (Dev.keepEpoch d) :=
  hd.andThen (Dev.keepEpoch_w0 d) hm hp

theorem Dev.takeMap_w0 (d : Dev) (m : StandMap) (epoch : Nat) (ver : Nat) : Within 0x100000000000000000000007970400000000000000000000840000000000000000000000000000000000000 0x204040 d (Dev.takeMap d m epoch ver) := by
  unfold Dev.takeMap
  repeat' first
    | (with_reducible exact Within.refl _)
    | (with_reducible assumption)
    | ((try lift_lets); intro x_; first
      | (refine (fun (hx_ : Within 0x100000000000000000000007970400000000000000000000840000000000000000000000000000000000000 0x204040 d x_) => ?rest) ?val; (case' rest => clear_value x_); (case' val => subst x_))
      | (have _t := fun y_ => x_ y_; clear _t; subst x_)
      | (have _t : Dev := x_.1; clear _t; subst x_)
      | (have _t : Dev := x_.2; clear _t; subst x_)
      | (have _t : Dev := x_; clear _t; subst x_)
      | clear_value x_)
    | (with_reducible refine Dev.freshQdr_w _ _ _ ?_ (by decide +kernel) (by decide +kernel))
    | (with_reducible refine Dev.standShow_w _ ?_ (by decide +kernel) (by decide +kernel))
    | (with_reducible refine Dev.keepEpoch_w _ ?_ (by decide +kernel) (by decide +kernel))
    | (with_reducible refine Within.putAt ?_ _ _ _ (by decide +kernel))
    | (with_reducible refine Within.put ?_ _ _ (by decide +kernel))
    | (with_reducible refine Within.onStand ?_ _ (by decide +kernel))
    | (with_reducible refine Within.ite ?_ ?_)
    | (intro _ _ _)
    | split
    | dsimp only

theorem Dev.takeMap_w (d : Dev) (m : StandMap) (epoch : Nat) (ver : Nat) {M P : Nat} {dz : Dev} (hd : Within M P dz d) (hm : inMask 0x100000000000000000000007970400000000000000000000840000000000000000000000000000000000000 M = true) (hp : inMask 0x204040 P = true) : Within M P dz (Dev.takeMap d m epoch ver) :=
  hd.andThen (Dev.takeMap_w0 d m epoch ver) hm hp

theorem Dev.epochChange_w0 (d : Dev) (m : StandMap) (dead : Nat) : Within 0x10000014001000000000078F970400000000000000000000840000000000000000000000000000000000000 0x304070 d (Dev.epochChange d m dead) := by
  unfold Dev.epochChange
  repeat' first
    | (with_reducible exact Within.refl _)
    | (with_reducible assumption)
    | ((try lift_lets); intro x_; first
      | (refine (fun (hx_ : Within 0x10000014001000000000078F970400000000000000000000840000000000000000000000000000000000000 0x304070 d x_) => ?rest) ?val; (case' rest => clear_value x_); (case' val => subst x_))
      | (have _t := fun y_ => x_ y_; clear _t; subst x_)
      | (have _t : Dev := x_.1; clear _t; subst x_)
      | (have _t : Dev := x_.2; clear _t; subst x_)
      | (have _t : Dev := x_; clear _t; subst x_)
      | clear_value x_)
    | (with_reducible refine Dev.groupEpoch_w _ _ ?_ (by decide +kernel) (by decide +kernel))
    | (with_reducible refine Dev.sendMap_w _ _ _ _ ?_ (by decide +kernel) (by decide +kernel))
    | (with_reducible refine Dev.takeMap_w _ _ _ _ ?_ (by decide +kernel) (by decide +kernel))
    | (with_reducible refine Within.incAt ?_ _ _ (by decide +kernel))
    | (with_reducible refine Within.inc ?_ _ (by decide +kernel))
    | (with_reducible refine Within.ite ?_ ?_)
    | (intro _ _ _)
    | split
    | dsimp only

theorem Dev.epochChange_w (d : Dev) (m : StandMap) (dead : Nat) {M P : Nat} {dz : Dev} (hd : Within M P dz d) (hm : inMask 0x10000014001000000000078F970400000000000000000000840000000000000000000000000000000000000 M = true) (hp : inMask 0x304070 P = true) : Within M P dz (Dev.epochChange d m dead) :=
  hd.andThen (Dev.epochChange_w0 d m dead) hm hp

theorem Dev.dropOwn_w0 (d : Dev) (types : List Nat) : Within 0 0x300000 d (Dev.dropOwn d types) := by
  unfold Dev.dropOwn
  repeat' first
    | (with_reducible exact Within.refl _)
    | (with_reducible assumption)
    | ((try lift_lets); intro x_; first
      | (refine (fun (hx_ : Within 0 0x300000 d x_) => ?rest) ?val; (case' rest => clear_value x_); (case' val => subst x_))
      | (have _t := fun y_ => x_ y_; clear _t; subst x_)
      | (have _t : Dev := x_.1; clear _t; subst x_)
      | (have _t : Dev := x_.2; clear _t; subst x_)
      | (have _t : Dev := x_; clear _t; subst x_)
      | clear_value x_)
    | (with_reducible refine Dev.putPort_w _ _ _ ?_ (by decide +kernel) (by decide +kernel))
    | (with_reducible refine Within.onStand ?_ _ (by decide +kernel))
    | (with_reducible refine Within.foldl ?_ _ _ ?_)
    | (with_reducible refine Within.ite ?_ ?_)
    | (intro _ _ _)
    | split
    | dsimp only

theorem Dev.dropOwn_w (d : Dev) (types : List Nat) {M P : Nat} {dz : Dev} (hd : Within M P dz d) (hm : inMask 0 M = true) (hp : inMask 0x300000 P = true) : Within M P dz (Dev.dropOwn d types) :=
  hd.andThen (Dev.dropOwn_w0 d types) hm hp

theorem Dev.revenant_w0 (d : Dev) (epoch : Nat) : Within 0x300B80100000140010000000000700030400000000000000000000000000000000000000003000000000000000000 0x3248F0 d (Dev.revenant d epoch) := by
  unfold Dev.revenant
  repeat' first
    | (with_reducible exact Within.refl _)
    | (with_reducible assumption)
    | ((try lift_lets); intro x_; first
      | (refine (fun (hx_ : Within 0x300B80100000140010000000000700030400000000000000000000000000000000000000003000000000000000000 0x3248F0 d x_) => ?rest) ?val; (case' rest => clear_value x_); (case' val => subst x_))
      | (have _t := fun y_ => x_ y_; clear _t; subst x_)
      | (have _t : Dev := x_.1; clear _t; subst x_)
      | (have _t : Dev := x_.2; clear _t; subst x_)
      | (have _t : Dev := x_; clear _t; subst x_)
      | clear_value x_)
    | (with_reducible refine Dev.framesMove_w _ _ _ ?_ (by decide +kernel) (by decide +kernel))
    | (with_reducible refine Dev.startSelfTest_w _ _ _ _ ?_ (by decide +kernel) (by decide +kernel))
    | (with_reducible refine Dev.groupAbort_w _ _ _ ?_ (by decide +kernel) (by decide +kernel))
    | (with_reducible refine Dev.keepEpoch_w _ ?_ (by decide +kernel) (by decide +kernel))
    | (with_reducible refine Dev.dropOwn_w _ _ ?_ (by decide +kernel) (by decide +kernel))
    | (with_reducible refine Within.putBitAt ?_ _ _ _ (by decide +kernel))
    | (with_reducible refine Within.putBit ?_ _ _ (by decide +kernel))
    | (with_reducible refine Within.putAt ?_ _ _ _ (by decide +kernel))
    | (with_reducible refine Within.put ?_ _ _ (by decide +kernel))
    | (with_reducible refine Within.onWeb ?_ _ (by decide +kernel))
    | (with_reducible refine Within.onProof ?_ _ (by decide +kernel))
    | (with_reducible refine Within.onStand ?_ _ (by decide +kernel))
    | (with_reducible refine Within.foldl ?_ _ _ ?_)
    | (with_reducible refine Within.ite ?_ ?_)
    | (intro _ _ _)
    | split
    | dsimp only

theorem Dev.revenant_w (d : Dev) (epoch : Nat) {M P : Nat} {dz : Dev} (hd : Within M P dz d) (hm : inMask 0x300B80100000140010000000000700030400000000000000000000000000000000000000003000000000000000000 M = true) (hp : inMask 0x3248F0 P = true) : Within M P dz (Dev.revenant d epoch) :=
  hd.andThen (Dev.revenant_w0 d epoch) hm hp

theorem heartSend_w0 (d : Dev) : Within 0x2810400000000000000000000840000000000000000000000000000000000000 0x304000 d (heartSend d) := by
  unfold heartSend
  repeat' first
    | (with_reducible exact Within.refl _)
    | (with_reducible assumption)
    | ((try lift_lets); intro x_; first
      | (refine (fun (hx_ : Within 0x2810400000000000000000000840000000000000000000000000000000000000 0x304000 d x_) => ?rest) ?val; (case' rest => clear_value x_); (case' val => subst x_))
      | (have _t := fun y_ => x_ y_; clear _t; subst x_)
      | (have _t : Dev := x_.1; clear _t; subst x_)
      | (have _t : Dev := x_.2; clear _t; subst x_)
      | (have _t : Dev := x_; clear _t; subst x_)
      | clear_value x_)
    | (with_reducible refine Dev.pushOwn_w _ _ _ ?_ (by decide +kernel) (by decide +kernel))
    | (with_reducible refine Dev.bcast_w _ _ _ _ ?_ (by decide +kernel) (by decide +kernel))
    | (with_reducible refine Dev.standLive_w _ ?_ (by decide +kernel) (by decide +kernel))
    | (with_reducible refine Dev.nextSeq_w2 _ _ ?_ (by decide +kernel) (by decide +kernel))
    | (with_reducible refine Dev.nextSeq_w _ _ _ _ (by assumption) ?_ (by decide +kernel) (by decide +kernel))
    | (with_reducible refine Within.ite ?_ ?_)
    | (intro _ _ _)
    | split
    | dsimp only

theorem heartSend_w (d : Dev) {M P : Nat} {dz : Dev} (hd : Within M P dz d) (hm : inMask 0x2810400000000000000000000840000000000000000000000000000000000000 M = true) (hp : inMask 0x304000 P = true) : Within M P dz (heartSend d) :=
  hd.andThen (heartSend_w0 d) hm hp

theorem Dev.countRevenant_w0 (d : Dev) (h : Heard) (before : Option Heard) : Within 0x80B80100000000000000000000020000000000000000000000000000000000000000000000000000000000000000 0xD0 d (Dev.countRevenant d h before) := by
  unfold Dev.countRevenant
  repeat' first
    | (with_reducible exact Within.refl _)
    | (with_reducible assumption)
    | ((try lift_lets); intro x_; first
      | (refine (fun (hx_ : Within 0x80B80100000000000000000000020000000000000000000000000000000000000000000000000000000000000000 0xD0 d x_) => ?rest) ?val; (case' rest => clear_value x_); (case' val => subst x_))
      | (have _t := fun y_ => x_ y_; clear _t; subst x_)
      | (have _t : Dev := x_.1; clear _t; subst x_)
      | (have _t : Dev := x_.2; clear _t; subst x_)
      | (have _t : Dev := x_; clear _t; subst x_)
      | clear_value x_)
    | (with_reducible refine Dev.event_w _ _ _ ?_ (by decide +kernel) (by decide +kernel))
    | (with_reducible refine Within.incAt ?_ _ _ (by decide +kernel))
    | (with_reducible refine Within.inc ?_ _ (by decide +kernel))
    | (with_reducible refine Within.ite ?_ ?_)
    | (intro _ _ _)
    | split
    | dsimp only

theorem Dev.countRevenant_w (d : Dev) (h : Heard) (before : Option Heard) {M P : Nat} {dz : Dev} (hd : Within M P dz d) (hm : inMask 0x80B80100000000000000000000020000000000000000000000000000000000000000000000000000000000000000 M = true) (hp : inMask 0xD0 P = true) : Within M P dz (Dev.countRevenant d h before) :=
  hd.andThen (Dev.countRevenant_w0 d h before) hm hp

theorem Dev.degradedHeart_w0 (d : Dev) (h : Heard) : Within 0x8000000000000000000000000000000000000000000000000000000000000000 0x200000 d (Dev.degradedHeart d h) := by
  unfold Dev.degradedHeart
  repeat' first
    | (with_reducible exact Within.refl _)
    | (with_reducible assumption)
    | (with_reducible refine Within.putAt ?_ _ _ _ (by decide +kernel))
    | (with_reducible refine Within.put ?_ _ _ (by decide +kernel))
    | (with_reducible refine Within.onStand ?_ _ (by decide +kernel))
    | (with_reducible refine Within.ite ?_ ?_)
    | (intro _ _ _)
    | split
    | dsimp only

theorem Dev.degradedHeart_w (d : Dev) (h : Heard) {M P : Nat} {dz : Dev} (hd : Within M P dz d) (hm : inMask 0x8000000000000000000000000000000000000000000000000000000000000000 M = true) (hp : inMask 0x200000 P = true) : Within M P dz (Dev.degradedHeart d h) :=
  hd.andThen (Dev.degradedHeart_w0 d h) hm hp

theorem Dev.rootHeart_w0 (d : Dev) (h : Heard) : Within 0x300B80100000140010000000000700030400000000000000000000000000000000000000003000000000000000000 0x3248F0 d (Dev.rootHeart d h) := by
  unfold Dev.rootHeart
  repeat' first
    | (with_reducible exact Within.refl _)
    | (with_reducible assumption)
    | ((try lift_lets); intro x_; first
      | (refine (fun (hx_ : Within 0x300B80100000140010000000000700030400000000000000000000000000000000000000003000000000000000000 0x3248F0 d x_) => ?rest) ?val; (case' rest => clear_value x_); (case' val => subst x_))
      | (have _t := fun y_ => x_ y_; clear _t; subst x_)
      | (have _t : Dev := x_.1; clear _t; subst x_)
      | (have _t : Dev := x_.2; clear _t; subst x_)
      | (have _t : Dev := x_; clear _t; subst x_)
      | clear_value x_)
    | (with_reducible refine Dev.revenant_w _ _ ?_ (by decide +kernel) (by decide +kernel))
    | (with_reducible refine Within.onStand ?_ _ (by decide +kernel))
    | (with_reducible refine Within.ite ?_ ?_)
    | (intro _ _ _)
    | split
    | dsimp only

theorem Dev.rootHeart_w (d : Dev) (h : Heard) {M P : Nat} {dz : Dev} (hd : Within M P dz d) (hm : inMask 0x300B80100000140010000000000700030400000000000000000000000000000000000000003000000000000000000 M = true) (hp : inMask 0x3248F0 P = true) : Within M P dz (Dev.rootHeart d h) :=
  hd.andThen (Dev.rootHeart_w0 d h) hm hp

theorem heartReceive_w0 (p : Nat) (fl : Flit) (d : Dev) : Within 0x380B8010000014001000000000072A030400000000000000000000000000000000000000003000000000000000000 0x3248F0 d (heartReceive p fl d) := by
  unfold heartReceive
  repeat' first
    | (with_reducible exact Within.refl _)
    | (with_reducible assumption)
    | ((try lift_lets); intro x_; first
      | (refine (fun (hx_ : Within 0x380B8010000014001000000000072A030400000000000000000000000000000000000000003000000000000000000 0x3248F0 d x_) => ?rest) ?val; (case' rest => clear_value x_); (case' val => subst x_))
      | (have _t := fun y_ => x_ y_; clear _t; subst x_)
      | (have _t : Dev := x_.1; clear _t; subst x_)
      | (have _t : Dev := x_.2; clear _t; subst x_)
      | (have _t : Dev := x_; clear _t; subst x_)
      | clear_value x_)
    | (with_reducible refine Dev.countRevenant_w _ _ _ ?_ (by decide +kernel) (by decide +kernel))
    | (with_reducible refine Dev.degradedHeart_w _ _ ?_ (by decide +kernel) (by decide +kernel))
    | (with_reducible refine Dev.rootHeart_w _ _ ?_ (by decide +kernel) (by decide +kernel))
    | (with_reducible refine Within.putBitAt ?_ _ _ _ (by decide +kernel))
    | (with_reducible refine Within.putBit ?_ _ _ (by decide +kernel))
    | (with_reducible refine Within.putAt ?_ _ _ _ (by decide +kernel))
    | (with_reducible refine Within.put ?_ _ _ (by decide +kernel))
    | (with_reducible refine Within.onStand ?_ _ (by decide +kernel))
    | (with_reducible refine Within.ite ?_ ?_)
    | (intro _ _ _)
    | split
    | dsimp only

theorem heartReceive_w (p : Nat) (fl : Flit) (d : Dev) {M P : Nat} {dz : Dev} (hd : Within M P dz d) (hm : inMask 0x380B8010000014001000000000072A030400000000000000000000000000000000000000003000000000000000000 M = true) (hp : inMask 0x3248F0 P = true) : Within M P dz (heartReceive p fl d) :=
  hd.andThen (heartReceive_w0 p fl d) hm hp

theorem Dev.sendRoutes_w0 (d : Dev) (order : List Nat) : Within 0x9E00000000000000000000000000000000000000000000000000000 0x300000 d (Dev.sendRoutes d order) := by
  unfold Dev.sendRoutes
  repeat' first
    | (with_reducible exact Within.refl _)
    | (with_reducible assumption)
    | ((try lift_lets); intro x_; first
      | (refine (fun (hx_ : Within 0x9E00000000000000000000000000000000000000000000000000000 0x300000 d x_) => ?rest) ?val; (case' rest => clear_value x_); (case' val => subst x_))
      | (have _t := fun y_ => x_ y_; clear _t; subst x_)
      | (have _t : Dev := x_.1; clear _t; subst x_)
      | (have _t : Dev := x_.2; clear _t; subst x_)
      | (have _t : Dev := x_; clear _t; subst x_)
      | clear_value x_)
    | (with_reducible refine Dev.bcast_w _ _ _ _ ?_ (by decide +kernel) (by decide +kernel))
    | (with_reducible refine routeRing_w _ _ ?_ (by decide +kernel) (by decide +kernel))
    | (with_reducible refine Within.foldl ?_ _ _ ?_)
    | (with_reducible refine Within.ite ?_ ?_)
    | (intro _ _ _)
    | split
    | dsimp only

theorem Dev.sendRoutes_w (d : Dev) (order : List Nat) {M P : Nat} {dz : Dev} (hd : Within M P dz d) (hm : inMask 0x9E00000000000000000000000000000000000000000000000000000 M = true) (hp : inMask 0x300000 P = true) : Within M P dz (Dev.sendRoutes d order) :=
  hd.andThen (Dev.sendRoutes_w0 d order) hm hp

theorem Dev.relist_w0 (d : Dev) : Within 0x9E00000000000000000000000000000000000000000000000000000 0x300000 d (Dev.relist d) := by
  unfold Dev.relist
  repeat' first
    | (with_reducible exact Within.refl _)
    | (with_reducible assumption)
    | ((try lift_lets); intro x_; first
      | (refine (fun (hx_ : Within 0x9E00000000000000000000000000000000000000000000000000000 0x300000 d x_) => ?rest) ?val; (case' rest => clear_value x_); (case' val => subst x_))
      | (have _t := fun y_ => x_ y_; clear _t; subst x_)
      | (have _t : Dev := x_.1; clear _t; subst x_)
      | (have _t : Dev := x_.2; clear _t; subst x_)
      | (have _t : Dev := x_; clear _t; subst x_)
      | clear_value x_)
    | (with_reducible refine Dev.sendRoutes_w _ _ ?_ (by decide +kernel) (by decide +kernel))
    | (with_reducible refine Within.ite ?_ ?_)
    | (intro _ _ _)
    | split
    | dsimp only

theorem Dev.relist_w (d : Dev) {M P : Nat} {dz : Dev} (hd : Within M P dz d) (hm : inMask 0x9E00000000000000000000000000000000000000000000000000000 M = true) (hp : inMask 0x300000 P = true) : Within M P dz (Dev.relist d) :=
  hd.andThen (Dev.relist_w0 d) hm hp

theorem Dev.deaths_w0 (d : Dev) : Within 0x80B8010000014001000000000079F970400000000000000000000840000000000000000000000000000000000000 0x3040F0 d (Dev.deaths d) := by
  unfold Dev.deaths
  repeat' first
    | (with_reducible exact Within.refl _)
    | (with_reducible assumption)
    | ((try lift_lets); intro x_; first
      | (refine (fun (hx_ : Within 0x80B8010000014001000000000079F970400000000000000000000840000000000000000000000000000000000000 0x3040F0 d x_) => ?rest) ?val; (case' rest => clear_value x_); (case' val => subst x_))
      | (have _t := fun y_ => x_ y_; clear _t; subst x_)
      | (have _t : Dev := x_.1; clear _t; subst x_)
      | (have _t : Dev := x_.2; clear _t; subst x_)
      | (have _t : Dev := x_; clear _t; subst x_)
      | clear_value x_)
    | (with_reducible refine Dev.event_w _ _ _ ?_ (by decide +kernel) (by decide +kernel))
    | (with_reducible refine Dev.epochChange_w _ _ _ ?_ (by decide +kernel) (by decide +kernel))
    | (with_reducible refine Within.incAt ?_ _ _ (by decide +kernel))
    | (with_reducible refine Within.inc ?_ _ (by decide +kernel))
    | (with_reducible refine Within.onStand ?_ _ (by decide +kernel))
    | (with_reducible refine Within.foldl ?_ _ _ ?_)
    | (with_reducible refine Within.ite ?_ ?_)
    | (intro _ _ _)
    | split
    | dsimp only

theorem Dev.deaths_w (d : Dev) {M P : Nat} {dz : Dev} (hd : Within M P dz d) (hm : inMask 0x80B8010000014001000000000079F970400000000000000000000840000000000000000000000000000000000000 M = true) (hp : inMask 0x3040F0 P = true) : Within M P dz (Dev.deaths d) :=
  hd.andThen (Dev.deaths_w0 d) hm hp

theorem Dev.applyMapWait_w0 (d : Dev) : Within 0x10000014001000000050078F970400008E00000000000000840000000000000000000000000000000000000 0x304070 d (Dev.applyMapWait d) := by
  unfold Dev.applyMapWait
  repeat' first
    | (with_reducible exact Within.refl _)
    | (with_reducible assumption)
    | ((try lift_lets); intro x_; first
      | (refine (fun (hx_ : Within 0x10000014001000000050078F970400008E00000000000000840000000000000000000000000000000000000 0x304070 d x_) => ?rest) ?val; (case' rest => clear_value x_); (case' val => subst x_))
      | (have _t := fun y_ => x_ y_; clear _t; subst x_)
      | (have _t : Dev := x_.1; clear _t; subst x_)
      | (have _t : Dev := x_.2; clear _t; subst x_)
      | (have _t : Dev := x_; clear _t; subst x_)
      | clear_value x_)
    | (with_reducible refine Dev.ok_w _ _ _ ?_ (by decide +kernel) (by decide +kernel))
    | (with_reducible refine Dev.completeK_w _ _ _ _ _ ?_ (by decide +kernel) (by decide +kernel))
    | (with_reducible refine Dev.trimReset_w _ ?_ (by decide +kernel) (by decide +kernel))
    | (with_reducible refine Dev.reroute_w _ ?_ (by decide +kernel) (by decide +kernel))
    | (with_reducible refine Dev.epochChange_w _ _ _ ?_ (by decide +kernel) (by decide +kernel))
    | (with_reducible refine Within.putAt ?_ _ _ _ (by decide +kernel))
    | (with_reducible refine Within.put ?_ _ _ (by decide +kernel))
    | (with_reducible refine Within.onLink ?_ _ (by decide +kernel))
    | (with_reducible refine Within.onStand ?_ _ (by decide +kernel))
    | (with_reducible refine Within.ite ?_ ?_)
    | (intro _ _ _)
    | split
    | dsimp only

theorem Dev.applyMapWait_w (d : Dev) {M P : Nat} {dz : Dev} (hd : Within M P dz d) (hm : inMask 0x10000014001000000050078F970400008E00000000000000840000000000000000000000000000000000000 M = true) (hp : inMask 0x304070 P = true) : Within M P dz (Dev.applyMapWait d) :=
  hd.andThen (Dev.applyMapWait_w0 d) hm hp

theorem membership_w0 (d : Dev) : Within 0x80B8010000014001000000050079F970400009E00000000000000840000000000000000000000000000000000000 0x3040F0 d (membership d) := by
  unfold membership
  repeat' first
    | (with_reducible exact Within.refl _)
    | (with_reducible assumption)
    | ((try lift_lets); intro x_; first
      | (refine (fun (hx_ : Within 0x80B8010000014001000000050079F970400009E00000000000000840000000000000000000000000000000000000 0x3040F0 d x_) => ?rest) ?val; (case' rest => clear_value x_); (case' val => subst x_))
      | (have _t := fun y_ => x_ y_; clear _t; subst x_)
      | (have _t : Dev := x_.1; clear _t; subst x_)
      | (have _t : Dev := x_.2; clear _t; subst x_)
      | (have _t : Dev := x_; clear _t; subst x_)
      | clear_value x_)
    | (with_reducible refine Dev.standLive_w _ ?_ (by decide +kernel) (by decide +kernel))
    | (with_reducible refine Dev.epochChange_w _ _ _ ?_ (by decide +kernel) (by decide +kernel))
    | (with_reducible refine Dev.relist_w _ ?_ (by decide +kernel) (by decide +kernel))
    | (with_reducible refine Dev.deaths_w _ ?_ (by decide +kernel) (by decide +kernel))
    | (with_reducible refine Dev.applyMapWait_w _ ?_ (by decide +kernel) (by decide +kernel))
    | (with_reducible refine Within.ite ?_ ?_)
    | (intro _ _ _)
    | split
    | dsimp only

theorem membership_w (d : Dev) {M P : Nat} {dz : Dev} (hd : Within M P dz d) (hm : inMask 0x80B8010000014001000000050079F970400009E00000000000000840000000000000000000000000000000000000 M = true) (hp : inMask 0x3040F0 P = true) : Within M P dz (membership d) :=
  hd.andThen (membership_w0 d) hm hp

theorem mapRepeat_w0 (d : Dev) : Within 0 0x300000 d (mapRepeat d) := by
  unfold mapRepeat
  repeat' first
    | (with_reducible exact Within.refl _)
    | (with_reducible assumption)
    | (with_reducible refine Dev.sendMap_w _ _ _ _ ?_ (by decide +kernel) (by decide +kernel))
    | (with_reducible refine Within.ite ?_ ?_)
    | (intro _ _ _)
    | split
    | dsimp only

theorem mapRepeat_w (d : Dev) {M P : Nat} {dz : Dev} (hd : Within M P dz d) (hm : inMask 0 M = true) (hp : inMask 0x300000 P = true) : Within M P dz (mapRepeat d) :=
  hd.andThen (mapRepeat_w0 d) hm hp

theorem Dev.adoptMap_w0 (d : Dev) (src : Nat) (x : MapRx) (h : Nat × Nat × Nat × Nat) : Within 0x300B80100000140010000000000707970400000000000000000000840000000000000000003000000000000000000 0x3248F0 d (Dev.adoptMap d src x h) := by
  unfold Dev.adoptMap
  repeat' first
    | (with_reducible exact Within.refl _)
    | (with_reducible assumption)
    | ((try lift_lets); intro x_; first
      | (refine (fun (hx_ : Within 0x300B80100000140010000000000707970400000000000000000000840000000000000000003000000000000000000 0x3248F0 d x_) => ?rest) ?val; (case' rest => clear_value x_); (case' val => subst x_))
      | (have _t := fun y_ => x_ y_; clear _t; subst x_)
      | (have _t : Dev := x_.1; clear _t; subst x_)
      | (have _t : Dev := x_.2; clear _t; subst x_)
      | (have _t : Dev := x_; clear _t; subst x_)
      | clear_value x_)
    | (with_reducible refine Dev.takeMap_w _ _ _ _ ?_ (by decide +kernel) (by decide +kernel))
    | (with_reducible refine Dev.revenant_w _ _ ?_ (by decide +kernel) (by decide +kernel))
    | (with_reducible refine Within.putAt ?_ _ _ _ (by decide +kernel))
    | (with_reducible refine Within.put ?_ _ _ (by decide +kernel))
    | (with_reducible refine Within.onStand ?_ _ (by decide +kernel))
    | (with_reducible refine Within.ite ?_ ?_)
    | (intro _ _ _)
    | split
    | dsimp only

theorem Dev.adoptMap_w (d : Dev) (src : Nat) (x : MapRx) (h : Nat × Nat × Nat × Nat) {M P : Nat} {dz : Dev} (hd : Within M P dz d) (hm : inMask 0x300B80100000140010000000000707970400000000000000000000840000000000000000003000000000000000000 M = true) (hp : inMask 0x3248F0 P = true) : Within M P dz (Dev.adoptMap d src x h) :=
  hd.andThen (Dev.adoptMap_w0 d src x h) hm hp

theorem mapReceive_w0 (fl : Flit) (d : Dev) : Within 0x300B80100000140010000000000707970400000000000000000000840000000000000000003000000000000000000 0x3248F0 d (mapReceive fl d) := by
  unfold mapReceive
  repeat' first
    | (with_reducible exact Within.refl _)
    | (with_reducible assumption)
    | ((try lift_lets); intro x_; first
      | (refine (fun (hx_ : Within 0x300B80100000140010000000000707970400000000000000000000840000000000000000003000000000000000000 0x3248F0 d x_) => ?rest) ?val; (case' rest => clear_value x_); (case' val => subst x_))
      | (have _t := fun y_ => x_ y_; clear _t; subst x_)
      | (have _t : Dev := x_.1; clear _t; subst x_)
      | (have _t : Dev := x_.2; clear _t; subst x_)
      | (have _t : Dev := x_; clear _t; subst x_)
      | clear_value x_)
    | (with_reducible refine Dev.adoptMap_w _ _ _ _ ?_ (by decide +kernel) (by decide +kernel))
    | (with_reducible refine Within.onStand ?_ _ (by decide +kernel))
    | (with_reducible refine Within.ite ?_ ?_)
    | (intro _ _ _)
    | split
    | dsimp only

theorem mapReceive_w (fl : Flit) (d : Dev) {M P : Nat} {dz : Dev} (hd : Within M P dz d) (hm : inMask 0x300B80100000140010000000000707970400000000000000000000840000000000000000003000000000000000000 M = true) (hp : inMask 0x3248F0 P = true) : Within M P dz (mapReceive fl d) :=
  hd.andThen (mapReceive_w0 fl d) hm hp

theorem takeover_w0 (d : Dev) : Within 0x80B801000001400100000000007CF970440009E00000000000000840000000000000000000000000000000000000 0x3040F0 d (takeover d) := by
  unfold takeover
  repeat' first
    | (with_reducible exact Within.refl _)
    | (with_reducible assumption)
    | ((try lift_lets); intro x_; first
      | (refine (fun (hx_ : Within 0x80B801000001400100000000007CF970440009E00000000000000840000000000000000000000000000000000000 0x3040F0 d x_) => ?rest) ?val; (case' rest => clear_value x_); (case' val => subst x_))
      | (have _t := fun y_ => x_ y_; clear _t; subst x_)
      | (have _t : Dev := x_.1; clear _t; subst x_)
      | (have _t : Dev := x_.2; clear _t; subst x_)
      | (have _t : Dev := x_; clear _t; subst x_)
      | clear_value x_)
    | (with_reducible refine Dev.event_w _ _ _ ?_ (by decide +kernel) (by decide +kernel))
    | (with_reducible refine Dev.epochChange_w _ _ _ ?_ (by decide +kernel) (by decide +kernel))
    | (with_reducible refine Dev.sendRoutes_w _ _ ?_ (by decide +kernel) (by decide +kernel))
    | (with_reducible refine Within.putBitAt ?_ _ _ _ (by decide +kernel))
    | (with_reducible refine Within.putBit ?_ _ _ (by decide +kernel))
    | (with_reducible refine Within.incAt ?_ _ _ (by decide +kernel))
    | (with_reducible refine Within.inc ?_ _ (by decide +kernel))
    | (with_reducible refine Within.onLink ?_ _ (by decide +kernel))
    | (with_reducible refine Within.onStand ?_ _ (by decide +kernel))
    | (with_reducible refine Within.ite ?_ ?_)
    | (intro _ _ _)
    | split
    | dsimp only

theorem takeover_w (d : Dev) {M P : Nat} {dz : Dev} (hd : Within M P dz d) (hm : inMask 0x80B801000001400100000000007CF970440009E00000000000000840000000000000000000000000000000000000 M = true) (hp : inMask 0x3040F0 P = true) : Within M P dz (takeover d) :=
  hd.andThen (takeover_w0 d) hm hp

theorem rootResume_w0 (d : Dev) : Within 0x9E00000000000000000000000000000000000000000000000000000 0x300000 d (rootResume d) := by
  unfold rootResume
  repeat' first
    | (with_reducible exact Within.refl _)
    | (with_reducible assumption)
    | ((try lift_lets); intro x_; first
      | (refine (fun (hx_ : Within 0x9E00000000000000000000000000000000000000000000000000000 0x300000 d x_) => ?rest) ?val; (case' rest => clear_value x_); (case' val => subst x_))
      | (have _t := fun y_ => x_ y_; clear _t; subst x_)
      | (have _t : Dev := x_.1; clear _t; subst x_)
      | (have _t : Dev := x_.2; clear _t; subst x_)
      | (have _t : Dev := x_; clear _t; subst x_)
      | clear_value x_)
    | (with_reducible refine Dev.sendMap_w _ _ _ _ ?_ (by decide +kernel) (by decide +kernel))
    | (with_reducible refine Dev.sendRoutes_w _ _ ?_ (by decide +kernel) (by decide +kernel))
    | (with_reducible refine Within.onStand ?_ _ (by decide +kernel))
    | (with_reducible refine Within.ite ?_ ?_)
    | (intro _ _ _)
    | split
    | dsimp only

theorem rootResume_w (d : Dev) {M P : Nat} {dz : Dev} (hd : Within M P dz d) (hm : inMask 0x9E00000000000000000000000000000000000000000000000000000 M = true) (hp : inMask 0x300000 P = true) : Within M P dz (rootResume d) :=
  hd.andThen (rootResume_w0 d) hm hp

theorem channelSend_w0 (d : Dev) : Within 0 0x300000 d (channelSend d) := by
  unfold channelSend
  repeat' first
    | (with_reducible exact Within.refl _)
    | (with_reducible assumption)
    | ((try lift_lets); intro x_; first
      | (refine (fun (hx_ : Within 0 0x300000 d x_) => ?rest) ?val; (case' rest => clear_value x_); (case' val => subst x_))
      | (have _t := fun y_ => x_ y_; clear _t; subst x_)
      | (have _t : Dev := x_.1; clear _t; subst x_)
      | (have _t : Dev := x_.2; clear _t; subst x_)
      | (have _t : Dev := x_; clear _t; subst x_)
      | clear_value x_)
    | (with_reducible refine Dev.bcast_w _ _ _ _ ?_ (by decide +kernel) (by decide +kernel))
    | (with_reducible refine Within.foldl ?_ _ _ ?_)
    | (with_reducible refine Within.ite ?_ ?_)
    | (intro _ _ _)
    | split
    | dsimp only

theorem channelSend_w (d : Dev) {M P : Nat} {dz : Dev} (hd : Within M P dz d) (hm : inMask 0 M = true) (hp : inMask 0x300000 P = true) : Within M P dz (channelSend d) :=
  hd.andThen (channelSend_w0 d) hm hp

theorem channelTake_w0 (fl : Flit) (d : Dev) : Within 0 0x200000 d (channelTake fl d) := by
  unfold channelTake
  repeat' first
    | (with_reducible exact Within.refl _)
    | (with_reducible assumption)
    | ((try lift_lets); intro x_; first
      | (refine (fun (hx_ : Within 0 0x200000 d x_) => ?rest) ?val; (case' rest => clear_value x_); (case' val => subst x_))
      | (have _t := fun y_ => x_ y_; clear _t; subst x_)
      | (have _t : Dev := x_.1; clear _t; subst x_)
      | (have _t : Dev := x_.2; clear _t; subst x_)
      | (have _t : Dev := x_; clear _t; subst x_)
      | clear_value x_)
    | (with_reducible refine Dev.putChan_w _ _ ?_ (by decide +kernel) (by decide +kernel))
    | (with_reducible refine Within.ite ?_ ?_)
    | (intro _ _ _)
    | split
    | dsimp only

theorem channelTake_w (fl : Flit) (d : Dev) {M P : Nat} {dz : Dev} (hd : Within M P dz d) (hm : inMask 0 M = true) (hp : inMask 0x200000 P = true) : Within M P dz (channelTake fl d) :=
  hd.andThen (channelTake_w0 fl d) hm hp

theorem doStandMapSet_w0 (c : Cmd) (d : Dev) : Within 0x140010000000000000000000000000000000000000000000000000000000000000000000000000000 0x200030 d (doStandMapSet c d) := by
  unfold doStandMapSet
  repeat' first
    | (with_reducible exact Within.refl _)
    | (with_reducible assumption)
    | ((try lift_lets); intro x_; first
      | (refine (fun (hx_ : Within 0x140010000000000000000000000000000000000000000000000000000000000000000000000000000 0x200030 d x_) => ?rest) ?val; (case' rest => clear_value x_); (case' val => subst x_))
      | (have _t := fun y_ => x_ y_; clear _t; subst x_)
      | (have _t : Dev := x_.1; clear _t; subst x_)
      | (have _t : Dev := x_.2; clear _t; subst x_)
      | (have _t : Dev := x_; clear _t; subst x_)
      | clear_value x_)
    | (with_reducible refine Dev.complete_w _ _ _ _ _ ?_ (by decide +kernel) (by decide +kernel))
    | (with_reducible refine Within.onStand ?_ _ (by decide +kernel))
    | (with_reducible refine Within.ite ?_ ?_)
    | (intro _ _ _)
    | split
    | dsimp only

theorem doStandMapSet_w (c : Cmd) (d : Dev) {M P : Nat} {dz : Dev} (hd : Within M P dz d) (hm : inMask 0x140010000000000000000000000000000000000000000000000000000000000000000000000000000 M = true) (hp : inMask 0x200030 P = true) : Within M P dz (doStandMapSet c d) :=
  hd.andThen (doStandMapSet_w0 c d) hm hp

theorem doRoleSet_w0 (c : Cmd) (d : Dev) : Within 0x10000014001000000000078F970400000000000000000000840000000000000000000000000000000000000 0x304070 d (doRoleSet c d) := by
  unfold doRoleSet
  repeat' first
    | (with_reducible exact Within.refl _)
    | (with_reducible assumption)
    | ((try lift_lets); intro x_; first
      | (refine (fun (hx_ : Within 0x10000014001000000000078F970400000000000000000000840000000000000000000000000000000000000 0x304070 d x_) => ?rest) ?val; (case' rest => clear_value x_); (case' val => subst x_))
      | (have _t := fun y_ => x_ y_; clear _t; subst x_)
      | (have _t : Dev := x_.1; clear _t; subst x_)
      | (have _t : Dev := x_.2; clear _t; subst x_)
      | (have _t : Dev := x_; clear _t; subst x_)
      | clear_value x_)
    | (with_reducible refine Dev.complete_w _ _ _ _ _ ?_ (by decide +kernel) (by decide +kernel))
    | (with_reducible refine Dev.ok_w _ _ _ ?_ (by decide +kernel) (by decide +kernel))
    | (with_reducible refine Dev.epochChange_w _ _ _ ?_ (by decide +kernel) (by decide +kernel))
    | (with_reducible refine Within.ite ?_ ?_)
    | (intro _ _ _)
    | split
    | dsimp only

theorem doRoleSet_w (c : Cmd) (d : Dev) {M P : Nat} {dz : Dev} (hd : Within M P dz d) (hm : inMask 0x10000014001000000000078F970400000000000000000000840000000000000000000000000000000000000 M = true) (hp : inMask 0x304070 P = true) : Within M P dz (doRoleSet c d) :=
  hd.andThen (doRoleSet_w0 c d) hm hp

theorem Dev.tokenGrant_w0 (d : Dev) : Within 0 0x320000 d (Dev.tokenGrant d) := by
  unfold Dev.tokenGrant
  repeat' first
    | (with_reducible exact Within.refl _)
    | (with_reducible assumption)
    | ((try lift_lets); intro x_; first
      | (refine (fun (hx_ : Within 0 0x320000 d x_) => ?rest) ?val; (case' rest => clear_value x_); (case' val => subst x_))
      | (have _t := fun y_ => x_ y_; clear _t; subst x_)
      | (have _t : Dev := x_.1; clear _t; subst x_)
      | (have _t : Dev := x_.2; clear _t; subst x_)
      | (have _t : Dev := x_; clear _t; subst x_)
      | clear_value x_)
    | (with_reducible refine Dev.bcast_w _ _ _ _ ?_ (by decide +kernel) (by decide +kernel))
    | (with_reducible refine Within.onProof ?_ _ (by decide +kernel))
    | (with_reducible refine Within.onStand ?_ _ (by decide +kernel))
    | (with_reducible refine Within.foldl ?_ _ _ ?_)
    | (with_reducible refine Within.ite ?_ ?_)
    | (intro _ _ _)
    | split
    | dsimp only

theorem Dev.tokenGrant_w (d : Dev) {M P : Nat} {dz : Dev} (hd : Within M P dz d) (hm : inMask 0 M = true) (hp : inMask 0x320000 P = true) : Within M P dz (Dev.tokenGrant d) :=
  hd.andThen (Dev.tokenGrant_w0 d) hm hp

theorem Dev.tokenAsk_w0 (d : Dev) (s : Nat) : Within 0 0x200000 d (Dev.tokenAsk d s) := by
  unfold Dev.tokenAsk
  repeat' first
    | (with_reducible exact Within.refl _)
    | (with_reducible assumption)
    | (with_reducible refine Within.onStand ?_ _ (by decide +kernel))
    | (with_reducible refine Within.ite ?_ ?_)
    | (intro _ _ _)
    | split
    | dsimp only

theorem Dev.tokenAsk_w (d : Dev) (s : Nat) {M P : Nat} {dz : Dev} (hd : Within M P dz d) (hm : inMask 0 M = true) (hp : inMask 0x200000 P = true) : Within M P dz (Dev.tokenAsk d s) :=
  hd.andThen (Dev.tokenAsk_w0 d s) hm hp

theorem Dev.tokenWait_w0 (d : Dev) : Within 0 0x300000 d (Dev.tokenWait d) := by
  unfold Dev.tokenWait
  repeat' first
    | (with_reducible exact Within.refl _)
    | (with_reducible assumption)
    | (with_reducible refine Dev.toRoot_w _ _ _ _ ?_ (by decide +kernel) (by decide +kernel))
    | (with_reducible refine Dev.tokenAsk_w _ _ ?_ (by decide +kernel) (by decide +kernel))
    | (with_reducible refine Within.onStand ?_ _ (by decide +kernel))
    | (with_reducible refine Within.ite ?_ ?_)
    | (intro _ _ _)
    | split
    | dsimp only

theorem Dev.tokenWait_w (d : Dev) {M P : Nat} {dz : Dev} (hd : Within M P dz d) (hm : inMask 0 M = true) (hp : inMask 0x300000 P = true) : Within M P dz (Dev.tokenWait d) :=
  hd.andThen (Dev.tokenWait_w0 d) hm hp

theorem tokenFlit_w0 (fl : Flit) (d : Dev) : Within 0 0x220000 d (tokenFlit fl d) := by
  unfold tokenFlit
  repeat' first
    | (with_reducible exact Within.refl _)
    | (with_reducible assumption)
    | ((try lift_lets); intro x_; first
      | (refine (fun (hx_ : Within 0 0x220000 d x_) => ?rest) ?val; (case' rest => clear_value x_); (case' val => subst x_))
      | (have _t := fun y_ => x_ y_; clear _t; subst x_)
      | (have _t : Dev := x_.1; clear _t; subst x_)
      | (have _t : Dev := x_.2; clear _t; subst x_)
      | (have _t : Dev := x_; clear _t; subst x_)
      | clear_value x_)
    | (with_reducible refine Dev.tokenAsk_w _ _ ?_ (by decide +kernel) (by decide +kernel))
    | (with_reducible refine Within.onProof ?_ _ (by decide +kernel))
    | (with_reducible refine Within.onStand ?_ _ (by decide +kernel))
    | (with_reducible refine Within.ite ?_ ?_)
    | (intro _ _ _)
    | split
    | dsimp only

theorem tokenFlit_w (fl : Flit) (d : Dev) {M P : Nat} {dz : Dev} (hd : Within M P dz d) (hm : inMask 0 M = true) (hp : inMask 0x220000 P = true) : Within M P dz (tokenFlit fl d) :=
  hd.andThen (tokenFlit_w0 fl d) hm hp

theorem tokenWithdraw_w0 (d : Dev) : Within 0 0x200000 d (tokenWithdraw d) := by
  unfold tokenWithdraw
  repeat' first
    | (with_reducible exact Within.refl _)
    | (with_reducible assumption)
    | ((try lift_lets); intro x_; first
      | (refine (fun (hx_ : Within 0 0x200000 d x_) => ?rest) ?val; (case' rest => clear_value x_); (case' val => subst x_))
      | (have _t := fun y_ => x_ y_; clear _t; subst x_)
      | (have _t : Dev := x_.1; clear _t; subst x_)
      | (have _t : Dev := x_.2; clear _t; subst x_)
      | (have _t : Dev := x_; clear _t; subst x_)
      | clear_value x_)
    | (with_reducible refine Within.onStand ?_ _ (by decide +kernel))
    | (with_reducible refine Within.ite ?_ ?_)
    | (intro _ _ _)
    | split
    | dsimp only

theorem tokenWithdraw_w (d : Dev) {M P : Nat} {dz : Dev} (hd : Within M P dz d) (hm : inMask 0 M = true) (hp : inMask 0x200000 P = true) : Within M P dz (tokenWithdraw d) :=
  hd.andThen (tokenWithdraw_w0 d) hm hp

theorem gladeSend_w0 (d : Dev) : Within 0 0x300000 d (gladeSend d) := by
  unfold gladeSend
  repeat' first
    | (with_reducible exact Within.refl _)
    | (with_reducible assumption)
    | ((try lift_lets); intro x_; first
      | (refine (fun (hx_ : Within 0 0x300000 d x_) => ?rest) ?val; (case' rest => clear_value x_); (case' val => subst x_))
      | (have _t := fun y_ => x_ y_; clear _t; subst x_)
      | (have _t : Dev := x_.1; clear _t; subst x_)
      | (have _t : Dev := x_.2; clear _t; subst x_)
      | (have _t : Dev := x_; clear _t; subst x_)
      | clear_value x_)
    | (with_reducible refine Dev.bcast_w _ _ _ _ ?_ (by decide +kernel) (by decide +kernel))
    | (with_reducible refine Within.onStand ?_ _ (by decide +kernel))
    | (with_reducible refine Within.ite ?_ ?_)
    | (intro _ _ _)
    | split
    | dsimp only

theorem gladeSend_w (d : Dev) {M P : Nat} {dz : Dev} (hd : Within M P dz d) (hm : inMask 0 M = true) (hp : inMask 0x300000 P = true) : Within M P dz (gladeSend d) :=
  hd.andThen (gladeSend_w0 d) hm hp

theorem gladeTake_w0 (fl : Flit) (d : Dev) : Within 0x80B8010000000000000000000000000000000000000000000000000021C0008C0000000000001000004000040000 0x65BD0 d (gladeTake fl d) := by
  unfold gladeTake
  repeat' first
    | (with_reducible exact Within.refl _)
    | (with_reducible assumption)
    | ((try lift_lets); intro x_; first
      | (refine (fun (hx_ : Within 0x80B8010000000000000000000000000000000000000000000000000021C0008C0000000000001000004000040000 0x65BD0 d x_) => ?rest) ?val; (case' rest => clear_value x_); (case' val => subst x_))
      | (have _t := fun y_ => x_ y_; clear _t; subst x_)
      | (have _t : Dev := x_.1; clear _t; subst x_)
      | (have _t : Dev := x_.2; clear _t; subst x_)
      | (have _t : Dev := x_; clear _t; subst x_)
      | clear_value x_)
    | (with_reducible refine Dev.gladeEval_w _ ?_ (by decide +kernel) (by decide +kernel))
    | (with_reducible refine Dev.relayBegin_w _ _ ?_ (by decide +kernel) (by decide +kernel))
    | (with_reducible refine Dev.relayEnd_w _ _ ?_ (by decide +kernel) (by decide +kernel))
    | (with_reducible refine Within.ite ?_ ?_)
    | (intro _ _ _)
    | split
    | dsimp only

theorem gladeTake_w (fl : Flit) (d : Dev) {M P : Nat} {dz : Dev} (hd : Within M P dz d) (hm : inMask 0x80B8010000000000000000000000000000000000000000000000000021C0008C0000000000001000004000040000 M = true) (hp : inMask 0x65BD0 P = true) : Within M P dz (gladeTake fl d) :=
  hd.andThen (gladeTake_w0 fl d) hm hp

theorem doNop_w0 (c : Cmd) (d : Dev) : Within 0x140010000000000000000000000000000000000000000000000000000000000000000000000000000 0x30 d (doNop c d) := by
  unfold doNop
  repeat' first
    | (with_reducible exact Within.refl _)
    | (with_reducible assumption)
    | (with_reducible refine Dev.ok_w _ _ _ ?_ (by decide +kernel) (by decide +kernel))
    | (with_reducible refine Within.ite ?_ ?_)
    | (intro _ _ _)
    | split
    | dsimp only

theorem doNop_w (c : Cmd) (d : Dev) {M P : Nat} {dz : Dev} (hd : Within M P dz d) (hm : inMask 0x140010000000000000000000000000000000000000000000000000000000000000000000000000000 M = true) (hp : inMask 0x30 P = true) : Within M P dz (doNop c d) :=
  hd.andThen (doNop_w0 c d) hm hp

theorem Dev.doneIn_w0 (d : Dev) (slot : Nat) (txn : Nat) (status : Nat) : Within 0x140010000000000708000000000000000000000000000000000000000000000000000000000000000 0x300030 d (Dev.doneIn d slot txn status) := by
  unfold Dev.doneIn
  repeat' first
    | (with_reducible exact Within.refl _)
    | (with_reducible assumption)
    | ((try lift_lets); intro x_; first
      | (refine (fun (hx_ : Within 0x140010000000000708000000000000000000000000000000000000000000000000000000000000000 0x300030 d x_) => ?rest) ?val; (case' rest => clear_value x_); (case' val => subst x_))
      | (have _t := fun y_ => x_ y_; clear _t; subst x_)
      | (have _t : Dev := x_.1; clear _t; subst x_)
      | (have _t : Dev := x_.2; clear _t; subst x_)
      | (have _t : Dev := x_; clear _t; subst x_)
      | clear_value x_)
    | (with_reducible refine Dev.groupCheck_w _ ?_ (by decide +kernel) (by decide +kernel))
    | (with_reducible refine Dev.groupFail_w _ _ _ ?_ (by decide +kernel) (by decide +kernel))
    | (with_reducible refine Within.putAt ?_ _ _ _ (by decide +kernel))
    | (with_reducible refine Within.put ?_ _ _ (by decide +kernel))
    | (with_reducible refine Within.onStand ?_ _ (by decide +kernel))
    | (with_reducible refine Within.ite ?_ ?_)
    | (intro _ _ _)
    | split
    | dsimp only

theorem Dev.doneIn_w (d : Dev) (slot : Nat) (txn : Nat) (status : Nat) {M P : Nat} {dz : Dev} (hd : Within M P dz d) (hm : inMask 0x140010000000000708000000000000000000000000000000000000000000000000000000000000000 M = true) (hp : inMask 0x300030 P = true) : Within M P dz (Dev.doneIn d slot txn status) :=
  hd.andThen (Dev.doneIn_w0 d slot txn status) hm hp

theorem Dev.sendDone_w0 (d : Dev) (txn : Nat) (status : Nat) : Within 0x140010000000000708000000000000000000000000000000000000000000000000000000000000000 0x300030 d (Dev.sendDone d txn status) := by
  unfold Dev.sendDone
  repeat' first
    | (with_reducible exact Within.refl _)
    | (with_reducible assumption)
    | (with_reducible refine Dev.toRoot_w _ _ _ _ ?_ (by decide +kernel) (by decide +kernel))
    | (with_reducible refine Dev.doneIn_w _ _ _ _ ?_ (by decide +kernel) (by decide +kernel))
    | (with_reducible refine Within.ite ?_ ?_)
    | (intro _ _ _)
    | split
    | dsimp only

theorem Dev.sendDone_w (d : Dev) (txn : Nat) (status : Nat) {M P : Nat} {dz : Dev} (hd : Within M P dz d) (hm : inMask 0x140010000000000708000000000000000000000000000000000000000000000000000000000000000 M = true) (hp : inMask 0x300030 P = true) : Within M P dz (Dev.sendDone d txn status) :=
  hd.andThen (Dev.sendDone_w0 d txn status) hm hp

theorem Dev.flushDones_w0 (d : Dev) : Within 0x140010000000000708000000000000000000000000000000000000000000000000000000000000000 0x300030 d (Dev.flushDones d) := by
  unfold Dev.flushDones
  repeat' first
    | (with_reducible exact Within.refl _)
    | (with_reducible assumption)
    | ((try lift_lets); intro x_; first
      | (refine (fun (hx_ : Within 0x140010000000000708000000000000000000000000000000000000000000000000000000000000000 0x300030 d x_) => ?rest) ?val; (case' rest => clear_value x_); (case' val => subst x_))
      | (have _t := fun y_ => x_ y_; clear _t; subst x_)
      | (have _t : Dev := x_.1; clear _t; subst x_)
      | (have _t : Dev := x_.2; clear _t; subst x_)
      | (have _t : Dev := x_; clear _t; subst x_)
      | clear_value x_)
    | (with_reducible refine Dev.sendDone_w _ _ _ ?_ (by decide +kernel) (by decide +kernel))
    | (with_reducible refine Within.onSec ?_ _ (by decide +kernel))
    | (with_reducible refine Within.onStand ?_ _ (by decide +kernel))
    | (with_reducible refine Within.foldl ?_ _ _ ?_)
    | (with_reducible refine Within.ite ?_ ?_)
    | (intro _ _ _)
    | split
    | dsimp only

theorem Dev.flushDones_w (d : Dev) {M P : Nat} {dz : Dev} (hd : Within M P dz d) (hm : inMask 0x140010000000000708000000000000000000000000000000000000000000000000000000000000000 M = true) (hp : inMask 0x300030 P = true) : Within M P dz (Dev.flushDones d) :=
  hd.andThen (Dev.flushDones_w0 d) hm hp

theorem sendAuth_w0 (entry : List Byte) (data : List Byte) (txn : Nat) (slot : Nat) (d : Dev) : Within 0x2000000000800000000000000000000000000000000000000000000000000000000000000000000000000800 0x301040 d (sendAuth entry data txn slot d) := by
  unfold sendAuth
  repeat' first
    | (with_reducible exact Within.refl _)
    | (with_reducible assumption)
    | ((try lift_lets); intro x_; first
      | (refine (fun (hx_ : Within 0x2000000000800000000000000000000000000000000000000000000000000000000000000000000000000800 0x301040 d x_) => ?rest) ?val; (case' rest => clear_value x_); (case' val => subst x_))
      | (have _t := fun y_ => x_ y_; clear _t; subst x_)
      | (have _t : Dev := x_.1; clear _t; subst x_)
      | (have _t : Dev := x_.2; clear _t; subst x_)
      | (have _t : Dev := x_; clear _t; subst x_)
      | clear_value x_)
    | (with_reducible refine Dev.tallyInc_w _ _ ?_ (by decide +kernel) (by decide +kernel))
    | (with_reducible refine Dev.wake_w _ _ ?_ (by decide +kernel) (by decide +kernel))
    | (with_reducible refine Dev.bcastMsg_w _ _ _ ?_ (by decide +kernel) (by decide +kernel))
    | (with_reducible refine Within.incAt ?_ _ _ (by decide +kernel))
    | (with_reducible refine Within.inc ?_ _ (by decide +kernel))
    | (with_reducible refine Within.ite ?_ ?_)
    | (intro _ _ _)
    | split
    | dsimp only

theorem sendAuth_w (entry : List Byte) (data : List Byte) (txn : Nat) (slot : Nat) (d : Dev) {M P : Nat} {dz : Dev} (hd : Within M P dz d) (hm : inMask 0x2000000000800000000000000000000000000000000000000000000000000000000000000000000000000800 M = true) (hp : inMask 0x301040 P = true) : Within M P dz (sendAuth entry data txn slot d) :=
  hd.andThen (sendAuth_w0 entry data txn slot d) hm hp

theorem Dev.answerVote_w0 (d : Dev) (txn : Nat) (v : Vote) (entry : List Byte) (data : List Byte) : Within 0x140010000000000000000000000000000000000000000000000000000000000000000000000000000 0x300030 d (Dev.answerVote d txn v entry data) := by
  unfold Dev.answerVote
  repeat' first
    | (with_reducible exact Within.refl _)
    | (with_reducible assumption)
    | ((try lift_lets); intro x_; first
      | (refine (fun (hx_ : Within 0x140010000000000000000000000000000000000000000000000000000000000000000000000000000 0x300030 d x_) => ?rest) ?val; (case' rest => clear_value x_); (case' val => subst x_))
      | (have _t := fun y_ => x_ y_; clear _t; subst x_)
      | (have _t : Dev := x_.1; clear _t; subst x_)
      | (have _t : Dev := x_.2; clear _t; subst x_)
      | (have _t : Dev := x_; clear _t; subst x_)
      | clear_value x_)
    | (with_reducible refine Dev.ok_w _ _ _ ?_ (by decide +kernel) (by decide +kernel))
    | (with_reducible refine Dev.toRoot_w _ _ _ _ ?_ (by decide +kernel) (by decide +kernel))
    | (with_reducible refine Within.onStand ?_ _ (by decide +kernel))
    | (with_reducible refine Within.ite ?_ ?_)
    | (intro _ _ _)
    | split
    | dsimp only

theorem Dev.answerVote_w (d : Dev) (txn : Nat) (v : Vote) (entry : List Byte) (data : List Byte) {M P : Nat} {dz : Dev} (hd : Within M P dz d) (hm : inMask 0x140010000000000000000000000000000000000000000000000000000000000000000000000000000 M = true) (hp : inMask 0x300030 P = true) : Within M P dz (Dev.answerVote d txn v entry data) :=
  hd.andThen (Dev.answerVote_w0 d txn v entry data) hm hp

theorem prepTimeout_w0 (d : Dev) : Within 0x140010000000000700000000000000000000000000000000000000000000000000000000000000000 0x300030 d (prepTimeout d) := by
  unfold prepTimeout
  repeat' first
    | (with_reducible exact Within.refl _)
    | (with_reducible assumption)
    | (with_reducible refine Dev.ok_w _ _ _ ?_ (by decide +kernel) (by decide +kernel))
    | (with_reducible refine Dev.groupAbort_w _ _ _ ?_ (by decide +kernel) (by decide +kernel))
    | (with_reducible refine Within.ite ?_ ?_)
    | (intro _ _ _)
    | split
    | dsimp only

theorem prepTimeout_w (d : Dev) {M P : Nat} {dz : Dev} (hd : Within M P dz d) (hm : inMask 0x140010000000000700000000000000000000000000000000000000000000000000000000000000000 M = true) (hp : inMask 0x300030 P = true) : Within M P dz (prepTimeout d) :=
  hd.andThen (prepTimeout_w0 d) hm hp

theorem abortIn_w0 (fl : Flit) (d : Dev) : Within 0x140010000000000700000000000000000000000000000000000000000000000000000000000000000 0x300030 d (abortIn fl d) := by
  unfold abortIn
  repeat' first
    | (with_reducible exact Within.refl _)
    | (with_reducible assumption)
    | ((try lift_lets); intro x_; first
      | (refine (fun (hx_ : Within 0x140010000000000700000000000000000000000000000000000000000000000000000000000000000 0x300030 d x_) => ?rest) ?val; (case' rest => clear_value x_); (case' val => subst x_))
      | (have _t := fun y_ => x_ y_; clear _t; subst x_)
      | (have _t : Dev := x_.1; clear _t; subst x_)
      | (have _t : Dev := x_.2; clear _t; subst x_)
      | (have _t : Dev := x_; clear _t; subst x_)
      | clear_value x_)
    | (with_reducible refine Dev.groupAbort_w _ _ _ ?_ (by decide +kernel) (by decide +kernel))
    | (with_reducible refine Within.onStand ?_ _ (by decide +kernel))
    | (with_reducible refine Within.ite ?_ ?_)
    | (intro _ _ _)
    | split
    | dsimp only

theorem abortIn_w (fl : Flit) (d : Dev) {M P : Nat} {dz : Dev} (hd : Within M P dz d) (hm : inMask 0x140010000000000700000000000000000000000000000000000000000000000000000000000000000 M = true) (hp : inMask 0x300030 P = true) : Within M P dz (abortIn fl d) :=
  hd.andThen (abortIn_w0 fl d) hm hp

theorem doneRx_w0 (fl : Flit) (d : Dev) : Within 0x140010000000000708000000000000000000000000000000000000000000000000000000000000000 0x300030 d (doneRx fl d) := by
  unfold doneRx
  repeat' first
    | (with_reducible exact Within.refl _)
    | (with_reducible assumption)
    | (with_reducible refine Dev.doneIn_w _ _ _ _ ?_ (by decide +kernel) (by decide +kernel))
    | (with_reducible refine Within.ite ?_ ?_)
    | (intro _ _ _)
    | split
    | dsimp only

theorem doneRx_w (fl : Flit) (d : Dev) {M P : Nat} {dz : Dev} (hd : Within M P dz d) (hm : inMask 0x140010000000000708000000000000000000000000000000000000000000000000000000000000000 M = true) (hp : inMask 0x300030 P = true) : Within M P dz (doneRx fl d) :=
  hd.andThen (doneRx_w0 fl d) hm hp

theorem commitTimeout_w0 (d : Dev) : Within 0x140010000000000708000000000000000000000000000000000000000000000000000000000000000 0x300030 d (commitTimeout d) := by
  unfold commitTimeout
  repeat' first
    | (with_reducible exact Within.refl _)
    | (with_reducible assumption)
    | ((try lift_lets); intro x_; first
      | (refine (fun (hx_ : Within 0x140010000000000708000000000000000000000000000000000000000000000000000000000000000 0x300030 d x_) => ?rest) ?val; (case' rest => clear_value x_); (case' val => subst x_))
      | (have _t := fun y_ => x_ y_; clear _t; subst x_)
      | (have _t : Dev := x_.1; clear _t; subst x_)
      | (have _t : Dev := x_.2; clear _t; subst x_)
      | (have _t : Dev := x_; clear _t; subst x_)
      | clear_value x_)
    | (with_reducible refine Dev.groupAbort_w _ _ _ ?_ (by decide +kernel) (by decide +kernel))
    | (with_reducible refine Dev.groupFail_w _ _ _ ?_ (by decide +kernel) (by decide +kernel))
    | (with_reducible refine Within.onStand ?_ _ (by decide +kernel))
    | (with_reducible refine Within.ite ?_ ?_)
    | (intro _ _ _)
    | split
    | dsimp only

theorem commitTimeout_w (d : Dev) {M P : Nat} {dz : Dev} (hd : Within M P dz d) (hm : inMask 0x140010000000000708000000000000000000000000000000000000000000000000000000000000000 M = true) (hp : inMask 0x300030 P = true) : Within M P dz (commitTimeout d) :=
  hd.andThen (commitTimeout_w0 d) hm hp

theorem Dev.keepRegs_w0 (d : Dev) (l : List (Nat × Word)) : Within 0 0x40 d (Dev.keepRegs d l) := by
  unfold Dev.keepRegs
  repeat' first
    | (with_reducible exact Within.refl _)
    | (with_reducible assumption)
    | (with_reducible refine Within.onStore ?_ _ (by decide +kernel))
    | (with_reducible refine Within.ite ?_ ?_)
    | (intro _ _ _)
    | split
    | dsimp only

theorem Dev.keepRegs_w (d : Dev) (l : List (Nat × Word)) {M P : Nat} {dz : Dev} (hd : Within M P dz d) (hm : inMask 0 M = true) (hp : inMask 0x40 P = true) : Within M P dz (Dev.keepRegs d l) :=
  hd.andThen (Dev.keepRegs_w0 d l) hm hp

theorem Dev.showKey_w0 (d : Dev) (slot : Nat) : Within 0x40000000000000000000000000000000000000000000000000000000000000000000000000000 0 d (Dev.showKey d slot) := by
  unfold Dev.showKey
  repeat' first
    | (with_reducible exact Within.refl _)
    | (with_reducible assumption)
    | (with_reducible refine Within.putBitAt ?_ _ _ _ (by decide +kernel))
    | (with_reducible refine Within.putBit ?_ _ _ (by decide +kernel))
    | (with_reducible refine Within.putAt ?_ _ _ _ (by decide +kernel))
    | (with_reducible refine Within.put ?_ _ _ (by decide +kernel))
    | (with_reducible refine Within.ite ?_ ?_)
    | (intro _ _ _)
    | split
    | dsimp only

theorem Dev.showKey_w (d : Dev) (slot : Nat) {M P : Nat} {dz : Dev} (hd : Within M P dz d) (hm : inMask 0x40000000000000000000000000000000000000000000000000000000000000000000000000000 M = true) (hp : inMask 0 P = true) : Within M P dz (Dev.showKey d slot) :=
  hd.andThen (Dev.showKey_w0 d slot) hm hp

theorem Dev.setKey_w0 (d : Dev) (slot : Nat) (x : Option Key) : Within 0x40000000000000000000000000000000000000000000000000000000000000000000000000000 0x20 d (Dev.setKey d slot x) := by
  unfold Dev.setKey
  repeat' first
    | (with_reducible exact Within.refl _)
    | (with_reducible assumption)
    | (with_reducible refine Dev.showKey_w _ _ ?_ (by decide +kernel) (by decide +kernel))
    | (with_reducible refine Within.onSec ?_ _ (by decide +kernel))
    | (with_reducible refine Within.ite ?_ ?_)
    | (intro _ _ _)
    | split
    | dsimp only

theorem Dev.setKey_w (d : Dev) (slot : Nat) (x : Option Key) {M P : Nat} {dz : Dev} (hd : Within M P dz d) (hm : inMask 0x40000000000000000000000000000000000000000000000000000000000000000000000000000 M = true) (hp : inMask 0x20 P = true) : Within M P dz (Dev.setKey d slot x) :=
  hd.andThen (Dev.setKey_w0 d slot x) hm hp

theorem commitKeep_w0 (w : KeepWhat) (d : Dev) : Within 0x1000000080B80100000140050000000000000000000000000000000000000000000000000000000000000000000000000000 0x7004F0 d (commitKeep w d) := by
  unfold commitKeep
  repeat' first
    | (with_reducible exact Within.refl _)
    | (with_reducible assumption)
    | ((try lift_lets); intro x_; first
      | (refine (fun (hx_ : Within 0x1000000080B80100000140050000000000000000000000000000000000000000000000000000000000000000000000000000 0x7004F0 d x_) => ?rest) ?val; (case' rest => clear_value x_); (case' val => subst x_))
      | (have _t := fun y_ => x_ y_; clear _t; subst x_)
      | (have _t : Dev := x_.1; clear _t; subst x_)
      | (have _t : Dev := x_.2; clear _t; subst x_)
      | (have _t : Dev := x_; clear _t; subst x_)
      | clear_value x_)
    | (with_reducible refine Dev.event_w _ _ _ ?_ (by decide +kernel) (by decide +kernel))
    | (with_reducible refine Dev.ok_w _ _ _ ?_ (by decide +kernel) (by decide +kernel))
    | (with_reducible refine Dev.completeK_w _ _ _ _ _ ?_ (by decide +kernel) (by decide +kernel))
    | (with_reducible refine Dev.releaseHeld_w _ ?_ (by decide +kernel) (by decide +kernel))
    | (with_reducible refine Dev.showCal_w _ ?_ (by decide +kernel) (by decide +kernel))
    | (with_reducible refine Dev.keepRegs_w _ _ ?_ (by decide +kernel) (by decide +kernel))
    | (with_reducible refine Dev.setKey_w _ _ _ ?_ (by decide +kernel) (by decide +kernel))
    | (with_reducible refine Within.onAux ?_ _ (by decide +kernel))
    | (with_reducible refine Within.onSaved ?_ _ (by decide +kernel))
    | (with_reducible refine Within.ite ?_ ?_)
    | (intro _ _ _)
    | split
    | dsimp only

theorem commitKeep_w (w : KeepWhat) (d : Dev) {M P : Nat} {dz : Dev} (hd : Within M P dz d) (hm : inMask 0x1000000080B80100000140050000000000000000000000000000000000000000000000000000000000000000000000000000 M = true) (hp : inMask 0x7004F0 P = true) : Within M P dz (commitKeep w d) :=
  hd.andThen (commitKeep_w0 w d) hm hp

theorem keepLost_w0 (w : KeepWhat) (d : Dev) : Within 0x140010000000000000000000000000000000000000000000000000000000000000000000000000000 0x300030 d (keepLost w d) := by
  unfold keepLost
  repeat' first
    | (with_reducible exact Within.refl _)
    | (with_reducible assumption)
    | (with_reducible refine Dev.completeK_w _ _ _ _ _ ?_ (by decide +kernel) (by decide +kernel))
    | (with_reducible refine Dev.releaseHeld_w _ ?_ (by decide +kernel) (by decide +kernel))
    | (with_reducible refine Within.ite ?_ ?_)
    | (intro _ _ _)
    | split
    | dsimp only

theorem keepLost_w (w : KeepWhat) (d : Dev) {M P : Nat} {dz : Dev} (hd : Within M P dz d) (hm : inMask 0x140010000000000000000000000000000000000000000000000000000000000000000000000000000 M = true) (hp : inMask 0x300030 P = true) : Within M P dz (keepLost w d) :=
  hd.andThen (keepLost_w0 w d) hm hp

theorem cutKeep_w0 (d : Dev) : Within 0x80B80100000000000000000000000000000000000000000000000000000000000000000000000000000000000000 0xD4 d (cutKeep d) := by
  unfold cutKeep
  repeat' first
    | (with_reducible exact Within.refl _)
    | (with_reducible assumption)
    | ((try lift_lets); intro x_; first
      | (refine (fun (hx_ : Within 0x80B80100000000000000000000000000000000000000000000000000000000000000000000000000000000000000 0xD4 d x_) => ?rest) ?val; (case' rest => clear_value x_); (case' val => subst x_))
      | (have _t := fun y_ => x_ y_; clear _t; subst x_)
      | (have _t : Dev := x_.1; clear _t; subst x_)
      | (have _t : Dev := x_.2; clear _t; subst x_)
      | (have _t : Dev := x_; clear _t; subst x_)
      | clear_value x_)
    | (with_reducible refine Dev.event_w _ _ _ ?_ (by decide +kernel) (by decide +kernel))
    | (with_reducible refine Within.onStore ?_ _ (by decide +kernel))
    | (with_reducible refine Within.onHealth ?_ _ (by decide +kernel))
    | (with_reducible refine Within.fresh ?_ (by decide +kernel))
    | (with_reducible refine Within.foldl ?_ _ _ ?_)
    | (with_reducible refine Within.ite ?_ ?_)
    | (intro _ _ _)
    | split
    | dsimp only

theorem cutKeep_w (d : Dev) {M P : Nat} {dz : Dev} (hd : Within M P dz d) (hm : inMask 0x80B80100000000000000000000000000000000000000000000000000000000000000000000000000000000000000 M = true) (hp : inMask 0xD4 P = true) : Within M P dz (cutKeep d) :=
  hd.andThen (cutKeep_w0 d) hm hp

theorem Dev.fwNotShip_w0 (d : Dev) (b : Nat) : Within 0 0x20 d (Dev.fwNotShip d b) := by
  unfold Dev.fwNotShip
  repeat' first
    | (with_reducible exact Within.refl _)
    | (with_reducible assumption)
    | (with_reducible refine Within.onSec ?_ _ (by decide +kernel))
    | (with_reducible refine Within.ite ?_ ?_)
    | (intro _ _ _)
    | split
    | dsimp only

theorem Dev.fwNotShip_w (d : Dev) (b : Nat) {M P : Nat} {dz : Dev} (hd : Within M P dz d) (hm : inMask 0 M = true) (hp : inMask 0x20 P = true) : Within M P dz (Dev.fwNotShip d b) :=
  hd.andThen (Dev.fwNotShip_w0 d b) hm hp

theorem flashLost_w0 (w : FlashWhat) (d : Dev) : Within 0x140010000000000000000000000000000000000000000000000000000000000000000000000000040 0x30 d (flashLost w d) := by
  unfold flashLost
  repeat' first
    | (with_reducible exact Within.refl _)
    | (with_reducible assumption)
    | (with_reducible refine Dev.completeK_w _ _ _ _ _ ?_ (by decide +kernel) (by decide +kernel))
    | (with_reducible refine Within.putBitAt ?_ _ _ _ (by decide +kernel))
    | (with_reducible refine Within.putBit ?_ _ _ (by decide +kernel))
    | (with_reducible refine Within.flagAt ?_ _ _ (by decide +kernel))
    | (with_reducible refine Within.flag ?_ _ (by decide +kernel))
    | (with_reducible refine Within.ite ?_ ?_)
    | (intro _ _ _)
    | split
    | dsimp only

theorem flashLost_w (w : FlashWhat) (d : Dev) {M P : Nat} {dz : Dev} (hd : Within M P dz d) (hm : inMask 0x140010000000000000000000000000000000000000000000000000000000000000000000000000040 M = true) (hp : inMask 0x30 P = true) : Within M P dz (flashLost w d) :=
  hd.andThen (flashLost_w0 w d) hm hp

theorem Dev.curveNext_w0 (d : Dev) (m : Mems) : Within 0x20000000000000000000000000000000000000000000000000000000000000000000000000000000000800 0x3040 d (Dev.curveNext d m) := by
  unfold Dev.curveNext
  repeat' first
    | (with_reducible exact Within.refl _)
    | (with_reducible assumption)
    | (with_reducible refine Dev.curvePersist_w _ _ _ _ ?_ (by decide +kernel) (by decide +kernel))
    | (with_reducible refine Within.onBurin ?_ _ (by decide +kernel))
    | (with_reducible refine Within.ite ?_ ?_)
    | (intro _ _ _)
    | split
    | dsimp only

theorem Dev.curveNext_w (d : Dev) (m : Mems) {M P : Nat} {dz : Dev} (hd : Within M P dz d) (hm : inMask 0x20000000000000000000000000000000000000000000000000000000000000000000000000000000000800 M = true) (hp : inMask 0x3040 P = true) : Within M P dz (Dev.curveNext d m) :=
  hd.andThen (Dev.curveNext_w0 d m) hm hp

theorem Dev.strapped_w0 (d : Dev) : Within 0x180000000000000000000000000000000000000000000000000000 0x100000 d (Dev.strapped d) := by
  unfold Dev.strapped
  repeat' first
    | (with_reducible exact Within.refl _)
    | (with_reducible assumption)
    | ((try lift_lets); intro x_; first
      | (refine (fun (hx_ : Within 0x180000000000000000000000000000000000000000000000000000 0x100000 d x_) => ?rest) ?val; (case' rest => clear_value x_); (case' val => subst x_))
      | (have _t := fun y_ => x_ y_; clear _t; subst x_)
      | (have _t : Dev := x_.1; clear _t; subst x_)
      | (have _t : Dev := x_.2; clear _t; subst x_)
      | (have _t : Dev := x_; clear _t; subst x_)
      | clear_value x_)
    | (with_reducible refine Within.putBitAt ?_ _ _ _ (by decide +kernel))
    | (with_reducible refine Within.putBit ?_ _ _ (by decide +kernel))
    | (with_reducible refine Within.putAt ?_ _ _ _ (by decide +kernel))
    | (with_reducible refine Within.put ?_ _ _ (by decide +kernel))
    | (with_reducible refine Within.onLink ?_ _ (by decide +kernel))
    | (with_reducible refine Within.ite ?_ ?_)
    | (intro _ _ _)
    | split
    | dsimp only

theorem Dev.strapped_w (d : Dev) {M P : Nat} {dz : Dev} (hd : Within M P dz d) (hm : inMask 0x180000000000000000000000000000000000000000000000000000 M = true) (hp : inMask 0x100000 P = true) : Within M P dz (Dev.strapped d) :=
  hd.andThen (Dev.strapped_w0 d) hm hp

theorem Dev.sampleStraps_w0 (role1 : Bool) (role0 : Bool) (d : Dev) : Within 0x180000000000000000000000000000000000000000000000000000 0x101000 d (Dev.sampleStraps role1 role0 d) := by
  unfold Dev.sampleStraps
  repeat' first
    | (with_reducible exact Within.refl _)
    | (with_reducible assumption)
    | (with_reducible refine Dev.strapped_w _ ?_ (by decide +kernel) (by decide +kernel))
    | (with_reducible refine Within.onPwr ?_ _ (by decide +kernel))
    | (with_reducible refine Within.ite ?_ ?_)
    | (intro _ _ _)
    | split
    | dsimp only

theorem Dev.sampleStraps_w (role1 : Bool) (role0 : Bool) (d : Dev) {M P : Nat} {dz : Dev} (hd : Within M P dz d) (hm : inMask 0x180000000000000000000000000000000000000000000000000000 M = true) (hp : inMask 0x101000 P = true) : Within M P dz (Dev.sampleStraps role1 role0 d) :=
  hd.andThen (Dev.sampleStraps_w0 role1 role0 d) hm hp

theorem spiHeader_w0 (hdr : Word) (mode3 : Bool) (d : Dev) : Within 0x240000000000000000000000000000000000000000000000000000000000000000000000000000000000000000000000000000 0x800000 d (spiHeader hdr mode3 d) := by
  unfold spiHeader
  repeat' first
    | (with_reducible exact Within.refl _)
    | (with_reducible assumption)
    | ((try lift_lets); intro x_; first
      | (refine (fun (hx_ : Within 0x240000000000000000000000000000000000000000000000000000000000000000000000000000000000000000000000000000 0x800000 d x_) => ?rest) ?val; (case' rest => clear_value x_); (case' val => subst x_))
      | (have _t := fun y_ => x_ y_; clear _t; subst x_)
      | (have _t : Dev := x_.1; clear _t; subst x_)
      | (have _t : Dev := x_.2; clear _t; subst x_)
      | (have _t : Dev := x_; clear _t; subst x_)
      | clear_value x_)
    | (with_reducible refine Within.putBitAt ?_ _ _ _ (by decide +kernel))
    | (with_reducible refine Within.putBit ?_ _ _ (by decide +kernel))
    | (with_reducible refine Within.flagAt ?_ _ _ (by decide +kernel))
    | (with_reducible refine Within.flag ?_ _ (by decide +kernel))
    | (with_reducible refine Within.incAt ?_ _ _ (by decide +kernel))
    | (with_reducible refine Within.inc ?_ _ (by decide +kernel))
    | (with_reducible refine Within.onIo ?_ _ (by decide +kernel))
    | (with_reducible refine Within.ite ?_ ?_)
    | (intro _ _ _)
    | split
    | dsimp only

theorem spiHeader_w (hdr : Word) (mode3 : Bool) (d : Dev) {M P : Nat} {dz : Dev} (hd : Within M P dz d) (hm : inMask 0x240000000000000000000000000000000000000000000000000000000000000000000000000000000000000000000000000000 M = true) (hp : inMask 0x800000 P = true) : Within M P dz (spiHeader hdr mode3 d) :=
  hd.andThen (spiHeader_w0 hdr mode3 d) hm hp

theorem spiEnd_w0 (e : SpiEnd) (lowUnsent : Bool) (d : Dev) : Within 0x1C0000000000000000000000000000000000000000000000000000000000000000000000000000000000000000000000000000 0x800008 d (spiEnd e lowUnsent d) := by
  unfold spiEnd
  repeat' first
    | (with_reducible exact Within.refl _)
    | (with_reducible assumption)
    | ((try lift_lets); intro x_; first
      | (refine (fun (hx_ : Within 0x1C0000000000000000000000000000000000000000000000000000000000000000000000000000000000000000000000000000 0x800008 d x_) => ?rest) ?val; (case' rest => clear_value x_); (case' val => subst x_))
      | (have _t := fun y_ => x_ y_; clear _t; subst x_)
      | (have _t : Dev := x_.1; clear _t; subst x_)
      | (have _t : Dev := x_.2; clear _t; subst x_)
      | (have _t : Dev := x_; clear _t; subst x_)
      | clear_value x_)
    | (with_reducible refine Dev.putPath_w _ _ _ ?_ (by decide +kernel) (by decide +kernel))
    | (with_reducible refine Within.flagAt ?_ _ _ (by decide +kernel))
    | (with_reducible refine Within.flag ?_ _ (by decide +kernel))
    | (with_reducible refine Within.incAt ?_ _ _ (by decide +kernel))
    | (with_reducible refine Within.inc ?_ _ (by decide +kernel))
    | (with_reducible refine Within.onIo ?_ _ (by decide +kernel))
    | (with_reducible refine Within.putPath ?_ _ _ (by decide +kernel))
    | (with_reducible refine Within.ite ?_ ?_)
    | (intro _ _ _)
    | split
    | dsimp only

theorem spiEnd_w (e : SpiEnd) (lowUnsent : Bool) (d : Dev) {M P : Nat} {dz : Dev} (hd : Within M P dz d) (hm : inMask 0x1C0000000000000000000000000000000000000000000000000000000000000000000000000000000000000000000000000000 M = true) (hp : inMask 0x800008 P = true) : Within M P dz (spiEnd e lowUnsent d) :=
  hd.andThen (spiEnd_w0 e lowUnsent d) hm hp

theorem localSwitch_w0 (c : Cmd) (d : Dev) : Within 0x142010000000000000000000000000000000000000000000000000000000000000000000000000000 0x30 d (localSwitch c d) := by
  unfold localSwitch
  repeat' first
    | (with_reducible exact Within.refl _)
    | (with_reducible assumption)
    | (with_reducible refine doFwSwitch_w _ _ _ ?_ (by decide +kernel) (by decide +kernel))
    | (with_reducible refine Within.ite ?_ ?_)
    | (intro _ _ _)
    | split
    | dsimp only

theorem localSwitch_w (c : Cmd) (d : Dev) {M P : Nat} {dz : Dev} (hd : Within M P dz d) (hm : inMask 0x142010000000000000000000000000000000000000000000000000000000000000000000000000000 M = true) (hp : inMask 0x30 P = true) : Within M P dz (localSwitch c d) :=
  hd.andThen (localSwitch_w0 c d) hm hp

theorem afterBoundary_w0 (b : Nat) (src : Nat) (d : Dev) : Within 0x18000000108080B82100000152790000000000708000000000000000000000000000000000000000000000000000000000000800 0xB010F0 d (afterBoundary b src d) := by
  unfold afterBoundary
  repeat' first
    | (with_reducible exact Within.refl _)
    | (with_reducible assumption)
    | ((try lift_lets); intro x_; first
      | (refine (fun (hx_ : Within 0x18000000108080B82100000152790000000000708000000000000000000000000000000000000000000000000000000000000800 0xB010F0 d x_) => ?rest) ?val; (case' rest => clear_value x_); (case' val => subst x_))
      | (have _t := fun y_ => x_ y_; clear _t; subst x_)
      | (have _t : Dev := x_.1; clear _t; subst x_)
      | (have _t : Dev := x_.2; clear _t; subst x_)
      | (have _t : Dev := x_; clear _t; subst x_)
      | clear_value x_)
    | (with_reducible refine Dev.conflict_w _ _ _ ?_ (by decide +kernel) (by decide +kernel))
    | (with_reducible refine Dev.takeLanes_w _ ?_ (by decide +kernel) (by decide +kernel))
    | (with_reducible refine Dev.vcoreStep_w _ ?_ (by decide +kernel) (by decide +kernel))
    | (with_reducible refine Dev.fwBoundary_w _ _ ?_ (by decide +kernel) (by decide +kernel))
    | (with_reducible refine Dev.flushDones_w _ ?_ (by decide +kernel) (by decide +kernel))
    | (with_reducible refine Within.onIo ?_ _ (by decide +kernel))
    | (with_reducible refine Within.ite ?_ ?_)
    | (intro _ _ _)
    | split
    | dsimp only

theorem afterBoundary_w (b : Nat) (src : Nat) (d : Dev) {M P : Nat} {dz : Dev} (hd : Within M P dz d) (hm : inMask 0x18000000108080B82100000152790000000000708000000000000000000000000000000000000000000000000000000000000800 M = true) (hp : inMask 0xB010F0 P = true) : Within M P dz (afterBoundary b src d) :=
  hd.andThen (afterBoundary_w0 b src d) hm hp

end Sys2Proof.Machine
end

