-- ==== Sys2Proof/Laws/FramesState.lean ====
section
/-! SUPPORT. Frames of the operations that also reach the memories: what they change of the block beside them. -/

set_option linter.unusedVariables false
set_option Elab.async false

namespace Sys2Proof.Machine

open Sys2Proof

theorem Within.foldlS {M P : Nat} {d : Dev} {s : State} {α : Type} (h : Within M P d s.dev) (l : List α) (g : State → α → State)
    (hg : ∀ u x, Within M P d u.dev → Within M P d (g u x).dev) : Within M P d (l.foldl g s).dev := by
  induction l generalizing s with
  | nil => exact h
  | cons x xs ih => exact ih (hg s x h)

theorem Within.iteS {M P : Nat} {d : Dev} {c : Prop} [Decidable c] {s t : State} (h : Within M P d s.dev) (h' : Within M P d t.dev) :
    Within M P d (if c then s else t).dev := by split <;> assumption

theorem Within.wrQdr {M P : Nat} {d : Dev} {s : State} (h : Within M P d s.dev) (a : Nat) (bs : List Byte) (hp : P.testBit 6 = true) :
    Within M P d (s.wrQdr a bs).dev where
  regs o ho := h.regs o ho
  parts p hq := Part.same_trans (h.parts p hq) (by cases p <;> first | rfl | (exact absurd hq (by simp only [Part.idx]; rw [hp]; simp)))

theorem Within.flashToQdr {M P : Nat} {d : Dev} {s : State} (h : Within M P d s.dev) (a n b : Nat) (hp : P.testBit 6 = true) :
    Within M P d (s.flashToQdr a n b).dev where
  regs o ho := h.regs o ho
  parts p hq := Part.same_trans (h.parts p hq) (by cases p <;> first | rfl | (exact absurd hq (by simp only [Part.idx]; rw [hp]; simp)))

theorem Within.qdrCopy {M P : Nat} {d : Dev} {s : State} (h : Within M P d s.dev) (a n b : Nat) (hp : P.testBit 6 = true) :
    Within M P d (s.qdrCopy a n b).dev where
  regs o ho := h.regs o ho
  parts p hq := Part.same_trans (h.parts p hq) (by cases p <;> first | rfl | (exact absurd hq (by simp only [Part.idx]; rw [hp]; simp)))

@[simp] theorem State.wrFlash_dev (s : State) (a : Nat) (bs : List Byte) : (s.wrFlash a bs).dev = s.dev := rfl
@[simp] theorem State.eraseFlash_dev (s : State) (a n : Nat) : (s.eraseFlash a n).dev = s.dev := rfl
@[simp] theorem State.wrKeep_dev (s : State) (a : Nat) (bs : List Byte) : (s.wrKeep a bs).dev = s.dev := rfl
@[simp] theorem State.qdrToFlash_dev (s : State) (a n b : Nat) : (s.qdrToFlash a n b).dev = s.dev := rfl

theorem State.returnData_s0 (s : State) (c : Cmd) (bs : List Byte) : Within 0x200000000000000000000000000000000000000000000000000000000000000000000000000000000 0x42 s.dev (State.returnData s c bs).dev := by
  unfold State.returnData
  repeat' first
    | (with_reducible exact Within.refl _)
    | (with_reducible assumption)
    | (with_reducible simp only [State.onDev_dev])
    | (with_reducible refine Within.wrQdr ?_ _ _ (by decide +kernel))
    | (with_reducible refine Within.foldlS ?_ _ _ ?_)
    | (with_reducible refine Dev.dmaWrite_w _ _ _ _ ?_ (by decide +kernel) (by decide +kernel))
    | (with_reducible refine Within.putAt ?_ _ _ _ (by decide +kernel))
    | (with_reducible refine Within.put ?_ _ _ (by decide +kernel))
    | (with_reducible refine Within.emit ?_ _ (by decide +kernel))
    | (with_reducible refine Within.foldl ?_ _ _ ?_)
    | (with_reducible refine Within.ite ?_ ?_)
    | (with_reducible refine Within.iteS ?_ ?_)
    | (intro _ _ _)
    | (refine Within.ite ?_ ?_)
    | split
    | dsimp only

theorem State.returnData_s (s : State) (c : Cmd) (bs : List Byte) {M P : Nat} {dz : Dev} (hd : Within M P dz s.dev) (hm : inMask 0x200000000000000000000000000000000000000000000000000000000000000000000000000000000 M = true) (hp : inMask 0x42 P = true) : Within M P dz (State.returnData s c bs).dev :=
  hd.andThen (State.returnData_s0 s c bs) hm hp

theorem readBurst_s0 (w : Nat) (code : List Byte) (newer : Bool) (s : State) : Within 0x80B8011FC02140010000000000000000000000000000000000000000000000000000000000000000000000000000 0xF0 s.dev (readBurst w code newer s).dev := by
  unfold readBurst
  repeat' first
    | (with_reducible exact Within.refl _)
    | (with_reducible assumption)
    | ((try lift_lets); intro x_; first
      | (refine (fun (hx_ : Within 0x80B8011FC02140010000000000000000000000000000000000000000000000000000000000000000000000000000 0xF0 s.dev x_) => ?rest) ?val; (case' rest => clear_value x_); (case' val => subst x_))
      | (refine (fun (hx_ : Within 0x80B8011FC02140010000000000000000000000000000000000000000000000000000000000000000000000000000 0xF0 s.dev x_.dev) => ?rest) ?val; (case' rest => clear_value x_); (case' val => subst x_))
      | (have _t := fun y_ => x_ y_; clear _t; subst x_)
      | (have _t : Dev := x_.1; clear _t; subst x_)
      | (have _t : Dev := x_.2; clear _t; subst x_)
      | (have _t := fun y_ => x_ y_; clear _t; subst x_)
      | (have _t : State := x_.1; clear _t; subst x_)
      | (have _t : State := x_.2; clear _t; subst x_)
      | clear_value x_)
    | (with_reducible simp only [State.onDev_dev])
    | (with_reducible refine Within.wrQdr ?_ _ _ (by decide +kernel))
    | (with_reducible refine Dev.qdrUncorr_w _ _ ?_ (by decide +kernel) (by decide +kernel))
    | (with_reducible refine Dev.ok_w _ _ _ ?_ (by decide +kernel) (by decide +kernel))
    | (with_reducible refine Dev.qdrCorr_w _ _ _ ?_ (by decide +kernel) (by decide +kernel))
    | (with_reducible refine Within.incAt ?_ _ _ (by decide +kernel))
    | (with_reducible refine Within.inc ?_ _ (by decide +kernel))
    | (with_reducible refine Within.onStore ?_ _ (by decide +kernel))
    | (with_reducible refine Within.ite ?_ ?_)
    | (with_reducible refine Within.iteS ?_ ?_)
    | (intro _ _ _)
    | (refine Within.ite ?_ ?_)
    | split
    | dsimp only

theorem readBurst_s (w : Nat) (code : List Byte) (newer : Bool) (s : State) {M P : Nat} {dz : Dev} (hd : Within M P dz s.dev) (hm : inMask 0x80B8011FC02140010000000000000000000000000000000000000000000000000000000000000000000000000000 M = true) (hp : inMask 0xF0 P = true) : Within M P dz (readBurst w code newer s).dev :=
  hd.andThen (readBurst_s0 w code newer s) hm hp

theorem funcReads_s0 (reads : List BurstIn) (s : State) : Within 0x80B8011FC02140010000000000000000000000000000000000000000000000000000000000000000000000000000 0xF0 s.dev (funcReads reads s).dev := by
  unfold funcReads
  repeat' first
    | (with_reducible exact Within.refl _)
    | (with_reducible assumption)
    | (with_reducible simp only [State.onDev_dev])
    | (with_reducible refine Within.foldlS ?_ _ _ ?_)
    | (with_reducible refine readBurst_s _ _ _ _ ?_ (by decide +kernel) (by decide +kernel))
    | (with_reducible refine Within.foldl ?_ _ _ ?_)
    | (with_reducible refine Within.ite ?_ ?_)
    | (with_reducible refine Within.iteS ?_ ?_)
    | (intro _ _ _)
    | (refine Within.ite ?_ ?_)
    | split
    | dsimp only

theorem funcReads_s (reads : List BurstIn) (s : State) {M P : Nat} {dz : Dev} (hd : Within M P dz s.dev) (hm : inMask 0x80B8011FC02140010000000000000000000000000000000000000000000000000000000000000000000000000000 M = true) (hp : inMask 0xF0 P = true) : Within M P dz (funcReads reads s).dev :=
  hd.andThen (funcReads_s0 reads s) hm hp

theorem State.writeCheck_s (s : State) (a n chk : Nat) {M P : Nat} {dz : Dev} (hd : Within M P dz s.dev)
    (_hm : inMask 0 M = true) (_hp : inMask 0 P = true) : Within M P dz (s.writeCheck a n chk).dev := by
  unfold State.writeCheck
  dsimp only
  rw [State.wrFlash_dev]
  refine Within.foldlS hd _ _ (fun u x hu => ?_)
  rw [State.wrFlash_dev]
  exact hu

theorem readPersist_s0 (s : State) : Within 0 0x800 s.dev (readPersist s).dev := by
  unfold readPersist
  repeat' first
    | (with_reducible exact Within.refl _)
    | (with_reducible assumption)
    | ((try lift_lets); intro x_; first
      | (refine (fun (hx_ : Within 0 0x800 s.dev x_) => ?rest) ?val; (case' rest => clear_value x_); (case' val => subst x_))
      | (refine (fun (hx_ : Within 0 0x800 s.dev x_.dev) => ?rest) ?val; (case' rest => clear_value x_); (case' val => subst x_))
      | (have _t := fun y_ => x_ y_; clear _t; subst x_)
      | (have _t : Dev := x_.1; clear _t; subst x_)
      | (have _t : Dev := x_.2; clear _t; subst x_)
      | (have _t := fun y_ => x_ y_; clear _t; subst x_)
      | (have _t : State := x_.1; clear _t; subst x_)
      | (have _t : State := x_.2; clear _t; subst x_)
      | clear_value x_)
    | (with_reducible simp only [State.onDev_dev])
    | (with_reducible rw [State.qdrToFlash_dev])
    | (with_reducible refine Within.onPipe ?_ _ (by decide +kernel))
    | (with_reducible refine Within.ite ?_ ?_)
    | (with_reducible refine Within.iteS ?_ ?_)
    | (intro _ _ _)
    | (refine Within.ite ?_ ?_)
    | split
    | dsimp only

theorem readPersist_s (s : State) {M P : Nat} {dz : Dev} (hd : Within M P dz s.dev) (hm : inMask 0 M = true) (hp : inMask 0x800 P = true) : Within M P dz (readPersist s).dev :=
  hd.andThen (readPersist_s0 s) hm hp

theorem readPersistOf_s0 (r : Nat) (s : State) : Within 0 0x800 s.dev (readPersistOf r s).dev := by
  unfold readPersistOf
  repeat' first
    | (with_reducible exact Within.refl _)
    | (with_reducible assumption)
    | (with_reducible simp only [State.onDev_dev])
    | (with_reducible refine readPersist_s _ ?_ (by decide +kernel) (by decide +kernel))
    | (with_reducible refine Within.ite ?_ ?_)
    | (with_reducible refine Within.iteS ?_ ?_)
    | (intro _ _ _)
    | (refine Within.ite ?_ ?_)
    | split
    | dsimp only

theorem readPersistOf_s (r : Nat) (s : State) {M P : Nat} {dz : Dev} (hd : Within M P dz s.dev) (hm : inMask 0 M = true) (hp : inMask 0x800 P = true) : Within M P dz (readPersistOf r s).dev :=
  hd.andThen (readPersistOf_s0 r s) hm hp

theorem stampSeq_s0 (r : Nat) (seq : Nat) (s : State) : Within 0 0x40 s.dev (stampSeq r seq s).dev := by
  unfold stampSeq
  repeat' first
    | (with_reducible exact Within.refl _)
    | (with_reducible assumption)
    | (with_reducible simp only [State.onDev_dev])
    | (with_reducible refine Within.wrQdr ?_ _ _ (by decide +kernel))
    | (with_reducible refine Within.ite ?_ ?_)
    | (with_reducible refine Within.iteS ?_ ?_)
    | (intro _ _ _)
    | (refine Within.ite ?_ ?_)
    | split
    | dsimp only

theorem stampSeq_s (r : Nat) (seq : Nat) (s : State) {M P : Nat} {dz : Dev} (hd : Within M P dz s.dev) (hm : inMask 0 M = true) (hp : inMask 0x40 P = true) : Within M P dz (stampSeq r seq s).dev :=
  hd.andThen (stampSeq_s0 r seq s) hm hp

theorem doPlateWrite_s0 (c : Cmd) (s : State) : Within 0x140010000000000000000000000000000000000000000000000000000000000001000000000000000 0x870 s.dev (doPlateWrite c s).dev := by
  unfold doPlateWrite
  repeat' first
    | (with_reducible exact Within.refl _)
    | (with_reducible assumption)
    | ((try lift_lets); intro x_; first
      | (refine (fun (hx_ : Within 0x140010000000000000000000000000000000000000000000000000000000000001000000000000000 0x870 s.dev x_) => ?rest) ?val; (case' rest => clear_value x_); (case' val => subst x_))
      | (refine (fun (hx_ : Within 0x140010000000000000000000000000000000000000000000000000000000000001000000000000000 0x870 s.dev x_.dev) => ?rest) ?val; (case' rest => clear_value x_); (case' val => subst x_))
      | (have _t := fun y_ => x_ y_; clear _t; subst x_)
      | (have _t : Dev := x_.1; clear _t; subst x_)
      | (have _t : Dev := x_.2; clear _t; subst x_)
      | (have _t := fun y_ => x_ y_; clear _t; subst x_)
      | (have _t : State := x_.1; clear _t; subst x_)
      | (have _t : State := x_.2; clear _t; subst x_)
      | clear_value x_)
    | (with_reducible simp only [State.onDev_dev])
    | (with_reducible refine Within.wrQdr ?_ _ _ (by decide +kernel))
    | (with_reducible refine readPersistOf_s _ _ ?_ (by decide +kernel) (by decide +kernel))
    | (with_reducible refine Dev.complete_w _ _ _ _ _ ?_ (by decide +kernel) (by decide +kernel))
    | (with_reducible refine Dev.ok_w _ _ _ ?_ (by decide +kernel) (by decide +kernel))
    | (with_reducible refine Within.putAt ?_ _ _ _ (by decide +kernel))
    | (with_reducible refine Within.put ?_ _ _ (by decide +kernel))
    | (with_reducible refine Within.onPipe ?_ _ (by decide +kernel))
    | (with_reducible refine Within.ite ?_ ?_)
    | (with_reducible refine Within.iteS ?_ ?_)
    | (intro _ _ _)
    | (refine Within.ite ?_ ?_)
    | split
    | dsimp only

theorem doPlateWrite_s (c : Cmd) (s : State) {M P : Nat} {dz : Dev} (hd : Within M P dz s.dev) (hm : inMask 0x140010000000000000000000000000000000000000000000000000000000000001000000000000000 M = true) (hp : inMask 0x870 P = true) : Within M P dz (doPlateWrite c s).dev :=
  hd.andThen (doPlateWrite_s0 c s) hm hp

theorem doPlateCommit_s0 (c : Cmd) (s : State) : Within 0x2100000140010000000000000000000000000000000000000000000000000000000000081000000000000000 0x2870 s.dev (doPlateCommit c s).dev := by
  unfold doPlateCommit
  repeat' first
    | (with_reducible exact Within.refl _)
    | (with_reducible assumption)
    | ((try lift_lets); intro x_; first
      | (refine (fun (hx_ : Within 0x2100000140010000000000000000000000000000000000000000000000000000000000081000000000000000 0x2870 s.dev x_) => ?rest) ?val; (case' rest => clear_value x_); (case' val => subst x_))
      | (refine (fun (hx_ : Within 0x2100000140010000000000000000000000000000000000000000000000000000000000081000000000000000 0x2870 s.dev x_.dev) => ?rest) ?val; (case' rest => clear_value x_); (case' val => subst x_))
      | (have _t := fun y_ => x_ y_; clear _t; subst x_)
      | (have _t : Dev := x_.1; clear _t; subst x_)
      | (have _t : Dev := x_.2; clear _t; subst x_)
      | (have _t := fun y_ => x_ y_; clear _t; subst x_)
      | (have _t : State := x_.1; clear _t; subst x_)
      | (have _t : State := x_.2; clear _t; subst x_)
      | clear_value x_)
    | (with_reducible simp only [State.onDev_dev])
    | (with_reducible refine stampSeq_s _ _ _ ?_ (by decide +kernel) (by decide +kernel))
    | (with_reducible refine Dev.tallyInc_w _ _ ?_ (by decide +kernel) (by decide +kernel))
    | (with_reducible refine Dev.complete_w _ _ _ _ _ ?_ (by decide +kernel) (by decide +kernel))
    | (with_reducible refine Dev.ok_w _ _ _ ?_ (by decide +kernel) (by decide +kernel))
    | (with_reducible refine Dev.putRef_w _ _ ?_ (by decide +kernel) (by decide +kernel))
    | (with_reducible refine acceptShadow_w _ _ _ _ ?_ (by decide +kernel) (by decide +kernel))
    | (with_reducible refine Within.ite ?_ ?_)
    | (with_reducible refine Within.iteS ?_ ?_)
    | (intro _ _ _)
    | (refine Within.ite ?_ ?_)
    | split
    | dsimp only

theorem doPlateCommit_s (c : Cmd) (s : State) {M P : Nat} {dz : Dev} (hd : Within M P dz s.dev) (hm : inMask 0x2100000140010000000000000000000000000000000000000000000000000000000000081000000000000000 M = true) (hp : inMask 0x2870 P = true) : Within M P dz (doPlateCommit c s).dev :=
  hd.andThen (doPlateCommit_s0 c s) hm hp

theorem doFactoryRestore_s0 (c : Cmd) (s : State) : Within 0x21200001400100000000000000000000000000000000000000000000000100001E000008F000000000000800 0x3870 s.dev (doFactoryRestore c s).dev := by
  unfold doFactoryRestore
  repeat' first
    | (with_reducible exact Within.refl _)
    | (with_reducible assumption)
    | ((try lift_lets); intro x_; first
      | (refine (fun (hx_ : Within 0x21200001400100000000000000000000000000000000000000000000000100001E000008F000000000000800 0x3870 s.dev x_) => ?rest) ?val; (case' rest => clear_value x_); (case' val => subst x_))
      | (refine (fun (hx_ : Within 0x21200001400100000000000000000000000000000000000000000000000100001E000008F000000000000800 0x3870 s.dev x_.dev) => ?rest) ?val; (case' rest => clear_value x_); (case' val => subst x_))
      | (have _t := fun y_ => x_ y_; clear _t; subst x_)
      | (have _t : Dev := x_.1; clear _t; subst x_)
      | (have _t : Dev := x_.2; clear _t; subst x_)
      | (have _t := fun y_ => x_ y_; clear _t; subst x_)
      | (have _t : State := x_.1; clear _t; subst x_)
      | (have _t : State := x_.2; clear _t; subst x_)
      | clear_value x_)
    | (with_reducible simp only [State.onDev_dev])
    | (with_reducible refine Within.flashToQdr ?_ _ _ _ (by decide +kernel))
    | (with_reducible refine readPersistOf_s _ _ ?_ (by decide +kernel) (by decide +kernel))
    | (with_reducible refine stampSeq_s _ _ _ ?_ (by decide +kernel) (by decide +kernel))
    | (with_reducible refine Dev.tallyInc_w _ _ ?_ (by decide +kernel) (by decide +kernel))
    | (with_reducible refine Dev.complete_w _ _ _ _ _ ?_ (by decide +kernel) (by decide +kernel))
    | (with_reducible refine Dev.ok_w _ _ _ ?_ (by decide +kernel) (by decide +kernel))
    | (with_reducible refine showPlates_w _ _ ?_ (by decide +kernel) (by decide +kernel))
    | (with_reducible refine startPersist_w _ _ _ _ ?_ (by decide +kernel) (by decide +kernel))
    | (with_reducible refine Dev.putRef_w _ _ ?_ (by decide +kernel) (by decide +kernel))
    | (with_reducible refine acceptShadow_w _ _ _ _ ?_ (by decide +kernel) (by decide +kernel))
    | (with_reducible refine Within.onPipe ?_ _ (by decide +kernel))
    | (with_reducible refine Within.ite ?_ ?_)
    | (with_reducible refine Within.iteS ?_ ?_)
    | (intro _ _ _)
    | (refine Within.ite ?_ ?_)
    | split
    | dsimp only

theorem doFactoryRestore_s (c : Cmd) (s : State) {M P : Nat} {dz : Dev} (hd : Within M P dz s.dev) (hm : inMask 0x21200001400100000000000000000000000000000000000000000000000100001E000008F000000000000800 M = true) (hp : inMask 0x3870 P = true) : Within M P dz (doFactoryRestore c s).dev :=
  hd.andThen (doFactoryRestore_s0 c s) hm hp

theorem persistDone_s0 (ok : Bool) (s : State) : Within 0x200000000000000000000000000000000000000000000000000000000100001E000000F000000000000800 0x1840 s.dev (persistDone ok s).dev := by
  unfold persistDone
  repeat' first
    | (with_reducible exact Within.refl _)
    | (with_reducible assumption)
    | ((try lift_lets); intro x_; first
      | (refine (fun (hx_ : Within 0x200000000000000000000000000000000000000000000000000000000100001E000000F000000000000800 0x1840 s.dev x_) => ?rest) ?val; (case' rest => clear_value x_); (case' val => subst x_))
      | (refine (fun (hx_ : Within 0x200000000000000000000000000000000000000000000000000000000100001E000000F000000000000800 0x1840 s.dev x_.dev) => ?rest) ?val; (case' rest => clear_value x_); (case' val => subst x_))
      | (have _t := fun y_ => x_ y_; clear _t; subst x_)
      | (have _t : Dev := x_.1; clear _t; subst x_)
      | (have _t : Dev := x_.2; clear _t; subst x_)
      | (have _t := fun y_ => x_ y_; clear _t; subst x_)
      | (have _t : State := x_.1; clear _t; subst x_)
      | (have _t : State := x_.2; clear _t; subst x_)
      | clear_value x_)
    | (with_reducible simp only [State.onDev_dev])
    | (with_reducible refine State.writeCheck_s _ _ _ _ ?_ (by decide +kernel) (by decide +kernel))
    | (with_reducible refine readPersistOf_s _ _ ?_ (by decide +kernel) (by decide +kernel))
    | (with_reducible refine showPlates_w _ _ ?_ (by decide +kernel) (by decide +kernel))
    | (with_reducible refine startPersist_w _ _ _ _ ?_ (by decide +kernel) (by decide +kernel))
    | (with_reducible refine Within.putBitAt ?_ _ _ _ (by decide +kernel))
    | (with_reducible refine Within.putBit ?_ _ _ (by decide +kernel))
    | (with_reducible refine Within.flagAt ?_ _ _ (by decide +kernel))
    | (with_reducible refine Within.flag ?_ _ (by decide +kernel))
    | (with_reducible refine Within.onStore ?_ _ (by decide +kernel))
    | (with_reducible refine Within.onPipe ?_ _ (by decide +kernel))
    | (with_reducible refine Within.ite ?_ ?_)
    | (with_reducible refine Within.iteS ?_ ?_)
    | (intro _ _ _)
    | (refine Within.ite ?_ ?_)
    | split
    | dsimp only

theorem persistDone_s (ok : Bool) (s : State) {M P : Nat} {dz : Dev} (hd : Within M P dz s.dev) (hm : inMask 0x200000000000000000000000000000000000000000000000000000000100001E000000F000000000000800 M = true) (hp : inMask 0x1840 P = true) : Within M P dz (persistDone ok s).dev :=
  hd.andThen (persistDone_s0 ok s) hm hp

theorem setNibble_s0 (i : Nat) (v : Nat) (s : State) : Within 0 0x40 s.dev (setNibble i v s).dev := by
  unfold setNibble
  repeat' first
    | (with_reducible exact Within.refl _)
    | (with_reducible assumption)
    | ((try lift_lets); intro x_; first
      | (refine (fun (hx_ : Within 0 0x40 s.dev x_) => ?rest) ?val; (case' rest => clear_value x_); (case' val => subst x_))
      | (refine (fun (hx_ : Within 0 0x40 s.dev x_.dev) => ?rest) ?val; (case' rest => clear_value x_); (case' val => subst x_))
      | (have _t := fun y_ => x_ y_; clear _t; subst x_)
      | (have _t : Dev := x_.1; clear _t; subst x_)
      | (have _t : Dev := x_.2; clear _t; subst x_)
      | (have _t := fun y_ => x_ y_; clear _t; subst x_)
      | (have _t : State := x_.1; clear _t; subst x_)
      | (have _t : State := x_.2; clear _t; subst x_)
      | clear_value x_)
    | (with_reducible simp only [State.onDev_dev])
    | (with_reducible refine Within.wrQdr ?_ _ _ (by decide +kernel))
    | (with_reducible refine Within.ite ?_ ?_)
    | (with_reducible refine Within.iteS ?_ ?_)
    | (intro _ _ _)
    | (refine Within.ite ?_ ?_)
    | split
    | dsimp only

theorem setNibble_s (i : Nat) (v : Nat) (s : State) {M P : Nat} {dz : Dev} (hd : Within M P dz s.dev) (hm : inMask 0 M = true) (hp : inMask 0x40 P = true) : Within M P dz (setNibble i v s).dev :=
  hd.andThen (setNibble_s0 i v s) hm hp

theorem applyEdit_s0 (e : StEdit) (s : State) : Within 0x20000000000000000000000000000000000000000000000000000000000000000000800000000000000800 0x1840 s.dev (applyEdit e s).dev := by
  unfold applyEdit
  repeat' first
    | (with_reducible exact Within.refl _)
    | (with_reducible assumption)
    | ((try lift_lets); intro x_; first
      | (refine (fun (hx_ : Within 0x20000000000000000000000000000000000000000000000000000000000000000000800000000000000800 0x1840 s.dev x_) => ?rest) ?val; (case' rest => clear_value x_); (case' val => subst x_))
      | (refine (fun (hx_ : Within 0x20000000000000000000000000000000000000000000000000000000000000000000800000000000000800 0x1840 s.dev x_.dev) => ?rest) ?val; (case' rest => clear_value x_); (case' val => subst x_))
      | (have _t := fun y_ => x_ y_; clear _t; subst x_)
      | (have _t : Dev := x_.1; clear _t; subst x_)
      | (have _t : Dev := x_.2; clear _t; subst x_)
      | (have _t := fun y_ => x_ y_; clear _t; subst x_)
      | (have _t : State := x_.1; clear _t; subst x_)
      | (have _t : State := x_.2; clear _t; subst x_)
      | clear_value x_)
    | (with_reducible simp only [State.onDev_dev])
    | (with_reducible refine Within.foldlS ?_ _ _ ?_)
    | (with_reducible refine setNibble_s _ _ _ ?_ (by decide +kernel) (by decide +kernel))
    | (with_reducible refine Dev.flashPush_w _ _ ?_ (by decide +kernel) (by decide +kernel))
    | (with_reducible refine Within.putAt ?_ _ _ _ (by decide +kernel))
    | (with_reducible refine Within.put ?_ _ _ (by decide +kernel))
    | (with_reducible refine Within.onStore ?_ _ (by decide +kernel))
    | (with_reducible refine Within.onPipe ?_ _ (by decide +kernel))
    | (with_reducible refine Within.foldl ?_ _ _ ?_)
    | (with_reducible refine Within.ite ?_ ?_)
    | (with_reducible refine Within.iteS ?_ ?_)
    | (intro _ _ _)
    | (refine Within.ite ?_ ?_)
    | split
    | dsimp only

theorem applyEdit_s (e : StEdit) (s : State) {M P : Nat} {dz : Dev} (hd : Within M P dz s.dev) (hm : inMask 0x20000000000000000000000000000000000000000000000000000000000000000000800000000000000800 M = true) (hp : inMask 0x1840 P = true) : Within M P dz (applyEdit e s).dev :=
  hd.andThen (applyEdit_s0 e s) hm hp

theorem slotReads_s0 (f : Nat) (slot : Nat) (reads : List BurstIn) (s : State) : Within 0x80B8011FC02140010000000000000000000000000000000000000000000000000000000000000000000000000000 0xF0 s.dev (slotReads f slot reads s).dev := by
  unfold slotReads
  repeat' first
    | (with_reducible exact Within.refl _)
    | (with_reducible assumption)
    | (with_reducible simp only [State.onDev_dev])
    | (with_reducible refine funcReads_s _ _ ?_ (by decide +kernel) (by decide +kernel))
    | (with_reducible refine Dev.badSeen_w _ _ ?_ (by decide +kernel) (by decide +kernel))
    | (with_reducible refine Within.ite ?_ ?_)
    | (with_reducible refine Within.iteS ?_ ?_)
    | (intro _ _ _)
    | (refine Within.ite ?_ ?_)
    | split
    | dsimp only

theorem slotReads_s (f : Nat) (slot : Nat) (reads : List BurstIn) (s : State) {M P : Nat} {dz : Dev} (hd : Within M P dz s.dev) (hm : inMask 0x80B8011FC02140010000000000000000000000000000000000000000000000000000000000000000000000000000 M = true) (hp : inMask 0xF0 P = true) : Within M P dz (slotReads f slot reads s).dev :=
  hd.andThen (slotReads_s0 f slot reads s) hm hp

theorem buildPlate_s0 (r : ProofRun) (seq : Nat) (es : List (Nat × Rat)) (s : State) : Within 0 0x840 s.dev (buildPlate r seq es s).dev := by
  unfold buildPlate
  repeat' first
    | (with_reducible exact Within.refl _)
    | (with_reducible assumption)
    | ((try lift_lets); intro x_; first
      | (refine (fun (hx_ : Within 0 0x840 s.dev x_) => ?rest) ?val; (case' rest => clear_value x_); (case' val => subst x_))
      | (refine (fun (hx_ : Within 0 0x840 s.dev x_.dev) => ?rest) ?val; (case' rest => clear_value x_); (case' val => subst x_))
      | (have _t := fun y_ => x_ y_; clear _t; subst x_)
      | (have _t : Dev := x_.1; clear _t; subst x_)
      | (have _t : Dev := x_.2; clear _t; subst x_)
      | (have _t := fun y_ => x_ y_; clear _t; subst x_)
      | (have _t : State := x_.1; clear _t; subst x_)
      | (have _t : State := x_.2; clear _t; subst x_)
      | clear_value x_)
    | (with_reducible simp only [State.onDev_dev])
    | (with_reducible refine Within.wrQdr ?_ _ _ (by decide +kernel))
    | (with_reducible refine Within.qdrCopy ?_ _ _ _ (by decide +kernel))
    | (with_reducible refine Within.foldlS ?_ _ _ ?_)
    | (with_reducible refine readPersistOf_s _ _ ?_ (by decide +kernel) (by decide +kernel))
    | (with_reducible refine stampSeq_s _ _ _ ?_ (by decide +kernel) (by decide +kernel))
    | (with_reducible refine Within.foldl ?_ _ _ ?_)
    | (with_reducible refine Within.ite ?_ ?_)
    | (with_reducible refine Within.iteS ?_ ?_)
    | (intro _ _ _)
    | (refine Within.ite ?_ ?_)
    | split
    | dsimp only

theorem buildPlate_s (r : ProofRun) (seq : Nat) (es : List (Nat × Rat)) (s : State) {M P : Nat} {dz : Dev} (hd : Within M P dz s.dev) (hm : inMask 0 M = true) (hp : inMask 0x840 P = true) : Within M P dz (buildPlate r seq es s).dev :=
  hd.andThen (buildPlate_s0 r seq es s) hm hp

theorem plateAccepted_s0 (s : State) : Within 0x80B821200000000000000000000000000000000000000000000000003000008D80003F200008F000000002000800 0x279D0 s.dev (plateAccepted s).dev := by
  unfold plateAccepted
  repeat' first
    | (with_reducible exact Within.refl _)
    | (with_reducible assumption)
    | ((try lift_lets); intro x_; first
      | (refine (fun (hx_ : Within 0x80B821200000000000000000000000000000000000000000000000003000008D80003F200008F000000002000800 0x279D0 s.dev x_) => ?rest) ?val; (case' rest => clear_value x_); (case' val => subst x_))
      | (refine (fun (hx_ : Within 0x80B821200000000000000000000000000000000000000000000000003000008D80003F200008F000000002000800 0x279D0 s.dev x_.dev) => ?rest) ?val; (case' rest => clear_value x_); (case' val => subst x_))
      | (have _t := fun y_ => x_ y_; clear _t; subst x_)
      | (have _t : Dev := x_.1; clear _t; subst x_)
      | (have _t : Dev := x_.2; clear _t; subst x_)
      | (have _t := fun y_ => x_ y_; clear _t; subst x_)
      | (have _t : State := x_.1; clear _t; subst x_)
      | (have _t : State := x_.2; clear _t; subst x_)
      | clear_value x_)
    | (with_reducible simp only [State.onDev_dev])
    | (with_reducible refine buildPlate_s _ _ _ _ ?_ (by decide +kernel) (by decide +kernel))
    | (with_reducible refine Dev.tallyInc_w _ _ ?_ (by decide +kernel) (by decide +kernel))
    | (with_reducible refine showPlates_w _ _ ?_ (by decide +kernel) (by decide +kernel))
    | (with_reducible refine startPersist_w _ _ _ _ ?_ (by decide +kernel) (by decide +kernel))
    | (with_reducible refine Dev.putRef_w _ _ ?_ (by decide +kernel) (by decide +kernel))
    | (with_reducible refine acceptShadow_w _ _ _ _ ?_ (by decide +kernel) (by decide +kernel))
    | (with_reducible refine Dev.proofAbort_w _ _ ?_ (by decide +kernel) (by decide +kernel))
    | (with_reducible refine learnStep_w _ _ _ _ ?_ (by decide +kernel) (by decide +kernel))
    | (with_reducible refine outlierStep_w _ _ _ ?_ (by decide +kernel) (by decide +kernel))
    | (with_reducible refine proofComplete_w _ ?_ (by decide +kernel) (by decide +kernel))
    | (with_reducible refine Within.putAt ?_ _ _ _ (by decide +kernel))
    | (with_reducible refine Within.put ?_ _ _ (by decide +kernel))
    | (with_reducible refine Within.onFpa ?_ _ (by decide +kernel))
    | (with_reducible refine Within.onPipe ?_ _ (by decide +kernel))
    | (with_reducible refine Within.onProof ?_ _ (by decide +kernel))
    | (with_reducible refine Within.ite ?_ ?_)
    | (with_reducible refine Within.iteS ?_ ?_)
    | (intro _ _ _)
    | (refine Within.ite ?_ ?_)
    | split
    | dsimp only

theorem plateAccepted_s (s : State) {M P : Nat} {dz : Dev} (hd : Within M P dz s.dev) (hm : inMask 0x80B821200000000000000000000000000000000000000000000000003000008D80003F200008F000000002000800 M = true) (hp : inMask 0x279D0 P = true) : Within M P dz (plateAccepted s).dev :=
  hd.andThen (plateAccepted_s0 s) hm hp

theorem takeCurves_s0 (b : Nat) (s : State) : Within 0x120000000000000000000000000000000000000000000000000000000000030000000000000000000000800 0x3040 s.dev (takeCurves b s).dev := by
  unfold takeCurves
  repeat' first
    | (with_reducible exact Within.refl _)
    | (with_reducible assumption)
    | ((try lift_lets); intro x_; first
      | (refine (fun (hx_ : Within 0x120000000000000000000000000000000000000000000000000000000000030000000000000000000000800 0x3040 s.dev x_) => ?rest) ?val; (case' rest => clear_value x_); (case' val => subst x_))
      | (refine (fun (hx_ : Within 0x120000000000000000000000000000000000000000000000000000000000030000000000000000000000800 0x3040 s.dev x_.dev) => ?rest) ?val; (case' rest => clear_value x_); (case' val => subst x_))
      | (have _t := fun y_ => x_ y_; clear _t; subst x_)
      | (have _t : Dev := x_.1; clear _t; subst x_)
      | (have _t : Dev := x_.2; clear _t; subst x_)
      | (have _t := fun y_ => x_ y_; clear _t; subst x_)
      | (have _t : State := x_.1; clear _t; subst x_)
      | (have _t : State := x_.2; clear _t; subst x_)
      | clear_value x_)
    | (with_reducible simp only [State.onDev_dev])
    | (with_reducible refine Within.wrQdr ?_ _ _ (by decide +kernel))
    | (with_reducible refine Within.foldlS ?_ _ _ ?_)
    | (with_reducible refine Dev.keepPush_w _ _ _ ?_ (by decide +kernel) (by decide +kernel))
    | (with_reducible refine Dev.curvePersist_w _ _ _ _ ?_ (by decide +kernel) (by decide +kernel))
    | (with_reducible refine Dev.showCurve_w _ _ _ _ ?_ (by decide +kernel) (by decide +kernel))
    | (with_reducible refine Within.putBitAt ?_ _ _ _ (by decide +kernel))
    | (with_reducible refine Within.putBit ?_ _ _ (by decide +kernel))
    | (with_reducible refine Within.onBurin ?_ _ (by decide +kernel))
    | (with_reducible refine Within.foldl ?_ _ _ ?_)
    | (with_reducible refine Within.ite ?_ ?_)
    | (with_reducible refine Within.iteS ?_ ?_)
    | (intro _ _ _)
    | (refine Within.ite ?_ ?_)
    | split
    | dsimp only

theorem takeCurves_s (b : Nat) (s : State) {M P : Nat} {dz : Dev} (hd : Within M P dz s.dev) (hm : inMask 0x120000000000000000000000000000000000000000000000000000000000030000000000000000000000800 M = true) (hp : inMask 0x3040 P = true) : Within M P dz (takeCurves b s).dev :=
  hd.andThen (takeCurves_s0 b s) hm hp

theorem takeEdits_s0 (b : Nat) (s : State) : Within 0x20000000000000000000000000000000000000000000000000000000000000000000800000000000000800 0x1840 s.dev (takeEdits b s).dev := by
  unfold takeEdits
  repeat' first
    | (with_reducible exact Within.refl _)
    | (with_reducible assumption)
    | ((try lift_lets); intro x_; first
      | (refine (fun (hx_ : Within 0x20000000000000000000000000000000000000000000000000000000000000000000800000000000000800 0x1840 s.dev x_) => ?rest) ?val; (case' rest => clear_value x_); (case' val => subst x_))
      | (refine (fun (hx_ : Within 0x20000000000000000000000000000000000000000000000000000000000000000000800000000000000800 0x1840 s.dev x_.dev) => ?rest) ?val; (case' rest => clear_value x_); (case' val => subst x_))
      | (have _t := fun y_ => x_ y_; clear _t; subst x_)
      | (have _t : Dev := x_.1; clear _t; subst x_)
      | (have _t : Dev := x_.2; clear _t; subst x_)
      | (have _t := fun y_ => x_ y_; clear _t; subst x_)
      | (have _t : State := x_.1; clear _t; subst x_)
      | (have _t : State := x_.2; clear _t; subst x_)
      | clear_value x_)
    | (with_reducible simp only [State.onDev_dev])
    | (with_reducible refine Within.foldlS ?_ _ _ ?_)
    | (with_reducible refine applyEdit_s _ _ ?_ (by decide +kernel) (by decide +kernel))
    | (with_reducible refine Within.onPipe ?_ _ (by decide +kernel))
    | (with_reducible refine Within.foldl ?_ _ _ ?_)
    | (with_reducible refine Within.ite ?_ ?_)
    | (with_reducible refine Within.iteS ?_ ?_)
    | (intro _ _ _)
    | (refine Within.ite ?_ ?_)
    | split
    | dsimp only

theorem takeEdits_s (b : Nat) (s : State) {M P : Nat} {dz : Dev} (hd : Within M P dz s.dev) (hm : inMask 0x20000000000000000000000000000000000000000000000000000000000000000000800000000000000800 M = true) (hp : inMask 0x1840 P = true) : Within M P dz (takeEdits b s).dev :=
  hd.andThen (takeEdits_s0 b s) hm hp

theorem putTrims_s0 (cg : List Int) (skim : List (Nat × Int)) (range : Nat) (s : State) : Within 0x20000000000000 0x40 s.dev (putTrims cg skim range s).dev := by
  unfold putTrims
  repeat' first
    | (with_reducible exact Within.refl _)
    | (with_reducible assumption)
    | ((try lift_lets); intro x_; first
      | (refine (fun (hx_ : Within 0x20000000000000 0x40 s.dev x_) => ?rest) ?val; (case' rest => clear_value x_); (case' val => subst x_))
      | (refine (fun (hx_ : Within 0x20000000000000 0x40 s.dev x_.dev) => ?rest) ?val; (case' rest => clear_value x_); (case' val => subst x_))
      | (have _t := fun y_ => x_ y_; clear _t; subst x_)
      | (have _t : Dev := x_.1; clear _t; subst x_)
      | (have _t : Dev := x_.2; clear _t; subst x_)
      | (have _t := fun y_ => x_ y_; clear _t; subst x_)
      | (have _t : State := x_.1; clear _t; subst x_)
      | (have _t : State := x_.2; clear _t; subst x_)
      | clear_value x_)
    | (with_reducible simp only [State.onDev_dev])
    | (with_reducible refine Within.wrQdr ?_ _ _ (by decide +kernel))
    | (with_reducible refine Within.foldlS ?_ _ _ ?_)
    | (with_reducible refine Within.putIAt ?_ _ _ _ (by decide +kernel))
    | (with_reducible refine Within.putI ?_ _ _ (by decide +kernel))
    | (with_reducible refine Within.foldl ?_ _ _ ?_)
    | (with_reducible refine Within.ite ?_ ?_)
    | (with_reducible refine Within.iteS ?_ ?_)
    | (intro _ _ _)
    | (refine Within.ite ?_ ?_)
    | split
    | dsimp only

theorem putTrims_s (cg : List Int) (skim : List (Nat × Int)) (range : Nat) (s : State) {M P : Nat} {dz : Dev} (hd : Within M P dz s.dev) (hm : inMask 0x20000000000000 M = true) (hp : inMask 0x40 P = true) : Within M P dz (putTrims cg skim range s).dev :=
  hd.andThen (putTrims_s0 cg skim range s) hm hp

theorem radioBoundary_s0 (s : State) : Within 0x8000000000000140010000000000000000000000000000000000000000000000000000000000000020000000000000 0xF0 s.dev (radioBoundary s).dev := by
  unfold radioBoundary
  repeat' first
    | (with_reducible exact Within.refl _)
    | (with_reducible assumption)
    | ((try lift_lets); intro x_; first
      | (refine (fun (hx_ : Within 0x8000000000000140010000000000000000000000000000000000000000000000000000000000000020000000000000 0xF0 s.dev x_) => ?rest) ?val; (case' rest => clear_value x_); (case' val => subst x_))
      | (refine (fun (hx_ : Within 0x8000000000000140010000000000000000000000000000000000000000000000000000000000000020000000000000 0xF0 s.dev x_.dev) => ?rest) ?val; (case' rest => clear_value x_); (case' val => subst x_))
      | (have _t := fun y_ => x_ y_; clear _t; subst x_)
      | (have _t : Dev := x_.1; clear _t; subst x_)
      | (have _t : Dev := x_.2; clear _t; subst x_)
      | (have _t := fun y_ => x_ y_; clear _t; subst x_)
      | (have _t : State := x_.1; clear _t; subst x_)
      | (have _t : State := x_.2; clear _t; subst x_)
      | clear_value x_)
    | (with_reducible simp only [State.onDev_dev])
    | (with_reducible refine putTrims_s _ _ _ _ ?_ (by decide +kernel) (by decide +kernel))
    | (with_reducible refine Dev.planShow_w _ ?_ (by decide +kernel) (by decide +kernel))
    | (with_reducible refine Dev.planCheck_w _ ?_ (by decide +kernel) (by decide +kernel))
    | (with_reducible refine Within.putBitAt ?_ _ _ _ (by decide +kernel))
    | (with_reducible refine Within.putBit ?_ _ _ (by decide +kernel))
    | (with_reducible refine Within.putAt ?_ _ _ _ (by decide +kernel))
    | (with_reducible refine Within.put ?_ _ _ (by decide +kernel))
    | (with_reducible refine Within.onHealth ?_ _ (by decide +kernel))
    | (with_reducible refine Within.ite ?_ ?_)
    | (with_reducible refine Within.iteS ?_ ?_)
    | (intro _ _ _)
    | (refine Within.ite ?_ ?_)
    | split
    | dsimp only

theorem radioBoundary_s (s : State) {M P : Nat} {dz : Dev} (hd : Within M P dz s.dev) (hm : inMask 0x8000000000000140010000000000000000000000000000000000000000000000000000000000000020000000000000 M = true) (hp : inMask 0xF0 P = true) : Within M P dz (radioBoundary s).dev :=
  hd.andThen (radioBoundary_s0 s) hm hp

theorem boundaryEffects_s0 (b : Nat) (s : State) : Within 0x8080B8212000014001000000000000000000000000000000001C0000003000008D80F01F0F00A1F02000010E000800 0x279F0 s.dev (boundaryEffects b s).dev := by
  unfold boundaryEffects
  repeat' first
    | (with_reducible exact Within.refl _)
    | (with_reducible assumption)
    | ((try lift_lets); intro x_; first
      | (refine (fun (hx_ : Within 0x8080B8212000014001000000000000000000000000000000001C0000003000008D80F01F0F00A1F02000010E000800 0x279F0 s.dev x_) => ?rest) ?val; (case' rest => clear_value x_); (case' val => subst x_))
      | (refine (fun (hx_ : Within 0x8080B8212000014001000000000000000000000000000000001C0000003000008D80F01F0F00A1F02000010E000800 0x279F0 s.dev x_.dev) => ?rest) ?val; (case' rest => clear_value x_); (case' val => subst x_))
      | (have _t := fun y_ => x_ y_; clear _t; subst x_)
      | (have _t : Dev := x_.1; clear _t; subst x_)
      | (have _t : Dev := x_.2; clear _t; subst x_)
      | (have _t := fun y_ => x_ y_; clear _t; subst x_)
      | (have _t : State := x_.1; clear _t; subst x_)
      | (have _t : State := x_.2; clear _t; subst x_)
      | clear_value x_)
    | (with_reducible simp only [State.onDev_dev])
    | (with_reducible refine takeCurves_s _ _ ?_ (by decide +kernel) (by decide +kernel))
    | (with_reducible refine takeEdits_s _ _ ?_ (by decide +kernel) (by decide +kernel))
    | (with_reducible refine radioBoundary_s _ ?_ (by decide +kernel) (by decide +kernel))
    | (with_reducible refine Dev.applyGeo_w _ ?_ (by decide +kernel) (by decide +kernel))
    | (with_reducible refine takeCommit_w _ _ ?_ (by decide +kernel) (by decide +kernel))
    | (with_reducible refine takePlates_w _ _ _ _ ?_ (by decide +kernel) (by decide +kernel))
    | (with_reducible refine showLastFrame_w _ ?_ (by decide +kernel) (by decide +kernel))
    | (with_reducible refine Within.ite ?_ ?_)
    | (with_reducible refine Within.iteS ?_ ?_)
    | (intro _ _ _)
    | (refine Within.ite ?_ ?_)
    | split
    | dsimp only

theorem boundaryEffects_s (b : Nat) (s : State) {M P : Nat} {dz : Dev} (hd : Within M P dz s.dev) (hm : inMask 0x8080B8212000014001000000000000000000000000000000001C0000003000008D80F01F0F00A1F02000010E000800 M = true) (hp : inMask 0x279F0 P = true) : Within M P dz (boundaryEffects b s).dev :=
  hd.andThen (boundaryEffects_s0 b s) hm hp

theorem readoutBoundary_s0 (s : State) : Within 0x200008080B8212000014001000000000000000000000000000000001C0000003000408D8EF01F8F05F9F16000070E000800 0x2FDF0 s.dev (readoutBoundary s).dev := by
  unfold readoutBoundary
  repeat' first
    | (with_reducible exact Within.refl _)
    | (with_reducible assumption)
    | ((try lift_lets); intro x_; first
      | (refine (fun (hx_ : Within 0x200008080B8212000014001000000000000000000000000000000001C0000003000408D8EF01F8F05F9F16000070E000800 0x2FDF0 s.dev x_) => ?rest) ?val; (case' rest => clear_value x_); (case' val => subst x_))
      | (refine (fun (hx_ : Within 0x200008080B8212000014001000000000000000000000000000000001C0000003000408D8EF01F8F05F9F16000070E000800 0x2FDF0 s.dev x_.dev) => ?rest) ?val; (case' rest => clear_value x_); (case' val => subst x_))
      | (have _t := fun y_ => x_ y_; clear _t; subst x_)
      | (have _t : Dev := x_.1; clear _t; subst x_)
      | (have _t : Dev := x_.2; clear _t; subst x_)
      | (have _t := fun y_ => x_ y_; clear _t; subst x_)
      | (have _t : State := x_.1; clear _t; subst x_)
      | (have _t : State := x_.2; clear _t; subst x_)
      | clear_value x_)
    | (with_reducible simp only [State.onDev_dev])
    | (with_reducible refine boundaryEffects_s _ _ ?_ (by decide +kernel) (by decide +kernel))
    | (with_reducible refine Dev.readoutStop_w _ ?_ (by decide +kernel) (by decide +kernel))
    | (with_reducible refine boundaryFrame_w _ _ _ _ ?_ (by decide +kernel) (by decide +kernel))
    | (with_reducible refine skipBoundary_w _ _ ?_ (by decide +kernel) (by decide +kernel))
    | (with_reducible refine Within.ite ?_ ?_)
    | (with_reducible refine Within.iteS ?_ ?_)
    | (intro _ _ _)
    | (refine Within.ite ?_ ?_)
    | split
    | dsimp only

theorem readoutBoundary_s (s : State) {M P : Nat} {dz : Dev} (hd : Within M P dz s.dev) (hm : inMask 0x200008080B8212000014001000000000000000000000000000000001C0000003000408D8EF01F8F05F9F16000070E000800 M = true) (hp : inMask 0x2FDF0 P = true) : Within M P dz (readoutBoundary s).dev :=
  hd.andThen (readoutBoundary_s0 s) hm hp

theorem scrubSweep_s0 (found : List BurstIn) (s : State) : Within 0x80B8011FC02940010000000000000000000000000000000000000000000000000000000000000000000000000000 0xF0 s.dev (scrubSweep found s).dev := by
  unfold scrubSweep
  repeat' first
    | (with_reducible exact Within.refl _)
    | (with_reducible assumption)
    | ((try lift_lets); intro x_; first
      | (refine (fun (hx_ : Within 0x80B8011FC02940010000000000000000000000000000000000000000000000000000000000000000000000000000 0xF0 s.dev x_) => ?rest) ?val; (case' rest => clear_value x_); (case' val => subst x_))
      | (refine (fun (hx_ : Within 0x80B8011FC02940010000000000000000000000000000000000000000000000000000000000000000000000000000 0xF0 s.dev x_.dev) => ?rest) ?val; (case' rest => clear_value x_); (case' val => subst x_))
      | (have _t := fun y_ => x_ y_; clear _t; subst x_)
      | (have _t : Dev := x_.1; clear _t; subst x_)
      | (have _t : Dev := x_.2; clear _t; subst x_)
      | (have _t := fun y_ => x_ y_; clear _t; subst x_)
      | (have _t : State := x_.1; clear _t; subst x_)
      | (have _t : State := x_.2; clear _t; subst x_)
      | clear_value x_)
    | (with_reducible simp only [State.onDev_dev])
    | (with_reducible refine Within.foldlS ?_ _ _ ?_)
    | (with_reducible refine readBurst_s _ _ _ _ ?_ (by decide +kernel) (by decide +kernel))
    | (with_reducible refine Dev.beginSweep_w _ ?_ (by decide +kernel) (by decide +kernel))
    | (with_reducible refine Within.foldl ?_ _ _ ?_)
    | (with_reducible refine Within.ite ?_ ?_)
    | (with_reducible refine Within.iteS ?_ ?_)
    | (intro _ _ _)
    | (refine Within.ite ?_ ?_)
    | split
    | dsimp only

theorem scrubSweep_s (found : List BurstIn) (s : State) {M P : Nat} {dz : Dev} (hd : Within M P dz s.dev) (hm : inMask 0x80B8011FC02940010000000000000000000000000000000000000000000000000000000000000000000000000000 M = true) (hp : inMask 0xF0 P = true) : Within M P dz (scrubSweep found s).dev :=
  hd.andThen (scrubSweep_s0 found s) hm hp

theorem tableWordReload_s0 (w : Nat) (s : State) : Within 0 0x40 s.dev (tableWordReload w s).dev := by
  unfold tableWordReload
  repeat' first
    | (with_reducible exact Within.refl _)
    | (with_reducible assumption)
    | (with_reducible simp only [State.onDev_dev])
    | (with_reducible refine Within.flashToQdr ?_ _ _ _ (by decide +kernel))
    | (with_reducible refine Dev.freshQdr_w _ _ _ ?_ (by decide +kernel) (by decide +kernel))
    | (with_reducible refine Within.ite ?_ ?_)
    | (with_reducible refine Within.iteS ?_ ?_)
    | (intro _ _ _)
    | (refine Within.ite ?_ ?_)
    | split
    | dsimp only

theorem tableWordReload_s (w : Nat) (s : State) {M P : Nat} {dz : Dev} (hd : Within M P dz s.dev) (hm : inMask 0 M = true) (hp : inMask 0x40 P = true) : Within M P dz (tableWordReload w s).dev :=
  hd.andThen (tableWordReload_s0 w s) hm hp

theorem windowWord_s0 (i : Nat) (o : Nat) (code : Option (List Byte)) (s : State) : Within 0x80B8011FC02140010000000000000000000000000000000000000000000000000000000000000000000000000000 0xFC s.dev ((windowWord i o code s).1).dev := by
  unfold windowWord
  repeat' first
    | (with_reducible exact Within.refl _)
    | (with_reducible assumption)
    | ((try lift_lets); intro x_; first
      | (refine (fun (hx_ : Within 0x80B8011FC02140010000000000000000000000000000000000000000000000000000000000000000000000000000 0xFC s.dev x_) => ?rest) ?val; (case' rest => clear_value x_); (case' val => subst x_))
      | (refine (fun (hx_ : Within 0x80B8011FC02140010000000000000000000000000000000000000000000000000000000000000000000000000000 0xFC s.dev x_.dev) => ?rest) ?val; (case' rest => clear_value x_); (case' val => subst x_))
      | (have _t := fun y_ => x_ y_; clear _t; subst x_)
      | (have _t : Dev := x_.1; clear _t; subst x_)
      | (have _t : Dev := x_.2; clear _t; subst x_)
      | (have _t := fun y_ => x_ y_; clear _t; subst x_)
      | (have _t : State := x_.1; clear _t; subst x_)
      | (have _t : State := x_.2; clear _t; subst x_)
      | clear_value x_)
    | (with_reducible simp only [State.onDev_dev])
    | (with_reducible refine readBurst_s _ _ _ _ ?_ (by decide +kernel) (by decide +kernel))
    | (with_reducible refine Dev.qdrUncorr_w _ _ ?_ (by decide +kernel) (by decide +kernel))
    | (with_reducible refine Dev.putPath_w _ _ _ ?_ (by decide +kernel) (by decide +kernel))
    | (with_reducible refine Within.putPath ?_ _ _ (by decide +kernel))
    | (with_reducible refine Within.fresh ?_ (by decide +kernel))
    | (with_reducible refine Within.tieBits ?_ _ _)
    | (with_reducible refine Within.ite ?_ ?_)
    | (with_reducible refine Within.iteS ?_ ?_)
    | (intro _ _ _)
    | (refine Within.ite ?_ ?_)
    | split
    | dsimp only

theorem windowWord_s1 (i : Nat) (o : Nat) (code : Option (List Byte)) (s : State) {M P : Nat} {dz : Dev} (hd : Within M P dz s.dev) (hm : inMask 0x80B8011FC02140010000000000000000000000000000000000000000000000000000000000000000000000000000 M = true) (hp : inMask 0xFC P = true) : Within M P dz ((windowWord i o code s).1).dev :=
  hd.andThen (windowWord_s0 i o code s) hm hp

theorem windowRead_s0 (p : Path) (i : Nat) (o : Nat) (code : Option (List Byte)) (s : State) : Within 0x80B8011FC02140010000000000000000000000000000000000000000000000000000000000000000000000000000 0xFE s.dev (windowRead p i o code s).dev := by
  unfold windowRead
  repeat' first
    | (with_reducible exact Within.refl _)
    | (with_reducible assumption)
    | ((try lift_lets); intro x_; first
      | (refine (fun (hx_ : Within 0x80B8011FC02140010000000000000000000000000000000000000000000000000000000000000000000000000000 0xFE s.dev x_) => ?rest) ?val; (case' rest => clear_value x_); (case' val => subst x_))
      | (refine (fun (hx_ : Within 0x80B8011FC02140010000000000000000000000000000000000000000000000000000000000000000000000000000 0xFE s.dev x_.dev) => ?rest) ?val; (case' rest => clear_value x_); (case' val => subst x_))
      | (have _t := fun y_ => x_ y_; clear _t; subst x_)
      | (have _t : Dev := x_.1; clear _t; subst x_)
      | (have _t : Dev := x_.2; clear _t; subst x_)
      | (have _t := fun y_ => x_ y_; clear _t; subst x_)
      | (have _t : State := x_.1; clear _t; subst x_)
      | (have _t : State := x_.2; clear _t; subst x_)
      | clear_value x_)
    | (with_reducible simp only [State.onDev_dev])
    | (with_reducible refine windowWord_s1 _ _ _ _ ?_ (by decide +kernel) (by decide +kernel))
    | (with_reducible refine Within.emit ?_ _ (by decide +kernel))
    | (with_reducible refine Within.ite ?_ ?_)
    | (with_reducible refine Within.iteS ?_ ?_)
    | (intro _ _ _)
    | (refine Within.ite ?_ ?_)
    | split
    | dsimp only

theorem windowRead_s (p : Path) (i : Nat) (o : Nat) (code : Option (List Byte)) (s : State) {M P : Nat} {dz : Dev} (hd : Within M P dz s.dev) (hm : inMask 0x80B8011FC02140010000000000000000000000000000000000000000000000000000000000000000000000000000 M = true) (hp : inMask 0xFE P = true) : Within M P dz (windowRead p i o code s).dev :=
  hd.andThen (windowRead_s0 p i o code s) hm hp

theorem windowWrite_s0 (i : Nat) (o : Nat) (v : Word) (s : State) : Within 0 0x48 s.dev (windowWrite i o v s).dev := by
  unfold windowWrite
  repeat' first
    | (with_reducible exact Within.refl _)
    | (with_reducible assumption)
    | ((try lift_lets); intro x_; first
      | (refine (fun (hx_ : Within 0 0x48 s.dev x_) => ?rest) ?val; (case' rest => clear_value x_); (case' val => subst x_))
      | (refine (fun (hx_ : Within 0 0x48 s.dev x_.dev) => ?rest) ?val; (case' rest => clear_value x_); (case' val => subst x_))
      | (have _t := fun y_ => x_ y_; clear _t; subst x_)
      | (have _t : Dev := x_.1; clear _t; subst x_)
      | (have _t : Dev := x_.2; clear _t; subst x_)
      | (have _t := fun y_ => x_ y_; clear _t; subst x_)
      | (have _t : State := x_.1; clear _t; subst x_)
      | (have _t : State := x_.2; clear _t; subst x_)
      | clear_value x_)
    | (with_reducible simp only [State.onDev_dev])
    | (with_reducible refine Within.wrQdr ?_ _ _ (by decide +kernel))
    | (with_reducible refine Dev.putPath_w _ _ _ ?_ (by decide +kernel) (by decide +kernel))
    | (with_reducible refine Within.putPath ?_ _ _ (by decide +kernel))
    | (with_reducible refine Within.tieBits ?_ _ _)
    | (with_reducible refine Within.ite ?_ ?_)
    | (with_reducible refine Within.iteS ?_ ?_)
    | (intro _ _ _)
    | (refine Within.ite ?_ ?_)
    | split
    | dsimp only

theorem windowWrite_s (i : Nat) (o : Nat) (v : Word) (s : State) {M P : Nat} {dz : Dev} (hd : Within M P dz s.dev) (hm : inMask 0 M = true) (hp : inMask 0x48 P = true) : Within M P dz (windowWrite i o v s).dev :=
  hd.andThen (windowWrite_s0 i o v s) hm hp

theorem doKeepRead_s0 (errs : List KeepErr) (c : Cmd) (s : State) : Within 0x80B81F00000340010000000000000000000000000000000000000000000000000000000000000000000000000000 0xF6 s.dev (doKeepRead errs c s).dev := by
  unfold doKeepRead
  repeat' first
    | (with_reducible exact Within.refl _)
    | (with_reducible assumption)
    | ((try lift_lets); intro x_; first
      | (refine (fun (hx_ : Within 0x80B81F00000340010000000000000000000000000000000000000000000000000000000000000000000000000000 0xF6 s.dev x_) => ?rest) ?val; (case' rest => clear_value x_); (case' val => subst x_))
      | (refine (fun (hx_ : Within 0x80B81F00000340010000000000000000000000000000000000000000000000000000000000000000000000000000 0xF6 s.dev x_.dev) => ?rest) ?val; (case' rest => clear_value x_); (case' val => subst x_))
      | (have _t := fun y_ => x_ y_; clear _t; subst x_)
      | (have _t : Dev := x_.1; clear _t; subst x_)
      | (have _t : Dev := x_.2; clear _t; subst x_)
      | (have _t := fun y_ => x_ y_; clear _t; subst x_)
      | (have _t : State := x_.1; clear _t; subst x_)
      | (have _t : State := x_.2; clear _t; subst x_)
      | clear_value x_)
    | (with_reducible simp only [State.onDev_dev])
    | (with_reducible refine State.returnData_s _ _ _ ?_ (by decide +kernel) (by decide +kernel))
    | (with_reducible refine Dev.complete_w _ _ _ _ _ ?_ (by decide +kernel) (by decide +kernel))
    | (with_reducible refine Dev.ok_w _ _ _ ?_ (by decide +kernel) (by decide +kernel))
    | (with_reducible refine Dev.keepSeen_w _ _ _ _ ?_ (by decide +kernel) (by decide +kernel))
    | (with_reducible refine Within.fresh ?_ (by decide +kernel))
    | (with_reducible refine Within.ite ?_ ?_)
    | (with_reducible refine Within.iteS ?_ ?_)
    | (intro _ _ _)
    | (refine Within.ite ?_ ?_)
    | split
    | dsimp only

theorem doKeepRead_s (errs : List KeepErr) (c : Cmd) (s : State) {M P : Nat} {dz : Dev} (hd : Within M P dz s.dev) (hm : inMask 0x80B81F00000340010000000000000000000000000000000000000000000000000000000000000000000000000000 M = true) (hp : inMask 0xF6 P = true) : Within M P dz (doKeepRead errs c s).dev :=
  hd.andThen (doKeepRead_s0 errs c s) hm hp

theorem doFlashRead_s0 (c : Cmd) (s : State) : Within 0x340010000000000000000000000000000000000000000000000000000000000000000000000000800 0x1076 s.dev (doFlashRead c s).dev := by
  unfold doFlashRead
  repeat' first
    | (with_reducible exact Within.refl _)
    | (with_reducible assumption)
    | ((try lift_lets); intro x_; first
      | (refine (fun (hx_ : Within 0x340010000000000000000000000000000000000000000000000000000000000000000000000000800 0x1076 s.dev x_) => ?rest) ?val; (case' rest => clear_value x_); (case' val => subst x_))
      | (refine (fun (hx_ : Within 0x340010000000000000000000000000000000000000000000000000000000000000000000000000800 0x1076 s.dev x_.dev) => ?rest) ?val; (case' rest => clear_value x_); (case' val => subst x_))
      | (have _t := fun y_ => x_ y_; clear _t; subst x_)
      | (have _t : Dev := x_.1; clear _t; subst x_)
      | (have _t : Dev := x_.2; clear _t; subst x_)
      | (have _t := fun y_ => x_ y_; clear _t; subst x_)
      | (have _t : State := x_.1; clear _t; subst x_)
      | (have _t : State := x_.2; clear _t; subst x_)
      | clear_value x_)
    | (with_reducible simp only [State.onDev_dev])
    | (with_reducible refine State.returnData_s _ _ _ ?_ (by decide +kernel) (by decide +kernel))
    | (with_reducible refine Dev.wake_w _ _ ?_ (by decide +kernel) (by decide +kernel))
    | (with_reducible refine Dev.complete_w _ _ _ _ _ ?_ (by decide +kernel) (by decide +kernel))
    | (with_reducible refine Dev.ok_w _ _ _ ?_ (by decide +kernel) (by decide +kernel))
    | (with_reducible refine Within.fresh ?_ (by decide +kernel))
    | (with_reducible refine Within.ite ?_ ?_)
    | (with_reducible refine Within.iteS ?_ ?_)
    | (intro _ _ _)
    | (refine Within.ite ?_ ?_)
    | split
    | dsimp only

theorem doFlashRead_s (c : Cmd) (s : State) {M P : Nat} {dz : Dev} (hd : Within M P dz s.dev) (hm : inMask 0x340010000000000000000000000000000000000000000000000000000000000000000000000000800 M = true) (hp : inMask 0x1076 P = true) : Within M P dz (doFlashRead c s).dev :=
  hd.andThen (doFlashRead_s0 c s) hm hp

theorem doLogRead_s0 (c : Cmd) (s : State) : Within 0x340010000000000000000000000000000000000000000000000000000000000000000000000000000 0x72 s.dev (doLogRead c s).dev := by
  unfold doLogRead
  repeat' first
    | (with_reducible exact Within.refl _)
    | (with_reducible assumption)
    | ((try lift_lets); intro x_; first
      | (refine (fun (hx_ : Within 0x340010000000000000000000000000000000000000000000000000000000000000000000000000000 0x72 s.dev x_) => ?rest) ?val; (case' rest => clear_value x_); (case' val => subst x_))
      | (refine (fun (hx_ : Within 0x340010000000000000000000000000000000000000000000000000000000000000000000000000000 0x72 s.dev x_.dev) => ?rest) ?val; (case' rest => clear_value x_); (case' val => subst x_))
      | (have _t := fun y_ => x_ y_; clear _t; subst x_)
      | (have _t : Dev := x_.1; clear _t; subst x_)
      | (have _t : Dev := x_.2; clear _t; subst x_)
      | (have _t := fun y_ => x_ y_; clear _t; subst x_)
      | (have _t : State := x_.1; clear _t; subst x_)
      | (have _t : State := x_.2; clear _t; subst x_)
      | clear_value x_)
    | (with_reducible simp only [State.onDev_dev])
    | (with_reducible refine State.returnData_s _ _ _ ?_ (by decide +kernel) (by decide +kernel))
    | (with_reducible refine Dev.ok_w _ _ _ ?_ (by decide +kernel) (by decide +kernel))
    | (with_reducible refine Within.ite ?_ ?_)
    | (with_reducible refine Within.iteS ?_ ?_)
    | (intro _ _ _)
    | (refine Within.ite ?_ ?_)
    | split
    | dsimp only

theorem doLogRead_s (c : Cmd) (s : State) {M P : Nat} {dz : Dev} (hd : Within M P dz s.dev) (hm : inMask 0x340010000000000000000000000000000000000000000000000000000000000000000000000000000 M = true) (hp : inMask 0x72 P = true) : Within M P dz (doLogRead c s).dev :=
  hd.andThen (doLogRead_s0 c s) hm hp

theorem mbxGo_s0 (p : Path) (s : State) : Within 0x40000000000000000000000000000000000000000000000000000000000000000000000000000000 0x20 s.dev (mbxGo p s).dev := by
  unfold mbxGo
  repeat' first
    | (with_reducible exact Within.refl _)
    | (with_reducible assumption)
    | ((try lift_lets); intro x_; first
      | (refine (fun (hx_ : Within 0x40000000000000000000000000000000000000000000000000000000000000000000000000000000 0x20 s.dev x_) => ?rest) ?val; (case' rest => clear_value x_); (case' val => subst x_))
      | (refine (fun (hx_ : Within 0x40000000000000000000000000000000000000000000000000000000000000000000000000000000 0x20 s.dev x_.dev) => ?rest) ?val; (case' rest => clear_value x_); (case' val => subst x_))
      | (have _t := fun y_ => x_ y_; clear _t; subst x_)
      | (have _t : Dev := x_.1; clear _t; subst x_)
      | (have _t : Dev := x_.2; clear _t; subst x_)
      | (have _t := fun y_ => x_ y_; clear _t; subst x_)
      | (have _t : State := x_.1; clear _t; subst x_)
      | (have _t : State := x_.2; clear _t; subst x_)
      | clear_value x_)
    | (with_reducible simp only [State.onDev_dev])
    | (with_reducible refine Within.putBitAt ?_ _ _ _ (by decide +kernel))
    | (with_reducible refine Within.putBit ?_ _ _ (by decide +kernel))
    | (with_reducible refine Within.flagAt ?_ _ _ (by decide +kernel))
    | (with_reducible refine Within.flag ?_ _ (by decide +kernel))
    | (with_reducible refine Within.onSec ?_ _ (by decide +kernel))
    | (with_reducible refine Within.ite ?_ ?_)
    | (with_reducible refine Within.iteS ?_ ?_)
    | (intro _ _ _)
    | (refine Within.ite ?_ ?_)
    | split
    | dsimp only

theorem mbxGo_s (p : Path) (s : State) {M P : Nat} {dz : Dev} (hd : Within M P dz s.dev) (hm : inMask 0x40000000000000000000000000000000000000000000000000000000000000000000000000000000 M = true) (hp : inMask 0x20 P = true) : Within M P dz (mbxGo p s).dev :=
  hd.andThen (mbxGo_s0 p s) hm hp

theorem doStandQuery_s0 (c : Cmd) (s : State) : Within 0x340010000000000000000000000000000000000000000000000000000000000000000000000000000 0x72 s.dev (doStandQuery c s).dev := by
  unfold doStandQuery
  repeat' first
    | (with_reducible exact Within.refl _)
    | (with_reducible assumption)
    | ((try lift_lets); intro x_; first
      | (refine (fun (hx_ : Within 0x340010000000000000000000000000000000000000000000000000000000000000000000000000000 0x72 s.dev x_) => ?rest) ?val; (case' rest => clear_value x_); (case' val => subst x_))
      | (refine (fun (hx_ : Within 0x340010000000000000000000000000000000000000000000000000000000000000000000000000000 0x72 s.dev x_.dev) => ?rest) ?val; (case' rest => clear_value x_); (case' val => subst x_))
      | (have _t := fun y_ => x_ y_; clear _t; subst x_)
      | (have _t : Dev := x_.1; clear _t; subst x_)
      | (have _t : Dev := x_.2; clear _t; subst x_)
      | (have _t := fun y_ => x_ y_; clear _t; subst x_)
      | (have _t : State := x_.1; clear _t; subst x_)
      | (have _t : State := x_.2; clear _t; subst x_)
      | clear_value x_)
    | (with_reducible simp only [State.onDev_dev])
    | (with_reducible refine State.returnData_s _ _ _ ?_ (by decide +kernel) (by decide +kernel))
    | (with_reducible refine Dev.ok_w _ _ _ ?_ (by decide +kernel) (by decide +kernel))
    | (with_reducible refine Within.ite ?_ ?_)
    | (with_reducible refine Within.iteS ?_ ?_)
    | (intro _ _ _)
    | (refine Within.ite ?_ ?_)
    | split
    | dsimp only

theorem doStandQuery_s (c : Cmd) (s : State) {M P : Nat} {dz : Dev} (hd : Within M P dz s.dev) (hm : inMask 0x340010000000000000000000000000000000000000000000000000000000000000000000000000000 M = true) (hp : inMask 0x72 P = true) : Within M P dz (doStandQuery c s).dev :=
  hd.andThen (doStandQuery_s0 c s) hm hp

theorem applyLocal_s0 (c : Cmd) (tc : Nat) (x : Nat) (g : Option Nat) (s : State) : Within 0x1800C0E8008384B8212080214201000000000000001000000006030FF805E000080020C0008D00101E000108F01FE0418B045800 0x56FFF4 s.dev (applyLocal c tc x g s).dev := by
  unfold applyLocal
  repeat' first
    | (with_reducible exact Within.refl _)
    | (with_reducible assumption)
    | ((try lift_lets); intro x_; first
      | (refine (fun (hx_ : Within 0x1800C0E8008384B8212080214201000000000000001000000006030FF805E000080020C0008D00101E000108F01FE0418B045800 0x56FFF4 s.dev x_) => ?rest) ?val; (case' rest => clear_value x_); (case' val => subst x_))
      | (refine (fun (hx_ : Within 0x1800C0E8008384B8212080214201000000000000001000000006030FF805E000080020C0008D00101E000108F01FE0418B045800 0x56FFF4 s.dev x_.dev) => ?rest) ?val; (case' rest => clear_value x_); (case' val => subst x_))
      | (have _t := fun y_ => x_ y_; clear _t; subst x_)
      | (have _t : Dev := x_.1; clear _t; subst x_)
      | (have _t : Dev := x_.2; clear _t; subst x_)
      | (have _t := fun y_ => x_ y_; clear _t; subst x_)
      | (have _t : State := x_.1; clear _t; subst x_)
      | (have _t : State := x_.2; clear _t; subst x_)
      | clear_value x_)
    | (with_reducible simp only [State.onDev_dev])
    | (with_reducible refine doPlateWrite_s _ _ ?_ (by decide +kernel) (by decide +kernel))
    | (with_reducible refine doPlateCommit_s _ _ ?_ (by decide +kernel) (by decide +kernel))
    | (with_reducible refine doFactoryRestore_s _ _ ?_ (by decide +kernel) (by decide +kernel))
    | (with_reducible refine Dev.complete_w _ _ _ _ _ ?_ (by decide +kernel) (by decide +kernel))
    | (with_reducible refine doAcqStage_w _ _ ?_ (by decide +kernel) (by decide +kernel))
    | (with_reducible refine doAcqCommit_w _ _ _ _ ?_ (by decide +kernel) (by decide +kernel))
    | (with_reducible refine doStippleEdit_w _ _ ?_ (by decide +kernel) (by decide +kernel))
    | (with_reducible refine doFrameCapture_w _ _ ?_ (by decide +kernel) (by decide +kernel))
    | (with_reducible refine doProofRequest_w _ _ ?_ (by decide +kernel) (by decide +kernel))
    | (with_reducible refine doGladeDeclare_w _ _ ?_ (by decide +kernel) (by decide +kernel))
    | (with_reducible refine doSnapshot_w _ _ ?_ (by decide +kernel) (by decide +kernel))
    | (with_reducible refine doAuxSeqLoad_w _ _ ?_ (by decide +kernel) (by decide +kernel))
    | (with_reducible refine doAuxCalZero_w _ _ ?_ (by decide +kernel) (by decide +kernel))
    | (with_reducible refine doAuxCalFull_w _ _ ?_ (by decide +kernel) (by decide +kernel))
    | (with_reducible refine doProfileDefine_w _ _ ?_ (by decide +kernel) (by decide +kernel))
    | (with_reducible refine doProfileSelect_w _ _ _ ?_ (by decide +kernel) (by decide +kernel))
    | (with_reducible refine doCurveWrite_w _ _ ?_ (by decide +kernel) (by decide +kernel))
    | (with_reducible refine doStartImaging_w _ _ ?_ (by decide +kernel) (by decide +kernel))
    | (with_reducible refine doStopImaging_w _ _ ?_ (by decide +kernel) (by decide +kernel))
    | (with_reducible refine doSelftest_w _ _ ?_ (by decide +kernel) (by decide +kernel))
    | (with_reducible refine doRepairPolicy_w _ _ ?_ (by decide +kernel) (by decide +kernel))
    | (with_reducible refine doMarginPlanRun_w _ _ ?_ (by decide +kernel) (by decide +kernel))
    | (with_reducible refine doDomainSet_w _ _ ?_ (by decide +kernel) (by decide +kernel))
    | (with_reducible refine doKeyImport_w _ _ ?_ (by decide +kernel) (by decide +kernel))
    | (with_reducible refine doKeyRetire_w _ _ ?_ (by decide +kernel) (by decide +kernel))
    | (with_reducible refine doFwStage_w _ _ ?_ (by decide +kernel) (by decide +kernel))
    | (with_reducible refine doFwSwitch_w _ _ _ ?_ (by decide +kernel) (by decide +kernel))
    | (with_reducible refine doNop_w _ _ ?_ (by decide +kernel) (by decide +kernel))
    | (with_reducible refine Within.ite ?_ ?_)
    | (with_reducible refine Within.iteS ?_ ?_)
    | (intro _ _ _)
    | (refine Within.ite ?_ ?_)
    | split
    | dsimp only

theorem applyLocal_s (c : Cmd) (tc : Nat) (x : Nat) (g : Option Nat) (s : State) {M P : Nat} {dz : Dev} (hd : Within M P dz s.dev) (hm : inMask 0x1800C0E8008384B8212080214201000000000000001000000006030FF805E000080020C0008D00101E000108F01FE0418B045800 M = true) (hp : inMask 0x56FFF4 P = true) : Within M P dz (applyLocal c tc x g s).dev :=
  hd.andThen (applyLocal_s0 c tc x g s) hm hp

theorem State.runPart_s0 (s : State) (entry : List Byte) (data : List Byte) (txn : Nat) (tc : Nat) (x : Nat) (g : Option Nat) : Within 0x1800C0E8008384B8212080214201000000000000001000000006030FF805E000080020C0008D00101E000108F01FE0418B045800 0x56FFF4 s.dev (State.runPart s entry data txn tc x g).dev := by
  unfold State.runPart
  repeat' first
    | (with_reducible exact Within.refl _)
    | (with_reducible assumption)
    | ((try lift_lets); intro x_; first
      | (refine (fun (hx_ : Within 0x1800C0E8008384B8212080214201000000000000001000000006030FF805E000080020C0008D00101E000108F01FE0418B045800 0x56FFF4 s.dev x_) => ?rest) ?val; (case' rest => clear_value x_); (case' val => subst x_))
      | (refine (fun (hx_ : Within 0x1800C0E8008384B8212080214201000000000000001000000006030FF805E000080020C0008D00101E000108F01FE0418B045800 0x56FFF4 s.dev x_.dev) => ?rest) ?val; (case' rest => clear_value x_); (case' val => subst x_))
      | (have _t := fun y_ => x_ y_; clear _t; subst x_)
      | (have _t : Dev := x_.1; clear _t; subst x_)
      | (have _t : Dev := x_.2; clear _t; subst x_)
      | (have _t := fun y_ => x_ y_; clear _t; subst x_)
      | (have _t : State := x_.1; clear _t; subst x_)
      | (have _t : State := x_.2; clear _t; subst x_)
      | clear_value x_)
    | (with_reducible simp only [State.onDev_dev])
    | (with_reducible refine applyLocal_s _ _ _ _ _ ?_ (by decide +kernel) (by decide +kernel))
    | (with_reducible refine Within.onSec ?_ _ (by decide +kernel))
    | (with_reducible refine Within.ite ?_ ?_)
    | (with_reducible refine Within.iteS ?_ ?_)
    | (intro _ _ _)
    | (refine Within.ite ?_ ?_)
    | split
    | dsimp only

theorem State.runPart_s (s : State) (entry : List Byte) (data : List Byte) (txn : Nat) (tc : Nat) (x : Nat) (g : Option Nat) {M P : Nat} {dz : Dev} (hd : Within M P dz s.dev) (hm : inMask 0x1800C0E8008384B8212080214201000000000000001000000006030FF805E000080020C0008D00101E000108F01FE0418B045800 M = true) (hp : inMask 0x56FFF4 P = true) : Within M P dz (State.runPart s entry data txn tc x g).dev :=
  hd.andThen (State.runPart_s0 s entry data txn tc x g) hm hp

theorem State.applyCommit_s0 (s : State) (entry : List Byte) (data : List Byte) (txn : Nat) (tc : Nat) (x : Nat) (gen : Nat) : Within 0x1800C0E8008384B8212080214201000000000070801000000006030FF805E000080020C0008D00101E000108F01FE0418B045800 0x76FFF4 s.dev (State.applyCommit s entry data txn tc x gen).dev := by
  unfold State.applyCommit
  repeat' first
    | (with_reducible exact Within.refl _)
    | (with_reducible assumption)
    | ((try lift_lets); intro x_; first
      | (refine (fun (hx_ : Within 0x1800C0E8008384B8212080214201000000000070801000000006030FF805E000080020C0008D00101E000108F01FE0418B045800 0x76FFF4 s.dev x_) => ?rest) ?val; (case' rest => clear_value x_); (case' val => subst x_))
      | (refine (fun (hx_ : Within 0x1800C0E8008384B8212080214201000000000070801000000006030FF805E000080020C0008D00101E000108F01FE0418B045800 0x76FFF4 s.dev x_.dev) => ?rest) ?val; (case' rest => clear_value x_); (case' val => subst x_))
      | (have _t := fun y_ => x_ y_; clear _t; subst x_)
      | (have _t : Dev := x_.1; clear _t; subst x_)
      | (have _t : Dev := x_.2; clear _t; subst x_)
      | (have _t := fun y_ => x_ y_; clear _t; subst x_)
      | (have _t : State := x_.1; clear _t; subst x_)
      | (have _t : State := x_.2; clear _t; subst x_)
      | clear_value x_)
    | (with_reducible simp only [State.onDev_dev])
    | (with_reducible refine State.runPart_s _ _ _ _ _ _ _ ?_ (by decide +kernel) (by decide +kernel))
    | (with_reducible refine Dev.sendDone_w _ _ _ ?_ (by decide +kernel) (by decide +kernel))
    | (with_reducible refine Within.onSec ?_ _ (by decide +kernel))
    | (with_reducible refine Within.onStand ?_ _ (by decide +kernel))
    | (with_reducible refine Within.ite ?_ ?_)
    | (with_reducible refine Within.iteS ?_ ?_)
    | (intro _ _ _)
    | (refine Within.ite ?_ ?_)
    | split
    | dsimp only

theorem State.applyCommit_s (s : State) (entry : List Byte) (data : List Byte) (txn : Nat) (tc : Nat) (x : Nat) (gen : Nat) {M P : Nat} {dz : Dev} (hd : Within M P dz s.dev) (hm : inMask 0x1800C0E8008384B8212080214201000000000070801000000006030FF805E000080020C0008D00101E000108F01FE0418B045800 M = true) (hp : inMask 0x76FFF4 P = true) : Within M P dz (State.applyCommit s entry data txn tc x gen).dev :=
  hd.andThen (State.applyCommit_s0 s entry data txn tc x gen) hm hp

theorem State.groupCommit_s0 (s : State) (g : Group) (tc : Nat) (x : Nat) (gen : Nat) :
    Within 0x1800C0E8008384B8212080214201000000000070801000000006030FF805E000080020C0008D00101E000108F01FE0418B045800 0x76FFF4 s.dev (State.groupCommit s g tc x gen).dev := by
  unfold State.groupCommit
  extract_lets g' u
  have hf : Within 0x1800C0E8008384B8212080214201000000000070801000000006030FF805E000080020C0008D00101E000108F01FE0418B045800 0x76FFF4 s.dev u.dev :=
    Dev.bcast_w _ _ _ _ (Within.put (Within.onStand (Within.refl _) _ (by decide +kernel)) _ _ (by decide +kernel)) (by decide +kernel) (by decide +kernel)
  clear_value u g'
  split
  · exact State.applyCommit_s _ _ _ _ _ _ _ hf (by decide +kernel) (by decide +kernel)
  · exact hf

theorem State.groupCommit_s (s : State) (g : Group) (tc : Nat) (x : Nat) (gen : Nat) {M P : Nat} {dz : Dev} (hd : Within M P dz s.dev)
    (hm : inMask 0x1800C0E8008384B8212080214201000000000070801000000006030FF805E000080020C0008D00101E000108F01FE0418B045800 M = true) (hp : inMask 0x76FFF4 P = true) : Within M P dz (State.groupCommit s g tc x gen).dev :=
  hd.andThen (State.groupCommit_s0 s g tc x gen) hm hp

theorem State.groupDecide_s0 (s : State) : Within 0x1800C0E8008384B8212080214201000000000070801000000006030FF805E000080020C0008D00101E000108F01FE0418B045800 0x76FFF4 s.dev (State.groupDecide s).dev := by
  unfold State.groupDecide
  repeat' first
    | (with_reducible exact Within.refl _)
    | (with_reducible assumption)
    | ((try lift_lets); intro x_; first
      | (refine (fun (hx_ : Within 0x1800C0E8008384B8212080214201000000000070801000000006030FF805E000080020C0008D00101E000108F01FE0418B045800 0x76FFF4 s.dev x_) => ?rest) ?val; (case' rest => clear_value x_); (case' val => subst x_))
      | (refine (fun (hx_ : Within 0x1800C0E8008384B8212080214201000000000070801000000006030FF805E000080020C0008D00101E000108F01FE0418B045800 0x76FFF4 s.dev x_.dev) => ?rest) ?val; (case' rest => clear_value x_); (case' val => subst x_))
      | (have _t := fun y_ => x_ y_; clear _t; subst x_)
      | (have _t : Dev := x_.1; clear _t; subst x_)
      | (have _t : Dev := x_.2; clear _t; subst x_)
      | (have _t := fun y_ => x_ y_; clear _t; subst x_)
      | (have _t : State := x_.1; clear _t; subst x_)
      | (have _t : State := x_.2; clear _t; subst x_)
      | clear_value x_)
    | (with_reducible simp only [State.onDev_dev])
    | (with_reducible refine Within.foldlS ?_ _ _ ?_)
    | (with_reducible refine State.groupCommit_s _ _ _ _ _ ?_ (by decide +kernel) (by decide +kernel))
    | (with_reducible refine Dev.ok_w _ _ _ ?_ (by decide +kernel) (by decide +kernel))
    | (with_reducible refine Dev.ctrlUp_w _ _ _ _ ?_ (by decide +kernel) (by decide +kernel))
    | (with_reducible refine Dev.groupAbort_w _ _ _ ?_ (by decide +kernel) (by decide +kernel))
    | (with_reducible refine Within.onStand ?_ _ (by decide +kernel))
    | (with_reducible refine Within.foldl ?_ _ _ ?_)
    | (with_reducible refine Within.ite ?_ ?_)
    | (with_reducible refine Within.iteS ?_ ?_)
    | (intro _ _ _)
    | (refine Within.ite ?_ ?_)
    | split
    | dsimp only

theorem State.groupDecide_s (s : State) {M P : Nat} {dz : Dev} (hd : Within M P dz s.dev) (hm : inMask 0x1800C0E8008384B8212080214201000000000070801000000006030FF805E000080020C0008D00101E000108F01FE0418B045800 M = true) (hp : inMask 0x76FFF4 P = true) : Within M P dz (State.groupDecide s).dev :=
  hd.andThen (State.groupDecide_s0 s) hm hp

theorem State.groupStart_s0 (s : State) (k : Option Nat) (up : Option Nat) (entry : List Byte) (data : List Byte) (mask : Nat) : Within 0x1800C0E8008384B8212080214281000000000070801000000006030FF805E000080020C0008D00101E000108F01FE0418B045800 0x76FFF4 s.dev (State.groupStart s k up entry data mask).dev := by
  unfold State.groupStart
  repeat' first
    | (with_reducible exact Within.refl _)
    | (with_reducible assumption)
    | ((try lift_lets); intro x_; first
      | (refine (fun (hx_ : Within 0x1800C0E8008384B8212080214281000000000070801000000006030FF805E000080020C0008D00101E000108F01FE0418B045800 0x76FFF4 s.dev x_) => ?rest) ?val; (case' rest => clear_value x_); (case' val => subst x_))
      | (refine (fun (hx_ : Within 0x1800C0E8008384B8212080214281000000000070801000000006030FF805E000080020C0008D00101E000108F01FE0418B045800 0x76FFF4 s.dev x_.dev) => ?rest) ?val; (case' rest => clear_value x_); (case' val => subst x_))
      | (have _t := fun y_ => x_ y_; clear _t; subst x_)
      | (have _t : Dev := x_.1; clear _t; subst x_)
      | (have _t : Dev := x_.2; clear _t; subst x_)
      | (have _t := fun y_ => x_ y_; clear _t; subst x_)
      | (have _t : State := x_.1; clear _t; subst x_)
      | (have _t : State := x_.2; clear _t; subst x_)
      | clear_value x_)
    | (with_reducible simp only [State.onDev_dev])
    | (with_reducible refine Within.foldlS ?_ _ _ ?_)
    | (with_reducible refine State.groupDecide_s _ ?_ (by decide +kernel) (by decide +kernel))
    | (with_reducible refine Dev.ok_w _ _ _ ?_ (by decide +kernel) (by decide +kernel))
    | (with_reducible refine Dev.bcastMsg_w _ _ _ ?_ (by decide +kernel) (by decide +kernel))
    | (with_reducible refine Dev.showGroup_w _ _ _ _ _ _ ?_ (by decide +kernel) (by decide +kernel))
    | (with_reducible refine sendAuth_w _ _ _ _ _ ?_ (by decide +kernel) (by decide +kernel))
    | (with_reducible refine Within.onStand ?_ _ (by decide +kernel))
    | (with_reducible refine Within.foldl ?_ _ _ ?_)
    | (with_reducible refine Within.ite ?_ ?_)
    | (with_reducible refine Within.iteS ?_ ?_)
    | (intro _ _ _)
    | (refine Within.ite ?_ ?_)
    | split
    | dsimp only

theorem State.groupStart_s (s : State) (k : Option Nat) (up : Option Nat) (entry : List Byte) (data : List Byte) (mask : Nat) {M P : Nat} {dz : Dev} (hd : Within M P dz s.dev) (hm : inMask 0x1800C0E8008384B8212080214281000000000070801000000006030FF805E000080020C0008D00101E000108F01FE0418B045800 M = true) (hp : inMask 0x76FFF4 P = true) : Within M P dz (State.groupStart s k up entry data mask).dev :=
  hd.andThen (State.groupStart_s0 s k up entry data mask) hm hp

theorem groupBegin_s0 (c : Cmd) (s : State) : Within 0x1800C0E8008384B8212080214281000000000070801000000006030FF805E000080020C0008D00101E000108F01FE0418B045800 0x76FFF4 s.dev (groupBegin c s).dev := by
  unfold groupBegin
  repeat' first
    | (with_reducible exact Within.refl _)
    | (with_reducible assumption)
    | ((try lift_lets); intro x_; first
      | (refine (fun (hx_ : Within 0x1800C0E8008384B8212080214281000000000070801000000006030FF805E000080020C0008D00101E000108F01FE0418B045800 0x76FFF4 s.dev x_) => ?rest) ?val; (case' rest => clear_value x_); (case' val => subst x_))
      | (refine (fun (hx_ : Within 0x1800C0E8008384B8212080214281000000000070801000000006030FF805E000080020C0008D00101E000108F01FE0418B045800 0x76FFF4 s.dev x_.dev) => ?rest) ?val; (case' rest => clear_value x_); (case' val => subst x_))
      | (have _t := fun y_ => x_ y_; clear _t; subst x_)
      | (have _t : Dev := x_.1; clear _t; subst x_)
      | (have _t : Dev := x_.2; clear _t; subst x_)
      | (have _t := fun y_ => x_ y_; clear _t; subst x_)
      | (have _t : State := x_.1; clear _t; subst x_)
      | (have _t : State := x_.2; clear _t; subst x_)
      | clear_value x_)
    | (with_reducible simp only [State.onDev_dev])
    | (with_reducible refine State.groupStart_s _ _ _ _ _ _ ?_ (by decide +kernel) (by decide +kernel))
    | (with_reducible refine Dev.complete_w _ _ _ _ _ ?_ (by decide +kernel) (by decide +kernel))
    | (with_reducible refine Within.ite ?_ ?_)
    | (with_reducible refine Within.iteS ?_ ?_)
    | (intro _ _ _)
    | (refine Within.ite ?_ ?_)
    | split
    | dsimp only

theorem groupBegin_s (c : Cmd) (s : State) {M P : Nat} {dz : Dev} (hd : Within M P dz s.dev) (hm : inMask 0x1800C0E8008384B8212080214281000000000070801000000006030FF805E000080020C0008D00101E000108F01FE0418B045800 M = true) (hp : inMask 0x76FFF4 P = true) : Within M P dz (groupBegin c s).dev :=
  hd.andThen (groupBegin_s0 c s) hm hp

theorem State.fromParent_s0 (s : State) (up : Nat) (entry : List Byte) (data : List Byte) : Within 0x1800C0E8008384B8212080214281000000000070801000000006030FF805E000080020C0008D00101E000108F01FE0418B045800 0x76FFF4 s.dev (State.fromParent s up entry data).dev := by
  unfold State.fromParent
  repeat' first
    | (with_reducible exact Within.refl _)
    | (with_reducible assumption)
    | ((try lift_lets); intro x_; first
      | (refine (fun (hx_ : Within 0x1800C0E8008384B8212080214281000000000070801000000006030FF805E000080020C0008D00101E000108F01FE0418B045800 0x76FFF4 s.dev x_) => ?rest) ?val; (case' rest => clear_value x_); (case' val => subst x_))
      | (refine (fun (hx_ : Within 0x1800C0E8008384B8212080214281000000000070801000000006030FF805E000080020C0008D00101E000108F01FE0418B045800 0x76FFF4 s.dev x_.dev) => ?rest) ?val; (case' rest => clear_value x_); (case' val => subst x_))
      | (have _t := fun y_ => x_ y_; clear _t; subst x_)
      | (have _t : Dev := x_.1; clear _t; subst x_)
      | (have _t : Dev := x_.2; clear _t; subst x_)
      | (have _t := fun y_ => x_ y_; clear _t; subst x_)
      | (have _t : State := x_.1; clear _t; subst x_)
      | (have _t : State := x_.2; clear _t; subst x_)
      | clear_value x_)
    | (with_reducible simp only [State.onDev_dev])
    | (with_reducible refine State.groupStart_s _ _ _ _ _ _ ?_ (by decide +kernel) (by decide +kernel))
    | (with_reducible refine Dev.ctrlUp_w _ _ _ _ ?_ (by decide +kernel) (by decide +kernel))
    | (with_reducible refine Within.ite ?_ ?_)
    | (with_reducible refine Within.iteS ?_ ?_)
    | (intro _ _ _)
    | (refine Within.ite ?_ ?_)
    | split
    | dsimp only

theorem State.fromParent_s (s : State) (up : Nat) (entry : List Byte) (data : List Byte) {M P : Nat} {dz : Dev} (hd : Within M P dz s.dev) (hm : inMask 0x1800C0E8008384B8212080214281000000000070801000000006030FF805E000080020C0008D00101E000108F01FE0418B045800 M = true) (hp : inMask 0x76FFF4 P = true) : Within M P dz (State.fromParent s up entry data).dev :=
  hd.andThen (State.fromParent_s0 s up entry data) hm hp

theorem prepareIn_s0 (fl : Flit) (data : List Byte) (s : State) : Within 0x1800C0E8008384B8212080214281000000000070801000000006030FF805E000080020C0008D00101E000108F01FE0418B045800 0x76FFF4 s.dev (prepareIn fl data s).dev := by
  unfold prepareIn
  repeat' first
    | (with_reducible exact Within.refl _)
    | (with_reducible assumption)
    | ((try lift_lets); intro x_; first
      | (refine (fun (hx_ : Within 0x1800C0E8008384B8212080214281000000000070801000000006030FF805E000080020C0008D00101E000108F01FE0418B045800 0x76FFF4 s.dev x_) => ?rest) ?val; (case' rest => clear_value x_); (case' val => subst x_))
      | (refine (fun (hx_ : Within 0x1800C0E8008384B8212080214281000000000070801000000006030FF805E000080020C0008D00101E000108F01FE0418B045800 0x76FFF4 s.dev x_.dev) => ?rest) ?val; (case' rest => clear_value x_); (case' val => subst x_))
      | (have _t := fun y_ => x_ y_; clear _t; subst x_)
      | (have _t : Dev := x_.1; clear _t; subst x_)
      | (have _t : Dev := x_.2; clear _t; subst x_)
      | (have _t := fun y_ => x_ y_; clear _t; subst x_)
      | (have _t : State := x_.1; clear _t; subst x_)
      | (have _t : State := x_.2; clear _t; subst x_)
      | clear_value x_)
    | (with_reducible simp only [State.onDev_dev])
    | (with_reducible refine State.fromParent_s _ _ _ _ ?_ (by decide +kernel) (by decide +kernel))
    | (with_reducible refine Dev.answerVote_w _ _ _ _ _ ?_ (by decide +kernel) (by decide +kernel))
    | (with_reducible refine Within.ite ?_ ?_)
    | (with_reducible refine Within.iteS ?_ ?_)
    | (intro _ _ _)
    | (refine Within.ite ?_ ?_)
    | split
    | dsimp only

theorem prepareIn_s (fl : Flit) (data : List Byte) (s : State) {M P : Nat} {dz : Dev} (hd : Within M P dz s.dev) (hm : inMask 0x1800C0E8008384B8212080214281000000000070801000000006030FF805E000080020C0008D00101E000108F01FE0418B045800 M = true) (hp : inMask 0x76FFF4 P = true) : Within M P dz (prepareIn fl data s).dev :=
  hd.andThen (prepareIn_s0 fl data s) hm hp

theorem authIn_s0 (fl : Flit) (data : List Byte) (s : State) : Within 0x1800C0E8008384B82120802142F9000000000070801000000006030FF805E000080020C0008D00101E000108F01FE0418B045800 0x76FFF4 s.dev (authIn fl data s).dev := by
  unfold authIn
  repeat' first
    | (with_reducible exact Within.refl _)
    | (with_reducible assumption)
    | ((try lift_lets); intro x_; first
      | (refine (fun (hx_ : Within 0x1800C0E8008384B82120802142F9000000000070801000000006030FF805E000080020C0008D00101E000108F01FE0418B045800 0x76FFF4 s.dev x_) => ?rest) ?val; (case' rest => clear_value x_); (case' val => subst x_))
      | (refine (fun (hx_ : Within 0x1800C0E8008384B82120802142F9000000000070801000000006030FF805E000080020C0008D00101E000108F01FE0418B045800 0x76FFF4 s.dev x_.dev) => ?rest) ?val; (case' rest => clear_value x_); (case' val => subst x_))
      | (have _t := fun y_ => x_ y_; clear _t; subst x_)
      | (have _t : Dev := x_.1; clear _t; subst x_)
      | (have _t : Dev := x_.2; clear _t; subst x_)
      | (have _t := fun y_ => x_ y_; clear _t; subst x_)
      | (have _t : State := x_.1; clear _t; subst x_)
      | (have _t : State := x_.2; clear _t; subst x_)
      | clear_value x_)
    | (with_reducible simp only [State.onDev_dev])
    | (with_reducible refine State.fromParent_s _ _ _ _ ?_ (by decide +kernel) (by decide +kernel))
    | (with_reducible refine Dev.ctrlUp_w _ _ _ _ ?_ (by decide +kernel) (by decide +kernel))
    | (with_reducible refine Dev.answerVote_w _ _ _ _ _ ?_ (by decide +kernel) (by decide +kernel))
    | (with_reducible refine critCheck_w1 _ _ _ ?_ (by decide +kernel) (by decide +kernel))
    | (with_reducible refine critCheck_w _ _ _ _ _ (by assumption) ?_ (by decide +kernel) (by decide +kernel))
    | (with_reducible refine Within.ite ?_ ?_)
    | (with_reducible refine Within.iteS ?_ ?_)
    | (intro _ _ _)
    | (refine Within.ite ?_ ?_)
    | split
    | dsimp only

theorem authIn_s (fl : Flit) (data : List Byte) (s : State) {M P : Nat} {dz : Dev} (hd : Within M P dz s.dev) (hm : inMask 0x1800C0E8008384B82120802142F9000000000070801000000006030FF805E000080020C0008D00101E000108F01FE0418B045800 M = true) (hp : inMask 0x76FFF4 P = true) : Within M P dz (authIn fl data s).dev :=
  hd.andThen (authIn_s0 fl data s) hm hp

theorem voteIn_s0 (fl : Flit) (s : State) : Within 0x1800C0E8008384B8212080214201000000000070801000000006030FF805E000080020C0008D00101E000108F01FE0418B045800 0x76FFF4 s.dev (voteIn fl s).dev := by
  unfold voteIn
  repeat' first
    | (with_reducible exact Within.refl _)
    | (with_reducible assumption)
    | ((try lift_lets); intro x_; first
      | (refine (fun (hx_ : Within 0x1800C0E8008384B8212080214201000000000070801000000006030FF805E000080020C0008D00101E000108F01FE0418B045800 0x76FFF4 s.dev x_) => ?rest) ?val; (case' rest => clear_value x_); (case' val => subst x_))
      | (refine (fun (hx_ : Within 0x1800C0E8008384B8212080214201000000000070801000000006030FF805E000080020C0008D00101E000108F01FE0418B045800 0x76FFF4 s.dev x_.dev) => ?rest) ?val; (case' rest => clear_value x_); (case' val => subst x_))
      | (have _t := fun y_ => x_ y_; clear _t; subst x_)
      | (have _t : Dev := x_.1; clear _t; subst x_)
      | (have _t : Dev := x_.2; clear _t; subst x_)
      | (have _t := fun y_ => x_ y_; clear _t; subst x_)
      | (have _t : State := x_.1; clear _t; subst x_)
      | (have _t : State := x_.2; clear _t; subst x_)
      | clear_value x_)
    | (with_reducible simp only [State.onDev_dev])
    | (with_reducible refine State.groupDecide_s _ ?_ (by decide +kernel) (by decide +kernel))
    | (with_reducible refine Within.onStand ?_ _ (by decide +kernel))
    | (with_reducible refine Within.ite ?_ ?_)
    | (with_reducible refine Within.iteS ?_ ?_)
    | (intro _ _ _)
    | (refine Within.ite ?_ ?_)
    | split
    | dsimp only

theorem voteIn_s (fl : Flit) (s : State) {M P : Nat} {dz : Dev} (hd : Within M P dz s.dev) (hm : inMask 0x1800C0E8008384B8212080214201000000000070801000000006030FF805E000080020C0008D00101E000108F01FE0418B045800 M = true) (hp : inMask 0x76FFF4 P = true) : Within M P dz (voteIn fl s).dev :=
  hd.andThen (voteIn_s0 fl s) hm hp

theorem commitIn_s0 (fl : Flit) (s : State) : Within 0x1800C0E8008384B8212080214201000000000070801000000006030FF805E000080020C0008D00101E000108F01FE0418B045800 0x76FFF4 s.dev (commitIn fl s).dev := by
  unfold commitIn
  repeat' first
    | (with_reducible exact Within.refl _)
    | (with_reducible assumption)
    | ((try lift_lets); intro x_; first
      | (refine (fun (hx_ : Within 0x1800C0E8008384B8212080214201000000000070801000000006030FF805E000080020C0008D00101E000108F01FE0418B045800 0x76FFF4 s.dev x_) => ?rest) ?val; (case' rest => clear_value x_); (case' val => subst x_))
      | (refine (fun (hx_ : Within 0x1800C0E8008384B8212080214201000000000070801000000006030FF805E000080020C0008D00101E000108F01FE0418B045800 0x76FFF4 s.dev x_.dev) => ?rest) ?val; (case' rest => clear_value x_); (case' val => subst x_))
      | (have _t := fun y_ => x_ y_; clear _t; subst x_)
      | (have _t : Dev := x_.1; clear _t; subst x_)
      | (have _t : Dev := x_.2; clear _t; subst x_)
      | (have _t := fun y_ => x_ y_; clear _t; subst x_)
      | (have _t : State := x_.1; clear _t; subst x_)
      | (have _t : State := x_.2; clear _t; subst x_)
      | clear_value x_)
    | (with_reducible simp only [State.onDev_dev])
    | (with_reducible refine State.applyCommit_s _ _ _ _ _ _ _ ?_ (by decide +kernel) (by decide +kernel))
    | (with_reducible refine State.groupCommit_s _ _ _ _ _ ?_ (by decide +kernel) (by decide +kernel))
    | (with_reducible refine Within.onStand ?_ _ (by decide +kernel))
    | (with_reducible refine Within.ite ?_ ?_)
    | (with_reducible refine Within.iteS ?_ ?_)
    | (intro _ _ _)
    | (refine Within.ite ?_ ?_)
    | split
    | dsimp only

theorem commitIn_s (fl : Flit) (s : State) {M P : Nat} {dz : Dev} (hd : Within M P dz s.dev) (hm : inMask 0x1800C0E8008384B8212080214201000000000070801000000006030FF805E000080020C0008D00101E000108F01FE0418B045800 M = true) (hp : inMask 0x76FFF4 P = true) : Within M P dz (commitIn fl s).dev :=
  hd.andThen (commitIn_s0 fl s) hm hp

theorem targetPage_s0 (w : KeepWhat) (i : Nat) (s : State) : Within 0 0 s.dev (targetPage w i s).dev := by
  unfold targetPage
  repeat' first
    | (with_reducible exact Within.refl _)
    | (with_reducible assumption)
    | (with_reducible simp only [State.onDev_dev])
    | (with_reducible rw [State.wrKeep_dev])
    | (with_reducible refine Within.ite ?_ ?_)
    | (with_reducible refine Within.iteS ?_ ?_)
    | (intro _ _ _)
    | (refine Within.ite ?_ ?_)
    | split
    | dsimp only

theorem targetPage_s (w : KeepWhat) (i : Nat) (s : State) {M P : Nat} {dz : Dev} (hd : Within M P dz s.dev) (hm : inMask 0 M = true) (hp : inMask 0 P = true) : Within M P dz (targetPage w i s).dev :=
  hd.andThen (targetPage_s0 w i s) hm hp

theorem keepPageDone_s0 (ok : Bool) (s : State) : Within 0x1000000080B80100000140050000000000000000000000000000000000000000000000000000000000000000000000000000 0x7004F0 s.dev (keepPageDone ok s).dev := by
  unfold keepPageDone
  repeat' first
    | (with_reducible exact Within.refl _)
    | (with_reducible assumption)
    | ((try lift_lets); intro x_; first
      | (refine (fun (hx_ : Within 0x1000000080B80100000140050000000000000000000000000000000000000000000000000000000000000000000000000000 0x7004F0 s.dev x_) => ?rest) ?val; (case' rest => clear_value x_); (case' val => subst x_))
      | (refine (fun (hx_ : Within 0x1000000080B80100000140050000000000000000000000000000000000000000000000000000000000000000000000000000 0x7004F0 s.dev x_.dev) => ?rest) ?val; (case' rest => clear_value x_); (case' val => subst x_))
      | (have _t := fun y_ => x_ y_; clear _t; subst x_)
      | (have _t : Dev := x_.1; clear _t; subst x_)
      | (have _t : Dev := x_.2; clear _t; subst x_)
      | (have _t := fun y_ => x_ y_; clear _t; subst x_)
      | (have _t : State := x_.1; clear _t; subst x_)
      | (have _t : State := x_.2; clear _t; subst x_)
      | clear_value x_)
    | (with_reducible simp only [State.onDev_dev])
    | (with_reducible refine targetPage_s _ _ _ ?_ (by decide +kernel) (by decide +kernel))
    | (with_reducible refine commitKeep_w _ _ ?_ (by decide +kernel) (by decide +kernel))
    | (with_reducible refine keepLost_w _ _ ?_ (by decide +kernel) (by decide +kernel))
    | (with_reducible refine Within.putBitAt ?_ _ _ _ (by decide +kernel))
    | (with_reducible refine Within.putBit ?_ _ _ (by decide +kernel))
    | (with_reducible refine Within.onStore ?_ _ (by decide +kernel))
    | (with_reducible refine Within.ite ?_ ?_)
    | (with_reducible refine Within.iteS ?_ ?_)
    | (intro _ _ _)
    | (refine Within.ite ?_ ?_)
    | split
    | dsimp only

theorem keepPageDone_s (ok : Bool) (s : State) {M P : Nat} {dz : Dev} (hd : Within M P dz s.dev) (hm : inMask 0x1000000080B80100000140050000000000000000000000000000000000000000000000000000000000000000000000000000 M = true) (hp : inMask 0x7004F0 P = true) : Within M P dz (keepPageDone ok s).dev :=
  hd.andThen (keepPageDone_s0 ok s) hm hp

theorem flashOk_s0 (w : FlashWhat) (s : State) : Within 0x146010000000000000000000000000000000000000000000000000000000000000000000000000040 0x70 s.dev (flashOk w s).dev := by
  unfold flashOk
  repeat' first
    | (with_reducible exact Within.refl _)
    | (with_reducible assumption)
    | ((try lift_lets); intro x_; first
      | (refine (fun (hx_ : Within 0x146010000000000000000000000000000000000000000000000000000000000000000000000000040 0x70 s.dev x_) => ?rest) ?val; (case' rest => clear_value x_); (case' val => subst x_))
      | (refine (fun (hx_ : Within 0x146010000000000000000000000000000000000000000000000000000000000000000000000000040 0x70 s.dev x_.dev) => ?rest) ?val; (case' rest => clear_value x_); (case' val => subst x_))
      | (have _t := fun y_ => x_ y_; clear _t; subst x_)
      | (have _t : Dev := x_.1; clear _t; subst x_)
      | (have _t : Dev := x_.2; clear _t; subst x_)
      | (have _t := fun y_ => x_ y_; clear _t; subst x_)
      | (have _t : State := x_.1; clear _t; subst x_)
      | (have _t : State := x_.2; clear _t; subst x_)
      | clear_value x_)
    | (with_reducible simp only [State.onDev_dev])
    | (with_reducible rw [State.wrFlash_dev])
    | (with_reducible rw [State.eraseFlash_dev])
    | (with_reducible rw [State.qdrToFlash_dev])
    | (with_reducible refine Within.foldlS ?_ _ _ ?_)
    | (with_reducible refine State.writeCheck_s _ _ _ _ ?_ (by decide +kernel) (by decide +kernel))
    | (with_reducible refine putBank_w _ _ _ ?_ (by decide +kernel) (by decide +kernel))
    | (with_reducible refine Dev.ok_w _ _ _ ?_ (by decide +kernel) (by decide +kernel))
    | (with_reducible refine Dev.completeK_w _ _ _ _ _ ?_ (by decide +kernel) (by decide +kernel))
    | (with_reducible refine Dev.putSlot_w _ _ _ _ ?_ (by decide +kernel) (by decide +kernel))
    | (with_reducible refine Dev.fwNotShip_w _ _ ?_ (by decide +kernel) (by decide +kernel))
    | (with_reducible refine Within.putBitAt ?_ _ _ _ (by decide +kernel))
    | (with_reducible refine Within.putBit ?_ _ _ (by decide +kernel))
    | (with_reducible refine Within.putAt ?_ _ _ _ (by decide +kernel))
    | (with_reducible refine Within.put ?_ _ _ (by decide +kernel))
    | (with_reducible refine Within.onStore ?_ _ (by decide +kernel))
    | (with_reducible refine Within.foldl ?_ _ _ ?_)
    | (with_reducible refine Within.ite ?_ ?_)
    | (with_reducible refine Within.iteS ?_ ?_)
    | (intro _ _ _)
    | (refine Within.ite ?_ ?_)
    | split
    | dsimp only

theorem flashOk_s (w : FlashWhat) (s : State) {M P : Nat} {dz : Dev} (hd : Within M P dz s.dev) (hm : inMask 0x146010000000000000000000000000000000000000000000000000000000000000000000000000040 M = true) (hp : inMask 0x70 P = true) : Within M P dz (flashOk w s).dev :=
  hd.andThen (flashOk_s0 w s) hm hp

theorem flashDone_s0 (ok : Bool) (s : State) : Within 0x80B801A0000146010000000000000000000000000000000000000000000000000000000000000000000000000840 0x30F0 s.dev (flashDone ok s).dev := by
  unfold flashDone
  repeat' first
    | (with_reducible exact Within.refl _)
    | (with_reducible assumption)
    | ((try lift_lets); intro x_; first
      | (refine (fun (hx_ : Within 0x80B801A0000146010000000000000000000000000000000000000000000000000000000000000000000000000840 0x30F0 s.dev x_) => ?rest) ?val; (case' rest => clear_value x_); (case' val => subst x_))
      | (refine (fun (hx_ : Within 0x80B801A0000146010000000000000000000000000000000000000000000000000000000000000000000000000840 0x30F0 s.dev x_.dev) => ?rest) ?val; (case' rest => clear_value x_); (case' val => subst x_))
      | (have _t := fun y_ => x_ y_; clear _t; subst x_)
      | (have _t : Dev := x_.1; clear _t; subst x_)
      | (have _t : Dev := x_.2; clear _t; subst x_)
      | (have _t := fun y_ => x_ y_; clear _t; subst x_)
      | (have _t : State := x_.1; clear _t; subst x_)
      | (have _t : State := x_.2; clear _t; subst x_)
      | clear_value x_)
    | (with_reducible simp only [State.onDev_dev])
    | (with_reducible refine flashOk_s _ _ ?_ (by decide +kernel) (by decide +kernel))
    | (with_reducible refine Dev.event_w _ _ _ ?_ (by decide +kernel) (by decide +kernel))
    | (with_reducible refine flashLost_w _ _ ?_ (by decide +kernel) (by decide +kernel))
    | (with_reducible refine Dev.curveNext_w _ _ ?_ (by decide +kernel) (by decide +kernel))
    | (with_reducible refine Within.putBitAt ?_ _ _ _ (by decide +kernel))
    | (with_reducible refine Within.putBit ?_ _ _ (by decide +kernel))
    | (with_reducible refine Within.flagAt ?_ _ _ (by decide +kernel))
    | (with_reducible refine Within.flag ?_ _ (by decide +kernel))
    | (with_reducible refine Within.incAt ?_ _ _ (by decide +kernel))
    | (with_reducible refine Within.inc ?_ _ (by decide +kernel))
    | (with_reducible refine Within.onStore ?_ _ (by decide +kernel))
    | (with_reducible refine Within.ite ?_ ?_)
    | (with_reducible refine Within.iteS ?_ ?_)
    | (intro _ _ _)
    | (refine Within.ite ?_ ?_)
    | split
    | dsimp only

theorem flashDone_s (ok : Bool) (s : State) {M P : Nat} {dz : Dev} (hd : Within M P dz s.dev) (hm : inMask 0x80B801A0000146010000000000000000000000000000000000000000000000000000000000000000000000000840 M = true) (hp : inMask 0x30F0 P = true) : Within M P dz (flashDone ok s).dev :=
  hd.andThen (flashDone_s0 ok s) hm hp

theorem read32_s0 (i : Nat) (off : Nat) (s : State) : Within 0 0xC s.dev ((read32 i off s).1).dev := by
  unfold read32
  repeat' first
    | (with_reducible exact Within.refl _)
    | (with_reducible assumption)
    | ((try lift_lets); intro x_; first
      | (refine (fun (hx_ : Within 0 0xC s.dev x_) => ?rest) ?val; (case' rest => clear_value x_); (case' val => subst x_))
      | (refine (fun (hx_ : Within 0 0xC s.dev x_.dev) => ?rest) ?val; (case' rest => clear_value x_); (case' val => subst x_))
      | (have _t := fun y_ => x_ y_; clear _t; subst x_)
      | (have _t : Dev := x_.1; clear _t; subst x_)
      | (have _t : Dev := x_.2; clear _t; subst x_)
      | (have _t := fun y_ => x_ y_; clear _t; subst x_)
      | (have _t : State := x_.1; clear _t; subst x_)
      | (have _t : State := x_.2; clear _t; subst x_)
      | clear_value x_)
    | (with_reducible simp only [State.onDev_dev])
    | (with_reducible refine Dev.putPath_w _ _ _ ?_ (by decide +kernel) (by decide +kernel))
    | (with_reducible refine Within.putPath ?_ _ _ (by decide +kernel))
    | (with_reducible refine Within.fresh ?_ (by decide +kernel))
    | (with_reducible refine Within.ite ?_ ?_)
    | (with_reducible refine Within.iteS ?_ ?_)
    | (intro _ _ _)
    | (refine Within.ite ?_ ?_)
    | split
    | dsimp only

theorem read32_s1 (i : Nat) (off : Nat) (s : State) {M P : Nat} {dz : Dev} (hd : Within M P dz s.dev) (hm : inMask 0 M = true) (hp : inMask 0xC P = true) : Within M P dz ((read32 i off s).1).dev :=
  hd.andThen (read32_s0 i off s) hm hp

theorem barRead_s0 (off : Nat) (s : State) : Within 0x80B8011FC02140010000000000000000000000000000000000000000000000000000000000000000000000000000 0xFC s.dev ((barRead off s).1).dev := by
  unfold barRead
  repeat' first
    | (with_reducible exact Within.refl _)
    | (with_reducible assumption)
    | ((try lift_lets); intro x_; first
      | (refine (fun (hx_ : Within 0x80B8011FC02140010000000000000000000000000000000000000000000000000000000000000000000000000000 0xFC s.dev x_) => ?rest) ?val; (case' rest => clear_value x_); (case' val => subst x_))
      | (refine (fun (hx_ : Within 0x80B8011FC02140010000000000000000000000000000000000000000000000000000000000000000000000000000 0xFC s.dev x_.dev) => ?rest) ?val; (case' rest => clear_value x_); (case' val => subst x_))
      | (have _t := fun y_ => x_ y_; clear _t; subst x_)
      | (have _t : Dev := x_.1; clear _t; subst x_)
      | (have _t : Dev := x_.2; clear _t; subst x_)
      | (have _t := fun y_ => x_ y_; clear _t; subst x_)
      | (have _t : State := x_.1; clear _t; subst x_)
      | (have _t : State := x_.2; clear _t; subst x_)
      | clear_value x_)
    | (with_reducible simp only [State.onDev_dev])
    | (with_reducible refine windowWord_s1 _ _ _ _ ?_ (by decide +kernel) (by decide +kernel))
    | (with_reducible refine read32_s1 _ _ _ ?_ (by decide +kernel) (by decide +kernel))
    | (with_reducible refine Within.ite ?_ ?_)
    | (with_reducible refine Within.iteS ?_ ?_)
    | (intro _ _ _)
    | (refine Within.ite ?_ ?_)
    | split
    | dsimp only

theorem barRead_s1 (off : Nat) (s : State) {M P : Nat} {dz : Dev} (hd : Within M P dz s.dev) (hm : inMask 0x80B8011FC02140010000000000000000000000000000000000000000000000000000000000000000000000000000 M = true) (hp : inMask 0xFC P = true) : Within M P dz ((barRead off s).1).dev :=
  hd.andThen (barRead_s0 off s) hm hp

theorem bar0Read_s0 (off : Nat) (wide : Bool) (s : State) : Within 0x80B8011FC02140010000000000000000000000000000000000000000000000000000000000000000000000000000 0xFC s.dev ((bar0Read off wide s).1).dev := by
  unfold bar0Read
  repeat' first
    | (with_reducible exact Within.refl _)
    | (with_reducible assumption)
    | ((try lift_lets); intro x_; first
      | (refine (fun (hx_ : Within 0x80B8011FC02140010000000000000000000000000000000000000000000000000000000000000000000000000000 0xFC s.dev x_) => ?rest) ?val; (case' rest => clear_value x_); (case' val => subst x_))
      | (refine (fun (hx_ : Within 0x80B8011FC02140010000000000000000000000000000000000000000000000000000000000000000000000000000 0xFC s.dev x_.dev) => ?rest) ?val; (case' rest => clear_value x_); (case' val => subst x_))
      | (have _t := fun y_ => x_ y_; clear _t; subst x_)
      | (have _t : Dev := x_.1; clear _t; subst x_)
      | (have _t : Dev := x_.2; clear _t; subst x_)
      | (have _t := fun y_ => x_ y_; clear _t; subst x_)
      | (have _t : State := x_.1; clear _t; subst x_)
      | (have _t : State := x_.2; clear _t; subst x_)
      | clear_value x_)
    | (with_reducible simp only [State.onDev_dev])
    | (with_reducible refine barRead_s1 _ _ ?_ (by decide +kernel) (by decide +kernel))
    | (with_reducible refine Within.ite ?_ ?_)
    | (with_reducible refine Within.iteS ?_ ?_)
    | (intro _ _ _)
    | (refine Within.ite ?_ ?_)
    | split
    | dsimp only

theorem bar0Read_s1 (off : Nat) (wide : Bool) (s : State) {M P : Nat} {dz : Dev} (hd : Within M P dz s.dev) (hm : inMask 0x80B8011FC02140010000000000000000000000000000000000000000000000000000000000000000000000000000 M = true) (hp : inMask 0xFC P = true) : Within M P dz ((bar0Read off wide s).1).dev :=
  hd.andThen (bar0Read_s0 off wide s) hm hp

theorem mgmtRead_s0 (off : Nat) (late : Bool) (s : State) : Within 0x80B8011FC02140010000000000000000000000000000000000000000000000000000000000000000000000000000 0xFC s.dev ((mgmtRead off late s).1).dev := by
  unfold mgmtRead
  repeat' first
    | (with_reducible exact Within.refl _)
    | (with_reducible assumption)
    | ((try lift_lets); intro x_; first
      | (refine (fun (hx_ : Within 0x80B8011FC02140010000000000000000000000000000000000000000000000000000000000000000000000000000 0xFC s.dev x_) => ?rest) ?val; (case' rest => clear_value x_); (case' val => subst x_))
      | (refine (fun (hx_ : Within 0x80B8011FC02140010000000000000000000000000000000000000000000000000000000000000000000000000000 0xFC s.dev x_.dev) => ?rest) ?val; (case' rest => clear_value x_); (case' val => subst x_))
      | (have _t := fun y_ => x_ y_; clear _t; subst x_)
      | (have _t : Dev := x_.1; clear _t; subst x_)
      | (have _t : Dev := x_.2; clear _t; subst x_)
      | (have _t := fun y_ => x_ y_; clear _t; subst x_)
      | (have _t : State := x_.1; clear _t; subst x_)
      | (have _t : State := x_.2; clear _t; subst x_)
      | clear_value x_)
    | (with_reducible simp only [State.onDev_dev])
    | (with_reducible refine windowWord_s1 _ _ _ _ ?_ (by decide +kernel) (by decide +kernel))
    | (with_reducible refine read32_s1 _ _ _ ?_ (by decide +kernel) (by decide +kernel))
    | (with_reducible refine Within.ite ?_ ?_)
    | (with_reducible refine Within.iteS ?_ ?_)
    | (intro _ _ _)
    | (refine Within.ite ?_ ?_)
    | split
    | dsimp only

theorem mgmtRead_s1 (off : Nat) (late : Bool) (s : State) {M P : Nat} {dz : Dev} (hd : Within M P dz s.dev) (hm : inMask 0x80B8011FC02140010000000000000000000000000000000000000000000000000000000000000000000000000000 M = true) (hp : inMask 0xFC P = true) : Within M P dz ((mgmtRead off late s).1).dev :=
  hd.andThen (mgmtRead_s0 off late s) hm hp

theorem spiNext_s (s : State) (x : SpiTx) (t : State) (h : spiNext s = some (x, t)) {M P : Nat} {dz : Dev} (hd : Within M P dz s.dev)
    (_hm : inMask 0 M = true) (hp : inMask 0x800000 P = true) : Within M P dz t.dev := by
  unfold spiNext at h
  repeat' split at h
  all_goals (first | cases h | skip)
  rw [State.onDev_dev]
  exact Within.onIo hd _ (inMask_testBit (j := 23) hp (by decide +kernel))

theorem localCommit_s0 (c : Cmd) (s : State) : Within 0x200000014001000000000000000000000000000000000000000000000000000000000000000000018A005000 0x1170 s.dev (localCommit c s).dev := by
  unfold localCommit
  repeat' first
    | (with_reducible exact Within.refl _)
    | (with_reducible assumption)
    | (with_reducible simp only [State.onDev_dev])
    | (with_reducible refine Dev.complete_w _ _ _ _ _ ?_ (by decide +kernel) (by decide +kernel))
    | (with_reducible refine doAcqCommit_w _ _ _ _ ?_ (by decide +kernel) (by decide +kernel))
    | (with_reducible refine Within.ite ?_ ?_)
    | (with_reducible refine Within.iteS ?_ ?_)
    | (intro _ _ _)
    | (refine Within.ite ?_ ?_)
    | split
    | dsimp only

theorem localCommit_s (c : Cmd) (s : State) {M P : Nat} {dz : Dev} (hd : Within M P dz s.dev) (hm : inMask 0x200000014001000000000000000000000000000000000000000000000000000000000000000000018A005000 M = true) (hp : inMask 0x1170 P = true) : Within M P dz (localCommit c s).dev :=
  hd.andThen (localCommit_s0 c s) hm hp

theorem localProfile_s0 (c : Cmd) (s : State) : Within 0x1400100000000000000000000000000000004E0000800000000000000000000000000000000000000 0x4030 s.dev (localProfile c s).dev := by
  unfold localProfile
  repeat' first
    | (with_reducible exact Within.refl _)
    | (with_reducible assumption)
    | (with_reducible simp only [State.onDev_dev])
    | (with_reducible refine doProfileSelect_w _ _ _ ?_ (by decide +kernel) (by decide +kernel))
    | (with_reducible refine Within.ite ?_ ?_)
    | (with_reducible refine Within.iteS ?_ ?_)
    | (intro _ _ _)
    | (refine Within.ite ?_ ?_)
    | split
    | dsimp only

theorem localProfile_s (c : Cmd) (s : State) {M P : Nat} {dz : Dev} (hd : Within M P dz s.dev) (hm : inMask 0x1400100000000000000000000000000000004E0000800000000000000000000000000000000000000 M = true) (hp : inMask 0x4030 P = true) : Within M P dz (localProfile c s).dev :=
  hd.andThen (localProfile_s0 c s) hm hp

theorem frameBoundary_s0 (s : State) : Within 0x18000200108080B8212000015279000000000070800000000000000000001C0000003000408D8EF01F8F05F9F16000070E000800 0xB2FDF0 s.dev (frameBoundary s).dev := by
  unfold frameBoundary
  repeat' first
    | (with_reducible exact Within.refl _)
    | (with_reducible assumption)
    | ((try lift_lets); intro x_; first
      | (refine (fun (hx_ : Within 0x18000200108080B8212000015279000000000070800000000000000000001C0000003000408D8EF01F8F05F9F16000070E000800 0xB2FDF0 s.dev x_) => ?rest) ?val; (case' rest => clear_value x_); (case' val => subst x_))
      | (refine (fun (hx_ : Within 0x18000200108080B8212000015279000000000070800000000000000000001C0000003000408D8EF01F8F05F9F16000070E000800 0xB2FDF0 s.dev x_.dev) => ?rest) ?val; (case' rest => clear_value x_); (case' val => subst x_))
      | (have _t := fun y_ => x_ y_; clear _t; subst x_)
      | (have _t : Dev := x_.1; clear _t; subst x_)
      | (have _t : Dev := x_.2; clear _t; subst x_)
      | (have _t := fun y_ => x_ y_; clear _t; subst x_)
      | (have _t : State := x_.1; clear _t; subst x_)
      | (have _t : State := x_.2; clear _t; subst x_)
      | clear_value x_)
    | (with_reducible simp only [State.onDev_dev])
    | (with_reducible refine readoutBoundary_s _ ?_ (by decide +kernel) (by decide +kernel))
    | (with_reducible refine Dev.readoutStop_w _ ?_ (by decide +kernel) (by decide +kernel))
    | (with_reducible refine afterBoundary_w _ _ _ ?_ (by decide +kernel) (by decide +kernel))
    | (with_reducible refine Within.ite ?_ ?_)
    | (with_reducible refine Within.iteS ?_ ?_)
    | (intro _ _ _)
    | (refine Within.ite ?_ ?_)
    | split
    | dsimp only

theorem frameBoundary_s (s : State) {M P : Nat} {dz : Dev} (hd : Within M P dz s.dev) (hm : inMask 0x18000200108080B8212000015279000000000070800000000000000000001C0000003000408D8EF01F8F05F9F16000070E000800 M = true) (hp : inMask 0xB2FDF0 P = true) : Within M P dz (frameBoundary s).dev :=
  hd.andThen (frameBoundary_s0 s) hm hp

end Sys2Proof.Machine
end

