-- ==== Sys2Proof/Laws/FramesExec.lean ====
section
/-! SUPPORT. The frame of each command, but for register writes and resets: a host command that names no other slot changes only what its local effect does. -/

set_option linter.unusedVariables false
set_option Elab.async false

namespace Sys2Proof.Machine

open Sys2Proof

theorem inMask_self (a : Nat) : inMask a a = true := by simp [inMask]

theorem runCmd_s {M P : Nat} (op k : Nat) (group f : Cmd → State → State) (s : State)
    (alone : ∀ c, s.dev.sec.cmds.find? (fun c => c.k == k && c.op == op) = some c → (c.others s.dev).isEmpty = true)
    (hm : inMask 0 M = true) (hp : inMask 0x20 P = true) (hf : ∀ c s, Within M P s.dev (f c s).dev) :
    Within M P s.dev (runCmd op k group f s).dev := by
  unfold runCmd
  split
  · exact Within.refl _
  · rename_i c hc
    have ha := alone c hc
    dsimp only
    split
    · rw [if_pos (by rw [State.onDev_dev]; exact ha)]
      refine Within.andThen (m := M) (p := P) ?_ (hf c _) (inMask_self M) (inMask_self P)
      rw [State.onDev_dev]
      exact Dev.markStarted_w _ _ (Within.refl _) hm hp
    · exact Within.refl _

theorem execNop_s (k : Nat) (s : State) (t_ : State) (h : execNop k s = .next t_)
    (alone : ∀ c, s.dev.sec.cmds.find? (fun c => c.k == k && c.op == 0x0000) = some c → (c.others s.dev).isEmpty = true) :
    Within 0x140010000000000000000000000000000000000000000000000000000000000000000000000000000 0x30 s.dev t_.dev := by
  unfold execNop at h
  injection h with h
  subst h
  refine runCmd_s _ _ _ _ _ alone (by decide +kernel) (by decide +kernel) (fun c s => ?_)
  try dsimp only
  repeat' first
    | (with_reducible exact Within.refl _)
    | (with_reducible assumption)
    | (with_reducible simp only [State.onDev_dev])
    | (with_reducible refine doNop_w _ _ ?_ (by decide +kernel) (by decide +kernel))
    | (with_reducible refine Within.ite ?_ ?_)
    | (with_reducible refine Within.iteS ?_ ?_)
    | (intro _ _ _)
    | (refine Within.ite ?_ ?_)
    | split
    | dsimp only

theorem execStartImaging_s (k : Nat) (s : State) (t_ : State) (h : execStartImaging k s = .next t_)
    (alone : ∀ c, s.dev.sec.cmds.find? (fun c => c.k == k && c.op == 0x0001) = some c → (c.others s.dev).isEmpty = true) :
    Within 0x1400100000000000000000000000000000004E000080000000000000000000000000000018B000000 0x4130 s.dev t_.dev := by
  unfold execStartImaging at h
  injection h with h
  subst h
  refine runCmd_s _ _ _ _ _ alone (by decide +kernel) (by decide +kernel) (fun c s => ?_)
  try dsimp only
  repeat' first
    | (with_reducible exact Within.refl _)
    | (with_reducible assumption)
    | (with_reducible simp only [State.onDev_dev])
    | (with_reducible refine doStartImaging_w _ _ ?_ (by decide +kernel) (by decide +kernel))
    | (with_reducible refine Within.ite ?_ ?_)
    | (with_reducible refine Within.iteS ?_ ?_)
    | (intro _ _ _)
    | (refine Within.ite ?_ ?_)
    | split
    | dsimp only

theorem execStopImaging_s (k : Nat) (s : State) (t_ : State) (h : execStopImaging k s = .next t_)
    (alone : ∀ c, s.dev.sec.cmds.find? (fun c => c.k == k && c.op == 0x0002) = some c → (c.others s.dev).isEmpty = true) :
    Within 0x80B8010000014001000000000000000000000000000000000000000020000084000000000100100000010B000000 0x249F0 s.dev t_.dev := by
  unfold execStopImaging at h
  injection h with h
  subst h
  refine runCmd_s _ _ _ _ _ alone (by decide +kernel) (by decide +kernel) (fun c s => ?_)
  try dsimp only
  repeat' first
    | (with_reducible exact Within.refl _)
    | (with_reducible assumption)
    | (with_reducible simp only [State.onDev_dev])
    | (with_reducible refine doStopImaging_w _ _ ?_ (by decide +kernel) (by decide +kernel))
    | (with_reducible refine Within.ite ?_ ?_)
    | (with_reducible refine Within.iteS ?_ ?_)
    | (intro _ _ _)
    | (refine Within.ite ?_ ?_)
    | split
    | dsimp only

theorem execAcqStage_s (k : Nat) (s : State) (t_ : State) (h : execAcqStage k s = .next t_)
    (alone : ∀ c, s.dev.sec.cmds.find? (fun c => c.k == k && c.op == 0x0003) = some c → (c.others s.dev).isEmpty = true) :
    Within 0x14001000000000000000000000000000000000000000000000000000000000000001FE00000000000 0x30 s.dev t_.dev := by
  unfold execAcqStage at h
  injection h with h
  subst h
  refine runCmd_s _ _ _ _ _ alone (by decide +kernel) (by decide +kernel) (fun c s => ?_)
  try dsimp only
  repeat' first
    | (with_reducible exact Within.refl _)
    | (with_reducible assumption)
    | (with_reducible simp only [State.onDev_dev])
    | (with_reducible refine doAcqStage_w _ _ ?_ (by decide +kernel) (by decide +kernel))
    | (with_reducible refine Within.ite ?_ ?_)
    | (with_reducible refine Within.iteS ?_ ?_)
    | (intro _ _ _)
    | (refine Within.ite ?_ ?_)
    | split
    | dsimp only

theorem execAcqCommit_s (k : Nat) (s : State) (t_ : State) (h : execAcqCommit k s = .next t_)
    (alone : ∀ c, s.dev.sec.cmds.find? (fun c => c.k == k && c.op == 0x0004) = some c → (c.others s.dev).isEmpty = true) :
    Within 0x200000014001000000000000000000000000000000000000000000000000000000000000000000018A005000 0x1170 s.dev t_.dev := by
  unfold execAcqCommit at h
  injection h with h
  subst h
  refine runCmd_s _ _ _ _ _ alone (by decide +kernel) (by decide +kernel) (fun c s => ?_)
  try dsimp only
  repeat' first
    | (with_reducible exact Within.refl _)
    | (with_reducible assumption)
    | (with_reducible simp only [State.onDev_dev])
    | (with_reducible refine localCommit_s _ _ ?_ (by decide +kernel) (by decide +kernel))
    | (with_reducible refine Within.ite ?_ ?_)
    | (with_reducible refine Within.iteS ?_ ?_)
    | (intro _ _ _)
    | (refine Within.ite ?_ ?_)
    | split
    | dsimp only

theorem execProfileSelectAt_s (k : Nat) (s : State) (t_ : State) (h : execProfileSelectAt k s = .next t_)
    (alone : ∀ c, s.dev.sec.cmds.find? (fun c => c.k == k && c.op == 0x0005) = some c → (c.others s.dev).isEmpty = true) :
    Within 0x1400100000000000000000000000000000004E0000800000000000000000000000000000000000000 0x4030 s.dev t_.dev := by
  unfold execProfileSelectAt at h
  injection h with h
  subst h
  refine runCmd_s _ _ _ _ _ alone (by decide +kernel) (by decide +kernel) (fun c s => ?_)
  try dsimp only
  repeat' first
    | (with_reducible exact Within.refl _)
    | (with_reducible assumption)
    | (with_reducible simp only [State.onDev_dev])
    | (with_reducible refine localProfile_s _ _ ?_ (by decide +kernel) (by decide +kernel))
    | (with_reducible refine Within.ite ?_ ?_)
    | (with_reducible refine Within.iteS ?_ ?_)
    | (intro _ _ _)
    | (refine Within.ite ?_ ?_)
    | split
    | dsimp only

theorem execGladeDeclare_s (k : Nat) (s : State) (t_ : State) (h : execGladeDeclare k s = .next t_)
    (alone : ∀ c, s.dev.sec.cmds.find? (fun c => c.k == k && c.op == 0x0006) = some c → (c.others s.dev).isEmpty = true) :
    Within 0x80B8010000014001000000000000000000000000000000000000000020C0008C0000000000001000004000040000 0x65BF0 s.dev t_.dev := by
  unfold execGladeDeclare at h
  injection h with h
  subst h
  refine runCmd_s _ _ _ _ _ alone (by decide +kernel) (by decide +kernel) (fun c s => ?_)
  try dsimp only
  repeat' first
    | (with_reducible exact Within.refl _)
    | (with_reducible assumption)
    | (with_reducible simp only [State.onDev_dev])
    | (with_reducible refine doGladeDeclare_w _ _ ?_ (by decide +kernel) (by decide +kernel))
    | (with_reducible refine Within.ite ?_ ?_)
    | (with_reducible refine Within.iteS ?_ ?_)
    | (intro _ _ _)
    | (refine Within.ite ?_ ?_)
    | split
    | dsimp only

theorem execProofRequest_s (k : Nat) (s : State) (t_ : State) (h : execProofRequest k s = .next t_)
    (alone : ∀ c, s.dev.sec.cmds.find? (fun c => c.k == k && c.op == 0x0007) = some c → (c.others s.dev).isEmpty = true) :
    Within 0x80B801000001400100000000000000000000000000000000000000002000008C0000000000001000000000000000 0x249F0 s.dev t_.dev := by
  unfold execProofRequest at h
  injection h with h
  subst h
  refine runCmd_s _ _ _ _ _ alone (by decide +kernel) (by decide +kernel) (fun c s => ?_)
  try dsimp only
  repeat' first
    | (with_reducible exact Within.refl _)
    | (with_reducible assumption)
    | (with_reducible simp only [State.onDev_dev])
    | (with_reducible refine doProofRequest_w _ _ ?_ (by decide +kernel) (by decide +kernel))
    | (with_reducible refine Within.ite ?_ ?_)
    | (with_reducible refine Within.iteS ?_ ?_)
    | (intro _ _ _)
    | (refine Within.ite ?_ ?_)
    | split
    | dsimp only

theorem execStatSnapshot_s (k : Nat) (s : State) (t_ : State) (h : execStatSnapshot k s = .next t_)
    (alone : ∀ c, s.dev.sec.cmds.find? (fun c => c.k == k && c.op == 0x0008) = some c → (c.others s.dev).isEmpty = true) :
    Within 0x80B8010080214001000000000000000000000006030FF80000000000000000000000000000000000000000000000 0x80F4 s.dev t_.dev := by
  unfold execStatSnapshot at h
  injection h with h
  subst h
  refine runCmd_s _ _ _ _ _ alone (by decide +kernel) (by decide +kernel) (fun c s => ?_)
  try dsimp only
  repeat' first
    | (with_reducible exact Within.refl _)
    | (with_reducible assumption)
    | (with_reducible simp only [State.onDev_dev])
    | (with_reducible refine doSnapshot_w _ _ ?_ (by decide +kernel) (by decide +kernel))
    | (with_reducible refine Within.ite ?_ ?_)
    | (with_reducible refine Within.iteS ?_ ?_)
    | (intro _ _ _)
    | (refine Within.ite ?_ ?_)
    | split
    | dsimp only

theorem execFrameCapture_s (k : Nat) (s : State) (t_ : State) (h : execFrameCapture k s = .next t_)
    (alone : ∀ c, s.dev.sec.cmds.find? (fun c => c.k == k && c.op == 0x0009) = some c → (c.others s.dev).isEmpty = true) :
    Within 0x140010000000000000000000000000000000000000000000000000000000001000000000000000000 0x830 s.dev t_.dev := by
  unfold execFrameCapture at h
  injection h with h
  subst h
  refine runCmd_s _ _ _ _ _ alone (by decide +kernel) (by decide +kernel) (fun c s => ?_)
  try dsimp only
  repeat' first
    | (with_reducible exact Within.refl _)
    | (with_reducible assumption)
    | (with_reducible simp only [State.onDev_dev])
    | (with_reducible refine doFrameCapture_w _ _ ?_ (by decide +kernel) (by decide +kernel))
    | (with_reducible refine Within.ite ?_ ?_)
    | (with_reducible refine Within.iteS ?_ ?_)
    | (intro _ _ _)
    | (refine Within.ite ?_ ?_)
    | split
    | dsimp only

theorem execRingReset_s (k : Nat) (s : State) (t_ : State) (h : execRingReset k s = .next t_)
    (alone : ∀ c, s.dev.sec.cmds.find? (fun c => c.k == k && c.op == 0x000A) = some c → (c.others s.dev).isEmpty = true) :
    Within 0x14001B840100000000000000000000000010000000000000000000000000003000000000000000000 0x832 s.dev t_.dev := by
  unfold execRingReset at h
  injection h with h
  subst h
  refine runCmd_s _ _ _ _ _ alone (by decide +kernel) (by decide +kernel) (fun c s => ?_)
  try dsimp only
  repeat' first
    | (with_reducible exact Within.refl _)
    | (with_reducible assumption)
    | (with_reducible simp only [State.onDev_dev])
    | (with_reducible refine doRingReset_w _ _ ?_ (by decide +kernel) (by decide +kernel))
    | (with_reducible refine Within.ite ?_ ?_)
    | (with_reducible refine Within.iteS ?_ ?_)
    | (intro _ _ _)
    | (refine Within.ite ?_ ?_)
    | split
    | dsimp only

theorem execAuxSeqLoad_s (k : Nat) (s : State) (t_ : State) (h : execAuxSeqLoad k s = .next t_)
    (alone : ∀ c, s.dev.sec.cmds.find? (fun c => c.k == k && c.op == 0x000B) = some c → (c.others s.dev).isEmpty = true) :
    Within 0xC0E0000000000000000140010000000000000000000000000000000000000000000000000000000000000000000000000000 0x430 s.dev t_.dev := by
  unfold execAuxSeqLoad at h
  injection h with h
  subst h
  refine runCmd_s _ _ _ _ _ alone (by decide +kernel) (by decide +kernel) (fun c s => ?_)
  try dsimp only
  repeat' first
    | (with_reducible exact Within.refl _)
    | (with_reducible assumption)
    | (with_reducible simp only [State.onDev_dev])
    | (with_reducible refine doAuxSeqLoad_w _ _ ?_ (by decide +kernel) (by decide +kernel))
    | (with_reducible refine Within.ite ?_ ?_)
    | (with_reducible refine Within.iteS ?_ ?_)
    | (intro _ _ _)
    | (refine Within.ite ?_ ?_)
    | split
    | dsimp only

theorem execAuxCalZero_s (k : Nat) (s : State) (t_ : State) (h : execAuxCalZero k s = .next t_)
    (alone : ∀ c, s.dev.sec.cmds.find? (fun c => c.k == k && c.op == 0x000C) = some c → (c.others s.dev).isEmpty = true) :
    Within 0x8000000000000000140010000000000000000000000000000000000000000000000000000000000000000000000000000 0x430 s.dev t_.dev := by
  unfold execAuxCalZero at h
  injection h with h
  subst h
  refine runCmd_s _ _ _ _ _ alone (by decide +kernel) (by decide +kernel) (fun c s => ?_)
  try dsimp only
  repeat' first
    | (with_reducible exact Within.refl _)
    | (with_reducible assumption)
    | (with_reducible simp only [State.onDev_dev])
    | (with_reducible refine doAuxCalZero_w _ _ ?_ (by decide +kernel) (by decide +kernel))
    | (with_reducible refine Within.ite ?_ ?_)
    | (with_reducible refine Within.iteS ?_ ?_)
    | (intro _ _ _)
    | (refine Within.ite ?_ ?_)
    | split
    | dsimp only

theorem execAuxCalFull_s (k : Nat) (s : State) (t_ : State) (h : execAuxCalFull k s = .next t_)
    (alone : ∀ c, s.dev.sec.cmds.find? (fun c => c.k == k && c.op == 0x000D) = some c → (c.others s.dev).isEmpty = true) :
    Within 0x8000000000000000140010000000000000000000000000000000000000000000000000000000000000000000000000000 0x430 s.dev t_.dev := by
  unfold execAuxCalFull at h
  injection h with h
  subst h
  refine runCmd_s _ _ _ _ _ alone (by decide +kernel) (by decide +kernel) (fun c s => ?_)
  try dsimp only
  repeat' first
    | (with_reducible exact Within.refl _)
    | (with_reducible assumption)
    | (with_reducible simp only [State.onDev_dev])
    | (with_reducible refine doAuxCalFull_w _ _ ?_ (by decide +kernel) (by decide +kernel))
    | (with_reducible refine Within.ite ?_ ?_)
    | (with_reducible refine Within.iteS ?_ ?_)
    | (intro _ _ _)
    | (refine Within.ite ?_ ?_)
    | split
    | dsimp only

theorem execDomainSet_s (k : Nat) (s : State) (t_ : State) (h : execDomainSet k s = .next t_)
    (alone : ∀ c, s.dev.sec.cmds.find? (fun c => c.k == k && c.op == 0x000E) = some c → (c.others s.dev).isEmpty = true) :
    Within 0x18000000000080B80100000140010000000000000000000000000000000000000000000000000000000000000000000000005800 0x1010F0 s.dev t_.dev := by
  unfold execDomainSet at h
  injection h with h
  subst h
  refine runCmd_s _ _ _ _ _ alone (by decide +kernel) (by decide +kernel) (fun c s => ?_)
  try dsimp only
  repeat' first
    | (with_reducible exact Within.refl _)
    | (with_reducible assumption)
    | (with_reducible simp only [State.onDev_dev])
    | (with_reducible refine doDomainSet_w _ _ ?_ (by decide +kernel) (by decide +kernel))
    | (with_reducible refine Within.ite ?_ ?_)
    | (with_reducible refine Within.iteS ?_ ?_)
    | (intro _ _ _)
    | (refine Within.ite ?_ ?_)
    | split
    | dsimp only

theorem execHealthSelftest_s (k : Nat) (s : State) (t_ : State) (h : execHealthSelftest k s = .next t_)
    (alone : ∀ c, s.dev.sec.cmds.find? (fun c => c.k == k && c.op == 0x000F) = some c → (c.others s.dev).isEmpty = true) :
    Within 0x300B80100000140010000000000000010000000000000000000000000000000000000000000000000000000000000 0xF0 s.dev t_.dev := by
  unfold execHealthSelftest at h
  injection h with h
  subst h
  refine runCmd_s _ _ _ _ _ alone (by decide +kernel) (by decide +kernel) (fun c s => ?_)
  try dsimp only
  repeat' first
    | (with_reducible exact Within.refl _)
    | (with_reducible assumption)
    | (with_reducible simp only [State.onDev_dev])
    | (with_reducible refine doSelftest_w _ _ ?_ (by decide +kernel) (by decide +kernel))
    | (with_reducible refine Within.ite ?_ ?_)
    | (with_reducible refine Within.iteS ?_ ?_)
    | (intro _ _ _)
    | (refine Within.ite ?_ ?_)
    | split
    | dsimp only

theorem execMarginPlanRun_s (k : Nat) (s : State) (t_ : State) (h : execMarginPlanRun k s = .next t_)
    (alone : ∀ c, s.dev.sec.cmds.find? (fun c => c.k == k && c.op == 0x0010) = some c → (c.others s.dev).isEmpty = true) :
    Within 0x8000000000000000000000000000000000000000000000000000000000000000000000000000000000000000000000 0xA0 s.dev t_.dev := by
  unfold execMarginPlanRun at h
  injection h with h
  subst h
  refine runCmd_s _ _ _ _ _ alone (by decide +kernel) (by decide +kernel) (fun c s => ?_)
  try dsimp only
  repeat' first
    | (with_reducible exact Within.refl _)
    | (with_reducible assumption)
    | (with_reducible simp only [State.onDev_dev])
    | (with_reducible refine doMarginPlanRun_w _ _ ?_ (by decide +kernel) (by decide +kernel))
    | (with_reducible refine Within.ite ?_ ?_)
    | (with_reducible refine Within.iteS ?_ ?_)
    | (intro _ _ _)
    | (refine Within.ite ?_ ?_)
    | split
    | dsimp only

theorem execLogRead_s (k : Nat) (s : State) (t_ : State) (h : execLogRead k s = .next t_)
    (alone : ∀ c, s.dev.sec.cmds.find? (fun c => c.k == k && c.op == 0x0011) = some c → (c.others s.dev).isEmpty = true) :
    Within 0x340010000000000000000000000000000000000000000000000000000000000000000000000000000 0x72 s.dev t_.dev := by
  unfold execLogRead at h
  injection h with h
  subst h
  refine runCmd_s _ _ _ _ _ alone (by decide +kernel) (by decide +kernel) (fun c s => ?_)
  try dsimp only
  repeat' first
    | (with_reducible exact Within.refl _)
    | (with_reducible assumption)
    | (with_reducible simp only [State.onDev_dev])
    | (with_reducible refine doLogRead_s _ _ ?_ (by decide +kernel) (by decide +kernel))
    | (with_reducible refine Within.ite ?_ ?_)
    | (with_reducible refine Within.iteS ?_ ?_)
    | (intro _ _ _)
    | (refine Within.ite ?_ ?_)
    | split
    | dsimp only

theorem execKeepRead_s (k : Nat) (errs : List KeepErr) (s : State) (t_ : State) (h : execKeepRead k errs s = .next t_)
    (alone : ∀ c, s.dev.sec.cmds.find? (fun c => c.k == k && c.op == 0x0012) = some c → (c.others s.dev).isEmpty = true) :
    Within 0x80B81F00000340010000000000000000000000000000000000000000000000000000000000000000000000000000 0xF6 s.dev t_.dev := by
  unfold execKeepRead at h
  injection h with h
  subst h
  refine runCmd_s _ _ _ _ _ alone (by decide +kernel) (by decide +kernel) (fun c s => ?_)
  try dsimp only
  repeat' first
    | (with_reducible exact Within.refl _)
    | (with_reducible assumption)
    | (with_reducible simp only [State.onDev_dev])
    | (with_reducible refine doKeepRead_s _ _ _ ?_ (by decide +kernel) (by decide +kernel))
    | (with_reducible refine Within.ite ?_ ?_)
    | (with_reducible refine Within.iteS ?_ ?_)
    | (intro _ _ _)
    | (refine Within.ite ?_ ?_)
    | split
    | dsimp only

theorem execFlashRead_s (k : Nat) (s : State) (t_ : State) (h : execFlashRead k s = .next t_)
    (alone : ∀ c, s.dev.sec.cmds.find? (fun c => c.k == k && c.op == 0x0013) = some c → (c.others s.dev).isEmpty = true) :
    Within 0x340010000000000000000000000000000000000000000000000000000000000000000000000000800 0x1076 s.dev t_.dev := by
  unfold execFlashRead at h
  injection h with h
  subst h
  refine runCmd_s _ _ _ _ _ alone (by decide +kernel) (by decide +kernel) (fun c s => ?_)
  try dsimp only
  repeat' first
    | (with_reducible exact Within.refl _)
    | (with_reducible assumption)
    | (with_reducible simp only [State.onDev_dev])
    | (with_reducible refine doFlashRead_s _ _ ?_ (by decide +kernel) (by decide +kernel))
    | (with_reducible refine Within.ite ?_ ?_)
    | (with_reducible refine Within.iteS ?_ ?_)
    | (intro _ _ _)
    | (refine Within.ite ?_ ?_)
    | split
    | dsimp only

theorem execStandQuery_s (k : Nat) (s : State) (t_ : State) (h : execStandQuery k s = .next t_)
    (alone : ∀ c, s.dev.sec.cmds.find? (fun c => c.k == k && c.op == 0x0014) = some c → (c.others s.dev).isEmpty = true) :
    Within 0x340010000000000000000000000000000000000000000000000000000000000000000000000000000 0x72 s.dev t_.dev := by
  unfold execStandQuery at h
  injection h with h
  subst h
  refine runCmd_s _ _ _ _ _ alone (by decide +kernel) (by decide +kernel) (fun c s => ?_)
  try dsimp only
  repeat' first
    | (with_reducible exact Within.refl _)
    | (with_reducible assumption)
    | (with_reducible simp only [State.onDev_dev])
    | (with_reducible refine doStandQuery_s _ _ ?_ (by decide +kernel) (by decide +kernel))
    | (with_reducible refine Within.ite ?_ ?_)
    | (with_reducible refine Within.iteS ?_ ?_)
    | (intro _ _ _)
    | (refine Within.ite ?_ ?_)
    | split
    | dsimp only

theorem execPlateWrite_s (k : Nat) (s : State) (t_ : State) (h : execPlateWrite k s = .next t_)
    (alone : ∀ c, s.dev.sec.cmds.find? (fun c => c.k == k && c.op == 0x8001) = some c → (c.others s.dev).isEmpty = true) :
    Within 0x140010000000000000000000000000000000000000000000000000000000000001000000000000000 0x870 s.dev t_.dev := by
  unfold execPlateWrite at h
  injection h with h
  subst h
  refine runCmd_s _ _ _ _ _ alone (by decide +kernel) (by decide +kernel) (fun c s => ?_)
  try dsimp only
  repeat' first
    | (with_reducible exact Within.refl _)
    | (with_reducible assumption)
    | (with_reducible simp only [State.onDev_dev])
    | (with_reducible refine doPlateWrite_s _ _ ?_ (by decide +kernel) (by decide +kernel))
    | (with_reducible refine Within.ite ?_ ?_)
    | (with_reducible refine Within.iteS ?_ ?_)
    | (intro _ _ _)
    | (refine Within.ite ?_ ?_)
    | split
    | dsimp only

theorem execPlateCommit_s (k : Nat) (s : State) (t_ : State) (h : execPlateCommit k s = .next t_)
    (alone : ∀ c, s.dev.sec.cmds.find? (fun c => c.k == k && c.op == 0x8002) = some c → (c.others s.dev).isEmpty = true) :
    Within 0x2100000140010000000000000000000000000000000000000000000000000000000000081000000000000000 0x2870 s.dev t_.dev := by
  unfold execPlateCommit at h
  injection h with h
  subst h
  refine runCmd_s _ _ _ _ _ alone (by decide +kernel) (by decide +kernel) (fun c s => ?_)
  try dsimp only
  repeat' first
    | (with_reducible exact Within.refl _)
    | (with_reducible assumption)
    | (with_reducible simp only [State.onDev_dev])
    | (with_reducible refine doPlateCommit_s _ _ ?_ (by decide +kernel) (by decide +kernel))
    | (with_reducible refine Within.ite ?_ ?_)
    | (with_reducible refine Within.iteS ?_ ?_)
    | (intro _ _ _)
    | (refine Within.ite ?_ ?_)
    | split
    | dsimp only

theorem execCurveWrite_s (k : Nat) (s : State) (t_ : State) (h : execCurveWrite k s = .next t_)
    (alone : ∀ c, s.dev.sec.cmds.find? (fun c => c.k == k && c.op == 0x8003) = some c → (c.others s.dev).isEmpty = true) :
    Within 0x2000000140010000000000000000000000000000000000000000000000000010000000000000000000000000 0x2070 s.dev t_.dev := by
  unfold execCurveWrite at h
  injection h with h
  subst h
  refine runCmd_s _ _ _ _ _ alone (by decide +kernel) (by decide +kernel) (fun c s => ?_)
  try dsimp only
  repeat' first
    | (with_reducible exact Within.refl _)
    | (with_reducible assumption)
    | (with_reducible simp only [State.onDev_dev])
    | (with_reducible refine doCurveWrite_w _ _ ?_ (by decide +kernel) (by decide +kernel))
    | (with_reducible refine Within.ite ?_ ?_)
    | (with_reducible refine Within.iteS ?_ ?_)
    | (intro _ _ _)
    | (refine Within.ite ?_ ?_)
    | split
    | dsimp only

theorem execProfileDefine_s (k : Nat) (s : State) (t_ : State) (h : execProfileDefine k s = .next t_)
    (alone : ∀ c, s.dev.sec.cmds.find? (fun c => c.k == k && c.op == 0x8004) = some c → (c.others s.dev).isEmpty = true) :
    Within 0x20000140010000000000000000000000000000000100000000000000000000000000000000000000000800 0x5070 s.dev t_.dev := by
  unfold execProfileDefine at h
  injection h with h
  subst h
  refine runCmd_s _ _ _ _ _ alone (by decide +kernel) (by decide +kernel) (fun c s => ?_)
  try dsimp only
  repeat' first
    | (with_reducible exact Within.refl _)
    | (with_reducible assumption)
    | (with_reducible simp only [State.onDev_dev])
    | (with_reducible refine doProfileDefine_w _ _ ?_ (by decide +kernel) (by decide +kernel))
    | (with_reducible refine Within.ite ?_ ?_)
    | (with_reducible refine Within.iteS ?_ ?_)
    | (intro _ _ _)
    | (refine Within.ite ?_ ?_)
    | split
    | dsimp only

theorem execStippleEdit_s (k : Nat) (s : State) (t_ : State) (h : execStippleEdit k s = .next t_)
    (alone : ∀ c, s.dev.sec.cmds.find? (fun c => c.k == k && c.op == 0x8005) = some c → (c.others s.dev).isEmpty = true) :
    Within 0x2000000140010000000000000000000000000000000000000000000000000000000000080000000000000000 0x870 s.dev t_.dev := by
  unfold execStippleEdit at h
  injection h with h
  subst h
  refine runCmd_s _ _ _ _ _ alone (by decide +kernel) (by decide +kernel) (fun c s => ?_)
  try dsimp only
  repeat' first
    | (with_reducible exact Within.refl _)
    | (with_reducible assumption)
    | (with_reducible simp only [State.onDev_dev])
    | (with_reducible refine doStippleEdit_w _ _ ?_ (by decide +kernel) (by decide +kernel))
    | (with_reducible refine Within.ite ?_ ?_)
    | (with_reducible refine Within.iteS ?_ ?_)
    | (intro _ _ _)
    | (refine Within.ite ?_ ?_)
    | split
    | dsimp only

theorem execFactoryPlateRestore_s (k : Nat) (s : State) (t_ : State) (h : execFactoryPlateRestore k s = .next t_)
    (alone : ∀ c, s.dev.sec.cmds.find? (fun c => c.k == k && c.op == 0x8006) = some c → (c.others s.dev).isEmpty = true) :
    Within 0x21200001400100000000000000000000000000000000000000000000000100001E000008F000000000000800 0x3870 s.dev t_.dev := by
  unfold execFactoryPlateRestore at h
  injection h with h
  subst h
  refine runCmd_s _ _ _ _ _ alone (by decide +kernel) (by decide +kernel) (fun c s => ?_)
  try dsimp only
  repeat' first
    | (with_reducible exact Within.refl _)
    | (with_reducible assumption)
    | (with_reducible simp only [State.onDev_dev])
    | (with_reducible refine doFactoryRestore_s _ _ ?_ (by decide +kernel) (by decide +kernel))
    | (with_reducible refine Within.ite ?_ ?_)
    | (with_reducible refine Within.iteS ?_ ?_)
    | (intro _ _ _)
    | (refine Within.ite ?_ ?_)
    | split
    | dsimp only

theorem execStandMapSet_s (k : Nat) (s : State) (t_ : State) (h : execStandMapSet k s = .next t_)
    (alone : ∀ c, s.dev.sec.cmds.find? (fun c => c.k == k && c.op == 0x8007) = some c → (c.others s.dev).isEmpty = true) :
    Within 0x140010000000000000000000000000000000000000000000000000000000000000000000000000000 0x200030 s.dev t_.dev := by
  unfold execStandMapSet at h
  injection h with h
  subst h
  refine runCmd_s _ _ _ _ _ alone (by decide +kernel) (by decide +kernel) (fun c s => ?_)
  try dsimp only
  repeat' first
    | (with_reducible exact Within.refl _)
    | (with_reducible assumption)
    | (with_reducible simp only [State.onDev_dev])
    | (with_reducible refine doStandMapSet_w _ _ ?_ (by decide +kernel) (by decide +kernel))
    | (with_reducible refine Within.ite ?_ ?_)
    | (with_reducible refine Within.iteS ?_ ?_)
    | (intro _ _ _)
    | (refine Within.ite ?_ ?_)
    | split
    | dsimp only

theorem execRoleSet_s (k : Nat) (s : State) (t_ : State) (h : execRoleSet k s = .next t_)
    (alone : ∀ c, s.dev.sec.cmds.find? (fun c => c.k == k && c.op == 0x8008) = some c → (c.others s.dev).isEmpty = true) :
    Within 0x10000014001000000000078F970400000000000000000000840000000000000000000000000000000000000 0x304070 s.dev t_.dev := by
  unfold execRoleSet at h
  injection h with h
  subst h
  refine runCmd_s _ _ _ _ _ alone (by decide +kernel) (by decide +kernel) (fun c s => ?_)
  try dsimp only
  repeat' first
    | (with_reducible exact Within.refl _)
    | (with_reducible assumption)
    | (with_reducible simp only [State.onDev_dev])
    | (with_reducible refine doRoleSet_w _ _ ?_ (by decide +kernel) (by decide +kernel))
    | (with_reducible refine Within.ite ?_ ?_)
    | (with_reducible refine Within.iteS ?_ ?_)
    | (intro _ _ _)
    | (refine Within.ite ?_ ?_)
    | split
    | dsimp only

theorem execKeyImport_s (k : Nat) (s : State) (t_ : State) (h : execKeyImport k s = .next t_)
    (alone : ∀ c, s.dev.sec.cmds.find? (fun c => c.k == k && c.op == 0x8009) = some c → (c.others s.dev).isEmpty = true) :
    Within 0x100000140010000000000000000000000000000000000000000000000000000000000000000000000000800 0x401070 s.dev t_.dev := by
  unfold execKeyImport at h
  injection h with h
  subst h
  refine runCmd_s _ _ _ _ _ alone (by decide +kernel) (by decide +kernel) (fun c s => ?_)
  try dsimp only
  repeat' first
    | (with_reducible exact Within.refl _)
    | (with_reducible assumption)
    | (with_reducible simp only [State.onDev_dev])
    | (with_reducible refine doKeyImport_w _ _ ?_ (by decide +kernel) (by decide +kernel))
    | (with_reducible refine Within.ite ?_ ?_)
    | (with_reducible refine Within.iteS ?_ ?_)
    | (intro _ _ _)
    | (refine Within.ite ?_ ?_)
    | split
    | dsimp only

theorem execKeyRetire_s (k : Nat) (s : State) (t_ : State) (h : execKeyRetire k s = .next t_)
    (alone : ∀ c, s.dev.sec.cmds.find? (fun c => c.k == k && c.op == 0x800A) = some c → (c.others s.dev).isEmpty = true) :
    Within 0x100000140010000000000000000000000000000000000000000000000000000000000000000000000000000 0x70 s.dev t_.dev := by
  unfold execKeyRetire at h
  injection h with h
  subst h
  refine runCmd_s _ _ _ _ _ alone (by decide +kernel) (by decide +kernel) (fun c s => ?_)
  try dsimp only
  repeat' first
    | (with_reducible exact Within.refl _)
    | (with_reducible assumption)
    | (with_reducible simp only [State.onDev_dev])
    | (with_reducible refine doKeyRetire_w _ _ ?_ (by decide +kernel) (by decide +kernel))
    | (with_reducible refine Within.ite ?_ ?_)
    | (with_reducible refine Within.iteS ?_ ?_)
    | (intro _ _ _)
    | (refine Within.ite ?_ ?_)
    | split
    | dsimp only

theorem execFwStage_s (k : Nat) (s : State) (t_ : State) (h : execFwStage k s = .next t_)
    (alone : ∀ c, s.dev.sec.cmds.find? (fun c => c.k == k && c.op == 0x800B) = some c → (c.others s.dev).isEmpty = true) :
    Within 0x20000142010000000000000000000000000000000000000000000000000000000000000000000000000800 0x1070 s.dev t_.dev := by
  unfold execFwStage at h
  injection h with h
  subst h
  refine runCmd_s _ _ _ _ _ alone (by decide +kernel) (by decide +kernel) (fun c s => ?_)
  try dsimp only
  repeat' first
    | (with_reducible exact Within.refl _)
    | (with_reducible assumption)
    | (with_reducible simp only [State.onDev_dev])
    | (with_reducible refine doFwStage_w _ _ ?_ (by decide +kernel) (by decide +kernel))
    | (with_reducible refine Within.ite ?_ ?_)
    | (with_reducible refine Within.iteS ?_ ?_)
    | (intro _ _ _)
    | (refine Within.ite ?_ ?_)
    | split
    | dsimp only

theorem execFwSwitch_s (k : Nat) (s : State) (t_ : State) (h : execFwSwitch k s = .next t_)
    (alone : ∀ c, s.dev.sec.cmds.find? (fun c => c.k == k && c.op == 0x800C) = some c → (c.others s.dev).isEmpty = true) :
    Within 0x142010000000000000000000000000000000000000000000000000000000000000000000000000000 0x30 s.dev t_.dev := by
  unfold execFwSwitch at h
  injection h with h
  subst h
  refine runCmd_s _ _ _ _ _ alone (by decide +kernel) (by decide +kernel) (fun c s => ?_)
  try dsimp only
  repeat' first
    | (with_reducible exact Within.refl _)
    | (with_reducible assumption)
    | (with_reducible simp only [State.onDev_dev])
    | (with_reducible refine localSwitch_w _ _ ?_ (by decide +kernel) (by decide +kernel))
    | (with_reducible refine Within.ite ?_ ?_)
    | (with_reducible refine Within.iteS ?_ ?_)
    | (intro _ _ _)
    | (refine Within.ite ?_ ?_)
    | split
    | dsimp only

theorem execKeepWrite_s (k : Nat) (s : State) (t_ : State) (h : execKeepWrite k s = .next t_)
    (alone : ∀ c, s.dev.sec.cmds.find? (fun c => c.k == k && c.op == 0x800D) = some c → (c.others s.dev).isEmpty = true) :
    Within 0x100000140010000000000000000000000000000000000000000000000000000000000000000000000000000 0x70 s.dev t_.dev := by
  unfold execKeepWrite at h
  injection h with h
  subst h
  refine runCmd_s _ _ _ _ _ alone (by decide +kernel) (by decide +kernel) (fun c s => ?_)
  try dsimp only
  repeat' first
    | (with_reducible exact Within.refl _)
    | (with_reducible assumption)
    | (with_reducible simp only [State.onDev_dev])
    | (with_reducible refine doKeepWrite_w _ _ ?_ (by decide +kernel) (by decide +kernel))
    | (with_reducible refine Within.ite ?_ ?_)
    | (with_reducible refine Within.iteS ?_ ?_)
    | (intro _ _ _)
    | (refine Within.ite ?_ ?_)
    | split
    | dsimp only

theorem execFlashErase_s (k : Nat) (s : State) (t_ : State) (h : execFlashErase k s = .next t_)
    (alone : ∀ c, s.dev.sec.cmds.find? (fun c => c.k == k && c.op == 0x800E) = some c → (c.others s.dev).isEmpty = true) :
    Within 0x20000140010000000000000000000000000000000000000000000000000000000000000000000000000800 0x1070 s.dev t_.dev := by
  unfold execFlashErase at h
  injection h with h
  subst h
  refine runCmd_s _ _ _ _ _ alone (by decide +kernel) (by decide +kernel) (fun c s => ?_)
  try dsimp only
  repeat' first
    | (with_reducible exact Within.refl _)
    | (with_reducible assumption)
    | (with_reducible simp only [State.onDev_dev])
    | (with_reducible refine doFlashErase_w _ _ ?_ (by decide +kernel) (by decide +kernel))
    | (with_reducible refine Within.ite ?_ ?_)
    | (with_reducible refine Within.iteS ?_ ?_)
    | (intro _ _ _)
    | (refine Within.ite ?_ ?_)
    | split
    | dsimp only

theorem execRepairPolicySet_s (k : Nat) (s : State) (t_ : State) (h : execRepairPolicySet k s = .next t_)
    (alone : ∀ c, s.dev.sec.cmds.find? (fun c => c.k == k && c.op == 0x800F) = some c → (c.others s.dev).isEmpty = true) :
    Within 0x4000100000140010000000000000000000000000000000000000000000000000000000000000000000000000000 0x70 s.dev t_.dev := by
  unfold execRepairPolicySet at h
  injection h with h
  subst h
  refine runCmd_s _ _ _ _ _ alone (by decide +kernel) (by decide +kernel) (fun c s => ?_)
  try dsimp only
  repeat' first
    | (with_reducible exact Within.refl _)
    | (with_reducible assumption)
    | (with_reducible simp only [State.onDev_dev])
    | (with_reducible refine doRepairPolicy_w _ _ ?_ (by decide +kernel) (by decide +kernel))
    | (with_reducible refine Within.ite ?_ ?_)
    | (with_reducible refine Within.iteS ?_ ?_)
    | (intro _ _ _)
    | (refine Within.ite ?_ ?_)
    | split
    | dsimp only

theorem execDoorbellWrite_s (n : Fin 16) (v : Word) (wide : Bool) (s : State) (t_ : State) (h : execDoorbellWrite n v wide s = .next t_) : Within 0x80B80100000000003040110000000000000000000000000000000000000000000000000000000000000000000000 0xD2 s.dev t_.dev := by
  unfold execDoorbellWrite at h
  injection h with h
  subst h
  all_goals try dsimp only
  all_goals (
    repeat' first
      | (with_reducible exact Within.refl _)
      | (with_reducible assumption)
      | (with_reducible simp only [State.onDev_dev])
      | (with_reducible refine doorbell_w _ _ _ _ ?_ (by decide +kernel) (by decide +kernel))
      | (with_reducible refine Within.ite ?_ ?_)
      | (with_reducible refine Within.iteS ?_ ?_)
      | (intro _ _ _)
      | (refine Within.ite ?_ ?_)
      | split
      | dsimp only)

theorem execCommandFetch_s (entry : List Byte) (s : State) (t_ : State) (h : execCommandFetch entry s = .next t_) : Within 0x80B82100000140795040010000000000000000000000000000000000000000000000000000000000000000000800 0x10F2 s.dev t_.dev := by
  unfold execCommandFetch at h
  injection h with h
  subst h
  all_goals try dsimp only
  all_goals (
    repeat' first
      | (with_reducible exact Within.refl _)
      | (with_reducible assumption)
      | (with_reducible simp only [State.onDev_dev])
      | (with_reducible refine commandFetch_w _ _ ?_ (by decide +kernel) (by decide +kernel))
      | (with_reducible refine Within.ite ?_ ?_)
      | (with_reducible refine Within.iteS ?_ ?_)
      | (intro _ _ _)
      | (refine Within.ite ?_ ?_)
      | split
      | dsimp only)

theorem execIndirectDataFetch_s (k : Nat) (data : List Byte) (s : State) (t_ : State) (h : execIndirectDataFetch k data s = .next t_) : Within 0x80B82100000140790040000000000000000000000000000000000000000000000000000000000000000000000800 0x10F2 s.dev t_.dev := by
  unfold execIndirectDataFetch at h
  injection h with h
  subst h
  all_goals try dsimp only
  all_goals (
    repeat' first
      | (with_reducible exact Within.refl _)
      | (with_reducible assumption)
      | (with_reducible simp only [State.onDev_dev])
      | (with_reducible refine indirectFetch_w _ _ _ ?_ (by decide +kernel) (by decide +kernel))
      | (with_reducible refine Within.ite ?_ ?_)
      | (with_reducible refine Within.iteS ?_ ?_)
      | (intro _ _ _)
      | (refine Within.ite ?_ ?_)
      | split
      | dsimp only)

theorem execCompletionWrite_s (s : State) (t_ : State) (h : execCompletionWrite s = .next t_) : Within 0x4040000000000000000000000000000000000000000000000000000000000000000000000000 0x12 s.dev t_.dev := by
  unfold execCompletionWrite at h
  injection h with h
  subst h
  all_goals try dsimp only
  all_goals (
    repeat' first
      | (with_reducible exact Within.refl _)
      | (with_reducible assumption)
      | (with_reducible simp only [State.onDev_dev])
      | (with_reducible refine completionWrite_w _ ?_ (by decide +kernel) (by decide +kernel))
      | (with_reducible refine Within.ite ?_ ?_)
      | (with_reducible refine Within.iteS ?_ ?_)
      | (intro _ _ _)
      | (refine Within.ite ?_ ?_)
      | split
      | dsimp only)

theorem execMbxGo_s (p : Path) (s : State) (t_ : State) (h : execMbxGo p s = .next t_) : Within 0x40000000000000000000000000000000000000000000000000000000000000000000000000000000 0x20 s.dev t_.dev := by
  unfold execMbxGo at h
  injection h with h
  subst h
  all_goals try dsimp only
  all_goals (
    repeat' first
      | (with_reducible exact Within.refl _)
      | (with_reducible assumption)
      | (with_reducible simp only [State.onDev_dev])
      | (with_reducible refine mbxGo_s _ _ ?_ (by decide +kernel) (by decide +kernel))
      | (with_reducible refine Within.ite ?_ ?_)
      | (with_reducible refine Within.iteS ?_ ?_)
      | (intro _ _ _)
      | (refine Within.ite ?_ ?_)
      | split
      | dsimp only)

theorem execMbxAck_s (p : Path) (s : State) (t_ : State) (h : execMbxAck p s = .next t_) : Within 0x40000000000000000000000000000000000000000000000000000000000000000000000000000000 0 s.dev t_.dev := by
  unfold execMbxAck at h
  injection h with h
  subst h
  all_goals try dsimp only
  all_goals (
    repeat' first
      | (with_reducible exact Within.refl _)
      | (with_reducible assumption)
      | (with_reducible simp only [State.onDev_dev])
      | (with_reducible refine mbxAck_w _ _ ?_ (by decide +kernel) (by decide +kernel))
      | (with_reducible refine Within.ite ?_ ?_)
      | (with_reducible refine Within.iteS ?_ ?_)
      | (intro _ _ _)
      | (refine Within.ite ?_ ?_)
      | split
      | dsimp only)

theorem execRunSet_s (s : State) (t_ : State) (h : execRunSet s = .next t_) : Within 0x4E000080000000000000000000000000000018B000000 0x4100 s.dev t_.dev := by
  unfold execRunSet at h
  injection h with h
  subst h
  all_goals try dsimp only
  all_goals (
    repeat' first
      | (with_reducible exact Within.refl _)
      | (with_reducible assumption)
      | (with_reducible simp only [State.onDev_dev])
      | (with_reducible refine Dev.bootProfile_w _ ?_ (by decide +kernel) (by decide +kernel))
      | (with_reducible refine startReadout_w1 _ ?_ (by decide +kernel) (by decide +kernel))
      | (with_reducible refine startReadout_w _ _ _ (by assumption) ?_ (by decide +kernel) (by decide +kernel))
      | (with_reducible refine Within.ite ?_ ?_)
      | (with_reducible refine Within.iteS ?_ ?_)
      | (intro _ _ _)
      | (refine Within.ite ?_ ?_)
      | split
      | dsimp only)

theorem execRunClear_s (s : State) (t_ : State) (h : execRunClear s = .next t_) : Within 0x80B8010000014001000000000000000000000000000000000000000020000084000000000000100000010B000000 0x249F0 s.dev t_.dev := by
  unfold execRunClear at h
  injection h with h
  subst h
  all_goals try dsimp only
  all_goals (
    repeat' first
      | (with_reducible exact Within.refl _)
      | (with_reducible assumption)
      | (with_reducible simp only [State.onDev_dev])
      | (with_reducible refine Dev.stopDone_w _ ?_ (by decide +kernel) (by decide +kernel))
      | (with_reducible refine stopAll_w _ ?_ (by decide +kernel) (by decide +kernel))
      | (with_reducible refine Within.ite ?_ ?_)
      | (with_reducible refine Within.iteS ?_ ?_)
      | (intro _ _ _)
      | (refine Within.ite ?_ ?_)
      | split
      | dsimp only)

theorem execFpaCntClr_s (s : State) (t_ : State) (h : execFpaCntClr s = .next t_) : Within 0x1800000000 0 s.dev t_.dev := by
  unfold execFpaCntClr at h
  injection h with h
  subst h
  exact Within.clearAllB (Within.refl _) _ (by decide +kernel)

theorem execAcqCtlCommit_s (s : State) (t_ : State) (h : execAcqCtlCommit s = .next t_) : Within 0x200000014001000000000000000000000000000000000000000000000000000000000000000000018A005000 0x1170 s.dev t_.dev := by
  unfold execAcqCtlCommit at h
  injection h with h
  subst h
  all_goals try dsimp only
  all_goals (
    repeat' first
      | (with_reducible exact Within.refl _)
      | (with_reducible assumption)
      | (with_reducible simp only [State.onDev_dev])
      | (with_reducible refine acqCtlWrite_w _ _ _ ?_ (by decide +kernel) (by decide +kernel))
      | (with_reducible refine Within.ite ?_ ?_)
      | (with_reducible refine Within.iteS ?_ ?_)
      | (intro _ _ _)
      | (refine Within.ite ?_ ?_)
      | split
      | dsimp only)

theorem execAcqCtlCancel_s (s : State) (t_ : State) (h : execAcqCtlCancel s = .next t_) : Within 0x200000014001000000000000000000000000000000000000000000000000000000000000000000018A005000 0x1170 s.dev t_.dev := by
  unfold execAcqCtlCancel at h
  injection h with h
  subst h
  all_goals try dsimp only
  all_goals (
    repeat' first
      | (with_reducible exact Within.refl _)
      | (with_reducible assumption)
      | (with_reducible simp only [State.onDev_dev])
      | (with_reducible refine acqCtlWrite_w _ _ _ ?_ (by decide +kernel) (by decide +kernel))
      | (with_reducible refine Within.ite ?_ ?_)
      | (with_reducible refine Within.iteS ?_ ?_)
      | (intro _ _ _)
      | (refine Within.ite ?_ ?_)
      | split
      | dsimp only)

theorem execStageCtlWrite_s (v : Word) (s : State) (t_ : State) (h : execStageCtlWrite v s = .next t_) : Within 0x80B801000000000000000000000000000000000000000000000000002000008C0000000000001000006000000000 0x24BD0 s.dev t_.dev := by
  unfold execStageCtlWrite at h
  injection h with h
  subst h
  all_goals try dsimp only
  all_goals (
    repeat' first
      | (with_reducible exact Within.refl _)
      | (with_reducible assumption)
      | (with_reducible simp only [State.onDev_dev])
      | (with_reducible refine stageCtlWrite_w _ _ ?_ (by decide +kernel) (by decide +kernel))
      | (with_reducible refine Within.ite ?_ ?_)
      | (with_reducible refine Within.iteS ?_ ?_)
      | (intro _ _ _)
      | (refine Within.ite ?_ ?_)
      | split
      | dsimp only)

theorem execShadowRelease_s (s : State) (t_ : State) (h : execShadowRelease s = .next t_) : Within 0x1000000000000000 0x800 s.dev t_.dev := by
  unfold execShadowRelease at h
  injection h with h
  subst h
  all_goals try dsimp only
  all_goals (
    repeat' first
      | (with_reducible exact Within.refl _)
      | (with_reducible assumption)
      | (with_reducible simp only [State.onDev_dev])
      | (with_reducible refine Dev.releaseShadow_w _ ?_ (by decide +kernel) (by decide +kernel))
      | (with_reducible refine Within.ite ?_ ?_)
      | (with_reducible refine Within.iteS ?_ ?_)
      | (intro _ _ _)
      | (refine Within.ite ?_ ?_)
      | split
      | dsimp only)

theorem execPipeCntClr_s (loaderr : Bool) (cap : Bool) (s : State) (t_ : State) (h : execPipeCntClr loaderr cap s = .next t_) : Within 0xE020000000000000000 0 s.dev t_.dev := by
  unfold execPipeCntClr at h
  injection h with h
  subst h
  rw [State.onDev_dev]
  dsimp only
  have h1 : Within 0xE020000000000000000 0 s.dev (if loaderr then s.dev.clearAll [F.PIPE_PL_LOADERR_CNT] else s.dev) := by
    split
    · exact Within.clearAllB (Within.refl _) _ (by decide +kernel)
    · exact Within.refl _
  split
  · exact Within.clearAllB h1 _ (by decide +kernel)
  · exact h1

theorem execAcCtlWrite_s (v : Word) (s : State) (t_ : State) (h : execAcCtlWrite v s = .next t_) : Within 0x100000000000000000000000000 0 s.dev t_.dev := by
  unfold execAcCtlWrite at h
  injection h with h
  subst h
  all_goals try dsimp only
  all_goals (
    repeat' first
      | (with_reducible exact Within.refl _)
      | (with_reducible assumption)
      | (with_reducible simp only [State.onDev_dev])
      | (with_reducible refine acCtlWrite_w _ _ ?_ (by decide +kernel) (by decide +kernel))
      | (with_reducible refine Within.ite ?_ ?_)
      | (with_reducible refine Within.iteS ?_ ?_)
      | (intro _ _ _)
      | (refine Within.ite ?_ ?_)
      | split
      | dsimp only)

theorem execDmCoeffWrite_s (i : Fin 8) (v : Word) (s : State) (t_ : State) (h : execDmCoeffWrite i v s = .next t_) : Within 0x100000000000000000000000000000000000000000000000000000000000000012000000000000000000000 0x40 s.dev t_.dev := by
  unfold execDmCoeffWrite at h
  injection h with h
  subst h
  all_goals try dsimp only
  all_goals (
    repeat' first
      | (with_reducible exact Within.refl _)
      | (with_reducible assumption)
      | (with_reducible simp only [State.onDev_dev])
      | (with_reducible refine dmCoeffWrite_w _ _ _ ?_ (by decide +kernel) (by decide +kernel))
      | (with_reducible refine Within.ite ?_ ?_)
      | (with_reducible refine Within.iteS ?_ ?_)
      | (intro _ _ _)
      | (refine Within.ite ?_ ?_)
      | split
      | dsimp only)

theorem execProofSchedWrite_s (v : Word) (s : State) (t_ : State) (h : execProofSchedWrite v s = .next t_) : Within 0x140000000000000000000000000000 0 s.dev t_.dev := by
  unfold execProofSchedWrite at h
  injection h with h
  subst h
  all_goals try dsimp only
  all_goals (
    repeat' first
      | (with_reducible exact Within.refl _)
      | (with_reducible assumption)
      | (with_reducible simp only [State.onDev_dev])
      | (with_reducible refine schedWrite_w _ _ ?_ (by decide +kernel) (by decide +kernel))
      | (with_reducible refine Within.ite ?_ ?_)
      | (with_reducible refine Within.iteS ?_ ?_)
      | (intro _ _ _)
      | (refine Within.ite ?_ ?_)
      | split
      | dsimp only)

theorem execShutClear_s (s : State) (t_ : State) (h : execShutClear s = .next t_) : Within 0x800000000000000000000000000000 0 s.dev t_.dev := by
  unfold execShutClear at h
  injection h with h
  subst h
  all_goals try dsimp only
  all_goals (
    repeat' first
      | (with_reducible exact Within.refl _)
      | (with_reducible assumption)
      | (with_reducible simp only [State.onDev_dev])
      | (with_reducible refine shutClear_w _ ?_ (by decide +kernel) (by decide +kernel))
      | (with_reducible refine Within.ite ?_ ?_)
      | (with_reducible refine Within.iteS ?_ ?_)
      | (intro _ _ _)
      | (refine Within.ite ?_ ?_)
      | split
      | dsimp only)

theorem execTestClose_s (s : State) (t_ : State) (h : execTestClose s = .next t_) : Within 0x800000000000000000000000000000 0x24100 s.dev t_.dev := by
  unfold execTestClose at h
  injection h with h
  subst h
  all_goals try dsimp only
  all_goals (
    repeat' first
      | (with_reducible exact Within.refl _)
      | (with_reducible assumption)
      | (with_reducible simp only [State.onDev_dev])
      | (with_reducible refine testDrive_w _ _ ?_ (by decide +kernel) (by decide +kernel))
      | (with_reducible refine Within.ite ?_ ?_)
      | (with_reducible refine Within.iteS ?_ ?_)
      | (intro _ _ _)
      | (refine Within.ite ?_ ?_)
      | split
      | dsimp only)

theorem execTestOpen_s (s : State) (t_ : State) (h : execTestOpen s = .next t_) : Within 0x800000000000000000000000000000 0x24100 s.dev t_.dev := by
  unfold execTestOpen at h
  injection h with h
  subst h
  all_goals try dsimp only
  all_goals (
    repeat' first
      | (with_reducible exact Within.refl _)
      | (with_reducible assumption)
      | (with_reducible simp only [State.onDev_dev])
      | (with_reducible refine testDrive_w _ _ ?_ (by decide +kernel) (by decide +kernel))
      | (with_reducible refine Within.ite ?_ ?_)
      | (with_reducible refine Within.iteS ?_ ?_)
      | (intro _ _ _)
      | (refine Within.ite ?_ ?_)
      | split
      | dsimp only)

theorem execProofCntClr_s (s : State) (t_ : State) (h : execProofCntClr s = .next t_) : Within 0x20E00000000000000000000000000000000000 0 s.dev t_.dev := by
  unfold execProofCntClr at h
  injection h with h
  subst h
  exact Within.clearAllB (Within.refl _) _ (by decide +kernel)

theorem execPreset_s (s : State) (t_ : State) (h : execPreset s = .next t_) : Within 0x80B8010000000000000000000000000000000000000000000000380020C0008C0000000000001000004000040000 0x165BD0 s.dev t_.dev := by
  unfold execPreset at h
  injection h with h
  subst h
  all_goals try dsimp only
  all_goals (
    repeat' first
      | (with_reducible exact Within.refl _)
      | (with_reducible assumption)
      | (with_reducible simp only [State.onDev_dev])
      | (with_reducible refine Dev.presetW_w _ _ ?_ (by decide +kernel) (by decide +kernel))
      | (with_reducible refine Within.ite ?_ ?_)
      | (with_reducible refine Within.iteS ?_ ?_)
      | (intro _ _ _)
      | (refine Within.ite ?_ ?_)
      | split
      | dsimp only)

theorem execFlush_s (s : State) (t_ : State) (h : execFlush s = .next t_) : Within 0x1800080B80100802000000000000D1F00000000000000F000008CE0000800000000000000000000000000000000000000 0x31C0D4 s.dev t_.dev := by
  unfold execFlush at h
  injection h with h
  subst h
  all_goals try dsimp only
  all_goals (
    repeat' first
      | (with_reducible exact Within.refl _)
      | (with_reducible assumption)
      | (with_reducible simp only [State.onDev_dev])
      | (with_reducible refine Dev.flushLines_w _ ?_ (by decide +kernel) (by decide +kernel))
      | (with_reducible refine Within.ite ?_ ?_)
      | (with_reducible refine Within.iteS ?_ ?_)
      | (intro _ _ _)
      | (refine Within.ite ?_ ?_)
      | split
      | dsimp only)

theorem execWebCntClr_s (s : State) (t_ : State) (h : execWebCntClr s = .next t_) : Within 0x1F000780000000000000000000000000000000000000000 0 s.dev t_.dev := by
  unfold execWebCntClr at h
  injection h with h
  subst h
  exact Within.clearAllB (Within.refl _) _ (by decide +kernel)

theorem execWebCtlWrite_s (v : Word) (s : State) (t_ : State) (h : execWebCtlWrite v s = .next t_) : Within 0x4E0000840000000000000000000000000000000000000 0x4000 s.dev t_.dev := by
  unfold execWebCtlWrite at h
  injection h with h
  subst h
  all_goals try dsimp only
  all_goals (
    repeat' first
      | (with_reducible exact Within.refl _)
      | (with_reducible assumption)
      | (with_reducible simp only [State.onDev_dev])
      | (with_reducible refine webCtlWrite_w _ _ ?_ (by decide +kernel) (by decide +kernel))
      | (with_reducible refine Within.ite ?_ ?_)
      | (with_reducible refine Within.iteS ?_ ?_)
      | (intro _ _ _)
      | (refine Within.ite ?_ ?_)
      | split
      | dsimp only)

theorem execHostSpeedWrite_s (v : Word) (s : State) (t_ : State) (h : execHostSpeedWrite v s = .next t_) : Within 0x400000000000000000000000000000000000000 0 s.dev t_.dev := by
  unfold execHostSpeedWrite at h
  injection h with h
  subst h
  all_goals try dsimp only
  all_goals (
    repeat' first
      | (with_reducible exact Within.refl _)
      | (with_reducible assumption)
      | (with_reducible simp only [State.onDev_dev])
      | (with_reducible refine Within.writeWord ?_ _ _ (by decide +kernel))
      | (with_reducible refine Within.ite ?_ ?_)
      | (with_reducible refine Within.iteS ?_ ?_)
      | (intro _ _ _)
      | (refine Within.ite ?_ ?_)
      | split
      | dsimp only)

theorem execGeoCommit_s (s : State) (t_ : State) (h : execGeoCommit s = .next t_) : Within 0x2000000000000000000000000000000000000000001C000000000000000000000000000000000000000800 0x5040 s.dev t_.dev := by
  unfold execGeoCommit at h
  injection h with h
  subst h
  all_goals try dsimp only
  all_goals (
    repeat' first
      | (with_reducible exact Within.refl _)
      | (with_reducible assumption)
      | (with_reducible simp only [State.onDev_dev])
      | (with_reducible refine geoCommit_w _ _ ?_ (by decide +kernel) (by decide +kernel))
      | (with_reducible refine Within.ite ?_ ?_)
      | (with_reducible refine Within.iteS ?_ ?_)
      | (intro _ _ _)
      | (refine Within.ite ?_ ?_)
      | split
      | dsimp only)

theorem execSnap_s (s : State) (t_ : State) (h : execSnap s = .next t_) : Within 0x80B8010080200000000000000000000000000006030FF80000000000000000000000000000000000000000000000 0x80D4 s.dev t_.dev := by
  unfold execSnap at h
  injection h with h
  subst h
  all_goals try dsimp only
  all_goals (
    repeat' first
      | (with_reducible exact Within.refl _)
      | (with_reducible assumption)
      | (with_reducible simp only [State.onDev_dev])
      | (with_reducible refine Dev.snapshot_w _ _ _ ?_ (by decide +kernel) (by decide +kernel))
      | (with_reducible refine Within.ite ?_ ?_)
      | (with_reducible refine Within.iteS ?_ ?_)
      | (intro _ _ _)
      | (refine Within.ite ?_ ?_)
      | split
      | dsimp only)

theorem execAlarmCntClr_s (s : State) (t_ : State) (h : execAlarmCntClr s = .next t_) : Within 0xE000000000000000000000000000000000000000000000000000 0 s.dev t_.dev := by
  unfold execAlarmCntClr at h
  injection h with h
  subst h
  exact Within.clearAllB (Within.refl _) _ (by decide +kernel)

theorem execAlarmQueueClr_s (s : State) (t_ : State) (h : execAlarmQueueClr s = .next t_) : Within 0x1000000000000000000000000000000000000000000000000000 0x10000 s.dev t_.dev := by
  unfold execAlarmQueueClr at h
  injection h with h
  subst h
  all_goals try dsimp only
  all_goals (
    repeat' first
      | (with_reducible exact Within.refl _)
      | (with_reducible assumption)
      | (with_reducible simp only [State.onDev_dev])
      | (with_reducible refine Dev.showAlarm_w _ ?_ (by decide +kernel) (by decide +kernel))
      | (with_reducible refine Within.onAlarm ?_ _ (by decide +kernel))
      | (with_reducible refine Within.ite ?_ ?_)
      | (with_reducible refine Within.iteS ?_ ?_)
      | (intro _ _ _)
      | (refine Within.ite ?_ ?_)
      | split
      | dsimp only)

theorem execAlOutWrite_s (n : Fin 4) (v : Word) (s : State) (t_ : State) (h : execAlOutWrite n v s = .next t_) : Within 0xF01C000000000000000000000000000000000000000000000000001400000000000000000000000000000000000000000000000000 0x800004 s.dev t_.dev := by
  unfold execAlOutWrite at h
  injection h with h
  subst h
  exact alOutWrite_w0 _ n.isLt _ _

theorem execApply_s (s : State) (t_ : State) (h : execApply s = .next t_) : Within 0x80B8010000014001B840132000000000000409F00000010000000000000000000000000003000000000000000000 0x3008F2 s.dev t_.dev := by
  unfold execApply at h
  injection h with h
  subst h
  all_goals try dsimp only
  all_goals (
    repeat' first
      | (with_reducible exact Within.refl _)
      | (with_reducible assumption)
      | (with_reducible simp only [State.onDev_dev])
      | (with_reducible refine applyHp_w _ ?_ (by decide +kernel) (by decide +kernel))
      | (with_reducible refine Within.ite ?_ ?_)
      | (with_reducible refine Within.iteS ?_ ?_)
      | (intro _ _ _)
      | (refine Within.ite ?_ ?_)
      | split
      | dsimp only)

theorem execLinkCntClr_s (s : State) (t_ : State) (h : execLinkCntClr s = .next t_) : Within 0x601E7C1000000000000000000000000000000000000000000000000000000 0 s.dev t_.dev := by
  unfold execLinkCntClr at h
  injection h with h
  subst h
  exact Within.clearAllB (Within.refl _) _ (by decide +kernel)

theorem execScan_s (q : Port) (s : State) (t_ : State) (h : execScan q s = .next t_) : Within 0x80080000000000000000000000000000000000000000000000000000000000000000000000000000000000000000 0x100080 s.dev t_.dev := by
  unfold execScan at h
  injection h with h
  subst h
  all_goals try dsimp only
  all_goals (
    repeat' first
      | (with_reducible exact Within.refl _)
      | (with_reducible assumption)
      | (with_reducible simp only [State.onDev_dev])
      | (with_reducible refine scanPort_w _ _ ?_ (by decide +kernel) (by decide +kernel))
      | (with_reducible refine Within.ite ?_ ?_)
      | (with_reducible refine Within.iteS ?_ ?_)
      | (intro _ _ _)
      | (refine Within.ite ?_ ?_)
      | split
      | dsimp only)

theorem execTsSrcWrite_s (src : Fin 4) (s : State) (t_ : State) (h : execTsSrcWrite src s = .next t_) : Within 0x20000000000000000000000000000000000000000000000000000000000 0x800010 s.dev t_.dev := by
  unfold execTsSrcWrite at h
  injection h with h
  subst h
  all_goals try dsimp only
  all_goals (
    repeat' first
      | (with_reducible exact Within.refl _)
      | (with_reducible assumption)
      | (with_reducible simp only [State.onDev_dev])
      | (with_reducible refine tsSrcWrite_w _ _ ?_ (by decide +kernel) (by decide +kernel))
      | (with_reducible refine Within.ite ?_ ?_)
      | (with_reducible refine Within.iteS ?_ ?_)
      | (intro _ _ _)
      | (refine Within.ite ?_ ?_)
      | split
      | dsimp only)

theorem execStandCntClr_s (s : State) (t_ : State) (h : execStandCntClr s = .next t_) : Within 0x1E0F0000000000000000000000000000000000000000000000000000000000000000 0 s.dev t_.dev := by
  unfold execStandCntClr at h
  injection h with h
  subst h
  exact Within.clearAllB (Within.refl _) _ (by decide +kernel)

theorem execTrimReset_s (s : State) (t_ : State) (h : execTrimReset s = .next t_) : Within 0x500000000000000000000000000000000000000000000000000000000000000000000 0x200000 s.dev t_.dev := by
  unfold execTrimReset at h
  injection h with h
  subst h
  all_goals try dsimp only
  all_goals (
    repeat' first
      | (with_reducible exact Within.refl _)
      | (with_reducible assumption)
      | (with_reducible simp only [State.onDev_dev])
      | (with_reducible refine Dev.trimReset_w _ ?_ (by decide +kernel) (by decide +kernel))
      | (with_reducible refine Within.ite ?_ ?_)
      | (with_reducible refine Within.iteS ?_ ?_)
      | (intro _ _ _)
      | (refine Within.ite ?_ ?_)
      | split
      | dsimp only)

theorem execHostCntClr_s (s : State) (t_ : State) (h : execHostCntClr s = .next t_) : Within 0x80809E0000000000000000000000000000000000000000000000000000000000000000000000 0 s.dev t_.dev := by
  unfold execHostCntClr at h
  injection h with h
  subst h
  exact Within.clearAllB (Within.refl _) _ (by decide +kernel)

theorem execWidthMaxWrite_s (wm : Fin 4) (s : State) (t_ : State) (h : execWidthMaxWrite wm s = .next t_) : Within 0x43000000000000000000000000000000000000000000000000000000000000000000000 0 s.dev t_.dev := by
  unfold execWidthMaxWrite at h
  injection h with h
  subst h
  all_goals try dsimp only
  all_goals (
    repeat' first
      | (with_reducible exact Within.refl _)
      | (with_reducible assumption)
      | ((try lift_lets); intro x_; first
        | (refine (fun (hx_ : Within 0x43000000000000000000000000000000000000000000000000000000000000000000000 0 s.dev x_) => ?rest) ?val; (case' rest => clear_value x_); (case' val => subst x_))
        | (refine (fun (hx_ : Within 0x43000000000000000000000000000000000000000000000000000000000000000000000 0 s.dev x_.dev) => ?rest) ?val; (case' rest => clear_value x_); (case' val => subst x_))
        | (have _t := fun y_ => x_ y_; clear _t; subst x_)
        | (have _t : Dev := x_.1; clear _t; subst x_)
        | (have _t : Dev := x_.2; clear _t; subst x_)
        | (have _t := fun y_ => x_ y_; clear _t; subst x_)
        | (have _t : State := x_.1; clear _t; subst x_)
        | (have _t : State := x_.2; clear _t; subst x_)
        | clear_value x_)
      | (with_reducible simp only [State.onDev_dev])
      | (with_reducible refine Within.putBitAt ?_ _ _ _ (by decide +kernel))
      | (with_reducible refine Within.putBit ?_ _ _ (by decide +kernel))
      | (with_reducible refine Within.putAt ?_ _ _ _ (by decide +kernel))
      | (with_reducible refine Within.put ?_ _ _ (by decide +kernel))
      | (with_reducible refine Within.incAt ?_ _ _ (by decide +kernel))
      | (with_reducible refine Within.inc ?_ _ (by decide +kernel))
      | (with_reducible refine Within.ite ?_ ?_)
      | (with_reducible refine Within.iteS ?_ ?_)
      | (intro _ _ _)
      | (refine Within.ite ?_ ?_)
      | split
      | dsimp only)

theorem execResume_s (c : Fin 8) (s : State) (t_ : State) (h : execResume c s = .next t_) : Within 0x80B8010080214001D040010000000000000000000000010000000000000000000000000003000000000000000000 0x8F2 s.dev t_.dev := by
  unfold execResume at h
  injection h with h
  subst h
  all_goals try dsimp only
  all_goals (
    repeat' first
      | (with_reducible exact Within.refl _)
      | (with_reducible assumption)
      | (with_reducible simp only [State.onDev_dev])
      | (with_reducible refine resumeChan_w _ _ ?_ (by decide +kernel) (by decide +kernel))
      | (with_reducible refine Within.ite ?_ ?_)
      | (with_reducible refine Within.iteS ?_ ?_)
      | (intro _ _ _)
      | (refine Within.ite ?_ ?_)
      | split
      | dsimp only)

theorem execRingEnable_s (n : Fin 16) (s : State) (t_ : State) (h : execRingEnable n s = .next t_) : Within 0x80B8010080214001F840010000000000000000000000010000000000000000000000000003000000000000000000 0x8F2 s.dev t_.dev := by
  unfold execRingEnable at h
  injection h with h
  subst h
  all_goals try dsimp only
  all_goals (
    repeat' first
      | (with_reducible exact Within.refl _)
      | (with_reducible assumption)
      | (with_reducible simp only [State.onDev_dev])
      | (with_reducible refine ringEnable_w _ _ ?_ (by decide +kernel) (by decide +kernel))
      | (with_reducible refine Within.ite ?_ ?_)
      | (with_reducible refine Within.iteS ?_ ?_)
      | (intro _ _ _)
      | (refine Within.ite ?_ ?_)
      | split
      | dsimp only)

theorem execRingDisable_s (n : Fin 16) (s : State) (t_ : State) (h : execRingDisable n s = .next t_) : Within 0x5840010000000000000000000000000000000000000000000000000000000000000000000000 0x12 s.dev t_.dev := by
  unfold execRingDisable at h
  injection h with h
  subst h
  all_goals try dsimp only
  all_goals (
    repeat' first
      | (with_reducible exact Within.refl _)
      | (with_reducible assumption)
      | (with_reducible simp only [State.onDev_dev])
      | (with_reducible refine ringDisable_w _ _ ?_ (by decide +kernel) (by decide +kernel))
      | (with_reducible refine Within.ite ?_ ?_)
      | (with_reducible refine Within.iteS ?_ ?_)
      | (intro _ _ _)
      | (refine Within.ite ?_ ?_)
      | split
      | dsimp only)

theorem execRingCtlReset_s (n : Fin 16) (s : State) (t_ : State) (h : execRingCtlReset n s = .next t_) : Within 0x14001B840100000000000000000000000010000000000000000000000000003000000000000000000 0x832 s.dev t_.dev := by
  unfold execRingCtlReset at h
  injection h with h
  subst h
  all_goals try dsimp only
  all_goals (
    repeat' first
      | (with_reducible exact Within.refl _)
      | (with_reducible assumption)
      | (with_reducible simp only [State.onDev_dev])
      | (with_reducible refine Dev.ringReset_w _ _ ?_ (by decide +kernel) (by decide +kernel))
      | (with_reducible refine Within.ite ?_ ?_)
      | (with_reducible refine Within.iteS ?_ ?_)
      | (intro _ _ _)
      | (refine Within.ite ?_ ?_)
      | split
      | dsimp only)

theorem execSecCntClr_s (s : State) (t_ : State) (h : execSecCntClr s = .next t_) : Within 0xF00000000000000000000000000000000000000000000000000000000000000000000000000000 0 s.dev t_.dev := by
  unfold execSecCntClr at h
  injection h with h
  subst h
  exact Within.clearAllB (Within.refl _) _ (by decide +kernel)

theorem execMemCntClr_s (s : State) (t_ : State) (h : execMemCntClr s = .next t_) : Within 0x1FD80000000000000000000000000000000000000000000000000000000000000000000000000000000000 0 s.dev t_.dev := by
  unfold execMemCntClr at h
  injection h with h
  subst h
  exact Within.clearAllB (Within.refl _) _ (by decide +kernel)

theorem execTwSelWrite_s (p : Path) (v : Word) (s : State) (t_ : State) (h : execTwSelWrite p v s = .next t_) : Within 0 8 s.dev t_.dev := by
  unfold execTwSelWrite at h
  try dsimp only at h
  repeat' split at h
  all_goals (first | cases h | (injection h with h; subst h) | skip)
  all_goals try dsimp only
  all_goals (
    repeat' first
      | (with_reducible exact Within.refl _)
      | (with_reducible assumption)
      | (with_reducible simp only [State.onDev_dev])
      | (with_reducible refine twSelWrite_w _ _ _ ?_ (by decide +kernel) (by decide +kernel))
      | (with_reducible refine Within.ite ?_ ?_)
      | (with_reducible refine Within.iteS ?_ ?_)
      | (intro _ _ _)
      | (refine Within.ite ?_ ?_)
      | split
      | dsimp only)

theorem execTableWindowRead_s (p : Path) (off : Nat) (code : Option (List Byte)) (s : State) (t_ : State) (h : execTableWindowRead p off code s = .next t_) : Within 0x80B8011FC02140010000000000000000000000000000000000000000000000000000000000000000000000000000 0xFE s.dev t_.dev := by
  unfold execTableWindowRead at h
  try dsimp only at h
  repeat' split at h
  all_goals (first | cases h | (injection h with h; subst h) | skip)
  all_goals try dsimp only
  all_goals (
    repeat' first
      | (with_reducible exact Within.refl _)
      | (with_reducible assumption)
      | (with_reducible simp only [State.onDev_dev])
      | (with_reducible refine windowRead_s _ _ _ _ _ ?_ (by decide +kernel) (by decide +kernel))
      | (with_reducible refine Within.ite ?_ ?_)
      | (with_reducible refine Within.iteS ?_ ?_)
      | (intro _ _ _)
      | (refine Within.ite ?_ ?_)
      | split
      | dsimp only)

theorem execTableWindowWrite_s (p : Path) (off : Nat) (v : Word) (s : State) (t_ : State) (h : execTableWindowWrite p off v s = .next t_) : Within 0 0x48 s.dev t_.dev := by
  unfold execTableWindowWrite at h
  try dsimp only at h
  repeat' split at h
  all_goals (first | cases h | (injection h with h; subst h) | skip)
  all_goals try dsimp only
  all_goals (
    repeat' first
      | (with_reducible exact Within.refl _)
      | (with_reducible assumption)
      | (with_reducible simp only [State.onDev_dev])
      | (with_reducible refine windowWrite_s _ _ _ _ ?_ (by decide +kernel) (by decide +kernel))
      | (with_reducible refine Within.ite ?_ ?_)
      | (with_reducible refine Within.iteS ?_ ?_)
      | (intro _ _ _)
      | (refine Within.ite ?_ ?_)
      | split
      | dsimp only)

theorem execStoreCntClr_s (s : State) (t_ : State) (h : execStoreCntClr s = .next t_) : Within 0xE40000000000000000000000000000000000000000000000000000000000000000000000000000000000000 0 s.dev t_.dev := by
  unfold execStoreCntClr at h
  injection h with h
  subst h
  exact Within.clearAllB (Within.refl _) _ (by decide +kernel)

theorem execHealthCntClr_s (s : State) (t_ : State) (h : execHealthCntClr s = .next t_) : Within 0x18000F8200000000000000000000000000000000000000000000000000000000000000000000000000000000000000000 0 s.dev t_.dev := by
  unfold execHealthCntClr at h
  injection h with h
  subst h
  exact Within.clearAllB (Within.refl _) _ (by decide +kernel)

theorem execMpRun_s (s : State) (t_ : State) (h : execMpRun s = .next t_) : Within 0x8000000000000000000000000000000000000000000000000000000000000000000000000000000000000000000000 0x80 s.dev t_.dev := by
  unfold execMpRun at h
  injection h with h
  subst h
  all_goals try dsimp only
  all_goals (
    repeat' first
      | (with_reducible exact Within.refl _)
      | (with_reducible assumption)
      | (with_reducible simp only [State.onDev_dev])
      | (with_reducible refine Dev.planDueNow_w _ ?_ (by decide +kernel) (by decide +kernel))
      | (with_reducible refine Within.ite ?_ ?_)
      | (with_reducible refine Within.iteS ?_ ?_)
      | (intro _ _ _)
      | (refine Within.ite ?_ ?_)
      | split
      | dsimp only)

theorem execSysRstHost_s (s : State) (t_ : State) (h : execSysRstHost s = .next t_) : Within 0x80B8010000014001B840132000000000000000000000010000000000000000000000000003000000000000000008 0x8F2 s.dev t_.dev := by
  unfold execSysRstHost at h
  injection h with h
  subst h
  try unfold Dev.hostReset
  all_goals try dsimp only
  all_goals (
    repeat' first
      | (with_reducible exact Within.refl _)
      | (with_reducible assumption)
      | (with_reducible simp only [State.onDev_dev])
      | (with_reducible refine linkDown_w _ _ ?_ (by decide +kernel) (by decide +kernel))
      | (with_reducible refine Dev.hostReset_w _ _ ?_ (by decide +kernel) (by decide +kernel))
      | (with_reducible refine Within.putBitAt ?_ _ _ _ (by decide +kernel))
      | (with_reducible refine Within.putBit ?_ _ _ (by decide +kernel))
      | (with_reducible refine Within.ite ?_ ?_)
      | (with_reducible refine Within.iteS ?_ ?_)
      | (intro _ _ _)
      | (refine Within.ite ?_ ?_)
      | split
      | dsimp only)

theorem execSave_s (s : State) (t_ : State) (h : execSave s = .next t_) : Within 0x20000000000000000000000000000000000000000000000000000000000000000000000000000000000840 0x1040 s.dev t_.dev := by
  unfold execSave at h
  injection h with h
  subst h
  all_goals try dsimp only
  all_goals (
    repeat' first
      | (with_reducible exact Within.refl _)
      | (with_reducible assumption)
      | (with_reducible simp only [State.onDev_dev])
      | (with_reducible refine Dev.flashPush_w _ _ ?_ (by decide +kernel) (by decide +kernel))
      | (with_reducible refine Within.putBitAt ?_ _ _ _ (by decide +kernel))
      | (with_reducible refine Within.putBit ?_ _ _ (by decide +kernel))
      | (with_reducible refine Within.ite ?_ ?_)
      | (with_reducible refine Within.iteS ?_ ?_)
      | (intro _ _ _)
      | (refine Within.ite ?_ ?_)
      | split
      | dsimp only)

theorem execBootClear_s (s : State) (t_ : State) (h : execBootClear s = .next t_) : Within 0x20000000000000000000000000000000000000000000000000000000000000000000000000000000000840 0x1040 s.dev t_.dev := by
  unfold execBootClear at h
  injection h with h
  subst h
  all_goals try dsimp only
  all_goals (
    repeat' first
      | (with_reducible exact Within.refl _)
      | (with_reducible assumption)
      | (with_reducible simp only [State.onDev_dev])
      | (with_reducible refine Dev.flashPush_w _ _ ?_ (by decide +kernel) (by decide +kernel))
      | (with_reducible refine Within.putBitAt ?_ _ _ _ (by decide +kernel))
      | (with_reducible refine Within.putBit ?_ _ _ (by decide +kernel))
      | (with_reducible refine Within.ite ?_ ?_)
      | (with_reducible refine Within.iteS ?_ ?_)
      | (intro _ _ _)
      | (refine Within.ite ?_ ?_)
      | split
      | dsimp only)

theorem execClkCntClr_s (s : State) (t_ : State) (h : execClkCntClr s = .next t_) : Within 0x300 0 s.dev t_.dev := by
  unfold execClkCntClr at h
  injection h with h
  subst h
  exact Within.clearAllB (Within.refl _) _ (by decide +kernel)

theorem execPwrCntClr_s (s : State) (t_ : State) (h : execPwrCntClr s = .next t_) : Within 0x18000 0 s.dev t_.dev := by
  unfold execPwrCntClr at h
  injection h with h
  subst h
  exact Within.clearAllB (Within.refl _) _ (by decide +kernel)

theorem execBalSetpointWrite_s (v : Word) (s : State) (t_ : State) (h : execBalSetpointWrite v s = .next t_) : Within 0x60000 0x1000 s.dev t_.dev := by
  unfold execBalSetpointWrite at h
  injection h with h
  subst h
  all_goals try dsimp only
  all_goals (
    repeat' first
      | (with_reducible exact Within.refl _)
      | (with_reducible assumption)
      | (with_reducible simp only [State.onDev_dev])
      | (with_reducible refine balWrite_w _ _ ?_ (by decide +kernel) (by decide +kernel))
      | (with_reducible refine Within.ite ?_ ?_)
      | (with_reducible refine Within.iteS ?_ ?_)
      | (intro _ _ _)
      | (refine Within.ite ?_ ?_)
      | split
      | dsimp only)

theorem execAuxSeqCommit_s (s : State) (t_ : State) (h : execAuxSeqCommit s = .next t_) : Within 0x40000000000000000000000000000000000000000000000000000000000000000000000000000000000000000000000000 0x400 s.dev t_.dev := by
  unfold execAuxSeqCommit at h
  injection h with h
  subst h
  all_goals try dsimp only
  all_goals (
    repeat' first
      | (with_reducible exact Within.refl _)
      | (with_reducible assumption)
      | (with_reducible simp only [State.onDev_dev])
      | (with_reducible refine commitSeq_w1 _ _ _ ?_ (by decide +kernel) (by decide +kernel))
      | (with_reducible refine commitSeq_w _ _ _ _ _ (by assumption) ?_ (by decide +kernel) (by decide +kernel))
      | (with_reducible refine Within.ite ?_ ?_)
      | (with_reducible refine Within.iteS ?_ ?_)
      | (intro _ _ _)
      | (refine Within.ite ?_ ?_)
      | split
      | dsimp only)

theorem execAuxRefWrite_s (sel : Fin 4) (s : State) (t_ : State) (h : execAuxRefWrite sel s = .next t_) : Within 0x1018000000000000000000000000000000000000000000000000000000000000000000000000000000000000000000000000 0x400 s.dev t_.dev := by
  unfold execAuxRefWrite at h
  injection h with h
  subst h
  all_goals try dsimp only
  all_goals (
    repeat' first
      | (with_reducible exact Within.refl _)
      | (with_reducible assumption)
      | (with_reducible simp only [State.onDev_dev])
      | (with_reducible refine refWrite_w _ _ ?_ (by decide +kernel) (by decide +kernel))
      | (with_reducible refine Within.ite ?_ ?_)
      | (with_reducible refine Within.iteS ?_ ?_)
      | (intro _ _ _)
      | (refine Within.ite ?_ ?_)
      | split
      | dsimp only)

theorem execAuxCntClr_s (s : State) (t_ : State) (h : execAuxCntClr s = .next t_) : Within 0x600000000000000000000000000000000000000000000000000000000000000000000000000000000000000000000000000 0 s.dev t_.dev := by
  unfold execAuxCntClr at h
  injection h with h
  subst h
  exact Within.clearAllB (Within.refl _) _ (by decide +kernel)

theorem execGladeInPolWrite_s (pol : Bool) (s : State) (t_ : State) (h : execGladeInPolWrite pol s = .next t_) : Within 0xC00000000080B8010000000000000000000000000000000000000000000000000020C0008C0000000000001000004000040000 0x65BD0 s.dev t_.dev := by
  unfold execGladeInPolWrite at h
  injection h with h
  subst h
  all_goals try dsimp only
  all_goals (
    repeat' first
      | (with_reducible exact Within.refl _)
      | (with_reducible assumption)
      | (with_reducible simp only [State.onDev_dev])
      | (with_reducible refine gladePol_w _ _ ?_ (by decide +kernel) (by decide +kernel))
      | (with_reducible refine Within.ite ?_ ?_)
      | (with_reducible refine Within.iteS ?_ ?_)
      | (intro _ _ _)
      | (refine Within.ite ?_ ?_)
      | split
      | dsimp only)

theorem execGpCfgWrite_s (n : Fin 8) (v : Word) (s : State) (t_ : State) (h : execGpCfgWrite n v s = .next t_) : Within 0x1C000000000000000000000000000000000000000000000000000000000000000000000000000000000000000000000000000000 0 s.dev t_.dev := by
  unfold execGpCfgWrite at h
  injection h with h
  subst h
  exact gpCfgWrite_w0 _ n.isLt _ _

theorem execIoCntClr_s (s : State) (t_ : State) (h : execIoCntClr s = .next t_) : Within 0x610380000000000000000000000000000000000000000000000000000000000000000000000000000000000000000000000000000 0 s.dev t_.dev := by
  unfold execIoCntClr at h
  injection h with h
  subst h
  exact Within.clearAllB (Within.refl _) _ (by decide +kernel)

theorem execTmrCtlWrite_s (n : Fin 8) (v : Word) (s : State) (t_ : State) (h : execTmrCtlWrite n v s = .next t_) : Within 0x5018000000000000000000000000000000000000000000000000000000000000000000000000000000000000000000000000000000 0x800000 s.dev t_.dev := by
  unfold execTmrCtlWrite at h
  injection h with h
  subst h
  exact tmrCtlWrite_w0 _ n.isLt _ _

theorem execLowWordRead_s (p : Path) (off : Nat) (wide : Bool) (s : State) (t_ : State) (h : execLowWordRead p off wide s = .next t_) : Within 0x40000000080B8011FC02140010000000000000000000000000000000000000000000000000000000000000000000000000000 0xFE s.dev t_.dev := by
  unfold execLowWordRead at h
  try dsimp only at h
  repeat' split at h
  all_goals (first | cases h | (injection h with h; subst h) | skip)
  all_goals try dsimp only
  all_goals (
    repeat' first
      | (with_reducible exact Within.refl _)
      | (with_reducible assumption)
      | ((try lift_lets); intro x_; first
        | (refine (fun (hx_ : Within 0x40000000080B8011FC02140010000000000000000000000000000000000000000000000000000000000000000000000000000 0xFE s.dev x_) => ?rest) ?val; (case' rest => clear_value x_); (case' val => subst x_))
        | (refine (fun (hx_ : Within 0x40000000080B8011FC02140010000000000000000000000000000000000000000000000000000000000000000000000000000 0xFE s.dev x_.dev) => ?rest) ?val; (case' rest => clear_value x_); (case' val => subst x_))
        | (have _t := fun y_ => x_ y_; clear _t; subst x_)
        | (have _t : Dev := x_.1; clear _t; subst x_)
        | (have _t : Dev := x_.2; clear _t; subst x_)
        | (have _t := fun y_ => x_ y_; clear _t; subst x_)
        | (have _t : State := x_.1; clear _t; subst x_)
        | (have _t : State := x_.2; clear _t; subst x_)
        | clear_value x_)
      | (with_reducible simp only [State.onDev_dev])
      | (with_reducible refine bar0Read_s1 _ _ _ ?_ (by decide +kernel) (by decide +kernel))
      | (with_reducible refine mgmtRead_s1 _ _ _ ?_ (by decide +kernel) (by decide +kernel))
      | (with_reducible refine Within.flagAt ?_ _ _ (by decide +kernel))
      | (with_reducible refine Within.flag ?_ _ (by decide +kernel))
      | (with_reducible refine Within.emit ?_ _ (by decide +kernel))
      | (with_reducible refine Within.ite ?_ ?_)
      | (with_reducible refine Within.iteS ?_ ?_)
      | (intro _ _ _)
      | (refine Within.ite ?_ ?_)
      | split
      | dsimp only)

theorem execPartialWrite_s (off : Nat) (s : State) (t_ : State) (h : execPartialWrite off s = .next t_) : Within 0x80B80100000000000000000000000000000000000000000000000000000000000000000000000000000000000000 0xD0 s.dev t_.dev := by
  unfold execPartialWrite at h
  injection h with h
  subst h
  all_goals try dsimp only
  all_goals (
    repeat' first
      | (with_reducible exact Within.refl _)
      | (with_reducible assumption)
      | (with_reducible simp only [State.onDev_dev])
      | (with_reducible refine Dev.event_w _ _ _ ?_ (by decide +kernel) (by decide +kernel))
      | (with_reducible refine Within.ite ?_ ?_)
      | (with_reducible refine Within.iteS ?_ ?_)
      | (intro _ _ _)
      | (refine Within.ite ?_ ?_)
      | split
      | dsimp only)

theorem execBadAccess_s (write : Bool) (off : Nat) (s : State) (t_ : State) (h : execBadAccess write off s = .next t_) : Within 0x80B80100000000000000010000000000000000000000000000000000000000000000000000000000000000000000 0xD2 s.dev t_.dev := by
  unfold execBadAccess at h
  injection h with h
  subst h
  all_goals try dsimp only
  all_goals (
    repeat' first
      | (with_reducible exact Within.refl _)
      | (with_reducible assumption)
      | ((try lift_lets); intro x_; first
        | (refine (fun (hx_ : Within 0x80B80100000000000000010000000000000000000000000000000000000000000000000000000000000000000000 0xD2 s.dev x_) => ?rest) ?val; (case' rest => clear_value x_); (case' val => subst x_))
        | (refine (fun (hx_ : Within 0x80B80100000000000000010000000000000000000000000000000000000000000000000000000000000000000000 0xD2 s.dev x_.dev) => ?rest) ?val; (case' rest => clear_value x_); (case' val => subst x_))
        | (have _t := fun y_ => x_ y_; clear _t; subst x_)
        | (have _t : Dev := x_.1; clear _t; subst x_)
        | (have _t : Dev := x_.2; clear _t; subst x_)
        | (have _t := fun y_ => x_ y_; clear _t; subst x_)
        | (have _t : State := x_.1; clear _t; subst x_)
        | (have _t : State := x_.2; clear _t; subst x_)
        | clear_value x_)
      | (with_reducible simp only [State.onDev_dev])
      | (with_reducible refine Dev.event_w _ _ _ ?_ (by decide +kernel) (by decide +kernel))
      | (with_reducible refine Within.emit ?_ _ (by decide +kernel))
      | (with_reducible refine Within.hostErr ?_ _ (by decide +kernel) (by decide +kernel))
      | (with_reducible refine Within.ite ?_ ?_)
      | (with_reducible refine Within.iteS ?_ ?_)
      | (intro _ _ _)
      | (refine Within.ite ?_ ?_)
      | split
      | dsimp only)

theorem execSpiHeader_s (hdr : Word) (mode3 : Bool) (s : State) (t_ : State) (h : execSpiHeader hdr mode3 s = .next t_) : Within 0x240000000000000000000000000000000000000000000000000000000000000000000000000000000000000000000000000000 0x800000 s.dev t_.dev := by
  unfold execSpiHeader at h
  try dsimp only at h
  repeat' split at h
  all_goals (first | cases h | (injection h with h; subst h) | skip)
  all_goals try dsimp only
  all_goals (
    repeat' first
      | (with_reducible exact Within.refl _)
      | (with_reducible assumption)
      | (with_reducible simp only [State.onDev_dev])
      | (with_reducible refine spiHeader_w _ _ _ ?_ (by decide +kernel) (by decide +kernel))
      | (with_reducible refine Within.ite ?_ ?_)
      | (with_reducible refine Within.iteS ?_ ?_)
      | (intro _ _ _)
      | (refine Within.ite ?_ ?_)
      | split
      | dsimp only)

theorem execSpiReadFetch_s (late : Bool) (s : State) (t_ : State) (h : execSpiReadFetch late s = .next t_) : Within 0x40000000080B8011FC02140010000000000000000000000000000000000000000000000000000000000000000000000000000 0x8000FE s.dev t_.dev := by
  unfold execSpiReadFetch at h
  try dsimp only at h
  repeat' split at h
  all_goals (first | cases h | (injection h with h; subst h) | skip)
  all_goals try dsimp only
  all_goals (
    repeat' first
      | (with_reducible exact Within.refl _)
      | (with_reducible assumption)
      | ((try lift_lets); intro x_; first
        | (refine (fun (hx_ : Within 0x40000000080B8011FC02140010000000000000000000000000000000000000000000000000000000000000000000000000000 0x8000FE s.dev x_) => ?rest) ?val; (case' rest => clear_value x_); (case' val => subst x_))
        | (refine (fun (hx_ : Within 0x40000000080B8011FC02140010000000000000000000000000000000000000000000000000000000000000000000000000000 0x8000FE s.dev x_.dev) => ?rest) ?val; (case' rest => clear_value x_); (case' val => subst x_))
        | (have _t := fun y_ => x_ y_; clear _t; subst x_)
        | (have _t : Dev := x_.1; clear _t; subst x_)
        | (have _t : Dev := x_.2; clear _t; subst x_)
        | (have _t := fun y_ => x_ y_; clear _t; subst x_)
        | (have _t : State := x_.1; clear _t; subst x_)
        | (have _t : State := x_.2; clear _t; subst x_)
        | clear_value x_)
      | (with_reducible simp only [State.onDev_dev])
      | (with_reducible refine mgmtRead_s1 _ _ _ ?_ (by decide +kernel) (by decide +kernel))
      | (with_reducible refine spiNext_s _ _ _ (by assumption) ?_ (by decide +kernel) (by decide +kernel))
      | (with_reducible refine Within.flagAt ?_ _ _ (by decide +kernel))
      | (with_reducible refine Within.flag ?_ _ (by decide +kernel))
      | (with_reducible refine Within.onIo ?_ _ (by decide +kernel))
      | (with_reducible refine Within.emit ?_ _ (by decide +kernel))
      | (with_reducible refine Within.ite ?_ ?_)
      | (with_reducible refine Within.iteS ?_ ?_)
      | (intro _ _ _)
      | (refine Within.ite ?_ ?_)
      | split
      | dsimp only)

theorem execSpiTransactionEnd_s (e : SpiEnd) (lowUnsent : Bool) (s : State) (t_ : State) (h : execSpiTransactionEnd e lowUnsent s = .next t_) : Within 0x1C0000000000000000000000000000000000000000000000000000000000000000000000000000000000000000000000000000 0x800008 s.dev t_.dev := by
  unfold execSpiTransactionEnd at h
  try dsimp only at h
  repeat' split at h
  all_goals (first | cases h | (injection h with h; subst h) | skip)
  all_goals try dsimp only
  all_goals (
    repeat' first
      | (with_reducible exact Within.refl _)
      | (with_reducible assumption)
      | (with_reducible simp only [State.onDev_dev])
      | (with_reducible refine spiEnd_w _ _ _ ?_ (by decide +kernel) (by decide +kernel))
      | (with_reducible refine Within.ite ?_ ?_)
      | (with_reducible refine Within.iteS ?_ ?_)
      | (intro _ _ _)
      | (refine Within.ite ?_ ?_)
      | split
      | dsimp only)

theorem execJtagInstruction_s (code : JtagCode) (s : State) (t_ : State) (h : execJtagInstruction code s = .next t_) : Within 0 2 s.dev t_.dev := by
  unfold execJtagInstruction at h
  try dsimp only at h
  repeat' split at h
  all_goals (first | cases h | (injection h with h; subst h) | skip)
  all_goals try dsimp only
  all_goals (
    repeat' first
      | (with_reducible exact Within.refl _)
      | (with_reducible assumption)
      | (with_reducible simp only [State.onDev_dev])
      | (with_reducible refine Within.emit ?_ _ (by decide +kernel))
      | (with_reducible refine Within.ite ?_ ?_)
      | (with_reducible refine Within.iteS ?_ ?_)
      | (intro _ _ _)
      | (refine Within.ite ?_ ?_)
      | split
      | dsimp only)

theorem execFrameBoundary_s (s : State) (t_ : State) (h : execFrameBoundary s = .next t_) : Within 0x18000200108080B8212000015279000000000070800000000000000000001C0000003000408D8EF01F8F05F9F16000070E000800 0xB2FDF0 s.dev t_.dev := by
  unfold execFrameBoundary at h
  injection h with h
  subst h
  all_goals try dsimp only
  all_goals (
    repeat' first
      | (with_reducible exact Within.refl _)
      | (with_reducible assumption)
      | (with_reducible simp only [State.onDev_dev])
      | (with_reducible refine frameBoundary_s _ ?_ (by decide +kernel) (by decide +kernel))
      | (with_reducible refine Within.ite ?_ ?_)
      | (with_reducible refine Within.iteS ?_ ?_)
      | (intro _ _ _)
      | (refine Within.ite ?_ ?_)
      | split
      | dsimp only)

theorem execTrigInEdge_s (encZ : Bool) (s : State) (t_ : State) (h : execTrigInEdge encZ s = .next t_) : Within 0x800000000000000000000000000000000000000000000000000000000000000000000000000000000000000000000800000000 0x100 s.dev t_.dev := by
  unfold execTrigInEdge at h
  injection h with h
  subst h
  all_goals try dsimp only
  all_goals (
    repeat' first
      | (with_reducible exact Within.refl _)
      | (with_reducible assumption)
      | (with_reducible simp only [State.onDev_dev])
      | (with_reducible refine trigEdge_w _ _ ?_ (by decide +kernel) (by decide +kernel))
      | (with_reducible refine Within.ite ?_ ?_)
      | (with_reducible refine Within.iteS ?_ ?_)
      | (intro _ _ _)
      | (refine Within.ite ?_ ?_)
      | split
      | dsimp only)

theorem execVerticalBlanking_s (s : State) (t_ : State) (h : execVerticalBlanking s = .next t_) : Within 0x600000000000000000000000000000000000000000000000000000000000000000000000000000000000000000000000000 0x80400 s.dev t_.dev := by
  unfold execVerticalBlanking at h
  injection h with h
  subst h
  all_goals try dsimp only
  all_goals (
    repeat' first
      | (with_reducible exact Within.refl _)
      | (with_reducible assumption)
      | (with_reducible simp only [State.onDev_dev])
      | (with_reducible refine verticalBlanking_w _ ?_ (by decide +kernel) (by decide +kernel))
      | (with_reducible refine Within.ite ?_ ?_)
      | (with_reducible refine Within.iteS ?_ ?_)
      | (intro _ _ _)
      | (refine Within.ite ?_ ?_)
      | split
      | dsimp only)

theorem execSlotPacketArrival_s (f : Nat) (slot : Nat) (ok : Bool) (rows : List (List Nat)) (reads : List BurstIn) (s : State) (t_ : State) (h : execSlotPacketArrival f slot ok rows reads s = .next t_) : Within 0x80B8011FC02140010000000000000000000000000000000000000000000000000000000000000700001000000000 0x1F0 s.dev t_.dev := by
  unfold execSlotPacketArrival at h
  try dsimp only at h
  repeat' split at h
  all_goals (first | cases h | (injection h with h; subst h) | skip)
  all_goals try dsimp only
  all_goals (
    repeat' first
      | (with_reducible exact Within.refl _)
      | (with_reducible assumption)
      | ((try lift_lets); intro x_; first
        | (refine (fun (hx_ : Within 0x80B8011FC02140010000000000000000000000000000000000000000000000000000000000000700001000000000 0x1F0 s.dev x_) => ?rest) ?val; (case' rest => clear_value x_); (case' val => subst x_))
        | (refine (fun (hx_ : Within 0x80B8011FC02140010000000000000000000000000000000000000000000000000000000000000700001000000000 0x1F0 s.dev x_.dev) => ?rest) ?val; (case' rest => clear_value x_); (case' val => subst x_))
        | (have _t := fun y_ => x_ y_; clear _t; subst x_)
        | (have _t : Dev := x_.1; clear _t; subst x_)
        | (have _t : Dev := x_.2; clear _t; subst x_)
        | (have _t := fun y_ => x_ y_; clear _t; subst x_)
        | (have _t : State := x_.1; clear _t; subst x_)
        | (have _t : State := x_.2; clear _t; subst x_)
        | clear_value x_)
      | (with_reducible simp only [State.onDev_dev])
      | (with_reducible refine funcReads_s _ _ ?_ (by decide +kernel) (by decide +kernel))
      | (with_reducible refine Dev.badSeen_w _ _ ?_ (by decide +kernel) (by decide +kernel))
      | (with_reducible refine slotArrival_w _ _ _ _ _ _ ?_ (by decide +kernel) (by decide +kernel))
      | (with_reducible refine Within.ite ?_ ?_)
      | (with_reducible refine Within.iteS ?_ ?_)
      | (intro _ _ _)
      | (refine Within.ite ?_ ?_)
      | split
      | dsimp only)

theorem execSlotAtTap4_s (f : Nat) (slot : Nat) (reads : List BurstIn) (path : List PathIn) (s : State) (t_ : State) (h : execSlotAtTap4 f slot reads path s = .next t_) : Within 0x80B8011FD82140010000000000000000000000000000000000000000000000000000000000000000000000000000 0x2A1F0 s.dev t_.dev := by
  unfold execSlotAtTap4 at h
  try dsimp only at h
  repeat' split at h
  all_goals (first | cases h | (injection h with h; subst h) | skip)
  all_goals try dsimp only
  all_goals (
    repeat' first
      | (with_reducible exact Within.refl _)
      | (with_reducible assumption)
      | ((try lift_lets); intro x_; first
        | (refine (fun (hx_ : Within 0x80B8011FD82140010000000000000000000000000000000000000000000000000000000000000000000000000000 0x2A1F0 s.dev x_) => ?rest) ?val; (case' rest => clear_value x_); (case' val => subst x_))
        | (refine (fun (hx_ : Within 0x80B8011FD82140010000000000000000000000000000000000000000000000000000000000000000000000000000 0x2A1F0 s.dev x_.dev) => ?rest) ?val; (case' rest => clear_value x_); (case' val => subst x_))
        | (have _t := fun y_ => x_ y_; clear _t; subst x_)
        | (have _t : Dev := x_.1; clear _t; subst x_)
        | (have _t : Dev := x_.2; clear _t; subst x_)
        | (have _t := fun y_ => x_ y_; clear _t; subst x_)
        | (have _t : State := x_.1; clear _t; subst x_)
        | (have _t : State := x_.2; clear _t; subst x_)
        | clear_value x_)
      | (with_reducible simp only [State.onDev_dev])
      | (with_reducible refine slotReads_s _ _ _ _ ?_ (by decide +kernel) (by decide +kernel))
      | (with_reducible refine slotAtTap4_w _ _ _ _ _ ?_ (by decide +kernel) (by decide +kernel))
      | (with_reducible refine Dev.frameStatsIfWhole_w _ _ ?_ (by decide +kernel) (by decide +kernel))
      | (with_reducible refine Within.ite ?_ ?_)
      | (with_reducible refine Within.iteS ?_ ?_)
      | (intro _ _ _)
      | (refine Within.ite ?_ ?_)
      | split
      | dsimp only)

theorem execSamplesAccumulated_s (f : Nat) (slot : Nat) (reads : List BurstIn) (s : State) (t_ : State) (h : execSamplesAccumulated f slot reads s = .next t_) : Within 0x1800080B8011FC02140010000000D1F00000000000000F00000FCE0000800000000000000000000000000000000000000 0x31C1F4 s.dev t_.dev := by
  unfold execSamplesAccumulated at h
  injection h with h
  subst h
  all_goals try dsimp only
  all_goals (
    repeat' first
      | (with_reducible exact Within.refl _)
      | (with_reducible assumption)
      | (with_reducible simp only [State.onDev_dev])
      | (with_reducible refine funcReads_s _ _ ?_ (by decide +kernel) (by decide +kernel))
      | (with_reducible refine samplesAccumulated_w _ _ _ ?_ (by decide +kernel) (by decide +kernel))
      | (with_reducible refine Within.ite ?_ ?_)
      | (with_reducible refine Within.iteS ?_ ?_)
      | (intro _ _ _)
      | (refine Within.ite ?_ ?_)
      | split
      | dsimp only)

theorem execIdleExitEvaluation_s (s : State) (t_ : State) (h : execIdleExitEvaluation s = .next t_) : Within 0x1800080B80100802000000000000D1F00000000000000F000008CE0000800000000000000000000000000000000000000 0x31C0D4 s.dev t_.dev := by
  unfold execIdleExitEvaluation at h
  injection h with h
  subst h
  all_goals try dsimp only
  all_goals (
    repeat' first
      | (with_reducible exact Within.refl _)
      | (with_reducible assumption)
      | (with_reducible simp only [State.onDev_dev])
      | (with_reducible refine Dev.exitEval_w _ _ ?_ (by decide +kernel) (by decide +kernel))
      | (with_reducible refine Within.ite ?_ ?_)
      | (with_reducible refine Within.iteS ?_ ?_)
      | (intro _ _ _)
      | (refine Within.ite ?_ ?_)
      | split
      | dsimp only)

theorem execRecordTimeout_s (s : State) (t_ : State) (h : execRecordTimeout s = .next t_) : Within 0 0x200014 s.dev t_.dev := by
  unfold execRecordTimeout at h
  injection h with h
  subst h
  all_goals try dsimp only
  all_goals (
    repeat' first
      | (with_reducible exact Within.refl _)
      | (with_reducible assumption)
      | (with_reducible simp only [State.onDev_dev])
      | (with_reducible refine recordTimeout_w _ ?_ (by decide +kernel) (by decide +kernel))
      | (with_reducible refine Within.ite ?_ ?_)
      | (with_reducible refine Within.iteS ?_ ?_)
      | (intro _ _ _)
      | (refine Within.ite ?_ ?_)
      | split
      | dsimp only)

theorem execCaptureFrameDone_s (b : Fin 2) (reads : List BurstIn) (s : State) (t_ : State) (h : execCaptureFrameDone b reads s = .next t_) : Within 0x80B8011FC02140010000000000000000000000000000000000000000000000000000000001000000000000000000 0x8F0 s.dev t_.dev := by
  unfold execCaptureFrameDone at h
  injection h with h
  subst h
  all_goals try dsimp only
  all_goals (
    repeat' first
      | (with_reducible exact Within.refl _)
      | (with_reducible assumption)
      | (with_reducible simp only [State.onDev_dev])
      | (with_reducible refine funcReads_s _ _ ?_ (by decide +kernel) (by decide +kernel))
      | (with_reducible refine captureDone_w _ _ ?_ (by decide +kernel) (by decide +kernel))
      | (with_reducible refine Within.ite ?_ ?_)
      | (with_reducible refine Within.iteS ?_ ?_)
      | (intro _ _ _)
      | (refine Within.ite ?_ ?_)
      | split
      | dsimp only)

theorem execCaptureAbandoned_s (b : Fin 2) (s : State) (t_ : State) (h : execCaptureAbandoned b s = .next t_) : Within 0x140010000000000000000000000000000000000000000000000000000000009000000000000000000 0x830 s.dev t_.dev := by
  unfold execCaptureAbandoned at h
  injection h with h
  subst h
  all_goals try dsimp only
  all_goals (
    repeat' first
      | (with_reducible exact Within.refl _)
      | (with_reducible assumption)
      | (with_reducible simp only [State.onDev_dev])
      | (with_reducible refine captureAbandoned_w _ _ ?_ (by decide +kernel) (by decide +kernel))
      | (with_reducible refine Within.ite ?_ ?_)
      | (with_reducible refine Within.iteS ?_ ?_)
      | (intro _ _ _)
      | (refine Within.ite ?_ ?_)
      | split
      | dsimp only)

theorem execStageSample_s (s : State) (t_ : State) (h : execStageSample s = .next t_) : Within 0x80B801000001400100000000000000000000000000000000000000002000008C000000000100100007C000000000 0x24BF4 s.dev t_.dev := by
  unfold execStageSample at h
  injection h with h
  subst h
  all_goals try dsimp only
  all_goals (
    repeat' first
      | (with_reducible exact Within.refl _)
      | (with_reducible assumption)
      | (with_reducible simp only [State.onDev_dev])
      | (with_reducible refine stageSample_w _ ?_ (by decide +kernel) (by decide +kernel))
      | (with_reducible refine Within.ite ?_ ?_)
      | (with_reducible refine Within.iteS ?_ ?_)
      | (intro _ _ _)
      | (refine Within.ite ?_ ?_)
      | split
      | dsimp only)

theorem execStageSettled_s (s : State) (t_ : State) (h : execStageSettled s = .next t_) : Within 0x80B801000000000000000000000000000000000000000000000000002000008C0000000000001000004000000000 0x24BD0 s.dev t_.dev := by
  unfold execStageSettled at h
  injection h with h
  subst h
  all_goals try dsimp only
  all_goals (
    repeat' first
      | (with_reducible exact Within.refl _)
      | (with_reducible assumption)
      | (with_reducible simp only [State.onDev_dev])
      | (with_reducible refine stageSettledRow_w _ ?_ (by decide +kernel) (by decide +kernel))
      | (with_reducible refine Within.ite ?_ ?_)
      | (with_reducible refine Within.iteS ?_ ?_)
      | (intro _ _ _)
      | (refine Within.ite ?_ ?_)
      | split
      | dsimp only)

theorem execMarginLow_s (s : State) (t_ : State) (h : execMarginLow s = .next t_) : Within 0x80B801000000000000000000000000000000000000000000000000002000008C0000000000001000006000000000 0x24BD0 s.dev t_.dev := by
  unfold execMarginLow at h
  injection h with h
  subst h
  all_goals try dsimp only
  all_goals (
    repeat' first
      | (with_reducible exact Within.refl _)
      | (with_reducible assumption)
      | (with_reducible simp only [State.onDev_dev])
      | (with_reducible refine marginLow_w _ ?_ (by decide +kernel) (by decide +kernel))
      | (with_reducible refine Within.ite ?_ ?_)
      | (with_reducible refine Within.iteS ?_ ?_)
      | (intro _ _ _)
      | (refine Within.ite ?_ ?_)
      | split
      | dsimp only)

theorem execStageUnreg_s (s : State) (t_ : State) (h : execStageUnreg s = .next t_) : Within 0x80B801000000000000000000000000000000000000000000000000002000008C0000000000001000004000000000 0x24BD0 s.dev t_.dev := by
  unfold execStageUnreg at h
  injection h with h
  subst h
  all_goals try dsimp only
  all_goals (
    repeat' first
      | (with_reducible exact Within.refl _)
      | (with_reducible assumption)
      | (with_reducible simp only [State.onDev_dev])
      | (with_reducible refine stageUnreg_w _ ?_ (by decide +kernel) (by decide +kernel))
      | (with_reducible refine Within.ite ?_ ?_)
      | (with_reducible refine Within.iteS ?_ ?_)
      | (intro _ _ _)
      | (refine Within.ite ?_ ?_)
      | split
      | dsimp only)

theorem execDiodeExcl_s (i : Fin 4) (s : State) (t_ : State) (h : execDiodeExcl i s = .next t_) : Within 0x80B80100000000000000000000000000000000000000000000000000000000000000000000000000004000000000 0x2D0 s.dev t_.dev := by
  unfold execDiodeExcl at h
  injection h with h
  subst h
  all_goals try dsimp only
  all_goals (
    repeat' first
      | (with_reducible exact Within.refl _)
      | (with_reducible assumption)
      | (with_reducible simp only [State.onDev_dev])
      | (with_reducible refine diodeExcl_w _ _ ?_ (by decide +kernel) (by decide +kernel))
      | (with_reducible refine Within.ite ?_ ?_)
      | (with_reducible refine Within.iteS ?_ ?_)
      | (intro _ _ _)
      | (refine Within.ite ?_ ?_)
      | split
      | dsimp only)

theorem execPlateSwapFallback_s (s : State) (t_ : State) (h : execPlateSwapFallback s = .next t_) : Within 0x80B821200000000000000000000000000000000000000000000000001000000D80001F090059F000000002000800 0x239D0 s.dev t_.dev := by
  unfold execPlateSwapFallback at h
  injection h with h
  subst h
  all_goals try dsimp only
  all_goals (
    repeat' first
      | (with_reducible exact Within.refl _)
      | (with_reducible assumption)
      | (with_reducible simp only [State.onDev_dev])
      | (with_reducible refine swapFallback_w _ _ ?_ (by decide +kernel) (by decide +kernel))
      | (with_reducible refine Within.ite ?_ ?_)
      | (with_reducible refine Within.iteS ?_ ?_)
      | (intro _ _ _)
      | (refine Within.ite ?_ ?_)
      | split
      | dsimp only)

theorem execShadowHoldExpiry_s (s : State) (t_ : State) (h : execShadowHoldExpiry s = .next t_) : Within 0x1000000000000000 0x800 s.dev t_.dev := by
  unfold execShadowHoldExpiry at h
  injection h with h
  subst h
  all_goals try dsimp only
  all_goals (
    repeat' first
      | (with_reducible exact Within.refl _)
      | (with_reducible assumption)
      | (with_reducible simp only [State.onDev_dev])
      | (with_reducible refine Dev.releaseShadow_w _ ?_ (by decide +kernel) (by decide +kernel))
      | (with_reducible refine Within.flagAt ?_ _ _ (by decide +kernel))
      | (with_reducible refine Within.flag ?_ _ (by decide +kernel))
      | (with_reducible refine Within.ite ?_ ?_)
      | (with_reducible refine Within.iteS ?_ ?_)
      | (intro _ _ _)
      | (refine Within.ite ?_ ?_)
      | split
      | dsimp only)

theorem execPlatePersistDone_s (ok : Bool) (s : State) (t_ : State) (h : execPlatePersistDone ok s = .next t_) : Within 0x200000000000000000000000000000000000000000000000000000000100001E000000F000000000000800 0x1840 s.dev t_.dev := by
  unfold execPlatePersistDone at h
  injection h with h
  subst h
  all_goals try dsimp only
  all_goals (
    repeat' first
      | (with_reducible exact Within.refl _)
      | (with_reducible assumption)
      | (with_reducible simp only [State.onDev_dev])
      | (with_reducible refine persistDone_s _ _ ?_ (by decide +kernel) (by decide +kernel))
      | (with_reducible refine Within.ite ?_ ?_)
      | (with_reducible refine Within.iteS ?_ ?_)
      | (intro _ _ _)
      | (refine Within.ite ?_ ?_)
      | split
      | dsimp only)

theorem execClusterEvaluation_s (s : State) (t_ : State) (h : execClusterEvaluation s = .next t_) : Within 0x80B80100000000000000000000000000000000000000000000000000000000000000000000080000000000000000 0x8D0 s.dev t_.dev := by
  unfold execClusterEvaluation at h
  injection h with h
  subst h
  all_goals try dsimp only
  all_goals (
    repeat' first
      | (with_reducible exact Within.refl _)
      | (with_reducible assumption)
      | (with_reducible simp only [State.onDev_dev])
      | (with_reducible refine clusterEval_w _ _ ?_ (by decide +kernel) (by decide +kernel))
      | (with_reducible refine Within.ite ?_ ?_)
      | (with_reducible refine Within.iteS ?_ ?_)
      | (intro _ _ _)
      | (refine Within.ite ?_ ?_)
      | split
      | dsimp only)

theorem execProofBegin_s (s : State) (t_ : State) (h : execProofBegin s = .next t_) : Within 0x1400000840000000000001000000000000000 0x24100 s.dev t_.dev := by
  unfold execProofBegin at h
  injection h with h
  subst h
  all_goals try dsimp only
  all_goals (
    repeat' first
      | (with_reducible exact Within.refl _)
      | (with_reducible assumption)
      | (with_reducible simp only [State.onDev_dev])
      | (with_reducible refine proofBegin_w _ ?_ (by decide +kernel) (by decide +kernel))
      | (with_reducible refine Within.ite ?_ ?_)
      | (with_reducible refine Within.iteS ?_ ?_)
      | (intro _ _ _)
      | (refine Within.ite ?_ ?_)
      | split
      | dsimp only)

theorem execDrivePulseEnd_s (s : State) (t_ : State) (h : execDrivePulseEnd s = .next t_) : Within 0 0x320000 s.dev t_.dev := by
  unfold execDrivePulseEnd at h
  injection h with h
  subst h
  all_goals try dsimp only
  all_goals (
    repeat' first
      | (with_reducible exact Within.refl _)
      | (with_reducible assumption)
      | (with_reducible simp only [State.onDev_dev])
      | (with_reducible refine pulseEnd_w _ ?_ (by decide +kernel) (by decide +kernel))
      | (with_reducible refine Within.ite ?_ ?_)
      | (with_reducible refine Within.iteS ?_ ?_)
      | (intro _ _ _)
      | (refine Within.ite ?_ ?_)
      | split
      | dsimp only)

theorem execClosedSensed_s (s : State) (t_ : State) (h : execClosedSensed s = .next t_) : Within 0x1840000000000000000000000000000 0x20000 s.dev t_.dev := by
  unfold execClosedSensed at h
  injection h with h
  subst h
  all_goals try dsimp only
  all_goals (
    repeat' first
      | (with_reducible exact Within.refl _)
      | (with_reducible assumption)
      | (with_reducible simp only [State.onDev_dev])
      | (with_reducible refine closedSensed_w _ ?_ (by decide +kernel) (by decide +kernel))
      | (with_reducible refine Within.ite ?_ ?_)
      | (with_reducible refine Within.iteS ?_ ?_)
      | (intro _ _ _)
      | (refine Within.ite ?_ ?_)
      | split
      | dsimp only)

theorem execOpenSensed_s (s : State) (t_ : State) (h : execOpenSensed s = .next t_) : Within 0x1840000000000000000000000000000 0x320000 s.dev t_.dev := by
  unfold execOpenSensed at h
  injection h with h
  subst h
  all_goals try dsimp only
  all_goals (
    repeat' first
      | (with_reducible exact Within.refl _)
      | (with_reducible assumption)
      | (with_reducible simp only [State.onDev_dev])
      | (with_reducible refine openSensed_w _ ?_ (by decide +kernel) (by decide +kernel))
      | (with_reducible refine Within.ite ?_ ?_)
      | (with_reducible refine Within.iteS ?_ ?_)
      | (intro _ _ _)
      | (refine Within.ite ?_ ?_)
      | split
      | dsimp only)

theorem execShutFault_s (s : State) (t_ : State) (h : execShutFault s = .next t_) : Within 0x80B80100000000000000000000000000000000000000000000000000A00000840000000000001000000000000000 0x3249D0 s.dev t_.dev := by
  unfold execShutFault at h
  injection h with h
  subst h
  all_goals try dsimp only
  all_goals (
    repeat' first
      | (with_reducible exact Within.refl _)
      | (with_reducible assumption)
      | (with_reducible simp only [State.onDev_dev])
      | (with_reducible refine shutFault_w _ ?_ (by decide +kernel) (by decide +kernel))
      | (with_reducible refine Within.ite ?_ ?_)
      | (with_reducible refine Within.iteS ?_ ?_)
      | (intro _ _ _)
      | (refine Within.ite ?_ ?_)
      | split
      | dsimp only)

theorem execSettlingEnd_s (s : State) (t_ : State) (h : execSettlingEnd s = .next t_) : Within 0 0x20000 s.dev t_.dev := by
  unfold execSettlingEnd at h
  injection h with h
  subst h
  all_goals try dsimp only
  all_goals (
    repeat' first
      | (with_reducible exact Within.refl _)
      | (with_reducible assumption)
      | (with_reducible simp only [State.onDev_dev])
      | (with_reducible refine settlingEnd_w _ ?_ (by decide +kernel) (by decide +kernel))
      | (with_reducible refine Within.ite ?_ ?_)
      | (with_reducible refine Within.iteS ?_ ?_)
      | (intro _ _ _)
      | (refine Within.ite ?_ ?_)
      | split
      | dsimp only)

theorem execOffsetsComputed_s (s : State) (t_ : State) (h : execOffsetsComputed s = .next t_) : Within 0x100000000000000000000000000000000 0x20000 s.dev t_.dev := by
  unfold execOffsetsComputed at h
  injection h with h
  subst h
  all_goals try dsimp only
  all_goals (
    repeat' first
      | (with_reducible exact Within.refl _)
      | (with_reducible assumption)
      | (with_reducible simp only [State.onDev_dev])
      | (with_reducible refine offsetsComputed_w _ _ ?_ (by decide +kernel) (by decide +kernel))
      | (with_reducible refine Within.ite ?_ ?_)
      | (with_reducible refine Within.iteS ?_ ?_)
      | (intro _ _ _)
      | (refine Within.ite ?_ ?_)
      | split
      | dsimp only)

theorem execTauFit_s (s : State) (t_ : State) (h : execTauFit s = .next t_) : Within 0x800040000000000000000000000000000 0x20000 s.dev t_.dev := by
  unfold execTauFit at h
  injection h with h
  subst h
  all_goals try dsimp only
  all_goals (
    repeat' first
      | (with_reducible exact Within.refl _)
      | (with_reducible assumption)
      | (with_reducible simp only [State.onDev_dev])
      | (with_reducible refine tauFit_w _ _ ?_ (by decide +kernel) (by decide +kernel))
      | (with_reducible refine Within.ite ?_ ?_)
      | (with_reducible refine Within.iteS ?_ ?_)
      | (intro _ _ _)
      | (refine Within.ite ?_ ?_)
      | split
      | dsimp only)

theorem execPlateAccepted_s (s : State) (t_ : State) (h : execPlateAccepted s = .next t_) : Within 0x80B821200000000000000000000000000000000000000000000000003000008D80003F200008F000000002000800 0x279D0 s.dev t_.dev := by
  unfold execPlateAccepted at h
  injection h with h
  subst h
  all_goals try dsimp only
  all_goals (
    repeat' first
      | (with_reducible exact Within.refl _)
      | (with_reducible assumption)
      | (with_reducible simp only [State.onDev_dev])
      | (with_reducible refine plateAccepted_s _ ?_ (by decide +kernel) (by decide +kernel))
      | (with_reducible refine Within.ite ?_ ?_)
      | (with_reducible refine Within.iteS ?_ ?_)
      | (intro _ _ _)
      | (refine Within.ite ?_ ?_)
      | split
      | dsimp only)

theorem execNoFrames_s (s : State) (t_ : State) (h : execNoFrames s = .next t_) : Within 0x80B80100000000000000000000000000000000000000000000000000200800840000000000001000000000000000 0x249D0 s.dev t_.dev := by
  unfold execNoFrames at h
  injection h with h
  subst h
  all_goals try dsimp only
  all_goals (
    repeat' first
      | (with_reducible exact Within.refl _)
      | (with_reducible assumption)
      | (with_reducible simp only [State.onDev_dev])
      | (with_reducible refine noFrames_w _ ?_ (by decide +kernel) (by decide +kernel))
      | (with_reducible refine Within.ite ?_ ?_)
      | (with_reducible refine Within.iteS ?_ ?_)
      | (intro _ _ _)
      | (refine Within.ite ?_ ?_)
      | split
      | dsimp only)

theorem execProofAgeDue_s (s : State) (t_ : State) (h : execProofAgeDue s = .next t_) : Within 0x80000000000000000000000000000 0x20000 s.dev t_.dev := by
  unfold execProofAgeDue at h
  injection h with h
  subst h
  all_goals try dsimp only
  all_goals (
    repeat' first
      | (with_reducible exact Within.refl _)
      | (with_reducible assumption)
      | (with_reducible simp only [State.onDev_dev])
      | (with_reducible refine Dev.request_w _ _ ?_ (by decide +kernel) (by decide +kernel))
      | (with_reducible refine Within.ite ?_ ?_)
      | (with_reducible refine Within.iteS ?_ ?_)
      | (intro _ _ _)
      | (refine Within.ite ?_ ?_)
      | split
      | dsimp only)

theorem execProofForceDue_s (s : State) (t_ : State) (h : execProofForceDue s = .next t_) : Within 0x80000000000000000000000000000 0x20000 s.dev t_.dev := by
  unfold execProofForceDue at h
  injection h with h
  subst h
  all_goals try dsimp only
  all_goals (
    repeat' first
      | (with_reducible exact Within.refl _)
      | (with_reducible assumption)
      | ((try lift_lets); intro x_; first
        | (refine (fun (hx_ : Within 0x80000000000000000000000000000 0x20000 s.dev x_) => ?rest) ?val; (case' rest => clear_value x_); (case' val => subst x_))
        | (refine (fun (hx_ : Within 0x80000000000000000000000000000 0x20000 s.dev x_.dev) => ?rest) ?val; (case' rest => clear_value x_); (case' val => subst x_))
        | (have _t := fun y_ => x_ y_; clear _t; subst x_)
        | (have _t : Dev := x_.1; clear _t; subst x_)
        | (have _t : Dev := x_.2; clear _t; subst x_)
        | (have _t := fun y_ => x_ y_; clear _t; subst x_)
        | (have _t : State := x_.1; clear _t; subst x_)
        | (have _t : State := x_.2; clear _t; subst x_)
        | clear_value x_)
      | (with_reducible simp only [State.onDev_dev])
      | (with_reducible refine Dev.request_w _ _ ?_ (by decide +kernel) (by decide +kernel))
      | (with_reducible refine Within.ite ?_ ?_)
      | (with_reducible refine Within.iteS ?_ ?_)
      | (intro _ _ _)
      | (refine Within.ite ?_ ?_)
      | split
      | dsimp only)

theorem execOverdue_s (s : State) (t_ : State) (h : execOverdue s = .next t_) : Within 0x40000000000000000000000000000 0 s.dev t_.dev := by
  unfold execOverdue at h
  injection h with h
  subst h
  all_goals try dsimp only
  all_goals (
    repeat' first
      | (with_reducible exact Within.refl _)
      | (with_reducible assumption)
      | (with_reducible simp only [State.onDev_dev])
      | (with_reducible refine Dev.showOverdue_w _ ?_ (by decide +kernel) (by decide +kernel))
      | (with_reducible refine Within.ite ?_ ?_)
      | (with_reducible refine Within.iteS ?_ ?_)
      | (intro _ _ _)
      | (refine Within.ite ?_ ?_)
      | split
      | dsimp only)

theorem execChannelCalPass_s (group : Fin 81) (gains : List (Nat × Nat)) (s : State) (t_ : State) (h : execChannelCalPass group gains s = .next t_) : Within 0x80B80100000000000000000000000000000000000000000000000030000000080000000000000000000000000000 0xA01D0 s.dev t_.dev := by
  unfold execChannelCalPass at h
  injection h with h
  subst h
  all_goals try dsimp only
  all_goals (
    repeat' first
      | (with_reducible exact Within.refl _)
      | (with_reducible assumption)
      | (with_reducible simp only [State.onDev_dev])
      | (with_reducible refine calPass_w _ _ _ ?_ (by decide +kernel) (by decide +kernel))
      | (with_reducible refine Within.ite ?_ ?_)
      | (with_reducible refine Within.iteS ?_ ?_)
      | (intro _ _ _)
      | (refine Within.ite ?_ ?_)
      | split
      | dsimp only)

theorem execGladeInWindow_s (level : Bool) (s : State) (t_ : State) (h : execGladeInWindow level s = .next t_) : Within 0x800000000080B8010000000000000000000000000000000000000000000000000020C0008C0000000000001000004000040000 0x65BD0 s.dev t_.dev := by
  unfold execGladeInWindow at h
  injection h with h
  subst h
  all_goals try dsimp only
  all_goals (
    repeat' first
      | (with_reducible exact Within.refl _)
      | (with_reducible assumption)
      | (with_reducible simp only [State.onDev_dev])
      | (with_reducible refine gladeIn_w _ _ ?_ (by decide +kernel) (by decide +kernel))
      | (with_reducible refine Within.ite ?_ ?_)
      | (with_reducible refine Within.iteS ?_ ?_)
      | (intro _ _ _)
      | (refine Within.ite ?_ ?_)
      | split
      | dsimp only)

theorem execSpeedWindow_s (s : State) (t_ : State) (h : execSpeedWindow s = .next t_) : Within 0x80B8010000000000000000000000000000000000000000000000000020C0008C0000000000001000004000040000 0x65BD0 s.dev t_.dev := by
  unfold execSpeedWindow at h
  injection h with h
  subst h
  all_goals try dsimp only
  all_goals (
    repeat' first
      | (with_reducible exact Within.refl _)
      | (with_reducible assumption)
      | (with_reducible simp only [State.onDev_dev])
      | (with_reducible refine speedWindow_w _ ?_ (by decide +kernel) (by decide +kernel))
      | (with_reducible refine Within.ite ?_ ?_)
      | (with_reducible refine Within.iteS ?_ ?_)
      | (intro _ _ _)
      | (refine Within.ite ?_ ?_)
      | split
      | dsimp only)

theorem execDeclaredWindowEnd_s (s : State) (t_ : State) (h : execDeclaredWindowEnd s = .next t_) : Within 0x80B8010000000000000000000000000000000000000000000000000020C0008C0000000000001000004000040000 0x65BD0 s.dev t_.dev := by
  unfold execDeclaredWindowEnd at h
  injection h with h
  subst h
  all_goals try dsimp only
  all_goals (
    repeat' first
      | (with_reducible exact Within.refl _)
      | (with_reducible assumption)
      | (with_reducible simp only [State.onDev_dev])
      | (with_reducible refine declaredEval_w _ ?_ (by decide +kernel) (by decide +kernel))
      | (with_reducible refine Within.ite ?_ ?_)
      | (with_reducible refine Within.iteS ?_ ?_)
      | (intro _ _ _)
      | (refine Within.ite ?_ ?_)
      | split
      | dsimp only)

theorem execScheduleWindow_s (s : State) (t_ : State) (h : execScheduleWindow s = .next t_) : Within 0x80B8010000000000000000000000000000000000000000000000000020C0008C0000000000001000004000040000 0x65BD0 s.dev t_.dev := by
  unfold execScheduleWindow at h
  injection h with h
  subst h
  all_goals try dsimp only
  all_goals (
    repeat' first
      | (with_reducible exact Within.refl _)
      | (with_reducible assumption)
      | (with_reducible simp only [State.onDev_dev])
      | (with_reducible refine scheduleWindow_w _ ?_ (by decide +kernel) (by decide +kernel))
      | (with_reducible refine Within.ite ?_ ?_)
      | (with_reducible refine Within.iteS ?_ ?_)
      | (intro _ _ _)
      | (refine Within.ite ?_ ?_)
      | split
      | dsimp only)

theorem execProfileGladeEnd_s (s : State) (t_ : State) (h : execProfileGladeEnd s = .next t_) : Within 0x80B8010000000000000000000000000000000000000000000000000020C0008C0000000000001000004000040000 0x65BD0 s.dev t_.dev := by
  unfold execProfileGladeEnd at h
  injection h with h
  subst h
  all_goals try dsimp only
  all_goals (
    repeat' first
      | (with_reducible exact Within.refl _)
      | (with_reducible assumption)
      | (with_reducible simp only [State.onDev_dev])
      | (with_reducible refine profileGladeEnd_w _ ?_ (by decide +kernel) (by decide +kernel))
      | (with_reducible refine Within.ite ?_ ?_)
      | (with_reducible refine Within.iteS ?_ ?_)
      | (intro _ _ _)
      | (refine Within.ite ?_ ?_)
      | split
      | dsimp only)

theorem execEncoderEdge_s (a : Bool) (b : Bool) (s : State) (t_ : State) (h : execEncoderEdge a b s = .next t_) : Within 0x80B8010000000000000000000000000040000000000000000018384020C0008C0000000000001000004000040000 0x265BD0 s.dev t_.dev := by
  unfold execEncoderEdge at h
  injection h with h
  subst h
  all_goals try dsimp only
  all_goals (
    repeat' first
      | (with_reducible exact Within.refl _)
      | (with_reducible assumption)
      | (with_reducible simp only [State.onDev_dev])
      | (with_reducible refine encoderEdge_w _ _ _ ?_ (by decide +kernel) (by decide +kernel))
      | (with_reducible refine Within.ite ?_ ?_)
      | (with_reducible refine Within.iteS ?_ ?_)
      | (intro _ _ _)
      | (refine Within.ite ?_ ?_)
      | split
      | dsimp only)

theorem execIndexEdge_s (s : State) (t_ : State) (h : execIndexEdge s = .next t_) : Within 0x80B80100000000000000000000000000000000000000000000E00000000000000000000000000000000000000000 0x40D0 s.dev t_.dev := by
  unfold execIndexEdge at h
  injection h with h
  subst h
  all_goals try dsimp only
  all_goals (
    repeat' first
      | (with_reducible exact Within.refl _)
      | (with_reducible assumption)
      | (with_reducible simp only [State.onDev_dev])
      | (with_reducible refine indexEdge_w _ ?_ (by decide +kernel) (by decide +kernel))
      | (with_reducible refine Within.ite ?_ ?_)
      | (with_reducible refine Within.iteS ?_ ?_)
      | (intro _ _ _)
      | (refine Within.ite ?_ ?_)
      | split
      | dsimp only)

theorem execEncLoss_s (s : State) (t_ : State) (h : execEncLoss s = .next t_) : Within 0x80B80100000000000000000000000000000000000000000000000800000000000000000000000000000000000000 0x40D0 s.dev t_.dev := by
  unfold execEncLoss at h
  injection h with h
  subst h
  all_goals try dsimp only
  all_goals (
    repeat' first
      | (with_reducible exact Within.refl _)
      | (with_reducible assumption)
      | (with_reducible simp only [State.onDev_dev])
      | (with_reducible refine Dev.sourceLost_w _ ?_ (by decide +kernel) (by decide +kernel))
      | (with_reducible refine Within.onWeb ?_ _ (by decide +kernel))
      | (with_reducible refine Within.ite ?_ ?_)
      | (with_reducible refine Within.iteS ?_ ?_)
      | (intro _ _ _)
      | (refine Within.ite ?_ ?_)
      | split
      | dsimp only)

theorem execSpeedEvaluation_s (s : State) (t_ : State) (h : execSpeedEvaluation s = .next t_) : Within 0x80B8010000000000000000000000000000000000000000000000480020C0008C0000000000001000004000040000 0x65BD0 s.dev t_.dev := by
  unfold execSpeedEvaluation at h
  injection h with h
  subst h
  all_goals try dsimp only
  all_goals (
    repeat' first
      | (with_reducible exact Within.refl _)
      | (with_reducible assumption)
      | (with_reducible simp only [State.onDev_dev])
      | (with_reducible refine speedEvaluation_w _ ?_ (by decide +kernel) (by decide +kernel))
      | (with_reducible refine Within.ite ?_ ?_)
      | (with_reducible refine Within.iteS ?_ ?_)
      | (intro _ _ _)
      | (refine Within.ite ?_ ?_)
      | split
      | dsimp only)

theorem execWebStopped_s (s : State) (t_ : State) (h : execWebStopped s = .next t_) : Within 0x1800080B80100802000000000000D1F00000000000000F000008CE0000800000000000000000000000000000000000000 0x31C0D4 s.dev t_.dev := by
  unfold execWebStopped at h
  injection h with h
  subst h
  all_goals try dsimp only
  all_goals (
    repeat' first
      | (with_reducible exact Within.refl _)
      | (with_reducible assumption)
      | (with_reducible simp only [State.onDev_dev])
      | (with_reducible refine webStopped_w _ ?_ (by decide +kernel) (by decide +kernel))
      | (with_reducible refine Within.ite ?_ ?_)
      | (with_reducible refine Within.iteS ?_ ?_)
      | (intro _ _ _)
      | (refine Within.ite ?_ ?_)
      | split
      | dsimp only)

theorem execAlarmIntervalEnter_s (s : State) (t_ : State) (h : execAlarmIntervalEnter s = .next t_) : Within 0x1000000000000000000000000000000000000000000000000000 0x10000 s.dev t_.dev := by
  unfold execAlarmIntervalEnter at h
  injection h with h
  subst h
  all_goals try dsimp only
  all_goals (
    repeat' first
      | (with_reducible exact Within.refl _)
      | (with_reducible assumption)
      | (with_reducible simp only [State.onDev_dev])
      | (with_reducible refine Dev.alarmEval_w _ ?_ (by decide +kernel) (by decide +kernel))
      | (with_reducible refine Within.ite ?_ ?_)
      | (with_reducible refine Within.iteS ?_ ?_)
      | (intro _ _ _)
      | (refine Within.ite ?_ ?_)
      | split
      | dsimp only)

theorem execAlarmIntervalRetire_s (s : State) (t_ : State) (h : execAlarmIntervalRetire s = .next t_) : Within 0x1000000000000000000000000000000000000000000000000000 0x10000 s.dev t_.dev := by
  unfold execAlarmIntervalRetire at h
  injection h with h
  subst h
  all_goals try dsimp only
  all_goals (
    repeat' first
      | (with_reducible exact Within.refl _)
      | (with_reducible assumption)
      | (with_reducible simp only [State.onDev_dev])
      | (with_reducible refine Dev.alarmRetire_w _ ?_ (by decide +kernel) (by decide +kernel))
      | (with_reducible refine Within.ite ?_ ?_)
      | (with_reducible refine Within.iteS ?_ ?_)
      | (intro _ _ _)
      | (refine Within.ite ?_ ?_)
      | split
      | dsimp only)

theorem execAlarmPulseEnd_s (n : Fin 4) (s : State) (t_ : State) (h : execAlarmPulseEnd n s = .next t_) : Within 0x1000000000000000000000000000000000000000000000000000 0x10000 s.dev t_.dev := by
  unfold execAlarmPulseEnd at h
  injection h with h
  subst h
  all_goals try dsimp only
  all_goals (
    repeat' first
      | (with_reducible exact Within.refl _)
      | (with_reducible assumption)
      | (with_reducible simp only [State.onDev_dev])
      | (with_reducible refine alarmPulseEnd_w _ _ ?_ (by decide +kernel) (by decide +kernel))
      | (with_reducible refine Within.ite ?_ ?_)
      | (with_reducible refine Within.iteS ?_ ?_)
      | (intro _ _ _)
      | (refine Within.ite ?_ ?_)
      | split
      | dsimp only)

theorem execFlitReceive_s (q : Port) (x : FlitIn) (bytes : List Byte) (s : State) (t_ : State) (h : execFlitReceive q x bytes s = .next t_) : Within 0x80B8010000014001000000000000000001E7C0000000000000000000000000000000000000000000000000000000 0x3000F0 s.dev t_.dev := by
  unfold execFlitReceive at h
  injection h with h
  subst h
  all_goals try dsimp only
  all_goals (
    repeat' first
      | (with_reducible exact Within.refl _)
      | (with_reducible assumption)
      | (with_reducible simp only [State.onDev_dev])
      | (with_reducible refine flitReceive_w _ _ _ _ ?_ (by decide +kernel) (by decide +kernel))
      | (with_reducible refine Within.ite ?_ ?_)
      | (with_reducible refine Within.iteS ?_ ?_)
      | (intro _ _ _)
      | (refine Within.ite ?_ ?_)
      | split
      | dsimp only)

theorem execPortTraining_s (q : Port) (ev : TrainEv) (s : State) (t_ : State) (h : execPortTraining q ev s = .next t_) : Within 0x80B80100000140010000000000000000000439F00000000000000000000000000000000003000000000000000000 0x3008F0 s.dev t_.dev := by
  unfold execPortTraining at h
  injection h with h
  subst h
  all_goals try dsimp only
  all_goals (
    repeat' first
      | (with_reducible exact Within.refl _)
      | (with_reducible assumption)
      | (with_reducible simp only [State.onDev_dev])
      | (with_reducible refine portTraining_w _ _ _ ?_ (by decide +kernel) (by decide +kernel))
      | (with_reducible refine Within.ite ?_ ?_)
      | (with_reducible refine Within.iteS ?_ ?_)
      | (intro _ _ _)
      | (refine Within.ite ?_ ?_)
      | split
      | dsimp only)

theorem execTrainTimeout_s (q : Port) (s : State) (t_ : State) (h : execTrainTimeout q s = .next t_) : Within 0x80B80100000000000000000000000000000008000000000000000000000000000000000000000000000000000000 0x1000D0 s.dev t_.dev := by
  unfold execTrainTimeout at h
  injection h with h
  subst h
  all_goals try dsimp only
  all_goals (
    repeat' first
      | (with_reducible exact Within.refl _)
      | (with_reducible assumption)
      | (with_reducible simp only [State.onDev_dev])
      | (with_reducible refine trainTimeout_w _ _ ?_ (by decide +kernel) (by decide +kernel))
      | (with_reducible refine Within.ite ?_ ?_)
      | (with_reducible refine Within.iteS ?_ ?_)
      | (intro _ _ _)
      | (refine Within.ite ?_ ?_)
      | split
      | dsimp only)

theorem execPortDown_s (q : Port) (s : State) (t_ : State) (h : execPortDown q s = .next t_) : Within 0x80B80100000140010000000000000000000409E00000000000000000000000000000000003000000000000000000 0x3008F0 s.dev t_.dev := by
  unfold execPortDown at h
  injection h with h
  subst h
  all_goals try dsimp only
  all_goals (
    repeat' first
      | (with_reducible exact Within.refl _)
      | (with_reducible assumption)
      | (with_reducible simp only [State.onDev_dev])
      | (with_reducible refine Dev.portLost_w _ _ ?_ (by decide +kernel) (by decide +kernel))
      | (with_reducible refine Within.ite ?_ ?_)
      | (with_reducible refine Within.iteS ?_ ?_)
      | (intro _ _ _)
      | (refine Within.ite ?_ ?_)
      | split
      | dsimp only)

theorem execLaneFailed_s (q : Port) (lane : Fin 4) (s : State) (t_ : State) (h : execLaneFailed q lane s = .next t_) : Within 0x80B80100000000000000000000000000000000000000000000000000000000000000000000000000000000000000 0x1000D0 s.dev t_.dev := by
  unfold execLaneFailed at h
  injection h with h
  subst h
  all_goals try dsimp only
  all_goals (
    repeat' first
      | (with_reducible exact Within.refl _)
      | (with_reducible assumption)
      | (with_reducible simp only [State.onDev_dev])
      | (with_reducible refine Dev.laneOut_w _ _ _ ?_ (by decide +kernel) (by decide +kernel))
      | (with_reducible refine Within.ite ?_ ?_)
      | (with_reducible refine Within.iteS ?_ ?_)
      | (intro _ _ _)
      | (refine Within.ite ?_ ?_)
      | split
      | dsimp only)

theorem execLaneReturn_s (q : Port) (lane : Fin 4) (s : State) (t_ : State) (h : execLaneReturn q lane s = .next t_) : Within 0 0x100000 s.dev t_.dev := by
  unfold execLaneReturn at h
  injection h with h
  subst h
  all_goals try dsimp only
  all_goals (
    repeat' first
      | (with_reducible exact Within.refl _)
      | (with_reducible assumption)
      | (with_reducible simp only [State.onDev_dev])
      | (with_reducible refine laneReturn_w _ _ _ ?_ (by decide +kernel) (by decide +kernel))
      | (with_reducible refine Within.ite ?_ ?_)
      | (with_reducible refine Within.iteS ?_ ?_)
      | (intro _ _ _)
      | (refine Within.ite ?_ ?_)
      | split
      | dsimp only)

theorem execLmGroup_s (q : Port) (_use : BitVec 4) (req : BitVec 4) (ack : Bool) (cnt : BitVec 16) (s : State) (t_ : State) (h : execLmGroup q _use req ack cnt s = .next t_) : Within 0 0x100000 s.dev t_.dev := by
  unfold execLmGroup at h
  injection h with h
  subst h
  all_goals try dsimp only
  all_goals (
    repeat' first
      | (with_reducible exact Within.refl _)
      | (with_reducible assumption)
      | (with_reducible simp only [State.onDev_dev])
      | (with_reducible refine lmGroup_w _ _ _ _ _ ?_ (by decide +kernel) (by decide +kernel))
      | (with_reducible refine Within.ite ?_ ?_)
      | (with_reducible refine Within.iteS ?_ ?_)
      | (intro _ _ _)
      | (refine Within.ite ?_ ?_)
      | split
      | dsimp only)

theorem execRouteRing_s (fl : Flit) (s : State) (t_ : State) (h : execRouteRing fl s = .next t_) : Within 0x409E00000000000000000000000000000000000000000000000000000 0x300000 s.dev t_.dev := by
  unfold execRouteRing at h
  injection h with h
  subst h
  all_goals try dsimp only
  all_goals (
    repeat' first
      | (with_reducible exact Within.refl _)
      | (with_reducible assumption)
      | ((try lift_lets); intro x_; first
        | (refine (fun (hx_ : Within 0x409E00000000000000000000000000000000000000000000000000000 0x300000 s.dev x_) => ?rest) ?val; (case' rest => clear_value x_); (case' val => subst x_))
        | (refine (fun (hx_ : Within 0x409E00000000000000000000000000000000000000000000000000000 0x300000 s.dev x_.dev) => ?rest) ?val; (case' rest => clear_value x_); (case' val => subst x_))
        | (have _t := fun y_ => x_ y_; clear _t; subst x_)
        | (have _t : Dev := x_.1; clear _t; subst x_)
        | (have _t : Dev := x_.2; clear _t; subst x_)
        | (have _t := fun y_ => x_ y_; clear _t; subst x_)
        | (have _t : State := x_.1; clear _t; subst x_)
        | (have _t : State := x_.2; clear _t; subst x_)
        | clear_value x_)
      | (with_reducible simp only [State.onDev_dev])
      | (with_reducible refine Within.foldlS ?_ _ _ ?_)
      | (with_reducible refine Dev.pushFwd_w _ _ _ ?_ (by decide +kernel) (by decide +kernel))
      | (with_reducible refine Dev.bcast_w _ _ _ _ ?_ (by decide +kernel) (by decide +kernel))
      | (with_reducible refine routeRing_w _ _ ?_ (by decide +kernel) (by decide +kernel))
      | (with_reducible refine Within.foldl ?_ _ _ ?_)
      | (with_reducible refine Within.ite ?_ ?_)
      | (with_reducible refine Within.iteS ?_ ?_)
      | (intro _ _ _)
      | (refine Within.ite ?_ ?_)
      | split
      | dsimp only)

theorem execRouteCut_s (fl : Flit) (s : State) (t_ : State) (h : execRouteCut fl s = .next t_) : Within 0x9E00000000000000000000000000000000000000000000000000000 0x100000 s.dev t_.dev := by
  unfold execRouteCut at h
  injection h with h
  subst h
  all_goals try dsimp only
  all_goals (
    repeat' first
      | (with_reducible exact Within.refl _)
      | (with_reducible assumption)
      | (with_reducible simp only [State.onDev_dev])
      | (with_reducible refine Dev.markCut_w _ _ _ ?_ (by decide +kernel) (by decide +kernel))
      | (with_reducible refine Within.ite ?_ ?_)
      | (with_reducible refine Within.iteS ?_ ?_)
      | (intro _ _ _)
      | (refine Within.ite ?_ ?_)
      | split
      | dsimp only)

theorem execDreq_s (q : Port) (s : State) (t_ : State) (h : execDreq q s = .next t_) : Within 0 0x300000 s.dev t_.dev := by
  unfold execDreq at h
  injection h with h
  subst h
  all_goals try dsimp only
  all_goals (
    repeat' first
      | (with_reducible exact Within.refl _)
      | (with_reducible assumption)
      | (with_reducible simp only [State.onDev_dev])
      | (with_reducible refine sendDreq_w _ _ ?_ (by decide +kernel) (by decide +kernel))
      | (with_reducible refine Within.ite ?_ ?_)
      | (with_reducible refine Within.iteS ?_ ?_)
      | (intro _ _ _)
      | (refine Within.ite ?_ ?_)
      | split
      | dsimp only)

theorem execDresp_s (q : Port) (t4 : Nat) (fl : Flit) (s : State) (t_ : State) (h : execDresp q t4 fl s = .next t_) : Within 0x800000000000000000000000000000000000000000000000000000000 0x100000 s.dev t_.dev := by
  unfold execDresp at h
  injection h with h
  subst h
  all_goals try dsimp only
  all_goals (
    repeat' first
      | (with_reducible exact Within.refl _)
      | (with_reducible assumption)
      | (with_reducible simp only [State.onDev_dev])
      | (with_reducible refine takeDresp_w _ _ _ _ ?_ (by decide +kernel) (by decide +kernel))
      | (with_reducible refine Within.ite ?_ ?_)
      | (with_reducible refine Within.iteS ?_ ?_)
      | (intro _ _ _)
      | (refine Within.ite ?_ ?_)
      | split
      | dsimp only)

theorem execTimeSend_s (s : State) (t_ : State) (h : execTimeSend s = .next t_) : Within 0 0x300000 s.dev t_.dev := by
  unfold execTimeSend at h
  injection h with h
  subst h
  all_goals try dsimp only
  all_goals (
    repeat' first
      | (with_reducible exact Within.refl _)
      | (with_reducible assumption)
      | (with_reducible simp only [State.onDev_dev])
      | (with_reducible refine timeSend_w _ ?_ (by decide +kernel) (by decide +kernel))
      | (with_reducible refine Within.ite ?_ ?_)
      | (with_reducible refine Within.iteS ?_ ?_)
      | (intro _ _ _)
      | (refine Within.ite ?_ ?_)
      | split
      | dsimp only)

theorem execTimeReceive_s (q : Port) (tIn : Nat) (fl : Flit) (s : State) (t_ : State) (h : execTimeReceive q tIn fl s = .next t_) : Within 0x80B801000000000000000000000000103C0400000000000000000000000000000000000000000000000000000000 0x1000D5 s.dev t_.dev := by
  unfold execTimeReceive at h
  injection h with h
  subst h
  all_goals try dsimp only
  all_goals (
    repeat' first
      | (with_reducible exact Within.refl _)
      | (with_reducible assumption)
      | (with_reducible simp only [State.onDev_dev])
      | (with_reducible refine timeReceive_w _ _ _ _ ?_ (by decide +kernel) (by decide +kernel))
      | (with_reducible refine Within.ite ?_ ?_)
      | (with_reducible refine Within.iteS ?_ ?_)
      | (intro _ _ _)
      | (refine Within.ite ?_ ?_)
      | split
      | dsimp only)

theorem execTimeHoldover_s (s : State) (t_ : State) (h : execTimeHoldover s = .next t_) : Within 0x10040000000000000000000000000000000000000000000000000000000000 0x100000 s.dev t_.dev := by
  unfold execTimeHoldover at h
  injection h with h
  subst h
  all_goals try dsimp only
  all_goals (
    repeat' first
      | (with_reducible exact Within.refl _)
      | (with_reducible assumption)
      | (with_reducible simp only [State.onDev_dev])
      | (with_reducible refine timeHoldover_w _ ?_ (by decide +kernel) (by decide +kernel))
      | (with_reducible refine Within.ite ?_ ?_)
      | (with_reducible refine Within.iteS ?_ ?_)
      | (intro _ _ _)
      | (refine Within.ite ?_ ?_)
      | split
      | dsimp only)

theorem execEncSend_s (s : State) (t_ : State) (h : execEncSend s = .next t_) : Within 0 0x300000 s.dev t_.dev := by
  unfold execEncSend at h
  injection h with h
  subst h
  all_goals try dsimp only
  all_goals (
    repeat' first
      | (with_reducible exact Within.refl _)
      | (with_reducible assumption)
      | (with_reducible simp only [State.onDev_dev])
      | (with_reducible refine encSend_w _ ?_ (by decide +kernel) (by decide +kernel))
      | (with_reducible refine Within.ite ?_ ?_)
      | (with_reducible refine Within.iteS ?_ ?_)
      | (intro _ _ _)
      | (refine Within.ite ?_ ?_)
      | split
      | dsimp only)

theorem execEncReceive_s (q : Port) (fl : Flit) (s : State) (t_ : State) (h : execEncReceive q fl s = .next t_) : Within 0x80B8010000000000000000000000000580000000000000000000380020C0008C0000000000001000004000040000 0x365BD0 s.dev t_.dev := by
  unfold execEncReceive at h
  injection h with h
  subst h
  all_goals try dsimp only
  all_goals (
    repeat' first
      | (with_reducible exact Within.refl _)
      | (with_reducible assumption)
      | (with_reducible simp only [State.onDev_dev])
      | (with_reducible refine encReceive_w _ _ _ ?_ (by decide +kernel) (by decide +kernel))
      | (with_reducible refine Within.ite ?_ ?_)
      | (with_reducible refine Within.iteS ?_ ?_)
      | (intro _ _ _)
      | (refine Within.ite ?_ ?_)
      | split
      | dsimp only)

theorem execEncExtrapolate_s (t : Nat) (s : State) (t_ : State) (h : execEncExtrapolate t s = .next t_) : Within 0x2800000000000000000000000000000000000000000000000000000000000 0x4100 s.dev t_.dev := by
  unfold execEncExtrapolate at h
  injection h with h
  subst h
  all_goals try dsimp only
  all_goals (
    repeat' first
      | (with_reducible exact Within.refl _)
      | (with_reducible assumption)
      | (with_reducible simp only [State.onDev_dev])
      | (with_reducible refine encExtrapolate_w _ _ ?_ (by decide +kernel) (by decide +kernel))
      | (with_reducible refine Within.ite ?_ ?_)
      | (with_reducible refine Within.iteS ?_ ?_)
      | (intro _ _ _)
      | (refine Within.ite ?_ ?_)
      | split
      | dsimp only)

theorem execEncSampleLoss_s (s : State) (t_ : State) (h : execEncSampleLoss s = .next t_) : Within 0x80B80100000000000000000000000000800000000000000000000800000000000000000000000000000000000000 0x40D0 s.dev t_.dev := by
  unfold execEncSampleLoss at h
  injection h with h
  subst h
  all_goals try dsimp only
  all_goals (
    repeat' first
      | (with_reducible exact Within.refl _)
      | (with_reducible assumption)
      | (with_reducible simp only [State.onDev_dev])
      | (with_reducible refine encSampleLoss_w _ ?_ (by decide +kernel) (by decide +kernel))
      | (with_reducible refine Within.ite ?_ ?_)
      | (with_reducible refine Within.iteS ?_ ?_)
      | (intro _ _ _)
      | (refine Within.ite ?_ ?_)
      | split
      | dsimp only)

theorem execHeartSend_s (s : State) (t_ : State) (h : execHeartSend s = .next t_) : Within 0x2810400000000000000000000840000000000000000000000000000000000000 0x304000 s.dev t_.dev := by
  unfold execHeartSend at h
  injection h with h
  subst h
  all_goals try dsimp only
  all_goals (
    repeat' first
      | (with_reducible exact Within.refl _)
      | (with_reducible assumption)
      | (with_reducible simp only [State.onDev_dev])
      | (with_reducible refine heartSend_w _ ?_ (by decide +kernel) (by decide +kernel))
      | (with_reducible refine Within.ite ?_ ?_)
      | (with_reducible refine Within.iteS ?_ ?_)
      | (intro _ _ _)
      | (refine Within.ite ?_ ?_)
      | split
      | dsimp only)

theorem execHeartReceive_s (q : Port) (fl : Flit) (s : State) (t_ : State) (h : execHeartReceive q fl s = .next t_) : Within 0x380B8010000014001000000000072A030400000000000000000000000000000000000000003000000000000000000 0x3248F0 s.dev t_.dev := by
  unfold execHeartReceive at h
  injection h with h
  subst h
  all_goals try dsimp only
  all_goals (
    repeat' first
      | (with_reducible exact Within.refl _)
      | (with_reducible assumption)
      | (with_reducible simp only [State.onDev_dev])
      | (with_reducible refine heartReceive_w _ _ _ ?_ (by decide +kernel) (by decide +kernel))
      | (with_reducible refine Within.ite ?_ ?_)
      | (with_reducible refine Within.iteS ?_ ?_)
      | (intro _ _ _)
      | (refine Within.ite ?_ ?_)
      | split
      | dsimp only)

theorem execMembershipEvaluation_s (s : State) (t_ : State) (h : execMembershipEvaluation s = .next t_) : Within 0x80B8010000014001000000050079F970400009E00000000000000840000000000000000000000000000000000000 0x3040F0 s.dev t_.dev := by
  unfold execMembershipEvaluation at h
  injection h with h
  subst h
  all_goals try dsimp only
  all_goals (
    repeat' first
      | (with_reducible exact Within.refl _)
      | (with_reducible assumption)
      | (with_reducible simp only [State.onDev_dev])
      | (with_reducible refine membership_w _ ?_ (by decide +kernel) (by decide +kernel))
      | (with_reducible refine Within.ite ?_ ?_)
      | (with_reducible refine Within.iteS ?_ ?_)
      | (intro _ _ _)
      | (refine Within.ite ?_ ?_)
      | split
      | dsimp only)

theorem execMapReceive_s (fl : Flit) (s : State) (t_ : State) (h : execMapReceive fl s = .next t_) : Within 0x300B80100000140010000000000707970400000000000000000000840000000000000000003000000000000000000 0x3248F0 s.dev t_.dev := by
  unfold execMapReceive at h
  injection h with h
  subst h
  all_goals try dsimp only
  all_goals (
    repeat' first
      | (with_reducible exact Within.refl _)
      | (with_reducible assumption)
      | (with_reducible simp only [State.onDev_dev])
      | (with_reducible refine mapReceive_w _ _ ?_ (by decide +kernel) (by decide +kernel))
      | (with_reducible refine Within.ite ?_ ?_)
      | (with_reducible refine Within.iteS ?_ ?_)
      | (intro _ _ _)
      | (refine Within.ite ?_ ?_)
      | split
      | dsimp only)

theorem execMapRepeat_s (s : State) (t_ : State) (h : execMapRepeat s = .next t_) : Within 0 0x300000 s.dev t_.dev := by
  unfold execMapRepeat at h
  injection h with h
  subst h
  all_goals try dsimp only
  all_goals (
    repeat' first
      | (with_reducible exact Within.refl _)
      | (with_reducible assumption)
      | (with_reducible simp only [State.onDev_dev])
      | (with_reducible refine mapRepeat_w _ ?_ (by decide +kernel) (by decide +kernel))
      | (with_reducible refine Within.ite ?_ ?_)
      | (with_reducible refine Within.iteS ?_ ?_)
      | (intro _ _ _)
      | (refine Within.ite ?_ ?_)
      | split
      | dsimp only)

theorem execTakeover_s (s : State) (t_ : State) (h : execTakeover s = .next t_) : Within 0x80B801000001400100000000007CF970440009E00000000000000840000000000000000000000000000000000000 0x3040F0 s.dev t_.dev := by
  unfold execTakeover at h
  injection h with h
  subst h
  all_goals try dsimp only
  all_goals (
    repeat' first
      | (with_reducible exact Within.refl _)
      | (with_reducible assumption)
      | (with_reducible simp only [State.onDev_dev])
      | (with_reducible refine takeover_w _ ?_ (by decide +kernel) (by decide +kernel))
      | (with_reducible refine Within.ite ?_ ?_)
      | (with_reducible refine Within.iteS ?_ ?_)
      | (intro _ _ _)
      | (refine Within.ite ?_ ?_)
      | split
      | dsimp only)

theorem execChannelState_s (rx : Option Flit) (s : State) (t_ : State) (h : execChannelState rx s = .next t_) : Within 0 0x300000 s.dev t_.dev := by
  unfold execChannelState at h
  injection h with h
  subst h
  all_goals try dsimp only
  all_goals (
    repeat' first
      | (with_reducible exact Within.refl _)
      | (with_reducible assumption)
      | (with_reducible simp only [State.onDev_dev])
      | (with_reducible refine channelSend_w _ ?_ (by decide +kernel) (by decide +kernel))
      | (with_reducible refine channelTake_w _ _ ?_ (by decide +kernel) (by decide +kernel))
      | (with_reducible refine Within.ite ?_ ?_)
      | (with_reducible refine Within.iteS ?_ ?_)
      | (intro _ _ _)
      | (refine Within.ite ?_ ?_)
      | split
      | dsimp only)

theorem execPrepare_s (fl : Flit) (data : List Byte) (s : State) (t_ : State) (h : execPrepare fl data s = .next t_) : Within 0x1800C0E8008384B8212080214281000000000070801000000006030FF805E000080020C0008D00101E000108F01FE0418B045800 0x76FFF4 s.dev t_.dev := by
  unfold execPrepare at h
  injection h with h
  subst h
  all_goals try dsimp only
  all_goals (
    repeat' first
      | (with_reducible exact Within.refl _)
      | (with_reducible assumption)
      | (with_reducible simp only [State.onDev_dev])
      | (with_reducible refine prepareIn_s _ _ _ ?_ (by decide +kernel) (by decide +kernel))
      | (with_reducible refine Within.ite ?_ ?_)
      | (with_reducible refine Within.iteS ?_ ?_)
      | (intro _ _ _)
      | (refine Within.ite ?_ ?_)
      | split
      | dsimp only)

theorem execVote_s (fl : Flit) (s : State) (t_ : State) (h : execVote fl s = .next t_) : Within 0x1800C0E8008384B8212080214201000000000070801000000006030FF805E000080020C0008D00101E000108F01FE0418B045800 0x76FFF4 s.dev t_.dev := by
  unfold execVote at h
  injection h with h
  subst h
  all_goals try dsimp only
  all_goals (
    repeat' first
      | (with_reducible exact Within.refl _)
      | (with_reducible assumption)
      | (with_reducible simp only [State.onDev_dev])
      | (with_reducible refine voteIn_s _ _ ?_ (by decide +kernel) (by decide +kernel))
      | (with_reducible refine Within.ite ?_ ?_)
      | (with_reducible refine Within.iteS ?_ ?_)
      | (intro _ _ _)
      | (refine Within.ite ?_ ?_)
      | split
      | dsimp only)

theorem execPrepTimeout_s (s : State) (t_ : State) (h : execPrepTimeout s = .next t_) : Within 0x140010000000000700000000000000000000000000000000000000000000000000000000000000000 0x300030 s.dev t_.dev := by
  unfold execPrepTimeout at h
  injection h with h
  subst h
  all_goals try dsimp only
  all_goals (
    repeat' first
      | (with_reducible exact Within.refl _)
      | (with_reducible assumption)
      | (with_reducible simp only [State.onDev_dev])
      | (with_reducible refine prepTimeout_w _ ?_ (by decide +kernel) (by decide +kernel))
      | (with_reducible refine Within.ite ?_ ?_)
      | (with_reducible refine Within.iteS ?_ ?_)
      | (intro _ _ _)
      | (refine Within.ite ?_ ?_)
      | split
      | dsimp only)

theorem execCommit_s (fl : Flit) (s : State) (t_ : State) (h : execCommit fl s = .next t_) : Within 0x1800C0E8008384B8212080214201000000000070801000000006030FF805E000080020C0008D00101E000108F01FE0418B045800 0x76FFF4 s.dev t_.dev := by
  unfold execCommit at h
  injection h with h
  subst h
  all_goals try dsimp only
  all_goals (
    repeat' first
      | (with_reducible exact Within.refl _)
      | (with_reducible assumption)
      | (with_reducible simp only [State.onDev_dev])
      | (with_reducible refine commitIn_s _ _ ?_ (by decide +kernel) (by decide +kernel))
      | (with_reducible refine Within.ite ?_ ?_)
      | (with_reducible refine Within.iteS ?_ ?_)
      | (intro _ _ _)
      | (refine Within.ite ?_ ?_)
      | split
      | dsimp only)

theorem execAbort_s (fl : Flit) (s : State) (t_ : State) (h : execAbort fl s = .next t_) : Within 0x140010000000000700000000000000000000000000000000000000000000000000000000000000000 0x300030 s.dev t_.dev := by
  unfold execAbort at h
  injection h with h
  subst h
  all_goals try dsimp only
  all_goals (
    repeat' first
      | (with_reducible exact Within.refl _)
      | (with_reducible assumption)
      | (with_reducible simp only [State.onDev_dev])
      | (with_reducible refine abortIn_w _ _ ?_ (by decide +kernel) (by decide +kernel))
      | (with_reducible refine Within.ite ?_ ?_)
      | (with_reducible refine Within.iteS ?_ ?_)
      | (intro _ _ _)
      | (refine Within.ite ?_ ?_)
      | split
      | dsimp only)

theorem execDone_s (fl : Flit) (s : State) (t_ : State) (h : execDone fl s = .next t_) : Within 0x140010000000000708000000000000000000000000000000000000000000000000000000000000000 0x300030 s.dev t_.dev := by
  unfold execDone at h
  injection h with h
  subst h
  all_goals try dsimp only
  all_goals (
    repeat' first
      | (with_reducible exact Within.refl _)
      | (with_reducible assumption)
      | (with_reducible simp only [State.onDev_dev])
      | (with_reducible refine doneRx_w _ _ ?_ (by decide +kernel) (by decide +kernel))
      | (with_reducible refine Within.ite ?_ ?_)
      | (with_reducible refine Within.iteS ?_ ?_)
      | (intro _ _ _)
      | (refine Within.ite ?_ ?_)
      | split
      | dsimp only)

theorem execCommitTimeout_s (s : State) (t_ : State) (h : execCommitTimeout s = .next t_) : Within 0x140010000000000708000000000000000000000000000000000000000000000000000000000000000 0x300030 s.dev t_.dev := by
  unfold execCommitTimeout at h
  injection h with h
  subst h
  all_goals try dsimp only
  all_goals (
    repeat' first
      | (with_reducible exact Within.refl _)
      | (with_reducible assumption)
      | (with_reducible simp only [State.onDev_dev])
      | (with_reducible refine commitTimeout_w _ ?_ (by decide +kernel) (by decide +kernel))
      | (with_reducible refine Within.ite ?_ ?_)
      | (with_reducible refine Within.iteS ?_ ?_)
      | (intro _ _ _)
      | (refine Within.ite ?_ ?_)
      | split
      | dsimp only)

theorem execGladeRelay_s (rx : Option Flit) (s : State) (t_ : State) (h : execGladeRelay rx s = .next t_) : Within 0x80B8010000000000000000000000000000000000000000000000000021C0008C0000000000001000004000040000 0x365BD0 s.dev t_.dev := by
  unfold execGladeRelay at h
  injection h with h
  subst h
  all_goals try dsimp only
  all_goals (
    repeat' first
      | (with_reducible exact Within.refl _)
      | (with_reducible assumption)
      | (with_reducible simp only [State.onDev_dev])
      | (with_reducible refine gladeSend_w _ ?_ (by decide +kernel) (by decide +kernel))
      | (with_reducible refine gladeTake_w _ _ ?_ (by decide +kernel) (by decide +kernel))
      | (with_reducible refine Within.ite ?_ ?_)
      | (with_reducible refine Within.iteS ?_ ?_)
      | (intro _ _ _)
      | (refine Within.ite ?_ ?_)
      | split
      | dsimp only)

theorem execToken_s (fl : Flit) (s : State) (t_ : State) (h : execToken fl s = .next t_) : Within 0 0x220000 s.dev t_.dev := by
  unfold execToken at h
  injection h with h
  subst h
  all_goals try dsimp only
  all_goals (
    repeat' first
      | (with_reducible exact Within.refl _)
      | (with_reducible assumption)
      | (with_reducible simp only [State.onDev_dev])
      | (with_reducible refine tokenFlit_w _ _ ?_ (by decide +kernel) (by decide +kernel))
      | (with_reducible refine Within.ite ?_ ?_)
      | (with_reducible refine Within.iteS ?_ ?_)
      | (intro _ _ _)
      | (refine Within.ite ?_ ?_)
      | split
      | dsimp only)

theorem execTokenWithdraw_s (s : State) (t_ : State) (h : execTokenWithdraw s = .next t_) : Within 0 0x200000 s.dev t_.dev := by
  unfold execTokenWithdraw at h
  injection h with h
  subst h
  all_goals try dsimp only
  all_goals (
    repeat' first
      | (with_reducible exact Within.refl _)
      | (with_reducible assumption)
      | (with_reducible simp only [State.onDev_dev])
      | (with_reducible refine tokenWithdraw_w _ ?_ (by decide +kernel) (by decide +kernel))
      | (with_reducible refine Within.ite ?_ ?_)
      | (with_reducible refine Within.iteS ?_ ?_)
      | (intro _ _ _)
      | (refine Within.ite ?_ ?_)
      | split
      | dsimp only)

theorem execSegmentReceive_s (sg : Segment) (reads : List BurstIn) (s : State) (t_ : State) (h : execSegmentReceive sg reads s = .next t_) : Within 0x1800080B8011FC02140010000000D1F00000000000000F000000000000000000000000000000000000000000000000000 0x3180F4 s.dev t_.dev := by
  unfold execSegmentReceive at h
  injection h with h
  subst h
  all_goals try dsimp only
  all_goals (
    repeat' first
      | (with_reducible exact Within.refl _)
      | (with_reducible assumption)
      | (with_reducible simp only [State.onDev_dev])
      | (with_reducible refine funcReads_s _ _ ?_ (by decide +kernel) (by decide +kernel))
      | (with_reducible refine Dev.segIn_w _ _ ?_ (by decide +kernel) (by decide +kernel))
      | (with_reducible refine Within.ite ?_ ?_)
      | (with_reducible refine Within.iteS ?_ ?_)
      | (intro _ _ _)
      | (refine Within.ite ?_ ?_)
      | split
      | dsimp only)

theorem execMergeWaitExpiry_s (reads : List BurstIn) (s : State) (t_ : State) (h : execMergeWaitExpiry reads s = .next t_) : Within 0x1800080B8011FC02140010000000D0100000000000000F000000000000000000000000000000000000000000000000000 0x3180F4 s.dev t_.dev := by
  unfold execMergeWaitExpiry at h
  injection h with h
  subst h
  all_goals try dsimp only
  all_goals (
    repeat' first
      | (with_reducible exact Within.refl _)
      | (with_reducible assumption)
      | (with_reducible simp only [State.onDev_dev])
      | (with_reducible refine funcReads_s _ _ ?_ (by decide +kernel) (by decide +kernel))
      | (with_reducible refine Dev.mergeAll_w _ ?_ (by decide +kernel) (by decide +kernel))
      | (with_reducible refine Within.ite ?_ ?_)
      | (with_reducible refine Within.iteS ?_ ?_)
      | (intro _ _ _)
      | (refine Within.ite ?_ ?_)
      | split
      | dsimp only)

theorem execAuthReceive_s (fl : Flit) (data : List Byte) (s : State) (t_ : State) (h : execAuthReceive fl data s = .next t_) : Within 0x1800C0E8008384B82120802142F9000000000070801000000006030FF805E000080020C0008D00101E000108F01FE0418B045800 0x76FFF4 s.dev t_.dev := by
  unfold execAuthReceive at h
  injection h with h
  subst h
  all_goals try dsimp only
  all_goals (
    repeat' first
      | (with_reducible exact Within.refl _)
      | (with_reducible assumption)
      | (with_reducible simp only [State.onDev_dev])
      | (with_reducible refine authIn_s _ _ _ ?_ (by decide +kernel) (by decide +kernel))
      | (with_reducible refine Within.ite ?_ ?_)
      | (with_reducible refine Within.iteS ?_ ?_)
      | (intro _ _ _)
      | (refine Within.ite ?_ ?_)
      | split
      | dsimp only)

theorem execRootResume_s (s : State) (t_ : State) (h : execRootResume s = .next t_) : Within 0x9E00000000000000000000000000000000000000000000000000000 0x300000 s.dev t_.dev := by
  unfold execRootResume at h
  injection h with h
  subst h
  all_goals try dsimp only
  all_goals (
    repeat' first
      | (with_reducible exact Within.refl _)
      | (with_reducible assumption)
      | (with_reducible simp only [State.onDev_dev])
      | (with_reducible refine rootResume_w _ ?_ (by decide +kernel) (by decide +kernel))
      | (with_reducible refine Within.ite ?_ ?_)
      | (with_reducible refine Within.iteS ?_ ?_)
      | (intro _ _ _)
      | (refine Within.ite ?_ ?_)
      | split
      | dsimp only)

theorem execDescriptorFetch_s (n : Fin 16) (bytes : List Byte) (s : State) (t_ : State) (h : execDescriptorFetch n bytes s = .next t_) : Within 0x80B8010080214001D040010000000000000000000000010000000000000000000000000003000000000000000000 0x8F2 s.dev t_.dev := by
  unfold execDescriptorFetch at h
  injection h with h
  subst h
  all_goals try dsimp only
  all_goals (
    repeat' first
      | (with_reducible exact Within.refl _)
      | (with_reducible assumption)
      | (with_reducible simp only [State.onDev_dev])
      | (with_reducible refine Dev.place_w _ _ ?_ (by decide +kernel) (by decide +kernel))
      | (with_reducible refine descFetch_w _ _ _ ?_ (by decide +kernel) (by decide +kernel))
      | (with_reducible refine Within.ite ?_ ?_)
      | (with_reducible refine Within.iteS ?_ ?_)
      | (intro _ _ _)
      | (refine Within.ite ?_ ?_)
      | split
      | dsimp only)

theorem execDmaCompletion_s (r : Nat) (cause : CplCause) (bytes : List Byte) (s : State) (t_ : State) (h : execDmaCompletion r cause bytes s = .next t_) : Within 0x80B80100000140015140090000000000000000000000000000000000000000000000000000000000000000000000 0xF2 s.dev t_.dev := by
  unfold execDmaCompletion at h
  injection h with h
  subst h
  all_goals try dsimp only
  all_goals (
    repeat' first
      | (with_reducible exact Within.refl _)
      | (with_reducible assumption)
      | (with_reducible simp only [State.onDev_dev])
      | (with_reducible refine dmaCompletion_w _ _ _ _ ?_ (by decide +kernel) (by decide +kernel))
      | (with_reducible refine Within.ite ?_ ?_)
      | (with_reducible refine Within.iteS ?_ ?_)
      | (intro _ _ _)
      | (refine Within.ite ?_ ?_)
      | split
      | dsimp only)

theorem execCompletionTimeout_s (r : Nat) (s : State) (t_ : State) (h : execCompletionTimeout r s = .next t_) : Within 0x80B80100000000001140000000000000000000000000000000000000000000000000000000000000000000000000 0xD2 s.dev t_.dev := by
  unfold execCompletionTimeout at h
  injection h with h
  subst h
  all_goals try dsimp only
  all_goals (
    repeat' first
      | (with_reducible exact Within.refl _)
      | (with_reducible assumption)
      | (with_reducible simp only [State.onDev_dev])
      | (with_reducible refine completionTimeout_w _ _ ?_ (by decide +kernel) (by decide +kernel))
      | (with_reducible refine Within.ite ?_ ?_)
      | (with_reducible refine Within.iteS ?_ ?_)
      | (intro _ _ _)
      | (refine Within.ite ?_ ?_)
      | split
      | dsimp only)

theorem execDmaReissue_s (r : Nat) (s : State) (t_ : State) (h : execDmaReissue r s = .next t_) : Within 0xC0000000000000000000000000000000000000000000000000000000000000000000000000 0x12 s.dev t_.dev := by
  unfold execDmaReissue at h
  injection h with h
  subst h
  all_goals try dsimp only
  all_goals (
    repeat' first
      | (with_reducible exact Within.refl _)
      | (with_reducible assumption)
      | (with_reducible simp only [State.onDev_dev])
      | (with_reducible refine dmaReissue_w _ _ ?_ (by decide +kernel) (by decide +kernel))
      | (with_reducible refine Within.ite ?_ ?_)
      | (with_reducible refine Within.iteS ?_ ?_)
      | (intro _ _ _)
      | (refine Within.ite ?_ ?_)
      | split
      | dsimp only)

theorem execRecordStaged_s (reads : List BurstIn) (s : State) (t_ : State) (h : execRecordStaged reads s = .next t_) : Within 0x80B8011FC02140019040010000000000000000000000010000000000000000000000000003000000000000000000 0x3008F2 s.dev t_.dev := by
  unfold execRecordStaged at h
  injection h with h
  subst h
  all_goals try dsimp only
  all_goals (
    repeat' first
      | (with_reducible exact Within.refl _)
      | (with_reducible assumption)
      | (with_reducible simp only [State.onDev_dev])
      | (with_reducible refine funcReads_s _ _ ?_ (by decide +kernel) (by decide +kernel))
      | (with_reducible refine recordOut_w _ ?_ (by decide +kernel) (by decide +kernel))
      | (with_reducible refine Within.ite ?_ ?_)
      | (with_reducible refine Within.iteS ?_ ?_)
      | (intro _ _ _)
      | (refine Within.ite ?_ ?_)
      | split
      | dsimp only)

theorem execBufferHoldExpiry_s (n : Fin 16) (s : State) (t_ : State) (h : execBufferHoldExpiry n s = .next t_) : Within 0x1000000000000000000000000000000000000000000000000000000000000000000000000000 0x10 s.dev t_.dev := by
  unfold execBufferHoldExpiry at h
  injection h with h
  subst h
  all_goals try dsimp only
  all_goals (
    repeat' first
      | (with_reducible exact Within.refl _)
      | (with_reducible assumption)
      | (with_reducible simp only [State.onDev_dev])
      | (with_reducible refine bufferHold_w _ _ ?_ (by decide +kernel) (by decide +kernel))
      | (with_reducible refine Within.ite ?_ ?_)
      | (with_reducible refine Within.iteS ?_ ?_)
      | (intro _ _ _)
      | (refine Within.ite ?_ ?_)
      | split
      | dsimp only)

theorem execBufferComplete_s (n : Fin 16) (s : State) (t_ : State) (h : execBufferComplete n s = .next t_) : Within 0x5040010000000000000000000000000000000000000000000000000000000000000000000000 0x12 s.dev t_.dev := by
  unfold execBufferComplete at h
  injection h with h
  subst h
  all_goals try dsimp only
  all_goals (
    repeat' first
      | (with_reducible exact Within.refl _)
      | (with_reducible assumption)
      | (with_reducible simp only [State.onDev_dev])
      | (with_reducible refine Dev.pump_w _ ?_ (by decide +kernel) (by decide +kernel))
      | (with_reducible refine Dev.bufComplete_w _ _ ?_ (by decide +kernel) (by decide +kernel))
      | (with_reducible refine Within.ite ?_ ?_)
      | (with_reducible refine Within.iteS ?_ ?_)
      | (intro _ _ _)
      | (refine Within.ite ?_ ?_)
      | split
      | dsimp only)

theorem execMsiXMessage_s (v : Fin 32) (s : State) (t_ : State) (h : execMsiXMessage v s = .next t_) : Within 0 0x12 s.dev t_.dev := by
  unfold execMsiXMessage at h
  injection h with h
  subst h
  all_goals try dsimp only
  all_goals (
    repeat' first
      | (with_reducible exact Within.refl _)
      | (with_reducible assumption)
      | (with_reducible simp only [State.onDev_dev])
      | (with_reducible refine Dev.sendMsg_w _ _ ?_ (by decide +kernel) (by decide +kernel))
      | (with_reducible refine Within.ite ?_ ?_)
      | (with_reducible refine Within.iteS ?_ ?_)
      | (intro _ _ _)
      | (refine Within.ite ?_ ?_)
      | split
      | dsimp only)

theorem execBusMasterChange_s (bme : Bool) (d3hot : Bool) (s : State) (t_ : State) (h : execBusMasterChange bme d3hot s = .next t_) : Within 0x80B8010080214001D040012000000000000000000000010000000000000000000000000003000000000000000000 0x8F2 s.dev t_.dev := by
  unfold execBusMasterChange at h
  injection h with h
  subst h
  all_goals try dsimp only
  all_goals (
    repeat' first
      | (with_reducible exact Within.refl _)
      | (with_reducible assumption)
      | (with_reducible simp only [State.onDev_dev])
      | (with_reducible refine busMaster_w _ _ _ ?_ (by decide +kernel) (by decide +kernel))
      | (with_reducible refine Within.ite ?_ ?_)
      | (with_reducible refine Within.iteS ?_ ?_)
      | (intro _ _ _)
      | (refine Within.ite ?_ ?_)
      | split
      | dsimp only)

theorem execLinkDown_s (flr : Bool) (s : State) (t_ : State) (h : execLinkDown flr s = .next t_) : Within 0x80B8010000014001B840132000000000000000000000010000000000000000000000000003000000000000000000 0x8F2 s.dev t_.dev := by
  unfold execLinkDown at h
  injection h with h
  subst h
  all_goals try dsimp only
  all_goals (
    repeat' first
      | (with_reducible exact Within.refl _)
      | (with_reducible assumption)
      | (with_reducible simp only [State.onDev_dev])
      | (with_reducible refine linkDown_w _ _ ?_ (by decide +kernel) (by decide +kernel))
      | (with_reducible refine Within.ite ?_ ?_)
      | (with_reducible refine Within.iteS ?_ ?_)
      | (intro _ _ _)
      | (refine Within.ite ?_ ?_)
      | split
      | dsimp only)

theorem execPerstN_s (low : Bool) (s : State) (t_ : State) (h : execPerstN low s = .next t_) : Within 0x80B8010000014001B840132000000000000000000000010000000000000000000000000003000000000000000008 0x18F2 s.dev t_.dev := by
  unfold execPerstN at h
  injection h with h
  subst h
  try unfold Dev.hostReset
  all_goals try dsimp only
  all_goals (
    repeat' first
      | (with_reducible exact Within.refl _)
      | (with_reducible assumption)
      | (with_reducible simp only [State.onDev_dev])
      | (with_reducible refine linkDown_w _ _ ?_ (by decide +kernel) (by decide +kernel))
      | (with_reducible refine Dev.hostReset_w _ _ ?_ (by decide +kernel) (by decide +kernel))
      | (with_reducible refine Within.putBitAt ?_ _ _ _ (by decide +kernel))
      | (with_reducible refine Within.putBit ?_ _ _ (by decide +kernel))
      | (with_reducible refine Within.onPwr ?_ _ (by decide +kernel))
      | (with_reducible refine Within.ite ?_ ?_)
      | (with_reducible refine Within.iteS ?_ ?_)
      | (intro _ _ _)
      | (refine Within.ite ?_ ?_)
      | split
      | dsimp only)

theorem execPtmDialog_s (valid : Bool) (tn : Nat) (mn : Nat) (s : State) (t_ : State) (h : execPtmDialog valid tn mn s = .next t_) : Within 0x80B8010000000000000F800000000000340000000000000000000000000000000000000000000000000000000000 0x1000D5 s.dev t_.dev := by
  unfold execPtmDialog at h
  injection h with h
  subst h
  all_goals try dsimp only
  all_goals (
    repeat' first
      | (with_reducible exact Within.refl _)
      | (with_reducible assumption)
      | (with_reducible simp only [State.onDev_dev])
      | (with_reducible refine ptmDialog_w _ _ _ _ ?_ (by decide +kernel) (by decide +kernel))
      | (with_reducible refine Within.ite ?_ ?_)
      | (with_reducible refine Within.iteS ?_ ?_)
      | (intro _ _ _)
      | (refine Within.ite ?_ ?_)
      | split
      | dsimp only)

theorem execFirmwareSound_s (s : State) (t_ : State) (h : execFirmwareSound s = .next t_) : Within 0x80B8210000014A010000000000000000000000000000000000000000000000000000000000000000000000000000 0xF0 s.dev t_.dev := by
  unfold execFirmwareSound at h
  injection h with h
  subst h
  all_goals try dsimp only
  all_goals (
    repeat' first
      | (with_reducible exact Within.refl _)
      | (with_reducible assumption)
      | (with_reducible simp only [State.onDev_dev])
      | (with_reducible refine firmwareSound_w _ _ ?_ (by decide +kernel) (by decide +kernel))
      | (with_reducible refine Within.ite ?_ ?_)
      | (with_reducible refine Within.iteS ?_ ?_)
      | (intro _ _ _)
      | (refine Within.ite ?_ ?_)
      | split
      | dsimp only)

theorem execFwTrialExpiry_s (s : State) (t_ : State) (h : execFwTrialExpiry s = .next t_) : Within 0x80B82100000152790000000000000000000000000000000000000000000000000000000000000000000000000800 0x10F0 s.dev t_.dev := by
  unfold execFwTrialExpiry at h
  injection h with h
  subst h
  all_goals try dsimp only
  all_goals (
    repeat' first
      | (with_reducible exact Within.refl _)
      | (with_reducible assumption)
      | (with_reducible simp only [State.onDev_dev])
      | (with_reducible refine fwExpiry_w _ ?_ (by decide +kernel) (by decide +kernel))
      | (with_reducible refine Within.ite ?_ ?_)
      | (with_reducible refine Within.iteS ?_ ?_)
      | (intro _ _ _)
      | (refine Within.ite ?_ ?_)
      | split
      | dsimp only)

theorem execKeepPageWriteDone_s (ok : Bool) (s : State) (t_ : State) (h : execKeepPageWriteDone ok s = .next t_) : Within 0x1000000080B80100000140050000000000000000000000000000000000000000000000000000000000000000000000000000 0x7004F0 s.dev t_.dev := by
  unfold execKeepPageWriteDone at h
  injection h with h
  subst h
  all_goals try dsimp only
  all_goals (
    repeat' first
      | (with_reducible exact Within.refl _)
      | (with_reducible assumption)
      | (with_reducible simp only [State.onDev_dev])
      | (with_reducible refine keepPageDone_s _ _ ?_ (by decide +kernel) (by decide +kernel))
      | (with_reducible refine Within.ite ?_ ?_)
      | (with_reducible refine Within.iteS ?_ ?_)
      | (intro _ _ _)
      | (refine Within.ite ?_ ?_)
      | split
      | dsimp only)

theorem execFlashWriteDone_s (ok : Bool) (s : State) (t_ : State) (h : execFlashWriteDone ok s = .next t_) : Within 0x80B801A0000146010000000000000000000000000000000000000000000000000000000000000000000000000840 0x30F0 s.dev t_.dev := by
  unfold execFlashWriteDone at h
  injection h with h
  subst h
  all_goals try dsimp only
  all_goals (
    repeat' first
      | (with_reducible exact Within.refl _)
      | (with_reducible assumption)
      | (with_reducible simp only [State.onDev_dev])
      | (with_reducible refine flashDone_s _ _ ?_ (by decide +kernel) (by decide +kernel))
      | (with_reducible refine Within.ite ?_ ?_)
      | (with_reducible refine Within.iteS ?_ ?_)
      | (intro _ _ _)
      | (refine Within.ite ?_ ?_)
      | split
      | dsimp only)

theorem execScrubSweep_s (found : List BurstIn) (s : State) (t_ : State) (h : execScrubSweep found s = .next t_) : Within 0x80B8011FC02940010000000000000000000000000000000000000000000000000000000000000000000000000000 0xF0 s.dev t_.dev := by
  unfold execScrubSweep at h
  injection h with h
  subst h
  all_goals try dsimp only
  all_goals (
    repeat' first
      | (with_reducible exact Within.refl _)
      | (with_reducible assumption)
      | (with_reducible simp only [State.onDev_dev])
      | (with_reducible refine scrubSweep_s _ _ ?_ (by decide +kernel) (by decide +kernel))
      | (with_reducible refine Within.ite ?_ ?_)
      | (with_reducible refine Within.iteS ?_ ?_)
      | (intro _ _ _)
      | (refine Within.ite ?_ ?_)
      | split
      | dsimp only)

theorem execScrubForcedCycle_s (found : BurstIn) (s : State) (t_ : State) (h : execScrubForcedCycle found s = .next t_) : Within 0x80B8011FC02140010000000000000000000000000000000000000000000000000000000000000000000000000000 0xF0 s.dev t_.dev := by
  unfold execScrubForcedCycle at h
  try dsimp only at h
  repeat' split at h
  all_goals (first | cases h | (injection h with h; subst h) | skip)
  all_goals try dsimp only
  all_goals (
    repeat' first
      | (with_reducible exact Within.refl _)
      | (with_reducible assumption)
      | (with_reducible simp only [State.onDev_dev])
      | (with_reducible refine readBurst_s _ _ _ _ ?_ (by decide +kernel) (by decide +kernel))
      | (with_reducible refine Within.ite ?_ ?_)
      | (with_reducible refine Within.iteS ?_ ?_)
      | (intro _ _ _)
      | (refine Within.ite ?_ ?_)
      | split
      | dsimp only)

theorem execTableWordReload_s (w : Nat) (s : State) (t_ : State) (h : execTableWordReload w s = .next t_) : Within 0 0x40 s.dev t_.dev := by
  unfold execTableWordReload at h
  injection h with h
  subst h
  all_goals try dsimp only
  all_goals (
    repeat' first
      | (with_reducible exact Within.refl _)
      | (with_reducible assumption)
      | (with_reducible simp only [State.onDev_dev])
      | (with_reducible refine tableWordReload_s _ _ ?_ (by decide +kernel) (by decide +kernel))
      | (with_reducible refine Within.ite ?_ ?_)
      | (with_reducible refine Within.iteS ?_ ?_)
      | (intro _ _ _)
      | (refine Within.ite ?_ ?_)
      | split
      | dsimp only)

theorem execHealthTestComplete_s (ss : Fin 16) (elem : Nat) (pass : Bool) (s : State) (t_ : State) (h : execHealthTestComplete ss elem pass s = .next t_) : Within 0x3F8B821A0200940010000000000000010000000000000000000000000000000000000000000080040004000000000 0x100BF4 s.dev t_.dev := by
  unfold execHealthTestComplete at h
  injection h with h
  subst h
  all_goals try dsimp only
  all_goals (
    repeat' first
      | (with_reducible exact Within.refl _)
      | (with_reducible assumption)
      | (with_reducible simp only [State.onDev_dev])
      | (with_reducible refine testComplete_w _ _ _ _ ?_ (by decide +kernel) (by decide +kernel))
      | (with_reducible refine Within.ite ?_ ?_)
      | (with_reducible refine Within.iteS ?_ ?_)
      | (intro _ _ _)
      | (refine Within.ite ?_ ?_)
      | split
      | dsimp only)

theorem execTestNotPossible_s (ss : Fin 16) (elem : Nat) (s : State) (t_ : State) (h : execTestNotPossible ss elem s = .next t_) : Within 0x300B80100000140010000000000000010000000000000000000000000000000000000000000000000000000000000 0xF0 s.dev t_.dev := by
  unfold execTestNotPossible at h
  injection h with h
  subst h
  all_goals try dsimp only
  all_goals (
    repeat' first
      | (with_reducible exact Within.refl _)
      | (with_reducible assumption)
      | (with_reducible simp only [State.onDev_dev])
      | (with_reducible refine testNotPossible_w _ _ _ ?_ (by decide +kernel) (by decide +kernel))
      | (with_reducible refine Within.ite ?_ ?_)
      | (with_reducible refine Within.iteS ?_ ?_)
      | (intro _ _ _)
      | (refine Within.ite ?_ ?_)
      | split
      | dsimp only)

theorem execRestoreRetest_s (ss : Fin 16) (elem : Nat) (pass : Bool) (s : State) (t_ : State) (h : execRestoreRetest ss elem pass s = .next t_) : Within 0x8B80100200000000000000000000000000000000000000000000000000000000000000000000000000000000000 0x1000D0 s.dev t_.dev := by
  unfold execRestoreRetest at h
  injection h with h
  subst h
  all_goals try dsimp only
  all_goals (
    repeat' first
      | (with_reducible exact Within.refl _)
      | (with_reducible assumption)
      | (with_reducible simp only [State.onDev_dev])
      | (with_reducible refine restoreRetest_w _ _ _ _ ?_ (by decide +kernel) (by decide +kernel))
      | (with_reducible refine Within.ite ?_ ?_)
      | (with_reducible refine Within.iteS ?_ ?_)
      | (intro _ _ _)
      | (refine Within.ite ?_ ?_)
      | split
      | dsimp only)

theorem execRingCountRead_s (dfs : List Int) (mons : List (Int × Int × Int)) (s : State) (t_ : State) (h : execRingCountRead dfs mons s = .next t_) : Within 0x3800000000000000000000000000000000000000000000000000000000000000000000000000000000000000000000 0x84 s.dev t_.dev := by
  unfold execRingCountRead at h
  injection h with h
  subst h
  all_goals try dsimp only
  all_goals (
    repeat' first
      | (with_reducible exact Within.refl _)
      | (with_reducible assumption)
      | (with_reducible simp only [State.onDev_dev])
      | (with_reducible refine ringCountRead_w _ _ _ ?_ (by decide +kernel) (by decide +kernel))
      | (with_reducible refine Within.ite ?_ ?_)
      | (with_reducible refine Within.iteS ?_ ?_)
      | (intro _ _ _)
      | (refine Within.ite ?_ ?_)
      | split
      | dsimp only)

theorem execMarginPlanDue_s (s : State) (t_ : State) (h : execMarginPlanDue s = .next t_) : Within 0x8000000000000000000000000000000000000000000000000000000000000000000000000000000000000000000000 0x80 s.dev t_.dev := by
  unfold execMarginPlanDue at h
  injection h with h
  subst h
  all_goals try dsimp only
  all_goals (
    repeat' first
      | (with_reducible exact Within.refl _)
      | (with_reducible assumption)
      | (with_reducible simp only [State.onDev_dev])
      | (with_reducible refine marginPlanDue_w _ ?_ (by decide +kernel) (by decide +kernel))
      | (with_reducible refine Within.ite ?_ ?_)
      | (with_reducible refine Within.iteS ?_ ?_)
      | (intro _ _ _)
      | (refine Within.ite ?_ ?_)
      | split
      | dsimp only)

theorem execMarginPlan_s (mp : PlanIn) (s : State) (t_ : State) (h : execMarginPlan mp s = .next t_) : Within 0x67B800B80100000140010000000000000000000000000000000000000000000000180000000000000000000000000000 0x200F4 s.dev t_.dev := by
  unfold execMarginPlan at h
  injection h with h
  subst h
  all_goals try dsimp only
  all_goals (
    repeat' first
      | (with_reducible exact Within.refl _)
      | (with_reducible assumption)
      | (with_reducible simp only [State.onDev_dev])
      | (with_reducible refine marginPlan_w _ _ _ ?_ (by decide +kernel) (by decide +kernel))
      | (with_reducible refine Within.ite ?_ ?_)
      | (with_reducible refine Within.iteS ?_ ?_)
      | (intro _ _ _)
      | (refine Within.ite ?_ ?_)
      | split
      | dsimp only)

theorem execMarginPlanGladeTimeout_s (s : State) (t_ : State) (h : execMarginPlanGladeTimeout s = .next t_) : Within 0x8000000000000000000000000000000000000000000000000000000000000000000000000000000000000000000000 0x80 s.dev t_.dev := by
  unfold execMarginPlanGladeTimeout at h
  injection h with h
  subst h
  all_goals try dsimp only
  all_goals (
    repeat' first
      | (with_reducible exact Within.refl _)
      | (with_reducible assumption)
      | (with_reducible simp only [State.onDev_dev])
      | (with_reducible refine planGladeTimeout_w _ ?_ (by decide +kernel) (by decide +kernel))
      | (with_reducible refine Within.ite ?_ ?_)
      | (with_reducible refine Within.iteS ?_ ?_)
      | (intro _ _ _)
      | (refine Within.ite ?_ ?_)
      | split
      | dsimp only)

theorem execDrainEnd_s (i : Fin 112) (s : State) (t_ : State) (h : execDrainEnd i s = .next t_) : Within 0 0x1000 s.dev t_.dev := by
  unfold execDrainEnd at h
  injection h with h
  subst h
  all_goals try dsimp only
  all_goals (
    repeat' first
      | (with_reducible exact Within.refl _)
      | (with_reducible assumption)
      | (with_reducible simp only [State.onDev_dev])
      | (with_reducible refine Dev.putDrain_w _ _ _ ?_ (by decide +kernel) (by decide +kernel))
      | (with_reducible refine Within.ite ?_ ?_)
      | (with_reducible refine Within.iteS ?_ ?_)
      | (intro _ _ _)
      | (refine Within.ite ?_ ?_)
      | split
      | dsimp only)

theorem execDrainLimitExpiry_s (i : Fin 112) (left : Nat) (s : State) (t_ : State) (h : execDrainLimitExpiry i left s = .next t_) : Within 0x80B80100000000000000000000000000000000000000000000000000000000000000000000000000000000008000 0x10D0 s.dev t_.dev := by
  unfold execDrainLimitExpiry at h
  injection h with h
  subst h
  all_goals try dsimp only
  all_goals (
    repeat' first
      | (with_reducible exact Within.refl _)
      | (with_reducible assumption)
      | (with_reducible simp only [State.onDev_dev])
      | (with_reducible refine drainLimit_w _ _ _ ?_ (by decide +kernel) (by decide +kernel))
      | (with_reducible refine Within.ite ?_ ?_)
      | (with_reducible refine Within.iteS ?_ ?_)
      | (intro _ _ _)
      | (refine Within.ite ?_ ?_)
      | split
      | dsimp only)

theorem execDomainOff_s (i : Fin 112) (s : State) (t_ : State) (h : execDomainOff i s = .next t_) : Within 0x8000080B80100000140010000000000000000000409E00000000000000000000000000000000003000000000002005800 0x301DF0 s.dev t_.dev := by
  unfold execDomainOff at h
  injection h with h
  subst h
  all_goals try dsimp only
  all_goals (
    repeat' first
      | (with_reducible exact Within.refl _)
      | (with_reducible assumption)
      | (with_reducible simp only [State.onDev_dev])
      | (with_reducible refine domainOff_w _ _ ?_ (by decide +kernel) (by decide +kernel))
      | (with_reducible refine Within.ite ?_ ?_)
      | (with_reducible refine Within.iteS ?_ ?_)
      | (intro _ _ _)
      | (refine Within.ite ?_ ?_)
      | split
      | dsimp only)

theorem execDomainUsable_s (i : Fin 112) (s : State) (t_ : State) (h : execDomainUsable i s = .next t_) : Within 0x8000000000000000140010000000000000000000000000000000000000000000000000000000000000000000002000000 0x1530 s.dev t_.dev := by
  unfold execDomainUsable at h
  injection h with h
  subst h
  all_goals try dsimp only
  all_goals (
    repeat' first
      | (with_reducible exact Within.refl _)
      | (with_reducible assumption)
      | (with_reducible simp only [State.onDev_dev])
      | (with_reducible refine domainUsable_w _ _ ?_ (by decide +kernel) (by decide +kernel))
      | (with_reducible refine Within.ite ?_ ?_)
      | (with_reducible refine Within.iteS ?_ ?_)
      | (intro _ _ _)
      | (refine Within.ite ?_ ?_)
      | split
      | dsimp only)

theorem execOnDemandIdle_s (i : Fin 112) (s : State) (t_ : State) (h : execOnDemandIdle i s = .next t_) : Within 0x800 0x1000 s.dev t_.dev := by
  unfold execOnDemandIdle at h
  injection h with h
  subst h
  all_goals try dsimp only
  all_goals (
    repeat' first
      | (with_reducible exact Within.refl _)
      | (with_reducible assumption)
      | (with_reducible simp only [State.onDev_dev])
      | (with_reducible refine onDemandIdle_w _ _ ?_ (by decide +kernel) (by decide +kernel))
      | (with_reducible refine Within.ite ?_ ?_)
      | (with_reducible refine Within.iteS ?_ ?_)
      | (intro _ _ _)
      | (refine Within.ite ?_ ?_)
      | split
      | dsimp only)

theorem execBallastSample_s (pIn : Nat) (pFpa : Nat) (pHeater : Nat) (pBal : Nat) (s : State) (t_ : State) (h : execBallastSample pIn pFpa pHeater pBal s = .next t_) : Within 0x7C0000 0x1000 s.dev t_.dev := by
  unfold execBallastSample at h
  injection h with h
  subst h
  all_goals try dsimp only
  all_goals (
    repeat' first
      | (with_reducible exact Within.refl _)
      | (with_reducible assumption)
      | (with_reducible simp only [State.onDev_dev])
      | (with_reducible refine ballastSample_w _ _ _ _ _ ?_ (by decide +kernel) (by decide +kernel))
      | (with_reducible refine Within.ite ?_ ?_)
      | (with_reducible refine Within.iteS ?_ ?_)
      | (intro _ _ _)
      | (refine Within.ite ?_ ?_)
      | split
      | dsimp only)

theorem execBallastSat_s (s : State) (t_ : State) (h : execBallastSat s = .next t_) : Within 0x80B80100000000000000000000000000000000000000000000000000000000000000000000000000000000050000 0x10D0 s.dev t_.dev := by
  unfold execBallastSat at h
  injection h with h
  subst h
  all_goals try dsimp only
  all_goals (
    repeat' first
      | (with_reducible exact Within.refl _)
      | (with_reducible assumption)
      | (with_reducible simp only [State.onDev_dev])
      | (with_reducible refine ballastSat_w _ ?_ (by decide +kernel) (by decide +kernel))
      | (with_reducible refine Within.ite ?_ ?_)
      | (with_reducible refine Within.iteS ?_ ?_)
      | (intro _ _ _)
      | (refine Within.ite ?_ ?_)
      | split
      | dsimp only)

theorem execSatWindowExpiry_s (s : State) (t_ : State) (h : execSatWindowExpiry s = .next t_) : Within 0x40000 0x1000 s.dev t_.dev := by
  unfold execSatWindowExpiry at h
  injection h with h
  subst h
  all_goals try dsimp only
  all_goals (
    repeat' first
      | (with_reducible exact Within.refl _)
      | (with_reducible assumption)
      | (with_reducible simp only [State.onDev_dev])
      | (with_reducible refine satWindow_w _ ?_ (by decide +kernel) (by decide +kernel))
      | (with_reducible refine Within.ite ?_ ?_)
      | (with_reducible refine Within.iteS ?_ ?_)
      | (intro _ _ _)
      | (refine Within.ite ?_ ?_)
      | split
      | dsimp only)

theorem execRefclkLost_s (s : State) (t_ : State) (h : execRefclkLost s = .next t_) : Within 0x80B80100000000000000000000000000000000000000000000000000000000000000000000000000000000000180 0x10D0 s.dev t_.dev := by
  unfold execRefclkLost at h
  injection h with h
  subst h
  all_goals try dsimp only
  all_goals (
    repeat' first
      | (with_reducible exact Within.refl _)
      | (with_reducible assumption)
      | (with_reducible simp only [State.onDev_dev])
      | (with_reducible refine refclkLost_w _ ?_ (by decide +kernel) (by decide +kernel))
      | (with_reducible refine Within.ite ?_ ?_)
      | (with_reducible refine Within.iteS ?_ ?_)
      | (intro _ _ _)
      | (refine Within.ite ?_ ?_)
      | split
      | dsimp only)

theorem execHoldoverExpiry_s (s : State) (t_ : State) (h : execHoldoverExpiry s = .next t_) : Within 0x80B80100000140010000000000000000000409E00000000000000000000000000000000003000000000000000080 0x3009F0 s.dev t_.dev := by
  unfold execHoldoverExpiry at h
  injection h with h
  subst h
  all_goals try dsimp only
  all_goals (
    repeat' first
      | (with_reducible exact Within.refl _)
      | (with_reducible assumption)
      | (with_reducible simp only [State.onDev_dev])
      | (with_reducible refine holdoverExpiry_w _ ?_ (by decide +kernel) (by decide +kernel))
      | (with_reducible refine Within.ite ?_ ?_)
      | (with_reducible refine Within.iteS ?_ ?_)
      | (intro _ _ _)
      | (refine Within.ite ?_ ?_)
      | split
      | dsimp only)

theorem execRefclkReturn_s (s : State) (t_ : State) (h : execRefclkReturn s = .next t_) : Within 0x280 0x1000 s.dev t_.dev := by
  unfold execRefclkReturn at h
  injection h with h
  subst h
  all_goals try dsimp only
  all_goals (
    repeat' first
      | (with_reducible exact Within.refl _)
      | (with_reducible assumption)
      | (with_reducible simp only [State.onDev_dev])
      | (with_reducible refine refclkReturn_w _ ?_ (by decide +kernel) (by decide +kernel))
      | (with_reducible refine Within.ite ?_ ?_)
      | (with_reducible refine Within.iteS ?_ ?_)
      | (intro _ _ _)
      | (refine Within.ite ?_ ?_)
      | split
      | dsimp only)

theorem execVioLow_s (bank : Bool) (s : State) (t_ : State) (h : execVioLow bank s = .next t_) : Within 0x80B80100000000000000000000000000000000000000000000000000000000000000000000000000000000000000 0x10D0 s.dev t_.dev := by
  unfold execVioLow at h
  injection h with h
  subst h
  all_goals try dsimp only
  all_goals (
    repeat' first
      | (with_reducible exact Within.refl _)
      | (with_reducible assumption)
      | ((try lift_lets); intro x_; first
        | (refine (fun (hx_ : Within 0x80B80100000000000000000000000000000000000000000000000000000000000000000000000000000000000000 0x10D0 s.dev x_) => ?rest) ?val; (case' rest => clear_value x_); (case' val => subst x_))
        | (refine (fun (hx_ : Within 0x80B80100000000000000000000000000000000000000000000000000000000000000000000000000000000000000 0x10D0 s.dev x_.dev) => ?rest) ?val; (case' rest => clear_value x_); (case' val => subst x_))
        | (have _t := fun y_ => x_ y_; clear _t; subst x_)
        | (have _t : Dev := x_.1; clear _t; subst x_)
        | (have _t : Dev := x_.2; clear _t; subst x_)
        | (have _t := fun y_ => x_ y_; clear _t; subst x_)
        | (have _t : State := x_.1; clear _t; subst x_)
        | (have _t : State := x_.2; clear _t; subst x_)
        | clear_value x_)
      | (with_reducible simp only [State.onDev_dev])
      | (with_reducible refine Dev.event_w _ _ _ ?_ (by decide +kernel) (by decide +kernel))
      | (with_reducible refine Within.onPwr ?_ _ (by decide +kernel))
      | (with_reducible refine Within.ite ?_ ?_)
      | (with_reducible refine Within.iteS ?_ ?_)
      | (intro _ _ _)
      | (refine Within.ite ?_ ?_)
      | split
      | dsimp only)

theorem execPllLock_s (s : State) (t_ : State) (h : execPllLock s = .next t_) : Within 0x10A000080 0x1100 s.dev t_.dev := by
  unfold execPllLock at h
  injection h with h
  subst h
  all_goals try dsimp only
  all_goals (
    repeat' first
      | (with_reducible exact Within.refl _)
      | (with_reducible assumption)
      | (with_reducible simp only [State.onDev_dev])
      | (with_reducible refine pllLock_w _ ?_ (by decide +kernel) (by decide +kernel))
      | (with_reducible refine Within.ite ?_ ?_)
      | (with_reducible refine Within.iteS ?_ ?_)
      | (intro _ _ _)
      | (refine Within.ite ?_ ?_)
      | split
      | dsimp only)

theorem execAuxRound_s (s : State) (t_ : State) (h : execAuxRound s = .next t_) : Within 0x640000000000000000140010000000000000000000000000000000000000000000000000000000000000000000000000000 0x430 s.dev t_.dev := by
  unfold execAuxRound at h
  injection h with h
  subst h
  all_goals try dsimp only
  all_goals (
    repeat' first
      | (with_reducible exact Within.refl _)
      | (with_reducible assumption)
      | (with_reducible simp only [State.onDev_dev])
      | (with_reducible refine auxRound_w _ ?_ (by decide +kernel) (by decide +kernel))
      | (with_reducible refine Within.ite ?_ ?_)
      | (with_reducible refine Within.iteS ?_ ?_)
      | (intro _ _ _)
      | (refine Within.ite ?_ ?_)
      | split
      | dsimp only)

theorem execAuxEntryResult_s (n : Fin 16) (sum : Nat) (s : State) (t_ : State) (h : execAuxEntryResult n sum s = .next t_) : Within 0x30508000080B80100000000000000000000000000000000000000000000000000A000008400000000000010000C0000200000 0x324FD0 s.dev t_.dev := by
  unfold execAuxEntryResult at h
  injection h with h
  subst h
  all_goals try dsimp only
  all_goals (
    repeat' first
      | (with_reducible exact Within.refl _)
      | (with_reducible assumption)
      | (with_reducible simp only [State.onDev_dev])
      | (with_reducible refine auxResult_w _ _ _ ?_ (by decide +kernel) (by decide +kernel))
      | (with_reducible refine Within.ite ?_ ?_)
      | (with_reducible refine Within.iteS ?_ ?_)
      | (intro _ _ _)
      | (refine Within.ite ?_ ?_)
      | split
      | dsimp only)

theorem execAuxCalMeasurementDone_s (sum : Nat) (s : State) (t_ : State) (h : execAuxCalMeasurementDone sum s = .next t_) : Within 0x8000000000100000140010000000000000000000000000000000000000000000000000000000000000000000000000000 0x470 s.dev t_.dev := by
  unfold execAuxCalMeasurementDone at h
  injection h with h
  subst h
  all_goals try dsimp only
  all_goals (
    repeat' first
      | (with_reducible exact Within.refl _)
      | (with_reducible assumption)
      | (with_reducible simp only [State.onDev_dev])
      | (with_reducible refine measDone_w _ _ ?_ (by decide +kernel) (by decide +kernel))
      | (with_reducible refine Within.ite ?_ ?_)
      | (with_reducible refine Within.iteS ?_ ?_)
      | (intro _ _ _)
      | (refine Within.ite ?_ ?_)
      | split
      | dsimp only)

theorem execRefSettled_s (valid : Bool) (s : State) (t_ : State) (h : execRefSettled valid s = .next t_) : Within 0x8000000000000000000000000000000000000000000000000000000000000000000000000000000000000000000000000 0x400 s.dev t_.dev := by
  unfold execRefSettled at h
  injection h with h
  subst h
  all_goals try dsimp only
  all_goals (
    repeat' first
      | (with_reducible exact Within.refl _)
      | (with_reducible assumption)
      | (with_reducible simp only [State.onDev_dev])
      | (with_reducible refine refSettled_w _ _ ?_ (by decide +kernel) (by decide +kernel))
      | (with_reducible refine Within.ite ?_ ?_)
      | (with_reducible refine Within.iteS ?_ ?_)
      | (intro _ _ _)
      | (refine Within.ite ?_ ?_)
      | split
      | dsimp only)

theorem execAuxRecordClose_s (s : State) (t_ : State) (h : execAuxRecordClose s = .next t_) : Within 0 0x410 s.dev t_.dev := by
  unfold execAuxRecordClose at h
  injection h with h
  subst h
  all_goals try dsimp only
  all_goals (
    repeat' first
      | (with_reducible exact Within.refl _)
      | (with_reducible assumption)
      | (with_reducible simp only [State.onDev_dev])
      | (with_reducible refine auxRecordClose_w _ ?_ (by decide +kernel) (by decide +kernel))
      | (with_reducible refine Within.ite ?_ ?_)
      | (with_reducible refine Within.iteS ?_ ?_)
      | (intro _ _ _)
      | (refine Within.ite ?_ ?_)
      | split
      | dsimp only)

theorem execTimeInEdge_s (s : State) (t_ : State) (h : execTimeInEdge s = .next t_) : Within 0x7C0800000000080B80100000000000000000000000000340000000000000000000000000000000000000000000000000000000000 0x9000D5 s.dev t_.dev := by
  unfold execTimeInEdge at h
  injection h with h
  subst h
  all_goals try dsimp only
  all_goals (
    repeat' first
      | (with_reducible exact Within.refl _)
      | (with_reducible assumption)
      | (with_reducible simp only [State.onDev_dev])
      | (with_reducible refine timeInEdge_w _ ?_ (by decide +kernel) (by decide +kernel))
      | (with_reducible refine Within.ite ?_ ?_)
      | (with_reducible refine Within.iteS ?_ ?_)
      | (intro _ _ _)
      | (refine Within.ite ?_ ?_)
      | split
      | dsimp only)

theorem execTimeInHoldover_s (s : State) (t_ : State) (h : execTimeInHoldover s = .next t_) : Within 0x40000000000000000000000000000000000000000000000000000000000000000000000000000000000000000000000000000000 0x800000 s.dev t_.dev := by
  unfold execTimeInHoldover at h
  injection h with h
  subst h
  all_goals try dsimp only
  all_goals (
    repeat' first
      | (with_reducible exact Within.refl _)
      | (with_reducible assumption)
      | (with_reducible simp only [State.onDev_dev])
      | (with_reducible refine timeInHoldover_w _ ?_ (by decide +kernel) (by decide +kernel))
      | (with_reducible refine Within.ite ?_ ?_)
      | (with_reducible refine Within.iteS ?_ ?_)
      | (intro _ _ _)
      | (refine Within.ite ?_ ?_)
      | split
      | dsimp only)

theorem execTimerCompare_s (n : Fin 8) (s : State) (t_ : State) (h : execTimerCompare n s = .next t_) : Within 0x5000000000000000000000000000000000000000000000000000000000000000000000000000000000000000000000000000000000 0x800000 s.dev t_.dev := by
  unfold execTimerCompare at h
  injection h with h
  subst h
  all_goals try dsimp only
  all_goals (
    repeat' first
      | (with_reducible exact Within.refl _)
      | (with_reducible assumption)
      | (with_reducible simp only [State.onDev_dev])
      | (with_reducible refine tmrCompare_w _ _ ?_ (by decide +kernel) (by decide +kernel))
      | (with_reducible refine Within.ite ?_ ?_)
      | (with_reducible refine Within.iteS ?_ ?_)
      | (intro _ _ _)
      | (refine Within.ite ?_ ?_)
      | split
      | dsimp only)

theorem execTimerCapture_s (n : Fin 8) (s : State) (t_ : State) (h : execTimerCapture n s = .next t_) : Within 0x8000000000000000000000000000000000000000000000000000000000000000000000000000000000000000000000000000000000 0x800000 s.dev t_.dev := by
  unfold execTimerCapture at h
  injection h with h
  subst h
  all_goals try dsimp only
  all_goals (
    repeat' first
      | (with_reducible exact Within.refl _)
      | (with_reducible assumption)
      | (with_reducible simp only [State.onDev_dev])
      | (with_reducible refine tmrCapture_w _ _ ?_ (by decide +kernel) (by decide +kernel))
      | (with_reducible refine Within.ite ?_ ?_)
      | (with_reducible refine Within.iteS ?_ ?_)
      | (intro _ _ _)
      | (refine Within.ite ?_ ?_)
      | split
      | dsimp only)

theorem execShutPosChange_s (which : Bool) (level : Bool) (s : State) (t_ : State) (h : execShutPosChange which level s = .next t_) : Within 0x800000000000000000000000000000000000000000000000000000000000000000000000800000000000000000000000000000 0x20000 s.dev t_.dev := by
  unfold execShutPosChange at h
  injection h with h
  subst h
  all_goals try dsimp only
  all_goals (
    repeat' first
      | (with_reducible exact Within.refl _)
      | (with_reducible assumption)
      | (with_reducible simp only [State.onDev_dev])
      | (with_reducible refine posChange_w _ _ _ ?_ (by decide +kernel) (by decide +kernel))
      | (with_reducible refine Within.ite ?_ ?_)
      | (with_reducible refine Within.iteS ?_ ?_)
      | (intro _ _ _)
      | (refine Within.ite ?_ ?_)
      | split
      | dsimp only)

theorem execDeclaredWindowBegin_s (s : State) (t_ : State) (h : execDeclaredWindowBegin s = .next t_) : Within 0x80B8010000000000000000000000000000000000000000000000000020C0008C0000000000001000004000040000 0x65BD0 s.dev t_.dev := by
  unfold execDeclaredWindowBegin at h
  injection h with h
  subst h
  all_goals try dsimp only
  all_goals (
    repeat' first
      | (with_reducible exact Within.refl _)
      | (with_reducible assumption)
      | (with_reducible simp only [State.onDev_dev])
      | (with_reducible refine declaredEval_w _ ?_ (by decide +kernel) (by decide +kernel))
      | (with_reducible refine Within.ite ?_ ?_)
      | (with_reducible refine Within.iteS ?_ ?_)
      | (intro _ _ _)
      | (refine Within.ite ?_ ?_)
      | split
      | dsimp only)

theorem execEncFailsafeEnd_s (s : State) (t_ : State) (h : execEncFailsafeEnd s = .next t_) : Within 0x800000000000000000000000000000000000000 0x4000 s.dev t_.dev := by
  unfold execEncFailsafeEnd at h
  injection h with h
  subst h
  all_goals try dsimp only
  all_goals (
    repeat' first
      | (with_reducible exact Within.refl _)
      | (with_reducible assumption)
      | (with_reducible simp only [State.onDev_dev])
      | (with_reducible refine Within.putBitAt ?_ _ _ _ (by decide +kernel))
      | (with_reducible refine Within.putBit ?_ _ _ (by decide +kernel))
      | (with_reducible refine Within.onWeb ?_ _ (by decide +kernel))
      | (with_reducible refine Within.ite ?_ ?_)
      | (with_reducible refine Within.iteS ?_ ?_)
      | (intro _ _ _)
      | (refine Within.ite ?_ ?_)
      | split
      | dsimp only)

theorem execPtmHoldover_s (s : State) (t_ : State) (h : execPtmHoldover s = .next t_) : Within 0x800000000000000000000000000000000000000000000000000000000000000000000000 0x10 s.dev t_.dev := by
  unfold execPtmHoldover at h
  injection h with h
  subst h
  all_goals try dsimp only
  all_goals (
    repeat' first
      | (with_reducible exact Within.refl _)
      | (with_reducible assumption)
      | (with_reducible simp only [State.onDev_dev])
      | (with_reducible refine ptmHoldover_w _ ?_ (by decide +kernel) (by decide +kernel))
      | (with_reducible refine Within.ite ?_ ?_)
      | (with_reducible refine Within.iteS ?_ ?_)
      | (intro _ _ _)
      | (refine Within.ite ?_ ?_)
      | split
      | dsimp only)

theorem execSegmentHoldLimit_s (s : State) (t_ : State) (h : execSegmentHoldLimit s = .next t_) : Within 0x10000000000000000000000000000000000000000000000000000000000000 0 s.dev t_.dev := by
  unfold execSegmentHoldLimit at h
  injection h with h
  subst h
  all_goals try dsimp only
  all_goals (
    repeat' first
      | (with_reducible exact Within.refl _)
      | (with_reducible assumption)
      | (with_reducible simp only [State.onDev_dev])
      | (with_reducible refine segmentHoldLimit_w _ ?_ (by decide +kernel) (by decide +kernel))
      | (with_reducible refine Within.ite ?_ ?_)
      | (with_reducible refine Within.iteS ?_ ?_)
      | (intro _ _ _)
      | (refine Within.ite ?_ ?_)
      | split
      | dsimp only)

theorem execPcieLinkUp_s (speed : Fin 6) (width : Fin 5) (s : State) (t_ : State) (h : execPcieLinkUp speed width s = .next t_) : Within 0x2000000000000000100000000000000000000000000000000000000000000000000000 0x100000 s.dev t_.dev := by
  unfold execPcieLinkUp at h
  injection h with h
  subst h
  all_goals try dsimp only
  all_goals (
    repeat' first
      | (with_reducible exact Within.refl _)
      | (with_reducible assumption)
      | ((try lift_lets); intro x_; first
        | (refine (fun (hx_ : Within 0x2000000000000000100000000000000000000000000000000000000000000000000000 0x100000 s.dev x_) => ?rest) ?val; (case' rest => clear_value x_); (case' val => subst x_))
        | (refine (fun (hx_ : Within 0x2000000000000000100000000000000000000000000000000000000000000000000000 0x100000 s.dev x_.dev) => ?rest) ?val; (case' rest => clear_value x_); (case' val => subst x_))
        | (have _t := fun y_ => x_ y_; clear _t; subst x_)
        | (have _t : Dev := x_.1; clear _t; subst x_)
        | (have _t : Dev := x_.2; clear _t; subst x_)
        | (have _t := fun y_ => x_ y_; clear _t; subst x_)
        | (have _t : State := x_.1; clear _t; subst x_)
        | (have _t : State := x_.2; clear _t; subst x_)
        | clear_value x_)
      | (with_reducible simp only [State.onDev_dev])
      | (with_reducible refine Within.putBitAt ?_ _ _ _ (by decide +kernel))
      | (with_reducible refine Within.putBit ?_ _ _ (by decide +kernel))
      | (with_reducible refine Within.putAt ?_ _ _ _ (by decide +kernel))
      | (with_reducible refine Within.put ?_ _ _ (by decide +kernel))
      | (with_reducible refine Within.onLink ?_ _ (by decide +kernel))
      | (with_reducible refine Within.ite ?_ ?_)
      | (with_reducible refine Within.iteS ?_ ?_)
      | (intro _ _ _)
      | (refine Within.ite ?_ ?_)
      | split
      | dsimp only)

theorem execPcieRetrain_s (enter : Bool) (speed : Fin 6) (width : Fin 5) (s : State) (t_ : State) (h : execPcieRetrain enter speed width s = .next t_) : Within 0x40042000000000000000000000000000000000000000000000000000000000000000000000 0x12 s.dev t_.dev := by
  unfold execPcieRetrain at h
  injection h with h
  subst h
  all_goals try dsimp only
  all_goals (
    repeat' first
      | (with_reducible exact Within.refl _)
      | (with_reducible assumption)
      | (with_reducible simp only [State.onDev_dev])
      | (with_reducible refine Dev.pump_w _ ?_ (by decide +kernel) (by decide +kernel))
      | (with_reducible refine Within.putBitAt ?_ _ _ _ (by decide +kernel))
      | (with_reducible refine Within.putBit ?_ _ _ (by decide +kernel))
      | (with_reducible refine Within.putAt ?_ _ _ _ (by decide +kernel))
      | (with_reducible refine Within.put ?_ _ _ (by decide +kernel))
      | (with_reducible refine Within.incAt ?_ _ _ (by decide +kernel))
      | (with_reducible refine Within.inc ?_ _ (by decide +kernel))
      | (with_reducible refine Within.ite ?_ ?_)
      | (with_reducible refine Within.iteS ?_ ?_)
      | (intro _ _ _)
      | (refine Within.ite ?_ ?_)
      | split
      | dsimp only)

theorem execConfigurationRequest_s (wr : Option CfgCtl) (rd : Option Nat) (clr : Option (Word × Word)) (s : State) (t_ : State) (h : execConfigurationRequest wr rd clr s = .next t_) : Within 0x2000000000000000000000000000000000000000000000000000000000000000000000 0x16 s.dev t_.dev := by
  unfold execConfigurationRequest at h
  injection h with h
  subst h
  all_goals try dsimp only
  all_goals (
    repeat' first
      | (with_reducible exact Within.refl _)
      | (with_reducible assumption)
      | ((try lift_lets); intro x_; first
        | (refine (fun (hx_ : Within 0x2000000000000000000000000000000000000000000000000000000000000000000000 0x16 s.dev x_) => ?rest) ?val; (case' rest => clear_value x_); (case' val => subst x_))
        | (refine (fun (hx_ : Within 0x2000000000000000000000000000000000000000000000000000000000000000000000 0x16 s.dev x_.dev) => ?rest) ?val; (case' rest => clear_value x_); (case' val => subst x_))
        | (have _t := fun y_ => x_ y_; clear _t; subst x_)
        | (have _t : Dev := x_.1; clear _t; subst x_)
        | (have _t : Dev := x_.2; clear _t; subst x_)
        | (have _t := fun y_ => x_ y_; clear _t; subst x_)
        | (have _t : State := x_.1; clear _t; subst x_)
        | (have _t : State := x_.2; clear _t; subst x_)
        | clear_value x_)
      | (with_reducible simp only [State.onDev_dev])
      | (with_reducible refine setCfg_w _ _ ?_ (by decide +kernel) (by decide +kernel))
      | (with_reducible refine Within.onHost ?_ _ (by decide +kernel))
      | (with_reducible refine Within.emit ?_ _ (by decide +kernel))
      | (with_reducible refine Within.fresh ?_ (by decide +kernel))
      | (with_reducible refine Within.ite ?_ ?_)
      | (with_reducible refine Within.iteS ?_ ?_)
      | (intro _ _ _)
      | (refine Within.ite ?_ ?_)
      | split
      | dsimp only)

theorem execSweepComplete_s (s : State) (t_ : State) (h : execSweepComplete s = .next t_) : Within 0x1800000000000000000000000000000000000000000000000000000000000000000000000000000000 0x40 s.dev t_.dev := by
  unfold execSweepComplete at h
  injection h with h
  subst h
  all_goals try dsimp only
  all_goals (
    repeat' first
      | (with_reducible exact Within.refl _)
      | (with_reducible assumption)
      | (with_reducible simp only [State.onDev_dev])
      | (with_reducible refine Dev.sweepComplete_w _ ?_ (by decide +kernel) (by decide +kernel))
      | (with_reducible refine Within.ite ?_ ?_)
      | (with_reducible refine Within.iteS ?_ ?_)
      | (intro _ _ _)
      | (refine Within.ite ?_ ?_)
      | split
      | dsimp only)

theorem execOperatingTimeIncrement_s (s : State) (t_ : State) (h : execOperatingTimeIncrement s = .next t_) : Within 0x2000000000000000000000000000000000000000000000000000000000000000000000000000000000000000 0x40 s.dev t_.dev := by
  unfold execOperatingTimeIncrement at h
  injection h with h
  subst h
  all_goals try dsimp only
  all_goals (
    repeat' first
      | (with_reducible exact Within.refl _)
      | (with_reducible assumption)
      | (with_reducible simp only [State.onDev_dev])
      | (with_reducible refine Dev.opIncrement_w _ ?_ (by decide +kernel) (by decide +kernel))
      | (with_reducible refine Within.ite ?_ ?_)
      | (with_reducible refine Within.iteS ?_ ?_)
      | (intro _ _ _)
      | (refine Within.ite ?_ ?_)
      | split
      | dsimp only)

theorem execVioRestored_s (bank : Bool) (s : State) (t_ : State) (h : execVioRestored bank s = .next t_) : Within 0 0x1000 s.dev t_.dev := by
  unfold execVioRestored at h
  injection h with h
  subst h
  all_goals try dsimp only
  all_goals (
    repeat' first
      | (with_reducible exact Within.refl _)
      | (with_reducible assumption)
      | (with_reducible simp only [State.onDev_dev])
      | (with_reducible refine Within.onPwr ?_ _ (by decide +kernel))
      | (with_reducible refine Within.ite ?_ ?_)
      | (with_reducible refine Within.iteS ?_ ?_)
      | (intro _ _ _)
      | (refine Within.ite ?_ ?_)
      | split
      | dsimp only)

theorem execFrameStrobeEnd_s (s : State) (t_ : State) (h : execFrameStrobeEnd s = .next t_) : Within 0 0x800000 s.dev t_.dev := by
  unfold execFrameStrobeEnd at h
  injection h with h
  subst h
  all_goals try dsimp only
  all_goals (
    repeat' first
      | (with_reducible exact Within.refl _)
      | (with_reducible assumption)
      | (with_reducible simp only [State.onDev_dev])
      | (with_reducible refine Within.onIo ?_ _ (by decide +kernel))
      | (with_reducible refine Within.ite ?_ ?_)
      | (with_reducible refine Within.iteS ?_ ?_)
      | (intro _ _ _)
      | (refine Within.ite ?_ ?_)
      | split
      | dsimp only)

theorem execNewFirmwareRuns_s (s : State) (t_ : State) (h : execNewFirmwareRuns s = .next t_) : Within 0x80B82100000142790000000000000000000000000000000000000000000000000000000000000000000000000800 0x10F0 s.dev t_.dev := by
  unfold execNewFirmwareRuns at h
  injection h with h
  subst h
  all_goals try dsimp only
  all_goals (
    repeat' first
      | (with_reducible exact Within.refl _)
      | (with_reducible assumption)
      | (with_reducible simp only [State.onDev_dev])
      | (with_reducible refine newFirmware_w _ ?_ (by decide +kernel) (by decide +kernel))
      | (with_reducible refine Within.ite ?_ ?_)
      | (with_reducible refine Within.iteS ?_ ?_)
      | (intro _ _ _)
      | (refine Within.ite ?_ ?_)
      | split
      | dsimp only)

theorem execFwSwitchTick_s (s : State) (t_ : State) (h : execFwSwitchTick s = .next t_) : Within 0x152010000000000000000000000000000000000000000000000000000000000000000000000000000 0x30 s.dev t_.dev := by
  unfold execFwSwitchTick at h
  injection h with h
  subst h
  all_goals try dsimp only
  all_goals (
    repeat' first
      | (with_reducible exact Within.refl _)
      | (with_reducible assumption)
      | (with_reducible simp only [State.onDev_dev])
      | (with_reducible refine fwSwitchTick_w _ ?_ (by decide +kernel) (by decide +kernel))
      | (with_reducible refine Within.ite ?_ ?_)
      | (with_reducible refine Within.iteS ?_ ?_)
      | (intro _ _ _)
      | (refine Within.ite ?_ ?_)
      | split
      | dsimp only)

theorem execLaneMaskSwitch_s (q : Port) (tx : Bool) (s : State) (t_ : State) (h : execLaneMaskSwitch q tx s = .next t_) : Within 0x80B80100000140010000000000000000000409E00000000000000000000000000000000003000000000000000000 0x3008F0 s.dev t_.dev := by
  unfold execLaneMaskSwitch at h
  injection h with h
  subst h
  all_goals try dsimp only
  all_goals (
    repeat' first
      | (with_reducible exact Within.refl _)
      | (with_reducible assumption)
      | (with_reducible simp only [State.onDev_dev])
      | (with_reducible refine laneMaskSwitch_w _ _ _ ?_ (by decide +kernel) (by decide +kernel))
      | (with_reducible refine Within.ite ?_ ?_)
      | (with_reducible refine Within.iteS ?_ ?_)
      | (intro _ _ _)
      | (refine Within.ite ?_ ?_)
      | split
      | dsimp only)

end Sys2Proof.Machine
end

