-- ==== Sys2Proof/Laws/Keeps.lean ====
section
/-! SUPPORT. What the operations on the whole state do to the queue and to the three memories. -/

namespace Sys2Proof.Machine

open Sys2Proof

/-- From `s` to `t` the queue is the same, canonical memories stay canonical, and a memory whose mark is false is the same. -/
structure Keeps (q f k : Bool) (s t : State) : Prop where
  queue : t.pending = s.pending
  form : s.Canonical → t.Canonical
  qdr : q = false → t.mem.qdr = s.mem.qdr
  flash : f = false → t.mem.flash = s.mem.flash
  keep : k = false → t.mem.keep = s.mem.keep

section

variable {q f k : Bool} {s t : State}

theorem Keeps.refl (s : State) : Keeps q f k s s := ⟨rfl, id, fun _ => rfl, fun _ => rfl, fun _ => rfl⟩

theorem Keeps.onDev (h : Keeps q f k s t) (g : Dev → Dev) : Keeps q f k s (t.onDev g) :=
  ⟨h.queue, h.form, h.qdr, h.flash, h.keep⟩

theorem Keeps.wrQdr (h : Keeps true f k s t) (a : Nat) (bs : List Byte) : Keeps true f k s (t.wrQdr a bs) :=
  ⟨h.queue, fun c => ⟨Mem.wf_wrN _ _ _ (h.form c).1, (h.form c).2⟩, by simp, h.flash, h.keep⟩

theorem Keeps.flashToQdr (h : Keeps true f k s t) (a n b : Nat) : Keeps true f k s (t.flashToQdr a n b) :=
  ⟨h.queue, fun c => ⟨Mem.wf_copy flashDef qdrDef t.mem.flash a n b (h.form c).1, (h.form c).2⟩, by simp, h.flash, h.keep⟩

theorem Keeps.qdrCopy (h : Keeps true f k s t) (a n b : Nat) : Keeps true f k s (t.qdrCopy a n b) :=
  ⟨h.queue, fun c => ⟨Mem.wf_copy qdrDef qdrDef t.mem.qdr a n b (h.form c).1, (h.form c).2⟩, by simp, h.flash, h.keep⟩

theorem Keeps.wrFlash (h : Keeps q true k s t) (a : Nat) (bs : List Byte) : Keeps q true k s (t.wrFlash a bs) :=
  ⟨h.queue, fun c => ⟨(h.form c).1, Mem.wf_wrN _ _ _ (h.form c).2.1, (h.form c).2.2⟩, h.qdr, by simp, h.keep⟩

theorem Keeps.eraseFlash (h : Keeps q true k s t) (a n : Nat) : Keeps q true k s (t.eraseFlash a n) :=
  ⟨h.queue, fun c => ⟨(h.form c).1, Mem.wf_clear _ _ _ (h.form c).2.1, (h.form c).2.2⟩, h.qdr, by simp, h.keep⟩

theorem Keeps.qdrToFlash (h : Keeps q true k s t) (a n b : Nat) : Keeps q true k s (t.qdrToFlash a n b) :=
  ⟨h.queue, fun c => ⟨(h.form c).1, Mem.wf_copy qdrDef flashDef t.mem.qdr a n b (h.form c).2.1, (h.form c).2.2⟩, h.qdr, by simp, h.keep⟩

theorem Keeps.wrKeep (h : Keeps q f true s t) (a : Nat) (bs : List Byte) : Keeps q f true s (t.wrKeep a bs) :=
  ⟨h.queue, fun c => ⟨(h.form c).1, (h.form c).2.1, Mem.wf_wrN _ _ _ (h.form c).2.2⟩, h.qdr, h.flash, by simp⟩

theorem Keeps.ite {c : Prop} [Decidable c] {u : State} (h : Keeps q f k s t) (h' : Keeps q f k s u) :
    Keeps q f k s (if c then t else u) := by
  split <;> assumption

theorem Keeps.foldl {α : Type} (h : Keeps q f k s t) (l : List α) (g : State → α → State)
    (hg : ∀ u x, Keeps q f k s u → Keeps q f k s (g u x)) : Keeps q f k s (l.foldl g t) := by
  induction l generalizing t with
  | nil => exact h
  | cons x xs ih => exact ih (hg t x h)

end

section

variable {q f k : Bool}

/-! ### The operations on the whole state, in the order of their files -/

theorem State.returnData_keeps {s t : State} (c : Cmd) (bs : List Byte) (h : Keeps true f k s t) :
    Keeps true f k s (State.returnData t c bs) := by
  unfold State.returnData
  try dsimp only
  repeat' first | (with_reducible exact h) | (with_reducible assumption) | (with_reducible apply Keeps.wrQdr) | (with_reducible apply Keeps.onDev) | (with_reducible refine Keeps.foldl ?_ _ _ ?_) | (intro _ _ _) | (split)

theorem readBurst_keeps {s t : State} (w : Nat) (code : List Byte) (newer : Bool) (h : Keeps true f k s t) :
    Keeps true f k s (readBurst w code newer t) := by
  unfold readBurst
  try dsimp only
  repeat' first | (with_reducible exact h) | (with_reducible assumption) | (with_reducible apply Keeps.wrQdr) | (with_reducible apply Keeps.onDev) | (intro _ _ _) | (split)

theorem funcReads_keeps {s t : State} (reads : List BurstIn) (h : Keeps true f k s t) :
    Keeps true f k s (funcReads reads t) := by
  unfold funcReads
  try dsimp only
  repeat' first | (with_reducible exact h) | (with_reducible assumption) | (with_reducible apply readBurst_keeps) | (with_reducible apply Keeps.onDev) | (with_reducible refine Keeps.foldl ?_ _ _ ?_) | (intro _ _ _) | (split)

theorem slotReads_keeps {s t : State} (x_f : Nat) (slot : Nat) (reads : List BurstIn) (h : Keeps true f k s t) :
    Keeps true f k s (slotReads x_f slot reads t) := by
  unfold slotReads
  try dsimp only
  repeat' first | (with_reducible exact h) | (with_reducible assumption) | (with_reducible apply funcReads_keeps) | (with_reducible apply Keeps.onDev) | (intro _ _ _) | (split)

theorem readPersist_keeps {s t : State}  (h : Keeps q true k s t) :
    Keeps q true k s (readPersist t) := by
  unfold readPersist
  try dsimp only
  repeat' first | (with_reducible exact h) | (with_reducible assumption) | (with_reducible apply Keeps.qdrToFlash) | (with_reducible apply Keeps.onDev) | (intro _ _ _) | (split)

theorem readPersistOf_keeps {s t : State} (r : Nat) (h : Keeps q true k s t) :
    Keeps q true k s (readPersistOf r t) := by
  unfold readPersistOf
  try dsimp only
  repeat' first | (with_reducible exact h) | (with_reducible assumption) | (with_reducible apply readPersist_keeps) | (with_reducible apply Keeps.onDev) | (intro _ _ _) | (split)

theorem State.writeCheck_keeps {s t : State} (a : Nat) (n : Nat) (chk : Nat) (h : Keeps q true k s t) :
    Keeps q true k s (State.writeCheck t a n chk) := by
  unfold State.writeCheck
  try dsimp only
  repeat' first | (with_reducible exact h) | (with_reducible assumption) | (with_reducible apply Keeps.wrFlash) | (with_reducible apply Keeps.onDev) | (with_reducible refine Keeps.foldl ?_ _ _ ?_) | (intro _ _ _) | (split)

theorem stampSeq_keeps {s t : State} (r : Nat) (seq : Nat) (h : Keeps true f k s t) :
    Keeps true f k s (stampSeq r seq t) := by
  unfold stampSeq
  try dsimp only
  repeat' first | (with_reducible exact h) | (with_reducible assumption) | (with_reducible apply Keeps.wrQdr) | (with_reducible apply Keeps.onDev) | (intro _ _ _) | (split)

theorem doPlateWrite_keeps {s t : State} (c : Cmd) (h : Keeps true true k s t) :
    Keeps true true k s (doPlateWrite c t) := by
  unfold doPlateWrite
  try dsimp only
  repeat' first | (with_reducible exact h) | (with_reducible assumption) | (with_reducible apply readPersistOf_keeps) | (with_reducible apply Keeps.wrQdr) | (with_reducible apply Keeps.onDev) | (intro _ _ _) | (split)

theorem doPlateCommit_keeps {s t : State} (c : Cmd) (h : Keeps true f k s t) :
    Keeps true f k s (doPlateCommit c t) := by
  unfold doPlateCommit
  try dsimp only
  repeat' first | (with_reducible exact h) | (with_reducible assumption) | (with_reducible apply stampSeq_keeps) | (with_reducible apply Keeps.onDev) | (intro _ _ _) | (split)

theorem doFactoryRestore_keeps {s t : State} (c : Cmd) (h : Keeps true true k s t) :
    Keeps true true k s (doFactoryRestore c t) := by
  unfold doFactoryRestore
  try dsimp only
  repeat' first | (with_reducible exact h) | (with_reducible assumption) | (with_reducible apply readPersistOf_keeps) | (with_reducible apply stampSeq_keeps) | (with_reducible apply Keeps.flashToQdr) | (with_reducible apply Keeps.onDev) | (intro _ _ _) | (split)

theorem persistDone_keeps {s t : State} (ok : Bool) (h : Keeps q true k s t) :
    Keeps q true k s (persistDone ok t) := by
  unfold persistDone
  try dsimp only
  repeat' first | (with_reducible exact h) | (with_reducible assumption) | (with_reducible apply readPersistOf_keeps) | (with_reducible apply State.writeCheck_keeps) | (with_reducible apply Keeps.onDev) | (intro _ _ _) | (split)

theorem setNibble_keeps {s t : State} (i : Nat) (v : Nat) (h : Keeps true f k s t) :
    Keeps true f k s (setNibble i v t) := by
  unfold setNibble
  try dsimp only
  repeat' first | (with_reducible exact h) | (with_reducible assumption) | (with_reducible apply Keeps.wrQdr) | (with_reducible apply Keeps.onDev) | (intro _ _ _) | (split)

theorem applyEdit_keeps {s t : State} (e : StEdit) (h : Keeps true f k s t) :
    Keeps true f k s (applyEdit e t) := by
  unfold applyEdit
  try dsimp only
  repeat' first | (with_reducible exact h) | (with_reducible assumption) | (with_reducible apply setNibble_keeps) | (with_reducible apply Keeps.onDev) | (with_reducible refine Keeps.foldl ?_ _ _ ?_) | (intro _ _ _) | (split)

theorem loadPlateGo_keeps {s : State} (range : Nat) (r : Nat) : ∀ (is : List Nat) {t : State}, Keeps true f k s t →
    Keeps true f k s (loadPlateGo range r is t)
  | [], _, h => h
  | i :: is, t, h => by
    unfold loadPlateGo
    try dsimp only
    repeat' first | (with_reducible exact h) | (with_reducible assumption) | (with_reducible apply loadPlateGo_keeps) | (with_reducible apply Keeps.flashToQdr) | (with_reducible apply Keeps.onDev) | (intro _ _ _) | (split)

theorem plateLoad_keeps {s t : State} (range : Nat) (h : Keeps true f k s t) :
    Keeps true f k s (plateLoad range t) := by
  unfold plateLoad
  try dsimp only
  repeat' first | (with_reducible exact h) | (with_reducible assumption) | (with_reducible apply loadPlateGo_keeps) | (with_reducible apply Keeps.onDev) | (intro _ _ _) | (split)

theorem takeEdits_keeps {s t : State} (b : Nat) (h : Keeps true f k s t) :
    Keeps true f k s (takeEdits b t) := by
  unfold takeEdits
  try dsimp only
  repeat' first | (with_reducible exact h) | (with_reducible assumption) | (with_reducible apply applyEdit_keeps) | (with_reducible apply Keeps.onDev) | (with_reducible refine Keeps.foldl ?_ _ _ ?_) | (intro _ _ _) | (split)

theorem putTrims_keeps {s t : State} (cg : List Int) (skim : List (Nat × Int)) (range : Nat) (h : Keeps true f k s t) :
    Keeps true f k s (putTrims cg skim range t) := by
  unfold putTrims
  try dsimp only
  repeat' first | (with_reducible exact h) | (with_reducible assumption) | (with_reducible apply Keeps.wrQdr) | (with_reducible apply Keeps.onDev) | (with_reducible refine Keeps.foldl ?_ _ _ ?_) | (intro _ _ _) | (split)

theorem radioBoundary_keeps {s t : State}  (h : Keeps true f k s t) :
    Keeps true f k s (radioBoundary t) := by
  unfold radioBoundary
  try dsimp only
  repeat' first | (with_reducible exact h) | (with_reducible assumption) | (with_reducible apply putTrims_keeps) | (with_reducible apply Keeps.onDev) | (intro _ _ _) | (split)

theorem takeCurves_keeps {s t : State} (b : Nat) (h : Keeps true f k s t) :
    Keeps true f k s (takeCurves b t) := by
  unfold takeCurves
  try dsimp only
  repeat' first | (with_reducible exact h) | (with_reducible assumption) | (with_reducible apply Keeps.wrQdr) | (with_reducible apply Keeps.onDev) | (with_reducible refine Keeps.foldl ?_ _ _ ?_) | (intro _ _ _) | (split)

theorem boundaryEffects_keeps {s t : State} (b : Nat) (h : Keeps true f k s t) :
    Keeps true f k s (boundaryEffects b t) := by
  unfold boundaryEffects
  try dsimp only
  repeat' first | (with_reducible exact h) | (with_reducible assumption) | (with_reducible apply takeEdits_keeps) | (with_reducible apply radioBoundary_keeps) | (with_reducible apply takeCurves_keeps) | (with_reducible apply Keeps.onDev) | (intro _ _ _) | (split)

theorem readoutBoundary_keeps {s t : State}  (h : Keeps true f k s t) :
    Keeps true f k s (readoutBoundary t) := by
  unfold readoutBoundary
  try dsimp only
  repeat' first | (with_reducible exact h) | (with_reducible assumption) | (with_reducible apply boundaryEffects_keeps) | (with_reducible apply Keeps.onDev) | (intro _ _ _) | (split)

theorem frameBoundary_keeps {s t : State}  (h : Keeps true f k s t) :
    Keeps true f k s (frameBoundary t) := by
  unfold frameBoundary
  try dsimp only
  repeat' first | (with_reducible exact h) | (with_reducible assumption) | (with_reducible apply readoutBoundary_keeps) | (with_reducible apply Keeps.onDev) | (intro _ _ _) | (split)

theorem buildPlate_keeps {s t : State} (r : ProofRun) (seq : Nat) (es : List (Nat × Rat)) (h : Keeps true true k s t) :
    Keeps true true k s (buildPlate r seq es t) := by
  unfold buildPlate
  try dsimp only
  repeat' first | (with_reducible exact h) | (with_reducible assumption) | (with_reducible apply readPersistOf_keeps) | (with_reducible apply stampSeq_keeps) | (with_reducible apply Keeps.wrQdr) | (with_reducible apply Keeps.qdrCopy) | (with_reducible apply Keeps.onDev) | (with_reducible refine Keeps.foldl ?_ _ _ ?_) | (intro _ _ _) | (split)

theorem plateAccepted_keeps {s t : State}  (h : Keeps true true k s t) :
    Keeps true true k s (plateAccepted t) := by
  unfold plateAccepted
  try dsimp only
  repeat' first | (with_reducible exact h) | (with_reducible assumption) | (with_reducible apply buildPlate_keeps) | (with_reducible apply Keeps.onDev) | (intro _ _ _) | (split)

theorem scrubSweep_keeps {s t : State} (found : List BurstIn) (h : Keeps true f k s t) :
    Keeps true f k s (scrubSweep found t) := by
  unfold scrubSweep
  try dsimp only
  repeat' first | (with_reducible exact h) | (with_reducible assumption) | (with_reducible apply readBurst_keeps) | (with_reducible apply Keeps.onDev) | (with_reducible refine Keeps.foldl ?_ _ _ ?_) | (intro _ _ _) | (split)

theorem tableWordReload_keeps {s t : State} (w : Nat) (h : Keeps true f k s t) :
    Keeps true f k s (tableWordReload w t) := by
  unfold tableWordReload
  try dsimp only
  repeat' first | (with_reducible exact h) | (with_reducible assumption) | (with_reducible apply Keeps.flashToQdr) | (with_reducible apply Keeps.onDev) | (intro _ _ _) | (split)

theorem windowWord_keeps {s t : State} (i : Nat) (o : Nat) (code : Option (List Byte)) (h : Keeps true f k s t) :
    Keeps true f k s ((windowWord i o code t).1) := by
  unfold windowWord
  try dsimp only
  repeat' first | (with_reducible exact h) | (with_reducible assumption) | (with_reducible apply readBurst_keeps) | (with_reducible apply Keeps.onDev) | (intro _ _ _) | (split)

theorem windowRead_keeps {s t : State} (p : Path) (i : Nat) (o : Nat) (code : Option (List Byte)) (h : Keeps true f k s t) :
    Keeps true f k s (windowRead p i o code t) := by
  unfold windowRead
  try dsimp only
  repeat' first | (with_reducible exact h) | (with_reducible assumption) | (with_reducible apply windowWord_keeps) | (with_reducible apply Keeps.onDev) | (intro _ _ _) | (split)

theorem windowWrite_keeps {s t : State} (i : Nat) (o : Nat) (v : Word) (h : Keeps true f k s t) :
    Keeps true f k s (windowWrite i o v t) := by
  unfold windowWrite
  try dsimp only
  repeat' first | (with_reducible exact h) | (with_reducible assumption) | (with_reducible apply Keeps.wrQdr) | (with_reducible apply Keeps.onDev) | (intro _ _ _) | (split)

theorem doKeepRead_keeps {s t : State} (errs : List KeepErr) (c : Cmd) (h : Keeps true f k s t) :
    Keeps true f k s (doKeepRead errs c t) := by
  unfold doKeepRead
  try dsimp only
  repeat' first | (with_reducible exact h) | (with_reducible assumption) | (with_reducible apply State.returnData_keeps) | (with_reducible apply Keeps.onDev) | (intro _ _ _) | (split)

theorem doFlashRead_keeps {s t : State} (c : Cmd) (h : Keeps true f k s t) :
    Keeps true f k s (doFlashRead c t) := by
  unfold doFlashRead
  try dsimp only
  repeat' first | (with_reducible exact h) | (with_reducible assumption) | (with_reducible apply State.returnData_keeps) | (with_reducible apply Keeps.onDev) | (intro _ _ _) | (split)

theorem doLogRead_keeps {s t : State} (c : Cmd) (h : Keeps true f k s t) :
    Keeps true f k s (doLogRead c t) := by
  unfold doLogRead
  try dsimp only
  repeat' first | (with_reducible exact h) | (with_reducible assumption) | (with_reducible apply State.returnData_keeps) | (with_reducible apply Keeps.onDev) | (intro _ _ _) | (split)

theorem doStandQuery_keeps {s t : State} (c : Cmd) (h : Keeps true f k s t) :
    Keeps true f k s (doStandQuery c t) := by
  unfold doStandQuery
  try dsimp only
  repeat' first | (with_reducible exact h) | (with_reducible assumption) | (with_reducible apply State.returnData_keeps) | (with_reducible apply Keeps.onDev) | (intro _ _ _) | (split)

theorem applyLocal_keeps {s t : State} (c : Cmd) (tc : Nat) (x : Nat) (g : Option Nat) (h : Keeps true true k s t) :
    Keeps true true k s (applyLocal c tc x g t) := by
  unfold applyLocal
  try dsimp only
  repeat' first | (with_reducible exact h) | (with_reducible assumption) | (with_reducible apply doPlateWrite_keeps) | (with_reducible apply doPlateCommit_keeps) | (with_reducible apply doFactoryRestore_keeps) | (with_reducible apply Keeps.onDev) | (intro _ _ _) | (split)

theorem State.runPart_keeps {s t : State} (entry : List Byte) (data : List Byte) (txn : Nat) (tc : Nat) (x : Nat) (g : Option Nat) (h : Keeps true true k s t) :
    Keeps true true k s (State.runPart t entry data txn tc x g) := by
  unfold State.runPart
  try dsimp only
  repeat' first | (with_reducible exact h) | (with_reducible assumption) | (with_reducible apply applyLocal_keeps) | (with_reducible apply Keeps.onDev) | (intro _ _ _) | (split)

theorem State.applyCommit_keeps {s t : State} (entry : List Byte) (data : List Byte) (txn : Nat) (tc : Nat) (x : Nat) (gen : Nat) (h : Keeps true true k s t) :
    Keeps true true k s (State.applyCommit t entry data txn tc x gen) := by
  unfold State.applyCommit
  try dsimp only
  repeat' first | (with_reducible exact h) | (with_reducible assumption) | (with_reducible apply State.runPart_keeps) | (with_reducible apply Keeps.onDev) | (intro _ _ _) | (split)

theorem State.groupCommit_keeps {s t : State} (g : Group) (tc : Nat) (x : Nat) (gen : Nat) (h : Keeps true true k s t) :
    Keeps true true k s (State.groupCommit t g tc x gen) := by
  unfold State.groupCommit
  try dsimp only
  repeat' first | (with_reducible exact h) | (with_reducible assumption) | (with_reducible apply State.applyCommit_keeps) | (with_reducible apply Keeps.onDev) | (intro _ _ _) | (split)

theorem State.groupDecide_keeps {s t : State}  (h : Keeps true true k s t) :
    Keeps true true k s (State.groupDecide t) := by
  unfold State.groupDecide
  try dsimp only
  repeat' first | (with_reducible exact h) | (with_reducible assumption) | (with_reducible apply State.groupCommit_keeps) | (with_reducible apply Keeps.onDev) | (with_reducible refine Keeps.foldl ?_ _ _ ?_) | (intro _ _ _) | (split)

theorem State.groupStart_keeps {s t : State} (x_k : Option Nat) (up : Option Nat) (entry : List Byte) (data : List Byte) (mask : Nat) (h : Keeps true true k s t) :
    Keeps true true k s (State.groupStart t x_k up entry data mask) := by
  unfold State.groupStart
  try dsimp only
  repeat' first | (with_reducible exact h) | (with_reducible assumption) | (with_reducible apply State.groupDecide_keeps) | (with_reducible apply Keeps.onDev) | (with_reducible refine Keeps.foldl ?_ _ _ ?_) | (intro _ _ _) | (split)

theorem groupBegin_keeps {s t : State} (c : Cmd) (h : Keeps true true k s t) :
    Keeps true true k s (groupBegin c t) := by
  unfold groupBegin
  try dsimp only
  repeat' first | (with_reducible exact h) | (with_reducible assumption) | (with_reducible apply State.groupStart_keeps) | (with_reducible apply Keeps.onDev) | (intro _ _ _) | (split)

theorem State.fromParent_keeps {s t : State} (up : Nat) (entry : List Byte) (data : List Byte) (h : Keeps true true k s t) :
    Keeps true true k s (State.fromParent t up entry data) := by
  unfold State.fromParent
  try dsimp only
  repeat' first | (with_reducible exact h) | (with_reducible assumption) | (with_reducible apply State.groupStart_keeps) | (with_reducible apply Keeps.onDev) | (intro _ _ _) | (split)

theorem prepareIn_keeps {s t : State} (fl : Flit) (data : List Byte) (h : Keeps true true k s t) :
    Keeps true true k s (prepareIn fl data t) := by
  unfold prepareIn
  try dsimp only
  repeat' first | (with_reducible exact h) | (with_reducible assumption) | (with_reducible apply State.fromParent_keeps) | (with_reducible apply Keeps.onDev) | (intro _ _ _) | (split)

theorem authIn_keeps {s t : State} (fl : Flit) (data : List Byte) (h : Keeps true true k s t) :
    Keeps true true k s (authIn fl data t) := by
  unfold authIn
  try dsimp only
  repeat' first | (with_reducible exact h) | (with_reducible assumption) | (with_reducible apply State.fromParent_keeps) | (with_reducible apply Keeps.onDev) | (intro _ _ _) | (split)

theorem voteIn_keeps {s t : State} (fl : Flit) (h : Keeps true true k s t) :
    Keeps true true k s (voteIn fl t) := by
  unfold voteIn
  try dsimp only
  repeat' first | (with_reducible exact h) | (with_reducible assumption) | (with_reducible apply State.groupDecide_keeps) | (with_reducible apply Keeps.onDev) | (intro _ _ _) | (split)

theorem commitIn_keeps {s t : State} (fl : Flit) (h : Keeps true true k s t) :
    Keeps true true k s (commitIn fl t) := by
  unfold commitIn
  try dsimp only
  repeat' first | (with_reducible exact h) | (with_reducible assumption) | (with_reducible apply State.applyCommit_keeps) | (with_reducible apply State.groupCommit_keeps) | (with_reducible apply Keeps.onDev) | (intro _ _ _) | (split)

theorem localCommit_keeps {s t : State} (c : Cmd) (h : Keeps q f k s t) :
    Keeps q f k s (localCommit c t) := by
  unfold localCommit
  try dsimp only
  repeat' first | (with_reducible exact h) | (with_reducible assumption) | (with_reducible apply Keeps.onDev) | (intro _ _ _) | (split)

theorem localProfile_keeps {s t : State} (c : Cmd) (h : Keeps q f k s t) :
    Keeps q f k s (localProfile c t) := by
  unfold localProfile
  try dsimp only
  repeat' first | (with_reducible exact h) | (with_reducible assumption) | (with_reducible apply Keeps.onDev) | (intro _ _ _) | (split)

theorem targetPage_keeps {s t : State} (w : KeepWhat) (i : Nat) (h : Keeps q f true s t) :
    Keeps q f true s (targetPage w i t) := by
  unfold targetPage
  try dsimp only
  repeat' first | (with_reducible exact h) | (with_reducible assumption) | (with_reducible apply Keeps.wrKeep) | (with_reducible apply Keeps.onDev) | (intro _ _ _) | (split)

theorem keepPageDone_keeps {s t : State} (ok : Bool) (h : Keeps q f true s t) :
    Keeps q f true s (keepPageDone ok t) := by
  unfold keepPageDone
  try dsimp only
  repeat' first | (with_reducible exact h) | (with_reducible assumption) | (with_reducible apply targetPage_keeps) | (with_reducible apply Keeps.onDev) | (intro _ _ _) | (split)

theorem replayKeep_keeps {s t : State}  (h : Keeps q f true s t) :
    Keeps q f true s (replayKeep t) := by
  unfold replayKeep
  try dsimp only
  repeat' first | (with_reducible exact h) | (with_reducible assumption) | (with_reducible apply Keeps.wrKeep) | (with_reducible apply Keeps.onDev) | (intro _ _ _) | (split)

theorem flashOk_keeps {s t : State} (w : FlashWhat) (h : Keeps q true k s t) :
    Keeps q true k s (flashOk w t) := by
  unfold flashOk
  try dsimp only
  repeat' first | (with_reducible exact h) | (with_reducible assumption) | (with_reducible apply State.writeCheck_keeps) | (with_reducible apply Keeps.wrFlash) | (with_reducible apply Keeps.eraseFlash) | (with_reducible apply Keeps.qdrToFlash) | (with_reducible apply Keeps.onDev) | (with_reducible refine Keeps.foldl ?_ _ _ ?_) | (intro _ _ _) | (split)

theorem flashDone_keeps {s t : State} (ok : Bool) (h : Keeps q true k s t) :
    Keeps q true k s (flashDone ok t) := by
  unfold flashDone
  try dsimp only
  repeat' first | (with_reducible exact h) | (with_reducible assumption) | (with_reducible apply flashOk_keeps) | (with_reducible apply Keeps.onDev) | (intro _ _ _) | (split)

theorem cutFlash_keeps {s t : State}  (h : Keeps q true k s t) :
    Keeps q true k s (cutFlash t) := by
  unfold cutFlash
  try dsimp only
  repeat' first | (with_reducible exact h) | (with_reducible assumption) | (with_reducible apply Keeps.eraseFlash) | (with_reducible apply Keeps.onDev) | (with_reducible refine Keeps.foldl ?_ _ _ ?_) | (intro _ _ _) | (split)

theorem State.cutWrites_keeps {s t : State} (h : Keeps true true k s t) : Keeps true true k s t.cutWrites :=
  have h' := cutFlash_keeps h
  ⟨h'.queue, fun c => ⟨rfl, (h'.form c).2⟩, by simp, by simp, h'.keep⟩

theorem State.powerReset_keeps {s t : State}  (h : Keeps true true k s t) :
    Keeps true true k s (State.powerReset t) := by
  unfold State.powerReset
  try dsimp only
  repeat' first | (with_reducible exact h) | (with_reducible assumption) | (with_reducible apply State.cutWrites_keeps) | (with_reducible apply Keeps.onDev) | (intro _ _ _) | (split)

theorem State.warmReset_keeps {s t : State} (cause : Fld) (h : Keeps true true k s t) :
    Keeps true true k s (State.warmReset cause t) := by
  unfold State.warmReset
  try dsimp only
  repeat' first | (with_reducible exact h) | (with_reducible assumption) | (with_reducible apply State.cutWrites_keeps) | (with_reducible apply Keeps.onDev) | (intro _ _ _) | (split)

theorem mbxGo_keeps {s t : State} (p : Path) (h : Keeps q f k s t) :
    Keeps q f k s (mbxGo p t) := by
  unfold mbxGo
  try dsimp only
  repeat' first | (with_reducible exact h) | (with_reducible assumption) | (with_reducible apply Keeps.onDev) | (intro _ _ _) | (split)

theorem plainWrite_keeps {s t : State} (off : Nat) (v : Word) (h : Keeps q f k s t) :
    Keeps q f k s (plainWrite off v t) := by
  unfold plainWrite
  try dsimp only
  repeat' first | (with_reducible exact h) | (with_reducible assumption) | (with_reducible apply Keeps.onDev) | (intro _ _ _) | (split)

theorem sysWrite_keeps {s t : State} (off : Nat) (v : Word) (h : Keeps true true k s t) :
    Keeps true true k s (sysWrite off v t) := by
  unfold sysWrite
  simp only [execBootClear, execClkCntClr, execPwrCntClr, execSave, execSysRstHost, execSysRstWarm, stateOf, onBit]
  try dsimp only
  repeat' first | (with_reducible exact h) | (with_reducible assumption) | (with_reducible apply plainWrite_keeps) | (with_reducible apply Keeps.onDev) | (with_reducible apply State.warmReset_keeps) | (intro _ _ _) | (split)

theorem fpaWrite_keeps {s t : State} (off : Nat) (v : Word) (h : Keeps q f k s t) :
    Keeps q f k s (fpaWrite off v t) := by
  unfold fpaWrite
  simp only [execFpaCntClr, execRunClear, execRunSet, stateOf, onBit]
  try dsimp only
  repeat' first | (with_reducible exact h) | (with_reducible assumption) | (with_reducible apply plainWrite_keeps) | (with_reducible apply Keeps.onDev) | (intro _ _ _) | (split)

theorem pipeWrite_keeps {s t : State} (off : Nat) (v : Word) (h : Keeps q f k s t) :
    Keeps q f k s (pipeWrite off v t) := by
  unfold pipeWrite
  simp only [execPipeCntClr, execShadowRelease, stateOf, onBit]
  try dsimp only
  repeat' first | (with_reducible exact h) | (with_reducible assumption) | (with_reducible apply plainWrite_keeps) | (with_reducible apply Keeps.onDev) | (intro _ _ _) | (split)

theorem proofWrite_keeps {s t : State} (off : Nat) (v : Word) (h : Keeps q f k s t) :
    Keeps q f k s (proofWrite off v t) := by
  unfold proofWrite
  simp only [execProofCntClr, execShutClear, execTestClose, execTestOpen, stateOf, onBit]
  try dsimp only
  repeat' first | (with_reducible exact h) | (with_reducible assumption) | (with_reducible apply plainWrite_keeps) | (with_reducible apply Keeps.onDev) | (intro _ _ _) | (split)

theorem webWrite_keeps {s t : State} (off : Nat) (v : Word) (h : Keeps q f k s t) :
    Keeps q f k s (webWrite off v t) := by
  unfold webWrite
  simp only [execFlush, execGeoCommit, execPreset, execWebCntClr, stateOf, onBit]
  try dsimp only
  repeat' first | (with_reducible exact h) | (with_reducible assumption) | (with_reducible apply plainWrite_keeps) | (with_reducible apply Keeps.onDev) | (intro _ _ _) | (split)

theorem statWrite_keeps {s t : State} (off : Nat) (v : Word) (h : Keeps q f k s t) :
    Keeps q f k s (statWrite off v t) := by
  unfold statWrite
  simp only [execAlarmCntClr, execAlarmQueueClr, execSnap, stateOf, onBit]
  try dsimp only
  repeat' first | (with_reducible exact h) | (with_reducible assumption) | (with_reducible apply plainWrite_keeps) | (with_reducible apply Keeps.onDev) | (intro _ _ _) | (split)

theorem linkWrite_keeps {s t : State} (off : Nat) (v : Word) (h : Keeps q f k s t) :
    Keeps q f k s (linkWrite off v t) := by
  unfold linkWrite
  simp only [execApply, execLinkCntClr, stateOf, onBit]
  try dsimp only
  repeat' first | (with_reducible exact h) | (with_reducible assumption) | (with_reducible apply plainWrite_keeps) | (with_reducible apply Keeps.onDev) | (intro _ _ _) | (split)

theorem standWrite_keeps {s t : State} (off : Nat) (v : Word) (h : Keeps q f k s t) :
    Keeps q f k s (standWrite off v t) := by
  unfold standWrite
  simp only [execStandCntClr, execTrimReset, stateOf, onBit]
  try dsimp only
  repeat' first | (with_reducible exact h) | (with_reducible assumption) | (with_reducible apply plainWrite_keeps) | (with_reducible apply Keeps.onDev) | (intro _ _ _) | (split)

theorem hostWrite_keeps {s t : State} (off : Nat) (v : Word) (h : Keeps q f k s t) :
    Keeps q f k s (hostWrite off v t) := by
  unfold hostWrite
  simp only [execHostCntClr, execWidthMaxWrite, stateOf, onBit]
  try dsimp only
  repeat' first | (with_reducible exact h) | (with_reducible assumption) | (with_reducible apply plainWrite_keeps) | (with_reducible apply Keeps.onDev) | (intro _ _ _) | (split)

theorem secWrite_keeps {s t : State} (p : Path) (off : Nat) (v : Word) (h : Keeps q f k s t) :
    Keeps q f k s (secWrite p off v t) := by
  unfold secWrite
  simp only [execMbxAck, execMbxGo, execSecCntClr, stateOf, onBit]
  try dsimp only
  repeat' first | (with_reducible exact h) | (with_reducible assumption) | (with_reducible apply plainWrite_keeps) | (with_reducible apply Keeps.onDev) | (with_reducible apply mbxGo_keeps) | (intro _ _ _) | (split)

theorem memWrite_keeps {s t : State} (p : Path) (off : Nat) (v : Word) (h : Keeps q f k s t) :
    Keeps q f k s (memWrite p off v t) := by
  unfold memWrite
  simp only [execMemCntClr, execStoreCntClr, stateOf, onBit]
  try dsimp only
  repeat' first | (with_reducible exact h) | (with_reducible assumption) | (with_reducible apply plainWrite_keeps) | (with_reducible apply Keeps.onDev) | (intro _ _ _) | (split)

theorem healthWrite_keeps {s t : State} (off : Nat) (v : Word) (h : Keeps q f k s t) :
    Keeps q f k s (healthWrite off v t) := by
  unfold healthWrite
  simp only [execHealthCntClr, execMpRun, stateOf, onBit]
  try dsimp only
  repeat' first | (with_reducible exact h) | (with_reducible assumption) | (with_reducible apply plainWrite_keeps) | (with_reducible apply Keeps.onDev) | (intro _ _ _) | (split)

theorem auxWrite_keeps {s t : State} (off : Nat) (v : Word) (h : Keeps q f k s t) :
    Keeps q f k s (auxWrite off v t) := by
  unfold auxWrite
  simp only [execAuxCntClr, execAuxSeqCommit, stateOf, onBit]
  try dsimp only
  repeat' first | (with_reducible exact h) | (with_reducible assumption) | (with_reducible apply plainWrite_keeps) | (with_reducible apply Keeps.onDev) | (intro _ _ _) | (split)

theorem ioWrite_keeps {s t : State} (off : Nat) (v : Word) (h : Keeps q f k s t) :
    Keeps q f k s (ioWrite off v t) := by
  unfold ioWrite
  simp only [execIoCntClr, stateOf, onBit]
  try dsimp only
  repeat' first | (with_reducible exact h) | (with_reducible assumption) | (with_reducible apply plainWrite_keeps) | (with_reducible apply Keeps.onDev) | (intro _ _ _) | (split)

theorem regEffect_keeps {s t : State} (p : Path) (off : Nat) (v : Word) (h : Keeps true true k s t) :
    Keeps true true k s (regEffect p off v t) := by
  unfold regEffect
  exact .ite (sysWrite_keeps off v h) <| .ite (fpaWrite_keeps off v h) <| .ite (pipeWrite_keeps off v h) <| .ite (proofWrite_keeps off v h) <| .ite (webWrite_keeps off v h) <| .ite (statWrite_keeps off v h) <| .ite (linkWrite_keeps off v h) <| .ite (standWrite_keeps off v h) <| .ite (hostWrite_keeps off v h) <| .ite (secWrite_keeps p off v h) <| .ite (memWrite_keeps p off v h) <| .ite (healthWrite_keeps off v h) <| .ite (auxWrite_keeps off v h) <| .ite (ioWrite_keeps off v h) <| h

theorem pairWrite_keeps {s t : State} (p : Path) (low : Nat) (lo : Word) (hi : Word) (h : Keeps true true k s t) :
    Keeps true true k s (pairWrite p low lo hi t) := by
  unfold pairWrite
  try dsimp only
  repeat' first | (with_reducible exact h) | (with_reducible assumption) | (with_reducible apply regEffect_keeps) | (with_reducible apply Keeps.onDev) | (intro _ _ _) | (split)

theorem applyHigh_keeps {s t : State} (p : Path) (i : Nat) (low : Nat) (v : Word) (h : Keeps true true k s t) :
    Keeps true true k s (applyHigh p i low v t) := by
  unfold applyHigh
  try dsimp only
  repeat' first | (with_reducible exact h) | (with_reducible assumption) | (with_reducible apply pairWrite_keeps) | (with_reducible apply Keeps.onDev) | (intro _ _ _) | (split)

theorem write32_keeps {s t : State} (p : Path) (i : Nat) (off : Nat) (v : Word) (h : Keeps true true k s t) :
    Keeps true true k s (write32 p i off v t) := by
  unfold write32
  try dsimp only
  repeat' first | (with_reducible exact h) | (with_reducible assumption) | (with_reducible apply regEffect_keeps) | (with_reducible apply applyHigh_keeps) | (with_reducible apply Keeps.onDev) | (intro _ _ _) | (split)

theorem read32_keeps {s t : State} (i : Nat) (off : Nat) (h : Keeps q f k s t) :
    Keeps q f k s ((read32 i off t).1) := by
  unfold read32
  try dsimp only
  repeat' first | (with_reducible exact h) | (with_reducible assumption) | (with_reducible apply Keeps.onDev) | (intro _ _ _) | (split)

theorem barWrite_keeps {s t : State} (off : Nat) (v : Word) (h : Keeps true true k s t) :
    Keeps true true k s (barWrite off v t) := by
  unfold barWrite
  try dsimp only
  repeat' first | (with_reducible exact h) | (with_reducible assumption) | (with_reducible apply windowWrite_keeps) | (with_reducible apply write32_keeps) | (with_reducible apply Keeps.onDev) | (intro _ _ _) | (split)

theorem barRead_keeps {s t : State} (off : Nat) (h : Keeps true f k s t) :
    Keeps true f k s ((barRead off t).1) := by
  unfold barRead
  try dsimp only
  repeat' first | (with_reducible exact h) | (with_reducible assumption) | (with_reducible apply windowWord_keeps) | (with_reducible apply read32_keeps) | (with_reducible apply Keeps.onDev) | (intro _ _ _) | (split)

theorem bar2Write_keeps {s t : State} (off : Nat) (v : Word) (wide : Option Word) (h : Keeps q f k s t) :
    Keeps q f k s (bar2Write off v wide t) := by
  unfold bar2Write
  try dsimp only
  repeat' first | (with_reducible exact h) | (with_reducible assumption) | (with_reducible apply Keeps.onDev) | (intro _ _ _) | (split)

theorem bar0Write_keeps {s t : State} (off : Nat) (v : Word) (wide : Option Word) (h : Keeps true true k s t) :
    Keeps true true k s (bar0Write off v wide t) := by
  unfold bar0Write
  try dsimp only
  repeat' first | (with_reducible exact h) | (with_reducible assumption) | (with_reducible apply pairWrite_keeps) | (with_reducible apply barWrite_keeps) | (with_reducible apply Keeps.onDev) | (intro _ _ _) | (split)

theorem bar0Read_keeps {s t : State} (off : Nat) (wide : Bool) (h : Keeps true f k s t) :
    Keeps true f k s ((bar0Read off wide t).1) := by
  unfold bar0Read
  try dsimp only
  repeat' first | (with_reducible exact h) | (with_reducible assumption) | (with_reducible apply barRead_keeps) | (with_reducible apply Keeps.onDev) | (intro _ _ _) | (split)

theorem mgmtWrite_keeps {s t : State} (off : Nat) (n : Nat) (v : Word) (h : Keeps true true k s t) :
    Keeps true true k s (mgmtWrite off n v t) := by
  unfold mgmtWrite
  try dsimp only
  repeat' first | (with_reducible exact h) | (with_reducible assumption) | (with_reducible apply windowWrite_keeps) | (with_reducible apply write32_keeps) | (with_reducible apply Keeps.onDev) | (intro _ _ _) | (split)

theorem mgmtRead_keeps {s t : State} (off : Nat) (late : Bool) (h : Keeps true f k s t) :
    Keeps true f k s ((mgmtRead off late t).1) := by
  unfold mgmtRead
  try dsimp only
  repeat' first | (with_reducible exact h) | (with_reducible assumption) | (with_reducible apply windowWord_keeps) | (with_reducible apply read32_keeps) | (with_reducible apply Keeps.onDev) | (intro _ _ _) | (split)

theorem startKeep_keeps {s t : State}  (h : Keeps q f true s t) :
    Keeps q f true s (startKeep t) := by
  unfold startKeep
  try dsimp only
  repeat' first | (with_reducible exact h) | (with_reducible assumption) | (with_reducible apply replayKeep_keeps) | (with_reducible apply Keeps.onDev) | (intro _ _ _) | (split)

theorem loadStipple_keeps {s : State}  : ∀ (is : List Nat) {t : State}, Keeps true f k s t →
    Keeps true f k s (loadStipple is t)
  | [], _, h => h
  | i :: is, t, h => by
    unfold loadStipple
    try dsimp only
    repeat' first | (with_reducible exact h) | (with_reducible assumption) | (with_reducible apply loadStipple_keeps) | (with_reducible apply Keeps.flashToQdr) | (with_reducible apply Keeps.onDev) | (intro _ _ _) | (split)

theorem startStipple_keeps {s t : State}  (h : Keeps true f k s t) :
    Keeps true f k s (startStipple t) := by
  unfold startStipple
  try dsimp only
  repeat' first | (with_reducible exact h) | (with_reducible assumption) | (with_reducible apply loadStipple_keeps) | (with_reducible apply Keeps.onDev) | (intro _ _ _) | (split)

theorem loadCurve_keeps {s : State} (g : Nat) : ∀ (is : List Nat) {t : State}, Keeps true f k s t →
    Keeps true f k s (loadCurve g is t)
  | [], _, h => h
  | i :: is, t, h => by
    unfold loadCurve
    try dsimp only
    repeat' first | (with_reducible exact h) | (with_reducible assumption) | (with_reducible apply loadCurve_keeps) | (with_reducible apply Keeps.flashToQdr) | (with_reducible apply Keeps.onDev) | (intro _ _ _) | (split)

theorem startCurves_keeps {s t : State}  (h : Keeps true f k s t) :
    Keeps true f k s (startCurves t) := by
  unfold startCurves
  try dsimp only
  repeat' first | (with_reducible exact h) | (with_reducible assumption) | (with_reducible apply loadCurve_keeps) | (with_reducible apply Keeps.onDev) | (with_reducible refine Keeps.foldl ?_ _ _ ?_) | (intro _ _ _) | (split)

theorem startTables_keeps {s t : State}  (h : Keeps true f k s t) :
    Keeps true f k s (startTables t) := by
  unfold startTables
  try dsimp only
  repeat' first | (with_reducible exact h) | (with_reducible assumption) | (with_reducible apply plateLoad_keeps) | (with_reducible apply startStipple_keeps) | (with_reducible apply startCurves_keeps) | (with_reducible apply Keeps.wrQdr) | (with_reducible apply Keeps.onDev) | (with_reducible refine Keeps.foldl ?_ _ _ ?_) | (intro _ _ _) | (split)

theorem bootWrites_keeps {s t : State} (ws : List (Nat × Nat)) (h : Keeps true true k s t) :
    Keeps true true k s (bootWrites ws t) := by
  unfold bootWrites
  try dsimp only
  repeat' first | (with_reducible exact h) | (with_reducible assumption) | (with_reducible apply regEffect_keeps) | (with_reducible apply Keeps.onDev) | (with_reducible refine Keeps.foldl ?_ _ _ ?_) | (intro _ _ _) | (split)

theorem bootRun_keeps {s t : State} (acc : Bool) (ctl : Nat) (webCtl : Nat) (h : Keeps q f k s t) :
    Keeps q f k s (bootRun acc ctl webCtl t) := by
  unfold bootRun
  simp only [execRunSet, stateOf, onBit]
  try dsimp only
  repeat' first | (with_reducible exact h) | (with_reducible assumption) | (with_reducible apply Keeps.onDev) | (intro _ _ _) | (split)

theorem bootApply_keeps {s t : State} (slot : Nat) (h : Keeps true true k s t) :
    Keeps true true k s (bootApply slot t) := by
  unfold bootApply
  try dsimp only
  repeat' first | (with_reducible exact h) | (with_reducible assumption) | (with_reducible apply bootWrites_keeps) | (with_reducible apply bootRun_keeps) | (with_reducible apply Keeps.onDev) | (intro _ _ _) | (split)

theorem startBoot_keeps {s t : State}  (h : Keeps true true k s t) :
    Keeps true true k s (startBoot t) := by
  unfold startBoot
  try dsimp only
  repeat' first | (with_reducible exact h) | (with_reducible assumption) | (with_reducible apply bootApply_keeps) | (with_reducible apply Keeps.onDev) | (intro _ _ _) | (split)

theorem startStep_keeps {s t : State} (si : StartIn) (h : Keeps true true true s t) :
    Keeps true true true s (startStep si t) := by
  unfold startStep
  try dsimp only
  repeat' first | (with_reducible exact h) | (with_reducible assumption) | (with_reducible apply startKeep_keeps) | (with_reducible apply startTables_keeps) | (with_reducible apply startBoot_keeps) | (with_reducible apply Keeps.onDev) | (intro _ _ _) | (split)

theorem runCmd_keeps {s t : State} (op n : Nat) (g e : Cmd → State → State)
    (hg : ∀ c u, Keeps q f k s u → Keeps q f k s (g c u)) (he : ∀ c u, Keeps q f k s u → Keeps q f k s (e c u))
    (h : Keeps q f k s t) : Keeps q f k s (runCmd op n g e t) := by
  unfold runCmd
  split
  · exact h
  · split
    · exact .ite (he _ _ (h.onDev _)) (hg _ _ (h.onDev _))
    · exact h

end

end Sys2Proof.Machine
end

