-- ==== Sys2Proof/WellFormed.lean ====
section
/-! DEFINITION. Which commands are well formed: an operand holds no more than its wires, its field or its packet can carry. The
meanings are total, so an ill-formed command is not refused; it is one that cannot reach the module. -/

namespace Sys2Proof

/-- A flit's header fields fit their widths and its payload is 28 bytes (R178). -/
def Flit.ok (f : Flit) : Bool :=
  decide (f.type < 16) && decide (f.src < 64) && decide (f.epoch < 256) && decide (f.seq < 1024) && decide (f.flags < 16) &&
  f.payload.length == 28

/-- A segment's fields fit the bytes R221 gives them: a slot of 0 to 31, one byte for channel, profile, class and depth. -/
def Segment.ok (s : Segment) : Bool :=
  decide (s.slot < 32) && decide (s.channel < 256) && decide (s.profile < 256) && decide (s.flags < 65536) && decide (s.cls < 256) &&
  decide (s.depth < 256) && decide (s.px.length < 65536) && s.px.all (fun p => decide (p.v < 65536) && decide (p.dmin < 256) && decide (p.dmax < 256))

/-- A codeword is 36 symbols (R270). -/
def codeOk (c : List Byte) : Bool := c.length == 36

/-- A QDR word's number lies in the 256 MiB of R265. -/
def wordOk (w : Nat) : Bool := decide (w < 0x800000)

/-- The flits a command carries. -/
def Instr.flits : Instr → List Flit
  | .routeRing fl | .routeCut fl | .dresp _ _ fl | .timeReceive _ _ fl | .encReceive _ fl | .heartReceive _ fl | .mapReceive fl
  | .prepare fl _ | .vote fl | .commit fl | .abort fl | .done fl | .token fl | .authReceive fl _ => [fl]
  | .channelState rx | .gladeRelay rx => rx.toList
  | _ => []

/-- The codewords a command carries. -/
def Instr.codes : Instr → List (List Byte)
  | .tableWindowRead _ _ code => code.toList
  | .scrubSweep reads | .slotPacketArrival _ _ _ _ reads | .samplesAccumulated _ _ reads | .captureFrameDone _ reads
  | .recordStaged reads | .segmentReceive _ reads | .mergeWaitExpiry reads => reads.map (·.code)
  | .slotAtTap4 _ _ reads path => reads.map (·.code) ++ path.map (·.code)
  | .scrubForcedCycle found => [found.code]
  | _ => []

/-- The QDR words a command names. -/
def Instr.words : Instr → List Nat
  | .scrubSweep reads | .slotPacketArrival _ _ _ _ reads | .slotAtTap4 _ _ reads _ | .samplesAccumulated _ _ reads
  | .captureFrameDone _ reads | .recordStaged reads | .segmentReceive _ reads | .mergeWaitExpiry reads => reads.map (·.word)
  | .scrubForcedCycle found => [found.word]
  | .tableWordReload w => [w]
  | _ => []

/-- What else a command's operands must satisfy: a command entry is 64 bytes (R247), a descriptor 32 (R237), a flit 36 symbols
(R178), a maximum payload or read request one of PCI Express's sizes, a training event at most four lanes (R185). -/
def Instr.shape : Instr → Bool
  | .commandFetch entry => entry.length == 64
  | .descriptorFetch _ bytes => bytes.length % 32 == 0
  | .flitReceive _ x bytes => bytes.length == 36 && x.badSync.all (fun l => decide (l < 4)) && x.stamp % 1024 == 0
  | .portTraining _ (.signal n) => decide (n ≤ 4)
  | .portTraining _ (.blockLock n) => decide (n ≤ 4)
  | .configurationRequest wr rd _ =>
    wr.all (fun c => [128, 256, 512].contains c.mps && [128, 256, 512, 1024, 2048, 4096].contains c.mrrs) &&
    rd.all (fun o => decide (o < 4096) && o % 4 == 0)
  | .segmentReceive sg _ => sg.ok
  | .slotAtTap4 _ _ _ path => path.all (fun w => decide (w.lane < 5) && decide (w.row < 8) && decide (w.num < 160))
  | .ringCountRead _ mons => decide (mons.length ≤ 12)
  | _ => true

/-- A command is well formed. -/
def Instr.wf (i : Instr) : Bool := i.shape && i.flits.all Flit.ok && i.codes.all codeOk && i.words.all wordOk

end Sys2Proof
end

