-- ==== Sys2Proof/Laws/PerInstr.lean ====
section
/-! SUPPORT. Per command: every flit a well-formed command carries has header fields that fit their widths and 28 payload
bytes (R178). -/

namespace Sys2Proof.Laws.FlitsFit

open Sys2Proof

/-- The flits of a well-formed command fit. -/
def Statement (i : Instr) : Prop := i.wf = true → ∀ f ∈ i.flits, f.ok = true

/-- The flits are among what well-formedness checks. -/
theorem of_wf (i : Instr) : Statement i := by
  intro h f hf
  simp only [Instr.wf, Bool.and_eq_true] at h
  exact List.all_eq_true.mp h.1.1.2 f hf

theorem nop (k : Nat) : Statement (.nop k) := of_wf _
theorem startImaging (k : Nat) : Statement (.startImaging k) := of_wf _
theorem stopImaging (k : Nat) : Statement (.stopImaging k) := of_wf _
theorem acqStage (k : Nat) : Statement (.acqStage k) := of_wf _
theorem acqCommit (k : Nat) : Statement (.acqCommit k) := of_wf _
theorem profileSelectAt (k : Nat) : Statement (.profileSelectAt k) := of_wf _
theorem gladeDeclare (k : Nat) : Statement (.gladeDeclare k) := of_wf _
theorem proofRequest (k : Nat) : Statement (.proofRequest k) := of_wf _
theorem statSnapshot (k : Nat) : Statement (.statSnapshot k) := of_wf _
theorem frameCapture (k : Nat) : Statement (.frameCapture k) := of_wf _
theorem ringReset (k : Nat) : Statement (.ringReset k) := of_wf _
theorem auxSeqLoad (k : Nat) : Statement (.auxSeqLoad k) := of_wf _
theorem auxCalZero (k : Nat) : Statement (.auxCalZero k) := of_wf _
theorem auxCalFull (k : Nat) : Statement (.auxCalFull k) := of_wf _
theorem domainSet (k : Nat) : Statement (.domainSet k) := of_wf _
theorem healthSelftest (k : Nat) : Statement (.healthSelftest k) := of_wf _
theorem marginPlanRun (k : Nat) : Statement (.marginPlanRun k) := of_wf _
theorem logRead (k : Nat) : Statement (.logRead k) := of_wf _
theorem keepRead (k : Nat) (errs : List KeepErr) : Statement (.keepRead k errs) := of_wf _
theorem flashRead (k : Nat) : Statement (.flashRead k) := of_wf _
theorem standQuery (k : Nat) : Statement (.standQuery k) := of_wf _
theorem plateWrite (k : Nat) : Statement (.plateWrite k) := of_wf _
theorem plateCommit (k : Nat) : Statement (.plateCommit k) := of_wf _
theorem curveWrite (k : Nat) : Statement (.curveWrite k) := of_wf _
theorem profileDefine (k : Nat) : Statement (.profileDefine k) := of_wf _
theorem stippleEdit (k : Nat) : Statement (.stippleEdit k) := of_wf _
theorem factoryPlateRestore (k : Nat) : Statement (.factoryPlateRestore k) := of_wf _
theorem standMapSet (k : Nat) : Statement (.standMapSet k) := of_wf _
theorem roleSet (k : Nat) : Statement (.roleSet k) := of_wf _
theorem keyImport (k : Nat) : Statement (.keyImport k) := of_wf _
theorem keyRetire (k : Nat) : Statement (.keyRetire k) := of_wf _
theorem fwStage (k : Nat) : Statement (.fwStage k) := of_wf _
theorem fwSwitch (k : Nat) : Statement (.fwSwitch k) := of_wf _
theorem keepWrite (k : Nat) : Statement (.keepWrite k) := of_wf _
theorem flashErase (k : Nat) : Statement (.flashErase k) := of_wf _
theorem repairPolicySet (k : Nat) : Statement (.repairPolicySet k) := of_wf _
theorem doorbellWrite (n : Fin 16) (v : Word) (wide : Bool) : Statement (.doorbellWrite n v wide) := of_wf _
theorem commandFetch (entry : List Byte) : Statement (.commandFetch entry) := of_wf _
theorem indirectDataFetch (k : Nat) (data : List Byte) : Statement (.indirectDataFetch k data) := of_wf _
theorem completionWrite : Statement (.completionWrite) := of_wf _
theorem mbxGo (p : Path) : Statement (.mbxGo p) := of_wf _
theorem mbxAck (p : Path) : Statement (.mbxAck p) := of_wf _
theorem runSet : Statement (.runSet) := of_wf _
theorem runClear : Statement (.runClear) := of_wf _
theorem fpaCntClr : Statement (.fpaCntClr) := of_wf _
theorem acqCtlCommit : Statement (.acqCtlCommit) := of_wf _
theorem acqCtlCancel : Statement (.acqCtlCancel) := of_wf _
theorem stageCtlWrite (v : Word) : Statement (.stageCtlWrite v) := of_wf _
theorem shadowRelease : Statement (.shadowRelease) := of_wf _
theorem pipeCntClr (loaderr : Bool) (cap : Bool) : Statement (.pipeCntClr loaderr cap) := of_wf _
theorem acCtlWrite (v : Word) : Statement (.acCtlWrite v) := of_wf _
theorem dmCoeffWrite (n : Fin 8) (v : Word) : Statement (.dmCoeffWrite n v) := of_wf _
theorem proofSchedWrite (v : Word) : Statement (.proofSchedWrite v) := of_wf _
theorem shutClear : Statement (.shutClear) := of_wf _
theorem testClose : Statement (.testClose) := of_wf _
theorem testOpen : Statement (.testOpen) := of_wf _
theorem proofCntClr : Statement (.proofCntClr) := of_wf _
theorem preset : Statement (.preset) := of_wf _
theorem flush : Statement (.flush) := of_wf _
theorem webCntClr : Statement (.webCntClr) := of_wf _
theorem webCtlWrite (v : Word) : Statement (.webCtlWrite v) := of_wf _
theorem hostSpeedWrite (v : Word) : Statement (.hostSpeedWrite v) := of_wf _
theorem geoCommit : Statement (.geoCommit) := of_wf _
theorem snap : Statement (.snap) := of_wf _
theorem alarmCntClr : Statement (.alarmCntClr) := of_wf _
theorem alarmQueueClr : Statement (.alarmQueueClr) := of_wf _
theorem alOutWrite (n : Fin 4) (v : Word) : Statement (.alOutWrite n v) := of_wf _
theorem apply : Statement (.apply) := of_wf _
theorem linkCntClr : Statement (.linkCntClr) := of_wf _
theorem scan (q : Port) : Statement (.scan q) := of_wf _
theorem tsSrcWrite (src : Fin 4) : Statement (.tsSrcWrite src) := of_wf _
theorem standCntClr : Statement (.standCntClr) := of_wf _
theorem trimReset : Statement (.trimReset) := of_wf _
theorem hostCntClr : Statement (.hostCntClr) := of_wf _
theorem widthMaxWrite (wm : Fin 4) : Statement (.widthMaxWrite wm) := of_wf _
theorem resume (c : Fin 8) : Statement (.resume c) := of_wf _
theorem ringEnable (n : Fin 16) : Statement (.ringEnable n) := of_wf _
theorem ringDisable (n : Fin 16) : Statement (.ringDisable n) := of_wf _
theorem ringCtlReset (n : Fin 16) : Statement (.ringCtlReset n) := of_wf _
theorem secCntClr : Statement (.secCntClr) := of_wf _
theorem memCntClr : Statement (.memCntClr) := of_wf _
theorem twSelWrite (p : Path) (v : Word) : Statement (.twSelWrite p v) := of_wf _
theorem tableWindowRead (p : Path) (off : Nat) (code : Option (List Byte)) : Statement (.tableWindowRead p off code) := of_wf _
theorem tableWindowWrite (p : Path) (off : Nat) (v : Word) : Statement (.tableWindowWrite p off v) := of_wf _
theorem storeCntClr : Statement (.storeCntClr) := of_wf _
theorem healthCntClr : Statement (.healthCntClr) := of_wf _
theorem mpRun : Statement (.mpRun) := of_wf _
theorem sysRstHost : Statement (.sysRstHost) := of_wf _
theorem sysRstWarm : Statement (.sysRstWarm) := of_wf _
theorem save : Statement (.save) := of_wf _
theorem bootClear : Statement (.bootClear) := of_wf _
theorem clkCntClr : Statement (.clkCntClr) := of_wf _
theorem pwrCntClr : Statement (.pwrCntClr) := of_wf _
theorem balSetpointWrite (v : Word) : Statement (.balSetpointWrite v) := of_wf _
theorem auxSeqCommit : Statement (.auxSeqCommit) := of_wf _
theorem auxRefWrite (sel : Fin 4) : Statement (.auxRefWrite sel) := of_wf _
theorem auxCntClr : Statement (.auxCntClr) := of_wf _
theorem gladeInPolWrite (pol : Bool) : Statement (.gladeInPolWrite pol) := of_wf _
theorem gpCfgWrite (n : Fin 8) (v : Word) : Statement (.gpCfgWrite n v) := of_wf _
theorem ioCntClr : Statement (.ioCntClr) := of_wf _
theorem tmrCtlWrite (n : Fin 8) (v : Word) : Statement (.tmrCtlWrite n v) := of_wf _
theorem registerWrite (p : Path) (off : Nat) (v : Word) (wide : Option Word) : Statement (.registerWrite p off v wide) := of_wf _
theorem lowWordRead (p : Path) (off : Nat) (wide : Bool) : Statement (.lowWordRead p off wide) := of_wf _
theorem highWordWrite (p : Path) (off : Nat) (v : Word) : Statement (.highWordWrite p off v) := of_wf _
theorem partialWrite (off : Nat) : Statement (.partialWrite off) := of_wf _
theorem badAccess (write : Bool) (off : Nat) : Statement (.badAccess write off) := of_wf _
theorem spiHeader (hdr : Word) (mode3 : Bool) : Statement (.spiHeader hdr mode3) := of_wf _
theorem spiWriteWord (v : Word) : Statement (.spiWriteWord v) := of_wf _
theorem spiReadFetch (late : Bool) : Statement (.spiReadFetch late) := of_wf _
theorem spiTransactionEnd (e : SpiEnd) (lowUnsent : Bool) : Statement (.spiTransactionEnd e lowUnsent) := of_wf _
theorem jtagInstruction (code : JtagCode) : Statement (.jtagInstruction code) := of_wf _
theorem frameBoundary : Statement (.frameBoundary) := of_wf _
theorem trigInEdge (encZ : Bool) : Statement (.trigInEdge encZ) := of_wf _
theorem verticalBlanking : Statement (.verticalBlanking) := of_wf _
theorem slotPacketArrival (f : Nat) (slot : Nat) (ok : Bool) (rows : List (List Nat)) (reads : List BurstIn) : Statement (.slotPacketArrival f slot ok rows reads) := of_wf _
theorem slotAtTap4 (f : Nat) (slot : Nat) (reads : List BurstIn) (path : List PathIn) : Statement (.slotAtTap4 f slot reads path) := of_wf _
theorem samplesAccumulated (f : Nat) (slot : Nat) (reads : List BurstIn) : Statement (.samplesAccumulated f slot reads) := of_wf _
theorem idleExitEvaluation : Statement (.idleExitEvaluation) := of_wf _
theorem recordTimeout : Statement (.recordTimeout) := of_wf _
theorem captureFrameDone (b : Fin 2) (reads : List BurstIn) : Statement (.captureFrameDone b reads) := of_wf _
theorem captureAbandoned (b : Fin 2) : Statement (.captureAbandoned b) := of_wf _
theorem stageSample : Statement (.stageSample) := of_wf _
theorem stageSettled : Statement (.stageSettled) := of_wf _
theorem marginLow : Statement (.marginLow) := of_wf _
theorem stageUnreg : Statement (.stageUnreg) := of_wf _
theorem diodeExcl (n : Fin 4) : Statement (.diodeExcl n) := of_wf _
theorem plateSwapFallback : Statement (.plateSwapFallback) := of_wf _
theorem shadowHoldExpiry : Statement (.shadowHoldExpiry) := of_wf _
theorem platePersistDone (ok : Bool) : Statement (.platePersistDone ok) := of_wf _
theorem clusterEvaluation : Statement (.clusterEvaluation) := of_wf _
theorem proofBegin : Statement (.proofBegin) := of_wf _
theorem drivePulseEnd : Statement (.drivePulseEnd) := of_wf _
theorem closedSensed : Statement (.closedSensed) := of_wf _
theorem openSensed : Statement (.openSensed) := of_wf _
theorem shutFault : Statement (.shutFault) := of_wf _
theorem settlingEnd : Statement (.settlingEnd) := of_wf _
theorem offsetsComputed : Statement (.offsetsComputed) := of_wf _
theorem tauFit : Statement (.tauFit) := of_wf _
theorem plateAccepted : Statement (.plateAccepted) := of_wf _
theorem noFrames : Statement (.noFrames) := of_wf _
theorem proofAgeDue : Statement (.proofAgeDue) := of_wf _
theorem proofForceDue : Statement (.proofForceDue) := of_wf _
theorem overdue : Statement (.overdue) := of_wf _
theorem channelCalPass (group : Fin 81) (gains : List (Nat × Nat)) : Statement (.channelCalPass group gains) := of_wf _
theorem gladeInWindow (level : Bool) : Statement (.gladeInWindow level) := of_wf _
theorem speedWindow : Statement (.speedWindow) := of_wf _
theorem declaredWindowEnd : Statement (.declaredWindowEnd) := of_wf _
theorem scheduleWindow : Statement (.scheduleWindow) := of_wf _
theorem profileGladeEnd : Statement (.profileGladeEnd) := of_wf _
theorem encoderEdge (a : Bool) (b : Bool) : Statement (.encoderEdge a b) := of_wf _
theorem indexEdge : Statement (.indexEdge) := of_wf _
theorem encLoss : Statement (.encLoss) := of_wf _
theorem speedEvaluation : Statement (.speedEvaluation) := of_wf _
theorem webStopped : Statement (.webStopped) := of_wf _
theorem alarmIntervalEnter : Statement (.alarmIntervalEnter) := of_wf _
theorem alarmIntervalRetire : Statement (.alarmIntervalRetire) := of_wf _
theorem alarmPulseEnd (n : Fin 4) : Statement (.alarmPulseEnd n) := of_wf _
theorem flitReceive (q : Port) (x : FlitIn) (bytes : List Byte) : Statement (.flitReceive q x bytes) := of_wf _
theorem portTraining (q : Port) (ev : TrainEv) : Statement (.portTraining q ev) := of_wf _
theorem trainTimeout (q : Port) : Statement (.trainTimeout q) := of_wf _
theorem portDown (q : Port) : Statement (.portDown q) := of_wf _
theorem laneFailed (q : Port) (lane : Fin 4) : Statement (.laneFailed q lane) := of_wf _
theorem laneReturn (q : Port) (lane : Fin 4) : Statement (.laneReturn q lane) := of_wf _
theorem lmGroup (q : Port) (use_ : BitVec 4) (req : BitVec 4) (ack : Bool) (cnt : BitVec 16) : Statement (.lmGroup q use_ req ack cnt) := of_wf _
theorem routeRing (fl : Flit) : Statement (.routeRing fl) := of_wf _
theorem routeCut (fl : Flit) : Statement (.routeCut fl) := of_wf _
theorem dreq (q : Port) : Statement (.dreq q) := of_wf _
theorem dresp (q : Port) (t4 : Nat) (fl : Flit) : Statement (.dresp q t4 fl) := of_wf _
theorem timeSend : Statement (.timeSend) := of_wf _
theorem timeReceive (q : Port) (tIn : Nat) (fl : Flit) : Statement (.timeReceive q tIn fl) := of_wf _
theorem timeHoldover : Statement (.timeHoldover) := of_wf _
theorem encSend : Statement (.encSend) := of_wf _
theorem encReceive (q : Port) (fl : Flit) : Statement (.encReceive q fl) := of_wf _
theorem encExtrapolate (t : Nat) : Statement (.encExtrapolate t) := of_wf _
theorem encSampleLoss : Statement (.encSampleLoss) := of_wf _
theorem heartSend : Statement (.heartSend) := of_wf _
theorem heartReceive (q : Port) (fl : Flit) : Statement (.heartReceive q fl) := of_wf _
theorem membershipEvaluation : Statement (.membershipEvaluation) := of_wf _
theorem mapReceive (fl : Flit) : Statement (.mapReceive fl) := of_wf _
theorem mapRepeat : Statement (.mapRepeat) := of_wf _
theorem takeover : Statement (.takeover) := of_wf _
theorem channelState (rx : Option Flit) : Statement (.channelState rx) := of_wf _
theorem prepare (fl : Flit) (data : List Byte) : Statement (.prepare fl data) := of_wf _
theorem vote (fl : Flit) : Statement (.vote fl) := of_wf _
theorem prepTimeout : Statement (.prepTimeout) := of_wf _
theorem commit (fl : Flit) : Statement (.commit fl) := of_wf _
theorem abort (fl : Flit) : Statement (.abort fl) := of_wf _
theorem done (fl : Flit) : Statement (.done fl) := of_wf _
theorem commitTimeout : Statement (.commitTimeout) := of_wf _
theorem gladeRelay (rx : Option Flit) : Statement (.gladeRelay rx) := of_wf _
theorem token (fl : Flit) : Statement (.token fl) := of_wf _
theorem tokenWithdraw : Statement (.tokenWithdraw) := of_wf _
theorem segmentReceive (sg : Segment) (reads : List BurstIn) : Statement (.segmentReceive sg reads) := of_wf _
theorem mergeWaitExpiry (reads : List BurstIn) : Statement (.mergeWaitExpiry reads) := of_wf _
theorem authReceive (fl : Flit) (data : List Byte) : Statement (.authReceive fl data) := of_wf _
theorem rootResume : Statement (.rootResume) := of_wf _
theorem descriptorFetch (n : Fin 16) (bytes : List Byte) : Statement (.descriptorFetch n bytes) := of_wf _
theorem dmaCompletion (r : Nat) (cause : CplCause) (bytes : List Byte) : Statement (.dmaCompletion r cause bytes) := of_wf _
theorem completionTimeout (r : Nat) : Statement (.completionTimeout r) := of_wf _
theorem dmaReissue (r : Nat) : Statement (.dmaReissue r) := of_wf _
theorem recordStaged (reads : List BurstIn) : Statement (.recordStaged reads) := of_wf _
theorem bufferHoldExpiry (n : Fin 16) : Statement (.bufferHoldExpiry n) := of_wf _
theorem bufferComplete (n : Fin 16) : Statement (.bufferComplete n) := of_wf _
theorem msiXMessage (v : Fin 32) : Statement (.msiXMessage v) := of_wf _
theorem busMasterChange (bme : Bool) (d3hot : Bool) : Statement (.busMasterChange bme d3hot) := of_wf _
theorem linkDown (flr : Bool) : Statement (.linkDown flr) := of_wf _
theorem perstN (low : Bool) : Statement (.perstN low) := of_wf _
theorem ptmDialog (valid : Bool) (tn : Nat) (mn : Nat) : Statement (.ptmDialog valid tn mn) := of_wf _
theorem firmwareSound : Statement (.firmwareSound) := of_wf _
theorem fwTrialExpiry : Statement (.fwTrialExpiry) := of_wf _
theorem keepPageWriteDone (ok : Bool) : Statement (.keepPageWriteDone ok) := of_wf _
theorem flashWriteDone (ok : Bool) : Statement (.flashWriteDone ok) := of_wf _
theorem scrubSweep (found : List BurstIn) : Statement (.scrubSweep found) := of_wf _
theorem scrubForcedCycle (found : BurstIn) : Statement (.scrubForcedCycle found) := of_wf _
theorem tableWordReload (w : Nat) : Statement (.tableWordReload w) := of_wf _
theorem healthTestComplete (ss : Fin 16) (elem : Nat) (pass : Bool) : Statement (.healthTestComplete ss elem pass) := of_wf _
theorem testNotPossible (ss : Fin 16) (elem : Nat) : Statement (.testNotPossible ss elem) := of_wf _
theorem restoreRetest (ss : Fin 16) (elem : Nat) (pass : Bool) : Statement (.restoreRetest ss elem pass) := of_wf _
theorem ringCountRead (dfs : List Int) (mons : List (Int × Int × Int)) : Statement (.ringCountRead dfs mons) := of_wf _
theorem marginPlanDue : Statement (.marginPlanDue) := of_wf _
theorem marginPlan (mp : PlanIn) : Statement (.marginPlan mp) := of_wf _
theorem marginPlanGladeTimeout : Statement (.marginPlanGladeTimeout) := of_wf _
theorem drainEnd (d : Fin 112) : Statement (.drainEnd d) := of_wf _
theorem drainLimitExpiry (d : Fin 112) (left : Nat) : Statement (.drainLimitExpiry d left) := of_wf _
theorem domainOff (d : Fin 112) : Statement (.domainOff d) := of_wf _
theorem domainUsable (d : Fin 112) : Statement (.domainUsable d) := of_wf _
theorem onDemandIdle (d : Fin 112) : Statement (.onDemandIdle d) := of_wf _
theorem ballastSample (pIn : Nat) (pFpa : Nat) (pHeater : Nat) (pBal : Nat) : Statement (.ballastSample pIn pFpa pHeater pBal) := of_wf _
theorem ballastSat : Statement (.ballastSat) := of_wf _
theorem satWindowExpiry : Statement (.satWindowExpiry) := of_wf _
theorem refclkLost : Statement (.refclkLost) := of_wf _
theorem holdoverExpiry : Statement (.holdoverExpiry) := of_wf _
theorem refclkReturn : Statement (.refclkReturn) := of_wf _
theorem powerOnResetRelease (role1 : Bool) (role0 : Bool) : Statement (.powerOnResetRelease role1 role0) := of_wf _
theorem brownout : Statement (.brownout) := of_wf _
theorem vioLow (bank : Bool) : Statement (.vioLow bank) := of_wf _
theorem resetN (low : Bool) (role1 : Bool) (role0 : Bool) : Statement (.resetN low role1 role0) := of_wf _
theorem pllLock : Statement (.pllLock) := of_wf _
theorem startUpStep (si : StartIn) : Statement (.startUpStep si) := of_wf _
theorem auxRound : Statement (.auxRound) := of_wf _
theorem auxEntryResult (n : Fin 16) (sum : Nat) : Statement (.auxEntryResult n sum) := of_wf _
theorem auxCalMeasurementDone (sum : Nat) : Statement (.auxCalMeasurementDone sum) := of_wf _
theorem refSettled (valid : Bool) : Statement (.refSettled valid) := of_wf _
theorem auxRecordClose : Statement (.auxRecordClose) := of_wf _
theorem timeInEdge : Statement (.timeInEdge) := of_wf _
theorem timeInHoldover : Statement (.timeInHoldover) := of_wf _
theorem timerCompare (n : Fin 8) : Statement (.timerCompare n) := of_wf _
theorem timerCapture (n : Fin 8) : Statement (.timerCapture n) := of_wf _
theorem shutPosChange (which : Bool) (level : Bool) : Statement (.shutPosChange which level) := of_wf _
theorem declaredWindowBegin : Statement (.declaredWindowBegin) := of_wf _
theorem encFailsafeEnd : Statement (.encFailsafeEnd) := of_wf _
theorem ptmHoldover : Statement (.ptmHoldover) := of_wf _
theorem segmentHoldLimit : Statement (.segmentHoldLimit) := of_wf _
theorem pcieLinkUp (speed : Fin 6) (width : Fin 5) : Statement (.pcieLinkUp speed width) := of_wf _
theorem pcieRetrain (enter : Bool) (speed : Fin 6) (width : Fin 5) : Statement (.pcieRetrain enter speed width) := of_wf _
theorem configurationRequest (wr : Option CfgCtl) (rd : Option Nat) (clr : Option (Word × Word)) : Statement (.configurationRequest wr rd clr) := of_wf _
theorem sweepComplete : Statement (.sweepComplete) := of_wf _
theorem operatingTimeIncrement : Statement (.operatingTimeIncrement) := of_wf _
theorem vioRestored (bank : Bool) : Statement (.vioRestored bank) := of_wf _
theorem frameStrobeEnd : Statement (.frameStrobeEnd) := of_wf _
theorem newFirmwareRuns : Statement (.newFirmwareRuns) := of_wf _
theorem fwSwitchTick : Statement (.fwSwitchTick) := of_wf _
theorem laneMaskSwitch (q : Port) (tx : Bool) : Statement (.laneMaskSwitch q tx) := of_wf _

end Sys2Proof.Laws.FlitsFit
end

