-- ==== Sys2Proof/Tests/Slice0.lean ====
section
/-! SUPPORT. Small tests: well-formedness refuses ill-formed operands, and concrete states meet the conditions of the statements. -/

set_option Elab.async false
set_option maxRecDepth 10000
set_option linter.unusedVariables false

namespace Sys2Proof.Tests

open Sys2Proof Sys2Proof.Machine

/-! ### Well-formedness: a well-formed term, and for each check a term that it refuses -/

def zeroFlit : Flit := ⟨0, 0, 0, 0, 0, List.replicate 28 0⟩

theorem test_wf_flit : (Instr.vote zeroFlit).wf = true := by decide +kernel
theorem test_wf_flit_type : (Instr.vote { zeroFlit with type := 16 }).wf = false := by decide +kernel
theorem test_wf_flit_src : (Instr.vote { zeroFlit with src := 64 }).wf = false := by decide +kernel
theorem test_wf_flit_epoch : (Instr.vote { zeroFlit with epoch := 256 }).wf = false := by decide +kernel
theorem test_wf_flit_seq : (Instr.vote { zeroFlit with seq := 1024 }).wf = false := by decide +kernel
theorem test_wf_flit_flags : (Instr.vote { zeroFlit with flags := 16 }).wf = false := by decide +kernel
theorem test_wf_flit_payload : (Instr.vote { zeroFlit with payload := [] }).wf = false := by decide +kernel

def zeroSeg : Segment := ⟨0, 0, 0, 0, 0, 0, 0, 0, 0, 0, [⟨0, false, 0, 0⟩], true⟩

theorem test_wf_segment : (Instr.segmentReceive zeroSeg []).wf = true := by decide +kernel
theorem test_wf_segment_slot : (Instr.segmentReceive { zeroSeg with slot := 32 } []).wf = false := by decide +kernel
theorem test_wf_segment_channel : (Instr.segmentReceive { zeroSeg with channel := 256 } []).wf = false := by decide +kernel
theorem test_wf_segment_profile : (Instr.segmentReceive { zeroSeg with profile := 256 } []).wf = false := by decide +kernel
theorem test_wf_segment_flags : (Instr.segmentReceive { zeroSeg with flags := 65536 } []).wf = false := by decide +kernel
theorem test_wf_segment_class : (Instr.segmentReceive { zeroSeg with cls := 256 } []).wf = false := by decide +kernel
theorem test_wf_segment_depth : (Instr.segmentReceive { zeroSeg with depth := 256 } []).wf = false := by decide +kernel
theorem test_wf_segment_value : (Instr.segmentReceive { zeroSeg with px := [⟨65536, false, 0, 0⟩] } []).wf = false := by decide +kernel
theorem test_wf_segment_dmin : (Instr.segmentReceive { zeroSeg with px := [⟨0, false, 256, 0⟩] } []).wf = false := by decide +kernel
theorem test_wf_segment_dmax : (Instr.segmentReceive { zeroSeg with px := [⟨0, false, 0, 256⟩] } []).wf = false := by decide +kernel
theorem test_wf_segment_length : (Instr.segmentReceive { zeroSeg with px := List.replicate 65536 ⟨0, false, 0, 0⟩ } []).wf = false := by
  have h : decide ((List.replicate 65536 (⟨0, false, 0, 0⟩ : SegPx)).length < 65536) = false := by rw [List.length_replicate]; rfl
  unfold Instr.wf Instr.shape Segment.ok
  simp only [h, Bool.and_false, Bool.false_and]

def zeroCode : List Byte := List.replicate 36 0

theorem test_wf_scrub : (Instr.scrubSweep [⟨0x7FFFFF, zeroCode, false⟩]).wf = true := by decide +kernel
theorem test_wf_word : (Instr.scrubSweep [⟨0x800000, zeroCode, false⟩]).wf = false := by decide +kernel
theorem test_wf_code : (Instr.scrubSweep [⟨0, [], false⟩]).wf = false := by decide +kernel
theorem test_wf_entry : (Instr.commandFetch (List.replicate 63 0)).wf = false := by decide +kernel
theorem test_wf_descriptor : (Instr.descriptorFetch 0 (List.replicate 31 0)).wf = false := by decide +kernel
theorem test_wf_flit_bytes : (Instr.flitReceive .east ⟨0, false, 0, []⟩ []).wf = false := by decide +kernel
theorem test_wf_flit_lane : (Instr.flitReceive .east ⟨0, false, 0, [4]⟩ zeroCode).wf = false := by decide +kernel
theorem test_wf_flit_stamp : (Instr.flitReceive .east ⟨0, false, 1, []⟩ zeroCode).wf = false := by decide +kernel
theorem test_wf_signal : (Instr.portTraining .east (.signal 5)).wf = false := by decide +kernel
theorem test_wf_block_lock : (Instr.portTraining .east (.blockLock 5)).wf = false := by decide +kernel

def zeroCfg : CfgCtl := ⟨128, 128, false, false, false, false, false, false, none⟩

theorem test_wf_config : (Instr.configurationRequest (some zeroCfg) (some 0xFFC) none).wf = true := by decide +kernel
theorem test_wf_config_mps : (Instr.configurationRequest (some { zeroCfg with mps := 1024 }) none none).wf = false := by decide +kernel
theorem test_wf_config_mrrs : (Instr.configurationRequest (some { zeroCfg with mrrs := 64 }) none none).wf = false := by decide +kernel
theorem test_wf_config_range : (Instr.configurationRequest none (some 0x1000) none).wf = false := by decide +kernel
theorem test_wf_config_align : (Instr.configurationRequest none (some 2) none).wf = false := by decide +kernel
theorem test_wf_path_lane : (Instr.slotAtTap4 0 0 [] [⟨5, 0, 0, zeroCode⟩]).wf = false := by decide +kernel
theorem test_wf_path_row : (Instr.slotAtTap4 0 0 [] [⟨0, 8, 0, zeroCode⟩]).wf = false := by decide +kernel
theorem test_wf_path_num : (Instr.slotAtTap4 0 0 [] [⟨0, 0, 160, zeroCode⟩]).wf = false := by decide +kernel
theorem test_wf_monitors : (Instr.ringCountRead [] (List.replicate 13 (0, 0, 0))).wf = false := by decide +kernel
theorem test_wf_reload : (Instr.tableWordReload 0x800000).wf = false := by decide +kernel

/-! ### Witnesses: a state that meets the conditions of each clause of the statements -/

/-- The command entry with an opcode and the parameters given by offset, width and value (R247). -/
def entryOf (op : Nat) (ps : List (Nat × Nat × Nat)) : List Byte :=
  ps.foldl (fun b p => (List.range p.2.1).foldl (fun b i => b.set (p.1 + i) (BitVec.ofNat 8 (p.2.2 / 256 ^ i))) b)
    (leBytes 2 op ++ List.replicate 62 0)

/-- A command held under number 7 whose data have come and whose checks are done. -/
def cmdOf (op : Nat) (ps : List (Nat × Nat × Nat)) (data : List Byte) : Cmd := ⟨7, entryOf op ps, 0, .ring, data, true, true, false, 0⟩

/-- The reset state after a change of the block. -/
def on (f : Dev → Dev) : State := State.reset.onDev f

/-- The reset state holding a command, after a change of the block. -/
def holding (c : Cmd) (f : Dev → Dev) : State := on (fun d => f (d.onSec fun z => { z with cmds := [c] }))

/-- The plate regions hold valid plates: region 0 of the given range ACTIVE, region 2 of the other range STANDBY. -/
def plated (d : Dev) : Dev :=
  (((d.put F.PIPE_PL_STAT_ACTIVE_REG 0).put F.PIPE_PL_STAT_SHADOW_REG 1).put F.PIPE_PL_STAT_STANDBY_REG 2).onPipe fun z =>
    { z with regions := [⟨true, 0, 0, 1⟩, ⟨true, 0, 0, 1⟩, ⟨true, 1, 0, 1⟩] }


/-- A profile image with every field in its range and no lanes (R160). -/
def profileImage : List Byte :=
  leBytes 2 1 ++ leBytes 4 0 ++ [1, 0] ++ leBytes 2 50 ++ leBytes 2 1 ++ List.replicate 1588 0

/-- The entry of an active module: its identity, its place and its window (R201). -/
def activeEnt (id col0 : Nat) : MapEnt := ⟨id, 1, 0xFF, 0, 0, col0, 0⟩

/-- A stand of the modules with the given identities, side by side, whose root is slot 0. -/
def mapOfIds (ids : List Nat) : StandMap :=
  ⟨0, 0, 9, (ids.mapIdx fun i id => activeEnt id (2496 * i)) ++ List.replicate (32 - ids.length) MapEnt.empty⟩

/-- The module is slot `slot`, with a role, of a stand under such a map. -/
def inStandOf (ids : List Nat) (slot role : Nat) (d : Dev) : Dev :=
  (((d.putBit F.STAND_CTL_EN true).put F.STAND_STAT_SLOT slot).put F.STAND_STAT_ROLE role).onStand fun z => { z with map := some (mapOfIds ids) }

/-- The block at a tick of the timebase. -/
def atTick (t : Nat) (d : Dev) : Dev := { d with now := BitVec.ofNat 64 t }

/-- A frame of a set with its boundary and its slots, and nothing else of note. -/
def frameOf (cnt b : Nat) (set : AcqSet) (slots : List SlotX) : Frame :=
  ⟨cnt, b, 1, set, [], 303150, 0, 300000, 0, 1, false, false, false, false, none, slots, none, false, false, [], [], [], [], none, 0, 0, 0, none, false,
   [], 0, ⟨0, 0, 0, 0, 0, 0, 0⟩, false⟩

/-- A proof that has begun and gathered nothing. -/
def proofRun : ProofRun :=
  ⟨0, 2, 1, 0, 0, [], 0, none, [], [], [], false, 0, 0, 0, 0, 0, 0, 0, 0, [], 0, 0, [], false, none, [], 0, false, false, false, []⟩

/-- A set of one row slot and one column group. -/
def smallSet : AcqSet := { AcqSet.reset with rowSlots := 1, cgCount := 1 }

/-- A ring in a state, of the given size, with its indices. -/
def ringAs (n state log2 h m : Nat) (d : Dev) : Dev :=
  (((d.put (F.HOST_RING_STAT_STATE.at n) state).put (F.HOST_RING_SIZE_LOG2.at n) log2).put (F.HOST_RING_HIDX_VAL.at n) h).put (F.HOST_RING_MIDX_VAL.at n) m

/-- The PCIe link is up, with bus mastering on. -/
def linkUp (d : Dev) : Dev := (d.putBit F.HOST_STAT_LINK_UP true).putBit F.HOST_STAT_BME true

/-- A request that is outstanding on a channel. -/
def reqOf (id chan ring len : Nat) (k : ReqKind) : Req := ⟨id, chan, ring, 0x1000, len, 0, k, .out (some 1000000), 0⟩

/-- A proof is requested, no glade is needed, and every condition of its start holds at tick 1000 (R122). -/
def proofTime (d : Dev) : Dev :=
  let d := ((((plated d).put F.PROOF_REQ_REQ 4).putBit F.PROOF_CTL_EN true).putBit F.FPA_CTL_RUN true).put F.FPA_STAGE_STAT_STATE 3
  atTick 1000 ((d.put F.PIPE_RAD_CV_STAT_SRC_H 1).onProof fun z => { z with condT := some 0 })

/-- A slot of a frame that has arrived, with nothing in it. -/
def slotOf (n : Nat) (done : Bool) : SlotX := ⟨n, false, [], [], [], [], [], [], done, false, false, []⟩

/-- An open line at the coordinate 0 that one sample row has reached. -/
def webLine : Line := ⟨0, 1, 1, 0, 1, 1, 0, List.replicate 4 ⟨4, 4 * 15000, 1, false⟩, 0, none⟩

/-- Accumulation runs with a flat geometry map and a grid of 1 mm pitch laid at 0, whose first line is open. -/
def webRuns (d : Dev) : Dev :=
  (d.putBit F.WEB_CTL_ACC_EN true).onWeb fun z =>
    { z with geo := some ⟨List.replicate 64 0, List.replicate 2048 0, []⟩, profs := [(3, profileImage.set 8 0xE8 |>.set 9 3)], cur := some ⟨0, 3, true⟩,
             lines := [webLine] }

/-- A port is UP with the same lanes both ways. -/
def portUp (p mask : Nat) (d : Dev) : Dev :=
  (((d.put (F.LINK_P_STAT_STATE.at p) 4).put (F.LINK_P_STAT_RX_LANES.at p) mask).put (F.LINK_P_STAT_TX_LANES.at p) mask).onLink fun z =>
    { z with ports := z.ports.set p { (z.ports.getD p PortX.reset) with rxMask := mask, txMask := mask } }

/-- Change a port beside its registers. -/
def onPortX (p : Nat) (f : PortX → PortX) (d : Dev) : Dev := d.onLink fun z => { z with ports := z.ports.set p (f (z.ports.getD p PortX.reset)) }

/-- A flit with the first bytes of its payload. -/
def flitOf (type src flags : Nat) (b : List Byte) : Flit := ⟨type, src, 0, 0, flags, b ++ List.replicate (28 - b.length) 0⟩

/-- A group command of the root towards slots 1 and 2. -/
def groupOf (phase : Nat) : Group := ⟨some 7, none, entryOf 0x0004 [], [], 3, 0b110, phase, 0, [], 0, 0, [], 0, 0, 0⟩

/-- The module is the root of a stand of three with a group command. -/
def rootWith (g : Group) (d : Dev) : Dev := (inStandOf [1, 2, 3] 0 1 d).onStand fun z => { z with group := some g }

/-- A segment of a slot on channel 0 at a coordinate. -/
def segOf (slot : Nat) (web : BitVec 64) (whole : Bool) : Segment :=
  ⟨slot, 0, 3, 0, web, 1000, 1, 1, 0, 4, List.replicate 4 ⟨15000, false, 4, 4⟩, whole⟩

/-- A buffer that holds one record and is open. -/
def heldBuf : Buf := { freshBuf ⟨0x1000, 64, 0, []⟩ false with data := List.replicate 64 1, recs := 1, firstT := some 0 }

/-- Ring 3 holds it. -/
def bufOn (d : Dev) : Dev := d.onHost fun z => { z with rings := z.rings.set 3 ⟨[], [heldBuf], false, false, false⟩ }

/-- Both windows show an instance of a table from its first byte. -/
def winOn (t inst : Nat) (d : Dev) : Dev :=
  { d with paths := d.paths.map fun p => { p with twSel := BitVec.ofNat 32 (t + 256 * inst), twBase := 0 } }

/-- A frame at TAP4 in the second frame buffer, being captured for ring 6. -/
def capBuf : CapBuf := ⟨1, 0, 1000000, ⟨7, 4, 6, 1, none, 0, 0, 0, 0⟩, 0, false⟩

/-- The second frame buffer holds it. -/
def capOn (d : Dev) : Dev := d.onPipe fun z => { z with cap := some capBuf.cap, capBufs := [none, some capBuf] }

/-- A test of an element that heads its queue. -/
def testOf (ss elem : Nat) : TestQ := ⟨ss, elem, 0x0002, 0, 0, false⟩

/-- The queue of self-tests holds it. -/
def tested (ss elem : Nat) (d : Dev) : Dev := d.onHealth fun z => { z with queue := [testOf ss elem] }

/-- Out of reset with a start-up step in progress. -/
def atStep (n : Nat) (d : Dev) : Dev := (d.put F.SYS_START_STEP n).onPwr fun z => { z with por := false, rstLow := false }

/-- No held command names another slot. -/
theorem others_none {i : Instr} {s : State} (h : s.dev.sec.cmds.all (fun c => (c.others s.dev).isEmpty) = true) : NamesNoOther i s :=
  fun _ _ _ c hc => List.all_eq_true.1 h c (List.mem_of_find?_eq_some hc)

theorem of_isNone {α : Type} {o : Option α} {Q : α → Prop} (h : o.isNone = true) : ∀ p, o = some p → Q p := by
  rintro p rfl
  cases h

theorem of_isEmpty {α : Type} {l : List α} {Q : α → Prop} (h : l.isEmpty = true) : ∀ x ∈ l, Q x := by
  cases l <;> simp_all

theorem of_some {α : Type} {o : Option α} {a : α} {Q : α → Prop} (h : o = some a) (q : Q a) : ∀ p, o = some p → Q p := by
  rintro p hp
  cases h.symm.trans hp
  exact q

theorem test_meets_read_commands_complete :
    (∃ (s : State) (k : Nat) (c : Cmd), Ready s 0x0000 k c) ∧
    (∃ (s : State) (k : Nat) (c : Cmd), Ready s 0x0011 k c) ∧
    (∃ (s : State) (k : Nat) (c : Cmd), Ready s 0x0012 k c ∧ c.f 24 4 + c.ilen ≤ 0x80000 ∧ ((0x2400 ≤ c.f 24 4 ∨ c.ilen = 0))) ∧
    (∃ (s : State) (k : Nat) (c : Cmd), Ready s 0x0013 k c ∧ c.f 32 8 + c.ilen ≤ 0x20000000) ∧
    (∃ (s : State) (k : Nat) (c : Cmd), Ready s 0x0014 k c) :=
  ⟨⟨holding (cmdOf 0x0000 [] []) (fun d => d), 7, (cmdOf 0x0000 [] []), ⟨by decide +kernel, by decide +kernel, by decide +kernel, by decide +kernel⟩⟩,
   ⟨holding (cmdOf 0x0011 [(12, 4, 64)] []) (fun d => d), 7, (cmdOf 0x0011 [(12, 4, 64)] []), ⟨by decide +kernel, by decide +kernel, by decide +kernel, by decide +kernel⟩⟩,
   ⟨holding (cmdOf 0x0012 [(24, 4, 0x7FFF0), (12, 4, 16)] []) (fun d => d), 7, (cmdOf 0x0012 [(24, 4, 0x7FFF0), (12, 4, 16)] []), ⟨by decide +kernel, by decide +kernel, by decide +kernel, by decide +kernel⟩, by decide +kernel, by decide +kernel⟩,
   ⟨holding (cmdOf 0x0013 [(32, 8, 0x1FFFFFF0), (12, 4, 16)] []) (fun d => d), 7, (cmdOf 0x0013 [(32, 8, 0x1FFFFFF0), (12, 4, 16)] []), ⟨by decide +kernel, by decide +kernel, by decide +kernel, by decide +kernel⟩, by decide +kernel⟩,
   ⟨holding (cmdOf 0x0014 [(12, 4, 64)] []) (fun d => d), 7, (cmdOf 0x0014 [(12, 4, 64)] []), ⟨by decide +kernel, by decide +kernel, by decide +kernel, by decide +kernel⟩⟩⟩

theorem test_meets_imaging_commands_complete :
    (∃ (s : State) (k : Nat) (c : Cmd), Ready s 0x0001 k c ∧ s.dev.bit F.FPA_CTL_RUN = false ∧ checkSet s.dev s.dev.firstSet = 0) ∧
    (∃ (s : State) (k : Nat) (c : Cmd), Ready s 0x0002 k c) ∧
    (∃ (s : State) (k : Nat) (c : Cmd), Ready s 0x0003 k c ∧ c.p8 24 ≤ 3) ∧
    (∃ (s : State) (k : Nat) (c : Cmd), Ready s 0x0004 k c ∧ c.p8 24 ≤ 3 ∧ c.p8 25 = 0 ∧ checkSet s.dev (s.dev.setOf (c.p8 24)) = 0 ∧ s.dev.tallyFailed 9 = false ∧ ((∀ p, s.dev.fpa.pend = some p → p.k ≠ some k))) :=
  ⟨⟨holding (cmdOf 0x0001 [] []) (plated), 7, (cmdOf 0x0001 [] []), ⟨by decide +kernel, by decide +kernel, by decide +kernel, by decide +kernel⟩, by decide +kernel, by decide +kernel⟩,
   ⟨holding (cmdOf 0x0002 [] []) (fun d => d), 7, (cmdOf 0x0002 [] []), ⟨by decide +kernel, by decide +kernel, by decide +kernel, by decide +kernel⟩⟩,
   ⟨holding (cmdOf 0x0003 [(24, 1, 3)] (List.replicate 32 0x11)) (fun d => d), 7, (cmdOf 0x0003 [(24, 1, 3)] (List.replicate 32 0x11)), ⟨by decide +kernel, by decide +kernel, by decide +kernel, by decide +kernel⟩, by decide +kernel⟩,
   ⟨holding (cmdOf 0x0004 [(24, 1, 3)] []) (plated), 7, (cmdOf 0x0004 [(24, 1, 3)] []), ⟨by decide +kernel, by decide +kernel, by decide +kernel, by decide +kernel⟩, by decide +kernel, by decide +kernel, by decide +kernel, by decide +kernel, (of_isNone (by decide +kernel))⟩⟩

theorem test_meets_web_and_proof_commands_complete :
    (∃ (s : State) (k : Nat) (c : Cmd), Ready s 0x0005 k c ∧ s.dev.selectErr (c.p8 24) (profileX s.dev c) = 0) ∧
    (∃ (s : State) (k : Nat) (c : Cmd), Ready s 0x0006 k c) ∧
    (∃ (s : State) (k : Nat) (c : Cmd), Ready s 0x0007 k c ∧ c.p8 24 < 2) ∧
    (∃ (s : State) (k : Nat) (c : Cmd), Ready s 0x0007 k c ∧ c.p8 24 = 2) ∧
    (∃ (s : State) (k : Nat) (c : Cmd), Ready s 0x0008 k c) ∧
    (∃ (s : State) (k : Nat) (c : Cmd), Ready s 0x0009 k c ∧ 0 < c.f 28 2 ∧ c.p8 24 ≤ 4 ∧ ((c.p8 25 = 6 ∨ c.p8 25 = 7)) ∧ 0 < c.f 26 2 ∧ c.f 26 2 ≤ 256) ∧
    (∃ (s : State) (k : Nat) (c : Cmd), Ready s 0x8004 k c ∧ profOk c.data = true ∧ s.dev.profUsed (leAt c.data 2 1) = false) :=
  ⟨⟨holding (cmdOf 0x0005 [(24, 1, 3)] []) (fun d => d.onWeb fun z => { z with profs := [(3, profileImage)] }), 7, (cmdOf 0x0005 [(24, 1, 3)] []), ⟨by decide +kernel, by decide +kernel, by decide +kernel, by decide +kernel⟩, by decide +kernel⟩,
   ⟨holding (cmdOf 0x0006 [(24, 2, 5)] []) (fun d => d), 7, (cmdOf 0x0006 [(24, 2, 5)] []), ⟨by decide +kernel, by decide +kernel, by decide +kernel, by decide +kernel⟩⟩,
   ⟨holding (cmdOf 0x0007 [(24, 1, 1)] []) (fun d => d), 7, (cmdOf 0x0007 [(24, 1, 1)] []), ⟨by decide +kernel, by decide +kernel, by decide +kernel, by decide +kernel⟩, by decide +kernel⟩,
   ⟨holding (cmdOf 0x0007 [(24, 1, 2)] []) (fun d => d), 7, (cmdOf 0x0007 [(24, 1, 2)] []), ⟨by decide +kernel, by decide +kernel, by decide +kernel, by decide +kernel⟩, by decide +kernel⟩,
   ⟨holding (cmdOf 0x0008 [] []) (fun d => d), 7, (cmdOf 0x0008 [] []), ⟨by decide +kernel, by decide +kernel, by decide +kernel, by decide +kernel⟩⟩,
   ⟨holding (cmdOf 0x0009 [(24, 1, 4), (25, 1, 7), (26, 2, 256), (28, 2, 0xFFFF)] []) (fun d => d), 7, (cmdOf 0x0009 [(24, 1, 4), (25, 1, 7), (26, 2, 256), (28, 2, 0xFFFF)] []), ⟨by decide +kernel, by decide +kernel, by decide +kernel, by decide +kernel⟩, by decide +kernel, by decide +kernel, by decide +kernel, by decide +kernel, by decide +kernel⟩,
   ⟨holding (cmdOf 0x8004 [] profileImage) (fun d => d), 7, (cmdOf 0x8004 [] profileImage), ⟨by decide +kernel, by decide +kernel, by decide +kernel, by decide +kernel⟩, by decide +kernel, by decide +kernel⟩⟩

theorem test_meets_service_commands_complete :
    (∃ (s : State) (k : Nat) (c : Cmd), Ready s 0x000B k c ∧ leAt c.data 0 2 = 1 ∧ leAt c.data 6 10 = 0 ∧ checkSeq (auxStaged c.data s.dev) (auxStaged c.data s.dev).stagedSeq = 0) ∧
    (∃ (s : State) (k : Nat) (c : Cmd), Ready s 0x000A k c ∧ 2 ≤ c.p8 24 ∧ c.p8 24 < 16) ∧
    (∃ (s : State) (k : Nat) (c : Cmd), Ready s 0x000C k c ∧ c.p8 24 ≤ 11 ∧ c.p8 25 ≤ 4 ∧ s.dev.aux.meas = none ∧ s.dev.bit F.AUX_STAT_REF_READY = true) ∧
    (∃ (s : State) (k : Nat) (c : Cmd) (z : _), Ready s 0x000D k c ∧ c.p8 24 ≤ 11 ∧ c.p8 25 ≤ 4 ∧ s.dev.aux.meas = none ∧ s.dev.aux.zero = some z ∧ z.idx = calIdx (c.p8 24) (c.p8 25) (s.dev.get F.AUX_REF_SEL) ∧ s.dev.bit F.AUX_STAT_REF_READY = true) ∧
    (∃ (s : State) (k : Nat) (c : Cmd), Ready s 0x000E k c ∧ 1 < c.p8 24 ∧ c.p8 24 ≤ 111 ∧ c.p8 25 = 0 ∧ s.dev.domBit (c.p8 24) = false) ∧
    (∃ (s : State) (k : Nat) (c : Cmd), Ready s 0x000E k c ∧ 0 < c.p8 24 ∧ c.p8 24 ≤ 111 ∧ c.p8 25 = 0 ∧ s.dev.domBit (c.p8 24) = true ∧ s.dev.domInUse (c.p8 24) (c.origin == .mbx .mgmt) = false) ∧
    (∃ (s : State) (k : Nat) (c : Cmd), Ready s 0x000E k c ∧ c.p8 24 ≤ 111 ∧ c.p8 25 = 1 ∧ s.dev.domBit (c.p8 24) = false ∧ s.dev.pwr.drains.all (fun x => x.dom != c.p8 24) = true) ∧
    (∃ (s : State) (k : Nat) (c : Cmd), Ready s 0x000F k c ∧ c.p8 24 < 10 ∧ s.dev.elements (c.p8 24) false ≠ []) ∧
    (∃ (s : State) (k : Nat) (c : Cmd), Ready s 0x0010 k c) :=
  ⟨⟨holding (cmdOf 0x000B [] (leBytes 2 1 ++ leBytes 2 100 ++ List.replicate 140 0)) (fun d => d), 7, (cmdOf 0x000B [] (leBytes 2 1 ++ leBytes 2 100 ++ List.replicate 140 0)), ⟨by decide +kernel, by decide +kernel, by decide +kernel, by decide +kernel⟩, by decide +kernel, by decide +kernel, by decide +kernel⟩,
   ⟨holding (cmdOf 0x000A [(24, 1, 15)] []) (fun d => d), 7, (cmdOf 0x000A [(24, 1, 15)] []), ⟨by decide +kernel, by decide +kernel, by decide +kernel, by decide +kernel⟩, by decide +kernel, by decide +kernel⟩,
   ⟨holding (cmdOf 0x000C [(24, 1, 11), (25, 1, 4)] []) (fun d => d.putBit F.AUX_STAT_REF_READY true), 7, (cmdOf 0x000C [(24, 1, 11), (25, 1, 4)] []), ⟨by decide +kernel, by decide +kernel, by decide +kernel, by decide +kernel⟩, by decide +kernel, by decide +kernel, by decide +kernel, by decide +kernel⟩,
   ⟨holding (cmdOf 0x000D [(24, 1, 11), (25, 1, 4), (28, 4, 1000)] []) (fun d => (d.putBit F.AUX_STAT_REF_READY true).onAux fun z => { z with zero := some ⟨calIdx 11 4 (d.get F.AUX_REF_SEL), 0, 0, 0⟩ }), 7, (cmdOf 0x000D [(24, 1, 11), (25, 1, 4), (28, 4, 1000)] []), ⟨calIdx 11 4 (State.reset.dev.get F.AUX_REF_SEL), 0, 0, 0⟩, ⟨by decide +kernel, by decide +kernel, by decide +kernel, by decide +kernel⟩, by decide +kernel, by decide +kernel, by decide +kernel, by decide +kernel, by decide +kernel, by decide +kernel⟩,
   ⟨holding (cmdOf 0x000E [(24, 1, 111)] []) (fun d => (d.put (F.PWR_DOM_ON_MAP.at 3) 0)), 7, (cmdOf 0x000E [(24, 1, 111)] []), ⟨by decide +kernel, by decide +kernel, by decide +kernel, by decide +kernel⟩, by decide +kernel, by decide +kernel, by decide +kernel, by decide +kernel⟩,
   ⟨holding (cmdOf 0x000E [(24, 1, 111)] []) (fun d => d), 7, (cmdOf 0x000E [(24, 1, 111)] []), ⟨by decide +kernel, by decide +kernel, by decide +kernel, by decide +kernel⟩, by decide +kernel, by decide +kernel, by decide +kernel, by decide +kernel, by decide +kernel⟩,
   ⟨holding (cmdOf 0x000E [(24, 1, 111), (25, 1, 1)] []) (fun d => (d.put (F.PWR_DOM_ON_MAP.at 3) 0)), 7, (cmdOf 0x000E [(24, 1, 111), (25, 1, 1)] []), ⟨by decide +kernel, by decide +kernel, by decide +kernel, by decide +kernel⟩, by decide +kernel, by decide +kernel, by decide +kernel, by decide +kernel⟩,
   ⟨holding (cmdOf 0x000F [(24, 1, 9)] []) (fun d => d), 7, (cmdOf 0x000F [(24, 1, 9)] []), ⟨by decide +kernel, by decide +kernel, by decide +kernel, by decide +kernel⟩, by decide +kernel, by decide +kernel⟩,
   ⟨holding (cmdOf 0x0010 [] []) (fun d => d), 7, (cmdOf 0x0010 [] []), ⟨by decide +kernel, by decide +kernel, by decide +kernel, by decide +kernel⟩⟩⟩

theorem test_meets_plate_commands_complete :
    (∃ (s : State) (k : Nat) (c : Cmd), Ready s 0x8001 k c ∧ c.p8 24 = s.dev.fpa.set.gain ∧ c.p8 24 ≤ 1 ∧ c.f 28 4 + c.data.length ≤ plateBytes ∧ s.dev.bit F.PIPE_PL_STAT_SWAP_PEND = false ∧ s.dev.owner < 2) ∧
    (∃ (s : State) (k : Nat) (c : Cmd), Ready s 0x8005 k c ∧ (List.range (c.data.length / 8)).all (fun i => leAt c.data (8 * i + 6) 2 == 0) = true ∧ ((editEntries c.data).all (fun e => decide (e.2.2.1 < 16 ∧ e.2.2.2 < 16 ∧ e.1 < 2560 ∧ e.2.1 < 2048 ∧ e.2.2.1 &&& e.2.2.2 = 0)) = true) ∧ s.dev.tallyFailed 12 = false) ∧
    (∃ (s : State) (k : Nat) (c : Cmd), Ready s 0x8006 k c ∧ c.p8 24 = s.dev.fpa.set.gain ∧ c.p8 24 ≤ 1 ∧ s.dev.shadowFree = true ∧ s.dev.owner ≠ 2 ∧ s.dev.tallyFailed 10 = false) :=
  ⟨⟨holding (cmdOf 0x8001 [(28, 4, 0x0280FFFF)] [0xAA]) (plated), 7, (cmdOf 0x8001 [(28, 4, 0x0280FFFF)] [0xAA]), ⟨by decide +kernel, by decide +kernel, by decide +kernel, by decide +kernel⟩, by decide +kernel, by decide +kernel, by decide +kernel, by decide +kernel, by decide +kernel⟩,
   ⟨holding (cmdOf 0x8005 [] (leBytes 2 2559 ++ leBytes 2 2047 ++ [15, 0, 0, 0])) (fun d => d), 7, (cmdOf 0x8005 [] (leBytes 2 2559 ++ leBytes 2 2047 ++ [15, 0, 0, 0])), ⟨by decide +kernel, by decide +kernel, by decide +kernel, by decide +kernel⟩, by decide +kernel, by decide +kernel, by decide +kernel⟩,
   ⟨holding (cmdOf 0x8006 [] []) (plated), 7, (cmdOf 0x8006 [] []), ⟨by decide +kernel, by decide +kernel, by decide +kernel, by decide +kernel⟩, by decide +kernel, by decide +kernel, by decide +kernel, by decide +kernel, by decide +kernel⟩⟩

theorem test_meets_stand_key_and_firmware_commands_complete :
    (∃ (s : State) (k : Nat) (c : Cmd), Ready s 0x8007 k c ∧ mapFields c.data = true ∧ (mapEnt (mapOf c.data) (mapOf c.data).root).id = s.dev.selfId ∧ mapOk (mapOf c.data) s.dev.colsOf = true ∧ s.dev.bit F.STAND_CTL_EN = true ∧ s.dev.stand.mapWait = none) ∧
    (∃ (s : State) (k : Nat) (c : Cmd) (m : _), Ready s 0x8008 k c ∧ c.p8 24 ≤ 31 ∧ c.p8 25 ≤ 4 ∧ c.p8 27 ≤ 7 ∧ s.dev.stand.map = some m ∧ s.dev.inStand = true ∧ s.dev.isRoot = true ∧ mapOk (mapPut m (c.p8 24) { mapEnt m (c.p8 24) with kind := c.p8 25, cover := c.p8 26, flags := c.p8 27 }) s.dev.colsOf = true) ∧
    (∃ (s : State) (k : Nat) (c : Cmd), Ready s 0x8009 k c ∧ firstImport s.dev c = true) ∧
    (∃ (s : State) (k : Nat) (c : Cmd), Ready s 0x800A k c ∧ 1 ≤ c.p8 24 ∧ c.p8 24 ≤ 7) ∧
    (∃ (s : State) (k : Nat) (c : Cmd), Ready s 0x800B k c ∧ c.p8 24 ≤ 1 ∧ c.p8 25 ≤ 1 ∧ c.p8 24 ≠ s.dev.get F.SEC_FW_STAT_ACTIVE ∧ c.f 28 4 = 0 ∧ c.data.length ≤ 0x01000000) ∧
    (∃ (s : State) (k : Nat) (c : Cmd), Ready s 0x800C k c ∧ c.p8 24 ≤ 1 ∧ s.dev.tallyFailed 16 = false ∧ s.dev.get (bankFld (c.p8 24)) = 2) :=
  ⟨⟨holding (cmdOf 0x8007 [] (inStandOf [1, 2] 0 1 State.reset.dev).mapImage) (fun d => d.putBit F.STAND_CTL_EN true), 7, (cmdOf 0x8007 [] (inStandOf [1, 2] 0 1 State.reset.dev).mapImage), ⟨by decide +kernel, by decide +kernel, by decide +kernel, by decide +kernel⟩, by decide +kernel, by decide +kernel, by decide +kernel, by decide +kernel, by decide +kernel⟩,
   ⟨holding (cmdOf 0x8008 [(24, 1, 31), (25, 1, 4), (26, 1, 0xFF), (27, 1, 7)] []) (inStandOf [1, 2] 0 1), 7, (cmdOf 0x8008 [(24, 1, 31), (25, 1, 4), (26, 1, 0xFF), (27, 1, 7)] []), mapOfIds [1, 2], ⟨by decide +kernel, by decide +kernel, by decide +kernel, by decide +kernel⟩, by decide +kernel, by decide +kernel, by decide +kernel, by decide +kernel, by decide +kernel, by decide +kernel, by decide +kernel⟩,
   ⟨holding ({ cmdOf 0x8009 [(12, 4, 32)] (List.replicate 32 5) with origin := .mbx .mgmt }) (fun d => d), 7, ({ cmdOf 0x8009 [(12, 4, 32)] (List.replicate 32 5) with origin := .mbx .mgmt }), ⟨by decide +kernel, by decide +kernel, by decide +kernel, by decide +kernel⟩, by decide +kernel⟩,
   ⟨holding (cmdOf 0x800A [(24, 1, 7)] []) (fun d => d), 7, (cmdOf 0x800A [(24, 1, 7)] []), ⟨by decide +kernel, by decide +kernel, by decide +kernel, by decide +kernel⟩, by decide +kernel, by decide +kernel⟩,
   ⟨holding (cmdOf 0x800B [(24, 1, 1), (25, 1, 1)] [1, 2, 3, 4]) (fun d => d), 7, (cmdOf 0x800B [(24, 1, 1), (25, 1, 1)] [1, 2, 3, 4]), ⟨by decide +kernel, by decide +kernel, by decide +kernel, by decide +kernel⟩, by decide +kernel, by decide +kernel, by decide +kernel, by decide +kernel, by decide +kernel⟩,
   ⟨holding (cmdOf 0x800C [(24, 1, 1)] []) (fun d => d.put F.SEC_FW_STAT_STATE_B 2), 7, (cmdOf 0x800C [(24, 1, 1)] []), ⟨by decide +kernel, by decide +kernel, by decide +kernel, by decide +kernel⟩, by decide +kernel, by decide +kernel, by decide +kernel⟩⟩

theorem test_meets_keep_commands_complete :
    (∃ (s : State) (k : Nat) (c : Cmd), Ready s 0x800D k c ∧ c.f 24 4 % 64 = 0 ∧ 0x40000 ≤ c.f 24 4 ∧ c.f 24 4 + c.ilen ≤ 0x80000) ∧
    (∃ (s : State) (k : Nat) (c : Cmd), Ready s 0x800F k c ∧ c.p8 25 ≤ 7 ∧ c.p8 25 % 4 ∈ policiesOf (c.p8 24)) :=
  ⟨⟨holding (cmdOf 0x800D [(24, 4, 0x7FFC0), (12, 4, 64)] (List.replicate 64 3)) (fun d => d), 7, (cmdOf 0x800D [(24, 4, 0x7FFC0), (12, 4, 64)] (List.replicate 64 3)), ⟨by decide +kernel, by decide +kernel, by decide +kernel, by decide +kernel⟩, by decide +kernel, by decide +kernel, by decide +kernel⟩,
   ⟨holding (cmdOf 0x800F [(24, 1, 3), (25, 1, 6)] []) (fun d => d), 7, (cmdOf 0x800F [(24, 1, 3), (25, 1, 6)] []), ⟨by decide +kernel, by decide +kernel, by decide +kernel, by decide +kernel⟩, by decide +kernel, by decide +kernel⟩⟩

theorem test_meets_flash_erase_checks_its_range :
    (∃ (s : State) (k : Nat) (c : Cmd), Ready s 0x800E k c ∧ ((c.f 32 8 % 0x20000 ≠ 0 ∨ c.f 24 4 % 0x20000 ≠ 0 ∨ 0x20000000 < c.f 32 8 + c.f 24 4))) ∧
    (∃ (s : State) (k : Nat) (c : Cmd), Ready s 0x800E k c ∧ c.f 32 8 % 0x20000 = 0 ∧ c.f 24 4 % 0x20000 = 0 ∧ c.f 32 8 + c.f 24 4 ≤ 0x20000000 ∧ eraseBarred s.dev (c.f 32 8) (c.f 24 4) = true) ∧
    (∃ (s : State) (k : Nat) (c : Cmd), Ready s 0x800E k c ∧ c.f 32 8 % 0x20000 = 0 ∧ c.f 24 4 % 0x20000 = 0 ∧ c.f 32 8 + c.f 24 4 ≤ 0x20000000 ∧ eraseBarred s.dev (c.f 32 8) (c.f 24 4) = false) :=
  ⟨⟨holding (cmdOf 0x800E [(32, 8, 0x20000), (24, 4, 0x20000000)] []) (fun d => d), 7, (cmdOf 0x800E [(32, 8, 0x20000), (24, 4, 0x20000000)] []), ⟨by decide +kernel, by decide +kernel, by decide +kernel, by decide +kernel⟩, by decide +kernel⟩,
   ⟨holding (cmdOf 0x800E [(32, 8, 0), (24, 4, 0x20000)] []) (fun d => d), 7, (cmdOf 0x800E [(32, 8, 0), (24, 4, 0x20000)] []), ⟨by decide +kernel, by decide +kernel, by decide +kernel, by decide +kernel⟩, by decide +kernel, by decide +kernel, by decide +kernel, by decide +kernel⟩,
   ⟨holding (cmdOf 0x800E [(32, 8, 0x1FFE0000), (24, 4, 0x20000)] []) (fun d => d), 7, (cmdOf 0x800E [(32, 8, 0x1FFE0000), (24, 4, 0x20000)] []), ⟨by decide +kernel, by decide +kernel, by decide +kernel, by decide +kernel⟩, by decide +kernel, by decide +kernel, by decide +kernel, by decide +kernel⟩⟩

theorem test_meets_ring_registers_complete :
    (∃ (s : State) (n : Fin 16) (v : Word), s.dev.host.rstNow.contains n.val = false ∧ s.dev.ringState n ≠ 0 ∧ idxDiff v.toNat (s.dev.ringH n) < 2 ^ 31 ∧ ((if n.val = 1 then ¬ (0 < idxDiff v.toNat (s.dev.ringM 1) ∧ idxDiff v.toNat (s.dev.ringM 1) < 2 ^ 31) else idxDiff v.toNat (s.dev.ringM n) ≤ s.dev.ringS n))) ∧
    (∃ (s : State) (n : Fin 16), s.dev.host.rstNow.contains n.val = true) ∧
    (∃ (s : State) (n : Fin 16), s.dev.host.rstNow.contains n.val = false ∧ s.dev.ringState n = 0) ∧
    (∃ (s : State) (n : Fin 16) (v : Word), s.dev.host.rstNow.contains n.val = false ∧ s.dev.ringState n ≠ 0 ∧ 2 ^ 31 ≤ idxDiff v.toNat (s.dev.ringH n)) ∧
    (∃ (s : State) (n : Fin 16), s.dev.ringState n = 0 ∧ s.dev.host.staged.all (fun r => r.ring != n.val) = true) ∧
    (∃ (s : State) (n : Fin 16), s.dev.ringState n = 1 ∧ s.dev.host.reqs.all (fun r => r.ring != n.val) = true ∧ (s.dev.ringX n).bufs = []) ∧
    (∃ (s : State) (n : Fin 16) (h : _), s.dev.host.dbNow = [(n.val, h)] ∧ h < 2 ^ 32) ∧
    (∃ (s : State) (c : Fin 8), s.dev.get (F.HOST_DMA_STAT_STATE.at c) = 3) :=
  ⟨⟨on (ringAs 3 1 4 5 5), 3, 21#32, by decide +kernel, by decide +kernel, by decide +kernel, by decide +kernel⟩,
   ⟨on (fun d => (ringAs 15 0 4 5 5 d).onHost fun z => { z with rstNow := [15] }), 15, by decide +kernel⟩,
   ⟨on id, 15, by decide +kernel, by decide +kernel⟩,
   ⟨on (ringAs 3 1 4 5 5), 3, 4#32, by decide +kernel, by decide +kernel, by decide +kernel⟩,
   ⟨on (ringAs 3 0 4 5 5), 3, by decide +kernel, by decide +kernel⟩,
   ⟨on (ringAs 3 1 4 5 5), 3, by decide +kernel, by decide +kernel, by decide +kernel⟩,
   ⟨on (fun d => (ringAs 3 1 4 7 5 d).onHost fun z => { z with dbNow := [(3, 5)] }), 3, 5, by decide +kernel, by decide +kernel⟩,
   ⟨on (fun d => (ringAs 3 2 4 5 5 d).put (F.HOST_DMA_STAT_STATE.at 2) 3), 2, by decide +kernel⟩⟩

theorem test_meets_command_transport_completes :
    (∃ (s : State), s.dev.host.reqs.any (fun r => r.kind == .cmd && r.live) = true ∧ s.dev.fwGap = false ∧ ((∀ x ∈ s.dev.sec.cmds, x.verified = true))) ∧
    (∃ (s : State) (k : _) (c : _), (s.dev.sec.cmds.find? (fun c => c.k == k) = some c) ∧ c.hasData = false ∧ s.dev.host.reqs.any (fun r => r.kind == .indirect k && r.live) = true ∧ s.dev.host.reqs.all (fun r => r.kind != .indirect k || r.live) = true) ∧
    (∃ (s : State) (b : _) (bs : _), s.dev.host.cpls = b :: bs ∧ s.dev.ringState 1 = 1 ∧ idxDiff (s.dev.ringM 1) (s.dev.ringH 1) < s.dev.ringS 1 ∧ s.dev.chanRuns 0 = true) ∧
    (∃ (s : State) (p : Path), p ≠ .bar2 ∧ s.dev.bit F.SEC_MBX_STAT_BUSY = false ∧ s.dev.bit F.SEC_MBX_STAT_DONE = false) ∧
    (∃ (s : State) (p : Path), p ≠ .bar2 ∧ ((s.dev.bit F.SEC_MBX_STAT_BUSY = true ∨ s.dev.bit F.SEC_MBX_STAT_DONE = true))) ∧
    (∃ (s : State) (p : Path), p ≠ .bar2 ∧ s.dev.bit F.SEC_MBX_STAT_DONE = true ∧ s.dev.bit F.SEC_MBX_STAT_PATH = (p == .mgmt)) :=
  ⟨⟨on (fun d => d.onHost fun z => { z with reqs := [reqOf 1 0 0 64 .cmd] }), by decide +kernel, by decide +kernel, (of_isEmpty (by decide +kernel))⟩,
   ⟨holding ({ cmdOf 0x0003 [(24, 1, 1), (12, 4, 32)] [] with hasData := false }) (fun d => d.onHost fun z => { z with reqs := [reqOf 1 0 0 32 (.indirect 7)] }), 7, ({ cmdOf 0x0003 [(24, 1, 1), (12, 4, 32)] [] with hasData := false }), by decide +kernel, by decide +kernel, by decide +kernel, by decide +kernel⟩,
   ⟨on (fun d => (linkUp (ringAs 1 1 4 5 8 d)).onHost fun z => { z with cpls := [[1, 2], [3]] }), [1, 2], [[3]], by decide +kernel, by decide +kernel, by decide +kernel, by decide +kernel⟩,
   ⟨on id, .mgmt, by decide +kernel, by decide +kernel, by decide +kernel⟩,
   ⟨on (fun d => d.putBit F.SEC_MBX_STAT_DONE true), .bar0, by decide +kernel, by decide +kernel⟩,
   ⟨on (fun d => (d.putBit F.SEC_MBX_STAT_DONE true).putBit F.SEC_MBX_STAT_PATH true), .mgmt, by decide +kernel, by decide +kernel, by decide +kernel⟩⟩

theorem test_meets_readout_registers_complete :
    (∃ (s : State), s.dev.bit F.FPA_CTL_RUN = false ∧ checkSet s.dev s.dev.firstSet = 0) ∧
    (∃ (s : State), s.dev.bit F.FPA_CTL_RUN = false ∧ checkSet s.dev s.dev.firstSet ≠ 0) ∧
    (∃ (s : State), checkSet s.dev (s.dev.setOf (s.dev.get F.FPA_ACQ_SEL_SET)) = 0 ∧ s.dev.tallyFailed 9 = false ∧ s.dev.commitDue = false) ∧
    (∃ (s : State), checkSet s.dev (s.dev.setOf (s.dev.get F.FPA_ACQ_SEL_SET)) ≠ 0) ∧
    (∃ (s : State), s.dev.fpa.pend.isSome = true ∧ s.dev.commitDue = false) ∧
    (∃ (s : State), s.dev.commitDue = true) ∧
    (∃ (s : State), s.dev.commitDue = true) ∧
    (∃ (s : State) (encZ : Bool), ((encZ = false → s.dev.bankIn = true)) ∧ s.dev.bit F.FPA_CTL_RUN = true ∧ s.dev.frameSrc = (if encZ then 2 else 1) ∧ s.dev.fpa.startAt = none ∧ s.dev.fpa.nextB = none ∧ ((∀ l, s.dev.fpa.lastB = some l → l + s.dev.fpa.set.period ≤ trigStamp encZ s.dev + 100))) ∧
    (∃ (s : State) (encZ : Bool) (l : Nat), ((encZ = false → s.dev.bankIn = true)) ∧ s.dev.bit F.FPA_CTL_RUN = true ∧ s.dev.frameSrc = (if encZ then 2 else 1) ∧ ((s.dev.fpa.startAt = none ∧ s.dev.fpa.lastB = some l ∧ trigStamp encZ s.dev + 100 < l + s.dev.fpa.set.period ∨ s.dev.fpa.startAt = some l ∧ trigStamp encZ s.dev + 100 < l))) ∧
    (∃ (s : State) (f : _), s.dev.fpa.frames.find? (fun f => decide (f.b ≤ s.dev.t) && decide (s.dev.t < f.b + f.set.period) && f.cut.isNone) = some f ∧ f.b + (f.set.rowSlots + 1) * f.set.tslot ≤ s.dev.t ∧ s.dev.cc.vbStart ≠ some (f.b + (f.set.rowSlots + 1) * f.set.tslot)) :=
  ⟨⟨on plated, by decide +kernel, by decide +kernel⟩,
   ⟨on id, by decide +kernel, by decide +kernel⟩,
   ⟨on plated, by decide +kernel, by decide +kernel, by decide +kernel⟩,
   ⟨on id, by decide +kernel⟩,
   ⟨on (fun d => d.onFpa fun z => { z with pend := some ⟨none, smallSet, 3, 100⟩ }), by decide +kernel, by decide +kernel⟩,
   ⟨on (fun d => atTick 900000 ((d.putBit F.FPA_CTL_RUN true).onFpa fun z => { z with nextB := some 900000, pend := some ⟨none, smallSet, 3, 100⟩ })), by decide +kernel⟩,
   ⟨on (fun d => atTick 900000 ((d.putBit F.FPA_CTL_RUN true).onFpa fun z => { z with nextB := some 900000, pend := some ⟨none, smallSet, 3, 100⟩ })), by decide +kernel⟩,
   ⟨on (fun d => atTick 833233 ((((d.put F.IO_PIN_CFG_FILT 0).put F.WEB_ENC_CFG_FILT 0).putBit F.FPA_CTL_RUN true).onFpa fun z => { z with set := { smallSet with src := 1 }, lastB := some 0 })), false, (by intro _; decide +kernel), by decide +kernel, by decide +kernel, by decide +kernel, by decide +kernel, (of_some (rfl) (by decide +kernel))⟩,
   ⟨on (fun d => atTick 833232 ((((d.put F.IO_PIN_CFG_FILT 0).put F.WEB_ENC_CFG_FILT 0).putBit F.FPA_CTL_RUN true).onFpa fun z => { z with set := { smallSet with src := 1 }, lastB := some 0 })), false, 0, (by intro _; decide +kernel), by decide +kernel, by decide +kernel, by decide +kernel⟩,
   ⟨on (fun d => atTick 6440 (d.onFpa fun z => { z with frames := [frameOf 1 0 smallSet []] })), frameOf 1 0 smallSet [], by decide +kernel, by decide +kernel, by decide +kernel⟩⟩

theorem test_meets_stage_complete :
    (∃ (s : State), s.dev.stageState = 0) ∧
    (∃ (s : State), s.dev.stageState ≠ 0 ∧ s.dev.bit F.PROOF_GLADE_STAT_OPEN = false) ∧
    (∃ (s : State), s.dev.stageState = 2 ∧ ranFor s.dev.stage.settleT (5 * secT) s.dev.t = true ∧ s.dev.stageErr.natAbs ≤ 20 ∧ s.dev.stage.pend = none) ∧
    (∃ (s : State), s.dev.stageState = 3 ∧ ranFor s.dev.stage.lowT (10 * secT) s.dev.t = true ∧ s.dev.bit F.FPA_STAGE_STAT_MARGIN_LOW = false) ∧
    (∃ (s : State), s.dev.stageState = 3 ∧ ((s.dev.stage.validNow < 2 ∨ ranFor s.dev.stage.limitT secT s.dev.t = true))) ∧
    (∃ (s : State) (n : Fin 4) (x : Nat), s.dev.stage.invalidSince.getD n none = some x ∧ x + 10 * secT < s.dev.t ∧ n.val ∉ s.dev.stage.excluded) :=
  ⟨⟨on id, by decide +kernel⟩,
   ⟨on (fun d => d.put F.FPA_STAGE_STAT_STATE 3), by decide +kernel, by decide +kernel⟩,
   ⟨on (fun d => atTick 500000000 (((d.put F.FPA_STAGE_STAT_STATE 2).put F.FPA_STAGE_TEMP_T 313170).onStage fun z => { z with settleT := some 0 })), by decide +kernel, by decide +kernel, by decide +kernel, by decide +kernel⟩,
   ⟨on (fun d => atTick 1000000000 ((d.put F.FPA_STAGE_STAT_STATE 3).onStage fun z => { z with lowT := some 0 })), by decide +kernel, by decide +kernel, by decide +kernel⟩,
   ⟨on (fun d => d.put F.FPA_STAGE_STAT_STATE 3), by decide +kernel, by decide +kernel⟩,
   ⟨on (fun d => atTick 1000000001 (d.onStage fun z => { z with invalidSince := [none, none, none, some 0] })), 3, 0, by decide +kernel, by decide +kernel, by decide +kernel⟩⟩

theorem test_meets_proof_schedule_keeps_its_order :
    (∃ (v : Word), ((v.toNat % 256 ≤ v.toNat / 256 % 256 ∧ (v.toNat / 65536 = 0 ∨ v.toNat / 256 % 256 ≤ v.toNat / 65536)))) ∧
    (∃ (v : Word), (¬ (v.toNat % 256 ≤ v.toNat / 256 % 256 ∧ (v.toNat / 65536 = 0 ∨ v.toNat / 256 % 256 ≤ v.toNat / 65536)))) ∧
    (∃ (s : State), s.dev.get F.PROOF_SCHED_FORCE_MIN = 0) :=
  ⟨⟨0x3C3C3C#32, by decide +kernel⟩,
   ⟨0x3C3D3C#32, by decide +kernel⟩,
   ⟨on (fun d => d.put F.PROOF_SCHED_FORCE_MIN 0), by decide +kernel⟩⟩

theorem test_meets_plate_and_blade_registers_complete :
    (∃ (s : State), s.dev.get F.PIPE_PL_STAT_SHADOW_OWNER = 1) ∧
    (∃ (s : State), s.dev.get F.PIPE_PL_STAT_SHADOW_OWNER ≠ 1) ∧
    (∃ (v : Word), 1 ≤ v.toNat / 2 ^ 8 % 256 ∧ v.toNat / 2 ^ 8 % 256 ≤ 15 ∧ v.toNat / 2 ^ 8 % 256 ≤ v.toNat / 2 ^ 16 % 256 ∧ v.toNat / 2 ^ 16 % 256 ≤ 60) ∧
    (∃ (s : State), s.dev.get F.PROOF_SHUT_STAT_STATE = 4) ∧
    (∃ (s : State), s.dev.bit F.PROOF_CTL_EN = false ∧ s.dev.proof.run = none) ∧
    (∃ (s : State), s.dev.bit F.PROOF_CTL_EN = false ∧ s.dev.proof.run = none) ∧
    (∃ (s : State), ((s.dev.bit F.PROOF_CTL_EN = true ∨ s.dev.proof.run.isSome = true))) ∧
    (∃ (s : State), ((s.dev.bit F.PROOF_CTL_EN = true ∨ s.dev.proof.run.isSome = true))) :=
  ⟨⟨on (fun d => d.put F.PIPE_PL_STAT_SHADOW_OWNER 1), by decide +kernel⟩,
   ⟨on id, by decide +kernel⟩,
   ⟨0x3C0F02#32, by decide +kernel, by decide +kernel, by decide +kernel, by decide +kernel⟩,
   ⟨on (fun d => (d.put F.PROOF_SHUT_STAT_STATE 4).put F.PROOF_SHUT_STAT_CONSEC 3), by decide +kernel⟩,
   ⟨on (fun d => d.putBit F.PROOF_CTL_EN false), by decide +kernel, by decide +kernel⟩,
   ⟨on (fun d => d.putBit F.PROOF_CTL_EN false), by decide +kernel, by decide +kernel⟩,
   ⟨on (fun d => d.putBit F.PROOF_CTL_EN true), by decide +kernel⟩,
   ⟨on (fun d => (d.putBit F.PROOF_CTL_EN false).onProof fun z => { z with run := some proofRun }), by decide +kernel⟩⟩

theorem test_meets_blade_events_complete :
    (∃ (s : State) (v : _), s.dev.proof.drive = some v ∧ v.close = true ∧ v.sensed = false ∧ v.failed = false ∧ s.dev.sensedNow v = true) ∧
    (∃ (s : State) (v : _), s.dev.proof.drive = some v ∧ v.close = false ∧ v.sensed = false ∧ v.failed = false ∧ s.dev.sensedNow v = true) ∧
    (∃ (s : State) (v : _), s.dev.proof.drive = some v ∧ v.sensed = false ∧ v.failed = false ∧ s.dev.sensedNow v = false ∧ v.t0 + s.dev.get F.PROOF_SHUT_TIME_MOVE_MAX * msT ≤ s.dev.t) ∧
    (∃ (s : State) (v : _), s.dev.proof.drive = some v ∧ v.driving = true ∧ v.t0 + s.dev.get F.PROOF_SHUT_TIME_PULSE * msT ≤ s.dev.t) ∧
    (∃ (s : State), s.dev.bankIn = true) :=
  ⟨⟨on (fun d => atTick 100000 ((d.put F.PROOF_SHUT_CTL_SENSE 1).onProof fun z => { z with drive := some ⟨true, 0, 1, true, false, false⟩, pos := [(false, 0), (true, 0)] })), ⟨true, 0, 1, true, false, false⟩, by decide +kernel, by decide +kernel, by decide +kernel, by decide +kernel, by decide +kernel⟩,
   ⟨on (fun d => atTick 100000 ((d.put F.PROOF_SHUT_CTL_SENSE 2).onProof fun z => { z with drive := some ⟨false, 0, 0, true, false, false⟩, closure := some 0, pos := [(true, 0), (false, 0)] })), ⟨false, 0, 0, true, false, false⟩, by decide +kernel, by decide +kernel, by decide +kernel, by decide +kernel, by decide +kernel⟩,
   ⟨on (fun d => atTick 4000000000 ((d.put F.PROOF_SHUT_CTL_SENSE 1).onProof fun z => { z with drive := some ⟨true, 0, 0, false, false, false⟩, pos := [(true, 0), (true, 0)] })), ⟨true, 0, 0, false, false, false⟩, by decide +kernel, by decide +kernel, by decide +kernel, by decide +kernel, by decide +kernel⟩,
   ⟨on (fun d => atTick 4000000000 (d.onProof fun z => { z with drive := some ⟨true, 0, 0, true, false, false⟩ })), ⟨true, 0, 0, true, false, false⟩, by decide +kernel, by decide +kernel, by decide +kernel⟩,
   ⟨on id, by decide +kernel⟩⟩

theorem test_meets_proof_events_complete :
    (∃ (s : State), 60 * s.dev.get F.PROOF_SCHED_DUE_MIN ≤ s.dev.proofAge) ∧
    (∃ (s : State), s.dev.get F.PROOF_SCHED_FORCE_MIN ≠ 0 ∧ 60 * s.dev.get F.PROOF_SCHED_FORCE_MIN ≤ s.dev.proofAge) ∧
    (∃ (s : State) (c : _), s.dev.proofConds = true ∧ s.dev.proof.condT = some c ∧ c + 1000 ≤ s.dev.t) ∧
    (∃ (s : State) (r : _), s.dev.proof.run = some r ∧ s.dev.get F.PROOF_STAT_PHASE = 2 ∧ r.settleEnd ≤ s.dev.t ∧ r.lastEnd = 0) ∧
    (∃ (s : State) (r : _), s.dev.proof.run = some r ∧ r.tcp.isSome = true ∧ r.computed = false ∧ r.frames.all (fun q => match s.dev.frame q.1 with | some f => f.slots.length == f.set.rowSlots + 1 && f.slots.all (fun x => x.lost || x.done || x.slot == 0) | none => true) = true) ∧
    (∃ (s : State) (r : _), s.dev.proof.run = some r ∧ s.dev.get F.PROOF_STAT_PHASE = 5 ∧ r.fitEnd ≠ 0 ∧ r.fitted = false) ∧
    (∃ (s : State) (r : _), s.dev.proof.run = some r ∧ s.dev.get F.PROOF_STAT_PHASE = 6 ∧ r.computed = true ∧ r.fitted = true ∧ s.dev.tallyFailed 10 = false) ∧
    (∃ (s : State) (r : _), s.dev.proof.run = some r ∧ ((s.dev.get F.PROOF_STAT_PHASE = 2 ∨ s.dev.get F.PROOF_STAT_PHASE = 3)) ∧ r.lastEnd ≠ 0 ∧ r.lastEnd + secT ≤ s.dev.t) ∧
    (∃ (s : State) (r : _), s.dev.proof.run = some r ∧ s.dev.get F.PROOF_STAT_PHASE = 5 ∧ r.fitEnd = 0 ∧ Nat.max (r.openT.getD 0) r.lastEnd + secT ≤ s.dev.t) ∧
    (∃ (s : State) (g : Fin 81), s.dev.ccSlot = true ∧ (if s.dev.ccOpen.isEmpty then g.val = ((ccWindow s.dev.fpa.set).find? (fun x => decide (s.dev.cc.next ≤ x))).getD ((ccWindow s.dev.fpa.set).headD 80) else g.val ∈ s.dev.ccOpen)) :=
  ⟨⟨on (fun d => d.onStore fun z => { z with tallies := z.tallies.set 13 ⟨⟨1, 10, true, 1⟩, ⟨0, 0, false, 0⟩, []⟩ }), by decide +kernel⟩,
   ⟨on (atTick 360000000000), by decide +kernel, by decide +kernel⟩,
   ⟨on (fun d => proofTime d), 0, by decide +kernel, by decide +kernel, by decide +kernel⟩,
   ⟨on (fun d => (d.put F.PROOF_STAT_PHASE 2).onProof fun z => { z with run := some { proofRun with settleEnd := 0 } }), { proofRun with settleEnd := 0 }, by decide +kernel, by decide +kernel, by decide +kernel, by decide +kernel⟩,
   ⟨on (fun d => (d.put F.PROOF_STAT_PHASE 4).onProof fun z => { z with run := some { proofRun with tcp := some 0 } }), { proofRun with tcp := some 0 }, by decide +kernel, by decide +kernel, by decide +kernel, by decide +kernel⟩,
   ⟨on (fun d => (d.put F.PROOF_STAT_PHASE 5).onProof fun z => { z with run := some { proofRun with fitEnd := 5 } }), { proofRun with fitEnd := 5 }, by decide +kernel, by decide +kernel, by decide +kernel, by decide +kernel⟩,
   ⟨on (fun d => ((plated d).put F.PROOF_STAT_PHASE 6).onProof fun z => { z with run := some { proofRun with computed := true, fitted := true } }), { proofRun with computed := true, fitted := true }, by decide +kernel, by decide +kernel, by decide +kernel, by decide +kernel, by decide +kernel⟩,
   ⟨on (fun d => atTick 100000005 ((d.put F.PROOF_STAT_PHASE 3).onProof fun z => { z with run := some { proofRun with lastEnd := 5 } })), { proofRun with lastEnd := 5 }, by decide +kernel, by decide +kernel, by decide +kernel, by decide +kernel⟩,
   ⟨on (fun d => atTick 100000005 ((d.put F.PROOF_STAT_PHASE 5).onProof fun z => { z with run := some { proofRun with lastEnd := 5 } })), { proofRun with lastEnd := 5 }, by decide +kernel, by decide +kernel, by decide +kernel, by decide +kernel⟩,
   ⟨on (fun d => atTick 1000 ((d.putBit F.PROOF_CC_CTL_EN true).onCc fun z => { z with next := 80 })), 80, by decide +kernel, by decide +kernel⟩⟩

theorem test_meets_glade_events_complete :
    (∃ (s : State), s.dev.bankIn = true) ∧
    (∃ (s : State) (b : _) (e : _), s.dev.glade.decl = some (b, e) ∧ b ≤ s.dev.t ∧ s.dev.t < e ∧ (s.dev.get F.PROOF_GLADE_CTL_SRC_EN).testBit 2 = true) ∧
    (∃ (s : State) (b : _) (e : _), s.dev.glade.decl = some (b, e) ∧ e ≤ s.dev.t) ∧
    (∃ (s : State) (b : _) (e : _), s.dev.glade.prof = some (b, e) ∧ e ≤ s.dev.t) ∧
    (∃ (s : State) (fl : Flit), leAt fl.payload 0 1 = 8 ∧ s.dev.isRoot = false) ∧
    (∃ (s : State), s.dev.inStand = true ∧ s.dev.isRoot = true ∧ ((s.dev.bit F.PROOF_GLADE_STAT_OPEN ≠ s.dev.stand.gladeSent ∨ s.dev.stand.gladeSentT + 10 * msT ≤ s.dev.t))) ∧
    (∃ (s : State) (fl : Flit), leAt fl.payload 0 1 = 9 ∧ leAt fl.payload 4 1 = 1 ∧ s.dev.isRoot = false ∧ leAt fl.payload 1 1 = s.dev.ownSlot) :=
  ⟨⟨on id, by decide +kernel⟩,
   ⟨on (fun d => (atTick 5 (d.put F.PROOF_GLADE_CTL_SRC_EN 31)).onGlade fun z => { z with decl := some (5, 6) }), 5, 6, by decide +kernel, by decide +kernel, by decide +kernel, by decide +kernel⟩,
   ⟨on (fun d => (atTick 6 (d.put F.PROOF_GLADE_CTL_SRC_EN 31)).onGlade fun z => { z with decl := some (5, 6) }), 5, 6, by decide +kernel, by decide +kernel⟩,
   ⟨on (fun d => (atTick 6 (d.put F.PROOF_GLADE_CTL_SRC_EN 31)).onGlade fun z => { z with prof := some (5, 6) }), 5, 6, by decide +kernel, by decide +kernel⟩,
   ⟨on (inStandOf [1, 2] 1 3), ⟨3, 0, 0, 0, 0, [8, 0, 0, 0, 1] ++ List.replicate 23 0⟩, by decide +kernel, by decide +kernel⟩,
   ⟨on (fun d => atTick 1000000 (inStandOf [1, 2] 0 1 d)), by decide +kernel, by decide +kernel, by decide +kernel⟩,
   ⟨on (inStandOf [1, 2] 1 3), ⟨3, 0, 0, 0, 0, [9, 1, 0, 0, 1] ++ List.replicate 23 0⟩, by decide +kernel, by decide +kernel, by decide +kernel, by decide +kernel⟩⟩

theorem test_meets_frame_events_complete :
    (∃ (s : State) (b : _), s.dev.boundaryDue = some b ∧ s.dev.fpa.readoutStop = false ∧ s.dev.fpa.clockStop = false) ∧
    (∃ (s : State) (b : _), s.dev.boundaryDue = some b ∧ ((s.dev.fpa.readoutStop = true ∨ s.dev.fpa.clockStop = true))) ∧
    (∃ (s : State) (cnt : _) (slot : _) (f : _), s.dev.frame cnt = some f ∧ f.dark = false ∧ ((∀ c, f.cut = some c → slot < c)) ∧ slot ≤ f.set.rowSlots ∧ slot = f.slots.length ∧ f.b + slot * f.set.tslot + f.set.tint ≤ s.dev.t) ∧
    (∃ (s : State) (cnt : _) (slot : _) (f : _) (x : _), s.dev.frame cnt = some f ∧ f.slots.find? (fun y => y.slot == slot) = some x ∧ slot ≠ 0 ∧ x.lost = false ∧ x.done = false ∧ ((f.set.rowSlots ≤ slot ∨ f.cut = some (slot + 1) ∨ f.slots.any (fun y => y.slot == slot + 1) = true))) ∧
    (∃ (s : State) (cnt : _) (slot : _) (f : _) (x : _), s.dev.frame cnt = some f ∧ f.slots.find? (fun y => y.slot == slot) = some x ∧ slot ≠ 0 ∧ f.dark = false ∧ ((∀ c, f.cut = some c → slot < c)) ∧ x.done = true ∧ x.accumulated = false ∧ f.slots.all (fun y => decide (slot ≤ y.slot) || y.slot == 0 || y.accumulated) = true ∧ ((s.dev.get F.WEB_CTL_SRC ≠ 2 ∨ f.wMarks.any (fun q => q.1 == slot) = true)) ∧ f.mid slot ≤ s.dev.t) :=
  ⟨⟨on (fun d => atTick 5 ((d.putBit F.FPA_CTL_RUN true).onFpa fun z => { z with set := smallSet, nextB := some 5 })), 5, by decide +kernel, by decide +kernel, by decide +kernel⟩,
   ⟨on (fun d => atTick 5 ((d.putBit F.FPA_CTL_RUN true).onFpa fun z => { z with set := smallSet, nextB := some 5, readoutStop := true })), 5, by decide +kernel, by decide +kernel⟩,
   ⟨on (fun d => atTick 6020 (d.onFpa fun z => { z with frames := [frameOf 1 0 smallSet [slotOf 0 true]] })), 1, 1, frameOf 1 0 smallSet [slotOf 0 true], by decide +kernel, by decide +kernel, (of_isNone (by decide +kernel)), by decide +kernel, by decide +kernel, by decide +kernel⟩,
   ⟨on (fun d => atTick 100000 (d.onFpa fun z => { z with frames := [frameOf 1 0 smallSet [slotOf 0 true, slotOf 1 false]] })), 1, 1, frameOf 1 0 smallSet [slotOf 0 true, slotOf 1 false], slotOf 1 false, by decide +kernel, by decide +kernel, by decide +kernel, by decide +kernel, by decide +kernel, by decide +kernel⟩,
   ⟨on (fun d => atTick 4620 (d.onFpa fun z => { z with frames := [frameOf 1 0 smallSet [slotOf 0 true, slotOf 1 true]] })), 1, 1, frameOf 1 0 smallSet [slotOf 0 true, slotOf 1 true], slotOf 1 true, by decide +kernel, by decide +kernel, by decide +kernel, by decide +kernel, (of_isNone (by decide +kernel)), by decide +kernel, by decide +kernel, by decide +kernel, by decide +kernel, by decide +kernel⟩⟩

theorem test_meets_web_position_complete :
    (∃ (s : State) (a : _) (b : _), s.dev.accepts a s.dev.web.encA s.dev.web.encTa = true ∧ s.dev.accepts b s.dev.web.encB s.dev.web.encTb = true) ∧
    (∃ (s : State) (a : _) (b : _), s.dev.accepts a s.dev.web.encA s.dev.web.encTa = true ∧ s.dev.accepts b s.dev.web.encB s.dev.web.encTb = false ∧ s.dev.web.failSafe = false) ∧
    (∃ (s : State) (a : _) (b : _), s.dev.accepts a s.dev.web.encA s.dev.web.encTa = false ∧ s.dev.accepts b s.dev.web.encB s.dev.web.encTb = true ∧ s.dev.web.failSafe = false) ∧
    (∃ (s : State), s.dev.bit F.WEB_ENC_CFG_Z_EN = true ∧ s.dev.fpa.set.src ≠ 2 ∧ ((s.dev.web.zSeen = true → s.dev.web.encTz + 2 * s.dev.get F.WEB_ENC_CFG_FILT + 1 ≤ s.dev.t))) ∧
    (∃ (s : State), s.dev.bit F.WEB_STAT_ENC_LOSS = false) ∧
    (∃ (s : State) (b : _), s.dev.web.slowT = some b ∧ b + s.dev.get F.WEB_STOP_MS * msT ≤ s.dev.t ∧ (s.dev.getI F.WEB_SPEED_V).natAbs < 1000 * s.dev.get F.WEB_STOP_TH) ∧
    (∃ (s : State), s.dev.bit F.WEB_CTL_ACC_EN = false) ∧
    (∃ (s : State), s.dev.bit F.WEB_CTL_ACC_EN = true) :=
  ⟨⟨on (atTick 100), true, true, by decide +kernel, by decide +kernel⟩,
   ⟨on (atTick 100), true, false, by decide +kernel, by decide +kernel, by decide +kernel⟩,
   ⟨on (atTick 100), false, true, by decide +kernel, by decide +kernel, by decide +kernel⟩,
   ⟨on (fun d => d.putBit F.WEB_ENC_CFG_Z_EN true), by decide +kernel, by decide +kernel, (by intro h; exact absurd h (by decide +kernel))⟩,
   ⟨on id, by decide +kernel⟩,
   ⟨on (fun d => atTick 100000000000 (d.onWeb fun z => { z with slowT := some 0 })), 0, by decide +kernel, by decide +kernel, by decide +kernel⟩,
   ⟨on (fun d => d.putBit F.WEB_CTL_ACC_EN false), by decide +kernel⟩,
   ⟨on (fun d => d.putBit F.WEB_CTL_ACC_EN true), by decide +kernel⟩⟩

theorem test_meets_strip_and_alarm_complete :
    (∃ (s : State) (i : _) (l : _), s.dev.bit F.WEB_STAT_BACK = false ∧ s.dev.accOn = true ∧ s.dev.firstDeep = some l ∧ s.dev.lineAt l.start = some i ∧ i.start = l.start) ∧
    (∃ (s : State) (i : _), s.dev.inFrame = false ∧ s.dev.bit F.WEB_STAT_BACK = false ∧ s.dev.accOn = true ∧ s.dev.nextLine.bind s.dev.lineAt = some i ∧ 0 ≤ sdiff i.fin s.dev.exitNow) ∧
    (∃ (s : State) (g : _) (gs : _), s.dev.inFrame = false ∧ s.dev.accOn = false ∧ s.dev.web.switches = g :: gs ∧ 0 ≤ sdiff g.x0 s.dev.exitNow) ∧
    (∃ (s : State) (n : Fin 4) (b : Nat), s.dev.alarm.pulse.getD n none = some b ∧ b ≤ s.dev.t) :=
  ⟨⟨on webRuns, ⟨0, 65536000, 3, true, false⟩, webLine, by decide +kernel, by decide +kernel, by decide +kernel, by decide +kernel, by decide +kernel⟩,
   ⟨on (fun d => ((webRuns d).put F.WEB_POS_W 65536000).onWeb fun z => { z with geo := some ⟨[], [], []⟩ }), ⟨0, 65536000, 3, true, false⟩, by decide +kernel, by decide +kernel, by decide +kernel, by decide +kernel, by decide +kernel⟩,
   ⟨on (fun d => d.onWeb fun z => { z with switches := [⟨0, 3, false⟩] }), ⟨0, 3, false⟩, [], by decide +kernel, by decide +kernel, by decide +kernel, by decide +kernel⟩,
   ⟨on (fun d => d.onAlarm fun z => { z with pulse := [none, none, none, some 0] }), 3, 0, by decide +kernel, by decide +kernel⟩⟩

theorem test_meets_port_events_complete :
    (∃ (s : State) (q : Port), s.dev.portState q.idx = 4 ∧ s.dev.health.queue.countP (fun x => x.ss == 1 && !x.full) ≤ 12) ∧
    (∃ (s : State) (q : Port) (n : _), s.dev.portState q.idx = 1 ∧ Nat.max 1 (s.dev.get (F.LINK_P_CTL_MIN_LANES.at q.idx)) ≤ n) ∧
    (∃ (s : State) (q : Port) (n : _), s.dev.portState q.idx = 2 ∧ Nat.max 1 (s.dev.get (F.LINK_P_CTL_MIN_LANES.at q.idx)) ≤ n) ∧
    (∃ (s : State) (q : Port), s.dev.portState q.idx = 3) ∧
    (∃ (s : State) (q : Port), ((s.dev.portState q.idx = 2 ∨ s.dev.portState q.idx = 3)) ∧ (s.dev.port q.idx).progT + 20 * msT ≤ s.dev.t) ∧
    (∃ (s : State) (q : Port), s.dev.portState q.idx = 4) ∧
    (∃ (s : State) (q : Port) (lane : Fin 4), s.dev.portState q.idx = 4 ∧ (s.dev.port q.idx).rxMask.testBit lane = true) ∧
    (∃ (s : State) (q : Port) (lane : Fin 4) (b : _), assoc (s.dev.port q.idx).failed lane = some b ∧ b + secT ≤ s.dev.t ∧ (s.dev.get (F.LINK_P_CTL_LANE_EN.at q.idx)).testBit lane = true ∧ 4 ≤ s.dev.get F.HEALTH_POLICY_POLICY1 ∧ s.dev.health.aside.any (fun a => a.ss == 1 && a.elem == 4 * q.idx + lane) = false ∧ s.dev.portState q.idx = 4 ∧ (s.dev.port q.idx).rxMask.testBit lane = false) ∧
    (∃ (s : State) (q : Port), s.dev.portState q.idx = 4) ∧
    (∃ (s : State) (q : Port) (req : BitVec 4) (c : _), s.dev.portState q.idx = 4 ∧ (s.dev.port q.idx).chgRx = some c ∧ c.mask = req.toNat) ∧
    (∃ (s : State) (q : Port) (c : _), s.dev.portState q.idx = 4 ∧ (s.dev.port q.idx).chgTx = some c ∧ ((s.dev.port q.idx).pairTx + 65536 - c.cnt) % 65536 < 32768 ∧ s.dev.get (F.LINK_P_CTL_MIN_LANES.at q.idx) ≤ popcount 4 c.mask ∧ s.dev.get (F.LINK_P_CTL_MIN_LANES.at q.idx) ≤ popcount 4 (s.dev.port q.idx).rxMask) ∧
    (∃ (s : State) (q : Port) (c : _), s.dev.portState q.idx = 4 ∧ (s.dev.port q.idx).chgRx = some c ∧ c.ack = true ∧ s.dev.get (F.LINK_P_CTL_MIN_LANES.at q.idx) ≤ popcount 4 c.mask ∧ s.dev.get (F.LINK_P_CTL_MIN_LANES.at q.idx) ≤ popcount 4 (s.dev.port q.idx).txMask) :=
  ⟨⟨on (portUp 1 0b1111), .west, by decide +kernel, by decide +kernel⟩,
   ⟨on (fun d => d.put (F.LINK_P_STAT_STATE.at 0) 1), .east, 1, by decide +kernel, by decide +kernel⟩,
   ⟨on (fun d => d.put (F.LINK_P_STAT_STATE.at 0) 2), .east, 1, by decide +kernel, by decide +kernel⟩,
   ⟨on (fun d => d.put (F.LINK_P_STAT_STATE.at 0) 3), .east, by decide +kernel⟩,
   ⟨on (fun d => atTick 2000000 (d.put (F.LINK_P_STAT_STATE.at 0) 2)), .east, by decide +kernel, by decide +kernel⟩,
   ⟨on (portUp 0 0b11), .east, by decide +kernel⟩,
   ⟨on (portUp 0 0b1111), .east, 3, by decide +kernel, by decide +kernel⟩,
   ⟨on (fun d => (atTick 100000000 (onPortX 0 (fun x => { x with failed := [(3, 0)] }) (portUp 0 0b0111 d))).put F.HEALTH_POLICY_POLICY1 7), .east, 3, 0, by decide +kernel, by decide +kernel, by decide +kernel, by decide +kernel, by decide +kernel, by decide +kernel, by decide +kernel⟩,
   ⟨on (portUp 0 0b1111), .east, by decide +kernel⟩,
   ⟨on (fun d => onPortX 0 (fun x => { x with chgRx := some ⟨7, 100, false⟩ }) (portUp 0 0b1111 d)), .east, 0x7#4, ⟨7, 100, false⟩, by decide +kernel, by decide +kernel, by decide +kernel⟩,
   ⟨on (fun d => onPortX 0 (fun x => { x with chgTx := some ⟨7, 100, true⟩, pairTx := 100 }) (portUp 0 0b1111 d)), .east, ⟨7, 100, true⟩, by decide +kernel, by decide +kernel, by decide +kernel, by decide +kernel, by decide +kernel⟩,
   ⟨on (fun d => onPortX 0 (fun x => { x with chgRx := some ⟨7, 100, true⟩ }) (portUp 0 0b1111 d)), .east, ⟨7, 100, true⟩, by decide +kernel, by decide +kernel, by decide +kernel, by decide +kernel, by decide +kernel⟩⟩

theorem test_meets_flit_events_complete :
    (∃ (s : State) (q : Port) (bytes : _), s.dev.portState q.idx = 4 ∧ hatchDecode [] (slice bytes 0 36) = .bad) ∧
    (∃ (s : State) (q : Port) (bytes : _) (w : _), s.dev.portState q.idx = 4 ∧ s.dev.localOnly q.idx = false ∧ hatchDecode [] (slice bytes 0 36) = .ok w [] ∧ (parseFlit w).type ≤ 9 ∧ (parseFlit w).type ≠ 0 ∧ (parseFlit w).type ≠ 7 ∧ (parseFlit w).flags / 8 % 2 = 0 ∧ (parseFlit w).epoch ≠ s.dev.portEpoch q.idx % 256) ∧
    (∃ (s : State) (q : Port) (bytes : _) (w : _), s.dev.portState q.idx = 4 ∧ s.dev.localOnly q.idx = false ∧ hatchDecode [] (slice bytes 0 36) = .ok w [] ∧ (parseFlit w).type ≤ 9 ∧ (parseFlit w).type ≠ 0 ∧ (parseFlit w).flags / 8 % 2 = 0 ∧ (((parseFlit w).type = 7 ∨ (parseFlit w).epoch = s.dev.portEpoch q.idx % 256)) ∧ s.dev.stand.parent = none ∧ (parseFlit w).flags / 4 % 2 = 1 ∧ s.dev.routeTo (parseFlit w).src = some q.idx) ∧
    (∃ (fl : Flit), leAt fl.payload 0 1 = 0x10) ∧
    (∃ (fl : Flit), leAt fl.payload 0 1 = 0x12) :=
  ⟨⟨on (portUp 0 0b1111), .east, List.replicate 3 1 ++ List.replicate 33 0, by decide +kernel, by decide +kernel⟩,
   ⟨on (portUp 0 0b1111), .east, [54, 36] ++ List.replicate 30 0 ++ [197, 129, 26, 76], [54, 36] ++ List.replicate 30 0 ++ [197, 129, 26, 76], by decide +kernel, by decide +kernel, by decide +kernel, by decide +kernel, by decide +kernel, by decide +kernel, by decide +kernel, by decide +kernel⟩,
   ⟨on (fun d => (portUp 0 0b1111 d).put F.LINK_ROUTE_ROUTE (1 * 4 ^ 3)), .east, [54, 0, 0, 64] ++ List.replicate 28 0 ++ [103, 191, 186, 20], [54, 0, 0, 64] ++ List.replicate 28 0 ++ [103, 191, 186, 20], by decide +kernel, by decide +kernel, by decide +kernel, by decide +kernel, by decide +kernel, by decide +kernel, by decide +kernel, by decide +kernel, by decide +kernel, by decide +kernel⟩,
   ⟨flitOf 3 0 0 [0x10, 2, 0, 1], by decide +kernel⟩,
   ⟨flitOf 3 0 0 [0x12, 1, 0], by decide +kernel⟩⟩

theorem test_meets_time_and_encoder_flits_complete :
    (∃ (s : State) (q : Port), s.dev.portState q.idx = 4 ∧ ((∀ b, (s.dev.port q.idx).dreqT = some b → b + msT ≤ s.dev.t))) ∧
    (∃ (s : State) (q : Port) (fl : Flit) (t1 : _) (frac : _) (sq : _), (s.dev.port q.idx).dreq = some (t1, frac, sq) ∧ leAt fl.payload 0 1 = 3 ∧ leAt fl.payload 24 2 = sq) ∧
    (∃ (s : State), s.dev.timeMaster = true ∧ ((∀ b, s.dev.link.timeSentT = some b → b + s.dev.get F.LINK_TS_CTL_INTERVAL * 10 * usT ≤ s.dev.t))) ∧
    (∃ (s : State), s.dev.timeMaster = false) ∧
    (∃ (s : State) (q : Port) (fl : Flit), leAt fl.payload 0 1 = 1 ∧ s.dev.localOnly q.idx = false ∧ s.dev.stand.parent = none ∧ s.dev.routeTo fl.src = some q.idx ∧ s.dev.follows = true) ∧
    (∃ (s : State) (b : _), s.dev.follows = true ∧ s.dev.link.lastTime = some b ∧ b + 10 * msT ≤ s.dev.t ∧ s.dev.bit F.LINK_TS_STAT_HOLDOVER = false) ∧
    (∃ (s : State), s.dev.bit F.LINK_ENC_CTL_TX_EN = true ∧ s.dev.t % 1000 = 0) ∧
    (∃ (s : State) (q : Port) (fl : Flit), leAt fl.payload 0 1 = 1 ∧ s.dev.localOnly q.idx = false ∧ s.dev.stand.parent = none ∧ s.dev.routeTo fl.src = some q.idx) ∧
    (∃ (s : State) (u : Nat) (a : EncS), s.dev.get F.WEB_CTL_SRC = 2 ∧ u + s.dev.get F.LINK_ENC_CTL_WAIT * 1000 ≤ s.dev.t ∧ a ∈ s.dev.link.enc ∧ a.t ≤ u ∧ s.dev.fpa.frames.any (fun f => (List.range (f.set.rowSlots + 1)).any (fun x => f.mid x == u && !f.wMarks.any (fun y => y.1 == x))) = true) ∧
    (∃ (s : State), s.dev.link.lastEnc.getD 0 + 10 * msT ≤ s.dev.t) :=
  ⟨⟨on (fun d => portUp 0 0b1111 d), .east, by decide +kernel, (of_isNone (by decide +kernel))⟩,
   ⟨on (fun d => onPortX 0 (fun x => { x with dreq := some (1000, 7, 2) }) (portUp 0 0b1111 d)), .east, flitOf 5 0 0 ([3, 0, 0, 0] ++ leBytes 8 1400 ++ leBytes 8 1500 ++ leBytes 4 0 ++ leBytes 2 2), 1000, 7, 2, by decide +kernel, by decide +kernel, by decide +kernel⟩,
   ⟨on (inStandOf [1, 2] 0 1), by decide +kernel, by decide +kernel⟩,
   ⟨on id, by decide +kernel⟩,
   ⟨on (fun d => (inStandOf [1, 2] 1 3 d).put F.LINK_ROUTE_ROUTE 1), .east, flitOf 5 0 0 ([1, 0, 0, 0] ++ leBytes 8 5000), by decide +kernel, by decide +kernel, by decide +kernel, by decide +kernel, by decide +kernel⟩,
   ⟨on (fun d => atTick 1000000 ((inStandOf [1, 2] 1 3 d).onLink fun z => { z with lastTime := some 0 })), 0, by decide +kernel, by decide +kernel, by decide +kernel, by decide +kernel⟩,
   ⟨on (fun d => d.putBit F.LINK_ENC_CTL_TX_EN true), by decide +kernel, by decide +kernel⟩,
   ⟨on (fun d => (inStandOf [1, 2] 1 3 d).put F.LINK_ROUTE_ROUTE 1), .east, flitOf 6 0 0 ([1, 0, 0, 0] ++ leBytes 8 0 ++ leBytes 8 65536), by decide +kernel, by decide +kernel, by decide +kernel, by decide +kernel⟩,
   ⟨on (fun d => atTick 100000 (((d.put F.WEB_CTL_SRC 2).onFpa fun z => { z with frames := [frameOf 1 0 smallSet []] }).onLink fun z => { z with enc := [⟨0, 65536, 100, false⟩] })), 1400, ⟨0, 65536, 100, false⟩, by decide +kernel, by decide +kernel, by decide +kernel, by decide +kernel, by decide +kernel⟩,
   ⟨on (fun d => atTick 1000000 (d.put F.WEB_CTL_SRC 2)), by decide +kernel⟩⟩

theorem test_meets_membership_events_complete :
    (∃ (s : State), s.dev.inStand = true ∧ s.dev.t % 100000 = 0) ∧
    (∃ (s : State) (q : Port) (fl : Flit), leAt fl.payload 0 1 = 1 ∧ (¬ (q = .up ∧ s.dev.get F.LINK_HP_STAT_MODE_ACT = 1)) ∧ leAt fl.payload 8 8 ≠ s.dev.selfId ∧ s.dev.bit (F.LINK_P_STAT_MISWIRED.at q.idx) = false ∧ s.dev.bit F.STAND_CTL_EN = true) ∧
    (∃ (s : State) (k : _) (m : _), s.dev.t % 100000 = 0 ∧ ((s.dev.inStand = false ∨ s.dev.isRoot = false)) ∧ s.dev.stand.mapWait = some (k, m)) ∧
    (∃ (s : State), s.dev.t % 100000 = 0 ∧ s.dev.inStand = true ∧ s.dev.isRoot = true ∧ s.dev.stand.quiet = false) ∧
    (∃ (s : State) (fl : Flit) (x : _), s.dev.stand.mapRx = some x ∧ leAt fl.payload 0 1 = 1 ∧ leAt fl.payload 2 2 = x.ver ∧ x.hdr = none) ∧
    (∃ (s : State) (fl : Flit) (x : _) (h : _), s.dev.stand.mapRx = some x ∧ leAt fl.payload 0 1 = 1 ∧ leAt fl.payload 2 2 = x.ver ∧ x.hdr = some h ∧ ((∀ i < 32, i = leAt fl.payload 1 1 ∨ x.ents.any (fun y => y.1 == i) = true)) ∧ s.dev.inStand = false ∧ s.dev.bit F.STAND_CTL_EN = true ∧ fl.src = h.1) ∧
    (∃ (s : State), s.dev.inStand = true ∧ s.dev.isRoot = true ∧ s.dev.stand.lastMapT + 100 * msT ≤ s.dev.t ∧ s.dev.stand.quiet = false) ∧
    (∃ (s : State), s.dev.inStand = true ∧ s.dev.get F.STAND_STAT_ROLE = 2 ∧ s.dev.t % 100000 = 0 ∧ s.dev.stand.lastRoot.getD 0 + s.dev.get F.STAND_TIMING_DEAD_MS * msT ≤ s.dev.t ∧ s.dev.neighboursSilent = true ∧ s.dev.quorumNow = true ∧ s.dev.stand.quiet = false) ∧
    (∃ (s : State) (u : _), s.dev.stand.map.isSome = true ∧ s.dev.stand.upT = some u ∧ s.dev.stand.quiet = true ∧ s.dev.get F.STAND_STAT_ROLE = 1 ∧ u + 100 * msT ≤ s.dev.t) ∧
    (∃ (s : State), s.dev.inStand = true ∧ s.dev.isRoot = true ∧ s.dev.t % 100000 = 0) ∧
    (∃ (s : State) (fl : Flit), leAt fl.payload 0 1 = 0x0A ∧ s.dev.isRoot = false) :=
  ⟨⟨on (inStandOf [1, 2] 1 3), by decide +kernel, by decide +kernel⟩,
   ⟨on (inStandOf [1, 2] 0 1), .east, flitOf 7 1 0 ([1, 0, 0, 0, 0, 0, 0, 0] ++ leBytes 8 2), by decide +kernel, by decide +kernel, by decide +kernel, by decide +kernel, by decide +kernel⟩,
   ⟨on (fun d => (d.putBit F.STAND_CTL_EN true).onStand fun z => { z with mapWait := some (7, mapOfIds [1, 2]) }), 7, mapOfIds [1, 2], by decide +kernel, by decide +kernel, by decide +kernel⟩,
   ⟨on (inStandOf [1, 2] 0 1), by decide +kernel, by decide +kernel, by decide +kernel, by decide +kernel⟩,
   ⟨on (fun d => d.onStand fun z => { z with mapRx := some ⟨4, none, []⟩ }), flitOf 4 0 0 [1, 31, 4, 0], ⟨4, none, []⟩, by decide +kernel, by decide +kernel, by decide +kernel, by decide +kernel⟩,
   ⟨on (fun d => (d.putBit F.STAND_CTL_EN true).onStand fun z => { z with mapRx := some ⟨4, some (0, 0, 5, 9), (List.range 31).map fun i => (i, (mapOfIds [2, 1]).ents.getD i MapEnt.empty)⟩ }), flitOf 4 0 0 [1, 31, 4, 0], ⟨4, some (0, 0, 5, 9), (List.range 31).map fun i => (i, (mapOfIds [2, 1]).ents.getD i MapEnt.empty)⟩, (0, 0, 5, 9), by decide +kernel, by decide +kernel, by decide +kernel, by decide +kernel, by decide +kernel, by decide +kernel, by decide +kernel, by decide +kernel⟩,
   ⟨on (fun d => atTick 10000000 (inStandOf [1, 2] 0 1 d)), by decide +kernel, by decide +kernel, by decide +kernel, by decide +kernel⟩,
   ⟨on (fun d => (atTick 10000000 (inStandOf [2, 1, 3] 1 2 d)).onStand fun z => { z with heard := [⟨3, 2, 1, 10000000, 3, false, 0, 0, 0, 8, 0, 0, 0, 0⟩] }), by decide +kernel, by decide +kernel, by decide +kernel, by decide +kernel, by decide +kernel, by decide +kernel, by decide +kernel⟩,
   ⟨on (fun d => (atTick 10000000 (inStandOf [1, 2] 0 1 d)).onStand fun z => { z with quiet := true, upT := some 0 }), 0, by decide +kernel, by decide +kernel, by decide +kernel, by decide +kernel, by decide +kernel⟩,
   ⟨on (fun d => (inStandOf [1, 2] 0 1 d).onStand fun z => { z with chans := [⟨0, 5, 99, 3⟩] }), by decide +kernel, by decide +kernel, by decide +kernel⟩,
   ⟨on (inStandOf [1, 2] 1 3), flitOf 3 0 0 ([0x0A, 0, 0, 0, 2] ++ leBytes 8 77 ++ leBytes 8 99), by decide +kernel, by decide +kernel⟩⟩

theorem test_meets_group_events_complete :
    (∃ (s : State) (fl : Flit) (data : _), leAt fl.payload 0 1 = 3 ∧ s.dev.inStand = true ∧ s.dev.isRoot = false ∧ (leAt data 0 4).testBit s.dev.ownSlot = true) ∧
    (∃ (s : State) (fl : Flit), s.dev.inStand = true ∧ s.dev.isRoot = false ∧ leAt fl.payload 0 1 = s.dev.ownSlot) ∧
    (∃ (s : State) (fl : Flit) (g : _), s.dev.stand.group = some g ∧ leAt fl.payload 0 1 = 4 ∧ s.dev.isRoot = true ∧ g.phase = 1 ∧ txnEq g.entry g.txn (leAt fl.payload 2 2) = true ∧ g.mask.testBit fl.src = true ∧ g.votes.any (fun v => v.slot == fl.src) = false ∧ g.votes.all (fun v => v.ok) = true ∧ leAt fl.payload 4 1 % 2 = 1 ∧ ((∃ i ∈ bitsOf 32 g.mask, i ≠ fl.src ∧ g.votes.any (fun v => v.slot == i) = false))) ∧
    (∃ (s : State) (fl : Flit) (g : _), s.dev.stand.group = some g ∧ leAt fl.payload 0 1 = 4 ∧ s.dev.isRoot = true ∧ g.phase = 1 ∧ txnEq g.entry g.txn (leAt fl.payload 2 2) = true ∧ g.mask.testBit fl.src = true ∧ g.votes.any (fun v => v.slot == fl.src) = false ∧ g.votes.all (fun v => v.ok) = true ∧ leAt fl.payload 4 1 % 2 = 0) ∧
    (∃ (s : State) (g : _), s.dev.stand.group = some g ∧ g.phase = 1 ∧ g.t0 + s.dev.get F.STAND_TIMING_PREP_MS * msT ≤ s.dev.t) ∧
    (∃ (s : State) (fl : Flit) (r : _), s.dev.stand.group = none ∧ s.dev.stand.resv = some r ∧ leAt fl.payload 0 1 = 5 ∧ txnEq r.entry r.txn (leAt fl.payload 2 2) = true) ∧
    (∃ (s : State) (fl : Flit) (r : _), s.dev.stand.resv = some r ∧ leAt fl.payload 0 1 = 6 ∧ txnEq r.entry r.txn (leAt fl.payload 2 2) = true) ∧
    (∃ (s : State) (fl : Flit) (g : _), s.dev.stand.group = some g ∧ leAt fl.payload 0 1 = 7 ∧ s.dev.isRoot = true ∧ g.phase = 2 ∧ txnEq g.entry g.txn (leAt fl.payload 2 2) = true ∧ g.mask.testBit fl.src = true ∧ (g.okMap ||| g.failMap).testBit fl.src = false ∧ fl.src < 32 ∧ leAt fl.payload 4 1 = 0) ∧
    (∃ (s : State) (fl : Flit) (g : _), s.dev.stand.group = some g ∧ leAt fl.payload 0 1 = 7 ∧ s.dev.isRoot = true ∧ g.phase = 2 ∧ txnEq g.entry g.txn (leAt fl.payload 2 2) = true ∧ g.mask.testBit fl.src = true ∧ (g.okMap ||| g.failMap).testBit fl.src = false ∧ fl.src < 32 ∧ leAt fl.payload 4 1 ≠ 0) ∧
    (∃ (s : State) (g : _) (i : _), s.dev.stand.group = some g ∧ g.phase = 2 ∧ Nat.max g.t0 g.tc + s.dev.get F.STAND_TIMING_COMMIT_MS * msT ≤ s.dev.t ∧ i < 32 ∧ g.mask.testBit i = true ∧ (g.okMap ||| g.failMap).testBit i = false) ∧
    (∃ (s : State) (r : _), s.dev.stand.group = none ∧ s.dev.stand.resv = some r ∧ r.t0 + s.dev.get F.STAND_TIMING_COMMIT_MS * msT ≤ s.dev.t) :=
  ⟨⟨on (inStandOf [1, 2] 1 3), flitOf 3 0 0 [3], leBytes 4 0b10 ++ entryOf 0x0008 [], by decide +kernel, by decide +kernel, by decide +kernel, by decide +kernel⟩,
   ⟨on (inStandOf [1, 2] 1 3), flitOf 3 0 0 [1, 5], by decide +kernel, by decide +kernel, by decide +kernel⟩,
   ⟨on (rootWith (groupOf 1)), flitOf 3 1 0 [4, 0, 3, 0, 1], groupOf 1, by decide +kernel, by decide +kernel, by decide +kernel, by decide +kernel, by decide +kernel, by decide +kernel, by decide +kernel, by decide +kernel, by decide +kernel, by decide +kernel⟩,
   ⟨on (rootWith (groupOf 1)), flitOf 3 1 0 [4, 0, 3, 0, 0, 5], groupOf 1, by decide +kernel, by decide +kernel, by decide +kernel, by decide +kernel, by decide +kernel, by decide +kernel, by decide +kernel, by decide +kernel, by decide +kernel⟩,
   ⟨on (fun d => atTick 1000000 (rootWith (groupOf 1) d)), groupOf 1, by decide +kernel, by decide +kernel, by decide +kernel⟩,
   ⟨on (fun d => (inStandOf [1, 2] 1 3 d).onStand fun z => { z with resv := some ⟨3, entryOf 0x0008 [(8, 4, 2)], [], 0⟩ }), flitOf 3 0 0 [5, 0, 3], ⟨3, entryOf 0x0008 [(8, 4, 2)], [], 0⟩, by decide +kernel, by decide +kernel, by decide +kernel, by decide +kernel⟩,
   ⟨on (fun d => (inStandOf [1, 2] 1 3 d).onStand fun z => { z with resv := some ⟨3, entryOf 0x0008 [(8, 4, 2)], [], 0⟩ }), flitOf 3 0 0 [6, 0, 3], ⟨3, entryOf 0x0008 [(8, 4, 2)], [], 0⟩, by decide +kernel, by decide +kernel, by decide +kernel⟩,
   ⟨on (rootWith (groupOf 2)), flitOf 3 2 0 [7, 0, 3, 0, 0], groupOf 2, by decide +kernel, by decide +kernel, by decide +kernel, by decide +kernel, by decide +kernel, by decide +kernel, by decide +kernel, by decide +kernel, by decide +kernel⟩,
   ⟨on (rootWith (groupOf 2)), flitOf 3 2 0 [7, 0, 3, 0, 4], groupOf 2, by decide +kernel, by decide +kernel, by decide +kernel, by decide +kernel, by decide +kernel, by decide +kernel, by decide +kernel, by decide +kernel, by decide +kernel⟩,
   ⟨on (fun d => atTick 5000000 (rootWith (groupOf 2) d)), groupOf 2, 2, by decide +kernel, by decide +kernel, by decide +kernel, by decide +kernel, by decide +kernel, by decide +kernel⟩,
   ⟨on (fun d => atTick 5000000 ((inStandOf [1, 2] 1 3 d).onStand fun z => { z with resv := some ⟨3, entryOf 0x0008 [], [], 0⟩ })), ⟨3, entryOf 0x0008 [], [], 0⟩, by decide +kernel, by decide +kernel, by decide +kernel⟩⟩

theorem test_meets_merge_events_complete :
    (∃ (s : State) (sg : Segment), s.dev.inStand = true ∧ s.dev.isRoot = true ∧ sg.whole = false) ∧
    (∃ (s : State) (sg : Segment) (e : _), s.dev.inStand = true ∧ s.dev.isRoot = true ∧ sg.whole = true ∧ s.dev.ent sg.slot = some e ∧ ((e.kind = 1 ∨ e.kind = 2 ∨ e.kind = 3)) ∧ s.dev.failed sg.slot = false ∧ ((s.dev.chanUsed sg.channel = true → 0 ≤ sdiff (s.dev.chan sg.channel).fin sg.web.toNat)) ∧ s.dev.stand.merge.find? (fun l => l.chan == sg.channel && l.web == sg.web.toNat) = none) ∧
    (∃ (s : State) (c : _) (l : _), s.dev.inStand = true ∧ s.dev.isRoot = true ∧ c < 16 ∧ s.dev.firstLine c = some l ∧ l.t0 + s.dev.get F.STAND_MERGE_CTL_WAIT * 100 * usT ≤ s.dev.t) ∧
    (∃ (s : State) (h : _) (b : _), s.dev.stand.tokHolder = some (h, b) ∧ s.dev.isRoot = true ∧ h ≠ s.dev.ownSlot ∧ b + 100 * msT ≤ s.dev.t ∧ ((∀ x, s.dev.heardOf h = some x → x.flags.testBit 2 = false ∨ x.t < b))) ∧
    (∃ (s : State) (b : _), s.dev.bit F.LINK_TS_STAT_HOLDOVER = true ∧ s.dev.bit F.LINK_TS_STAT_LOCKED = false ∧ s.dev.link.holdT = some b ∧ b + s.dev.get F.STAND_HOLD_HOLD_MS * msT ≤ s.dev.t) :=
  ⟨⟨on (inStandOf [1, 2] 0 1), segOf 1 0 false, by decide +kernel, by decide +kernel, by decide +kernel⟩,
   ⟨on (inStandOf [1, 2] 0 1), segOf 1 65536000 true, activeEnt 2 2496, by decide +kernel, by decide +kernel, by decide +kernel, by decide +kernel, by decide +kernel, by decide +kernel, by decide +kernel, by decide +kernel⟩,
   ⟨on (fun d => atTick 200000 ((inStandOf [1, 2] 0 1 d).onStand fun z => { z with merge := [⟨0, 0, 0, 3, 1000, [segOf 1 0 true], false, []⟩] })), 0, ⟨0, 0, 0, 3, 1000, [segOf 1 0 true], false, []⟩, by decide +kernel, by decide +kernel, by decide +kernel, by decide +kernel, by decide +kernel⟩,
   ⟨on (fun d => (atTick 10000000 (inStandOf [1, 2] 0 1 d)).onStand fun z => { z with tokHolder := some (1, 0) }), 1, 0, by decide +kernel, by decide +kernel, by decide +kernel, by decide +kernel, (of_isNone (by decide +kernel))⟩,
   ⟨on (fun d => atTick 100000000 ((d.putBit F.LINK_TS_STAT_HOLDOVER true).onLink fun z => { z with holdT := some 0 })), 0, by decide +kernel, by decide +kernel, by decide +kernel, by decide +kernel⟩⟩

theorem test_meets_dma_events_complete :
    (∃ (s : State) (n : Fin 16) (bytes : List Byte) (r : _), s.dev.host.reqs.filter (fun r => r.ring == n.val && r.kind == .desc) = [r] ∧ r.live = true ∧ (s.dev.ringX n).bad = false ∧ (s.dev.ringX n).closing = false ∧ s.dev.host.staged.all (fun x => x.ring != n.val) = true ∧ ((∀ i < r.len / 32, (parseDesc (slice bytes (32 * i) 32)).isSome = true))) ∧
    (∃ (s : State) (id : _), s.dev.host.reqs.find? (fun r => r.id == id && r.isOut) = none) ∧
    (∃ (s : State) (id : _) (bytes : List Byte) (r : _), s.dev.host.reqs.find? (fun r => r.id == id && r.isOut) = some r ∧ r.got + bytes.length ≤ r.len ∧ r.kind ≠ .barrier) ∧
    (∃ (s : State) (id : _) (cause : CplCause) (r : _), s.dev.host.reqs.find? (fun r => r.id == id && r.isOut) = some r ∧ cause ≠ .ok ∧ r.chan < 8) ∧
    (∃ (s : State) (id : _) (r : _) (due : _), s.dev.host.reqs.find? (fun r => r.id == id) = some r ∧ r.st = .out (some due) ∧ due ≤ s.dev.t ∧ r.chan < 8) ∧
    (∃ (s : State) (id : _) (r : _) (due : _), s.dev.host.reqs.find? (fun r => r.id == id) = some r ∧ r.st = .backoff due ∧ due ≤ s.dev.t ∧ s.dev.chanRuns r.chan = true ∧ r.chan < 8) ∧
    (∃ (s : State) (r : _) (rs : _), s.dev.host.formed = r :: rs) ∧
    (∃ (s : State) (n : Fin 16) (b : _) (due : _), openBuf (s.dev.ringX n) = some b ∧ b.firstT = some due ∧ due + s.dev.get (F.HOST_RING_CTL_HOLD.at n) * 10 * usT ≤ s.dev.t ∧ b.data.isEmpty = false) ∧
    (∃ (s : State) (n : Fin 16) (b : _) (bs : _), s.dev.ringState n = 1 ∧ s.dev.chanRuns (s.dev.ringChan n) = true ∧ (s.dev.ringX n).bufs = b :: bs ∧ b.closed = true ∧ b.barrier = false) ∧
    (∃ (s : State) (v : Fin 32), s.dev.host.pend.getLsbD v = true ∧ s.dev.host.cfg.msixEn = true ∧ s.dev.host.cfg.fnMask = false ∧ s.dev.vecMasked v = false ∧ ((∀ b, assoc s.dev.host.lastMsg v = some b → b + s.dev.get (F.HOST_VEC_MOD_MIN_GAP.at v) * usT ≤ s.dev.t)) ∧ s.dev.bit F.HOST_STAT_BME = true ∧ s.dev.bit F.HOST_STAT_LINK_UP = true ∧ s.dev.bit F.HOST_STAT_RETRAINING = false) :=
  ⟨⟨on (fun d => (linkUp (ringAs 3 1 4 2 0 d)).onHost fun z => { z with reqs := [reqOf 1 2 3 64 .desc] }), 3, List.replicate 8 0 ++ [64] ++ List.replicate 31 0 ++ [128] ++ List.replicate 23 0, reqOf 1 2 3 64 .desc, by decide +kernel, by decide +kernel, by decide +kernel, by decide +kernel, by decide +kernel, (by decide +kernel)⟩,
   ⟨on linkUp, 9, by decide +kernel⟩,
   ⟨on (fun d => (linkUp (ringAs 3 1 4 2 0 d)).onHost fun z => { z with reqs := [reqOf 1 2 3 64 .desc] }), 1, List.replicate 32 0, reqOf 1 2 3 64 .desc, by decide +kernel, by decide +kernel, by decide +kernel⟩,
   ⟨on (fun d => (linkUp (ringAs 3 1 4 2 0 d)).onHost fun z => { z with reqs := [reqOf 1 2 3 64 .desc] }), 1, .malformed, reqOf 1 2 3 64 .desc, by decide +kernel, by decide +kernel, by decide +kernel⟩,
   ⟨on (fun d => atTick 1000000 ((linkUp (ringAs 3 1 4 2 0 d)).onHost fun z => { z with reqs := [reqOf 1 2 3 64 .desc] })), 1, reqOf 1 2 3 64 .desc, 1000000, by decide +kernel, by decide +kernel, by decide +kernel, by decide +kernel⟩,
   ⟨on (fun d => atTick 1000000 ((linkUp (ringAs 3 1 4 2 0 d)).onHost fun z => { z with reqs := [{ reqOf 1 2 3 64 .desc with st := .backoff 1000000 }] })), 1, { reqOf 1 2 3 64 .desc with st := .backoff 1000000 }, 1000000, by decide +kernel, by decide +kernel, by decide +kernel, by decide +kernel, by decide +kernel⟩,
   ⟨on (fun d => (linkUp d).onHost fun z => { z with formed := [⟨9, List.replicate 64 1, 0, none, none⟩] }), ⟨9, List.replicate 64 1, 0, none, none⟩, [], by decide +kernel⟩,
   ⟨on (fun d => atTick 1000000000 (bufOn (linkUp (ringAs 3 1 4 2 0 d)))), 3, heldBuf, 0, by decide +kernel, by decide +kernel, by decide +kernel, by decide +kernel⟩,
   ⟨on (fun d => (linkUp (ringAs 3 1 4 2 0 d)).onHost fun z => { z with rings := z.rings.set 3 ⟨[], [{ heldBuf with closed := true }], false, false, false⟩ }), 3, { heldBuf with closed := true }, [], by decide +kernel, by decide +kernel, by decide +kernel, by decide +kernel, by decide +kernel⟩,
   ⟨on (fun d => (linkUp d).onHost fun z => { z with pend := 0x80000001#32, msixTab := [(127, 0)], cfg := { z.cfg with msixEn := true } }), 31, by decide +kernel, by decide +kernel, by decide +kernel, by decide +kernel, (of_isNone (by decide +kernel)), by decide +kernel, by decide +kernel, by decide +kernel⟩⟩

theorem test_meets_pcie_events_complete :
    (∃ (s : State), s.dev.get F.LINK_HP_STAT_MODE_ACT = 0) ∧
    (∃ (s : State), s.dev.get F.LINK_HP_STAT_MODE_ACT = 0) ∧
    (∃ (wm : Fin 4), wm.val ≠ 3) ∧
    (∃ (s : State), s.dev.health.rates.all (fun r => r.code != 0x0A02) = true ∧ 0 < s.dev.get F.HEALTH_CTL_RATE) ∧
    (∃ (s : State), s.dev.get F.SYS_START_STEP ≤ 8 ∧ s.dev.bit F.SYS_START_HALTED = false) ∧
    (∃ (s : State), ((8 < s.dev.get F.SYS_START_STEP ∨ s.dev.bit F.SYS_START_HALTED = true))) ∧
    (∃ (s : State), s.dev.bit F.HOST_PTM_CTL_EN = true ∧ s.dev.host.cfg.ptm = true ∧ s.dev.host.ptmNext ≤ s.dev.t ∧ s.dev.bit F.HOST_STAT_RETRAINING = false) ∧
    (∃ (s : State) (ok : _), s.dev.bit F.HOST_PTM_CTL_EN = true ∧ s.dev.host.cfg.ptm = true ∧ s.dev.host.ptmNext ≤ s.dev.t ∧ ((ok = false ∨ s.dev.bit F.HOST_STAT_RETRAINING = true))) ∧
    (∃ (s : State) (b : _), s.dev.get F.LINK_TS_CTL_SRC = 2 ∧ s.dev.follows = false ∧ s.dev.host.ptmLast = some b ∧ b + 10 * msT ≤ s.dev.t) :=
  ⟨⟨on (fun d => linkUp (ringAs 3 1 4 2 0 d)), by decide +kernel⟩,
   ⟨on (fun d => linkUp (ringAs 3 1 4 2 0 d)), by decide +kernel⟩,
   ⟨2, by decide +kernel⟩,
   ⟨on id, by decide +kernel, by decide +kernel⟩,
   ⟨on id, by decide +kernel, by decide +kernel⟩,
   ⟨on (fun d => d.put F.SYS_START_STEP 9), by decide +kernel⟩,
   ⟨on (fun d => (d.putBit F.HOST_PTM_CTL_EN true).onHost fun z => { z with cfg := { z.cfg with ptm := true } }), by decide +kernel, by decide +kernel, by decide +kernel, by decide +kernel⟩,
   ⟨on (fun d => (d.putBit F.HOST_PTM_CTL_EN true).onHost fun z => { z with cfg := { z.cfg with ptm := true } }), false, by decide +kernel, by decide +kernel, by decide +kernel, by decide +kernel⟩,
   ⟨on (fun d => atTick 1000000 ((d.put F.LINK_TS_CTL_SRC 2).onHost fun z => { z with ptmLast := some 0 })), 0, by decide +kernel, by decide +kernel, by decide +kernel, by decide +kernel⟩⟩

theorem test_meets_firmware_events_complete :
    (∃ (s : State) (x : _), s.dev.sec.fwSwitch = some x ∧ s.dev.bit F.FPA_CTL_RUN = false ∧ x.tc + 2000 ≤ s.dev.t) ∧
    (∃ (s : State) (x : _), s.dev.sec.fwTrial = some x ∧ x.runs = false) ∧
    (∃ (s : State) (x : _), s.dev.sec.fwTrial = some x ∧ x.runs = true ∧ x.failed = false ∧ s.dev.t < x.t0 + 2 * secT) ∧
    (∃ (s : State) (x : _), s.dev.sec.fwTrial = some x ∧ x.runs = true ∧ x.t0 + 2 * secT ≤ s.dev.t) :=
  ⟨⟨on (fun d => atTick 5000 (d.onSec fun z => { z with fwSwitch := some ⟨7, 1, 4000, 3000⟩ })), ⟨7, 1, 4000, 3000⟩, by decide +kernel, by decide +kernel, by decide +kernel⟩,
   ⟨on (fun d => d.onSec fun z => { z with fwTrial := some ⟨7, 1, 0, 5, false, false⟩ }), ⟨7, 1, 0, 5, false, false⟩, by decide +kernel, by decide +kernel⟩,
   ⟨on (fun d => atTick 199999999 (d.onSec fun z => { z with cmds := [cmdOf 0x800C [] []], fwTrial := some ⟨7, 1, 0, 0, true, false⟩ })), ⟨7, 1, 0, 0, true, false⟩, by decide +kernel, by decide +kernel, by decide +kernel, by decide +kernel⟩,
   ⟨on (fun d => atTick 200000000 (d.onSec fun z => { z with cmds := [cmdOf 0x800C [] []], fwTrial := some ⟨7, 1, 0, 0, true, false⟩ })), ⟨7, 1, 0, 0, true, false⟩, by decide +kernel, by decide +kernel, by decide +kernel⟩⟩

theorem test_meets_keep_and_flash_writes_complete :
    (∃ (s : State) (j : _) (rest : _), s.dev.store.keepQ = j :: rest ∧ 1 < j.pre) ∧
    (∃ (s : State) (j : _) (rest : _) (k : _) (a : _) (bs : _), s.dev.store.keepQ = j :: rest ∧ j.pre = 1 ∧ j.what = .user k a bs) ∧
    (∃ (s : State) (j : _) (rest : _), s.dev.store.keepQ = j :: rest ∧ (j.pre = 0 ∨ j.fails < 2)) ∧
    (∃ (s : State) (j : _) (rest : _) (k : _) (a : _) (bs : _), s.dev.store.keepQ = j :: rest ∧ 0 < j.pre ∧ 2 ≤ j.fails ∧ j.what = .user k a bs) ∧
    (∃ (s : State) (j : _) (rest : _) (k : _) (a : _) (bs : _), s.dev.store.keepQ = j :: rest ∧ j.pre = 0 ∧ 1 < j.post ∧ j.post ≤ bs.length / 64 + 1 ∧ j.what = .user k a bs) ∧
    (∃ (s : State) (j : _) (rest : _), s.dev.store.keepQ = j :: rest ∧ j.pre = 0 ∧ j.post ≤ 1) ∧
    (∃ (s : State) (i : _) (j : _), s.dev.store.flashQ.findIdx? (fun j => !j.isPlate) = some i ∧ s.dev.store.flashQ[i]? = some j) ∧
    (∃ (s : State) (i : _) (j : _), s.dev.store.flashQ.findIdx? (fun j => !j.isPlate) = some i ∧ s.dev.store.flashQ[i]? = some j ∧ s.dev.burin.curveWait = none) :=
  ⟨⟨on (fun d => d.onStore fun z => { z with keepQ := [⟨.modState, 3, 2, 1⟩] }), ⟨.modState, 3, 2, 1⟩, [], by decide +kernel, by decide +kernel⟩,
   ⟨on (fun d => (d.onStore fun z => { z with keepQ := [⟨.user 7 0 [1, 2], 1, 2, 0⟩] }).onSec fun z => { z with cmds := [cmdOf 0x800D [] []] }), ⟨.user 7 0 [1, 2], 1, 2, 0⟩, [], 7, 0, [1, 2], by decide +kernel, by decide +kernel, by decide +kernel⟩,
   ⟨on (fun d => d.onStore fun z => { z with keepQ := [⟨.modState, 3, 2, 1⟩] }), ⟨.modState, 3, 2, 1⟩, [], by decide +kernel, by decide +kernel⟩,
   ⟨on (fun d => (d.onStore fun z => { z with keepQ := [⟨.user 7 0 [1, 2], 1, 2, 2⟩] }).onSec fun z => { z with cmds := [cmdOf 0x800D [] []] }), ⟨.user 7 0 [1, 2], 1, 2, 2⟩, [], 7, 0, [1, 2], by decide +kernel, by decide +kernel, by decide +kernel, by decide +kernel⟩,
   ⟨on (fun d => d.onStore fun z => { z with keepQ := [⟨.user 7 128 (List.replicate 128 9), 0, 3, 0⟩] }), ⟨.user 7 128 (List.replicate 128 9), 0, 3, 0⟩, [], 7, 128, List.replicate 128 9, by decide +kernel, by decide +kernel, by decide +kernel, by decide +kernel, by decide +kernel⟩,
   ⟨on (fun d => d.onStore fun z => { z with keepQ := [⟨.modState, 0, 1, 0⟩] }), ⟨.modState, 0, 1, 0⟩, [], by decide +kernel, by decide +kernel, by decide +kernel⟩,
   ⟨on (fun d => d.onStore fun z => { z with flashQ := [⟨.plate 0 0 2, 0⟩, ⟨.erase 7 0 0x20000, 0⟩] }), 1, ⟨.erase 7 0 0x20000, 0⟩, by decide +kernel, by decide +kernel⟩,
   ⟨on (fun d => d.onStore fun z => { z with flashQ := [⟨.plate 0 0 2, 0⟩, ⟨.erase 7 0 0x20000, 2⟩], flashSpares := 0 }), 1, ⟨.erase 7 0 0x20000, 2⟩, by decide +kernel, by decide +kernel, by decide +kernel⟩⟩

theorem test_meets_scrub_and_time_complete :
    (∃ (s : State) (w : _) (code : _), s.dev.bit F.MEM_STAT_SCRUBBING = true ∧ swept w = true ∧ hatchDecode (s.dev.erased (w % 4)) (slice code 0 36) = .bad) ∧
    (∃ (s : State) (w : _) (code : _) (word : _) (fixed : _), s.dev.bit F.MEM_STAT_SCRUBBING = true ∧ swept w = true ∧ hatchDecode (s.dev.erased (w % 4)) (slice code 0 36) = .ok word fixed ∧ fixed.isEmpty = false) ∧
    (∃ (s : State), s.dev.bit F.MEM_STAT_SCRUBBING = true) ∧
    (∃ (s : State), s.dev.store.opT0 + 60 * secT ≤ s.dev.t) :=
  ⟨⟨on (fun d => (d.putBit F.MEM_STAT_SCRUBBING true).put (F.MEM_QDR_ERASE_MASK.at 3) 7), 7, List.replicate 30 0 ++ [1] ++ List.replicate 5 0, by decide +kernel, by decide +kernel, by decide +kernel⟩,
   ⟨on (fun d => d.putBit F.MEM_STAT_SCRUBBING true), 7, [1] ++ List.replicate 35 0, List.replicate 36 0, [0], by decide +kernel, by decide +kernel, by decide +kernel, by decide +kernel⟩,
   ⟨on (fun d => atTick 5000000 (d.putBit F.MEM_STAT_SCRUBBING true)), by decide +kernel⟩,
   ⟨on (atTick 6000000000), by decide +kernel⟩⟩

theorem test_meets_table_window_complete :
    (∃ (s : State) (p : Path) (i : Nat), pathCopy p = some i ∧ i < s.dev.paths.length) ∧
    (∃ (s : State) (p : Path) (i : Nat) (off : _), pathCopy p = some i ∧ i < s.dev.paths.length ∧ off < 0x80000 ∧ tableSize s.mem s.dev (s.dev.path i).table (s.dev.path i).inst ≤ (s.dev.path i).twBase.toNat % 65536 * 65536 + off / 4 * 4) ∧
    (∃ (s : State) (p : Path) (i : Nat) (off : _) (a : _), pathCopy p = some i ∧ i < s.dev.paths.length ∧ off < 0x80000 ∧ (s.dev.path i).twBase.toNat % 65536 * 65536 + off / 4 * 4 + 4 ≤ tableSize s.mem s.dev (s.dev.path i).table (s.dev.path i).inst ∧ tableQdr (s.dev.path i) ((s.dev.path i).twBase.toNat % 65536 * 65536 + off / 4 * 4) = some a ∧ a / 32 ∉ s.dev.store.qdrBad) ∧
    (∃ (s : State) (p : Path) (i : Nat) (off : _) (a : _), pathCopy p = some i ∧ i < s.dev.paths.length ∧ off < 0x80000 ∧ (s.dev.path i).twBase.toNat % 65536 * 65536 + off / 4 * 4 + 4 ≤ tableSize s.mem s.dev (s.dev.path i).table (s.dev.path i).inst ∧ tableQdr (s.dev.path i) ((s.dev.path i).twBase.toNat % 65536 * 65536 + off / 4 * 4) = some a ∧ a / 32 ∈ s.dev.store.qdrBad) ∧
    (∃ (s : State) (p : Path) (i : Nat) (off : _) (a : _), pathCopy p = some i ∧ i < s.dev.paths.length ∧ off < 0x80000 ∧ (s.dev.path i).twBase.toNat % 65536 * 65536 + off / 4 * 4 + 4 ≤ tableSize s.mem s.dev (s.dev.path i).table (s.dev.path i).inst ∧ tableQdr (s.dev.path i) ((s.dev.path i).twBase.toNat % 65536 * 65536 + off / 4 * 4) = some a ∧ s.dev.tableWritable (s.dev.path i).table = true) ∧
    (∃ (s : State) (p : Path) (i : Nat) (off : _), pathCopy p = some i ∧ i < s.dev.paths.length ∧ off < 0x80000 ∧ s.dev.tableWritable (s.dev.path i).table = false) :=
  ⟨⟨on plated, .mgmt, 1, by decide +kernel, by decide +kernel⟩,
   ⟨on (winOn 4 0), .mgmt, 1, 0x7FFFF, by decide +kernel, by decide +kernel, by decide +kernel, by decide +kernel⟩,
   ⟨on (winOn 4 0), .bar0, 0, 21887, skimAddr 0 + 21884, by decide +kernel, by decide +kernel, by decide +kernel, by decide +kernel, by decide +kernel, by decide +kernel⟩,
   ⟨on (fun d => (winOn 4 0 d).onStore fun z => { z with qdrBad := [(skimAddr 0) / 32] }), .bar0, 0, 0, skimAddr 0, by decide +kernel, by decide +kernel, by decide +kernel, by decide +kernel, by decide +kernel, by decide +kernel⟩,
   ⟨on (winOn 4 0), .bar0, 0, 21884, skimAddr 0 + 21884, by decide +kernel, by decide +kernel, by decide +kernel, by decide +kernel, by decide +kernel, by decide +kernel⟩,
   ⟨on (winOn 1 0), .bar0, 0, 0, by decide +kernel, by decide +kernel, by decide +kernel, by decide +kernel⟩⟩

theorem test_meets_plate_events_complete :
    (∃ (s : State) (range : _) (region : _) (inst : _) (n : _), s.dev.store.flashQ.find? FlashJob.isPlate = some ⟨.plate range region inst, n⟩) ∧
    (∃ (s : State) (range : _) (region : _) (inst : _) (n : _), s.dev.store.flashQ.find? FlashJob.isPlate = some ⟨.plate range region inst, n⟩ ∧ s.dev.pipe.persist = some (range, region) ∧ s.dev.pipe.persistRead = none ∧ s.dev.store.qdrBad = []) ∧
    (∃ (s : State) (range : _) (region : _) (inst : _) (n : _), s.dev.store.flashQ.find? FlashJob.isPlate = some ⟨.plate range region inst, n⟩ ∧ s.dev.pipe.persistRead = some true) ∧
    (∃ (s : State), s.dev.owner = 1 ∧ dueBy s.dev.pipe.hostHold s.dev.t = true) ∧
    (∃ (s : State) (x : _), s.dev.pipe.swap = some x ∧ s.dev.inFrame = false ∧ ((x.ranAt.getD (s.dev.bit F.FPA_CTL_RUN) = false ∧ x.ready + 2000 ≤ s.dev.t ∨ x.ranAt.getD (s.dev.bit F.FPA_CTL_RUN) = true ∧ s.dev.frameSrc ≠ 0 ∧ x.ready + 2000 + s.dev.get F.PIPE_PL_CTL_FALLBACK * msT ≤ s.dev.t))) ∧
    (∃ (s : State) (b : Fin 2) (x : _) (f : _), s.dev.pipe.capBufs.getD b none = some x ∧ s.dev.frame x.frame = some f ∧ x.ready = false ∧ f.cut = none ∧ tapReady f x.cap.tap = true) ∧
    (∃ (s : State) (b : Fin 2) (x : _) (f : _), s.dev.pipe.capBufs.getD b none = some x ∧ s.dev.frame x.frame = some f ∧ x.ready = false ∧ f.cut = none ∧ x.b + 2 * x.period < s.dev.t) :=
  ⟨⟨on (fun d => (plated d).onStore fun z => { z with flashQ := [⟨.plate 0 0 2, 0⟩] }), 0, 0, 2, 0, by decide +kernel⟩,
   ⟨on (fun d => ((plated d).onStore fun z => { z with flashQ := [⟨.plate 0 0 2, 0⟩] }).onPipe fun z => { z with persist := some (0, 0), persistRead := none }), 0, 0, 2, 0, by decide +kernel, by decide +kernel, by decide +kernel, by decide +kernel⟩,
   ⟨on (fun d => ((plated d).onStore fun z => { z with flashQ := [⟨.plate 0 0 2, 0⟩] }).onPipe fun z => { z with persist := some (0, 0), persistRead := some true }), 0, 0, 2, 0, by decide +kernel, by decide +kernel⟩,
   ⟨on (fun d => atTick 5 (((plated d).put F.PIPE_PL_STAT_SHADOW_OWNER 1).onPipe fun z => { z with hostHold := some 5 })), by decide +kernel, by decide +kernel⟩,
   ⟨on (fun d => atTick 5000 ((plated d).onPipe fun z => { z with cluNext := some ([], []), swap := some ⟨3000, false, some false⟩ })), ⟨3000, false, some false⟩, by decide +kernel, by decide +kernel, by decide +kernel⟩,
   ⟨on (fun d => (capOn d).onFpa fun z => { z with frames := [frameOf 1 0 smallSet [slotOf 0 true, slotOf 1 true]] }), 1, capBuf, frameOf 1 0 smallSet [slotOf 0 true, slotOf 1 true], by decide +kernel, by decide +kernel, by decide +kernel, by decide +kernel, by decide +kernel⟩,
   ⟨on (fun d => atTick 2000001 ((capOn d).onFpa fun z => { z with frames := [frameOf 1 0 smallSet [slotOf 0 true]] })), 1, capBuf, frameOf 1 0 smallSet [slotOf 0 true], by decide +kernel, by decide +kernel, by decide +kernel, by decide +kernel, by decide +kernel⟩⟩

theorem test_meets_health_events_complete :
    (∃ (s : State) (ss : Fin 16) (q : _), s.dev.testHead ss = some q ∧ s.dev.health.repairs.find? (fun r => r.ss == ss.val && r.elem == q.elem) = none) ∧
    (∃ (s : State) (ss : Fin 16) (q : _), s.dev.testHead ss = some q ∧ s.dev.health.repairs.find? (fun r => r.ss == ss.val && r.elem == q.elem) = none) ∧
    (∃ (s : State) (ss : Fin 16) (q : _), s.dev.testHead ss = some q ∧ q.since + 10 * secT ≤ s.dev.t) ∧
    (∃ (s : State) (ss : Fin 16) (a : Aside), s.dev.health.aside.find? (fun x => x.ss == ss.val && x.elem == a.elem) = some a ∧ ((ss = 0 ∨ ss = 1 ∨ ss = 3)) ∧ 4 ≤ s.dev.policy ss ∧ a.lastOp + 24 * 3600 ≤ s.dev.optime) ∧
    (∃ (s : State) (ss : Fin 16) (a : Aside), s.dev.health.aside.find? (fun x => x.ss == ss.val && x.elem == a.elem) = some a ∧ ((ss = 0 ∨ ss = 1 ∨ ss = 3)) ∧ 4 ≤ s.dev.policy ss ∧ a.lastOp + 24 * 3600 ≤ s.dev.optime) ∧
    (∃ (s : State), s.dev.health.rcT + s.dev.get F.HEALTH_RC_CTL_PERIOD * 60 * secT ≤ s.dev.t) ∧
    (∃ (s : State), s.dev.health.planDue = none ∧ s.dev.health.planLastOp + 3600 * s.dev.get F.HEALTH_MP_CTL_PERIOD_H ≤ s.dev.optime) ∧
    (∃ (s : State) (o : _), s.dev.health.planDue = some o ∧ o + 48 * 3600 ≤ s.dev.optime) ∧
    (∃ (s : State), s.dev.planReady = true) :=
  ⟨⟨on (tested 0 5), 0, testOf 0 5, by decide +kernel, by decide +kernel⟩,
   ⟨on (tested 6 2), 6, testOf 6 2, by decide +kernel, by decide +kernel⟩,
   ⟨on (fun d => atTick 1000000000 (tested 0 5 d)), 0, testOf 0 5, by decide +kernel, by decide +kernel⟩,
   ⟨on (fun d => atTick 8640000000000 ((d.put F.HEALTH_POLICY_POLICY1 7).onHealth fun z => { z with aside := [⟨1, 3, 0, 1, 0⟩] })), 1, ⟨1, 3, 0, 1, 0⟩, by decide +kernel, by decide +kernel, by decide +kernel, by decide +kernel⟩,
   ⟨on (fun d => atTick 8640000000000 ((d.put F.HEALTH_POLICY_POLICY1 7).onHealth fun z => { z with aside := [⟨1, 3, 0, 2, 0⟩] })), 1, ⟨1, 3, 0, 2, 0⟩, by decide +kernel, by decide +kernel, by decide +kernel, by decide +kernel⟩,
   ⟨on (atTick 6000000000000), by decide +kernel⟩,
   ⟨on (atTick 60000000000000000), by decide +kernel, by decide +kernel⟩,
   ⟨on (fun d => (atTick 17280000000000 d).onHealth fun z => { z with planDue := some 0 }), 0, by decide +kernel, by decide +kernel⟩,
   ⟨on (fun d => (d.putBit F.PROOF_GLADE_STAT_OPEN true).onHealth fun z => { z with planDue := some 5 }), by decide +kernel⟩⟩

theorem test_meets_power_events_complete :
    (∃ (s : State) (i : Fin 112) (x : _), s.dev.pwr.drains.find? (fun x => x.dom == i.val) = some x ∧ x.due ≤ s.dev.t ∧ x.ending = none) ∧
    (∃ (s : State) (i : Fin 112) (x : _), s.dev.pwr.drains.find? (fun x => x.dom == i.val && x.ending.isSome && (decide (x.due ≤ s.dev.t) || (match s.dev.domLane i with | some q => !s.dev.laneBusy q.1 q.2 | none => true))) = some x) ∧
    (∃ (s : State) (i : Fin 112) (x : _), s.dev.pwr.ups.find? (fun x => x.dom == i.val) = some x) ∧
    (∃ (s : State) (i : Fin 112) (x : _), s.dev.pwr.demand.find? (fun q => q.1 == i.val) = some (i.val, some x) ∧ x + msT ≤ s.dev.t ∧ ((i.val = 105 → s.dev.store.flashQ = []))) ∧
    (∃ (s : State), s.dev.bit F.PWR_BAL_CTL_EN = true ∧ s.dev.bit F.PWR_BAL_STAT_SAT = false ∧ 10 ≤ s.dev.pwr.satOut) ∧
    (∃ (s : State) (x : _), s.dev.pwr.satEnd = some x ∧ x + 10 * secT ≤ s.dev.t) :=
  ⟨⟨on (fun d => atTick 100 (d.onPwr fun z => { z with drains := [⟨111, 0, 100, none, none, 0⟩] })), 111, ⟨111, 0, 100, none, none, 0⟩, by decide +kernel, by decide +kernel, by decide +kernel⟩,
   ⟨on (fun d => atTick 50 (d.onPwr fun z => { z with drains := [⟨111, 0, 100, none, some 20, 3⟩] })), 111, ⟨111, 0, 100, none, some 20, 3⟩, by decide +kernel⟩,
   ⟨on (fun d => d.onPwr fun z => { z with ups := [⟨1, 5, none⟩] }), 1, ⟨1, 5, none⟩, by decide +kernel⟩,
   ⟨on (fun d => atTick 100005 (d.onPwr fun z => { z with demand := [(105, some 5)] })), 105, 5, by decide +kernel, by decide +kernel, (by intro _; decide +kernel)⟩,
   ⟨on (fun d => (d.putBit F.PWR_BAL_CTL_EN true).onPwr fun z => { z with satOut := 10 }), by decide +kernel, by decide +kernel, by decide +kernel⟩,
   ⟨on (fun d => atTick 1000000000 (d.onPwr fun z => { z with satEnd := some 0 })), 0, by decide +kernel, by decide +kernel⟩⟩

theorem test_meets_clock_reset_and_start_up_complete :
    (∃ (s : State), s.dev.bit F.CLK_STAT_REF_OK = true) ∧
    (∃ (s : State) (x : _), s.dev.bit F.CLK_STAT_HOLDOVER = true ∧ s.dev.pwr.refLostT = some x ∧ x + 10 * msT ≤ s.dev.t) ∧
    (∃ (s : State), s.dev.bit F.CLK_STAT_REF_OK = false ∧ s.dev.bit F.CLK_STAT_HOLDOVER = true) ∧
    (∃ (s : State), s.dev.bit F.CLK_STAT_REF_OK = false ∧ s.dev.bit F.CLK_STAT_HOLDOVER = false ∧ s.dev.bit F.CLK_STAT_INT_OSC = true) ∧
    (∃ (s : State), s.dev.bit F.CLK_STAT_PLL_LOCK = false) ∧
    (∃ (s : State), s.dev.pwr.vioLow.length = 2) ∧
    (∃ (s : State), s.dev.pwr.vioLow.length = 2) ∧
    (∃ (s : State), s.dev.pwr.por = false) ∧
    (∃ (s : State), s.dev.pwr.por = false ∧ s.dev.pwr.rstLow = true) ∧
    (∃ (s : State), s.dev.pwr.por = false ∧ s.dev.pwr.rstLow = false ∧ s.dev.bit F.SYS_START_HALTED = false ∧ s.dev.get F.SYS_START_STEP = 1) ∧
    (∃ (s : State), s.dev.pwr.por = false ∧ s.dev.pwr.rstLow = false ∧ s.dev.bit F.SYS_START_HALTED = false ∧ s.dev.get F.SYS_START_STEP = 2) ∧
    (∃ (s : State), s.dev.pwr.por = false ∧ s.dev.pwr.rstLow = false ∧ s.dev.bit F.SYS_START_HALTED = false ∧ s.dev.get F.SYS_START_STEP = 3 ∧ bankOk s.mem s.dev 0 = false ∧ bankOk s.mem s.dev 1 = false) ∧
    (∃ (s : State), s.dev.pwr.por = false ∧ s.dev.pwr.rstLow = false ∧ s.dev.bit F.SYS_START_HALTED = false ∧ s.dev.get F.SYS_START_STEP = 3 ∧ bankOk s.mem s.dev 0 = true ∧ bankOk s.mem s.dev 1 = true) ∧
    (∃ (s : State), s.dev.pwr.por = false ∧ s.dev.pwr.rstLow = false ∧ s.dev.bit F.SYS_START_HALTED = false ∧ s.dev.get F.SYS_START_STEP = 4) ∧
    (∃ (s : State), s.dev.pwr.por = false ∧ s.dev.pwr.rstLow = false ∧ s.dev.bit F.SYS_START_HALTED = false ∧ s.dev.get F.SYS_START_STEP = 5) ∧
    (∃ (s : State), s.dev.pwr.por = false ∧ s.dev.pwr.rstLow = false ∧ s.dev.bit F.SYS_START_HALTED = false ∧ s.dev.get F.SYS_START_STEP = 6) ∧
    (∃ (s : State), s.dev.pwr.por = false ∧ s.dev.pwr.rstLow = false ∧ s.dev.bit F.SYS_START_HALTED = false ∧ s.dev.get F.SYS_START_STEP = 7) ∧
    (∃ (s : State), s.dev.pwr.por = false ∧ s.dev.pwr.rstLow = false ∧ s.dev.bit F.SYS_START_HALTED = false ∧ s.dev.get F.SYS_START_STEP = 8 ∧ s.dev.pcieReady = true) ∧
    (∃ (s : State), s.dev.pwr.por = false ∧ s.dev.pwr.rstLow = false ∧ s.dev.bit F.SYS_START_HALTED = false ∧ s.dev.get F.SYS_START_STEP = 9) :=
  ⟨⟨on (fun d => d.putBit F.CLK_STAT_REF_OK true), by decide +kernel⟩,
   ⟨on (fun d => atTick 1000000 ((d.putBit F.CLK_STAT_HOLDOVER true).onPwr fun z => { z with refLostT := some 0 })), 0, by decide +kernel, by decide +kernel, by decide +kernel⟩,
   ⟨on (fun d => (d.putBit F.CLK_STAT_REF_OK false).putBit F.CLK_STAT_HOLDOVER true), by decide +kernel, by decide +kernel⟩,
   ⟨on (fun d => (d.putBit F.CLK_STAT_REF_OK false).putBit F.CLK_STAT_INT_OSC true), by decide +kernel, by decide +kernel, by decide +kernel⟩,
   ⟨on id, by decide +kernel⟩,
   ⟨on id, by decide +kernel⟩,
   ⟨on id, by decide +kernel⟩,
   ⟨on (fun d => d.onPwr fun z => { z with por := false }), by decide +kernel⟩,
   ⟨on (fun d => d.onPwr fun z => { z with por := false, rstLow := true }), by decide +kernel, by decide +kernel⟩,
   ⟨on (atStep 1), by decide +kernel, by decide +kernel, by decide +kernel, by decide +kernel⟩,
   ⟨on (atStep 2), by decide +kernel, by decide +kernel, by decide +kernel, by decide +kernel⟩,
   ⟨on (fun d => (atStep 3 d).onSec fun z => { z with fwShip := [false, false] }), by decide +kernel, by decide +kernel, by decide +kernel, by decide +kernel, by decide +kernel, by decide +kernel⟩,
   ⟨on (fun d => (atStep 3 d).onSec fun z => { z with fwShip := [true, true] }), by decide +kernel, by decide +kernel, by decide +kernel, by decide +kernel, by decide +kernel, by decide +kernel⟩,
   ⟨on (atStep 4), by decide +kernel, by decide +kernel, by decide +kernel, by decide +kernel⟩,
   ⟨on (atStep 5), by decide +kernel, by decide +kernel, by decide +kernel, by decide +kernel⟩,
   ⟨on (atStep 6), by decide +kernel, by decide +kernel, by decide +kernel, by decide +kernel⟩,
   ⟨on (atStep 7), by decide +kernel, by decide +kernel, by decide +kernel, by decide +kernel⟩,
   ⟨on (fun d => atTick 10000000 ((atStep 8 d).onPwr fun z => { z with perstT := some 0 })), by decide +kernel, by decide +kernel, by decide +kernel, by decide +kernel, by decide +kernel⟩,
   ⟨on (atStep 9), by decide +kernel, by decide +kernel, by decide +kernel, by decide +kernel⟩⟩

theorem test_meets_converter_complete :
    (∃ (s : State), checkSeq s.dev s.dev.stagedSeq = 0) ∧
    (∃ (s : State), checkSeq s.dev s.dev.stagedSeq ≠ 0) ∧
    (∃ (sel : Fin 4), sel.val ≠ 3) ∧
    (∃ (s : State) (x : _), s.dev.aux.refT = some x ∧ x + refSettle (s.dev.get F.AUX_REF_SEL) ≤ s.dev.t) ∧
    (∃ (s : State), s.dev.bit F.AUX_CTL_EN = true ∧ s.dev.aux.next ≤ s.dev.t) ∧
    (∃ (s : State) (n : Fin 16) (sum : _) (r : _) (x : _), r = nominalMean (cfgCh x.cfg) sum (cfgA x.cfg) ∧ s.dev.aux.runs.find? (fun x => x.n == n.val && decide (x.hold + 20 ≤ s.dev.t)) = some x) ∧
    (∃ (s : State) (sum : _) (m : _) (x : _), s.dev.aux.meas = some x ∧ m = nominalMean x.ch sum 1024 ∧ 16 ≤ x.rounds ∧ x.slotEnd + 20 ≤ s.dev.t) ∧
    (∃ (s : State) (r : _) (rs : _), s.dev.aux.recs = r :: rs ∧ r.t + s.dev.get F.AUX_RING_CTL_HOLD * 10 * usT ≤ s.dev.t) :=
  ⟨⟨on (fun d => d.onAux fun z => { z with refT := some 0 }), by decide +kernel⟩,
   ⟨on (fun d => d.put F.AUX_SEQ_CTL_PERIOD 99), by decide +kernel⟩,
   ⟨1, by decide +kernel⟩,
   ⟨on (fun d => atTick 50000 ((d.put F.AUX_REF_SEL 1).onAux fun z => { z with refT := some 0 })), 0, by decide +kernel, by decide +kernel⟩,
   ⟨on (fun d => (d.putBit F.AUX_CTL_EN true).onAux fun z => { z with pend := some ⟨List.replicate 16 (0, 0), 1000, 0⟩ }), by decide +kernel, by decide +kernel⟩,
   ⟨on (fun d => atTick 120 (d.onAux fun z => { z with runs := [⟨15, 0, 0x00010000, true, 100⟩] })), 15, 16383, nominalMean (cfgCh 0) 16383 (cfgA 0), ⟨15, 0, 0x00010000, true, 100⟩, by decide +kernel, by decide +kernel⟩,
   ⟨on (fun d => atTick 120 (d.onAux fun z => { z with meas := some ⟨7, none, 11, 0, 0, 16, 100⟩ })), 1024, nominalMean 11 1024 1024, ⟨7, none, 11, 0, 0, 16, 100⟩, by decide +kernel, by decide +kernel, by decide +kernel, by decide +kernel⟩,
   ⟨on (fun d => atTick 1000000000 <| d.onAux fun z => { z with recs := [⟨3, 0, -5, 0⟩] }), ⟨3, 0, -5, 0⟩, [], by decide +kernel, by decide +kernel⟩⟩

theorem test_meets_pins_and_timers_complete :
    (∃ (s : State), s.dev.bankIn = true ∧ s.dev.bit F.IO_TIME_CTL_EN = true ∧ ((∀ x, s.dev.io.timeLast = some x → x + 90000000 ≤ s.dev.pinT))) ∧
    (∃ (s : State) (x : _), s.dev.bankIn = true ∧ s.dev.bit F.IO_TIME_CTL_EN = true ∧ s.dev.io.timeLast = some x ∧ s.dev.pinT < x + 90000000) ∧
    (∃ (s : State) (x : _), s.dev.get F.LINK_TS_CTL_SRC = 3 ∧ s.dev.follows = false ∧ s.dev.io.timeLast = some x ∧ x + 2 * secT ≤ s.dev.t) ∧
    (∃ (s : State) (n : Fin 8) (v : Word), s.dev.get (F.TMR_CTL_OWNER.at n) = 0 ∧ s.dev.bit (F.TMR_CTL_EN.at n) = false ∧ v.getLsbD 0 = true) ∧
    (∃ (s : State) (n : Fin 8), s.dev.get (F.TMR_CTL_OWNER.at n) ≠ 0) ∧
    (∃ (s : State) (n : Fin 8), s.dev.bit (F.TMR_CTL_EN.at n) = true ∧ s.dev.get (F.TMR_CMP_VAL.at n) ≤ s.dev.get (F.TMR_CNT_VAL.at n) ∧ s.dev.io.tmrOut.length = 8 ∧ s.dev.get (F.TMR_CTL_MODE.at n) = 0) ∧
    (∃ (s : State) (n : Fin 8), s.dev.bit (F.TMR_CTL_EN.at n) = true ∧ s.dev.get (F.TMR_CMP_VAL.at n) ≤ s.dev.get (F.TMR_CNT_VAL.at n) ∧ s.dev.io.tmrOut.length = 8 ∧ s.dev.get (F.TMR_CTL_MODE.at n) = 1) ∧
    (∃ (s : State) (n : Fin 8), s.dev.bit (F.TMR_CTL_EN.at n) = true ∧ s.dev.get (F.TMR_CTL_MODE.at n) = 2 ∧ ((s.dev.get (F.TMR_CTL_CSEL.at n) ≠ 2 ∨ s.dev.get (F.IO_GP_CFG_FUNC.at n) = 1)) ∧ s.dev.io.caps.length = 8) ∧
    (∃ (s : State), dueBy s.dev.io.strobe s.dev.t = true) ∧
    (∃ (s : State) (n : Fin 8) (v : Word), v.toNat % 16 ≤ 9 ∧ v.toNat % 16 ≠ 5 ∧ s.dev.get (F.IO_GP_CFG_FUNC.at n) ≠ 5 ∧ s.dev.get (F.TMR_CTL_OWNER.at (v.toNat / 32 % 8)) = 0) ∧
    (∃ (v : Word), v.toNat % 16 = 5) :=
  ⟨⟨on (fun d => atTick 1000 (d.putBit F.IO_TIME_CTL_EN true)), by decide +kernel, by decide +kernel, (of_isNone (by decide +kernel))⟩,
   ⟨on (fun d => atTick 90000000 ((d.putBit F.IO_TIME_CTL_EN true).onIo fun z => { z with timeLast := some 1 })), 1, by decide +kernel, by decide +kernel, by decide +kernel, by decide +kernel⟩,
   ⟨on (fun d => atTick 200000000 ((d.put F.LINK_TS_CTL_SRC 3).onIo fun z => { z with timeLast := some 0 })), 0, by decide +kernel, by decide +kernel, by decide +kernel, by decide +kernel⟩,
   ⟨on id, 7, 0x1#32, by decide +kernel, by decide +kernel, by decide +kernel⟩,
   ⟨on (fun d => d.put (F.TMR_CTL_OWNER.at 0) 1), 0, by decide +kernel⟩,
   ⟨on (fun d => (d.putBit (F.TMR_CTL_EN.at 7) true)), 7, by decide +kernel, by decide +kernel, by decide +kernel, by decide +kernel⟩,
   ⟨on (fun d => (d.putBit (F.TMR_CTL_EN.at 7) true).put (F.TMR_CTL_MODE.at 7) 1), 7, by decide +kernel, by decide +kernel, by decide +kernel, by decide +kernel⟩,
   ⟨on (fun d => ((d.putBit (F.TMR_CTL_EN.at 7) true).put (F.TMR_CTL_MODE.at 7) 2).put (F.TMR_CNT_VAL.at 7) 55), 7, by decide +kernel, by decide +kernel, by decide +kernel, by decide +kernel⟩,
   ⟨on (fun d => d.onIo fun z => { z with strobe := some 0 }), by decide +kernel⟩,
   ⟨on id, 7, 0xF9#32, by decide +kernel, by decide +kernel, by decide +kernel, by decide +kernel⟩,
   ⟨0x5#32, by decide +kernel⟩⟩

theorem test_meets_register_access_complete :
    (∃ (s : State) (f : _), f ∈ [F.FPA_ACQ_SEL_SET, F.PIPE_TRK_DT_LIM, F.PROOF_CC_TOL_TOL, F.WEB_SCALE_VAL, F.STAT_FLK_CTL_RGN_EN, F.STAND_HOLD_HOLD_MS, F.HEALTH_MP_WARN_H, F.AUX_WIN_EN_MAP, F.IO_GP_OUT_LEVEL] ∧ s.dev.barOpen = true ∧ s.dev.ready R.FPA_ACQ_SEL = true ∧ s.dev.paths.length = 2) ∧
    (∃ (s : State) (f : _), f ∈ [F.FPA_ACQ_SEL_SET, F.PIPE_TRK_DT_LIM, F.PROOF_CC_TOL_TOL, F.WEB_SCALE_VAL, F.STAT_FLK_CTL_RGN_EN, F.STAND_HOLD_HOLD_MS, F.HEALTH_MP_WARN_H, F.AUX_WIN_EN_MAP, F.IO_GP_OUT_LEVEL] ∧ s.dev.barOpen = true ∧ s.dev.ready R.FPA_ACQ_SEL = true ∧ s.dev.paths.length = 2) ∧
    (∃ (s : State) (f : _), f ∈ [F.FPA_ACQ_TIME_T_C, F.PROOF_SCHED_START_T, F.WEB_PRESET_W] ∧ s.dev.barOpen = true ∧ s.dev.ready R.FPA_ACQ_SEL = true ∧ s.dev.paths.length = 2) ∧
    (∃ (s : State) (f : _), f ∈ [F.FPA_ACQ_TIME_T_C, F.PROOF_SCHED_START_T, F.WEB_PRESET_W] ∧ s.dev.barOpen = true ∧ s.dev.ready R.FPA_ACQ_SEL = true ∧ s.dev.paths.length = 2) ∧
    (∃ (s : State) (f : _), f ∈ [F.FPA_ACQ_TIME_T_C, F.PROOF_SCHED_START_T, F.WEB_PRESET_W] ∧ s.dev.barOpen = true ∧ s.dev.ready R.FPA_ACQ_SEL = true ∧ s.dev.paths.length = 2) ∧
    (∃ (s : State) (f : _), f ∈ [F.FPA_ACQ_TIME_T_C, F.PROOF_SCHED_START_T, F.WEB_PRESET_W] ∧ s.dev.barOpen = true ∧ s.dev.ready R.FPA_ACQ_SEL = true ∧ s.dev.paths.length = 2) ∧
    (∃ (s : State) (f : _) (x : _), f ∈ [F.FPA_ACQ_TIME_T_C, F.PROOF_SCHED_START_T, F.WEB_PRESET_W] ∧ s.dev.barOpen = true ∧ s.dev.ready R.FPA_ACQ_SEL = true ∧ s.dev.paths.length = 2 ∧ assoc (s.dev.path 0).shadow f.reg = some x) ∧
    (∃ (s : State) (f : _), f ∈ [F.FPA_ACQ_TIME_T_C, F.PROOF_SCHED_START_T, F.WEB_PRESET_W] ∧ s.dev.barOpen = true ∧ s.dev.ready R.FPA_ACQ_SEL = true ∧ s.dev.paths.length = 2) :=
  ⟨⟨on (atStep 9), F.WEB_SCALE_VAL, by decide +kernel, by decide +kernel, by decide +kernel, by decide +kernel⟩,
   ⟨on (atStep 9), F.IO_GP_OUT_LEVEL, by decide +kernel, by decide +kernel, by decide +kernel, by decide +kernel⟩,
   ⟨on (atStep 9), F.WEB_PRESET_W, by decide +kernel, by decide +kernel, by decide +kernel, by decide +kernel⟩,
   ⟨on (atStep 9), F.WEB_PRESET_W, by decide +kernel, by decide +kernel, by decide +kernel, by decide +kernel⟩,
   ⟨on (atStep 9), F.PROOF_SCHED_START_T, by decide +kernel, by decide +kernel, by decide +kernel, by decide +kernel⟩,
   ⟨on (atStep 9), F.FPA_ACQ_TIME_T_C, by decide +kernel, by decide +kernel, by decide +kernel, by decide +kernel⟩,
   ⟨on (fun d => { atStep 9 d with paths := d.paths.map fun p => { p with shadow := [(R.WEB_PRESET, 5)] } }), F.WEB_PRESET_W, 5#32, by decide +kernel, by decide +kernel, by decide +kernel, by decide +kernel, by decide +kernel⟩,
   ⟨on (atStep 9), F.WEB_PRESET_W, by decide +kernel, by decide +kernel, by decide +kernel, by decide +kernel⟩⟩

theorem test_meets_management_port_complete :
    (∃ (s : State), s.dev.bankB = true) ∧
    (∃ (s : State) (x : _) (f : _), f ∈ [F.FPA_ACQ_SEL_SET, F.WEB_SCALE_VAL, F.HEALTH_MP_WARN_H, F.IO_GP_OUT_LEVEL] ∧ s.dev.bankB = true ∧ s.dev.io.spi = some x ∧ x.bad = false ∧ x.write = true ∧ x.bits = 32 ∧ x.addr + 4 * x.k = f.reg ∧ s.dev.ready f.reg = true) ∧
    (∃ (s : State) (x : _) (f : _), f ∈ [F.FPA_ACQ_SEL_SET, F.WEB_SCALE_VAL, F.HEALTH_MP_WARN_H, F.IO_GP_OUT_LEVEL] ∧ s.dev.bankB = true ∧ s.dev.io.spi = some x ∧ x.bad = false ∧ x.write = false ∧ x.addr + 4 * x.k = f.reg ∧ s.dev.ready f.reg = true) ∧
    (∃ (s : State), s.dev.bankB = true) ∧
    (∃ (s : State) (code : _) (n : _), s.dev.bankB = true ∧ tapReg (s.dev.bit F.SEC_STAT_PROVISIONED) code = some n) :=
  ⟨⟨on (atStep 9), by decide +kernel⟩,
   ⟨on (fun d => (atStep 9 d).onIo fun z => { z with spi := some ⟨true, 32, false, F.WEB_SCALE_VAL.reg - 4, false, 1, none⟩ }), ⟨true, 32, false, F.WEB_SCALE_VAL.reg - 4, false, 1, none⟩, F.WEB_SCALE_VAL, by decide +kernel, by decide +kernel, by decide +kernel, by decide +kernel, by decide +kernel, by decide +kernel, by decide +kernel, by decide +kernel⟩,
   ⟨on (fun d => (atStep 9 d).onIo fun z => { z with spi := some ⟨false, 8, true, F.WEB_SCALE_VAL.reg, false, 0, none⟩ }), ⟨false, 8, true, F.WEB_SCALE_VAL.reg, false, 0, none⟩, F.WEB_SCALE_VAL, by decide +kernel, by decide +kernel, by decide +kernel, by decide +kernel, by decide +kernel, by decide +kernel, by decide +kernel⟩,
   ⟨on (atStep 9), by decide +kernel⟩,
   ⟨on (fun d => (atStep 9 d).putBit F.SEC_STAT_PROVISIONED true), .factory 9, "BYPASS", by decide +kernel, by decide +kernel⟩⟩

theorem test_meets_step_runs_the_front_command :
    (∃ (i : Instr) (is : List Instr) (s : State), s.pending = i :: is) :=
  ⟨.brownout, [.sysRstWarm], { State.reset with pending := [.brownout, .sysRstWarm] }, (rfl)⟩

theorem test_meets_an_empty_queue_is_one_tick :
    (∃ (s : State), s.pending = []) :=
  ⟨State.reset, (rfl)⟩

theorem test_meets_every_step_keeps_memories_canonical :
    (∃ (s : State) (t : State), s.Canonical ∧ step s = .next t) :=
  ⟨State.reset, _, (⟨by decide +kernel, by decide +kernel, by decide +kernel⟩), (rfl)⟩

theorem test_meets_exec_leaves_the_queue :
    (∃ (i : Instr) (s : State) (t : State), exec i s = .next t) :=
  ⟨.brownout, State.reset, _, (rfl)⟩

theorem test_meets_unassigned_offsets_read_zero :
    (∃ (s : State) (off : Nat), off < 0x3C000 ∧ off % 4 = 0 ∧ findReg off = none ∧ s.dev.barOpen = true) ∧
    (∃ (s : State) (off : Nat), off < 0x3C000 ∧ off % 4 = 0 ∧ findReg off = none ∧ s.dev.barOpen = true) ∧
    (∃ (s : State) (off : Nat), off < 0x3C000 ∧ off % 4 = 0 ∧ findReg off = none ∧ s.dev.ready off = true) ∧
    (∃ (s : State) (off : Nat), off < 0x3C000 ∧ off % 4 = 0 ∧ findReg off = none ∧ s.dev.ready off = true) :=
  ⟨⟨on (atStep 9), 0x3BFFC, by decide +kernel, by decide +kernel, by decide +kernel, by decide +kernel⟩,
   ⟨on (atStep 9), 0x3BFFC, by decide +kernel, by decide +kernel, by decide +kernel, by decide +kernel⟩,
   ⟨on (atStep 9), 0x3BFFC, by decide +kernel, by decide +kernel, by decide +kernel, by decide +kernel⟩,
   ⟨on (atStep 9), 0x3BFFC, by decide +kernel, by decide +kernel, by decide +kernel, by decide +kernel⟩⟩

theorem test_meets_timebase_kept :
    (∃ (i : Instr) (s : State) (t : State), exec i s = .next t ∧ ((∃ a b, i = .powerOnResetRelease a b) ∨ i = .brownout)) ∧
    (∃ (i : Instr) (s : State) (t : State), exec i s = .next t ∧ ((∃ a b c, i = .resetN a b c) ∨ i = .sysRstWarm)) ∧
    (∃ (i : Instr) (s : State) (t : State) (x : _), exec i s = .next t ∧ touched i = some x ∧ .now ∉ x.parts) ∧
    (∃ (i : Instr) (s : State) (t : State), exec i s = .next t ∧ ((∃ a b c, i = .timeReceive a b c) ∨ (∃ a b c, i = .ptmDialog a b c) ∨ i = .timeInEdge)) :=
  ⟨⟨.brownout, State.reset, _, (rfl), (Or.inr rfl)⟩,
   ⟨.sysRstWarm, State.reset, _, (rfl), (Or.inr rfl)⟩,
   ⟨.flush, State.reset, _, _, (rfl), (rfl), (by decide +kernel)⟩,
   ⟨.timeInEdge, State.reset, _, (rfl), (Or.inr (Or.inr rfl))⟩⟩

theorem test_meets_memories_change_only_by_their_writers :
    (∃ (i : Instr) (s : State) (t : State), exec i s = .next t ∧ writesFlash i = false ∧ NamesNoOther i s) ∧
    (∃ (i : Instr) (s : State) (t : State), exec i s = .next t ∧ writesKeep i = false) ∧
    (∃ (i : Instr) (s : State) (t : State), exec i s = .next t ∧ writesQdr i = false ∧ NamesNoOther i s) :=
  ⟨⟨.plateCommit 7, on plated, _, (rfl), by decide +kernel, (others_none (by decide +kernel))⟩,
   ⟨.flush, State.reset, _, (rfl), by decide +kernel⟩,
   ⟨.flush, State.reset, _, (rfl), by decide +kernel, (others_none (by decide +kernel))⟩⟩

theorem test_meets_memory_writers_keep_to_their_bytes :
    (∃ (s : State) (t : State) (k : Nat) (a : Nat) (r : _), exec (.plateWrite k) s = .next t ∧ NamesNoOther (.plateWrite k) s ∧ r = s.dev.get F.PIPE_PL_STAT_SHADOW_REG ∧ ((a < hdrAddr r ∨ hdrAddr r + 0x10000 ≤ a)) ∧ ((a < entAddr r ∨ entAddr r + 0x02800000 ≤ a))) ∧
    (∃ (s : State) (t : State) (k : Nat) (a : Nat) (r : _), exec (.plateCommit k) s = .next t ∧ NamesNoOther (.plateCommit k) s ∧ r = s.dev.get F.PIPE_PL_STAT_SHADOW_REG ∧ ((a < hdrAddr r + 3 ∨ hdrAddr r + 8 ≤ a))) ∧
    (∃ (s : State) (t : State) (k : Nat) (a : Nat), exec (.factoryPlateRestore k) s = .next t ∧ NamesNoOther (.factoryPlateRestore k) s ∧ ((∀ r, r = s.dev.get F.PIPE_PL_STAT_SHADOW_REG ∨ r = s.dev.get F.PIPE_PL_STAT_STANDBY_REG → (a < hdrAddr r ∨ hdrAddr r + 0x10000 ≤ a) ∧ (a < entAddr r ∨ entAddr r + 0x02800000 ≤ a)))) ∧
    (∃ (s : State) (t : State) (k : Nat) (a : Nat) (i : _), (i = .logRead k ∨ (∃ errs, i = .keepRead k errs) ∨ i = .flashRead k ∨ i = .standQuery k) ∧ exec i s = .next t ∧ NamesNoOther i s ∧ a < 0x0E700000) ∧
    (∃ (s : State) (t : State) (a : Nat) (w : _) (code : _) (newer : _), exec (.scrubForcedCycle ⟨w, code, newer⟩) s = .next t ∧ ((a < 32 * w ∨ 32 * w + 32 ≤ a))) ∧
    (∃ (s : State) (t : State) (a : Nat) (w : _), exec (.tableWordReload w) s = .next t ∧ ((a < 32 * w ∨ 32 * w + 32 ≤ a))) ∧
    (∃ (s : State) (t : State) (a : Nat) (ok : _) (range : _) (region : _) (inst : _) (n : _), exec (.platePersistDone ok) s = .next t ∧ s.dev.store.flashQ.find? FlashJob.isPlate = some ⟨.plate range region inst, n⟩ ∧ ((a < plateFlash inst ∨ plateFlash inst + plateBytes + 0x10000 ≤ a))) ∧
    (∃ (s : State) (t : State) (a : Nat) (ok : _) (j : _), exec (.flashWriteDone ok) s = .next t ∧ s.dev.store.flashQ.find? (fun j => !j.isPlate) = some j ∧ ((a < (j.what.area s.dev).1 ∨ (j.what.area s.dev).1 + (j.what.area s.dev).2 ≤ a))) :=
  ⟨⟨holding (cmdOf 0x8001 [] [1, 2]) plated, _, 7, 5, 1, (rfl), (others_none (by decide +kernel)), by decide +kernel, by decide +kernel, by decide +kernel⟩,
   ⟨holding (cmdOf 0x8002 [] []) plated, _, 7, 5, 1, (rfl), (others_none (by decide +kernel)), by decide +kernel, by decide +kernel⟩,
   ⟨holding (cmdOf 0x8003 [] []) plated, _, 7, 5, (rfl), (others_none (by decide +kernel)), (by rintro r (rfl | rfl) <;> decide +kernel)⟩,
   ⟨holding (cmdOf 0x0011 [] []) id, _, 7, 5, .logRead 7, (Or.inl rfl), (rfl), (others_none (by decide +kernel)), by decide +kernel⟩,
   ⟨on (fun d => d.putBit F.MEM_STAT_SCRUBBING true), _, 32, 0, List.replicate 36 0, false, (rfl), by decide +kernel⟩,
   ⟨on (fun d => d.onStore fun z => { z with qdrBad := [5] }), _, 192, 5, (rfl), by decide +kernel⟩,
   ⟨on (fun d => (plated d).onStore fun z => { z with flashQ := [⟨.plate 0 0 2, 0⟩] }), _, 0x1FFFFFFF, false, 0, 0, 2, 0, (rfl), by decide +kernel, by decide +kernel⟩,
   ⟨on (fun d => d.onStore fun z => { z with flashQ := [⟨.erase 7 0 0x20000, 0⟩] }), _, 0x20000, false, ⟨.erase 7 0 0x20000, 0⟩, (rfl), by decide +kernel, by decide +kernel⟩⟩

theorem test_meets_frame_of_readout_and_plates :
    (∃ (i : Instr) (x : Touch) (s : State) (t : State), chapterOf i < 4 ∧ touched i = some x ∧ NamesNoOther i s ∧ exec i s = .next t) :=
  ⟨.fpaCntClr, _, State.reset, _, (by decide +kernel), (rfl), (others_none (by decide +kernel)), (rfl)⟩

theorem test_meets_frame_of_proofs_and_glades :
    (∃ (i : Instr) (x : Touch) (s : State) (t : State), (chapterOf i = 4 ∨ chapterOf i = 5) ∧ touched i = some x ∧ NamesNoOther i s ∧ exec i s = .next t) :=
  ⟨.proofRequest 7, _, holding (cmdOf 0x0007 [] []) id, _, (by decide +kernel), (rfl), (others_none (by decide +kernel)), (rfl)⟩

theorem test_meets_frame_of_web_and_strip :
    (∃ (i : Instr) (x : Touch) (s : State) (t : State), chapterOf i = 6 ∧ touched i = some x ∧ NamesNoOther i s ∧ exec i s = .next t) :=
  ⟨.flush, _, State.reset, _, (by decide +kernel), (rfl), (others_none (by decide +kernel)), (rfl)⟩

theorem test_meets_frame_of_link_and_stand :
    (∃ (i : Instr) (x : Touch) (s : State) (t : State), (chapterOf i = 7 ∨ chapterOf i = 8) ∧ touched i = some x ∧ NamesNoOther i s ∧ exec i s = .next t) :=
  ⟨.encSampleLoss, _, State.reset, _, (by decide +kernel), (rfl), (others_none (by decide +kernel)), (rfl)⟩

theorem test_meets_frame_of_host_commands_and_storage :
    (∃ (i : Instr) (x : Touch) (s : State) (t : State), (9 ≤ chapterOf i ∧ chapterOf i ≤ 11) ∧ touched i = some x ∧ NamesNoOther i s ∧ exec i s = .next t) :=
  ⟨.operatingTimeIncrement, _, State.reset, _, (by decide +kernel), (rfl), (others_none (by decide +kernel)), (rfl)⟩

theorem test_meets_frame_of_health_power_and_io :
    (∃ (i : Instr) (x : Touch) (s : State) (t : State), 12 ≤ chapterOf i ∧ touched i = some x ∧ NamesNoOther i s ∧ exec i s = .next t) :=
  ⟨.refclkLost, _, State.reset, _, (by decide +kernel), (rfl), (others_none (by decide +kernel)), (rfl)⟩

theorem test_meets_frame_of_group_commands :
    (∃ (i : Instr) (s : State) (t : State), (hostOp i).isSome = true ∧ exec i s = .next t) :=
  ⟨.acqStage 7, holding (cmdOf 0x0003 [(8, 4, 2)] []) (inStandOf [1, 2] 0 1), _, by decide +kernel, (rfl)⟩

theorem test_meets_commit_takes_effect_at_its_boundary :
    (∃ (s : State) (b : Nat) (c : Commit), s.dev.boundaryDue = some b ∧ s.dev.fpa.readoutStop = false ∧ s.dev.fpa.clockStop = false ∧ s.dev.fpa.pend = some c ∧ c.teff ≤ b) ∧
    (∃ (s : State) (b : Nat) (c : Commit), s.dev.boundaryDue = some b ∧ s.dev.fpa.readoutStop = false ∧ s.dev.fpa.clockStop = false ∧ s.dev.fpa.pend = some c ∧ b < c.teff) :=
  ⟨⟨on (fun d => atTick 5 ((d.putBit F.FPA_CTL_RUN true).onFpa fun z => { z with nextB := some 5, pend := some ⟨none, smallSet, 3, 5⟩ })), 5, ⟨none, smallSet, 3, 5⟩, by decide +kernel, by decide +kernel, by decide +kernel, by decide +kernel, by decide +kernel⟩,
   ⟨on (fun d => atTick 5 ((d.putBit F.FPA_CTL_RUN true).onFpa fun z => { z with nextB := some 5, pend := some ⟨none, smallSet, 3, 6⟩ })), 5, ⟨none, smallSet, 3, 6⟩, by decide +kernel, by decide +kernel, by decide +kernel, by decide +kernel, by decide +kernel⟩⟩

theorem test_meets_stops_have_their_names :
    (∃ (s : State), s.dev.bit F.SEC_STAT_PROVISIONED = false) ∧
    (∃ (s : State), s.dev.bit F.SEC_STAT_PROVISIONED = true) ∧
    (∃ (off : Nat), 0xFFFFF < off) ∧
    (∃ (off : Nat), 0xFFFFF < off) ∧
    (∃ (off : Nat), 0xFFFFF < off) ∧
    (∃ (off : Nat), 0xFFFFF < off) ∧
    (∃ (off : Nat), 0xFFFFF < off) ∧
    (∃ (off : Nat), 0xFFFF < off) ∧
    (∃ (off : Nat), 0xFFFF < off) ∧
    (∃ (off : Nat), 0x80000 ≤ off) ∧
    (∃ (off : Nat), 0x80000 ≤ off) :=
  ⟨⟨on id, by decide +kernel⟩,
   ⟨on (fun d => d.putBit F.SEC_STAT_PROVISIONED true), by decide +kernel⟩,
   ⟨0x100000, by decide +kernel⟩,
   ⟨0x100000, by decide +kernel⟩,
   ⟨0x100000, by decide +kernel⟩,
   ⟨0x100000, by decide +kernel⟩,
   ⟨0x100000, by decide +kernel⟩,
   ⟨0x10000, by decide +kernel⟩,
   ⟨0x10000, by decide +kernel⟩,
   ⟨0x80000, by decide +kernel⟩,
   ⟨0x80000, by decide +kernel⟩⟩

theorem foldl_lt {α : Type} (f : Nat → α → Nat) (n : Nat) (h : ∀ a b, a < n → f a b < n) : ∀ (l : List α) (a : Nat), a < n → l.foldl f a < n
  | [], _, ha => ha
  | b :: l, a, ha => foldl_lt f n h l (f a b) (h a b ha)

/-- A CRC-32C is 32 bits long. -/
theorem crc32c_lt (bs : List Byte) : crc32c bs < 2 ^ 32 := by
  have bit (a : Nat) (h : a < 2 ^ 32) : crcBit a < 2 ^ 32 := by
    unfold crcBit
    split
    · exact Nat.xor_lt_two_pow (by omega) (by decide)
    · omega
  have byte (a : Nat) (b : Byte) (h : a < 2 ^ 32) : crcByte a b < 2 ^ 32 := by
    unfold crcByte
    have h0 : a ^^^ b.toNat < 2 ^ 32 := Nat.xor_lt_two_pow h (by have := b.isLt; omega)
    exact foldl_lt _ _ (fun x _ hx => bit x hx) _ _ h0
  exact Nat.xor_lt_two_pow (foldl_lt _ _ byte _ _ (by decide)) (by decide)

/-- An image given byte by byte. -/
def image (n : Nat) (f : Nat → Byte) : List Byte := (List.range n).map f

theorem image_getD {n : Nat} {f : Nat → Byte} {i : Nat} (h : i < n) (r : List Byte) : (image n f ++ r).getD i 0 = f i := by
  have h' : i < (image n f).length := by simpa [image] using h
  rw [List.getD_eq_getElem?_getD, List.getElem?_append_left h', List.getElem?_eq_getElem h']
  simp [image]

/-- Words of a rising table that begins at an offset: 1, 2, 3, ... -/
def rising (o i : Nat) : Byte := if i < o then 0 else BitVec.ofNat 8 (((i - o) / 4 + 1) / 256 ^ ((i - o) % 4))

theorem rising_word {o n j : Nat} (h : o + 4 * j + 3 < n) (hj : j < 16777215) (r : List Byte) :
    leAt (image n (rising o) ++ r) (o + 4 * j) 4 = j + 1 := by
  have e (k : Nat) (hk : k < 4) : (image n (rising o) ++ r).getD (o + 4 * j + k) 0 = BitVec.ofNat 8 ((j + 1) / 256 ^ k) := by
    rw [image_getD (by omega)]
    have h1 : ¬ o + 4 * j + k < o := by omega
    have h2 : (o + 4 * j + k - o) / 4 = j := by omega
    have h3 : (o + 4 * j + k - o) % 4 = k := by omega
    simp only [rising, if_neg h1, h2, h3]
  have e0 := e 0 (by omega)
  have e1 := e 1 (by omega)
  have e2 := e 2 (by omega)
  have e3 := e 3 (by omega)
  simp only [leAt, slice, List.range_succ, List.range_zero, List.map_cons, List.map_nil, List.nil_append, List.cons_append, e0, e1,
    e2, e3, leNat, BitVec.toNat_ofNat]
  omega

theorem leAt_check (b : List Byte) (v : Nat) (h : v < 2 ^ 32) : leAt (b ++ leBytes 4 v) b.length 4 = v := by
  have e (k : Nat) : (b ++ leBytes 4 v).getD (b.length + k) 0 = (leBytes 4 v).getD k 0 := by
    rw [List.getD_eq_getElem?_getD, List.getElem?_append_right (by omega), Nat.add_sub_cancel_left, ← List.getD_eq_getElem?_getD]
  simp only [leAt, slice, e]
  simp [List.range_succ, leBytes, leNat]
  omega

theorem rdN_wrN (z : Byte) (a : Nat) (bs : List Byte) (n : Nat) (h : n = bs.length) : Mem.rdN z (Mem.wrN z [] a bs) a n = bs := by
  subst h
  apply List.ext_getElem
  · simp [Mem.rdN]
  · intro i h1 h2
    simp only [Mem.rdN, List.getElem_map, List.getElem_range]
    rw [Mem.rd_wrN_in z bs [] a i h2, List.getD_eq_getElem?_getD, List.getElem?_eq_getElem h2]
    rfl


theorem q_wrN (m : Mems) (a : Nat) (bs : List Byte) (n : Nat) (h : n = bs.length) :
    Mems.q { m with qdr := Mem.wrN qdrDef [] a bs } a n = bs := rdN_wrN qdrDef a bs n h

theorem f_wrN (m : Mems) (a : Nat) (bs : List Byte) (n : Nat) (h : n = bs.length) :
    Mems.f { m with flash := Mem.wrN flashDef [] a bs } a n = bs := rdN_wrN flashDef a bs n h

/-- A geometry map whose columns rise by one unit. -/
def geoImage : List Byte := image geoBytes (rising 8256)

/-- It is staged with its CRC. -/
def geoStaged : State :=
  { on (fun d => d.put F.WEB_GEO_CRC_CRC (crc32c geoImage)) with mem := { State.reset.mem with qdr := Mem.wrN qdrDef [] geoAddr geoImage } }

theorem test_meets_geo_commit :
    (∃ s : State, crc32c (s.mem.q geoAddr geoBytes) = s.dev.get F.WEB_GEO_CRC_CRC ∧ strictMono (geoOf (s.mem.q geoAddr geoBytes)).x = true) ∧
    (∃ s : State, ¬ (crc32c (s.mem.q geoAddr geoBytes) = s.dev.get F.WEB_GEO_CRC_CRC ∧
      strictMono (geoOf (s.mem.q geoAddr geoBytes)).x = true)) := by
  refine ⟨⟨geoStaged, ?_⟩, State.reset, fun h => absurd h.2 (by decide +kernel)⟩
  have hm : geoStaged.mem.q geoAddr geoBytes = geoImage := q_wrN _ _ _ _ (by simp [geoImage, image])
  rw [hm]
  constructor
  · have h := Dev.get_put_same State.reset.dev F.WEB_GEO_CRC_CRC (crc32c geoImage) (by decide)
    rw [show F.WEB_GEO_CRC_CRC.w = 32 from rfl, Nat.mod_eq_of_lt (crc32c_lt _)] at h
    exact h.symm
  · have hx : (geoOf geoImage).x = (List.range 2560).map (fun j => sext 32 (j + 1)) := by
      refine List.map_congr_left fun j hj => ?_
      have hj' := List.mem_range.1 hj
      have e := rising_word (o := 8256) (n := geoBytes) (j := j) (by unfold geoBytes; omega) (by omega) []
      rw [List.append_nil] at e
      exact congrArg (sext 32) e
    rw [hx]
    decide +kernel

/-- A curve image whose radiances rise, without and with its CRC. -/
def curveBody : List Byte := image 0x6040 (rising 0x2040)
def curveImage : List Byte := curveBody ++ leBytes 4 (crc32c curveBody)

theorem curve_image_length : curveImage.length = 0x6044 := by
  have hl : curveBody.length = 0x6040 := by simp [curveBody, image]
  have h4 (v : Nat) : (leBytes 4 v).length = 4 := by simp [leBytes]
  rw [curveImage, List.length_append, hl, h4]

theorem curve_image_ok : curveOk curveImage = true := by
  have hl : curveBody.length = 0x6040 := by simp [curveBody, image]
  have ht : (List.range 4096).map (fun j => leAt curveImage (0x40 + 2 * j) 2) = (List.range 4096).map (fun _ => 0) := by
    refine List.map_congr_left fun j hj => ?_
    have hj' := List.mem_range.1 hj
    have e (k : Nat) (hk : k < 2) : curveImage.getD (0x40 + 2 * j + k) 0 = 0 := by
      show (image _ _ ++ _).getD _ _ = _
      rw [image_getD (by omega), rising, if_pos (by omega)]
    have e0 := e 0 (by omega)
    have e1 := e 1 (by omega)
    simp only [leAt, slice, List.range_succ, List.range_zero, List.map_cons, List.map_nil, List.nil_append, List.cons_append,
      e0, e1, leNat]
    rfl
  have hr : (List.range 4096).map (fun j => leAt curveImage (0x2040 + 4 * j) 4) = (List.range 4096).map (· + 1) := by
    refine List.map_congr_left fun j hj => ?_
    have hj' := List.mem_range.1 hj
    exact rising_word (by omega) (by omega) _
  have hc : leAt curveImage 0x6040 4 = crc32c (curveImage.take 0x6040) := by
    rw [show curveImage.take 0x6040 = curveBody from List.take_left' hl, ← hl]
    exact leAt_check _ _ (crc32c_lt _)
  have hn := curve_image_length
  unfold curveOk
  simp only [ht, hr, hc, hn, beq_self_eq_true, Bool.true_and]
  decide +kernel

/-- A command whose first two entry bytes and whose bytes from 28 on are given. -/
def bareCmd (op v : List Byte) (data : List Byte) : Cmd := ⟨7, op ++ List.replicate 26 0 ++ v ++ List.replicate 32 0, 0, .ring, data, true, true, false, 0⟩

theorem bare_ready (op v data : List Byte) (f : Dev → Dev) (n : Nat) (h2 : op.length = 2) (hn : (bareCmd op v data).op = n)
    (hv : v.length = 4) (hs : (holding (bareCmd op v data) f).dev.sec.cmds = [bareCmd op v data])
    (hg : (holding (bareCmd op v data) f).dev.fwGap = false) (hr : (holding (bareCmd op v data) f).dev.reserved n = false) :
    Ready (holding (bareCmd op v data) f) n 7 (bareCmd op v data) := by
  match op, h2 with
  | [o0, o1], _ =>
    match v, hv with
    | [v0, v1, v2, v3], _ =>
      have hfl : (bareCmd [o0, o1] [v0, v1, v2, v3] data).flags = 0 := rfl
      have hsl : (bareCmd [o0, o1] [v0, v1, v2, v3] data).slots = 0 := rfl
      refine ⟨?_, hn, ?_, ?_⟩
      · rw [hs]
        exact List.find?_cons_of_pos rfl
      · unfold canStart
        simp only [hs, hg, hn, hr]
        simp [bareCmd]
      · unfold Cmd.others
        rw [hsl]
        cases (holding (bareCmd [o0, o1] [v0, v1, v2, v3] data) f).dev.selfSlot <;> rfl

theorem curve_command (data : List Byte) : ∃ (s : State) (k : Nat) (c : Cmd), Ready s 0x8003 k c ∧ c.p8 24 ≤ 1 ∧ c.data = data ∧
    s.dev.tallyFailed 11 = false :=
  ⟨holding (bareCmd [3, 0x80] [0, 0, 0, 0] data) id, 7, bareCmd [3, 0x80] [0, 0, 0, 0] data,
    bare_ready _ _ _ _ _ rfl rfl rfl rfl rfl rfl, Nat.zero_le 1, rfl, rfl⟩

theorem test_meets_curve_write : ∃ (s : State) (k : Nat) (c : Cmd), Ready s 0x8003 k c ∧ c.p8 24 ≤ 1 ∧ curveOk c.data = true ∧
    s.dev.tallyFailed 11 = false := by
  obtain ⟨s, k, c, h1, h2, h3, h4⟩ := curve_command curveImage
  exact ⟨s, k, c, h1, h2, h3 ▸ curve_image_ok, h4⟩

/-- A curve of Flash, one word of whose copy in QDR fails. -/
def curveAt (bs : List Byte) : State :=
  { on (fun d => (d.put F.PIPE_RAD_CV_STAT_SRC_H 1).onStore fun z => { z with qdrBad := [curveAddr 0 / 32] }) with
    mem := { State.reset.mem with flash := Mem.wrN flashDef [] (curveFlash 0) bs } }

theorem curve_reload (bs : List Byte) (hl : 0x6044 = bs.length) (ho : curveOk bs = true) :
    ∃ (s : State) (w a : Nat), w ∈ s.dev.store.qdrBad ∧ flashCopy s.mem s.dev (32 * w) = some a := by
  have hf : (curveAt bs).mem.f (curveFlash 0) 0x6044 = bs := f_wrN _ _ _ _ hl
  have hd : (curveAt bs).dev = (curveAt []).dev := rfl
  refine ⟨curveAt bs, curveAddr 0 / 32, curveFlash 0 + 0, List.mem_singleton.2 rfl, ?_⟩
  unfold flashCopy
  rw [hd]
  have hs : (curveAt []).dev.get F.PIPE_RAD_CV_STAT_SRC_H = 1 := by decide +kernel
  have hb : (curveAt []).dev.store.badSlots.contains (2, 0) = false := by decide +kernel
  simp only
  rw [if_neg (by decide +kernel), if_neg (by decide +kernel), if_neg (by decide +kernel), if_pos (by decide +kernel), hs]
  simp only [if_pos, hf, ho, hb]
  rfl

theorem test_meets_table_word_reload : ∃ (s : State) (w a : Nat), w ∈ s.dev.store.qdrBad ∧ flashCopy s.mem s.dev (32 * w) = some a :=
  curve_reload curveImage curve_image_length.symm curve_image_ok

theorem plate_command (v : Nat) (hv : v < 2 ^ 32) : ∃ (s : State) (k : Nat) (c : Cmd), Ready s 0x8002 k c ∧
    c.p8 24 ≤ 1 ∧ c.p8 24 = s.dev.fpa.set.gain ∧ s.dev.owner = 1 ∧ s.mem = State.reset.mem ∧
    s.dev.get F.PIPE_PL_STAT_SHADOW_REG = 1 ∧ c.f 28 4 = v ∧ s.dev.tallyFailed 10 = false := by
  have hr (d : Dev) : ((plated d).put F.PIPE_PL_STAT_SHADOW_OWNER 1).get F.PIPE_PL_STAT_SHADOW_REG = 1 := by
    rw [Dev.get_put_sep _ _ _ _ (by decide), plated, Dev.onPipe_get, Dev.get_put_sep _ _ _ _ (by decide), Dev.get_put_same _ _ _ (by decide)]
    rfl
  refine ⟨holding (bareCmd [2, 0x80] (leBytes 4 v) []) (fun d => (plated d).put F.PIPE_PL_STAT_SHADOW_OWNER 1), 7,
    bareCmd [2, 0x80] (leBytes 4 v) [], bare_ready _ _ _ _ _ rfl rfl rfl rfl rfl rfl, Nat.zero_le 1, rfl, ?_, rfl, ?_, ?_, rfl⟩
  · exact Dev.get_put_same _ F.PIPE_PL_STAT_SHADOW_OWNER 1 (by decide)
  · exact hr _
  · simp [bareCmd, Cmd.f, leAt, slice, List.range_succ, leBytes, leNat]
    omega

theorem test_meets_plate_commit : ∃ (s : State) (k : Nat) (c : Cmd), Ready s 0x8002 k c ∧ c.p8 24 ≤ 1 ∧ c.p8 24 = s.dev.fpa.set.gain ∧
    s.dev.owner = 1 ∧ crc32c (plateRead s.mem (s.dev.get F.PIPE_PL_STAT_SHADOW_REG) 0 plateBytes) = c.f 28 4 ∧ s.dev.tallyFailed 10 = false := by
  obtain ⟨s, k, c, h1, h2, h3, h4, h5, h6, h7, h8⟩ := plate_command (crc32c (plateRead State.reset.mem 1 0 plateBytes)) (crc32c_lt _)
  exact ⟨s, k, c, h1, h2, h3, h4, by rw [h5, h6, h7], h8⟩

end Sys2Proof.Tests
end

section
/-! Accesses to offsets that no register table lists (R28): each effect a block's write gives to a named register or array
needs an offset some row owns, and the plain write, the pair rules and the read give an unowned offset nothing. Where a
definition asks whether the offset is a named register, `ne_named` says it is not; that a row owns each of those registers is looked
up in the tables once. -/

namespace Sys2Proof.Unassigned
open Sys2Proof Sys2Proof.Machine

variable {off : Nat} {s : State}

/-! ### The registers the definitions name -/

/-- The registers whose write has an effect of its own, and those whose value a read computes. -/
def namedRegs : List Nat :=
  [R.SYS_RST, R.SYS_BOOT_CTL, R.CLK_CNT_CLR, R.PWR_CNT_CLR, R.PWR_BAL_CTL, R.FPA_CTL, R.FPA_ACQ_CTL, R.FPA_STAGE_CTL,
   R.PIPE_PL_CTL, R.PIPE_CNT_CLR, R.PIPE_AC_CTL, R.PROOF_SHUT_CTL, R.PROOF_SHUT_CMD, R.PROOF_SCHED, R.PROOF_CNT_CLR,
   R.WEB_CTL, R.WEB_CMD, R.WEB_GEO_CTL, R.STAT_SNAP_CTL, R.STAT_AL_CLR, R.LINK_HP_CTL, R.LINK_CNT_CLR, R.LINK_TS_CTL,
   R.STAND_CTL, R.STAND_CNT_CLR, R.HOST_CTL, R.HOST_CNT_CLR, R.SEC_CNT_CLR, R.SEC_MBX_CTL, R.MEM_TW_SEL, R.MEM_TW_BASE,
   R.MEM_TW_STAT, R.MEM_CNT_CLR, R.STORE_CNT_CLR, R.HEALTH_FAULT_MASK, R.HEALTH_FAULT_SRC, R.HEALTH_MP_CTL,
   R.HEALTH_CNT_CLR, R.AUX_REF, R.AUX_SEQ_CTL, R.AUX_CNT_CLR, R.IO_PIN_CFG, R.IO_CNT_CLR,
   R.SYS_TIME, R.STORE_OPTIME, R.STORE_CTR_FAIL, R.FPA_COPPICE_STAT, R.IO_PIN_IN, R.IO_GP_IN, R.MEM_TW_SIZE]

/-- The arrays whose writes have an effect of their own: base, stride, length, and the place of the register in an element. The
four registers of a timer fill its 16 bytes. -/
def namedArrays : List (Nat × Nat × Nat × Nat) :=
  [(R.PIPE_DM_K, 4, 8, 0), (R.STAT_AL_OUT, 4, 4, 0), (R.LINK_P_CTL, 0x40, 3, 0), (R.HOST_DMA_CTL, 0x20, 8, 0),
   (R.HOST_RING_BASE, 0x40, 16, 0xC), (R.IO_GP_CFG, 4, 8, 0),
   (R.TMR_CTL, 0x10, 8, 0), (R.TMR_CTL, 0x10, 8, 4), (R.TMR_CTL, 0x10, 8, 8), (R.TMR_CTL, 0x10, 8, 12)]

theorem namedRegs_assigned : ∀ r ∈ namedRegs, (findReg r).isSome := by decide +kernel

theorem namedArrays_assigned : ∀ a ∈ namedArrays, ∀ i < a.2.2.1, (findReg (a.1 + a.2.1 * i + a.2.2.2)).isSome := by
  decide +kernel

/-! ### An unassigned offset is none of them -/

theorem ne_of_assigned {r : Nat} (h : findReg off = none) (hr : (findReg r).isSome) : off ≠ r := by
  rintro rfl
  simp [h] at hr

theorem ne_named {r : Nat} (h : findReg off = none) (hr : r ∈ namedRegs) : off ≠ r :=
  ne_of_assigned h (namedRegs_assigned r hr)

/-- Within a named array an unassigned offset lies at another place of its element. -/
theorem place_in_array_ne {base st n k : Nat} (h : findReg off = none) (ha : (base, st, n, k) ∈ namedArrays)
    (lo : base ≤ off) (hi : off < base + st * n) : (off - base) % st ≠ k := by
  intro hk
  have hq : (off - base) / st < n := Nat.div_lt_of_lt_mul (by omega)
  have hd := Nat.div_add_mod (off - base) st
  exact ne_of_assigned h (namedArrays_assigned _ ha _ hq) (by dsimp only; omega)

/-- An unassigned word offset lies in no named array of words. -/
theorem not_in_word_array {base : Nat} (n : Nat) (h : findReg off = none) (h4 : off % 4 = 0) (hb : base % 4 = 0)
    (ha : (base, 4, n, 0) ∈ namedArrays) : ¬(base ≤ off ∧ off < base + 4 * n) := by
  rintro ⟨lo, hi⟩
  exact place_in_array_ne h ha lo hi (by omega)

/-! ### Writes -/

theorem pairOf_eq_none (h : findReg off = none) : pairOf off = none := by simp [pairOf, h]

theorem plainWrite_eq_self (h : findReg off = none) (v : Word) : plainWrite off v s = s := by
  simp [plainWrite, Dev.writeWord, h, State.onDev]

theorem sysWrite_eq_self (h : findReg off = none) (v : Word) : sysWrite off v s = s := by
  simp (disch := decide) only [sysWrite, ne_named h, plainWrite_eq_self h, if_false]

theorem fpaWrite_eq_self (h : findReg off = none) (v : Word) : fpaWrite off v s = s := by
  simp (disch := decide) only [fpaWrite, ne_named h, plainWrite_eq_self h, if_false]

theorem pipeWrite_eq_self (h : findReg off = none) (h4 : off % 4 = 0) (v : Word) : pipeWrite off v s = s := by
  have hk : ¬(R.PIPE_DM_K ≤ off ∧ off < R.PIPE_DM_K + 32) := not_in_word_array 8 h h4 rfl (by decide)
  simp (disch := decide) only [pipeWrite, ne_named h, hk, plainWrite_eq_self h, if_false]

theorem proofWrite_eq_self (h : findReg off = none) (v : Word) : proofWrite off v s = s := by
  simp (disch := decide) only [proofWrite, ne_named h, plainWrite_eq_self h, if_false]

theorem webWrite_eq_self (h : findReg off = none) (v : Word) : webWrite off v s = s := by
  simp (disch := decide) only [webWrite, ne_named h, plainWrite_eq_self h, if_false]

theorem statWrite_eq_self (h : findReg off = none) (h4 : off % 4 = 0) (v : Word) : statWrite off v s = s := by
  have ho : ¬(R.STAT_AL_OUT ≤ off ∧ off < R.STAT_AL_OUT + 16) := not_in_word_array 4 h h4 rfl (by decide)
  simp (disch := decide) only [statWrite, ne_named h, ho, plainWrite_eq_self h, if_false]

theorem linkWrite_eq_self (h : findReg off = none) (v : Word) : linkWrite off v s = s := by
  have hp : ¬(R.LINK_P_CTL ≤ off ∧ off < R.LINK_P_CTL + 0xC0 ∧ (off - R.LINK_P_CTL) % 0x40 = 0) :=
    fun ⟨lo, hi, hm⟩ => place_in_array_ne (n := 3) h (by decide) lo hi hm
  simp (disch := decide) only [linkWrite, ne_named h, hp, plainWrite_eq_self h, if_false]

theorem standWrite_eq_self (h : findReg off = none) (v : Word) : standWrite off v s = s := by
  simp (disch := decide) only [standWrite, ne_named h, plainWrite_eq_self h, if_false]

theorem hostWrite_eq_self (h : findReg off = none) (v : Word) : hostWrite off v s = s := by
  have hd : ¬(R.HOST_DMA_CTL ≤ off ∧ off < R.HOST_DMA_CTL + 0x100 ∧ (off - R.HOST_DMA_CTL) % 0x20 = 0) :=
    fun ⟨lo, hi, hm⟩ => place_in_array_ne (n := 8) h (by decide) lo hi hm
  by_cases hr : R.HOST_RING_BASE ≤ off ∧ off < R.HOST_RING_BASE + 0x400
  · have hc : (off - R.HOST_RING_BASE) % 0x40 ≠ 0xC := place_in_array_ne (n := 16) h (by decide) hr.1 hr.2
    simp (disch := decide) only [hostWrite, ne_named h, hd, hr, hc, plainWrite_eq_self h, if_false, ite_self]
  · simp (disch := decide) only [hostWrite, ne_named h, hd, hr, plainWrite_eq_self h, if_false, ite_self]

theorem secWrite_eq_self (h : findReg off = none) (p : Path) (v : Word) : secWrite p off v s = s := by
  simp (disch := decide) only [secWrite, ne_named h, plainWrite_eq_self h, if_false]

theorem memWrite_eq_self (h : findReg off = none) (p : Path) (v : Word) : memWrite p off v s = s := by
  simp (disch := decide) only [memWrite, ne_named h, plainWrite_eq_self h, if_false]

theorem healthWrite_eq_self (h : findReg off = none) (v : Word) : healthWrite off v s = s := by
  simp (disch := decide) only [healthWrite, ne_named h, plainWrite_eq_self h, or_self, if_false]

theorem auxWrite_eq_self (h : findReg off = none) (v : Word) : auxWrite off v s = s := by
  simp (disch := decide) only [auxWrite, ne_named h, plainWrite_eq_self h, if_false]

theorem not_in_timers (h : findReg off = none) (h4 : off % 4 = 0) : ¬(R.TMR_CTL ≤ off ∧ off < R.TMR_CTL + 0x80) := by
  rintro ⟨lo, hi⟩
  have hk (k : Nat) (ha : (R.TMR_CTL, 0x10, 8, k) ∈ namedArrays) := place_in_array_ne h ha lo hi
  have hctl := hk 0 (by decide)
  have hcmp := hk 4 (by decide)
  have hcnt := hk 8 (by decide)
  have hcap := hk 12 (by decide)
  simp only [R.TMR_CTL] at lo hctl hcmp hcnt hcap
  omega

theorem ioWrite_eq_self (h : findReg off = none) (h4 : off % 4 = 0) (v : Word) : ioWrite off v s = s := by
  have hg : ¬(R.IO_GP_CFG ≤ off ∧ off < R.IO_GP_CFG + 32) := not_in_word_array 8 h h4 rfl (by decide)
  simp (disch := decide) only [ioWrite, ne_named h, hg, not_in_timers h h4, plainWrite_eq_self h, if_false]

theorem regEffect_eq_self (h : findReg off = none) (h4 : off % 4 = 0) (p : Path) (v : Word) : regEffect p off v s = s := by
  simp only [regEffect, sysWrite_eq_self h, fpaWrite_eq_self h, pipeWrite_eq_self h h4, proofWrite_eq_self h, webWrite_eq_self h,
    statWrite_eq_self h h4, linkWrite_eq_self h, standWrite_eq_self h, hostWrite_eq_self h, secWrite_eq_self h,
    memWrite_eq_self h, healthWrite_eq_self h, auxWrite_eq_self h, ioWrite_eq_self h h4, ite_self]

theorem write32_eq_self (h : findReg off = none) (h4 : off % 4 = 0) (p : Path) (i : Nat) (v : Word) : write32 p i off v s = s := by
  simp only [write32, pairOf_eq_none h, regEffect_eq_self h h4]

/-! ### Reads -/

theorem liveAt_eq_zero (h : findReg off = none) (i : Nat) : s.dev.liveAt s.mem i off = 0 := by
  simp (disch := decide) only [Dev.liveAt, ne_named h, pairOf_eq_none h, h, Option.isNone_none, if_false, if_true]

theorem read32_eq_zero (h : findReg off = none) (i : Nat) : read32 i off s = (s, 0) := by
  simp (disch := decide) only [read32, pairOf_eq_none h, liveAt_eq_zero h, ne_named h, or_self, if_false, Nat.zero_mod]

/-! ### The paths: below the table window every access of an unassigned offset comes down to `write32` and `read32` -/

theorem bar0Write_eq_self (h : findReg off = none) (h4 : off % 4 = 0) (hw : off < 0x80000) (v : Word) : bar0Write off v none s = s := by
  simp only [bar0Write, barWrite, Nat.not_le.2 hw, write32_eq_self h h4, if_false, ite_self]

theorem bar0Read_eq_zero (h : findReg off = none) (hw : off < 0x80000) : bar0Read off false s = (s, 0) := by
  simp [bar0Read, barRead, Nat.not_le.2 hw, read32_eq_zero h]

theorem mgmtWrite_eq_self (h : findReg off = none) (h4 : off % 4 = 0) (hw : off < 0x80000) (hr : s.dev.ready off = true)
    (n : Nat) (v : Word) : mgmtWrite off n v s = s := by
  have hin : ¬0xFFFFC < off := by omega
  simp [mgmtWrite, hin, hr, Nat.not_le.2 hw, write32_eq_self h h4]

theorem mgmtRead_eq_zero (h : findReg off = none) (hw : off < 0x80000) (hr : s.dev.ready off = true) (late : Bool) :
    mgmtRead off late s = (s, 0, true, false) := by
  have hin : ¬0xFFFFC < off := by omega
  simp [mgmtRead, hin, hr, Nat.not_le.2 hw, read32_eq_zero h]

theorem exec_registerWrite (p : Path) (v : Word) (wide : Option Word) :
    exec (.registerWrite p off v wide) s = pathWrite p off v wide s := rfl

theorem exec_lowWordRead (p : Path) (wide : Bool) :
    exec (.lowWordRead p off wide) s = execLowWordRead p off wide s := rfl

/-- Settles O47: on both paths the write and the read of an offset that no row owns keep the state, and the read answers 0. -/
theorem unassignedOffsetsReadZero : Obligations.UnassignedOffsetsReadZero := by
  intro s off v hlt h4 h
  have hw : off < 0x80000 := by omega
  have hin : ¬0xFFFFF < off := by omega
  have hal : off / 4 * 4 = off := by omega
  refine ⟨fun hopen => ⟨⟨_, ?_, rfl⟩, ⟨s, ?_, rfl⟩⟩, fun hready => ⟨⟨_, ?_, rfl⟩, ⟨s, ?_, rfl⟩⟩⟩
  · simp [exec_lowWordRead, execLowWordRead, hin, hal, hopen, bar0Read_eq_zero h hw]
  · simp [exec_registerWrite, pathWrite, hin, h4, hopen, bar0Write_eq_self h h4 hw]
  · simp [exec_lowWordRead, execLowWordRead, hin, hal, mgmtRead_eq_zero h hw hready]
  · simp [exec_registerWrite, pathWrite, hin, hal, mgmtWrite_eq_self h h4 hw hready]

end Sys2Proof.Unassigned
end

section
/-! The write of `PROOF_SCHED` and its order (R135). That a write lands in the register is proved for every row whose fields are all plain:
RW, with every encoding of the field listed (R4, R5). Such a row stores in each of its bits the bit written. -/

namespace Sys2Proof.ProofSched
open Sys2Proof Sys2Proof.Machine

/-! ### Writes of plain rows -/

/-- A field of a 32-bit register whose every encoding is stored by a write. -/
def Plain (f : FieldRow) : Prop := f.acc = .rw ∧ f.lmin = 0 ∧ f.lmax = 2 ^ f.w - 1 ∧ 0 < f.w ∧ f.lo + f.w ≤ 32

/-- The field holds bit `i` of its register. -/
abbrev Holds (f : FieldRow) (i : Nat) : Prop := f.lo ≤ i ∧ i < f.lo + f.w

theorem writeField_testBit {f : FieldRow} (hf : Plain f) (prov : Bool) (cur v i : Nat) :
    (writeField prov f cur v).testBit i = if Holds f i then v.testBit i else cur.testBit i := by
  obtain ⟨hacc, hmin, hmax, -, -⟩ := hf
  have hle : v / 2 ^ f.lo % 2 ^ f.w ≤ f.lmax := by
    have := Nat.mod_lt (v / 2 ^ f.lo) (Nat.two_pow_pos f.w)
    omega
  have hins : writeField prov f cur v = insField cur f.lo f.w (v / 2 ^ f.lo % 2 ^ f.w) := by
    simp [writeField, hacc, hmin, hle]
  rw [hins, insField_testBit]
  by_cases h : Holds f i
  · have hw : i - f.lo < f.w := by omega
    rw [if_pos h, if_pos h, Nat.testBit_mod_two_pow, Nat.testBit_div_two_pow, Nat.sub_add_cancel h.1]
    simp [hw]
  · rw [if_neg h, if_neg h]

/-- A write of the whole word reaches every plain field. -/
theorem wordMask_reaches {f : FieldRow} (hf : Plain f) : 0xFFFFFFFF / 2 ^ f.lo % 2 ^ f.w ≠ 0 := by
  obtain ⟨-, -, -, hw, hlo⟩ := hf
  intro h0
  have hbit : (0xFFFFFFFF / 2 ^ f.lo % 2 ^ f.w).testBit 0 = true := by
    rw [Nat.testBit_mod_two_pow, Nat.testBit_div_two_pow, show 0xFFFFFFFF = 2 ^ 32 - 1 from rfl, Nat.testBit_two_pow_sub_one]
    simp; omega
  simp [h0] at hbit

/-- Of two words a whole-word write takes the written one. -/
theorem wordMask_merge {cur v : Nat} (hc : cur < 2 ^ 32) (hv : v < 2 ^ 32) :
    cur - (cur &&& 0xFFFFFFFF) + (v &&& 0xFFFFFFFF) = v := by
  have hm : ∀ x < 2 ^ 32, x &&& 0xFFFFFFFF = x := fun x hx => by
    rw [show 0xFFFFFFFF = 2 ^ 32 - 1 from rfl, Nat.and_two_pow_sub_one_eq_mod, Nat.mod_eq_of_lt hx]
  rw [hm cur hc, hm v hv]; omega

/-- Writing plain fields one after another sets the bits they hold, whichever word they start from. -/
theorem foldl_writeField_testBit (prov : Bool) (v i : Nat) : ∀ (fs : List FieldRow) (a : Nat), (∀ f ∈ fs, Plain f) →
    (a.testBit i = v.testBit i ∨ ∃ f ∈ fs, Holds f i) →
    (fs.foldl (fun a f => writeField prov f a v) a).testBit i = v.testBit i
  | [], a, _, h => h.resolve_right (by simp)
  | f :: fs, a, hp, h => by
    have hf := writeField_testBit (hp f List.mem_cons_self) prov a v i
    refine foldl_writeField_testBit prov v i fs _ (fun g hg => hp g (List.mem_cons_of_mem f hg)) ?_
    by_cases hi : Holds f i
    · exact .inl (by rw [hf, if_pos hi])
    · rcases h with h | ⟨g, hg, hgi⟩
      · exact .inl (by rw [hf, if_neg hi, h])
      · rcases List.mem_cons.1 hg with rfl | hg
        · exact absurd hgi hi
        · exact .inr ⟨g, hg, hgi⟩

/-- Over plain fields a whole-word write is each field's write of the written word. -/
theorem writeRow_eq_foldl {fs : List FieldRow} (hp : ∀ f ∈ fs, Plain f) (prov : Bool) {cur v : Nat} (tied : Nat)
    (hc : cur < 2 ^ 32) (hv : v < 2 ^ 32) :
    writeRow prov fs cur v 0xFFFFFFFF tied = fs.foldl (fun a f => writeField prov f a v) cur := by
  refine List.foldl_rel (r := Eq) rfl fun f hf a b hab => ?_
  simp only [hab, if_neg (wordMask_reaches (hp f hf)), (hp f hf).1, wordMask_merge hc hv]

/-- A register whose plain fields hold all its bits reads, after a write, the word written. -/
theorem reg_writeWord_of_plain {off : Nat} {r : RegRow} (hr : findReg off = some (r, false)) (hpair : r.pair = false)
    (hoff : r.base + r.stride * r.idx off = off) (hp : ∀ f ∈ r.flds, Plain f) (hall : ∀ i < 32, ∃ f ∈ r.flds, Holds f i)
    (d : Dev) (v : Word) : (d.writeWord off v.toNat).reg off = v := by
  have hstored : (writeRow (d.bit F.SEC_STAT_PROVISIONED) r.flds (d.reg off).toNat v.toNat 0xFFFFFFFF (d.tied off)) % 2 ^ 32
      = v.toNat := by
    rw [writeRow_eq_foldl hp _ _ (d.reg off).isLt v.isLt]
    refine Nat.eq_of_testBit_eq fun i => ?_
    rw [Nat.testBit_mod_two_pow]
    by_cases hi : i < 32
    · simp [hi, foldl_writeField_testBit _ v.toNat i _ _ hp (.inr (hall i hi))]
    · simp [hi, BitVec.testBit_toNat, BitVec.getLsbD_of_ge v i (by omega)]
  apply BitVec.eq_of_toNat_eq
  simpa [Dev.writeWord, hr, Dev.putRow, Dev.rowVal, hpair, hoff, Dev.reg_setReg] using hstored

/-! ### `PROOF_SCHED` -/

/-- The row of `PROOF_SCHED` in the register table. -/
def schedRow : RegRow :=
  ⟨"PROOF_SCHED", 0x0C00C, 0x0, 1, false, [⟨0, 8, .rw, 0xA, 0, 255⟩, ⟨8, 8, .rw, 0xE, 0, 255⟩, ⟨16, 16, .rw, 0x3C, 0, 65535⟩]⟩

theorem findReg_proofSched : findReg R.PROOF_SCHED = some (schedRow, false) := by decide +kernel

theorem schedRow_plain : ∀ f ∈ schedRow.flds, Plain f := by simp [schedRow, Plain]

theorem schedRow_holds_all (i : Nat) (hi : i < 32) : ∃ f ∈ schedRow.flds, Holds f i := by
  simp only [schedRow, Holds, List.mem_cons, List.not_mem_nil, or_false, exists_eq_or_imp, exists_eq_left]
  omega

theorem reg_writeWord_proofSched (d : Dev) (v : Word) : (d.writeWord R.PROOF_SCHED v.toNat).reg R.PROOF_SCHED = v :=
  reg_writeWord_of_plain findReg_proofSched rfl rfl schedRow_plain schedRow_holds_all d v

/-- Showing the condition of R134 leaves every other word. -/
theorem reg_showOverdue (d : Dev) {o : Nat} (ho : o ≠ F.PROOF_STAT_OVERDUE.reg) : d.showOverdue.reg o = d.reg o := by
  simp only [Dev.showOverdue, Dev.putBit_eq, Dev.put, F.PROOF_STAT_OVERDUE, Bool.false_eq_true, if_false, Dev.reg_setReg]
  exact if_neg ho

/-- The order of R135 among the three times of a word. -/
def Ordered (v : Word) : Prop :=
  v.toNat % 256 ≤ v.toNat / 256 % 256 ∧ (v.toNat / 65536 = 0 ∨ v.toNat / 256 % 256 ≤ v.toNat / 65536)

theorem schedWrite_of_ordered {v : Word} (h : Ordered v) (d : Dev) :
    schedWrite v d = (d.writeWord R.PROOF_SCHED v.toNat).showOverdue := if_pos h

theorem schedWrite_of_not_ordered {v : Word} (h : ¬Ordered v) (d : Dev) : schedWrite v d = d := if_neg h

theorem reg_schedWrite {v : Word} (h : Ordered v) (d : Dev) : (schedWrite v d).reg R.PROOF_SCHED = v := by
  rw [schedWrite_of_ordered h, reg_showOverdue _ (by decide), reg_writeWord_proofSched]

/-! ### The instructions -/

theorem exec_proofSchedWrite (v : Word) (s : State) : exec (.proofSchedWrite v) s = .next (s.onDev (schedWrite v)) := rfl

theorem exec_proofSchedWrite_of_not_ordered {v : Word} (h : ¬Ordered v) (s : State) : exec (.proofSchedWrite v) s = .next s := by
  rw [exec_proofSchedWrite, State.onDev, schedWrite_of_not_ordered h]

theorem exec_proofForceDue (s : State) : exec .proofForceDue s = execProofForceDue s := rfl

theorem exec_proofForceDue_of_never {s : State} (h : s.dev.get F.PROOF_SCHED_FORCE_MIN = 0) : exec .proofForceDue s = .next s := by
  simp [exec_proofForceDue, execProofForceDue, State.onDev, h]

/-- Settles O14: an ordered word is stored because all three fields of `PROOF_SCHED` are plain and fill it; the two other
writes keep the state. -/
theorem proofScheduleKeepsItsOrder : Obligations.ProofScheduleKeepsItsOrder := fun s =>
  ⟨fun v hv => ⟨_, exec_proofSchedWrite v s, reg_schedWrite hv s.dev⟩,
   fun _ hv => exec_proofSchedWrite_of_not_ordered hv s,
   exec_proofForceDue_of_never⟩

end Sys2Proof.ProofSched
end

section
/-! How a command that may start runs and how it ends: `runCmd` marks it started and hands it to its effect, and a completion takes it
off the held commands and places its entry (R235, R249, R261). -/

namespace Sys2Proof.Completion
open Sys2Proof Sys2Proof.Machine

/-! ### Little-endian numbers -/

theorem leNat_lt : ∀ bs : List Byte, leNat bs < 256 ^ bs.length
  | [] => Nat.one_pos
  | b :: bs => by
    have hb := b.isLt
    have hbs := leNat_lt bs
    simp only [leNat, List.length_cons, Nat.pow_succ]
    omega

theorem leAt_lt (bs : List Byte) (o n : Nat) : leAt bs o n < 256 ^ n := by
  simpa [leAt, slice] using leNat_lt (slice bs o n)

/-! ### Words written one after another into a register array -/

/-- After the first `n` elements of an array are written, each of them reads its own value: no later one reaches it. -/
theorem get_putArray {f : Fld} (v : Nat → Nat) (d : Dev) {i : Nat} : ∀ n, (∀ j < n, (f.at j).ok = true) →
    (∀ j < n, j ≠ i → (f.at j).sep (f.at i) = true) → i < n →
    ((List.range n).foldl (fun d j => d.put (f.at j) (v j)) d).get (f.at i) = v i % 2 ^ (f.at i).w
  | 0, _, _, hi => absurd hi (Nat.not_lt_zero i)
  | n + 1, hok, hsep, hi => by
    rw [List.range_succ, List.foldl_append, List.foldl_cons, List.foldl_nil]
    by_cases hn : n = i
    · subst hn
      exact Dev.get_put_same _ _ _ (hok n (Nat.lt_succ_self n))
    · rw [Dev.get_put_sep _ _ _ _ (hsep n (Nat.lt_succ_self n) hn)]
      exact get_putArray v d n (fun j hj => hok j (Nat.lt_succ_of_lt hj)) (fun j hj => hsep j (Nat.lt_succ_of_lt hj)) (by omega)

/-- The mailbox's completion registers read the words of the entry written to them. -/
theorem get_mbxCpl (b : List Byte) (d : Dev) {i : Nat} (hi : i < 4) :
    ((List.range 4).foldl (fun d j => d.put (F.SEC_MBX_CPL_DATA.at j) (leAt b (4 * j) 4)) d).get (F.SEC_MBX_CPL_DATA.at i)
      = leAt b (4 * i) 4 := by
  have hsep : ∀ i < 4, ∀ j < 4, j ≠ i → (F.SEC_MBX_CPL_DATA.at j).sep (F.SEC_MBX_CPL_DATA.at i) = true := by decide
  have hw : ∀ i < 4, (F.SEC_MBX_CPL_DATA.at i).w = 32 := by decide
  rw [get_putArray (fun j => leAt b (4 * j) 4) d 4 (by decide) (hsep i hi) hi, hw i hi]
  exact Nat.mod_eq_of_lt (leAt_lt b (4 * i) 4)

/-! ### A completion -/

section
variable {d : Dev} {c : Cmd} (st dt res : Nat)

theorem cmds_complete : (d.complete c st dt res).sec.cmds = d.sec.cmds.filter (fun x => x.k != c.k) := by
  unfold Dev.complete Dev.completeAs
  split
  · split <;> simp [Dev.showExec, List.range_succ]
  · next h => exact (List.filter_eq_self.2 (by simpa using h)).symm

theorem store_complete : (d.complete c st dt res).store = d.store :=
  (Dev.complete_w0 d c st dt res).parts .store (by decide)

/-- The completion of a held command stands where its origin wants it; `s` is any earlier state with the same entries waiting for
ring 1. -/
theorem cplPlaced_complete {s t : State} (hheld : d.sec.cmds.any (fun x => x.k == c.k) = true) (hcpls : d.host.cpls = s.dev.host.cpls)
    (ht : t.dev = d.complete c st dt res) : CplPlaced [] c st dt res s t := by
  unfold CplPlaced
  rw [ht, Dev.complete, Dev.completeAs, if_pos hheld]
  cases c.origin with
  | ring => simp [Dev.showExec, hcpls]
  | mbx p =>
    refine ⟨?_, ?_, fun i hi => ?_⟩
    · simp (disch := decide) [Dev.showExec, Dev.bit_put_sep, Dev.bit_put_same, F.SEC_MBX_STAT_BUSY, b2n]
    · simp (disch := decide) [Dev.showExec, Dev.bit_put_sep, Dev.bit_put_same, F.SEC_MBX_STAT_DONE, b2n]
    · have hexec : ∀ i < 4, F.SEC_STAT_EXEC.sep (F.SEC_MBX_CPL_DATA.at i) = true := by decide
      have hdone : ∀ i < 4, F.SEC_MBX_STAT_DONE.sep (F.SEC_MBX_CPL_DATA.at i) = true := by decide
      have hbusy : ∀ i < 4, F.SEC_MBX_STAT_BUSY.sep (F.SEC_MBX_CPL_DATA.at i) = true := by decide
      dsimp only [Dev.showExec, Dev.putBit]
      rw [Dev.get_put_sep _ _ _ _ (hexec i hi), Dev.get_put_sep _ _ _ _ (hdone i hi), Dev.get_put_sep _ _ _ _ (hbusy i hi),
        get_mbxCpl _ _ hi]
  | group txn => simp

end

/-! ### A command that may start -/

section
variable {s : State} {op k : Nat} {c : Cmd}

theorem k_of_ready (h : Ready s op k c) : c.k = k := by simpa using List.find?_some h.held

theorem mem_of_ready (h : Ready s op k c) : c ∈ s.dev.sec.cmds := List.mem_of_find?_eq_some h.held

/-- The row finds the same command: it is the first held under its number, and bears the row's opcode. -/
theorem find_of_ready (h : Ready s op k c) : s.dev.sec.cmds.find? (fun c => c.k == k && c.op == op) = some c := by
  obtain ⟨hk, as, bs, hl, has⟩ := List.find?_eq_some_iff_append.1 h.held
  refine List.find?_eq_some_iff_append.2 ⟨by simpa [h.isOp] using hk, as, bs, hl, fun a ha => ?_⟩
  simp [show (a.k == k) = false by simpa using has a ha]

/-- A command that may start and names no other slot is marked as started and handed to its effect. -/
theorem runCmd_of_ready (h : Ready s op k c) (g f : Cmd → State → State) :
    runCmd op k g f s = f c (s.onDev fun d => d.markStarted k) := by
  have halone : (c.others (s.onDev fun d => d.markStarted k).dev).isEmpty = true := h.alone
  simp only [runCmd, find_of_ready h, h.may, h.alone, Bool.true_or, Bool.and_self, if_true]
  exact if_pos halone

theorem cmds_markStarted (d : Dev) (k : Nat) : (d.markStarted k).sec.cmds =
    d.sec.cmds.map (fun x => if x.k == k then { x with started := true } else x) := rfl

/-- Marking leaves the numbers of the held commands, and the others as they are. -/
theorem filter_cmds_markStarted (d : Dev) (k : Nat) :
    (d.markStarted k).sec.cmds.filter (fun x => x.k != k) = d.sec.cmds.filter (fun x => x.k != k) := by
  simp only [cmds_markStarted, beq_iff_eq]
  induction d.sec.cmds with
  | nil => rfl
  | cons x xs ih => by_cases hx : x.k = k <;> simp [hx, ih]

theorem waits_of_ready (h : Ready s op k c) {t : State} (ht : t.dev.sec = (s.dev.markStarted k).sec) : Waits k t := by
  refine ⟨{ c with started := true }, ?_, ?_, rfl⟩
  · rw [ht, cmds_markStarted]
    exact List.mem_map.2 ⟨c, mem_of_ready h, by simp [k_of_ready h]⟩
  · show c.k = k
    exact k_of_ready h

/-- A command that completes once it is marked as started has ended. -/
theorem ended_of_ready (h : Ready s op k c) {t : State} {st dt res : Nat} (ht : t.dev = (s.dev.markStarted k).complete c st dt res) :
    Ended c st dt res s t := by
  obtain rfl := k_of_ready h
  obtain ⟨x, hx, hxk, -⟩ := waits_of_ready h (t := s.onDev fun d => d.markStarted c.k) rfl
  have hheld : (s.dev.markStarted c.k).sec.cmds.any (fun x => x.k == c.k) = true := List.any_eq_true.2 ⟨x, hx, by simp [hxk]⟩
  refine ⟨?_, cplPlaced_complete st dt res hheld rfl ht⟩
  rw [ht, cmds_complete, filter_cmds_markStarted]

end

end Sys2Proof.Completion
end

section
/-! FLASH_ERASE (R279): its range is checked, then what bars it, and what is left waits in the queue of background writes. -/

namespace Sys2Proof.FlashErase
open Sys2Proof Sys2Proof.Machine Sys2Proof.Completion

/-- What R279 wants of an address and a length. -/
def RangeOk (a n : Nat) : Prop := a % 0x20000 = 0 ∧ n % 0x20000 = 0 ∧ a + n ≤ 0x20000000

variable {d : Dev} {c : Cmd}

theorem doFlashErase_of_not_rangeOk (h : ¬RangeOk (c.f 32 8) (c.f 24 4)) :
    doFlashErase c d = d.complete c St.badParam 0 0 := by
  have hbad : c.f 32 8 % 0x20000 ≠ 0 ∨ c.f 24 4 % 0x20000 ≠ 0 ∨ 0x20000000 < c.f 32 8 + c.f 24 4 := by
    simp only [RangeOk] at h
    omega
  simp only [doFlashErase, if_pos hbad]

theorem doFlashErase_of_rangeOk (h : RangeOk (c.f 32 8) (c.f 24 4)) :
    doFlashErase c d = if eraseBarred d (c.f 32 8) (c.f 24 4) then d.complete c St.refused 0 0
      else d.flashPush (.erase c.k (c.f 32 8) (c.f 24 4)) := by
  obtain ⟨ha, hn, hend⟩ := h
  have hok : ¬(c.f 32 8 % 0x20000 ≠ 0 ∨ c.f 24 4 % 0x20000 ≠ 0 ∨ 0x20000000 < c.f 32 8 + c.f 24 4) := by omega
  simp only [doFlashErase, if_neg hok, eraseBarred, Bool.or_assoc]

/-- What bars an erase is read from registers and the store alone. -/
theorem eraseBarred_markStarted (d : Dev) (k a n : Nat) : eraseBarred (d.markStarted k) a n = eraseBarred d a n := by
  have hrange : ∀ w : FlashWhat, w.range (d.markStarted k) = w.range d := fun w => by cases w <;> rfl
  simp only [eraseBarred, hrange]
  rfl

theorem sec_flashPush (d : Dev) (w : FlashWhat) : (d.flashPush w).sec = d.sec := (Dev.flashPush_w0 d w).parts .sec (by decide)

theorem store_wake (d : Dev) (i : Nat) : (d.wake i).store = d.store := (Dev.wake_w0 d i).parts .store (by decide)

theorem flashQ_flashPush (d : Dev) (w : FlashWhat) : (d.flashPush w).store.flashQ = d.store.flashQ ++ [⟨w, 0⟩] := by
  simp [Dev.flashPush, store_wake]

section
variable {s : State} {k : Nat} {e : Dev}

/-- FLASH_ERASE that may start leaves the block as `doFlashErase` does, and the memories alone. -/
theorem answers_flashErase (h : Ready s 0x800E k c) {P : State → Prop} (he : doFlashErase c (s.dev.markStarted k) = e)
    (hP : P { s with dev := e }) : Answers (.flashErase k) s P := by
  subst he
  exact ⟨_, congrArg Host.Outcome.next (runCmd_of_ready h groupBegin _), hP⟩

/-- Where the erase completes at once, it ends with nothing queued. -/
theorem answers_complete (h : Ready s 0x800E k c) {st : Nat}
    (he : doFlashErase c (s.dev.markStarted k) = (s.dev.markStarted k).complete c st 0 0) :
    Answers (.flashErase k) s (fun t => Ended c st 0 0 s t ∧ t.mem = s.mem ∧ t.dev.store = s.dev.store) :=
  answers_flashErase h he ⟨ended_of_ready h rfl, rfl, store_complete st 0 0⟩

/-- Where the erase joins the background writes, the command waits. -/
theorem answers_flashPush (h : Ready s 0x800E k c) {w : FlashWhat}
    (he : doFlashErase c (s.dev.markStarted k) = (s.dev.markStarted k).flashPush w) :
    Answers (.flashErase k) s (fun t => Waits k t ∧ t.mem = s.mem ∧ t.dev.store.flashQ = s.dev.store.flashQ ++ [⟨w, 0⟩]) :=
  answers_flashErase h he ⟨waits_of_ready h (sec_flashPush _ w), rfl, flashQ_flashPush _ w⟩

end

/-- Settles O8: the range is checked first and what bars it next, both on registers and a store that starting the command leaves
alone; each way ends in one completion or one entry of the queue. -/
theorem flashEraseChecksItsRange : Obligations.FlashEraseChecksItsRange := by
  intro s k c h
  refine ⟨fun hbad => answers_complete h (doFlashErase_of_not_rangeOk ?_), fun ha hn hend hbar => answers_complete h ?_,
    fun ha hn hend hfree => answers_flashPush h ?_⟩
  · simp only [RangeOk]; omega
  · rw [doFlashErase_of_rangeOk ⟨ha, hn, hend⟩, eraseBarred_markStarted, if_pos hbar]
  · rw [doFlashErase_of_rangeOk ⟨ha, hn, hend⟩, eraseBarred_markStarted, if_neg (by simp [hfree]), k_of_ready h]

end Sys2Proof.FlashErase
end
